-- ==== Sys2Proof/Word.lean ====
section
/-! DEFINITION. The word types of the block: bytes, registers, addresses, and sparse tables. -/

namespace Sys2Proof

/-- One byte. -/
abbrev Byte := BitVec 8
/-- A register (R105: registers are 32 bits wide). -/
abbrev Word := BitVec 32
/-- A string of bytes: a datagram, a frame, a domain's content. -/
abbrev Bytes := List Byte
/-- A master ID (R21): 12 bits. -/
abbrev Master := BitVec 12
/-- A sparse table: pairs of a key and a row, keys strictly rising; an absent key has no row. -/
abbrev Tab (α : Type) := List (Nat × α)

end Sys2Proof
end

