-- ==== Sys2Proof/Syntax.lean ====
section
/-! DEFINITION. The commands of the block: one constructor of `Instr` per row of the operation table. -/

namespace Sys2Proof

/-- The strap pins that a whole-device reset latches at its release (R39). -/
structure Straps where
  bootMode : BitVec 3 := 0
  pairId   : Bool := false
deriving DecidableEq, Repr

/-- A dictionary session (R79): a CANopen FD client, a datagram session of R96, the BAR2 window, or
station firmware on the control cores. -/
inductive Session where
  | can (node : BitVec 8)
  | dgram (ip : BitVec 128) (port : BitVec 16) (front : Bool)
  | bar2
  | firmware
deriving DecidableEq, Repr

/-- One write among the writes of a request. -/
structure DWrite where
  idx  : BitVec 16
  sub  : BitVec 8
  data : Bytes
deriving DecidableEq, Repr

/-- The operations a USDO transfer can carry (R90). -/
inductive UsdoOp where
  | read (idx : BitVec 16) (sub : BitVec 8)
  | write (idx : BitVec 16) (sub : BitVec 8) (data : Bytes)
  | domain (idx : BitVec 16) (sub : BitVec 8) (data : Bytes)
deriving DecidableEq, Repr

/-- The register spaces of the physical function (R105). -/
inductive RegSpace where
  | bar0 | bar2 | bar4
deriving DecidableEq, Repr

/-- How a stored word reads (R30, R433). -/
inductive Ecc where
  | clean | corrected | uncorrectable
deriving DecidableEq, Repr

/-- The Bobbins of R31 and the frame Bobbins of R128. Tiles and engines are physical. -/
inductive BobbinId where
  | ctu (tile : Fin 72) (lane : Fin 2)
  | hint (tile : Fin 72)
  | slice (tile : Fin 72)
  | surface (dtile : Fin 40) (stack : Fin 4)
  | touch (engine : Fin 9)
  | timestamp
  | controlTile (tile : Fin 72)
  | controlDtile (dtile : Fin 40)
  | controlEngine (engine : Fin 9)
  | frameDown (tile : Fin 72)
  | frameUp (tile : Fin 72)
deriving DecidableEq, Repr

/-- How the read of an encode context record goes (R255): clean; some 32-byte words beyond the continuity header and its shadow unreadable;
the header unreadable and its shadow intact; both unreadable. -/
inductive RecordRead where
  | clean
  | fields (bad : List (Fin 128))
  | header
  | both
deriving DecidableEq, Repr

/-- A holder of pool blocks (R227): `OWNER_KIND` and `OWNER_ID`. -/
inductive Holder where
  | stream (n : BitVec 16)
  | context (n : BitVec 12)
  | surface (h : BitVec 24)
  | device
deriving DecidableEq, Repr

/-- One DIMM channel as training finds it (R439, R440). -/
structure Channel where
  trained   : Bool
  ranks     : BitVec 3
  rankBytes : Nat
deriving DecidableEq, Repr

/-- The starting point a coded picture gives a receiver (R277, R281). -/
inductive PicStart where
  | irap
  | gdr (recovery : BitVec 32)
  | recoveryPoint (recovery : BitVec 32)
  | plain
deriving DecidableEq, Repr

/-- A reference block whose read was uncorrectable (R278): the CTU that reads it, the picture it belongs to, its number there. -/
structure RefError where
  ctu   : Nat
  poc   : BitVec 32
  block : Nat
deriving DecidableEq, Repr

/-- What the prediction of a CTU read (R280): blocks of reference pictures, and CTUs of its own picture. -/
structure CtuRead where
  ctu   : Nat
  inter : List (BitVec 32 × Nat)
  intra : List Nat
deriving DecidableEq, Repr

/-- What the decoding process of the standard finds in one access unit (R259 to R281): the standards are outside
the spec, so the tile's findings come with the command. -/
structure PicFound where
  supported  : Bool
  /-- The picture begins a new coded video sequence. -/
  newCvs     : Bool
  start      : PicStart
  cropL      : BitVec 16
  cropT      : BitVec 16
  outW       : BitVec 16
  outH       : BitVec 16
  depth10    : Bool
  info       : Word
  isRef      : Bool
  longTerm   : Bool
  output     : Bool
  tooLarge   : Bool
  /-- Pictures that its reference picture sets and lists name, and those of them that the standard itself generates. -/
  named      : List (BitVec 32)
  generated  : List (BitVec 32)
  uncovered  : List Nat
  slicesCut  : BitVec 16
  /-- What each CTU read, in decoding order, and the reads that were uncorrectable. -/
  reads      : List CtuRead
  refErrors  : List RefError
  /-- An AVC field whose complementary field never arrived (R260): whether the top field is the missing one. -/
  missingTop : Option Bool
  /-- An item of the bitstream carried its error tag (R287). -/
  itemTagged : Bool
  /-- Held pictures whose reference marking this picture changes (R273): reference, long-term. -/
  remark     : List (BitVec 32 × Bool × Bool)
  /-- Held pictures that leave without output. -/
  drop       : List (BitVec 32)
  /-- Pictures that the output process releases now, in output order. -/
  outputs    : List (BitVec 32)
  /-- Cycles that the entropy stage held the others back, and cycles waited for reference blocks. -/
  binStall   : Word
  waitRef    : Word
deriving DecidableEq, Repr

/-- A repairable or replaceable unit (R18, R469). The number is physical. -/
inductive HwUnit where
  | encTile (n : Fin 72)
  | decTile (n : Fin 40)
  | engine (n : Fin 9)
  | core (n : Fin 18)
  | gavonLane (n : Fin 5)
deriving DecidableEq, Repr

/-- The kinds of regrow trigger (R469). -/
inductive TriggerKind where
  | margin | corrected | contained | unanswered
deriving DecidableEq, Repr

/-- The access types of a fault record (R463's map of `ACCESS`). -/
inductive Access where
  | read | write | fetch | atomic | dma | descriptor | none
deriving DecidableEq, Repr

/-- What hardware does to the addressed field in the very cycle of a register access (R112, R113): the bits it
sets, and the increment of a counter; a fault that reaches the fault unit, by kind, master, address and access (R462). -/
structure SameCycle where
  sets : Word := 0
  inc  : Word := 0
  fault : Option (BitVec 8 × Master × BitVec 48 × Access) := none
deriving DecidableEq, Repr

/-- A target of the interrupt controller: a logical core or an MSI-X vector (R417). -/
inductive IntTarget where
  | core (k : Fin 16)
  | vector (v : Fin 2048)
deriving DecidableEq, Repr

/-- A bank of sources: the shared arrays, or one core's private bank (R415). -/
inductive IntBank where
  | shared
  | priv (k : Fin 16)
deriving DecidableEq, Repr

/-- Which external 10 MHz input (R367). -/
inductive RefInput where
  | tenMhz | refIn
deriving DecidableEq, Repr

/-- A received Announce of a foreign clock (R374): what the default BMCA compares. -/
structure Announce where
  clockId      : BitVec 64
  priority1    : BitVec 8
  clockClass   : BitVec 8
  accuracy     : BitVec 8
  variance     : BitVec 16
  priority2    : BitVec 8
  gmId         : BitVec 64
  stepsRemoved : BitVec 16
  timeSource   : BitVec 8
  utcOffset    : BitVec 16
  utcValid     : Bool
deriving DecidableEq, Repr

/-- One entry of a mirrored journal record (R490). -/
structure MirrorEntry where
  idx  : BitVec 16
  sub  : BitVec 8
  row  : Option (BitVec 32)
  data : Bytes
deriving DecidableEq, Repr

/-- A mirrored delta of the learned tables (R490). -/
inductive LearnDelta where
  | macSet (vlan : BitVec 12) (mac : BitVec 48) (group static suspended : Bool) (dest : BitVec 20)
  | macDel (vlan : BitVec 12) (mac : BitVec 48)
  | present (endpoint : BitVec 20) (on : Bool)
  | resolved (endpoint : BitVec 20) (mac : BitVec 48)
deriving DecidableEq, Repr

/-- A write that a secondary relays, and in the primary's answer its status (R493). -/
structure RelayWrite where
  idx    : BitVec 16
  sub    : BitVec 8
  row    : Option (BitVec 32)
  data   : Bytes
  status : BitVec 8 := 0
deriving DecidableEq, Repr

/-- PTP state the primary mirrors (R490, R381). -/
structure MirrorTime where
  seconds    : BitVec 48
  nanos      : BitVec 30
  todValid   : Bool
  clockClass : BitVec 8
  freq       : BitVec 32
  utcOffset  : BitVec 16
  leap       : BitVec 8
  leapAt     : BitVec 64
deriving DecidableEq, Repr

/-- Content of a resynchronisation frame (R499). -/
inductive Resync where
  | params (entries : List MirrorEntry)
  | learned (deltas : List LearnDelta)
  | stream (n : BitVec 16) (header : Bytes)
deriving DecidableEq, Repr

/-- What is wrong with a stored codeword of R433: the positions in error, and whether it was written at another address. -/
structure CodeErr where
  bits  : List (Fin 272) := []
  moved : Bool := false
deriving DecidableEq, Repr

/-- What a word of memory holds when the patrol scrub reaches it (after the outer code in DDR5), and the DDR5 device, other than one
marked failed, whose bits of the burst are in error (R435, R441, R442); or an SRAM row in which a corrected error was found, and the unit whose memory it is (R468, R473). -/
inductive ScrubFound where
  | sram (row : Nat) (u : Option HwUnit)
  | hbm (e : CodeErr)
  | ddr (e : CodeErr) (device : Option (Fin 10))
deriving DecidableEq, Repr

/-- What a job's reads of host memory return (R386, R394): the fragment table where `INDIRECT` asks for one, and the data;
none for a read that failed. -/
structure HostRead where
  table : Option Bytes := some []
  data  : Option Bytes := some []
deriving DecidableEq, Repr

/-- The failures of a DMA access (R410). -/
inductive DmaErr where
  | host | device
deriving DecidableEq, Repr

/-- A write to a DMA channel's registers in the cycle in which its transfer ends (R408): it wins and is the held start's value. -/
inductive DmaReg where
  | src (v : BitVec 64) | dst (v : BitVec 64) | len (v : Word) | cfg (v : Word)
deriving DecidableEq, Repr

/-- The commands: one constructor per row of the operation table, in the table's order. -/
inductive Instr where
  -- start, reset, service, power (02, 19)
  | powerOnReset (st : Straps)
  | pinReset (lowNs : Nat) (st : Straps)
  | restartRequest (st : Straps)
  | hostReset
  | bootWatchdogExpiry (st : Straps)
  | recoveryWatchdogExpiry (st : Straps)
  | pllsLocked
  | sramRepair
  | persistentStoreMount (bad : List (Nat × Fin 3)) (tornSegments : List Nat) (differ : Nat)
  | hbmTrained
  | journalReplay
  | selvedgeEnable
  | timeUnitStart
  | ddr5Trained (channels : List Channel)
  | firmwareLoad
  | bootGo (m : Master)
  | bootWindowWrite (m : Master) (off : BitVec 21) (data : Bytes)
  | bootComplete
  | leaveNewt (st : Straps)
  | firmwareSlotWrite (se : Session) (slotB : Bool) (off : BitVec 32) (data : Bytes)
  | firmwareSlotVerified (ok : Bool)
  | servicePress
  | serviceRelease
  | serviceHold5s (st : Straps)
  | serviceHold15s (st : Straps) (committed : Bool)
  | serviceStuck
  | pwrfailWarning
  | shutdownRecord
  | brownout
  | learnLogCapture
  | learnLogSegmentDone
  | snapshotWrite
  | railMonitorTrip (rail : Fin 13) (lowNs : Nat) (st : Straps)
  | regulatorPoll (answers : List (Option (BitVec 16 × BitVec 16)))
  -- dictionary and persistent store (03, 16)
  | dictRead (se : Session) (idx : BitVec 16) (sub : BitVec 8)
  | dictWrite (se : Session) (idx : BitVec 16) (sub : BitVec 8) (data : Bytes)
  | cursorWrite (se : Session) (idx : BitVec 16) (data : Bytes)
  | writeGroup (se : Session) (ws : List DWrite)
  | domainSegmentWrite (se : Session) (idx : BitVec 16) (sub : BitVec 8) (off : BitVec 32) (data : Bytes)
  | domainFinalWrite (se : Session) (idx : BitVec 16) (sub : BitVec 8) (off : BitVec 32) (data : Bytes)
  | domainRead (se : Session) (idx : BitVec 16) (sub : BitVec 8) (off : BitVec 32) (room : BitVec 13)
  | journalRecordClose
  | journalCommit (copies : Fin 4)
  | parameterImageWrite (failures : List Nat)
  | wearLevellerCopy
  -- dictionary paths
  | usdoRequest (client : BitVec 8) (op : UsdoOp)
  | nmtStart
  | nmtStop
  | nmtEnterPreoperational
  | nmtResetCommunication
  | nmtResetNode
  | canopenHeartbeat
  | dictDatagram (front : Bool) (vlan : BitVec 12) (ip : BitVec 128) (port : BitVec 16) (payload : Bytes)
  | dwRead (m : Master) (v : Word)
  | dwWrite (m : Master) (v : Word)
  | dwFinalDomainWrite (m : Master) (v : Word)
  | dwStagedWrite (m : Master) (v : Word)
  -- registers (04)
  | registerWrite (m : Master) (sp : RegSpace) (off : BitVec 25) (be : BitVec 4) (v : Word) (hw : SameCycle)
  | rcRead (m : Master) (sp : RegSpace) (off : BitVec 25) (hw : SameCycle)
  | wideLoRead (m : Master) (off : BitVec 24)
  | wideHiRead (m : Master) (off : BitVec 24)
  | wideLoWrite (m : Master) (off : BitVec 24) (v : Word)
  | wideHiWrite (m : Master) (off : BitVec 24) (v : Word)
  | unlockKey (m : Master) (v : Word)
  | errInjectGo (m : Master) (v : Word)
  | scratchInjectedRead (m : Master)
  | indirectDataRead (m : Master) (w : Fin 24)
  | indirectDataWrite (m : Master) (w : Fin 24) (v : Word)
  | indirectComplete (w : Fin 24) (item : Ecc)
  | indirectTimeout (w : Fin 24)
  -- Bobbins (01)
  | bobbinWrite (b : BobbinId) (item : BitVec 256)
  | bobbinRead (b : BobbinId) (e : Ecc)
  -- the encode path (05 to 08, 12)
  | slotBoundary (stream : BitVec 16)
  | tileTake (tile : Fin 64) (rec : RecordRead) (badEntries : List Nat)
  | battenFrameStart (tile : Fin 64) (e : Ecc)
  | ctuCompose (tile : Fin 64) (badReads : List (Fin 64 × Nat))
  | battenFrameEnd (tile : Fin 64) (e : Ecc)
  | laneCtuStart (tile : Fin 64) (lane : Fin 2) (hint item : Ecc)
  | laneRequest (tile : Fin 64) (lane : Fin 2)
  | laneCtuEnd (tile : Fin 64) (lane : Fin 2) (refBad : Option (BitVec 13 × Fin 4))
  | skipRunCtu (tile : Fin 64)
  | rowClose (tile : Fin 64)
  | ctuFinal (tile : Fin 64) (ctu : BitVec 16) (filtered : Bool)
  | frameFinal (tile : Fin 64) (crc sealItem : Ecc)
  | frameOpenTimeout (tile : Fin 64)
  | battenSilenceTimeout (tile : Fin 64)
  | flushApply (tile : Fin 64)
  | packetForm (tile : Fin 64) (item : Ecc)
  | packetReplicate (tile : Fin 64) (badEndpoints badMacs : List Nat) (badGroup : Bool)
  | schedulerDecision (node : Fin 20)
  -- the reference pool (08)
  | blockAllocate (m : Master) (h : Holder) (longTerm : Bool)
  | blockName (m : Master) (block : BitVec 29) (gen : BitVec 16) (h : Holder)
  | blockRelease (m : Master) (block : BitVec 29) (gen : BitVec 16)
  | surfaceTableCommit (surface : BitVec 24)
  | settle
  | prefetch (stream : BitVec 16)
  | blockMove (block : BitVec 29) (toDdr : Bool) (e : Ecc)
  | movedFrameFree
  | streamStart (stream : BitVec 16)
  | poolAudit
  | poolAuditPass
  -- decode (09)
  | decodePacket (ctx : BitVec 12) (tagged : Bool)
  | reorderTimeout (ctx : BitVec 12)
  | ssrcRelock (ctx : BitVec 12)
  | st2110Frame (tile : Fin 32) (item : Ecc)
  | decodeTake (tile : Fin 32) (width height : BitVec 16) (poc : BitVec 32)
  | decodePictureEnd (tile : Fin 32) (found : PicFound) (item : Ecc)
  | timedOutputCommit (ctx : BitVec 12)
  -- Treadle (10)
  | microwordExecute (tile : Fin 72)
  | treadleInterrupt (tile : Fin 72)
  | treadleEvent (tile : Fin 72) (ev : Word)
  | treadleFault (tile : Fin 72) (code : BitVec 3)
  | safePointTimeout (tile : Fin 72)
  | treadleRestart (tile : Fin 72)
  | patchApply (tile : Fin 72)
  -- Selvedge (11)
  | packetReceive (port : Fin 16) (data : Bytes)
  | classify (pkt : Nat) (tree : Ecc) (ingestBad dstBad srcBad : Bool)
  | reorderRelease (port : Fin 16)
  | lengthStomp (port : Fin 16)
  | learnEvent (bad : Bool)
  | agingScan
  | macSearch (bad : Bool)
  | macNext
  | macInsert (bad : Bool)
  | macDelete (bad : Bool)
  | macFlushByPort (steps : Nat)
  | macFlushAll (steps : Nat)
  | prefixInsert
  | prefixDelete
  | prefixExactSearch
  | prefixLongestMatch (bad : Option Nat)
  | prefixNext
  | rulesetActivate
  | snoopReport (port : Fin 16) (vlan : BitVec 12) (mac : BitVec 48)
  | snoopLeave (port : Fin 16) (vlan : BitVec 12) (mac : BitVec 48)
  | snoopQueryReceived (port : Fin 16) (vlan : BitVec 12) (query : Bool) (ip : BitVec 128)
  | membershipExpiry (port : Fin 16) (vlan : BitVec 12) (mac : Option (BitVec 48))
  | generalQuerySend (vlan : BitVec 12)
  | linkDown (port : Fin 16)
  | linkUp (port : Fin 16)
  -- touch (05)
  | touchDatagram (ip : BitVec 128) (payload : Bytes)
  | touchEvent (engine : Fin 8) (e : Ecc)
  | touchStuck (endpoint : BitVec 20) (contact : Fin 10)
  -- receiver reports (12)
  | presenceScan
  | rtcpReceive (ip : BitVec 128) (port : BitVec 16) (payload : Bytes)
  | sealCheck
  | sealRecordWaitTimeout
  -- time (13)
  | ppsInEdge (frac : BitVec 16)
  | ppsMissing
  | referenceInputLost (i : RefInput)
  | holdoverLimitCrossed
  | timeStep
  | setSeconds
  | announceSend (port : Fin 16)
  | syncSend (port : Fin 16) (item : Ecc)
  | delayReq (port : Fin 16) (item : Ecc) (unicast : Option (BitVec 48 × BitVec 128)) (source : BitVec 80) (seq : BitVec 16)
  | foreignAnnounce (port : Fin 16) (a : Announce)
  | announceReceiptTimeout
  | syncMetadataSend (port : Fin 16)
  | ppsOutEdge
  | todLine
  -- host queues and DMA (14)
  | sqDoorbell (p : Fin 4096) (v : Word)
  | cqDoorbell (c : Fin 1024) (v : Word)
  | sqEnable (m : Master) (p : Fin 4096) (v : Word)
  | sqDisable (m : Master) (p : Fin 4096) (v : Word)
  | sqReset (m : Master) (p : Fin 4096)
  | cqEnable (m : Master) (c : Fin 1024) (v : Word)
  | cqDisable (m : Master) (c : Fin 1024) (v : Word)
  | cqReset (m : Master) (c : Fin 1024)
  | entryFetch (p : Fin 4096) (entries : Option (List Bytes))
  | dispatch
  | nop (job : Nat)
  | surfaceLoad (job : Nat) (host : HostRead)
  | surfaceFree (job : Nat)
  | surfaceRead (job : Nat) (table : Option Bytes) (hostBad : Bool)
  | bitstream (job : Nat) (host : HostRead)
  | packetSend (job : Nat) (host : HostRead)
  | receivePost (job : Nat) (table : Option Bytes)
  | jobComplete (job : Nat)
  | dmaGo (m : Master) (ch : Fin 32)
  | dmaPause (m : Master) (ch : Fin 32)
  | dmaResume (m : Master) (ch : Fin 32)
  | dmaAbort (m : Master) (ch : Fin 32)
  | dmaDone (ch : Fin 32) (data : Bytes) (same : List DmaReg)
  | dmaAccessError (ch : Fin 32) (e : DmaErr) (addr : BitVec 48) (moved : Bytes)
  | dmaHaltedClear (m : Master)
  -- interrupts and the buffer pool (15)
  | interruptRaise (bank : IntBank) (n : BitVec 12) (m : Master) (detail : Bytes)
  | interruptClaim (m : Master) (t : IntTarget)
  | interruptComplete (m : Master) (t : IntTarget) (n : BitVec 12)
  | pendSet (m : Master) (bank : IntBank) (w : Fin 128) (v : Word)
  | pendClr (m : Master) (bank : IntBank) (w : Fin 128) (v : Word) (hw : Word)
  | maskSet (m : Master) (bank : IntBank) (w : Fin 128) (v : Word)
  | maskClr (m : Master) (bank : IntBank) (w : Fin 128) (v : Word)
  | sgi (m : Master) (k : Fin 16) (v : Word)
  | moderationExpiry (n : BitVec 12)
  | streamLogTake (m : Master) (c : Fin 8)
  | bufferAllocate (m : Master) (e : Ecc) (stale : List (BitVec 18))
  | bufferFree (m : Master) (b : BitVec 18)
  | bufferGive (m : Master) (b : BitVec 18) (owner : Master)
  | bpmMinFreeWrite (m : Master) (v : Word)
  | bitmapRebuildDone
  -- memory (16)
  | patrolScrub (addr : BitVec 48) (f : ScrubFound)
  | pseudoChannelRegrow (stack : Fin 4) (pc : Fin 31)
  | pseudoChannelCopyDone (stack : Fin 4) (lost : List (BitVec 48))
  | rankRetire (ch : Fin 8) (rank : Fin 4)
  | rankMigrationDone (ch : Fin 8) (lost : List (BitVec 48))
  | rankPowerDown (ch : Fin 8) (rank : Fin 4)
  -- faults, wear, cabinet (17)
  | faultReport (kind : BitVec 8) (acc : Access) (m : Master) (addr : BitVec 48) (struck : Option HwUnit)
  | faultRecordRelease (m : Master) (v : Word) (newcomer : Option (BitVec 8 × Master × BitVec 48 × Access))
  | errPulseEnd (st : Straps)
  | faultLogSummary
  | ageingSample (margins : List (HwUnit × BitVec 8))
  | regrowTrigger (u : HwUnit) (k : TriggerKind)
  | regrowRequest
  | spareSelfTestDone (ok : Bool)
  | unitSwap
  | coreWatchdogExpiry (k : Fin 16)
  | temperatureLimit (tj : Int)
  | thermalTrip (tj : Int) (heldNs : Nat)
  | gpioInputAccept (n : Fin 16) (level : Bool) (heldUs : Nat) (chatter : Word)
  | gpioStuck (n : Fin 16)
  -- the pair (18)
  | pairAliveToggle
  | pairAliveLost
  | croakSend
  | croakReceive (payload : Bytes)
  | partnerSilent
  | takeover
  | takeoverAnnounceRepeat
  | gavonJournalRecord (seq : BitVec 64) (entries : List MirrorEntry)
  | gavonLearnDelta (d : LearnDelta)
  | gavonStreamRecord (stream : BitVec 16) (header : Bytes)
  | gavonTime (t : MirrorTime)
  | relayedRequest (se : Session) (ws : List RelayWrite)
  | mirrorConfirm (seq : BitVec 64)
  | gavonLinkUp (halfB : Bool)
  | gavonLinkDown (halfB : Bool)
  | roleDecision
  | resyncFrame (r : Resync)
  | resyncComplete
  | switchover
  | clearPairState
  -- rows added at the table's end
  | referenceInputGood (i : RefInput)
  | temperatureLimitCleared (tj : Int)
  | thermalResetRelease (tj : Int) (st : Straps)
  | snapshotVerified
  | canBusOff (on : Bool)
  | secondsCountApply
  | pairAliveRestored
  | syncReceive (port : Fin 16) (offsetNs : Int)
  | boundaryScan
deriving DecidableEq, Repr

end Sys2Proof
end

