-- ==== Sys2Proof/Decode.lean ====
section
/-! DEFINITION. Commands spelt as words: the operation table gives no row any bits, so no word spells one. -/

namespace Sys2Proof

/-- The command that the low `nbits` bits of `w` spell by the operation table: the table gives bits to no row. -/
def decodeTableWord (_nbits _w : Nat) : Option Instr := none

end Sys2Proof
end

