-- ==== Sys2Proof/Config.lean ====
section
/-! DEFINITION. What one part fixes (fuses, stepping, masks) and the free values: constants with no body, so that a
statement about them holds for every value. A free value is applied to the counter `Clock.free`, which every
use advances, or to the operands it depends on. -/

namespace Sys2Proof.Config

/-! ### Fixed by a part -/

/-- Serial number, from fuses (R102). -/
opaque serial : BitVec 32
/-- Base MAC address, from fuses (R49). -/
opaque baseMac : BitVec 48
/-- Grade of the part: true for PY8860-X (R1). -/
opaque extended : Bool
/-- Boot ROM revision (R102). -/
opaque bootRom : BitVec 32
/-- Dictionary revision of the firmware that runs (R102, R104): the spec gives the field and no number. -/
opaque dictRevision : BitVec 16
/-- Firmware version as text (R76), for the VERSION of its image. -/
opaque versionText : BitVec 32 → Bytes
/-- What the spec leaves open of the four layers of the clock-face stream's layout, and its font, built into the boot ROM (R144). -/
opaque clockGeometry : Nat → Nat
opaque clockFont : Bytes
/-- Codes of the control program in the boot ROM and flash images need no value: only their outcome is state. -/
opaque freeNat : Nat → Nat
/-- A free byte string. -/
opaque freeBytes : Nat → Bytes
/-- A free bit. -/
opaque freeBit : Nat → Bool

/-- Where an empty firmware slot is programmed, and the size of the boot flash (R44, R63): the spec gives neither. -/
opaque slotOffset : Bool → Nat
opaque flashSize : Nat

/-- Bytes of a learn-log segment of so many deltas (R66): the spec gives a delta no layout. -/
opaque segmentBytes : Nat → Nat
/-- Whether the recovery firmware runs at a time, so that it restarts its watchdog (R55). -/
opaque recoveryRuns : Nat → Bool
/-- The host part of the IPv4 link-local address (RFC 3927) of the front ports (true) and the management port, and the interface
identifier of the IPv6 one (R49). -/
opaque linkLocal4 : Bool → Nat
opaque linkLocal6 : Bool → BitVec 64

/-- Frames of the HBM and DDR5 pool (R226), of which the spec gives no number: the second for a usable DDR5 capacity. -/
opaque hbmFrames : Nat
opaque ddrFrames : Nat → Nat

/-! ### Free values of the codec, whose standards are outside the spec -/

/-- Whether control core `k` waits for an interrupt at time `t` (R420): the program of the core decides it. -/
opaque coreWaits : Nat → Nat → Bool
/-- How far the loop filters of a standard reach across an edge, in luma samples, by the value of `PICTURE_INFO` (R279). -/
opaque filterReach : Nat → Nat
/-- Bits of the coded form of a CTU, for the free counter (R169, R177). -/
opaque ctuBits : Nat → Nat
/-- What the lane weighs of a CU's coding (R162, R163, R169): the SATD of an intra mode; distortion and bits of a coding; the bits of a vector
difference; whether a split to the deepest level is reached before the bound; the sample at quarter resolution of 16; the interpolated
sample of 8 × 8 at a fractional position. The coder's context states and the standards' arithmetic decide them. -/
opaque satd : Nat → List Int → Nat
opaque codingCost : Nat → List Int → Nat × Nat
opaque mvBits : Nat → Int → Int → Nat
opaque reached : Nat → List Int → Bool
opaque quarterSample : List Nat → Nat
opaque interpolate : Nat → Nat → Nat → List Nat → Nat
/-- The candidates that a standard derives for a CU from its neighbours (R168): merge and MMVD motion of the two lists, as entry and vector, and
vector predictors for a reference. -/
opaque mergeList : Nat → List Int → List (Option (Nat × Int × Int) × Option (Nat × Int × Int))
opaque mmvdList : Nat → List Int → List (Option (Nat × Int × Int) × Option (Nat × Int × Int))
opaque predictors : Nat → List Int → Nat → List (Int × Int)
/-- Coded bytes of a row (R177). -/
opaque nalBytes : Nat → Bytes
/-- A syntax structure of a standard as bytes behind its NAL unit header, for the values of its elements that the spec fixes: the coding
of a structure, and its other elements, are the standards' (R168, R213, R216). -/
opaque syntaxBytes : String → List (String × Nat) → Bytes
/-- Whether a level of a codec's standard covers a picture size and a sample rate in luma samples; its highest bit rate and coded picture
buffer, in bits (R167, R201). -/
opaque levelCovers : Nat → Nat → Nat → Nat → Bool
opaque levelMaxRate : Nat → Nat → Nat
opaque levelMaxCpb : Nat → Nat → Nat
/-- The microcode ROM of R290: 16 Ki microwords of 32 bits. -/
opaque microRom : Nat → BitVec 32
/-- The nano-word ROM of R290. -/
opaque nanoRom : Nat → BitVec 160
/-- Where the tables of the pool begin in HBM (false), and the pool frames in DDR5 (true), in units of 8 KiB (R226, R236): the spec gives no
addresses. -/
opaque poolBase : Bool → Nat
/-- The check bits of the GC-256 code for the data bits and the address of a word (R432): the spec gives the code's properties, no matrix. -/
opaque gcCheck : BitVec 256 → BitVec 40 → BitVec 16
/-- Bank and row of an offset in a rank (R445), and whether the SPD's row mapping gives a row a neighbour at a distance, above or below. -/
opaque bankRow : Nat → Nat × Nat
opaque rowExists : Nat → Nat → Nat → Int → Bool
/-- The 32-bit LFSR's next value (R445): its polynomial is the controller's. -/
opaque lfsrNext : BitVec 32 → BitVec 32
/-- Place of the seal records behind the record in the frame they share (R247), in units of 32 bytes. -/
opaque sealPlace : Nat
/-- Scaled and filtered sample values where the spec gives no exact arithmetic. -/
opaque freeSample : Nat → Nat → Nat

end Sys2Proof.Config
end

