-- ==== Sys2Proof/Machine/Parts/Base.lean ====
section
/-! DEFINITION. State of the block, first part: clocks, pins, start, persistent store, dictionary and its paths. -/

namespace Sys2Proof.Machine

/-- The model's clock: nanoseconds since power was first applied, the counter that every use of a free
value advances, and whether boundary scan has disconnected the core (R515). Not registers of the block. -/
structure Clock where
  now  : Nat := 0
  free : Nat := 0
  scan : Bool := false
deriving DecidableEq, Repr

/-- Pin levels and filters (R503, R60, R64, R477, R483, R509). -/
structure Pins where
  straps     : Straps := {}
  /-- Filtered `SERVICE_N` level: true is high, released (R61). -/
  serviceN   : Bool := true
  /-- Filtered `PWRFAIL_N` level: true is high, and the time since when (R42, R66). -/
  pwrfailN   : Bool := true
  pwrfailAt  : Nat := 0
  ppsOut     : Bool := false
  /-- `TEN_MHZ_OUT` runs; it is held low otherwise (R40, R379). -/
  tenMhz     : Bool := false
  aliveOut   : Bool := false
  gpioOut    : BitVec 8 := 0
deriving DecidableEq, Repr

/-- The service-button timer (R60, R61): it alone survives an internal restart. -/
structure Service where
  pressedAt : Option Nat := none
  seenHigh  : Bool := true
  did5      : Bool := false
  did15     : Bool := false
  didStuck  : Bool := false
deriving DecidableEq, Repr

/-- A firmware image being programmed into a flash slot (R63). -/
structure SlotProgram where
  req   : Nat
  op    : Nat
  slotB : Bool
  off   : Nat
  image : Bytes
deriving DecidableEq, Repr

/-- A learn-log segment or a snapshot of the learned tables (R66, R455): the MAC table, group
membership, endpoint presence. -/
structure Learned where
  seq     : Nat
  ptp     : BitVec 64
  deltas  : List LearnDelta
  whole   : Bool
deriving DecidableEq, Repr

/-- What started on the control cores (R46, R55, R59, R43). -/
inductive Running where
  | nothing | firmware | newt | debugHold
deriving DecidableEq, Repr

/-- A value of the dictionary: a number (two's complement in its type's width) or a string or domain. -/
inductive PVal where
  | num (n : Nat)
  | bytes (b : Bytes)
deriving DecidableEq, Repr

/-- Start-up: the steps of R41 reached since the reset, the boot objects of R57 and R63, host boot (R47, R48)
and the watchdogs (R52, R55). -/
structure Boot where
  resetAt      : Nat := 0
  held         : Bool := false
  bootMode     : BitVec 3 := 0
  pairId       : Bool := false
  plls         : Bool := false
  sram         : Bool := false
  mounted      : Bool := false
  hbm          : Bool := false
  replayed     : Bool := false
  selvedge     : Bool := false
  timeUp       : Bool := false
  ddr          : Bool := false
  cause        : BitVec 8 := 2
  outcome      : BitVec 8 := 0
  countAtStart : BitVec 8 := 0
  ptpAtStart   : BitVec 64 := 0
  newt         : Bool := false
  running      : Running := .nothing
  version      : Word := 0
  /-- `ENTRY` of the image that was started: logical core 0 begins at this offset of the L2 base (R46). -/
  entry        : Word := 0
  watchdog     : Option Nat := none
  recovery     : Option Nat := none
  bootState    : BitVec 8 := 4
  imageBad     : Bool := false
  window       : Tab Byte := []
  /-- Values at the start of the parameters that act only from a reset on (R76, R258, R339, R457, R501). -/
  atStart      : Tab PVal := []
  presses      : Word := 0
  /-- Firmware images being programmed, in arrival order: the first is under way (R63). -/
  slots        : List SlotProgram := []
  warning      : Bool := false
  shutdown     : Bool := false
  /-- A host set `BOOT_GO` before the firmware step (R47). -/
  go           : Bool := false
  /-- The firmware step has been taken. -/
  decided      : Bool := false
  /-- A learn-log segment and a snapshot whose writes are under way (R66, R455). -/
  segWrite     : Option Learned := none
  /-- When the last learn-log segment was captured (R66). -/
  lastCapture  : Nat := 0
  /-- A role taken during start is not yet stored, since a power warning was present (R42). -/
  roleOwed     : Bool := false
  snapWrite    : Option Learned := none
deriving DecidableEq, Repr

/-- The per-session values of the MAC command object 0x3040 (R333). -/
structure MacArgs where
  vlan    : BitVec 16 := 0
  mac     : BitVec 48 := 0
  dest    : BitVec 8 := 0
  static  : Bool := false
  outcome : BitVec 8 := 0
  fMac    : BitVec 48 := 0
  fVlan   : BitVec 16 := 0
  fDest   : BitVec 16 := 0
  fFlags  : BitVec 8 := 0
  fAge    : Word := 0
  removed : Word := 0
  pos     : Word := 0xFFFFFFFF
deriving DecidableEq, Repr

/-- The per-session values of the longest-match command object 0x3050 (R336). -/
structure LpmArgs where
  pre     : BitVec 128 := 0
  len     : BitVec 8 := 0
  hop     : BitVec 128 := 0
  vlan    : BitVec 16 := 0
  action  : BitVec 8 := 0
  outcome : BitVec 8 := 0
  pos     : Word := 0xFFFFFFFF
deriving DecidableEq, Repr

/-- One journal entry (R84, R451). -/
structure JEntry where
  seq  : BitVec 64
  tag  : BitVec 8
  idx  : BitVec 16
  sub  : BitVec 8
  row  : Option (BitVec 32)
  val  : PVal
  /-- The request that waits for it, and the operation's place in that request. -/
  req  : Nat
  op   : Nat
  se   : Session
  /-- The session's arguments as a MAC or prefix command was issued (R333, R336). -/
  mac  : MacArgs := {}
  lpm  : LpmArgs := {}
  /-- A host reset has ended the session: the results go (R101). -/
  drop : Bool := false
deriving DecidableEq, Repr

/-- A journal record (R85, R451): its entries, when it was opened and closed, and the PTP seconds at its commit. -/
structure JRecord where
  openedAt : Nat
  entries  : List JEntry
  time     : BitVec 64 := 0
  /-- The number that a mirrored record confirms once it has committed (R490). -/
  confirm  : Option (BitVec 64) := none
deriving DecidableEq, Repr

/-- One entry of the fault log or the event ring (R422, R466). -/
structure LogEntry where
  source  : BitVec 16
  master  : Master
  seq     : Word
  seconds : BitVec 48
  nanos   : BitVec 30
  detail  : Bytes
deriving DecidableEq, Repr

/-- The last fatal fault, held in retention registers (R465, 0x7011). -/
structure LastFatal where
  kind    : BitVec 8 := 0
  master  : Master := 0
  access  : BitVec 8 := 0
  addr    : BitVec 64 := 0
  seconds : BitVec 64 := 0
  nanos   : BitVec 32 := 0
deriving DecidableEq, Repr

/-- The stored role and pair state (R482, R498). -/
structure PairStored where
  known   : Bool := false
  epoch   : BitVec 16 := 0
  primary : Bool := false
  second  : Bool := false
deriving DecidableEq, Repr

/-- Sparing as the boot area keeps it (R470): for each logical number its physical unit, 0xFF out of service,
and the units that can never be used again. Positions absent hold the map of R19. -/
structure Sparing where
  enc     : Tab Nat := []
  dec     : Tab Nat := []
  batten  : Tab Nat := []
  core    : Tab Nat := []
  lanes   : Tab Nat := []
  retired : List HwUnit := []
  pseudo  : Tab Nat := []
  ranks   : Tab Nat := []
  repairs : List Nat := []
deriving DecidableEq, Repr

/-- The persistent store (R449 to R456) and the boot flash (R44): what survives every reset and power loss. -/
structure Store where
  failed     : Nat := 0
  newtLatch  : Bool := false
  /-- The start outcome that set the latch (R59). -/
  latchBy    : BitVec 8 := 0x10
  starts     : Word := 0
  brownouts  : Word := 0
  torn       : Word := 0
  shutdownRec : Option Nat := none
  pair       : PairStored := {}
  sparing    : Sparing := {}
  /-- The journal ring: committed records whose image units have not all verified, oldest first (R450, R453). -/
  journal    : List JRecord := []
  /-- A record whose copies were being written when a reset came (R452). -/
  cutOff     : Option JRecord := none
  /-- The segment whose write a reset has cut off, before the mount finds what became of it (R68, R455). -/
  segCut     : Option Learned := none
  /-- The image of 0x3030 was accepted after the last activation (R324). -/
  rulesLater : Bool := false
  /-- Counts of the pair stream and of the device-local stream (R482), and the newest pair-stream number held. -/
  nextSeq    : Nat := 1
  nextLocal  : Nat := 1
  pairSeq    : BitVec 64 := 0
  /-- The parameter image: for each key the value and the sequence number of the newest entry in it. -/
  image      : Tab (Nat × PVal) := []
  learnLog   : List Learned := []
  snapA      : Option Learned := none
  snapB      : Option Learned := none
  learnSeq   : Nat := 0
  faultLog   : List LogEntry := []
  faultSeq   : Word := 0
  fatals     : Nat := 0
  committedFatal : LastFatal := {}
  spares     : Nat := 256
  blocksRetired : Nat := 0
  readOnly   : Bool := false
  diverged   : Nat := 0
  /-- Physical block of each logical block that is not at its own number, and writes of each physical block. -/
  blockMap   : Tab Nat := []
  wear       : Tab Nat := []
  sinceLevel : Nat := 0
  /-- Physical blocks retired (R449). -/
  dead       : List Nat := []
  /-- The rule-set image last activated (R324). -/
  ruleset    : Bytes := []
  flash      : Tab Byte := []
deriving DecidableEq, Repr

/-- An accepted write to an action object, waiting to act (R74). -/
structure Act where
  idx  : BitVec 16
  sub  : BitVec 8
  val  : PVal
  tag  : BitVec 8
  se   : Session
deriving DecidableEq, Repr

/-- A session's own state (R79, R98, R333, R336). -/
structure SessState where
  rows  : Tab Word := []
  stage : Tab Bytes := []
  mac   : MacArgs := {}
  lpm   : LpmArgs := {}
deriving DecidableEq, Repr

/-- Where the answer to a request goes. -/
inductive Reply where
  | none
  | usdo (node : BitVec 8)
  | dgram (reqId : Word)
  | bar2
  | relay
  /-- The asker is gone (R91, R96, R101): the result is discarded. -/
  | discard
deriving DecidableEq, Repr

/-- One operation of a request in the intake. -/
structure ReqOp where
  /-- `OP` of R94: 1 read, 2 write, 3 final domain write. -/
  code   : BitVec 8
  idx    : BitVec 16
  sub    : BitVec 8
  /-- The session's row as the operation was issued (R79). -/
  row    : Option (BitVec 32) := none
  off    : Nat := 0
  /-- Bytes the transfer can carry (R520); a datagram's room is computed when it is answered. -/
  room   : Nat := 4294967296
  /-- The status once the operation has ended, and the value of a read. -/
  status : Option (BitVec 8) := none
  value  : Bytes := []
deriving DecidableEq, Repr

/-- A request in the intake (R87): it stays until its last operation has ended. -/
structure Req where
  id    : Nat
  se    : Session
  tag   : BitVec 8
  reply : Reply
  ops   : List ReqOp
deriving DecidableEq, Repr

/-- The dictionary server (R69 to R89). -/
structure Dict where
  params   : Tab PVal := []
  sess     : List (Session × SessState) := []
  openRec  : Option JRecord := none
  waiting  : List JRecord := []
  reqs     : List Req := []
  nextReq  : Nat := 0
  acts     : List Act := []
  lastSeq  : BitVec 64 := 0
  lastTag  : BitVec 8 := 0
  lastObj  : Word := 0
  refused  : Word := 0
  busy     : Word := 0
deriving DecidableEq, Repr

/-- One remembered datagram session (R96, R97). -/
structure DgSession where
  se        : Session
  lastUsed  : Nat
  answers   : List (Word × Bytes)
  running   : List (Word × Nat)
deriving DecidableEq, Repr

/-- NMT states (R91). -/
inductive Nmt where
  | preOperational | operational | stopped
deriving DecidableEq, Repr

/-- CANopen FD and the datagram server (R90 to R97). -/
structure Paths where
  nmt       : Nmt := .preOperational
  heartbeat : Nat := 0
  busOff    : Bool := false
  errReg    : BitVec 8 := 0
  sessions  : List DgSession := []
  received  : Word := 0
  dropped   : Word := 0
  evicted   : Word := 0
deriving DecidableEq, Repr

/-- The BAR2 window (R99 to R101, R521). -/
structure Bar2 where
  index   : BitVec 16 := 0
  sub     : BitVec 8 := 0
  offset  : Word := 0
  irq     : Bool := false
  more    : Bool := false
  op      : BitVec 2 := 0
  len     : BitVec 13 := 0
  overrun : Bool := false
  done    : Bool := false
  busy    : Bool := false
  code    : BitVec 8 := 0
  data    : Tab Byte := []
  group   : List (DWrite × Option (BitVec 32)) := []
deriving DecidableEq, Repr

/-- An access in flight through an indirect window (R120). -/
structure IAccess where
  m      : Master
  target : BitVec 12
  offset : BitVec 18
  write  : Option Word
  issued : Nat
  /-- A host reset came after it: its result is discarded (R124). -/
  gone   : Bool := false
deriving DecidableEq, Repr

/-- An indirect window (R117). -/
structure Window where
  target  : BitVec 12 := 0
  offset  : BitVec 18 := 0
  autoInc : Bool := false
  err     : Bool := false
  errCode : BitVec 4 := 0
  flight  : List IAccess := []
deriving DecidableEq, Repr

/-- The device block and the register access rules (R105 to R124). -/
structure DevRegs where
  scratch   : Word := 0
  injKind   : BitVec 2 := 0
  injGo     : Bool := false
  lockViol  : Word := 0
  armed     : List Master := []
  windows   : Tab Window := []
  /-- Read shadows and write shadows of R115 and R116, keyed by 2^24 × master + offset of `name_LO`. -/
  rdShadow  : Tab Word := []
  wrShadow  : Tab Word := []
deriving DecidableEq, Repr

/-- One Bobbin (R24 to R30): its items with their error tags, and the items that the stalled source holds; the counts behind the
write and read pointers, the copy of each behind the synchroniser into the opposite island, the updates of each that may not have crossed
yet (time, and the pointer from then on), and the time of a reset that both directions have not yet acknowledged. -/
structure Bobbin where
  items   : List (BitVec 256 × Bool) := []
  held    : List (BitVec 256) := []
  wr      : Nat := 0
  rd      : Nat := 0
  wrSeen  : Nat := 0
  rdSeen  : Nat := 0
  wrLog   : List (Nat × Nat) := []
  rdLog   : List (Nat × Nat) := []
  resetAt : Option Nat := none
deriving DecidableEq, Repr

end Sys2Proof.Machine
end

