-- ==== Sys2Proof/Machine/Parts/Codec.lean ====
section
/-! DEFINITION. State of the block, second part: composition, encode tiles with Treadle, the reference pool,
encode and decode contexts, decode tiles. -/

namespace Sys2Proof.Machine

/-- A CTU block (R222): 2,048 words of three 10-bit samples. -/
abbrev Block := List Word

/-! ### Treadle (R289 to R312) -/

/-- The class of a CTU for rate control (R199). -/
inductive CtuClass where
  | refresh | exact | other
deriving DecidableEq, Repr

/-- A lane's request (R303): raster index, class, whether the CTU is its row's first lane-coded one; how far the ROM handler has come
with it since the interrupt: it has called `ROW_QP`, it has called `CTU_GATE`. -/
structure LaneReq where
  lane  : Fin 2
  idx   : Nat
  cls   : CtuClass
  first : Bool
  since : Nat := 0
  qped  : Bool := false
  gated : Bool := false
deriving DecidableEq, Repr

/-- The faults of R302 as the registers hold them, the queues, the stores and the registers of Treadle. -/
structure Treadle where
  upc       : BitVec 15 := 0
  w         : Tab Word := []
  z         : Bool := false
  n         : Bool := false
  c         : Bool := false
  stack     : List (BitVec 15) := []
  masked    : Bool := false
  waiting   : Bool := false
  stopped   : Bool := false
  safeTimer : Nat := 0
  atSafe    : Bool := true
  cutReport : Option Nat := none
  abandon   : Bool := false
  laneReq   : List LaneReq := []
  events    : List Word := []
  stalled   : List Word := []
  /-- Header buffer: the header and bits of the open NAL unit, the ended NAL units. -/
  bits      : List Bool := []
  nalOpen   : Option (BitVec 16) := none
  nals      : List Bytes := []
  /-- Estimates of CTUs started whose bits are not yet in `ESUM`: CTU index and bits (R296). -/
  estimates : List (Nat × Nat) := []
  match_    : Tab (BitVec 10 × BitVec 14) := []
  patchRam  : Tab Word := []
  nanoPatch : Tab (BitVec 160) := []
  level     : BitVec 8 := 0
  /-- `PATCH_STATE`: 0 none, 1 active, 2 withdrawn, 3 application pending (R311). -/
  patch     : BitVec 2 := 0
  /-- The tile runs a patch; an application waits though a withdrawal came after the write (R309, R310). -/
  live      : Bool := false
  owed      : Bool := false
  fault     : Bool := false
  overflow  : Bool := false
  code      : BitVec 3 := 0
  faultAddr : BitVec 15 := 0
  faults    : Word := 0
  gateWait  : Word := 0
  faultedAt : List Nat := []
deriving DecidableEq, Repr

/-! ### Frames in an encode tile -/

/-- A hint record (R148). -/
structure Hint where
  kind    : BitVec 2
  refresh : Bool
  last    : Bool
  subst   : Bool
  x       : BitVec 7
  y       : BitVec 7
  mvx     : BitVec 13
  mvy     : BitVec 12
  layer   : BitVec 6
deriving DecidableEq, Repr

/-- How a CTU of the frame was coded (R161). -/
inductive CtuPath where
  | lane (cls : CtuClass) (qp : Nat) (maxQp : Bool)
  | skip
  | grey
deriving DecidableEq, Repr

/-- Motion from one list (R170, R171): an entry of the list and a vector in quarter luma samples. -/
structure Mv where
  ref : Nat
  x   : Int
  y   : Int
deriving DecidableEq, Repr

/-- How the motion of an inter CU is coded (R168, R173, R176): by the merge candidate of an index, by one with a merge vector difference
(MMVD, VVC), or by a vector difference (AMVP). -/
inductive MvCoding where
  | merge (idx : Nat)
  | mmvd (idx : Nat)
  | amvp
deriving DecidableEq, Repr

/-- How a CU is predicted (R168, R170 to R176, R211): intra in a mode of its standard with a reference line, or inter from list 0, list 1 or
both. -/
inductive Pred where
  | intra (mode line : Nat)
  | inter (l0 l1 : Option Mv) (how : MvCoding)
deriving DecidableEq, Repr

/-- Prediction units of an HEVC CU (R168): 2N×2N, 2N×N, N×2N. -/
inductive Parts where
  | one | rows | cols
deriving DecidableEq, Repr

/-- A CU of a CTU: its place and size in luma samples of the picture, its prediction, and whether it is a skip CU, without residual. Of an
HEVC CU of two prediction units each unit is a record of its own. -/
structure Cu where
  x    : Nat
  y    : Nat
  w    : Nat
  h    : Nat
  pred : Pred
  skip : Bool := false
  parts : Parts := .one
deriving DecidableEq, Repr

/-- One CTU of the frame in coding: settled (R165), entropy-coded, final (R183), its new block. -/
structure FrameCtu where
  hint    : Hint
  path    : Option CtuPath := none
  settled : Bool := false
  coded   : Bool := false
  bits    : Nat := 0
  final   : Bool := false
  fringe  : Bool := false
  recon   : Option Block := none
  block   : Option Nat := none
  cus     : List Cu := []
  /-- Choice of SAO and of the adaptive loop filter, luma (R162, R175): 0 is off. -/
  sao     : Nat := 0
  alf     : Nat := 0
deriving DecidableEq, Repr

/-- A lane with its CTU (R162). -/
structure Lane where
  ctu     : Option Nat := none
  started : Nat := 0
  cleared : Bool := false
  items   : List (BitVec 256) := []
  intra   : Bool := false
  freeAt  : Option Nat := none
  stallAt : Option Nat := none
  /-- Lane cycles waited for Treadle since the lane became free: they count in `TRD_GATE_WAIT` alone (R303). -/
  gate    : Nat := 0
deriving DecidableEq, Repr

/-- The plan of a picture (R202, R203). -/
structure Plan where
  v     : Nat := 0
  buf   : Nat := 0
  qpMin : Nat := 0
  qpMax : Nat := 51
  f     : Nat := 0
  fcap  : Nat := 0
  g     : Nat := 0
  qpf   : Nat := 0
  atot  : Nat := 0
  rb    : List Nat := []
deriving DecidableEq, Repr

/-- Why and where a picture was cut (R184, R206). -/
structure Cut where
  rate : Option Nat := none
  hint : Option Nat := none
deriving DecidableEq, Repr

/-- A NAL unit on its way to the packetizer (R216 to R219). Its bytes enter the slice Bobbin as items of 32 bytes, the last one as it
closes: `entered` have been written, `taken` are in packets. `tail`: its stream has been released since (R247, R341). -/
structure NalOut where
  stream   : Nat
  slot     : Word
  boundary : Nat
  vvc    : Bool
  fu     : Nat
  data   : Bytes
  closed : Bool
  first  : Bool
  last   : Bool
  sent   : Nat
  entered : Nat := 0
  taken   : Nat := 0
  tail    : Bool := false
deriving DecidableEq, Repr

/-- A frame in an encode tile, from frame start to frame end (R160, R128). -/
structure Frame where
  stream   : Nat
  slot     : Word
  boundary : Nat
  started  : Nat
  first    : Bool
  codec    : Nat
  sealMode : Nat
  refs     : Nat
  width    : Nat
  height   : Nat
  refCol   : Nat
  refCount : Nat
  full     : Bool
  sweepK   : Nat
  sweepW   : Nat
  reserved : Nat
  plan     : Plan := {}
  /-- Levels and row fields as they stood at the frame start (R197, R198, R221): `HINT_T`, `SEARCH_MODE`, `LAMBDA_SCALE`, the row QP
  limit, `FU_PAYLOAD`, `SLICE_TYPE`. -/
  hintT    : Nat := 8
  search   : Nat := 0
  lambda   : Nat := 16
  lim      : Nat := 4
  fu       : Nat := 1200
  sliceB   : Bool := false
  /-- Hint records taken so far: the next position in raster order (R184). -/
  hints    : Nat := 0
  ctus     : Tab FrameCtu := []
  lane0    : Lane := {}
  lane1    : Lane := {}
  rowQp    : Tab Nat := []
  rowsDone : Nat := 0
  ecNext   : Tab Nat := []
  /-- Bits entropy-coded so far (E of R204), skip-run bits and count. -/
  bits     : Nat := 0
  skipBits : Nat := 0
  skips    : Nat := 0
  /-- Bytes of the row that waits in the row hold buffer (R179), and bytes of the picture so far. -/
  held     : Bytes := []
  bytes    : Nat := 0
  /-- Until the header commit the row hold buffer keeps the picture's slice data too (R305). -/
  committed : Bool := false
  early    : List NalOut := []
  /-- What Treadle keeps of the CTUs coded (R304, R305): class, QP, bits; skip-run bits and CTUs; the rows that it knows closed. -/
  acct     : List (CtuClass × Nat × Nat) := []
  keptBits : Nat := 0
  keptSkips : Nat := 0
  closed   : List Nat := []
  /-- The last CTU is final and the seal record written; `TRUNCATED` and `SEAL_VALID` for the stream log (R190, R421). -/
  finished : Option (Bool × Bool) := none
  written  : List Nat := []
  cut      : Cut := {}
  substituted : Bool := false
  /-- Treadle has met a fault: the picture is abandoned once its lanes have drained (R186, R302). -/
  draining : Bool := false
  sealVal  : Option Nat := none
  lastItem : Nat := 0
  /-- Block-table entries of later rows that the reads to come will find unreadable (R252, R255). -/
  badRows  : List Nat := []
deriving DecidableEq, Repr

/-- The transport fields of a stream's row as a packet takes them (R340, R359). -/
structure StreamTx where
  pt        : Nat := 96
  ssrc      : Nat := 0
  srcPort   : Nat := 5004
  dscp      : Nat := 34
  ttl       : Nat := 16
  mcast     : Bytes := []
  mcastPort : Nat := 5004
  cls       : Nat := 5
  service   : Nat := 1008
deriving DecidableEq, Repr

/-- A packet formed and not yet replicated (R340, R343). -/
structure Packet where
  stream   : Nat
  slot     : Word
  seq      : BitVec 16
  marker   : Bool
  payload  : Bytes
  slotTime : Nat
  firstOfAu : Bool
  tx       : StreamTx
  /-- Items of the slice Bobbin that its release gives back (R343). -/
  items    : Nat := 0
deriving DecidableEq, Repr

/-- The slice output of an encode tile: NAL units not wholly sent, the collection, packets waiting for their
copies, and a flush not yet applied (R218, R220, R345). -/
structure SliceOut where
  nals      : List NalOut := []
  collected : List NalOut := []
  packets   : List Packet := []
  /-- The stream and slot of abandoned pictures whose flush is not yet applied. -/
  flush     : List (Nat × Word) := []
deriving DecidableEq, Repr

/-- An encode tile (R160, R195, R196), by physical number. -/
structure Tile where
  powered  : Bool := true
  stream   : BitVec 16 := 0
  codecVvc : Bool := false
  frames   : Word := 0
  laneCtus : Word := 0
  skipCtus : Word := 0
  fringe   : Word := 0
  accepts  : Word := 0
  demotes  : Word := 0
  waitWave : Word := 0
  waitEnt  : Word := 0
  err      : BitVec 4 := 0
  frame    : Option Frame := none
  out      : SliceOut := {}
  treadle  : Treadle := {}
  /-- Blocks in the tile reference cache, 1 MiB (R17, R160). -/
  cache    : List Nat := []
deriving DecidableEq, Repr

/-! ### Batten -/

/-- The compared values of one layer (R145, R248). -/
structure SnapLayer where
  visible : Bool := false
  kind    : Nat := 0
  /-- The field of `SOURCE` that the kind uses (R134). -/
  source  : Nat := 0
  /-- The surface handle that a SURFACE or VIDEO layer shows, if it has a picture, with that surface's size and depth. -/
  handle  : Option Nat := none
  sw      : Nat := 0
  sh      : Nat := 0
  deep    : Bool := true
  srcGen  : Nat := 0
  textGen : Nat := 0
  rx      : Int := 0
  ry      : Int := 0
  rw      : Int := 0
  rh      : Int := 0
  ox      : Int := 0
  oy      : Int := 0
  second  : Nat := 0
  steps   : Nat := 0
  /-- The text drawn: a slot's bytes or a clock's digits. -/
  text    : Bytes := []
deriving DecidableEq, Repr

/-- A snapshot of what a frame depends on (R140): the picture's size and depth, the layout's bytes and generation, the fonts that its
layers name, the layers' values. -/
structure Snapshot where
  slot   : Word := 0
  w      : Nat := 0
  h      : Nat := 0
  ten    : Bool := false
  fonts  : Tab Bytes := []
  layout : Bytes := []
  gen    : Nat := 0
  layoutNo : Nat := 0
  layers : List SnapLayer := []
  time   : Nat := 0
deriving DecidableEq, Repr

/-- A frame job of an engine (R125). -/
structure Job where
  stream   : Nat
  slot     : Word
  refCol   : Nat
  refCount : Nat
  full     : Bool
  snap     : Snapshot
  damage   : List Nat
  subst    : List Nat := []
  nextCtu  : Nat := 0
  /-- Its stream has been released since (R247): nothing of the job goes into a stream's context any more. -/
  gone     : Bool := false
deriving DecidableEq, Repr

/-- A frame job that has sent its last item and awaits its frame end (R146, R158). -/
structure JobEnd where
  stream   : Nat
  snap     : Snapshot
  damage   : List Nat
  subst    : List Nat
  refCol   : Nat
  refCount : Nat
  gone     : Bool := false
deriving DecidableEq, Repr

/-- A touch event in an engine's queue (R152, R153). -/
structure Touch where
  endpoint : Nat
  kind     : Nat
  contact  : Nat
  x        : Nat
  y        : Nat
  seq      : Word
  at_      : Nat
deriving DecidableEq, Repr

/-- One contact of a tracked endpoint (R154, R156). -/
structure Contact where
  down    : Bool := false
  downAt  : Nat := 0
  upAt    : Option Nat := none
  downX   : Nat := 0
  downY   : Nat := 0
  dropUp  : Bool := false
  stuck   : Bool := false
deriving DecidableEq, Repr

/-- A tracked endpoint (R154). -/
structure Track where
  lastAt   : Nat := 0
  contacts : Tab Contact := []
deriving DecidableEq, Repr

/-- A Batten engine (R125, R153), by physical number. -/
structure Engine where
  powered : Bool := true
  jobs    : Tab Job := []
  touches : List Touch := []
deriving DecidableEq, Repr

/-- An update of a state-bank variable (R139): 0 for a dictionary write, the engine's number and 1 for a touch action; the operation (0 sets, 1 to
3 those of a touch rule) with its operand and limit. -/
structure VarUpdate where
  rank    : Nat
  op      : Nat
  operand : Nat
  limit   : Nat
deriving DecidableEq, Repr

/-- Updates of one variable in one nanosecond, in the order in which they are applied, and the value before them. -/
structure VarCycle where
  at_  : Nat
  base : Word
  ups  : List VarUpdate
deriving DecidableEq, Repr

/-- Composition as a whole: the live state banks (R139), generations, touch tracking and the counters of R159. -/
structure Batten where
  engines    : Tab Engine := []
  /-- By logical tile: the job whose frame end is awaited. -/
  ended      : Tab JobEnd := []
  banks      : Tab Word := []
  /-- The last updates of each variable (R139). -/
  cycles     : Tab VarCycle := []
  layoutGen  : Tab Nat := []
  textGen    : Tab Nat := []
  tracks     : Tab Track := []
  touchCount : Tab Word := []
  compCount  : Tab Word := []
deriving DecidableEq, Repr

/-! ### The reference pool -/

/-- `MARK` of a descriptor (R227). -/
inductive Mark where
  | unused | shortTerm | longTerm | shared
deriving DecidableEq, Repr

/-- A block descriptor (R227), with the block's content. -/
structure Desc where
  frame    : Nat := 0
  ddr      : Bool := false
  mark     : Mark := .unused
  gen      : BitVec 16 := 0
  moving   : Bool := false
  poisoned : Bool := false
  count    : Word := 0
  owner    : Holder := .device
  data     : Block := []
deriving DecidableEq, Repr

/-- A version slot (R231). -/
structure Slot where
  block : Nat
  gen   : BitVec 16
  lost  : Bool := false
  from_ : BitVec 16 := 0
deriving DecidableEq, Repr

/-- A block-table entry (R232): the valid slots, newest first. -/
structure Entry where
  slots      : List Slot := []
  crc        : Nat := 0
  crcValid   : Bool := false
  forceIntra : Bool := false
deriving DecidableEq, Repr

/-- States of a surface handle (R236). -/
inductive SurfState where
  | free | loading | ready
deriving DecidableEq, Repr

/-- A surface handle's entry (R236), its tables, and a commit that waits for `PREV_TABLE` (R237). -/
structure Surface where
  width   : Nat := 0
  height  : Nat := 0
  state   : SurfState := .free
  depth10 : Bool := true
  gen     : BitVec 16 := 0
  owner   : Holder := .device
  pins    : Nat := 0
  prevPins : Nat := 0
  table   : List Slot := []
  prev    : Option (List Slot) := none
  waiting : Option (Nat × Nat × Bool × List Slot) := none
  concealed : List Nat := []
  /-- `TABLE` and the address that `PREV_TABLE` holds while a previous table stands. -/
  tableAt : Nat := 0
  prevAt  : Nat := 0
deriving DecidableEq, Repr

/-- The pool (R226 to R258): descriptors in use, reservations, frames still cooling after a move (tier, frame, time),
handles, the settle engine, the audit and the counters of 0x5031. -/
structure Pool where
  hbmFrames : Nat := 0
  ddrFrames : Nat := 0
  descs     : Tab Desc := []
  cooling   : List (Bool × Nat × Nat) := []
  reserved  : Nat := 0
  handles   : Nat := 65536
  surfaces  : Tab Surface := []
  audit     : Option (Nat × List Nat) := none
  counters  : Tab Nat := []
deriving DecidableEq, Repr

/-! ### Encode stream contexts -/

/-- A seal record (R193). -/
structure SealRec where
  frame      : Word
  sealMode   : BitVec 8
  sealValid  : Bool
  composedValid : Bool
  truncated  : Bool
  substituted : Bool
  laneCtus   : BitVec 16
  recon      : BitVec 64
  composed   : BitVec 64
  skipCtus   : BitVec 16
  fringeCtus : BitVec 16
  bytes      : Word
deriving DecidableEq, Repr

/-- The rate state of R199. -/
structure RateState where
  fullness : Nat := 0
  aRefresh : Nat := 6000
  aHint    : Nat := 300
  aOther   : Nat := 2400
  skipBits : Nat := 256
  header   : Nat := 2000
  qpLast   : Nat := 32
  rows     : Tab (Nat × Nat) := []
deriving DecidableEq, Repr

/-- A pending slot (R250). -/
structure PendSlot where
  slot     : Word
  boundary : Nat
deriving DecidableEq, Repr

/-- `STATE` of an encode stream row (R244). -/
inductive EncState where
  | stopped | waitPool | starting | running | cold
deriving DecidableEq, Repr

/-- An encode stream context (R232, R244, R247, R248). -/
structure Enc where
  state     : EncState := .stopped
  frames    : List Slot := []
  slotNext  : Word := 0
  slotLast  : Word := 0
  poc       : Word := 0
  serial    : BitVec 16 := 0
  sweepK    : Nat := 0
  sweepW    : Nat := 0
  firstPic  : Bool := true
  cold      : Bool := false
  crcUnknown : Bool := true
  nextFull  : Bool := false
  rtpSeq    : BitVec 16 := 0
  rate      : RateState := {}
  refs      : List (Word × BitVec 16) := []
  table     : Tab Entry := []
  composed  : Tab Nat := []
  seals     : Tab SealRec := []
  carried   : List Nat := []
  /-- `FIRST_UNCODED` of the last coded frame, if it was truncated (R128, R150). -/
  uncoded   : Option Nat := none
  snap      : Option Snapshot := none
  scratch   : Tab Byte := []
  /-- Bytes that Treadle has stored into the record where no field holds them: offset, the field's byte at the time, the stored one (R291). -/
  recBytes  : Tab (Byte × Byte) := []
  pending   : Option PendSlot := none
  coding    : Option Nat := none
  /-- `SEAL_MODE` of the stored CRCs, whether the next picture starts a cold cycle, and bytes of the current picture
  already in packets. -/
  crcMode   : Nat := 1
  coldNext  : Bool := false
  auSent    : Nat := 0
  stopping  : Bool := false
  restart   : Bool := false
  /-- The context runs the clock-face stream (R50). -/
  clock     : Bool := false
  /-- Slot period and phase of the grid in force, and of the one that follows it (R245). -/
  grid      : Nat × Nat := (1080000, 0)
  newGrid   : Option (Nat × Nat) := none
  lastTick  : Nat := 0
  /-- The boundary of the last slot taken (R249). -/
  taken     : Option Nat := none
  /-- A takeover has declared its references lost and its frames are not yet obtained (R494). -/
  resuming  : Bool := false
  /-- Picture width and height and `CODEC`, in force since the stream started (R245). -/
  geom      : Option (Nat × Nat × Nat) := none
  /-- `RTP_SEQ` of the record: written as a picture's last packet is formed (R248). -/
  rtpRec    : BitVec 16 := 0
  pictures  : Word := 0
  missBusy  : Word := 0
  missOver  : Word := 0
  missPool  : Word := 0
  refsLost  : Word := 0
  lostBlocks : Word := 0
  packets   : Word := 0
deriving DecidableEq, Repr

/-! ### Decode contexts and tiles -/

/-- A picture a decode context holds (R274, R285). -/
structure DecPic where
  poc      : BitVec 32
  /-- The coded video sequence it belongs to, counted by the context (R278). -/
  cvs      : Nat
  isRef    : Bool
  longTerm : Bool
  output   : Bool
  rtp      : BitVec 32
  blocks   : List Slot
  marks    : List Nat
  width    : Nat
  height   : Nat
  outW     : Nat
  outH     : Nat
  cropL    : Nat
  cropT    : Nat
  depth10  : Bool
  arrived  : Nat
  /-- A substitute was used in its decoding (R278, R285). -/
  subst    : Bool := false
  /-- The frames of its picture table (R274). -/
  frames   : List Slot := []
deriving DecidableEq, Repr

/-- A picture that waits for its instant under `OUT_MODE` 1 (R276): PTP time in nanoseconds, the picture, the surface, the tile. -/
structure Timed where
  due  : Nat
  pic  : DecPic
  surf : Nat
  tile : Nat
deriving DecidableEq, Repr

/-- A packet held beyond a gap (R267). -/
structure HeldPkt where
  seq     : Nat
  at_     : Nat
  marker  : Bool
  rtp     : BitVec 32
  payload : Bytes
deriving DecidableEq, Repr

/-- The fields of a row that reception follows, as they stood when its picture began (R282). -/
structure Rx where
  pt      : Nat := 0xFF
  donl    : Bool := false
  reorder : Nat := 2000
  fmt     : Nat := 0
  width   : Nat := 1920
  height  : Nat := 1080
deriving DecidableEq, Repr

/-- An access unit in the bitstream ring (R268, R269). -/
structure AccessUnit where
  nals     : List Bytes
  /-- Row segments of an ST 2110-20 frame (R270): row, offset and sample data. -/
  segs     : List (Nat × Nat × Bytes) := []
  rtp      : BitVec 32
  completeAt : Nat
  arrived  : Nat
  codec    : Nat
deriving DecidableEq, Repr

/-- A picture in decoding (R263, R273): its tile, access unit, reserved blocks, and the row's fields as they stood at its start
(R282). -/
structure Decoding where
  tile     : Nat
  au       : AccessUnit
  reserved : Nat
  startAny : Bool
  withhold : Bool
  surface  : Nat
  timed    : Bool
  delay    : Nat
  since    : Nat := 0
  rx       : Rx := {}
  /-- The coded size that was reserved for, the POC, and the frames of the picture table (R273, R274). -/
  width    : Nat := 0
  height   : Nat := 0
  poc      : BitVec 32 := 0
  frames   : List Slot := []
deriving DecidableEq, Repr

/-- `STATE` of a decode row (R283). -/
inductive DecState where
  | stopped | unsync | decoding | recovering | unsupported
deriving DecidableEq, Repr

/-- A decode context (R259 to R285). -/
structure Dec where
  state    : DecState := .stopped
  ssrc     : Option (BitVec 32) := none
  lastPkt  : Nat := 0
  seqNext  : Option Nat := none
  beyond   : List HeldPkt := []
  /-- The access unit being assembled: NAL units, the open fragment (none when its start was lost), its timestamp. -/
  auNals   : List Bytes := []
  auSegs   : List (Nat × Nat × Bytes) := []
  rx       : Rx := {}
  /-- Datagrams that Selvedge has delivered, oldest first (R265). -/
  inbox    : List Bytes := []
  frag     : Option Bytes := none
  fragLost : Bool := false
  auRtp    : Option (BitVec 32) := none
  auArrived : Nat := 0
  auDrop   : Bool := false
  lastDon  : Option (BitVec 16) := none
  queue    : List AccessUnit := []
  decoding : Option Decoding := none
  dpb      : List DecPic := []
  lastOut  : Option DecPic := none
  /-- POCs of the recovery pictures of the starting pictures that still count, in decoding order, and whether pictures before a recovery
  picture are marked (R280, R281). -/
  recs     : List (BitVec 32) := []
  marking  : Bool := false
  /-- The coded video sequence in decoding (R278). -/
  cvs      : Nat := 0
  /-- The previous frame of an ST 2110-20 flow as received, with its format: Y, Cb, Cr (R271). -/
  stPrev   : Option (Rx × List (List (BitVec 10))) := none
  toCommit : List Timed := []
  picSize  : Word := 0
  info     : Word := 0
  frames   : List Slot := []
  counters : Tab Word := []
  /-- Bytes of NAL units that have entered the bitstream ring; its address and size, in force since the row became valid (R268, R288). -/
  ringIn   : Nat := 0
  ringAt   : Nat := 0
  ringSize : Nat := 4194304
  /-- The row has begun and has not ended (R282): the context receives. -/
  live     : Bool := false
  /-- The surface handle in force (R275, R282). -/
  surface  : Nat := 0xFFFFFFFF
  /-- Re-gridded copies written (R275). -/
  copies   : Nat := 0
deriving DecidableEq, Repr

/-- A decode tile (R286, R287), by physical number. -/
structure Dtile where
  powered  : Bool := true
  ctx      : BitVec 12 := 0
  state    : BitVec 4 := 0
  kind     : BitVec 2 := 0
  pictures : Word := 0
  blocks   : Word := 0
  concealed : Word := 0
  binStall : Word := 0
  waitRef  : Word := 0
  err      : BitVec 4 := 0
deriving DecidableEq, Repr

end Sys2Proof.Machine
end

