-- ==== Sys2Proof/Machine/Parts/Net.lean ====
section
/-! DEFINITION. State of the block, third part: Selvedge, scheduling and transport, receiver reports. -/

namespace Sys2Proof.Machine

/-- What the parser finds in a frame's first 128 bytes (R315 to R319). -/
structure Parsed where
  dstMac  : BitVec 48 := 0
  srcMac  : BitVec 48 := 0
  tags    : List (BitVec 16) := []
  ethType : Nat := 0
  ipv4    : Bool := false
  srcIp   : Option (BitVec 128) := none
  dstIp   : Option (BitVec 128) := none
  proto   : Option Nat := none
  dscp    : Option Nat := none
  sport   : Option Nat := none
  dport   : Option Nat := none
  layers  : List Nat := []
  /-- 0 none; 1 more than 8 layers; 2 a header beyond 128 bytes; 3 a length contradiction; 4 a wrong checksum. -/
  problem : Nat := 0
  /-- The frame's end that the IP length names, checked at the last word (R317). -/
  ipEnd   : Nat := 0
  payload : Nat := 0
deriving DecidableEq, Repr

/-- Where the classification sends a packet (R322, R325). -/
inductive Verdict where
  | drop (counted : Bool)
  | exception (reason : Nat)
  | firmware
  | time
  | snoop
  | dictionary
  | touch
  | rtcp
  | ingest (ctx : Nat) (bridgeToo : Bool)
  | bridge
  | recirculate (node vlan : Nat)
deriving DecidableEq, Repr

/-- A MAC table entry (R328). -/
structure MacEntry where
  mac       : BitVec 48
  vlan      : BitVec 12
  static    : Bool := false
  group     : Bool := false
  suspended : Bool := false
  dest      : BitVec 20
  hit       : Bool := true
  age       : BitVec 20 := 0
  moves     : BitVec 4 := 0
  hold      : BitVec 12 := 0
deriving DecidableEq, Repr

/-- A packet in the ingress pipelines, the classification engines or a reorder buffer (R313 to R321). -/
structure Pkt where
  id      : Nat
  port    : Nat
  seq     : Nat
  data    : Bytes
  parsed  : Parsed
  pass2   : Option (Nat × Nat) := none
  gen     : Nat
  verdict : Option Verdict := none
  rule    : Option Nat := none
  copyToException : Bool := false
  badEnd  : Bool := false
  /-- Its classification engine, once one had a free slot (R319). -/
  engine  : Option Nat := none
  /-- The MAC table's entries of its destination and of its source, as its lookups found them (R320). -/
  dst     : Option MacEntry := none
  src     : Option MacEntry := none
deriving DecidableEq, Repr

/-- An exception-queue packet's companions (R318). -/
structure ExcPkt where
  port   : Nat
  reason : Nat
  gen    : Nat
  rule   : Option Nat
  layers : List Nat
deriving DecidableEq, Repr

/-- A learn event (R329). -/
structure Learn where
  vlan : BitVec 12
  mac  : BitVec 48
  port : Nat
deriving DecidableEq, Repr

/-- The MAC command codes (R333). -/
inductive MacOp where
  | search | next | insert | delete | flushPort | flushAll
deriving DecidableEq, Repr

/-- A MAC command that waits in its session, with the arguments of its issue (R333). -/
structure MacCmd where
  se   : Session
  op   : MacOp
  args : MacArgs
  drop : Bool := false
  /-- A flush of a port whose link went down: it has no session. -/
  down : Bool := false
  /-- Of a flush: the next bucket to visit, 65,536 for the overflow store, and the entries it has removed. -/
  next_ : Nat := 0
  removed : Nat := 0
deriving DecidableEq, Repr

/-- The prefix-table commands (R336). -/
inductive LpmOp where
  | insert | delete | search | lookup | next
deriving DecidableEq, Repr

structure LpmCmd where
  se   : Session
  op   : LpmOp
  args : LpmArgs
  drop : Bool := false
deriving DecidableEq, Repr

/-- An entry of the prefix table (R336). -/
structure Lpm where
  pre    : BitVec 128
  len    : Nat
  hop    : BitVec 128
  vlan   : BitVec 16
  action : BitVec 8
deriving DecidableEq, Repr

/-- A rule-set generation (R323, R324). -/
structure RuleGen where
  num   : Nat
  image : Bytes
  held  : Nat := 0
deriving DecidableEq, Repr

/-- Selvedge (R313 to R339). -/
structure Selvedge where
  /-- Frames whose first words wait at their pipeline's requesters, oldest first, each with its words left that the parser reads (R313). -/
  arrivals  : List (Pkt × Nat) := []
  /-- Each pipeline's requester that is first in turn (R313). -/
  pointers  : Tab Nat := []
  /-- Frames whose IP length runs past their end, until their last word has come (R317). -/
  ending    : List Pkt := []
  pipeline  : List Pkt := []
  nextId    : Nat := 0
  nextSeq   : Tab Nat := []
  /-- The engine at which the rotation goes on (R319). -/
  engineNext : Nat := 0
  active    : RuleGen := { num := 0, image := [] }
  standby   : Option RuleGen := none
  oldGens   : List RuleGen := []
  buckets   : Tab (Tab MacEntry) := []
  overflow  : Tab MacEntry := []
  learns    : List Learn := []
  cmds      : List MacCmd := []
  cmdTurn   : Bool := false
  lpm       : List Lpm := []
  lpmCmds   : List LpmCmd := []
  /-- Group members: for each (VLAN, group) and port the time its membership ends; router ports likewise; and until when another
  querier is present in a VLAN, of IGMP (true) or of MLD (R337). -/
  members   : List ((BitVec 12 × BitVec 48 × Nat) × Nat) := []
  routers   : List ((BitVec 12 × Nat) × Nat) := []
  queriers  : List ((BitVec 12 × Bool) × Nat) := []
  links     : BitVec 16 := 0
  counters  : Tab Nat := []
  learnLog  : List LearnDelta := []
  ruleDrops : Tab Nat := []
  /-- Frames dropped because their port is no member of their VLAN (R327); no object shows the count. -/
  vlanDrops : Nat := 0
  lastScan  : Nat := 0
  lastQuery : Tab Nat := []
deriving DecidableEq, Repr

/-- A copy or frame in a scheduler queue (R343, R347, R348). -/
structure Copy where
  data     : Bytes
  /-- Packet-memory cells it holds, 256 bytes each. -/
  bufs     : List Nat := []
  endpoint : Option Nat := none
  ingress  : Nat := 0x1F
  /-- Its IP length runs past the frame's end, found at the last word (R317). -/
  stomped  : Bool := false
  /-- A recirculated packet: ingress port, generation, loopback node, tag (R322). -/
  recirc   : Option (Nat × Nat × Nat × Nat) := none
  /-- The companions of a packet of the exception queue (R318). -/
  exc      : Option ExcPkt := none
deriving DecidableEq, Repr

/-- Buckets of a scheduler node, in 1/65,536 byte, its deficit and its last visit (R349, R351). -/
structure Shaper where
  fresh   : Bool := true
  c       : Int := 0
  e       : Int := 0
  /-- Credit below 1/65,536 byte, in its 8,000,000th parts. -/
  cRem    : Nat := 0
  eRem    : Nat := 0
  visited : Nat := 0
  deficit : Int := 0
deriving DecidableEq, Repr

/-- A scheduler queue's run-time state (R348, R361). -/
structure Queue where
  copies  : List Copy := []
  shaper  : Shaper := {}
  sent    : Word := 0
  bytes   : Nat := 0
  dropped : Word := 0
deriving DecidableEq, Repr

/-- The fall-through chain of an egress lane (R32): the items in its eight stages, the one nearest the output first, the items that stall
before it, and the time of the last item handed to the MAC. -/
structure Chain where
  stages : List Bytes := []
  input  : List Bytes := []
  since  : Nat := 0
deriving DecidableEq, Repr

/-- A port node's run-time state (R361). -/
structure PortNode where
  shaper : Shaper := {}
  sent   : Word := 0
  bytes  : Nat := 0
  busyUntil : Nat := 0
  chain  : Chain := {}
deriving DecidableEq, Repr

/-- An endpoint's run-time state (R355, R358, R360). -/
structure Endpoint where
  present  : Bool := false
  lastReport : Nat := 0
  /-- The stream whose list it is in (R344). -/
  inList   : Option Nat := none
  lastSeal : Word := 0
  matched  : Word := 0
  mismatched : Word := 0
  unchecked : Word := 0
  sent     : Word := 0
  dropped  : Word := 0
  loss     : BitVec 8 := 0
  jitter   : Word := 0
  resolved : BitVec 48 := 0
  port     : BitVec 8 := 0xFF
  mismatchAt : Option Nat := none
deriving DecidableEq, Repr

/-- A returned seal in the checker's queue (R358). -/
structure SealIn where
  endpoint : Nat
  frame    : Word
  sealMode : BitVec 8
  value    : BitVec 64
  since    : Nat
deriving DecidableEq, Repr

/-- Scheduling and transport (R340 to R363). -/
structure Transport where
  queues    : Tab Queue := []
  subs      : Tab Shaper := []
  services  : Tab Shaper := []
  ports     : Tab PortNode := []
  /-- Deficit round robin: per node, the child whose turn it is. -/
  turns     : Tab Nat := []
  /-- Sequence numbers at which slice data of streams released since goes on (R341). -/
  tails     : Tab (BitVec 16) := []
  endpoints : Tab Endpoint := []
  seals     : List SealIn := []
  counters  : Tab Nat := []
  lastScan  : Nat := 0
deriving DecidableEq, Repr

end Sys2Proof.Machine
end

