-- ==== Sys2Proof/Machine/Parts/Sys.lean ====
section
/-! DEFINITION. State of the block, fourth part: time, host queues, DMA, interrupts, buffer pool, memory, faults,
the pair, and the outputs the block emits. -/

namespace Sys2Proof.Machine

/-! ### Time (R364 to R384) -/

/-- States of the time unit (R368, in the code of `TIME_STATE`). -/
inductive TimeMode where
  | freeRun | acquiring | locked | holdover | slave | passive
deriving DecidableEq, Repr

/-- A foreign master (R374). -/
structure Foreign where
  port : Nat
  ann  : Announce
  at_  : Nat
deriving DecidableEq, Repr

/-- The time unit. -/
structure TimeUnit where
  /-- PTP nanoseconds since the epoch, and the servo's remainder in 1/(256 × 10^9) ns. -/
  ptp      : Nat := 0
  phase    : Int := 0
  freq     : Int := 0
  heldFreq : Int := 0
  /-- The frequencies applied and since when, newest first (R367). -/
  freqLog  : List (Nat × Int) := []
  steering : Bool := false
  mode     : TimeMode := .freeRun
  /-- The state from which Acquiring was entered, and the clock fields kept meanwhile (R522). -/
  acqFrom  : TimeMode := .freeRun
  clockClass : BitVec 8 := 248
  accuracy : BitVec 8 := 0xFE
  source   : BitVec 8 := 0xA0
  todValid : Bool := false
  tenOk    : Bool := false
  refOk    : Bool := false
  gnss     : Bool := false
  good     : Nat := 0
  bad      : Nat := 0
  /-- The edge chain: the previous edge (or the expected instant that stands for it). -/
  prevEdge : Option Nat := none
  lastValid : Nat := 0
  offset   : Int := 0
  /-- The offset last measured on the slave port, corrected for asymmetry (R376). -/
  slaveOffset : Int := 0
  holdBase : Nat := 100
  holdFrom : Nat := 0
  holdRef  : Bool := false
  /-- A step to be made at a second boundary: the offset, and that boundary (R370). -/
  pendingStep : Option (Int × Nat) := none
  stepArmed : Bool := true
  /-- Seconds held by 0x6013:01, oldest first: the value, when it came, the second boundary after that (R371). One that the next replaces stays
  through the cycle of the next. -/
  held     : List (BitVec 48 × Nat × Nat) := []
  slavePort : BitVec 5 := 0x1F
  foreign  : List Foreign := []
  parent   : Option Announce := none
  parentAt : Nat := 0
  /-- Per front port, the timestamp last captured at its MAC (R365), and per port when its last Delay_Req went (R374). -/
  caps     : Tab (BitVec 128) := []
  /-- Timestamps of event messages that have arrived, with their ports, until the messages are taken (R365). -/
  arrived  : List (Nat × BitVec 128) := []
  asked    : Tab Nat := []
  capSeq   : BitVec 16 := 0
  capFrac  : BitVec 16 := 0
  capNs    : BitVec 30 := 0
  capSec   : BitVec 48 := 0
  counters : Tab Nat := []
  /-- Sequence numbers: 16 × kind + port, kind 0 Announce, 1 Sync, 2 Management. -/
  seqs     : Tab Nat := []
  /-- PTP time of the last PPS_OUT edge, for the line that follows it. -/
  edgeAt   : Option Nat := none
  /-- When `PPS_OUT` falls, while it is high (R379). -/
  ppsFall  : Option Nat := none
  primClass : BitVec 8 := 248
  /-- Delay_Req answered in the current second, and that second (R376). -/
  answered : Nat := 0
  answerSec : Nat := 0
  /-- What the primary mirrored while this device is its secondary (R381, R490). -/
  mirror   : Option MirrorTime := none
deriving DecidableEq, Repr

/-! ### Host rings (R387 to R404) -/

/-- A submission ring (R387). `state` is 0 disabled, 1 running, 2 error, 3 shutting down. -/
structure Sq where
  base     : BitVec 64 := 0
  enable   : Bool := false
  loc      : Bool := false
  prio     : BitVec 2 := 0
  cq       : BitVec 10 := 0
  size     : BitVec 4 := 0
  head     : BitVec 16 := 0
  tail     : BitVec 16 := 0
  errCode  : BitVec 4 := 0
  state    : BitVec 2 := 0
  reset    : Bool := false
  done     : Word := 0
  fetched  : List Bytes := []
  aborts   : List (Word × BitVec 8) := []
deriving DecidableEq, Repr

/-- A completion (R398). -/
structure Cqe where
  tag    : Word
  status : BitVec 8
  sq     : Nat
  result : Word
  info   : Word
deriving DecidableEq, Repr

/-- A completion ring (R399). -/
structure Cq where
  base     : BitVec 64 := 0
  enable   : Bool := false
  loc      : Bool := false
  size     : BitVec 4 := 0
  tail     : BitVec 16 := 0
  head     : BitVec 16 := 0
  staged   : List Cqe := []
  reserved : Nat := 0
  dbErr    : Bool := false
  discarded : Word := 0
deriving DecidableEq, Repr

/-- A dispatched entry (R391, R392). -/
structure HostJob where
  id      : Nat
  sq      : Nat
  tag     : Word
  opcode  : BitVec 8
  flags   : BitVec 8
  object  : Word
  addr    : BitVec 64
  len     : Word
  params  : Bytes
  /-- Set when the job has ended: its status, result and info; the completion is not yet written. -/
  ended   : Option (BitVec 8 × Word × Word) := none
  /-- A `SURFACE_LOAD` whose new table is built, and the fragments of a posted receive buffer. -/
  loaded  : Bool := false
  frags   : List (Nat × Nat) := []
deriving DecidableEq, Repr

/-- Host rings. -/
structure Rings where
  sqs     : Tab Sq := []
  cqs     : Tab Cq := []
  jobs    : List HostJob := []
  nextJob : Nat := 0
  /-- Round-robin pointer per priority (R391) and the posted receive buffers, oldest first (R397). -/
  turn    : Tab Nat := []
  posted  : List Nat := []
  rejected : Nat := 0
deriving DecidableEq, Repr

/-! ### DMA (R405 to R411) -/

/-- A DMA channel. `state` is 0 idle, 1 running, 2 draining, 3 paused. -/
structure Dma where
  src      : BitVec 64 := 0
  dst      : BitVec 64 := 0
  len      : Word := 0
  irq      : Bool := false
  elem     : BitVec 3 := 2
  dstFixed : Bool := false
  dstDev   : Bool := false
  srcFixed : Bool := false
  srcDev   : Bool := false
  pause    : Bool := false
  errCode  : BitVec 4 := 0
  err      : Bool := false
  done     : Bool := false
  held     : Bool := false
  state    : BitVec 2 := 0
deriving DecidableEq, Repr

structure DmaEngine where
  chans   : Tab Dma := []
  halted  : Bool := false
  channel : BitVec 5 := 0
deriving DecidableEq, Repr

/-! ### Interrupts (R412 to R423) -/

/-- A source's configuration word (R414). -/
structure SrcCfg where
  classA : Bool := false
  toMsix : Bool := false
  target : BitVec 11 := 0
  mod    : BitVec 4 := 0
  prio   : BitVec 4 := 1
deriving DecidableEq, Repr

/-- A source that does not stand as at reset. Keys: 0 to 4,095 shared; 4,096 × (k + 1) + n private to core k. -/
structure Source where
  cfg     : Option SrcCfg := none
  pending : Bool := false
  unmasked : Bool := false
  active  : Option IntTarget := none
  assigned : Option Nat := none
  claimedAt : Option Nat := none
deriving DecidableEq, Repr

/-- Interrupt controller, stream logs, event ring. -/
structure Intc where
  sources   : Tab Source := []
  threshold : Tab (BitVec 4) := []
  /-- Targets with a notification outstanding. -/
  notified  : List IntTarget := []
  badComplete : Word := 0
  spurious  : Word := 0
  logLost   : Word := 0
  logs      : Tab (List (Word × Word)) := []
  evBase    : BitVec 64 := 0
  evEnable  : Bool := false
  evLocal   : Bool := false
  evSize    : BitVec 4 := 0
  evTail    : BitVec 16 := 0
  evHead    : BitVec 16 := 0
  evDropped : Word := 0
  evSeq     : Word := 0
  /-- MSI-X table words that were written, and the pending-bit array. -/
  msix      : Tab Word := []
  /-- Words of the PCIe configuration space that differ from their reset values (R38, R385). -/
  pcie      : Tab Word := []
  pba       : List Nat := []
deriving DecidableEq, Repr

/-! ### The buffer pool (R424 to R429) -/

/-- The buffer pool manager. A buffer absent from `owners` is free. -/
structure Bpm where
  owners   : Tab Master := []
  mode     : BitVec 2 := 0
  free     : Nat := 262144
  minFree  : Word := 262144
  low      : Word := 16384
  high     : Word := 32768
  lowSeen  : Bool := false
  query    : BitVec 18 := 0
  rejects  : Word := 0
  /-- Buffers found allocated in the cache (R425): the spec gives the count no register. -/
  allocBad : Word := 0
  /-- The time of the last allocation in bitmap mode, and how many there were at that time (R428). -/
  rateAt   : Nat := 0
  rateN    : Nat := 0
  err      : BitVec 4 := 0
  lastReason : BitVec 2 := 0
  lastMaster : Master := 0
  lastBuffer : BitVec 18 := 0
deriving DecidableEq, Repr

/-! ### Memory (R430 to R457) -/

/-- A DDR5 channel (R439 to R447). -/
structure Ddr where
  ranks   : Nat := 0
  rankBytes : Nat := 0
  trained : Bool := false
  spare   : Option Nat := none
  retired : Option Nat := none
  migrating : Option Nat := none
  failed  : BitVec 10 := 0
  /-- Outer-code corrections of the last second: device and time (R442). -/
  hits    : List (Nat × Nat) := []
  down    : List Nat := []
  /-- Time of the last access to each rank (R444). -/
  touched : Tab Nat := []
  /-- The row-hammer LFSR, and the open row of each bank (R445). -/
  lfsr    : Word := 0
  rows    : Tab Nat := []
deriving DecidableEq, Repr

/-- An HBM3E stack (R436 to R438). -/
structure Stack where
  trained : Bool := false
  replaced : Option Nat := none
  copying : Option Nat := none
deriving DecidableEq, Repr

/-- Memories: addressable device memory of R430 (bytes no one wrote read as 0), stacks, channels, counters of 0x2051. -/
structure Memory where
  dev      : Tab Byte := []
  poison   : List Nat := []
  hbms     : Tab Stack := []
  ddrs     : Tab Ddr := []
  ddrBytes : Nat := 0
  ddrUnused : Nat := 0
  scrubAt  : Nat := 0x010000000000
  counters : Tab Nat := []
  regs2061 : Tab Word := []
deriving DecidableEq, Repr

/-! ### Faults, wear, cabinet (R458 to R478) -/

/-- A regrow in progress (R470). -/
structure Regrow where
  unit    : HwUnit
  failure : Bool
  spare   : Option Nat := none
  tested  : Bool := false
  since   : Nat := 0
deriving DecidableEq, Repr

/-- The fault unit and what stands beside it. -/
structure Faults where
  valid    : Bool := false
  overflow : Bool := false
  diverged : Bool := false
  kind     : BitVec 8 := 0
  severity : BitVec 2 := 0
  access   : BitVec 3 := 0
  master   : Master := 0
  addr     : BitVec 48 := 0
  seconds  : BitVec 48 := 0
  nanos    : BitVec 30 := 0
  overflows : Word := 0
  corrected : Word := 0
  contained : Word := 0
  hold     : Bool := false
  pulseEnd : Option Nat := none
  /-- A fatal escalation under way (R465). -/
  escalating : Bool := false
  thermalHold : Bool := false
  lastFatal : LastFatal := {}
  correctedAll : Nat := 0
  containedAll : Nat := 0
  overflowAll : Nat := 0
  selfTestFails : Nat := 0
  beyondList : Nat := 0
  /-- Contained faults logged singly in the current second, those beyond, and that second. -/
  logged   : Nat := 0
  excess   : Nat := 0
  logSec   : Nat := 0
  hot      : Bool := false
  gavonDown : Bool := false
  tj       : Int := 25
  tjMax    : Int := 25
  margins  : List (HwUnit × BitVec 8) := []
  /-- Rolling one-hour counts (R468, R473): 2^40 × item + minute, and how many. -/
  bins     : Tab Nat := []
  regrows  : List Regrow := []
  /-- The sparing map in force while a write-protected store cannot take it (R65, R470). -/
  liveMap  : Option Sparing := none
  gpio     : BitVec 16 := 0xFFFF
  gpioSince : Tab Nat := []
  stuck    : BitVec 16 := 0
  chatter  : Tab Word := []
  /-- Contained errors with which each owner of blocks has been charged (R255, R278, R458): no register shows them. -/
  charges  : List (Holder × Nat) := []
deriving DecidableEq, Repr

/-! ### The pair (R479 to R501) -/

/-- Roles (R480). -/
inductive Role where
  | standalone | primary | secondary | joining | standby
deriving DecidableEq, Repr

/-- A croak received (R484). -/
structure Croak where
  state   : BitVec 8
  epoch   : BitVec 16
  pairId  : Bool
  serial  : Word
  seq     : Word
  journal : BitVec 64
  at_     : Nat
deriving DecidableEq, Repr

/-- A request a secondary relayed (R493). -/
structure Relayed where
  req : Nat
  op  : Nat
  idx : BitVec 16
  sub : BitVec 8
  row : Option (BitVec 32)
deriving DecidableEq, Repr

/-- The pair. -/
structure Pair where
  role     : Role := .standalone
  epoch    : BitVec 16 := 0
  aliveIn  : Bool := false
  aliveOutAt : Nat := 0
  halfA    : Bool := false
  halfB    : Bool := false
  partner  : Option Croak := none
  silent   : Bool := true
  croaks   : Word := 0
  confirmed : BitVec 64 := 0
  /-- Pair-stream records committed and not yet confirmed: last sequence number and commit time. -/
  unconfirmed : List (BitVec 64 × Nat) := []
  mirrorOk : Bool := false
  lostDeltas : Bool := false
  episode  : Bool := false
  progress : BitVec 8 := 0
  resync   : Bool := false
  /-- Stream records received while mirrored journal content waits to be applied. -/
  heads    : List (Nat × Bytes) := []
  relayed  : List Relayed := []
  repeats  : List Nat := []
  switching : Option Nat := none
  counters : Tab Nat := []
  equalIds : Bool := false
  discarded : Nat := 0
deriving DecidableEq, Repr

/-! ### What the block emits -/

/-- Everything the block sends out, as the model records it. -/
inductive Output where
  | readData (m : Master) (v : Word)
  | answer (se : Session) (req : Nat) (status : BitVec 8) (data : Bytes)
  | datagram (front : Bool) (ip : BitVec 128) (port : BitVec 16) (data : Bytes)
  | can (cob : BitVec 11) (data : Bytes)
  | frame (port : Nat) (data : Bytes) (stomped : Bool)
  | ptp (port : Nat) (kind : Nat) (data : Bytes)
  | pin (name : String) (level : Bool)
  | serial (text : Bytes)
  | hostWrite (addr : BitVec 64) (data : Bytes)
  | devWrite (addr : BitVec 64) (data : Bytes)
  | event (source : BitVec 12) (detail : Bytes)
  | notify (t : IntTarget)
  /-- A Gavon frame with a layout of its own (R484, R490): its type of R487 and its payload. -/
  | gavon (kind : BitVec 8) (data : Bytes)
  | gavonRecord (seq : BitVec 64) (entries : List MirrorEntry)
  | gavonDelta (d : LearnDelta)
  | gavonTime (t : MirrorTime)
  | gavonRelay (tag : BitVec 8) (ws : List MirrorEntry)
  | gavonAnswer (req : Nat) (status : List (BitVec 8))
  | gavonConfirm (seq : BitVec 64)
  | gavonResync (r : Resync)
  | bobbinItem (data : BitVec 256) (idle tagged : Bool)
  | block (m : Master) (b : Option (Nat × BitVec 16))
  | jobStatus (job : Nat) (status : BitVec 8)
  | toFirmware (reason : Nat) (data : Bytes)
  /-- A packet that port node 17 hands to the control cores, with the companions of one of the exception queue (R318, R348). -/
  | toCores (data : Bytes) (exc : Option ExcPkt)
deriving DecidableEq, Repr

end Sys2Proof.Machine
end

