-- ==== Sys2Proof/Machine/State.lean ====
section
/-! DEFINITION. The state of the block, the reasons a step can stop, and the state after reset. -/

namespace Sys2Proof.Machine

/-- The state of the block: every register, table, queue, memory and pin the spec gives it, the commands that
wait (`pending`, first in first out) and what it has emitted (`out`, oldest first). -/
structure State where
  clk    : Clock := {}
  pins   : Pins := {}
  svc    : Service := {}
  boot   : Boot := {}
  store  : Store := {}
  dict   : Dict := {}
  paths  : Paths := {}
  bar2   : Bar2 := {}
  dev    : DevRegs := {}
  bobs   : List (BobbinId × Bobbin) := []
  tiles  : Tab Tile := []
  /-- Blocks in each cluster's reference cache, 32 MiB (R17). -/
  caches : Tab (List Nat) := []
  encs   : Tab Enc := []
  batten : Batten := {}
  totals : Tab Nat := []
  pool   : Pool := {}
  dtiles : Tab Dtile := []
  decs   : Tab Dec := []
  selv   : Selvedge := {}
  trans  : Transport := {}
  time   : TimeUnit := {}
  rings  : Rings := {}
  dma    : DmaEngine := {}
  intc   : Intc := {}
  bpm    : Bpm := {}
  mem    : Memory := {}
  faults : Faults := {}
  pair   : Pair := {}
  pending : List Instr := []
  out    : List Output := []
deriving DecidableEq, Repr

/-- The machine's faults: none. The block answers every error by an effect the spec gives (a recorded fault, a
status, a counter), so no step of the model ends in a machine fault. -/
inductive Fault where
deriving DecidableEq, Repr

/-- The refusals. -/
inductive Refusal where
  /-- Raised by an arm of `exec` whose command has no meaning yet. Safe: the model stops. -/
  | notModelled (mnemonic : String)
  /-- Raised by a meaning whose command is not well formed (`Instr.wellFormed`). Safe: the model stops. -/
  | illFormed
deriving DecidableEq, Repr

/-- The machine right after power is first applied to a part as manufactured (R37, R41): start step 0, the store
as made, the straps at the level of their pull resistors (R503), nothing queued and nothing emitted. Every
register stands at the default value its structure gives it. -/
def State.reset : State := {}

end Sys2Proof.Machine
end

