-- ==== Sys2Proof/Machine/Objects.lean ====
section
/-! DEFINITION. The object dictionary as data: type, class, default and range of every object and row field. -/

namespace Sys2Proof.Machine

/-- Types of R70; a string or domain carries its declared size. -/
inductive Ty where
  | bool | i8 | i16 | i32 | i64 | u8 | u16 | u32 | u64
  | str (max : Nat) | oct (n : Nat) | dom (max : Nat)
deriving DecidableEq, Repr

/-- Access classes of R72; `act` is the wo class of an action object (R74), `arg` a per-session rw value
(R79, R333, R336). -/
inductive Cls where
  | const | ro | wo | rw | rwp | act | arg
deriving DecidableEq, Repr

/-- The range of a numeric object (R16, R89): any value of its type, an interval, a list, or a signed interval. -/
inductive Rng where
  | any | btw (lo hi : Nat) | among (l : List Nat) | sgn (lo hi : Int)
deriving DecidableEq, Repr

/-- One line of an object table: the indexes and subindexes it covers. -/
structure Obj where
  ilo : Nat
  ihi : Nat
  slo : Nat
  shi : Nat
  ty  : Ty
  cls : Cls
  dflt : PVal
  rng : Rng
deriving DecidableEq, Repr

/-- A single object. -/
def ob (i sub : Nat) (ty : Ty) (c : Cls) (d : Nat) (r : Rng) : Obj := ⟨i, i, sub, sub, ty, c, .num d, r⟩
/-- A run of subindexes. -/
def obs (i slo shi : Nat) (ty : Ty) (c : Cls) (d : Nat) (r : Rng) : Obj := ⟨i, i, slo, shi, ty, c, .num d, r⟩
/-- A byte-valued object. -/
def obB (i sub : Nat) (ty : Ty) (c : Cls) (d : Bytes) : Obj := ⟨i, i, sub, sub, ty, c, .bytes d, .any⟩
/-- The highest-subindex entry of a record (R69). -/
def top (i n : Nat) : Obj := ⟨i, i, 0, 0, .u8, .const, .num n, .any⟩

def zeros (n : Nat) : Bytes := List.replicate n 0

/-- The default VLAN table of R339: VID 1 with every port an untagged member and bits [34:32] set. -/
def vlanDefault : Bytes := zeros 8 ++ [0xFF, 0xFF, 0xFF, 0xFF, 0x07, 0, 0, 0] ++ zeros 32752

/-- Communication and identity (R76, R102). -/
def objsComm : List Obj := [
  ob 0x1000 0 .u32 .const 0 .any,
  ob 0x1001 0 .u8 .ro 0 .any,
  obB 0x1008 0 (.str 6) .const [0x50, 0x59, 0x38, 0x38, 0x36, 0x30],
  obB 0x1009 0 (.str 2) .const [0x42, 0x31],
  obB 0x100A 0 (.str 255) .ro [],
  ob 0x1017 0 .u16 .rwp 1000 .any,
  top 0x1018 7,
  ob 0x1018 1 .u32 .const 0x1F6B .any,
  ob 0x1018 2 .u32 .const 0x8860 .any,
  ob 0x1018 3 .u32 .ro 0 .any,
  ob 0x1018 4 .u32 .ro 0 .any,
  ob 0x1018 5 .u16 .const 0x0B01 .any,
  ob 0x1018 6 .u32 .ro 0 .any,
  ob 0x1018 7 .u32 .ro 0 .any,
  top 0x1FD0 3,
  ob 0x1FD0 1 .u8 .rwp 0x10 (.btw 1 0x7F),
  ob 0x1FD0 2 .u16 .rwp 500 (.among [125, 250, 500, 1000]),
  ob 0x1FD0 3 .u16 .rwp 2000 (.among [1000, 2000, 4000, 5000, 8000]),
  top 0x1FD1 3,
  ob 0x1FD1 1 .u16 .rwp 7100 (.btw 1024 65535),
  ob 0x1FD1 2 .bool .rwp 1 .any,
  ob 0x1FD1 3 .u16 .rwp 1 (.btw 0 4094),
  top 0x1FD2 3,
  obs 0x1FD2 1 3 .u32 .ro 0 .any]

/-- Boot, power, journal, memory, regulators (R57, R63, R88, R457, R506). -/
def objsBoot : List Obj := [
  ob 0x2001 0 .bool .act 0 (.btw 1 1),
  top 0x2010 7,
  obs 0x2010 1 3 .u8 .ro 0 .any,
  ob 0x2010 4 .u32 .ro 0 .any,
  ob 0x2010 5 .u64 .ro 0 .any,
  obs 0x2010 6 7 .u32 .ro 0 .any,
  ob 0x2011 0 .bool .act 0 (.btw 1 1),
  ob 0x2012 0 .u16 .rwp 120 (.btw 10 3600),
  ob 0x2013 0 .bool .act 0 (.btw 1 1),
  top 0x2014 2,
  ob 0x2014 1 .bool .ro 1 .any,
  ob 0x2014 2 .u32 .ro 0 .any,
  top 0x2020 2,
  ⟨0x2020, 0x2020, 1, 2, .dom 2097152, .act, .bytes [], .any⟩,
  top 0x2030 5,
  ob 0x2030 1 .u64 .ro 0 .any,
  ob 0x2030 2 .u8 .ro 0 .any,
  obs 0x2030 3 5 .u32 .ro 0 .any,
  top 0x2040 8,
  ob 0x2040 1 .u16 .ro 0 .any,
  obs 0x2040 2 5 .u32 .ro 0 .any,
  ob 0x2040 6 .u32 .const 100064 .any,
  ob 0x2040 7 .bool .ro 0 .any,
  ob 0x2040 8 .u32 .ro 0 .any,
  top 0x2050 6,
  ob 0x2050 1 .bool .rwp 1 .any,
  ob 0x2050 2 .u8 .rwp 16 (.btw 1 255),
  ob 0x2050 3 .u8 .rwp 24 (.btw 1 168),
  ob 0x2050 4 .u16 .rwp 4 (.btw 0 1000),
  ob 0x2050 5 .u8 .rwp 10 (.btw 4 16),
  ob 0x2050 6 .bool .rwp 0 .any,
  top 0x2051 13,
  obs 0x2051 1 13 .u64 .ro 0 .any,
  top 0x2052 5,
  ob 0x2052 1 .u8 .rwp 0 (.btw 0 7),
  ob 0x2052 2 .u8 .rwp 1 (.btw 0 7),
  obs 0x2052 3 4 .u8 .rwp 2 (.btw 0 7),
  ob 0x2052 5 .u8 .rwp 7 (.btw 0 7),
  top 0x2053 8,
  obs 0x2053 1 8 .u32 .ro 0 .any,
  top 0x2054 4,
  obs 0x2054 1 4 .u32 .ro 0 .any,
  top 0x2060 13,
  obs 0x2060 1 13 .u8 .rwp 0 (.among ([0] ++ (List.range 0x70).map (· + 8))),
  top 0x2061 13,
  obs 0x2061 1 13 .u32 .ro 0xFFFFFFFF .any]

/-- Selvedge and transport (R333, R336, R339, R363). -/
def objsSelvedge : List Obj := [
  top 0x3001 1,
  ⟨0x3001, 0x3001, 1, 1, .oct 6, .ro, .bytes [], .any⟩,
  top 0x3002 9,
  ob 0x3002 1 .u16 .rwp 1 (.btw 1 4094),
  ob 0x3002 2 .u32 .rwp 0 .any,
  ob 0x3002 3 .u8 .rwp 24 (.btw 0 32),
  obB 0x3002 4 (.oct 16) .rwp (zeros 16),
  ob 0x3002 5 .u8 .rwp 64 (.btw 0 128),
  ob 0x3002 6 .u32 .rwp 0 .any,
  ob 0x3002 7 .u8 .rwp 24 (.btw 0 32),
  obB 0x3002 8 (.oct 16) .rwp (zeros 16),
  ob 0x3002 9 .u8 .rwp 64 (.btw 0 128),
  top 0x3010 6,
  ob 0x3010 1 .u32 .rwp 300 (.btw 10 1000000),
  ob 0x3010 2 .u8 .rwp 8 (.btw 1 14),
  ob 0x3010 3 .u16 .rwp 10 (.btw 1 3600),
  ob 0x3010 4 .u8 .rwp 1 (.btw 0 1),
  ob 0x3010 5 .bool .rwp 1 .any,
  ob 0x3010 6 .bool .rwp 0 .any,
  top 0x3011 16,
  obs 0x3011 1 16 .u16 .rwp 1 (.btw 1 4094),
  top 0x3012 4,
  obs 0x3012 1 4 .u8 .rwp 2 (.btw 0 2),
  ⟨0x3020, 0x3020, 0, 0, .dom 32768, .rwp, .bytes vlanDefault, .any⟩,
  ⟨0x3030, 0x3030, 0, 0, .dom 6291456, .rwp, .bytes [], .any⟩,
  top 0x3031 6,
  ob 0x3031 1 .bool .act 0 (.btw 1 1),
  ob 0x3031 2 .u32 .ro 0 .any,
  ob 0x3031 3 .u8 .ro 0 .any,
  obs 0x3031 4 6 .u32 .ro 0 .any,
  top 0x3040 13,
  ob 0x3040 1 .u8 .act 0 (.btw 1 6),
  ob 0x3040 2 .u16 .arg 0 (.btw 0 4094),
  obB 0x3040 3 (.oct 6) .arg (zeros 6),
  ob 0x3040 4 .u8 .arg 0 (.btw 0 17),
  ob 0x3040 5 .bool .arg 0 .any,
  ob 0x3040 6 .u8 .ro 0 .any,
  obB 0x3040 7 (.oct 6) .ro (zeros 6),
  obs 0x3040 8 9 .u16 .ro 0 .any,
  ob 0x3040 10 .u8 .ro 0 .any,
  obs 0x3040 11 12 .u32 .ro 0 .any,
  ob 0x3040 13 .u32 .arg 0xFFFFFFFF .any,
  top 0x3050 8,
  ob 0x3050 1 .u8 .act 0 (.btw 1 5),
  obB 0x3050 2 (.oct 16) .arg (zeros 16),
  ob 0x3050 3 .u8 .arg 0 (.btw 0 128),
  obB 0x3050 4 (.oct 16) .arg (zeros 16),
  ob 0x3050 5 .u16 .arg 0 (.btw 0 4094),
  ob 0x3050 6 .u8 .arg 0 (.btw 0 2),
  ob 0x3050 7 .u8 .ro 0 .any,
  ob 0x3050 8 .u32 .arg 0xFFFFFFFF .any,
  top 0x3060 4,
  ob 0x3060 1 .bool .rwp 1 .any,
  ob 0x3060 2 .u16 .rwp 260 (.btw 10 3600),
  obs 0x3060 3 4 .bool .rwp 0 .any,
  top 0x3070 0x12,
  obs 0x3070 1 0x12 .u64 .ro 0 .any,
  top 0x3080 2,
  ob 0x3080 1 .u16 .rwp 3 (.btw 1 600),
  ob 0x3080 2 .bool .rwp 0 .any,
  top 0x3081 10,
  obs 0x3081 1 10 .u64 .ro 0 .any]

/-- Batten (R130, R137, R138, R142, R159). -/
def objsBatten : List Obj := [
  top 0x4010 1,
  ob 0x4010 1 .bool .rwp 1 .any,
  top 0x4020 4,
  ob 0x4020 1 .u16 .rwp 7110 (.btw 1024 65535),
  ob 0x4020 2 .bool .rwp 0 .any,
  ob 0x4020 3 .u16 .rwp 60 (.btw 1 3600),
  ob 0x4020 4 .u32 .rwp 10000 (.btw 1 1000000),
  top 0x4021 8,
  obs 0x4021 1 8 .u32 .ro 0 .any,
  top 0x4030 5,
  obs 0x4030 1 5 .u32 .ro 0 .any,
  ⟨0x4100, 0x41FF, 0, 0, .dom 16384, .rwp, .bytes [], .any⟩,
  ⟨0x4300, 0x430F, 0, 0, .dom 524288, .rwp, .bytes [], .any⟩,
  ⟨0x4600, 0x47FF, 0, 0, .dom 512, .rwp, .bytes [], .any⟩,
  ⟨0x4800, 0x4BFF, 0, 0, .u8, .const, .num 0x40, .any⟩,
  ⟨0x4800, 0x4BFF, 1, 0x40, .u32, .rwp, .num 0, .any⟩]

/-- Codec, rate control, pool, decode, Treadle (R197, R221, R258, R288, R312). -/
def objsCodec : List Obj := [
  top 0x5010 3,
  ob 0x5010 1 .u8 .rwp 8 (.btw 0 64),
  ob 0x5010 2 .u8 .rwp 0 (.btw 0 2),
  ob 0x5010 3 .u8 .rwp 16 (.btw 4 64),
  top 0x5011 10,
  obs 0x5011 1 10 .u64 .ro 0 .any,
  top 0x5020 3,
  ob 0x5020 1 .u8 .rwp 25 (.btw 0 90),
  ob 0x5020 2 .u8 .rwp 24 (.btw 16 64),
  ob 0x5020 3 .u8 .rwp 4 (.btw 0 12),
  top 0x5021 10,
  obs 0x5021 1 10 .u64 .ro 0 .any,
  top 0x5030 5,
  ob 0x5030 1 .u8 .rwp 10 (.btw 1 50),
  ob 0x5030 2 .u8 .rwp 15 (.btw 2 60),
  ob 0x5030 3 .u32 .rwp 2000 (.btw 100 100000),
  ob 0x5030 4 .u32 .rwp 65536 (.btw 1024 16777216),
  ob 0x5030 5 .bool .act 0 (.btw 1 1),
  top 0x5031 0x11,
  obs 0x5031 1 0x11 .u64 .ro 0 .any,
  top 0x5040 2,
  ob 0x5040 1 .u8 .rwp 8 (.btw 2 32),
  ob 0x5040 2 .u32 .rwp 4096 (.btw 256 65536),
  top 0x5041 6,
  obs 0x5041 1 6 .u64 .ro 0 .any,
  ⟨0x5F00, 0x5F00, 0, 0, .dom 8192, .rwp, .bytes [], .any⟩,
  top 0x5F01 5,
  ob 0x5F01 1 .u16 .const 0x0201 .any,
  obs 0x5F01 2 3 .u8 .ro 0 .any,
  obs 0x5F01 4 5 .u32 .ro 0 .any]

/-- Time (R384). -/
def objsTime : List Obj := [
  top 0x6012 6,
  ob 0x6012 1 .u32 .rwp 1000 (.btw 100 1000000),
  ob 0x6012 2 .u32 .rwp 100 (.btw 1 1000000),
  ob 0x6012 3 .u32 .rwp 1000 (.btw 0 1000000),
  ob 0x6012 4 .u32 .rwp 1000 (.btw 1 100000),
  ob 0x6012 5 .u32 .rwp 1000000 (.btw 1000 1000000000),
  ob 0x6012 6 .u32 .rwp 1000 (.btw 10 100000),
  top 0x6013 1,
  ob 0x6013 1 .u64 .act 0 (.btw 0 281474976710655),
  top 0x6014 3,
  ob 0x6014 1 .i16 .rwp 37 (.sgn 0 255),
  ob 0x6014 2 .u8 .rwp 0 (.btw 0 2),
  ob 0x6014 3 .u64 .rwp 0 .any,
  top 0x6015 3,
  ob 0x6015 1 .u32 .rwp 100000 (.btw 1 500000),
  ob 0x6015 2 .i32 .rwp 0 (.sgn (-1000000) 1000000),
  ob 0x6015 3 .bool .rwp 0 .any,
  top 0x6020 8,
  ob 0x6020 1 .u8 .rwp 0 (.btw 0 1),
  ob 0x6020 2 .u8 .rwp 127 (.btw 0 127),
  ob 0x6020 3 .u8 .rwp 0 (.btw 0 1),
  ob 0x6020 4 .bool .rwp 0 .any,
  ob 0x6020 5 .u8 .rwp 0 (.btw 0 2),
  obs 0x6020 6 7 .u8 .rwp 128 .any,
  ob 0x6020 8 .u16 .rwp 0xFFFF .any,
  top 0x6021 2,
  ob 0x6021 1 .u32 .rwp 25 (.btw 1 1000000),
  ob 0x6021 2 .u32 .rwp 1 (.btw 1 1000000),
  top 0x6022 16,
  obs 0x6022 1 16 .i32 .rwp 0 (.sgn (-1000000) 1000000),
  top 0x6030 9,
  obs 0x6030 1 9 .u64 .ro 0 .any]

/-- Faults, sparing, GPIO, pair, rings (R478, R501, R389). -/
def objsFaults : List Obj := [
  top 0x7010 3,
  ob 0x7010 1 .u16 .rwp 1 (.btw 1 1000),
  ob 0x7010 2 .u32 .rwp 0x3D000 .any,
  ob 0x7010 3 .u16 .rwp 100 (.btw 1 1000),
  top 0x7011 6,
  ob 0x7011 1 .u8 .ro 0 .any,
  ob 0x7011 2 .u16 .ro 0 .any,
  ob 0x7011 3 .u8 .ro 0 .any,
  obs 0x7011 4 5 .u64 .ro 0 .any,
  ob 0x7011 6 .u32 .ro 0 .any,
  top 0x7012 6,
  obs 0x7012 1 6 .u64 .ro 0 .any,
  ⟨0x7020, 0x7020, 0, 0, .dom 524288, .ro, .bytes [], .any⟩,
  top 0x7030 5,
  ob 0x7030 1 .u8 .rwp 5 (.btw 1 50),
  ob 0x7030 2 .u32 .rwp 1000 (.btw 1 1000000),
  ob 0x7030 3 .u8 .rwp 3 (.btw 1 100),
  ob 0x7030 4 .u16 .rwp 16 (.btw 1 1000),
  ob 0x7030 5 .bool .rwp 1 .any,
  top 0x7031 1,
  ob 0x7031 1 .u32 .act 0 .any,
  top 0x7041 0x40,
  obs 0x7041 1 0x40 .u8 .ro 0 .any,
  top 0x7042 0x20,
  obs 0x7042 1 0x20 .u8 .ro 0 .any,
  top 0x7043 8,
  obs 0x7043 1 8 .u8 .ro 0 .any,
  top 0x7044 0x10,
  obs 0x7044 1 0x10 .u8 .ro 0 .any,
  top 0x7045 5,
  obs 0x7045 1 5 .u8 .ro 0 .any,
  top 0x7047 0x48,
  obs 0x7047 1 0x48 .u8 .ro 0xFF .any,
  top 0x7048 0x28,
  obs 0x7048 1 0x28 .u8 .ro 0xFF .any,
  top 0x7049 9,
  obs 0x7049 1 9 .u8 .ro 0xFF .any,
  top 0x704A 0x12,
  obs 0x704A 1 0x12 .u8 .ro 0xFF .any,
  top 0x7050 2,
  obs 0x7050 1 2 .i16 .ro 0 .any,
  top 0x7060 6,
  ob 0x7060 1 .u16 .ro 0 .any,
  ob 0x7060 2 .u8 .rwp 0 .any,
  ob 0x7060 3 .u16 .rwp 0xFFFF .any,
  ob 0x7060 4 .u16 .rwp 60 (.btw 1 3600),
  ob 0x7060 5 .u16 .ro 0 .any,
  ob 0x7060 6 .u8 .rwp 0 .any,
  top 0x7061 0x10,
  obs 0x7061 1 0x10 .u32 .rwp 10000 (.btw 1 1000000),
  top 0x7062 0x10,
  obs 0x7062 1 0x10 .u32 .ro 0 .any,
  top 0x7070 4,
  obs 0x7070 1 2 .bool .rwp 1 .any,
  obs 0x7070 3 4 .bool .act 0 (.btw 1 1),
  top 0x7071 8,
  ob 0x7071 1 .u8 .ro 0 .any,
  ob 0x7071 2 .u16 .ro 0 .any,
  ob 0x7071 3 .bool .ro 0 .any,
  ob 0x7071 4 .u8 .ro 0 .any,
  ob 0x7071 5 .bool .ro 0 .any,
  obs 0x7071 6 7 .u32 .ro 0 .any,
  ob 0x7071 8 .u8 .ro 0 .any,
  top 0x7072 8,
  obs 0x7072 1 8 .u64 .ro 0 .any,
  top 0x7080 1,
  ob 0x7080 1 .u32 .ro 0 .any]

/-- Encode stream rows (R244, R359). -/
def objsEnc : List Obj := [
  top 0x8001 0x3A,
  ob 0x8001 1 .bool .rwp 0 .any,
  ob 0x8001 2 .u8 .rwp 3 (.btw 0 3),
  ob 0x8001 3 .u16 .rwp 1920 (.btw 128 7680),
  ob 0x8001 4 .u16 .rwp 1080 (.btw 64 4320),
  ob 0x8001 5 .u32 .rwp 1080000 (.btw 225000 27000000),
  ob 0x8001 6 .u32 .rwp 0 .any,
  ob 0x8001 7 .u8 .rwp 0 (.btw 0 1),
  ob 0x8001 8 .u8 .rwp 1 (.btw 1 4),
  ob 0x8001 9 .u8 .rwp 1 (.btw 0 3),
  ob 0x8001 0xA .u32 .rwp 3000000 (.btw 64000 400000000),
  ob 0x8001 0xB .u32 .rwp 0 (.btw 0 2000000000),
  ob 0x8001 0xC .u8 .rwp 18 (.btw 0 63),
  ob 0x8001 0xD .u8 .rwp 51 (.btw 0 63),
  ob 0x8001 0xE .u8 .rwp 0 (.btw 0 16),
  ob 0x8001 0xF .u16 .rwp 1200 (.btw 256 8192),
  ob 0x8001 0x10 .u8 .rwp 0 .any,
  ob 0x8001 0x11 .u16 .rwp 0 (.btw 0 1023),
  ob 0x8001 0x12 .u32 .rwp 0xFFFFFFFF .any,
  ob 0x8001 0x13 .u8 .rwp 0xFF (.btw 1 0xFF),
  ob 0x8001 0x14 .u8 .rwp 0 (.btw 0 1),
  ob 0x8001 0x20 .u8 .rwp 96 (.btw 96 127),
  ob 0x8001 0x21 .u32 .rwp 0 .any,
  ob 0x8001 0x22 .u16 .rwp 5004 (.btw 1024 65535),
  ob 0x8001 0x23 .u16 .rwp 5005 (.btw 1024 65535),
  ob 0x8001 0x24 .u8 .rwp 34 (.btw 0 63),
  ob 0x8001 0x25 .u8 .rwp 16 (.btw 1 255),
  obB 0x8001 0x26 (.oct 16) .rwp (zeros 16),
  ob 0x8001 0x27 .u16 .rwp 5004 (.btw 1 65535),
  ob 0x8001 0x28 .u8 .rwp 5 (.btw 0 7),
  ob 0x8001 0x29 .u16 .rwp 1008 (.btw 0 1023),
  ob 0x8001 0x2A .u16 .ro 0 .any,
  obs 0x8001 0x2B 0x2C .u32 .ro 0 .any,
  ob 0x8001 0x30 .u8 .ro 0 .any,
  obs 0x8001 0x31 0x36 .u32 .ro 0 .any,
  obs 0x8001 0x37 0x39 .u64 .ro 0 .any,
  ob 0x8001 0x3A .bool .ro 0 .any]

/-- Decode rows (R283). -/
def objsDec : List Obj := [
  top 0x8003 0x40,
  ob 0x8003 1 .bool .rwp 0 .any,
  ob 0x8003 2 .u8 .rwp 0 (.btw 0 4),
  obB 0x8003 3 (.oct 16) .rwp (zeros 16),
  ob 0x8003 4 .u16 .rwp 5004 (.btw 1 65535),
  obB 0x8003 5 (.oct 16) .rwp (zeros 16),
  ob 0x8003 6 .u16 .rwp 1 (.btw 1 4094),
  ob 0x8003 7 .u32 .rwp 0 .any,
  ob 0x8003 8 .u8 .rwp 0xFF (.among ([0xFF] ++ (List.range 32).map (· + 96))),
  ob 0x8003 9 .bool .rwp 0 .any,
  ob 0x8003 0xA .u32 .rwp 2000 (.btw 0 100000),
  ob 0x8003 0xB .bool .rwp 0 .any,
  ob 0x8003 0xC .u8 .rwp 0 (.btw 0 1),
  ob 0x8003 0xD .u32 .rwp 0xFFFFFFFF .any,
  ob 0x8003 0xE .u8 .rwp 0 (.btw 0 1),
  ob 0x8003 0xF .u32 .rwp 0 (.btw 0 1000000),
  ob 0x8003 0x10 .u8 .rwp 0 (.btw 0 3),
  ob 0x8003 0x11 .u16 .rwp 1920 (.btw 128 7680),
  ob 0x8003 0x12 .u16 .rwp 1080 (.btw 64 4320),
  ob 0x8003 0x30 .u8 .ro 0 .any,
  obs 0x8003 0x31 0x3F .u32 .ro 0 .any,
  ob 0x8003 0x40 .u64 .ro 0 .any]

/-- Endpoint rows (R334, R360). -/
def objsEp : List Obj := [
  top 0x8005 0x41,
  ob 0x8005 1 .bool .rwp 0 .any,
  ob 0x8005 2 .u16 .rwp 0 .any,
  obB 0x8005 3 (.oct 16) .rwp (zeros 16),
  obB 0x8005 4 (.oct 6) .rwp (zeros 6),
  ob 0x8005 5 .u16 .rwp 1 (.btw 1 4094),
  ob 0x8005 6 .u8 .rwp 0 (.btw 0 1),
  ob 0x8005 0x20 .u16 .rwp 5004 (.btw 1 65535),
  ob 0x8005 0x21 .u32 .rwp 0xFFFFFFFF .any,
  ob 0x8005 0x22 .bool .rwp 1 .any,
  ob 0x8005 0x30 .bool .ro 0 .any,
  obs 0x8005 0x31 0x37 .u32 .ro 0 .any,
  ob 0x8005 0x38 .u8 .ro 0 .any,
  ob 0x8005 0x39 .u32 .ro 0 .any,
  obB 0x8005 0x40 (.oct 6) .ro (zeros 6),
  ob 0x8005 0x41 .u8 .ro 0 .any]

/-- The shaping fields of a scheduler row from subindex `b` on (R361). -/
def shaping (i b : Nat) : List Obj := [
  ob i b .u8 .rwp 0 (.btw 0 7),
  ob i (b + 1) .u8 .rwp 1 (.btw 1 255),
  ob i (b + 2) .u32 .rwp 0 (.btw 0 400000000),
  ob i (b + 3) .u32 .rwp 32768 (.btw 2048 16777216),
  ob i (b + 4) .u32 .rwp 0 (.btw 0 400000000),
  ob i (b + 5) .u32 .rwp 65536 (.btw 2048 16777216)]

/-- Scheduler rows (R361). -/
def objsSched : List Obj :=
  [top 0x8007 0x33, ob 0x8007 1 .bool .rwp 0 .any, ob 0x8007 2 .u16 .rwp 0 (.btw 0 16383)] ++ shaping 0x8007 3 ++
  [ob 0x8007 9 .u32 .rwp 4096 (.btw 16 262144),
   obs 0x8007 0x30 0x31 .u32 .ro 0 .any, ob 0x8007 0x32 .u64 .ro 0 .any, ob 0x8007 0x33 .u32 .ro 0 .any] ++
  [top 0x8009 8, ob 0x8009 1 .bool .rwp 0 .any, ob 0x8009 2 .u16 .rwp 0 (.btw 0 1023)] ++ shaping 0x8009 3 ++
  [top 0x800B 9, ob 0x800B 1 .bool .rwp 0 .any, ob 0x800B 2 .u8 .rwp 0 (.btw 0 19)] ++ shaping 0x800B 3 ++
  [ob 0x800B 9 .u32 .rwp 40000 (.btw 0 10000000)] ++
  [top 0x800D 0x31, ob 0x800D 1 .bool .const 1 .any, ob 0x800D 2 .u32 .rwp 0 (.btw 0 400000000),
   ob 0x800D 3 .u32 .rwp 65536 (.btw 2048 16777216),
   ob 0x800D 0x30 .u32 .ro 0 .any, ob 0x800D 0x31 .u64 .ro 0 .any]

/-- Cursor objects (R78, R81): index and number of rows. -/
def cursors : List (Nat × Nat) :=
  [(0x8000, 65536), (0x8002, 4096), (0x8004, 1048576), (0x8006, 65536), (0x8008, 16384), (0x800A, 1024), (0x800C, 20)]

/-- Every object but the cursors. -/
def objects : List Obj :=
  objsComm ++ objsBoot ++ objsSelvedge ++ objsBatten ++ objsCodec ++ objsTime ++ objsFaults ++
  objsEnc ++ objsDec ++ objsEp ++ objsSched

/-- The objects of one block of indexes (R75): the search looks only where the index can stand. -/
def objectsOf (idx : Nat) : List Obj :=
  match idx / 0x1000 with
  | 1 => objsComm
  | 2 => objsBoot
  | 3 => objsSelvedge
  | 4 => objsBatten
  | 5 => objsCodec
  | 6 => objsTime
  | 7 => objsFaults
  | 8 => if idx = 0x8001 then objsEnc else if idx = 0x8003 then objsDec else if idx = 0x8005 then objsEp else objsSched
  | _ => []

/-- The definition of an object and subindex. -/
def findObj (idx sub : Nat) : Option Obj :=
  (objectsOf idx).find? fun o => decide (o.ilo ≤ idx) && decide (idx ≤ o.ihi) && decide (o.slo ≤ sub) && decide (sub ≤ o.shi)

/-- Whether an index is defined at all (R75). -/
def hasIndex (idx : Nat) : Bool :=
  (objectsOf idx).any (fun o => decide (o.ilo ≤ idx) && decide (idx ≤ o.ihi)) || cursors.any (fun c => c.1 == idx)

/-- Rows of the table whose row object is `idx`, `none` for an index that is no row object (R77). -/
def rowsOf (idx : Nat) : Option Nat := (cursors.find? fun c => c.1 + 1 == idx).map (·.2)

/-- Rows of the scheduler that are fixed (R348): the parent of the fixed queues, subscriber and service nodes. -/
def fixedParent (idx row : Nat) : Option Nat :=
  if idx = 0x8007 then
    if 65408 ≤ row then some (16368 + (row - 65408) / 8)
    else if row = 65400 then some 16366 else if row = 65401 then some 16367
    else if row = 65402 then some 16364 else if row = 65403 then some 16365 else none
  else if idx = 0x8009 then
    if 16368 ≤ row then some (1008 + (row - 16368))
    else if row = 16366 then some 1006 else if row = 16367 then some 1007
    else if row = 16364 then some 1004 else if row = 16365 then some 1005 else none
  else if idx = 0x800B then
    if 1008 ≤ row then some (row - 1008)
    else if row = 1006 then some 17 else if row = 1007 then some 16
    else if row = 1004 then some 18 else if row = 1005 then some 19 else none
  else none

/-- A row-field value that is not the field's plain default, because the row is fixed (R348, R361). -/
def fixedField (idx sub row : Nat) : Option Nat :=
  match fixedParent idx row with
  | some p => if sub = 1 then some 1 else if sub = 2 then some p
      else if idx = 0x8007 ∧ row = 65400 ∧ sub = 9 then some 16384 else none
  | none => none

end Sys2Proof.Machine
end

