-- ==== Sys2Proof/Machine/Tables.lean ====
section
/-! DEFINITION. Operations over sparse tables, byte strings, bit fields and check values: no state here. -/

namespace Sys2Proof.Machine

/-! ### Sparse tables: keys strictly rising -/

/-- The row of key `k`. -/
def look {α : Type} : Tab α → Nat → Option α
  | [], _ => none
  | (j, v) :: r, k => if j = k then some v else look r k

/-- The row of key `k`, or the value an absent key stands for. -/
def lookD {α : Type} (d : α) (t : Tab α) (k : Nat) : α := (look t k).getD d

/-- Write the row of key `k`, keeping the keys strictly rising. -/
def put {α : Type} : Tab α → Nat → α → Tab α
  | [], k, v => [(k, v)]
  | (j, w) :: r, k, v => if k < j then (k, v) :: (j, w) :: r else if k = j then (k, v) :: r else (j, w) :: put r k v

/-- Remove the row of key `k`. -/
def del {α : Type} : Tab α → Nat → Tab α
  | [], _ => []
  | (j, w) :: r, k => if j = k then r else (j, w) :: del r k

/-- Change the row of key `k`, an absent one standing for `d`. -/
def upd {α : Type} (d : α) (t : Tab α) (k : Nat) (f : α → α) : Tab α := put t k (f (lookD d t k))

/-- Keys strictly rising. -/
def tabWf {α : Type} : Tab α → Bool
  | [] => true
  | [_] => true
  | (j, _) :: (k, v) :: r => decide (j < k) && tabWf ((k, v) :: r)

/-- Add to a counter of a table of counters (wide counters: they do not wrap in the model's range). -/
def bump (t : Tab Nat) (k : Nat) (n : Nat := 1) : Tab Nat := upd 0 t k (· + n)

/-- Add to a 32-bit counter that wraps. -/
def bumpW (t : Tab Word) (k : Nat) (n : Nat := 1) : Tab Word := upd 0 t k (· + BitVec.ofNat 32 n)

/-- A 32-bit counter that saturates (R114). -/
def sat32 (w : Word) : Word := if w = 0xFFFFFFFF then w else w + 1

/-! ### Byte memories: an absent address reads 0, and no address is listed with 0 -/

/-- One byte. -/
def byteAt (t : Tab Byte) (a : Nat) : Byte := lookD 0 t a

/-- Write one byte, keeping the canonical form. -/
def setByte (t : Tab Byte) (a : Nat) (b : Byte) : Tab Byte := if b = 0 then del t a else put t a b

/-- Write a string of bytes from address `a` on. -/
def setBytes (t : Tab Byte) (a : Nat) : Bytes → Tab Byte
  | [] => t
  | b :: r => setBytes (setByte t a b) (a + 1) r

/-- Read `n` bytes from address `a` on. -/
def bytesAt (t : Tab Byte) (a n : Nat) : Bytes := (List.range n).map fun i => byteAt t (a + i)

/-- The canonical form: keys strictly rising and no listed 0. -/
def memWf (t : Tab Byte) : Bool := tabWf t && t.all (fun p => p.2 != 0)

/-! ### Bytes and numbers -/

/-- `n` bytes of `v`, least significant first. -/
def le : Nat → Nat → Bytes
  | 0, _ => []
  | n + 1, v => BitVec.ofNat 8 v :: le n (v / 256)

/-- `n` bytes of `v`, most significant first. -/
def be (n v : Nat) : Bytes := (le n v).reverse

/-- The number a byte string spells, least significant first. -/
def leNat : Bytes → Nat
  | [] => 0
  | b :: r => b.toNat + 256 * leNat r

/-- The number a byte string spells, most significant first. -/
def beNat (b : Bytes) : Nat := leNat b.reverse

/-- `n` bytes from offset `o`, zero where the string has ended. -/
def slice (b : Bytes) (o n : Nat) : Bytes := ((b.drop o) ++ List.replicate n 0).take n

/-- A little-endian number inside a byte string. -/
def le16 (b : Bytes) (o : Nat) : Nat := leNat (slice b o 2)
def le32 (b : Bytes) (o : Nat) : Nat := leNat (slice b o 4)
def le64 (b : Bytes) (o : Nat) : Nat := leNat (slice b o 8)
/-- A number in network order inside a byte string. -/
def be16 (b : Bytes) (o : Nat) : Nat := beNat (slice b o 2)
def be32 (b : Bytes) (o : Nat) : Nat := beNat (slice b o 4)
/-- One byte as a number. -/
def u8 (b : Bytes) (o : Nat) : Nat := (b.getD o 0).toNat

/-- Pad with zeros to a multiple of `k`. -/
def padTo (k : Nat) (b : Bytes) : Bytes := b ++ List.replicate ((k - b.length % k) % k) 0

/-- Cut a byte string into parts of `k` bytes, the last perhaps shorter. `n` bounds the number of parts. -/
def chunks (k : Nat) : Nat → Bytes → List Bytes
  | 0, _ => []
  | _ + 1, [] => []
  | n + 1, b => b.take k :: chunks k n (b.drop k)

/-! ### Bits -/

/-- Bits [hi:lo] of a number. -/
def bits (v hi lo : Nat) : Nat := (v / 2 ^ lo) % 2 ^ (hi + 1 - lo)
/-- Bit `i` of a number. -/
def bitOf (v i : Nat) : Bool := v.testBit i
/-- A bit as a number. -/
def b2n (b : Bool) : Nat := if b then 1 else 0
/-- A number's two's complement value in `n` bits. -/
def sext (n v : Nat) : Int := if 2 ^ (n - 1) ≤ v % 2 ^ n then (v % 2 ^ n : Nat) - (2 ^ n : Nat) else (v % 2 ^ n : Nat)
/-- An integer's two's complement encoding in `n` bits. -/
def twos (n : Nat) (x : Int) : Nat := (x % (2 ^ n : Nat)).toNat

/-- The write mask of four byte enables (R108, R109). -/
def beMask (e : BitVec 4) : Word :=
  BitVec.ofNat 32 (b2n (e.getLsbD 0) * 0xFF + b2n (e.getLsbD 1) * 0xFF00 + b2n (e.getLsbD 2) * 0xFF0000 +
    b2n (e.getLsbD 3) * 0xFF000000)

/-! ### Check values (R189) -/

/-- One bit of a reflected CRC. -/
def crcBitR {w : Nat} (poly c : BitVec w) : BitVec w := if c.getLsbD 0 then (c >>> 1) ^^^ poly else c >>> 1

/-- One bit of a CRC that is not reflected. -/
def crcBitN {w : Nat} (poly c : BitVec w) : BitVec w := if c.msb then (c <<< 1) ^^^ poly else c <<< 1

/-- A function applied `n` times. -/
def times {α : Type} (f : α → α) : Nat → α → α
  | 0, x => x
  | n + 1, x => times f n (f x)

/-- A reflected CRC over a byte string. -/
def crcR {w : Nat} (poly : BitVec w) (c : BitVec w) (b : Bytes) : BitVec w :=
  b.foldl (fun c x => times (crcBitR poly) 8 (c ^^^ BitVec.ofNat w x.toNat)) c

/-- A CRC over a byte string, not reflected. -/
def crcN {w : Nat} (poly : BitVec w) (c : BitVec w) (b : Bytes) : BitVec w :=
  b.foldl (fun c x => times (crcBitN poly) 8 (c ^^^ BitVec.ofNat w (x.toNat * 2 ^ (w - 8)))) c

/-- CRC-16/CCITT (R189). -/
def crc16 (b : Bytes) : BitVec 16 := crcN 0x1021 0xFFFF b
/-- CRC-32/ISO-HDLC (R189): polynomial 0x04C1_1DB7 reflected. -/
def crc32 (b : Bytes) : BitVec 32 := ~~~ (crcR (0xEDB88320 : BitVec 32) (~~~ 0) b)
/-- CRC-32C (R189): polynomial 0x1EDC_6F41 reflected. -/
def crc32c (b : Bytes) : BitVec 32 := ~~~ (crcR (0x82F63B78 : BitVec 32) (~~~ 0) b)
/-- CRC-64/ECMA-182 (R189). -/
def crc64 (b : Bytes) : BitVec 64 := crcN 0x42F0E1EBA9EA3693 0 b

/-! ### Lists -/

/-- Replace the element at a position. -/
def setAt {α : Type} (l : List α) (i : Nat) (v : α) : List α := l.set i v

/-- The first element that a test accepts, and the list without it. -/
def takeFirst {α : Type} (p : α → Bool) : List α → Option (α × List α)
  | [] => none
  | x :: r => if p x then some (x, r) else (takeFirst p r).map fun q => (q.1, x :: q.2)

/-- Change the first element that a test accepts. -/
def updFirst {α : Type} (p : α → Bool) (f : α → α) : List α → List α
  | [] => []
  | x :: r => if p x then f x :: r else x :: updFirst p f r

/-- A row of an association list keyed by any type. -/
def alook {κ α : Type} [DecidableEq κ] : List (κ × α) → κ → Option α
  | [], _ => none
  | (j, v) :: r, k => if j = k then some v else alook r k

/-- Write a row of an association list. -/
def aput {κ α : Type} [DecidableEq κ] : List (κ × α) → κ → α → List (κ × α)
  | [], k, v => [(k, v)]
  | (j, w) :: r, k, v => if j = k then (k, v) :: r else (j, w) :: aput r k v

/-- Remove a row of an association list. -/
def adel {κ α : Type} [DecidableEq κ] (l : List (κ × α)) (k : κ) : List (κ × α) := l.filter fun p => p.1 ≠ k

/-- Smallest of a list by a measure, the first among equals. -/
def minBy {α : Type} (f : α → Nat) : List α → Option α
  | [] => none
  | x :: r => match minBy f r with
    | none => some x
    | some y => if f y < f x then some y else some x

end Sys2Proof.Machine
end

