-- ==== Sys2Proof/Machine/Operands.lean ====
section
/-! DEFINITION. Operand forms: master IDs, unit numbers and clusters, Bobbin widths and depths, addresses of registers in
fault records. -/

namespace Sys2Proof.Machine

/-! ### Master IDs (R21) -/

def mHost : Master := 0x240
def mReplicate : Master := 0x290
def mBpm : Master := 0x2A0
def mGavon : Master := 0x2C0
def mFault : Master := 0x300
def mTime : Master := 0x301
def mStore : Master := 0x302
/-- Selvedge ingress pipeline of a logical port: its port group (R313). -/
def mIngress (port : Nat) : Master := BitVec.ofNat 12 (0x280 + port / 4)
def mEnc (phys : Nat) : Master := BitVec.ofNat 12 phys
def mDec (phys : Nat) : Master := BitVec.ofNat 12 (0x080 + phys)
def mEngine (phys : Nat) : Master := BitVec.ofNat 12 (0x0C0 + phys)
def mCore (phys : Nat) : Master := BitVec.ofNat 12 (0x100 + phys)
def mDma (n : Nat) : Master := BitVec.ofNat 12 (0x200 + n)

/-- The physical control core a master ID names (R21). -/
def coreOf (m : Master) : Option Nat :=
  if 0x100 ≤ m.toNat ∧ m.toNat ≤ 0x111 then some (m.toNat - 0x100) else none

/-- Master of a unit (R21). Gavon lanes are no masters: their faults carry the receive master. -/
def mUnit : HwUnit → Master
  | .encTile n => mEnc n
  | .decTile n => mDec n
  | .engine n => mEngine n
  | .core n => mCore n
  | .gavonLane _ => mGavon

/-- Key of a unit's rolling counts (R468): its master ID; a Gavon lane has none, and a key of its own. -/
def unitItem : HwUnit → Nat
  | .gavonLane n => 0x5000 + n.val
  | u => (mUnit u).toNat

/-! ### Logical and physical numbers (R19, R20) -/

/-- Physical encode tile of logical tile `n` as made (R19). -/
def encPhys0 (n : Nat) : Nat := 9 * (n / 8) + n % 8
/-- Physical decode tile of logical tile `n` as made (R19). -/
def decPhys0 (n : Nat) : Nat := 5 * (n / 4) + n % 4

/-- The sparing map in force (R20, R470): the stored one, or the live one while a write-protected store cannot take it (R65). -/
def State.sparing (s : State) : Sparing := s.faults.liveMap.getD s.store.sparing

/-- Physical encode tile that serves logical `n` now, 0xFF for none (R20, R472). -/
def encPhys (s : State) (n : Nat) : Nat := lookD (encPhys0 n) s.sparing.enc n
def decPhys (s : State) (n : Nat) : Nat := lookD (decPhys0 n) s.sparing.dec n
def enginePhys (s : State) (n : Nat) : Nat := lookD n s.sparing.batten n
def corePhys (s : State) (n : Nat) : Nat := lookD n s.sparing.core n
/-- Gavon lane state: 0 active, 1 spare, 2 retired (R478). -/
def laneState (s : State) (n : Nat) : Nat := lookD (if n = 4 then 1 else 0) s.sparing.lanes n

/-- The logical core that a physical core serves (R20). -/
def coreLogical (s : State) (phys : Nat) : Option Nat := (List.range 16).find? fun k => corePhys s k == phys
/-- The logical core a master names. -/
def masterCore (s : State) (m : Master) : Option Nat := (coreOf m).bind (coreLogical s)

/-- Logical tile served by a physical encode tile. -/
def encLogical (s : State) (phys : Nat) : Option Nat := (List.range 64).find? fun k => encPhys s k == phys
def decLogical (s : State) (phys : Nat) : Option Nat := (List.range 32).find? fun k => decPhys s k == phys
def engineLogical (s : State) (phys : Nat) : Option Nat := (List.range 8).find? fun k => enginePhys s k == phys

/-- Cluster of a physical tile (R19). -/
def encCluster (phys : Nat) : Nat := phys / 9
def decCluster (phys : Nat) : Nat := phys / 5

/-! ### Bobbins (R31, R128, R195) -/

/-- Depth in items. -/
def bobDepth : BobbinId → Nat
  | .ctu _ _ => 512
  | .hint _ => 8
  | .slice _ => 2048
  | .surface _ _ => 64
  | .touch _ => 16
  | .timestamp => 4
  | .controlTile _ => 32
  | .controlDtile _ => 32
  | .controlEngine _ => 32
  | .frameDown _ => 8
  | .frameUp _ => 8

/-- Width of an item in bits. -/
def bobWidth : BobbinId → Nat
  | .ctu _ _ => 256
  | .hint _ => 64
  | .slice _ => 256
  | .surface _ _ => 256
  | .touch _ => 128
  | .timestamp => 128
  | .controlTile _ => 64
  | .controlDtile _ => 64
  | .controlEngine _ => 64
  | .frameDown _ => 64
  | .frameUp _ => 64

/-- The master of a unit that may be out of service (0xFF): an access of none is unattributed (R21). -/
def mServing (mk : Nat → Master) (phys : Nat) : Master := if phys = 0xFF then 0xFFF else mk phys

/-- The unit that writes a Bobbin: its master is charged with a word that cannot be corrected (R30). The source island of the touch and
of the control-command Bobbins holds several masters: the first is charged to the replication unit, the second to the core that serves
logical core 0 (DESIGN CHOICE, log entry 141). -/
def bobSource (s : State) : BobbinId → Master
  | .ctu t _ => mServing mEngine (enginePhys s (encCluster t))
  | .hint t => mServing mEngine (enginePhys s (encCluster t))
  | .slice t => mEnc t
  | .surface d _ => mDec d
  | .touch _ => mReplicate
  | .timestamp => mTime
  | .controlTile _ => mServing mCore (corePhys s 0)
  | .controlDtile _ => mServing mCore (corePhys s 0)
  | .controlEngine _ => mServing mCore (corePhys s 0)
  | .frameDown t => mServing mEngine (enginePhys s (encCluster t))
  | .frameUp t => mEnc t

/-! ### Addresses in fault records (R460) -/

/-- A BAR0 register as a device address. -/
def bar0Addr (off : Nat) : Nat := 0x40000000 + off
/-- A register behind an indirect window. -/
def indirAddr (target off : Nat) : Nat := 0xFF0000000000 + target * 2 ^ 20 + off
def bar2Addr (off : Nat) : Nat := 0xFE0000000000 + off
def bar4Addr (off : Nat) : Nat := 0xFD0000000000 + off

/-- The code of an access in a fault record (R463). -/
def accCode : Access → Nat
  | .read => 0
  | .write => 1
  | .fetch => 2
  | .atomic => 3
  | .dma => 4
  | .descriptor => 5
  | .none => 6

end Sys2Proof.Machine
end

