-- ==== Sys2Proof/Machine/Flags.lean ====
section
/-! DEFINITION. Values of the dictionary as units sample them, and every status level computed from the state:
the conditions of level sources, the error register, the level of `ERR_N`, full flags. -/

namespace Sys2Proof.Machine

/-! ### The dictionary's values as units sample them (R74) -/

/-- Key of a parameter: index, subindex and row (2^32 for none). -/
def pkey (idx sub : Nat) (row : Option Nat) : Nat := (idx * 256 + sub) * 2 ^ 33 + row.getD (2 ^ 32)

/-- Fields of the clock-face stream, row 0 of 0x8001 while 0x4010:01 is 1 (R50, R246, R359). -/
def clockRow (sub : Nat) : Option PVal :=
  match sub with
  | 1 => some (.num 1)
  | 2 => some (.num 0)
  | 3 => some (.num 1920)
  | 4 => some (.num 1080)
  | 5 => some (.num 1080000)
  | 7 => some (.num 0)
  | 8 => some (.num 1)
  | 0xA => some (.num 3000000)
  | 0xF => some (.num 1200)
  | 0x13 => some (.num 1)
  | 0x14 => some (.num 1)
  | 0x20 => some (.num 96)
  | 0x22 => some (.num 5004)
  | 0x24 => some (.num 34)
  | 0x25 => some (.num 16)
  | 0x26 => some (.bytes ([0, 0, 0, 0, 0, 0, 0, 0, 0, 0, 0xFF, 0xFF, 239, 192, 88, 60]))
  | 0x27 => some (.num 5004)
  | 0x28 => some (.num 5)
  | _ => none

/-- The default of a parameter without a row (R73, R76). -/
def dfltV (s : State) (idx sub : Nat) : PVal :=
  if idx = 0x1FD0 ∧ sub = 1 then .num (0x10 + b2n s.boot.pairId)
  else match findObj idx sub with
    | some o => o.dflt
    | none => .num 0

/-- The value that the dictionary holds of a parameter without a row: the last one applied, or the default (R73). -/
def storedV (s : State) (idx sub : Nat) : PVal := (look s.dict.params (pkey idx sub none)).getD (dfltV s idx sub)

/-- Parameters whose new values act only at the next whole-device reset (R76, R258, R339, R457, R501). -/
def atReset (idx sub : Nat) : Bool :=
  idx == 0x1FD0 || idx == 0x1FD1 || idx == 0x3002 || (idx == 0x5030 && sub == 4) || (idx == 0x7070 && sub == 1) ||
    (idx == 0x2050 && sub == 1)

/-- Parameters whose journaled values apply in Newt mode too (R55, Addressing). -/
def addressing (idx sub : Nat) : Bool := idx == 0x1FD0 || idx == 0x1FD1 || (idx == 0x3002 && decide (6 ≤ sub) && decide (sub ≤ 9))

/-- The value of a parameter without a row that its function acts on: in Newt mode the default (R55), and for the parameters that act
only from a reset on the value found at the start. -/
def parV (s : State) (idx sub : Nat) : PVal :=
  if s.boot.newt && !(addressing idx sub) then dfltV s idx sub
  else if atReset idx sub then (look s.boot.atStart (pkey idx sub none)).getD (dfltV s idx sub)
  else storedV s idx sub

/-- Whether the clock-face stream is enabled (R51). -/
def clockOn (s : State) : Bool := parV s 0x4010 1 != .num 0

/-- Rate of a logical port in kbit/s under its group's breakout, 0 for the other port nodes (R361, R313). -/
def linkRate (s : State) (p : Nat) : Nat :=
  if 16 ≤ p then 0
  else
    match parV s 0x3012 (p / 4 + 1) with
    | .num 0 => 400000000
    | .num 1 => 200000000
    | _ => 100000000

/-- The default of a row field (R348, R361). -/
def dfltRow (s : State) (idx sub row : Nat) : PVal :=
  match findObj idx sub with
  | some o => match fixedField idx sub row with
    | some n => .num n
    | none => if idx = 0x800D ∧ sub = 2 then .num (linkRate s row) else o.dflt
  | none => .num 0

/-- The value that the dictionary holds of a row field; row 0 of 0x8001 shows the clock-face stream while it is enabled (R246). -/
def storedRow (s : State) (idx sub row : Nat) : PVal :=
  if idx = 0x8001 ∧ row = 0 ∧ clockOn s then
    match clockRow sub with
    | some v => v
    | none => dfltRow s idx sub row
  else (look s.dict.params (pkey idx sub (some row))).getD (dfltRow s idx sub row)

/-- Stream context 0 runs the clock face, or will when it starts: 0x4010:01 is sampled at its frame boundaries (R51, R74). -/
def clockLive (s : State) : Bool :=
  match look s.encs 0 with
  | some e => if e.state = .stopped ∨ e.state = .waitPool then clockOn s else e.clock
  | none => clockOn s

/-- The value of a row field that its function acts on: in Newt mode no journaled value applies (R55). -/
def rowV (s : State) (idx sub row : Nat) : PVal :=
  if idx = 0x8001 ∧ row = 0 ∧ clockLive s then (clockRow sub).getD (dfltRow s idx sub row)
  else if s.boot.newt then dfltRow s idx sub row
  else (look s.dict.params (pkey idx sub (some row))).getD (dfltRow s idx sub row)

def PVal.nat : PVal → Nat
  | .num n => n
  | .bytes b => leNat b
def PVal.raw : PVal → Bytes
  | .num _ => []
  | .bytes b => b

/-- A numeric parameter. -/
def par (s : State) (idx sub : Nat) : Nat := (parV s idx sub).nat
/-- A Boolean parameter. -/
def parB (s : State) (idx sub : Nat) : Bool := par s idx sub != 0
/-- A byte-valued parameter. -/
def parBytes (s : State) (idx sub : Nat) : Bytes := (parV s idx sub).raw
/-- A numeric row field. -/
def fld (s : State) (idx row sub : Nat) : Nat := (rowV s idx sub row).nat
def fldB (s : State) (idx row sub : Nat) : Bool := fld s idx row sub != 0
def fldBytes (s : State) (idx row sub : Nat) : Bytes := (rowV s idx sub row).raw

/-- Whether an encode stream's row is valid. -/
def encValid (s : State) (n : Nat) : Bool := fldB s 0x8001 n 1
def decValid (s : State) (n : Nat) : Bool := fldB s 0x8003 n 1
def epValid (s : State) (n : Nat) : Bool := fldB s 0x8005 n 1

/-! ### Time -/

/-- PTP seconds and nanoseconds, 0 before the time unit runs (R460). -/
def ptpSec (s : State) : Nat := if s.boot.timeUp then s.time.ptp / 1000000000 else 0
def ptpNs (s : State) : Nat := if s.boot.timeUp then s.time.ptp % 1000000000 else 0
/-- A PTP time in ticks of 1/27,000,000 s (R366). -/
def ticksOf (ns : Nat) : Nat := ns / 1000000000 * 27000000 + ns % 1000000000 * 27 / 1000
/-- The PTP time in ticks. -/
def ptpTicks (s : State) : Nat := ticksOf (if s.boot.timeUp then s.time.ptp else 0)
/-- The 16-byte timestamp of R365 with tag and fraction. -/
def stamp (sec ns frac tag : Nat) : Bytes := le 4 (frac + tag * 65536) ++ le 4 ns ++ le 4 sec ++ le 4 (sec / 2 ^ 32)
/-- A UTC field: the object 0x6014:`sub`, or the primary's while Passive (R381). -/
def utcField (s : State) (sub : Nat) : Nat :=
  match s.time.mode, s.time.mirror with
  | .passive, some m => if sub = 1 then m.utcOffset.toNat else if sub = 2 then m.leap.toNat else m.leapAt.toNat
  | _, _ => par s 0x6014 sub
/-- The second in which contained faults are counted for the log (R466). -/
def logSecond (s : State) : Nat := if s.boot.timeUp then ptpSec s else (s.clk.now - s.boot.resetAt) / 1000000000

/-! ### Faults -/

/-- `LEVEL` of `ERR_PIN`: `ERR_N` driven low by a pulse or by `HOLD` (R464). -/
def Faults.errLow (f : Faults) : Bool := f.pulseEnd.isSome || f.hold

/-- The error register 0x1001:00 (R467). -/
def errRegister (s : State) : BitVec 8 :=
  BitVec.ofNat 8 (b2n s.faults.valid + 8 * b2n s.faults.hot + 16 * b2n (s.faults.gavonDown || s.paths.busOff) +
    128 * b2n (s.faults.valid && s.faults.severity == 2))

/-- A fault is severe: fatal, or contained with its bit set in 0x7010:02 (R464). -/
def severe (s : State) (kind : Nat) : Bool := decide (0x80 ≤ kind) || (decide (kind < 32) && bitOf (par s 0x7010 2) kind)

/-- Levels of the eight GPIO outputs (R477, R464), true is high: 0x7060 gives no polarity, so active is high. -/
def gpioLevels (s : State) : BitVec 8 :=
  BitVec.ofNat 8 (par s 0x7060 2) ||| (if s.faults.errLow then BitVec.ofNat 8 (par s 0x7060 6) else 0)

/-! ### Ring flags -/

/-- Full by indices modulo 2S with S = 2^size (R389). -/
def ringFull (size head tail : Nat) : Bool := (tail + 2 ^ (size + 1) - head) % 2 ^ (size + 1) == 2 ^ size
/-- The next index modulo 2S. -/
def ringNext (size i : Nat) : Nat := (i + 1) % 2 ^ (size + 1)
/-- Distance from `a` forward to `b` modulo 2S. -/
def ringDist (size a b : Nat) : Nat := (b + 2 ^ (size + 1) - a % 2 ^ (size + 1)) % 2 ^ (size + 1)

def Cq.full (c : Cq) : Bool := ringFull c.size.toNat c.head.toNat c.tail.toNat

/-! ### Conditions of the level sources (R412) -/

/-- A channel's done interrupt level (R405). -/
def Dma.level (d : Dma) : Bool := (d.done || d.err) && d.irq

/-- The level of a shared level source. -/
def levelCond (s : State) (n : Nat) : Bool :=
  if n = 1 then s.bar2.done && s.bar2.irq
  else if n = 9 then !(lookD {} s.trans.queues 65400).copies.isEmpty
  else if 0x80 ≤ n ∧ n ≤ 0x9F then (lookD {} s.dma.chans (n - 0x80)).level
  else if 0x100 ≤ n ∧ n ≤ 0x4FF then
    let c := lookD {} s.rings.cqs (n - 0x100)
    c.tail != c.head
  else if 0x900 ≤ n ∧ n ≤ 0x907 then !(lookD [] s.intc.logs (n - 0x900)).isEmpty
  else false

/-- Trigger of a source number (R412). -/
def isLevel (n : Nat) : Bool :=
  n == 1 || n == 9 || (decide (0x80 ≤ n) && decide (n ≤ 0x9F)) || (decide (0x100 ≤ n) && decide (n ≤ 0x4FF)) ||
    (decide (0x900 ≤ n) && decide (n ≤ 0x907))
/-- Sources that may be Class A (R412). -/
def canClassA (n : Nat) : Bool :=
  (decide (0x80 ≤ n) && decide (n ≤ 0x9F)) || (decide (0x100 ≤ n) && decide (n ≤ 0x907))
/-- Shared numbers that are sources (R412): not reserved, not private. -/
def isShared (n : Nat) : Bool :=
  (decide (1 ≤ n) && decide (n ≤ 0x17)) || (decide (0x80 ≤ n) && decide (n ≤ 0x9F)) ||
    (decide (0x100 ≤ n) && decide (n ≤ 0x907))
/-- Private numbers that are sources (R415). -/
def isPrivate (n : Nat) : Bool := decide (0x40 ≤ n) && decide (n ≤ 0x61)

/-! ### The pair's health (R480, R486) -/

/-- The device serves (R480). -/
def serves (s : State) : Bool := decide (s.pair.role = .standalone) || decide (s.pair.role = .primary)

/-- The front ports serve (R480, R481): in Newt mode not while the partner is alive. -/
def frontServes (s : State) : Bool := serves s && !(s.boot.newt && s.pair.aliveIn)

/-- A croak's `STATE` that the partner of this role sends in a healthy pair (R484). -/
def partnerState (r : Role) : Option (BitVec 8) :=
  match r with
  | .primary => some 2
  | .secondary => some 1
  | _ => none

/-- The pair is healthy (R486). -/
def healthy (s : State) : Bool :=
  !s.pair.silent && s.pair.mirrorOk &&
    (match s.pair.partner with
    | some c => decide (partnerState s.pair.role = some c.state) && decide (c.epoch = s.pair.epoch)
    | none => false)

/-- 0x7071:04 (R501): halves up, partner croaks arriving. -/
def pairLinks (s : State) : Nat := b2n s.pair.halfA + 2 * b2n s.pair.halfB + 4 * b2n (!s.pair.silent)

def roleCode : Role → Nat
  | .standalone => 0
  | .primary => 1
  | .secondary => 2
  | .joining => 3
  | .standby => 4

/-! ### The clock in Holdover (R368, R369) -/

/-- The holdover estimate τ nanoseconds after its origin, over `estDen` (R369). -/
def estDen : Nat := 2 * 1000 * 86400 * 10 ^ 18
def estNum (s : State) : Nat :=
  let t := s.clk.now - s.time.holdFrom
  s.time.holdBase * estDen +
    (if s.time.holdRef then par s 0x6012 2 * t * (2 * 86400 * 10 ^ 9) + par s 0x6012 3 * t ^ 2
     else par s 0x6012 4 * t * (2 * 1000 * 86400 * 10 ^ 9))
/-- `HOLDOVER_EST` (R382): 0 outside Holdover. -/
def holdoverEst (s : State) : Nat := if s.time.mode = .holdover then min (estNum s / estDen) 0xFFFFFFFF else 0

/-- Bounds of the accuracy codes of IEEE 1588-2019 from 0x17 on, in picoseconds. PRESUMED: the spec names the standard. -/
def accuracyBounds : List Nat :=
  [1, 2, 10, 25, 100, 250, 1000, 2500, 10000, 25000, 100000, 250000, 1000000, 2500000, 10000000, 25000000, 100000000, 250000000,
   1000000000, 2500000000, 10000000000, 25000000000, 100000000000, 250000000000, 1000000000000, 10000000000000]
/-- The smallest code whose bound covers the estimate. -/
def accuracyCode (s : State) : BitVec 8 :=
  match (List.range 26).find? fun i => decide (estNum s * 1000 ≤ accuracyBounds.getD i 0 * estDen) with
  | some i => BitVec.ofNat 8 (0x17 + i)
  | none => 0x31

/-- Class and accuracy in Holdover at this time: 7 within 0x6012:01, 52 beyond it and from then on. -/
def State.holdoverNow (s : State) : State :=
  { s with time := { s.time with
    accuracy := accuracyCode s
    clockClass := if s.time.clockClass ≠ 52 ∧ estNum s ≤ par s 0x6012 1 * estDen then 7 else 52 } }

/-- The device's clock at this time: its class and accuracy follow the estimate in Holdover (R368, R369). -/
def State.clockView (s : State) : State := if s.time.mode = .holdover then s.holdoverNow else s
def clockClassNow (s : State) : BitVec 8 := s.clockView.time.clockClass
def accuracyNow (s : State) : BitVec 8 := s.clockView.time.accuracy

end Sys2Proof.Machine
end

