-- ==== Sys2Proof/WellFormed.lean ====
section
/-! DEFINITION. Which commands are well formed: the checks that the operand types do not make. -/

namespace Sys2Proof

/-- The master IDs that are issued (R21): the others are reserved. -/
def masterOk (m : Master) : Bool :=
  let n := m.toNat
  decide (n ≤ 0x047) || (decide (0x080 ≤ n) && decide (n ≤ 0x0A7)) || (decide (0x0C0 ≤ n) && decide (n ≤ 0x0C8)) ||
    (decide (0x100 ≤ n) && decide (n ≤ 0x111)) || (decide (0x200 ≤ n) && decide (n ≤ 0x21F)) || n == 0x240 ||
    (decide (0x280 ≤ n) && decide (n ≤ 0x283)) || n == 0x290 || n == 0x2A0 || n == 0x2C0 ||
    (decide (0x300 ≤ n) && decide (n ≤ 0x303)) || n == 0xFFF

/-- The masters that a command carries. -/
def Instr.masters : Instr → List Master
  | .bootGo m => [m]
  | .bootWindowWrite m _ _ => [m]
  | .dwRead m _ => [m]
  | .dwWrite m _ => [m]
  | .dwFinalDomainWrite m _ => [m]
  | .dwStagedWrite m _ => [m]
  | .registerWrite m _ _ _ _ _ => [m]
  | .rcRead m _ _ _ => [m]
  | .wideLoRead m _ => [m]
  | .wideHiRead m _ => [m]
  | .wideLoWrite m _ _ => [m]
  | .wideHiWrite m _ _ => [m]
  | .unlockKey m _ => [m]
  | .errInjectGo m _ => [m]
  | .scratchInjectedRead m => [m]
  | .indirectDataRead m _ => [m]
  | .indirectDataWrite m _ _ => [m]
  | .blockAllocate m _ _ => [m]
  | .blockName m _ _ _ => [m]
  | .blockRelease m _ _ => [m]
  | .sqEnable m _ _ => [m]
  | .sqDisable m _ _ => [m]
  | .sqReset m _ => [m]
  | .cqEnable m _ _ => [m]
  | .cqDisable m _ _ => [m]
  | .cqReset m _ => [m]
  | .dmaGo m _ => [m]
  | .dmaPause m _ => [m]
  | .dmaResume m _ => [m]
  | .dmaAbort m _ => [m]
  | .dmaHaltedClear m => [m]
  | .interruptRaise _ _ m _ => [m]
  | .interruptClaim m _ => [m]
  | .interruptComplete m _ _ => [m]
  | .pendSet m _ _ _ => [m]
  | .pendClr m _ _ _ _ => [m]
  | .maskSet m _ _ _ => [m]
  | .maskClr m _ _ _ => [m]
  | .sgi m _ _ => [m]
  | .streamLogTake m _ => [m]
  | .bufferAllocate m _ _ => [m]
  | .bufferFree m _ => [m]
  | .bufferGive m _ _ => [m]
  | .bpmMinFreeWrite m _ => [m]
  | .faultReport _ _ m _ _ => [m]
  | .faultRecordRelease m _ x => [m] ++ (x.map fun y => y.2.1).toList
  | _ => []

/-- A command is well formed: its masters are issued ones, and its byte strings are no longer than what carries them. The other
operands are well formed by their types. -/
def Instr.wellFormed (i : Instr) : Bool :=
  i.masters.all masterOk &&
  match i with
  | .bootWindowWrite _ off data => off.toNat + data.length ≤ 2097152
  | .regulatorPoll answers => answers.length ≤ 13
  | .packetReceive _ data => data.length ≤ 16384
  | .dictDatagram _ _ _ _ payload => payload.length ≤ 65507
  | .touchDatagram _ payload => payload.length ≤ 65507
  | .rtcpReceive _ _ payload => payload.length ≤ 65507
  | .croakReceive payload => payload.length ≤ 65507
  | _ => true

end Sys2Proof
end

