-- ==== Sys2Proof/Machine/Ops.lean ====
section
/-! DEFINITION. The operations that many commands share: what the block emits, device memory, interrupts and the event
ring, the fault unit, and the whole-device reset. -/

namespace Sys2Proof.Machine

/-! ### Results and outputs -/

/-- A next state. -/
abbrev done (s : State) : Host.Outcome State Fault Refusal := .next s

/-- A well-formed command has its effect; an ill-formed one is refused by name. -/
def guarded (i : Instr) (k : Host.Outcome State Fault Refusal) : Host.Outcome State Fault Refusal :=
  if i.wellFormed then k else .refused .illFormed

/-- The device does no work: it is in boundary scan (R515), or a thermal escalation holds its reset (R476). -/
def asleep (s : State) : Bool := s.clk.scan || s.boot.held

/-- A command has its effect unless the device is asleep, when it has none. -/
def awake (s : State) (k : Host.Outcome State Fault Refusal) : Host.Outcome State Fault Refusal :=
  if asleep s then done s else k

/-- A command of a master has its effect; an ID that R21 reserves is never issued, so a command that carries one is ill formed. -/
def issuedBy (m : Master) (s : State) (k : Host.Outcome State Fault Refusal) : Host.Outcome State Fault Refusal :=
  awake s (if masterOk m then k else .refused .illFormed)

/-- Emit one output. -/
def State.emit (s : State) (o : Output) : State := { s with out := s.out ++ [o] }
/-- Answer a register read. -/
def State.answer (s : State) (m : Master) (v : Word) : State := s.emit (.readData m v)

/-- A register write of any kind uses up the unlock of its master (R122). -/
def State.disarm (s : State) (m : Master) : State := { s with dev := { s.dev with armed := s.dev.armed.filter (· ≠ m) } }

/-- The store is write-protected: by the shutdown record (R65), and during start while a power warning is present (R42). What R65 itself
writes in a warning, the open record, a segment and the shutdown record, is written in start too (DEDUCED, log entry 211). -/
def storeShut (s : State) : Bool := s.boot.shutdown || (!s.boot.decided && (s.boot.warning || !s.pins.pwrfailN))
/-- The sparing map changes (R470): in the store, or live only while the store is write-protected. -/
def State.setSparing (s : State) (p : Sparing) : State :=
  if storeShut s then { s with faults := { s.faults with liveMap := some p } }
  else { s with store := { s.store with sparing := p }, faults := { s.faults with liveMap := none } }

/-! ### Device memory (R430) -/

/-- The canonical form of device memory. -/
def Memory.wf (m : Memory) : Bool := memWf m.dev

/-- Store bytes in device memory. -/
def State.devStore (s : State) (a : Nat) (b : Bytes) : State := { s with mem := { s.mem with dev := setBytes s.mem.dev a b } }

/-! ### The device address map (R430, R431) -/

/-- The region of the map an address lies in: 0 L2, 1 the register map, 2 packet memory, 3 HBM3E, 4 usable DDR5. -/
def region (s : State) (a : Nat) : Option Nat :=
  if a < 0x400000 then some 0
  else if 0x40000000 ≤ a ∧ a < 0x41000000 then some 1
  else if 0x000100000000 ≤ a ∧ a < 0x000104000000 then some 2
  else if 0x010000000000 ≤ a ∧ a < 0x011740000000 then some 3
  else if 0x020000000000 ≤ a ∧ a < 0x020000000000 + s.mem.ddrBytes then some 4
  else none

/-- An access of `n` bytes by a master is mapped (R431): in one region, the register map for control cores only. -/
def devMapped (s : State) (m : Master) (a n : Nat) : Bool :=
  match region s a with
  | none => false
  | some r => decide (region s (a + (n - 1)) = some r) && (r != 1 || (coreOf m).isSome)

/-! ### Placement (R437, R440) -/

def State.ddr (s : State) (c : Nat) : Ddr := lookD {} s.mem.ddrs c
def State.setDdr (s : State) (c : Nat) (d : Ddr) : State := { s with mem := { s.mem with ddrs := put s.mem.ddrs c d } }
def State.hbm (s : State) (k : Nat) : Stack := lookD {} s.mem.hbms k
def State.setHbm (s : State) (k : Nat) (v : Stack) : State := { s with mem := { s.mem with hbms := put s.mem.hbms k v } }
def State.memCount (s : State) (k : Nat) (n : Nat := 1) : State := { s with mem := { s.mem with counters := bump s.mem.counters k n } }

def hbmBase : Nat := 0x010000000000
def hbmEnd : Nat := 0x011740000000
def ddrBase : Nat := 0x020000000000

/-- Stack and logical pseudo-channel of an HBM3E address. -/
def hbmPlace (a : Nat) : Nat × Nat :=
  let l := (a - hbmBase) / 256 % 124
  (l % 4, l / 4)
/-- Physical pseudo-channel that serves a logical one. -/
def pcPhys (s : State) (stack c : Nat) : Nat := if (s.hbm stack).replaced = some c then 31 else c

/-- Ranks of a channel that are not its spare, in ascending order. -/
def usableRanks (d : Ddr) : List Nat := (List.range d.ranks).filter fun r => decide (d.spare ≠ some r)
/-- Channel and physical rank of a DDR5 address: the spare answers for a retired rank. -/
def ddrPlace (s : State) (a : Nat) : Nat × Nat :=
  let o := a - ddrBase
  let u := o / 256
  let c := u % 8
  let d := s.ddr c
  let off := u / 8 * 256 + o % 256
  let ranks := match d.retired with | some _ => List.range (d.ranks - 1) | none => usableRanks d
  let r := ranks.getD (if d.rankBytes = 0 then 0 else off / d.rankBytes) 0
  (c, if d.retired = some r then d.ranks - 1 else r)

/-- A rank is retired (R446): it is migrated into its channel's unused spare; without one it stays in service. -/
def State.retireRank (s : State) (ch rank : Nat) : State :=
  let d := s.ddr ch
  if d.trained = true ∧ d.spare.isSome = true ∧ d.spare ≠ some rank ∧ d.migrating = none ∧ d.retired = none ∧ rank < d.ranks then
    s.setDdr ch { d with migrating := some rank, down := d.down.filter (· ≠ rank) }
  else s

/-- An uncorrectable word of HBM3E or DDR5 is met (R446, R457): it is counted in 0x2051, and its DDR5 rank is retired. -/
def State.badWord (s : State) (a : Nat) : State :=
  if hbmBase ≤ a ∧ a < hbmEnd then s.memCount 7
  else if ddrBase ≤ a ∧ a < ddrBase + s.mem.ddrBytes then
    let q := ddrPlace s a
    (s.memCount 8).retireRank q.1 q.2
  else s

/-! ### Interrupt sources (R412 to R420). Key n is shared source n; 4,096 (k + 1) + n is source n of core k's bank -/

/-- Key of a source. -/
def srcKey : IntBank → Nat → Nat
  | .shared, n => n
  | .priv k, n => 4096 * (k.val + 1) + n

def srcNum (key : Nat) : Nat := key % 4096
/-- The core of a private key. -/
def srcBank (key : Nat) : Option Nat := if 4096 ≤ key then some (key / 4096 - 1) else none

/-- A source's state. -/
def Intc.src (i : Intc) (key : Nat) : Source := lookD {} i.sources key
/-- A source's configuration; at reset Class A where the source can be (R414). -/
def Intc.cfg (i : Intc) (key : Nat) : SrcCfg := (i.src key).cfg.getD { classA := canClassA key }
/-- Write a source's state. -/
def Intc.setSrc (i : Intc) (key : Nat) (v : Source) : Intc := { i with sources := put i.sources key v }

/-- A source is pending (R413). -/
def pendingSrc (s : State) (key : Nat) : Bool :=
  if isLevel key then levelCond s key && (s.intc.src key).active.isNone else (s.intc.src key).pending

/-- Keys of the sources that may be pending. -/
def candidates (s : State) : List Nat :=
  (s.intc.sources.filterMap fun p => if isLevel p.1 then none else some p.1) ++ [1, 9] ++
    (s.dma.chans.map fun p => 0x80 + p.1) ++ (s.rings.cqs.map fun p => 0x100 + p.1) ++ (s.intc.logs.map fun p => 0x900 + p.1)

/-- Logical cores that run station firmware and take Class A sources (R417, R472). -/
def fwCores (s : State) : List Nat :=
  match s.boot.running with
  | .firmware => (List.range 16).filter fun k => corePhys s k != 0xFF
  | .newt => [0]
  | _ => []

/-- Running priority of a target (R417), a source's own assignment apart. -/
def runPrio (s : State) (t : IntTarget) (key : Nat) : Nat :=
  let thr := match t with
    | .core k => (lookD 0 s.intc.threshold k.val).toNat
    | .vector _ => 0
  s.intc.sources.foldl (fun acc p =>
    let here := decide (p.2.active = some t) ||
      (match t with
        | .core k => p.2.assigned == some k.val && p.1 != key
        | .vector _ => false)
    if here then max acc (s.intc.cfg p.1).prio.toNat else acc) thr

/-- Where a Class B source goes (R417, R472); a private one to its core (R415). -/
def classBTarget (s : State) (key : Nat) : IntTarget :=
  match srcBank key with
  | some k => .core (Fin.ofNat 16 k)
  | none =>
    let c := s.intc.cfg key
    if c.toMsix then .vector (Fin.ofNat 2048 c.target.toNat)
    else if corePhys s (c.target.toNat % 16) = 0xFF then .core 0
    else .core (Fin.ofNat 16 c.target.toNat)

/-- Moderation holds a source back (R420). -/
def modHeld (s : State) (key : Nat) : Bool :=
  match (s.intc.src key).claimedAt with
  | none => false
  | some t =>
    let m := (s.intc.cfg key).mod.toNat
    decide (0 < m) && decide (s.clk.now < t + 2 ^ (m - 1) * 1000)

/-- A core is idle (R420): it waits for an interrupt with no source active at it and none assigned. -/
def idleCore (s : State) (k : Nat) : Bool :=
  Config.coreWaits s.clk.now k && !(s.intc.sources.any fun p =>
    decide (p.2.active = some (.core (Fin.ofNat 16 k))) || p.2.assigned == some k)

/-- A source takes part in delivery: pending, unmasked, with a priority (R417, R419). -/
def deliverable (s : State) (key : Nat) : Bool :=
  pendingSrc s key && (s.intc.src key).unmasked && decide (0 < (s.intc.cfg key).prio.toNat)

/-- A source is Class A (R417). -/
def isClassA (s : State) (key : Nat) : Bool := decide (key < 4096) && (s.intc.cfg key).classA

/-- Eligible at a target (R417); a held Class A source that is not yet assigned may be claimed at any running core
(R420). -/
def eligibleAt (s : State) (t : IntTarget) (key : Nat) : Bool :=
  deliverable s key && decide (runPrio s t key < (s.intc.cfg key).prio.toNat) &&
    (if isClassA s key then
      match t, (s.intc.src key).assigned with
      | .core k, some a => a == k.val
      | .core k, none => modHeld s key && (fwCores s).contains k.val
      | .vector _, _ => false
    else decide (classBTarget s key = t))

/-- The best of some keys: highest priority, then lower number (R418). -/
def bestSrc (s : State) : List Nat → Option Nat
  | [] => none
  | k :: r => match bestSrc s r with
    | none => some k
    | some j =>
      let pk := (s.intc.cfg k).prio.toNat
      let pj := (s.intc.cfg j).prio.toNat
      if pj < pk ∨ (pj = pk ∧ srcNum k ≤ srcNum j) then some k else some j

/-- The core a Class A source is assigned to now (R417, R420). -/
def assignTo (s : State) (key : Nat) : Option Nat :=
  let prio := (s.intc.cfg key).prio.toNat
  let ks := (fwCores s).filter fun k => decide (runPrio s (.core (Fin.ofNat 16 k)) key < prio)
  let ks := if modHeld s key then ks.filter (idleCore s) else ks
  minBy (fun k => runPrio s (.core (Fin.ofNat 16 k)) key) ks

/-- Assign the Class A sources that have become eligible, one after another (R417). `n` bounds their number. -/
def assignAll : Nat → State → List Nat → State
  | 0, s, _ => s
  | n + 1, s, keys =>
    match bestSrc s keys with
    | none => s
    | some key =>
      let rest := keys.filter (· ≠ key)
      match assignTo s key with
      | some k => assignAll n { s with intc := s.intc.setSrc key { s.intc.src key with assigned := some k } } rest
      | none => assignAll n s rest

/-- Withdraw assignments of sources that are no longer deliverable (R419). -/
def withdraw (s : State) : State :=
  { s with intc := { s.intc with sources := s.intc.sources.map fun p =>
      if p.2.assigned.isSome && !(deliverable s p.1) then (p.1, { p.2 with assigned := none }) else p } }

/-- The notification of a target (R418): a core's request, or an MSI-X message, or its pending bit while masked. -/
def notifyOut (i : Intc) (t : IntTarget) : Intc × List Output :=
  match t with
  | .core _ => ({ i with notified := t :: i.notified }, [.notify t])
  | .vector v =>
    let w := fun j => lookD (if j = 3 then 1 else 0) i.msix (4 * v.val + j)
    if (w 3).getLsbD 0 then ({ i with notified := t :: i.notified, pba := v.val :: i.pba.filter (· ≠ v.val) }, [])
    else ({ i with notified := t :: i.notified },
      [.notify t, .hostWrite ((w 1) ++ (w 0)) (le 4 (w 2).toNat)])

/-- Targets at which some source is eligible and may be notified now. -/
def wantedTargets (s : State) : List IntTarget :=
  (candidates s).filterMap fun key =>
    let t : Option IntTarget :=
      if isClassA s key then ((s.intc.src key).assigned).map fun k => .core (Fin.ofNat 16 k)
      else some (classBTarget s key)
    match t with
    | none => none
    | some t =>
      let idle := match t with
        | .core k => idleCore s k.val || (s.intc.src key).assigned == some k.val
        | .vector _ => false
      if eligibleAt s t key && (!(modHeld s key) || idle) then some t else none

/-- Notify each wanted target that has no notification outstanding. -/
def notifyAll : List IntTarget → Intc → List Output → Intc × List Output
  | [], i, o => (i, o)
  | t :: r, i, o =>
    if i.notified.contains t then notifyAll r i o
    else let p := notifyOut i t
      notifyAll r p.1 (o ++ p.2)

/-- Assignments as they stand after the present change (R417, R419). -/
def assigned (s : State) : State :=
  let s1 := withdraw s
  let open_ := (candidates s1).filter fun key =>
    isClassA s1 key && deliverable s1 key && (s1.intc.src key).assigned.isNone
  assignAll open_.length s1 open_

/-- Bring delivery up to date: assign, then notify (R417, R418). Only the controller and the outputs change. -/
def State.settleInts (s : State) : State :=
  let a := assigned s
  let p := notifyAll (wantedTargets a) a.intc []
  { s with intc := p.1, out := s.out ++ p.2 }

/-! ### Events (R413, R422) -/

/-- One entry of the event ring (R422). -/
def eventEntry (s : State) (n : Nat) (m : Master) (detail : Bytes) : Bytes :=
  le 2 n ++ le 2 m.toNat ++ le 4 s.intc.evSeq.toNat ++ stamp (ptpSec s) (ptpNs s) 0 0 ++ slice detail 0 40

/-- Make an edge source pending; a pending one stays one (R413). -/
def Intc.pend (i : Intc) (key : Nat) : Intc := i.setSrc key { i.src key with pending := true }

/-- Write an entry into the event ring, or count it and raise 0x016 when the ring is full or disabled (R422). An entry for an unmapped
device address is discarded (R431); its own contained error is not recorded, since that would write an event (DESIGN CHOICE). -/
def State.eventOut (s : State) (n : Nat) (m : Master) (detail : Bytes) : State :=
  let i := s.intc
  let e := eventEntry s n m detail
  let sz := i.evSize.toNat
  if i.evEnable && !(ringFull sz i.evHead.toNat i.evTail.toNat) then
    let a := i.evBase.toNat + 64 * (i.evTail.toNat % 2 ^ sz)
    { s with
      intc := { i with evTail := BitVec.ofNat 16 (ringNext sz i.evTail.toNat), evSeq := i.evSeq + 1 }
      mem := if i.evLocal && devMapped s mHost a 64 then { s.mem with dev := setBytes s.mem.dev a e } else s.mem
      out := if i.evLocal then s.out else s.out ++ [.hostWrite (BitVec.ofNat 64 a) e] }
  else
    { s with intc := { (i.pend 0x016) with evDropped := i.evDropped + 1, evSeq := i.evSeq + 1 } }

/-- Raise a shared edge source without settling delivery. -/
def State.raise0 (s : State) (n : Nat) (m : Master) (detail : Bytes) : State :=
  let s1 : State := { s with intc := s.intc.pend n }
  if 2 ≤ n ∧ n ≤ 0x17 ∧ n ≠ 0x16 then s1.eventOut n m detail else s1

/-- Raise a shared edge source with its event (R413, R422). -/
def State.raise (s : State) (n : Nat) (m : Master) (detail : Bytes) : State := (s.raise0 n m detail).settleInts

/-- Source 0x015 with the role, the health and 0x7071:04 (R501). -/
def State.pairEvent (s : State) : State :=
  s.raise 0x015 mFault [BitVec.ofNat 8 (roleCode s.pair.role), BitVec.ofNat 8 (b2n (healthy s)), BitVec.ofNat 8 (pairLinks s)]

/-- Raise the pair event when the role, the health or 0x7071:04 has changed since an earlier state. -/
def State.pairChanged (s old : State) : State :=
  if s.pair.role = old.pair.role ∧ healthy s = healthy old ∧ pairLinks s = pairLinks old then s else s.pairEvent

/-- A message to station firmware (events the spec gives no source number). -/
def State.tell (s : State) (reason : Nat) (data : Bytes) : State := s.emit (.toFirmware reason data)

/-! ### The error register and EMCY (R91, R467) -/

/-- Bring 0x1001:00 up to date; a change sends EMCY. The error code of the message is a free value. -/
def State.syncErr (s : State) : State :=
  let e := errRegister s
  if e = s.paths.errReg then s
  else { s with
    paths := { s.paths with errReg := e }
    clk := { s.clk with free := s.clk.free + 1 }
    out := s.out ++ [.can (BitVec.ofNat 11 (0x080 + par s 0x1FD0 1))
      (le 2 (Config.freeNat s.clk.free) ++ le 1 e.toNat ++ slice (Config.freeBytes s.clk.free) 0 5)] }

/-! ### The fault unit (R458 to R466) -/

/-- `DETAIL` of a fault (R466). -/
def faultDetail (kind sev acc addr count : Nat) : Bytes :=
  le 1 kind ++ le 1 sev ++ le 1 acc ++ [0] ++ le 6 addr ++ [0, 0] ++ le 4 count

/-- The store takes writes: it is neither read-only (R449, R465) nor write-protected. -/
def storeOpen (s : State) : Bool := !s.store.readOnly && !(storeShut s)

/-- Hold `PAIR_ALIVE_OUT` low (R483). -/
def State.aliveLow (s : State) : State :=
  { s with
    pins := { s.pins with aliveOut := false }
    out := if s.pins.aliveOut then s.out ++ [.pin "PAIR_ALIVE_OUT" false] else s.out }

/-- Append to the fault log, 8,192 entries, the oldest overwritten (R466). -/
def Store.logFault (st : Store) (source : Nat) (m : Master) (sec ns : Nat) (detail : Bytes) : Store :=
  { st with
    faultLog := (st.faultLog ++ [(⟨BitVec.ofNat 16 source, m, st.faultSeq, BitVec.ofNat 48 sec, BitVec.ofNat 30 ns,
      slice detail 0 40⟩ : LogEntry)]).drop (st.faultLog.length + 1 - 8192)
    faultSeq := st.faultSeq + 1 }

/-- Write the summary of a second that has ended (R466). -/
def State.faultSummary (s : State) : State :=
  if s.faults.excess = 0 then { s with faults := { s.faults with logged := 0, logSec := logSecond s } }
  else { s with
    store := if storeOpen s then
        s.store.logFault 2 mFault (if s.boot.timeUp then s.faults.logSec + 1 else 0) 0 (faultDetail 0 2 6 0 s.faults.excess)
      else s.store
    faults := { s.faults with logged := 0, excess := 0, logSec := logSecond s } }

/-- Fill the first-error record, or count an overflow (R460, R462). -/
def Faults.record (f : Faults) (kind sev acc : Nat) (m : Master) (addr sec ns : Nat) : Faults :=
  if f.valid then { f with overflow := true, overflows := sat32 f.overflows, overflowAll := f.overflowAll + 1 }
  else { f with
    valid := true, kind := BitVec.ofNat 8 kind, severity := BitVec.ofNat 2 sev, access := BitVec.ofNat 3 acc,
    master := m, addr := BitVec.ofNat 48 addr, seconds := BitVec.ofNat 48 sec, nanos := BitVec.ofNat 30 ns }

/-- A severe fault drives `ERR_N` low and starts its pulse (R464). -/
def State.errPulse (s : State) : State :=
  { s with
    faults := { s.faults with hold := true, pulseEnd := some (s.clk.now + par s 0x7010 1 * 1000) }
    pins := { s.pins with gpioOut := BitVec.ofNat 8 (par s 0x7060 2) ||| BitVec.ofNat 8 (par s 0x7060 6) }
    out := s.out ++ (if s.faults.errLow then [] else [.pin "ERR_N" false]) }

/-- The fault-log entry of a contained fault, singly or in the second's summary (R466). -/
def State.logContained (s : State) (m : Master) (detail : Bytes) : State :=
  let s := if logSecond s = s.faults.logSec then s else s.faultSummary
  if s.faults.logged < par s 0x7010 3 then
    { s with
      store := if storeOpen s then s.store.logFault 2 m (ptpSec s) (ptpNs s) detail else s.store
      faults := { s.faults with logged := s.faults.logged + 1 } }
  else { s with faults := { s.faults with excess := s.faults.excess + 1 } }

/-- A contained fault reaches the fault unit (R458, R460 to R466). -/
def State.containedAt (s : State) (kind : Nat) (acc : Access) (m : Master) (addr : Nat) : State :=
  let d := faultDetail kind 2 (accCode acc) addr 1
  let s1 : State := { s with faults := { (s.faults.record kind 2 (accCode acc) m addr (ptpSec s) (ptpNs s)) with
    contained := sat32 s.faults.contained, containedAll := s.faults.containedAll + 1 } }
  let s2 := (s1.logContained m d).raise 0x002 m d
  (if severe s kind then s2.errPulse else s2).syncErr

/-- A contained fault; an uncorrectable word of a memory also reaches its controller (R446). -/
def State.contained (s : State) (kind : Nat) (acc : Access) (m : Master) (addr : Nat) : State :=
  (if kind = 1 then s.badWord addr else s).containedAt kind acc m addr

/-- A fatal fault reaches the fault unit (R465): 0x7011 is written in every case; the log entry and the stored copy
unless the store is read-only or a first fatal fault has already committed; a write-protected store takes nothing. `PAIR_ALIVE_OUT` is low from here on (R483). The reset
follows the pulse. -/
def State.fatal (s : State) (kind : Nat) (acc : Access) (m : Master) (addr : Nat) : State :=
  let lf : LastFatal := ⟨BitVec.ofNat 8 kind, m, BitVec.ofNat 8 (accCode acc), BitVec.ofNat 64 addr,
    BitVec.ofNat 64 (ptpSec s), BitVec.ofNat 32 (ptpNs s)⟩
  let commit := !s.faults.escalating && storeOpen s
  let s1 : State := { s with
    faults := { (s.faults.record kind 3 (accCode acc) m addr (ptpSec s) (ptpNs s)) with
      lastFatal := if s.faults.escalating then s.faults.lastFatal else lf
      escalating := true
      thermalHold := s.faults.thermalHold || kind == 0x82 }
    store := if commit then
        { (s.store.logFault 0 m (ptpSec s) (ptpNs s) (faultDetail kind 3 (accCode acc) addr 1)) with
          fatals := s.store.fatals + 1, committedFatal := lf }
      else if storeShut s then s.store
      else { s.store with fatals := s.store.fatals + 1 } }
  (s1.aliveLow.errPulse).syncErr

/-- A fault of either class (R458, R459). -/
def State.report (s : State) (kind : Nat) (acc : Access) (m : Master) (addr : Nat) : State :=
  if 0x80 ≤ kind then s.fatal kind acc m addr else s.contained kind acc m addr

/-- A fault that involves no access: address 0, `ACCESS` no access, and the fault unit's master unless the rule names
one (R460). -/
def State.reportNone (s : State) (kind : Nat) (m : Master := mFault) : State := s.report kind .none m 0

/-- A write that a lock refuses (R123): ignored, counted and recorded. -/
def State.lockViolation (s : State) (m : Master) (addr : Nat) : State :=
  State.contained { s with dev := { s.dev with lockViol := sat32 s.dev.lockViol } } 0x03 .write m addr

/-- Count a corrected error (R458). -/
def State.corrected (s : State) : State :=
  { s with faults := { s.faults with corrected := sat32 s.faults.corrected, correctedAll := s.faults.correctedAll + 1 } }

/-- Rolling one-hour counts in one-minute bins (R468): items are units by `unitItem`, 0x10000 + 32 × stack + pseudo-channel, 0x20000 + 8 × channel
+ rank, 0x40000 + SRAM row; 0x30000 + a unit's key counts contained faults. -/
def binKey (item minute : Nat) : Nat := item * 2 ^ 40 + minute
def minuteNow (s : State) : Nat := s.clk.now / 60000000000
def hourCount (s : State) (item : Nat) : Nat :=
  s.faults.bins.foldl (fun a q => if q.1 / 2 ^ 40 = item ∧ minuteNow s < q.1 % 2 ^ 40 + 60 then a + q.2 else a) 0
/-- Count in an item's bin of this minute; bins older than the hour go. -/
def State.countBin (s : State) (item : Nat) : State :=
  { s with faults := { s.faults with
    bins := bump (s.faults.bins.filter fun q => decide (minuteNow s < q.1 % 2 ^ 40 + 60)) (binKey item (minuteNow s)) } }
/-- Count a corrected error of an item. -/
def State.correctedBy (s : State) (item : Nat) : State := s.corrected.countBin item

/-- An owner of blocks is charged with a contained error (R255, R458); the spec gives the charge no register (log entry 192). -/
def State.chargeTo (s : State) (h : Holder) : State :=
  { s with faults := { s.faults with charges := aput s.faults.charges h ((alook s.faults.charges h).getD 0 + 1) } }

/-! ### Reset (R37 to R41) -/

/-- What a whole-device reset leaves: start step 0 with the straps latched at its release, the persistent store,
the retention registers of 0x7011, the pins, the model's clock and outputs, and the commands that wait. The
service-button timer survives an internal restart alone (R37, R61). -/
def State.wholeReset (s : State) (cause : Nat) (st : Straps) (keepTimer : Bool) : State :=
  { State.reset with
    clk := { s.clk with scan := false }
    pins := { s.pins with straps := st, ppsOut := false, tenMhz := false, aliveOut := false, gpioOut := 0 }
    svc := if keepTimer then s.svc else { pressedAt := none, seenHigh := s.pins.serviceN }
    boot := {
      resetAt := s.clk.now, bootMode := st.bootMode, pairId := st.pairId, cause := BitVec.ofNat 8 cause
      held := s.faults.thermalHold || s.boot.held, bootState := if st.bootMode = 1 then 0 else 4 }
    store := { s.store with cutOff := s.dict.waiting.head?.or s.store.cutOff, segCut := s.boot.segWrite.or s.store.segCut }
    faults := { lastFatal := s.faults.lastFatal, tj := s.faults.tj, tjMax := s.faults.tj }
    pending := s.pending
    out := s.out ++ (if s.pins.aliveOut then [.pin "PAIR_ALIVE_OUT" false] else []) ++
      (if s.faults.errLow then [.pin "ERR_N" true] else []) }

/-- The pins while `RST_N` is low (R40): every front-port, Gavon and management transmitter off, `ERR_N` released, `PPS_OUT` and
`TEN_MHZ_OUT` held low; the other outputs at the levels of R503. -/
def rstLowPins : List Output :=
  [.pin "FRONT_TX" false, .pin "GAVON_TX" false, .pin "MGMT_TX" false, .pin "ERR_N" true, .pin "PPS_OUT" false, .pin "TEN_MHZ_OUT" false,
    .pin "TOD_OUT" true, .pin "SPI_CLK" false, .pin "SPI_CS_N" true, .pin "CAN_TXD" true]
/-- Its release turns the transmitters on again. -/
def rstHighPins : List Output := [.pin "FRONT_TX" true, .pin "GAVON_TX" true, .pin "MGMT_TX" true]

/-! ### Time -/

/-- Count in 0x6030. -/
def State.timeCount (s : State) (k : Nat) : State := { s with time := { s.time with counters := bump s.time.counters k } }

/-- The clocks over one nanosecond: recovery firmware that runs restarts its watchdog once a second (R55; whether it runs
is a free value), `PPS_OUT` falls at its time (R379), the model's clock and, once it runs, the PTP count advance, the
count by the servo's frequency (DESIGN CHOICE). Frequency is in 1/256 ppb: a nanosecond adds 1 + freq / (256 × 10^9). -/
def State.clockTick (s : State) : State :=
  let p := s.time.phase + s.time.freq
  let unit : Int := 256000000000
  let falls := match s.time.ppsFall with | some t => decide (t ≤ s.clk.now + 1) | none => false
  { s with
    pins := { s.pins with ppsOut := s.pins.ppsOut && !falls }
    out := if falls then s.out ++ [.pin "PPS_OUT" false] else s.out
    clk := { s.clk with now := s.clk.now + 1 }
    boot := match s.boot.recovery with
      | some t => if t + 1000000000 ≤ s.clk.now + 1 ∧ Config.recoveryRuns (s.clk.now + 1) = true then
          { s.boot with recovery := some (s.clk.now + 1) } else s.boot
      | none => s.boot
    time := if s.boot.timeUp && !(asleep s) then
        { s.time with
          ppsFall := if falls then none else s.time.ppsFall
          ptp := ((s.time.ptp : Int) + 1 + (if unit ≤ p then 1 else if p ≤ -unit then -1 else 0)).toNat
          phase := if unit ≤ p then p - unit else if p ≤ -unit then p + unit else p }
      else { s.time with ppsFall := if falls then none else s.time.ppsFall } }

/-- Advance the free counter: the value it stood at names the free values of this use. -/
def State.freed (s : State) : State := { s with clk := { s.clk with free := s.clk.free + 1 } }

end Sys2Proof.Machine
end

