-- ==== Sys2Proof/Machine/Bobbins.lean ====
section
/-! DEFINITION. Bobbin crossings (R23 to R31): pointers and their synchronised copies, writes, reads, pessimistic flags, resets,
GC-256 outcomes. -/

namespace Sys2Proof.Machine

/-- A Bobbin's state: at a whole-device reset it is reset, and not yet acknowledged (R29). -/
def State.bob (s : State) (b : BobbinId) : Bobbin := (alook s.bobs b).getD { resetAt := some s.boot.resetAt }
/-- Write a Bobbin's state. -/
def State.setBob (s : State) (b : BobbinId) (v : Bobbin) : State := { s with bobs := aput s.bobs b v }

/-- Flip-flops of the synchroniser into the source's island and into the destination's: three into the fabric, two into any other (R24). -/
def srcFlops : BobbinId → Nat
  | .touch _ => 3
  | _ => 2
def dstFlops : BobbinId → Nat
  | .slice _ => 3
  | .timestamp => 3
  | _ => 2

/-- Updates of a pointer that may still be crossing: 4 ns is longer than any crossing takes (R25). -/
def crossing (now : Nat) (log : List (Nat × Nat)) : List (Nat × Nat) := log.filter fun u => decide (now < u.1 + 4)
/-- What has crossed for certain: what was seen, and every update that is older than that. -/
def surely (now seen : Nat) (log : List (Nat × Nat)) : Nat := log.foldl (fun a u => if u.1 + 4 ≤ now then max a u.2 else a) seen
/-- A pointer's copy after a synchroniser (R25, R26): it never goes back, every update has crossed 4 ns later whatever came after it, and it
trails the pointer by at most one entry more than there are flip-flops. In the very cycle of an update nothing of the last entries has
crossed (R28); between, a free value says how much has. -/
def crossed (flops now free seen actual : Nat) (log : List (Nat × Nat)) : Nat :=
  if (crossing now log).isEmpty then actual
  else max (surely now seen log) (actual - (if log.any (fun u => decide (now ≤ u.1)) then flops + 1 else free % (flops + 2)))

/-- The write pointer, or the read pointer, stands at a new count from now on. -/
def Bobbin.wrTo (v : Bobbin) (now n : Nat) : Bobbin :=
  { v with wr := n, wrSeen := surely now v.wrSeen v.wrLog, wrLog := crossing now v.wrLog ++ [(now, n)] }
def Bobbin.rdTo (v : Bobbin) (now n : Nat) : Bobbin :=
  { v with rd := n, rdSeen := surely now v.rdSeen v.rdLog, rdLog := crossing now v.rdLog ++ [(now, n)] }

/-- A reset is acknowledged across both synchronisers within 8 ns, at a time that is free before that, never in the cycle of the
reset (R29). -/
def Bobbin.acked (v : Bobbin) (now free : Nat) : Bobbin :=
  match v.resetAt with
  | none => v
  | some t => if t + 8 ≤ now ∨ (t < now ∧ Config.freeBit free = true) then { v with resetAt := none } else v

/-- The source looks at the read pointer, the destination at the write pointer (R26). -/
def Bobbin.srcLook (b : BobbinId) (v : Bobbin) (now free : Nat) : Bobbin :=
  let a := v.acked now free
  { a with rdSeen := crossed (srcFlops b) now (Config.freeNat free) a.rdSeen a.rd a.rdLog, rdLog := crossing now a.rdLog }
def Bobbin.dstLook (b : BobbinId) (v : Bobbin) (now free : Nat) : Bobbin :=
  let a := v.acked now free
  { a with wrSeen := crossed (dstFlops b) now (Config.freeNat free) a.wrSeen a.wr a.wrLog, wrLog := crossing now a.wrLog }

/-- Entries that the source sees free, and items that the destination sees present: none until a reset is acknowledged (R26, R29). -/
def Bobbin.space (b : BobbinId) (v : Bobbin) : Nat := if v.resetAt.isSome then 0 else bobDepth b - (v.wr - v.rdSeen)
def Bobbin.avail (v : Bobbin) : Nat := if v.resetAt.isSome then 0 else v.wrSeen - v.rd

/-- An item cut to its Bobbin's width. -/
def cutItem (b : BobbinId) (x : BitVec 256) : BitVec 256 := BitVec.ofNat 256 (x.toNat % 2 ^ bobWidth b)
/-- The idle item: every 32-bit word 0xFFFF_FFFF (R28). -/
def idleItem (b : BobbinId) : BitVec 256 := BitVec.ofNat 256 (2 ^ bobWidth b - 1)

/-- Items enter: the write pointer advances. -/
def Bobbin.put (v : Bobbin) (now : Nat) (xs : List (BitVec 256)) : Bobbin :=
  if xs.isEmpty then v
  else ({ v with items := v.items ++ xs.map (fun x => (x, false)) } : Bobbin).wrTo now (v.wr + xs.length)
/-- The oldest items leave: the read pointer advances. -/
def Bobbin.take (v : Bobbin) (now n : Nat) : Bobbin :=
  if n = 0 then v else ({ v with items := v.items.drop n } : Bobbin).rdTo now (v.rd + n)
/-- Items are read and discarded, `kept` apart. -/
def Bobbin.strike (v : Bobbin) (now : Nat) (kept : List (BitVec 256 × Bool)) : Bobbin :=
  ({ v with items := kept } : Bobbin).rdTo now (v.rd + (v.items.length - kept.length))
/-- Held items enter as far as the source sees space (R27). -/
def Bobbin.refill (b : BobbinId) (v : Bobbin) (now : Nat) : Bobbin :=
  let n := min (v.space b) v.held.length
  { (v.put now (v.held.take n)) with held := v.held.drop n }
/-- Items that enter in order, behind those that the stalled source holds; what finds no space is held (R27). -/
def Bobbin.offer (b : BobbinId) (v : Bobbin) (now : Nat) (xs : List (BitVec 256)) : Bobbin :=
  ({ v with held := v.held ++ xs } : Bobbin).refill b now

/-- The source island looks at a Bobbin, and items that it holds enter. -/
def State.bobSrc (s : State) (b : BobbinId) : State :=
  (s.setBob b (((s.bob b).srcLook b s.clk.now s.clk.free).refill b s.clk.now)).freed
/-- The destination island looks at a Bobbin. Items that the source holds enter as space returns, whoever looks. -/
def State.bobDst (s : State) (b : BobbinId) : State :=
  let s1 := s.bobSrc b
  (s1.setBob b ((s1.bob b).dstLook b s1.clk.now s1.clk.free)).freed

/-- Room for `n` more items as the source last saw it: it holds nothing itself. -/
def State.bobRoom (s : State) (b : BobbinId) (n : Nat) : Bool :=
  (s.bob b).held.isEmpty && decide (n ≤ (s.bob b).space b)
/-- Items that the destination last saw. -/
def State.bobAvail (s : State) (b : BobbinId) : Nat := (s.bob b).avail
/-- The source writes items; what finds no space it holds. -/
def State.bobPush (s : State) (b : BobbinId) (xs : List (BitVec 256)) : State :=
  s.setBob b ((s.bob b).offer b s.clk.now (xs.map (cutItem b)))
/-- The destination reads the oldest `n` items. -/
def State.bobDrop (s : State) (b : BobbinId) (n : Nat) : State := s.setBob b ((s.bob b).take s.clk.now n)
/-- Every item of a Bobbin is read and discarded, those that the source holds among them. -/
def State.bobFlush (s : State) (b : BobbinId) : State :=
  let v := s.bob b
  let n := v.wr + v.held.length
  s.setBob b ((({ v with items := [], held := [] } : Bobbin).wrTo s.clk.now n).rdTo s.clk.now n)
/-- Items that enter and leave in the course of one command, of a Bobbin that is open and holds nothing: both pointers advance past them. -/
def State.bobPass (s : State) (b : BobbinId) (n : Nat) : State :=
  let v := s.bob b
  if n = 0 then s else s.setBob b ((v.wrTo s.clk.now (v.wr + n)).rdTo s.clk.now (v.rd + n))
/-- Both islands look at a Bobbin whose items the destination takes as it sees them. -/
def State.bobClear (s : State) (b : BobbinId) : State :=
  let s1 := s.bobDst b
  s1.bobDrop b (min (s1.bobAvail b) (s1.bob b).items.length)
/-- A Bobbin is open and holds nothing: not in reset, no item in it, none held by the source (R27, R29). -/
def State.bobOpen (s : State) (b : BobbinId) : Bool :=
  (s.bob b).resetAt.isNone && (s.bob b).items.isEmpty && (s.bob b).held.isEmpty
/-- A reset of either island resets the Bobbin: its items are discarded (R29). -/
def State.resetBob (s : State) (b : BobbinId) : State := s.setBob b { resetAt := some s.clk.now }

/-- How an item's row reads (R30, R434): a corrected error is counted; an uncorrectable one records a contained error of the source
island's master, and the item is delivered with its error tag. -/
def State.readItem (s : State) (b : BobbinId) (e : Ecc) : State :=
  match e with
  | .clean => s
  | .corrected => s.correctedBy (bobSource s b).toNat
  | .uncorrectable => (s.countBin (0x30000 + (bobSource s b).toNat)).contained 0x01 .none (bobSource s b) 0

/-- BOBBIN_WRITE (R26, R27): an item enters, or the source holds it and stalls while it sees the Bobbin full. -/
def execBobbinWrite (b : BobbinId) (item : BitVec 256) (s : State) : Host.Outcome State Fault Refusal :=
  awake s <|
  done ((s.bobSrc b).bobPush b [item])

/-- BOBBIN_READ (R28, R30): the oldest item leaves; an apparently empty Bobbin gives the idle item and nothing moves. -/
def execBobbinRead (b : BobbinId) (e : Ecc) (s : State) : Host.Outcome State Fault Refusal :=
  awake s <|
  let s1 := s.bobDst b
  if s1.bobAvail b = 0 then done (s1.emit (.bobbinItem (idleItem b) true false))
  else
    match (s1.bob b).items with
    | [] => done (s1.emit (.bobbinItem (idleItem b) true false))
    | (x, tag) :: _ =>
      done (((s1.bobDrop b 1).emit (.bobbinItem x false (tag || decide (e = .uncorrectable)))).readItem b e)

end Sys2Proof.Machine
end

