-- ==== Sys2Proof/Machine/Pool.lean ====
section
/-! DEFINITION. The reference pool of chapter 08: blocks, descriptors, reservations, surfaces, substitutes, settle, prefetch,
moves and the audit. -/

namespace Sys2Proof.Machine

/-! ### Block content (R222, R223) -/

/-- Three samples of a word. -/
def packWord (a b c : Nat) : Word := BitVec.ofNat 32 (a % 1024 + (b % 1024) * 1024 + (c % 1024) * 1048576)

/-- Words from a sample sequence. -/
def packSamples : List Nat → Block
  | a :: b :: c :: r => packWord a b c :: packSamples r
  | [a, b] => [packWord a b 0]
  | [a] => [packWord a 0 0]
  | [] => []

/-- Sample `i` of a block (R222). -/
def sampleAt (b : Block) (i : Nat) : Nat := bits ((b.getD (i / 3) 0).toNat) (10 * (i % 3) + 9) (10 * (i % 3))

/-- A mid-grey block: every sample 512, or 128 for an 8-bit one (R226). -/
def greyBlock (depth10 : Bool) : Block :=
  let v := if depth10 then 512 else 128
  List.replicate 2048 (packWord v v v)

/-- A block of free sample values in one of the two depths: what a unit writes that the standards or a source outside the block decide. -/
def freeBlock (ten : Bool) (free : Nat) : Block :=
  packSamples ((List.range 6144).map fun i => Config.freeSample free i % (if ten then 1024 else 256))

/-- The 8,192 bytes of a block (R222). -/
def blockBytes (b : Block) : Bytes := b.flatMap fun w => le 4 w.toNat

/-- A block from its bytes. -/
def blockOfBytes (b : Bytes) : Block := (chunks 4 2048 b).map fun c => BitVec.ofNat 32 (leNat c)

/-! ### Frames and free counts (R226, R239, R242) -/

/-! ### Where the pool lies in HBM

In units of 8 KiB, apart from one another and within the usable capacity (R226, R230, R236, R285, R430): descriptor table, surface table,
parameter-set stores, pool frames, and an arena for surface tables and bitstream rings. The order is the model's (log entry 201). -/

/-- Usable HBM. -/
def hbmUnits : Nat := 12189696
/-- The descriptor table for 2 TiB of DDR5; the surface table of 65,536 handles; 4,096 parameter-set stores of 16 KiB. -/
def descUnits : Nat := 548096
def surfUnits : Nat := 256
def psUnits : Nat := 8192
def descUnit : Nat := Config.poolBase false % 65536
def surfUnit : Nat := descUnit + descUnits
def psUnit : Nat := surfUnit + surfUnits
def hbmPoolUnit : Nat := psUnit + psUnits
/-- HBM pool frames: at least the two of the mid-grey blocks, at most what the tables leave; the spec gives no number. -/
def hbmPoolFrames : Nat := 2 + Config.hbmFrames % (hbmUnits - hbmPoolUnit - 1)
/-- DDR5 pool frames of a usable capacity. -/
def ddrPoolFrames (bytes : Nat) : Nat := Config.ddrFrames bytes % (bytes / 8192 - Config.poolBase true + 1)
def hbmUnitAddr (u : Nat) : Nat := 0x010000000000 + 8192 * u
/-- Device address of a pool frame: frames lie in their tier's memory, aligned to 8 KiB (R222, R226, R430). -/
def frameAddr (ddr : Bool) (frame : Nat) : Nat :=
  if ddr then 0x020000000000 + 8192 * (Config.poolBase true + frame) else hbmUnitAddr (hbmPoolUnit + frame)
/-- `PS_ADDR` of a decode context (R285). -/
def psAddr (c : Nat) : Nat := hbmUnitAddr (psUnit + 2 * c)
/-- Device address of a block's frame. -/
def Desc.addr (d : Desc) : Nat := frameAddr d.ddr d.frame

/-- Insert into a rising list. -/
def insNat (x : Nat) : List Nat → List Nat
  | [] => [x]
  | y :: r => if x ≤ y then x :: y :: r else y :: insNat x r
/-- Sort a list of numbers. -/
def sortNat (l : List Nat) : List Nat := l.foldl (fun acc x => insNat x acc) []

/-- The `i`-th number that a rising list leaves out, counting from `k`. -/
def nthGap : List Nat → Nat → Nat → Nat
  | [], k, i => k + i
  | j :: r, k, i => if j < k then nthGap r k i else if k + i < j then k + i else nthGap r (j + 1) (i - (j - k))

/-- Frames of a tier that are not free: blocks with a count, and frames cooling after a move. -/
def usedFrames (p : Pool) (ddr : Bool) : List Nat :=
  (p.descs.filterMap fun d => if d.2.count ≠ 0 ∧ d.2.ddr = ddr then some d.2.frame else none) ++
    (p.cooling.filterMap fun c => if c.1 = ddr then some c.2.1 else none)
/-- Block numbers in use. -/
def usedBlocks (p : Pool) : List Nat := p.descs.filterMap fun d => if d.2.count ≠ 0 then some d.1 else none

def Pool.frames (p : Pool) (ddr : Bool) : Nat := if ddr then p.ddrFrames else p.hbmFrames
/-- Free frames of a tier. -/
def freeFrames (p : Pool) (ddr : Bool) : Nat := p.frames ddr - (usedFrames p ddr).length
/-- Frames that are free and not reserved (R235). -/
def unreserved (p : Pool) : Nat := freeFrames p false + freeFrames p true - p.reserved

/-- A free number below a bound, in an order that is not fixed (R228). -/
def pickFree (used : List Nat) (bound free : Nat) : Nat := nthGap (sortNat used) 0 (Config.freeNat free % (bound - used.length))

/-- Count in 0x5031. -/
def State.poolCount (s : State) (k : Nat) (n : Nat := 1) : State :=
  { s with pool := { s.pool with counters := bump s.pool.counters k n } }

/-! ### Descriptors (R227 to R229) -/

/-- The next generation, 0 skipped. -/
def nextGen (g : BitVec 16) : BitVec 16 := if g + 1 = 0 then 1 else g + 1

/-- The mark an allocation sets (R228). -/
def markFor : Holder → Bool → Mark
  | .stream _, _ => .shortTerm
  | .surface _, _ => .longTerm
  | .context _, longTerm => if longTerm then .longTerm else .shortTerm
  | .device, _ => .shared

/-- A descriptor; a number never allocated has generation 0 and count 0. -/
def Pool.desc (p : Pool) (b : Nat) : Desc := lookD {} p.descs b
/-- Write a descriptor. -/
def State.setDesc (s : State) (b : Nat) (d : Desc) : State :=
  { s with pool := { s.pool with descs := put s.pool.descs b d } }

/-- Allocate a block for a holder with its content (R225, R228, R239): a free number and an HBM frame, or a DDR5 frame
when no HBM frame is free, counted in 0x5031:05. No block when no frame is free. -/
def State.allocBlock (s : State) (h : Holder) (mark : Mark) (data : Block) : Option (Nat × BitVec 16) × State :=
  let p := s.pool
  let ddr := freeFrames p false == 0
  if freeFrames p ddr = 0 then (none, s)
  else
    let b := pickFree (usedBlocks p) (p.hbmFrames + p.ddrFrames) s.clk.free
    let f := pickFree (usedFrames p ddr) (p.frames ddr) (s.clk.free + 1)
    let g := nextGen (p.desc b).gen
    (some (b, g), { s with
      pool := { p with
        descs := put p.descs b ⟨f, ddr, mark, g, false, false, 1, h, data⟩
        counters := if ddr then bump p.counters 5 else p.counters }
      clk := { s.clk with free := s.clk.free + 2 } })

/-- Allocate from the frame's reservation (R235). -/
def State.allocReserved (s : State) (h : Holder) (mark : Mark) (data : Block) : Option (Nat × BitVec 16) × State :=
  let r := s.allocBlock h mark data
  (r.1, { r.2 with pool := { r.2.pool with reserved := r.2.pool.reserved - 1 } })

/-- A descriptor operation is refused (R229): the descriptor is unchanged. -/
def State.refuseDesc (s : State) (m : Master) (b : Nat) : State := (s.poolCount 0x0E).contained 0x05 .descriptor m b

/-- Name a block (R229): the count rises; a holder other than the owner makes the block shared. -/
def State.nameBlock (s : State) (m : Master) (b : Nat) (g : BitVec 16) (h : Holder) : State :=
  let d := s.pool.desc b
  if d.gen ≠ g then s.refuseDesc m b
  else s.setDesc b { d with count := d.count + 1, mark := if d.owner = h then d.mark else .shared }

/-- Release a block (R229): at 0 it is unused, `POISONED` is cleared (DESIGN CHOICE, log entry 221: the spec does not say when), and its number and
frame are free. The device's own count on the two mid-grey blocks is never
released: with no other left, a release is refused as one that finds none (R226; DEDUCED, log entry 153). -/
def State.releaseBlock (s : State) (m : Master) (b : Nat) (g : BitVec 16) : State :=
  let d := s.pool.desc b
  if d.gen ≠ g ∨ d.count = 0 ∨ (b < 2 ∧ d.count = 1) then s.refuseDesc m b
  else s.setDesc b
    (if d.count = 1 then { d with count := 0, mark := .unused, poisoned := false, data := [] }
     else { d with count := d.count - 1 })

/-- Release the blocks of some slots. -/
def State.releaseSlots (s : State) (m : Master) (l : List Slot) : State :=
  l.foldl (fun s x => s.releaseBlock m x.block x.gen) s

/-- The descriptor table after HBM training: the two mid-grey blocks, held by the device for good (R226). -/
def greyDescs : Tab Desc :=
  [(0, ⟨0, false, .shared, 1, false, false, 1, .device, greyBlock true⟩),
   (1, ⟨1, false, .shared, 1, false, false, 1, .device, greyBlock false⟩)]

/-! ### Surfaces (R236, R237) -/

def State.surface (s : State) (h : Nat) : Surface := lookD {} s.pool.surfaces h
def State.setSurface (s : State) (h : Nat) (v : Surface) : State :=
  { s with pool := { s.pool with surfaces := put s.pool.surfaces h v } }

/-- Two stretches of memory share a byte. -/
def sharesByte (a n b k : Nat) : Bool := decide (a < b + k) && decide (b < a + n) && decide (n ≠ 0)
/-- What stands in the arena: the tables of surfaces, and bitstream rings. -/
def arenaUsed (s : State) : List (Nat × Nat) :=
  s.pool.surfaces.flatMap (fun q => [(q.2.tableAt, 8 * q.2.table.length), (q.2.prevAt, 8 * (q.2.prev.getD []).length)]) ++
    s.decs.filterMap fun q => if q.2.live then some (q.2.ringAt, q.2.ringSize) else none
/-- The first place at or above an address, in steps past what stands there, where `n` bytes meet nothing. `k` bounds the steps. -/
def fitAt (used : List (Nat × Nat)) (n : Nat) : Nat → Nat → Nat
  | 0, a => a
  | k + 1, a => match used.find? fun q => sharesByte q.1 q.2 a n with
    | some q => fitAt used n k ((q.1 + q.2 + 63) / 64 * 64)
    | none => a
/-- A place in the arena for `n` bytes: a free address, from which the first place that is not in use is taken, from the arena's start where
none is left above it (R236, R285; the spec gives no addresses: log entry 201). -/
def arenaPlace (s : State) (n : Nat) : Nat :=
  let lo := hbmUnitAddr (hbmPoolUnit + s.pool.hbmFrames)
  let hi := hbmUnitAddr hbmUnits
  let used := arenaUsed s
  let a := fitAt used n (used.length + 1) (lo + 64 * (Config.freeNat s.clk.free % ((hi - lo) / 64 + 1)))
  if a + n ≤ hi then a else fitAt used n (used.length + 1) lo

/-- With no frame job left on the previous table, its slots are released (R237). -/
def State.dropPrev (s : State) (m : Master) (h : Nat) : State :=
  let v := s.surface h
  match v.prev with
  | some sl => if v.prevPins = 0 then (s.setSurface h { v with prev := none }).releaseSlots m sl else s
  | none => s

/-- The `SURFACE_LOAD` whose table of `n` blocks has committed has ended, and can be aborted no more (R393, R402). -/
def State.endLoad (s : State) (h n : Nat) : State :=
  let mine (j : HostJob) : Bool := j.opcode == 1 && j.loaded && j.ended.isNone && j.object.toNat == h
  { s with rings := { s.rings with jobs := s.rings.jobs.map fun j => if mine j then { j with ended := some (0, BitVec.ofNat 32 (8192 * n), 0) } else j } }

/-- Commit a waiting rewrite when no previous table stands (R237). -/
def State.commitSurface (s : State) (m : Master) (h : Nat) : State :=
  let v := s.surface h
  match v.waiting, v.prev with
  | some (w, ht, d10, sl), none =>
    ((s.freed.setSurface h { v with
      width := w, height := ht, depth10 := d10, state := .ready, table := sl, gen := v.gen + 1, waiting := none,
      tableAt := arenaPlace s (8 * sl.length)
      prev := if v.table.isEmpty then none else some v.table,
      prevAt := v.tableAt
      prevPins := v.pins, pins := 0 }).endLoad h sl.length).dropPrev m h
  | _, _ => s

/-- A frame job ends its pin of a surface generation (R237). -/
def State.unpin (s : State) (m : Master) (h : Nat) (gen : Nat) : State :=
  let v := s.surface h
  if v.gen.toNat = gen ∧ v.table ≠ [] then s.setSurface h { v with pins := v.pins - 1 }
  else (s.setSurface h { v with prevPins := v.prevPins - 1 }).dropPrev m h

/-- A surface becomes free at once; its blocks go when its pins reach 0 (R395). -/
def State.freeSurface (s : State) (m : Master) (h : Nat) : State :=
  let v := s.surface h
  let all := (v.prev.getD []) ++ v.table
  (s.setSurface h { v with
    state := .free, table := [], owner := .device, pins := 0, prevPins := v.prevPins + v.pins, concealed := [],
    prevAt := if v.prev.isSome then v.prevAt else v.tableAt
    prev := if all.isEmpty then none else some all }).dropPrev m h

/-! ### Stream geometry and substitutes (R232, R238) -/

/-- CTU columns and rows of a picture size. -/
def ctuCols (w : Nat) : Nat := (w + 63) / 64
/-- A stream's picture width and height and `CODEC`: as they stood at its start (R245), else its row's. -/
def encGeom (s : State) (n : Nat) : Nat × Nat × Nat :=
  ((look s.encs n).bind (·.geom)).getD (fld s 0x8001 n 3, fld s 0x8001 n 4, fld s 0x8001 n 2)
/-- A stream's C, Q and their product. -/
def encC (s : State) (n : Nat) : Nat := ctuCols (encGeom s n).1
def encQ (s : State) (n : Nat) : Nat := ctuCols (encGeom s n).2.1
def encN (s : State) (n : Nat) : Nat := encC s n * encQ s n
/-- A stream codes 10-bit pictures (R167). -/
def encDepth10 (s : State) (n : Nat) : Bool := (encGeom s n).2.2 % 2 == 1
/-- Its cluster (R243). -/
def encClusterOf (n : Nat) : Nat := n % 8

/-- The template's surface, if `TEMPLATE` names one. -/
def templateOf (s : State) (n : Nat) : Option Nat :=
  let t := fld s 0x8001 n 0x12
  if t / 2 ^ 24 = 0 then some t else none

/-- The template matches: ready, of the stream's size and depth (R238). -/
def templateOk (s : State) (n : Nat) : Bool :=
  match templateOf s n with
  | none => false
  | some h =>
    let v := s.surface h
    decide (v.state = .ready) && v.width == (encGeom s n).1 && v.height == (encGeom s n).2.1 &&
      v.depth10 == encDepth10 s n

/-- A template that is named and does not match (R238). -/
def templateBad (s : State) (n : Nat) : Bool := (templateOf s n).isSome && !(templateOk s n)

/-- The substitute block for position `p` (R238). -/
def substituteOf (s : State) (n p : Nat) : Nat × BitVec 16 :=
  let grey : Nat × BitVec 16 := (if encDepth10 s n then 0 else 1, (s.pool.desc (if encDepth10 s n then 0 else 1)).gen)
  if templateOk s n then
    match (s.surface ((templateOf s n).getD 0)).table[p]? with
    | some sl => (sl.block, sl.gen)
    | none => grey
  else grey

/-- Name the substitute for position `p`, as a slot (R238). -/
def State.substSlot (s : State) (m : Master) (n p : Nat) (lost : Bool) (from_ : BitVec 16) : Slot × State :=
  let x := substituteOf s n p
  let s1 := if templateBad s n then s.poolCount 0x0F else s
  ({ block := x.1, gen := x.2, lost := lost, from_ := from_ }, s1.nameBlock m x.1 x.2 (.stream (BitVec.ofNat 16 n)))

/-- A table of `k` entries from position `p` on, each naming its substitute (R247); `FROM` of such a slot is 0 (DESIGN CHOICE, log entry 220). -/
def State.substTable (s : State) (m : Master) (n : Nat) (lost : Bool) : Nat → Nat → Tab Entry × State
  | 0, _ => ([], s)
  | k + 1, p =>
    let x := s.substSlot m n p lost 0
    let r := State.substTable x.2 m n lost k (p + 1)
    ((p, { slots := [x.1], forceIntra := lost }) :: r.1, r.2)

/-! ### Moves, settle, prefetch (R239 to R242) -/

/-- Move a block to the other tier (R242): a free frame there takes its data; the source frame is free 10 µs later. With no
free frame, or none that is not reserved (R235), nothing moves. Words of the source frame that are in the poison form, and one that the copy
finds uncorrectable (`bad`), are copied with their errors kept. The whole move lies within one step, so that no read meets `MOVING` 1. -/
def State.moveBlock (s : State) (b : Nat) (toDdr bad : Bool) : State :=
  let d := s.pool.desc b
  if d.count = 0 ∨ d.ddr = toDdr ∨ freeFrames s.pool toDdr = 0 ∨ unreserved s.pool = 0 then s
  else
    let f := pickFree (usedFrames s.pool toDdr) (s.pool.frames toDdr) s.clk.free
    let src := d.addr / 32
    let dst := frameAddr toDdr f / 32
    let old := (s.mem.poison.filter fun w => decide (src ≤ w) && decide (w < src + 256)).map fun w => w - src + dst
    let new := if bad then old ++ [dst + Config.freeNat (s.clk.free + 1) % 256] else old
    -- 1 to 4: `MOVING` set, the frame copied, `FRAME` and `TIER` switched at once, `MOVING` cleared
    let d1 : Desc := { d with moving := true, poisoned := d.poisoned || !new.isEmpty }
    let d2 : Desc := { d1 with frame := f, ddr := toDdr }
    { s with
      pool := { s.pool with
        descs := put s.pool.descs b { d2 with moving := false }
        cooling := s.pool.cooling ++ [(d.ddr, d.frame, s.clk.now + 10000)] }
      mem := { s.mem with poison := new.eraseDups ++ s.mem.poison.filter fun w => !(decide (dst ≤ w) && decide (w < dst + 256)) }
      clk := { s.clk with free := s.clk.free + 2 } }

/-- First boundary of a grid after a tick (R249). -/
def boundaryAfter (period phase t : Nat) : Nat := t + period - (t + period - phase % period) % period

/-- Ticks of a stream's next slot boundary. -/
def nextTick (e : Enc) : Nat := boundaryAfter e.grid.1 e.grid.2 e.lastTick

/-- Ticks of the prefetch lead (R241). -/
def leadTicks (s : State) : Nat := par s 0x5030 3 * 27

/-- Frames of a stream's block table (R247). -/
def tabFrames (s : State) (n : Nat) : Nat := (encN s n * 64 + 8191) / 8192
/-- `RESIDENT` (R244): a stream's record and block table are in HBM. -/
def isResident (s : State) (n : Nat) (e : Enc) : Bool :=
  decide (tabFrames s n < e.frames.length) && (e.frames.take (1 + tabFrames s n)).all fun f => !(s.pool.desc f.block).ddr
/-- Context frames of a stream in DDR5. -/
def ddrContext (s : State) (e : Enc) : Nat := (e.frames.filter fun f => (s.pool.desc f.block).ddr).length

/-- The blocks in HBM that the settle engine moves for a stream: its record and tables, and the short-term blocks it owns. -/
def settleBlocks (s : State) (n : Nat) (e : Enc) : List Nat :=
  (e.frames.map (·.block)).filter (fun b => !(s.pool.desc b).ddr) ++ s.pool.descs.filterMap fun d =>
    if d.2.count ≠ 0 ∧ d.2.mark = .shortTerm ∧ d.2.owner = .stream (BitVec.ofNat 16 n) ∧ d.2.ddr = false ∧
        !(e.frames.any fun f => f.block == d.1) then some d.1 else none

/-- The stream may be settled (R240): and something of it is in HBM. -/
def maySettle (s : State) (n : Nat) (e : Enc) : Bool :=
  fld s 0x8001 n 0x14 == 0 && e.coding.isNone && decide (ptpTicks s + 2 * leadTicks s < nextTick e) && !(settleBlocks s n e).isEmpty

/-- Settle streams, the one whose next slot lies furthest ahead first, until the stop level is reached; the frames that moved are counted
(R240). HBM frames that are still held for the 10 µs after their move count as free for that level (DESIGN CHOICE, log entry 222). -/
def settleLoop : Nat → State → State
  | 0, s => s
  | k + 1, s =>
    if s.pool.hbmFrames * par s 0x5030 2 ≤ 100 * (freeFrames s.pool false + (s.pool.cooling.filter (·.1 == false)).length) then s
    else
      let cands := s.encs.filter fun p => maySettle s p.1 p.2
      match minBy (fun p => 2 ^ 80 - nextTick p.2) cands with
      | none => s
      | some (n, e) =>
        let bs := settleBlocks s n e
        let s1 := bs.foldl (fun s b => s.moveBlock b true false) s
        settleLoop k (s1.poolCount 6 (bs.filter fun b => (s1.pool.desc b).ddr).length)

/-- Move a stream's record and tables to HBM, as far as it has frames; a prefetch that moved any is counted at `k` of 0x5031 (R241, R252). -/
def State.fetchRecord (s : State) (e : Enc) (k : Nat) : State :=
  let s1 := e.frames.foldl (fun s f => s.moveBlock f.block false false) s
  if ddrContext s1 e = ddrContext s e then s1 else s1.poolCount k

/-! ### Steps of PTP time (R249, R253) -/

/-- A stream passes its next boundary: the slot's number, and the grid that follows (R245). -/
def Enc.pass (e : Enc) : Enc :=
  { e with lastTick := nextTick e, slotNext := e.slotNext + 1, grid := e.newGrid.getD e.grid, newGrid := none }

/-- A forward step jumps over the boundaries up to a time: their slots are missed, counted as busy and as time step. -/
def State.jumpStream (s : State) (ticks n : Nat) (e : Enc) : State :=
  let live := decide (e.state = .starting ∨ e.state = .running ∨ e.state = .cold) && !e.stopping && s.pair.switching.isNone
  if !live || decide (ticks < nextTick e) then s
  else
    let e1 := e.pass
    let more := if ticks < nextTick e1 then 0 else (ticks - nextTick e1) / e1.grid.1 + 1
    let k := more + 1
    ({ s with encs := put s.encs n { e1 with
      lastTick := if more = 0 then e1.lastTick else nextTick e1 + (more - 1) * e1.grid.1
      slotNext := e1.slotNext + BitVec.ofNat 32 more
      missBusy := e1.missBusy + BitVec.ofNat 32 k } }).poolCount 0x0D k

/-- After a backward step no slot is taken until the grid reaches a number above the last one taken: the boundaries that lie ahead again and
above it are passed again, with their numbers, and a slot pending among them is pending no more (R249). -/
def Enc.rewind (e : Enc) (ticks : Nat) : Enc :=
  let base := max (e.taken.getD 0) ticks
  let k := min ((e.lastTick - base + e.grid.1 - 1) / e.grid.1) e.slotNext.toNat
  if k = 0 then e else { e with lastTick := e.lastTick - k * e.grid.1, slotNext := e.slotNext - BitVec.ofNat 32 k, pending := none }

/-- PTP time has been stepped from the old state's count: boundaries that a forward step jumps over are missed. After a backward one no slot
is taken until the grid passes the last boundary taken. -/
def State.steppedFrom (s : State) (old : Nat) : State :=
  if s.time.ptp < old then { s with encs := s.encs.map fun q => (q.1, q.2.rewind (ptpTicks s)) }
  else s.encs.foldl (fun s q => s.jumpStream (ptpTicks s) q.1 q.2) s

/-! ### The audit (R257) -/

/-- Every block that some holder names. -/
def heldBlocks (s : State) : List Nat :=
  [0, 1] ++
  s.encs.flatMap (fun p => p.2.frames.map (·.block) ++ p.2.table.flatMap fun q => q.2.slots.map (·.block)) ++
  s.pool.surfaces.flatMap (fun p => p.2.table.map (·.block) ++ (p.2.prev.getD []).map (·.block) ++
    (match p.2.waiting with | some w => w.2.2.2.map (·.block) | none => [])) ++
  s.tiles.flatMap (fun p => match p.2.frame with | some f => f.written | none => []) ++
  s.decs.flatMap (fun p => p.2.frames.map (·.block) ++ p.2.dpb.flatMap (fun d => (d.blocks ++ d.frames).map (·.block)) ++
    (match p.2.lastOut with | some d => d.blocks.map (·.block) | none => []) ++
    (match p.2.decoding with | some g => g.frames.map (·.block) | none => []) ++
    p.2.toCommit.flatMap fun c => c.pic.blocks.map (·.block))

/-- Blocks with a count and no holder. -/
def orphans (s : State) : List Nat := (usedBlocks s.pool).filter fun b => !((heldBlocks s).contains b)

/-! ### Commands -/

/-- BLOCK_ALLOCATE (R228, R239): a master takes a block for a holder; it then writes it in full (R225). `longTerm` is the mark that the
bitstream gives a reference picture of a decode context. -/
def execBlockAllocate (m : Master) (h : Holder) (longTerm : Bool) (s : State) : Host.Outcome State Fault Refusal :=
  issuedBy m s <|
  if unreserved s.pool = 0 then done (s.emit (.block m none))
  else
    let r := (s.freed).allocBlock h (markFor h longTerm) (freeBlock true s.clk.free)
    done (r.2.emit (.block m r.1))

/-- BLOCK_NAME (R229). -/
def execBlockName (m : Master) (block : BitVec 29) (gen : BitVec 16) (h : Holder) (s : State) :
    Host.Outcome State Fault Refusal :=
  issuedBy m s <|
  done (s.nameBlock m block.toNat gen h)

/-- BLOCK_RELEASE (R229). -/
def execBlockRelease (m : Master) (block : BitVec 29) (gen : BitVec 16) (s : State) : Host.Outcome State Fault Refusal :=
  issuedBy m s <|
  done (s.releaseBlock m block.toNat gen)

/-- SURFACE_TABLE_COMMIT (R237): a waiting rewrite commits once `PREV_TABLE` is 0. -/
def execSurfaceTableCommit (surface : BitVec 24) (s : State) : Host.Outcome State Fault Refusal :=
  awake s <|
  done (s.commitSurface mHost surface.toNat)

/-- SETTLE (R240): below the start level the settle engine moves streams' frames to DDR5. -/
def execSettle (s : State) : Host.Outcome State Fault Refusal :=
  awake s <|
  if 100 * freeFrames s.pool false < s.pool.hbmFrames * par s 0x5030 1 then done (settleLoop s.encs.length s)
  else done s

/-- PREFETCH (R241): a stream that is not resident returns to HBM from the prefetch lead before its next slot, or at once
with `RESIDENCY` 1. -/
def execPrefetch (stream : BitVec 16) (s : State) : Host.Outcome State Fault Refusal :=
  awake s <|
  match look s.encs stream.toNat with
  | none => done s
  | some e =>
    if decide (0 < ddrContext s e) && (decide (nextTick e ≤ ptpTicks s + leadTicks s) || fld s 0x8001 stream.toNat 0x14 == 1) then
      done (s.fetchRecord e 7)
    else done s

/-- BLOCK_MOVE (R242): `e` is how the source frame reads; an uncorrectable word is copied with its error kept, and the
block is poisoned. -/
def execBlockMove (block : BitVec 29) (toDdr : Bool) (e : Ecc) (s : State) : Host.Outcome State Fault Refusal :=
  awake s <|
  match e with
  | .clean => done (s.moveBlock block.toNat toDdr false)
  | .corrected => done ((s.corrected).moveBlock block.toNat toDdr false)
  | .uncorrectable => done (s.moveBlock block.toNat toDdr true)

/-- MOVED_FRAME_FREE (R242): source frames return 10 µs after their switch. -/
def execMovedFrameFree (s : State) : Host.Outcome State Fault Refusal :=
  awake s <|
  done { s with pool := { s.pool with cooling := s.pool.cooling.filter fun c => decide (s.clk.now < c.2.2) } }

/-- The oldest accepted write to an action object, and the state without it (R74): each acts exactly once. -/
def State.takeAct (s : State) (idx sub : Nat) : Option (Act × State) :=
  (takeFirst (fun a : Act => a.idx.toNat == idx && a.sub.toNat == sub) s.dict.acts).map fun p =>
    (p.1, { s with dict := { s.dict with acts := p.2 } })

/-- POOL_AUDIT (R257): an accepted write of 1 to 0x5030:05 starts an audit with its first pass. -/
def execPoolAudit (s : State) : Host.Outcome State Fault Refusal :=
  awake s <|
  match s.takeAct 0x5030 5 with
  | none => done s
  | some (_, s1) => done { s1 with pool := { s1.pool with audit := some (s1.clk.now, orphans s1) } }

/-- POOL_AUDIT_PASS (R257): the second pass, at least 1 s after the first: blocks without a holder in either pass are
freed and counted. -/
def execPoolAuditPass (s : State) : Host.Outcome State Fault Refusal :=
  awake s <|
  match s.pool.audit with
  | none => done s
  | some (t, first) =>
    if s.clk.now < t + 1000000000 then done s
    else
      let gone := (orphans s).filter fun b => first.contains b
      done ({ s with pool := { s.pool with
        audit := none
        descs := gone.foldl (fun ds b =>
          put ds b { lookD ({} : Desc) ds b with count := 0, mark := .unused, data := [] }) s.pool.descs } }.poolCount 0x11 gone.length)

end Sys2Proof.Machine
end

