-- ==== Sys2Proof/Machine/Seal.lean ====
section
/-! DEFINITION. Frame seals (R187 to R191): the check values of CTUs and frames, and an endpoint's seal from the stored one. -/

namespace Sys2Proof.Machine

/-- Width of a seal in bytes (R188). -/
def sealBytes (mode : Nat) : Nat := if mode = 2 then 8 else if mode = 3 then 2 else 4

/-- The CRC of a seal mode over a message (R188). -/
def sealCrc (mode : Nat) (m : Bytes) : Nat :=
  if mode = 0 then (crc32 m).toNat else if mode = 1 then (crc32c m).toNat
  else if mode = 2 then (crc64 m).toNat else (crc16 m).toNat

/-- The same CRC with initial value and final exclusive-or 0 (R191). -/
def sealLinear (mode : Nat) (m : Bytes) : Nat :=
  if mode = 0 then (crcR (0xEDB88320 : BitVec 32) 0 m).toNat
  else if mode = 1 then (crcR (0x82F63B78 : BitVec 32) 0 m).toNat
  else if mode = 2 then (crc64 m).toNat else (crcN (0x1021 : BitVec 16) 0 m).toNat

/-- The frame message: endpoint, frame number and every CTU CRC in raster order (R187). -/
def sealMessage (mode e frame : Nat) (crcs : List Nat) : Bytes :=
  le 4 e ++ le 4 frame ++ crcs.flatMap (le (sealBytes mode))

/-- A frame's seal for endpoint `e` (R187). -/
def frameSeal (mode e frame : Nat) (crcs : List Nat) : Nat := sealCrc mode (sealMessage mode e frame crcs)

/-- The seal for endpoint `e` from the record's seal for endpoint 0, with `n` CTUs (R191). -/
def endpointSeal (mode e n s0 : Nat) : Nat :=
  s0 ^^^ sealLinear mode (le 4 e ++ List.replicate (4 + n * sealBytes mode) 0)

end Sys2Proof.Machine
end

