-- ==== Sys2Proof/Machine/Compose.lean ====
section
/-! DEFINITION. Layouts, fonts, texts and pixels (R130 to R144): checks of written domains, and the composition of one CTU
from a frame's snapshot. -/

namespace Sys2Proof.Machine

/-! ### Parsed layouts (R131, R132) -/

/-- A layer record (R132). -/
structure Layer where
  idx    : Nat
  kind   : Nat
  z      : Nat
  flags  : Nat
  alpha  : Nat
  x      : Int
  y      : Int
  w      : Nat
  h      : Nat
  source : Nat
  srcX   : Nat
  srcY   : Nat
  stepX  : Nat
  stepY  : Nat
  visVar : Nat
  srcVar : Nat
  font   : Nat
  clockFmt : Nat
  fg     : Nat
  lbg    : Nat
  dx     : Int
  dy     : Int
  mslots : Nat
  mmode  : Nat
  gap    : Nat
  clockOff : Int
deriving DecidableEq, Repr

/-- Layer record `i` of a layout. -/
def layerAt (b : Bytes) (i : Nat) : Layer :=
  let o := 32 + 64 * i
  { idx := i, kind := u8 b o, z := u8 b (o + 1), flags := u8 b (o + 2), alpha := u8 b (o + 3),
    x := sext 16 (le16 b (o + 4)), y := sext 16 (le16 b (o + 6)), w := le16 b (o + 8), h := le16 b (o + 0xA),
    source := le32 b (o + 0xC), srcX := le16 b (o + 0x10), srcY := le16 b (o + 0x12),
    stepX := le16 b (o + 0x14), stepY := le16 b (o + 0x16), visVar := u8 b (o + 0x18), srcVar := u8 b (o + 0x19),
    font := u8 b (o + 0x1A), clockFmt := u8 b (o + 0x1B), fg := le32 b (o + 0x1C), lbg := le32 b (o + 0x20),
    dx := sext 16 (le16 b (o + 0x24)), dy := sext 16 (le16 b (o + 0x26)), mslots := le16 b (o + 0x28),
    mmode := u8 b (o + 0x2A), gap := le16 b (o + 0x2C), clockOff := sext 32 (le32 b (o + 0x30)) }

/-- A string's CRC-32C over its bytes with four bytes at `o` taken as zero (R131, R142). -/
def crcZeroed (b : Bytes) (o : Nat) : Nat := (crc32c (b.take o ++ [0, 0, 0, 0] ++ b.drop (o + 4))).toNat

/-- Layer `k` of the clock-face stream's layout: a CLOCK of one format; place, size, alignment, opacity and colours are the ROM's. -/
def clockLayer (k fmt : Nat) : Bytes :=
  let g (j : Nat) : Nat := Config.clockGeometry (8 * k + j)
  [6, BitVec.ofNat 8 k, BitVec.ofNat 8 (4 * (g 0 % 3)), BitVec.ofNat 8 (g 1)] ++
    le 2 (2 * (g 2 % 960)) ++ le 2 (2 * (g 3 % 540)) ++ le 2 (2 + 2 * (g 4 % 3840)) ++ le 2 (2 + 2 * (g 5 % 2160)) ++
    zeros 8 ++ le 2 1024 ++ le 2 1024 ++ [0xFF, 0xFF, 0, BitVec.ofNat 8 fmt] ++ le 4 (g 6 % 2 ^ 30) ++ le 4 (g 7 % 2 ^ 30) ++ zeros 28

/-- The layout of the clock-face stream, built into the boot ROM (R50, R144): CLOCK layers of formats 0x01, 0x03, 0x10 and 0x11 in a
picture of 1920 × 1080. -/
def clockLayout : Bytes :=
  let b := le 4 0x4C595431 ++ le 2 1920 ++ le 2 1080 ++ [4, 0, 0, 0] ++ le 4 (Config.clockGeometry 32 % 2 ^ 30) ++ le 4 288 ++ zeros 12 ++
    clockLayer 0 0x01 ++ clockLayer 1 0x03 ++ clockLayer 2 0x10 ++ clockLayer 3 0x11
  b.take 0x14 ++ le 4 (crcZeroed b 0x14) ++ b.drop 0x18

def Layer.moveContent (l : Layer) : Bool := bitOf l.flags 0
def Layer.noBg (l : Layer) : Bool := bitOf l.flags 1
def Layer.align (l : Layer) : Nat := bits l.flags 3 2
def Layer.scaled (l : Layer) : Bool := bitOf l.flags 4

/-- A layout's picture size, number of layers and rules. -/
def layWidth (b : Bytes) : Nat := le16 b 4
def layHeight (b : Bytes) : Nat := le16 b 6
def layLayers (b : Bytes) : Nat := u8 b 8
def layRules (b : Bytes) : Nat := u8 b 9
def layersOf (b : Bytes) : List Layer := (List.range (layLayers b)).map (layerAt b)

/-- All bytes of a range are zero. -/
def zeroRange (b : Bytes) (o n : Nat) : Bool := (slice b o n).all (· == 0)

/-- A colour's reserved bits are 0 (R133). -/
def colourOk (c : Nat) : Bool := c / 2 ^ 30 == 0

/-- `SOURCE` of a kind (R134). -/
def sourceOk (l : Layer) : Bool :=
  match l.kind with
  | 1 => l.source == 0
  | 2 => l.source / 2 ^ 24 == 0
  | 3 => l.source / 2 ^ 12 == 0
  | 4 => l.source / 2 ^ 9 == 0
  | 5 => l.source / 2 ^ 9 == 0 && l.moveContent
  | 6 => l.source == 0 && [1, 2, 3, 0x10, 0x11].contains l.clockFmt
  | _ => false

/-- The checks of R132 to R134 and R144 on one layer record. -/
def layerOk (b : Bytes) (i : Nat) : Bool :=
  let l := layerAt b i
  let o := 32 + 64 * i
  let var (v : Nat) : Bool := decide (v ≤ 63) || v == 0xFF
  let step (v : Nat) : Bool := decide (256 ≤ v) && decide (v ≤ 4096) && (l.scaled || v == 1024)
  sourceOk l && decide (l.z ≤ 63) && l.flags / 32 == 0 && l.align != 3 &&
  l.x % 2 == 0 && l.y % 2 == 0 && decide (2 ≤ l.w) && decide (l.w ≤ 7680) && l.w % 2 == 0 &&
  decide (2 ≤ l.h) && decide (l.h ≤ 4320) && l.h % 2 == 0 && l.srcX % 2 == 0 && l.srcY % 2 == 0 &&
  step l.stepX && step l.stepY && var l.visVar && var l.srcVar && decide (l.font ≤ 15) &&
  colourOk l.fg && colourOk l.lbg && (l.moveContent || (l.dx % 2 == 0 && l.dy % 2 == 0)) && decide (l.mmode ≤ 2) &&
  zeroRange b (o + 0x2B) 1 && zeroRange b (o + 0x2E) 2 && zeroRange b (o + 0x34) 12

/-- A touch rule record (R154). -/
structure Rule where
  trigger : Nat
  var     : Nat
  op      : Nat
  condVar : Nat
  x       : Nat
  y       : Nat
  w       : Nat
  h       : Nat
  operand : Nat
  limit   : Nat
  condValue : Nat
deriving DecidableEq, Repr

/-- Touch rule `i` of a layout. -/
def ruleAt (b : Bytes) (i : Nat) : Rule :=
  let o := 32 + 64 * layLayers b + 32 * i
  { trigger := u8 b o, var := u8 b (o + 1), op := u8 b (o + 2), condVar := u8 b (o + 3),
    x := le16 b (o + 4), y := le16 b (o + 6), w := le16 b (o + 8), h := le16 b (o + 0xA),
    operand := le32 b (o + 0xC), limit := le32 b (o + 0x10), condValue := le32 b (o + 0x14) }
def rulesOf (b : Bytes) : List Rule := (List.range (layRules b)).map (ruleAt b)

def ruleOk (b : Bytes) (i : Nat) : Bool :=
  let r := ruleAt b i
  (r.trigger == 1 || r.trigger == 2) && decide (r.var ≤ 63) && decide (1 ≤ r.op) && decide (r.op ≤ 3) &&
  (decide (r.condVar ≤ 63) || r.condVar == 0xFF) && zeroRange b (32 + 64 * layLayers b + 32 * i + 0x18) 8

/-- No value twice. -/
def noRepeat : List Nat → Bool
  | [] => true
  | x :: r => !(r.contains x) && noRepeat r

/-- The check of a written layout (R130, R131). -/
def layoutOk (b : Bytes) : Bool :=
  decide (32 ≤ b.length) && le32 b 0 == 0x4C595431 &&
  decide (128 ≤ layWidth b) && decide (layWidth b ≤ 7680) && layWidth b % 8 == 0 &&
  decide (64 ≤ layHeight b) && decide (layHeight b ≤ 4320) && layHeight b % 8 == 0 &&
  decide (layLayers b ≤ 64) && decide (layRules b ≤ 32) && zeroRange b 0xA 2 && colourOk (le32 b 0xC) &&
  le32 b 0x10 == 32 + 64 * layLayers b + 32 * layRules b && b.length == le32 b 0x10 &&
  crcZeroed b 0x14 == le32 b 0x14 && zeroRange b 0x18 8 &&
  (List.range (layLayers b)).all (layerOk b) && (List.range (layRules b)).all (ruleOk b) &&
  noRepeat ((layersOf b).map (·.z))

/-! ### Text (R138) -/

/-- Continuation byte of UTF-8. -/
def isCont (b : Byte) : Bool := b.toNat / 64 == 2

/-- Code points of a UTF-8 string, `none` where it is not valid. `n` bounds the code points. -/
def utf8 : Nat → Bytes → Option (List Nat)
  | 0, b => if b.isEmpty then some [] else none
  | _ + 1, [] => some []
  | n + 1, a :: r =>
    let v := a.toNat
    if v < 0x80 then (utf8 n r).map (v :: ·)
    else if 0xC2 ≤ v ∧ v < 0xE0 then
      match r with
      | b :: r' => if isCont b then (utf8 n r').map ((v % 32 * 64 + b.toNat % 64) :: ·) else none
      | _ => none
    else if 0xE0 ≤ v ∧ v < 0xF0 then
      match r with
      | b :: c :: r' =>
        let p := v % 16 * 4096 + b.toNat % 64 * 64 + c.toNat % 64
        if isCont b && isCont c && decide (0x800 ≤ p) && !(decide (0xD800 ≤ p) && decide (p ≤ 0xDFFF)) then
          (utf8 n r').map (p :: ·) else none
      | _ => none
    else if 0xF0 ≤ v ∧ v < 0xF5 then
      match r with
      | b :: c :: d :: r' =>
        let p := v % 8 * 262144 + b.toNat % 64 * 4096 + c.toNat % 64 * 64 + d.toNat % 64
        if isCont b && isCont c && isCont d && decide (0x10000 ≤ p) && decide (p ≤ 0x10FFFF) then
          (utf8 n r').map (p :: ·) else none
      | _ => none
    else none

/-- The check of a written text slot (R138). -/
def textOk (b : Bytes) : Bool :=
  match utf8 b.length b with
  | none => false
  | some l => l.all fun p => decide (0x20 ≤ p)

/-! ### Fonts (R142) -/

def fontGlyphs (b : Bytes) : Nat := le16 b 0xC
def fontMaps (b : Bytes) : Nat := le16 b 0xE
/-- Offset of glyph record `g`. -/
def glyphOff (b : Bytes) (g : Nat) : Nat := 0x20 + 8 * fontMaps b + 16 * g

/-- Map entries in strictly ascending code point. -/
def mapsRise (b : Bytes) : Nat → Bool
  | 0 => true
  | 1 => true
  | n + 2 => decide (le32 b (0x20 + 8 * n) < le32 b (0x20 + 8 * (n + 1))) && mapsRise b (n + 1)

/-- A glyph record is sound: sizes at most 128, reserved bytes 0, its bitmap within the atlas. -/
def glyphOk (b : Bytes) (g : Nat) : Bool :=
  let o := glyphOff b g
  decide (u8 b o ≤ 128) && decide (u8 b (o + 1) ≤ 128) && zeroRange b (o + 5) 3 && zeroRange b (o + 12) 4 &&
  decide (le32 b (o + 8) + u8 b o * u8 b (o + 1) ≤ b.length)

/-- The check of a written font atlas (R142). -/
def fontOk (b : Bytes) : Bool :=
  decide (0x20 ≤ b.length) && le32 b 0 == 0x46544C41 && le32 b 4 == b.length && crcZeroed b 8 == le32 b 8 &&
  decide (1 ≤ fontGlyphs b) && decide (fontGlyphs b ≤ 8192) && decide (1 ≤ fontMaps b) && decide (fontMaps b ≤ 8192) &&
  zeroRange b 0x14 12 && decide (glyphOff b (fontGlyphs b) ≤ b.length) && mapsRise b (fontMaps b) &&
  (List.range (fontMaps b)).all (fun i => decide (le16 b (0x20 + 8 * i + 4) < fontGlyphs b) && zeroRange b (0x20 + 8 * i + 6) 2) &&
  (List.range (fontGlyphs b)).all (glyphOk b)

/-- The glyph index of a code point: glyph 0 where the map lacks it (R143). -/
def glyphOf (b : Bytes) (cp : Nat) : Nat :=
  match (List.range (fontMaps b)).find? fun i => le32 b (0x20 + 8 * i) == cp with
  | some i => le16 b (0x20 + 8 * i + 4)
  | none => 0

/-- A glyph placed in a line: left and top relative to the pen start and the baseline, size, bitmap offset. -/
structure Placed where
  gx  : Int
  gy  : Int
  gw  : Nat
  gh  : Nat
  off : Nat
deriving DecidableEq, Repr

/-- Lay a line of code points from pen position `pen` on (R143); answers the glyphs and the final pen. -/
def layLine (b : Bytes) : List Nat → Int → List Placed × Int
  | [], pen => ([], pen)
  | cp :: r, pen =>
    let o := glyphOff b (glyphOf b cp)
    let q := layLine b r (pen + (u8 b (o + 4) : Nat))
    ({ gx := pen + sext 8 (u8 b (o + 2)), gy := -(sext 8 (u8 b (o + 3))), gw := u8 b o, gh := u8 b (o + 1),
       off := le32 b (o + 8) } :: q.1, q.2)

/-! ### Clock text (R144) -/

/-- Two or more decimal digits. -/
def dec (n v : Nat) : Bytes := (List.range n).map fun i => BitVec.ofNat 8 (0x30 + v / 10 ^ (n - 1 - i) % 10)
/-- Decimal without leading zeros, of a value below 1,000. -/
def decShort (v : Nat) : Bytes := if 100 ≤ v then dec 3 v else if 10 ≤ v then dec 2 v else dec 1 v
/-- Uppercase hexadecimal digits. -/
def hexDigits (n v : Nat) : Bytes :=
  (List.range n).map fun i =>
    let d := v / 16 ^ (n - 1 - i) % 16
    BitVec.ofNat 8 (if d < 10 then 0x30 + d else 0x37 + d)

/-- Year, month and day of a day count since 1970-01-01, in the proleptic Gregorian calendar. -/
def civil (days : Nat) : Nat × Nat × Nat :=
  let z := days + 719468
  let era := z / 146097
  let doe := z % 146097
  let yoe := (doe - doe / 1460 + doe / 36524 - doe / 146096) / 365
  let doy := doe - (365 * yoe + yoe / 4 - yoe / 100)
  let mp := (5 * doy + 2) / 153
  let d := doy - (153 * mp + 2) / 5 + 1
  let m := if mp < 10 then mp + 3 else mp - 9
  (yoe + era * 400 + (if m ≤ 2 then 1 else 0), m, d)

/-- The UTC offset in effect at a PTP second (R372). -/
def utcOffset (s : State) (sec : Nat) : Int :=
  sext 16 (utcField s 1) +
    (if utcField s 3 ≤ sec then (if utcField s 2 = 1 then 1 else if utcField s 2 = 2 then -1 else 0) else 0)

/-- A PTP second is the inserted leap second (R144, R372): the first with the new offset under leap61. -/
def isLeap60 (s : State) (sec : Nat) : Bool := utcField s 2 == 1 && sec == utcField s 3

/-- The text of a clock layer at a presentation time (R144). -/
def clockText (s : State) (l : Layer) (ns : Nat) : Bytes :=
  let sec := ns / 1000000000
  let u := ((sec : Int) - utcOffset s sec + l.clockOff).toNat
  let t := u % 86400
  let ss := t % 60 + b2n (isLeap60 s sec)
  let c := civil (u / 86400)
  match l.clockFmt with
  | 1 => dec 2 (t / 3600) ++ [0x3A] ++ dec 2 (t / 60 % 60) ++ [0x3A] ++ dec 2 ss
  | 2 => dec 2 (t / 3600) ++ [0x3A] ++ dec 2 (t / 60 % 60)
  | 3 => dec 4 c.1 ++ [0x2D] ++ dec 2 c.2.1 ++ [0x2D] ++ dec 2 c.2.2
  | 0x10 => decShort (clockClassNow s).toNat
  | _ => hexDigits 8 Config.serial.toNat

/-! ### Snapshots (R140, R141, R145) -/

/-- Steps of motion at slot `n` (R141). -/
def stepCount (l : Layer) (n : Nat) : Nat :=
  match l.mmode with
  | 1 => if l.mslots = 0 then n else n % l.mslots
  | 2 => if l.mslots = 0 then n else min n l.mslots
  | _ => 0

/-- The font bytes of a layer: the boot ROM's for the clock-face layout (R144). -/
def fontBytes (s : State) (layoutNo slot : Nat) : Bytes :=
  if layoutNo = 256 then Config.clockFont else parBytes s (0x4300 + slot) 0

/-- Advance of a text in a font (R143). -/
def textAdvance (font text : Bytes) : Nat :=
  if font.isEmpty then 0 else (layLine font ((utf8 text.length text).getD []) 0).2.toNat

/-- The field of `SOURCE` that a kind uses: higher bits of a bank variable's value are ignored (R134). -/
def sourceField (kind v : Nat) : Nat :=
  match kind with
  | 2 => v % 2 ^ 24
  | 3 => v % 4096
  | 4 => v % 512
  | 5 => v % 512
  | _ => 0

/-- The surface a SURFACE or VIDEO layer shows (R134): a handle, or the output surface of a decode context. -/
def layerSurface (s : State) (kind source : Nat) : Option Nat :=
  if kind = 2 then (if (s.surface source).state = .ready then some source else none)
  else if kind = 3 then
    let h := fld s 0x8003 source 0x0D
    if decValid s source && decide (h < 2 ^ 24) && decide ((s.surface h).state = .ready) then some h else none
  else none

/-- The values of a layer at a slot (R140, R141, R145). -/
def snapLayer (s : State) (layoutNo : Nat) (bank : List Word) (w h slot ns : Nat) (l : Layer) : SnapLayer :=
  let src := sourceField l.kind (if l.srcVar = 0xFF then l.source else (bank.getD l.srcVar 0).toNat)
  let k := stepCount l slot
  let surf := layerSurface s l.kind src
  let text := if l.kind = 4 ∨ l.kind = 5 then parBytes s (0x4600 + src) 0
    else if l.kind = 6 then clockText s l ns else []
  let ox0 : Int := (l.srcX : Int) + (if l.moveContent then k * l.dx else 0)
  let oy0 : Int := (l.srcY : Int) + (if l.moveContent then k * l.dy else 0)
  let sv := s.surface (surf.getD 0)
  let strip : Nat := textAdvance (fontBytes s layoutNo l.font) text + l.gap
  let wrap := l.kind = 2 ∧ l.moveContent = true ∧ l.mslots = 0
  let rx0 : Int := l.x + (if l.moveContent then 0 else k * l.dx)
  let ry0 : Int := l.y + (if l.moveContent then 0 else k * l.dy)
  let x0 := max rx0 0
  let y0 := max ry0 0
  let x1 := min (rx0 + l.w) w
  let y1 := min (ry0 + l.h) h
  { visible := l.visVar == 0xFF || (bank.getD l.visVar 0) != 0
    kind := l.kind
    source := src
    handle := surf
    sw := if surf.isSome then sv.width else 0
    sh := if surf.isSome then sv.height else 0
    deep := sv.depth10
    srcGen := if surf.isSome then sv.gen.toNat else 0
    textGen := if l.kind = 4 ∨ l.kind = 5 then lookD 0 s.batten.textGen src else 0
    rx := x0, ry := y0, rw := max (x1 - x0) 0, rh := max (y1 - y0) 0
    ox := if l.kind = 5 then (if strip = 0 then 0 else ox0 % strip) else if wrap ∧ sv.width ≠ 0 then ox0 % sv.width else ox0
    oy := if wrap ∧ sv.height ≠ 0 then oy0 % sv.height else oy0
    second := if l.kind = 6 then ns / 1000000000 else 0
    steps := k
    text := text }

/-! ### Pixels (R135, R136, R143) -/

/-- One paint over a CTU: opacity at a luma sample, luma value, chroma value of component 0 or 1 at a chroma sample. -/
structure Paint where
  opac : Nat → Nat → Nat
  lum  : Nat → Nat → Nat
  chr  : Nat → Nat → Nat → Nat

/-- Blend source `v` over `d` with opacity `a` (R135). -/
def blend (a v d : Nat) : Nat :=
  let w := a + a / 128
  (w * v + (256 - w) * d + 128) / 256

def colY (c : Nat) : Nat := bits c 29 20
def colC (c : Nat) (k : Nat) : Nat := if k = 0 then bits c 19 10 else bits c 9 0

/-- A surface as a frame reads it: its size and depth at the snapshot, the table of the pinned generation, the blocks whose read met an
error tag. -/
structure Picture where
  w    : Nat
  h    : Nat
  deep : Bool
  tbl  : List Slot
  bad  : List Nat

/-- A sample of a surface's table: plane 0 luma, 1 Cb, 2 Cr; an 8-bit surface reads as 4v (R223). None where the block's read fails: it
met an error tag, or the block is poisoned (R151, R242). -/
def surfSample (s : State) (v : Picture) (plane : Nat) (x y : Nat) : Option Nat :=
  let n := if plane = 0 then 64 else 32
  let k := (y / n) * ctuCols v.w + x / n
  match v.tbl[k]? with
  | none => none
  | some sl =>
    let d := s.pool.desc sl.block
    let i := if plane = 0 then 64 * (y % 64) + x % 64 else 4096 + 1024 * (plane - 1) + 32 * (y % 32) + x % 32
    if v.bad.contains k || d.poisoned then none
    else
      let c := sampleAt d.data i
      some (if v.deep then c else 4 * c)

/-- Clamp an index to a surface (R136), or wrap it where the content repeats (R141). -/
def clampIdx (wrap : Bool) (n : Nat) (i : Int) : Nat :=
  if n = 0 then 0 else if wrap then (i % n).toNat else (min (max i 0) ((n : Int) - 1)).toNat

/-- Two samples combined, none where one is missing. -/
def both (f : Nat → Nat → Nat) : Option Nat → Option Nat → Option Nat
  | some a, some b => some (f a b)
  | _, _ => none

/-- A filtered sample between two (R136), and the rounded mean. -/
def mix64 (f a b : Nat) : Nat := ((64 - f) * a + f * b + 32) / 64
def mean2 (a b : Nat) : Nat := (a + b + 1) / 2

/-- A sample of a SURFACE or VIDEO layer at a picture position (R134, R136), plane 0 luma; none where a block that it needs cannot be
read. A scaled layer clamps its index to the surface. An unscaled one repeats where its content wraps (R141), and shows the surface's
edge sample beyond the surface otherwise (DESIGN CHOICE, log entry 142: the spec names the clamp for scaled layers alone). -/
def surfPixel (s : State) (l : Layer) (sn : SnapLayer) (rx ry : Int) (v : Picture) (plane x y : Nat) : Option Nat :=
  let wrap := l.kind == 2 && l.moveContent && l.mslots == 0 && !l.scaled
  let half := plane ≠ 0
  let w := if half then v.w / 2 else v.w
  let h := if half then v.h / 2 else v.h
  let at_ (i j : Int) : Option Nat := surfSample s v plane (clampIdx wrap w i) (clampIdx wrap h j)
  if l.scaled then
    let px : Int := (if half then sn.ox * 512 else sn.ox * 1024) + ((x : Int) - (if half then rx / 2 else rx)) * l.stepX
    let py : Int := (if half then sn.oy * 512 else sn.oy * 1024) + ((y : Int) - (if half then ry / 2 else ry)) * l.stepY
    let fx := (px / 16 % 64).toNat
    let fy := (py / 16 % 64).toNat
    let i := px / 1024
    let j := py / 1024
    both (mix64 fy) (both (mix64 fx) (at_ i j) (at_ (i + 1) j)) (both (mix64 fx) (at_ i (j + 1)) (at_ (i + 1) (j + 1)))
  else if half then
    let i2 := sn.ox + 2 * (x : Int) - rx
    let j2 := sn.oy + 2 * (y : Int) - ry
    let row (j : Int) : Option Nat := if i2 % 2 = 0 then at_ (i2 / 2) j else both mean2 (at_ (i2 / 2) j) (at_ (i2 / 2 + 1) j)
    if j2 % 2 = 0 then row (j2 / 2) else both mean2 (row (j2 / 2)) (row (j2 / 2 + 1))
  else at_ (sn.ox + x - rx) (sn.oy + y - ry)

/-- A flat paint inside a snapshot's rectangle. -/
def flat (sn : SnapLayer) (a c : Nat) : Paint :=
  { opac := fun x y => if sn.rx ≤ x ∧ (x : Int) < sn.rx + sn.rw ∧ sn.ry ≤ y ∧ (y : Int) < sn.ry + sn.rh then a else 0
    lum := fun _ _ => colY c
    chr := fun k _ _ => colC c k }

/-- Mid-grey: 512 in all three components (R130, R151). -/
def greyColour : Nat := 512 * 2 ^ 20 + 512 * 2 ^ 10 + 512

/-- A glyph's paint: coverage from the bitmap, clipped to the rectangle (R135, R143). -/
def glyphPaint (font : Bytes) (sn : SnapLayer) (l : Layer) (px py : Int) (g : Placed) : Paint :=
  { opac := fun x y =>
      let i := (x : Int) - (px + g.gx)
      let j := (y : Int) - (py + g.gy)
      if (flat sn 1 0).opac x y = 1 ∧ 0 ≤ i ∧ i < g.gw ∧ 0 ≤ j ∧ j < g.gh then
        (u8 font (g.off + j.toNat * g.gw + i.toNat) * (l.alpha + l.alpha / 128) + 128) / 256
      else 0
    lum := fun _ _ => colY l.fg
    chr := fun k _ _ => colC l.fg k }

/-- The glyphs of a text layer with their pens, in text order (R143): one line, or a ticker's strip repeated over the
rectangle from the content offset. -/
def layerGlyphs (fonts : Tab Bytes) (l : Layer) (sn : SnapLayer) : List (Int × Int × Placed) :=
  let font := lookD [] fonts l.font
  if font.isEmpty then []
  else
    let cps := (utf8 sn.text.length sn.text).getD []
    let line := layLine font cps 0
    let rx : Int := l.x + (if l.moveContent then 0 else sn.steps * l.dx)
    let ry : Int := l.y + (if l.moveContent then 0 else sn.steps * l.dy)
    let base := ry + (le16 font 0x12 : Nat)
    if l.kind = 5 then
      let strip := line.2.toNat + l.gap
      if strip = 0 then []
      else (List.range (l.w / strip + 3)).flatMap fun j =>
        line.1.map fun g => (rx - sn.ox + ((j : Int) - 1) * strip, base - sn.oy, g)
    else
      let free : Int := (l.w : Int) - line.2
      let pen := rx + (if l.align = 1 then free / 2 else if l.align = 2 then free else 0)
      let mx : Int := if l.moveContent then sn.ox - l.srcX else 0
      let my : Int := if l.moveContent then sn.oy - l.srcY else 0
      line.1.map fun g => (pen - mx, base - my, g)

/-- A layer is without transparency (R127). -/
def opaqueKind (l : Layer) : Bool :=
  l.kind == 1 || l.kind == 2 || l.kind == 3 || ((l.kind == 4 || l.kind == 5) && !l.noBg)

/-- In-picture part of a CTU: its right and bottom bounds. -/
def ctuRight (w cx : Nat) : Nat := min w (64 * cx + 64)
def ctuBottom (h cy : Nat) : Nat := min h (64 * cy + 64)

/-- A placed glyph is drawn into a CTU: something of its bitmap lies in the layer's rectangle and in the CTU's in-picture part (R127, R143). -/
def touchesCtu (sn : SnapLayer) (px py : Int) (g : Placed) (w h cx cy : Nat) : Bool :=
  let x := px + g.gx
  let y := py + g.gy
  let x0 := max (max x sn.rx) (64 * cx : Nat)
  let x1 := min (min (x + g.gw) (sn.rx + sn.rw)) (ctuRight w cx : Nat)
  let y0 := max (max y sn.ry) (64 * cy : Nat)
  let y1 := min (min (y + g.gh) (sn.ry + sn.rh)) (ctuBottom h cy : Nat)
  decide (x0 < x1) && decide (y0 < y1)

/-- A layer's rectangle intersects the in-picture part of a CTU. -/
def meets (sn : SnapLayer) (w h cx cy : Nat) : Bool :=
  decide (sn.rx < ctuRight w cx) && decide ((64 * cx : Int) < sn.rx + sn.rw) &&
  decide (sn.ry < ctuBottom h cy) && decide ((64 * cy : Int) < sn.ry + sn.rh) && decide (0 < sn.rw) && decide (0 < sn.rh)
/-- A layer's rectangle covers the in-picture part of a CTU. -/
def covers (sn : SnapLayer) (w h cx cy : Nat) : Bool :=
  decide (sn.rx ≤ 64 * cx) && decide ((ctuRight w cx : Int) ≤ sn.rx + sn.rw) &&
  decide (sn.ry ≤ 64 * cy) && decide ((ctuBottom h cy : Int) ≤ sn.ry + sn.rh)

/-- Insert a layer by rising Z. -/
def insZ (x : Layer × SnapLayer) : List (Layer × SnapLayer) → List (Layer × SnapLayer)
  | [] => [x]
  | y :: r => if x.1.z ≤ y.1.z then x :: y :: r else y :: insZ x r

/-- Layers of a CTU from the topmost one that covers it without transparency upwards, by rising Z (R127). -/
def visibleLayers (ls : List (Layer × SnapLayer)) (w h cx cy : Nat) : List (Layer × SnapLayer) :=
  let met := (ls.filter fun p => p.2.visible && meets p.2 w h cx cy).foldl (fun acc x => insZ x acc) []
  met.foldl (fun acc p => if covers p.2 w h cx cy && p.1.alpha == 255 && opaqueKind p.1 then [p] else acc ++ [p]) []

/-- The layers after the limits of R126 and R127, and how many were omitted. -/
def limitLayers (ls : List (Layer × SnapLayer)) : List (Layer × SnapLayer) × Nat :=
  let a := ls.drop (ls.length - 8)
  let scaledN := (a.filter fun p => p.1.scaled).length
  let r := a.foldl (fun (acc : List (Layer × SnapLayer) × Nat) p =>
    if p.1.scaled && decide (0 < acc.2) then (acc.1, acc.2 - 1) else (acc.1 ++ [p], acc.2)) ([], scaledN - 2)
  (r.1, ls.length - r.1.length)

/-- Everything needed to draw a frame: its size and depth, the background, the fonts, the layers with their values. -/
structure Scene where
  w : Nat
  h : Nat
  ten : Bool
  bg : Nat
  fonts : Tab Bytes
  layers : List (Layer × SnapLayer)

/-- The table that a pinned generation of a surface reads (R237). -/
def pinnedTable (v : Surface) (gen : Nat) : List Slot := if v.gen.toNat = gen then v.table else v.prev.getD v.table

/-- The picture that a SURFACE or VIDEO layer shows in a frame, if it has one; `bad` names layers and the blocks of their sources whose
read met an error tag. -/
def layerPicture (s : State) (bad : List (Fin 64 × Nat)) (p : Layer × SnapLayer) : Option Picture :=
  p.2.handle.map fun h =>
    { w := p.2.sw, h := p.2.sh, deep := p.2.deep, tbl := pinnedTable (s.surface h) p.2.srcGen
      bad := bad.filterMap fun b => if b.1.val = p.1.idx then some b.2 else none }

/-- A sample of a SURFACE or VIDEO layer at a luma or chroma position of the picture; none where mid-grey stands in for it (R151). -/
def layerSample (s : State) (bad : List (Fin 64 × Nat)) (p : Layer × SnapLayer) (plane x y : Nat) : Option Nat :=
  let l := p.1
  match layerPicture s bad p with
  | none => none
  | some v => surfPixel s l p.2 (l.x + (if l.moveContent then 0 else p.2.steps * l.dx))
      (l.y + (if l.moveContent then 0 else p.2.steps * l.dy)) v plane x y

/-- The paints of a layer over a CTU, text glyphs given. -/
def layerPaints (s : State) (sc : Scene) (bad : List (Fin 64 × Nat)) (glyphs : List (Nat × Int × Int × Placed))
    (p : Layer × SnapLayer) : List Paint :=
  let l := p.1
  let sn := p.2
  if l.kind = 1 then [flat sn l.alpha l.fg]
  else if l.kind = 2 ∨ l.kind = 3 then
    [{ opac := (flat sn l.alpha 0).opac
       lum := fun x y => (layerSample s bad p 0 x y).getD 512
       chr := fun k x y => (layerSample s bad p (k + 1) x y).getD 512 }]
  else
    let font := lookD [] sc.fonts l.font
    (if l.noBg then [] else [flat sn l.alpha l.lbg]) ++
      (glyphs.filter fun g => g.1 == l.idx).map fun g => glyphPaint font sn l g.2.1 g.2.2.1 g.2.2.2

/-- Mid-grey stands in for some sample of a layer in a CTU (R151). -/
def greyedIn (s : State) (sc : Scene) (bad : List (Fin 64 × Nat)) (cx cy : Nat) (p : Layer × SnapLayer) : Bool :=
  (p.1.kind == 2 || p.1.kind == 3) &&
    ((layerPicture s bad p).isNone ||
      (List.range 4096).any fun i =>
        let x := 64 * cx + i % 64
        let y := 64 * cy + i / 64
        decide (x < sc.w) && decide (y < sc.h) && (flat p.2 1 0).opac x y == 1 &&
          ((layerSample s bad p 0 x y).isNone || (layerSample s bad p 1 (x / 2) (y / 2)).isNone ||
            (layerSample s bad p 2 (x / 2) (y / 2)).isNone))

/-- Glyphs of a CTU over all its layers, lowest Z first and in text order, and those beyond 64 (R126, R127). -/
def ctuGlyphs (sc : Scene) (ls : List (Layer × SnapLayer)) (cx cy : Nat) : List (Nat × Int × Int × Placed) × Nat :=
  let all := ls.flatMap fun p =>
    if p.1.kind = 4 ∨ p.1.kind = 5 ∨ p.1.kind = 6 then
      ((layerGlyphs sc.fonts p.1 p.2).filter fun g => touchesCtu p.2 g.1 g.2.1 g.2.2 sc.w sc.h cx cy).map fun g => (p.1.idx, g)
    else []
  (all.take 64, all.length - 64)

/-- A final 10-bit code in the stream's depth (R135). -/
def outCode (ten : Bool) (v : Nat) : Nat := if ten then v else min ((v + 2) / 4) 255

/-- Luma opacity mean over the four co-sited samples (R135). -/
def chromaOpac (p : Paint) (cx cy : Nat) : Nat :=
  (p.opac (2 * cx) (2 * cy) + p.opac (2 * cx + 1) (2 * cy) + p.opac (2 * cx) (2 * cy + 1) + p.opac (2 * cx + 1) (2 * cy + 1) + 2) / 4

/-- The samples of a CTU under some paints: luma, Cb, Cr in the order of R222; samples outside the picture are free
(R224). -/
def ctuSamples (sc : Scene) (ps : List Paint) (cx cy free : Nat) : List Nat :=
  let lum := (List.range 4096).map fun i =>
    let x := 64 * cx + i % 64
    let y := 64 * cy + i / 64
    if x < sc.w ∧ y < sc.h then outCode sc.ten (ps.foldl (fun d p => blend (p.opac x y) (p.lum x y) d) (colY sc.bg))
    else Config.freeSample free i % 1024
  let chr (k : Nat) := (List.range 1024).map fun i =>
    let x := 32 * cx + i % 32
    let y := 32 * cy + i / 32
    if 2 * x < sc.w ∧ 2 * y < sc.h then
      outCode sc.ten (ps.foldl (fun d p => blend (chromaOpac p x y) (p.chr k x y) d) (colC sc.bg k))
    else Config.freeSample free (4096 + 1024 * k + i) % 1024
  lum ++ chr 0 ++ chr 1

/-- A CTU composed: its block, the omissions of R127 and whether mid-grey was substituted (R151). -/
def composeCtu (s : State) (sc : Scene) (bad : List (Fin 64 × Nat)) (cx cy : Nat) : Block × Nat × Bool :=
  let lim := limitLayers (visibleLayers sc.layers sc.w sc.h cx cy)
  let gl := ctuGlyphs sc lim.1 cx cy
  let ps := lim.1.flatMap (layerPaints s sc bad gl.1)
  (packSamples (ctuSamples sc ps cx cy s.clk.free), lim.2 + gl.2, lim.1.any (greyedIn s sc bad cx cy))

/-- The in-picture samples of a CTU as seal bytes (R187): luma, Cb, Cr, row by row. -/
def ctuMessage (b : Block) (ten : Bool) (w h cx cy : Nat) : Bytes :=
  let n := if ten then 2 else 1
  let pw := ctuRight w cx - 64 * cx
  let ph := ctuBottom h cy - 64 * cy
  let plane (base stride pw ph : Nat) : Bytes :=
    (List.range ph).flatMap fun y => (List.range pw).flatMap fun x => le n (sampleAt b (base + stride * y + x))
  plane 0 64 pw ph ++ plane 4096 32 (pw / 2) (ph / 2) ++ plane 5120 32 (pw / 2) (ph / 2)

end Sys2Proof.Machine
end

