-- ==== Sys2Proof/Machine/Rate.lean ====
section
/-! DEFINITION. Rate control and the Heddle sweep (R198 to R210): the buffer model, budgets, planned and row QP, estimates,
the model's update, bands and clean areas; fixed-point logarithm and exponential. -/

namespace Sys2Proof.Machine

/-! ### Counters that sum all tiles -/

/-- Key of a counter object in `totals`. -/
def totKey (idx sub : Nat) : Nat := idx * 256 + sub
/-- Add to a counter object. -/
def State.count (s : State) (idx sub : Nat) (n : Nat := 1) : State := { s with totals := bump s.totals (totKey idx sub) n }

/-! ### Logarithm and exponential (R205) -/

/-- ⌊log2 (a / b)⌋ for positive `a` and `b`. -/
def floorLog2 (a b : Nat) : Int :=
  if b ≤ a then (Nat.log2 (a / b) : Int)
  else
    let q := b / a
    let l := Nat.log2 q
    if 2 ^ l * a = b then -(l : Int) else -(l : Int) - 1

/-- ⌊256 · 6 · log2 (a / b)⌋, exactly. -/
def sixLog2 (a b : Nat) : Int := floorLog2 (a ^ 1536) (b ^ 1536)

/-- round(32 − 6 log2(a/b)) as R205 allows it: `j` from 0 to 2 picks among the neighbours that an argument within 1/256 of
a decision point admits. -/
def roundQp (a b : Nat) (j : Nat) : Int := (8192 - sixLog2 a b - (j : Nat) + 128) / 256

/-- trunc(6 log2(a/b)) as R205 allows it, toward zero. -/
def truncLog (a b : Nat) (j : Nat) : Int :=
  let t := sixLog2 a b
  if 0 ≤ t then (t + (j : Int) - 1).tdiv 256 else (t + (j : Int)).tdiv 256

/-- Largest m below `2^k` and not below `base` with `test m`, a test that holds up to a point. -/
def bisect (test : Nat → Bool) : Nat → Nat → Nat
  | 0, base => base
  | k + 1, base => if test (base + 2 ^ k) then bisect test k (base + 2 ^ k) else bisect test k base

/-- ⌊65,536 · 2^(n/6)⌋, exactly. -/
def pow2Floor (n : Int) : Nat :=
  if 0 ≤ n then bisect (fun m => decide (m ^ 6 ≤ 2 ^ (96 + n.toNat))) (18 + n.toNat / 6) 0
  else bisect (fun m => decide (m ^ 6 * 2 ^ (-n).toNat ≤ 2 ^ 96)) 17 0
/-- 2^(n/6) in 16.16, within 1/256 (R205): `j` from 0 to 511 gives the deviation from the value rounded down. -/
def pow2Sixth (n : Int) (j : Nat) : Nat := pow2Floor n + j - 255

/-! ### Fields of a stream (R198) -/

def isVvc (codec : Nat) : Bool := decide (2 ≤ codec)
/-- The codec's highest QP (R198). -/
def codecQp (codec : Nat) : Nat := if isVvc codec then 63 else 51
/-- Bits drained in one slot (R198, R244). -/
def slotBits (s : State) (n : Nat) (period : Nat) : Nat := fld s 0x8001 n 0x0A * period / 27000000
/-- The model size B (R198). -/
def modelSize (s : State) (n : Nat) (period : Nat) : Nat :=
  let b := fld s 0x8001 n 0x0B
  if b = 0 then max (fld s 0x8001 n 0x0A / 5) (2 * slotBits s n period) else b

/-! ### The sweep (R209, R210) -/

/-- Pictures of a cycle. -/
def cyclePics (c w : Nat) : Nat := (c + w - 1) / w
/-- Band width at a cycle start. -/
def bandWidth (s : State) (n : Nat) : Nat :=
  let w := fld s 0x8001 n 0x0E
  if w = 0 then max 1 ((encC s n + 29) / 30) else w
/-- First column and number of columns of the band at position `k`. -/
def band (codec c k w : Nat) : Nat × Nat :=
  let lo := if isVvc codec ∨ k = 0 then k * w else k * w - 1
  (lo, min (k * w + w) c - lo)
/-- Clean edge of position `k`, luma samples. -/
def cleanEdge (width k w : Nat) : Nat := min ((k + 1) * w * 64) width
/-- Luma columns of the usable clean area of a picture at position `j`. -/
def usableClean (codec width c j w : Nat) : Nat :=
  if j + 1 = cyclePics c w then width else if isVvc codec then cleanEdge width j w else cleanEdge width j w - 8

/-! ### Frames -/

/-- Columns and rows, and a CTU's column and row. -/
def Frame.cols (f : Frame) : Nat := ctuCols f.width
def Frame.rows (f : Frame) : Nat := ctuCols f.height
def Frame.size (f : Frame) : Nat := f.cols * f.rows
/-- A CTU lies in a refresh column (R147). -/
def inBand (refCol refCount x : Nat) : Bool := decide (refCol ≤ x) && decide (x < refCol + refCount)
def Frame.refresh (f : Frame) (i : Nat) : Bool := inBand f.refCol f.refCount (i % f.cols)
/-- Its class (R199): with `FULL` at the first picture every CTU is a refresh CTU. -/
def classOf (h : Hint) : CtuClass := if h.refresh then .refresh else if h.kind = 2 then .exact else .other
/-- The codec's depth. -/
def Frame.ten (f : Frame) : Bool := f.codec % 2 == 1
/-- `TRUNCATED` and `FIRST_UNCODED` (R185, R207). -/
def Frame.firstUncoded (f : Frame) : Option Nat :=
  match f.cut.rate, f.cut.hint with
  | some a, some b => some (min a b)
  | some a, none => some a
  | none, h => h

/-! ### Budgets (R200, R202, R203) -/

/-- The buffer model at a frame start (R200): `RC_FULLNESS` holds V and the b of the last coded picture. The next picture may be another
tile's, and the record has no other field for b (DEDUCED, log entry 193). -/
def fullnessAt (r : RateState) (slots nrate : Nat) : Nat := r.fullness - slots * nrate

/-- Sum of a list of numbers. -/
def sumNat (l : List Nat) : Nat := l.foldl (· + ·) 0

/-- The plan of a picture (R202, R203). `free` names the jitter of R205. -/
def planPicture (s : State) (n : Nat) (e : Enc) (first : Bool) (slot : Word) (c q refCount : Nat) (free : Nat) : Plan :=
  let nrate := slotBits s n e.grid.1
  let buf := modelSize s n e.grid.1
  let v := fullnessAt e.rate (slot - e.slotLast).toNat nrate
  let vtgt := buf * par s 0x5020 1 / 100
  let o := par s 0x5020 2
  let f : Int := if first then (buf / 2 : Nat)
    else max (nrate / 8 : Nat) (min ((nrate : Int) - ((v : Int) - vtgt) / 8) ((buf : Int) - v))
  let fcap : Int := if first then (3 * buf / 4 : Nat)
    else max f (min (f * o / 16) (3 * ((buf : Int) - v) / 4))
  let r := e.rate
  let rows := (List.range q).map fun y => if first then (0, 0) else lookD (0, 0) r.rows y
  let ns := c * q - refCount * q - sumNat (rows.map (·.1)) - sumNat (rows.map (·.2))
  let fN := f.toNat
  let g := max (fN / 8) (fN - r.header - ns * r.skipBits / 256)
  let a := rows.map fun x => refCount * r.aRefresh + x.1 * r.aHint + x.2 * r.aOther
  let atot := sumNat a
  let lo := fld s 0x8001 n 0x0C
  let hi := fld s 0x8001 n 0x0D
  let qpf := if atot = 0 then r.qpLast
    else (min (max (roundQp g atot (Config.freeNat free % 3)) lo) hi).toNat
  { v := v, buf := buf, qpMin := lo, qpMax := hi, f := fN, fcap := fcap.toNat, g := g, qpf := qpf, atot := atot
    rb := a.map fun x => if atot = 0 then 0 else g * x / atot }

/-- Row QP (R204), from the picture's E, the sum of the row budgets of the closed rows and of the others, G, F and QP_f. -/
def rowQpOf (esum closed open_ g f qpf lo hi lim free : Nat) : Nat :=
  let d : Int := if closed < g / 8 ∨ f = 0 then 0
    else min (max (truncLog (esum + open_) f (Config.freeNat free % 3)) (-(lim : Int))) lim
  (min (max ((qpf : Int) + d) lo) hi).toNat

/-- Class coefficient. -/
def classCoef (r : RateState) : CtuClass → Nat
  | .refresh => r.aRefresh
  | .exact => r.aHint
  | .other => r.aOther

/-- Estimate of a CTU at a QP (R206). -/
def estimateCtu (r : RateState) (cls : CtuClass) (qp free : Nat) : Nat :=
  classCoef r cls * pow2Sixth (32 - (qp : Int)) (Config.freeNat free % 512) / 65536

/-- Mean of a class over the picture's CTUs below the codec maximum (R208), as Treadle has accounted for them: how many, and the sum of bits
scaled. -/
def classMean (f : Frame) (cls : CtuClass) (free : Nat) : Nat × Nat :=
  f.acct.zipIdx.foldl (fun acc q =>
    if q.1.1 = cls ∧ q.1.2.1 < codecQp f.codec then
      (acc.1 + 1, acc.2 + q.1.2.2 * pow2Sixth ((q.1.2.1 : Int) - 32) (Config.freeNat (free + q.2) % 512) / 65536)
    else acc) (0, 0)

/-- A coefficient after the picture (R208). -/
def nextCoef (old : Nat) (m : Nat × Nat) : Nat := if m.1 = 0 then old else (3 * old + m.2 / m.1) / 4

/-- Exact-hint and other lane-coded CTUs of a row, refresh CTUs excluded (R208). -/
def rowCounts (f : Frame) (y : Nat) : Nat × Nat :=
  f.ctus.foldl (fun acc p =>
    if p.1 / f.cols = y then
      match p.2.path with
      | some (.lane .exact _ _) => (acc.1 + 1, acc.2)
      | some (.lane .other _ _) => (acc.1, acc.2 + 1)
      | _ => acc
    else acc) (0, 0)

/-- The rate state after a coded picture (R208, R200). -/
def rateAfter (f : Frame) (r : RateState) (free : Nat) : RateState :=
  let ctuBits := sumNat (f.ctus.map fun p => p.2.bits)
  { fullness := f.plan.v + 8 * f.bytes
    aRefresh := nextCoef r.aRefresh (classMean f .refresh free)
    aHint := nextCoef r.aHint (classMean f .exact (free + 8192))
    aOther := nextCoef r.aOther (classMean f .other (free + 16384))
    skipBits := if f.keptSkips = 0 then r.skipBits else (3 * r.skipBits + 256 * f.keptBits / f.keptSkips) / 4
    header := 8 * f.bytes - ctuBits
    qpLast := f.plan.qpf
    rows := (List.range f.rows).map fun y => (y, rowCounts f y) }

end Sys2Proof.Machine
end

