-- ==== Sys2Proof/Machine/Batten.lean ====
section
/-! DEFINITION. A composition engine's frame jobs (R125 to R129, R140 to R151, R157, R158): snapshot and damage at frame start,
one CTU at a time with its hint record, the composed-pixel seal, and the commit at frame end. -/

namespace Sys2Proof.Machine

/-! ### Rows of the state -/

def State.tile (s : State) (p : Nat) : Tile := lookD {} s.tiles p
def State.setTile (s : State) (p : Nat) (t : Tile) : State := { s with tiles := put s.tiles p t }
def State.enc (s : State) (n : Nat) : Enc := lookD {} s.encs n
def State.setEnc (s : State) (n : Nat) (e : Enc) : State := { s with encs := put s.encs n e }
def State.engine (s : State) (p : Nat) : Engine := lookD {} s.batten.engines p
def State.setEngine (s : State) (p : Nat) (g : Engine) : State :=
  { s with batten := { s.batten with engines := put s.batten.engines p g } }
/-- Add to a composition counter, which saturates (R159). -/
def State.compCount (s : State) (k : Nat) (n : Nat := 1) : State :=
  let c := upd 0 s.batten.compCount k fun w => BitVec.ofNat 32 (min (w.toNat + n) 0xFFFFFFFF)
  { s with batten := { s.batten with compCount := c } }

def ftile (p : Nat) : Fin 72 := Fin.ofNat 72 p
def flane (l : Nat) : Fin 2 := Fin.ofNat 2 l

/-- The engine that holds the job of a logical tile: an outgoing engine finishes its jobs (R129). -/
def jobEngine (s : State) (tile : Nat) : Option (Nat × Job) :=
  s.batten.engines.findSome? fun p => (look p.2.jobs tile).map fun j => (p.1, j)

/-! ### Items of the frame Bobbins and hint records (R128, R148) -/

def frameStartItem (stream refCol refCount : Nat) (full : Bool) (slot : Word) : BitVec 256 :=
  BitVec.ofNat 256 (stream % 65536 + refCol % 128 * 2 ^ 16 + refCount % 128 * 2 ^ 23 + b2n full * 2 ^ 30 + slot.toNat * 2 ^ 32)

def frameEndItem (stream : Nat) (abandoned : Bool) (first : Option Nat) (slot : Word) : BitVec 256 :=
  BitVec.ofNat 256 (stream % 65536 + b2n abandoned * 2 ^ 16 + b2n first.isSome * 2 ^ 17 + (first.getD 0) % 8192 * 2 ^ 18 +
    slot.toNat * 2 ^ 32)

def itemStream (x : BitVec 256) : Nat := bits x.toNat 15 0
def itemSlot (x : BitVec 256) : Word := BitVec.ofNat 32 (bits x.toNat 63 32)

/-- The hint record of an item (R148). -/
def itemHint (x : BitVec 256) : Hint :=
  let v := x.toNat
  { kind := BitVec.ofNat 2 v, refresh := bitOf v 2, last := bitOf v 3, subst := bitOf v 4, x := BitVec.ofNat 7 (v / 2 ^ 8)
    y := BitVec.ofNat 7 (v / 2 ^ 15), mvx := BitVec.ofNat 13 (v / 2 ^ 22), mvy := BitVec.ofNat 12 (v / 2 ^ 35)
    layer := BitVec.ofNat 6 (v / 2 ^ 47) }

/-- Composed-seal items (R158): one, or two 32-bit halves for CRC-64, low word first (DEDUCED, log entry 58). -/
def sealItems (mode v : Nat) : List (BitVec 256) :=
  if mode = 2 then [BitVec.ofNat 256 (v % 2 ^ 32), BitVec.ofNat 256 (v / 2 ^ 32 % 2 ^ 32)] else [BitVec.ofNat 256 v]
/-- The seal that the tile reads from them. -/
def sealOf : List (BitVec 256) → Nat
  | [] => 0
  | x :: r => x.toNat % 2 ^ 64 + 2 ^ 32 * sealOf r

/-- A hint record as its 64-bit item (R148). -/
def hintItem (h : Hint) : BitVec 256 :=
  BitVec.ofNat 256 (h.kind.toNat + 4 * b2n h.refresh + 8 * b2n h.last + 16 * b2n h.subst + h.x.toNat * 2 ^ 8 + h.y.toNat * 2 ^ 15 +
    h.mvx.toNat * 2 ^ 22 + h.mvy.toNat * 2 ^ 35 + h.layer.toNat * 2 ^ 47)

/-- A touch event as the 128-bit item of the touch-event Bobbin; the spec gives the item no layout (DESIGN CHOICE, log entry 150): endpoint,
type, contact, coordinates, sequence number, and the time of receipt modulo 2^38 ns. -/
def touchItem (t : Touch) : BitVec 256 :=
  BitVec.ofNat 256 (t.endpoint % 2 ^ 20 + t.kind % 4 * 2 ^ 20 + t.contact % 16 * 2 ^ 22 + t.x % 2 ^ 16 * 2 ^ 26 + t.y % 2 ^ 16 * 2 ^ 42 +
    t.seq.toNat * 2 ^ 58 + t.at_ % 2 ^ 38 * 2 ^ 90)
/-- The event of an item, received at the latest such time. -/
def itemTouch (now : Nat) (x : BitVec 256) : Touch :=
  let v := x.toNat
  { endpoint := v % 2 ^ 20, kind := v / 2 ^ 20 % 4, contact := v / 2 ^ 22 % 16, x := v / 2 ^ 26 % 2 ^ 16, y := v / 2 ^ 42 % 2 ^ 16
    seq := BitVec.ofNat 32 (v / 2 ^ 58), at_ := now - (now + 2 ^ 38 - v / 2 ^ 90 % 2 ^ 38) % 2 ^ 38 }

/-! ### Frame start: snapshot and damage (R130, R140, R145) -/

/-- Slot number and bytes of a stream's layout: the built-in one for the clock-face stream (R144). -/
def streamLayout (s : State) (n : Nat) : Nat × Bytes :=
  if n = 0 ∧ clockLive s then (256, clockLayout)
  else (fld s 0x8001 n 0x10, parBytes s (0x4100 + fld s 0x8001 n 0x10) 0)

/-- A layout that can be composed for a stream: present, and of its picture size (R130). -/
def layoutFits (s : State) (n : Nat) (b : Bytes) : Bool :=
  !b.isEmpty && layWidth b == (encGeom s n).1 && layHeight b == (encGeom s n).2.1

/-- The presentation time of a picture: its slot boundary and the offset of `TIME_SERVICE` (R342), in nanoseconds. -/
def presentNs (s : State) (n : Nat) (boundary : Nat) : Nat :=
  (boundary + 27 * fld s 0x800B (fld s 0x8001 n 0x29) 9) * 1000 / 27

/-- The snapshot of a frame (R140). -/
def takeSnapshot (s : State) (n : Nat) (slot : Word) (boundary : Nat) : Snapshot :=
  let lay := streamLayout s n
  let ok := layoutFits s n lay.2
  let b := if ok then lay.2 else []
  let bankNo := fld s 0x8001 n 0x11
  let bank := (List.range 64).map fun v => lookD 0 s.batten.banks (64 * bankNo + v)
  let ns := presentNs s n boundary
  let ls := (if ok then layersOf b else []).map
    (snapLayer s lay.1 bank (encGeom s n).1 (encGeom s n).2.1 slot.toNat ns)
  let fonts := (if ok then layersOf b else []).foldl (fun acc l => put acc l.font (fontBytes s lay.1 l.font)) []
  { slot := slot, w := (encGeom s n).1, h := (encGeom s n).2.1, ten := encDepth10 s n, fonts := fonts, layout := b
    gen := lookD 0 s.batten.layoutGen lay.1, layoutNo := lay.1, layers := ls, time := ns }

/-- Surfaces with the generations a snapshot pins, each once: a frame job counts once in `PINS` (R236, R237). -/
def snapPins (sn : Snapshot) : List (Nat × Nat) :=
  sn.layers.foldl (fun acc x => match x.handle with
    | some h => if acc.contains (h, x.srcGen) then acc else acc ++ [(h, x.srcGen)]
    | none => acc) []

/-- Pin the surfaces of a snapshot, or unpin them at the job's end (R237). -/
def State.pinAll (s : State) (sn : Snapshot) : State :=
  (snapPins sn).foldl (fun s p => s.setSurface p.1 { s.surface p.1 with pins := (s.surface p.1).pins + 1 }) s
def State.unpinAll (s : State) (m : Master) (sn : Snapshot) : State := (snapPins sn).foldl (fun s p => s.unpin m p.1 p.2) s

/-- The compared values differ (R145). -/
def layerDiffers (a b : SnapLayer) : Bool :=
  a.visible != b.visible || a.source != b.source || a.handle != b.handle || a.srcGen != b.srcGen || a.textGen != b.textGen ||
    a.rx != b.rx || a.ry != b.ry || a.rw != b.rw || a.rh != b.rh || a.ox != b.ox || a.oy != b.oy ||
    (a.kind == 6 && a.text != b.text)

/-- CTUs of a picture that a clipped rectangle touches. -/
def ctusOf (w h : Nat) (x : SnapLayer) : List Nat :=
  (List.range (ctuCols w * ctuCols h)).filter fun i => meets x w h (i % ctuCols w) (i / ctuCols w)

/-- Damage of a frame (R145), with the CTUs that must be coded intra (R256). -/
def damageOf (e : Enc) (full : Bool) (sn : Snapshot) : List Nat :=
  let w := sn.w
  let h := sn.h
  let all := List.range (ctuCols w * ctuCols h)
  match e.snap with
  | none => all
  | some old =>
    if full || old.gen != sn.gen || old.layoutNo != sn.layoutNo then all
    else
      let moved := (List.zip old.layers sn.layers).flatMap fun p =>
        if layerDiffers p.1 p.2 then ctusOf w h p.1 ++ ctusOf w h p.2 else []
      let forced := e.table.filterMap fun p => if p.2.forceIntra then some p.1 else none
      all.filter fun i => e.carried.contains i || moved.contains i || forced.contains i

/-- The oldest item that an island sees in a Bobbin. -/
def State.bobHead (s : State) (b : BobbinId) : Option (BitVec 256) :=
  if s.bobAvail b = 0 then none else (s.bob b).items.head?.map (·.1)

/-- The engines await a frame end: of a tile's last job, or of a stream's. -/
def Batten.awaits (b : Batten) (tile n : Nat) : Bool := b.ended.any fun q => q.1 == tile || (q.2.stream == n && !q.2.gone)

/-- BATTEN_FRAME_START (R125, R129, R140, R145): the oldest item of the frame Bobbin reaches the cluster's engine, which holds
no job of the tile and awaits no frame end of the tile or of the stream. `ecc` is how the item's row reads; what the engine does with a tagged frame item
the spec does not say: it takes it as delivered (DESIGN CHOICE, log entry 143). -/
def execBattenFrameStart (tile : Fin 64) (ecc : Ecc) (s : State) : Host.Outcome State Fault Refusal :=
  awake s <|
  let p := encPhys s tile
  let g := enginePhys s (tile / 8)
  let fb : BobbinId := .frameUp (ftile p)
  let s := s.bobDst fb
  match s.bobHead fb with
  | none => done s
  | some x =>
    let n := itemStream x
    let e := s.enc n
    if p = 0xFF ∨ g = 0xFF ∨ (jobEngine s tile).isSome ∨ s.batten.awaits tile n = true then done s
    else
      let full := bitOf x.toNat 30
      let slot := itemSlot x
      let boundary := match (s.tile p).frame with
        | some f => f.boundary
        | none => e.lastTick
      let sn := takeSnapshot s n slot boundary
      let job : Job :=
        { stream := n, slot := slot, refCol := bits x.toNat 22 16, refCount := bits x.toNat 29 23, full := full, snap := sn
          damage := damageOf e full sn }
      let s1 := ((s.bobDrop fb 1).readItem fb ecc).pinAll sn
      let s2 := s1.setEngine g { s1.engine g with jobs := put (s1.engine g).jobs tile job }
      let empty := !(layoutFits s n (streamLayout s n).2)
      done (if empty then s2.compCount 3 else s2)

/-! ### Hints (R147 to R150) -/

/-- The vector of a layer between the last coded frame and this one (R149). -/
def layerVector (l : Layer) (m n : Nat) : Int × Int :=
  let k : Int := (stepCount l n : Int) - (stepCount l m : Nat)
  if l.moveContent then (k * l.dx, k * l.dy) else (-(k * l.dx), -(k * l.dy))

/-- A vector fits the fields of R148. -/
def vectorFits (v : Int × Int) : Bool :=
  decide (-4096 ≤ v.1) && decide (v.1 ≤ 4095) && decide (-2048 ≤ v.2) && decide (v.2 ≤ 2047)

/-- No repeat of a rectangle move's cycle lies between the two slots (R150). -/
def noRepeatBetween (l : Layer) (m n : Nat) : Bool :=
  l.moveContent || l.mmode != 1 || l.mslots == 0 || m / l.mslots == n / l.mslots

/-- In-picture area that a layer's rectangle shares with a CTU. -/
def sharedArea (x : SnapLayer) (w h cx cy : Nat) : Nat :=
  let ax := (min (ctuRight w cx : Int) (x.rx + x.rw) - max (64 * cx : Int) x.rx).toNat
  let ay := (min (ctuBottom h cy : Int) (x.ry + x.rh) - max (64 * cy : Int) x.ry).toNat
  ax * ay

/-- The source area of a CTU lay wholly inside a layer's drawn area, and every CTU that it touches was coded in the last coded frame: none
lies at or after that frame's `FIRST_UNCODED` (R128, R150). -/
def sourceInside (old : SnapLayer) (uncoded : Option Nat) (w h cx cy : Nat) (v : Int × Int) : Bool :=
  let x0 : Int := 64 * cx + v.1
  let y0 : Int := 64 * cy + v.2
  let x1 : Int := ctuRight w cx + v.1
  let y1 : Int := ctuBottom h cy + v.2
  old.visible && decide (old.rx ≤ x0) && decide (x1 ≤ old.rx + old.rw) && decide (old.ry ≤ y0) && decide (y1 ≤ old.ry + old.rh) &&
    decide (0 ≤ x0) && decide (0 ≤ y0) &&
    (List.range (ctuCols w * ctuCols h)).all fun i =>
      let ix : Int := (64 * (i % ctuCols w) : Nat)
      let iy : Int := (64 * (i / ctuCols w) : Nat)
      !((match uncoded with | some c => decide (c ≤ i) | none => false) && decide (ix < x1) && decide (x0 < ix + 64) && decide (iy < y1) && decide (y0 < iy + 64))

/-- Kind, vector and layer of a damaged CTU (R150). A layer has a drawn area at the last coded frame only in that frame's layout: after a
rewrite of the slot, or under another layout, no hint is exact (DEDUCED, log entry 191). A moving layer whose vector the fields of R148 cannot hold gives neither kind nor
vector (DESIGN CHOICE, log entry 144). -/
def motionHint (e : Enc) (sn : Snapshot) (w h cx cy : Nat) : Nat × (Int × Int) × Nat :=
  match e.snap with
  | none => (0, (0, 0), 0)
  | some old =>
    let ls := visibleLayers (List.zip (layersOf sn.layout) sn.layers) w h cx cy
    let moving (p : Layer × SnapLayer) : Bool := layerVector p.1 e.slotLast.toNat sn.slot.toNat != (0, 0)
    let exact : Option (Layer × SnapLayer) := match ls.getLast? with
      | some p =>
        let v := layerVector p.1 e.slotLast.toNat sn.slot.toNat
        if old.gen == sn.gen && old.layoutNo == sn.layoutNo && moving p && covers p.2 w h cx cy && p.1.alpha == 255 && opaqueKind p.1 && vectorFits v &&
            noRepeatBetween p.1 e.slotLast.toNat sn.slot.toNat &&
            sourceInside (old.layers.getD p.1.idx {}) e.uncoded w h cx cy v then some p else none
      | none => none
    match exact with
    | some p => (2, layerVector p.1 e.slotLast.toNat sn.slot.toNat, p.1.idx)
    | none =>
      let area := (ctuRight w cx - 64 * cx) * (ctuBottom h cy - 64 * cy)
      match (ls.filter fun p => moving p && decide (area ≤ 2 * sharedArea p.2 w h cx cy) &&
          vectorFits (layerVector p.1 e.slotLast.toNat sn.slot.toNat)).getLast? with
      | some p => (3, layerVector p.1 e.slotLast.toNat sn.slot.toNat, p.1.idx)
      | none => (0, (0, 0), 0)

/-! ### Composition of a CTU (R126, R147, R151, R157) -/

/-- A block as the 256 items of a CTU: eight words each. -/
def blockItems (b : Block) : List (BitVec 256) :=
  (List.range 256).map fun i => BitVec.ofNat 256 (leNat (((b.drop (8 * i)).take 8).flatMap fun w => le 4 w.toNat))

/-- Hints outstanding for a lane: in the tile's queue and not yet taken by the lane, or still in the hint Bobbin (R125). -/
def hintsOut (f : Frame) (v : Bobbin) (lane : Nat) : Nat :=
  (f.ctus.filter fun p => p.2.path.isNone && (p.1 / f.cols) % 2 == lane && f.lane0.ctu != some p.1 && f.lane1.ctu != some p.1).length +
  (v.items.filter fun x => (itemHint x.1).y.toNat % 2 == lane).length

/-- The frame of a tile that a job feeds: of its stream and slot; none once the frame has ended. -/
def jobFrame (s : State) (p : Nat) (j : Job) : Option Frame :=
  match (s.tile p).frame with
  | some f => if f.stream = j.stream ∧ f.slot = j.slot then some f else none
  | none => none

/-- A CTU enters the tile with its hint (R149, R165): one without pixels takes the skip-run path and is settled. After a cut a
CTU that is no refresh CTU takes it too, and after a hint cut every item is discarded (R184, R206). -/
def arrive (f : Frame) (i : Nat) (h : Hint) : FrameCtu :=
  let skip : FrameCtu := { hint := h, path := some .skip, settled := true }
  let afterHint := match f.cut.hint with | some c => decide (c ≤ i) | none => false
  let afterRate := match f.cut.rate with | some c => decide (c ≤ i) | none => false
  if afterHint then (if f.refresh i then { hint := h, path := some .grey, settled := true } else skip)
  else if h.kind = 1 ∧ h.refresh = false ∧ f.full = false then skip
  else if afterRate && !h.refresh then skip
  else { hint := h }

/-- Pixel items follow a hint record (R149). -/
def itemsFollow (full : Bool) (h : Hint) : Bool := !(h.kind == 1 && !h.refresh && !full)

/-- The composed-pixel seal of a job (R157): over the stored composed CRCs, with the stream number in the endpoint's place. -/
def composedSeal (f : Frame) (e : Enc) : Nat :=
  frameSeal f.sealMode f.stream f.slot.toNat ((List.range f.size).map fun i => lookD 0 e.composed i)

/-- The job has sent its last item (R125, R158): surfaces are unpinned and the composed-seal items sent, which the tile of a frame that has
ended reads and discards (R186); the frame end is awaited. -/
def State.endJob (s : State) (p g tile : Nat) (j : Job) : State :=
  let s1 := (s.setEngine g { s.engine g with jobs := del (s.engine g).jobs tile }).unpinAll (mEngine g) j.snap
  let w : JobEnd :=
    { stream := j.stream, snap := j.snap, damage := j.damage, subst := j.subst, refCol := j.refCol, refCount := j.refCount, gone := j.gone }
  let s2 : State := { s1 with batten := { s1.batten with ended := put s1.batten.ended tile w } }
  match jobFrame s p j with
  | some f => s2.bobPush (.frameDown (ftile p)) (sealItems f.sealMode (composedSeal f (s.enc j.stream)))
  | none => s2.bobPass (.frameDown (ftile p)) 1

/-- Room for what a job sends next, as the engine sees the three Bobbins: a hint record, 256 items where pixels follow, the seal items
after the last hint; and fewer than 64 hints outstanding for the lane (R27, R125). -/
def composeRoom (s : State) (p lane : Nat) (f : Frame) (pixels last : Bool) : Bool :=
  decide (hintsOut f (s.bob (.hint (ftile p))) lane < 64) && s.bobRoom (.hint (ftile p)) 1 &&
    (!pixels || s.bobRoom (.ctu (ftile p) (flane lane)) 256) && (!last || s.bobRoom (.frameDown (ftile p)) 2)

/-- Without a frame that takes the items they are read and discarded as they cross: the Bobbins must be open (R27, R29, R186). -/
def discardRoom (s : State) (p lane : Nat) (pixels last : Bool) : Bool :=
  s.bobRoom (.hint (ftile p)) 1 && (!pixels || s.bobRoom (.ctu (ftile p) (flane lane)) 256) && (!last || s.bobRoom (.frameDown (ftile p)) 2)

/-- The next hint record of a job (R147 to R150). -/
def jobHint (e : Enc) (j : Job) (cols n : Nat) (subst : Bool) : Hint :=
  let i := j.nextCtu
  let cx := i % cols
  let cy := i / cols
  let mh := if j.full then (0, (0, 0), 0) else if j.damage.contains i then motionHint e j.snap j.snap.w j.snap.h cx cy
    else (1, (0, 0), 0)
  { kind := BitVec.ofNat 2 mh.1, refresh := inBand j.refCol j.refCount cx, last := decide (i + 1 = n), subst := subst
    x := BitVec.ofNat 7 cx, y := BitVec.ofNat 7 cy, mvx := BitVec.ofInt 13 mh.2.1.1, mvy := BitVec.ofInt 12 mh.2.1.2
    layer := BitVec.ofNat 6 mh.2.2 }

/-- A job's next CTU is composed: damaged, in a refresh column, or all are (R147). -/
def jobComposes (j : Job) (cols : Nat) : Bool :=
  j.damage.contains j.nextCtu || inBand j.refCol j.refCount (j.nextCtu % cols) || j.full

/-- What a job draws from: its snapshot alone (R140). -/
def jobScene (sn : Snapshot) : Scene :=
  { w := sn.w, h := sn.h, ten := sn.ten, bg := if sn.layout.isEmpty then greyColour else le32 sn.layout 0xC, fonts := sn.fonts
    layers := List.zip (layersOf sn.layout) sn.layers }

/-- CTU_COMPOSE (R126, R147 to R151, R157): the next CTU of the tile's job in raster order. `badReads` names the layers and the blocks of
their sources whose read met an error tag. Without room nothing is sent. Items of a frame that has ended are read and discarded at once. -/
def execCtuCompose (tile : Fin 64) (badReads : List (Fin 64 × Nat)) (s : State) : Host.Outcome State Fault Refusal :=
  awake s <|
  match jobEngine s tile with
  | none => done s
  | some (g, j) =>
    let p := encPhys s tile
    let n := j.stream
    let sn := j.snap
    let cols := ctuCols sn.w
    let size := cols * ctuCols sn.h
    let i := j.nextCtu
    let cx := i % cols
    let cy := i / cols
    let bob : BobbinId := .ctu (ftile p) (flane (cy % 2))
    let hb : BobbinId := .hint (ftile p)
    let s := ((s.bobSrc bob).bobSrc hb).bobSrc (.frameDown (ftile p))
    let e := s.enc n
    let fr := jobFrame s p j
    let pixels := jobComposes j cols
    let last := decide (i + 1 = size)
    let room := match fr with
      | some f => composeRoom s p (cy % 2) f pixels last
      | none => discardRoom s p (cy % 2) pixels last
    if !room then done s
    else
      let c := composeCtu s (jobScene sn) badReads cx cy
      let subst := pixels && c.2.2
      let hint := jobHint e j cols size subst
      let mode := match fr with | some f => f.sealMode | none => e.crcMode
      let e1 := if pixels then
          { e with composed := put e.composed i (sealCrc mode (ctuMessage c.1 sn.ten sn.w sn.h cx cy)) } else e
      let j1 : Job := { j with nextCtu := i + 1, subst := if subst then j.subst ++ [i] else j.subst }
      let s1 := (if j.gone then s.freed else (s.freed).setEnc n e1).setEngine g { s.engine g with jobs := put (s.engine g).jobs tile j1 }
      let s2 := if subst then s1.compCount 1 else s1
      let s3 := if pixels then s2.compCount 2 c.2.1 else s2
      let s4 := match fr with
        | none => (s3.bobPass hb 1).bobPass bob (if pixels then 256 else 0)
        | some f =>
          let s' := (s3.setTile p { s3.tile p with frame := some { f with lastItem := s.clk.now } }).bobPush hb [hintItem hint]
          if pixels then s'.bobPush bob (blockItems c.1) else s'
      done (if last then s4.endJob p g tile j1 else s4)

/-! ### Frame end (R146) -/

/-- BATTEN_FRAME_END (R146): the oldest item of the frame Bobbin is the frame end of a job that has sent its last item. -/
def execBattenFrameEnd (tile : Fin 64) (ecc : Ecc) (s : State) : Host.Outcome State Fault Refusal :=
  awake s <|
  let fb : BobbinId := .frameUp (ftile (encPhys s tile))
  let s := s.bobDst fb
  match s.bobHead fb with
  | none => done s
  | some x =>
    match look s.batten.ended tile with
    | none => done s
    | some w =>
      if (jobEngine s tile).isSome then done s
      else
        let s0 := (s.bobDrop fb 1).readItem fb ecc
        let s1 : State := { s0 with batten := { s0.batten with ended := del s0.batten.ended tile } }
        if bitOf x.toNat 16 then
          done (if w.gone then s1 else s1.setEnc w.stream { (s1.enc w.stream) with carried := w.damage })
        else
          let c := ctuCols w.snap.w
          let size := c * ctuCols w.snap.h
          let cutAt := if bitOf x.toNat 17 then some (bits x.toNat 30 18) else none
          let kept := (List.range size).filter fun i =>
            ((match cutAt with | some k => decide (k ≤ i) | none => false) && (w.damage.contains i || inBand w.refCol w.refCount (i % c))) ||
              w.subst.contains i
          let s2 := if w.gone then s1
            else s1.setEnc w.stream { (s1.enc w.stream) with snap := some w.snap, carried := kept, uncoded := cutAt }
          done (s2.compCount 4)

end Sys2Proof.Machine
end

