-- ==== Sys2Proof/Machine/Motion.lean ====
section
/-! DEFINITION. What a lane reads of the reference pictures and how it predicts (R160, R169 to R176, R206, R211, R212, R233): reference
lists, padded samples, the search window and scope, the vectors that the sweep forbids, the exact hint's check, the CUs of a CTU. -/

namespace Sys2Proof.Machine

/-! ### References (R170, R233, R255, R256) -/

/-- Reference `j` at a position: the first slot at least `j` + 1 pictures old, else the oldest (R233). -/
def refSlot (e : Enc) (i j : Nat) : Option Slot :=
  match look e.table i with
  | none => none
  | some x => (x.slots.find? fun y => decide (j + 1 ≤ (e.serial - y.from_).toNat)).or x.slots.getLast?

/-- Its block. -/
def refBlockAt (s : State) (e : Enc) (i j : Nat) : Block :=
  match refSlot e i j with
  | some y => (s.pool.desc y.block).data
  | none => []
/-- Reference 0 of a position, whose table the current picture's begins as: the newest slot (R181, R233). -/
def refBlock (s : State) (e : Enc) (i : Nat) : Block := refBlockAt s e i 0

/-- Entries of reference list 0, and of list 1 in a B slice: the previously coded frame first, back in coding order to `REFS`. With no
valid reference a cold cycle predicts from the substitute as entry 0 (R170, R214). -/
def numRefs (f : Frame) (e : Enc) : Nat := max 1 (min f.refs e.refs.length)
def refLists (f : Frame) (e : Enc) : List (List (Word × BitVec 16)) :=
  let l := e.refs.take f.refs
  if f.sliceB then [l, l] else [l]

/-- A luma sample of reference `j`, padded beyond the picture (R172). -/
def refSample (s : State) (f : Frame) (e : Enc) (j : Nat) (x y : Int) : Nat :=
  let px := (min (max x 0) ((f.width : Int) - 1)).toNat
  let py := (min (max y 0) ((f.height : Int) - 1)).toNat
  sampleAt (refBlockAt s e (py / 64 * f.cols + px / 64) j) (64 * (py % 64) + px % 64)

/-- The items of a CTU as its block. -/
def itemsBlock (items : List (BitVec 256)) : Block :=
  items.flatMap fun x => (List.range 8).map fun k => BitVec.ofNat 32 (x.toNat / 2 ^ (32 * k))

/-! ### The area that a vector reads (R171, R172, R211). Vectors are in quarter luma samples. -/

/-- First and one past the last luma sample read along one axis, interpolation taps included: 3 before and 4 behind. -/
def tapLo (a : Int) (mv : Int) : Int := a + mv / 4 - (if mv % 4 = 0 then 0 else 3)
def tapHi (b : Int) (mv : Int) : Int := b + mv / 4 + (if mv % 4 = 0 then 0 else 4)
/-- One past the last chroma sample read along one axis, 2 taps behind a fractional position. -/
def chromaHi (b : Int) (mv : Int) : Int := b / 2 + mv / 8 + (if mv % 8 = 0 then 0 else 2)

/-- The area that a CU's vector reads lies in the 9 × 5 window of reference 0 (R171). -/
def inWindow (cols i : Nat) (c : Cu) (mx my : Int) : Bool :=
  let x0 : Int := 64 * ((i % cols : Nat) - 4 : Int)
  let y0 : Int := 64 * ((i / cols : Nat) - 2 : Int)
  decide (x0 ≤ tapLo c.x mx) && decide (tapHi (c.x + c.w) mx ≤ x0 + 576) &&
    decide (y0 ≤ tapLo c.y my) && decide (tapHi (c.y + c.h) my ≤ y0 + 320)

/-- An area reads the block at a position: what lies beyond the picture is padded from the samples at its edge (R172). -/
def areaReads (f : Frame) (x0 x1 y0 y1 : Int) (q : Nat) : Bool :=
  let col (x : Int) : Nat := (min (max x 0) ((f.width : Int) - 1)).toNat / 64
  let row (y : Int) : Nat := (min (max y 0) ((f.height : Int) - 1)).toNat / 64
  decide (col x0 ≤ q % f.cols) && decide (q % f.cols ≤ col (x1 - 1)) && decide (row y0 ≤ q / f.cols) && decide (q / f.cols ≤ row (y1 - 1))
/-- The area of a CU's vector reads it: 9 blocks at most for a fractional position, 4 for an integer one (R172). -/
def vectorReads (f : Frame) (c : Cu) (mx my : Int) (q : Nat) : Bool :=
  areaReads f (tapLo c.x mx) (tapHi (c.x + c.w) mx) (tapLo c.y my) (tapHi (c.y + c.h) my) q

/-- A CTU's in-picture part as one CU. -/
def wholeCu (f : Frame) (i : Nat) : Cu :=
  let x := 64 * (i % f.cols)
  let y := 64 * (i / f.cols)
  { x := x, y := y, w := ctuRight f.width (i % f.cols) - x, h := ctuBottom f.height (i / f.cols) - y, pred := .intra 0 0 }

/-- The blocks that a CTU's lane may read of a reference: its window, and those that the vectors of its hint cover: the exact vector, or
the search of ±32 × ±16 about it with its quarter samples (R171 to R173). -/
def readBlocks (f : Frame) (i : Nat) (h : Hint) : List Nat :=
  let c := f.cols
  let u := wholeCu f i
  let r : Int × Int := if h.kind = 2 then (0, 0) else (4 * 32 + 3, 4 * 16 + 3)
  let mx := 4 * h.mvx.toInt
  let my := 4 * h.mvy.toInt
  (List.range f.size).filter fun q =>
    (decide (q % c ≤ i % c + 4) && decide (i % c ≤ q % c + 4) && decide (q / c ≤ i / c + 2) && decide (i / c ≤ q / c + 2)) ||
      (decide (2 ≤ h.kind.toNat) && areaReads f (tapLo u.x (mx - r.1)) (tapHi (u.x + u.w) (mx + r.1)) (tapLo u.y (my - r.2))
        (tapHi (u.y + u.h) (my + r.2)) q)

/-- A cache of 8 KiB blocks takes blocks in; the oldest give way (the replacement is the model's choice, log entry 145). -/
def cacheFill (cap : Nat) (l xs : List Nat) : List Nat := (xs ++ l.filter fun b => !(xs.contains b)).take cap

/-- Blocks of reference 0 that a CTU's lane fetches enter the 1 MiB cache of the tile through the 32 MiB cache of its cluster
(R17, R160, R171). -/
def State.fetchRefs (s : State) (p : Nat) (f : Frame) (i : Nat) (h : Hint) : State :=
  let e := s.enc f.stream
  let bs := (readBlocks f i h).filterMap fun q => (refSlot e q 0).map (·.block)
  let t := s.tile p
  let k := encCluster p
  { (s.setTile p { t with cache := cacheFill 128 t.cache bs }) with
    caches := put s.caches k (cacheFill 4096 (lookD [] s.caches k) bs) }

/-- A vector of a CU that the Heddle sweep and lost references allow (R211, R256): a clean CTU predicts from a picture of its own
cycle, inside that picture's usable clean area, luma and chroma; no area touches a position with a lost slot. -/
def vectorAllowed (f : Frame) (e : Enc) (i : Nat) (c : Cu) (j : Nat) (mx my : Int) : Bool :=
  let clean := decide (i % f.cols < f.refCol)
  let usable : Int := (usableClean f.codec f.width f.cols (f.sweepK - 1 - j) f.sweepW : Nat)
  (!clean || (decide (j < f.sweepK) && decide (tapHi (c.x + c.w) mx ≤ usable) && decide (chromaHi (c.x + c.w) mx ≤ usable / 2))) &&
    !(e.table.any fun q => (q.2.slots.any (·.lost)) && vectorReads f c mx my q.1)

/-! ### The exact hint (R173) -/

/-- Luma SAD of a CU's source samples against reference `j` at an integer vector. -/
def lumaSad (s : State) (f : Frame) (e : Enc) (src : Block) (c : Cu) (j : Nat) (mx my : Int) : Nat :=
  sumNat ((List.range c.h).map fun y => sumNat ((List.range c.w).map fun x =>
    let a := sampleAt src (64 * ((c.y + y) % 64) + (c.x + x) % 64)
    let b := refSample s f e j (c.x + x + mx) (c.y + y + my)
    (a - b) + (b - a)))

/-- The one-point check of an exact hint (R173): S ≤ n q T / 16 with q = 2^((QP − 4)/6), times 4 for 10-bit streams, compared
exactly in sixth powers. A vector that the sweep forbids fails it. -/
def hintAccepted (s : State) (f : Frame) (e : Enc) (i : Nat) (h : Hint) (qp : Nat) (src : Block) : Bool :=
  let c := wholeCu f i
  let m := if f.ten then 4 else 1
  vectorAllowed f e i c 0 (4 * h.mvx.toInt) (4 * h.mvy.toInt) &&
    decide ((16 * lumaSad s f e src c 0 h.mvx.toInt h.mvy.toInt) ^ 6 * 2 ^ 4 ≤ (c.w * c.h * f.hintT * m) ^ 6 * 2 ^ qp)

/-! ### Rate and distortion (R169) -/

/-- The cube of λ at a QP, as a fraction: λ = 0.68 × 2^((QP − 12)/3) × 4^(d − 8) × `LAMBDA_SCALE`/16. -/
def lambdaCube (f : Frame) (qp : Nat) : Nat × Nat :=
  (17 ^ 3 * 2 ^ qp * (if f.ten then 64 ^ 2 else 1) * f.lambda ^ 3, 25 ^ 3 * 2 ^ 12 * 16 ^ 3)

/-- SAD + √λ × B of one candidate is at most that of another, exactly. -/
def costLe (f : Frame) (qp : Nat) (a b : Nat × Nat) : Bool :=
  let l := lambdaCube f qp
  if a.2 ≤ b.2 then decide (a.1 ≤ b.1) || decide ((a.1 - b.1) ^ 6 * l.2 ≤ l.1 * (b.2 - a.2) ^ 6)
  else decide (a.1 ≤ b.1) && decide (l.1 * (a.2 - b.2) ^ 6 ≤ (b.1 - a.1) ^ 6 * l.2)
/-- J = D + λ × B of one candidate is at most that of another, exactly. -/
def rdLe (f : Frame) (qp : Nat) (a b : Nat × Nat) : Bool :=
  let l := lambdaCube f qp
  if a.2 ≤ b.2 then decide (a.1 ≤ b.1) || decide ((a.1 - b.1) ^ 3 * l.2 ≤ l.1 * (b.2 - a.2) ^ 3)
  else decide (a.1 ≤ b.1) && decide (l.1 * (a.2 - b.2) ^ 3 ≤ (b.1 - a.1) ^ 3 * l.2)

/-- The first of the candidates with the least cost, each with its cost. -/
def least {α : Type} (le : Nat × Nat → Nat × Nat → Bool) : List (α × (Nat × Nat)) → Option (α × (Nat × Nat))
  | [] => none
  | x :: r => match least le r with
    | none => some x
    | some y => some (if le x.2 y.2 then x else y)
/-- Insert into a list in rising order of cost, and such a list. -/
def insertCost {α : Type} (le : Nat × Nat → Nat × Nat → Bool) (x : α × (Nat × Nat)) : List (α × (Nat × Nat)) → List (α × (Nat × Nat))
  | [] => [x]
  | y :: r => if le x.2 y.2 then x :: y :: r else y :: insertCost le x r
def byCost {α : Type} (le : Nat × Nat → Nat × Nat → Bool) (l : List (α × (Nat × Nat))) : List (α × (Nat × Nat)) :=
  l.foldr (insertCost le) []

/-! ### Motion search (R169, R171, R173). What it does where the rules leave it open is in log entry 160. -/

/-- What the search of a lane's CTU works on: the machine, its frame and stream, position, hint, QP, source samples, and the free value. -/
structure LaneCtx where
  s    : State
  f    : Frame
  e    : Enc
  i    : Nat
  hint : Hint
  qp   : Nat
  src  : Block
  free : Nat

/-- Place and size of a CU, for what its neighbours and context states decide. -/
def Cu.key (c : Cu) : List Int := [c.x, c.y, c.w, c.h]
/-- The vector predictors of a CU for a reference, at most 2. -/
def LaneCtx.predictors (k : LaneCtx) (c : Cu) (j : Nat) : List (Int × Int) := (Config.predictors k.free c.key j).take 2
/-- Bits of a vector: of its difference to the predictor that costs least. -/
def LaneCtx.vectorBits (k : LaneCtx) (c : Cu) (j : Nat) (v : Int × Int) : Nat :=
  match (k.predictors c j).map (fun p => Config.mvBits k.free (v.1 - p.1) (v.2 - p.2)) with
  | [] => Config.mvBits k.free v.1 v.2
  | b :: r => r.foldl min b

/-- A luma sample of reference `j` at a quarter-sample position: interpolated from 8 × 8 samples where it is fractional. -/
def LaneCtx.fracSample (k : LaneCtx) (j : Nat) (x y : Int) (fx fy : Nat) : Nat :=
  if fx = 0 ∧ fy = 0 then refSample k.s k.f k.e j x y
  else Config.interpolate k.f.codec fx fy ((List.range 64).map fun n => refSample k.s k.f k.e j (x + (n % 8 : Nat) - 3) (y + (n / 8 : Nat) - 3))
/-- Luma SAD of a CU against reference `j` at a vector in quarter samples. -/
def LaneCtx.sad (k : LaneCtx) (c : Cu) (j : Nat) (v : Int × Int) : Nat :=
  sumNat ((List.range c.h).map fun y => sumNat ((List.range c.w).map fun x =>
    let a := sampleAt k.src (64 * ((c.y + y) % 64) + (c.x + x) % 64)
    let b := k.fracSample j (c.x + x + v.1 / 4) (c.y + y + v.2 / 4) (v.1 % 4).toNat (v.2 % 4).toNat
    (a - b) + (b - a)))
/-- Luma SAD at quarter resolution, at a vector of whole samples of that resolution. -/
def LaneCtx.coarseSad (k : LaneCtx) (c : Cu) (v : Int × Int) : Nat :=
  sumNat ((List.range (c.h / 4)).map fun y => sumNat ((List.range (c.w / 4)).map fun x =>
    let a := Config.quarterSample ((List.range 16).map fun n =>
      sampleAt k.src (64 * ((c.y + 4 * y + n / 4) % 64) + (c.x + 4 * x + n % 4) % 64))
    let b := Config.quarterSample ((List.range 16).map fun n =>
      refSample k.s k.f k.e 0 (c.x + 4 * x + (n % 4 : Nat) + 4 * v.1) (c.y + 4 * y + (n / 4 : Nat) + 4 * v.2))
    (a - b) + (b - a)))

/-- The vectors of a grid about a centre: ±`rx` × ±`ry` steps, each of `step`. -/
def around (c : Int × Int) (rx ry : Nat) (step : Int) : List (Int × Int) :=
  (List.range (2 * ry + 1)).flatMap fun y => (List.range (2 * rx + 1)).map fun x =>
    (c.1 + step * ((x : Int) - rx), c.2 + step * ((y : Int) - ry))
/-- The integer position of a vector. -/
def whole (v : Int × Int) : Int × Int := (4 * (v.1 / 4), 4 * (v.2 / 4))

/-- A vector may be tried for a CU (R171 to R173, R211): the sweep and lost slots allow it, and in reference 0 its taps stay in the window; or,
for a hint, its blocks are fetched, which an integer vector in the window does not ask for. -/
def LaneCtx.may (k : LaneCtx) (c : Cu) (j : Nat) (v : Int × Int) : Bool :=
  vectorAllowed k.f k.e k.i c j v.1 v.2 &&
    (decide (j ≠ 0) || inWindow k.f.cols k.i c v.1 v.2 ||
      (decide (2 ≤ k.hint.kind.toNat) && !(inWindow k.f.cols k.i c (whole v).1 (whole v).2)))

/-- The vectors of a list that may be tried, with SAD and bits. -/
def LaneCtx.weigh (k : LaneCtx) (c : Cu) (j : Nat) (l : List (Int × Int)) : List ((Int × Int) × (Nat × Nat)) :=
  (l.filter (k.may c j)).map fun v => (v, (k.sad c j v, k.vectorBits c j v))
/-- The best of them. -/
def LaneCtx.pick (k : LaneCtx) (c : Cu) (j : Nat) (l : List (Int × Int)) : Option ((Int × Int) × (Nat × Nat)) :=
  least (costLe k.f k.qp) (k.weigh c j l)

/-- The integer vectors of reference 0 (R171, R173): about the hint as search centre; the coarse full search with ±8 about its best 3, the zero
vector and the predictors; or, in mode 2, zero vector, predictors and hint alone. -/
def LaneCtx.scope0 (k : LaneCtx) (c : Cu) : List (Int × Int) :=
  let preds := (k.predictors c 0).map whole
  let hv : Int × Int := (4 * k.hint.mvx.toInt, 4 * k.hint.mvy.toInt)
  if 2 ≤ k.hint.kind.toNat then (if k.f.search = 2 then [hv] else around hv 32 16 4) ++ (0, 0) :: preds
  else if k.f.search = 2 then (0, 0) :: preds
  else
    let r : Nat × Nat := if k.f.search = 1 then (16, 8) else (64, 32)
    let coarse := ((around (0, 0) r.1 r.2 1).filter fun v => k.may c 0 (16 * v.1, 16 * v.2)).map fun v =>
      (v, (k.coarseSad c v, k.vectorBits c 0 (16 * v.1, 16 * v.2)))
    let best := ((byCost (costLe k.f k.qp) coarse).take 3).map fun q => (16 * q.1.1, 16 * q.1.2)
    (best ++ (0, 0) :: preds).flatMap fun v => around v 8 8 4
/-- The best vector of reference 0: the best integer one, refined over its quarter samples. -/
def LaneCtx.search0 (k : LaneCtx) (c : Cu) : Option ((Int × Int) × (Nat × Nat)) :=
  (k.pick c 0 (k.scope0 c)).bind fun q => k.pick c 0 (q.1 :: around q.1 3 3 1)
/-- The best vector of a further reference: ±16 × ±16 about the best of reference 0 and the predictors; in mode 2 the predictors. -/
def LaneCtx.searchJ (k : LaneCtx) (c : Cu) (j : Nat) : Option ((Int × Int) × (Nat × Nat)) :=
  let preds := k.predictors c j
  if k.f.search = 2 then k.pick c j preds
  else k.pick c j ((((k.search0 c).map (·.1)).toList ++ preds).flatMap fun v => around (whole v) 16 16 4)
/-- The best vector of each reference of the list, with its entry. -/
def LaneCtx.vectors (k : LaneCtx) (c : Cu) : List Mv :=
  (List.range (numRefs k.f k.e)).filterMap fun j =>
    (if j = 0 then k.search0 c else k.searchJ c j).map fun q => { ref := j, x := q.1.1, y := q.1.2 }

/-! ### CUs (R168, R173, R175, R176, R211) -/

/-- A CU cut into rows of some heights, into columns of some widths, into quarters. -/
def cutRows (c : Cu) : List Nat → List Cu
  | [] => []
  | k :: r => { c with h := k } :: cutRows { c with y := c.y + k } r
def cutCols (c : Cu) : List Nat → List Cu
  | [] => []
  | k :: r => { c with w := k } :: cutCols { c with x := c.x + k } r
def cutQuad (c : Cu) : List Cu := (cutRows c [c.h / 2, c.h / 2]).flatMap fun r => cutCols r [c.w / 2, c.w / 2]

/-- The split that the picture's boundary forces: in VVC a binary one where only the lower or only the right boundary crosses, so that the
example of section 06 gets CUs of 64 × 32, 64 × 16 and 64 × 8; else a quad split (DEDUCED, log entry 146). -/
def boundarySplit (f : Frame) (c : Cu) : Option (List Cu) :=
  let right := decide (f.width < c.x + c.w)
  let below := decide (f.height < c.y + c.h)
  if !right && !below then none
  else if isVvc f.codec && !right then some (cutRows c [c.h / 2, c.h / 2])
  else if isVvc f.codec && !below then some (cutCols c [c.w / 2, c.w / 2])
  else some (cutQuad c)
/-- The CUs of an area with no split but those. -/
def boundaryCus (f : Frame) : Nat → Cu → List Cu
  | 0, c => if c.x < f.width ∧ c.y < f.height then [c] else []
  | n + 1, c =>
    if f.width ≤ c.x ∨ f.height ≤ c.y then []
    else match boundarySplit f c with
      | none => [c]
      | some l => l.flatMap (boundaryCus f n)
/-- A CTU as one CU of 64 × 64, and its largest CUs. -/
def ctuCu (f : Frame) (i : Nat) : Cu := { x := 64 * (i % f.cols), y := 64 * (i / f.cols), w := 64, h := 64, pred := .intra 0 0 }
def largestCus (f : Frame) (i : Nat) : List Cu := boundaryCus f 3 (ctuCu f i)

/-- Motion of the two lists. -/
abbrev Motion := Option Mv × Option Mv
/-- The motion that a standard derives, as entries and vectors. -/
def readMotion (q : Option (Nat × Int × Int) × Option (Nat × Int × Int)) : Motion :=
  let mv (v : Nat × Int × Int) : Mv := { ref := v.1, x := v.2.1, y := v.2.2 }
  (q.1.map mv, q.2.map mv)
/-- The merge candidates of a CU: at most 6 in VVC, 5 in HEVC; and VVC's with a merge vector difference, 64 (R168). -/
def mergeCands (f : Frame) (free : Nat) (c : Cu) : List Motion :=
  ((Config.mergeList free c.key).take (if isVvc f.codec then 6 else 5)).map readMotion
def mmvdCands (f : Frame) (free : Nat) (c : Cu) : List Motion :=
  if isVvc f.codec then ((Config.mmvdList free c.key).take 64).map readMotion else []
/-- How given motion is coded: by the lowest merge index whose candidate has exactly it, else by AMVP (R173, R176). -/
def motionHow (f : Frame) (free : Nat) (c : Cu) (m : Motion) : MvCoding :=
  match (mergeCands f free c).findIdx? fun q => decide (q = m) with
  | some k => .merge k
  | none => .amvp

/-- The skip motion (R176): the zero vector to entry 0 of list 0, and in a B slice of list 1. -/
def skipMotion (f : Frame) : Motion := (some ⟨0, 0, 0⟩, if f.sliceB then some ⟨0, 0, 0⟩ else none)
/-- The CUs of a skip-run CTU (R175, R176): no residual, and where no merge candidate has the motion, no skip CU either. -/
def skipCus (f : Frame) (i free : Nat) : List Cu :=
  (largestCus f i).map fun c =>
    let how := motionHow f free c (skipMotion f)
    { c with pred := .inter (skipMotion f).1 (skipMotion f).2 how, skip := decide (how ≠ .amvp) }
/-- AMVP skip-motion CUs (R176). -/
def amvpCount (l : List Cu) : Nat := (l.filter fun c => !c.skip).length

/-- The intra modes and reference lines that a CU may use (R168, R211): the standard's, line 0 alone but in VVC below a CTU's first row; for a band
CU whose above-right reference samples reach the clean edge, DC or horizontal with line 0 only. -/
def intraModes (f : Frame) (i : Nat) (c : Cu) : List (Nat × Nat) :=
  let horizontal := if isVvc f.codec then 18 else 10
  if !f.first && f.refresh i && decide (cleanEdge f.width f.sweepK f.sweepW < c.x + 2 * c.w) then [(1, 0), (horizontal, 0)]
  else if isVvc f.codec then
    (List.range 67).map (fun m => (m, 0)) ++
      (if c.y % 64 = 0 then [] else (List.range 66).flatMap fun m => [(m + 1, 1), (m + 1, 2)])
  else (List.range 35).map fun m => (m, 0)

/-- A choice of coding: its CUs, with distortion and bits. -/
abbrev Choice := List Cu × (Nat × Nat)
/-- A CU's distortion and bits in some coding. -/
def LaneCtx.cost (k : LaneCtx) (c : Cu) : Nat × Nat :=
  let mv (v : Option Mv) : List Int := match v with | some m => [1, m.ref, m.x, m.y] | none => [0, 0, 0, 0]
  let how : List Int := match c.pred with
    | .intra m l => [0, m, l]
    | .inter a b .amvp => 1 :: 0 :: 0 :: (mv a ++ mv b)
    | .inter a b (.merge n) => 1 :: 1 :: (n : Int) :: (mv a ++ mv b)
    | .inter a b (.mmvd n) => 1 :: 2 :: (n : Int) :: (mv a ++ mv b)
  Config.codingCost k.free (c.key ++ [if c.skip then 1 else 0] ++ how)
def LaneCtx.asChoice (k : LaneCtx) (c : Cu) : Choice := ([c], k.cost c)
/-- CUs side by side. -/
def joinChoice (l : List Choice) : Choice := (l.flatMap (·.1), (sumNat (l.map (·.2.1)), sumNat (l.map (·.2.2))))

/-- The intra codings of a CU that are weighed: the SATD of every allowed mode ranks them, and how many go on is free (R162). -/
def LaneCtx.intraChoices (k : LaneCtx) (c : Cu) : List Choice :=
  let ranked : List ((Nat × Nat) × (Nat × Nat)) := byCost (fun a b => decide (a.1 ≤ b.1)) ((intraModes k.f k.i c).map fun m =>
    (m, (Config.satd k.free (c.key ++ [(m.1 : Int), (m.2 : Int)]), 0)))
  (ranked.take (1 + Config.freeNat k.free % 67)).map fun m => k.asChoice { c with pred := .intra m.1.1 m.1.2 }

/-- Motion that the sweep and lost slots allow, from entries of the list (R173, R211). -/
def LaneCtx.allowed (k : LaneCtx) (c : Cu) (m : Motion) : Bool :=
  let ok (v : Option Mv) : Bool := match v with
    | some v => decide (v.ref < numRefs k.f k.e) && vectorAllowed k.f k.e k.i c v.ref v.x v.y
    | none => true
  (m.1.isSome || m.2.isSome) && (m.2.isNone || k.f.sliceB) && ok m.1 && ok m.2

/-- The inter codings of a CU that are weighed (R168): merge candidates with and without residual, VVC's with a vector difference, AMVP from each
reference, and in a B slice from the best vectors of two. -/
def LaneCtx.interChoices (k : LaneCtx) (c : Cu) : List Choice :=
  let with_ (l : List Motion) (how : Nat → MvCoding) : List Choice := (l.zipIdx.filter fun q => k.allowed c q.1).flatMap fun q =>
    let u : Cu := { c with pred := .inter q.1.1 q.1.2 (how q.2) }
    [k.asChoice u, k.asChoice { u with skip := true }]
  let vs := k.vectors c
  let pairs : List Motion := if k.f.sliceB then vs.flatMap fun a => vs.map fun b => (some a, some b) else []
  with_ (mergeCands k.f k.free c) .merge ++ with_ (mmvdCands k.f k.free c) .mmvd ++
    ((vs.map (fun v => ((some v, none) : Motion)) ++ pairs).filter (k.allowed c)).map fun m =>
      k.asChoice { c with pred := .inter m.1 m.2 .amvp }

/-- The best coding of a CU without a split; an HEVC CU also as two prediction units (R168). -/
def LaneCtx.cuChoice (k : LaneCtx) (intra : Bool) (c : Cu) : Option Choice :=
  let le := rdLe k.f k.qp
  let halves (p : Parts) (l : List Cu) : List Choice :=
    let bs := l.filterMap fun u => least le ((k.interChoices { u with parts := p }).filter fun x => x.1.all fun w => !w.skip)
    if bs.length = 2 then [joinChoice bs] else []
  least le (k.intraChoices c ++ (if intra then [] else
    k.interChoices c ++ (if isVvc k.f.codec then [] else
      halves .rows (cutRows c [c.h / 2, c.h / 2]) ++ halves .cols (cutCols c [c.w / 2, c.w / 2]))))

/-- The splits of a CU that the tools give (R168), each with the multi-type depth left in it: quarters down to 8 before any other split; in VVC
halves and, with the middle half as large again, thirds, to a depth of 2 and a side of 8. -/
def treeSplits (f : Frame) (c : Cu) (depth : Nat) : List (List Cu × Nat) :=
  (if c.w = c.h ∧ 16 ≤ c.w ∧ depth = 2 then [(cutQuad c, 2)] else []) ++
  (if isVvc f.codec ∧ 0 < depth then
    (if 16 ≤ c.h then [(cutRows c [c.h / 2, c.h / 2], depth - 1)] else []) ++
    (if 16 ≤ c.w then [(cutCols c [c.w / 2, c.w / 2], depth - 1)] else []) ++
    (if 32 ≤ c.h then [(cutRows c [c.h / 4, c.h / 2, c.h / 4], depth - 1)] else []) ++
    (if 32 ≤ c.w then [(cutCols c [c.w / 4, c.w / 2, c.w / 4], depth - 1)] else [])
   else [])

/-- The best coding of an area (R169): of its CU without a split, and of each split's parts; the boundary's split is forced. A split to the
deepest level may be dropped for the bound (R163). -/
def LaneCtx.treeChoice (k : LaneCtx) (intra : Bool) : Nat → Cu → Nat → Option Choice
  | 0, c, _ => if c.x < k.f.width ∧ c.y < k.f.height then k.cuChoice intra c else none
  | n + 1, c, depth =>
    if k.f.width ≤ c.x ∨ k.f.height ≤ c.y then none
    else match boundarySplit k.f c with
      | some l => some (joinChoice (l.filterMap fun u => k.treeChoice intra n u depth))
      | none =>
        let splits := (treeSplits k.f c depth).filter fun q =>
          !(q.1.all fun u => (treeSplits k.f u q.2).isEmpty) || Config.reached k.free (c.key ++ (q.1.map fun u => (u.h : Int)))
        least (rdLe k.f k.qp) ((k.cuChoice intra c).toList ++
          splits.map fun q => joinChoice (q.1.filterMap fun u => k.treeChoice intra n u q.2))

/-- The CUs of a lane-coded CTU (R173): all intra for `REFRESH` or a reference that could not be read; the largest CUs with the hint's
vector when the check accepts it; else the coding of least cost, each CU intra or inter. -/
def laneCus (s : State) (f : Frame) (e : Enc) (i : Nat) (h : Hint) (qp : Nat) (src : Block) (intra accepted : Bool) (free : Nat) :
    List Cu :=
  if accepted then
    let m : Motion := (some ⟨0, 4 * h.mvx.toInt, 4 * h.mvy.toInt⟩, none)
    (largestCus f i).map fun c => { c with pred := .inter m.1 m.2 (motionHow f free c m) }
  else
    let k : LaneCtx := { s := s, f := f, e := e, i := i, hint := h, qp := qp, src := src, free := free }
    ((k.treeChoice intra 5 (ctuCu f i) 2).map (·.1)).getD []

/-- The adaptive loop filter's choice for a CTU's luma (R162, R168): off, or one of the 16 fixed filter sets, on the unfiltered reconstruction:
free. HEVC has none. -/
def alfChoice (f : Frame) (free : Nat) : Nat := if isVvc f.codec then Config.freeNat free % 17 else 0

end Sys2Proof.Machine
end

