-- ==== Sys2Proof/Machine/Encode.lean ====
section
/-! DEFINITION. Encode tiles and frame slots: lanes, skip runs, entropy coding, finals, seals, commit, abandonment, memory errors on
references, slot clock and dispatch, stream start and stop (R160 to R197, R204 to R220, R230 to R257). -/

namespace Sys2Proof.Machine

/-! ### NAL units (R216, R192, R201) -/

/-- A 2-byte NAL unit header of layer 0 and temporal sub-layer 0. -/
def nalHeader (codec typ : Nat) : Bytes := if isVvc codec then [0, BitVec.ofNat 8 (typ * 8 + 1)] else [BitVec.ofNat 8 (typ * 2), 1]

/-- Emulation prevention; `z` counts the zero bytes before. -/
def emulate : Nat → Bytes → Bytes
  | _, [] => []
  | z, b :: r =>
    if 2 ≤ z ∧ b.toNat ≤ 3 then 3 :: b :: emulate (if b = 0 then 1 else 0) r
    else b :: emulate (if b = 0 then z + 1 else 0) r

/-- The payload of the frame-tag SEI (R192). -/
def frameTag (slot : Word) (mode : Nat) : Bytes :=
  [0x7D, 0x1C, 0x3A, 0x0E, 0x5E, 0x11, 0x4A, 0x6B, 0x9C, 0x2D, 0x88, 0x60, 0x4C, 0x59, 0xA5, 0xE1] ++ le 4 slot.toNat ++
    [BitVec.ofNat 8 mode, 0, 0, 0]

/-- The frame-tag SEI as a NAL unit: prefix SEI, one user-data-unregistered message (R192). -/
def frameTagNal (codec : Nat) (slot : Word) (mode : Nat) : Bytes :=
  nalHeader codec (if isVvc codec then 23 else 39) ++ emulate 0 ([5, 24] ++ frameTag slot mode ++ [0x80])

/-- The levels of a standard in rising order, as `general_level_idc` (PRESUMED from the standards, log entry 147). -/
def levels (codec : Nat) : List Nat :=
  if isVvc codec then [16, 32, 35, 48, 51, 64, 67, 80, 83, 86, 96, 99, 102] else [30, 60, 63, 90, 93, 120, 123, 150, 153, 156, 180, 183, 186]
/-- The level signalled: the lowest that covers the picture size, the sample rate and the buffer model (R167, R201). -/
def levelOf (s : State) (n : Nat) (e : Enc) (f : Frame) : Nat :=
  let luma := f.width * f.height
  ((levels f.codec).find? fun l => Config.levelCovers f.codec l luma (luma * 27000000 / e.grid.1) &&
    decide (fld s 0x8001 n 0x0A ≤ Config.levelMaxRate f.codec l) && decide (modelSize s n e.grid.1 ≤ Config.levelMaxCpb f.codec l)).getD ((levels f.codec).getLast?.getD 0)

/-- Pictures of the cycle of a frame. -/
def Frame.pics (f : Frame) : Nat := cyclePics f.cols f.sweepW
/-- A frame starts a cycle: the first picture, or position 0. -/
def Frame.k0 (f : Frame) : Bool := f.first || f.sweepK == 0

/-- Elements of the sequence parameter set that the spec fixes (R167, R168, R201, R212, R213): picture format, level, tools. -/
def spsElements (f : Frame) (level : Nat) : List (String × Nat) :=
  let d := if f.ten then 10 else 8
  [("chroma_format_idc", 1), ("ctu_size", 64), ("pic_width_in_luma_samples", f.width), ("pic_height_in_luma_samples", f.height),
   ("bit_depth", d), ("level_idc", level), ("hrd_parameters_present_flag", 0), ("min_coding_block_size", 8),
   ("sample_adaptive_offset_enabled_flag", 1), ("scaling_list_enabled_flag", 0), ("temporal_mvp_enabled_flag", 0),
   ("transform_skip_enabled_flag", 1), ("max_dec_pic_buffering", f.refs + 1)] ++
  (if isVvc f.codec then
    [("profile", 1), ("sps_qtbtt_dual_tree_intra_flag", 0), ("sps_max_mtt_hierarchy_depth", 2), ("sps_mrl_enabled_flag", 1),
     ("log2_transform_skip_max_size_minus2", 0), ("sps_mip_enabled_flag", 0), ("sps_isp_enabled_flag", 0), ("sps_cclm_enabled_flag", 0), ("max_num_merge_cand", 6),
     ("sps_mmvd_enabled_flag", 1), ("sps_sbtmvp_enabled_flag", 0), ("sps_affine_enabled_flag", 0), ("sps_gpm_enabled_flag", 0),
     ("sps_ciip_enabled_flag", 0), ("sps_bdof_enabled_flag", 0), ("sps_dmvr_enabled_flag", 0), ("sps_smvd_enabled_flag", 0),
     ("sps_bcw_enabled_flag", 0), ("sps_amvr_enabled_flag", 0), ("max_transform_size", 64), ("sps_mts_enabled_flag", 0),
     ("sps_lfnst_enabled_flag", 0), ("sps_sbt_enabled_flag", 0), ("sps_bdpcm_enabled_flag", 0), ("sps_joint_cbcr_enabled_flag", 0),
     ("sps_palette_enabled_flag", 0), ("sps_ibc_enabled_flag", 0), ("sps_act_enabled_flag", 0), ("sps_dep_quant_enabled_flag", 1),
     ("sps_sign_data_hiding_enabled_flag", 0), ("sps_lmcs_enabled_flag", 0), ("sps_alf_enabled_flag", 1), ("sps_ccalf_enabled_flag", 0),
     ("sps_entropy_coding_sync_enabled_flag", 1), ("sps_entry_point_offsets_present_flag", 0), ("sps_subpic_info_present_flag", 0),
     ("sps_ref_pic_resampling_enabled_flag", 0), ("sps_gdr_enabled_flag", 1), ("sps_virtual_boundaries_enabled_flag", 1),
     ("sps_virtual_boundaries_present_flag", 0)]
   else
    [("profile", if f.ten then 2 else 1), ("amp_enabled_flag", 0), ("strong_intra_smoothing_enabled_flag", 1), ("pcm_enabled_flag", 0),
     ("min_transform_size", 4), ("max_transform_size", 32), ("max_transform_hierarchy_depth_inter", 1), ("max_transform_hierarchy_depth_intra", 1)])

/-- Elements of the picture parameter set that the spec fixes (R168): one quantisation group per CTU, wavefronts, no tiles. -/
def ppsElements (f : Frame) : List (String × Nat) :=
  [("cu_qp_delta_enabled_flag", 1), ("quantisation_groups_per_ctu", 1), ("tiles", 0), ("weighted_pred", 0)] ++
  (if isVvc f.codec then [] else
    [("entropy_coding_sync_enabled_flag", 1), ("sign_data_hiding_enabled_flag", 1), ("dependent_slice_segments_enabled_flag", 1),
     ("transquant_bypass_enabled_flag", 0), ("log2_max_transform_skip_block_size_minus2", 0)])

/-- The reference pictures that a slice header names (R213). With no valid reference the encoder predicts from its substitute as entry 0, and a
display from its own picture (R214): the picture before this one, by POC (DESIGN CHOICE, log entry 194). -/
def signalledLists (f : Frame) (e : Enc) : List (List (Word × BitVec 16)) :=
  if e.refs.isEmpty then List.replicate (if f.sliceB then 2 else 1) [(e.poc - 1, e.serial - 1)] else refLists f e

/-- Elements of a slice header (R168, R170, R212, R213): POC, slice type, the reference pictures by POC, and in VVC the picture header; in
HEVC the segment of a later row is a dependent one. -/
def sliceElements (f : Frame) (e : Enc) (row : Nat) : List (String × Nat) :=
  if row ≠ 0 then [("dependent_slice_segment_flag", 1), ("slice_segment_address", row * f.cols)]
  else
    [("pic_order_cnt", e.poc.toNat), ("slice_type", if f.first then 2 else if f.sliceB then 0 else 1)] ++
    (if f.first then [] else (signalledLists f e).flatMap fun l => [("num_ref_idx_active", l.length)] ++ l.map fun r => ("ref_poc", r.1.toNat)) ++
    (if isVvc f.codec then
      let vb := !f.first && decide (f.sweepK + 1 < f.pics)
      [("picture_header_in_slice_header_flag", 1), ("ph_alf_cb_enabled_flag", 0), ("ph_alf_cr_enabled_flag", 0), ("ph_gdr_pic_flag", b2n (!f.first && f.sweepK == 0))] ++
      (if !f.first && f.sweepK == 0 then [("ph_recovery_poc_cnt", f.pics - 1)] else []) ++
      [("ph_virtual_boundaries_present_flag", b2n vb)] ++
      (if vb then [("ph_num_ver_virtual_boundaries", 1),
        ("ph_virtual_boundary_pos_x_minus1", cleanEdge f.width f.sweepK f.sweepW / 8 - 1), ("ph_num_hor_virtual_boundaries", 0)] else [])
     else [("dependent_slice_segment_flag", 0)] ++ (if f.first then [] else [("five_minus_max_num_merge_cand", 0)]))

/-- A NAL unit of a type whose content is a syntax structure of the standard with some values of its elements. -/
def nalOf (codec typ : Nat) (name : String) (elements : List (String × Nat)) : Bytes :=
  nalHeader codec typ ++ Config.syntaxBytes name elements

/-- The NAL units before the slices, in order (R216): access unit delimiter and parameter sets, which `HDR_PS` writes at a cycle start. -/
def paramNals (f : Frame) (level : Nat) : List Bytes :=
  let c := f.codec
  if !f.k0 then []
  else if isVvc c then
    [nalOf c 20 "access_unit_delimiter" [("aud_irap_or_gdr_flag", 1)], nalOf c 15 "seq_parameter_set" (spsElements f level),
     nalOf c 16 "pic_parameter_set" (ppsElements f)]
  else
    [nalOf c 32 "video_parameter_set" [("level_idc", level), ("hrd_parameters_present_flag", 0)],
     nalOf c 33 "seq_parameter_set" (spsElements f level), nalOf c 34 "pic_parameter_set" (ppsElements f)]
/-- Recovery-point SEI and frame tag, which `HDR_SEI` writes. -/
def seiNals (f : Frame) : List Bytes :=
  let c := f.codec
  (if !(isVvc c) && f.k0 && !f.first then
    [nalOf c 39 "recovery_point" [("recovery_poc_cnt", f.pics - 1), ("exact_match_flag", 1), ("broken_link_flag", 0)]] else []) ++
  [frameTagNal c f.slot f.sealMode]

/-- Type of a picture's slice NAL units (R209, R213): IDR_N_LP, GDR_NUT, TRAIL. -/
def sliceType (codec : Nat) (first k0 : Bool) : Nat :=
  if isVvc codec then (if first then 8 else if k0 then 10 else 0) else if first then 20 else 1

/-- The opened slice NAL unit of a row: its header and slice header. -/
def openSlice (f : Frame) (e : Enc) (row : Nat) : Bytes :=
  nalOf f.codec (sliceType f.codec f.first (f.sweepK == 0)) "slice_header" (sliceElements f e row)

/-- Append bytes to the open NAL unit of the slice Bobbin. -/
def appendOpen : List NalOut → Bytes → List NalOut
  | [], _ => []
  | [x], b => [if x.closed then x else { x with data := x.data ++ b }]
  | x :: r, b => x :: appendOpen r b
/-- Close the open NAL unit. -/
def closeOpen : List NalOut → Bool → List NalOut
  | [], _ => []
  | [x], last => [{ x with closed := true, last := last }]
  | x :: r, last => x :: closeOpen r last

/-! ### The way to the slice Bobbin (R31, R33, R179, R220). The spec gives the 256-bit items no layout: a NAL unit begins a new item, each
holds 32 bytes of it, little end first (DESIGN CHOICE, log entry 190). -/

/-- Items of a NAL unit that can enter: the whole ones, and the last as it closes. -/
def NalOut.whole (x : NalOut) : Nat := if x.closed then (x.data.length + 31) / 32 else x.data.length / 32
/-- One of them. -/
def NalOut.item (x : NalOut) (k : Nat) : BitVec 256 := BitVec.ofNat 256 (leNat ((x.data.drop (32 * k)).take 32))
/-- Those not yet written. -/
def NalOut.fresh (x : NalOut) : List (BitVec 256) := (List.range (x.whole - x.entered)).map fun k => x.item (x.entered + k)
def SliceOut.fresh (o : SliceOut) : List (BitVec 256) := o.nals.flatMap NalOut.fresh
/-- How many. -/
def SliceOut.freshCount (o : SliceOut) : Nat := sumNat (o.nals.map fun x => x.whole - x.entered)
/-- All are written. -/
def SliceOut.enter (o : SliceOut) : SliceOut := { o with nals := o.nals.map fun x => { x with entered := x.whole } }

/-- What a tile's coder hands on is written into its slice Bobbin; what finds no space the tile holds (R27). -/
def State.feedSlice (s : State) (p : Nat) : State :=
  let t := s.tile p
  (s.setTile p { t with out := t.out.enter }).bobPush (.slice (ftile p)) t.out.fresh

/-- What the coder sees of the slice Bobbin: the items that it may produce, one beyond the space, unless it holds one already; and the bytes
that wait before it, which the row hold buffer keeps (R27, R179). -/
structure Outlet where
  room : Nat
  back : Nat
deriving DecidableEq, Repr
def outletOf (s : State) (p : Nat) : Outlet :=
  let v := s.bob (.slice (ftile p))
  { room := if v.held.isEmpty then v.space (.slice (ftile p)) + 1 else 0, back := 32 * v.held.length }

/-! ### Entropy coder (R166, R174 to R179) -/

/-- Next column of a row to be coded. -/
def Frame.next (f : Frame) (y : Nat) : Nat := lookD 0 f.ecNext y
/-- Coded bits of a row so far. -/
def Frame.rowBits (f : Frame) (y : Nat) : Nat :=
  sumNat (f.ctus.map fun p => if p.1 / f.cols = y ∧ p.2.coded = true then p.2.bits else 0)

/-- Bytes that the row hold buffer keeps: those of the row after the open one, the picture's slice data until the header commit, and what
waits before a full slice Bobbin (R179, R305). -/
def Frame.holding (f : Frame) (o : Outlet) : Nat := f.held.length + sumNat (f.early.map fun x => x.data.length) + o.back

/-- The coder may take the next CTU of a row: the open row while the slice Bobbin has room, or, before the header commit, the row hold
buffer; the row after it past the synchronisation point while the row hold buffer has room (R166, R179, R305). -/
def Frame.rowOpen (f : Frame) (t : Tile) (o : Outlet) (y : Nat) : Bool :=
  decide (y < f.rows) && decide (f.next y < f.cols) && t.treadle.stalled.isEmpty &&
    (if y = f.rowsDone then (if f.committed then decide (t.out.freshCount < o.room) else decide (f.holding o < 262144))
     else decide (y = f.rowsDone + 1) && decide (min (if isVvc f.codec then 1 else 2) f.cols ≤ f.next f.rowsDone) &&
       decide (f.holding o < 262144))

/-- The next CTU of a row, if the coder may take it. -/
def Frame.nextCtu (f : Frame) (t : Tile) (o : Outlet) (y : Nat) : Option (Nat × FrameCtu) :=
  if f.rowOpen t o y then
    let i := y * f.cols + f.next y
    (look f.ctus i).map fun c => (i, c)
  else none

/-- The slice data's NAL units: on their way to the packetizer, or kept until the header commit (R305). -/
def sliceNals (t : Tile) (f : Frame) : List NalOut := if f.committed then t.out.nals else f.early
def setSliceNals (t : Tile) (f : Frame) (l : List NalOut) : Tile × Frame :=
  if f.committed then ({ t with out := { t.out with nals := l } }, f) else (t, { f with early := l })

/-! Events (R301). -/

/-- An event enters Treadle's queue of 64; while it is full, its unit stalls with it. -/
def Treadle.raise (r : Treadle) (ev : Word) : Treadle :=
  if r.events.length < 64 ∧ r.stalled = [] then { r with events := r.events ++ [ev] } else { r with stalled := r.stalled ++ [ev] }
/-- An event of a type with its fields. -/
def eventWord (type fields : Nat) : Word := BitVec.ofNat 32 (type * 2 ^ 28 + fields % 2 ^ 28)
/-- Code of a class, and the class of a code. -/
def classCode : CtuClass → Nat
  | .refresh => 0
  | .exact => 1
  | .other => 2
def codeClass (n : Nat) : CtuClass := if n = 0 then .refresh else if n = 1 then .exact else .other
/-- The event of a lane-coded CTU that is entropy-coded. -/
def ctuEvent (cls : CtuClass) (qp n : Nat) : Word := eventWord 4 (n % 2 ^ 17 + classCode cls * 2 ^ 17 + qp % 64 * 2 ^ 19)
def Tile.raise (t : Tile) (ev : Word) : Tile := { t with treadle := t.treadle.raise ev }

/-- Code one CTU: its bits are a free value; the row's whole bytes leave. A skip-run CTU has the CUs of R175 and R176. -/
def codeOne (t : Tile) (f : Frame) (y i : Nat) (c : FrameCtu) (free : Nat) : Tile × Frame :=
  let n := Config.ctuBits free
  let acc := f.rowBits y
  let b := slice (Config.nalBytes free) 0 ((acc + n) / 8 - acc / 8)
  let here := decide (y = f.rowsDone)
  let skip := decide (c.path = some .skip)
  let r := if here then setSliceNals t f (appendOpen (sliceNals t f) b) else (t, { f with held := f.held ++ b })
  let t1 : Tile := { r.1 with
    treadle := { r.1.treadle with estimates := r.1.treadle.estimates.filter (·.1 ≠ i) }
    skipCtus := if skip then t.skipCtus + 1 else t.skipCtus }
  let f1 := r.2
  ((match c.path with
    | some (.lane cls qp _) => t1.raise (ctuEvent cls qp n)
    | _ => t1),
   { f1 with
      ctus := put f.ctus i { c with coded := true, bits := n, cus := if skip then skipCus f i (free + 1) else c.cus }
      ecNext := put f.ecNext y (f.next y + 1)
      bits := f.bits + n
      skipBits := if skip then f.skipBits + n else f.skipBits
      skips := if skip then f.skips + 1 else f.skips
      bytes := if here then f.bytes + b.length else f.bytes })

/-- Code every lane-coded or mid-grey CTU whose turn has come. `n` bounds the steps. -/
def drain : Nat → Tile → Frame → Outlet → Nat → Tile × Frame × Nat
  | 0, t, f, _, k => (t, f, k)
  | n + 1, t, f, o, k =>
    let ready (y : Nat) : Option (Nat × FrameCtu) := (f.nextCtu t o y).filter fun c =>
      c.2.settled && decide (c.2.path ≠ some .skip)
    match ready f.rowsDone, ready (f.rowsDone + 1) with
    | some c, _ => let r := codeOne t f f.rowsDone c.1 c.2 k
                   drain n r.1 r.2 o (k + 1)
    | none, some c => let r := codeOne t f (f.rowsDone + 1) c.1 c.2 k
                      drain n r.1 r.2 o (k + 1)
    | none, none => (t, f, k)

/-- Write a tile's frame back, having coded what can be coded and handed it on. -/
def State.putFrame (s : State) (p : Nat) (t : Tile) (f : Frame) : State :=
  let s1 := s.bobSrc (.slice (ftile p))
  let r := drain f.size t f (outletOf s1 p) s1.clk.free
  State.feedSlice { (s1.setTile p { r.1 with frame := some r.2.1 }) with clk := { s1.clk with free := r.2.2 } } p

/-- The coder of a tile goes on where room has come back: in its slice Bobbin, or in Treadle's event queue (R27, R301, R343). -/
def State.resumeCoder (s : State) (p : Nat) : State :=
  match (s.tile p).frame with
  | some f => s.putFrame p (s.tile p) f
  | none => (s.bobSrc (.slice (ftile p))).feedSlice p

/-! ### References (R233, R255, R256) -/

/-- References declared lost (R256): a cold cycle to come, counted in the record. -/
def Enc.declareLost (e : Enc) : Enc :=
  { e with
    refs := [], coldNext := true, cold := true, refsLost := e.refsLost + 1, crcUnknown := true
    state := if e.state = .running then .cold else e.state }

/-- References declared lost (R256): a substitute in every entry, every other slot released, a cold cycle to come. -/
def State.loseRefs (s : State) (m : Master) (n : Nat) : State :=
  let e := s.enc n
  let r := s.substTable m n false (encN s n) 0
  let tab := r.1.map fun p => (p.1, { p.2 with forceIntra := false })
  let s1 := e.table.foldl (fun s q => s.releaseSlots m q.2.slots) r.2
  s1.setEnc n { e.declareLost with table := tab }

/-- More than C lost slots at once loses the references (R256). -/
def State.checkLost (s : State) (m : Master) (n : Nat) : State :=
  let lost := sumNat ((s.enc n).table.map fun q => (q.2.slots.filter (·.lost)).length)
  if encC s n < lost then s.loseRefs m n else s

/-- A slot of the entry at a position cannot be used (R255): its block could not be read or is poisoned, or its generation is not the
descriptor's. The block is poisoned and released, in the last case neither; a lost slot names the substitute; the owner is charged. -/
def State.loseSlot (s : State) (m : Master) (n i k : Nat) : State :=
  let e := s.enc n
  match look e.table i with
  | none => s
  | some x =>
    match x.slots[k]? with
    | none => s
    | some y =>
      let d := s.pool.desc y.block
      let stale := decide (d.gen ≠ y.gen)
      let s1 := if stale then s else (s.setDesc y.block { d with poisoned := true }).releaseBlock m y.block y.gen
      let q := s1.substSlot m n i true y.from_
      let s2 := q.2.setEnc n { (q.2.enc n) with
        table := put e.table i { x with slots := x.slots.set k q.1, forceIntra := true, crcValid := false }
        lostBlocks := e.lostBlocks + 1 }
      (((s2.poolCount 0x0F).chargeTo d.owner).contained 0x01 .read m d.addr).checkLost m n

/-- A block-table entry could not be read (R255): rewritten with one lost slot; the old blocks stay held until an audit; the stream is
charged. -/
def State.loseEntry (s : State) (m : Master) (n i : Nat) : State :=
  let q := s.substSlot m n i true 0
  let e := q.2.enc n
  let s1 := q.2.setEnc n { e with
    table := put e.table i { slots := [q.1], crc := 0, crcValid := false, forceIntra := true }
    lostBlocks := e.lostBlocks + 1 }
  (((s1.poolCount 0x0F).chargeTo (.stream (BitVec.ofNat 16 n))).contained 0x01 .read m 0).checkLost m n

/-- Place in its entry of the slot that reference `j` is at a position (R233). -/
def refPlace (e : Enc) (i j : Nat) : Option Nat :=
  (look e.table i).bind fun x =>
    (x.slots.findIdx? fun y => decide (j + 1 ≤ (e.serial - y.from_).toNat)).or (if x.slots.isEmpty then none else some (x.slots.length - 1))

/-- Slots that a lane's CTU may read and cannot use as the pool stands (R255): positions and places in their entries. -/
def unusable (s : State) (f : Frame) (e : Enc) (i : Nat) (h : Hint) : List (Nat × Nat) :=
  ((readBlocks f i h).flatMap fun q => (List.range (numRefs f e)).filterMap fun j =>
    match refSlot e q j, refPlace e q j with
    | some y, some k =>
      if (s.pool.desc y.block).poisoned || decide ((s.pool.desc y.block).gen ≠ y.gen) then some (q, k) else none
    | _, _ => none).eraseDups

/-! ### Lanes (R161 to R165, R173, R303) -/

def Frame.lane (f : Frame) (l : Nat) : Lane := if l = 0 then f.lane0 else f.lane1
def Frame.setLane (f : Frame) (l : Nat) (v : Lane) : Frame := if l = 0 then { f with lane0 := v } else { f with lane1 := v }

/-- CTUs of a lane that wait with their items, in raster order: not started, not settled. -/
def Frame.waiting (f : Frame) (l : Nat) : List Nat :=
  f.ctus.filterMap fun p => if p.2.path.isNone ∧ (p.1 / f.cols) % 2 = l then some p.1 else none

/-- The wavefront allows a CTU (R165). -/
def Frame.waveOk (f : Frame) (i : Nat) : Bool :=
  let x := i % f.cols
  let y := i / f.cols
  y == 0 || (List.range (min (x + 2) f.cols)).all fun k =>
    match look f.ctus ((y - 1) * f.cols + k) with
    | some c => c.settled
    | none => false

/-- Keep or drop the 256 items of each waiting CTU of a lane, in order. -/
def keepItems {α : Type} : List Bool → List α → List α
  | [], l => l
  | k :: r, l => if k then l.take 256 ++ keepItems r (l.drop 256) else keepItems r (l.drop 256)

/-- Discard the items of some waiting CTUs. -/
def State.dropItems (s : State) (p : Nat) (f : Frame) (gone : Nat → Bool) : State :=
  (List.range 2).foldl (fun s l =>
    let b : BobbinId := .ctu (ftile p) (flane l)
    s.setBob b ((s.bob b).strike s.clk.now (keepItems ((f.waiting l).map fun i => !(gone i)) (s.bob b).items))) s

/-- Discard the items behind those of the waiting CTUs of each lane (R184). -/
def State.trimItems (s : State) (p : Nat) (f : Frame) : State :=
  (List.range 2).foldl (fun s l =>
    let b : BobbinId := .ctu (ftile p) (flane l)
    s.setBob b ((s.bob b).strike s.clk.now ((s.bob b).items.take (256 * (f.waiting l).length)))) s

/-- Discard the 256 items that follow those of the waiting CTUs of a lane. -/
def State.discardNext (s : State) (p : Nat) (f : Frame) (l : Nat) : State :=
  let b : BobbinId := .ctu (ftile p) (flane l)
  let k := 256 * (f.waiting l).length
  s.setBob b ((s.bob b).strike s.clk.now ((s.bob b).items.take k ++ (s.bob b).items.drop (k + 256)))

/-- Lanes that hold a CTU which has not started and is now cut let it go. -/
def Frame.freeLanes (f : Frame) : Frame :=
  let fix (l : Lane) : Lane := match l.ctu with
    | some i => match look f.ctus i with
      | some c => if c.path.isSome ∧ l.items = [] then { l with ctu := none, cleared := false } else l
      | none => l
    | none => l
  { f with lane0 := fix f.lane0, lane1 := fix f.lane1 }

/-- A skipped CTU. -/
def toSkip (c : FrameCtu) : FrameCtu := { c with path := some .skip, settled := true }
def toGrey (c : FrameCtu) : FrameCtu := { c with path := some .grey, settled := true }

/-- Cut a picture at a raster index for rate (R206): CTUs not yet started from there on take the skip-run path, refresh CTUs
apart; their items are discarded. A picture is cut at most once. -/
def State.cutRate (s : State) (p : Nat) (t : Tile) (f : Frame) (c : Nat) : State :=
  let gone (i : Nat) : Bool := decide (c ≤ i) && !(f.refresh i) &&
    (match look f.ctus i with | some x => x.path.isNone | none => false)
  let f1 : Frame := { f with
    cut := { f.cut with rate := some c }
    ctus := f.ctus.map fun q => if gone q.1 then (q.1, toSkip q.2) else q }
  (s.dropItems p f gone).putFrame p t f1.freeLanes

/-- Rows that the lanes have open when the request of CTU `i` comes: its own, and those with a CTU started whose row is not wholly
settled (R206). -/
def Frame.openRows (f : Frame) (i : Nat) : List Nat :=
  (List.range f.rows).filter fun y => y == i / f.cols ||
    ((f.ctus.any fun q => decide (q.1 / f.cols = y) && (match q.2.path with | some (.lane _ _ _) => true | _ => false)) &&
      (List.range f.cols).any fun x => match look f.ctus (y * f.cols + x) with | some c => !c.settled | none => true)

/-- Where a rate cut begins when the request of CTU `i` meets it (R206): at the first CTU not started of the lower open row, or of the
only one. -/
def Frame.cutIndex (f : Frame) (i : Nat) : Nat :=
  let y := (f.openRows i).getLast?.getD (i / f.cols)
  y * f.cols + ((List.range f.cols).find? fun x =>
    match look f.ctus (y * f.cols + x) with | some c => c.path.isNone | none => true).getD f.cols

/-- A contained error of a tile (R184, R186): kind 0x0B. -/
def State.tileError (s : State) (p : Nat) (bit : Nat) : State :=
  (s.setTile p { s.tile p with err := (s.tile p).err ||| BitVec.ofNat 4 (2 ^ bit) }).contained 0x0B .none (mEnc p) 0

/-- The tile's frame, if it has one and serves. -/
def frameOf (s : State) (tile : Nat) : Option (Nat × Tile × Frame) :=
  let p := encPhys s tile
  if p = 0xFF then none else (s.tile p).frame.map fun f => (p, s.tile p, f)

/-- Cut at a corrupt hint (R184): from there on refresh CTUs are mid-grey and all others skipped, whatever their hints; every
item of them is discarded. -/
def State.cutHint (s : State) (p : Nat) (t : Tile) (f : Frame) (c : Nat) : State :=
  let gone (i : Nat) : Bool := decide (c ≤ i)
  let fill : Tab FrameCtu := (List.range f.size).foldl (fun acc i =>
    if i < c then acc
    else
      let x := lookD { hint := ⟨1, f.refresh i, decide (i + 1 = f.size), false, BitVec.ofNat 7 (i % f.cols),
        BitVec.ofNat 7 (i / f.cols), 0, 0, 0⟩ } acc i
      if x.path.isSome then acc else put acc i (if f.refresh i then toGrey x else toSkip x)) f.ctus
  let greys := (fill.filter fun q => decide (q.2.path = some .grey)).length - (f.ctus.filter fun q => decide (q.2.path = some .grey)).length
  let f1 : Frame := { f with cut := { f.cut with hint := some c }, ctus := fill, substituted := true }
  let t1 : Tile := { t with treadle := { t.treadle with cutReport := some c } }
  ((((s.dropItems p f gone).putFrame p t1 f1.freeLanes).count 0x5011 8).count 0x5011 0xA greys).tileError p 1

/-- A CTU row begins as its first hint record reaches the tile: the block-table entries of the row after the next are read, those of rows 0 and
1 at the take (R252; when a row begins the spec leaves open: DESIGN CHOICE, log entry 155). -/
def State.rowEntries (s : State) (p : Nat) (f : Frame) (y : Nat) : State :=
  let now := f.badRows.filter fun i => i / f.cols == y + 2
  let s1 := now.foldl (fun s i => s.loseEntry (mEnc p) f.stream i) s
  match (s1.tile p).frame with
  | some f1 => s1.setTile p { s1.tile p with frame := some { f1 with badRows := f1.badRows.filter fun i => !(now.contains i) } }
  | none => s1

/-- One hint record reaches the tile's queues (R125, R149, R184): the next in raster order, or the frame is cut there when it carries an
error tag or names another position. Behind a cut, items of a CTU that no lane codes are discarded (R206). -/
def State.takeHint (s : State) (p : Nat) (x : BitVec 256) (tagged : Bool) : State :=
  match (s.tile p).frame with
  | none => s
  | some f0 =>
    let h := itemHint x
    let i := f0.hints
    let s := if i % f0.cols = 0 then s.rowEntries p f0 (i / f0.cols) else s
    let f := ((s.tile p).frame).getD f0
    let f1 : Frame := { f with hints := i + 1 }
    if f.size ≤ i then s
    else if f.cut.hint.isSome then (s.setTile p { s.tile p with frame := some f1 }).trimItems p f1
    else if tagged || h.x.toNat ≠ i % f.cols || h.y.toNat ≠ i / f.cols then
      (s.setTile p { s.tile p with frame := some f1 }).cutHint p (s.tile p) f1 i
    else
      let a := (look f.ctus i).getD (arrive f i h)
      let t := s.tile p
      let s1 := s.setTile p { (if h.last then t.raise (eventWord 6 0) else t) with frame := some { f1 with ctus := put f.ctus i a } }
      if itemsFollow f.full h && a.path.isSome then s1.discardNext p f ((i / f.cols) % 2) else s1

/-- The composed-seal items reach the tile once all of them are readable (R158). `e` is how the worst of their rows reads (R30); what the tile
does with a tagged one the spec does not say: it takes it as delivered (DESIGN CHOICE, log entry 143). -/
def State.takeSeal (s : State) (p : Nat) (e : Ecc) : State :=
  let b : BobbinId := .frameDown (ftile p)
  match (s.tile p).frame with
  | none => s
  | some f =>
    let k := if f.sealMode = 2 then 2 else 1
    if f.sealVal.isSome || decide (s.bobAvail b < k) then s
    else ((s.setTile p { s.tile p with frame := some { f with
      sealVal := some (sealOf (((s.bob b).items.take k).map (·.1))) } }).bobDrop b k).readItem b e

/-- A tile with a frame reads its hint Bobbin and its frame Bobbin as items become readable. `e` is how the row of the first hint record
reads, `sealItem` how those of the composed-seal items do (R30). -/
def State.pollTile (s : State) (tile : Nat) (e : Ecc := .clean) (sealItem : Ecc := .clean) : State :=
  let p := encPhys s tile
  if p = 0xFF ∨ (s.tile p).frame.isNone then s
  else
    let hb : BobbinId := .hint (ftile p)
    let s1 := s.bobDst hb
    let xs : List (BitVec 256 × Bool) := (s1.bob hb).items.take (s1.bobAvail hb)
    let s2 : State := s1.bobDrop hb xs.length
    let s3 : State := match xs with
      | [] => s2
      | x :: r => r.foldl (fun s y => s.takeHint p y.1 y.2)
          ((s2.readItem hb e).takeHint p x.1 (x.2 || decide (e = Ecc.uncorrectable)))
    (s3.bobDst (.frameDown (ftile p))).takeSeal p sealItem

/-- Nanoseconds of a CTU slot: 8,192 cycles at the nominal 2.0 GHz (R161, R162). -/
def ctuSlotNs : Nat := 4096

/-- Stage 8 of a lane holds (R164, R177, R179): its queue at the entropy coder has two CTUs, or its row's bytes wait on a full row hold
buffer. -/
def Frame.handOffHeld (f : Frame) (o : Outlet) (lane i : Nat) : Bool :=
  decide (2 ≤ (f.ctus.filter fun q => (q.1 / f.cols) % 2 == lane && q.2.settled && !q.2.coded &&
    (match q.2.path with | some (.lane _ _ _) => true | _ => false)).length) ||
  ((i / f.cols != f.rowsDone || !f.committed) && decide (262144 ≤ f.holding o))

/-- An entry of a cluster's stream log (R421). -/
def State.streamLog (s : State) (tile stream : Nat) (slot : Word) (abandoned truncated valid : Bool) : State :=
  let c := tile / 8
  let l := lookD [] s.intc.logs c
  if 1024 ≤ l.length then { s with intc := { s.intc with logLost := sat32 s.intc.logLost } }
  else
    let lo : Word := BitVec.ofNat 32 (2 ^ 31 + b2n abandoned * 2 ^ 30 + b2n truncated * 2 ^ 29 + b2n valid * 2 ^ 28 + stream)
    State.settleInts { s with intc := { s.intc with logs := put s.intc.logs c (l ++ [(lo, slot)]) } }

/-- A stream's slice data that is still to become packets goes on under the number that it has come to (R217, R247, R341): its NAL units are
marked, and the number is kept beside them. -/
def State.keepTail (s : State) (n : Nat) : State :=
  let mark (x : NalOut) : NalOut := if x.stream = n then { x with tail := true } else x
  let any := s.tiles.any fun q => (q.2.out.nals ++ q.2.out.collected).any fun x => decide (x.stream = n) && !x.tail
  if any then
    { s with
      tiles := s.tiles.map fun q => (q.1, { q.2 with out := { q.2.out with nals := q.2.out.nals.map mark, collected := q.2.out.collected.map mark } })
      trans := { s.trans with tails := put s.trans.tails n (s.enc n).rtpSeq } }
  else s

/-- Frame jobs of a released stream go on for nothing (R146, R247). -/
def State.orphanJobs (s : State) (n : Nat) : State :=
  { s with batten := { s.batten with
    engines := s.batten.engines.map fun q =>
      (q.1, { q.2 with jobs := q.2.jobs.map fun j => if j.2.stream = n then (j.1, { j.2 with gone := true }) else j })
    ended := s.batten.ended.map fun q => if q.2.stream = n then (q.1, { q.2 with gone := true }) else q } }

/-- Release all that a stopped stream holds (R247); a restart starts anew (R245). -/
def State.releaseStream (s : State) (n : Nat) : State :=
  let e := s.enc n
  let s := (s.keepTail n).orphanJobs n
  let s1 := (e.table.flatMap fun q => q.2.slots).foldl (fun s x => s.releaseBlock mStore x.block x.gen) s
  let s2 := s1.releaseSlots mStore e.frames
  let s3 : State := { s2 with encs := del s2.encs n }
  if e.restart && encValid s3 n then s3.setEnc n { state := .waitPool } else s3

/-- A stream's row no longer valid, or to begin anew (R247, R245): a pending slot is dropped; a picture in coding completes first. -/
def State.stopStream (s : State) (n : Nat) (restart : Bool) : State :=
  match look s.encs n with
  | none => s
  | some e =>
    let s1 := s.setEnc n { e with pending := none, stopping := true, restart := restart }
    if e.coding.isSome then s1 else s1.releaseStream n

/-- What follows a picture's end for its stream: a stop that waited. -/
def State.afterPicture (s : State) (n : Nat) : State := if (s.enc n).stopping then s.releaseStream n else s

/-- Offset of the seal records in the frame they share with the 4 KiB context record (R193, R247). -/
def sealOffset : Nat := 4096 + 32 * (Config.sealPlace % 121)

/-- Bytes of the record that Treadle has stored and that no field of the context holds: each stands while the field's own byte does (R291). -/
def patchBytes (b : Bytes) (o : Tab (Byte × Byte)) : Bytes :=
  o.foldl (fun b q => if b[q.1]? = some q.2.1 then b.set q.1 q.2.2 else b) b

/-- The fields of the first 0x1C0 bytes of a stream's context record (R248). -/
def recordBase (s : State) (n : Nat) (e : Enc) : Bytes :=
  let addr (k : Nat) : Nat := match e.frames[k]? with
    | some x => (s.pool.desc x.block).addr
    | none => 0
  let tabFrames := (encN s n * 64 + 8191) / 8192
  let st : Nat := match e.state with | .stopped => 0 | .waitPool => 1 | .starting => 2 | .running => 3 | .cold => 4
  let r := e.rate
  le 2 n ++ le 1 st ++ le 1 (b2n e.crcUnknown + 2 * b2n e.nextFull) ++ le 4 e.slotNext.toNat ++ le 4 e.slotLast.toNat ++
  le 4 e.poc.toNat ++ le 2 e.serial.toNat ++ le 1 e.sweepK ++ le 1 (b2n e.firstPic + 2 * b2n e.cold) ++ le 1 e.sweepW ++ [0] ++
  le 2 e.rtpRec.toNat ++ le 8 (addr 1) ++ le 8 (addr (1 + tabFrames)) ++ le 8 (addr 0 + sealOffset) ++
  List.replicate 16 0 ++
  le 4 e.pictures.toNat ++ le 4 e.missBusy.toNat ++ le 4 e.missOver.toNat ++ le 4 e.missPool.toNat ++ le 4 e.refsLost.toNat ++
  le 4 e.lostBlocks.toNat ++ List.replicate 40 0 ++
  le 4 r.fullness ++ le 4 r.aRefresh ++ le 4 r.aHint ++ le 4 r.aOther ++ le 4 r.header ++ le 2 r.skipBits ++ le 1 r.qpLast ++
  List.replicate 41 0 ++
  ((List.range 68).flatMap fun y => let c := lookD (0, 0) r.rows y
                                    le 1 c.1 ++ le 1 c.2) ++ List.replicate 56 0 ++
  ((List.range 4).flatMap fun k => match e.refs[k]? with
    | some q => le 4 q.1.toNat ++ le 2 q.2.toNat ++ le 2 1
    | none => List.replicate 8 0) ++ List.replicate 32 0

/-- The first 0x1C0 bytes of a stream's context record. -/
def recordHead (s : State) (n : Nat) (e : Enc) : Bytes := patchBytes (recordBase s n e) e.recBytes

/-- The primary mirrors a record after its commit (R490). -/
def State.mirrorRecord (s : State) (n : Nat) : State :=
  if s.pair.role = .primary ∧ (s.pair.halfA || s.pair.halfB) = true then s.emit (.gavon 4 (recordHead s n (s.enc n))) else s

/-- End a frame with `ABANDONED` = 1 (R186, R220, R200): its blocks go, the serial stays, the POC advances, a flush of its slice output is
requested; the bytes already sent count in the buffer model. A first picture that is abandoned leaves the stream without one, so the next is an
IDR picture again, of the next POC (DESIGN CHOICE, log entry 218). -/
def State.abandon (s : State) (tile p : Nat) (f : Frame) : State :=
  let n := f.stream
  let e := s.enc n
  let t := s.tile p
  let s1 := f.written.foldl (fun s b => s.releaseBlock (mEnc p) b (s.pool.desc b).gen) s
  let s2 : State := { s1 with pool := { s1.pool with reserved := s1.pool.reserved - f.reserved } }
  let s3 := s2.setEnc n { e with
    coding := none, poc := e.poc + 1, auSent := 0, rate := { e.rate with fullness := e.rate.fullness + 8 * e.auSent } }
  let s4 := s3.setTile p { t with
    frame := none, frames := t.frames + 1
    out := { t.out with flush := t.out.flush ++ [(n, f.slot)] }
    treadle := { t.treadle with estimates := [], cutReport := none, laneReq := [], abandon := !t.treadle.stopped } }
  let s5 := (((((s4.bobSrc (.frameUp (ftile p))).bobFlush (.ctu (ftile p) 0)).bobFlush (.ctu (ftile p) 1)).bobFlush (.hint (ftile p))).bobFlush (.frameDown (ftile p))).bobPush
    (.frameUp (ftile p)) [frameEndItem n true f.firstUncoded f.slot]
  let s6 := ((s5.count 0x5021 7).compCount 5).streamLog tile n f.slot true f.firstUncoded.isSome false
  (s6.contained 0x0B .none (mEnc p) 0).afterPicture n

/-- No lane holds a CTU that it has started. -/
def Frame.drained (f : Frame) : Bool := f.lane0.items.isEmpty && f.lane1.items.isEmpty
/-- A picture whose Treadle has met a fault ends once its lanes have drained (R186, R302). -/
def State.abandonDrained (s : State) (tile p : Nat) : State :=
  match (s.tile p).frame with
  | some f => if f.draining && f.drained then s.abandon tile p f else s
  | none => s

/-! ### Finals, seals and commit (R181 to R193, R234) -/

/-- Neighbours of a CTU within the picture: the 3 × 3 square, and those that share an edge. -/
def Frame.square (f : Frame) (i : Nat) : List Nat :=
  (List.range f.size).filter fun j =>
    decide (j % f.cols ≤ i % f.cols + 1) && decide (i % f.cols ≤ j % f.cols + 1) &&
    decide (j / f.cols ≤ i / f.cols + 1) && decide (i / f.cols ≤ j / f.cols + 1)
def Frame.edges (f : Frame) (i : Nat) : List Nat :=
  (f.square i).filter fun j => j != i && (j % f.cols == i % f.cols || j / f.cols == i / f.cols)

/-- Coded with samples of its own: by a lane, or mid-grey. -/
def isLaneCoded (c : FrameCtu) : Bool :=
  match c.path with
  | some (.lane _ _ _) => true
  | some .grey => true
  | _ => false
def Frame.coded (f : Frame) (i : Nat) : Bool := match look f.ctus i with | some c => isLaneCoded c | none => false
def Frame.settledAt (f : Frame) (i : Nat) : Bool := match look f.ctus i with | some c => c.settled | none => false
/-- A CTU that the filter unit decides on: lane-coded, or a skip-run CTU beside a lane-coded one (R182). -/
def Frame.atStake (f : Frame) (i : Nat) : Bool := f.coded i || (f.edges i).any f.coded

/-- The block of a CTU coded as uniform mid-grey (R184): 512, or 128 in an 8-bit stream, but for the samples next to an edge that it shares
with another CTU, which deblocking may have changed: 8 luma and 4 chroma samples deep, free values. -/
def greyRecon (f : Frame) (i free : Nat) : Block :=
  let v := if f.ten then 512 else 128
  let top := decide (i < f.cols)
  let left := decide (i % f.cols = 0)
  let right := decide (i % f.cols + 1 = f.cols)
  let bottom := decide (i / f.cols + 1 = f.rows)
  let inside (n d x y : Nat) : Bool :=
    (left || decide (d ≤ x)) && (right || decide (x + d < n)) && (top || decide (d ≤ y)) && (bottom || decide (y + d < n))
  packSamples ((List.range 6144).map fun k =>
    let keep := if k < 4096 then inside 64 8 (k % 64) (k / 64) else inside 32 4 (k % 32) ((k - 4096) % 1024 / 32)
    if keep then v else Config.freeSample free k % (if f.ten then 1024 else 256))

/-- The prune of R234: slots less than `refs` − 1 pictures old, and the newest of the others. -/
def pruneSlots (c : BitVec 16) (refs : Nat) (l : List Slot) : List Slot × List Slot :=
  if l.length ≤ 1 then (l, [])
  else
    let young (x : Slot) : Bool := decide ((c - x.from_).toNat + 1 < refs)
    let keep := l.filter young
    match l.filter fun x => !(young x) with
    | [] => (keep, [])
    | y :: r => (keep ++ [y], r)

/-- Insert the frame's written blocks into the table with their CRCs, and prune (R190, R234): the new table and the slots to
release. -/
def commitTable (s : State) (f : Frame) (e : Enc) : Tab Entry × List Slot :=
  let ins := f.ctus.foldl (fun tab q =>
    match q.2.block with
    | none => tab
    | some b =>
      let d := s.pool.desc b
      let old := lookD ({} : Entry) tab q.1
      put tab q.1 ⟨⟨b, d.gen, false, e.serial⟩ :: old.slots,
        sealCrc f.sealMode (ctuMessage d.data f.ten f.width f.height (q.1 % f.cols) (q.1 / f.cols)), true, false⟩) e.table
  (ins.map fun q => (q.1, { q.2 with slots := (pruneSlots e.serial f.refs q.2.slots).1 }),
   ins.flatMap fun q => (pruneSlots e.serial f.refs q.2.slots).2)

/-- Everything of a frame is done: every hint record read, every CTU settled, coded, final, every row closed, and the composed seal is with
the tile (R183, R184). -/
def Frame.ready (f : Frame) : Bool :=
  f.sealVal.isSome && decide (f.hints = f.size) && decide (f.rowsDone = f.rows) && f.committed && f.finished.isNone &&
  (List.range f.size).all fun i => match look f.ctus i with
    | some c => c.settled && c.coded && (c.final || !(f.atStake i))
    | none => false

/-- The seal record of a frame whose last CTU is final (R193). `crc` is how the stored CTU CRCs read: a failed one is recomputed from its
block; if that fails too the seal is not valid. -/
def sealRecordOf (s : State) (f : Frame) (e : Enc) (crc : Ecc) : SealRec :=
  let ct := commitTable s f e
  let laneN := (f.ctus.filter fun q => match q.2.path with | some (.lane _ _ _) => true | _ => false).length
  let skipN := (f.ctus.filter fun q => decide (q.2.path = some .skip)).length
  let fringeN := (f.ctus.filter fun q => q.2.fringe).length
  let seal0 := frameSeal f.sealMode 0 f.slot.toNat ((List.range f.size).map fun i => (lookD ({} : Entry) ct.1 i).crc)
  { frame := f.slot, sealMode := BitVec.ofNat 8 f.sealMode
    sealValid := (ct.1.all fun q => q.2.crcValid) && decide (crc ≠ .uncorrectable), composedValid := f.cut.hint.isNone
    truncated := f.firstUncoded.isSome, substituted := f.substituted || decide (crc ≠ .clean), laneCtus := BitVec.ofNat 16 laneN
    recon := BitVec.ofNat 64 seal0, composed := BitVec.ofNat 64 (f.sealVal.getD 0), skipCtus := BitVec.ofNat 16 skipN
    fringeCtus := BitVec.ofNat 16 fringeN, bytes := BitVec.ofNat 32 f.bytes }

/-- Continuity fields of a stream after a coded picture (R209, R213, R214, R233, R234). -/
def Enc.after (e : Enc) (f : Frame) (tab : Tab Entry) : Enc :=
  let pics := cyclePics f.cols f.sweepW
  let k' := if f.first then 0 else if f.sweepK + 1 < pics then f.sweepK + 1 else 0
  let stillCold := e.cold && (e.coldNext || (!f.first && k' != 0))
  { e with
    table := tab, serial := e.serial + 1, poc := e.poc + 1, slotLast := f.slot, sweepK := if e.coldNext then 0 else k'
    sweepW := f.sweepW, firstPic := false, cold := stillCold, crcUnknown := !(tab.all fun q => q.2.crcValid)
    refs := if e.coldNext then [] else ((e.poc, e.serial) :: e.refs).take 4
    coding := none, state := if stillCold then .cold else .running, pictures := e.pictures + 1 }

/-- A finished frame ends (R128, R234, R421): the blocks are committed and the entries pruned, the record written, the unused reservation
returned, the frame-end item sent with the bits that Treadle gives it. -/
def State.closeFrame (s : State) (tile p : Nat) (f : Frame) (truncated valid : Bool) (item : BitVec 256) : State :=
  let n := f.stream
  let e := s.enc n
  let t := s.tile p
  let ct := commitTable s f e
  let s2 := (s.setEnc n (e.after f ct.1)).releaseSlots (mEnc p) ct.2
  let s3 : State := { s2 with pool := { s2.pool with reserved := s2.pool.reserved - f.reserved } }
  let s4 := s3.setTile p { t with
    frame := none, frames := t.frames + 1
    treadle := { t.treadle with estimates := [], cutReport := none, laneReq := [] } }
  let s5 := (s4.bobSrc (.frameUp (ftile p))).bobPush (.frameUp (ftile p)) [item]
  (((s5.count 0x5021 1).mirrorRecord n).streamLog tile n f.slot false truncated valid).afterPicture n

/-! ### Abandonment (R186, R220) -/

/-- The tile waits for one of the frame's items (R186): none is left in a Bobbin or in its queues, no lane works, and the seal has not come. -/
def Frame.awaitsItem (f : Frame) (s : State) (p : Nat) : Bool :=
  f.sealVal.isNone && f.drained && (f.waiting 0).isEmpty && (f.waiting 1).isEmpty &&
    (s.bob (.hint (ftile p))).items.isEmpty && (s.bob (.frameDown (ftile p))).items.isEmpty

/-! ### The slot clock and dispatch (R249 to R253) -/

/-- A regrow of an encode tile waits for its frame end alone (R470, R471). -/
def swapDue (s : State) (p : Nat) : Bool :=
  s.faults.regrows.any fun r => r.tested && decide (r.unit = .encTile (Fin.ofNat 72 p))

/-- A tile is idle and may take (R251, R302, R309): no frame, powered, Treadle runs, no patch waits, and it does not hold an item that its
frame Bobbin had no space for (R27). -/
def tileIdle (s : State) (p : Nat) : Bool :=
  let t := s.tile p
  t.frame.isNone && t.powered && !t.treadle.stopped && t.treadle.patch != 3 && !t.treadle.owed && (s.bob (.frameUp (ftile p))).held.isEmpty

/-- The pending stream an idle tile takes (R251): of its cluster, allowed by `TILE_MASK`, earliest deadline, lower number. -/
def takeCandidate (s : State) (tile : Nat) : Option (Nat × Enc × PendSlot) :=
  let c := s.encs.filterMap fun q => match q.2.pending with
    | some d => if q.1 % 8 = tile / 8 ∧ bitOf (fld s 0x8001 q.1 0x13) (tile % 8) = true ∧ q.2.coding.isNone ∧ q.2.stopping = false
        then some (q.1, q.2, d) else none
    | none => none
  minBy (fun x => x.2.2.boundary + x.2.1.grid.1) c

/-- Fields of a context record whose 32-byte words could not be read take their values at stream start, `SWEEP_FLAGS` apart, and the next
frame is sent in full (R248, R255). -/
def Enc.damaged (e : Enc) (bad : List Nat) : Enc :=
  let hit (w : Nat) : Bool := bad.contains w
  let e1 : Enc := if hit 2 then { e with pictures := 0, missBusy := 0, missOver := 0, missPool := 0, refsLost := 0, lostBlocks := 0 } else e
  let r0 : RateState := {}
  let r1 : RateState := if hit 4 then
      { e1.rate with
        fullness := r0.fullness, aRefresh := r0.aRefresh, aHint := r0.aHint, aOther := r0.aOther, header := r0.header
        skipBits := r0.skipBits, qpLast := r0.qpLast }
    else e1.rate
  { e1 with
    rate := { r1 with rows := r1.rows.filter fun q => !(hit ((0xC0 + 2 * q.1) / 32)) }
    refs := if hit 12 then [] else e1.refs
    carried := e1.carried.filter fun i => !(hit (16 + i / 256))
    snap := e1.snap.map fun x => { x with layers := x.layers.zipIdx.map fun q => if hit (48 + q.2) then {} else q.1 }
    scratch := e1.scratch.filter fun q => !(hit (112 + q.1 / 32))
    nextFull := true }

/-! ### Stream start (R247) -/

/-- Context frames of a stream: record, block table, composed CRC table. -/
def contextFrames (n : Nat) : Nat := 1 + (n * 64 + 8191) / 8192 + (n * 8 + 8191) / 8192

/-- Allocate some context frames, as far as there are frames that are not reserved (R235). -/
def State.allocFrames (s : State) (h : Holder) : Nat → List Slot × State
  | 0 => ([], s)
  | k + 1 =>
    let r := State.allocFrames s h k
    let a := if unreserved r.2.pool = 0 then (none, r.2) else r.2.allocBlock h .shortTerm []
    match a.1 with
    | some (b, g) => (r.1 ++ [⟨b, g, false, 0⟩], a.2)
    | none => r

end Sys2Proof.Machine
end

