-- ==== Sys2Proof/Machine/Buffers.lean ====
section
/-! DEFINITION. The buffer pool of chapter 15: allocation, free, give, watermarks, bitmap mode. -/

namespace Sys2Proof.Machine

/-- A buffer is free (R424). -/
def Bpm.isFree (b : Bpm) (n : Nat) : Bool := (look b.owners n).isNone

/-- The lowest-numbered free buffer (R428): the first number the rising list of allocated buffers leaves out. -/
def lowestFree : List (Nat × Master) → Nat → Nat
  | [], k => k
  | (j, _) :: r, k => if j = k then lowestFree r (k + 1) else k

/-- The free buffer that stands at position `i` of the free ones in rising order. -/
def nthFree : List (Nat × Master) → Nat → Nat → Nat
  | [], k, i => k + i
  | (j, _) :: r, k, i => if k + i < j then k + i else nthFree r (j + 1) (i - (j - k))

/-- The buffer an allocation takes (R424, R428): any free one in ring mode, whose order is not fixed (a free value), the
lowest in the other modes. -/
def Bpm.choose (b : Bpm) (free : Nat) : Nat :=
  if b.mode = 0 then nthFree b.owners 0 (Config.freeNat free % (262144 - b.owners.length)) else lowestFree b.owners 0

/-- The free count after a change of the owners, the lowest count kept (R429). -/
def Bpm.counted (b : Bpm) (owners : Tab Master) : Bpm :=
  let f := 262144 - owners.length
  { b with
    owners := owners
    free := f
    minFree := if f < b.minFree.toNat then BitVec.ofNat 32 f else b.minFree
    lowSeen := if f < b.low.toNat then true else if b.high.toNat < f then false else b.lowSeen }

/-- Watermark events of a change of the free count (R429): `LOW` once when it falls below, `HIGH` when it next rises
above. Byte 0 of the detail names which. -/
def State.watermark (s : State) (b : Bpm) : State :=
  let s1 : State := { s with bpm := b }
  if b.lowSeen && !s.bpm.lowSeen then s1.raise 0x011 mBpm [0]
  else if s.bpm.lowSeen && !b.lowSeen then s1.raise 0x011 mBpm [1]
  else s1

/-- Allocate a buffer to a master (R425): the buffer and the state, or no buffer when none is free. -/
def State.allocBuffer (s : State) (m : Master) : Option Nat × State :=
  if 262144 ≤ s.bpm.owners.length then (none, s)
  else
    let b := s.bpm.choose s.clk.free
    (some b, (s.freed).watermark (s.bpm.counted (put s.bpm.owners b m)))

/-- A free or give is rejected (R426): reason 1 not allocated, 2 not owner. -/
def State.rejectBuffer (s : State) (m : Master) (b : Nat) (reason : Nat) : State :=
  ({ s with bpm := { s.bpm with
      rejects := sat32 s.bpm.rejects, err := s.bpm.err ||| 8, lastReason := BitVec.ofNat 2 reason, lastMaster := m,
      lastBuffer := BitVec.ofNat 18 b } }.raise 0x012 m (le 4 b ++ le 2 m.toNat)).contained 0x06 .write m b

/-- Free a buffer (R426). -/
def State.freeBuffer (s : State) (m : Master) (b : Nat) : State :=
  match look s.bpm.owners b with
  | none => s.rejectBuffer m b 1
  | some o => if o = m then s.watermark (s.bpm.counted (del s.bpm.owners b)) else s.rejectBuffer m b 2

/-- `BPM_ALLOC` as a read returns it (R429). -/
def allocWord : Option Nat → Word
  | some b => BitVec.ofNat 32 (0x80000000 + b)
  | none => 0

/-- Buffers that the cache names ahead of the one taken and that are allocated: they are left as they are (R425). -/
def State.staleEntries (s : State) (l : List (BitVec 18)) : State :=
  let n := (l.filter fun b => !(s.bpm.isFree b.toNat)).length
  if n = 0 then s else { s with bpm := { s.bpm with err := s.bpm.err ||| 4, allocBad := s.bpm.allocBad + BitVec.ofNat 32 n } }

/-- In bitmap mode two allocations are served in a fabric cycle, of which a nanosecond holds three (R428): past six of one time a request
fails, and past two it may (a free value). -/
def State.beyondRate (s : State) : Bool :=
  let n := if s.bpm.rateAt = s.clk.now then s.bpm.rateN else 0
  decide (s.bpm.mode ≠ 0) && (decide (6 ≤ n) || (decide (2 ≤ n) && Config.freeBit s.clk.free))
/-- Count an allocation of this time. -/
def State.rated (s : State) : State :=
  if s.bpm.mode = 0 then s
  else { s with bpm := { s.bpm with rateAt := s.clk.now, rateN := (if s.bpm.rateAt = s.clk.now then s.bpm.rateN else 0) + 1 } }

/-- A read of `BPM_ALLOC` (R425, R428). `stale` are the buffers that the cache names before the one taken; `e` is how the cache or free-ring word it takes reads: one that cannot be corrected puts the pool
into bitmap mode with a contained error of the pool manager, the rebuild begun or not (a free value); in bitmap mode no ring or cache is read. -/
def State.readAlloc (s : State) (m : Master) (e : Ecc) (stale : List (BitVec 18)) : State :=
  let s1 := if s.bpm.mode = 0 then
      match e with
      | .clean => s.staleEntries stale
      | .corrected => s.corrected.staleEntries stale
      | .uncorrectable =>
        ({ s with
          bpm := { s.bpm with mode := if Config.freeBit s.clk.free then 1 else 2, err := s.bpm.err ||| (if Config.freeBit s.clk.free then 1 else 2) } }.freed).contained
            0x01 .read mBpm (bar0Addr 0x80014)
    else s
  if s1.beyondRate then s1.freed.answer m 0
  else
  let p := s1.rated.allocBuffer m
  p.2.answer m (allocWord p.1)

/-- A write of `BPM_GIVE` (R426): the owner sets a new owner. -/
def State.giveBuffer (s : State) (m : Master) (b : Nat) (owner : Master) : State :=
  match look s.bpm.owners b with
  | none => s.rejectBuffer m b 1
  | some o =>
    if o = m then { s with bpm := { s.bpm with owners := put s.bpm.owners b owner } } else s.rejectBuffer m b 2

/-- A write of `BPM_MIN_FREE` (R429): any value sets the lowest count to the current free count. -/
def State.minFreeWrite (s : State) : State := { s with bpm := { s.bpm with minFree := BitVec.ofNat 32 s.bpm.free } }

/-- BUFFER_ALLOCATE (R425, R428). -/
def execBufferAllocate (m : Master) (e : Ecc) (stale : List (BitVec 18)) (s : State) : Host.Outcome State Fault Refusal :=
  issuedBy m s <| done (s.readAlloc m e stale)
/-- BUFFER_FREE (R426): a write of `BPM_FREE` by master `m`. -/
def execBufferFree (m : Master) (b : BitVec 18) (s : State) : Host.Outcome State Fault Refusal :=
  issuedBy m s <|
  done ((s.disarm m).freeBuffer m b.toNat)
/-- BUFFER_GIVE (R426). -/
def execBufferGive (m : Master) (b : BitVec 18) (owner : Master) (s : State) : Host.Outcome State Fault Refusal :=
  issuedBy m s <|
  done ((s.disarm m).giveBuffer m b.toNat owner)
/-- BPM_MIN_FREE_WRITE (R429). -/
def execBpmMinFreeWrite (m : Master) (_v : Word) (s : State) : Host.Outcome State Fault Refusal :=
  issuedBy m s <| done ((s.disarm m).minFreeWrite)

/-- BITMAP_REBUILD_DONE (R428): the ring and cache are rebuilt, and the pool returns to ring mode. -/
def execBitmapRebuildDone (s : State) : Host.Outcome State Fault Refusal :=
  awake s <|
  done { s with bpm := { s.bpm with mode := 0 } }

end Sys2Proof.Machine
end

