-- ==== Sys2Proof/Machine/Wire.lean ====
section
/-! DEFINITION. Frames on the wire and in packet memory: headers and checksums (R346), VLAN tags (R327), the MAC table (R328 to R331),
queues and their admission (R347, R348). -/

namespace Sys2Proof.Machine

/-! ### Headers -/

/-- Ones' complement sum of 16-bit words. -/
def sum16 : Nat → Bytes → Nat
  | a, [] => a
  | a, [x] => a + x.toNat * 256
  | a, x :: y :: r => sum16 (a + x.toNat * 256 + y.toNat) r
/-- The folded internet checksum. -/
def inetSum (b : Bytes) : Nat :=
  let a := sum16 0 b
  let f := a % 65536 + a / 65536
  let g := f % 65536 + f / 65536
  65535 - (g % 65536 + g / 65536)

/-- An address of 16 bytes is a mapped IPv4 address. -/
def isV4 (ip : Bytes) : Bool := ip.take 12 == [0, 0, 0, 0, 0, 0, 0, 0, 0, 0, 0xFF, 0xFF]
/-- No address. -/
def isZero (b : Bytes) : Bool := b.all (· == 0)
/-- An IPv4 address as 16 bytes. -/
def mapV4 (b : Bytes) : Bytes := [0, 0, 0, 0, 0, 0, 0, 0, 0, 0, 0xFF, 0xFF] ++ b
/-- The link-local addresses of the front ports or the management port (R49): 169.254.1.0 to 169.254.254.255 under RFC 3927, fe80::/64. -/
def linkLocal (front v4 : Bool) : Bytes :=
  if v4 then mapV4 (be 4 (0xA9FE0100 + Config.linkLocal4 front % 65024))
  else [0xFE, 0x80, 0, 0, 0, 0, 0, 0] ++ be 8 (Config.linkLocal6 front).toNat
/-- The address of 0x3002, none while it holds 0. -/
def setIp (s : State) (front v4 : Bool) : Option Bytes :=
  let k := if front then 2 else 6
  if v4 then (if par s 0x3002 k = 0 then none else some (mapV4 (be 4 (par s 0x3002 k))))
  else if (parBytes s 0x3002 (k + 2)).all (· == 0) then none else some (parBytes s 0x3002 (k + 2))
/-- The device's front (or management) address of a destination's family (R49, R339): that of 0x3002, else the link-local one. -/
def ownIp (s : State) (front v4 : Bool) : Bytes := (setIp s front v4).getD (linkLocal front v4)
/-- MAC address of the front ports: base + 1 (R49). -/
def frontMac : BitVec 48 := Config.baseMac + 1
def frontVlan (s : State) : Nat := par s 0x3002 1

/-- A tag of a class in a VLAN. -/
def tagBytes (pcp vlan : Nat) : Bytes := [0x81, 0x00] ++ be 2 (pcp % 8 * 8192 + vlan % 4096)

/-- A UDP packet over IPv4 or IPv6 as an Ethernet frame without FCS (R346). Identification, flags and flow label are free. -/
def udpFrame (dst : BitVec 48) (tag : Bytes) (srcIp dstIp : Bytes) (ttl dscp sport dport free : Nat) (payload : Bytes) : Bytes :=
  let ulen := 8 + payload.length
  let v4 := isV4 dstIp
  let pseudo := if v4 then srcIp.drop 12 ++ dstIp.drop 12 ++ [0, 17] ++ be 2 ulen else srcIp ++ dstIp ++ be 4 ulen ++ [0, 0, 0, 17]
  let u0 := be 2 sport ++ be 2 dport ++ be 2 ulen
  let c := inetSum (pseudo ++ u0 ++ [0, 0] ++ payload)
  let udp := u0 ++ be 2 (if c = 0 then 65535 else c) ++ payload
  let eth := be 6 dst.toNat ++ be 6 frontMac.toNat ++ tag
  if v4 then
    let h0 := [0x45, BitVec.ofNat 8 (dscp * 4)] ++ be 2 (20 + ulen) ++ be 2 (Config.freeNat free) ++
      [if Config.freeBit free then 0x40 else 0, 0, BitVec.ofNat 8 ttl, 17]
    let a := srcIp.drop 12 ++ dstIp.drop 12
    eth ++ [0x08, 0x00] ++ h0 ++ be 2 (inetSum (h0 ++ [0, 0] ++ a)) ++ a ++ udp
  else
    let w := 6 * 2 ^ 28 + dscp * 2 ^ 22 + Config.freeNat free % 2 ^ 20
    eth ++ [0x86, 0xDD] ++ be 4 w ++ be 2 ulen ++ [17, BitVec.ofNat 8 ttl] ++ srcIp ++ dstIp ++ udp

/-- The MAC address of a multicast group (R346). -/
def groupMac (ip : Bytes) : BitVec 48 :=
  if isV4 ip then BitVec.ofNat 48 (0x01005E000000 + beNat (ip.drop 12) % 2 ^ 23)
  else BitVec.ofNat 48 (0x333300000000 + beNat (ip.drop 12))

/-! ### The VLAN table (R327) -/

def vlanEntry (s : State) (vid : Nat) : Nat := le64 (parBytes s 0x3020 0) (8 * vid)
/-- Members are logical ports: port nodes 16 to 19 belong to no VLAN. -/
def vlanMember (s : State) (vid p : Nat) : Bool := decide (p < 16) && bitOf (vlanEntry s vid) p
def vlanUntagged (s : State) (vid p : Nat) : Bool := decide (p < 16) && bitOf (vlanEntry s vid) (16 + p)
/-- The tag a copy carries on a port: none for an untagged member. -/
def portTag (s : State) (vid p pcp : Nat) : Bytes := if vlanUntagged s vid p && vlanMember s vid p then [] else tagBytes pcp vid

/-! ### The MAC table (R328, R331). A position is bucket × 4 + slot, or 262,144 + overflow index -/

/-- Bits [15:0] of the CRC-32C over VLAN and MAC (R328). -/
def macBucket (vlan : BitVec 12) (mac : BitVec 48) : Nat := (crc32c (be 2 vlan.toNat ++ be 6 mac.toNat)).toNat % 65536

def bucketAt (v : Selvedge) (b : Nat) : Tab MacEntry := lookD [] v.buckets b
/-- The entry at a position. -/
def macAt (v : Selvedge) (pos : Nat) : Option MacEntry :=
  if pos < 262144 then look (bucketAt v (pos / 4)) (pos % 4) else look v.overflow (pos - 262144)
/-- Write or clear the entry at a position; an empty bucket is not listed. -/
def macPut (v : Selvedge) (pos : Nat) (e : MacEntry) : Selvedge :=
  if pos < 262144 then { v with buckets := put v.buckets (pos / 4) (put (bucketAt v (pos / 4)) (pos % 4) e) }
  else { v with overflow := put v.overflow (pos - 262144) e }
def macDel (v : Selvedge) (pos : Nat) : Selvedge :=
  if pos < 262144 then
    let b := del (bucketAt v (pos / 4)) (pos % 4)
    { v with buckets := if b.isEmpty then del v.buckets (pos / 4) else put v.buckets (pos / 4) b }
  else { v with overflow := del v.overflow (pos - 262144) }

/-- The position and entry of a key. -/
def macFind (v : Selvedge) (vlan : BitVec 12) (mac : BitVec 48) : Option (Nat × MacEntry) :=
  let b := macBucket vlan mac
  let hit (e : MacEntry) : Bool := e.mac == mac && e.vlan == vlan
  match (bucketAt v b).find? fun q => hit q.2 with
  | some q => some (4 * b + q.1, q.2)
  | none => (v.overflow.find? fun q => hit q.2).map fun q => (262144 + q.1, q.2)

/-- The lowest index below a bound that a table leaves free. -/
def lowestGap {α : Type} (t : Tab α) (bound : Nat) : Option Nat := (List.range bound).find? fun i => (look t i).isNone

/-- Count in 0x3070. -/
def State.selvCount (s : State) (k : Nat) (n : Nat := 1) : State :=
  { s with selv := { s.selv with counters := bump s.selv.counters k n } }
/-- An entry as the learn log records it (R329). -/
def MacEntry.delta (e : MacEntry) : LearnDelta := .macSet e.vlan e.mac e.group e.static e.suspended e.dest

/-- Enter a delta in the learn log (R65, R329). -/
def State.logLearn (s : State) (d : LearnDelta) : State :=
  { s with
    selv := { s.selv with learnLog := s.selv.learnLog ++ [d] }
    pair := { s.pair with lostDeltas := s.pair.lostDeltas || (decide (s.pair.role = .primary) && !s.pair.halfA && !s.pair.halfB) }
    out := if s.pair.role = .primary ∧ (s.pair.halfA || s.pair.halfB) = true then s.out ++ [.gavonDelta d] else s.out }

/-- The bucket slot an insert evicts (R331): random (the LFSR's polynomial is not given: a free value), or the highest age with ties to the lowest slot; never a static or suspended
entry. -/
def evictSlot (s : State) (b : Nat) : Option Nat :=
  let c := (bucketAt s.selv b).filter fun q => !q.2.static && !q.2.suspended
  if par s 0x3010 4 = 0 then ((c.drop (Config.freeNat s.clk.free % c.length)).head?).map (·.1)
  else (minBy (fun q : Nat × MacEntry => 1048575 - q.2.age.toNat) c).map (·.1)

/-- Insert an entry whose key is absent (R331): the lowest free slot of its bucket, then of the overflow store, then by eviction.
False when it fails. -/
def State.macInsert (s : State) (e : MacEntry) : Bool × State :=
  let b := macBucket e.vlan e.mac
  let d : LearnDelta := e.delta
  let place (s : State) (pos : Nat) : State := (({ s with selv := macPut s.selv pos e }).selvCount 0x0B).logLearn d
  match lowestGap (bucketAt s.selv b) 4 with
  | some i => (true, place s (4 * b + i))
  | none =>
    match lowestGap s.selv.overflow 4096 with
    | some i => (true, place s (262144 + i))
    | none =>
      match evictSlot s b with
      | none => (false, s.selvCount 0x0F)
      | some i =>
        let s1 := match macAt s.selv (4 * b + i) with
          | some o => s.logLearn (.macDel o.vlan o.mac)
          | none => s
        (true, place ((s1.freed).selvCount 0x0E) (4 * b + i))

/-- Remove the entry at a position, logged. -/
def State.macRemove (s : State) (pos : Nat) : State :=
  match macAt s.selv pos with
  | some e => ({ s with selv := macDel s.selv pos }).logLearn (.macDel e.vlan e.mac)
  | none => s

/-- An uncorrectable read of a MAC table entry (R338): the entry of the key is cleared, the error recorded against the reading master. -/
def State.macBad (s : State) (m : Master) (vlan : BitVec 12) (mac : BitVec 48) (bad : Bool) : State :=
  if bad then
    ((match macFind s.selv vlan mac with
      | some q => s.macRemove q.1
      | none => s).contained 0x01 .read m 0).selvCount 0x12
  else s

/-- Router ports of a VLAN, as a list of ports (R337). -/
def routerPorts (s : State) (vlan : BitVec 12) : List Nat := s.selv.routers.filterMap fun q => if q.1.1 = vlan then some q.1.2 else none
/-- Ports of a group's entry. -/
def groupPorts (s : State) (vlan : BitVec 12) (mac : BitVec 48) : Option (List Nat) :=
  match macFind s.selv vlan mac with
  | some q => if q.2.group then some ((List.range 16).filter fun p => bitOf q.2.dest.toNat p) else none
  | none => none

/-! ### Queues (R347, R348) -/

def State.queue (s : State) (q : Nat) : Queue := lookD {} s.trans.queues q
def State.setQueue (s : State) (q : Nat) (v : Queue) : State := { s with trans := { s.trans with queues := put s.trans.queues q v } }
/-- Subscriber, service and port nodes above a queue. -/
def subOf (s : State) (q : Nat) : Nat := fld s 0x8007 q 2
def svcOf (s : State) (sub : Nat) : Nat := fld s 0x8009 sub 2
def portOf (s : State) (svc : Nat) : Nat := fld s 0x800B svc 2
/-- The port node of a queue; none (0xFF) where it or a node above it is not valid. -/
def queuePort (s : State) (q : Nat) : Nat :=
  let sub := subOf s q
  let svc := svcOf s sub
  if fldB s 0x8007 q 1 && fldB s 0x8009 sub 1 && fldB s 0x800B svc 1 then portOf s svc else 0xFF
def linkUp (s : State) (p : Nat) : Bool := s.selv.links.getLsbD p
def State.transCount (s : State) (k : Nat) (n : Nat := 1) : State :=
  { s with trans := { s.trans with counters := bump s.trans.counters k n } }
def State.queueDrop (s : State) (q : Nat) : State := s.setQueue q { s.queue q with dropped := (s.queue q).dropped + 1 }

/-- Take packet-memory cells for some bytes (R424). -/
def State.takeCells (s : State) (m : Master) : Nat → List Nat × State
  | 0 => ([], s)
  | n + 1 =>
    let r := State.takeCells s m n
    match r.2.allocBuffer m with
    | (some b, s') => (r.1 ++ [b], s')
    | (none, s') => (r.1, s')
/-- Return cells. -/
def State.dropCells (s : State) (m : Master) (l : List Nat) : State := l.foldl (fun s b => s.freeBuffer m b) s
/-- Cells that a frame of some bytes fills. -/
def cellsOf (n : Nat) : Nat := (n + 255) / 256
/-- Cells that a queue holds; a packet of the exception queue counts for the cells that it fills (R361). -/
def Queue.depth (v : Queue) : Nat := sumNat (v.copies.map fun c => if c.exc.isSome then cellsOf c.data.length else c.bufs.length)

/-- Device address of packet-memory cell `b` (R430). -/
def cellAddr (b : Nat) : Nat := 0x000100000000 + 256 * b
/-- Write a frame into its cells. -/
def State.fillCells (s : State) : List Nat → Bytes → State
  | [], _ => s
  | b :: r, d => State.fillCells (s.devStore (cellAddr b) (d.take 256)) r (d.drop 256)
/-- Cells that enter a queue are given to master 0x290 (R426). -/
def State.giveCells (s : State) (l : List Nat) : State :=
  { s with bpm := { s.bpm with owners := l.foldl (fun o b => put o b mReplicate) s.bpm.owners } }

/-- Admission of a copy of some cells (R347): 0 admitted, 1 the queue is full, 2 cells lack, 3 its front port's link is down. -/
def admission (s : State) (q need : Nat) : Nat :=
  let port := queuePort s q
  if fld s 0x8007 q 9 ≤ (s.queue q).depth then 1
  else if 262144 < s.bpm.owners.length + need then 2
  else if port < 16 ∧ linkUp s port = false then 3
  else 0

/-- Admit a copy to a queue (R347): true when it is enqueued. `m` is the master that allocates its cells. -/
def State.enqueueCopy (s : State) (q : Nat) (m : Master) (c : Copy) : Bool × State :=
  let need := cellsOf c.data.length
  let a := admission s q need
  if a = 2 then (false, (s.queueDrop q).transCount 7)
  else if a ≠ 0 then (false, s.queueDrop q)
  else
    let r := s.takeCells m need
    let s1 := (r.2.giveCells r.1).fillCells r.1 c.data
    let v' := s1.queue q
    (true, s1.setQueue q { v' with copies := v'.copies ++ [{ c with bufs := r.1 }] })

/-- The bridge queue of a port and class (R348). -/
def bridgeQueue (p cls : Nat) : Nat := 65408 + 8 * p + cls % 8

/-- Discard all that a queue holds, counted (R353, R354). -/
def State.discardQueue (s : State) (q : Nat) : State :=
  let v := s.queue q
  let s1 := v.copies.foldl (fun s c => s.dropCells mReplicate c.bufs) s
  s1.setQueue q { s1.queue q with copies := [], dropped := v.dropped + BitVec.ofNat 32 v.copies.length }

end Sys2Proof.Machine
end

