-- ==== Sys2Proof/Machine/Parse.lean ====
section
/-! DEFINITION. The ingress parser, rule sets and the fixed classification (R315 to R325). -/

namespace Sys2Proof.Machine

/-! ### Parser (R315 to R317) -/

/-- A header of `n` bytes at offset `o`: 0 whole, 1 cut off by the frame's end within 128 bytes, 2 beyond 128 bytes. -/
def headAt (b : Bytes) (o n : Nat) : Nat := if o + n ≤ min b.length 128 then 0 else if b.length < 128 then 1 else if 128 < o + n then 2 else 1

/-- One more layer: a ninth is problem 1. -/
def addLayer (p : Parsed) (o : Nat) : Parsed := if 8 ≤ p.layers.length then { p with problem := 1 } else { p with layers := p.layers ++ [o] }

/-- The layer-4 header by protocol at offset `o`; `left` is the IP payload left. -/
def parseL4 (b : Bytes) (p : Parsed) (proto o left : Nat) : Parsed :=
  let n := if proto = 17 then 8 else if proto = 6 then 4 else if proto = 1 ∨ proto = 58 ∨ proto = 2 then 1 else 0
  if n = 0 then p
  else
    match headAt b o n with
    | 1 => p
    | 2 => { p with problem := 2 }
    | _ =>
      let q := addLayer p o
      if q.problem ≠ 0 then q
      else if proto = 17 then
        if be16 b (o + 4) < 8 ∨ left < be16 b (o + 4) then { q with problem := 3 }
        else { q with sport := some (be16 b o), dport := some (be16 b (o + 2)), payload := o + 8 }
      else if proto = 6 then { q with sport := some (be16 b o), dport := some (be16 b (o + 2)), payload := o }
      else { q with payload := o }

/-- IPv6 extension headers, then layer 4. A header that the frame's end cuts off is none and no contradiction (R317). -/
def parseIp6 : Nat → Bytes → Parsed → Nat → Nat → Nat → Parsed
  | 0, _, p, _, _, _ => p
  | k + 1, b, p, nh, o, left =>
    let q := { p with proto := some nh }
    if nh = 0 ∨ nh = 43 ∨ nh = 60 ∨ nh = 44 then
      match headAt b o 8 with
      | 1 => q
      | 2 => { q with problem := 2 }
      | _ =>
        let n := if nh = 44 then 8 else 8 * (u8 b (o + 1) + 1)
        if headAt b o n = 2 then { q with problem := 2 }
        else if headAt b o n = 1 then q
        else if left < n then { q with problem := 3 }
        else
          let r := addLayer q o
          if r.problem ≠ 0 then r
          else if nh = 44 ∧ be16 b (o + 2) / 8 ≠ 0 then { r with proto := some (u8 b o) }
          else parseIp6 k b r (u8 b o) (o + n) (left - n)
    else parseL4 b q nh o left

/-- Layer 3 at offset `o`. -/
def parseL3 (b : Bytes) (p : Parsed) (o : Nat) : Parsed :=
  let t := p.ethType
  if t = 0x0800 then
    match headAt b o 20 with
    | 1 => p
    | 2 => { p with problem := 2 }
    | _ =>
      let ihl := 4 * (u8 b o % 16)
      let total := be16 b (o + 2)
      if ihl < 20 then { p with problem := 3 }
      else if headAt b o ihl = 2 then { p with problem := 2 }
      else if headAt b o ihl = 1 then p
      else if total < ihl then { p with problem := 3 }
      else if inetSum (slice b o ihl) ≠ 0 then { p with problem := 4 }
      else
        let q := addLayer p o
        if q.problem ≠ 0 then q
        else
          let v4 (k : Nat) : BitVec 128 := BitVec.ofNat 128 (0xFFFF * 2 ^ 32 + be32 b k)
          let q := { q with
            ipv4 := true, srcIp := some (v4 (o + 12)), dstIp := some (v4 (o + 16)), proto := some (u8 b (o + 9))
            dscp := some (u8 b (o + 1) / 4), ipEnd := o + total, payload := o + ihl }
          if be16 b (o + 6) % 8192 ≠ 0 then q else parseL4 b q (u8 b (o + 9)) (o + ihl) (total - ihl)
  else if t = 0x86DD then
    match headAt b o 40 with
    | 1 => p
    | 2 => { p with problem := 2 }
    | _ =>
      let q := addLayer p o
      if q.problem ≠ 0 then q
      else
        let len := be16 b (o + 4)
        let q := { q with
          srcIp := some (BitVec.ofNat 128 (beNat (slice b (o + 8) 16)))
          dstIp := some (BitVec.ofNat 128 (beNat (slice b (o + 24) 16))), dscp := some (be16 b o / 64 % 64)
          ipEnd := o + 40 + len, payload := o + 40 }
        parseIp6 10 b q (u8 b (o + 6)) (o + 40) len
  else if t = 0x0806 ∨ t = 0x88F7 then
    match headAt b o (if t = 0x0806 then 28 else 34) with
    | 1 => p
    | 2 => { p with problem := 2 }
    | _ => addLayer p o
  else p

/-- Tags, at most two: an S-tag as the first only. -/
def parseTags : Nat → Bytes → Parsed → Nat → Parsed
  | 0, b, p, o => parseL3 b p o
  | k + 1, b, p, o =>
    if p.ethType = 0x8100 ∨ (p.ethType = 0x88A8 ∧ p.tags = []) then
      match headAt b o 4 with
      | 1 => p
      | 2 => { p with problem := 2 }
      | _ =>
        let q := addLayer p (o - 2)
        parseTags k b { q with tags := q.tags ++ [BitVec.ofNat 16 (be16 b o)], ethType := be16 b (o + 2) } (o + 4)
    else parseL3 b p o

/-- What the parser finds in a frame. -/
def parseFrame (b : Bytes) : Parsed :=
  if b.length < 14 then {}
  else
    parseTags 2 b { dstMac := BitVec.ofNat 48 (beNat (slice b 0 6)), srcMac := BitVec.ofNat 48 (beNat (slice b 6 6))
                    ethType := be16 b 12, layers := [0], payload := 14 } 14

/-! ### Rule sets (R319, R322, R323) -/

/-- VLAN key and class of a packet on a port (R319): its outermost tag's, or the port's PVID. -/
def vidOf (s : State) (port : Nat) (p : Parsed) : Nat :=
  match p.tags with
  | t :: _ => if t.toNat % 4096 = 0 then par s 0x3011 (port + 1) else t.toNat % 4096
  | [] => par s 0x3011 (port + 1)
def pcpOf (p : Parsed) : Nat := match p.tags with | t :: _ => t.toNat / 8192 | [] => 0

/-- A key field (R319), none where the parse did not reach it. -/
def keyField (s : State) (k : Pkt) (code : Nat) : Option Nat :=
  let p := k.parsed
  match code with
  | 0 => some (match k.pass2 with | some q => q.1 | none => k.port)
  | 1 => some (match k.pass2 with | some q => q.2 | none => vidOf s k.port p)
  | 2 => if p.layers.isEmpty then none else some p.ethType
  | 3 => p.proto
  | 4 => p.dscp
  | 5 => p.sport
  | 6 => p.dport
  | 7 => p.srcIp.map (·.toNat)
  | 8 => p.dstIp.map (·.toNat)
  | 9 => some (b2n k.pass2.isSome)
  | _ => none

/-- Width of a key field. -/
def keyWidth (code : Nat) : Nat := [5, 12, 16, 8, 6, 16, 16, 128, 128, 1].getD code 0

/-- Byte offset of word `i` of an image. -/
def wordOff (i : Nat) : Nat := 32 + 32 * i

/-- A constraint on a field: unconstrained, or present and accepted. -/
def meetsField (free : Bool) (v : Option Nat) (ok : Nat → Bool) : Bool := free || (match v with | some x => ok x | none => false)

/-- A rule matches a packet (R323). -/
def ruleMatches (s : State) (b : Bytes) (i : Nat) (k : Pkt) : Bool :=
  let o := wordOff i
  let f := keyField s k
  let fmt := u8 b o % 4
  let pass := u8 b o / 4 % 4
  let prefixOk (len word : Nat) (a x : Nat) : Bool := a / 2 ^ (word - len) == x / 2 ^ (word - len)
  let addr (len off4 off6 : Nat) (v : Option Nat) : Bool :=
    meetsField (len == 0) v fun x =>
      if fmt = 2 then prefixOk len 128 (leNat (slice b off6 16)) x
      else x / 2 ^ 32 == 0xFFFF && prefixOk len 32 (le32 b off4) (x % 2 ^ 32)
  let range (off : Nat) (v : Option Nat) : Bool :=
    let lo := le16 b off
    let hi := le16 b (off + 2)
    meetsField (lo == 0 && hi == 0xFFFF) v fun x => decide (lo ≤ x) && decide (x ≤ hi)
  let pm := u8 b (o + 5) % 32
  let vl := leNat (slice b (o + 6) 3)
  let vm := vl / 4096
  (pass == 0 || (pass == 1 && k.pass2.isNone) || (pass == 2 && k.pass2.isSome)) &&
  meetsField (pm == 0) (f 0) (fun x => Nat.land x pm == Nat.land (u8 b (o + 4)) pm) &&
  meetsField (vm == 0) (f 1) (fun x => Nat.land x vm == Nat.land (vl % 4096) vm) &&
  meetsField (u8 b (o + 9) == 0xFF) (f 3) (· == u8 b (o + 9)) &&
  meetsField (le16 b (o + 0xA) == 0) (f 2) (· == le16 b (o + 0xA)) &&
  meetsField (!(bitOf (u8 b (o + 0xC)) 7)) (f 4) (· == u8 b (o + 0xC) % 64) &&
  addr (u8 b (o + 0xD)) (o + 0x18) (o + 0x20) (f 7) && addr (u8 b (o + 0xE)) (o + 0x1C) (o + 0x30) (f 8) &&
  range (o + 0x10) (f 5) && range (o + 0x14) (f 6)

/-- Walk the tree: the word index of the first matching rule. -/
def walkTree (s : State) (b : Bytes) (k : Pkt) : Nat → Nat → Option Nat
  | 0, _ => none
  | n + 1, i =>
    let o := wordOff i
    if u8 b o = 1 then
      match keyField s k (u8 b (o + 1)) with
      | some v => walkTree s b k n (le32 b (o + 4) + v / 2 ^ u8 b (o + 2) % 2 ^ u8 b (o + 3))
      | none => none
    else ((List.range (u8 b (o + 1))).map fun j => le32 b (o + 4 + 4 * j)).find? fun r => ruleMatches s b r k

/-- The matching rule of a generation. -/
def matchRule (s : State) (g : RuleGen) (k : Pkt) : Option Nat :=
  if g.image.isEmpty then none else walkTree s g.image k 16 (le32 g.image 0x14)

/-- Words of an image. -/
def imageWords (b : Bytes) : Nat := b.length / 32 - 1

/-- A node word keeps its layout, and its indexes are in range. -/
def nodeWordOk (b : Bytes) (nodes words i : Nat) : Bool :=
  let o := wordOff i
  if u8 b o = 1 then
    let w := keyWidth (u8 b (o + 1))
    decide (u8 b (o + 1) ≤ 9) && decide (u8 b (o + 2) < w) && decide (1 ≤ u8 b (o + 3)) && decide (u8 b (o + 3) ≤ 8) &&
    decide (u8 b (o + 2) + u8 b (o + 3) ≤ w) && zeroRange b (o + 8) 24 && decide (le32 b (o + 4) + 2 ^ u8 b (o + 3) ≤ nodes)
  else
    u8 b o == 2 && decide (u8 b (o + 1) ≤ 7) && zeroRange b (o + 2) 2 && zeroRange b (o + 4 + 4 * u8 b (o + 1)) (28 - 4 * u8 b (o + 1)) &&
    (List.range (u8 b (o + 1))).all fun j =>
      let r := le32 b (o + 4 + 4 * j)
      decide (nodes ≤ r) && decide (r < words) && (u8 b (wordOff r) % 4 == 1 || decide (r + 1 < words))

/-- No path below a node exceeds a number of nodes. -/
def pathOk (b : Bytes) (nodes : Nat) : Nat → Nat → Bool
  | 0, _ => false
  | n + 1, i =>
    let o := wordOff i
    decide (i < nodes) &&
    (u8 b o != 1 || (List.range (2 ^ u8 b (o + 3))).all fun j => pathOk b nodes n (le32 b (o + 4) + j))

/-- Rule words are sound, from a word on: one or two words each. -/
def rulesOk (b : Bytes) (words : Nat) : Nat → Nat → Bool
  | 0, i => decide (i = words)
  | n + 1, i =>
    let o := wordOff i
    let fmt := u8 b o % 4
    let top := if fmt = 1 then 32 else 128
    decide (i < words) && (fmt == 1 || fmt == 2) && decide (u8 b o / 4 % 4 ≤ 2) && u8 b o / 16 == 0 && decide (u8 b (o + 1) ≤ 5) &&
    u8 b (o + 4) / 32 == 0 && u8 b (o + 5) / 32 == 0 && bits (u8 b (o + 0xC)) 6 6 == 0 && decide (u8 b (o + 0xD) ≤ top) &&
    decide (u8 b (o + 0xE) ≤ top) && zeroRange b (o + 0xF) 1 && (fmt == 1 || zeroRange b (o + 0x18) 8) &&
    rulesOk b words n (i + (if fmt = 1 then 1 else 2))

/-- The check of a written rule set (R323), but for the room it needs. -/
def rulesetOk (b : Bytes) : Bool :=
  let nodes := le32 b 0xC
  let rules := le32 b 0x10
  let words := imageWords b
  decide (64 ≤ b.length) && b.length % 32 == 0 && le32 b 0 == 0x52534554 && le32 b 4 == b.length && crcZeroed b 8 == le32 b 8 &&
  decide (rules ≤ 65536) && zeroRange b 0x18 8 && decide (nodes ≤ words) && ((List.range nodes).all fun i => nodeWordOk b nodes words i) &&
  pathOk b nodes 16 (le32 b 0x14) &&
  rulesOk b words rules nodes

/-- Words of tree memory in use by the resident generations. -/
def treeWords (v : Selvedge) : Nat :=
  let w (g : RuleGen) : Nat := if g.image.isEmpty then 0 else imageWords g.image
  w v.active + (match v.standby with | some g => w g | none => 0) + (v.oldGens.map w).foldl (· + ·) 0

/-! ### Fixed classification (R325) -/

/-- Rows of a table that the dictionary holds valid, by its row object; the fixed scheduler rows apart. -/
def storedRows (s : State) (idx : Nat) : List Nat :=
  (if idx = 0x8001 ∧ clockOn s = true then [0] else []) ++ s.dict.params.filterMap fun q =>
    if q.1 / 2 ^ 33 = idx * 256 + 1 ∧ q.2 = .num 1 ∧ q.1 % 2 ^ 33 ≠ 2 ^ 32 ∧ !(idx = 0x8001 ∧ q.1 % 2 ^ 33 = 0 ∧ clockOn s = true) then
      some (q.1 % 2 ^ 33) else none

/-- Valid rows of a table, by its row object; in Newt mode the clock-face row alone (R55). -/
def validRows (s : State) (idx : Nat) : List Nat :=
  let clock := decide (idx = 0x8001) && clockLive s
  (if clock then [0] else []) ++ (storedRows s idx).filter fun r => fldB s idx r 1 && !(clock && r == 0)

/-- An address is one of the device's front addresses: those of 0x3002 and the link-local ones (R49, R325). -/
def isOwnIp (s : State) (ip : Nat) : Bool :=
  [ownIp s true true, ownIp s true false, linkLocal true true, linkLocal true false].any fun a => ip == beNat a

/-- The decode context whose ingest entry a packet matches (R325): its source first, the all-zero source second. -/
def ingestMatch (s : State) (vid : Nat) (p : Parsed) : Option Nat :=
  match p.dstIp, (if p.proto = some 17 then p.dport else none), p.srcIp with
  | some d, some dp, some sr =>
    let rows := (validRows s 0x8003).filter fun c =>
      decide (fld s 0x8003 c 2 ≤ 3) && fld s 0x8003 c 6 == vid && beNat (fldBytes s 0x8003 c 3) == d.toNat && fld s 0x8003 c 4 == dp
    match rows.find? fun c => beNat (fldBytes s 0x8003 c 5) == sr.toNat with
    | some c => some c
    | none => rows.find? fun c => beNat (fldBytes s 0x8003 c 5) == 0
  | _, _, _ => none

/-- Groups that PTP uses: 224.0.1.129, 224.0.0.107, FF0x::181, FF02::6B. -/
def isPtpGroup (ip : Nat) : Bool :=
  ip == 0xFFFFE0000181 || ip == 0xFFFFE000006B || ip == 0xFF02 * 2 ^ 112 + 0x6B ||
    (ip / 2 ^ 120 == 0xFF && ip % 2 ^ 112 == 0x181)

/-- Type of a PTP message: the byte at the start of its header. -/
def ptpType (k : Pkt) : Nat := u8 k.data (if k.parsed.ethType = 0x88F7 then 14 + 4 * k.parsed.tags.length else k.parsed.payload) % 16

/-- Fixed classification of a packet (R325); with `ingestBad` the ingest table is being rebuilt, and a packet that comes to it takes row 9
(R338). A Pdelay message over IEEE 802.3 goes to the time unit, which drops and counts it, whatever its destination (R373; log entry 213). -/
def classifyFixed (s : State) (k : Pkt) (ingestBad : Bool) : Verdict :=
  let p := k.parsed
  let vid := match k.pass2 with | some q => q.2 | none => vidOf s k.port p
  let mine := decide (p.dstMac = frontMac)
  let toUs := mine && (match p.dstIp with | some d => isOwnIp s d.toNat | none => false)
  let udp := p.proto == some 17 && p.dport.isSome
  let dp := p.dport.getD 0
  let multicast := bitOf p.dstMac.toNat 40
  let mld := p.proto == some 58 && [130, 131, 132, 143].contains (u8 k.data p.payload)
  let pdelay := decide (p.ethType = 0x88F7) && [2, 3, 0xA].contains (ptpType k)
  if p.dstMac.toNat / 16 = 0x0180C200000 ∧ pdelay = false then .firmware
  else if p.ethType = 0x88F7 ∨ (udp = true ∧ (dp = 319 ∨ dp = 320) ∧
      ((toUs = true ∧ vid = frontVlan s) ∨ (p.dstIp.map fun d => isPtpGroup d.toNat) = some true)) then
    .time
  else if (p.proto = some 2 ∧ p.ipv4 = true) ∨ mld = true then .snoop
  else if toUs && udp && dp == par s 0x1FD1 1 then .dictionary
  else if toUs && udp && dp == par s 0x4020 1 then .touch
  else if toUs && udp && (validRows s 0x8001).any (fun n => fld s 0x8001 n 0x23 == dp) then .rtcp
  else if ingestBad then .bridge
  else
    match ingestMatch s vid p with
    | some c => .ingest c multicast
    | none => if mine then .firmware else .bridge

end Sys2Proof.Machine
end

