-- ==== Sys2Proof/Machine/Selvedge.lean ====
section
/-! DEFINITION. Selvedge's commands (R313 to R339): packets in, classification, release and bridging, learning, aging, table
commands, rule-set activation, snooping, links. -/

namespace Sys2Proof.Machine

/-! ### Ingress (R313 to R318) -/

/-- A logical port exists under its group's breakout (R313). -/
def portActive (s : State) (p : Nat) : Bool :=
  let b := par s 0x3012 (p / 4 + 1)
  if b = 0 then p % 4 == 0 else if b = 1 then p % 2 == 0 else true

/-- Send a packet to the exception queue (R318, R361): the queue of the control-core port node, of 16,384 packets, or of fewer where its
`MAX_CELLS` says so. Nothing but its being full drops one: it takes no packet-memory cells, and a length contradiction found at the frame's last
word leaves it (log entry 212). -/
def State.exception (s : State) (k : Pkt) (reason : Nat) : State :=
  let v := s.queue 65400
  if min 16384 (fld s 0x8007 65400 9) ≤ v.copies.length then (s.queueDrop 65400).selvCount 7
  else
    s.setQueue 65400 { v with copies := v.copies ++
      [{ data := k.data, ingress := k.port, exc := some ⟨k.port, reason, k.gen, k.rule, k.parsed.layers⟩ }] }

/-- Change the count of packets that hold a generation; one no longer active is freed at 0 (R324). -/
def Selvedge.hold (v : Selvedge) (g : Nat) (d : Int) : Selvedge :=
  let f (x : RuleGen) : RuleGen := if x.num = g then { x with held := ((x.held : Int) + d).toNat } else x
  { v with active := f v.active, oldGens := (v.oldGens.map f).filter fun x => x.held != 0 }

/-- The next engine in rotation with a free slot; one holds 8 packets (R319). -/
def Selvedge.engineFor (v : Selvedge) : Option Nat :=
  ((List.range 32).map fun i => (v.engineNext + i) % 32).find? fun e =>
    decide ((v.pipeline.filter fun k => k.engine == some e && k.verdict.isNone).length < 8)

/-- The oldest packet without an engine enters one, if one has a slot, and takes the active generation there; a second pass keeps its own
(R319, R324). -/
def Selvedge.dispatch (v : Selvedge) : Selvedge :=
  match v.pipeline.find? (fun k => k.verdict.isNone && k.engine.isNone), v.engineFor with
  | some k, some e =>
    let g := if k.pass2.isSome then k.gen else v.active.num
    { (if k.pass2.isSome then v else v.hold g 1) with
      engineNext := (e + 1) % 32
      pipeline := updFirst (fun x => x.id == k.id) (fun x => { x with engine := some e, gen := g }) v.pipeline }
  | _, _ => v

/-- The generation of a number. -/
def Selvedge.genOf (v : Selvedge) (g : Nat) : RuleGen :=
  if v.active.num = g then v.active else (v.oldGens.find? fun x => x.num == g).getD v.active

/-- VID of a packet: on a second pass the tag of R322. -/
def Pkt.vid (s : State) (k : Pkt) : Nat := match k.pass2 with | some q => q.2 | none => vidOf s k.port k.parsed

/-- A packet counts for learning (R329). VID 4095 teaches nothing. -/
def countsForLearning (s : State) (k : Pkt) : Bool :=
  let vid := k.vid s
  let dropped := match k.verdict with | some (.drop _) => true | _ => false
  k.pass2.isNone && !dropped && vlanMember s vid k.port && bitOf (vlanEntry s vid) 32 && vid != 4095 && !(bitOf k.parsed.srcMac.toNat 40)

/-- The lookups of a packet's destination and source (R320, R328, R338): what they find stays with the packet, and the source's entry on the
packet's own port is hit. -/
def State.lookups (s : State) (k : Pkt) (dstBad srcBad : Bool) : Pkt × State :=
  let v := BitVec.ofNat 12 (k.vid s)
  let s1 := (s.macBad (mIngress k.port) v k.parsed.dstMac dstBad).macBad (mIngress k.port) v k.parsed.srcMac srcBad
  let d := macFind s1.selv v k.parsed.dstMac
  let f := macFind s1.selv v k.parsed.srcMac
  let s2 : State := match f with
    | some (pos, e) => if countsForLearning s1 k && e.dest.toNat == k.port then
        { s1 with selv := macPut s1.selv pos { e with hit := true } } else s1
    | none => s1
  ({ k with dst := d.map (·.2), src := f.map (·.2) }, s2)

/-- A frame has been parsed (R315 to R319): dropped, sent to the exception queue or given to a classification engine. -/
def State.parsed (s : State) (k0 : Pkt) : State :=
  let port := k0.port
  let p := parseFrame k0.data
  let n := lookD 0 s.selv.nextSeq port
  let k : Pkt := { k0 with id := s.selv.nextId, seq := n, parsed := p, badEnd := decide (k0.data.length < p.ipEnd) }
  let s1 := ({ s with selv := { s.selv with nextId := s.selv.nextId + 1 } }).selvCount 1
  let enter (s : State) (k : Pkt) : State := { s with selv := Selvedge.dispatch { s.selv with
    pipeline := s.selv.pipeline ++ [k], nextSeq := put s.selv.nextSeq port (n + 1)
    ending := if k.badEnd && k.pass2.isNone then s.selv.ending ++ [k] else s.selv.ending } }
  let toException (k : Pkt) (c : Nat) : State :=
    let r := s1.lookups { k with verdict := some (.exception c) } false false
    (enter r.2 r.1).selvCount (c + 1)
  match p.problem with
  | 0 => enter s1 { k with gen := if k.pass2.isSome then k.gen else s.selv.active.num }
  | 1 => toException k 1
  | 2 => toException k 2
  | q =>
    let s2 := s1.selvCount (if q = 4 then 6 else 4)
    if parB s 0x3010 6 then s2.exception k 3 else s2

/-- A pipeline's requester of a frame (R313): its port in the group, or recirculation, 4. -/
def Pkt.requester (k : Pkt) : Nat := if k.pass2.isSome then 4 else k.port % 4
/-- Packets in a pipeline's reorder buffer (R321). -/
def Selvedge.buffered (v : Selvedge) (g : Nat) : Nat := (v.pipeline.filter fun k => k.port / 4 == g).length

/-- One cycle of a pipeline (R313): it takes a word of the first requester with one ready at or after its pointer, which then moves past that
requester. A frame whose words have come is parsed. While its reorder buffer holds 128 packets it takes none (DESIGN CHOICE, log entry 154). -/
def State.serveWord (s : State) (g : Nat) : State :=
  let v := s.selv
  let ready (r : Nat) : Option (Pkt × Nat) := v.arrivals.find? fun q => q.1.port / 4 == g && q.1.requester == r
  if 128 ≤ v.buffered g then s
  else
    match ((List.range 5).map fun i => (lookD 0 v.pointers g + i) % 5).find? fun r => (ready r).isSome with
    | none => s
    | some r =>
      match takeFirst (fun q : Pkt × Nat => q.1.port / 4 == g && q.1.requester == r) v.arrivals with
      | none => s
      | some ((k, n), rest) =>
        let moved := put v.pointers g ((r + 1) % 5)
        if n ≤ 1 then State.parsed { s with selv := { v with arrivals := rest, pointers := moved } } k
        else { s with selv := { v with
          arrivals := updFirst (fun q => q.1.port / 4 == g && q.1.requester == r) (fun q => (q.1, q.2 - 1)) v.arrivals, pointers := moved } }

/-- A fabric cycle of the ingress pipelines, in ascending order (R319). -/
def State.ingressCycle (s : State) : State :=
  if s.selv.arrivals.isEmpty then s else (List.range 4).foldl State.serveWord s

/-- One nanosecond passes with no command waiting: what `State.clockTick` says, and three fabric cycles of 3.0 GHz, in each of which every
ingress pipeline takes a word (R313). -/
def State.tick (s : State) : State := times State.ingressCycle 3 s.clockTick

/-- Words of a frame that the parser reads, with its FCS: one or two of 64 bytes (R313, R315). -/
def parseWords (b : Bytes) : Nat := if b.length ≤ 60 then 1 else 2

/-- A timestamp is captured at a port's MAC (R365): the item of 128 bits, its fraction free, its tag the port and a count of 11 bits (DESIGN
CHOICE, log entry 199: the capturing unit defines the tag). -/
def State.capture (s : State) (p : Nat) : State :=
  let n := (lookD 0 s.time.caps p).toNat / 2 ^ 16 % 2 ^ 11
  let item := leNat (stamp (s.time.ptp / 1000000000) (s.time.ptp % 1000000000) (Config.freeNat s.clk.free % 65536) (p * 2 ^ 11 + (n + 1) % 2 ^ 11))
  ({ s with time := { s.time with caps := put s.time.caps p (BitVec.ofNat 128 item) } }).freed
/-- A frame that arrives is a PTP event message of R373, Sync or Delay_Req. -/
def isEventMessage (k : Pkt) : Bool :=
  (k.parsed.ethType == 0x88F7 || (k.parsed.proto == some 17 && k.parsed.dport == some 319)) && decide (ptpType k ≤ 1)
/-- An event message is captured as it arrives (R365); its timestamp waits for the message. -/
def State.captureArrival (s : State) (k : Pkt) : State :=
  if s.boot.timeUp && isEventMessage k then
    let s1 := s.capture k.port
    { s1 with time := { s1.time with arrived := s1.time.arrived ++ [(k.port, lookD 0 s1.time.caps k.port)] } }
  else s

/-- PACKET_RECEIVE (R313, R365): a frame, without FCS, comes to a logical port whose link is up, and its first words wait for their turn in the
port's pipeline. A device that does not serve discards it (R480). -/
def execPacketReceive (port : Fin 16) (data : Bytes) (s : State) : Host.Outcome State Fault Refusal :=
  awake s <|
  guarded (.packetReceive port data) (
    if !s.boot.selvedge || !(linkUp s port) || !(portActive s port) || !(frontServes s) then done s
    else
      let k : Pkt := { id := 0, port := port, seq := 0, data := data, parsed := parseFrame data, gen := 0 }
      let s1 := s.captureArrival k
      done { s1 with selv := { s1.selv with arrivals := s1.selv.arrivals ++ [(k, parseWords data)] } })

/-- A rule's outcome (R322). -/
def ruleVerdict (s : State) (k : Pkt) (b : Bytes) (r : Nat) (ingestBad : Bool) : Verdict × Bool :=
  let o := wordOff r
  let arg := le16 b (o + 2)
  match u8 b (o + 1) with
  | 1 => (.drop true, false)
  | 2 => (.exception 4, false)
  | 3 => (classifyFixed s k ingestBad, true)
  | 4 => (.ingest (arg % 4096) false, false)
  | 5 => if k.pass2.isSome then (.exception 8, false) else (.recirculate (18 + arg / 4096 % 2) (arg % 4096), false)
  | _ => (classifyFixed s k ingestBad, false)

/-- CLASSIFY (R319 to R325, R338): an engine ends the classification of a packet, whose lookups have been made. `tree` is how the tree words
read; `ingestBad`, `dstBad`, `srcBad`: the ingest table's entry, the MAC table's of the destination or the source met an uncorrectable error. -/
def execClassify (pkt : Nat) (tree : Ecc) (ingestBad dstBad srcBad : Bool) (s : State) : Host.Outcome State Fault Refusal :=
  awake s <|
  match s.selv.pipeline.find? fun k => k.id == pkt && k.verdict.isNone && k.engine.isSome with
  | none => done s
  | some k =>
    let g := s.selv.genOf k.gen
    let bad := decide (tree = .uncorrectable)
    let r := if bad then none else matchRule s g k
    let v : Verdict × Bool := if bad then (.exception 7, false) else
      match r with
      | some i => ruleVerdict s k g.image i ingestBad
      | none => (classifyFixed s k ingestBad, false)
    let recirc := match v.1 with | .recirculate _ _ => true | _ => false
    let l := s.lookups { k with verdict := some v.1, rule := r, copyToException := v.2 } dstBad srcBad
    let w := l.2.selv
    let s1 : State := { l.2 with selv := Selvedge.dispatch { (w.hold k.gen (if recirc then 0 else -1)) with
      pipeline := updFirst (fun x => x.id == pkt) (fun _ => l.1) w.pipeline
      ruleDrops := match r, v.1 with
        | some i, .drop _ => bump w.ruleDrops i
        | _, _ => w.ruleDrops } }
    let s2 := if r.isSome then s1.selvCount 8 else s1
    let s3 := if recirc then s2.selvCount 9 else s2
    let s4 := if tree = .corrected then s3.corrected else s3
    done (if bad || ingestBad then (s4.contained 0x01 .read (mIngress k.port) 0).selvCount 0x12 else s4)

/-! ### Release and bridging (R321, R327, R337) -/

/-- A frame as it leaves on a port: its outermost tag kept with its EtherType and its upper bits, inserted or removed (R327). -/
def egressFrame (s : State) (k : Pkt) (vid p : Nat) : Bytes :=
  let tag := portTag s vid p (pcpOf k.parsed)
  match k.parsed.tags with
  | [] => k.data.take 12 ++ tag ++ k.data.drop 12
  | t :: _ =>
    k.data.take 12 ++ (if tag.isEmpty then [] else slice k.data 12 2 ++ be 2 (t.toNat / 4096 * 4096 + vid % 4096)) ++ k.data.drop 16

/-- Hand a packet to a port node's queue: a bridge queue of a front port, the host's or the control cores'. -/
def State.toNode (s : State) (k : Pkt) (vid node : Nat) : State :=
  let m := mIngress k.port
  if node < 16 then
    (s.enqueueCopy (bridgeQueue node (pcpOf k.parsed)) m { data := egressFrame s k vid node, ingress := k.port, stomped := k.badEnd }).2
  else if node = 16 then (s.enqueueCopy 65401 m { data := k.data, ingress := k.port, stomped := k.badEnd }).2
  else s.exception k 6

/-- Ports that a bridged packet's destination names (R327, R337). -/
def bridgePorts (s : State) (k : Pkt) (vid : Nat) : List Nat :=
  let dst := k.parsed.dstMac
  let members := (List.range 16).filter (vlanMember s vid)
  let routers := routerPorts s (BitVec.ofNat 12 vid)
  if dst = 0xFFFFFFFFFFFF then members
  else if bitOf dst.toNat 40 then
    match k.dst with
    | some e => if e.group then (List.range 16).filter fun p => bitOf e.dest.toNat p || routers.contains p
        else if bitOf (vlanEntry s vid) 33 then members else routers
    | none => if bitOf (vlanEntry s vid) 33 then members else routers
  else
    match k.dst with
    | some e => [e.dest.toNat % 32]
    | none => if bitOf (vlanEntry s vid) 34 then members else []

/-- Forward a packet to ports (R327): from a member port alone, else it is dropped and counted; never in VID 4095, nor to its own port or a port
outside its VLAN. -/
def State.bridgeTo (s : State) (k : Pkt) (vid : Nat) (ports : List Nat) : State :=
  if vlanMember s vid k.port = false then { s with selv := { s.selv with vlanDrops := s.selv.vlanDrops + 1 } }
  else if vid = 4095 then s
  else (ports.filter fun p => p != k.port && (decide (16 ≤ p) || vlanMember s vid p)).foldl (fun s p => s.toNode k vid p) s

/-- Bridge a packet. -/
def State.bridge (s : State) (k : Pkt) (vid : Nat) : State := s.bridgeTo k vid (bridgePorts s k vid)

/-- A snooped packet is a membership report or leave, which goes to the router ports alone (R337). -/
def isMembership (k : Pkt) : Bool :=
  let t := u8 k.data k.parsed.payload
  if k.parsed.ipv4 then [0x12, 0x16, 0x17, 0x22].contains t else [131, 132, 143].contains t

/-- The learn event that a released packet causes (R329), by what its source lookup found. -/
def State.learnFrom (s : State) (k : Pkt) : State :=
  if !(countsForLearning s k) then s
  else
    let ev : State :=
      if 512 ≤ s.selv.learns.length then s.selvCount 0x0A
      else { s with selv := { s.selv with learns := s.selv.learns ++ [⟨BitVec.ofNat 12 (k.vid s), k.parsed.srcMac, k.port⟩] } }
    match k.src with
    | none => ev
    | some e =>
      if e.dest.toNat = k.port then s
      else if e.static then s.selvCount 0x11
      else if e.suspended then s
      else ev

/-- A PTP message of a kind that is dropped and counted (R373): Pdelay, signalling, Management and kinds unknown. -/
def ptpUnsupported (k : Pkt) : Bool := !([0, 1, 8, 9, 0xB].contains (ptpType k))

/-- A packet for a decode context comes to it (R265, R322), if its row is valid: its datagram's payload, which DECODE_PACKET takes. -/
def State.toContext (s : State) (c : Nat) (k : Pkt) : State :=
  let d := lookD {} s.decs c
  let p := k.parsed
  let b := if p.proto = some 17 ∧ p.dport.isSome then (k.data.drop p.payload).take (be16 k.data (p.payload - 4) - 8) else k.data.drop p.payload
  if decValid s c && d.live then { s with decs := put s.decs c { d with inbox := d.inbox ++ [b] } } else s

/-- REORDER_RELEASE (R321, R325, R327, R329, R337): the oldest packet of a logical port leaves once it is classified. -/
def execReorderRelease (port : Fin 16) (s : State) : Host.Outcome State Fault Refusal :=
  awake s <|
  match s.selv.pipeline.find? fun k => k.port == port.val with
  | none => done s
  | some k =>
    match k.verdict with
    | none => done s
    | some v =>
      let vid := k.vid s
      let s1 : State := { s with selv := { s.selv with pipeline := s.selv.pipeline.filter fun x => x.id ≠ k.id } }
      let s2 := s1.learnFrom k
      let s3 := if k.copyToException then s2.exception k 5 else s2
      match v with
      | .drop _ => done s3
      | .exception r => done (s3.exception k r)
      | .firmware => done (s3.exception k 6)
      | .time => done (if ptpUnsupported k then s3.timeCount 9 else s3)
      | .dictionary => done s3
      | .touch => done s3
      | .rtcp => done s3
      | .ingest c b => done (if b then (s3.toContext c k).bridge k vid else s3.toContext c k)
      | .snoop =>
        if parB s 0x3060 1 && isMembership k then done (s3.bridgeTo k vid (routerPorts s3 (BitVec.ofNat 12 vid)))
        else done (s3.bridge k vid)
      | .bridge => done (s3.bridge k vid)
      | .recirculate node vlan =>
        let q := s3.enqueueCopy (65402 + (node - 18)) (mIngress port)
          { data := k.data, ingress := port, stomped := k.badEnd, recirc := some (port, k.gen, node, vlan) }
        done (if q.1 then q.2 else { q.2 with selv := (q.2.selv.hold k.gen (-1)).dispatch })

/-- A copy that a length contradiction discards when it has not yet started (R317); a packet of the exception queue stays (R318; log entry 212). -/
def Copy.cutBy (c : Copy) (port : Nat) : Bool := c.stomped && c.ingress == port && c.exc.isNone

/-- LENGTH_STOMP (R317): at the last word of a frame whose IP length runs past its end, every copy not yet started is discarded; with 0x3010:06
a copy of the frame goes to the exception queue. -/
def execLengthStomp (port : Fin 16) (s : State) : Host.Outcome State Fault Refusal :=
  awake s <|
  match takeFirst (fun k : Pkt => k.port == port.val) s.selv.ending with
  | none => done s
  | some (k, rest) =>
    let s0 : State := { s with selv := { s.selv with ending := rest } }
    let held := s0.trans.queues.filter fun q => q.2.copies.any fun c => c.cutBy port
    let s1 := held.foldl (fun s q =>
      let gone := q.2.copies.filter fun c => c.cutBy port
      let s' := gone.foldl (fun s c => s.dropCells mReplicate c.bufs) s
      let s'' := s'.setQueue q.1 { s'.queue q.1 with copies := q.2.copies.filter fun c => !(c.cutBy port) }
      { s'' with selv := gone.foldl (fun v c => match c.recirc with | some x => v.hold x.2.1 (-1) | none => v) s''.selv }) s0
    let inPipe := takeFirst (fun x : Pkt => x.port == port.val && x.badEnd && !(match x.verdict with | some (.exception _) => true | _ => false))
      s1.selv.pipeline
    let s2 : State := match inPipe with
      | some (x, r) => { s1 with selv := ({ (if x.verdict.isNone && (x.engine.isSome || x.pass2.isSome) then
            s1.selv.hold x.gen (-1) else s1.selv) with pipeline := r } : Selvedge).dispatch }
      | none => s1
    let s3 := if parB s 0x3010 6 then s2.exception k 3 else s2
    done (s3.selvCount 4)

/-! ### Learning and aging (R329 to R332) -/

/-- LEARN_EVENT (R329, R330, R338): the arbiter applies the oldest learn event; with a command waiting too the two alternate. `bad`: the entry
met an uncorrectable error. -/
def execLearnEvent (bad : Bool) (s : State) : Host.Outcome State Fault Refusal :=
  awake s <|
  match s.selv.learns with
  | [] => done s
  | ev :: r =>
    if !s.selv.cmds.isEmpty && s.selv.cmdTurn then done s
    else
      let s1 := State.macBad { s with selv := { s.selv with learns := r, cmdTurn := true } } mReplicate ev.vlan ev.mac bad
      match macFind s1.selv ev.vlan ev.mac with
      | none => done (s1.macInsert { mac := ev.mac, vlan := ev.vlan, dest := BitVec.ofNat 20 ev.port }).2
      | some (pos, e) =>
        if e.dest.toNat = ev.port then done { s1 with selv := macPut s1.selv pos { e with hit := true } }
        else if e.static then done (s1.selvCount 0x11)
        else if e.suspended then done s1
        else
          let moves := if e.moves = 15 then 15 else e.moves + 1
          let sus := decide (par s 0x3010 2 < moves.toNat)
          let e1 : MacEntry := { e with
            dest := BitVec.ofNat 20 ev.port, moves := moves, hit := true, suspended := sus
            hold := if sus then BitVec.ofNat 12 (par s 0x3010 3) else e.hold }
          let s2 := (({ s1 with selv := macPut s1.selv pos e1 }).selvCount 0x0C).logLearn e1.delta
          done (if sus then (s2.selvCount 0x0D).raise 0x008 (mIngress ev.port)
              (le 2 ev.vlan.toNat ++ be 6 ev.mac.toNat ++ le 1 ev.port)
            else s2)

/-- An entry after a visit of the aging scanner; none where it is removed. -/
def aged (limit : Nat) (e : MacEntry) : Option MacEntry :=
  let hold := e.hold - (if e.hold = 0 then 0 else 1)
  let e1 : MacEntry := { e with moves := 0, hold := hold, suspended := e.suspended && hold != 0 }
  if e.static ∨ e.group then some e
  else if e.hit then some { e1 with hit := false, age := 0 }
  else
    let a := if e.age = 1048575 then e.age else e.age + 1
    if limit ≤ a.toNat then none else some { e1 with age := a }

/-- Positions of every entry, in the order of R333. -/
def macPositions (v : Selvedge) : List Nat :=
  (v.buckets.flatMap fun q => q.2.map fun x => 4 * q.1 + x.1) ++ v.overflow.map fun q => 262144 + q.1

/-- AGING_SCAN (R332): once per second, every entry. A secondary only stores its partner's tables (R490). -/
def execAgingScan (s : State) : Host.Outcome State Fault Refusal :=
  awake s <|
  if serves s = false ∨ s.clk.now < s.selv.lastScan + 1000000000 then done s
  else
    let s0 : State := { s with selv := { s.selv with lastScan := s.clk.now } }
    done ((macPositions s.selv).foldl (fun s pos =>
      match macAt s.selv pos with
      | none => s
      | some e =>
        match aged (par s 0x3010 1) e with
        | none => (s.macRemove pos).selvCount 0x10
        | some e1 =>
          let s1 : State := { s with selv := macPut s.selv pos e1 }
          if e.suspended && !e1.suspended then s1.logLearn (e1.delta) else s1) s0)

/-! ### MAC table commands (R333) -/

def State.sess (s : State) (se : Session) : SessState := (alook s.dict.sess se).getD {}
def State.setSess (s : State) (se : Session) (v : SessState) : State := { s with dict := { s.dict with sess := aput s.dict.sess se v } }

/-- Bucket of a position, 65,536 for the overflow store. -/
def bucketOf (pos : Nat) : Nat := if pos < 262144 then pos / 4 else 65536
/-- Remove the dynamic unicast entries of a port (none: every port) in a VLAN (0: all) that some buckets hold; answers how many. -/
def State.flushMacs (s : State) (port : Option Nat) (vlan lo hi : Nat) : Nat × State :=
  let gone := (macPositions s.selv).filter fun pos =>
    decide (lo ≤ bucketOf pos) && decide (bucketOf pos < hi) && match macAt s.selv pos with
    | some e => !e.static && !e.group && (match port with | some p => e.dest.toNat == p | none => true) &&
        (vlan == 0 || e.vlan.toNat == vlan)
    | none => false
  (gone.length, gone.foldl (fun s p => s.macRemove p) s)

/-! ### Rule-set activation (R324) -/

/-- The image last activated is stored, and whether a later one was accepted (R324): not in a store that takes no writes. -/
def State.storeRules (s : State) : State :=
  if !(storeOpen s) || !s.boot.replayed then s
  else { s with store := { s.store with ruleset := s.selv.active.image, rulesLater := s.selv.standby.isSome } }

/-- RULESET_ACTIVATE (R324): an accepted write of 0x3031:01 makes the standby active in one cycle. -/
def execRulesetActivate (s : State) : Host.Outcome State Fault Refusal :=
  awake s <|
  match s.takeAct 0x3031 1 with
  | none => done s
  | some (_, s1) =>
    let v := s1.selv
    match v.standby with
    | none => done s1
    | some g =>
      let old := if v.active.held = 0 then v.oldGens else v.oldGens ++ [v.active]
      done (State.storeRules { s1 with
        selv := { v with active := { g with num := v.active.num + 1, held := 0 }, standby := none, oldGens := old } })

/-! ### Snooping (R337) -/

/-- The group's entry follows its members: present with their ports, or absent. -/
def State.syncGroup (s : State) (vlan : BitVec 12) (mac : BitVec 48) : State :=
  let ports := s.selv.members.filterMap fun q => if q.1.1 = vlan ∧ q.1.2.1 = mac then some q.1.2.2 else none
  let mask := BitVec.ofNat 20 ((List.range 16).foldl (fun a p => if ports.contains p then a + 2 ^ p else a) 0)
  match macFind s.selv vlan mac with
  | some (pos, e) =>
    if ports.isEmpty then s.macRemove pos
    else if e.dest = mask then s
    else ({ s with selv := macPut s.selv pos { e with dest := mask } }).logLearn (MacEntry.delta { e with dest := mask })
  | none => if ports.isEmpty then s else (s.macInsert { mac := mac, vlan := vlan, group := true, dest := mask }).2

/-- A port's membership ends at a time. -/
def State.setMember (s : State) (vlan : BitVec 12) (mac : BitVec 48) (port until_ : Nat) : State :=
  State.syncGroup { s with selv := { s.selv with members := aput s.selv.members (vlan, mac, port) until_ } } vlan mac
def State.dropMember (s : State) (vlan : BitVec 12) (mac : BitVec 48) (port : Nat) : State :=
  State.syncGroup { s with selv := { s.selv with members := adel s.selv.members (vlan, mac, port) } } vlan mac

/-- SNOOP_REPORT (R337): a report adds its port for the membership time. -/
def execSnoopReport (port : Fin 16) (vlan : BitVec 12) (mac : BitVec 48) (s : State) : Host.Outcome State Fault Refusal :=
  awake s <|
  if parB s 0x3060 1 then done (s.setMember vlan mac port (s.clk.now + par s 0x3060 2 * 1000000000)) else done s

/-- SNOOP_LEAVE (R337): at once, or within 2 s. -/
def execSnoopLeave (port : Fin 16) (vlan : BitVec 12) (mac : BitVec 48) (s : State) : Host.Outcome State Fault Refusal :=
  awake s <|
  if !(parB s 0x3060 1) then done s
  else if parB s 0x3060 3 then done (s.dropMember vlan mac port)
  else
    match alook s.selv.members (vlan, mac, port.val) with
    | none => done s
    | some t => done (s.setMember vlan mac port (min t (s.clk.now + 2000000000)))

/-- The device's own address as a querier: that of its front ports for IGMP, the link-local one for MLD (R337; PRESUMED: RFC 3376, RFC 3810). -/
def querierIp (s : State) (v4 : Bool) : Nat := beNat (if v4 then ownIp s true true else linkLocal true false)

/-- SNOOP_QUERY_RECEIVED (R337): a query, or a PIM hello, makes its port a router port; a query of a lower address, of IGMP or of MLD, makes its
sender the querier of its protocol for 255 s (PRESUMED: RFC 3376, RFC 3810). -/
def execSnoopQueryReceived (port : Fin 16) (vlan : BitVec 12) (query : Bool) (ip : BitVec 128) (s : State) :
    Host.Outcome State Fault Refusal :=
  awake s <|
  if !(parB s 0x3060 1) then done s
  else
    let v4 := decide (ip.toNat / 2 ^ 32 = 0xFFFF)
    done { s with selv := { s.selv with
      routers := aput s.selv.routers (vlan, port.val) (s.clk.now + par s 0x3060 2 * 1000000000)
      queriers := if query && decide (ip.toNat < querierIp s v4) then aput s.selv.queriers (vlan, v4) (s.clk.now + 255000000000)
        else s.selv.queriers } }

/-- MEMBERSHIP_EXPIRY (R337, R490): a membership, or a router port, has reached its time, on a device that serves. -/
def execMembershipExpiry (port : Fin 16) (vlan : BitVec 12) (mac : Option (BitVec 48)) (s : State) :
    Host.Outcome State Fault Refusal :=
  awake s <|
  if serves s = false then done s else
  match mac with
  | some g =>
    match alook s.selv.members (vlan, g, port.val) with
    | some t => if t ≤ s.clk.now then done (s.dropMember vlan g port) else done s
    | none => done s
  | none =>
    match alook s.selv.routers (vlan, port.val) with
    | some t => if t ≤ s.clk.now then done { s with selv := { s.selv with routers := adel s.selv.routers (vlan, port.val) } } else done s
    | none => done s

/-- Another querier of a protocol is present in a VLAN (R337). -/
def otherQuerier (s : State) (vlan : BitVec 12) (v4 : Bool) : Bool :=
  match alook s.selv.queriers (vlan, v4) with
  | some t => decide (s.clk.now < t)
  | none => false

/-- A general query of a protocol goes to the VLAN's member ports, every 125 s, unless another querier is present. Its contents are the
standards' (free bytes). -/
def State.generalQuery (s : State) (vlan : BitVec 12) (v4 : Bool) : State :=
  let key := 2 * vlan.toNat + b2n v4
  let due := match look s.selv.lastQuery key with
    | some t => decide (t + 125000000000 ≤ s.clk.now)
    | none => true
  if !due || otherQuerier s vlan v4 then s
  else
    let s0 : State := { (s.freed) with selv := { s.selv with lastQuery := put s.selv.lastQuery key s.clk.now } }
    let mac := if v4 then 0x01005E000001 else 0x333300000001
    ((List.range 16).filter (vlanMember s vlan.toNat)).foldl (fun s' p => (s'.enqueueCopy (bridgeQueue p 7) mReplicate
      { data := be 6 mac ++ be 6 frontMac.toNat ++ portTag s vlan.toNat p 7 ++ Config.freeBytes s.clk.free }).2) s0

/-- GENERAL_QUERY_SEND (R337): the querier sends its general queries, of IGMP and of MLD. -/
def execGeneralQuerySend (vlan : BitVec 12) (s : State) : Host.Outcome State Fault Refusal :=
  awake s <|
  if !(serves s) || !(parB s 0x3060 4) || !(parB s 0x3060 1) || vlanEntry s vlan.toNat % 65536 == 0 then done s
  else done ((s.generalQuery vlan true).generalQuery vlan false)

/-- A group record of a report on a state change (PRESUMED: RFC 3376, RFC 3810): any source or one, joined or left. -/
def groupRecord (v4 : Bool) (group : Bytes) (source : Option Bytes) (join : Bool) : Bytes :=
  let a (b : Bytes) : Bytes := if v4 then b.drop 12 else b
  match source with
  | some x => be 1 (if join then 5 else 6) ++ [0] ++ be 2 1 ++ a group ++ a x
  | none => be 1 (if join then 4 else 3) ++ [0, 0, 0] ++ a group

/-- The packet of an IGMPv3 or MLDv2 report with one record, from the Ethernet type on (PRESUMED: RFC 3376, RFC 3810). -/
def reportBytes (s : State) (v4 : Bool) (rec_ : Bytes) (id : Nat) : Bytes :=
  if v4 then
    let m (k : Nat) : Bytes := [0x22, 0] ++ be 2 k ++ [0, 0, 0, 1] ++ rec_
    let body := m (inetSum (m 0))
    let h (k : Nat) : Bytes := [0x46, 0xC0] ++ be 2 (24 + body.length) ++ be 2 id ++ [0x40, 0, 1, 2] ++ be 2 k ++ (ownIp s true true).drop 12 ++
      [224, 0, 0, 22, 0x94, 4, 0, 0]
    [0x08, 0x00] ++ h (inetSum (h 0)) ++ body
  else
    let src := linkLocal true false
    let dst : Bytes := [0xFF, 2, 0, 0, 0, 0, 0, 0, 0, 0, 0, 0, 0, 0, 0, 0x16]
    let m (k : Nat) : Bytes := [0x8F, 0] ++ be 2 k ++ [0, 0, 0, 1] ++ rec_
    let body := m (inetSum (src ++ dst ++ be 4 (m 0).length ++ [0, 0, 0, 0x3A] ++ m 0))
    [0x86, 0xDD, 0x60, 0, 0, 0] ++ be 2 (8 + body.length) ++ [0, 1] ++ src ++ dst ++ [0x3A, 0, 5, 2, 0, 0, 1, 0] ++ body

/-- The device joins or leaves the group of a context (R265): a report, source-specific where a source is named, on the front ports of the
VLAN that lead to a router. -/
def State.ownReport (s : State) (vlan : BitVec 12) (group : Bytes) (source : Option Bytes) (join : Bool) : State :=
  let v4 := isV4 group
  let mac := if v4 then 0x01005E000016 else 0x333300000016
  let b := reportBytes s v4 (groupRecord v4 group source join) (Config.freeNat s.clk.free)
  ((routerPorts s vlan).foldl (fun s p => (s.enqueueCopy (bridgeQueue p 7) mReplicate
    { data := be 6 mac ++ be 6 frontMac.toNat ++ portTag s vlan.toNat p 7 ++ b }).2) s).freed

/-- The device's membership report for an IPv4 or IPv6 group after a takeover goes to the router ports (R337, R494); its content is the
standards' (free bytes). -/
def State.groupReport (s : State) (vlan : BitVec 12) (v4 : Bool) : State :=
  let mac := if v4 then 0x01005E000016 else 0x333300000016
  ((routerPorts s vlan).foldl (fun s p => (s.enqueueCopy (bridgeQueue p 7) mReplicate
    { data := be 6 mac ++ be 6 frontMac.toNat ++ portTag s vlan.toNat p 7 ++ Config.freeBytes s.clk.free }).2) s).freed

/-! ### Endpoint resolution (R336) -/

def samePrefix (len : Nat) (a b : BitVec 128) : Bool := a.toNat / 2 ^ (128 - len) == b.toNat / 2 ^ (128 - len)

/-- The address and the MAC that an ARP packet's sender or a neighbour advertisement states (PRESUMED: RFC 826, RFC 4861). -/
def neighbourOf (b : Bytes) (p : Parsed) : Option (Nat × BitVec 48) :=
  let o := p.layers.getLast?.getD 0
  if p.ethType = 0x0806 ∧ p.layers.length = p.tags.length + 2 then some (beNat (mapV4 (slice b (o + 14) 4)), BitVec.ofNat 48 (beNat (slice b (o + 8) 6)))
  else if p.proto = some 58 ∧ u8 b p.payload = 136 then
    some (beNat (slice b (p.payload + 8) 16),
      if u8 b (p.payload + 24) = 2 then BitVec.ofNat 48 (beNat (slice b (p.payload + 26) 6)) else p.srcMac)
  else none

/-- The next hop of an endpoint and its VLAN, by the prefix table: an all-zero next hop is the endpoint itself (R336). -/
def nextHop (s : State) (e : Nat) : Option (Nat × Nat) :=
  let ip := beNat (fldBytes s 0x8005 e 3)
  match s.selv.lpm.find? fun x => samePrefix x.len x.pre (BitVec.ofNat 128 ip) with
  | some x => if x.action = 0 then some (if x.hop = 0 then ip else x.hop.toNat, x.vlan.toNat) else none
  | none => none

/-- Station firmware takes ARP or neighbour traffic that comes to it (R336): the MAC is placed in `RESOLVED_MAC` of each endpoint whose `MAC` is
all 0 and whose next hop it names. -/
def State.resolveFrom (s : State) (port : Nat) (b : Bytes) : State :=
  let p := parseFrame b
  match neighbourOf b p with
  | none => s
  | some (ip, mac) =>
    ((validRows s 0x8005).filter fun e => isZero (fldBytes s 0x8005 e 4) && nextHop s e == some (ip, vidOf s port p)).foldl (fun s e =>
      let v := lookD {} s.trans.endpoints e
      if v.resolved = mac then s
      else ({ s with trans := { s.trans with endpoints := put s.trans.endpoints e { v with resolved := mac } } } : State).logLearn
        (.resolved (BitVec.ofNat 20 e) mac)) s

/-! ### Links (R333, R353) -/

/-- A flush by a port in all VLANs waits for the arbiter; one that already waits for the port is enough (R333). -/
def State.downFlush (s : State) (port : Nat) : State :=
  if s.selv.cmds.any fun c => c.down && c.next_ == 0 && c.args.dest.toNat == port then s
  else { s with selv := { s.selv with cmds := s.selv.cmds ++
    [{ se := .bar2, op := .flushPort, args := { dest := BitVec.ofNat 8 port }, drop := true, down := true }] } }

/-- A link goes down: everything queued below the port node is discarded; with 0x3010:05 a flush of the port's entries follows. -/
def State.linkDown (s : State) (port : Nat) : State :=
  if !(linkUp s port) then s
  else
    let s1 : State := { s with selv := { s.selv with links := s.selv.links &&& (~~~ ((1 : BitVec 16) <<< port)) } }
    let qs := s1.trans.queues.filterMap fun q => if q.2.copies ≠ [] ∧ queuePort s1 q.1 = port then some q.1 else none
    let s2 := qs.foldl (fun s q => s.discardQueue q) { s1 with trans := { s1.trans with
      ports := s1.trans.ports.map fun q => if q.1 = port then (q.1, { q.2 with chain := {} }) else q } }
    if parB s 0x3010 5 then s2.downFlush port else s2

/-- LINK_DOWN (R333, R353). -/
def execLinkDown (port : Fin 16) (s : State) : Host.Outcome State Fault Refusal :=
  awake s <| done (s.linkDown port)

/-- LINK_UP: a front link comes up; copies for the port are admitted again (R353). -/
def execLinkUp (port : Fin 16) (s : State) : Host.Outcome State Fault Refusal :=
  awake s <|
  if s.boot.selvedge && portActive s port then
    done { s with selv := { s.selv with links := s.selv.links ||| ((1 : BitVec 16) <<< port.val) } }
  else done s

end Sys2Proof.Machine
end

