-- ==== Sys2Proof/Machine/Receive.lean ====
section
/-! DEFINITION. Decode contexts: reception of their streams into the bitstream ring, rows that begin and end (R263 to R272, R277, R282). -/

namespace Sys2Proof.Machine

/-! ### Contexts and counters -/

def State.dec (s : State) (c : Nat) : Dec := lookD {} s.decs c
def State.setDec (s : State) (c : Nat) (e : Dec) : State := { s with decs := put s.decs c e }
/-- Count in 0x8003:33 to 3F (R284); they wrap. -/
def State.decCount (s : State) (c k : Nat) (n : Nat := 1) : State :=
  s.setDec c { s.dec c with counters := bumpW (s.dec c).counters k n }
def State.dtile (s : State) (p : Nat) : Dtile := lookD {} s.dtiles p
def State.setDtile (s : State) (p : Nat) (v : Dtile) : State := { s with dtiles := put s.dtiles p v }
def decHolder (c : Nat) : Holder := .context (BitVec.ofNat 12 c)
/-- The master that a context's own work carries where no tile decodes for it: the first tile of its cluster (R263; log entry 139). -/
def decMaster (s : State) (c : Nat) : Master := mServing mDec (decPhys s (Fin.ofNat 32 (4 * (c % 8))))

/-- Release a picture: its blocks. -/
def State.releasePic (s : State) (m : Master) (p : DecPic) : State := s.releaseSlots m p.blocks
/-- Release a picture with the frames of its table (R274). -/
def State.forgetPic (s : State) (m : Master) (p : DecPic) : State := (s.releasePic m p).releaseSlots m p.frames
/-- Name the blocks of a picture once more. -/
def State.namePic (s : State) (m : Master) (h : Holder) (p : DecPic) : State :=
  p.blocks.foldl (fun s x => s.nameBlock m x.block x.gen h) s

/-- `STATE`, with the two events of source 0x00C as it enters and leaves 3 (R281). -/
def State.decState (s : State) (m : Master) (c : Nat) (st : DecState) : State :=
  let e := s.dec c
  let s1 := s.setDec c { e with state := st }
  let was := decide (e.state = .recovering)
  let is := decide (st = .recovering)
  if was = is then s1 else s1.raise 0x00C m (le 2 c ++ [if is then 1 else 0])

/-- The pictures that a context holds: its picture buffer, its last output picture, those that wait for their instant (R274, R276). -/
def Dec.held (e : Dec) : List DecPic := e.dpb ++ e.lastOut.toList ++ e.toCommit.map (·.pic)
/-- While any held picture carries a mark, `STATE` is 3 (R281). -/
def State.reviewMarks (s : State) (m : Master) (c : Nat) : State :=
  s.decState m c (if (s.dec c).held.any fun p => !p.marks.isEmpty then .recovering else .decoding)
/-- The same for a context that decodes, after a picture has left. -/
def State.picLeft (s : State) (m : Master) (c : Nat) : State :=
  if (s.dec c).state = .recovering then s.reviewMarks m c else s

/-- A context becomes unsynchronised (R266, R277, R282). -/
def State.unsync (s : State) (c : Nat) : State :=
  let s1 := s.setDec c { s.dec c with
    seqNext := none, beyond := [], auNals := [], auSegs := [], frag := none, fragLost := false, auRtp := none, auDrop := false
    lastDon := none, recs := [], marking := false, stPrev := none }
  s1.decState (decMaster s c) c .unsync

/-- A picture is lost before decoding (R269, R273, R278): it voids every recovery point begun (R281). -/
def State.losePicture (s : State) (c : Nat) : State :=
  let s1 := (s.decCount c 0x3C).count 0x5041 5
  s1.setDec c { s1.dec c with recs := [] }

/-- A row's fields as reception follows them (R282). -/
def rxRow (s : State) (c : Nat) : Rx :=
  { pt := fld s 0x8003 c 8, donl := fldB s 0x8003 c 9, reorder := fld s 0x8003 c 0xA, fmt := fld s 0x8003 c 0x10
    width := fld s 0x8003 c 0x11, height := fld s 0x8003 c 0x12 }
/-- Those in force for a packet of a timestamp: a picture being received keeps those that it began with. -/
def rxFor (s : State) (c : Nat) (rtp : BitVec 32) : Rx := if (s.dec c).auRtp = some rtp then (s.dec c).rx else rxRow s c

/-! ### Depacketization (R268, R270) -/

/-- Row segments of an RFC 4175 payload (R270; PRESUMED: ST 2110-20): up to three headers of length, row and offset, then their data. -/
def stHeaders : Nat → Bytes → List (Nat × Nat × Nat) × Bytes
  | 0, b => ([], b)
  | n + 1, b =>
    let h := (be16 b 0, be16 b 2 % 32768, be16 b 4 % 32768)
    if bitOf (be16 b 4) 15 then let q := stHeaders n (b.drop 6); (h :: q.1, q.2) else ([h], b.drop 6)
def stSegments (b : Bytes) : List (Nat × Nat × Bytes) :=
  let q := stHeaders 3 b
  (q.1.foldl (fun (a : List (Nat × Nat × Bytes) × Bytes) h => (a.1 ++ [(h.2.1, h.2.2, a.2.take h.1)], a.2.drop h.1)) ([], q.2)).1

/-- What one RTP payload holds: whole NAL units, or a fragment with its NAL header, start and end; none when it is dropped. -/
inductive Unpacked where
  | dropped
  | nals (l : List Bytes)
  | frag (head data : Bytes) (start fin : Bool)

/-- The units of an aggregation packet: 2-byte lengths before each, with `don` further bytes before a length. `n` bounds them. -/
def aggUnits (first don : Nat) : Nat → Bytes → List Bytes
  | 0, _ => []
  | n + 1, b =>
    let r := b.drop first
    if r.length < 2 then []
    else
      let l := be16 r 0
      (r.drop 2).take l :: aggUnits don don n (r.drop (2 + l))

/-- Depacketize one payload of a source kind: 0 HEVC, 1 VVC, 2 AVC. Each NAL unit comes with its decoding order number. -/
def unpack (kind : Nat) (donl : Bool) (b : Bytes) : Unpacked :=
  let d := if donl then 2 else 0
  if kind = 0 then
    let t := u8 b 0 / 2 % 64
    if b.length < 3 ∨ t = 50 then .dropped
    else if t = 48 then .nals (aggUnits d (if donl then 1 else 0) b.length (b.drop 2))
    else if t = 49 then
      let f := u8 b 2
      .frag [BitVec.ofNat 8 (u8 b 0 / 128 * 128 + f % 64 * 2 + u8 b 0 % 2), BitVec.ofNat 8 (u8 b 1)]
        (b.drop (3 + (if bitOf f 7 then d else 0))) (bitOf f 7) (bitOf f 6)
    else .nals [b.take 2 ++ b.drop (2 + d)]
  else if kind = 1 then
    let t := u8 b 1 / 8
    if b.length < 3 ∨ 30 ≤ t then .dropped
    else if t = 28 then .nals (aggUnits d (if donl then 1 else 0) b.length (b.drop 2))
    else if t = 29 then
      let f := u8 b 2
      .frag [BitVec.ofNat 8 (u8 b 0), BitVec.ofNat 8 (f % 32 * 8 + u8 b 1 % 8)] (b.drop (3 + (if bitOf f 7 then d else 0)))
        (bitOf f 7) (bitOf f 6)
    else .nals [b.take 2 ++ b.drop (2 + d)]
  else
    let t := u8 b 0 % 32
    if b.length < 2 then .dropped
    else if 1 ≤ t ∧ t ≤ 23 then .nals [b]
    else if t = 24 then .nals (aggUnits 0 0 b.length (b.drop 1))
    else if t = 28 then
      let f := u8 b 1
      .frag [BitVec.ofNat 8 (u8 b 0 / 32 * 32 + f % 32)] (b.drop 2) (bitOf f 7) (bitOf f 6)
    else .dropped

/-- Decoding order numbers of a payload's NAL units under `DONL`; each further unit of an aggregation packet adds DOND + 1. -/
def dons (kind : Nat) (b : Bytes) : List (BitVec 16) :=
  let agg := (kind == 0 && u8 b 0 / 2 % 64 == 48) || (kind == 1 && u8 b 1 / 8 == 28)
  let fu := (kind == 0 && u8 b 0 / 2 % 64 == 49) || (kind == 1 && u8 b 1 / 8 == 29)
  let first := BitVec.ofNat 16 (be16 b (if fu then 3 else 2))
  if !agg then [first]
  else
    let rec go : Nat → Bytes → BitVec 16 → List (BitVec 16)
      | 0, _, _ => []
      | n + 1, r, x =>
        if r.length < 3 then []
        else
          let y := x + 1 + BitVec.ofNat 16 (u8 r 0)
          y :: go n (r.drop (3 + be16 r 1)) y
    first :: go b.length (b.drop (6 + be16 b 4)) first

/-- A decoding order number is greater than its predecessor's (modulo 65,536). -/
def donAfter (a b : BitVec 16) : Bool := let d := (b - a).toNat; decide (0 < d) && decide (d < 32768)

/-! ### The bitstream ring (R268, R272) -/

/-- Bytes of the ring that are in use: those of the access unit being assembled, of the queued ones and of the one in decoding. -/
def ringHeld (e : Dec) : Nat :=
  let bytes (a : AccessUnit) : Nat := sumNat (a.nals.map List.length)
  sumNat (e.auNals.map List.length) + sumNat ((e.queue ++ (e.decoding.map (·.au)).toList).map bytes)

/-- Bytes enter the ring in HBM, behind those before. -/
def State.ringWrite (s : State) (c : Nat) (b : Bytes) : State :=
  let e := s.dec c
  let o := e.ringIn % e.ringSize
  let n := e.ringSize - o
  ((s.devStore (e.ringAt + o) (b.take n)).devStore e.ringAt (b.drop n)).setDec c { e with ringIn := e.ringIn + b.length }

/-- A NAL unit enters the ring and the access unit being assembled. One for which the ring has no room is discarded as lost (log entry 202). -/
def State.enterNal (s : State) (c : Nat) (b : Bytes) : State :=
  let e := s.dec c
  if e.ringSize < ringHeld e + b.length then s.decCount c 0x3F
  else let s1 := s.ringWrite c b; s1.setDec c { s1.dec c with auNals := e.auNals ++ [b] }

/-- With `DONL`, a NAL unit's decoding order number is not greater than its predecessor's. -/
def Dec.outOfOrder (e : Dec) (donl : Bool) (d : BitVec 16) : Bool :=
  donl && (match e.lastDon with | some x => !(donAfter x d) | none => false)

/-- NAL units with their decoding order numbers enter; one out of order is discarded as lost. -/
def State.enterNals (s : State) (c : Nat) (donl : Bool) : List (Bytes × BitVec 16) → State
  | [] => s
  | (b, d) :: r =>
    let e := s.dec c
    State.enterNals
      (if e.outOfOrder donl d then s.decCount c 0x3F
       else (s.setDec c { e with lastDon := if donl then some d else e.lastDon }).enterNal c b) c donl r

/-- An open fragment is lost. -/
def State.cutFrag (s : State) (c : Nat) : State :=
  let s1 := if (s.dec c).frag.isSome then s.decCount c 0x3F else s
  s1.setDec c { s1.dec c with frag := none, fragLost := false }

/-- A payload of NAL units is depacketized (R268). -/
def State.takePayload (s : State) (c kind : Nat) (donl : Bool) (b : Bytes) : State :=
  match unpack kind donl b with
  | .dropped => s.decCount c 0x39
  | .nals l => (s.cutFrag c).enterNals c donl (l.zip (if donl then dons kind b else l.map fun _ => 0))
  | .frag head data start fin =>
    let e := s.dec c
    if start then
      let s1 := s.cutFrag c
      let d := (dons kind b).headD 0
      if e.outOfOrder donl d then (s1.decCount c 0x3F).setDec c { (s1.decCount c 0x3F).dec c with fragLost := true }
      else s1.setDec c { s1.dec c with frag := some (head ++ data), lastDon := if donl then some d else e.lastDon }
    else
      match e.frag with
      | some f =>
        if fin then (s.setDec c { e with frag := none }).enterNal c (f ++ data) else s.setDec c { e with frag := some (f ++ data) }
      | none =>
        let s1 := if e.fragLost then s else s.decCount c 0x3F
        s1.setDec c { s1.dec c with fragLost := !fin }

/-! ### Access units (R267, R269) -/

/-- Complete the access unit being assembled (R269): queued, if it holds anything. -/
def State.completeAu (s : State) (c : Nat) : State :=
  let e := s.dec c
  let s1 := s.setDec c { e with auNals := [], auSegs := [], auRtp := none, auDrop := false }
  if e.auDrop then s1.losePicture c
  else if e.auNals.isEmpty && e.auSegs.isEmpty then s1
  else
    let au : AccessUnit :=
      { nals := e.auNals, segs := e.auSegs, rtp := e.auRtp.getD 0, completeAt := s.clk.now, arrived := e.auArrived, codec := fld s 0x8003 c 2 }
    s1.setDec c { s1.dec c with queue := e.queue ++ [au] }

/-- An RTP timestamp is later than another, modulo 2^32. -/
def rtpLater (a b : BitVec 32) : Bool := decide (0 < (b - a).toInt)

/-- Hand one packet on, in sequence order (R268, R269): one with a later timestamp completes the access unit before it. While the queue is
full, packets that would start an access unit, and the others of that unit, are dropped, counted with the drops of R268 (log entry 203). -/
def State.handOn (s : State) (c : Nat) (k : HeldPkt) : State :=
  let s1 := match (s.dec c).auRtp with
    | some x => if rtpLater x k.rtp then s.completeAu c else s
    | none => s
  let e1 := s1.dec c
  let s2 := if e1.auRtp.isSome then s1
    else s1.setDec c { e1 with
      auRtp := some k.rtp, auArrived := s.time.ptp, auDrop := decide (par s 0x5040 1 ≤ e1.queue.length), rx := rxRow s c }
  let e2 := s2.dec c
  let kind := fld s 0x8003 c 2
  let s3 :=
    if e2.auDrop then (s2.setDec c { e2 with frag := none, fragLost := false }).decCount c 0x39
    else if kind = 3 then s2.setDec c { e2 with auSegs := e2.auSegs ++ stSegments (k.payload.drop 2) }
    else s2.takePayload c kind (e2.rx.donl && kind != 2) k.payload
  if k.marker then s3.completeAu c else s3

/-- Hand on every held packet that follows without a gap. `n` bounds them. -/
def drainHeld : Nat → State → Nat → State
  | 0, s, _ => s
  | n + 1, s, c =>
    let e := s.dec c
    match e.beyond, e.seqNext with
    | k :: r, some q =>
      if k.seq = q then drainHeld n ((s.setDec c { e with beyond := r, seqNext := some (q + 1) }).handOn c k) c else s
    | _, _ => s

/-- Positions up to the first packet beyond the gap are declared lost (R267); an open fragment is lost with them. -/
def State.loseGap (s : State) (c : Nat) : State :=
  let e := s.dec c
  match e.beyond, e.seqNext with
  | k :: _, some q =>
    let n := k.seq - q
    let s1 := ((s.setDec c { e with seqNext := some k.seq, frag := none, fragLost := e.fragLost || e.frag.isSome }).decCount c 0x3A n).count
      0x5041 4 n
    let s2 := if e.frag.isSome then s1.decCount c 0x3F else s1
    drainHeld e.beyond.length s2 c
  | _, _ => s

/-- Insert by sequence number. -/
def insHeld (k : HeldPkt) : List HeldPkt → List HeldPkt
  | [] => [k]
  | x :: r => if k.seq < x.seq then k :: x :: r else x :: insHeld k r

/-! ### Packets (R265 to R267, R270) -/

/-- The payload of an RTP packet, after its CSRCs, extension and padding; none where the lengths disagree. -/
def rtpPayload (b : Bytes) : Option Bytes :=
  let a := 12 + 4 * (u8 b 0 % 16)
  let ext := if bitOf (u8 b 0) 4 then 4 + 4 * be16 b (a + 2) else 0
  let pad := if bitOf (u8 b 0) 5 then u8 b (b.length - 1) else 0
  if b.length < a + ext + pad ∨ b.length < 12 then none else some ((b.drop (a + ext)).take (b.length - a - ext - pad))

/-- An ST 2110-20 payload (R270): every row header has the field bit 0 and lies inside the declared picture. `n` bounds them. -/
def stHeadersOk (w h : Nat) : Nat → Bytes → Bool
  | 0, _ => false
  | n + 1, b =>
    decide (6 ≤ b.length) && !(bitOf (be16 b 2) 15) && decide (be16 b 2 % 32768 < h) && decide (be16 b 4 % 32768 < w) &&
      (!(bitOf (be16 b 4) 15) || stHeadersOk w h n (b.drop 6))

/-- One datagram for a context (R265 to R270). `tagged`: its items carry their error tag. -/
def State.decodePacket (s : State) (c : Nat) (payload : Bytes) (tagged : Bool) : State :=
  let kind := fld s 0x8003 c 2
  let e := s.dec c
  if serves s = false ∨ decValid s c = false ∨ e.live = false ∨ 3 < kind then s
  else
    let rx := rxFor s c (BitVec.ofNat 32 (be32 payload 4))
    let want := fld s 0x8003 c 7
    let ssrc := BitVec.ofNat 32 (be32 payload 8)
    let locked : Option (BitVec 32) := if want ≠ 0 then some (BitVec.ofNat 32 want) else e.ssrc
    let silent := decide (want = 0) && decide (e.lastPkt + 1000000000 ≤ s.clk.now)
    let relock := decide (want = 0) && (locked.isNone || (locked != some ssrc && silent))
    match rtpPayload payload with
    | none => s.decCount c 0x39
    | some body =>
      let bad := tagged || u8 payload 0 / 64 != 2 || (rx.pt != 0xFF && u8 payload 1 % 128 != rx.pt) || !(relock || locked == some ssrc) ||
        (kind == 3 && !(stHeadersOk rx.width rx.height 3 (body.drop 2)))
      if bad then s.decCount c 0x39
      else
        let s1 := if relock && locked.isSome then s.unsync c else s
        let s2 := (s1.setDec c { s1.dec c with ssrc := some ssrc, lastPkt := s.clk.now }).decCount c 0x38
        let e2 := s2.dec c
        -- the sequence number has 32 bits in an ST 2110-20 payload, and is extended to 32 elsewhere (R267, R270)
        let long := decide (kind = 3)
        let seq := if long then be16 body 0 * 65536 + be16 payload 2 else be16 payload 2
        let q := e2.seqNext.getD seq
        let n := if long then 32 else 16
        let at_ : Int := q + sext n ((seq + 2 ^ n - q % 2 ^ n) % 2 ^ n)
        let k : HeldPkt :=
          { seq := at_.toNat, at_ := s.clk.now, marker := bitOf (u8 payload 1) 7, rtp := BitVec.ofNat 32 (be32 payload 4), payload := body }
        if at_ < q ∨ e2.beyond.any (fun x => x.seq == k.seq) = true then s2.decCount c 0x3B
        else if k.seq = q then
          drainHeld e2.beyond.length ((s2.setDec c { e2 with seqNext := some (q + 1) }).handOn c k) c
        else
          let s3 := s2.setDec c { e2 with beyond := insHeld k e2.beyond }
          if 64 < e2.beyond.length + 1 then s3.loseGap c else s3

/-- DECODE_PACKET (R265 to R270): the oldest datagram that Selvedge has delivered to a context is taken. -/
def execDecodePacket (ctx : BitVec 12) (tagged : Bool) (s : State) : Host.Outcome State Fault Refusal :=
  awake s <|
  match (s.dec ctx.toNat).inbox with
  | [] => done s
  | b :: r => done ((s.setDec ctx.toNat { s.dec ctx.toNat with inbox := r }).decodePacket ctx.toNat b tagged)

/-- REORDER_TIMEOUT (R267): `REORDER_US` after the first packet beyond it arrived, a gap is declared lost. -/
def execReorderTimeout (ctx : BitVec 12) (s : State) : Host.Outcome State Fault Refusal :=
  awake s <|
  let c := ctx.toNat
  let e := s.dec c
  match (e.beyond.map (·.at_)).foldl (fun a t => some (min (a.getD t) t)) none with
  | none => done s
  | some t => if t + 1000 * (if e.auRtp.isSome then e.rx else rxRow s c).reorder ≤ s.clk.now then done (s.loseGap c) else done s

/-- SSRC_RELOCK (R266): the locked SSRC is silent for 1 s: the next accepted packet's source is locked, and the context starts anew. -/
def execSsrcRelock (ctx : BitVec 12) (s : State) : Host.Outcome State Fault Refusal :=
  awake s <|
  let c := ctx.toNat
  let e := s.dec c
  if decValid s c && e.live && fld s 0x8003 c 7 == 0 && e.ssrc.isSome && decide (e.lastPkt + 1000000000 ≤ s.clk.now) then
    done ((s.setDec c { e with ssrc := none }).unsync c)
  else done s

/-! ### Rows that begin and end (R265, R275, R277, R282) -/

/-- The group of a decode row's destination, reported when the row begins or ends to receive (R265). -/
def State.reportRow (s : State) (c : Nat) (join : Bool) : State :=
  let ip := fldBytes s 0x8003 c 3
  let src := fldBytes s 0x8003 c 5
  let v4 := isV4 ip
  let multi := if v4 then decide (224 ≤ u8 ip 12) && decide (u8 ip 12 ≤ 239) else u8 ip 0 == 0xFF
  if multi && serves s then s.ownReport (BitVec.ofNat 12 (fld s 0x8003 c 6)) ip (if isZero src then none else some src) join else s

/-- The surface in force of a context belongs to it, and the one before becomes the device's (R275, R282). -/
def State.ownSurface (s : State) (c : Nat) (h : Nat) : State :=
  let old := (s.dec c).surface
  let s1 := if old ≠ h ∧ (s.surface old).owner = decHolder c then s.setSurface old { s.surface old with owner := .device } else s
  let s2 := s1.setDec c { s1.dec c with surface := h }
  if s.pool.handles ≤ h then s2 else s2.setSurface h { s2.surface h with owner := decHolder c }

/-- A picture of the context has not ended, or waits for its instant. -/
def Dec.busy (e : Dec) : Bool := e.decoding.isSome || !e.toCommit.isEmpty

/-- A decode row begins: a frame for its record, if one is free and not reserved (R235), its ring, its surface, unsynchronised reception. -/
def State.decBegin (s : State) (c : Nat) : State :=
  let a := if unreserved s.pool = 0 then (([], s) : List Slot × State) else s.allocFrames (decHolder c) 1
  let size := 1024 * par s 0x5040 2
  let s1 := (a.2.freed.setDec c { frames := a.1, ringSize := size, ringAt := arenaPlace a.2 size, live := true }).ownSurface c (fld s 0x8003 c 0xD)
  if serves s then (s1.unsync c).reportRow c true else s1

/-- Release everything that a context holds (R282); its surface keeps its picture and becomes the device's. -/
def State.releaseDec (s : State) (m : Master) (c : Nat) : State :=
  let e := s.dec c
  let s1 := e.dpb.foldl (fun s p => s.forgetPic m p) s
  let s2 := match e.lastOut with | some p => s1.releasePic m p | none => s1
  let s3 := e.toCommit.foldl (fun s q => s.releasePic m q.pic) s2
  let s4 := (((s3.releaseSlots m e.frames).ownSurface c 0xFFFFFFFF)).decState m c .stopped
  s4.setDec c { counters := e.counters, picSize := e.picSize, info := e.info }

/-- An ended context whose last picture has ended is released; a row that has become valid again in the meantime begins (R282; log
entry 204). -/
def State.closeDec (s : State) (m : Master) (c : Nat) : State :=
  let e := s.dec c
  if e.live || e.busy then s
  else
    let s1 := s.releaseDec m c
    if decValid s c then (s1.setDec c {}).decBegin c else s1

/-- A decode row is no longer valid (R282): reception stops and queued access units go; a picture in decoding completes and is output, then
everything is released. -/
def State.decEnd (s : State) (c : Nat) : State :=
  let s1 := s.setDec c { s.dec c with queue := [], inbox := [], beyond := [], auNals := [], auSegs := [], frag := none, auRtp := none, live := false }
  (s1.reportRow c false).closeDec mStore c

/-- Decode rows (R265, R275, R277, R282, R284, R491). A handle written takes effect at the next picture start. -/
def State.decWritten (s old : State) (c sub : Nat) : State :=
  let changed := rowV s 0x8003 sub c != rowV old 0x8003 sub c
  if sub = 1 ∧ decValid s c = true ∧ (changed = false ∨ (s.dec c).busy = true) then s.setDec c { s.dec c with counters := [] }
  else if !changed then s
  else if sub = 1 then (if decValid s c then s.decBegin c else s.decEnd c)
  else if decValid s c && (s.dec c).live && decide (2 ≤ sub) && decide (sub ≤ 7) && serves s then
    let group := sub = 3 ∨ sub = 5 ∨ sub = 6
    let s1 := if group then { (old.reportRow c false) with dict := s.dict } else s
    let s2 := (s1.setDec c { s1.dec c with ssrc := none }).unsync c
    if group then s2.reportRow c true else s2
  else s

end Sys2Proof.Machine
end

