-- ==== Sys2Proof/Machine/DecodeUnit.lean ====
section
/-! DEFINITION. Decode tiles (R259 to R264, R271, R273 to R282): taking an access unit, concealment, marks, recovery, the picture buffer, output to
surfaces, ST 2110-20 frames. -/

namespace Sys2Proof.Machine

/-! ### Blocks that the tile writes (R23, R31, R437) -/

/-- The 256 items of a block cross to the HBM3E controllers, 64 to each stack. -/
def State.surfaceItems (s : State) (p : Nat) : State :=
  [0, 1, 2, 3].foldl (fun s k => s.bobPass (.surface (Fin.ofNat 40 p) (Fin.ofNat 4 k)) 64) s
/-- Both islands look at a tile's surface-write Bobbins, whose items the controllers take as they see them. -/
def State.surfaceClear (s : State) (p : Nat) : State :=
  [0, 1, 2, 3].foldl (fun s k => s.bobClear (.surface (Fin.ofNat 40 p) (Fin.ofNat 4 k))) s
/-- None of them is in reset or holds an item (R27, R29). -/
def State.surfaceOpen (s : State) (p : Nat) : Bool :=
  [0, 1, 2, 3].all fun k => s.bobOpen (.surface (Fin.ofNat 40 p) (Fin.ofNat 4 k))

/-- How the row of an item of the written blocks reads (R30): which item is not fixed. The spec gives a tagged item no consequence at the
controller: its word is stored with its error kept (log entry 205). -/
def State.surfaceRow (s : State) (p : Nat) (sl : List Slot) (e : Ecc) : State :=
  match sl[Config.freeNat s.clk.free % sl.length]? with
  | none => s
  | some x =>
    let w := (s.pool.desc x.block).addr / 32 + Config.freeNat (s.clk.free + 1) % 256
    let s1 := s.freed.freed.readItem (.surface (Fin.ofNat 40 p) (Fin.ofNat 4 ((w - 0x010000000000 / 32) / 8 % 124))) e
    if e = .uncorrectable then { s1 with mem := { s1.mem with poison := w :: s1.mem.poison.filter (· ≠ w) } } else s1

/-- Write blocks 0 to `n - 1` of a picture or copy, each into a new block. -/
def State.writeBlocks (s : State) (p : Nat) (h : Holder) (mark : Mark) (content : State → List Slot → Nat → Block) : Nat → List Slot × State
  | 0 => ([], s)
  | n + 1 =>
    let r := State.writeBlocks s p h mark content n
    let a := (r.2.freed.freed.surfaceItems p).allocBlock h mark (content r.2 r.1 n)
    match a.1 with
    | some (b, g) => (r.1 ++ [⟨b, g, false, 0⟩], a.2)
    | none => (r.1, a.2)

/-- Blocks that a tile has written (R287). -/
def State.tileWrote (s : State) (p n : Nat) : State := s.setDtile p { s.dtile p with blocks := (s.dtile p).blocks + BitVec.ofNat 32 n }

/-! ### Output (R275, R276) -/

/-- A sample of a picture's blocks. -/
def picSample (s : State) (p : DecPic) (plane x y : Nat) : Nat :=
  let n := if plane = 0 then 64 else 32
  match p.blocks[(y / n) * ctuCols p.width + x / n]? with
  | none => 0
  | some sl => sampleAt (s.pool.desc sl.block).data
      (if plane = 0 then 64 * (y % 64) + x % 64 else 4096 + 1024 * (plane - 1) + 32 * (y % 32) + x % 32)

/-- A block of the cropped picture on its own grid. -/
def cropBlock (s : State) (p : DecPic) (bx by_ : Nat) : Block :=
  let lum := (List.range 4096).map fun i => picSample s p 0 (p.cropL + 64 * bx + i % 64) (p.cropT + 64 * by_ + i / 64)
  let chr (k : Nat) := (List.range 1024).map fun i =>
    picSample s p k (p.cropL / 2 + 32 * bx + i % 32) (p.cropT / 2 + 32 * by_ + i / 32)
  packSamples (lum ++ chr 1 ++ chr 2)

/-- Commit a table to the output surface (R275): a waiting commit is superseded, a commit never waits for another. -/
def State.commitTable (s : State) (m : Master) (c surf : Nat) (p : DecPic) (t : List Slot) : State :=
  let v := s.surface surf
  let s1 := match v.waiting with
    | some w => ((s.setSurface surf { v with waiting := none }).releaseSlots m w.2.2.2).decCount c 0x35
    | none => s
  ((s1.setSurface surf { s1.surface surf with waiting := some (p.outW, p.outH, p.depth10, t), concealed := p.marks }).commitSurface m surf).decCount
    c 0x34

/-- Commit a picture (R275): its own blocks, or, where the conformance window's left or top offset is not 0, a re-gridded copy of the cropped
picture in new blocks, which is counted. Without unreserved frames for the copy nothing is committed (R235; log entry 206). -/
def State.commitPic (s : State) (m : Master) (p c surf : Nat) (pic : DecPic) : State :=
  let h : Holder := .surface (BitVec.ofNat 24 surf)
  let n := ctuCols pic.outW * ctuCols pic.outH
  if s.pool.handles ≤ surf then s
  else if pic.cropL = 0 ∧ pic.cropT = 0 then
    (s.namePic m h pic).commitTable m c surf pic (pic.blocks.map fun x => { x with from_ := 0 })
  else if unreserved s.pool < n then s
  else
    let r := s.writeBlocks p h .longTerm (fun s _ i => cropBlock s pic (i % ctuCols pic.outW) (i / ctuCols pic.outW)) n
    let s1 := r.2.tileWrote p n
    (s1.setDec c { s1.dec c with copies := (s1.dec c).copies + 1 }).commitTable m c surf pic r.1

/-- PTP time nearest an arrival at which the 90 kHz count equals an RTP timestamp (R276), in nanoseconds. -/
def rtpInstant (arrived : Nat) (rtp : BitVec 32) : Nat :=
  let a : Nat := arrived * 9 / 100000
  let t : Int := (a : Int) + sext 32 (rtp.toNat + 2 ^ 32 - a % 2 ^ 32)
  (t * 100000 / 9).toNat

/-- A picture leaves the output process: it replaces the last output picture, and is committed, withheld or given its instant. -/
def State.outputPic (s : State) (m : Master) (c : Nat) (g : Decoding) (p : DecPic) : State :=
  let e := s.dec c
  let s1 := s.namePic m (decHolder c) p
  let s2 := match e.lastOut with | some q => s1.releasePic m q | none => s1
  let s3 := s2.setDec c { s2.dec c with
    lastOut := some p, picSize := BitVec.ofNat 32 (p.outW + p.outH * 65536)
    dpb := (s2.dec c).dpb.map fun x => if x.poc = p.poc ∧ x.cvs = p.cvs then { x with output := false } else x }
  if g.withhold && !p.marks.isEmpty then s3.decCount c 0x37
  else if g.surface = 0xFFFFFFFF then s3
  else if !g.timed then s3.commitPic m g.tile c g.surface p
  else
    let due := rtpInstant p.arrived p.rtp + 1000 * g.delay
    if due < s.time.ptp then (s3.commitPic m g.tile c g.surface p).decCount c 0x36
    else
      let s4 := s3.namePic m (decHolder c) p
      s4.setDec c { s4.dec c with toCommit := (s4.dec c).toCommit ++ [⟨due, p, g.surface, g.tile⟩] }

/-- TIMED_OUTPUT_COMMIT (R276, R282): the picture whose instant has come is committed. -/
def execTimedOutputCommit (ctx : BitVec 12) (s : State) : Host.Outcome State Fault Refusal :=
  awake s <|
  let c := ctx.toNat
  let e := s.dec c
  match minBy (fun q : Timed => q.due) e.toCommit with
  | none => done s
  | some q =>
    if s.time.ptp < q.due then done s
    else
      let m := mDec q.tile
      let s1 := s.setDec c { e with toCommit := match takeFirst (fun x => decide (x = q)) e.toCommit with | some r => r.2 | none => [] }
      done ((((s1.commitPic m q.tile c q.surf q.pic).releasePic m q.pic).picLeft m c).closeDec m c)

/-! ### Taking an access unit (R263, R273, R274) -/

/-- The row's fields as a picture starts with them (R282). -/
def decodingOf (s : State) (c p : Nat) (au : AccessUnit) : Decoding :=
  { tile := p, au := au, reserved := 0, startAny := fldB s 0x8003 c 0xB, withhold := fld s 0x8003 c 0xC == 1
    surface := fld s 0x8003 c 0xD, timed := fld s 0x8003 c 0xE == 1, delay := fld s 0x8003 c 0xF, since := s.clk.now, rx := (s.dec c).rx }

/-- Frames of the picture table of `n` blocks: 8-byte slots and a bit for each block (R274). -/
def tableFrames (n : Nat) : Nat := (8 * n + (n + 7) / 8 + 8191) / 8192

/-- A tile begins a picture of a context: the row's fields of the moment, the frames of its table, `n` blocks reserved (R235, R273, R282). The
picture is lost where the reservation, or a frame for its table, cannot be met. -/
def State.beginPicture (s : State) (p c : Nat) (au : AccessUnit) (width height : Nat) (poc : BitVec 32) : State :=
  let n := ctuCols width * ctuCols height
  if unreserved s.pool < n + tableFrames n then s.losePicture c
  else
    let a := (s.ownSurface c (fld s 0x8003 c 0xD)).allocFrames (decHolder c) (tableFrames n)
    let s1 := a.2.setDec c { a.2.dec c with
      decoding := some { decodingOf s c p au with reserved := n, width := width, height := height, poc := poc, frames := a.1 } }
    ({ s1 with pool := { s1.pool with reserved := s1.pool.reserved + n } } : State).setDtile p { s.dtile p with
      ctx := BitVec.ofNat 12 c, state := 2, kind := BitVec.ofNat 2 au.codec }

/-- DECODE_TAKE (R263, R273): an idle tile takes, of its cluster's contexts, the one whose oldest access unit became complete first, and
reserves its blocks. `width`, `height` and `poc` are the coded size and the picture order count that the bitstream gives; an ST 2110-20 frame
has the row's size. -/
def execDecodeTake (tile : Fin 32) (width height : BitVec 16) (poc : BitVec 32) (s : State) : Host.Outcome State Fault Refusal :=
  awake s <|
  let p := decPhys s tile
  let t := s.dtile p
  if p = 0xFF ∨ t.state ≠ 0 ∨ t.powered = false then done s
  else
    let cands := s.decs.filter fun q => q.1 % 8 == tile.val / 4 && !q.2.queue.isEmpty && q.2.decoding.isNone
    match minBy (fun q : Nat × Dec => match q.2.queue with | a :: _ => a.completeAt | [] => 0) cands with
    | none => done s
    | some (c, e) =>
      match e.queue with
      | [] => done s
      | au :: r =>
        let s1 := s.setDec c { e with queue := r }
        done (if au.codec = 3 then s1.beginPicture p c au e.rx.width e.rx.height 0
          else s1.beginPicture p c au width.toNat height.toNat poc)

/-- A random access point starts an unsynchronised context (R277). -/
def startsHere (g : Decoding) (f : PicFound) : Bool :=
  match f.start with
  | .plain => g.startAny
  | _ => true

/-- The sequences within R259, by codec (0 HEVC, 1 VVC, 2 AVC) and the profile, level, depth and chroma of `STREAM_INFO` (R283). The profile
and level numbers are the standards' (PRESUMED). -/
def withinTable (codec : Nat) (info : Word) : Bool :=
  let v := info.toNat
  let profile := v % 256
  let level := v / 256 % 256
  let depth := v / 65536 % 16
  let c420 := v / 2 ^ 20 % 2 == 1
  if codec = 0 then (profile == 1 || profile == 2) && decide (level ≤ 183) && (depth == 8 || depth == 10) && c420
  else if codec = 1 then profile == 1 && decide (level ≤ 99) && (depth == 8 || depth == 10)
  else (profile == 66 || profile == 100) && decide (level ≤ 52) && depth == 8

/-! ### References, concealment, marks (R278 to R280) -/

/-- A picture of the present coded video sequence that a context holds. -/
def Dec.heldRef (e : Dec) (cvs : Nat) (poc : BitVec 32) : Option DecPic := e.dpb.find? fun p => p.cvs == cvs && p.poc == poc

/-- The substitute of a picture (R278): the one held of highest POC below it, in the same coded video sequence. -/
def substPic (e : Dec) (cvs : Nat) (poc : BitVec 32) : Option DecPic :=
  minBy (fun p : DecPic => (poc.toInt - p.poc.toInt).toNat) (e.dpb.filter fun p => p.cvs == cvs && decide (p.poc.toInt < poc.toInt))

/-- Pictures that the reference picture sets and lists name and the context does not hold, those apart that the standard generates (R278). -/
def missingRefs (e : Dec) (cvs : Nat) (f : PicFound) : List (BitVec 32) :=
  f.named.filter fun q => (e.heldRef cvs q).isNone && !(f.generated.contains q)

/-- The slot of a block of a held picture. -/
def heldSlot (e : Dec) (cvs : Nat) (poc : BitVec 32) (block : Nat) : Option Slot := (e.heldRef cvs poc).bind fun p => p.blocks[block]?

/-- The reads that meet a damaged block (R255, R278): uncorrectable, `POISONED`, or of another generation. -/
def damagedReads (s : State) (e : Dec) (cvs : Nat) (f : PicFound) : List RefError :=
  f.reads.flatMap fun r => r.inter.filterMap fun q =>
    match heldSlot e cvs q.1 q.2 with
    | some sl =>
      let d := s.pool.desc sl.block
      if d.poisoned || d.gen != sl.gen || f.refErrors.contains ⟨r.ctu, q.1, q.2⟩ then some ⟨r.ctu, q.1, q.2⟩ else none
    | none => none

/-- Numbers below a bound that are in one of the lists. -/
def union (n : Nat) (ls : List (List Nat)) : List Nat := (List.range n).filter fun i => ls.any fun l => l.contains i

/-- CTUs concealed under R278: those that read a missing picture, those not covered, those that met a damaged block. -/
def concealedCtus (n : Nat) (missing : List (BitVec 32)) (damaged : List RefError) (f : PicFound) : List Nat :=
  union n [(f.reads.filter fun r => r.inter.any fun q => missing.contains q.1).map (·.ctu), f.uncovered, damaged.map (·.ctu)]

/-- Marks that prediction carries on (R280), in decoding order: from marked blocks of reference pictures, and from blocks already marked in
the same picture. -/
def spreadMarks (e : Dec) (cvs : Nat) (reads : List CtuRead) (marks : List Nat) : List Nat :=
  let markedRef (q : BitVec 32 × Nat) : Bool := match e.heldRef cvs q.1 with | some p => p.marks.contains q.2 | none => false
  reads.foldl (fun ms r => if !(ms.contains r.ctu) && (r.inter.any markedRef || r.intra.any ms.contains) then r.ctu :: ms else ms) marks

/-- A damaged reference block is met (R255, R278): it is poisoned, unless it is another block by now, counted as lost, and a contained error
is charged to the context. -/
def State.refDamaged (m : Master) (c : Nat) (e : Dec) (cvs : Nat) (s : State) (x : RefError) : State :=
  match heldSlot e cvs x.poc x.block with
  | none => s
  | some sl =>
    let d := s.pool.desc sl.block
    let s1 := if d.gen = sl.gen then s.setDesc sl.block { d with poisoned := true } else s
    ((s1.poolCount 0x0F).chargeTo (decHolder c)).contained 0x01 .read m d.addr

/-- Sample `i` of a block lies along one of the edges given (left, right, top, bottom), within the reach of the loop filters across an edge,
in luma samples; chroma samples within half of it. -/
def alongEdge (reach i : Nat) (l r t b : Bool) : Bool :=
  let w := if i < 4096 then 64 else 32
  let k := if i < 4096 then reach else (reach + 1) / 2
  let j := if i < 4096 then i else (i - 4096) % 1024
  let x := j % w
  let y := j / w
  (l && decide (x < k)) || (r && decide (w ≤ x + k)) || (t && decide (y < k)) || (b && decide (w ≤ y + k))

/-- Block `i` of a grid of `cols` columns after the loop filters (R279): along an edge that a concealed CTU, this one or its neighbour, shares with
another CTU the samples stay unfiltered. -/
def filterBlock (reach cols n : Nat) (concealed : List Nat) (i : Nat) (raw filtered : Block) : Block :=
  let bad (ok : Bool) (j : Nat) : Bool := ok && (concealed.contains i || concealed.contains j)
  let l := bad (decide (i % cols ≠ 0)) (i - 1)
  let r := bad (decide (i % cols + 1 < cols)) (i + 1)
  let t := bad (decide (cols ≤ i)) (i - cols)
  let b := bad (decide (i + cols < n)) (i + cols)
  packSamples ((List.range 6144).map fun k => if alongEdge reach k l r t b then sampleAt raw k else sampleAt filtered k)

/-- The chroma samples of a 4:0:0 picture are mid-grey (R260). -/
def greyChroma (ten : Bool) (b : Block) : Block :=
  packSamples ((List.range 6144).map fun k => if k < 4096 then sampleAt b k else if ten then 512 else 128)

/-- A frame of one field (R260): each line of the missing field repeats the line above it, at a block's upper edge that of the block above. -/
def repeatLines (top : Bool) (above : Option Block) (b : Block) : Block :=
  packSamples ((List.range 6144).map fun k =>
    let w := if k < 4096 then 64 else 32
    let y := (if k < 4096 then k else (k - 4096) % 1024) / w
    if (y % 2 == 0) != top then sampleAt b k
    else if 0 < y then sampleAt b (k - w)
    else match above with
      | some a => sampleAt a (k + w * (w - 1))
      | none => sampleAt b k)

/-- Block `i` of the picture in decoding: co-located samples of the substitute, or the decoded samples (free values, before and after the loop
filters). -/
def decBlock (s : State) (e : Dec) (cvs : Nat) (g : Decoding) (f : PicFound) (concealed : List Nat) (damaged : List RefError) (i free : Nat) : Block :=
  let substitute (poc : BitVec 32) : Block :=
    match (substPic e cvs poc).bind fun p => p.blocks[i]? with
    | some sl => (s.pool.desc sl.block).data
    | none => greyBlock f.depth10
  let cols := ctuCols g.width
  if f.uncovered.contains i then substitute g.poc
  else match damaged.find? fun x => x.ctu == i with
  | some x => substitute x.poc
  | none => filterBlock (Config.filterReach f.info.toNat) cols (cols * ctuCols g.height) concealed i (freeBlock f.depth10 free)
      (freeBlock f.depth10 (free + 1))

/-- The content of block `i` as written: 4:0:0 chroma mid-grey, the lines of a missing field repeated (R260). -/
def picBlock (e : Dec) (cvs : Nat) (g : Decoding) (f : PicFound) (concealed : List Nat) (damaged : List RefError) (s : State) (done_ : List Slot)
    (i : Nat) : Block :=
  let b0 := decBlock s e cvs g f concealed damaged i s.clk.free
  let b1 := if f.info.getLsbD 20 then b0 else greyChroma f.depth10 b0
  let cols := ctuCols g.width
  let above := if i < cols then none else (done_[i - cols]?).map fun x => (s.pool.desc x.block).data
  match f.missingTop with
  | some top => repeatLines top above b1
  | none => b1

/-! ### Recovery and the picture buffer (R273, R274, R280, R281) -/

/-- The recovery picture of the starting picture that this one is, if it is one (R281). -/
def recoveryOf (poc : BitVec 32) : PicStart → Option (BitVec 32)
  | .irap => some poc
  | .gdr r => some (poc + r)
  | .recoveryPoint r => some (poc + r)
  | .plain => none

/-- `MARK` of a reference marking (R227, R273). -/
def markOf (isRef longTerm : Bool) : Mark := if !isRef then .unused else if longTerm then .longTerm else .shortTerm

/-- A held picture's reference marking changes (R273): its blocks' `MARK` follows, unless they are shared (R229). -/
def State.remarkPic (s : State) (isRef longTerm : Bool) (p : DecPic) : State :=
  p.blocks.foldl (fun s x =>
    let d := s.pool.desc x.block
    if d.gen = x.gen ∧ d.mark ≠ .shared then s.setDesc x.block { d with mark := markOf isRef longTerm } else s) s

/-- The marking changes that a picture brings reach the held pictures and their blocks. -/
def State.remark (s : State) (c : Nat) (cvs : Nat) (l : List (BitVec 32 × Bool × Bool)) : State :=
  let new (p : DecPic) : Option (Bool × Bool) := (l.find? fun q => p.cvs == cvs && q.1 == p.poc).map (·.2)
  let s1 := (s.dec c).dpb.foldl (fun s p => match new p with | some q => s.remarkPic q.1 q.2 p | none => s) s
  let mark (p : DecPic) : DecPic := match new p with | some q => { p with isRef := q.1, longTerm := q.2 } | none => p
  s1.setDec c { s1.dec c with dpb := (s1.dec c).dpb.map mark }

/-- Pictures that some test names leave the picture buffer. -/
def State.dropPics (s : State) (m : Master) (c : Nat) (gone : DecPic → Bool) : State :=
  let s1 := ((s.dec c).dpb.filter gone).foldl (fun s x => s.forgetPic m x) s
  s1.setDec c { s1.dec c with dpb := (s1.dec c).dpb.filter fun x => !(gone x) }

/-- Every mark of the held pictures goes (R281; log entry 207). -/
def Dec.clearMarks (e : Dec) : Dec :=
  let clear (p : DecPic) : DecPic := { p with marks := [] }
  { e with dpb := e.dpb.map clear, lastOut := e.lastOut.map clear, toCommit := e.toCommit.map fun q => { q with pic := clear q.pic } }

/-- What a picture leaves in the counters of its context and tile (R284, R287, R288). -/
def State.countPicture (s : State) (p c : Nat) (f : PicFound) (concealed missing damaged : Nat) : State :=
  let errs : BitVec 4 := (if damaged = 0 then 0 else 8) ||| (if missing = 0 then 0 else 4) ||| (if f.slicesCut = 0 then 0 else 2) |||
    (if f.itemTagged then 1 else 0)
  let t := s.dtile p
  let s1 := s.setDtile p { t with err := t.err ||| errs, concealed := t.concealed + BitVec.ofNat 32 concealed }
  let s2 := (((s1.decCount c 0x3D concealed).decCount c 0x3E missing).decCount c 0x3F f.slicesCut.toNat).decCount c 0x33
  ((s2.count 0x5041 1).count 0x5041 2 concealed).count 0x5041 3 missing

/-- A picture leaves the buffer when neither reference nor output needs it (R273); beyond 16 pictures, the oldest go (R274). -/
def State.trimDpb (s : State) (m : Master) (c : Nat) : State :=
  let s1 := s.dropPics m c fun x => !(x.isRef || x.output)
  let n := (s1.dec c).dpb.length
  let old := (s1.dec c).dpb.take (n - 16)
  if n ≤ 16 then s1 else s1.dropPics m c fun x => old.contains x

/-- A decoded picture enters the context: concealment, marks, recovery, the picture buffer, output. -/
def State.endPicture (s : State) (m : Master) (p c : Nat) (g : Decoding) (f : PicFound) (item : Ecc) : State :=
  let e := s.dec c
  let n := ctuCols g.width * ctuCols g.height
  let fresh := decide (e.state = .unsync ∨ e.state = .stopped ∨ e.state = .unsupported)
  let cvs := if f.newCvs then e.cvs + 1 else e.cvs
  let missing := missingRefs e cvs f
  let damaged := damagedReads s e cvs f
  let concealed := concealedCtus n missing damaged f
  -- recovery points that still count: concealment voids every one
  let begins := recoveryOf g.poc f.start
  let recs := if concealed.isEmpty then (if fresh then [] else e.recs) ++ begins.toList else []
  let reached := recs.contains g.poc
  -- a GDR, recovery-point or START_ANY start marks what it decodes before its recovery picture, itself included (log entry 208)
  let marking := (if fresh then begins != some g.poc else e.marking) && !reached
  let marks := if f.missingTop.isSome ∨ marking = true then List.range n else if reached then [] else union n [spreadMarks e cvs f.reads concealed]
  let s1 := s.countPicture p c f concealed.length missing.length damaged.length
  let s2 := damaged.foldl (State.refDamaged m c e cvs) s1
  let w := s2.writeBlocks p (decHolder c) (markOf f.isRef f.longTerm) (picBlock e cvs g f concealed damaged) n
  let pic : DecPic :=
    { poc := g.poc, cvs := cvs, isRef := f.isRef, longTerm := f.longTerm, output := f.output, rtp := g.au.rtp, blocks := w.1, marks := marks
      width := g.width, height := g.height, outW := f.outW.toNat, outH := f.outH.toNat, cropL := f.cropL.toNat
      cropT := f.cropT.toNat, depth10 := f.depth10, arrived := g.au.arrived, subst := !concealed.isEmpty, frames := g.frames }
  let s3 := (((w.2.surfaceRow p w.1 item).tileWrote p n).remark c cvs f.remark).dropPics m c fun x => f.drop.contains x.poc
  let e3 := s3.dec c
  let had := e3.held.any fun x => !x.marks.isEmpty
  let e4 : Dec := if reached then e3.clearMarks else e3
  let s4 := s3.setDec c { e4 with
    dpb := e4.dpb ++ [pic], info := f.info &&& 0x1FFFFF, marking := marking, cvs := cvs, recs := recs.filter fun q => q != g.poc }
  let s5 := if reached && (had || e.marking) then s4.count 0x5041 6 else s4
  let out (s : State) (poc : BitVec 32) : State :=
    match (s.dec c).dpb.find? fun x => x.poc == poc && x.output with
    | some x => s.outputPic m c g x
    | none => s
  ((f.outputs.foldl out s5).trimDpb m c).reviewMarks m c

/-- A tile has ended its picture (R235, R286, R287): it is idle, and the reservation returns. -/
def State.tileEnded (s : State) (p c : Nat) (g : Decoding) (stall wait : Word) : State :=
  let t := s.dtile p
  let s1 : State := { s with pool := { s.pool with reserved := s.pool.reserved - g.reserved } }
  (s1.setDec c { s1.dec c with decoding := none }).setDtile p { t with
    state := 0, pictures := t.pictures + 1, binStall := t.binStall + stall, waitRef := t.waitRef + wait }

/-- The context for which a tile decodes. -/
def decodingOn (s : State) (p : Nat) : Option (Nat × Decoding) :=
  s.decs.findSome? fun q => q.2.decoding.bind fun g => if g.tile = p then some (q.1, g) else none

/-- A tile ends its picture, unless its last blocks wait for its surface-write Bobbins (R27, R286). -/
def State.finishing (s : State) (p : Nat) (k : State → State) : State :=
  let s1 := s.surfaceClear p
  if s1.surfaceOpen p then k s1 else s1.setDtile p { s1.dtile p with state := 3 }

/-- What becomes of an access unit whose decoding ends (R259, R277, R278): outside the table, discarded while unsynchronised, lost, or a
picture. A picture that is larger than its level allows is counted with the lost ones (log entry 203). -/
def State.judgePicture (s : State) (m : Master) (p c : Nat) (g : Decoding) (f : PicFound) (item : Ecc) : State :=
  let e := s.dec c
  let reset := f.newCvs && decide (f.start ≠ .irap)
  let idle := reset || decide (e.state = .unsync ∨ e.state = .stopped ∨ e.state = .unsupported)
  let s1 := if reset then (s.setDec c { e with recs := [], marking := false }).decState m c .unsync else s
  let forget (s : State) : State := s.releaseSlots m g.frames
  if !f.supported || !(withinTable g.au.codec f.info) then forget (s1.decState m c .unsupported)
  else if idle && !(startsHere g f) then forget ((s1.decState m c .unsync).decCount c 0x3C)
  else if f.tooLarge then forget (s1.losePicture c)
  else s1.endPicture m p c g f item

/-- DECODE_PICTURE_END (R259, R261, R273, R277 to R282): the tile ends its picture. `found` is what the standard's decoding process
finds in the access unit; `item` is how the row of an item that it writes reads. -/
def execDecodePictureEnd (tile : Fin 32) (found : PicFound) (item : Ecc) (s : State) : Host.Outcome State Fault Refusal :=
  awake s <|
  let p := decPhys s tile
  match decodingOn s p with
  | none => done s
  | some (c, g) =>
    if g.au.codec = 3 then done s
    else done (s.finishing p fun s =>
      ((s.tileEnded p c g found.binStall found.waitRef).judgePicture (mDec p) p c g found item).closeDec (mDec p) c)

/-! ### ST 2110-20 frames (R271) -/

/-- Bits `k` to `k + w` of a byte string, first bit first. -/
def bitField (b : Bytes) (k w : Nat) : Nat := beNat (slice b (k / 8) 3) / 2 ^ (24 - k % 8 - w) % 2 ^ w

/-- Pixels and bytes of a pixel group by `ST_FORMAT`: 4:2:2 10-bit and 8-bit, 4:2:0 10-bit and 8-bit (PRESUMED: ST 2110-20). -/
def pgroup (fmt : Nat) : Nat × Nat := if fmt = 0 then (2, 5) else if fmt = 1 then (2, 4) else if fmt = 2 then (4, 15) else (2, 6)

/-- Place in its pixel group of a sample of plane 0 to 2 at column `x` of line 0 or 1 (PRESUMED: ST 2110-20): 4:2:2 has Cb Y Cr Y, 4:2:0 has
for each two columns Y Y of the upper line, Y Y of the lower, Cb Cr. -/
def pgPlace (fmt plane x line : Nat) : Nat :=
  if fmt < 2 then (if plane = 0 then 1 + 2 * (x % 2) else 2 * (plane - 1))
  else
    let g := x % (pgroup fmt).1 / 2
    6 * g + (if plane = 0 then 2 * line + x % 2 else 3 + plane)

/-- The sample of a plane at luma column `x` and row `y` in a frame's segments, if it was received. -/
def stReceived (fmt : Nat) (segs : List (Nat × Nat × Bytes)) (plane x y : Nat) : Option Nat :=
  let g := pgroup fmt
  let w := if fmt % 2 = 0 then 10 else 8
  let row := if fmt < 2 then y else y / 2 * 2
  (segs.find? fun q => decide (q.1 = row) && decide (q.2.1 ≤ x) && decide (((x - q.2.1) / g.1 + 1) * g.2 ≤ q.2.2.length)).map fun q =>
    bitField (q.2.2.drop ((x - q.2.1) / g.1 * g.2)) (w * pgPlace fmt plane (x - q.2.1) (y % 2)) w

/-- A plane's sample: as received, or that of the flow's previous frame, or mid-grey (R271). -/
def stSample (cur : Option Nat) (prev : Option (List (List (BitVec 10)))) (grey plane i : Nat) : Nat :=
  match cur, prev with
  | some v, _ => v
  | none, some f => ((f.getD plane []).getD i 0).toNat
  | none, none => grey

/-- The planes Y, Cb and Cr of a frame, in the sender's chroma format. -/
def stPlanes (x : Rx) (au : AccessUnit) (prev : Option (List (List (BitVec 10)))) : List (List (BitVec 10)) :=
  let grey := if x.fmt % 2 = 0 then 512 else 128
  let cw := x.width / 2
  let v := if x.fmt < 2 then 1 else 2
  [(List.range (x.width * x.height)).map fun i =>
    BitVec.ofNat 10 (stSample (stReceived x.fmt au.segs 0 (i % x.width) (i / x.width)) prev grey 0 i)] ++
  [1, 2].map fun k => (List.range (cw * (x.height / v))).map fun i =>
    BitVec.ofNat 10 (stSample (stReceived x.fmt au.segs k (2 * (i % cw)) (v * (i / cw))) prev grey k i)

/-- A block of a converted frame: luma copied, 4:2:2 chroma averaged over two rows (R271). -/
def stBlock (x : Rx) (whole : List (List (BitVec 10))) (i : Nat) : Block :=
  let smp (k a b : Nat) : Nat := ((whole.getD k []).getD (b * (if k = 0 then x.width else x.width / 2) + a) 0).toNat
  let chroma (k a b : Nat) : Nat := if x.fmt < 2 then (smp k a (2 * b) + smp k a (2 * b + 1) + 1) / 2 else smp k a b
  let bx := i % ctuCols x.width
  let by_ := i / ctuCols x.width
  packSamples (((List.range 4096).map fun j => smp 0 (64 * bx + j % 64) (64 * by_ + j / 64)) ++
    ((List.range 1024).map fun j => chroma 1 (32 * bx + j % 32) (32 * by_ + j / 32)) ++
    ((List.range 1024).map fun j => chroma 2 (32 * bx + j % 32) (32 * by_ + j / 32)))

/-- CTUs of a frame that hold samples not received. -/
def stMarks (x : Rx) (au : AccessUnit) : List Nat :=
  let lost := (List.range (x.width * x.height)).filter fun i => (stReceived x.fmt au.segs 0 (i % x.width) (i / x.width)).isNone
  (List.range (ctuCols x.width * ctuCols x.height)).filter fun i =>
    lost.any fun q => q / x.width / 64 * ctuCols x.width + q % x.width / 64 == i

/-- The flow's previous frame, if it has the format of this one. -/
def stBefore (e : Dec) (x : Rx) : Option (List (List (BitVec 10))) :=
  match e.stPrev with
  | some (y, f) => if y.fmt = x.fmt ∧ y.width = x.width ∧ y.height = x.height then some f else none
  | none => none

/-- A converted frame is a picture of its own, without marks from the one before, and a recovery point (R271). Its marks are no concealment
under R278. `STREAM_INFO` has no profile and no level for it (log entry 209). -/
def State.stFrame (s : State) (m : Master) (p c : Nat) (g : Decoding) (item : Ecc) : State :=
  let x := g.rx
  let whole := stPlanes x g.au (stBefore (s.dec c) x)
  let marks := stMarks x g.au
  let n := ctuCols x.width * ctuCols x.height
  let r := s.writeBlocks p (decHolder c) .unused (fun _ _ i => stBlock x whole i) n
  let ten := x.fmt % 2 == 0
  let pic : DecPic :=
    { poc := 0, cvs := 0, isRef := false, longTerm := false, output := true, rtp := g.au.rtp, blocks := r.1, marks := marks, width := x.width
      height := x.height, outW := x.width, outH := x.height, cropL := 0, cropT := 0, depth10 := ten, arrived := g.au.arrived, frames := g.frames }
  let s1 := (((r.2.surfaceRow p r.1 item).tileWrote p n).dropPics m c fun _ => true).decCount c 0x33
  let s2 := (s1.setDec c { s1.dec c with
    dpb := [pic], stPrev := some (x, whole), recs := [], marking := false, info := BitVec.ofNat 32 (2 ^ 20 + (if ten then 10 else 8) * 65536)
    }).count 0x5041 1
  ((s2.outputPic m c g pic).trimDpb m c).reviewMarks m c

/-- ST2110_FRAME (R270, R271): the tile ends the conversion of the frame that it took. -/
def execSt2110Frame (tile : Fin 32) (item : Ecc) (s : State) : Host.Outcome State Fault Refusal :=
  awake s <|
  let p := decPhys s tile
  match decodingOn s p with
  | none => done s
  | some (c, g) =>
    if g.au.codec ≠ 3 then done s
    else done (s.finishing p fun s => ((s.tileEnded p c g 0 0).stFrame (mDec p) p c g item).closeDec (mDec p) c)

end Sys2Proof.Machine
end

