-- ==== Sys2Proof/Machine/Memmap.lean ====
section
/-! DEFINITION. Accesses to device memory by DMA channels, local rings and cores. -/

namespace Sys2Proof.Machine

/-- Some word of a range is uncorrectable. `poison` lists the numbers of such 32-byte words. -/
def devPoisoned (s : State) (a n : Nat) : Bool := s.mem.poison.any fun w => decide (32 * w < a + n) && decide (a < 32 * w + 32)

/-- Why a read fails: 0x02 unmapped, 0x01 an uncorrectable word. -/
def devProblem (s : State) (m : Master) (a n : Nat) : Option Nat :=
  if n = 0 then none else if !(devMapped s m a n) then some 0x02 else if devPoisoned s a n then some 0x01 else none

/-! ### Accesses to DDR5 (R444) -/

/-- An access to a rank is its last one now, and wakes it where it is powered down (R444). -/
def State.wakeRank (s : State) (c r : Nat) : State :=
  let d := s.ddr c
  s.setDdr c { d with
    touched := put d.touched r s.clk.now
    down := if d.retired ≠ some r then d.down.filter (· ≠ r) else d.down }

/-! ### Activates (R444, R445) -/

/-- Rows that an activate of a row refreshes: those of the neighbours that exist. -/
def neighbours (s : State) (c r row : Nat) : Nat :=
  (([-1, 1] ++ (if parB s 0x2050 6 then [-2, 2] else [])).filter fun d : Int => Config.rowExists c r row d).length

/-- A DDR5 access wakes its rank; where it opens another row of the bank, that is an activate: the channel's LFSR steps and decides with
probability 2^−k (its low k bits are 0) to refresh the neighbours, each counted. -/
def State.activate (s : State) (a : Nat) : State :=
  let q := ddrPlace s a
  let s1 := s.wakeRank q.1 q.2
  let d := s1.ddr q.1
  let br := Config.bankRow ((a - ddrBase) / 2048 * 256 + a % 256 - (if d.rankBytes = 0 then 0 else (a - ddrBase) / 2048 * 256 / d.rankBytes * d.rankBytes))
  let bank := 256 * q.2 + br.1
  if look d.rows bank = some br.2 then s1
  else
    let l := Config.lfsrNext d.lfsr
    let s2 := s1.setDdr q.1 { d with lfsr := l, rows := put d.rows bank br.2 }
    if l.toNat % 2 ^ par s 0x2050 5 = 0 then s2.memCount 9 (neighbours s q.1 q.2 br.2) else s2

/-- The 256-byte units of an access to device memory, each of which DDR5 serves as an access of its own. -/
def State.ddrTouch (s : State) (a n : Nat) : State :=
  if a < ddrBase ∨ n = 0 ∨ ddrBase + s.mem.ddrBytes < a + n then s
  else (List.range ((a + n - 1) / 256 - a / 256 + 1)).foldl (fun s i => s.activate (256 * (a / 256 + i))) s

end Sys2Proof.Machine
end

