-- ==== Sys2Proof/Machine/Rom.lean ====
section
/-! DEFINITION. Treadle's machine (R289 to R306): fetch, operands, ALU, conditions, writer, ports, one microword; the routines of the ROM. -/

namespace Sys2Proof.Machine

/-! ### Fetch and fields (R289 to R292, R307) -/

/-- The microword at an address: matched ROM addresses read patch RAM; none at a reserved address. -/
def Treadle.fetch (t : Treadle) (a : Nat) : Option Word :=
  if 0x4400 ≤ a then none
  else if 0x4000 ≤ a then some (lookD 0 t.patchRam (a - 0x4000))
  else match t.match_.find? fun q => q.2.2.toNat == a with
    | some q => some (lookD 0 t.patchRam q.2.1.toNat)
    | none => some (Config.microRom a)

/-- The nano-word of a number. -/
def Treadle.nano (t : Treadle) (n : Nat) : BitVec 160 := if n < 0x780 then Config.nanoRom n else lookD 0 t.nanoPatch (n - 0x780)

/-- A nano-word holds a reserved value (R302 fault 0x2). -/
def nanoBad (v : Nat) : Bool :=
  decide (21 < bits v 8 4) || decide (21 < bits v 13 9) || decide (16 < bits v 18 14) || decide (8 < bits v 23 20) ||
    decide (32 < bits v 29 24) || decide (5 < bits v 33 30) || decide (bits v 35 34 = 3) || bits v 63 39 != 0 || bits v 159 128 != 0

/-- `CEST` (R292). -/
def cest (t : Tile) : Nat :=
  (match t.frame with | some f => f.bits | none => 0) + sumNat (t.treadle.estimates.map (·.2))

/-- An operand. -/
def operand (t : Tile) (addr nimm : Word) (v : Nat) : Word :=
  let r := t.treadle
  if v < 16 then lookD 0 r.w v
  else if v = 16 then addr
  else if v = 17 then nimm
  else if v = 18 then r.events.headD 0
  else if v = 19 then BitVec.ofNat 32 (match t.frame with | some f => f.bits | none => 0)
  else if v = 20 then BitVec.ofNat 32 (cest t)
  else BitVec.ofNat 32 (b2n r.z + 2 * b2n r.n + 4 * b2n r.c)

/-! ### The ALU (R293) -/

/-- log2 of a positive number in 16.16, within 1/256 (R205): `j` from 0 to 511 gives the deviation from the value rounded down. -/
def log2Fixed (a j : Nat) : Word := BitVec.ofInt 32 ((Nat.log2 (a ^ 65536) : Int) + (j : Int) - 255)

/-- 2^A for a signed 16.16 number, within 1/256 (R205); none where it saturates. -/
def exp2Fixed (a : Int) (j : Nat) : Option Word :=
  if 16 * 65536 ≤ a then none
  else
    let e := (a + 16 * 65536).toNat
    let m := if a < -(16 * 65536) then 0 else bisect (fun m => decide (m ^ 65536 ≤ 2 ^ e)) 32 0
    let r := m + j - 255
    if 0xFFFFFFFF < r then none else some (BitVec.ofNat 32 r)

/-- Result and carry. An operation that has no carry, borrow or saturation clears C (DESIGN CHOICE, log entry 195: the spec names C for those
alone). -/
def alu (op : Nat) (a b : Word) (j : Nat) : Word × Bool :=
  match op with
  | 0 => (a, false)
  | 1 => (a + b, decide (2 ^ 32 ≤ a.toNat + b.toNat))
  | 2 => (a - b, decide (a.toNat < b.toNat))
  | 3 => (a &&& b, false)
  | 4 => (a ||| b, false)
  | 5 => (a ^^^ b, false)
  | 6 => (a <<< (b.toNat % 32), false)
  | 7 => (a >>> (b.toNat % 32), false)
  | 8 => (a.sshiftRight (b.toNat % 32), false)
  | 9 => (if a.toInt ≤ b.toInt then a else b, false)
  | 10 => (if a.toInt ≤ b.toInt then b else a, false)
  | 11 => (a * b, false)
  | 12 =>
    let p := a.toInt * b.toInt / 65536
    if p < -2147483648 then (0x80000000, true) else if 2147483647 < p then (0x7FFFFFFF, true) else (BitVec.ofInt 32 p, false)
  | 13 => if a = 0 then (0x80000000, true) else (log2Fixed a.toNat j, false)
  | 14 => match exp2Fixed a.toInt j with
    | some x => (x, false)
    | none => (0xFFFFFFFF, true)
  | _ => if b = 0 then (0xFFFFFFFF, true) else (BitVec.ofNat 32 (a.toNat / b.toNat), false)

/-- Micro-cycles of an operation. -/
def aluCycles (op : Nat) : Nat := if op = 11 ∨ op = 12 then 2 else if op = 13 ∨ op = 14 then 4 else if op = 15 then 34 else 1

/-! ### Conditions (R294) -/

def cond (s : State) (t : Tile) (n : Nat) : Bool :=
  let r := t.treadle
  let e := match t.frame with | some f => s.enc f.stream | none => s.enc t.stream.toNat
  match n with
  | 0 => true
  | 1 => r.z
  | 2 => !r.z
  | 3 => r.n
  | 4 => !r.n
  | 5 => r.c
  | 6 => !r.c
  | 7 => !r.events.isEmpty
  | 8 => decide (sumNat (r.nals.map (·.length)) + 2 * b2n r.nalOpen.isSome + (r.bits.length + 7) / 8 + 64 ≤ 2048)
  | 9 => t.codecVvc
  | 10 => match t.frame with | some f => f.first | none => e.firstPic
  | 11 => e.sweepK == 0
  | 12 => match t.frame with | some f => f.firstUncoded.isSome | none => false
  | 13 => match t.frame with | some f => f.lane0.ctu.isNone && f.lane1.ctu.isNone | none => true
  | 14 => e.cold
  | _ => false

/-! ### The bitstream writer (R295) -/

/-- The low `n` bits of a number, most significant first. -/
def bitsOf (n v : Nat) : List Bool := (List.range n).map fun i => v.testBit (n - 1 - i)
/-- ue(v) of a number. -/
def ueBits (v : Nat) : List Bool :=
  let k := Nat.log2 (v + 1)
  List.replicate k false ++ bitsOf (k + 1) (v + 1)
/-- se(v) of an integer. -/
def seBits (v : Int) : List Bool := ueBits (if 0 < v then (2 * v - 1).toNat else (-2 * v).toNat)
/-- Zero bits to the next byte boundary. -/
def alignBits (b : List Bool) : List Bool := b ++ List.replicate ((8 - b.length % 8) % 8) false
/-- Whole bytes of a bit string. `n` bounds their number. -/
def packBits : Nat → List Bool → Bytes
  | 0, _ => []
  | _ + 1, [] => []
  | n + 1, b => BitVec.ofNat 8 (((b.take 8) ++ List.replicate (8 - (b.take 8).length) false).foldl (fun a x => 2 * a + b2n x) 0) ::
      packBits n (b.drop 8)

/-- Effect on the header buffer; a commit is the tile's. The spec does not say what becomes of writes beyond the 2 KiB, of an open NAL unit
when another begins, or of an end with none open: the buffer keeps what is written, the open unit's bits go, the bits become a unit without
header (DESIGN CHOICE, log entry 196). -/
def Treadle.write (r : Treadle) (op n : Nat) (a b : Word) : Treadle :=
  match op with
  | 1 => { r with bits := r.bits ++ bitsOf (if n = 0 then b.toNat % 64 else n) a.toNat }
  | 2 => { r with bits := r.bits ++ ueBits a.toNat }
  | 3 => { r with bits := r.bits ++ seBits a.toInt }
  | 4 => { r with bits := alignBits (r.bits ++ [true]) }
  | 5 => { r with bits := alignBits r.bits }
  | 6 => { r with nalOpen := some (BitVec.ofNat 16 a.toNat), bits := [] }
  | 7 =>
    let h : Bytes := match r.nalOpen with
      | some x => be 2 x.toNat
      | none => []
    { r with nals := r.nals ++ [h ++ emulate 0 (packBits r.bits.length r.bits)], nalOpen := none, bits := [] }
  | _ => r

/-- Header commit (R216, R295, R305): the buffered NAL units go ahead of the picture's slice data, which leaves the row hold buffer; `hdr` begins
the first slice NAL unit. A second commit of a picture has nothing to go ahead of: its NAL units go (DESIGN CHOICE, log entry 196). -/
def commitHeaders (t : Tile) (hdr : Bytes) : Tile :=
  match t.frame with
  | none => { t with treadle := { t.treadle with nals := [] } }
  | some f =>
    if f.committed then { t with treadle := { t.treadle with nals := [] } }
    else
      let mk (b : Bytes) : NalOut :=
        { stream := f.stream, slot := f.slot, boundary := f.boundary, vvc := isVvc f.codec, fu := f.fu, data := b, closed := true
          first := false, last := false, sent := 0 }
      let slices := match f.early with
        | [] => []
        | x :: r => { x with data := hdr ++ x.data } :: r
      let all := match t.treadle.nals.map mk ++ slices with
        | [] => []
        | x :: r => { x with first := true } :: r
      let n := sumNat (t.treadle.nals.map (·.length)) + hdr.length
      { t with
        treadle := { t.treadle with nals := [], nalOpen := none, bits := [] }
        frame := some { f with bits := f.bits + 8 * n, bytes := f.bytes + n, committed := true, early := [] }
        out := { t.out with nals := t.out.nals ++ all } }
/-- The NAL unit that Treadle has begun and not ended, which begins the slice data (R295). -/
def Treadle.openUnit (r : Treadle) : Bytes :=
  match r.nalOpen with
  | some x => be 2 x.toNat ++ emulate 0 (packBits r.bits.length r.bits)
  | none => []

/-! ### The record (R248) -/

/-- A list of bits as bytes, bit 0 of byte 0 first. -/
def bitmap (n : Nat) (l : List Nat) : Bytes :=
  (List.range n).map fun i => BitVec.ofNat 8 (sumNat ((List.range 8).map fun k => if l.contains (8 * i + k) then 2 ^ k else 0))

/-- A snapshot entry (R248). -/
def snapBytes (x : SnapLayer) : Bytes :=
  le 1 (b2n x.visible) ++ le 1 x.kind ++ [0, 0] ++ le 4 x.source ++ le 4 x.srcGen ++ le 4 x.textGen ++
  le 2 x.rx.toNat ++ le 2 x.ry.toNat ++ le 2 x.rw.toNat ++ le 2 x.rh.toNat ++ le 2 (twos 16 x.ox) ++ le 2 (twos 16 x.oy) ++ le 4 x.second

/-- The 4 KiB context record. -/
def recordBytes (s : State) (n : Nat) (e : Enc) : Bytes :=
  let h := recordHead s n e
  let snap := match e.snap with
    | some x => x.layers.flatMap snapBytes
    | none => []
  h ++ h.take 64 ++ bitmap 1024 e.carried ++ slice snap 0 2048 ++ bytesAt e.scratch 0 512

/-- Fields of a record's first 0x1C0 bytes, back into the context: the block's addresses are its own. -/
def Enc.fromHead (e : Enc) (b : Bytes) : Enc :=
  { e with
    crcUnknown := bitOf (u8 b 3) 0, nextFull := bitOf (u8 b 3) 1, slotNext := BitVec.ofNat 32 (le32 b 4)
    slotLast := BitVec.ofNat 32 (le32 b 8), poc := BitVec.ofNat 32 (le32 b 0xC), serial := BitVec.ofNat 16 (le16 b 0x10)
    sweepK := u8 b 0x12, firstPic := bitOf (u8 b 0x13) 0, cold := bitOf (u8 b 0x13) 1, sweepW := u8 b 0x14
    rtpRec := BitVec.ofNat 16 (le16 b 0x16), pictures := BitVec.ofNat 32 (le32 b 0x40), missBusy := BitVec.ofNat 32 (le32 b 0x44)
    missOver := BitVec.ofNat 32 (le32 b 0x48), missPool := BitVec.ofNat 32 (le32 b 0x4C), refsLost := BitVec.ofNat 32 (le32 b 0x50)
    lostBlocks := BitVec.ofNat 32 (le32 b 0x54)
    rate := { e.rate with
      fullness := le32 b 0x80, aRefresh := le32 b 0x84, aHint := le32 b 0x88, aOther := le32 b 0x8C, header := le32 b 0x90
      skipBits := le16 b 0x94, qpLast := u8 b 0x96
      rows := (List.range 68).map fun y => (y, (u8 b (0xC0 + 2 * y), u8 b (0xC1 + 2 * y))) }
    refs := (List.range 4).filterMap fun k =>
      if bitOf (le16 b (0x186 + 8 * k)) 0 then some (BitVec.ofNat 32 (le32 b (0x180 + 8 * k)), BitVec.ofNat 16 (le16 b (0x184 + 8 * k)))
      else none }

/-- Bytes of a string from an offset on, replaced. -/
def overlay (b : Bytes) (o : Nat) (x : Bytes) : Bytes := (b.take o ++ x ++ b.drop (o + x.length)).take b.length

/-- Store a word at a record offset (R291): what no field of the context holds stands in the record beside the fields. -/
def State.recordStore (s : State) (n off : Nat) (v : Word) : State :=
  match look s.encs n with
  | none => s
  | some e =>
    if off < 0x1C0 then
      let want := overlay (recordHead s n e) off (le 4 v.toNat)
      let e1 := e.fromHead want
      let base := recordBase s n e1
      let rest := (List.range 0x1C0).filterMap fun k =>
        if base.getD k 0 = want.getD k 0 then none else some (k, (base.getD k 0, want.getD k 0))
      s.setEnc n { e1 with recBytes := rest }
    else
      s.setEnc n { e with scratch := setBytes e.scratch (off - 0xE00) ((le 4 v.toNat).take (0x1000 - off)) }

/-! ### Faults (R302, R310) -/

/-- The logical tile a physical tile serves; a spare's cluster otherwise. -/
def logicalOf (s : State) (p : Nat) : Nat := (encLogical s p).getD (8 * encCluster p)

/-- Treadle meets a fault (R302, R310). -/
def State.treadleFault (s : State) (p code : Nat) : State :=
  let t := s.tile p
  let r := t.treadle
  let recent := (r.faultedAt ++ [s.clk.now]).filter fun a => decide (s.clk.now < a + 10000000000)
  let out := decide (4 ≤ recent.length) && r.live
  let r1 : Treadle := { r with
    stopped := true, waiting := false, fault := true, overflow := r.overflow || r.fault
    code := if r.fault then r.code else BitVec.ofNat 3 code
    faultAddr := if r.fault then r.faultAddr else r.upc
    faults := r.faults + 1, faultedAt := recent
    patch := if out then 2 else r.patch, match_ := if out then [] else r.match_, live := r.live && !out
    owed := r.owed || (out && r.patch == 3) }
  let s1 := ((s.setTile p { t with treadle := r1 }).count 0x5F01 5).count 0x5F01 4 (b2n out)
  let s2 := if out then s1.raise 0x00D (mEnc p) (le 1 p) else s1
  let s3 := (if code = 6 then s2.countBin (0x30000 + p) else s2).contained 0x08 .fetch (mEnc p) r.upc.toNat
  match t.frame with
  | some f => (s3.setTile p { s3.tile p with frame := some { f with draining := true } }).abandonDrained (logicalOf s p) p
  | none => s3

/-! ### One microword (R293 to R299) -/

/-- Next address, stack and mask after a microword (R297): the fault code where the stack is misused. -/
def sequence (r : Treadle) (seq addr : Nat) (taken unmask : Bool) : Except Nat Treadle :=
  let inc := r.upc + 1
  if !taken then .ok { r with upc := inc }
  else if seq = 1 then .ok { r with upc := BitVec.ofNat 15 addr }
  else if seq = 2 then
    if r.stack.length = 8 then .error 3 else .ok { r with stack := inc :: r.stack, upc := BitVec.ofNat 15 addr }
  else if seq = 3 then
    match r.stack with
    | [] => .error 4
    | a :: l => .ok { r with stack := l, upc := a, masked := if unmask then false else r.masked }
  else .ok { r with upc := inc }

/-- The lanes' requests after a cut (R206, R303): a lane whose CTU is cut has none left; one whose refresh CTU remains is answered by the tile
itself. -/
def State.settleRequests (s : State) (p : Nat) : State :=
  let one (s : State) (q : LaneReq) : State :=
    let t := s.tile p
    match t.frame with
    | some f =>
      if (f.waiting q.lane).head? = some q.idx ∧ (f.lane q.lane).ctu = none then
        s.setTile p { t with frame := some (f.setLane q.lane { f.lane q.lane with ctu := some q.idx, cleared := true, items := [] }) }
      else s
    | none => s
  let s1 := (s.tile p).treadle.laneReq.foldl one s
  let t := s1.tile p
  s1.setTile p { t with treadle := { t.treadle with laneReq := [] } }
/-- Cut the picture at a raster index (R206, R296); a picture is cut at most once. -/
def State.cutAt (s : State) (p a : Nat) : State :=
  match (s.tile p).frame with
  | some f => if f.cut.rate.isSome then s else ((s.cutRate p (s.tile p) f a).count 0x5021 2).settleRequests p
  | none => s
/-- Clear the pending request of a lane, with an estimate (R296, R303): the lane cycles held are counted; in the same cycle of the model's clock
they are free up to the 680 of R303. -/
def State.clearLane (s : State) (p : Nat) (l : Fin 2) (est : Nat) : State :=
  let t := s.tile p
  match t.frame, t.treadle.laneReq.find? (fun q => q.lane == l) with
  | some f, some q =>
    let wait := if s.clk.now ≤ q.since then Config.freeNat s.clk.free % 681 else 2 * (s.clk.now - q.since)
    (s.freed).setTile p { t with
      treadle := { t.treadle with
        laneReq := t.treadle.laneReq.filter fun x => x.lane != l
        estimates := t.treadle.estimates ++ [(q.idx, est)], gateWait := t.treadle.gateWait + BitVec.ofNat 32 wait }
      frame := some (f.setLane l { f.lane l with ctu := some q.idx, cleared := true, items := [], gate := (f.lane l).gate + wait }) }
  | _, _ => s
/-- Send a frame-start item, whose refresh columns are the frame's (R128, R296). -/
def State.sendStart (s : State) (p : Nat) (lo slot : Word) : State :=
  let t := s.tile p
  let s1 := match t.frame with
    | some f => s.setTile p { t with frame := some { f with
        refCol := bits lo.toNat 22 16, refCount := bits lo.toNat 29 23, full := lo.getLsbD 30 } }
    | none => s
  (s1.bobSrc (.frameUp (ftile p))).bobPush (.frameUp (ftile p)) [BitVec.ofNat 256 (lo.toNat + slot.toNat * 2 ^ 32)]
/-- Send a frame-end item (R128, R296): of a finished frame, it ends the frame. -/
def State.sendEnd (s : State) (p : Nat) (lo : Word) : State :=
  match (s.tile p).frame with
  | some f =>
    let item : BitVec 256 := BitVec.ofNat 256 (lo.toNat + f.slot.toNat * 2 ^ 32)
    match f.finished with
    | some (cut, valid) => s.closeFrame (logicalOf s p) p f cut valid item
    | none => (s.bobSrc (.frameUp (ftile p))).bobPush (.frameUp (ftile p)) [item]
  | none => s

/-- Tile port operations (R296). -/
def State.port (s : State) (p op : Nat) (a b : Word) : State :=
  let t := s.tile p
  match op with
  | 1 => s.sendStart p a b
  | 2 => match t.frame with
    | some f => s.setTile p { t with frame := some { f with rowQp := put f.rowQp (a.toNat % 128) (b.toNat % 64) } }
    | none => s
  | 3 => s.cutAt p a.toNat
  | 4 => s.sendEnd p a
  | 5 => s.clearLane p (flane (a.toNat % 2)) b.toNat
  | _ => s

/-- Remove the oldest event; a stalled unit's event enters (R301). -/
def Treadle.popEvent (r : Treadle) : Treadle :=
  match r.events with
  | [] => r
  | _ :: l => match r.stalled with
    | [] => { r with events := l }
    | x :: q => { r with events := l ++ [x], stalled := q }

/-- Execute the operations of a microword whose fields hold no reserved value. The flags follow the ALU result, of a load too (DESIGN CHOICE,
log entry 195: the spec says "the result"). -/
def runWord (s : State) (p : Nat) (w nv : Nat) : State :=
  let t := s.tile p
  let r := t.treadle
  let a := operand t (BitVec.ofNat 32 (bits w 14 0)) (BitVec.ofNat 32 (bits nv 95 64)) (bits nv 8 4)
  let b := operand t (BitVec.ofNat 32 (bits w 14 0)) (BitVec.ofNat 32 (bits nv 95 64)) (bits nv 13 9)
  let op := bits nv 3 0
  let mem := bits nv 35 34
  let n := match t.frame with | some f => f.stream | none => t.stream.toNat
  if mem ≠ 0 ∧ (4096 ≤ a.toNat ∨ (mem = 2 ∧ 0x1C0 ≤ a.toNat + 3 ∧ a.toNat ≤ 0xDFF)) then s.treadleFault p 7
  else
    let x := alu op a b (Config.freeNat s.clk.free % 512)
    let res : Word := if mem = 1 then
        (match look s.encs n with
         | some e => BitVec.ofNat 32 (le32 (recordBytes s n e) a.toNat)
         | none => 0)
      else x.1
    let dest := bits nv 18 14
    let m : Word := BitVec.ofNat 32 (bits nv 127 96)
    let r1 := if bits nv 8 4 = 18 ∨ bits nv 13 9 = 18 then r.popEvent else r
    let r2 := if dest < 16 then { r1 with w := put r1.w dest (((lookD 0 r1.w dest) &&& (~~~ m)) ||| (res &&& m)) } else r1
    let r3 := if bitOf nv 19 then { r2 with z := x.1 == 0, n := x.1.msb, c := x.2 } else r2
    let bw := bits nv 23 20
    let r4 := r3.write bw (bits nv 29 24) a b
    let safe := bitOf nv 36 || bitOf nv 37
    let r5 : Treadle := { r4 with
      waiting := false, atSafe := safe, safeTimer := if safe then 0 else r4.safeTimer + aluCycles op }
    let t1 := { t with treadle := r5 }
    let s0 := (s.freed).setTile p (if bw = 8 then commitHeaders t1 r5.openUnit else t1)
    let s1 := if (bits nv 8 4 = 18 ∨ bits nv 13 9 = 18) ∧ r.stalled ≠ [] ∨ bw = 8 then s0.resumeCoder p else s0
    let s2 := if mem = 2 then s1.recordStore n a.toNat b else s1
    let s3 := s2.port p (bits nv 33 30) a b
    let t3 := s3.tile p
    match sequence t3.treadle (bits w 20 19) (bits w 14 0) (bitOf nv 37 || cond s3 t3 (bits w 18 15)) (bitOf nv 38) with
    | .ok r => s3.setTile p { t3 with treadle := r }
    | .error c => s3.treadleFault p c

/-! ### The ROM's routines (R303 to R306). The spec gives the ROM no words: a routine runs as one step at its entry, unless a match register
redirects the entry; it ends by a return to the routine that follows it, whose entries stand on the micro-stack; `IDLE` leaves the event, and
`VECTOR` the lane, in W0 (DESIGN CHOICE, log entry 197). -/

/-- Entries of R304. -/
def romEntries : List Nat := [0x0000, 0x0010, 0x0040, 0x0100, 0x0200, 0x0400, 0x0800, 0x0900, 0x0A00, 0x0A80, 0x0B00, 0x0C00, 0x0D00, 0x0E00]
/-- Treadle stands at the entry of a ROM routine that no match register redirects. -/
def Treadle.atRom (r : Treadle) : Bool :=
  !r.stopped && romEntries.contains r.upc.toNat && !(r.match_.any fun q => q.2.2.toNat == r.upc.toNat)
/-- A return to the next routine, or to the idle loop. -/
def Treadle.ret (r : Treadle) : Treadle :=
  match r.stack with
  | [] => { r with upc := 0x40 }
  | a :: l => { r with stack := l, upc := a }
/-- A call of a routine, others to follow it. -/
def Treadle.goes (r : Treadle) (a : Nat) (next : List Nat) : Treadle :=
  { r with upc := BitVec.ofNat 15 a, stack := next.map (BitVec.ofNat 15) ++ r.stack, waiting := false, atSafe := false }
def State.setTreadle (s : State) (p : Nat) (r : Treadle) : State := s.setTile p { s.tile p with treadle := r }
def State.romRet (s : State) (p : Nat) : State := s.setTreadle p (s.tile p).treadle.ret

/-- A word of Treadle's scratch, and its store (R306). -/
def scratchAt (e : Enc) (off : Nat) : Nat := leNat (bytesAt e.scratch (off - 0xE00) 4)
def Enc.scratchPut (e : Enc) (off v : Nat) : Enc := { e with scratch := setBytes e.scratch (off - 0xE00) (le 4 v) }

/-- `FRAME_TAKE` (R209, R128): sweep position and band from the record, the frame-start item. A first picture, or one at k = 0, that is coded again
after an abandonment counts again in 0x5021:04 or 05, a cold cycle in 06 once (DESIGN CHOICE, log entry 219: R221 does not say). -/
def State.romTake (s : State) (p : Nat) (f : Frame) : State :=
  let n := f.stream
  let e := s.enc n
  let c := f.cols
  let k := if e.coldNext then 0 else e.sweepK
  let w := if k = 0 ∨ f.first = true then bandWidth s n else e.sweepW
  let bd := if f.first then (0, c) else band f.codec c k w
  let full := f.first || e.nextFull
  let s1 := s.setTile p { s.tile p with frame := some { f with sweepK := k, sweepW := w } }
  let s2 := s1.setEnc n { e with nextFull := false, sweepW := w, sweepK := k, coldNext := false }
  let s3 := s2.sendStart p (BitVec.ofNat 32 (n % 65536 + bd.1 % 128 * 2 ^ 16 + bd.2 % 128 * 2 ^ 23 + b2n full * 2 ^ 30)) f.slot
  ((s3.count 0x5021 4 (b2n f.first)).count 0x5021 5 (b2n (!f.first && k == 0))).count 0x5021 6 (b2n e.coldNext)

/-- `RC_PLAN` (R200, R202, R203): the plan; row budgets and F, F_cap, G, A_tot, QP_f to scratch (R306). -/
def State.romPlan (s : State) (p : Nat) (f : Frame) : State :=
  let n := f.stream
  let e := s.enc n
  let plan := planPicture s n e f.first f.slot f.cols f.rows f.refCount s.clk.free
  let e1 := plan.rb.zipIdx.foldl (fun e q => e.scratchPut (0xE00 + 4 * q.2) q.1) e
  let e2 := ([plan.f, plan.fcap, plan.g, plan.atot, plan.qpf, 0, 0].zipIdx.foldl (fun e q => e.scratchPut (0xF10 + 4 * q.2) q.1) e1)
  ((s.setTile p { s.tile p with frame := some { f with plan := plan, lim := par s 0x5020 3 } }).setEnc n e2).freed

/-- `HDR_PS`, `HDR_SEI`: the NAL units of R216 before the slices into the header buffer. -/
def State.romHeaders (s : State) (p : Nat) (l : List Bytes) : State :=
  let t := s.tile p
  s.setTreadle p { t.treadle with nals := t.treadle.nals ++ l }

/-- `HDR_SLICE` (R168, R212, R213): the slice header, and the commit; the coder goes on. -/
def State.romSlice (s : State) (p : Nat) (f : Frame) : State :=
  (s.setTile p (commitHeaders (s.tile p) (openSlice f (s.enc f.stream) 0))).resumeCoder p

/-- The request that the interrupt handler has called a routine for: of the lane in W0. -/
def Treadle.served (r : Treadle) : Option LaneReq := r.laneReq.find? fun q => q.lane.val == (lookD 0 r.w 0).toNat

/-- `ROW_QP` (R204). -/
def State.romRowQp (s : State) (p : Nat) (f : Frame) (q : LaneReq) : State :=
  let e := s.enc f.stream
  let sum := sumNat ((List.range f.rows).map fun y => scratchAt e (0xE00 + 4 * y))
  let closed := scratchAt e 0xF24
  let qp := rowQpOf f.bits closed (sum - closed) (scratchAt e 0xF18) (scratchAt e 0xF10) (scratchAt e 0xF20) f.plan.qpMin f.plan.qpMax f.lim
    s.clk.free
  ((s.freed).setEnc f.stream (e.scratchPut 0xF28 f.bits)).port p 2 (BitVec.ofNat 32 (q.idx / f.cols)) (BitVec.ofNat 32 qp)

/-- `CTU_GATE` (R206): the CTU is cleared with its class estimate, or the picture is cut. -/
def State.romGate (s : State) (p : Nat) (f : Frame) (q : LaneReq) : State :=
  let e := s.enc f.stream
  let qp := lookD (scratchAt e 0xF20) f.rowQp (q.idx / f.cols)
  if f.cut.rate = none ∧ scratchAt e 0xF14 ≤ cest (s.tile p) then s.port p 3 (BitVec.ofNat 32 (f.cutIndex q.idx)) 0
  else (s.freed).port p 5 (BitVec.ofNat 32 q.lane) (BitVec.ofNat 32 (estimateCtu e.rate q.cls qp s.clk.free))

/-- `VECTOR` (R300, R303): the next pending source in order, or the return that ends the handler. -/
def State.romVector (s : State) (p : Nat) : State :=
  let r := (s.tile p).treadle
  let mark (q : LaneReq) : List LaneReq := r.laneReq.map fun x => if x.lane = q.lane then q else x
  if r.cutReport.isSome then s.setTreadle p { r with cutReport := none }
  else if r.abandon then s.setTreadle p (({ r with abandon := false } : Treadle).goes 0x0E00 [0x10])
  else
    match (r.laneReq.find? fun q => q.lane == 0 && !q.gated).or (r.laneReq.find? fun q => !q.gated) with
    | some q =>
      let w := put r.w 0 (BitVec.ofNat 32 q.lane)
      if q.first && !q.qped then s.setTreadle p (({ r with w := w, laneReq := mark { q with qped := true } } : Treadle).goes 0x0A00 [0x10])
      else s.setTreadle p (({ r with w := w, laneReq := mark { q with gated := true } } : Treadle).goes 0x0A80 [0x10])
    | none =>
      s.setTreadle p ({ r with masked := false, laneReq := r.laneReq.map fun q => { q with qped := false, gated := false } } : Treadle).ret

/-- `IDLE` (R305): the event is taken and dispatched; with none Treadle waits. -/
def State.romIdle (s : State) (p : Nat) : State :=
  let t := s.tile p
  let r := t.treadle
  match r.events with
  | [] => s.setTreadle p { r with waiting := true, atSafe := true, safeTimer := 0 }
  | ev :: _ =>
    let r1 : Treadle := { r.popEvent with w := put r.w 0 ev, waiting := false }
    let v := ev.toNat
    let e := match t.frame with | some f => s.enc f.stream | none => s.enc t.stream.toNat
    let ps := e.firstPic || e.coldNext || e.sweepK == 0
    let s1 : State := match v / 2 ^ 28, t.frame with
      | 1, _ => s.setTreadle p (r1.goes 0x0100 ([0x0200] ++ (if ps then [0x0400] else []) ++ [0x0800, 0x0900, 0x0040]))
      | 4, _ => s.setTreadle p (r1.goes 0x0B00 [0x0040])
      | 5, some f =>
        let rb := scratchAt e (0xE00 + 4 * (v % 128))
        (s.setTreadle p r1).setEnc f.stream (e.scratchPut 0xF24 (scratchAt e 0xF24 + rb))
      | 7, _ => s.setTreadle p (r1.goes 0x0C00 [0x0D00, 0x0040])
      | 8, some f => s.setTile p { t with treadle := r1, frame := some { f with keptBits := f.keptBits + v % 2 ^ 24 } }
      | 9, some f => s.setTile p { t with treadle := r1, frame := some { f with keptSkips := f.keptSkips + v % 2 ^ 14 } }
      | _, _ => s.setTreadle p r1
    if r.stalled.isEmpty then s1 else s1.resumeCoder p

/-- `CTU_ACCOUNT` (R208): class, QP and bits of the event in W0. -/
def State.romAccount (s : State) (p : Nat) (f : Frame) : State :=
  let v := (lookD 0 (s.tile p).treadle.w 0).toNat
  s.setTile p { s.tile p with frame := some { f with acct := f.acct ++ [(codeClass (bits v 18 17), bits v 24 19, bits v 16 0)] } }

/-- `RC_UPDATE` (R208, R200): the rate model after a coded picture; a model overflow is counted. -/
def State.romUpdate (s : State) (f : Frame) : State :=
  let e := s.enc f.stream
  let rate := { rateAfter f e.rate s.clk.free with qpLast := scratchAt e 0xF20 }
  let s1 : State := { (s.setEnc f.stream { e with rate := rate }) with clk := { s.clk with free := s.clk.free + 24576 } }
  s1.count 0x5021 3 (b2n (decide (f.plan.buf < f.plan.v + 8 * f.bytes)))

/-- `FRAME_CLOSE`: the frame-end item (R128, R234). -/
def State.romClose (s : State) (p : Nat) (f : Frame) : State :=
  s.port p 4 (BitVec.ofNat 32 (f.stream % 65536 + b2n f.firstUncoded.isSome * 2 ^ 17 + f.firstUncoded.getD 0 % 2 ^ 13 * 2 ^ 18)) 0

/-- The routine at whose entry Treadle stands. -/
def State.romStep (s : State) (p : Nat) : State :=
  let t := s.tile p
  let r := t.treadle
  let a := r.upc.toNat
  if a = 0x0010 then s.romVector p
  else if a = 0x0040 then s.romIdle p
  else if a = 0x0000 then s.setTreadle p { r with upc := 0x40, stack := [], w := [], masked := false, waiting := false, atSafe := false }
  else
    let s1 := s.romRet p
    match t.frame with
    | none => s1
    | some f =>
      match a with
      | 0x0100 => s1.romTake p f
      | 0x0200 => s1.romPlan p f
      | 0x0400 => s1.romHeaders p (paramNals f (levelOf s f.stream (s.enc f.stream) f))
      | 0x0800 => s1.romHeaders p (seiNals f)
      | 0x0900 => s1.romSlice p f
      | 0x0A00 => match r.served with
        | some q => s1.romRowQp p f q
        | none => s1
      | 0x0A80 => match r.served with
        | some q => s1.romGate p f q
        | none => s1
      | 0x0B00 => s1.romAccount p f
      | 0x0C00 => s1.romUpdate f
      | 0x0D00 => s1.romClose p f
      | _ => s1

/-- Interrupt sources pending (R300). -/
def Treadle.pending (r : Treadle) : Bool := r.cutReport.isSome || r.abandon || !r.laneReq.isEmpty
/-- An interrupt is taken (R300): the next address, or a wait's own, is pushed. -/
def Treadle.interrupt (r : Treadle) : Treadle :=
  { r with stack := r.upc :: r.stack, upc := 0x10, masked := true, waiting := false, atSafe := false }

/-- Treadle goes on through the ROM until it waits in its idle loop with nothing to do, or has left the ROM's entries (R305). In the loop an
interrupt goes before an event (R300). -/
def State.romRun : Nat → State → Nat → State
  | 0, s, _ => s
  | k + 1, s, p =>
    let r := (s.tile p).treadle
    if !r.atRom then s
    else if r.upc = 0x40 then
      if r.pending && !r.masked then
        if r.stack.length = 8 then s.treadleFault p 3 else State.romRun k (s.setTreadle p r.interrupt) p
      else if r.events.isEmpty then (if r.waiting then s else s.romStep p)
      else State.romRun k (s.romStep p) p
    else State.romRun k (s.romStep p) p
/-- What a tile's step leaves to Treadle is done within it where the ROM does it (R303, R305). -/
def State.runTreadle (s : State) (p : Nat) : State := State.romRun 1024 s p

end Sys2Proof.Machine
end

