-- ==== Sys2Proof/Machine/Microcode.lean ====
section
/-! DEFINITION. Treadle's commands (R290 to R311): microwords, interrupts, events, faults, restart and patches. -/

namespace Sys2Proof.Machine

/-- MICROWORD_EXECUTE (R289 to R299, R304): a stopped Treadle executes nothing; at the entry of a ROM routine, which no match register
redirects, the routine runs; a waiting microword whose condition is false repeats. -/
def execMicrowordExecute (tile : Fin 72) (s : State) : Host.Outcome State Fault Refusal :=
  awake s <|
  let p := tile.val
  let t := s.tile p
  let r := t.treadle
  if r.stopped then done s
  else if 4096 ≤ r.safeTimer then done (s.treadleFault p 5)
  else if r.atRom then done (s.romStep p)
  else
    match r.fetch r.upc.toNat with
    | none => done (s.treadleFault p 1)
    | some w =>
      let nv := (r.nano (bits w.toNat 31 21)).toNat
      if nanoBad nv then done (s.treadleFault p 2)
      else if bitOf nv 37 && !(cond s t (bits w.toNat 18 15)) then
        done (s.setTile p { t with treadle := { r with waiting := true, atSafe := true, safeTimer := 0 } })
      else done (runWord s p w.toNat nv)

/-- TREADLE_INTERRUPT (R300): at a safe point and unmasked, a pending source is taken: the next address is pushed. -/
def execTreadleInterrupt (tile : Fin 72) (s : State) : Host.Outcome State Fault Refusal :=
  awake s <|
  let t := s.tile tile
  let r := t.treadle
  if r.stopped || r.masked || !r.atSafe || !r.pending then done s
  else if r.stack.length = 8 then done (s.treadleFault tile 3)
  else done (s.setTile tile { t with treadle := r.interrupt })

/-- TREADLE_EVENT (R301): an event enters the queue of 64; while it is full the unit stalls with it. -/
def execTreadleEvent (tile : Fin 72) (ev : Word) (s : State) : Host.Outcome State Fault Refusal :=
  awake s <|
  let t := s.tile tile
  let r := t.treadle
  done (s.setTile tile { t with treadle := r.raise ev })

/-- TREADLE_FAULT (R302): a fault of codes 0x1 to 0x7. -/
def execTreadleFault (tile : Fin 72) (code : BitVec 3) (s : State) : Host.Outcome State Fault Refusal :=
  awake s <|
  if code = 0 ∨ (s.tile tile).treadle.stopped = true then done s else done (s.treadleFault tile code.toNat)

/-- SAFE_POINT_TIMEOUT (R299): the safe-point timer stands at 4,096. -/
def execSafePointTimeout (tile : Fin 72) (s : State) : Host.Outcome State Fault Refusal :=
  awake s <|
  let r := (s.tile tile).treadle
  if 4096 ≤ r.safeTimer ∧ r.stopped = false then done (s.treadleFault tile 5) else done s

/-- TREADLE_RESTART (R302): a stopped Treadle restarts at address 0. -/
def execTreadleRestart (tile : Fin 72) (s : State) : Host.Outcome State Fault Refusal :=
  awake s <|
  let t := s.tile tile
  let r := t.treadle
  if r.stopped then
    done (s.setTile tile { t with treadle := { r with
      stopped := false, upc := 0, stack := [], w := [], masked := false, waiting := false, safeTimer := 0, atSafe := false } })
  else done s

/-! ### Patches (R307 to R309) -/

/-- The check of a written patch image (R308); length 0 removes the patch. -/
def patchOk (b : Bytes) : Bool :=
  b.isEmpty ||
  (let nm := u8 b 0xF
   let mi := le16 b 0x10
   let na := u8 b 0x12
   let ent (i : Nat) : Nat := le32 b (0x20 + 4 * i)
   decide (0x20 ≤ b.length) && le32 b 0 == 0x54444C31 && le32 b 4 == b.length &&
   le32 b 4 == 32 + 4 * nm + 4 * mi + 20 * na && crcZeroed b 8 == le32 b 8 && le16 b 0xC == 0x0201 && decide (1 ≤ u8 b 0xE) &&
   decide (nm ≤ 32) && decide (mi ≤ 1024) && decide (na ≤ 128) && zeroRange b 0x13 13 &&
   (List.range nm).all (fun i => decide (bits (ent i) 23 14 < mi) && bits (ent i) 31 24 == 0) &&
   noRepeat ((List.range nm).map fun i => bits (ent i) 13 0))

/-- A tile with a patch image applied (R309). -/
def Treadle.applyPatch (r : Treadle) (b : Bytes) : Treadle :=
  let nm := u8 b 0xF
  let mi := le16 b 0x10
  let na := u8 b 0x12
  if b.isEmpty then { r with match_ := [], patchRam := [], nanoPatch := [], level := 0, patch := 0, live := false, owed := false }
  else
    { r with
      level := BitVec.ofNat 8 (u8 b 0xE), patch := 1, live := true, owed := false
      match_ := (List.range nm).map fun i =>
        let x := le32 b (0x20 + 4 * i)
        (i, (BitVec.ofNat 10 (Machine.bits x 23 14), BitVec.ofNat 14 (Machine.bits x 13 0)))
      patchRam := (List.range mi).map fun i => (i, BitVec.ofNat 32 (le32 b (0x20 + 4 * nm + 4 * i)))
      nanoPatch := (List.range na).map fun i => (i, BitVec.ofNat 160 (leNat (slice b (0x20 + 4 * nm + 4 * mi + 20 * i) 20))) }

/-- PATCH_APPLY (R309): a tile whose application is pending, and which codes no frame, applies the stored patch. In Newt mode none is
applied. -/
def execPatchApply (tile : Fin 72) (s : State) : Host.Outcome State Fault Refusal :=
  awake s <|
  let t := s.tile tile
  if (t.treadle.patch = 3 ∨ t.treadle.owed = true) ∧ t.frame = none ∧ s.boot.newt = false then
    done (s.setTile tile { t with treadle := t.treadle.applyPatch (parBytes s 0x5F00 0) })
  else done s

end Sys2Proof.Machine
end

