-- ==== Sys2Proof/Machine/DevView.lean ====
section
/-! DEFINITION. What device memory shows of the reference pool (R193, R222, R226, R227, R231, R232, R236, R248): blocks in their frames,
context records, block tables, composed CRC tables, seal records, the descriptor table and the surface table. -/

namespace Sys2Proof.Machine

/-- A version slot as 8 bytes (R231). -/
def slotBytes (x : Slot) : Bytes := le 4 (x.block % 2 ^ 29 + 2 ^ 29 + b2n x.lost * 2 ^ 30) ++ le 2 x.gen.toNat ++ le 2 x.from_.toNat

/-- A block-table entry as 64 bytes (R232): slots 0 to 4 newest first, the CTU CRC, the flags. -/
def entryBytes (x : Entry) : Bytes :=
  slice (x.slots.flatMap slotBytes) 0 40 ++ le 8 x.crc ++ le 1 (b2n x.crcValid + 2 * b2n x.forceIntra) ++ zeros 15

/-- A seal record as 32 bytes (R193). -/
def sealRecBytes (r : SealRec) : Bytes :=
  le 4 r.frame.toNat ++ le 1 r.sealMode.toNat ++
    le 1 (b2n r.sealValid + 2 * b2n r.composedValid + 4 * b2n r.truncated + 8 * b2n r.substituted) ++ le 2 r.laneCtus.toNat ++
    le 8 r.recon.toNat ++ le 8 r.composed.toNat ++ le 2 r.skipCtus.toNat ++ le 2 r.fringeCtus.toNat ++ le 4 r.bytes.toNat

/-- `OWNER_ID` and `OWNER_KIND` (R227). -/
def ownerWord : Holder → Nat
  | .stream n => n.toNat + 2 ^ 28
  | .context n => n.toNat + 2 * 2 ^ 28
  | .surface h => h.toNat + 3 * 2 ^ 28
  | .device => 15 * 2 ^ 28

def markCode : Mark → Nat
  | .unused => 0
  | .shortTerm => 1
  | .longTerm => 2
  | .shared => 3

/-- A descriptor as 16 bytes (R227). -/
def descBytes (d : Desc) : Bytes :=
  le 4 (d.frame % 2 ^ 28 + b2n d.ddr * 2 ^ 28 + markCode d.mark * 2 ^ 30) ++
    le 4 (d.gen.toNat + b2n d.moving * 2 ^ 16 + b2n d.poisoned * 2 ^ 17) ++ le 4 d.count.toNat ++ le 4 (ownerWord d.owner)

def surfCode : SurfState → Nat
  | .free => 0
  | .loading => 1
  | .ready => 2

/-- A handle's entry as 32 bytes (R236). -/
def surfaceBytes (v : Surface) : Bytes :=
  le 2 v.width ++ le 2 v.height ++ le 1 (surfCode v.state) ++ le 1 (if v.depth10 then 10 else 8) ++ le 2 v.gen.toNat ++
    le 4 (ownerWord v.owner) ++ le 2 v.pins ++ le 2 v.prevPins ++ le 8 (if v.table.isEmpty then 0 else v.tableAt) ++
    le 8 (if v.prev.isSome then v.prevAt else 0)

/-- Byte `o` of frame `j` of a stream's context frames (R247): record and seal records, block table, composed CRC table. -/
def contextByte (s : State) (n : Nat) (e : Enc) (j o : Nat) : Option Byte :=
  let tabs := (encN s n * 64 + 8191) / 8192
  let k := 8192 * (j - 1) + o
  if j = 0 then
    if o < 4096 then (recordBytes s n e)[o]?
    else if sealOffset ≤ o ∧ o < sealOffset + 256 then
      (look e.seals ((o - sealOffset) / 32)).bind fun r => (sealRecBytes r)[(o - sealOffset) % 32]?
    else none
  else if j ≤ tabs then (look e.table (k / 64)).bind fun x => (entryBytes x)[k % 64]?
  else
    let c := k - 8192 * tabs
    (look e.composed (c / 8)).bind fun x => (le 8 x)[c % 8]?

def decCode : DecState → Nat
  | .stopped => 0
  | .unsync => 1
  | .decoding => 2
  | .recovering => 3
  | .unsupported => 4

/-- Device address of a picture table: that of the first of its frames (R274). -/
def tableAddr (s : State) (l : List Slot) : Nat := match l with | x :: _ => (s.pool.desc x.block).addr | [] => 0

/-- A picture entry of a decode context (R285). -/
def picEntry (s : State) (poc : BitVec 32) (marking flags : Nat) (frames : List Slot) (rtp : BitVec 32) : Bytes :=
  le 4 poc.toNat ++ le 1 marking ++ le 1 flags ++ zeros 2 ++ le 8 (tableAddr s frames) ++ le 4 rtp.toNat ++ zeros 12

/-- The entries of the picture buffer, and that of the picture being decoded (R274, R285). -/
def picEntries (s : State) (e : Dec) : Bytes :=
  (e.dpb.flatMap fun p => picEntry s p.poc (if !p.isRef then 0 else if p.longTerm then 2 else 1)
    (b2n p.output + 2 * b2n (!p.marks.isEmpty) + 4 * b2n p.subst) p.frames p.rtp) ++
  match e.decoding with
  | some g => picEntry s g.poc 0 0 g.frames g.au.rtp
  | none => []

/-- A picture table (R274): a version slot for each block, then the concealment map. -/
def picTableBytes (p : DecPic) : Bytes :=
  p.blocks.flatMap slotBytes ++ (List.range ((p.blocks.length + 7) / 8)).map fun k =>
    BitVec.ofNat 8 (sumNat ((List.range 8).map fun j => if p.marks.contains (8 * k + j) then 2 ^ j else 0))

/-- The locked SSRC of a context (R266): its row's, or the one it has locked to. -/
def lockedSsrc (s : State) (c : Nat) (e : Dec) : Option (BitVec 32) :=
  if e.live && fld s 0x8003 c 7 != 0 then some (BitVec.ofNat 32 (fld s 0x8003 c 7)) else e.ssrc

/-- The context record of a decode context (R285). The coded size and the offsets are those of its newest picture. -/
def decRecord (s : State) (c : Nat) (e : Dec) : Bytes :=
  let p := (e.dpb.getLast?).or e.lastOut
  let num (f : DecPic → Nat) : Nat := (p.map f).getD 0
  let ssrc := lockedSsrc s c e
  let withheld := fld s 0x8003 c 0xC == 1 && (match e.lastOut with | some q => !q.marks.isEmpty | none => false)
  le 2 c ++ le 1 (decCode e.state) ++ le 1 (b2n ssrc.isSome + 2 * b2n (!e.recs.isEmpty) + 4 * b2n withheld) ++
    le 4 (ssrc.getD 0).toNat ++ le 4 (e.seqNext.getD 0) ++ le 4 (num (·.width) + 65536 * num (·.height)) ++
    le 2 (num (·.cropL)) ++ le 2 (num fun q => q.width - q.outW - q.cropL) ++ le 2 (num (·.cropT)) ++
    le 2 (num fun q => q.height - q.outH - q.cropT) ++ le 4 (e.recs.headD 0).toNat ++
    le 4 (match e.lastOut with | some q => q.poc.toNat | none => 0) ++ le 8 (psAddr c) ++ le 8 e.ringAt ++
    le 4 (e.ringIn % e.ringSize) ++ le 4 ((e.ringIn - ringHeld e) % e.ringSize) ++ zeros 72 ++
    ((List.range 13).flatMap fun k => le 4 (lookD 0 e.counters (0x33 + k)).toNat) ++ zeros 76 ++
    slice (picEntries s e) 0 544 ++ zeros 3296

/-- Byte `o` of a block that is a frame of a decode context: of its record, or of a picture table, which fills its frames in order. -/
def decFrameByte (s : State) (b o : Nat) : Option (Option Byte) :=
  s.decs.findSome? fun q =>
    if q.2.frames.any fun f => f.block == b then some ((decRecord s q.1 q.2)[o]?)
    else q.2.dpb.findSome? fun p => (p.frames.findIdx? fun f => f.block == b).map fun j => (picTableBytes p)[8192 * j + o]?

/-- Byte of a pool frame: of a context frame, or of the block that the frame holds. -/
def frameByte (s : State) (b : Nat) (d : Desc) (o : Nat) : Option Byte :=
  match s.encs.findSome? fun q => (q.2.frames.findIdx? fun f => f.block == b).map fun j => (q.1, q.2, j) with
  | some (n, e, j) => contextByte s n e j o
  | none => match decFrameByte s b o with
  | some x => x
  | none => (d.data[o / 4]?).map fun w => BitVec.ofNat 8 (w.toNat / 2 ^ (8 * (o % 4)))

/-- The byte at a device address that the pool's state decides; none elsewhere. Below the HBM region nothing of the pool lies. -/
def poolByte (s : State) (a : Nat) : Option Byte :=
  if a < 0x010000000000 then none
  else
    match s.pool.descs.find? fun q => decide (q.2.count ≠ 0 ∧ q.2.addr ≤ a ∧ a < q.2.addr + 8192) with
    | some (b, d) => frameByte s b d (a - d.addr)
    | none =>
      let t := hbmUnitAddr descUnit
      let u := hbmUnitAddr surfUnit
      if t ≤ a ∧ a < t + 16 * (s.pool.hbmFrames + s.pool.ddrFrames) then (descBytes (s.pool.desc ((a - t) / 16)))[(a - t) % 16]?
      else if u ≤ a ∧ a < u + 32 * s.pool.handles then (surfaceBytes (s.surface ((a - u) / 32)))[(a - u) % 32]?
      else
        s.pool.surfaces.findSome? fun q =>
          let at_ (base : Nat) (l : List Slot) : Option Byte := if a < base then none else (l.flatMap slotBytes)[a - base]?
          (at_ q.2.tableAt q.2.table).or (at_ q.2.prevAt (q.2.prev.getD []))

/-- `n` bytes of device memory: what the pool holds there, and otherwise what was stored. -/
def State.devRead (s : State) (a n : Nat) : Bytes :=
  (bytesAt s.mem.dev a n).zipIdx.map fun q => (poolByte s (a + q.2)).getD q.1

/-- A word of a block with one byte replaced. -/
def setByteOf (w : Word) (i : Nat) (b : Byte) : Word :=
  BitVec.ofNat 32 (w.toNat % 2 ^ (8 * i) + b.toNat * 2 ^ (8 * i) + w.toNat / 2 ^ (8 * i + 8) * 2 ^ (8 * i + 8))

/-- The content of a block with bytes written at an offset. -/
def writeBlock (d : Block) (o : Nat) (b : Bytes) : Block :=
  b.zipIdx.foldl (fun d q => d.set ((o + q.2) / 4) (setByteOf (d.getD ((o + q.2) / 4) 0) ((o + q.2) % 4) q.1)) d

/-- A write of device memory reaches the content of the allocated blocks, other than context frames, whose pool frames it covers. -/
def State.poolWrite (s : State) (a : Nat) (b : Bytes) : State :=
  if a < 0x010000000000 then s
  else
    let ctx (k : Nat) : Bool :=
      (s.encs.any fun q => q.2.frames.any fun f => f.block == k) || (decFrameByte s k 0).isSome
    let hit (q : Nat × Desc) : Nat × Desc :=
      let x := q.2.addr
      if q.2.count = 0 ∨ a + b.length ≤ x ∨ x + 8192 ≤ a ∨ ctx q.1 = true then q
      else (q.1, { q.2 with data := writeBlock q.2.data (a - x) ((b.drop (x - a)).take (8192 - (a - x))) })
    { s with pool := { s.pool with descs := s.pool.descs.map hit } }

/-- A write of device memory by a master (R431): an unmapped one is discarded and recorded. A write gives its words new check bits. -/
def State.devWrite (s : State) (m : Master) (acc : Access) (a : Nat) (b : Bytes) : State :=
  if b.isEmpty then s
  else if !(devMapped s m a b.length) then s.contained 0x02 acc m a
  else
    let s1 := ((s.poolWrite a b).devStore a b).ddrTouch a b.length
    { s1 with mem := { s1.mem with
      poison := s1.mem.poison.filter fun w => !(decide (a ≤ 32 * w) && decide (32 * w + 32 ≤ a + b.length)) } }

end Sys2Proof.Machine
end

