-- ==== Sys2Proof/Machine/MemUnit.lean ====
section
/-! DEFINITION. The memory controllers (R435 to R448): placement, scrub, pseudo-channel copies, rank migration, power-down. -/

namespace Sys2Proof.Machine

/-! ### Scrub (R434, R435, R441, R442, R473) -/

/-- The address after one that was scrubbed, and whether a pass ends there. -/
def scrubNext (s : State) (a : Nat) : Nat × Bool :=
  let n := a + 32
  if n = hbmEnd then (if s.mem.ddrBytes = 0 then (hbmBase, true) else (ddrBase, false))
  else if n = ddrBase + s.mem.ddrBytes then (hbmBase, true)
  else (n, false)

/-- The outer code corrected a device (R442): beyond 0x2050:02 bursts in a second the device is marked failed. -/
def State.deviceHit (s : State) (c dev : Nat) : State :=
  let d := s.ddr c
  let hits := (d.hits.filter fun q => decide (s.clk.now < q.2 + 1000000000)) ++ [(dev, s.clk.now)]
  s.setDdr c { d with
    hits := hits
    failed := if par s 0x2050 2 < (hits.filter fun q => q.1 == dev).length then d.failed ||| ((1 : BitVec 10) <<< dev) else d.failed }

/-! ### The GC-256 code (R432 to R434) -/

/-- The address A folded into a word's check bits: the word's index in an on-die memory, device address [44:5] in HBM3E and DDR5. -/
def codeAddr (a : Nat) : BitVec 40 :=
  BitVec.ofNat 40 ((if 0x010000000000 ≤ a then a else if 0x000100000000 ≤ a then a - 0x000100000000 else a) / 32)

/-- The 16 check bits stored with a word of device memory: those of its data and address; in the poison form all inverted. -/
def checkBits (s : State) (a : Nat) : BitVec 16 :=
  let c := Config.gcCheck (BitVec.ofNat 256 (leNat (s.devRead (a / 32 * 32) 32))) (codeAddr a)
  if s.mem.poison.contains (a / 32) then ~~~ c else c

/-- Three or more bits in error, for which no property is guaranteed. -/
def codeMany (e : CodeErr) : Bool :=
  decide (3 ≤ e.bits.eraseDups.length) || (e.moved && !e.bits.isEmpty)

/-- How a read of a codeword ends (R433): one bit or one adjacent pair is corrected, any other two bits and a word of another address are
detected; beyond that the outcome is free. -/
def codeOutcome (e : CodeErr) (free : Nat) : Ecc :=
  if codeMany e then (if Config.freeBit free then .corrected else .uncorrectable)
  else match e.bits.eraseDups with
    | [] => if e.moved then .uncorrectable else .clean
    | [_] => .corrected
    | x :: y :: _ => if x.val / 2 = y.val / 2 then .corrected else .uncorrectable

/-- A corrected word is written back: as it was, or, with more errors than the code corrects, as the decoder took it. -/
def State.writeBack (s : State) (a : Nat) (e : CodeErr) : State :=
  if codeMany e then
    s.devStore (a / 32 * 32) ((List.range 32).map fun i => BitVec.ofNat 8 (Config.freeNat s.clk.free / 256 ^ i))
  else s

/-- An uncorrectable word the scrub finds is left as it is (R435). -/
def State.scrubBad (s : State) (a : Nat) : State := s.contained 0x01 .read mFault a

/-- A word read by the scrub. A word that the state holds poisoned is uncorrectable. With one device failed, the outer code rebuilds that
one and corrects no other (R442). -/
def State.scrubWord (s : State) (a : Nat) (f : ScrubFound) : State :=
  match f with
  | .sram _ _ => s
  | .hbm e =>
    let q := hbmPlace a
    if s.mem.poison.contains (a / 32) then s.scrubBad a
    else match codeOutcome e s.clk.free with
      | .clean => s
      | .corrected => ((s.writeBack a e).memCount 4).correctedBy (0x10000 + 32 * q.1 + pcPhys s q.1 q.2)
      | .uncorrectable => s.scrubBad a
  | .ddr e dev =>
    let q := ddrPlace s a
    let s0 := s.ddrTouch a 32
    let s1 := match dev.filter fun x => decide ((s.ddr q.1).failed = 0 ∨ (s.ddr q.1).failed = (1 : BitVec 10) <<< x.val) with
      | some d => ((s0.memCount 6).correctedBy (0x20000 + 8 * q.1 + q.2)).deviceHit q.1 d
      | none => s0
    if s.mem.poison.contains (a / 32) then s1.scrubBad a
    else match codeOutcome e s.clk.free with
      | .clean => s1
      | .corrected => ((s1.writeBack a e).memCount 5).correctedBy (0x20000 + 8 * q.1 + q.2)
      | .uncorrectable => s1.scrubBad a

/-- A corrected error of an SRAM row counts for the row and for the unit whose memory it is (R468, R473). -/
def State.sramCounted (s : State) (row : Nat) (u : Option HwUnit) : State :=
  match u with
  | some u => (s.correctedBy (0x40000 + row)).countBin (unitItem u)
  | none => s.correctedBy (0x40000 + row)

/-- A corrected error of an SRAM row (R473): at the hourly threshold the row enters the soft-repair list of 256. -/
def State.sramRow (s : State) (row : Nat) (u : Option HwUnit) : State :=
  let s1 := s.sramCounted row u
  if hourCount s1 (0x40000 + row) < par s 0x7030 4 ∨ s1.sparing.repairs.contains row then s1
  else if 256 ≤ s1.sparing.repairs.length then { s1 with faults := { s1.faults with beyondList := s1.faults.beyondList + 1 } }
  else s1.setSparing { s1.sparing with repairs := s1.sparing.repairs ++ [row] }

/-- PATROL_SCRUB (R434, R435, R441, R442, R473): the next word of the pass is read; any other address is not the scrub's turn. -/
def execPatrolScrub (addr : BitVec 48) (f : ScrubFound) (s : State) : Host.Outcome State Fault Refusal :=
  awake s <|
  let a := addr.toNat
  match f with
  | .sram row u => done (s.sramRow row u)
  | .hbm _ =>
    if a ≠ s.mem.scrubAt ∨ hbmEnd ≤ a ∨ s.boot.hbm = false then done s
    else
      let n := scrubNext s a
      let s1 := (s.scrubWord a f).freed
      done ({ s1 with mem := { s1.mem with scrubAt := n.1 } }.memCount 0x0C (b2n n.2))
  | .ddr _ _ =>
    if a ≠ s.mem.scrubAt ∨ a < ddrBase ∨ s.boot.ddr = false then done s
    else
      let n := scrubNext s a
      let s1 := (s.scrubWord a f).freed
      done ({ s1 with mem := { s1.mem with scrubAt := n.1 } }.memCount 0x0C (b2n n.2))

/-! ### Pseudo-channels and ranks (R438, R446, R447) -/

/-- Source 0x014 with the logical and physical numbers of a unit brought into service (R470), whose master the event carries (R422). -/
def State.regrown (s : State) (m : Master) (logical phys : Nat) : State := s.raise 0x014 m (le 2 logical ++ le 2 phys)

/-- PSEUDO_CHANNEL_REGROW (R438): the copy into the stack's spare begins; a stack whose spare is in use cannot regrow. -/
def execPseudoChannelRegrow (stack : Fin 4) (pc : Fin 31) (s : State) : Host.Outcome State Fault Refusal :=
  awake s <|
  let v := s.hbm stack
  if v.trained = true ∧ v.replaced = none ∧ v.copying = none then done (s.setHbm stack { v with copying := some pc.val }) else done s

/-- A word lost in a copy (R434, R438, R447, R255): poison form, one contained error, its block poisoned, the block's owner charged (R459). -/
def State.loseWord (s : State) (a : BitVec 48) : State :=
  let w := a.toNat / 32
  let mark (d : Desc) : Desc := if d.count ≠ 0 ∧ d.addr ≤ a.toNat ∧ a.toNat < d.addr + 8192 then { d with poisoned := true } else d
  let s1 : State := { s with
    mem := { s.mem with poison := w :: s.mem.poison.filter (· ≠ w) }
    pool := { s.pool with descs := s.pool.descs.map fun q => (q.1, mark q.2) } }
  let s2 := (s.pool.descs.filter fun q => decide (mark q.2 ≠ q.2)).foldl (fun s q => s.chargeTo q.2.owner) s1
  (s2.memCount 0x0D).contained 0x01 .read mFault a.toNat

/-- A stream's block table has a word among those that a failing unit has lost. -/
def tableHit (s : State) (lost : List (BitVec 48)) (n : Nat) (e : Enc) : Bool :=
  ((e.frames.drop 1).take (tabFrames s n)).any fun f =>
    let x := (s.pool.desc f.block).addr
    lost.any fun a => decide (x ≤ a.toNat ∧ a.toNat < x + 8192)

/-- Words that a failing memory unit has lost (R255, R256, R438, R447, R459): streams whose tables lay there have their references declared
lost (DEDUCED, log entry 210). -/
def State.loseWords (s : State) (lost : List (BitVec 48)) : State :=
  (s.encs.filter fun q => !q.2.table.isEmpty && tableHit s lost q.1 q.2).foldl (fun s q => s.loseRefs mFault q.1) (lost.foldl State.loseWord s)

/-- PSEUDO_CHANNEL_COPY_DONE (R20, R438): the spare takes the logical number. `lost` are the words found uncorrectable. -/
def execPseudoChannelCopyDone (stack : Fin 4) (lost : List (BitVec 48)) (s : State) : Host.Outcome State Fault Refusal :=
  awake s <|
  let v := s.hbm stack
  match v.copying with
  | none => done s
  | some c =>
    let s0 := s.loseWords (lost.filter fun a => decide (hbmBase ≤ a.toNat ∧ a.toNat < hbmEnd ∧ hbmPlace a.toNat = (stack.val, c)))
    let s1 := s0.setHbm stack { v with copying := none, replaced := some c }
    let s2 := s1.setSparing { s1.sparing with pseudo := put s1.sparing.pseudo stack c }
    done ((s2.memCount 0x0B).regrown mFault c 31)

/-- RANK_RETIRE (R446): the rank is migrated into its channel's unused spare; without one it stays in service. -/
def execRankRetire (ch : Fin 8) (rank : Fin 4) (s : State) : Host.Outcome State Fault Refusal :=
  awake s <|
  done (s.retireRank ch rank)

/-- RANK_MIGRATION_DONE (R447): the spare answers the retired rank's addresses, the retirement is recorded, 0x014 is raised. `lost`
are the words that could not be recovered. -/
def execRankMigrationDone (ch : Fin 8) (lost : List (BitVec 48)) (s : State) : Host.Outcome State Fault Refusal :=
  awake s <|
  let d := s.ddr ch
  match d.migrating with
  | none => done s
  | some r =>
    let s1 := s.loseWords (lost.filter fun a => decide (ddrBase ≤ a.toNat ∧ ddrPlace s a.toNat = (ch.val, r)))
    let s2 := s1.setDdr ch { d with migrating := none, retired := some r, spare := none, down := r :: d.down.filter (· ≠ r) }
    let s3 := s2.setSparing { s2.sparing with ranks := put s2.sparing.ranks ch r }
    done ((s3.memCount 0x0A).regrown mFault r (d.spare.getD 0))

/-- RANK_POWER_DOWN (R444): a rank without an access for 0x2050:04 µs powers down, unless power-down is off or the rank is being migrated. -/
def execRankPowerDown (ch : Fin 8) (rank : Fin 4) (s : State) : Host.Outcome State Fault Refusal :=
  awake s <|
  let d := s.ddr ch
  if par s 0x2050 4 = 0 ∨ d.trained = false ∨ d.ranks ≤ rank.val ∨ d.migrating = some rank.val ∨ d.down.contains rank.val = true ∨
      s.clk.now < lookD 0 d.touched rank.val + 1000 * par s 0x2050 4 then done s
  else done (s.setDdr ch { d with down := rank.val :: d.down, rows := d.rows.filter fun q => decide (q.1 / 256 ≠ rank.val) })

end Sys2Proof.Machine
end

