-- ==== Sys2Proof/Machine/FaultUnit.lean ====
section
/-! DEFINITION. Faults, wear and spare capacity (R458 to R478): the fault unit's commands, regrowing, temperature, cabinet inputs. -/

namespace Sys2Proof.Machine

/-! ### The fault unit -/

/-- A kind code of R459. -/
def faultKind (k : Nat) : Bool := (decide (1 ≤ k) && decide (k ≤ 0x12)) || (decide (0x80 ≤ k) && decide (k ≤ 0x83))

/-- FAULT_REPORT (R458 to R467): a fault reaches the fault unit; a reserved code is no fault. `struck` is the unit whose own on-die
memory or control path a contained fault struck (R468); a watchdog expiry does not count (R472). -/
def execFaultReport (kind : BitVec 8) (acc : Access) (m : Master) (addr : BitVec 48) (struck : Option HwUnit) (s : State) :
    Host.Outcome State Fault Refusal :=
  issuedBy m s <|
  if faultKind kind.toNat then
    let s1 := match struck with
      | some u => if kind.toNat < 0x80 ∧ kind ≠ 0x12 then s.countBin (0x30000 + unitItem u) else s
      | none => s
    done (s1.report kind.toNat acc m (if acc = .none then 0 else addr.toNat))
  else done s

/-- A write of `FLT_STATUS` (R460, R462, R475): `VALID`, `OVERFLOW` and `DIVERGED` are cleared by writing 1. -/
def State.writeFltStatus (s : State) (v : Word) : State :=
  { s with faults := { s.faults with
    valid := s.faults.valid && !(v.getLsbD 31), overflow := s.faults.overflow && !(v.getLsbD 30)
    diverged := s.faults.diverged && !(v.getLsbD 29) } }

/-- FAULT_RECORD_RELEASE (R460, R462, R467): a fault of the same cycle becomes the new first error. -/
def execFaultRecordRelease (m : Master) (v : Word) (newcomer : Option (BitVec 8 × Master × BitVec 48 × Access)) (s : State) :
    Host.Outcome State Fault Refusal :=
  awake s <|
  guarded (.faultRecordRelease m v newcomer) (
    let s1 := (s.disarm m).writeFltStatus v
    match newcomer with
    | none => done s1.syncErr
    | some (k, who, a, acc) =>
      if faultKind k.toNat then done (s1.report k.toNat acc who (if acc = .none then 0 else a.toNat)) else done s1.syncErr)

/-- Bring the GPIO outputs to their levels (R464, R477). -/
def State.syncGpio (s : State) : State := { s with pins := { s.pins with gpioOut := gpioLevels s } }

/-- ERR_PULSE_END (R464, R465, R476): the pulse has run its width; a fatal escalation then resets the device, and a thermal one holds
the reset. -/
def execErrPulseEnd (st : Straps) (s : State) : Host.Outcome State Fault Refusal :=
  awake s <|
  match s.faults.pulseEnd with
  | none => done s
  | some t =>
    if s.clk.now < t then done s
    else if s.faults.escalating then done (s.wholeReset 6 st false)
    else
      let s1 : State := { s with faults := { s.faults with pulseEnd := none } }
      done (if s1.faults.errLow then s1 else (s1.syncGpio).emit (.pin "ERR_N" true))

/-- FAULT_LOG_SUMMARY (R466): a second has ended. -/
def execFaultLogSummary (s : State) : Host.Outcome State Fault Refusal :=
  awake s <|
  if logSecond s = s.faults.logSec then done s else done s.faultSummary

/-! ### Units (R18 to R20, R470 to R472) -/

/-- The logical number a unit serves. -/
def unitLogical (s : State) : HwUnit → Option Nat
  | .encTile n => encLogical s n.val
  | .decTile n => decLogical s n.val
  | .engine n => engineLogical s n.val
  | .core n => coreLogical s n.val
  | .gavonLane n => if laneState s n.val = 0 then some n.val else none

/-- Units of a unit's scope (R18). -/
def unitScope : HwUnit → List HwUnit
  | .encTile n => (List.range 9).map fun e => .encTile (Fin.ofNat 72 (n.val / 9 * 9 + e))
  | .decTile n => (List.range 5).map fun d => .decTile (Fin.ofNat 40 (n.val / 5 * 5 + d))
  | .engine _ => (List.range 9).map fun e => .engine (Fin.ofNat 9 e)
  | .core _ => (List.range 18).map fun k => .core (Fin.ofNat 18 k)
  | .gavonLane _ => (List.range 5).map fun l => .gavonLane (Fin.ofNat 5 l)

/-- Physical number. -/
def unitNum : HwUnit → Nat
  | .encTile n => n.val
  | .decTile n => n.val
  | .engine n => n.val
  | .core n => n.val
  | .gavonLane n => n.val
def unitKind : HwUnit → Nat
  | .encTile _ => 1
  | .decTile _ => 2
  | .engine _ => 3
  | .core _ => 4
  | .gavonLane _ => 5

/-- The first spare of a unit's scope: it serves no number, was never retired and is not taken for another regrow. -/
def spareFor (s : State) (u : HwUnit) : Option HwUnit :=
  (unitScope u).find? fun v => (unitLogical s v).isNone && !(s.sparing.retired.contains v) &&
    !(s.faults.regrows.any fun r => r.spare == some (unitNum v) && unitKind r.unit == unitKind v)

/-- Move a logical number to a physical unit, 0xFF for none (R20, R472). -/
def Sparing.move (p : Sparing) (u : HwUnit) (logical phys : Nat) : Sparing :=
  match u with
  | .encTile _ => { p with enc := put p.enc logical phys }
  | .decTile _ => { p with dec := put p.dec logical phys }
  | .engine _ => { p with batten := put p.batten logical phys }
  | .core _ => { p with core := put p.core logical phys }
  | .gavonLane n => { p with lanes := if phys = 0xFF then put p.lanes n.val 2 else put (put p.lanes n.val 2) phys 0 }

/-- The engine of a tile's frame leaves service: the frame is abandoned (R186, R472). -/
def State.dropFrame (s : State) (p : Nat) : State :=
  match (s.tile p).frame with
  | some f => s.abandon ((encLogical s p).getD 0) p f
  | none => s
/-- A picture in decoding on a tile that leaves service is lost. -/
def State.dropPicture (s : State) (p : Nat) : State :=
  match decodingOn s p with
  | some (c, g) =>
    let s1 := (s.setDec c { s.dec c with decoding := none }).setDtile p { s.dtile p with state := 0 }
    let s2 : State := { s1 with pool := { s1.pool with reserved := s1.pool.reserved - g.reserved } }
    ((s2.releaseSlots (mDec p) g.frames).losePicture c).closeDec (mDec p) c
  | none => s

/-- Power a unit down. -/
def State.powerDown (s : State) : HwUnit → State
  | .encTile n => s.setTile n { s.tile n with powered := false }
  | .decTile n => s.setDtile n { s.dtile n with powered := false, state := 0 }
  | .engine n => { s with batten := { s.batten with engines := put s.batten.engines n { lookD {} s.batten.engines n with powered := false } } }
  | .core _ => s
  | .gavonLane _ => s

/-- A lane carries half B: lane 4 stands where the retired lane stood (R487, R488). -/
def laneInB (s : State) (n : Nat) : Bool :=
  if n = 4 then s.sparing.retired.any fun u => match u with | .gavonLane k => decide (2 ≤ k.val) && decide (k.val < 4) | _ => false
  else decide (2 ≤ n)
/-- The half of a lane stops carrying frames; the other half carries all of them (R488). -/
def State.laneHalfDown (s : State) (u : HwUnit) : State :=
  match u with
  | .gavonLane n =>
    let s1 : State := { s with pair := if laneInB s n then { s.pair with halfB := false } else { s.pair with halfA := false } }
    s1.pairChanged s
  | _ => s

/-- A failing unit with no spare leaves service (R470, R472). -/
def State.outOfService (s : State) (u : HwUnit) (logical : Nat) : State :=
  let s1 := match u with
    | .decTile n => s.dropPicture n
    | .engine n =>
      let c := (engineLogical s n).getD 0
      (List.range 9).foldl (fun s e => match (s.tile (9 * c + e)).frame with
        | some f => if f.sealVal.isSome then s else s.dropFrame (9 * c + e)
        | none => s) s
    | _ => s.laneHalfDown u
  ((s1.setSparing { s1.sparing.move u logical 0xFF with retired := u :: s1.sparing.retired }).powerDown u).settleInts

/-- The trigger finds no spare (R470): kind 0x0F, and for a failure kind 0x10, and the unit leaves service. -/
def State.noSpare (s : State) (u : HwUnit) (failure : Bool) : State :=
  match failure, unitLogical s u with
  | true, some l =>
    let s1 := (s.reportNone 0x0F).reportNone 0x10
    -- an encode tile that codes a frame ends it first: leaving service is none of R186's causes of an abandoned frame
    let coding := match u with
      | .encTile n => (s1.tile n).frame.isSome
      | _ => false
    if coding then { s1 with faults := { s1.faults with regrows := s1.faults.regrows ++
      [({ unit := u, failure := true, spare := none, tested := true, since := s.clk.now } : Regrow)] } }
    else s1.outOfService u l
  | _, _ => s.reportNone 0x0F

/-- A regrow begins with the first spare of the scope, or finds none. -/
def State.callRegrow (s : State) (u : HwUnit) (failure : Bool) : State :=
  match spareFor s u with
  | some v =>
    { s with faults := { s.faults with regrows := s.faults.regrows ++
      [({ unit := u, failure := failure, spare := some (unitNum v), since := s.clk.now } : Regrow)] } }
  | none => s.noSpare u failure

/-- A regrow of the unit is pending. -/
def regrowing (s : State) (u : HwUnit) : Bool := s.faults.regrows.any fun r => decide (r.unit = u)

/-- REGROW_TRIGGER (R469, R470, R472): a threshold or failure trigger of a unit in service. With 0x7030:05 = 0 only its event is
raised. A margin trigger needs a margin below 0x7030:01; a count trigger needs the rolling hour's count at its threshold (a Gavon lane's
corrections are not counted in the model, so its trigger stands for the count). -/
def execRegrowTrigger (u : HwUnit) (k : TriggerKind) (s : State) : Host.Outcome State Fault Refusal :=
  awake s <|
  let low := match alook s.faults.margins u with
    | some m => decide (m ≠ 0xFF) && decide (m.toNat < par s 0x7030 1)
    | none => false
  let due : Bool := match k with
    | .margin => low
    | .corrected => decide (unitKind u = 5) || decide (par s 0x7030 2 ≤ hourCount s (unitItem u))
    | .contained => decide (par s 0x7030 3 ≤ hourCount s (0x30000 + unitItem u))
    | .unanswered => true
  if (unitLogical s u).isNone || regrowing s u || !due then done s
  else
    let s1 := if k = .corrected then s.raise 0x003 (mUnit u) [] else s
    let failure := decide (k = .contained) || decide (k = .unanswered)
    if parB s 0x7030 5 then done (s1.callRegrow u failure) else done s1

/-- The unit that a code of 0x7031:01 names (R469). -/
def codeUnit (s : State) (code : Nat) : Option HwUnit :=
  let n := code % 256
  if code / 256 % 65536 ≠ 0 then none
  else
    let phys (p : Nat) (u : HwUnit) : Option HwUnit := if p = 0xFF then none else some u
    match code / 2 ^ 24 with
    | 1 => if n < 64 then phys (encPhys s n) (.encTile (Fin.ofNat 72 (encPhys s n))) else none
    | 2 => if n < 32 then phys (decPhys s n) (.decTile (Fin.ofNat 40 (decPhys s n))) else none
    | 3 => if n < 8 then phys (enginePhys s n) (.engine (Fin.ofNat 9 (enginePhys s n))) else none
    | 4 => if n < 16 then phys (corePhys s n) (.core (Fin.ofNat 18 (corePhys s n))) else none
    | _ => none

/-- REGROW_REQUEST (R469, R470): an accepted write of 0x7031:01. -/
def execRegrowRequest (s : State) : Host.Outcome State Fault Refusal :=
  awake s <|
  match takeFirst (fun a : Act => a.idx == 0x7031 && a.sub == 1) s.dict.acts with
  | none => done s
  | some (a, r) =>
    let s1 : State := { s with dict := { s.dict with acts := r } }
    match codeUnit s1 a.val.nat with
    | none => done s1
    | some u => if regrowing s1 u then done s1 else done (s1.callRegrow u false)

/-- The physical unit of the same kind with a number. -/
def unitLike (u : HwUnit) (n : Nat) : HwUnit :=
  match u with
  | .encTile _ => .encTile (Fin.ofNat 72 n)
  | .decTile _ => .decTile (Fin.ofNat 40 n)
  | .engine _ => .engine (Fin.ofNat 9 n)
  | .core _ => .core (Fin.ofNat 18 n)
  | .gavonLane _ => .gavonLane (Fin.ofNat 5 n)

/-- SPARE_SELF_TEST_DONE (R470): of the oldest regrow not yet tested. A spare that fails is counted, never used, and the trigger finds
no spare. -/
def execSpareSelfTestDone (ok : Bool) (s : State) : Host.Outcome State Fault Refusal :=
  awake s <|
  match s.faults.regrows.find? fun r => !r.tested with
  | none => done s
  | some r =>
    if ok then done { s with faults := { s.faults with
      regrows := updFirst (fun x : Regrow => decide (x = r)) (fun x => { x with tested := true }) s.faults.regrows } }
    else
      let rest := match takeFirst (fun x : Regrow => decide (x = r)) s.faults.regrows with | some q => q.2 | none => []
      let p := s.sparing
      let bad := match r.spare with | some n => [unitLike r.unit n] | none => []
      let s1 := ({ s with faults := { s.faults with regrows := rest, selfTestFails := s.faults.selfTestFails + 1 } }).setSparing
        { p with retired := bad ++ p.retired }
      done (s1.noSpare r.unit r.failure)

/-- A unit stands at its boundary (R471). A lane's threshold trigger waits while the other half is down (R488). -/
def atBoundary (s : State) (r : Regrow) : Bool :=
  match r.unit with
  | .encTile n => (s.tile n).frame.isNone
  | .decTile n => !(s.decs.any fun q => match q.2.decoding with | some g => g.tile == n.val | none => false)
  | .engine _ => true
  | .core _ => true
  | .gavonLane n => r.failure || (if laneInB s n then s.pair.halfA else s.pair.halfB)

/-- Bobbins of a unit (R29, R31): they are reset once drained. -/
def unitBobbins : HwUnit → List BobbinId
  | .encTile n => [.ctu n 0, .ctu n 1, .hint n, .slice n, .frameDown n, .frameUp n, .controlTile n]
  | .decTile n => (List.range 4).map (fun k => .surface n (Fin.ofNat 4 k)) ++ [.controlDtile n]
  | .engine n => [.touch n, .controlEngine n]
  | _ => []

/-- Bobbins between a cluster's engine and its tiles. -/
def clusterBobbins (c : Nat) : List BobbinId :=
  (List.range 9).flatMap fun e => let t := ftile (9 * c + e)
                                  [.ctu t 0, .ctu t 1, .hint t, .frameDown t, .frameUp t]

/-- Items of one Bobbin move to another, which the spare unit reads or writes. -/
def State.moveItems (s : State) (a b : BobbinId) : State :=
  let v := s.bob a
  s.setBob b { (s.bob b) with held := (s.bob b).held ++ v.items.map (·.1) ++ v.held }

/-- What is left in the outgoing unit's Bobbins is drained before their reset (R29): into the Bobbins of the spare; touch events into the spare
engine's queue, ahead of those that wait there. -/
def State.drainUnit (s : State) (u : HwUnit) (n : Nat) : State :=
  match u with
  | .engine o =>
    let v := s.bob (.touch o)
    let g := s.engine n
    (s.setEngine n { g with touches := (v.items.map (·.1) ++ v.held).map (itemTouch s.clk.now) ++ g.touches }).moveItems
      (.controlEngine o) (.controlEngine (Fin.ofNat 9 n))
  | _ => ((unitBobbins u).zip (unitBobbins (unitLike u n))).foldl (fun s q => s.moveItems q.1 q.2) s

/-- Reset the Bobbins of an outgoing unit, drained. Those between an engine and its tiles that still hold items are left to the jobs that
finish on the outgoing engine (R129). -/
def State.resetUnitBobs (s : State) (u : HwUnit) (logical : Nat) : State :=
  let s1 := (unitBobbins u).foldl (fun s b => s.resetBob b) s
  match u with
  | .engine _ => (clusterBobbins logical).foldl (fun s b =>
      if (s.bob b).items.isEmpty && (s.bob b).held.isEmpty then s.resetBob b else s) s1
  | _ => s1

/-- The spare takes over what the outgoing unit holds (R129, R254, R264, R309, R427). -/
def State.handOver (s : State) (u : HwUnit) (n : Nat) : State :=
  match u with
  | .encTile o =>
    let t := s.tile o
    let fresh : Tile := { out := t.out }
    let b := parBytes s 0x5F00 0
    let s1 := s.setTile n { fresh with treadle := if b.isEmpty || s.boot.newt then {} else ({} : Treadle).applyPatch b }
    s1.setTile o { s1.tile o with out := {} }
  | .decTile _ => s.setDtile n {}
  | .engine o =>
    let e := lookD ({} : Engine) s.batten.engines o
    { s with batten := { s.batten with engines := put (put s.batten.engines n { powered := true, touches := e.touches }) o { e with touches := [] } } }
  | .core o =>
    { s with bpm := { s.bpm with owners := s.bpm.owners.map fun q => if q.2 = mCore o then (q.1, mCore n) else q } }
  | .gavonLane _ => s

/-- UNIT_SWAP (R20, R29, R427, R470, R471, R474, R488): the oldest regrow whose spare passed its test and whose unit stands at its
boundary moves the logical number; 0x014 is raised and the outgoing unit is powered down. A lane's half stops and retrains, which
GAVON_LINK_UP ends. -/
def execUnitSwap (s : State) : Host.Outcome State Fault Refusal :=
  awake s <|
  match s.faults.regrows.find? fun r => r.tested && atBoundary s r with
  | none => done s
  | some r =>
    let rest := match takeFirst (fun x : Regrow => decide (x = r)) s.faults.regrows with | some q => q.2 | none => []
    let s0 : State := { s with faults := { s.faults with regrows := rest } }
    match r.spare, unitLogical s r.unit with
    | none, some l => done (s0.outOfService r.unit l)
    | some n, some l =>
      let s1 := (((s0.handOver r.unit n).drainUnit r.unit n).resetUnitBobs r.unit l).laneHalfDown r.unit
      let p := s1.sparing
      let s2 := (s1.setSparing { p.move r.unit l n with retired := r.unit :: p.retired }).powerDown r.unit
      done (s2.regrown (mUnit (unitLike r.unit n)) l n)
    | _, _ => done s0

/-- AGEING_SAMPLE (R468): margins, once a minute; a spare is measured only while it is powered for a regrow. -/
def execAgeingSample (margins : List (HwUnit × BitVec 8)) (s : State) : Host.Outcome State Fault Refusal :=
  awake s <|
  let powered (u : HwUnit) : Bool := (unitLogical s u).isSome ||
    s.faults.regrows.any fun r => r.spare == some (unitNum u) && unitKind r.unit == unitKind u
  done { s with faults := { s.faults with
    margins := (margins.filter fun q => powered q.1).foldl (fun l q => aput l q.1 q.2) s.faults.margins } }

/-- CORE_WATCHDOG_EXPIRY (R472): kind 0x12 against the core. -/
def execCoreWatchdogExpiry (k : Fin 16) (s : State) : Host.Outcome State Fault Refusal :=
  awake s <|
  if corePhys s k = 0xFF then done s else done (s.reportNone 0x12 (mCore (corePhys s k)))

/-! ### Temperature (R476, R1) -/

/-- The grade limit in °C. -/
def gradeLimit : Int := if Config.extended then 110 else 105
def State.setTj (s : State) (tj : Int) : State := { s with faults := { s.faults with tj := tj, tjMax := max s.faults.tjMax tj } }

/-- TEMPERATURE_LIMIT (R476): above the limit kind 0x11 is raised and holds. -/
def execTemperatureLimit (tj : Int) (s : State) : Host.Outcome State Fault Refusal :=
  awake s <|
  let s1 := s.setTj tj
  if gradeLimit < tj ∧ s.faults.hot = false then done (({ s1 with faults := { s1.faults with hot := true } }).reportNone 0x11)
  else done s1

/-- TEMPERATURE_LIMIT_CLEARED (R467, R476): 3 °C below the limit kind 0x11 no longer holds. -/
def execTemperatureLimitCleared (tj : Int) (s : State) : Host.Outcome State Fault Refusal :=
  awake s <|
  let s1 := s.setTj tj
  if tj ≤ gradeLimit - 3 then done (({ s1 with faults := { s1.faults with hot := false } }).syncErr) else done s1

/-- THERMAL_TRIP (R465, R476): 10 °C above the limit for 1 ms. -/
def execThermalTrip (tj : Int) (heldNs : Nat) (s : State) : Host.Outcome State Fault Refusal :=
  awake s <|
  let s1 := s.setTj tj
  if gradeLimit + 10 ≤ tj ∧ 1000000 ≤ heldNs then done (s1.reportNone 0x82) else done s1

/-- THERMAL_RESET_RELEASE (R39, R476): a held reset is released 10 °C below the limit, and the straps are latched. -/
def execThermalResetRelease (tj : Int) (st : Straps) (s : State) : Host.Outcome State Fault Refusal :=
  let s1 := s.setTj tj
  if s.clk.scan = false ∧ s.boot.held = true ∧ tj ≤ gradeLimit - 10 then
    done { s1 with
      pins := { s1.pins with straps := st }
      boot := { s1.boot with held := false, resetAt := s1.clk.now, bootMode := st.bootMode, pairId := st.pairId,
                                 bootState := if st.bootMode = 1 then 0 else 4 } }
  else done s1

/-! ### Cabinet inputs (R477) -/

/-- An input at a level is active. -/
def gpioActive (s : State) (n : Nat) (level : Bool) : Bool := if bitOf (par s 0x7060 3) n then !level else level

/-- A new polarity (0x7060:03): an input that becomes active by it is active from now on; one that becomes inactive is no longer stuck. -/
def State.polarityWritten (s old : State) : State :=
  let f := s.faults
  let act (t : State) (n : Nat) : Bool := gpioActive t n (f.gpio.getLsbD n)
  { s with faults := { f with
    gpioSince := (List.range 16).foldl (fun l n => if act s n = act old n then l else put l n s.clk.now) f.gpioSince
    stuck := f.stuck &&& BitVec.ofNat 16 ((List.range 16).foldl (fun a n => a + b2n (act s n) * 2 ^ n) 0) } }

/-- GPIO_INPUT_ACCEPT (R477, R515): the raw input has held a level for `heldUs` samples of 1 µs; it is accepted once that is the filter
time in force. `chatter` counts the raw changes that reversed since the last. -/
def execGpioInputAccept (n : Fin 16) (level : Bool) (heldUs : Nat) (chatter : Word) (s : State) : Host.Outcome State Fault Refusal :=
  awake s <|
    let s1 : State := { s with faults := { s.faults with chatter := upd 0 s.faults.chatter n (· + chatter) } }
    if s.faults.gpio.getLsbD n = level ∨ heldUs < par s 0x7061 (n + 1) then done s1
    else
      let bit : BitVec 16 := (1 : BitVec 16) <<< n.val
      let f := s1.faults
      let s2 : State := { s1 with faults := { f with
        gpio := if level then f.gpio ||| bit else f.gpio &&& ~~~ bit
        gpioSince := put f.gpioSince n s.clk.now
        stuck := if gpioActive s n level then f.stuck else f.stuck &&& ~~~ bit } }
      done (s2.raise 0x007 mFault ([BitVec.ofNat 8 n, BitVec.ofNat 8 (b2n level), 0, 0] ++ stamp (ptpSec s) (ptpNs s) 0 0))

/-- GPIO_STUCK (R477): an input active for the stuck time raises 0x006 once. -/
def execGpioStuck (n : Fin 16) (s : State) : Host.Outcome State Fault Refusal :=
  awake s <|
  let f := s.faults
  if gpioActive s n (f.gpio.getLsbD n) = true ∧ f.stuck.getLsbD n = false ∧
      lookD s.boot.resetAt f.gpioSince n + par s 0x7060 4 * 1000000000 ≤ s.clk.now then
    done (({ s with faults := { f with stuck := f.stuck ||| ((1 : BitVec 16) <<< n.val) } }).raise 0x006 mFault [BitVec.ofNat 8 n])
  else done s

end Sys2Proof.Machine
end

