-- ==== Sys2Proof/Machine/Rings.lean ====
section
/-! DEFINITION. Host rings (R386 to R404): doorbells, enabling and shutting down, entry fetch, dispatch, jobs, completions. -/

namespace Sys2Proof.Machine

/-! ### Rings and completion places -/

def State.sq (s : State) (p : Nat) : Sq := lookD {} s.rings.sqs p
def State.setSq (s : State) (p : Nat) (v : Sq) : State := { s with rings := { s.rings with sqs := put s.rings.sqs p v } }
def State.cq (s : State) (c : Nat) : Cq := lookD {} s.rings.cqs c
def State.setCq (s : State) (c : Nat) (v : Cq) : State := { s with rings := { s.rings with cqs := put s.rings.cqs c v } }
def Sq.ringCq (q : Sq) : Nat := q.cq.toNat
/-- Free slots of a completion ring. -/
def Cq.room (c : Cq) : Nat := 2 ^ c.size.toNat - ringDist c.size.toNat c.head.toNat c.tail.toNat
/-- A completion place is left (R401): a ring slot or one of the 64 staging entries beyond those reserved. -/
def Cq.hasPlace (c : Cq) : Bool := decide (c.reserved < c.room + (64 - c.staged.length))
/-- `PAUSED` (R401). -/
def Cq.isPaused (c : Cq) : Bool := c.enable && !c.hasPlace

/-- A completion entry (R398): `PHASE` is the inverse of the index's wrap bit. -/
def cqeBytes (size idx : Nat) (e : Cqe) : Bytes :=
  le 4 e.tag.toNat ++ le 1 e.status.toNat ++ [if bitOf idx size then 0 else 1] ++ le 2 e.sq ++ le 4 e.result.toNat ++ le 4 e.info.toNat

/-- Write a completion at `CQ_TAIL` (R398, R401), into device memory for a local ring (R399); `CQ_FULL` is raised when the ring fills. -/
def State.writeCqe (s : State) (c : Nat) (e : Cqe) : State :=
  let q := s.cq c
  let sz := q.size.toNat
  let idx := q.tail.toNat
  let q1 := { q with tail := BitVec.ofNat 16 (ringNext sz idx) }
  let a := q.base.toNat + 16 * (idx % 2 ^ sz)
  let s0 := s.setCq c q1
  let s1 := if q.loc then s0.devWrite mHost .descriptor a (cqeBytes sz idx e) else s0.emit (.hostWrite (BitVec.ofNat 64 a) (cqeBytes sz idx e))
  if q1.full then s1.raise (0x500 + c) mHost (le 4 c) else s1.settleInts

/-- A completion occurs (R401, R402): written at the tail, or staged while the ring is full; discarded on a disabled ring. -/
def State.complete (s : State) (c : Nat) (e : Cqe) : State :=
  let q := s.cq c
  let s1 := s.setSq e.sq { s.sq e.sq with done := (s.sq e.sq).done + 1 }
  if !q.enable then s1.setCq c { q with discarded := q.discarded + 1 }
  else if q.full || !q.staged.isEmpty then s1.setCq c { q with staged := q.staged ++ [e] }
  else s1.writeCqe c e

/-- Write staged completions while slots are free. -/
def unstage : Nat → State → Nat → State
  | 0, s, _ => s
  | n + 1, s, c =>
    let q := s.cq c
    match q.staged with
    | [] => s
    | e :: r => if q.full then s else unstage n ((s.setCq c { q with staged := r }).writeCqe c e) c

/-! ### Jobs -/

def State.setJob (s : State) (j : HostJob) : State :=
  { s with rings := { s.rings with jobs := updFirst (fun x => x.id == j.id) (fun _ => j) s.rings.jobs } }
/-- A job ends with a status, `RESULT` and `INFO`. -/
def State.closeJob (s : State) (j : HostJob) (status result : Nat) (info : Nat := 0) : State :=
  s.setJob { j with ended := some (BitVec.ofNat 8 status, BitVec.ofNat 32 result, BitVec.ofNat 32 info) }
/-- A job in progress of an opcode. -/
def jobOf (s : State) (id op : Nat) : Option HostJob :=
  s.rings.jobs.find? fun j => j.id == id && j.opcode.toNat == op && j.ended.isNone

/-- Surface handle of a job's `OBJECT`, within the count of handles. -/
def jobSurface (s : State) (j : HostJob) : Option Nat := if j.object.toNat < s.pool.handles then some j.object.toNat else none
/-- A surface is owned by a decode context (R275, R395). -/
def ownedByContext (v : Surface) : Bool := match v.owner with | .context _ => true | _ => false
/-- Earlier entries naming the same surface or context are applied first (R391). -/
def jobTurn (s : State) (j : HostJob) : Bool :=
  let cls (op : Nat) : Nat := if op = 1 ∨ op = 2 ∨ op = 3 then 1 else op
  !(s.rings.jobs.any fun x => decide (x.id < j.id) && x.ended.isNone &&
    cls x.opcode.toNat == cls j.opcode.toNat && x.object == j.object)

/-- The effect of an abort (R402). -/
def State.abortEffect (s : State) (j : HostJob) : State :=
  if j.opcode = 1 ∧ j.loaded = true then
    let h := j.object.toNat
    let v := s.surface h
    match v.waiting with
    | some w => (s.setSurface h { v with
        waiting := none, state := if v.state = .loading then .free else v.state }).releaseSlots mHost w.2.2.2
    | none => s
  else if j.opcode = 6 then { s with rings := { s.rings with posted := s.rings.posted.filter (· ≠ j.id) } }
  else s

/-! ### Shutting down (R402, R403) -/

/-- With nothing outstanding a ring that shuts down comes to rest; a reset then zeroes it. -/
def State.restSq (s : State) (p : Nat) : State :=
  let q := s.sq p
  if q.state = 3 ∧ q.aborts = [] ∧ q.head = q.tail ∧ !(s.rings.jobs.any fun j => j.sq == p) then
    s.setSq p { q with
      state := 0
      head := if q.reset then 0 else q.head
      tail := if q.reset then 0 else q.tail
      errCode := if q.reset then 0 else q.errCode
      reset := false }
  else s

/-- Completions of entries never dispatched are written in index order as places become free. -/
def drainAborts : Nat → State → Nat → State
  | 0, s, p => s.restSq p
  | n + 1, s, p =>
    let q := s.sq p
    match q.aborts with
    | [] => s.restSq p
    | (tag, st) :: r =>
      let c := q.ringCq
      if (s.cq c).enable && !(s.cq c).hasPlace then s
      else drainAborts n ((s.setSq p { q with aborts := r }).complete c ⟨tag, st, p, 0, 0⟩) p
def State.drain (s : State) (p : Nat) : State := drainAborts ((s.sq p).aborts.length) s p
/-- Every ring bound to a completion ring drains what it can. -/
def State.drainBound (s : State) (c : Nat) : State :=
  (s.rings.sqs.filter fun q => q.2.ringCq == c && !q.2.aborts.isEmpty).foldl (fun s q => s.drain q.1) s

/-- Abort the jobs of a ring that have not ended. -/
def State.abortJobs (s : State) (p : Nat) : State :=
  (s.rings.jobs.filter fun j => j.sq == p && j.ended.isNone).foldl
    (fun s j => (s.abortEffect j).closeJob j 1 0) s

/-- Shut a ring down: dispatch stops at once, and each outstanding entry completes with `ABORTED`. -/
def State.shutSq (s : State) (p : Nat) (reset : Bool) : State :=
  let s1 := s.abortJobs p
  let q := s1.sq p
  (s1.setSq p { q with
    enable := false, state := 3, reset := q.reset || reset, fetched := []
    aborts := q.aborts ++ q.fetched.map fun b => (BitVec.ofNat 32 (le32 b 4), 1) }).drain p

/-- Shut a ring down with its completions discarded and counted: nothing is fetched. -/
def State.discardSq (s : State) (p c : Nat) : State :=
  let s1 := s.abortJobs p
  let q := s1.sq p
  let n := (s1.rings.jobs.filter fun j => j.sq == p).length + q.aborts.length + q.fetched.length +
    ringDist q.size.toNat q.head.toNat q.tail.toNat
  let s2 : State := { s1 with rings := { s1.rings with jobs := s1.rings.jobs.filter fun j => j.sq != p } }
  let s3 := s2.setSq p { q with
    done := q.done + BitVec.ofNat 32 n
    enable := false, state := 0, fetched := [], aborts := [], reset := false
    head := if q.reset then 0 else q.tail
    tail := if q.reset then 0 else q.tail
    errCode := if q.reset then 0 else q.errCode }
  s3.setCq c { s3.cq c with discarded := (s3.cq c).discarded + BitVec.ofNat 32 n, reserved := 0 }

/-- Disable a completion ring. -/
def State.shutCq (s : State) (c : Nat) : State :=
  let bound := s.rings.sqs.filterMap fun q => if q.2.ringCq = c ∧ q.2.state ≠ 0 then some q.1 else none
  let s1 := bound.foldl (fun s p => s.discardSq p c) s
  let q := s1.cq c
  (s1.setCq c { q with
    enable := false, staged := [], reserved := 0, discarded := q.discarded + BitVec.ofNat 32 q.staged.length }).settleInts

/-! ### Doorbells and configuration (R387 to R389, R399, R400) -/

/-- A doorbell is rejected. -/
def State.rejectDoorbell (s : State) : State := { s with rings := { s.rings with rejected := s.rings.rejected + 1 } }

/-- A write of a submission doorbell (R389): a proposed tail is accepted, or rejected into the error state; on a ring that does not run
it is discarded. -/
def State.sqDoor (s : State) (p : Nat) (v : Word) : State :=
  let q := s.sq p
  let sz := q.size.toNat
  let d := v.toNat % 65536
  if q.state ≠ 1 then s.rejectDoorbell
  else if d < 2 ^ (sz + 1) ∧ ringDist sz q.head.toNat d ≤ 2 ^ sz ∧ ringDist sz q.tail.toNat d ≤ ringDist sz q.head.toNat d then
    s.setSq p { q with tail := BitVec.ofNat 16 d }
  else (s.setSq p { q with state := 2, errCode := 1 }).rejectDoorbell

/-- A write of a completion doorbell (R400, R401): a returned head is accepted and staged completions are written; a rejected one sets
`DB_ERR`. -/
def State.cqDoor (s : State) (c : Nat) (v : Word) : State :=
  let q := s.cq c
  let sz := q.size.toNat
  let h := v.toNat % 65536
  if h < 2 ^ (sz + 1) ∧ ringDist sz q.head.toNat h ≤ ringDist sz q.head.toNat q.tail.toNat then
    ((unstage 64 (s.setCq c { q with head := BitVec.ofNat 16 h }) c).drainBound c).settleInts
  else s.setCq c { q with dbErr := true }

/-- SQ_DOORBELL (R389): the host alone reaches BAR4 (R430). -/
def execSqDoorbell (p : Fin 4096) (v : Word) (s : State) : Host.Outcome State Fault Refusal :=
  awake s <| done ((s.disarm mHost).sqDoor p.val v)
/-- CQ_DOORBELL (R400, R401). -/
def execCqDoorbell (c : Fin 1024) (v : Word) (s : State) : Host.Outcome State Fault Refusal :=
  awake s <| done ((s.disarm mHost).cqDoor c.val v)

/-- `SQ_CFG` fields but `ENABLE`. -/
def Sq.config (q : Sq) (v : Word) : Sq :=
  { q with loc := v.getLsbD 30, prio := v.extractLsb' 28 2, cq := v.extractLsb' 16 10, size := v.extractLsb' 0 4 }

/-- A write of `SQ_CFG` (R388, R402). -/
def State.writeSqCfg (s : State) (p : Nat) (v : Word) : State :=
  let q := s.sq p
  if v.getLsbD 31 then
    if q.state ≠ 0 then s
    else
      let q1 := q.config v
      if q1.size = 0 then s.setSq p { q1 with errCode := 4 }
      else if (s.cq q1.ringCq).enable = false then s.setSq p { q1 with errCode := 3 }
      else s.setSq p { q1 with enable := true, state := 1 }
  else if q.state = 0 then s.setSq p (q.config v)
  else if q.state = 3 then s
  else s.shutSq p false

/-- SQ_ENABLE (R388): a write of `SQ_CFG` with `ENABLE` 1. -/
def execSqEnable (m : Master) (p : Fin 4096) (v : Word) (s : State) : Host.Outcome State Fault Refusal :=
  issuedBy m s <|
  done ((s.disarm m).writeSqCfg p (v ||| 0x80000000))
/-- SQ_DISABLE (R402): a write of `SQ_CFG` with `ENABLE` 0. -/
def execSqDisable (m : Master) (p : Fin 4096) (v : Word) (s : State) : Host.Outcome State Fault Refusal :=
  issuedBy m s <|
  done ((s.disarm m).writeSqCfg p (v &&& 0x7FFFFFFF))
/-- SQ_RESET (R402). -/
def execSqReset (m : Master) (p : Fin 4096) (s : State) : Host.Outcome State Fault Refusal :=
  issuedBy m s <| done ((s.disarm m).shutSq p true)

/-- `CQ_CFG` fields but `ENABLE`. -/
def Cq.config (q : Cq) (v : Word) : Cq := { q with loc := v.getLsbD 30, size := v.extractLsb' 0 4 }

/-- A write of `CQ_CFG` (R399, R402): size 0 leaves `ENABLE` 0. -/
def State.writeCqCfg (s : State) (c : Nat) (v : Word) : State :=
  let q := s.cq c
  if v.getLsbD 31 then
    let q1 := q.config v
    s.setCq c { q1 with enable := q1.size != 0 }
  else
    let s1 := if q.enable then s.shutCq c else s
    s1.setCq c ((s1.cq c).config v)

/-- CQ_ENABLE (R399): a write of `CQ_CFG` with `ENABLE` 1. -/
def execCqEnable (m : Master) (c : Fin 1024) (v : Word) (s : State) : Host.Outcome State Fault Refusal :=
  issuedBy m s <|
  done ((s.disarm m).writeCqCfg c (v ||| 0x80000000))
/-- CQ_DISABLE (R402): a write of `CQ_CFG` with `ENABLE` 0 shuts the bound rings down first. -/
def execCqDisable (m : Master) (c : Fin 1024) (v : Word) (s : State) : Host.Outcome State Fault Refusal :=
  issuedBy m s <|
  done ((s.disarm m).writeCqCfg c (v &&& 0x7FFFFFFF))
/-- A reset of a completion ring (R402): as a disable, and the indices become 0. -/
def State.resetCq (s : State) (c : Nat) : State :=
  let s1 := s.shutCq c
  (s1.setCq c { s1.cq c with head := 0, tail := 0 }).settleInts
/-- CQ_RESET (R402). -/
def execCqReset (m : Master) (c : Fin 1024) (s : State) : Host.Outcome State Fault Refusal :=
  issuedBy m s <|
  done ((s.disarm m).resetCq c)

/-! ### Fetch and dispatch (R390, R391) -/

/-- Fetched entries of a ring that shuts down give their tags alone (R402). -/
def State.takeEntries (s : State) (p n : Nat) (got : Option (List Bytes)) : State :=
  let q := s.sq p
  let head := BitVec.ofNat 16 ((q.head.toNat + n) % 2 ^ (q.size.toNat + 1))
  match got with
  | some l =>
    if q.state = 3 then
      (s.setSq p { q with head := head, aborts := q.aborts ++ l.map fun b => (BitVec.ofNat 32 (le32 b 4), 1) }).drain p
    else s.setSq p { q with head := head, fetched := q.fetched ++ l }
  | none =>
    let failed : List (Word × BitVec 8) := List.replicate n (0, 6)
    (s.setSq p { q with
      head := head, aborts := q.aborts ++ failed
      state := if q.state = 3 then 3 else 2
      errCode := if q.state = 3 then q.errCode else 2 }).drain p

/-- ENTRY_FETCH (R390, R402): one read of up to 8 entries completes. `entries` is what host memory returns, none for an access that
failed; a local ring's entries come from device memory. -/
def execEntryFetch (p : Fin 4096) (entries : Option (List Bytes)) (s : State) : Host.Outcome State Fault Refusal :=
  awake s <|
  let q := s.sq p
  let sz := q.size.toNat
  let k := min 8 (ringDist sz q.head.toNat q.tail.toNat)
  if k = 0 ∨ (q.state ≠ 1 ∧ q.state ≠ 3) then done s
  else
    let slot (i : Nat) : Nat := q.base.toNat + 64 * ((q.head.toNat + i) % 2 ^ sz)
    if q.loc then
      match (List.range k).findSome? fun i => (devProblem s mHost (slot i) 64).map fun e => (e, slot i) with
      | some (e, a) => done ((s.contained e .descriptor mHost a).takeEntries p k none)
      | none => done (((List.range k).foldl (fun s i => s.ddrTouch (slot i) 64) s).takeEntries p k (some ((List.range k).map fun i => s.devRead (slot i) 64)))
    else
      match entries with
      | none => done ((s.contained 0x09 .descriptor mHost (slot 0)).takeEntries p k none)
      | some l =>
        let got := (l.take k).map fun b => slice b 0 64
        if got.isEmpty then done s else done (s.takeEntries p got.length (some got))

/-- Jobs of a ring in progress. -/
def inProgress (s : State) (p : Nat) : Nat := (s.rings.jobs.filter fun j => j.sq == p).length

/-- A ring's oldest fetched entry may be dispatched (R391). -/
def mayDispatch (s : State) (p : Nat) (q : Sq) : Bool :=
  match q.fetched with
  | [] => false
  | b :: _ =>
    (q.state == 1 || q.state == 2) && decide (inProgress s p < 8) && decide (s.rings.jobs.length < 2048) &&
      (s.cq q.ringCq).hasPlace && (!(bitOf (u8 b 1) 1) || inProgress s p == 0)

/-- An entry's reserved fields and opcode (R392, R393). -/
def badEntry (b : Bytes) : Bool :=
  let op := u8 b 0
  decide (6 < op) || u8 b 1 / 4 != 0 || !(zeroRange b 2 2) || !(zeroRange b 0xC 4) || !(zeroRange b 0x1C 4) ||
    (if op = 1 then !(zeroRange b 0x25 27)
     else if op = 4 then decide (2 < u8 b 0x20) || !(zeroRange b 0x21 3) || !(zeroRange b 0x28 24)
     else !(zeroRange b 0x20 32))

/-- DISPATCH (R391, R392, R401): the ring of lowest `PRIO`, round-robin within one, dispatches its oldest entry; a bad entry ends at
once. -/
def execDispatch (s : State) : Host.Outcome State Fault Refusal :=
  awake s <|
  let ready := s.rings.sqs.filter fun q => mayDispatch s q.1 q.2
  let key (q : Nat × Sq) : Nat := q.2.prio.toNat * 4096 + (q.1 + 4095 - lookD 4095 s.rings.turn q.2.prio.toNat) % 4096
  match minBy key ready with
  | none => done s
  | some (p, q) =>
    match q.fetched with
    | [] => done s
    | b :: r =>
      let j : HostJob :=
        { id := s.rings.nextJob, sq := p, tag := BitVec.ofNat 32 (le32 b 4), opcode := BitVec.ofNat 8 (u8 b 0)
          flags := BitVec.ofNat 8 (u8 b 1), object := BitVec.ofNat 32 (le32 b 8), addr := BitVec.ofNat 64 (le64 b 0x10)
          len := BitVec.ofNat 32 (le32 b 0x18), params := b.drop 0x20
          ended := if badEntry b then some (2, 0, 0) else none }
      let c := s.cq q.ringCq
      let s1 := (s.setSq p { q with fetched := r }).setCq q.ringCq { c with reserved := c.reserved + 1 }
      done { s1 with rings := { s1.rings with
        jobs := s1.rings.jobs ++ [j], nextJob := s1.rings.nextJob + 1, turn := put s1.rings.turn q.prio.toNat p } }

/-! ### Job data (R386, R394) -/

def jobLocal (s : State) (j : HostJob) : Bool := (s.sq j.sq).loc

/-- Fragments of a table that keeps the rules of R394. -/
def fragsOf (table : Bytes) (n : Nat) : Option (List (Nat × Nat)) :=
  let l := (List.range n).map fun i => (le64 table (16 * i), le32 table (16 * i + 8), le32 table (16 * i + 12))
  if l.all fun x => decide (1 ≤ x.2.1) && decide (x.2.1 ≤ 16777216) && x.2.2 == 0 then some (l.map fun x => (x.1, x.2.1)) else none

/-- A job's fragments, or the status it ends with, and the state after a failed access. -/
def jobFrags (s : State) (j : HostJob) (table : Option Bytes) : Except Nat (List (Nat × Nat)) × State :=
  let n := j.len.toNat
  if !(bitOf j.flags.toNat 0) then (.ok [(j.addr.toNat, n)], s)
  else if n = 0 ∨ 4096 < n ∨ j.addr.toNat % 16 ≠ 0 then (.error 5, s)
  else
    let parse (t : Bytes) (s : State) : Except Nat (List (Nat × Nat)) × State :=
      match fragsOf t n with
      | some l => (.ok l, s)
      | none => (.error 5, s)
    if jobLocal s j then
      match devProblem s mHost j.addr.toNat (16 * n) with
      | some e => (.error 7, s.contained e .descriptor mHost j.addr.toNat)
      | none => parse (s.devRead j.addr.toNat (16 * n)) (s.ddrTouch j.addr.toNat (16 * n))
    else
      match table with
      | some t => parse t s
      | none => (.error 6, s.contained 0x09 .descriptor mHost j.addr.toNat)

def fragLen (l : List (Nat × Nat)) : Nat := sumNat (l.map (·.2))

/-- A job's data from its fragments, or the status it ends with. -/
def jobData (s : State) (j : HostJob) (l : List (Nat × Nat)) (data : Option Bytes) : Except Nat Bytes × State :=
  if jobLocal s j then
    match l.findSome? fun f => (devProblem s mHost f.1 f.2).map fun e => (e, f.1) with
    | some (e, a) => (.error 7, s.contained e .dma mHost a)
    | none => (.ok (l.flatMap fun f => s.devRead f.1 f.2), l.foldl (fun s f => s.ddrTouch f.1 f.2) s)
  else
    match data with
    | some d => (.ok (slice d 0 (fragLen l)), s)
    | none => (.error 6, s.contained 0x09 .dma mHost j.addr.toNat)

/-- Write job data to its fragments, as much as they hold. -/
def State.jobWrite (s : State) (loc : Bool) : List (Nat × Nat) → Bytes → State
  | [], _ => s
  | f :: r, d =>
    let part := d.take f.2
    let s1 := if part.isEmpty then s else if loc then s.devWrite mHost .dma f.1 part else s.emit (.hostWrite (BitVec.ofNat 64 f.1) part)
    State.jobWrite s1 loc r (d.drop f.2)

/-! ### Jobs (R393, R395 to R397) -/

/-- NOP (R393): completes at dispatch. -/
def execNop (job : Nat) (s : State) : Host.Outcome State Fault Refusal :=
  awake s <|
  match jobOf s job 0 with
  | none => done s
  | some j => done (s.closeJob j (if j.object = 0 then 0 else 3) 0)

/-- Allocate the blocks of a surface table from their data. -/
def State.loadBlocks (s : State) (h : Holder) : List Bytes → List Slot × State
  | [] => ([], s)
  | b :: r =>
    let a := s.allocBlock h .longTerm (blockOfBytes b)
    let t := State.loadBlocks a.2 h r
    match a.1 with
    | some (n, g) => ({ block := n, gen := g } :: t.1, t.2)
    | none => t

/-- SURFACE_LOAD (R395, R235, R237): the blocks of a picture become the surface's new table, which commits once no previous table
stands. -/
def execSurfaceLoad (job : Nat) (host : HostRead) (s : State) : Host.Outcome State Fault Refusal :=
  awake s <|
  match jobOf s job 1 with
  | none => done s
  | some j =>
    if j.loaded || !(jobTurn s j) then done s
    else
      let w := le16 j.params 0
      let ht := le16 j.params 2
      let d := u8 j.params 4
      let n := ctuCols w * ctuCols ht
      match jobSurface s j with
      | none => done (s.closeJob j 3 0)
      | some h =>
        let v := s.surface h
        if ownedByContext v then done (s.closeJob j 4 0)
        else if w = 0 ∨ ht = 0 ∨ (d ≠ 8 ∧ d ≠ 10) then done (s.closeJob j 2 0)
        else
          let f := jobFrags s j host.table
          match f.1 with
          | .error e => done (f.2.closeJob j e 0)
          | .ok l =>
            if fragLen l ≠ 8192 * n then done (f.2.closeJob j 5 0)
            else if unreserved s.pool < n then done (f.2.closeJob j 8 0)
            else
              let x := jobData f.2 j l host.data
              match x.1 with
              | .error e => done (x.2.closeJob j e 0)
              | .ok b =>
                let a := x.2.loadBlocks (.surface (BitVec.ofNat 24 h)) (chunks 8192 n b)
                let v' := a.2.surface h
                let s1 := a.2.setSurface h { v' with
                  waiting := some (w, ht, d == 10, a.1), state := if v'.state = .free then .loading else v'.state }
                done ((s1.setJob { j with loaded := true }).commitSurface mHost h)

/-- SURFACE_FREE (R395): the handle is free at once; its blocks go when its pins reach 0. -/
def execSurfaceFree (job : Nat) (s : State) : Host.Outcome State Fault Refusal :=
  awake s <|
  match jobOf s job 2 with
  | none => done s
  | some j =>
    if !(jobTurn s j) then done s
    else
      match jobSurface s j with
      | none => done (s.closeJob j 3 0)
      | some h => if ownedByContext (s.surface h) then done (s.closeJob j 4 0) else done ((s.freeSurface mHost h).closeJob j 0 0)

/-- SURFACE_READ (R395): the current table's blocks are written to the buffer. -/
def execSurfaceRead (job : Nat) (table : Option Bytes) (hostBad : Bool) (s : State) : Host.Outcome State Fault Refusal :=
  awake s <|
  match jobOf s job 3 with
  | none => done s
  | some j =>
    if !(jobTurn s j) then done s
    else
      match jobSurface s j with
      | none => done (s.closeJob j 3 0)
      | some h =>
        let v := s.surface h
        if ownedByContext v then done (s.closeJob j 4 0)
        else if v.state ≠ .ready then done (s.closeJob j 3 0)
        else
          let f := jobFrags s j table
          match f.1 with
          | .error e => done (f.2.closeJob j e 0)
          | .ok l =>
            if fragLen l ≠ 8192 * v.table.length then done (f.2.closeJob j 5 0)
            else
              match v.table.find? fun x => (s.pool.desc x.block).poisoned with
              | some x =>
                let d := s.pool.desc x.block
                done ((f.2.contained 0x01 .read mHost d.addr).closeJob j 7 0)
              | none =>
                let b := v.table.flatMap fun x => blockBytes (s.pool.desc x.block).data
                if !(jobLocal s j) && hostBad then done ((f.2.contained 0x09 .dma mHost j.addr.toNat).closeJob j 6 0)
                else done ((f.2.jobWrite (jobLocal s j) l b).closeJob j 0 b.length)

/-- NAL units of a byte stream with start codes of 3 or 4 bytes. -/
def splitNals : Bytes → Bytes → List Bytes
  | [], cur => if cur.isEmpty then [] else [cur]
  | 0 :: 0 :: 1 :: r, cur => if cur.isEmpty then splitNals r [] else cur :: splitNals r []
  | 0 :: 0 :: 0 :: 1 :: r, cur => if cur.isEmpty then splitNals r [] else cur :: splitNals r []
  | x :: r, cur => splitNals r (cur ++ [x])

/-- BITSTREAM (R396, R272): one access unit enters a host-fed context; it waits while the context's queue is full, and while
its ring has no room. -/
def execBitstream (job : Nat) (host : HostRead) (s : State) : Host.Outcome State Fault Refusal :=
  awake s <|
  match jobOf s job 4 with
  | none => done s
  | some j =>
    let c := j.object.toNat
    if !(jobTurn s j) then done s
    else if 4096 ≤ c ∨ decValid s c = false ∨ fld s 0x8003 c 2 ≠ 4 then done (s.closeJob j 3 0)
    else
      let e := s.dec c
      if par s 0x5040 1 ≤ e.queue.length then done s
      else
        let f := jobFrags s j host.table
        match f.1 with
        | .error st => done (f.2.closeJob j st 0)
        | .ok l =>
          let x := jobData f.2 j l host.data
          match x.1 with
          | .error st => done (x.2.closeJob j st 0)
          | .ok b =>
            let nals := splitNals b []
            if e.ringSize < ringHeld e + sumNat (nals.map List.length) then done s
            else
              let au : AccessUnit :=
                { nals := nals, rtp := BitVec.ofNat 32 (le32 j.params 4), completeAt := s.clk.now, arrived := s.time.ptp, codec := u8 j.params 0 }
              let s1 := nals.foldl (fun s x => s.ringWrite c x) x.2
              done ((s1.setDec c { s1.dec c with queue := e.queue ++ [au] }).closeJob j 0 b.length)

/-- PACKET_SEND (R397, R314, R347): one frame enters a queue. -/
def execPacketSend (job : Nat) (host : HostRead) (s : State) : Host.Outcome State Fault Refusal :=
  awake s <|
  match jobOf s job 5 with
  | none => done s
  | some j =>
    let q := j.object.toNat
    if 65536 ≤ q ∨ (65400 ≤ q ∧ q ≤ 65407) ∨ fldB s 0x8007 q 1 = false then done (s.closeJob j 3 0)
    else
      let f := jobFrags s j host.table
      match f.1 with
      | .error e => done (f.2.closeJob j e 0)
      | .ok l =>
        if fragLen l < 60 ∨ 9216 < fragLen l then done (f.2.closeJob j 5 0)
        else
          let x := jobData f.2 j l host.data
          match x.1 with
          | .error e => done (x.2.closeJob j e 0)
          | .ok b =>
            let r := x.2.enqueueCopy q mHost { data := b }
            done (r.2.closeJob j (if r.1 then 0 else 9) (if r.1 then b.length else 0))

/-- RECEIVE_POST (R397): a buffer joins the list of posted buffers, in dispatch order. -/
def execReceivePost (job : Nat) (table : Option Bytes) (s : State) : Host.Outcome State Fault Refusal :=
  awake s <|
  match jobOf s job 6 with
  | none => done s
  | some j =>
    if s.rings.posted.contains j.id then done s
    else if s.rings.jobs.any fun x => decide (x.id < j.id) && x.opcode == 6 && x.ended.isNone && !(s.rings.posted.contains x.id) then done s
    else if j.object ≠ 0 then done (s.closeJob j 3 0)
    else
      let f := jobFrags s j table
      match f.1 with
      | .error e => done (f.2.closeJob j e 0)
      | .ok l =>
        let s1 := f.2.setJob { j with frags := l }
        done { s1 with rings := { s1.rings with posted := s1.rings.posted ++ [j.id] } }

/-- A frame leaves node 16 into the oldest posted buffer (R397). -/
def State.hostDeliver (s : State) (frame : Bytes) (ingress : Nat) : State :=
  match s.rings.posted with
  | [] => s
  | id :: r =>
    let s1 : State := { s with rings := { s.rings with posted := r } }
    match s1.rings.jobs.find? fun j => j.id == id with
    | none => s1
    | some j =>
      let room := fragLen j.frags
      (s1.jobWrite (jobLocal s j) j.frags (frame.take room)).closeJob j (if room < frame.length then 0xA else 0) frame.length ingress

/-- JOB_COMPLETE (R398, R401): an ended job's completion is written or staged, in its reserved place. -/
def execJobComplete (job : Nat) (s : State) : Host.Outcome State Fault Refusal :=
  awake s <|
  match s.rings.jobs.find? fun j => j.id == job with
  | none => done s
  | some j =>
    match j.ended with
    | none => done s
    | some (st, res, info) =>
      let c := (s.sq j.sq).ringCq
      let s1 : State := { s with rings := { s.rings with jobs := s.rings.jobs.filter fun x => x.id != job } }
      let s2 := s1.setCq c { s1.cq c with reserved := (s1.cq c).reserved - 1 }
      done (((s2.complete c ⟨j.tag, st, j.sq, res, info⟩).drainBound c).restSq j.sq)

end Sys2Proof.Machine
end

