-- ==== Sys2Proof/Machine/TileUnit.lean ====
section
/-! DEFINITION. The commands of encode tiles and frame slots: lanes, skip runs, rows, finals, abandonment, flush, slot clock and dispatch, stream
start (R160 to R197, R204 to R220, R230 to R257). -/

namespace Sys2Proof.Machine

/-! ### Lanes and the coder -/

/-- The CTU is its row's first lane-coded one (R303). -/
def Frame.firstOfRow (f : Frame) (i : Nat) : Bool :=
  !(f.ctus.any fun q => decide (q.1 / f.cols = i / f.cols) && decide (q.1 < i) && (match q.2.path with | some (.lane _ _ _) => true | _ => false))

/-- LANE_REQUEST (R300, R303, R204, R206): the lane asks for its next lane-coded CTU, whose items are readable and which the wavefront
allows: the request, with raster index, class and whether it is the row's first, raises an interrupt of Treadle, and where Treadle waits in
its loop the ROM fixes the row's QP, tests the budget and clears the CTU or cuts the picture. After a cut the tile answers itself. -/
def execLaneRequest (tile : Fin 64) (lane : Fin 2) (s : State) : Host.Outcome State Fault Refusal :=
  awake s <|
  let s := s.pollTile tile
  match frameOf s tile with
  | none => done s
  | some (p, t, f) =>
    match f.waiting lane with
    | [] => done (s.runTreadle p)
    | i :: _ =>
      let b : BobbinId := .ctu (ftile p) lane
      let s := s.bobDst b
      if (f.lane lane).ctu.isSome || !(f.waveOk i) || decide (s.bobAvail b < 256) then done (s.runTreadle p)
      else if (match f.cut.rate with | some c => decide (c ≤ i) | none => false) then
        done ((s.setTile p { t with frame := some (f.setLane lane { f.lane lane with ctu := some i, cleared := true, items := [] }) }).runTreadle p)
      else
        let h := (lookD { hint := ⟨0, false, false, false, 0, 0, 0, 0, 0⟩ } f.ctus i).hint
        let q : LaneReq := { lane := lane, idx := i, cls := classOf h, first := f.firstOfRow i, since := s.clk.now }
        let reqs := if t.treadle.laneReq.any (fun x => x.lane == lane) then t.treadle.laneReq else t.treadle.laneReq ++ [q]
        done ((s.setTile p { t with treadle := { t.treadle with laneReq := reqs } }).runTreadle p)

/-- LANE_CTU_START (R162, R164, R184): a cleared CTU whose items and hint are readable starts its slot, and the reference blocks that its
motion stage needs are fetched. `hint` is how the next hint record's row reads, `item` how the worst of the 256 items' rows does: an item
with its error tag takes the CTU out of the lane's hands. -/
def execLaneCtuStart (tile : Fin 64) (lane : Fin 2) (hint item : Ecc) (s : State) : Host.Outcome State Fault Refusal :=
  awake s <|
  let s := s.pollTile tile hint
  match frameOf s tile with
  | none => done s
  | some (_, _, f) =>
    let l := f.lane lane
    match l.ctu with
    | none => done (s.runTreadle (encPhys s tile))
    | some i =>
      let p := encPhys s tile
      let b : BobbinId := .ctu (ftile p) lane
      let s := s.bobDst b
      let t := s.tile p
      match look f.ctus i with
      | none => done s
      | some c =>
        if !l.cleared || c.path.isSome || decide (s.bobAvail b < 256) || !(f.waveOk i) || f.draining then done (s.runTreadle p)
        else
          let items := ((s.bob b).items.take 256).map (·.1)
          let bad := decide (item = .uncorrectable) || ((s.bob b).items.take 256).any (·.2)
          let s1 := (s.bobDrop b 256).readItem b item
          if bad then
            let f1 : Frame := { (f.setLane lane { l with ctu := none, cleared := false }) with
              ctus := put f.ctus i (if c.hint.refresh then toGrey c else toSkip c)
              substituted := true }
            let t1 : Tile := { t with treadle := { t.treadle with estimates := t.treadle.estimates.filter (·.1 ≠ i) } }
            let s2 := (s1.putFrame p t1 f1).count 0x5011 7
            done (((if c.hint.refresh then s2.count 0x5011 0xA else s2).tileError p 0).runTreadle p)
          else
            let wait := match l.freeAt with | some a => 2 * (s.clk.now - a) - l.gate | none => 0
            let cls := classOf c.hint
            let cutHere := match f.cut.rate with | some k => decide (k ≤ i) | none => false
            let qp := if cutHere then codecQp f.codec else lookD f.plan.qpf f.rowQp (i / f.cols)
            let forced := match look (s.enc f.stream).table i with | some x => x.forceIntra | none => false
            let intra := c.hint.refresh || forced
            let f1 : Frame := { (f.setLane lane { l with started := s.clk.now, items := items, intra := intra, gate := 0 }) with
              ctus := put f.ctus i { c with path := some (.lane cls qp (qp == codecQp f.codec)) } }
            let s2 := s1.setTile p { s1.tile p with waitWave := t.waitWave + BitVec.ofNat 32 wait, frame := some f1 }
            done ((if intra then s2 else s2.fetchRefs p f i c.hint).runTreadle p)

/-- LANE_CTU_END (R162, R164, R173, R184, R255): at cycle 8,191 the CTU leaves its lane, its syntax and reconstruction handed off, unless
stage 8 holds. `refBad` is the position, and the reference, of a block, among those the lane reads, whose read met an error tag: the CTU is
coded intra, as it is for a slot that the pool does not let it use; an exact hint that cannot be checked for it counts as demoted (DESIGN
CHOICE, log entry 148). -/
def execLaneCtuEnd (tile : Fin 64) (lane : Fin 2) (refBad : Option (BitVec 13 × Fin 4)) (s : State) : Host.Outcome State Fault Refusal :=
  awake s <|
  let s := s.pollTile tile
  match frameOf s tile with
  | none => done s
  | some (p, t, f) =>
    let l := f.lane lane
    match l.ctu with
    | none => done (s.runTreadle p)
    | some i =>
      match look f.ctus i with
      | none => done (s.runTreadle p)
      | some c =>
        match c.path with
        | some (.lane _ qp _) =>
          if s.clk.now < l.started + ctuSlotNs then done (s.runTreadle p)
          else if f.handOffHeld (outletOf s p) lane i then
            done ((s.setTile p { t with frame := some (f.setLane lane { l with stallAt := some (l.stallAt.getD s.clk.now) }) }).runTreadle p)
          else
            let e := s.enc f.stream
            let told := match refBad with
              | some (q, j) => if (readBlocks f i c.hint).contains q.toNat && decide (j.val < numRefs f e)
                  then (refPlace e q.toNat j).toList.map fun k => (q.toNat, k) else []
              | none => []
            let lost := if l.intra then [] else (told ++ unusable s f e i c.hint).eraseDups
            let stall := match l.stallAt with | some a => 2 * (s.clk.now - a) | none => 0
            let exact := decide (c.hint.kind = 2) && !l.intra
            let src := itemsBlock l.items
            let acc := exact && lost.isEmpty && hintAccepted s f e i c.hint qp src
            let cus := laneCus s f e i c.hint qp src (l.intra || !lost.isEmpty) acc s.clk.free
            let t1 : Tile := { t with
              laneCtus := t.laneCtus + 1
              accepts := if acc then t.accepts + 1 else t.accepts
              demotes := if exact && !acc then t.demotes + 1 else t.demotes
              waitEnt := t.waitEnt + BitVec.ofNat 32 stall }
            let f1 : Frame := { (f.setLane lane { freeAt := some s.clk.now }) with
              ctus := put f.ctus i { c with settled := true, cus := cus, sao := Config.freeNat (s.clk.free + 2110), alf := alfChoice f (s.clk.free + 2111) }
              substituted := f.substituted || !lost.isEmpty }
            let s0 : State := { s with clk := { s.clk with free := s.clk.free + 2112 } }
            let s1 := ((((s0.putFrame p t1 f1).count 0x5011 1).count 0x5011 4 (b2n acc)).count 0x5011 5 (b2n (exact && !acc))).count
              0x5011 6 stall
            let s2 := lost.foldl (fun s q => s.loseSlot (mEnc p) f.stream q.1 q.2) (if lost.isEmpty then s1 else s1.tileError p 2)
            done ((s2.abandonDrained tile p).runTreadle p)
        | _ => done (s.runTreadle p)

/-- SKIP_RUN_CTU (R174 to R176): the next CTU of the open row, or of the row after it, is coded as a skip. -/
def execSkipRunCtu (tile : Fin 64) (s : State) : Host.Outcome State Fault Refusal :=
  awake s <|
  let s := s.pollTile tile
  match frameOf s tile with
  | none => done s
  | some (p, t, f) =>
    let o := outletOf s p
    let isSkip (y : Nat) : Option (Nat × FrameCtu) := (f.nextCtu t o y).filter fun c => decide (c.2.path = some .skip)
    let pick : Option (Nat × Nat × FrameCtu) := match isSkip f.rowsDone, isSkip (f.rowsDone + 1) with
      | some c, _ => some (f.rowsDone, c)
      | none, some c => some (f.rowsDone + 1, c)
      | none, none => none
    match pick with
    | none => done (s.runTreadle p)
    | some (y, i, c) =>
      let r := codeOne t f y i c s.clk.free
      let s1 : State := { s with clk := { s.clk with free := s.clk.free + 65 } }
      done ((((s1.putFrame p r.1 r.2).count 0x5011 2).count 0x5011 9 (amvpCount (skipCus f i (s.clk.free + 1)))).runTreadle p)

/-- ROW_CLOSE (R178, R179, R301): the open row is wholly coded: row-end syntax and byte alignment, of one byte (DESIGN CHOICE, log entry 149);
HEVC closes the row's NAL unit; the held bytes of the next row follow. A coder that stalls writes nothing (R27, R301). -/
def execRowClose (tile : Fin 64) (s : State) : Host.Outcome State Fault Refusal :=
  awake s <|
  let s := s.pollTile tile
  match frameOf s tile with
  | none => done s
  | some (p, t, f) =>
    let y := f.rowsDone
    if f.rows ≤ y ∨ f.next y ≠ f.cols ∨ t.treadle.stalled ≠ [] ∨ (f.committed = true ∧ (outletOf s p).room ≤ t.out.freshCount) then
      done (s.runTreadle p)
    else
      let k := s.clk.free
      let tail := slice (Config.nalBytes k) 0 1
      let lastRow := decide (y + 1 = f.rows)
      let n1 := appendOpen (sliceNals t f) tail
      let n2 := if lastRow || !(isVvc f.codec) then closeOpen n1 lastRow else n1
      let hd := if lastRow || isVvc f.codec then [] else openSlice f (s.enc f.stream) (y + 1)
      let n3 := if lastRow || isVvc f.codec then n2
        else n2 ++ [{ stream := f.stream, slot := f.slot, boundary := f.boundary, vvc := false, fu := f.fu, data := hd, closed := false
                      first := false, last := false, sent := 0 }]
      let n4 := appendOpen n3 (if lastRow then [] else f.held)
      let r := setSliceNals t f n4
      let f1 : Frame := { r.2 with
        rowsDone := y + 1, held := []
        bits := f.bits + 8 * (tail.length + hd.length) - f.rowBits y % 8
        bytes := f.bytes + tail.length + hd.length + f.held.length }
      let t1 := r.1.raise (eventWord 5 y)
      let t2 := if lastRow then (t1.raise (eventWord 8 (f.skipBits % 2 ^ 24))).raise (eventWord 9 (f.skips % 2 ^ 14)) else t1
      let s1 : State := { s with clk := { s.clk with free := k + 1 } }
      done ((s1.putFrame p t2 f1).runTreadle p)

/-! ### Finals and the end of a frame -/

/-- CTU_FINAL (R182, R183): a CTU whose 3 × 3 square is settled is filtered. A lane-coded one is written; a skip-run one beside it
is a fringe CTU, and written, when `filtered` says that deblocking changed a sample. -/
def execCtuFinal (tile : Fin 64) (ctu : BitVec 16) (filtered : Bool) (s : State) : Host.Outcome State Fault Refusal :=
  awake s <|
  let s := s.pollTile tile
  match frameOf s tile with
  | none => done s
  | some (p, t, f) =>
    let i := ctu.toNat
    match look f.ctus i with
    | none => done (s.runTreadle p)
    | some c =>
      if c.final || !(f.atStake i) || !((f.square i).all f.settledAt) then done (s.runTreadle p)
      else if !(isLaneCoded c) && !filtered then
        done ((s.setTile p { t with frame := some { f with ctus := put f.ctus i { c with final := true } } }).runTreadle p)
      else
        let r := (s.freed).allocReserved (.stream (BitVec.ofNat 16 f.stream)) .shortTerm
          (if c.path = some .grey then greyRecon f i s.clk.free else freeBlock f.ten s.clk.free)
        let fringe := !(isLaneCoded c)
        let s1 := if fringe then r.2.count 0x5011 3 else r.2
        done (State.runTreadle (s1.setTile p { t with
          fringe := if fringe then t.fringe + 1 else t.fringe
          frame := some { f with
            ctus := put f.ctus i { c with final := true, fringe := fringe, block := r.1.map (·.1) }
            reserved := f.reserved - 1
            written := f.written ++ (match r.1 with | some b => [b.1] | none => []) } }) p)

/-- FRAME_FINAL (R190, R193, R208, R213, R234, R301, R305, R421): the last CTU is final: the seal record is written and Treadle told, whose ROM
updates the rate model and closes the frame. `crc` is how the stored CTU CRCs read, `sealItem` how the composed-seal items do. -/
def execFrameFinal (tile : Fin 64) (crc sealItem : Ecc) (s : State) : Host.Outcome State Fault Refusal :=
  awake s <|
  let s := s.pollTile tile .clean sealItem
  match frameOf s tile with
  | none => done s
  | some (p, t, f) =>
    if !f.ready then done (s.runTreadle p)
    else
      let e := s.enc f.stream
      let q := sealRecordOf s f e crc
      let s1 := (s.setEnc f.stream { e with seals := put e.seals (f.slot.toNat % 8) q }).setTile p
        { t.raise (eventWord 7 0) with frame := some { f with finished := some (q.truncated, q.sealValid) } }
      done ((if crc = .clean then s1 else s1.tileError p 3).runTreadle p)

/-- FRAME_OPEN_TIMEOUT (R186): the frame is open 4 slot periods of its stream, or 100 ms, whichever comes first. -/
def execFrameOpenTimeout (tile : Fin 64) (s : State) : Host.Outcome State Fault Refusal :=
  awake s <|
  match frameOf s tile with
  | none => done s
  | some (p, _, f) =>
    let limit := min (4 * (s.enc f.stream).grid.1 * 1000 / 27) 100000000
    if s.clk.now < f.started + limit then done s else done ((s.abandon tile p f).runTreadle p)

/-- BATTEN_SILENCE_TIMEOUT (R186): no item of the frame for 1 ms while the tile waits for one, or the engine out of service. -/
def execBattenSilenceTimeout (tile : Fin 64) (s : State) : Host.Outcome State Fault Refusal :=
  awake s <|
  let s := s.pollTile tile
  match frameOf s tile with
  | none => done s
  | some (p, _, f) =>
    let gone := enginePhys s (tile / 8) == 0xFF
    if (gone && f.sealVal.isNone) || (f.awaitsItem s p && decide (f.lastItem + 1000000 ≤ s.clk.now)) then done ((s.abandon tile p f).runTreadle p)
    else done (s.runTreadle p)

/-- The items of a picture's NAL units leave a tile's slice Bobbin, those that the tile still holds before it among them (R27, R345). -/
def State.strikeSlice (s : State) (p : Nat) (keep : NalOut → Bool) : State :=
  let o := (s.tile p).out
  let b : BobbinId := .slice (ftile p)
  let v := s.bob b
  let flags := (o.collected ++ o.nals).flatMap fun x => List.replicate (x.entered - x.taken) (keep x)
  let keepOf {α : Type} (l : List α) (k : List Bool) : List α := (l.zip (k ++ List.replicate (l.length - k.length) true)).filterMap fun q =>
    if q.2 then some q.1 else none
  s.setBob b (({ v with held := keepOf v.held (flags.drop v.items.length) } : Bobbin).strike s.clk.now (keepOf v.items flags))

/-- FLUSH_APPLY (R220, R345): at a packet boundary, the packet in progress having been released, the abandoned picture's bytes that no
packet holds are discarded, collected NAL units included; the coder has their space. -/
def execFlushApply (tile : Fin 64) (s : State) : Host.Outcome State Fault Refusal :=
  awake s <|
  let p := encPhys s tile
  let t := s.tile p
  match t.out.flush with
  | [] => done s
  | (n, slot) :: r =>
    if !t.out.packets.isEmpty then done s
    else
      let keep (x : NalOut) : Bool := !(x.stream == n && x.slot == slot)
      let s0 := s.strikeSlice p keep
      let s1 := s0.setTile p { t with out := { t.out with
        nals := t.out.nals.filter keep, collected := t.out.collected.filter keep, flush := r } }
      done ((State.resumeCoder { s1 with trans := { s1.trans with counters := bump s1.trans.counters 8 } } p).runTreadle p)

/-! ### Slot clock, dispatch, stream start -/

/-- SLOT_BOUNDARY (R249, R250, R253, R472): the stream's grid has reached its next boundary, whose slot becomes pending or is missed. At a
boundary of context 0 the clock face's 0x4010:01 is sampled (R51). -/
def execSlotBoundary (stream : BitVec 16) (s : State) : Host.Outcome State Fault Refusal :=
  awake s <|
  let n := stream.toNat
  match look s.encs n with
  | none => done s
  | some e =>
    let live := decide (e.state = .starting ∨ e.state = .running ∨ e.state = .cold) && !e.stopping && s.pair.switching.isNone
    if !live || decide (ptpTicks s < nextTick e) then done s
    else if n = 0 ∧ e.clock ≠ clockOn s then done (s.stopStream 0 true)
    else
      let e1 := e.pass
      let slot : PendSlot := ⟨e.slotNext, e1.lastTick⟩
      -- a cluster whose engine is out of service misses every slot as busy (R472)
      if enginePhys s (n % 8) = 0xFF then
        done ((s.setEnc n { e1 with pending := none, missBusy := e1.missBusy + 1 + BitVec.ofNat 32 (b2n e.pending.isSome) }).poolCount
          0x0A (1 + b2n e.pending.isSome))
      else if e.coding.isSome then
        done ((s.setEnc n { e1 with missOver := e1.missOver + 1 }).poolCount 0x0B)
      else
        match e.pending with
        | some _ =>
          done ((s.setEnc n { e1 with pending := some slot, missBusy := e1.missBusy + 1 }).poolCount 0x0A)
        | none => done (s.setEnc n { e1 with pending := some slot })

/-- An idle tile takes a pending stream (R235, R251, R252): the frame with its reservation, and the event that tells Treadle (R301). -/
def State.takeFrame (s : State) (tile p n : Nat) (e0 : Enc) (d : PendSlot) (badRows : List Nat) : State :=
  let g := encGeom s n
  let codec := g.2.2
  let q := encN s n
  let mode := fld s 0x8001 n 9
  let e : Enc := if mode = e0.crcMode then e0
    else { e0 with crcMode := mode, crcUnknown := true, table := e0.table.map fun x => (x.1, { x.2 with crcValid := false }) }
  let fu := fld s 0x8001 n 0x0F
  let f : Frame :=
    { stream := n, slot := d.slot, boundary := d.boundary, started := s.clk.now, first := e.firstPic, codec := codec, sealMode := mode
      refs := fld s 0x8001 n 8, width := g.1, height := g.2.1, refCol := 0, refCount := 0, full := false, sweepK := e.sweepK
      sweepW := e.sweepW, reserved := q, hintT := par s 0x5010 1, search := par s 0x5010 2, lambda := par s 0x5010 3
      lim := par s 0x5020 3, fu := fu, sliceB := fld s 0x8001 n 7 == 1, lastItem := s.clk.now, badRows := badRows
      early := [{ stream := n, slot := d.slot, boundary := d.boundary, vvc := isVvc codec, fu := fu, data := [], closed := false
                  first := false, last := false, sent := 0 }] }
  let s1 := s.setTile p { (s.tile p).raise (eventWord 1 (n % 65536)) with
    stream := BitVec.ofNat 16 n, codecVvc := isVvc codec, frame := some f }
  let s2 := s1.setEnc n { e with pending := none, coding := some tile, auSent := 0, taken := some d.boundary }
  State.poolCount { s2 with pool := { s2.pool with reserved := s2.pool.reserved + q } } 8

/-- TILE_TAKE (R235, R251 to R253, R255): an idle tile takes a pending stream, reserves its blocks and starts its frame. `rec` is how
the context record reads, `badEntries` the positions of unreadable block-table entries. -/
def execTileTake (tile : Fin 64) (rec_ : RecordRead) (badEntries : List Nat) (s : State) : Host.Outcome State Fault Refusal :=
  awake s <|
  let p := encPhys s tile
  if p = 0xFF ∨ enginePhys s (tile / 8) = 0xFF ∨ tileIdle s p = false ∨ swapDue s p = true then done s
  else
    match takeCandidate s tile with
    | none => done s
    | some (n, e, d) =>
      if unreserved s.pool < encN s n then
        done ((s.setEnc n { e with pending := none, missPool := e.missPool + 1 }).poolCount 0x0C)
      else
        let s1 := s.fetchRecord e 9
        let e1 := s1.enc n
        let err (s : State) : State := ((s.poolCount 0x0F).chargeTo (.stream (BitVec.ofNat 16 n))).contained 0x01 .read (mEnc p) 0
        match rec_ with
        | .both => done (((err s1).stopStream n true).poolCount 0x10)
        | r =>
          let s2 := match r with
            | .clean => s1
            | .fields bad => err (s1.setEnc n (e1.damaged (bad.map Fin.val)))
            | _ => err s1
          let bad := badEntries.filter fun i => decide (i < encN s n)
          let s3 := (bad.filter fun i => decide (i / encC s n < 2)).foldl (fun s i => s.loseEntry (mEnc p) n i) s2
          done ((s3.takeFrame tile p n (s3.enc n) d (bad.filter fun i => decide (2 ≤ i / encC s n))).runTreadle p)

/-- A stream goes on from its mirrored record (R494, R495), its references declared lost: tables allocated with a substitute in every entry,
the slot numbers on the grid from the first boundary at least 1 ms later, the RTP sequence 16,384 further on. A stream that never sent a
picture starts with its own numbers. Without frames it waits for the pool. -/
def State.resumeStream (s : State) (n : Nat) : State :=
  let e := s.enc n
  let k := contextFrames (encN s n) - e.frames.length
  if unreserved s.pool < k then s.setEnc n { e with state := .waitPool, resuming := true }
  else
    let a := s.allocFrames (.stream (BitVec.ofNat 16 n)) k
    let tb := a.2.substTable mStore n false (encN s n) 0
    let grid := (fld s 0x8001 n 5, fld s 0x8001 n 6)
    let at_ := ptpTicks s + 27000
    let first := boundaryAfter grid.1 grid.2 (at_ - 1)
    let jumped := (first - boundaryAfter grid.1 grid.2 e.lastTick) / grid.1
    tb.2.setEnc n { e with
      state := if e.firstPic then .starting else .cold
      resuming := false, frames := e.frames ++ a.1, grid := grid, newGrid := none, lastTick := at_ - 1, taken := some (at_ - 1)
      table := tb.1, composed := []
      slotNext := if e.firstPic then 0 else e.slotNext + BitVec.ofNat 32 jumped
      rtpSeq := if e.firstPic then BitVec.ofNat 16 first else e.rtpSeq + 16384
      crcMode := fld s 0x8001 n 9, clock := n == 0 && clockLive s }
/-- The same at a takeover (R256, R494). -/
def State.resumeLost (s : State) (n : Nat) : State := (s.setEnc n (s.enc n).declareLost).resumeStream n

/-- STREAM_START (R247, R239, R41): a valid row that does not run obtains its frames; slot 0 is its first boundary at least 1 ms
later. Streams with `RESIDENCY` 1 start from the Selvedge step on, the others once DDR5 is trained; none on a secondary (R491). -/
def execStreamStart (stream : BitVec 16) (s : State) : Host.Outcome State Fault Refusal :=
  awake s <|
  let n := stream.toNat
  let e := s.enc n
  let may := encValid s n && decide (e.state = .stopped ∨ e.state = .waitPool) && !e.stopping &&
    (if fld s 0x8001 n 0x14 = 1 then s.boot.selvedge else s.boot.ddr) &&
    decide (s.pair.role = .standalone ∨ s.pair.role = .primary)
  if !may then done s
  else if e.resuming then done (s.resumeStream n)
  else
    let k := contextFrames (encN s n)
    if unreserved s.pool < k then done (s.setEnc n { e with state := .waitPool })
    else
      let a := s.allocFrames (.stream stream) k
      let tb := a.2.substTable mStore n false (encN s n) 0
      let grid := (fld s 0x8001 n 5, fld s 0x8001 n 6)
      let at_ := ptpTicks s + 27000
      let first := boundaryAfter grid.1 grid.2 (at_ - 1)
      done (tb.2.setEnc n
        { state := .starting, clock := n == 0 && clockLive s, frames := a.1, table := tb.1, lastTick := at_ - 1, grid := grid
          geom := some (encGeom s n), rtpSeq := BitVec.ofNat 16 first, rtpRec := BitVec.ofNat 16 first, crcMode := fld s 0x8001 n 9 })

end Sys2Proof.Machine
end

