-- ==== Sys2Proof/Machine/Transport.lean ====
section
/-! DEFINITION. RTP packets and their copies (R217 to R219, R340 to R347), receiver reports, returned seals and presence (R355 to
R358). -/

namespace Sys2Proof.Machine

/-! ### Packet forms (R217 to R219) -/

/-- Size of an aggregation packet over some NAL units. -/
def aggSize (l : List NalOut) : Nat := 2 + sumNat (l.map fun x => 2 + x.data.length)

/-- Payload header of an aggregation packet: type 48 (HEVC), 28 (VVC). -/
def aggHeader (vvc : Bool) : Bytes := if vvc then [0, 225] else [96, 1]

/-- Payload of a collection: one NAL unit alone, or an aggregation packet. -/
def collPayload (vvc : Bool) (l : List NalOut) : Bytes :=
  match l with
  | [x] => x.data
  | l => aggHeader vvc ++ l.flatMap fun x => be 2 x.data.length ++ x.data

/-- Payload header and FU header of a fragment. -/
def fuHeader (vvc : Bool) (nal : Bytes) (first last pic : Bool) : Bytes :=
  let a := u8 nal 0
  let b := u8 nal 1
  if vvc then [BitVec.ofNat 8 a, BitVec.ofNat 8 (29 * 8 + b % 8),
    BitVec.ofNat 8 (128 * b2n first + 64 * b2n last + 32 * b2n (last && pic) + b / 8)]
  else [BitVec.ofNat 8 (49 * 2 + a / 128 * 128 + a % 2), BitVec.ofNat 8 b,
    BitVec.ofNat 8 (128 * b2n first + 64 * b2n last + a / 2 % 64)]

/-- What the packetizer sends next. -/
inductive Formed where
  | nothing
  /-- The collected NAL units. -/
  | coll (l : List NalOut)
  /-- A fragment: its NAL unit, bytes, first, last. -/
  | frag (x : NalOut) (b : Bytes) (first last : Bool)

/-- Form the next packet: the outcome and the output left. `n` bounds the NAL units collected on the way. -/
def formNext : Nat → SliceOut → Nat → Formed × SliceOut
  | 0, o, _ => (.nothing, o)
  | n + 1, o, fu =>
    let lim := fu + 3
    let send (l : List NalOut) (o : SliceOut) : Formed × SliceOut := (.coll l, { o with collected := [] })
    if o.collected.any (·.last) then send o.collected o
    else
      match o.nals with
      | [] => (.nothing, o)
      | x :: r =>
        if 0 < x.sent then
          let left := x.data.length - x.sent
          if fu + 1 ≤ left then
            (.frag x ((x.data.drop x.sent).take fu) false false, { o with nals := { x with sent := x.sent + fu } :: r })
          else if x.closed then (.frag x (x.data.drop x.sent) false true, { o with nals := r })
          else (.nothing, o)
        else if lim < x.data.length then
          if o.collected.isEmpty then
            (.frag x ((x.data.drop 2).take fu) true false, { o with nals := { x with sent := 2 + fu } :: r })
          else send o.collected o
        else if x.closed then
          if !o.collected.isEmpty && decide (lim < aggSize (o.collected ++ [x])) then send o.collected o
          else formNext n { o with collected := o.collected ++ [x], nals := r } fu
        else (.nothing, o)

/-- The 12-byte RTP header with a timestamp left out (R340). -/
def rtpHeader (marker : Bool) (pt : Nat) (seq : BitVec 16) (ts ssrc : Nat) : Bytes :=
  [0x80, BitVec.ofNat 8 (128 * b2n marker + pt % 128)] ++ be 2 seq.toNat ++ be 4 ts ++ be 4 ssrc

def streamSsrc (s : State) (n : Nat) : Nat := if fld s 0x8001 n 0x21 = 0 then 0x88600000 + n else fld s 0x8001 n 0x21
/-- The transport fields now in effect: a packet takes them when it is formed (R359). -/
def streamTx (s : State) (n : Nat) : StreamTx :=
  let f := fld s 0x8001 n
  { pt := f 0x20, ssrc := streamSsrc s n, srcPort := f 0x22, dscp := f 0x24, ttl := f 0x25, mcast := fldBytes s 0x8001 n 0x26
    mcastPort := f 0x27, cls := f 0x28, service := f 0x29 }

/-- The NAL units as the packetizer sees them: of each the items that it sees in the slice Bobbin, `n` of them in all, behind those in packets
(R26, R219). -/
def seenNals : Nat → List NalOut → List NalOut
  | _, [] => []
  | n, x :: r =>
    let k := min n (x.entered - x.taken)
    { x with data := x.data.take (32 * (x.taken + k)), closed := x.closed && decide (x.whole ≤ x.taken + k) } :: seenNals (n - k) r
/-- The NAL units that are left, whole again: `r` are those of `l` that the packetizer has left, as it sees them. -/
def leftNals (l r : List NalOut) : List NalOut :=
  match l.drop (l.length - r.length), r with
  | x :: xs, y :: _ => { x with sent := y.sent, taken := y.sent / 32 } :: xs
  | l, _ => l
/-- Items of the slice Bobbin that some NAL units have in it. -/
def itemsIn (l : List NalOut) : Nat := sumNat (l.map fun x => x.entered - x.taken)

/-- Enter a formed packet, with the stream's next sequence number: that of its context, or for data left by a stream released since the one
kept beside it (R340, R341). The record's number follows with a picture's last packet (R248); the bytes count to the picture in coding if it
is that one. -/
def State.formed (s : State) (p : Nat) (o : SliceOut) (x : NalOut) (b : Bytes) (nalBytes items : Nat) (first last : Bool)
    (kind : Nat) : State :=
  let e := s.enc x.stream
  let seq := if x.tail then lookD 0 s.trans.tails x.stream else e.rtpSeq
  let pk : Packet :=
    { stream := x.stream, slot := x.slot, seq := seq, marker := last, payload := b, slotTime := x.boundary, firstOfAu := first
      tx := streamTx s x.stream, items := items }
  let mine := s.tiles.any fun q => match q.2.frame with
    | some f => decide (f.stream = x.stream ∧ f.slot = x.slot)
    | none => false
  let s1 := s.setTile p { s.tile p with out := { o with packets := o.packets ++ [pk] } }
  let s2 : State := if x.tail then { s1 with trans := { s1.trans with tails := put s1.trans.tails x.stream (seq + 1) } }
    else match look s.encs x.stream with
      | some e => s1.setEnc x.stream { e with
          rtpSeq := seq + 1, rtpRec := if last then seq + 1 else e.rtpRec, packets := e.packets + 1
          auSent := if mine then e.auSent + nalBytes else e.auSent }
      | none => s1
  s2.count 0x5021 kind

/-- PACKET_FORM (R217 to R219, R340, R341): the packetizer of a tile's slice Bobbin forms the next packet that is due of the items it sees; its
copy unit works on one packet at a time (R343), so none is formed before the last is released. Bytes of a picture whose flush waits form none
(R345). `item` is how the worst of the packet's items' rows reads (R30). -/
def execPacketForm (tile : Fin 64) (item : Ecc) (s : State) : Host.Outcome State Fault Refusal :=
  awake s <|
  let p := encPhys s tile
  let b : BobbinId := .slice (ftile p)
  let s := (s.bobDst b).feedSlice p
  let t := s.tile p
  match (t.out.collected ++ t.out.nals).head? with
  | none => done s
  | some h =>
    if t.out.flush.contains (h.stream, h.slot) || !t.out.packets.isEmpty then done s
    else
      let seen := { t.out with nals := seenNals (s.bobAvail b - itemsIn t.out.collected) t.out.nals }
      let r := formNext (t.out.nals.length + 1) seen h.fu
      let o := { r.2 with nals := leftNals t.out.nals r.2.nals }
      let items := itemsIn (t.out.collected ++ t.out.nals) - itemsIn (o.collected ++ o.nals)
      match r.1 with
      | .nothing => done (s.setTile p { t with out := o })
      | .coll l =>
        done ((s.formed p o h (collPayload h.vvc l) (sumNat (l.map fun x => x.data.length)) items (l.any (·.first)) (l.any (·.last))
          (if l.length = 1 then 9 else 0xA)).readItem b item)
      | .frag x d first last =>
        done ((s.formed p o x (fuHeader x.vvc x.data first last x.last ++ d) (d.length + (if first then 2 else 0)) items
          (x.first && first) (x.last && last) 8).readItem b item)

/-! ### Copies (R342 to R347) -/

def State.ep (s : State) (e : Nat) : Endpoint := lookD {} s.trans.endpoints e
def State.setEp (s : State) (e : Nat) (v : Endpoint) : State := { s with trans := { s.trans with endpoints := put s.trans.endpoints e v } }
/-- The MAC in use for an endpoint (R334, R336): its row's, or the resolved one. -/
def epMac (s : State) (e : Nat) : BitVec 48 :=
  let m := fldBytes s 0x8005 e 4
  if isZero m then (s.ep e).resolved else BitVec.ofNat 48 (beNat m)
/-- The timestamp of a copy (R342). -/
def rtpTime (t off : Nat) : Nat := (t + 27 * off) / 300 % 2 ^ 32
/-- `PRESENT_OFFSET` of a service node. -/
def presentOffset (s : State) (svc : Nat) : Nat := fld s 0x800B svc 9

/-- RTP header and payload of a copy. -/
def rtpPacket (k : Packet) (off : Nat) : Bytes :=
  rtpHeader k.marker k.tx.pt k.seq (rtpTime k.slotTime off) k.tx.ssrc ++ k.payload

/-- One copy to an endpoint (R335, R346, R347). `bad`: the MAC table's entry met an uncorrectable error (R338). -/
def State.copyToEndpoint (s : State) (k : Packet) (e : Nat) (bad : Bool) : State :=
  let mac := epMac s e
  let vlan := fld s 0x8005 e 5
  let s := s.macBad mReplicate (BitVec.ofNat 12 vlan) mac (bad && mac != 0)
  let found := if mac = 0 then none else macFind s.selv (BitVec.ofNat 12 vlan) mac
  let v := s.ep e
  match found with
  | none => s.setEp e { v with dropped := v.dropped + 1, port := 0xFF }
  | some (_, m) =>
    let p := m.dest.toNat % 32
    let q0 := fld s 0x8005 e 0x21
    let cls := k.tx.cls
    let q := if q0 = 0xFFFFFFFF then bridgeQueue p cls else q0
    let s1 := s.setEp e { v with port := BitVec.ofNat 8 p }
    let drop (s : State) : State := s.setEp e { s.ep e with dropped := (s.ep e).dropped + 1 }
    if queuePort s q ≠ p then (drop s1).transCount 6
    else
      let off := presentOffset s (if q0 = 0xFFFFFFFF then k.tx.service else svcOf s (subOf s q))
      let ip := fldBytes s 0x8005 e 3
      let fr := udpFrame mac (portTag s vlan p cls) (ownIp s true (isV4 ip)) ip k.tx.ttl k.tx.dscp
        k.tx.srcPort (fld s 0x8005 e 0x20) s.clk.free (rtpPacket k off)
      let front := decide (admission s q (cellsOf fr.length) = 3)
      let r := (s1.freed).enqueueCopy q mReplicate { data := fr, endpoint := some e }
      if r.1 then (r.2.setEp e { r.2.ep e with sent := (r.2.ep e).sent + 1 }).transCount 1
      else if front then drop r.2 else r.2

/-- One copy to a group's port (R344, R346). -/
def State.copyToGroup (s : State) (k : Packet) (p : Nat) : State :=
  let ip := k.tx.mcast
  let cls := k.tx.cls
  let vlan := frontVlan s
  let fr := udpFrame (groupMac ip) (portTag s vlan p cls) (ownIp s true (isV4 ip)) ip k.tx.ttl k.tx.dscp
    k.tx.srcPort k.tx.mcastPort s.clk.free (rtpPacket k (presentOffset s k.tx.service))
  let r := (s.freed).enqueueCopy (bridgeQueue p cls) mReplicate { data := fr }
  if r.1 then r.2.transCount 1 else r.2

/-- An endpoint takes part in its stream's copies now (R344). -/
def epEligible (s : State) (n e : Nat) : Bool := epValid s e && fld s 0x8005 e 2 == n && (s.ep e).present

/-- The endpoint list of a stream at a packet (R344): an endpoint joins at an access unit's first packet and leaves at once. -/
def State.updateList (s : State) (n : Nat) (first : Bool) : State :=
  let upd (q : Nat × Endpoint) : Nat × Endpoint :=
    let may := epEligible s n q.1
    if q.2.inList = some n ∧ may = false then (q.1, { q.2 with inList := none })
    else if may && first then (q.1, { q.2 with inList := some n })
    else q
  { s with trans := { s.trans with endpoints := s.trans.endpoints.map upd } }

/-- PACKET_REPLICATE (R343 to R347): the oldest packet of a tile is copied once for each endpoint of its stream in ascending order,
then once for each port of its group; the packet's items are released, and a coder that waited for their space goes on. `badEndpoints` names endpoint entries whose read met an
uncorrectable error: they are reread, and the error recorded; `badMacs` the endpoints, and `badGroup` the group, whose MAC table entry met one (R338). -/
def execPacketReplicate (tile : Fin 64) (badEndpoints badMacs : List Nat) (badGroup : Bool) (s : State) : Host.Outcome State Fault Refusal :=
  awake s <|
  let p := encPhys s tile
  let t := s.tile p
  let b : BobbinId := .slice (ftile p)
  match t.out.packets with
  | [] => done s
  | k :: r =>
    let s0 := s.setTile p { t with out := { t.out with packets := r } }
    let release (s : State) : State := ((s.bobDrop b (min k.items (s.bob b).items.length)).resumeCoder p).runTreadle p
    let s1 := s0.updateList k.stream k.firstOfAu
    let eps := s1.trans.endpoints.filterMap fun q => if q.2.inList = some k.stream then some q.1 else none
    let s2 := (badEndpoints.filter fun e => eps.contains e).foldl
      (fun s _ => (s.contained 0x01 .read mReplicate 0).selvCount 0x12) s1
    let s3 := eps.foldl (fun s e => s.copyToEndpoint k e (badMacs.contains e)) s2
    let ip := k.tx.mcast
    if isZero ip then done (release s3)
    else
      let vlan := BitVec.ofNat 12 (frontVlan s)
      let s3 := s3.macBad mReplicate vlan (groupMac ip) badGroup
      let ports := (groupPorts s3 vlan (groupMac ip)).getD [] ++ routerPorts s3 vlan
      done (release (((List.range 16).filter fun p => ports.contains p).foldl (fun s p => s.copyToGroup k p) s3))

/-! ### Presence (R355) -/

/-- An endpoint changes presence: the event and the learn log. -/
def State.presence (s : State) (e : Nat) (on : Bool) : State :=
  ((s.setEp e { s.ep e with present := on }).logLearn (.present (BitVec.ofNat 20 e) on)).raise 0x00A mReplicate (le 4 e ++ [if on then 1 else 0])

/-- PRESENCE_SCAN (R355): every 250 ms; an endpoint without an accepted report for the absent time is absent. -/
def execPresenceScan (s : State) : Host.Outcome State Fault Refusal :=
  awake s <|
  if serves s = false ∨ s.clk.now < s.trans.lastScan + 250000000 then done s
  else
    let late := s.trans.endpoints.filterMap fun q =>
      if epValid s q.1 = true ∧ q.2.present = true ∧ q.2.lastReport + par s 0x3080 1 * 1000000000 ≤ s.clk.now then some q.1 else none
    let s1 : State := { s with trans := { s.trans with lastScan := s.clk.now } }
    done (late.foldl (fun s e => (s.presence e false).transCount 9) s1)

/-! ### Receiver reports (R356, R357) -/

/-- Cut a compound packet into its packets by their lengths; none where they disagree with the whole. `n` bounds their number. -/
def rtcpParts : Nat → Bytes → Option (List Bytes)
  | 0, b => if b.isEmpty then some [] else none
  | n + 1, b =>
    if b.isEmpty then some []
    else
      let l := 4 * (be16 b 2 + 1)
      if b.length < 4 ∨ b.length < l ∨ u8 b 0 / 64 ≠ 2 then none
      else (rtcpParts n (b.drop l)).map (b.take l :: ·)

/-- The seal-return packet of R357. -/
def isSealApp (b : Bytes) : Bool := u8 b 1 == 204 && be16 b 2 == 6 && be32 b 8 == 0x5345414C && u8 b 0 / 32 == 4

/-- Loss fraction and jitter of the report block for an SSRC. -/
def reportBlock (b : Bytes) (ssrc : Nat) : Option (Nat × Nat) :=
  ((List.range (u8 b 0 % 32)).find? fun i => be32 b (8 + 24 * i) == ssrc && decide (8 + 24 * i + 24 ≤ b.length)).map fun i =>
    (u8 b (12 + 24 * i), be32 b (20 + 24 * i))

/-- A seal is not checked (R358): counted. -/
def State.unchecked (s : State) (e : Nat) : State :=
  (s.setEp e { s.ep e with unchecked := (s.ep e).unchecked + 1 }).transCount 5

/-- RTCP_RECEIVE (R355 to R358). `port` is the destination UDP port. -/
def execRtcpReceive (ip : BitVec 128) (port : BitVec 16) (payload : Bytes) (s : State) : Host.Outcome State Fault Refusal :=
  awake s <|
  guarded (.rtcpReceive ip port payload) (
    let bad := done (s.transCount 2)
    match rtcpParts payload.length payload with
    | none => bad
    | some [] => bad
    | some (rr :: rest) =>
      match (rr :: rest).filter isSealApp with
      | [app] =>
        let e := be32 app 0x0C
        let n := fld s 0x8005 e 2
        if u8 rr 1 ≠ 201 ∨ 2 ^ 20 ≤ e ∨ epValid s e = false ∨ beNat (fldBytes s 0x8005 e 3) ≠ ip.toNat ∨
            fld s 0x8001 n 0x23 ≠ port.toNat ∨ encValid s n = false then bad
        else
          let s1 := s.setEp e { s.ep e with lastReport := s.clk.now }
          let s2 := match reportBlock rr (streamSsrc s n) with
            | some (l, j) => s1.setEp e { s1.ep e with loss := BitVec.ofNat 8 l, jitter := BitVec.ofNat 32 j }
            | none => s1
          let s3 := if (s2.ep e).present then s2 else (s2.presence e true).transCount 0xA
          let s4 := if parB s 0x3080 2 then s3.tell 0x356 payload else s3
          let fr := be32 app 0x10
          if fr = 0xFFFFFFFF ∨ fldB s 0x8005 e 0x22 = false then done s4
          else if 4096 ≤ s4.trans.seals.length then done (s4.unchecked e)
          else
            let q : SealIn := ⟨e, BitVec.ofNat 32 fr, BitVec.ofNat 8 (u8 app 0 % 32), BitVec.ofNat 64 (beNat (slice app 0x14 8)), s.clk.now⟩
            done { s4 with trans := { s4.trans with seals := s4.trans.seals ++ [q] } }
      | _ => bad)

/-! ### Returned seals (R191, R358) -/

/-- The record at a returned seal's position, and whether it is still to come. -/
def sealRecord (s : State) (q : SealIn) : Option SealRec := look (s.enc (fld s 0x8005 q.endpoint 2)).seals (q.frame.toNat % 8)
def sealWaits (s : State) (q : SealIn) : Bool :=
  match sealRecord s q with
  | some r => decide (r.frame.toNat < q.frame.toNat)
  | none => true

/-- SEAL_CHECK (R191, R358): the oldest returned seal whose record is there is checked. -/
def execSealCheck (s : State) : Host.Outcome State Fault Refusal :=
  awake s <|
  match takeFirst (fun q => !(sealWaits s q)) s.trans.seals with
  | none => done s
  | some (q, rest) =>
    let s1 : State := { s with trans := { s.trans with seals := rest } }
    let n := fld s 0x8005 q.endpoint 2
    match sealRecord s q with
    | none => done s1
    | some r =>
      if q.frame.toNat < r.frame.toNat ∨ r.sealValid = false ∨ r.sealMode ≠ q.sealMode then done (s1.unchecked q.endpoint)
      else
        let want := endpointSeal r.sealMode.toNat q.endpoint (encN s n) r.recon.toNat
        let v := s1.ep q.endpoint
        if want = q.value.toNat then
          done ((s1.setEp q.endpoint { v with matched := v.matched + 1, lastSeal := q.frame }).transCount 3)
        else
          let again := match v.mismatchAt with | some t => decide (s.clk.now < t + 1000000000) | none => false
          let s2 := (s1.setEp q.endpoint { v with
            mismatched := v.mismatched + 1, mismatchAt := if again then v.mismatchAt else some s.clk.now }).transCount 4
          done (if again then s2
            else s2.raise 0x00B mReplicate (le 4 q.endpoint ++ le 4 q.frame.toNat ++ le 8 q.value.toNat ++ le 8 want))

/-- SEAL_RECORD_WAIT_TIMEOUT (R358): a seal has waited 1 ms for its record. -/
def execSealRecordWaitTimeout (s : State) : Host.Outcome State Fault Refusal :=
  awake s <|
  match takeFirst (fun q => sealWaits s q && decide (q.since + 1000000 ≤ s.clk.now)) s.trans.seals with
  | none => done s
  | some (q, rest) => done (({ s with trans := { s.trans with seals := rest } } : State).unchecked q.endpoint)

end Sys2Proof.Machine
end

