-- ==== Sys2Proof/Machine/Scheduler.lean ====
section
/-! DEFINITION. The scheduler (R348 to R354): credit, states, selection down the four levels, charge, and what leaves a port node. -/

namespace Sys2Proof.Machine

/-! ### Nodes. Levels: 0 queue, 1 subscriber node, 2 service node -/

/-- Row object of a level. -/
def levelObj (lv : Nat) : Nat := if lv = 0 then 0x8007 else if lv = 1 then 0x8009 else 0x800B
def levelShaper (s : State) (lv n : Nat) : Shaper :=
  if lv = 0 then (s.queue n).shaper else if lv = 1 then lookD {} s.trans.subs n else lookD {} s.trans.services n
def State.setShaper (s : State) (lv n : Nat) (v : Shaper) : State :=
  if lv = 0 then s.setQueue n { s.queue n with shaper := v }
  else if lv = 1 then { s with trans := { s.trans with subs := put s.trans.subs n v } }
  else { s with trans := { s.trans with services := put s.trans.services n v } }

/-- Credit after a time, and the part below 1/65,536 byte (R349): rate in kbit/s, burst in bytes. -/
def earn (credit : Int) (rem rate burst dt : Nat) : Int × Nat :=
  let x := rem + rate * dt * 65536
  let c := credit + (x / 8000000 : Nat)
  let top : Int := (burst * 65536 : Nat)
  if top ≤ c then (top, 0) else (c, x % 8000000)

/-- A node's buckets at a visit; a row written valid starts full (R349). -/
def Shaper.refill (v : Shaper) (cir cbs pir pbs now : Nat) : Shaper :=
  if v.fresh then { v with fresh := false, c := (cbs * 65536 : Nat), e := (pbs * 65536 : Nat), cRem := 0, eRem := 0, visited := now }
  else
    let dt := now - v.visited
    let c := earn v.c v.cRem cir cbs dt
    let e := earn v.e v.eRem pir pbs dt
    { v with c := c.1, cRem := c.2, e := e.1, eRem := e.2, visited := now }

/-- A node visited now. -/
def visit (s : State) (lv n : Nat) : Shaper :=
  let f := fld s (levelObj lv) n
  (levelShaper s lv n).refill (f 5) (f 6) (f 7) (f 8) s.clk.now

/-- States of R350: 0 committed, 1 peak, 2 blocked. -/
def nodeState (s : State) (lv n : Nat) (v : Shaper) : Nat :=
  let f := fld s (levelObj lv) n
  let peak := decide (0 ≤ v.e) || f 7 == 0
  if 0 < f 5 ∧ 0 ≤ v.c ∧ peak = true then 0 else if peak then 1 else 2

/-! ### Selection (R351) -/

/-- A selection: the queue, its wire length, the nodes on its path with their state, and the deficits it leaves. -/
structure Pick where
  queue : Nat
  len   : Nat
  path  : List (Nat × Nat × Nat)
  deficits : List (Nat × Nat × Int)
  turns : List (Nat × Nat)

/-- A child that may be selected. -/
structure Cand where
  row    : Nat
  state  : Nat
  prio   : Nat
  quantum : Nat
  deficit : Int
  pick   : Pick

/-- Candidates from a row on first, then the others. -/
def rotateFrom (t : Nat) (l : List Cand) : List Cand := l.filter (fun c => decide (t ≤ c.row)) ++ l.filter fun c => decide (c.row < t)

/-- Deficit round robin: the child at its turn keeps it while its deficit covers its packet; each other child visited gains its
quantum. `n` bounds the visits. -/
def drr : Nat → Bool → List Cand → Option (Cand × List Cand)
  | 0, _, _ => none
  | _ + 1, _, [] => none
  | n + 1, mine, c :: r =>
    let d := if mine then c.deficit else c.deficit + (c.quantum : Nat)
    let c1 := { c with deficit := d }
    if (c.pick.len : Int) ≤ d then some ({ c1 with deficit := d - (c.pick.len : Nat) }, r) else drr n false (r ++ [c1])

/-- The children of best state and lowest `PRIO`. -/
def bestCands (l : List Cand) : List Cand :=
  let open_ := l.filter fun c => c.state != 2
  let st := (open_.map (·.state)).foldl min 2
  let a := open_.filter fun c => c.state == st
  let pr := (a.map (·.prio)).foldl min 8
  a.filter fun c => c.prio == pr

/-- Wire bytes of a copy: frame with FCS, at least 64 bytes, and 20 bytes of preamble and gap (R352). -/
def wireLen (c : Copy) : Nat := max 60 c.data.length + 24

/-- Key of a node's turn: its level above the queues and its number. -/
def turnKey (lv n : Nat) : Nat := lv * 65536 + n

/-- A node's choice among its children: candidates of level `lv` below node `n`. -/
def choose (s : State) (lv n : Nat) (l : List Cand) : Option Pick :=
  let t := lookD 0 s.trans.turns (turnKey (lv + 1) n)
  let ring := rotateFrom t (bestCands l)
  let mine := match ring with | c :: _ => c.row == t | [] => false
  match drr (150 * ring.length) mine ring with
  | none => none
  | some (c, others) => some { c.pick with
      path := (lv, c.row, c.state) :: c.pick.path
      deficits := (lv, c.row, c.deficit) :: (others.map fun o => (lv, o.row, o.deficit)) ++ c.pick.deficits
      turns := (turnKey (lv + 1) n, c.row) :: c.pick.turns }

/-- A candidate of a level with what lies below it. -/
def candidate (s : State) (lv n : Nat) (p : Pick) : Cand :=
  let v := visit s lv n
  { row := n, state := nodeState s lv n v, prio := fld s (levelObj lv) n 3, quantum := 64 * fld s (levelObj lv) n 4
    deficit := v.deficit, pick := p }

/-- Rows of a list's values, each once. -/
def distinct : List Nat → List Nat
  | [] => []
  | x :: r => if r.contains x then distinct r else x :: distinct r

/-- Valid queues that hold a copy, with the copy's length. -/
def busyQueues (s : State) : List (Nat × Nat) :=
  s.trans.queues.filterMap fun q => match q.2.copies with
    | c :: _ => if fldB s 0x8007 q.1 1 then some (q.1, wireLen c) else none
    | [] => none

/-- The selection below a subscriber, a service and a port node. -/
def pickSub (s : State) (sub : Nat) : Option Pick :=
  choose s 0 sub ((busyQueues s).filterMap fun q =>
    if subOf s q.1 = sub then some (candidate s 0 q.1 ⟨q.1, q.2, [], [], []⟩) else none)
def pickSvc (s : State) (svc : Nat) : Option Pick :=
  let subs := sortNat (distinct (((busyQueues s).map fun q => subOf s q.1).filter fun k => svcOf s k == svc && fldB s 0x8009 k 1))
  choose s 1 svc (subs.filterMap fun k => (pickSub s k).map (candidate s 1 k))
def pickPort (s : State) (port : Nat) : Option Pick :=
  let svcs := sortNat (distinct (((busyQueues s).map fun q => svcOf s (subOf s q.1)).filter fun k =>
    portOf s k == port && fldB s 0x800B k 1))
  choose s 2 port (svcs.filterMap fun k => (pickSvc s k).map (candidate s 2 k))

/-! ### Fall-through chains (R32): an item is 32 bytes of a frame -/

/-- Items of a frame. -/
def frameItems : Nat → Bytes → List Bytes
  | 0, _ => []
  | n + 1, b => if b.isEmpty then [] else b.take 32 :: frameItems n (b.drop 32)

/-- Items enter while a stage is free, each falling to the empty stage nearest the output; with eight occupied the input stalls. -/
def Chain.enter (c : Chain) : Chain :=
  let k := 8 - c.stages.length
  { c with stages := c.stages ++ c.input.take k, input := c.input.drop k }

/-- The output hands `n` items to the MAC; each stage that it vacates counts as empty for the next item at once. -/
def Chain.advance (c : Chain) (n : Nat) : Chain :=
  ({ c with stages := [], input := (c.stages ++ c.input).drop n } : Chain).enter

/-- A frame's items come to the chain. -/
def Chain.put (c : Chain) (b : Bytes) : Chain := { c with input := c.input ++ frameItems (b.length / 32 + 1) b }.enter

/-! ### Charge (R352) and departure -/

def State.portNode (s : State) (p : Nat) : PortNode := lookD {} s.trans.ports p
def State.setPort (s : State) (p : Nat) (v : PortNode) : State := { s with trans := { s.trans with ports := put s.trans.ports p v } }
/-- A port node's peak bucket, visited now. -/
def portShaper (s : State) (p : Nat) : Shaper := (s.portNode p).shaper.refill 0 0 (fld s 0x800D p 2) (fld s 0x800D p 3) s.clk.now

/-- Charge a node. -/
def State.charge (s : State) (lv n st len : Nat) : State :=
  let v := visit s lv n
  let l : Int := (len * 65536 : Nat)
  s.setShaper lv n { v with e := v.e - l, c := if st = 0 then v.c - l else v.c }

/-- Settle the deficits and turns of a selection: a child with nothing left below it keeps no deficit. -/
def State.settlePick (s : State) (p : Pick) : State :=
  let busy (lv n : Nat) : Bool := (busyQueues s).any fun q =>
    (if lv = 0 then q.1 else if lv = 1 then subOf s q.1 else svcOf s (subOf s q.1)) == n
  let s1 := p.deficits.foldl (fun s d =>
    s.setShaper d.1 d.2.1 { visit s d.1 d.2.1 with deficit := if busy d.1 d.2.1 then d.2.2 else 0 }) s
  { s1 with trans := { s1.trans with turns := p.turns.foldl (fun t x => put t x.1 x.2) s1.trans.turns } }

/-- A frame as its cells hold it when it leaves. -/
def cellFrame (s : State) (c : Copy) : Bytes :=
  if c.bufs.isEmpty then c.data else (c.bufs.flatMap fun b => bytesAt s.mem.dev (cellAddr b) 256).take c.data.length

/-- A recirculated packet comes back to its first-pass pipeline through a loopback node (R322): its words wait for their turn there (R313). -/
def State.reenter (s : State) (port gen node vlan : Nat) (b : Bytes) : State :=
  let k : Pkt := { id := 0, port := port, seq := 0, data := b, parsed := parseFrame b, pass2 := some (node, vlan), gen := gen }
  { s with selv := { s.selv with arrivals := s.selv.arrivals ++ [(k, parseWords b)] } }

/-- The chain of a front port's egress lane now: its MAC takes items at the link's rate. -/
def laneChain (s : State) (node : Nat) : Chain :=
  let c := (s.portNode node).chain
  let n := (s.clk.now - c.since) * linkRate s node / 256000000
  if c.stages.length + c.input.length ≤ n then { since := s.clk.now }
  else { c.advance n with since := c.since + n * 256000000 / linkRate s node }

/-- What a port node does with a copy that leaves. -/
def State.depart (s : State) (node : Nat) (c : Copy) : State :=
  let b := cellFrame s c
  let s1 := s.dropCells mReplicate c.bufs
  if node < 16 then
    let s2 := (s1.setPort node { s1.portNode node with chain := (laneChain s1 node).put b }).emit (.frame node b c.stomped)
    if c.stomped then s2.selvCount 5 else s2
  else if node = 16 then s1.hostDeliver b c.ingress
  else if node = 17 then
    let s2 := s1.emit (.toCores b c.exc)
    (match c.exc with
      | some x => if x.reason = 6 then s2.resolveFrom x.port b else s2
      | none => s2).settleInts
  else
    match c.recirc with
    | some (port, gen, nd, vlan) => s1.reenter port gen nd vlan b
    | none => s1

/-- A port node may start a copy (R353): a front port's link is up and its MAC accepts one; node 16 has a posted buffer. -/
def portFree (s : State) (node : Nat) : Bool :=
  let v := portShaper s node
  (decide (0 ≤ v.e) || fld s 0x800D node 2 == 0) &&
  (if node < 16 then linkUp s node && frontServes s && (laneChain s node).input.isEmpty && decide ((s.portNode node).busyUntil ≤ s.clk.now)
   else if node = 16 then !s.rings.posted.isEmpty else true)

/-- SCHEDULER_DECISION (R349 to R354): a free port node selects down to a queue; its oldest copy leaves and every node on the path is
charged. -/
def execSchedulerDecision (node : Fin 20) (s : State) : Host.Outcome State Fault Refusal :=
  awake s <|
  if !(portFree s node) then done s
  else
    match pickPort s node with
    | none => done s
    | some p =>
      match (s.queue p.queue).copies with
      | [] => done s
      | c :: r =>
        let v := s.queue p.queue
        let s1 := s.setQueue p.queue { v with copies := r, sent := v.sent + 1, bytes := v.bytes + p.len }
        let s2 := (p.path.foldl (fun s x => s.charge x.1 x.2.1 x.2.2 p.len) s1).settlePick p
        let w := s2.portNode node
        let sh := portShaper s2 node
        let rate := if node.val < 16 then linkRate s node else 0
        let s3 := s2.setPort node { w with
          shaper := { sh with e := sh.e - (p.len * 65536 : Nat) }, sent := w.sent + 1, bytes := w.bytes + p.len
          busyUntil := if rate = 0 then w.busyUntil else s.clk.now + p.len * 8000000 / rate }
        done (s3.depart node c)

end Sys2Proof.Machine
end

