-- ==== Sys2Proof/Machine/TimeUnit.lean ====
section
/-! DEFINITION. The time unit (R364 to R384, R522): inputs and states, steps, PTP messages, the outputs of time. -/

namespace Sys2Proof.Machine

/-! ### States (R368, R369, R522) -/

/-- A change of state raises 0x00E (R412). -/
def modeCode : TimeMode → Nat
  | .freeRun => 0
  | .acquiring => 1
  | .locked => 2
  | .holdover => 3
  | .slave => 4
  | .passive => 5
def State.timeMode (s : State) (m : TimeMode) : State :=
  if s.time.mode = m then s
  else
    let s1 : State := { s with time := { s.time with mode := m, slavePort := if m = .slave then s.time.slavePort else 0x1F } }
    s1.raise 0x00E mTime [BitVec.ofNat 8 (modeCode m)]

/-- Enter Free run. -/
def State.toFreeRun (s : State) : State :=
  ({ s with time := { s.time with clockClass := 248, accuracy := 0xFE, source := 0xA0 } }).timeMode .freeRun
/-- Enter Acquiring: class, accuracy and source are kept, in Holdover as they stand now (R368, R369). -/
def State.toAcquiring (s : State) : State :=
  if s.time.mode = .acquiring then s
  else
    let s1 := s.clockView
    ({ s1 with time := { s1.time with acqFrom := s1.time.mode, stepArmed := true } }).timeMode .acquiring
/-- Enter Locked. Its clockAccuracy is stated nowhere: a free value. -/
def State.toLocked (s : State) : State :=
  if s.time.mode = .locked then s
  else (({ s with time := { s.time with
    clockClass := 6, accuracy := BitVec.ofNat 8 (Config.freeNat s.clk.free), source := 0x20 } }).freed).timeMode .locked
/-- Enter Holdover with an estimate of a constant and an origin. -/
def State.toHoldover (s : State) (base origin : Nat) : State :=
  let s1 : State := { s with time := { s.time with
    holdBase := base, holdFrom := origin, holdRef := s.time.refOk, source := 0xA0, clockClass := 7 } }
  ((s1.timeCount 4).holdoverNow).timeMode .holdover
/-- GNSS is lost (R368, R522). -/
def State.gnssLost (s : State) : State :=
  let s1 := ({ s with time := { s.time with gnss := false } }).timeCount 3
  match s1.time.mode with
  | .locked => s1.toHoldover 100 s1.time.lastValid
  | .acquiring =>
    match s1.time.acqFrom with
    | .locked => s1.toHoldover (max 100 s1.time.offset.natAbs) s1.time.lastValid
    | .holdover => ((s1.timeCount 4).holdoverNow).timeMode .holdover
    | _ => s1.toFreeRun
  | _ => s1

/-- The frequencies of the last 60 s, and the one before them. -/
def recentFreq (start : Nat) (l : List (Nat × Int)) : List (Nat × Int) :=
  (l.takeWhile fun q => decide (start < q.1)) ++ (l.dropWhile fun q => decide (start < q.1)).take 1
/-- A frequency applies from now on. -/
def State.setFreq (s : State) (f : Int) : State :=
  { s with time := { s.time with freq := f, freqLog := recentFreq (s.clk.now - 60000000000) ((s.clk.now, f) :: s.time.freqLog) } }

/-- The servo's frequency law is not given: a free value within ±100 ppm and within 0x6012:06 of the held frequency (R364, R370). -/
def State.steer (s : State) : State :=
  let lim : Nat := 256 * par s 0x6012 6
  let f : Int := s.time.heldFreq + ((Config.freeNat s.clk.free % (2 * lim + 1) : Nat) : Int) - (lim : Int)
  let g : Int := max (-25600000) (min 25600000 f)
  (({ s with time := { s.time with steering := true } } : State).setFreq g).freed

/-- The mean frequency of the preceding 60 s, each for as long as it applied. -/
def meanFreq (now : Nat) (t : TimeUnit) : Int :=
  let start := now - 60000000000
  let r := t.freqLog.foldl (fun (a : Int × Nat) q => (a.1 + q.2 * ((a.2 - max q.1 start : Nat) : Int), min a.2 (max q.1 start))) (0, now)
  if r.2 = now then t.freq else r.1 / ((now - r.2 : Nat) : Int)

/-- An edge that is invalid or missing (R367): the servo stops steering by it; a Slave is steered by its master. -/
def State.badEdge (s : State) (prev : Nat) : State :=
  let stops := s.time.steering && decide (s.time.mode ≠ .slave)
  let f := meanFreq s.clk.now s.time
  let s0 : State := if stops then State.setFreq { s with time := { s.time with heldFreq := f } } f else s
  let s1 := ({ s0 with time := { s0.time with
    prevEdge := some prev, good := 0, bad := s.time.bad + 1, steering := s.time.steering && !stops } }).timeCount 2
  if s1.time.gnss ∧ 3 ≤ s1.time.bad then s1.gnssLost else s1

/-- The signed offset of an edge from the unit's second boundary. -/
def edgeOffset (ptp : Nat) : Int :=
  let n := ptp % 1000000000
  if n < 500000000 then (n : Int) else (n : Int) - 1000000000

/-- The second boundary after a PTP time. -/
def nextSecond (ptp : Nat) : Nat := (ptp / 1000000000 + 1) * 1000000000

/-- The state a GNSS-qualified valid edge leads to (R368), and the step that an offset above 0x6012:05 asks for, at the next second boundary
(R370). -/
def State.judge (s : State) (off : Int) : State :=
  let near := decide (off.natAbs ≤ 100)
  match s.time.mode with
  | .slave => s
  | .passive => s
  | _ =>
    if s.time.todValid && near then (if s.time.mode = .locked then s else (s.toAcquiring).toLocked)
    else
      let s1 := s.toAcquiring
      let big := decide (par s1 0x6012 5 < off.natAbs)
      { s1 with time := { s1.time with
        pendingStep := if big && s1.time.stepArmed then some (off, nextSecond s1.time.ptp) else s1.time.pendingStep
        stepArmed := !big } }

/-- The count stands at a new value, and what waits for its next second boundary waits for the new count's. -/
def State.setPtp (s : State) (new : Nat) : State :=
  if new = s.time.ptp then s
  else
    let s1 := s.timeCount 5
    ({ s1 with time := { s1.time with
      ptp := new, pendingStep := s1.time.pendingStep.map fun q => (q.1, nextSecond new)
      held := s1.time.held.map fun q => (q.1, q.2.1, nextSecond new) } } : State).steppedFrom s.time.ptp
/-- Set the seconds count, keeping the part below a second; a change is a step (R370, R371). -/
def State.setCount (s : State) (sec : Nat) (off : Int) : State :=
  State.setPtp { s with time := { s.time with todValid := true } } (((sec * 1000000000 : Nat) : Int) + off).toNat
/-- The held second that applies in this cycle: the last that came before it. -/
def heldNow (s : State) : Option (BitVec 48 × Nat × Nat) := (s.time.held.filter fun q => decide (q.2.1 < s.clk.now)).getLast?
/-- It has applied: what came in this cycle waits. -/
def State.heldDone (s : State) : State := { s with time := { s.time with held := s.time.held.filter fun q => decide (s.clk.now ≤ q.2.1) } }

/-! ### The device's own data set (R373, R374) -/

/-- The EUI-64 of a MAC address: 0xFFFE between its halves. -/
def eui64 (mac : BitVec 48) : Nat := mac.toNat / 2 ^ 24 * 2 ^ 40 + 0xFFFE * 2 ^ 24 + mac.toNat % 2 ^ 24
/-- The clockIdentity (R373). -/
def clockIdentity : Nat := eui64 (Config.baseMac + 1)

/-- Data-set comparison of the default BMCA: priority1, class, accuracy, variance, priority2, identity, then steps removed. PRESUMED
from IEEE 1588-2019. -/
def bmcaKey (p1 cls acc var p2 gm steps : Nat) : List Nat := [p1, cls, acc, var, p2, gm, steps]
def lexLt : List Nat → List Nat → Bool
  | a :: r, b :: t => decide (a < b) || (a == b && lexLt r t)
  | _, _ => false
def annKey (a : Announce) : List Nat :=
  bmcaKey a.priority1.toNat a.clockClass.toNat a.accuracy.toNat a.variance.toNat a.priority2.toNat a.gmId.toNat a.stepsRemoved.toNat
def ownKey (s : State) : List Nat :=
  let c := clockClassNow s
  bmcaKey (par s 0x6020 6) c.toNat (accuracyNow s).toNat (if c = 6 ∨ c = 7 then 0x4E5D else 0xFFFF) (par s 0x6020 7) clockIdentity 0

/-- The state that the inputs give (R374). -/
def State.fromInputs (s : State) : State :=
  if s.time.gnss then
    if s.time.todValid && decide (s.time.offset.natAbs ≤ 100) then s.toLocked else s.toAcquiring
  else s.toFreeRun
/-- The device leaves Slave. -/
def State.leaveSlave (s : State) : State := ({ s with time := { s.time with parent := none } } : State).fromInputs
/-- The device's own data set: a Slave's is the one that its own inputs would give it. -/
def ownSet (s : State) : List Nat := ownKey (if s.time.mode = .slave then s.leaveSlave else s)
/-- A Slave whose own data set has become better than its master's, or whose ports have become masterOnly, leaves Slave (R374). -/
def State.reviewSlave (s : State) : State :=
  match s.time.mode, s.time.parent with
  | .slave, some p => if par s 0x6020 3 = 0 ∨ lexLt (ownSet s) (annKey p) = true then s.leaveSlave else s
  | _, _ => s

/-! ### Inputs -/

/-- PPS_IN_EDGE (R365, R367 to R371, R382, R383): `frac` is the captured fraction. -/
def execPpsInEdge (frac : BitVec 16) (s : State) : Host.Outcome State Fault Refusal :=
  awake s <|
  if s.boot.timeUp = false then done s
  else
    let t := s.time
    let off := edgeOffset t.ptp
    let wasGnss := t.gnss
    let cap : State := { s with time := { t with
      capSeq := t.capSeq + 1, capFrac := frac, capNs := BitVec.ofNat 30 (t.ptp % 1000000000)
      capSec := BitVec.ofNat 48 (t.ptp / 1000000000) } }
    -- a held second applies at the edge, unless it came in the edge's own cycle
    let s1 := match heldNow s with
      | some (v, _) =>
        if wasGnss = true ∧ t.mode ≠ TimeMode.slave ∧ t.mode ≠ TimeMode.passive then cap.heldDone.setCount v.toNat off else cap
      | none => cap
    match t.prevEdge with
    | none => done { s1 with time := { s1.time with prevEdge := some s.clk.now } }
    | some p =>
      if t.tenOk ∧ p + 999999000 ≤ s.clk.now ∧ s.clk.now ≤ p + 1000001000 then
        let s2 := ({ s1 with time := { s1.time with
          prevEdge := some s.clk.now, lastValid := s.clk.now, offset := off, good := t.good + 1, bad := 0
          gnss := t.gnss || decide (9 ≤ t.good) } }).timeCount 1
        if s2.time.gnss then
          let s3 := s2.judge off
          done (match s3.time.mode with
            | .slave => s3.reviewSlave
            | .passive => if s3.faults.gavonDown then s3.steer else s3
            | _ => s3.steer)
        else done s2
      else done (s1.badEdge s.clk.now)

/-- PPS_MISSING (R367): no edge by 1 s + 1 µs after the previous one, whose expected successor stands in for it. -/
def execPpsMissing (s : State) : Host.Outcome State Fault Refusal :=
  awake s <|
  match s.time.prevEdge with
  | none => done s
  | some p => if s.boot.timeUp = false ∨ s.clk.now ≤ p + 1000001000 then done s else done (s.badEdge (p + 1000000000))

/-- REFERENCE_INPUT_LOST (R367): 1 µs without an edge. -/
def execReferenceInputLost (i : RefInput) (s : State) : Host.Outcome State Fault Refusal :=
  awake s <|
  if s.boot.timeUp = false then done s
  else
    match i with
    | .tenMhz => done { s with time := { s.time with tenOk := false } }
    | .refIn => done { s with time := { s.time with refOk := false } }

/-- REFERENCE_INPUT_GOOD (R367): the next edge has no previous one when `TEN_MHZ_IN` becomes good. -/
def execReferenceInputGood (i : RefInput) (s : State) : Host.Outcome State Fault Refusal :=
  awake s <|
  if s.boot.timeUp = false then done s
  else
    match i with
    | .tenMhz => done (if s.time.tenOk then s else { s with time := { s.time with tenOk := true, prevEdge := none } })
    | .refIn => done { s with time := { s.time with refOk := true } }

/-- HOLDOVER_LIMIT_CROSSED (R368, R369). -/
def execHoldoverLimitCrossed (s : State) : Host.Outcome State Fault Refusal :=
  awake s <|
  if s.time.mode = .holdover then done s.holdoverNow else done s

/-- TIME_STEP (R249, R370): the pending step is made at its second boundary; the slots of boundaries that it jumps over are missed. -/
def execTimeStep (s : State) : Host.Outcome State Fault Refusal :=
  awake s <|
  match s.time.pendingStep with
  | none => done s
  | some (off, at_) =>
    if s.time.ptp < at_ then done s
    else done (State.setPtp { s with time := { s.time with pendingStep := none } } ((s.time.ptp : Int) - off).toNat)

/-- SET_SECONDS (R371): an accepted write of 0x6013:01 holds its second; a later one replaces it, from the cycle after on. -/
def execSetSeconds (s : State) : Host.Outcome State Fault Refusal :=
  awake s <|
  match takeFirst (fun a : Act => a.idx == 0x6013 && a.sub == 1) s.dict.acts with
  | none => done s
  | some (a, r) =>
    done { s with
      dict := { s.dict with acts := r }
      time := { s.time with held := (heldNow s).toList ++ [(BitVec.ofNat 48 a.val.nat, s.clk.now, nextSecond s.time.ptp)] } }

/-- SECONDS_COUNT_APPLY (R371): without GNSS qualification a held second applies at the unit's next second boundary. -/
def execSecondsCountApply (s : State) : Host.Outcome State Fault Refusal :=
  awake s <|
  match heldNow s with
  | none => done s
  | some (v, _, at_) =>
    if s.time.gnss ∨ s.boot.timeUp = false ∨ s.time.mode = .slave ∨ s.time.mode = .passive ∨ s.time.ptp < at_ then done s
    else done (s.heldDone.setCount v.toNat ((s.time.ptp % 1000000000 : Nat) : Int))

/-! ### PTP messages (R373 to R377). Their layouts are those of IEEE 1588-2019, which the spec names (PRESUMED) -/

/-- A port is a PTP port that the unit serves: enabled by 0x6020:08, its link up, the device not Passive. -/
def ptpPort (s : State) (p : Nat) : Bool := s.boot.timeUp && frontServes s && bitOf (par s 0x6020 8) p && linkUp s p && s.time.mode != .passive
/-- It is Master. -/
def masterPort (s : State) (p : Nat) : Bool := ptpPort s p && !(decide (s.time.mode = .slave) && s.time.slavePort.toNat == p)

/-- The next sequence number of a kind on a port, and the state past it. -/
def State.nextSeqOf (s : State) (kind p : Nat) : Nat × State :=
  (lookD 0 s.time.seqs (16 * kind + p), { s with time := { s.time with
    seqs := upd 0 s.time.seqs (16 * kind + p) fun n => (n + 1) % 65536 } })

/-- Intervals of the profile as powers of two (R374). -/
def logAnnounce (s : State) : Int := if par s 0x6020 1 = 0 then -2 else 1
def logSync (s : State) : Int := if par s 0x6020 1 = 0 then -3 else 0
/-- The announce interval in nanoseconds. -/
def announceNs (s : State) : Nat := if par s 0x6020 1 = 0 then 250000000 else 2000000000

/-- A message: common header and body. -/
def ptpMessage (s : State) (type p seq flags : Nat) (control : Nat) (interval : Int) (body : Bytes) : Bytes :=
  [BitVec.ofNat 8 type, 0x12] ++ be 2 (34 + body.length) ++ [BitVec.ofNat 8 (par s 0x6020 2), 0] ++ be 2 flags ++ be 8 0 ++ be 4 0 ++
    be 8 clockIdentity ++ be 2 (p + 1) ++ be 2 seq ++ [BitVec.ofNat 8 control, BitVec.ofNat 8 (twos 8 interval)] ++ body

/-- The timestamp of an event message that a port has received: that of its arrival, taken from those that wait, or captured now where none waits
(R365). -/
def State.takeArrival (s : State) (p : Nat) : State :=
  match takeFirst (fun q : Nat × BitVec 128 => q.1 == p) s.time.arrived with
  | some (q, r) => { s with time := { s.time with caps := put s.time.caps p q.2, arrived := r } }
  | none => s.capture p
/-- An event message that is not taken leaves no timestamp. -/
def State.dropArrival (s : State) (p : Nat) : State :=
  match takeFirst (fun q : Nat × BitVec 128 => q.1 == p) s.time.arrived with
  | some (_, r) => { s with time := { s.time with arrived := r } }
  | none => s
/-- Whole nanoseconds of a captured timestamp. -/
def capturedNs (x : BitVec 128) : Nat := x.toNat / 2 ^ 64 % 2 ^ 48 * 1000000000 + x.toNat / 2 ^ 32 % 2 ^ 30
/-- A corrected timestamp of a port (R376): 6 bytes of seconds and 4 of nanoseconds. -/
def portStamp (s : State) (p : Nat) : Bytes :=
  let t := ((capturedNs (lookD 0 s.time.caps p) : Int) - sext 32 (par s 0x6022 (p + 1))).toNat
  be 6 (t / 1000000000) ++ be 4 (t % 1000000000)
/-- A port's captured timestamp crosses the timestamp Bobbin (R26 to R31): while the Bobbin has no way through it waits. `item` is how its row
reads; a timestamp that cannot be corrected is a free value (DESIGN CHOICE, log entry 199). -/
def State.crossStamp (s : State) (p : Nat) (received : Bool) (item : Ecc) : Option (State × Bytes) :=
  let s1 := s.bobClear .timestamp
  if s1.bobOpen .timestamp then
    let s2 := ((if received then s1.takeArrival p else s1.capture p).bobPass .timestamp 1).readItem .timestamp item
    some (if item = .uncorrectable then (s2.freed, slice (Config.freeBytes s2.clk.free) 0 10) else (s2, portStamp s2 p))
  else none

/-- Send a message on a port, in bridge class 7 (R373); `to_` is a unicast destination. -/
def State.sendPtp (s : State) (p : Nat) (event : Bool) (to_ : Option (BitVec 48 × BitVec 128)) (msg : Bytes) : State :=
  let vlan := frontVlan s
  let tag := portTag s vlan p 7
  let port := if event then 319 else 320
  let frame :=
    if par s 0x6020 5 = 2 then
      let d := match to_ with | some u => be 6 u.1.toNat | none => be 6 0x011B19000000
      d ++ be 6 frontMac.toNat ++ tag ++ [0x88, 0xF7] ++ msg
    else
      let v4 := par s 0x6020 5 == 0
      let group : Bytes := if v4 then [0, 0, 0, 0, 0, 0, 0, 0, 0, 0, 0xFF, 0xFF, 224, 0, 1, 129]
        else [0xFF, 0x0E, 0, 0, 0, 0, 0, 0, 0, 0, 0, 0, 0, 0, 1, 0x81]
      let ip := match to_ with | some u => be 16 u.2.toNat | none => group
      let mac := match to_ with | some u => u.1 | none => groupMac group
      udpFrame mac tag (ownIp s true v4) ip (1 + Config.freeNat s.clk.free % 255) (Config.freeNat (s.clk.free + 1) % 64) port port
        (s.clk.free + 2) msg
  let s1 : State := { s with clk := { s.clk with free := s.clk.free + 3 } }
  (s1.enqueueCopy (bridgeQueue p 7) mTime { data := frame }).2.emit (.ptp p (u8 msg 0 % 16) msg)

/-- Leap flags: announced during the 12 hours before 0x6014:03 (R372). -/
def leapSoon (s : State) (code : Nat) : Bool :=
  let sec := ptpSec s
  utcField s 2 == code && decide (sec < utcField s 3) && decide (utcField s 3 ≤ sec + 43200)

/-- The fields of the Announce (R375): those of the device, or of the grandmaster as a boundary clock. -/
def announceBody (s : State) : Bytes :=
  let own := be 2 (twos 16 (utcOffset s (ptpSec s)))
  match s.time.mode, s.time.parent with
  | .slave, some a =>
    be 2 a.utcOffset.toNat ++ [0, a.priority1, a.clockClass, a.accuracy] ++ be 2 a.variance.toNat ++ [a.priority2] ++ be 8 a.gmId.toNat ++
      be 2 (a.stepsRemoved.toNat + 1) ++ [a.timeSource]
  | _, _ =>
    let c := clockClassNow s
    let v := if c = 6 ∨ c = 7 then 0x4E5D else 0xFFFF
    own ++ [0, BitVec.ofNat 8 (par s 0x6020 6), c, accuracyNow s] ++ be 2 v ++ [BitVec.ofNat 8 (par s 0x6020 7)] ++
      be 8 clockIdentity ++ be 2 0 ++ [s.time.source]

/-- Flags of the Announce (R375). -/
def announceFlags (s : State) : Nat :=
  b2n (leapSoon s 1) + 2 * b2n (leapSoon s 2) + 4 * b2n s.time.todValid + 8 + 16 * b2n (clockClassNow s == 6) +
    32 * b2n (clockClassNow s == 6 || clockClassNow s == 7)

/-- ANNOUNCE_SEND (R372, R374, R375). The origin timestamp is free. -/
def execAnnounceSend (port : Fin 16) (s : State) : Host.Outcome State Fault Refusal :=
  awake s <|
  if masterPort s port then
    let q := (s.freed).nextSeqOf 0 port
    done (q.2.sendPtp port false none (ptpMessage s 0xB port q.1 (announceFlags s) 5 (logAnnounce s)
      (slice (Config.freeBytes s.clk.free) 0 10 ++ announceBody s)))
  else done s

/-- SYNC_SEND (R365, R376): one step, or a Sync (its origin timestamp free) and the Follow_Up, with the timestamp captured at the MAC. -/
def execSyncSend (port : Fin 16) (item : Ecc) (s : State) : Host.Outcome State Fault Refusal :=
  awake s <|
  if masterPort s port then
    match (s.freed).crossStamp port false item with
    | none => done (s.bobClear .timestamp)
    | some (s0, t) =>
      let q := s0.nextSeqOf 1 port
      if parB s 0x6020 4 then done (q.2.sendPtp port true none (ptpMessage s 0 port q.1 0 0 (logSync s) t))
      else
        let s1 := q.2.sendPtp port true none (ptpMessage s 0 port q.1 0x200 0 (logSync s) (slice (Config.freeBytes s.clk.free) 0 10))
        done (s1.sendPtp port false none (ptpMessage s 8 port q.1 0 2 (logSync s) t))
  else done s

/-- DELAY_REQ (R365, R374, R376): answered in kind, up to 16 million in a second over all ports, with the timestamp of its receipt. -/
def execDelayReq (port : Fin 16) (item : Ecc) (unicast : Option (BitVec 48 × BitVec 128)) (source : BitVec 80) (seq : BitVec 16) (s : State) :
    Host.Outcome State Fault Refusal :=
  awake s <|
  if masterPort s port then
    let sec := s.clk.now / 1000000000
    let n := if s.time.answerSec = sec then s.time.answered else 0
    if 16000000 ≤ n then done ((({ s with time := { s.time with answered := n, answerSec := sec } }).timeCount 7).dropArrival port)
    else
      match s.crossStamp port true item with
      | none => done (s.bobClear .timestamp)
      | some (s0, t) =>
        let s1 := ({ s0 with time := { s0.time with answered := n + 1, answerSec := sec } }).timeCount 6
        let flags := if unicast.isSome then 0x400 else 0
        let i : Int := if unicast.isSome then 0x7F else logSync s
        done (s1.sendPtp port false unicast (ptpMessage s 9 port seq.toNat flags 3 i (t ++ be 10 source.toNat)))
  else done (s.dropArrival port)

/-- Take a grandmaster's data set as Slave on a port. -/
def State.follow (s : State) (port : Nat) (a : Announce) : State :=
  (({ s with time := { s.time with
    slavePort := BitVec.ofNat 5 port, parent := some a, parentAt := s.clk.now, clockClass := a.clockClass, accuracy := a.accuracy
    source := a.timeSource, todValid := a.utcValid, pendingStep := none, held := [] } }).timeMode .slave)

/-- FOREIGN_ANNOUNCE (R374): counted; a new clockIdentity raises an event; under the BMCA a better grandmaster, heard twice within
four intervals, makes the device a boundary clock, on the port with the best path to it. -/
def execForeignAnnounce (port : Fin 16) (a : Announce) (s : State) : Host.Outcome State Fault Refusal :=
  awake s <|
  if !(ptpPort s port) then done s
  else
    let s1 := s.timeCount 8
    let known := s.time.foreign.any fun f => f.ann.clockId == a.clockId
    let prior := s.time.foreign.find? fun f => f.ann.clockId == a.clockId && f.port == port.val
    let rest := s.time.foreign.filter fun f => !(f.ann.clockId == a.clockId && f.port == port.val)
    let s2 : State := { s1 with time := { s1.time with foreign := rest ++ [⟨port, a, s.clk.now⟩] } }
    if par s 0x6020 3 = 0 then
      done (if known then s2 else s2.raise 0x00F mTime (le 8 a.clockId.toNat)).reviewSlave
    else
      let heard := match prior with | some f => decide (s.clk.now ≤ f.at_ + 4 * announceNs s) | none => false
      if a.gmId.toNat = clockIdentity ∨ heard = false then done s2.reviewSlave
      else
        match s.time.mode, s.time.parent with
        | .slave, some p =>
          if p.clockId = a.clockId ∧ s.time.slavePort.toNat = port.val then done (s2.follow port a).reviewSlave
          else if lexLt (annKey a) (annKey p) ∧ lexLt (annKey a) (ownSet s) then done (s2.follow port a)
          else done s2.reviewSlave
        | _, _ => if lexLt (annKey a) (ownKey s) then done (s2.follow port a) else done s2

/-- ANNOUNCE_RECEIPT_TIMEOUT (R374): three intervals without the master's Announce. -/
def execAnnounceReceiptTimeout (s : State) : Host.Outcome State Fault Refusal :=
  awake s <|
  if s.time.mode = .slave ∧ s.time.parentAt + 3 * announceNs s ≤ s.clk.now then done s.leaveSlave
  else done s

/-- The least interval of Delay_Req in nanoseconds, which is that of Sync (R374). -/
def delayReqNs (s : State) : Nat := if par s 0x6020 1 = 0 then 125000000 else 1000000000
/-- The slave port's Delay_Req (R373, R374), captured as it leaves: one with each Sync, not before the least interval is over (DESIGN CHOICE, log
entry 200). -/
def State.askDelay (s : State) (p : Nat) : State :=
  if (match look s.time.asked p with | some t => decide (s.clk.now < t + delayReqNs s) | none => false) then s
  else
    let q := ((s.freed).capture p).nextSeqOf 3 p
    let s1 : State := { q.2 with time := { q.2.time with asked := put q.2.time.asked p s.clk.now } }
    s1.sendPtp p true none (ptpMessage s 1 p q.1 0 1 0x7F (slice (Config.freeBytes s.clk.free) 0 10))

/-- SYNC_RECEIVE (R365, R373, R374, R376): the slave port's messages, captured as they arrive, discipline the time, slewing within its limits; the
offset is corrected by the port's asymmetry; the port asks for the delay. -/
def execSyncReceive (port : Fin 16) (offsetNs : Int) (s : State) : Host.Outcome State Fault Refusal :=
  awake s <|
  if s.time.mode = .slave ∧ s.time.slavePort.toNat = port.val then
    let s1 := s.takeArrival port
    done (({ s1 with time := { s1.time with slaveOffset := offsetNs - sext 32 (par s 0x6022 (port + 1)) } } : State).steer.askDelay port)
  else done (s.dropArrival port)

/-- SYNC_METADATA_SEND (R377): the fields the spec gives of the SMPTE TLV; the rest of the message is free. -/
def execSyncMetadataSend (port : Fin 16) (s : State) : Host.Outcome State Fault Refusal :=
  awake s <|
  if masterPort s port && par s 0x6020 1 == 0 then
    let status : Nat := if clockClassNow s = 6 then 4 else if clockClassNow s = 7 then 3 else 1
    let q := (s.freed).nextSeqOf 2 port
    let tlv := be 4 (par s 0x6021 1) ++ be 4 (par s 0x6021 2) ++ be 1 status ++ be 4 0 ++ be 4 0 ++ be 6 0 ++
      be 1 (if leapSoon s 1 then 1 else if leapSoon s 2 then 2 else 0) ++ slice (Config.freeBytes s.clk.free) 0 32
    done (q.2.sendPtp port false none (ptpMessage s 0xD port q.1 0 4 0x7F tlv))
  else done s

/-! ### Outputs (R379, R380) -/

/-- Both outputs are held low outside classes 6 and 7 while 0x6015:03 is 1. -/
def squelched (s : State) : Bool := parB s 0x6015 3 && clockClassNow s != 6 && clockClassNow s != 7

/-- PPS_OUT_EDGE (R379): `PPS_OUT` rises, with a rising edge of `TEN_MHZ_OUT`, and stays high for 0x6015:01. -/
def execPpsOutEdge (s : State) : Host.Outcome State Fault Refusal :=
  awake s <|
  if s.boot.timeUp = false then done s
  else
    let s1 : State := { s with
      time := { s.time with
        edgeAt := some s.time.ptp, ppsFall := if squelched s then none else some (s.clk.now + 1000 * par s 0x6015 1) }
      pins := { s.pins with tenMhz := !(squelched s), ppsOut := !(squelched s) } }
    done (if squelched s then s1 else (s1.emit (.pin "TEN_MHZ_OUT" true)).emit (.pin "PPS_OUT" true))

/-- Decimal digits of a number. -/
def decimal (n : Nat) : Bytes := (Nat.toDigits 10 n).map fun c => BitVec.ofNat 8 c.toNat
def decimalInt (n : Int) : Bytes := if n < 0 then 0x2D :: decimal n.natAbs else decimal n.natAbs

/-- The PTP second of the next `PPS_OUT` edge: the first whose boundary minus the advance lies ahead (R379, R380). -/
def nextEdge (s : State) : Nat := (((s.time.ptp : Int) + sext 32 (par s 0x6015 2)) / 1000000000 + 1).toNat

/-- The time-of-day line (R380): it names the next edge. -/
def todText (s : State) : Bytes :=
  let sec := nextEdge s
  let comma : Bytes := [0x2C]
  let leap : Nat := if leapSoon s 1 then 1 else if leapSoon s 2 then 2 else 0
  let body : Bytes := [0x24, 0x50, 0x59, 0x54, 0x4F, 0x44] ++ comma ++ decimal sec ++ comma ++ decimalInt (utcOffset s sec) ++ comma ++
    decimal leap ++ comma ++ decimal (clockClassNow s).toNat ++ comma ++ hexDigits 2 (accuracyNow s).toNat ++ comma ++
    decimal (b2n s.time.todValid)
  body ++ [0x2A] ++ hexDigits 4 (crc16 body).toNat ++ [0x0D, 0x0A]

/-- TOD_LINE (R380): 500 ms after each edge, or the instant at which it would have risen. -/
def execTodLine (s : State) : Host.Outcome State Fault Refusal :=
  awake s <|
  match s.time.edgeAt with
  | none => done s
  | some _ => done (({ s with time := { s.time with edgeAt := none } }).emit (.serial (todText s)))

/-! ### The pair (R381) -/

/-- Follow the primary's time, to within 10 ns (a free value). -/
def State.mirrorTime (s : State) (t : MirrorTime) : State :=
  let p := t.seconds.toNat * 1000000000 + t.nanos.toNat
  let s1 := (({ s with time := { s.time with
    ptp := p + Config.freeNat s.clk.free % 21 - 10, todValid := t.todValid, primClass := t.clockClass, mirror := some t
    pendingStep := none, held := [] } }).setFreq (sext 32 t.freq.toNat)).freed.timeMode .passive
  { s1 with time := { s1.time with clockClass := 0 } }

/-- A takeover makes the ports Master with no step (R381). -/
def State.timeTakeover (s : State) : State :=
  let t := s.time
  let near := t.gnss && decide (t.offset.natAbs ≤ 100)
  if near then s.toLocked
  else if t.primClass = 6 ∨ t.primClass = 7 then
    let h := s.toHoldover 10 s.clk.now
    if t.gnss then h.toAcquiring else h
  else if t.gnss then ({ s with time := { t with clockClass := t.primClass } }).toAcquiring
  else s.toFreeRun

/-- GAVON_TIME (R368, R381, R490): the secondary of a healthy pair follows the primary. -/
def execGavonTime (t : MirrorTime) (s : State) : Host.Outcome State Fault Refusal :=
  awake s <|
  if s.boot.timeUp = true ∧ s.pair.role = .secondary ∧ healthy s = true then done (s.mirrorTime t) else done s

end Sys2Proof.Machine
end

