-- ==== Sys2Proof/Machine/DictRead.lean ====
section
/-! DEFINITION. What a read of the dictionary returns (R69 to R81): every object's value, computed from the state for the objects
the device sets, with its encoding. -/

namespace Sys2Proof.Machine

/-! ### Encoding (R70, R71) -/

/-- Size of a fixed-size type. -/
def Ty.size : Ty → Option Nat
  | .bool => some 1
  | .i8 => some 1
  | .u8 => some 1
  | .i16 => some 2
  | .u16 => some 2
  | .i32 => some 4
  | .u32 => some 4
  | .i64 => some 8
  | .u64 => some 8
  | .oct n => some n
  | .str _ => none
  | .dom _ => none

/-- A value's bytes: little-endian for a number. -/
def PVal.encode (v : PVal) (ty : Ty) : Bytes :=
  match v with
  | .bytes b => b
  | .num n => le (ty.size.getD 0) n

def Ty.isDom : Ty → Bool
  | .dom _ => true
  | _ => false

/-! ### Store and image (R454, R456) -/

/-- Bytes that one row takes in the parameter image (R454). -/
def rowBytes (s : State) (idx row : Nat) : Nat :=
  if idx = 0x8001 then 64
  else if idx = 0x8003 then 96
  else if idx = 0x8005 then (if isV4 (storedRow s idx 3 row).raw then 24 else 40)
  else if idx = 0x800D then
    20 * (s.dict.params.filter fun q => decide (q.1 / 2 ^ 41 = idx) && decide (q.1 % 2 ^ 33 = row)).length
  else 32

/-- Rows of a table that hold a field other than its default. -/
def heldRows (p : Tab PVal) (idx : Nat) : List Nat :=
  distinct (p.filterMap fun q => if q.1 / 2 ^ 41 = idx ∧ q.1 % 2 ^ 33 ≠ 2 ^ 32 then some (q.1 % 2 ^ 33) else none)

def units (n : Nat) : Nat := (n + 511) / 512

/-- Units of the parameter image in use (R454): rows by table, each domain, all other parameters together. -/
def imageUnits (s : State) : Nat :=
  let p := s.dict.params
  let rows := sumNat ([0x8001, 0x8003, 0x8005, 0x8007, 0x8009, 0x800B, 0x800D].map fun i =>
    units (sumNat ((heldRows p i).map (rowBytes s i))))
  let plain := p.filter fun q => q.1 % 2 ^ 33 == 2 ^ 32
  let isDom (k : Nat) : Bool := match findObj (k / 2 ^ 41) (k / 2 ^ 33 % 256) with
    | some o => o.ty.isDom
    | none => false
  let doms := sumNat (plain.map fun q => if isDom q.1 then units q.2.raw.length else 0)
  let rest := sumNat (plain.map fun q => if isDom q.1 then 0 else 16 + (match findObj (q.1 / 2 ^ 41) (q.1 / 2 ^ 33 % 256) with
    | some o => (q.2.encode o.ty).length
    | none => 0))
  rows + doms + units rest

/-- Highest and lowest write count of the 4,352 physical blocks (R456, R457). -/
def wearMax (s : State) : Nat := s.store.wear.foldl (fun a q => max a q.2) 0
def wearMin (s : State) : Nat :=
  if s.store.wear.length < 4352 then 0 else s.store.wear.foldl (fun a q => min a q.2) (wearMax s)

/-! ### Status fields of the rows -/

/-- Device address of a block that a context holds. -/
def slotAddr (s : State) (x : Option Slot) : Nat :=
  match x with
  | some x => (s.pool.desc x.block).addr
  | none => 0

def encCode : EncState → Nat
  | .stopped => 0
  | .waitPool => 1
  | .starting => 2
  | .running => 3
  | .cold => 4

/-- Status fields of an encode stream row (R244, R359). A valid row that has no context frames yet waits for them: 1 (R247). -/
def encStatus (s : State) (n sub : Nat) : Nat :=
  let e := s.enc n
  if sub = 0x2A then e.rtpSeq.toNat
  else if sub = 0x2B then e.packets.toNat
  else if sub = 0x2C then
    (minBy (fun x => x) ((validRows s 0x8005).filter fun x => fld s 0x8005 x 2 == n)).getD 0xFFFFFFFF
  else if sub = 0x30 then (if e.state = .stopped ∧ encValid s n ∧ serves s then 1 else encCode e.state)
  else if sub = 0x31 then e.pictures.toNat
  else if sub = 0x32 then e.missBusy.toNat
  else if sub = 0x33 then e.missOver.toNat
  else if sub = 0x34 then e.missPool.toNat
  else if sub = 0x35 then e.refsLost.toNat
  else if sub = 0x36 then e.lostBlocks.toNat
  else if sub = 0x37 then slotAddr s e.frames[0]?
  else if sub = 0x38 then slotAddr s e.frames[1]?
  else if sub = 0x39 then (if e.frames.isEmpty then 0 else slotAddr s e.frames[0]? + sealOffset)
  else b2n (isResident s n e)

/-- Status fields of a decode row (R283, R284). -/
def decStatus (s : State) (c sub : Nat) : Nat :=
  let e := s.dec c
  if sub = 0x30 then decCode e.state
  else if sub = 0x31 then e.picSize.toNat
  else if sub = 0x32 then e.info.toNat
  else if sub = 0x40 then slotAddr s e.frames[0]?
  else (lookD 0 e.counters sub).toNat

/-- Status fields of an endpoint row (R334, R360). -/
def epStatus (s : State) (e sub : Nat) : PVal :=
  let p := s.ep e
  if sub = 0x30 then .num (b2n p.present)
  else if sub = 0x31 then .num (if epValid s e then min ((s.clk.now - p.lastReport) / 1000000) 0xFFFFFFFF else 0)
  else if sub = 0x32 then .num p.lastSeal.toNat
  else if sub = 0x33 then .num p.matched.toNat
  else if sub = 0x34 then .num p.mismatched.toNat
  else if sub = 0x35 then .num p.unchecked.toNat
  else if sub = 0x36 then .num p.sent.toNat
  else if sub = 0x37 then .num p.dropped.toNat
  else if sub = 0x38 then .num p.loss.toNat
  else if sub = 0x39 then .num p.jitter.toNat
  else if sub = 0x40 then .bytes (be 6 (epMac s e).toNat)
  else .num p.port.toNat

/-- Status fields of a row. -/
def rowStatus (s : State) (idx sub row : Nat) : PVal :=
  if idx = 0x8001 then .num (encStatus s row sub)
  else if idx = 0x8003 then .num (decStatus s row sub)
  else if idx = 0x8005 then epStatus s row sub
  else if idx = 0x8007 then
    let q := s.queue row
    if sub = 0x30 then .num q.depth else if sub = 0x31 then .num q.sent.toNat
    else if sub = 0x32 then .num q.bytes else .num q.dropped.toNat
  else
    let p := s.portNode row
    if sub = 0x30 then .num p.sent.toNat else .num p.bytes

/-! ### Cursors (R78) -/

/-- Rows of a fixed table that are always valid (R348). -/
def fixedRows (idx : Nat) : List Nat :=
  if idx = 0x8007 then (List.range 4).map (· + 65400) ++ (List.range 128).map (· + 65408)
  else if idx = 0x8009 then (List.range 20).map (· + 16364)
  else if idx = 0x800B then (List.range 20).map (· + 1004)
  else if idx = 0x800D then List.range 20
  else []

/-- `NEXT_VALID` and `VALID_COUNT`. -/
def nextValid (s : State) (idx : Nat) (row : Word) : Nat :=
  let from_ := if row = 0xFFFFFFFF then 0 else row.toNat + 1
  (minBy (fun x => x) ((storedRows s idx ++ fixedRows idx).filter fun r => decide (from_ ≤ r))).getD 0xFFFFFFFF
def validCount (s : State) (idx : Nat) : Nat := (storedRows s idx ++ fixedRows idx).length

/-- A session's `ROW`. -/
def SessState.row (v : SessState) (t : Nat) : Word := lookD 0xFFFFFFFF v.rows t

/-- The number of rows of a cursor object. -/
def cursorRows (idx : Nat) : Option Nat := (cursors.find? fun c => c.1 == idx).map (·.2)

/-! ### Values of the objects the device sets -/

/-- 0x2053 (R457): ranks present as a number. -/
def ddrWord (d : Ddr) : Nat :=
  let o (x : Option Nat) : Nat := x.getD 0xF
  d.ranks + o d.spare * 16 + o d.retired * 256 + o d.migrating * 4096 + d.failed.toNat * 65536

/-- 0x2054 (R457). -/
def hbmWord (v : Stack) : Nat := v.replaced.getD (v.copying.getD 0x1F) + 32 * b2n v.copying.isSome

/-- One entry of the fault log as bytes (R422, R466). -/
def LogEntry.bytes (e : LogEntry) : Bytes :=
  le 2 e.source.toNat ++ le 2 e.master.toNat ++ le 4 e.seq.toNat ++ stamp e.seconds.toNat e.nanos.toNat 0 0 ++ slice e.detail 0 40

/-- An ageing margin, 0xFF for a unit not measured (R478). -/
def marginOf (s : State) (u : HwUnit) : Nat := match alook s.faults.margins u with
  | some m => m.toNat
  | none => 0xFF

/-- Active levels of the sixteen cabinet inputs (0x7060:01). -/
def gpioIn (s : State) : Nat :=
  (List.range 16).foldl (fun a n => a + b2n (gpioActive s n (s.faults.gpio.getLsbD n)) * 2 ^ n) 0

/-- Mirror lag in µs (R492). -/
def mirrorLag (s : State) : Nat := match s.pair.unconfirmed with
  | [] => 0
  | q :: _ => (s.clk.now - q.2) / 1000

/-- Packets that hold a generation no longer active (R324). -/
def heldOld (s : State) : Nat := sumNat (s.selv.oldGens.map (·.held))

/-- The results of a session's MAC command (R333). -/
def macField (a : MacArgs) (sub : Nat) : PVal :=
  if sub = 2 then .num a.vlan.toNat
  else if sub = 3 then .bytes (be 6 a.mac.toNat)
  else if sub = 4 then .num a.dest.toNat
  else if sub = 5 then .num (b2n a.static)
  else if sub = 6 then .num a.outcome.toNat
  else if sub = 7 then .bytes (be 6 a.fMac.toNat)
  else if sub = 8 then .num a.fVlan.toNat
  else if sub = 9 then .num a.fDest.toNat
  else if sub = 10 then .num a.fFlags.toNat
  else if sub = 11 then .num a.fAge.toNat
  else if sub = 12 then .num a.removed.toNat
  else .num a.pos.toNat

/-- The values of a session's prefix command (R336). -/
def lpmField (a : LpmArgs) (sub : Nat) : PVal :=
  if sub = 2 then .bytes (be 16 a.pre.toNat)
  else if sub = 3 then .num a.len.toNat
  else if sub = 4 then .bytes (be 16 a.hop.toNat)
  else if sub = 5 then .num a.vlan.toNat
  else if sub = 6 then .num a.action.toNat
  else if sub = 7 then .num a.outcome.toNat
  else .num a.pos.toNat

/-- Boot, power, store and memory (0x1000 to 0x2FFF). -/
def roLow (s : State) (idx sub : Nat) : PVal :=
  if idx = 0x1001 then .num (errRegister s).toNat
  else if idx = 0x100A then
    .bytes (if s.boot.newt then [0x6E, 0x65, 0x77, 0x74] else (Config.versionText s.boot.version).take 255)
  else if idx = 0x1018 then
    .num (if sub = 3 then 0x0B01 * 65536 + Config.dictRevision.toNat else if sub = 4 then Config.serial.toNat
      else if sub = 6 then (if s.boot.newt then 0 else s.boot.version.toNat) else Config.bootRom.toNat)
  else if idx = 0x1FD2 then
    .num (if sub = 1 then s.paths.received.toNat else if sub = 2 then s.paths.dropped.toNat else s.paths.evicted.toNat)
  else if idx = 0x2010 then
    .num (if sub = 1 then s.boot.cause.toNat else if sub = 2 then s.boot.outcome.toNat else if sub = 3 then s.boot.countAtStart.toNat
      else if sub = 4 then s.store.starts.toNat else if sub = 5 then s.boot.ptpAtStart.toNat
      else if sub = 6 then s.store.brownouts.toNat else s.store.torn.toNat)
  else if idx = 0x2014 then .num (if sub = 1 then b2n s.pins.serviceN else s.boot.presses.toNat)
  else if idx = 0x2030 then
    .num (if sub = 1 then s.dict.lastSeq.toNat else if sub = 2 then s.dict.lastTag.toNat else if sub = 3 then s.dict.lastObj.toNat
      else if sub = 4 then s.dict.refused.toNat else s.dict.busy.toNat)
  else if idx = 0x2040 then
    .num (if sub = 1 then s.store.spares else if sub = 2 then wearMax s else if sub = 3 then wearMin s
      else if sub = 4 then s.store.blocksRetired else if sub = 5 then imageUnits s else if sub = 7 then b2n s.store.readOnly
      else s.store.diverged)
  else if idx = 0x2051 then
    .num (if sub = 1 then (if s.boot.hbm then hbmEnd - hbmBase else 0) else if sub = 2 then s.mem.ddrBytes
      else if sub = 3 then s.mem.ddrUnused
      else lookD 0 s.mem.counters sub)
  else if idx = 0x2053 then .num (ddrWord (s.ddr (sub - 1)))
  else if idx = 0x2054 then .num (hbmWord (s.hbm (sub - 1)))
  else if idx = 0x2061 then .num (lookD 0xFFFFFFFF s.mem.regs2061 sub).toNat
  else .num 0

/-- Selvedge, composition, codec and time (0x3000 to 0x6FFF). -/
def roMid (s : State) (idx sub : Nat) : PVal :=
  if idx = 0x3001 then .bytes (be 6 Config.baseMac.toNat)
  else if idx = 0x3031 then
    .num (if sub = 2 then s.selv.active.num else if sub = 3 then b2n s.selv.standby.isSome else if sub = 4 then heldOld s
      else if sub = 5 then le32 s.selv.active.image 0x10 else treeWords s.selv)
  else if idx = 0x3070 then .num (lookD 0 s.selv.counters sub)
  else if idx = 0x3081 then .num (lookD 0 s.trans.counters sub)
  else if idx = 0x4021 then .num (lookD 0 s.batten.touchCount sub).toNat
  else if idx = 0x4030 then .num (lookD 0 s.batten.compCount sub).toNat
  else if idx = 0x5031 then
    .num (if sub = 1 then s.pool.frames false else if sub = 2 then freeFrames s.pool false else if sub = 3 then s.pool.frames true
      else if sub = 4 then freeFrames s.pool true else lookD 0 s.pool.counters sub)
  else if idx = 0x5F01 then
    .num (if sub = 2 then u8 (storedV s 0x5F00 0).raw 0xE
      else if sub = 3 then ((List.range 64).filter fun k =>
        encPhys s k != 0xFF && (s.tile (encPhys s k)).treadle.patch == 1 && !(parBytes s 0x5F00 0).isEmpty).length
      else lookD 0 s.totals (totKey idx sub))
  else if idx = 0x5011 ∨ idx = 0x5021 ∨ idx = 0x5041 then .num (lookD 0 s.totals (totKey idx sub))
  else if idx = 0x6030 then .num (lookD 0 s.time.counters sub)
  else .num 0

/-- Faults, wear, cabinet, pair and rings (0x7000 to 0x7FFF). -/
def roHigh (s : State) (idx sub : Nat) : PVal :=
  let f := s.faults
  if idx = 0x7011 then
    let l := f.lastFatal
    .num (if sub = 1 then l.kind.toNat else if sub = 2 then l.master.toNat else if sub = 3 then l.access.toNat
      else if sub = 4 then l.addr.toNat else if sub = 5 then l.seconds.toNat else l.nanos.toNat)
  else if idx = 0x7012 then
    .num (if sub = 1 then f.correctedAll else if sub = 2 then f.containedAll else if sub = 3 then s.store.fatals
      else if sub = 4 then f.overflowAll else if sub = 5 then f.selfTestFails else f.beyondList)
  else if idx = 0x7020 then .bytes (s.store.faultLog.flatMap LogEntry.bytes)
  else if idx = 0x7041 then .num (encPhys s (sub - 1))
  else if idx = 0x7042 then .num (decPhys s (sub - 1))
  else if idx = 0x7043 then .num (enginePhys s (sub - 1))
  else if idx = 0x7044 then .num (corePhys s (sub - 1))
  else if idx = 0x7045 then .num (laneState s (sub - 1))
  else if idx = 0x7047 then .num (marginOf s (.encTile (Fin.ofNat 72 (sub - 1))))
  else if idx = 0x7048 then .num (marginOf s (.decTile (Fin.ofNat 40 (sub - 1))))
  else if idx = 0x7049 then .num (marginOf s (.engine (Fin.ofNat 9 (sub - 1))))
  else if idx = 0x704A then .num (marginOf s (.core (Fin.ofNat 18 (sub - 1))))
  else if idx = 0x7050 then .num (twos 16 (if sub = 1 then f.tj else f.tjMax))
  else if idx = 0x7060 then .num (if sub = 1 then gpioIn s else f.stuck.toNat)
  else if idx = 0x7062 then .num (lookD 0 f.chatter (sub - 1)).toNat
  else if idx = 0x7071 then
    .num (if sub = 1 then roleCode s.pair.role else if sub = 2 then s.pair.epoch.toNat else if sub = 3 then b2n (healthy s)
      else if sub = 4 then pairLinks s else if sub = 5 then b2n s.pair.aliveIn
      else if sub = 6 then (match s.pair.partner with | some c => c.serial.toNat | none => 0)
      else if sub = 7 then mirrorLag s else s.pair.progress.toNat)
  else if idx = 0x7072 then .num (lookD 0 s.pair.counters sub)
  else .num s.rings.rejected

/-- The value of an object that the device sets. -/
def roVal (s : State) (idx sub row : Nat) : PVal :=
  if idx < 0x3000 then roLow s idx sub
  else if idx < 0x7000 then roMid s idx sub
  else if idx < 0x8000 then roHigh s idx sub
  else rowStatus s idx sub row

/-- The value a session's read finds (R72, R78, R79, R333, R336): a state bank's is the live one (R83, R139). -/
def objVal (s : State) (se : Session) (o : Obj) (idx sub : Nat) (row : Option Nat) : PVal :=
  if idx = 0x3040 ∧ sub ≠ 0 then macField (s.sess se).mac sub
  else if idx = 0x3050 ∧ sub ≠ 0 then lpmField (s.sess se).lpm sub
  else if 0x4800 ≤ idx ∧ idx ≤ 0x4BFF ∧ sub ≠ 0 then .num (lookD 0 s.batten.banks (64 * (idx - 0x4800) + (sub - 1))).toNat
  else match o.cls, row with
    | .ro, _ => roVal s idx sub (row.getD 0)
    | .const, _ => if sub = 0 ∨ idx < 0x8000 then o.dflt else .num 1
    | _, some r => storedRow s idx sub r
    | _, none => storedV s idx sub

/-- A cursor's value (R78). -/
def cursorVal (s : State) (se : Session) (t rows sub : Nat) : Nat :=
  let row := (s.sess se).row t
  if sub = 0 then 4 else if sub = 1 then row.toNat else if sub = 2 then rows
  else if sub = 3 then nextValid s (t + 1) row else validCount s (t + 1)

end Sys2Proof.Machine
end

