-- ==== Sys2Proof/Machine/Firmware.lean ====
section
/-! DEFINITION. Firmware images and the boot flash (R44, R45, R63). The flash is kept as the complement of its bytes: an unlisted
byte of a blank flash reads 0xFF (PRESUMED: NOR flash as made). -/

namespace Sys2Proof.Machine

/-- Bytes of the flash. -/
def flashBytes (st : Store) (a n : Nat) : Bytes := (bytesAt st.flash a n).map (~~~ ·)
def Store.program (st : Store) (a : Nat) (b : Bytes) : Store := { st with flash := setBytes st.flash a (b.map (~~~ ·)) }

/-- A slot's directory entry (R44); 0xFFFF_FFFF is empty. -/
def slotEntry (st : Store) (slotB : Bool) : Nat := leNat (flashBytes st (if slotB then 4 else 0) 4)
def Store.setEntry (st : Store) (slotB : Bool) (v : Nat) : Store := st.program (if slotB then 4 else 0) (le 4 v)

/-- Where a slot is programmed: its directory offset, which a programming under way keeps while the entry is empty (R63), or the place of
an empty slot, which the spec does not give. -/
def slotOffset (s : State) (slotB : Bool) : Nat :=
  match s.boot.slots.find? fun p => p.slotB == slotB with
  | some p => p.off
  | none => if slotEntry s.store slotB = 0xFFFFFFFF then Config.slotOffset slotB else slotEntry s.store slotB

/-- Space from a slot's offset to the next slot, or to the end of the flash (R63). -/
def slotSpace (s : State) (slotB : Bool) : Nat :=
  let o := slotOffset s slotB
  let other := slotOffset s (!slotB)
  (if o < other then other else Config.flashSize) - o

/-- The header of an image passes every check of R45 but its CRC and extent. -/
def headerOk (b : Bytes) : Bool :=
  le32 b 0 == 0x50594657 && le32 b 4 % 4096 == 0 && decide (0 < le32 b 4) && decide (le32 b 4 ≤ 2097152) &&
    decide (le32 b 8 < le32 b 4) && zeroRange b 0x14 44

/-- A byte string that begins with an image holds it whole and valid (R45). -/
def imageValid (b : Bytes) : Bool :=
  headerOk b && decide (le32 b 4 ≤ b.length) && crcZeroed (b.take (le32 b 4)) 0x10 == le32 b 0x10

/-- The check of a written firmware domain (R63): exactly `LENGTH` bytes. -/
def firmwareOk (b : Bytes) : Bool := imageValid b && decide (b.length = le32 b 4)

/-- The image in a flash slot, if its directory entry is set and it is valid (R44, R45). -/
def slotImage (st : Store) (slotB : Bool) : Option Bytes :=
  let o := slotEntry st slotB
  if o = 0xFFFFFFFF then none
  else
    let h := flashBytes st o 64
    if headerOk h then
      let b := flashBytes st o (le32 h 4)
      if imageValid b then some b else none
    else none

/-- `VERSION` of an image. -/
def imageVersion (b : Bytes) : Word := BitVec.ofNat 32 (le32 b 0xC)

end Sys2Proof.Machine
end

