-- ==== Sys2Proof/Machine/DictCheck.lean ====
section
/-! DEFINITION. Which writes of the dictionary are refused, and with which status (R16, R69 to R89, R98, R454, R493). -/

namespace Sys2Proof.Machine

/-! ### Status codes (R89) -/

abbrev Status := BitVec 8

def stOk : Status := 0x00
def stNoObject : Status := 0x01
def stNoSub : Status := 0x02
def stReadOnly : Status := 0x03
def stWriteOnly : Status := 0x04
def stLength : Status := 0x05
def stRange : Status := 0x06
def stNotAvailable : Status := 0x07
def stPowerFail : Status := 0x08
def stCursor : Status := 0x09
def stBusy : Status := 0x0A
def stStoreFault : Status := 0x0B
def stDomainInvalid : Status := 0x0C
def stSequence : Status := 0x0D
def stGroupAborted : Status := 0x0E
def stMalformed : Status := 0x0F

/-- The USDO abort code of a refusal (R89). -/
def abortCode (st : Status) : Nat :=
  [0, 0x06020000, 0x06090011, 0x06010002, 0x06010001, 0x06070010, 0x06090030, 0x08000022, 0x08000020, 0x08000021, 0x05040005,
    0x06060000, 0x06090030, 0x05040003, 0x08000000, 0x05040001].getD st.toNat 0

/-! ### Values (R16, R70, R71) -/

/-- A number lies in its object's range. -/
def Rng.ok (r : Rng) (bits n : Nat) : Bool :=
  match r with
  | .any => true
  | .btw lo hi => decide (lo ≤ n) && decide (n ≤ hi)
  | .among l => l.contains n
  | .sgn lo hi => decide (lo ≤ sext bits n) && decide (sext bits n ≤ hi)

/-- A written byte string as a value of an object's type (R71), or the refusal. -/
def decodeVal (o : Obj) (b : Bytes) : Except Status PVal :=
  match o.ty with
  | .dom n => if b.length ≤ n then .ok (.bytes b) else .error stLength
  | .str n =>
    if n < b.length then .error stLength
    else if b.all fun x => decide (0x20 ≤ x.toNat) && decide (x.toNat ≤ 0x7E) then .ok (.bytes b) else .error stRange
  | .oct n => if b.length = n then .ok (.bytes b) else .error stLength
  | ty =>
    let k := ty.size.getD 0
    let n := leNat b
    if b.length ≠ k then .error stLength
    else if ty = .bool ∧ 1 < n then .error stRange
    else if o.rng.ok (8 * k) n then .ok (.num n) else .error stRange

/-! ### Where the functions do not run (R55) -/

/-- Objects of functions that do not run in Newt mode: touch, layouts, fonts, texts, banks, Treadle patches, and the stream rows. -/
def notInNewt (idx : Nat) : Bool :=
  (decide (0x4020 ≤ idx) && decide (idx ≤ 0x4021)) || (decide (0x4100 ≤ idx) && decide (idx ≤ 0x4BFF)) || idx == 0x5040 || idx == 0x5041 ||
    idx == 0x5F00 || idx == 0x5F01 || (decide (0x8000 ≤ idx) && decide (idx ≤ 0x8005))

/-- Device-local objects (R489); action objects that act on a session's own values stay on their device as well. -/
def isLocal (idx sub : Nat) : Bool :=
  idx == 0x1FD0 || idx == 0x1FD1 || (idx == 0x3002 && decide (6 ≤ sub) && decide (sub ≤ 9)) || idx == 0x2001 ||
    (decide (0x2011 ≤ idx) && decide (idx ≤ 0x2013)) || idx == 0x2020 || (idx == 0x2050 && sub == 1) || idx == 0x2052 ||
    (idx == 0x5030 && sub == 5) || idx == 0x7031 || idx == 0x6013 || idx == 0x6015 || idx == 0x6022 || idx == 0x7070 ||
    idx == 0x3040 || idx == 0x3050

/-! ### Locating an object (R69, R72, R75, R79) -/

/-- An operation as it is issued, with the row recorded earlier where it was issued before it arrives (R79, R493, R521). -/
structure DOp where
  code  : Nat
  idx   : Nat
  sub   : Nat
  off   : Nat := 0
  data  : Bytes := []
  room  : Nat := 4294967296
  atRow : Option Word := none

/-- The session's row for a row object, `none` inside for any other object; refused with `CURSOR` when no row is selected. -/
def rowAt (s : State) (se : Session) (d : DOp) : Except Status (Option Nat) :=
  match rowsOf d.idx with
  | none => .ok none
  | some _ =>
    let r := d.atRow.getD ((s.sess se).row (d.idx - 1))
    if r = 0xFFFFFFFF then .error stCursor else .ok (some r.toNat)

/-- Row writes that are refused with `READ_ONLY`: fixed and reserved rows (R348), the clock-face row (R246). -/
def rowReadOnly (s : State) (idx sub row : Nat) : Bool :=
  ((fixedParent idx row).isSome && (sub == 1 || sub == 2)) || (idx == 0x8007 && decide (65404 ≤ row) && decide (row ≤ 65407)) ||
    (idx == 0x8001 && row == 0 && clockOn s)

/-- The object and row of an operation that is no cursor operation, or the refusal. -/
def locate (s : State) (se : Session) (d : DOp) : Except Status (Obj × Option Nat) :=
  if !(hasIndex d.idx) then .error stNoObject
  else match findObj d.idx d.sub with
    | none => .error stNoSub
    | some o =>
      let dom := o.ty.isDom
      let read := d.code == 1
      if !(d.code == 1 || d.code == 2 || d.code == 3) || (!dom && (d.off != 0 || d.code == 3)) then .error stMalformed
      else if s.boot.newt && notInNewt d.idx && (read || o.cls != .rwp) then .error stNotAvailable
      else match rowAt s se d with
        | .error e => .error e
        | .ok row =>
          if read then
            (if o.cls = .wo ∨ o.cls = .act then .error stWriteOnly else .ok (o, row))
          else if o.cls = .const ∨ o.cls = .ro then .error stReadOnly
          else if rowReadOnly s d.idx d.sub (row.getD 0) && row.isSome then .error stReadOnly
          else .ok (o, row)

/-! ### The dictionary as it will stand -/

/-- Put a value into the parameters; a default takes no place. -/
def State.putParam (s : State) (idx sub : Nat) (row : Option Nat) (v : PVal) : State :=
  let k := pkey idx sub row
  let d := match row with
    | some r => dfltRow s idx sub r
    | none => dfltV s idx sub
  { s with dict := { s.dict with params := if v = d then del s.dict.params k else put s.dict.params k v } }

/-- Entries accepted and not yet applied, in order. -/
def pendingEntries (s : State) : List JEntry :=
  s.dict.waiting.flatMap (·.entries) ++ (match s.dict.openRec with
    | some r => r.entries
    | none => [])

/-- A parameter that the journal replays. -/
def isRwp (idx sub : Nat) : Bool := match findObj idx sub with
  | some o => decide (o.cls = .rwp)
  | none => false

/-- The parameters with every pending write applied: what a later write is checked against. -/
def ahead (s : State) : State :=
  (pendingEntries s).foldl (fun s e =>
    if isRwp e.idx.toNat e.sub.toNat then s.putParam e.idx.toNat e.sub.toNat (e.row.map (·.toNat)) e.val else s) s

/-! ### Ranges that other values bound (R16, R167, R198, R244, R258, R275, R283, R325, R354, R359) -/

def sf (s : State) (idx row sub : Nat) : Nat := (storedRow s idx sub row).nat
def sp (s : State) (idx sub : Nat) : Nat := (storedV s idx sub).nat

/-- A surface handle field: [31:24] 0, or 0xFFFF_FFFF for none. -/
def handleForm (n : Nat) : Bool := decide (n < 2 ^ 24) || n == 0xFFFFFFFF

/-- An encode row within the ranges that its fields bound. -/
def encRowOk (s : State) (n : Nat) : Bool :=
  let f := sf s 0x8001 n
  let nbits := f 0xA * f 5 / 27000000
  f 3 % 8 == 0 && f 4 % 8 == 0 && decide (f 6 < f 5) && (f 0xB == 0 || decide (2 * nbits ≤ f 0xB)) && decide (f 0xC ≤ f 0xD) &&
    decide (f 0xD ≤ (if f 2 < 2 then 51 else 63)) && handleForm (f 0x12) && f 0x23 != sp s 0x1FD1 1 && f 0x23 != sp s 0x4020 1

/-- A decode row: sizes even, a handle in form and range, and while valid a key and a handle of its own, and a place among the 64
ST 2110-20 rows; a destination, when `ROW_VALID` is written as 1 (R283). -/
def decRowOk (s : State) (c sub : Nat) : Bool :=
  let f := sf s 0x8003 c
  let b (k : Nat) (r : Nat) : Bytes := (storedRow s 0x8003 k r).raw
  let others := (storedRows s 0x8003).filter (· != c)
  let key (r : Nat) : Nat × Bytes × Nat × Bytes := (sf s 0x8003 r 6, b 3 r, sf s 0x8003 r 4, b 5 r)
  f 0x11 % 2 == 0 && f 0x12 % 2 == 0 && handleForm (f 0xD) &&
    (f 1 == 0 ||
      ((sub != 1 || 4 ≤ f 2 || !(isZero (b 3 c))) &&
       (4 ≤ f 2 || !(others.any fun r => decide (sf s 0x8003 r 2 < 4) && decide (key r = key c))) &&
       (f 0xD == 0xFFFFFFFF || !(others.any fun r => sf s 0x8003 r 0xD == f 0xD)) &&
       (f 2 != 3 || decide ((others.filter fun r => sf s 0x8003 r 2 == 3).length < 64))))

/-- Whether a valid child names a scheduler node (R354). -/
def hasChild (s : State) (idx row : Nat) : Bool :=
  let child := idx - 2
  (storedRows s child ++ fixedRows child).any fun r => sf s child r 2 == row

/-- A plain parameter or row after a write, by the ranges that other values bound. -/
def boundsOk (s : State) (idx sub : Nat) (row : Option Nat) (v : PVal) : Bool :=
  match row with
  | some r =>
    if idx = 0x8001 then encRowOk s r
    else if idx = 0x8003 then decRowOk s r sub
    else if idx = 0x8005 then sub != 0x21 || decide (v.nat ≤ 65399) || v.nat == 0xFFFFFFFF
    else if idx = 0x8009 ∨ idx = 0x800B then !(sub == 1 && v.nat == 0 && hasChild s idx r)
    else true
  | none =>
    if idx = 0x5030 ∧ sub ≤ 2 then decide (sp s 0x5030 1 < sp s 0x5030 2)
    else if idx = 0x3040 ∧ sub = 13 then decide (v.nat < 266240) || v.nat == 0xFFFFFFFF
    else if idx = 0x3050 ∧ sub = 8 then decide (v.nat < 16384) || v.nat == 0xFFFFFFFF
    else if idx = 0x7031 then (match codeUnit s v.nat with
      | some u => (spareFor s u).isSome
      | none => false)
    else true

/-! ### Domains and actions -/

/-- The check of a VLAN table (R327). -/
def vlanOk (b : Bytes) : Bool :=
  decide (b.length = 32768) && (List.range 4096).all fun i => u8 b (8 * i + 4) / 8 == 0 && zeroRange b (8 * i + 5) 3

/-- The owner's check of a closed domain (R98): the status of its refusal. -/
def domainCheck (s : State) (idx sub : Nat) (b : Bytes) : Status :=
  let inv (ok : Bool) : Status := if ok then stOk else stDomainInvalid
  if idx = 0x3020 then inv (vlanOk b)
  else if idx = 0x3030 then
    if s.selv.oldGens.any fun g => decide (0 < g.held) then stBusy
    else inv (rulesetOk b && decide (imageWords b + treeWords s.selv ≤ 262144))
  else if 0x4100 ≤ idx ∧ idx ≤ 0x41FF then inv (layoutOk b)
  else if 0x4300 ≤ idx ∧ idx ≤ 0x430F then inv (fontOk b)
  else if 0x4600 ≤ idx ∧ idx ≤ 0x47FF then inv (textOk b)
  else if idx = 0x5F00 then inv (patchOk b)
  else if idx = 0x2020 then
    if !(firmwareOk b) then stDomainInvalid
    else if slotSpace s (sub == 2) < b.length then stLength else stOk
  else stOk

/-- An action whose function cannot act now (R56, R371, R500). -/
def actionAvailable (s : State) (idx sub : Nat) : Bool :=
  if idx = 0x2013 then s.boot.newt
  else if idx = 0x6013 then !(decide (s.time.mode = .slave) || decide (s.time.mode = .passive))
  else if idx = 0x7070 ∧ sub = 3 then healthy s
  else true

/-- A write whose value is decoded, against the dictionary `t` as it will stand with the write in place: the status. -/
def judgeWrite (s t : State) (o : Obj) (idx sub : Nat) (row : Option Nat) (v : PVal) : Status :=
  if !(actionAvailable s idx sub) then stNotAvailable
  else if !(boundsOk t idx sub row v) then stRange
  else
    let st := if o.ty.isDom then domainCheck s idx sub v.raw else stOk
    if st ≠ stOk then st
    else if s.store.readOnly then stStoreFault
    else if o.cls = .rwp ∧ 100064 < imageUnits t then stStoreFault
    else stOk

/-! ### Room in the journal (R451, R453) -/

/-- Bytes of a value in its entry: a domain enters as its length and CRC. -/
def entryValue (e : JEntry) : Bytes :=
  match findObj e.idx.toNat e.sub.toNat with
  | some o => if o.ty.isDom then le 4 e.val.raw.length ++ le 4 (crc32c e.val.raw).toNat else e.val.encode o.ty
  | none => []

/-- A length filled up to a multiple of four. -/
def pad4 (n : Nat) : Nat := (n + 3) / 4 * 4
/-- An entry as a record holds it (R451). -/
def journalEntry (e : JEntry) : Bytes :=
  let v := entryValue e
  le 8 e.seq.toNat ++ le 1 e.tag.toNat ++ zeros 1 ++ le 2 v.length ++ le 2 e.idx.toNat ++ le 1 e.sub.toNat ++ zeros 1 ++
    le 4 (match e.row with | some r => r.toNat | none => 0xFFFFFFFF) ++ padTo 4 v
/-- Bytes of a record before it is filled up: the header and its entries. -/
def recordSize (l : List JEntry) : Nat := 32 + sumNat (l.map fun e => (journalEntry e).length)
/-- A journal record as each of its three copies holds it (R451): whole 512-byte units. -/
def journalRecord (r : JRecord) : Bytes :=
  let n := 512 * units (recordSize r.entries)
  let image (crc : Nat) : Bytes :=
    slice (le 4 0x4A524E4C ++ le 2 n ++ le 2 r.entries.length ++ le 8 (match r.entries with | e :: _ => e.seq.toNat | [] => 0) ++ le 8 r.time.toNat ++
      zeros 4 ++ le 4 crc ++ r.entries.flatMap journalEntry) 0 n
  image (crc32c (image 0)).toNat
/-- A copy of a record is intact when its `MAGIC`, `LENGTH`, `CRC` and `SEQ` verify (R452). -/
def journalIntact (b : Bytes) (seq : Nat) : Bool :=
  le32 b 0 == 0x4A524E4C && le16 b 4 == b.length && le64 b 8 == seq && crcZeroed b 0x1C == le32 b 0x1C

/-- Bytes of the 1 MiB ring taken by records that are written or wait. -/
def ringUsed (s : State) : Nat :=
  sumNat ((s.store.journal ++ s.dict.waiting ++ s.dict.openRec.toList).map fun r => 512 * units (recordSize r.entries))

end Sys2Proof.Machine
end

