-- ==== Sys2Proof/Machine/DictServer.lean ====
section
/-! DEFINITION. The dictionary server (R74, R79, R82 to R88, R93 to R101, R493, R520): requests in the intake, their operations, entries
of the open journal record, answers. -/

namespace Sys2Proof.Machine

/-! ### Sessions and requests -/

/-- Path tag of a session (R82). -/
def pathTag : Session → BitVec 8
  | .can _ => 1
  | .dgram _ _ front => if front then 3 else 2
  | .bar2 => 4
  | .firmware => 5

def State.req (s : State) (id : Nat) : Option Req := s.dict.reqs.find? fun r => r.id == id
def State.setReq (s : State) (id : Nat) (f : Req → Req) : State :=
  { s with dict := { s.dict with reqs := s.dict.reqs.map fun r => if r.id = id then f r else r } }

/-- End an operation with its status; a refused write is counted (R88). -/
def State.endOp (s : State) (id k : Nat) (st : Status) (value : Bytes := []) : State :=
  match (s.req id).bind (·.ops[k]?) with
  | none => s
  | some o =>
    if o.status.isSome then s
    else
      let s1 := s.setReq id fun r => { r with ops := r.ops.set k { o with status := some st, value := value } }
      if o.code ≠ 1 ∧ st ≠ stOk then { s1 with dict := { s1.dict with refused := s1.dict.refused + 1 } } else s1

/-- The status of the first operation that is not `OK` (R93). -/
def Req.status (r : Req) : Status := ((r.ops.filterMap (·.status)).find? (· != stOk)).getD stOk

/-! ### Answers (R90, R95, R97, R100) -/

/-- A datagram with its length and trailer (R93, R94). -/
def dgramBytes (kind : Nat) (reqId : Word) (ops : List Bytes) (flags : Nat) (st tag : BitVec 8) : Bytes :=
  let body := ops.flatMap (padTo 4)
  let head := [0xD1, 0x7D, 0x01, BitVec.ofNat 8 kind] ++ le 4 reqId.toNat ++ le 2 (16 + body.length + 4) ++ le 1 ops.length ++
    le 1 flags ++ [st, tag, 0, 0]
  head ++ body ++ le 4 (crc32c (head ++ body)).toNat

/-- One operation of a response (R94, R95). -/
def opBytes (o : ReqOp) : Bytes :=
  le 1 o.code.toNat ++ le 1 o.sub.toNat ++ le 2 o.idx.toNat ++ le 4 o.off ++ le 2 o.value.length ++ [o.status.getD stOk, 0] ++ o.value

/-- Send a datagram answer, once and again for each repeat that arrived meanwhile, and remember it among the last 16 (R95, R97); one
refused whole with `BUSY` is not remembered (R87). -/
def State.answerDgram (s : State) (r : Req) (reqId : Word) (keep : Bool) : State :=
  match r.se with
  | .dgram ip port front =>
    let b := dgramBytes 0x81 reqId (r.ops.map opBytes) 0 r.status r.tag
    let times := match s.paths.sessions.find? fun q => decide (q.se = r.se) with
      | some q => 1 + ((q.running.find? fun x => x.1 == reqId).map (·.2)).getD 0
      | none => 1
    let s1 : State := { s with out := s.out ++ List.replicate times (.datagram front ip port b) }
    { s1 with paths := { s1.paths with sessions := s1.paths.sessions.map fun q =>
        if q.se = r.se then
          let kept := q.answers ++ [(reqId, b)]
          { q with answers := if keep then kept.drop (kept.length - 16) else q.answers, running := q.running.filter fun x => x.1 != reqId }
        else q } }
  | _ => s

/-- End a BAR2 request: data and length of a read, `DW_CODE` before `DW_DONE` (R100). -/
def State.endBar2 (s : State) (st : Status) (read : Bool) (value : Bytes) : State :=
  let d := s.bar2
  State.settleInts { s with bar2 := { d with
    data := if read && st == stOk then setBytes d.data 0 value else d.data
    len := if read && st == stOk then BitVec.ofNat 13 value.length else d.len
    code := st, done := true, busy := false } }

/-- The status of a closed group through BAR2: the first write that failed for its own reason (R521). -/
def Req.groupStatus (r : Req) : Status :=
  ((r.ops.filterMap (·.status)).find? fun x => x != stOk && x != stGroupAborted).getD r.status

/-- Give a request that has ended its answer. -/
def State.reply (s : State) (r : Req) (keep : Bool := true) : State :=
  match r.reply with
  | .none => { s with out := s.out ++ r.ops.map fun o => .answer r.se r.id (o.status.getD stOk) o.value }
  | .usdo node =>
    let v := (r.ops.map (·.value)).flatten
    s.emit (.can (BitVec.ofNat 11 (0x580 + par s 0x1FD0 1)) (le 1 node.toNat ++ le 4 (abortCode r.status) ++ v))
  | .dgram reqId => s.answerDgram r reqId keep
  | .bar2 => s.endBar2 r.groupStatus (r.ops.any fun o => o.code == 1) ((r.ops.map (·.value)).flatten)
  | .relay => s.emit (.gavonAnswer r.id (r.ops.map fun o => o.status.getD stOk))
  | .discard => s

/-- Answer a request whose operations have all ended, and free its place in the intake; one with a `BUSY` is counted (R88). -/
def State.finish (s : State) (id : Nat) : State :=
  match s.req id with
  | none => s
  | some r =>
    if r.ops.all fun o => o.status.isSome then
      let busy := r.ops.any fun o => decide (o.status = some stBusy)
      State.reply { s with dict := { s.dict with
        reqs := s.dict.reqs.filter fun q => q.id != id
        busy := s.dict.busy + (if busy then 1 else 0) } } r
    else s

/-- Answer every request that has ended, in arrival order. -/
def State.finishAll (s : State) : State := (s.dict.reqs.map (·.id)).foldl State.finish s

/-! ### Reads (R83, R333, R520) -/

/-- A write that arrived before an operation. -/
def before (req op id k : Nat) : Bool := decide (req < id) || (req == id && decide (op < k))

/-- A read waits for the earlier writes to its parameter, a read of the MAC or prefix command object for its session's last command,
and a read in a datagram for those before it whose length is not fixed. -/
def readWaits (s : State) (r : Req) (k : Nat) (o : ReqOp) : Bool :=
  let es := pendingEntries s
  let same := es.any fun e => decide (e.idx = o.idx) && decide (e.sub = o.sub) && decide (e.row = o.row) && before e.req e.op r.id k
  let relays := s.pair.relayed.any fun e =>
    decide (e.idx = o.idx) && decide (e.sub = o.sub) && decide (e.row = o.row) && before e.req e.op r.id k
  let cmd := (o.idx == 0x3040 || o.idx == 0x3050) &&
    (es.any (fun e => decide (e.idx = o.idx) && e.sub == 1 && decide (e.se = r.se) && !e.drop && before e.req e.op r.id k) ||
      (o.idx == 0x3040 && s.selv.cmds.any fun c => decide (c.se = r.se) && !c.drop) ||
      (o.idx == 0x3050 && s.selv.lpmCmds.any fun c => decide (c.se = r.se) && !c.drop))
  let varies (x : ReqOp) : Bool := match findObj x.idx.toNat x.sub.toNat with
    | some b => b.ty.size.isNone
    | none => false
  let inOrder := match r.reply with
    | .dgram _ => (r.ops.take k).any fun x => x.status.isNone && x.code == 1 && varies x
    | _ => false
  same || relays || cmd || inOrder

/-- Bytes of a datagram's response up to an operation: earlier operations take their values; a read that still waits takes the size of its
type, if that fits (R520). -/
def usedBefore (r : Req) (k : Nat) : Nat :=
  (r.ops.take k).foldl (fun n x =>
    let v := if x.status.isSome then pad4 x.value.length
      else match findObj x.idx.toNat x.sub.toNat with
        | some b => if x.code = 1 then pad4 (b.ty.size.getD 0) else 0
        | none => 0
    if x.status.isNone ∧ 8192 < n + 12 + v then n + 12 else n + 12 + v) 20

/-- Bytes that the answer has for an operation's value (R520). -/
def roomOf (r : Req) (k : Nat) (o : ReqOp) : Nat :=
  match r.reply with
  | .dgram _ => 8192 - usedBefore r k - 12
  | _ => o.room

/-- Answer a read from the live value (R83, R520). -/
def State.answerRead (s : State) (r : Req) (k : Nat) (o : ReqOp) : State :=
  let idx := o.idx.toNat
  let sub := o.sub.toNat
  if (cursorRows idx).isSome then (if roomOf r k o < o.value.length then s.endOp r.id k stLength else s.endOp r.id k stOk o.value)
  else match findObj idx sub with
  | none => s.endOp r.id k stNoSub
  | some ob =>
    let b := (objVal s r.se ob idx sub (o.row.map (·.toNat))).encode ob.ty
    let room := roomOf r k o
    let s1 := if idx = 0x2051 then s.freed else s
    if ob.ty.isDom then
      if b.length < o.off then s1.endOp r.id k stRange else s1.endOp r.id k stOk ((b.drop o.off).take room)
    else if room < b.length then s1.endOp r.id k stLength
    else s1.endOp r.id k stOk b

/-- Answer every read that need not wait any longer. -/
def State.answerReads (s : State) : State :=
  let todo := s.dict.reqs.flatMap fun r => (List.range r.ops.length).map fun k => (r.id, k)
  todo.foldl (fun s p =>
    match s.req p.1 with
    | none => s
    | some r => match r.ops[p.2]? with
      | none => s
      | some o => if o.code == 1 && o.status.isNone && !(readWaits s r p.2 o) then s.answerRead r p.2 o else s) s

/-- After a change that may let reads go on: answer them and the requests that have ended. -/
def State.settleDict (s : State) : State := s.answerReads.finishAll

/-! ### Entering the journal (R84, R85, R86) -/

/-- Close the open record: its commit begins when the previous one has ended. -/
def State.closeRecord (s : State) : State :=
  match s.dict.openRec with
  | none => s
  | some r => { s with dict := { s.dict with waiting := s.dict.waiting ++ [r], openRec := none } }

/-- Entries join the open record together, or open a new one; a record of 4 KiB closes. -/
def State.enter (s : State) (es : List JEntry) : State :=
  let fits := match s.dict.openRec with
    | some r => decide (recordSize (r.entries ++ es) ≤ 4096)
    | none => true
  let s1 := if fits then s else s.closeRecord
  let r : JRecord := match s1.dict.openRec with
    | some r => { r with entries := r.entries ++ es }
    | none => { openedAt := s.clk.now, entries := es }
  let s2 : State := { s1 with dict := { s1.dict with openRec := some r } }
  if 4096 ≤ recordSize r.entries then s2.closeRecord else s2

/-- The ring has room for some entries (R453). -/
def ringRoom (s : State) (es : List JEntry) : Bool := decide (ringUsed (s.enter es) ≤ 1048576)

/-! ### Writes -/

/-- The journal entry of an accepted write, with the arguments of a command as issued (R333, R336). -/
def entryOf (s : State) (r : Req) (k : Nat) (d : DOp) (row : Option Nat) (v : PVal) : JEntry :=
  { seq := 0, tag := r.tag, idx := BitVec.ofNat 16 d.idx, sub := BitVec.ofNat 8 d.sub, row := row.map (BitVec.ofNat 32), val := v
    req := r.id, op := k, se := r.se, mac := (s.sess r.se).mac, lpm := (s.sess r.se).lpm }

/-- On a secondary a write of a mirrored object goes to the primary; while the pair is not healthy it is refused (R493). -/
def relays (s : State) (idx sub : Nat) : Bool :=
  (decide (s.pair.role = .secondary) || decide (s.pair.role = .joining)) && !(isLocal idx sub)

/-- Relay writes to the primary, a write group as one request (R86, R493): each operation waits for the mirrored record that holds it. -/
def State.relayAll (s : State) (r : Req) (ws : List (Nat × DOp × Option Nat)) : State :=
  let entry (w : Nat × DOp × Option Nat) : MirrorEntry :=
    ⟨BitVec.ofNat 16 w.2.1.idx, BitVec.ofNat 8 w.2.1.sub, w.2.2.map (BitVec.ofNat 32), w.2.1.data⟩
  let wait (w : Nat × DOp × Option Nat) : Relayed := ⟨r.id, w.1, (entry w).idx, (entry w).sub, (entry w).row⟩
  { s with
    pair := { s.pair with relayed := s.pair.relayed ++ ws.map wait, counters := bump s.pair.counters 8 }
    out := s.out ++ [.gavonRelay r.tag (ws.map entry)] }
def State.relay (s : State) (r : Req) (k : Nat) (d : DOp) (row : Option Nat) : State := s.relayAll r [(k, d, row)]

/-- A session's argument takes its new value at once (R79, R333, R336). -/
def State.setArg (s : State) (se : Session) (idx sub : Nat) (v : PVal) : State :=
  let q := s.sess se
  let n := v.nat
  if idx = 0x3040 then
    let a := q.mac
    s.setSess se { q with mac :=
      if sub = 2 then { a with vlan := BitVec.ofNat 16 n } else if sub = 3 then { a with mac := BitVec.ofNat 48 (beNat v.raw) }
      else if sub = 4 then { a with dest := BitVec.ofNat 8 n } else if sub = 5 then { a with static := n != 0 }
      else { a with pos := BitVec.ofNat 32 n } }
  else
    let a := q.lpm
    s.setSess se { q with lpm :=
      if sub = 2 then { a with pre := BitVec.ofNat 128 (beNat v.raw) } else if sub = 3 then { a with len := BitVec.ofNat 8 n }
      else if sub = 4 then { a with hop := BitVec.ofNat 128 (beNat v.raw) } else if sub = 5 then { a with vlan := BitVec.ofNat 16 n }
      else if sub = 6 then { a with action := BitVec.ofNat 8 n } else { a with pos := BitVec.ofNat 32 n } }

/-- A cursor operation (R78, R79). A read takes its value as it is issued, and is answered in its turn (R520). -/
def State.cursorOp (s : State) (r : Req) (k : Nat) (d : DOp) (rows : Nat) : State :=
  if 4 < d.sub then s.endOp r.id k stNoSub
  else if s.boot.newt && notInNewt d.idx then s.endOp r.id k stNotAvailable
  else if d.code = 1 then
    let v := le (if d.sub = 0 then 1 else 4) (cursorVal s r.se d.idx rows d.sub)
    s.setReq r.id fun q => { q with ops := match q.ops[k]? with | some o => q.ops.set k { o with value := v } | none => q.ops }
  else if d.code ≠ 2 ∨ d.off ≠ 0 then s.endOp r.id k stMalformed
  else if d.sub ≠ 1 then s.endOp r.id k stReadOnly
  else if s.boot.warning then s.endOp r.id k stPowerFail
  else if d.data.length ≠ 4 then s.endOp r.id k stLength
  else
    let v := leNat d.data
    if rows ≤ v ∧ v ≠ 0xFFFFFFFF then s.endOp r.id k stRange
    else
      let q := s.sess r.se
      (s.setSess r.se { q with rows := put q.rows d.idx (BitVec.ofNat 32 v) }).endOp r.id k stOk

/-- Where a domain's staged content stands in its session. -/
def stageKey (d : DOp) : Nat := d.idx * 256 + d.sub

/-- Content of a domain with a segment added, or the refusal (R98). -/
def staged (s : State) (se : Session) (d : DOp) : Except Status Bytes :=
  if d.off = 0 then .ok d.data
  else match look (s.sess se).stage (stageKey d) with
    | some b => if d.off = b.length then .ok (b ++ d.data) else .error stSequence
    | none => .error stSequence

/-- Start programming a firmware slot: its directory entry is emptied first (R63). -/
def State.startSlot (s : State) (p : SlotProgram) : State := { s with store := s.store.setEntry p.slotB 0xFFFFFFFF }

/-- An accepted write enters the journal; a firmware image's programming is taken up as well (R63, R84). -/
def State.accept (s : State) (r : Req) (k : Nat) (d : DOp) (row : Option Nat) (v : PVal) : State :=
  let e := entryOf s r k d row v
  if !(ringRoom s [e]) then (s.endOp r.id k stBusy)
  else
    let s1 := s.enter [e]
    if d.idx = 0x2020 then
      let p : SlotProgram := ⟨r.id, k, d.sub == 2, slotOffset s (d.sub == 2), v.raw⟩
      let s2 := if s1.boot.slots.isEmpty then s1.startSlot p else s1
      { s2 with boot := { s2.boot with slots := s2.boot.slots ++ [p] } }
    else s1

/-- A write or final domain write of a located object (R71, R74, R84, R98). A segment or final write that is refused with `SEQUENCE`, or whose
value is refused with `LENGTH`, leaves the content staged before it as it stands: the spec does not say what becomes of it (log entry 90). -/
def State.writeOp (s : State) (r : Req) (k : Nat) (d : DOp) (o : Obj) (row : Option Nat) : State :=
  if s.boot.warning then s.endOp r.id k stPowerFail
  else if o.cls = .arg then
    match decodeVal o d.data with
    | .error e => s.endOp r.id k e
    | .ok v => if boundsOk s d.idx d.sub row v then (s.setArg r.se d.idx d.sub v).endOp r.id k stOk else s.endOp r.id k stRange
  else if o.ty.isDom then
    match staged s r.se d with
    | .error e => s.endOp r.id k e
    | .ok b =>
      match decodeVal o b with
      | .error e => s.endOp r.id k e
      | .ok v =>
        let q := s.sess r.se
        if d.code = 2 then (s.setSess r.se { q with stage := put q.stage (stageKey d) b }).endOp r.id k stOk
        else
          let s1 := s.setSess r.se { q with stage := del q.stage (stageKey d) }
          if relays s d.idx d.sub then
            (if healthy s then s1.relay r k { d with data := b } row else s1.endOp r.id k stNotAvailable)
          else
            let t := if o.cls = .rwp then (ahead s1).putParam d.idx d.sub row v else ahead s1
            let st := judgeWrite s1 t o d.idx d.sub row v
            if st ≠ stOk then s1.endOp r.id k st else s1.accept r k d row v
  else
    match decodeVal o d.data with
    | .error e => s.endOp r.id k e
    | .ok v =>
      if relays s d.idx d.sub then (if healthy s then s.relay r k d row else s.endOp r.id k stNotAvailable)
      else
        let t := if o.cls = .rwp then (ahead s).putParam d.idx d.sub row v else ahead s
        let st := judgeWrite s t o d.idx d.sub row v
        if st ≠ stOk then s.endOp r.id k st else s.accept r k d row v

/-- Record an operation's row as it is issued (R79). -/
def State.markRow (s : State) (id k : Nat) (row : Option Nat) : State :=
  s.setReq id fun r => { r with ops := match r.ops[k]? with
    | some o => r.ops.set k { o with row := row.map (BitVec.ofNat 32) }
    | none => r.ops }

/-- Issue one operation of a request. -/
def State.issue (s : State) (id k : Nat) (d : DOp) : State :=
  match s.req id with
  | none => s
  | some r =>
    match cursorRows d.idx with
    | some rows => s.cursorOp r k d rows
    | none =>
      match locate s r.se d with
      | .error e => s.endOp id k e
      | .ok (o, row) =>
        let s1 := s.markRow id k row
        if d.code = 1 then s1 else s1.writeOp r k d o row

/-- Issue operations in their order. -/
def issueAll : Nat → Nat → State → List DOp → State
  | _, _, s, [] => s
  | id, k, s, d :: l => issueAll id (k + 1) (s.issue id k d) l

/-! ### Write groups (R86) -/

/-- One write of a group that is being judged: its place, operation, object, row, and its value or refusal. -/
structure GWrite where
  k   : Nat
  op  : DOp
  row : Option Nat
  obj : Option Obj
  val : Except Status PVal

/-- An operation on a cursor object other than a `ROW` write is judged as the group's own (R86): no read, and no other write, may stand
there. -/
def cursorRefusal (s : State) (d : DOp) : Status :=
  if 4 < d.sub then stNoSub
  else if s.boot.newt && notInNewt d.idx then stNotAvailable
  else if d.code ≠ 2 ∨ d.off ≠ 0 then stMalformed
  else stReadOnly

/-- A `ROW` write of a cursor (R79). -/
def rowWrite (d : DOp) : Bool := (cursorRows d.idx).isSome && d.sub == 1 && d.code == 2

/-- A write of a group by itself: no reads, actions or domains (R86). -/
def groupWrite (s : State) (se : Session) (k : Nat) (d : DOp) : GWrite :=
  if (cursorRows d.idx).isSome then ⟨k, d, none, none, .error (cursorRefusal s d)⟩
  else match locate s se d with
  | .error e => ⟨k, d, none, none, .error e⟩
  | .ok (o, row) =>
    if d.code ≠ 2 ∨ o.cls ≠ .rwp ∨ o.ty.isDom = true then ⟨k, d, row, some o, .error stMalformed⟩
    else if s.boot.warning then ⟨k, d, row, some o, .error stPowerFail⟩
    else ⟨k, d, row, some o, decodeVal o d.data⟩

/-- Cursor `ROW` writes of a group act at once and leave the others, each with the row selected when it was issued. -/
def groupSplit (id : Nat) : Nat → State → List DOp → State × List GWrite
  | _, s, [] => (s, [])
  | k, s, d :: l =>
    match s.req id with
    | none => (s, [])
    | some r =>
      if rowWrite d then groupSplit id (k + 1) (s.cursorOp r k d ((cursorRows d.idx).getD 0)) l
      else
        let g := groupWrite s r.se k d
        let q := groupSplit id (k + 1) (s.markRow id k g.row) l
        (q.1, g :: q.2)

/-- The status of each write of a group against the dictionary with the whole group in place. -/
def groupStatus (s t : State) (g : GWrite) : Status :=
  match g.val, g.obj with
  | .error e, _ => e
  | .ok v, some o =>
    if relays s g.op.idx g.op.sub then (if healthy s then stOk else stNotAvailable)
    else judgeWrite s t o g.op.idx g.op.sub g.row v
  | .ok _, none => stMalformed

/-- A write group: all of its writes enter one record, or none does. -/
def State.group (s : State) (id : Nat) (ops : List DOp) : State :=
  let p := groupSplit id 0 s ops
  let s1 := p.1
  let gs := p.2
  match s1.req id with
  | none => s1
  | some r =>
    let refuseAll (f : GWrite → Status) : State := gs.foldl (fun s g => s.endOp id g.k (f g)) s1
    let size := sumNat (gs.map fun g => pad4 g.op.data.length)
    if 64 < gs.length ∨ 2784 < size then refuseAll fun _ => stLength
    else
      let t := gs.foldl (fun t g => match g.val with
        | .ok v => t.putParam g.op.idx g.op.sub g.row v
        | .error _ => t) (ahead s1)
      let st := fun g => groupStatus s1 t g
      let mixed := gs.any (fun g => relays s1 g.op.idx g.op.sub) && gs.any fun g => !(relays s1 g.op.idx g.op.sub)
      if gs.any fun g => st g != stOk then refuseAll fun g => if st g = stOk then stGroupAborted else st g
      else if mixed then refuseAll fun g => if relays s1 g.op.idx g.op.sub then stNotAvailable else stGroupAborted
      else if gs.any fun g => relays s1 g.op.idx g.op.sub then s1.relayAll r (gs.map fun g => (g.k, g.op, g.row))
      else
        let es := gs.filterMap fun g => match g.val with
          | .ok v => some (entryOf s1 r g.k g.op g.row v)
          | .error _ => none
        if es.isEmpty then s1
        else if ringRoom s1 es then s1.enter es
        else refuseAll fun _ => stBusy

/-! ### Arrival (R82, R87) -/

/-- The operation's record in its request. -/
def DOp.slot (d : DOp) (st : Option Status) : ReqOp :=
  { code := BitVec.ofNat 8 d.code, idx := BitVec.ofNat 16 d.idx, sub := BitVec.ofNat 8 d.sub, off := d.off, room := d.room, status := st }

/-- A request arrives: it is refused whole with `BUSY` when the intake is full, or takes its place and its operations are issued. The
server runs from the Selvedge step on (R41). -/
def State.arrive (s : State) (se : Session) (tag : BitVec 8) (reply : Reply) (group : Bool) (ops : List DOp) : State :=
  if !s.boot.selvedge then s
  else
    let id := s.dict.nextReq
    let s0 : State := { s with dict := { s.dict with nextReq := id + 1 } }
    if 1024 ≤ s.dict.reqs.length then
      let r : Req := ⟨id, se, tag, reply, ops.map (·.slot (some stBusy))⟩
      let n := (ops.filter fun d => d.code != 1).length
      State.reply { s0 with dict := { s0.dict with
        busy := s0.dict.busy + 1, refused := s0.dict.refused + BitVec.ofNat 32 n } } r false
    else
      let s1 : State := { s0 with dict := { s0.dict with reqs := s0.dict.reqs ++ [⟨id, se, tag, reply, ops.map (·.slot none)⟩] } }
      (if group then s1.group id ops else issueAll id 0 s1 ops).settleDict

end Sys2Proof.Machine
end

