-- ==== Sys2Proof/Machine/TouchUnit.lean ====
section
/-! DEFINITION. Touch datagrams, touch tracking and touch rules (R152 to R156). -/

namespace Sys2Proof.Machine

/-- Touch counters of 0x4021: saturating. -/
def State.touchCount (s : State) (k : Nat) : State :=
  { s with batten := { s.batten with touchCount := upd 0 s.batten.touchCount k sat32 } }

/-- A datagram passes the checks of its form (R152). -/
def touchFormOk (b : Bytes) : Bool :=
  let n := u8 b 3
  le16 b 0 == 0x7DC7 && u8 b 2 == 1 && decide (1 ≤ n) && decide (n ≤ 4) && b.length == 12 + 16 * n &&
    (crc32c (b.take (b.length - 4))).toNat == le32 b (b.length - 4)

/-- The endpoint of a datagram may send touch events: valid, a kiosk, the source its own address, its stream's layout with rules. -/
def touchSourceOk (s : State) (ep : Nat) (ip : BitVec 128) : Bool :=
  decide (ep < 1048576) && epValid s ep && fld s 0x8005 ep 6 == 1 && beNat (fldBytes s 0x8005 ep 3) == ip.toNat &&
    decide (0 < layRules (streamLayout s (fld s 0x8005 ep 2)).2)

/-- One event of a datagram. -/
def touchAt (s : State) (b : Bytes) (ep i : Nat) : Touch :=
  let o := 8 + 16 * i
  { endpoint := ep, kind := u8 b o, contact := u8 b (o + 1), x := le16 b (o + 2), y := le16 b (o + 4)
    seq := BitVec.ofNat 32 (le32 b (o + 8)), at_ := s.clk.now }

def fengine (p : Nat) : Fin 9 := Fin.ofNat 9 p

/-- Queued events enter the touch-event Bobbin in order while the fabric sees space (R153). -/
def State.feedTouch (s : State) (p : Nat) : State :=
  let b : BobbinId := .touch (fengine p)
  let s1 := s.bobSrc b
  let g := s1.engine p
  let n := min ((s1.bob b).space b) g.touches.length
  (s1.setEngine p { g with touches := g.touches.drop n }).bobPush b ((g.touches.take n).map touchItem)

/-- An event enters its engine's queue of 256 ahead of the Bobbin, or is dropped and counted (R153); with 0x4020:02 it is copied to firmware.
An event for a cluster whose engine is out of service is dropped and counted as one that finds the queue full (DESIGN CHOICE, log
entry 151). -/
def State.queueTouch (s : State) (p : Nat) (t : Touch) (raw : Bytes) : State :=
  if p = 0xFF then s.touchCount 4
  else
    let s0 := s.feedTouch p
    let g := s0.engine p
    if 256 ≤ g.touches.length then s0.touchCount 4
    else
      let s1 := ((s0.setEngine p { g with touches := g.touches ++ [t] }).touchCount 1).feedTouch p
      if parB s 0x4020 2 then s1.raise 0x017 (mEngine p) (le 4 t.endpoint ++ raw) else s1

/-- TOUCH_DATAGRAM (R152, R153, R326): a datagram is checked and its events queued for engine `stream` mod 8. Events of an
undefined type or contact are ignored. -/
def execTouchDatagram (ip : BitVec 128) (payload : Bytes) (s : State) : Host.Outcome State Fault Refusal :=
  awake s <|
  guarded (.touchDatagram ip payload) (
    if !s.boot.selvedge then done s
    else if !(touchFormOk payload) then done (s.touchCount 2)
    else
      let ep := le32 payload 4
      if !(touchSourceOk s ep ip) then done (s.touchCount 3)
      else
        let p := enginePhys s (fld s 0x8005 ep 2 % 8)
        done ((List.range (u8 payload 3)).foldl (fun s i =>
          let t := touchAt s payload ep i
          if 1 ≤ t.kind ∧ t.kind ≤ 3 ∧ t.contact ≤ 9 then s.queueTouch p t (slice payload (8 + 16 * i) 16) else s) s))

/-! ### Tracking and rules (R154 to R156) -/

/-- The tracking slot of an endpoint: its own, a free one, or that whose last event is oldest. -/
def State.trackOf (s : State) (ep : Nat) : Track × State :=
  match look s.batten.tracks ep with
  | some t => (t, s)
  | none =>
    if s.batten.tracks.length < 4096 then ({}, s)
    else
      match minBy (fun q : Nat × Track => q.2.lastAt) s.batten.tracks with
      | none => ({}, s)
      | some q => ({}, ({ s with batten := { s.batten with tracks := del s.batten.tracks q.1 } } : State).touchCount 7)

/-- What an event is after the contact's history (R156). -/
inductive TouchIs where
  | down | up (fromX fromY : Nat) | nothing | chatter
deriving DecidableEq, Repr

/-- Follow a contact through an event. The chatter time runs from the last up that was taken, not from one that was dropped, and each dropped
down counts its pair (DESIGN CHOICE, log entry 152). A dropped down drops the contact's next up, whatever comes between. -/
def Contact.follow (c : Contact) (t : Touch) (chatterNs : Nat) : Contact × TouchIs :=
  match t.kind with
  | 1 =>
    if c.down then (c, .nothing)
    else
      let quick := match c.upAt with | some u => decide (t.at_ < u + chatterNs) | none => false
      if quick then ({ c with dropUp := true }, .chatter)
      else ({ c with down := true, downAt := t.at_, downX := t.x, downY := t.y, stuck := false }, .down)
  | 3 =>
    if c.dropUp then ({ c with dropUp := false }, .nothing)
    else if c.down then ({ c with down := false, upAt := some t.at_, stuck := false }, .up c.downX c.downY)
    else (c, .nothing)
  | _ => (c, .nothing)

def inRule (r : Rule) (x y : Nat) : Bool := decide (r.x ≤ x) && decide (x < r.x + r.w) && decide (r.y ≤ y) && decide (y < r.y + r.h)

/-- A rule's trigger and region match an event. -/
def ruleFires (r : Rule) (t : Touch) (is : TouchIs) : Bool :=
  match is with
  | .down => r.trigger == 1 && inRule r t.x t.y
  | .up fx fy => r.trigger == 2 && inRule r t.x t.y && inRule r fx fy
  | _ => false

/-- The value an action leaves in its variable (R154): sets, adds modulo the limit and 1, or inverts bits. -/
def actionValue (op operand limit old : Nat) : Nat :=
  if op = 1 then operand
  else if op = 2 then ((old : Int) + sext 32 operand).emod ((limit : Int) + 1) |>.toNat
  else Nat.xor old operand
def ruleValue (r : Rule) (old : Nat) : Nat := actionValue r.op r.operand r.limit old

def State.bankVar (s : State) (bank v : Nat) : Word := lookD 0 s.batten.banks (64 * bank + v)
def State.setBankVar (s : State) (bank v : Nat) (x : Word) : State :=
  { s with batten := { s.batten with banks := put s.batten.banks (64 * bank + v) x } }

/-- The value after an update. -/
def VarUpdate.value (x : Word) (u : VarUpdate) : Word :=
  if u.op = 0 then BitVec.ofNat 32 u.operand else BitVec.ofNat 32 (actionValue u.op u.operand u.limit x.toNat)
/-- An update takes its place among those of one cycle: behind the others of its rank and below. -/
def insUpdate (u : VarUpdate) : List VarUpdate → List VarUpdate
  | [] => [u]
  | x :: r => if x.rank ≤ u.rank then x :: insUpdate u r else u :: x :: r
/-- The updates of a variable in the present nanosecond, the model's cycle. -/
def varCycle (s : State) (bank v : Nat) : VarCycle :=
  match (look s.batten.cycles (64 * bank + v)).filter fun c => c.at_ == s.clk.now with
  | some c => c
  | none => ⟨s.clk.now, s.bankVar bank v, []⟩
/-- A variable is updated (R139): updates apply in arrival order; of those in one cycle a dictionary write comes first, then the touch actions
in ascending engine number. -/
def State.updateVar (s : State) (bank v : Nat) (u : VarUpdate) : State :=
  let c := varCycle s bank v
  let ups := insUpdate u c.ups
  let s1 := s.setBankVar bank v (ups.foldl VarUpdate.value c.base)
  { s1 with batten := { s1.batten with cycles := put s1.batten.cycles (64 * bank + v) { c with ups := ups } } }

/-- TOUCH_EVENT (R153 to R156): the engine takes the oldest event that it sees in its touch-event Bobbin, follows its contact, and the first
matching rule of the stream's layout acts on the stream's bank. `e` is how the item's row reads; a tagged event is taken as delivered
(DESIGN CHOICE, log entry 143). -/
def execTouchEvent (engine : Fin 8) (e : Ecc) (s : State) : Host.Outcome State Fault Refusal :=
  awake s <|
  let p := enginePhys s engine
  let b : BobbinId := .touch (fengine p)
  if p = 0xFF then done s
  else
  let s := (s.feedTouch p).bobDst b
  match s.bobHead b with
  | none => done s
  | some x =>
    let t := itemTouch s.clk.now x
    let tr := (((s.bobDrop b 1).readItem b e).feedTouch p).trackOf t.endpoint
    let f := (lookD ({} : Contact) tr.1.contacts t.contact).follow t (par s 0x4020 4 * 1000)
    let track : Track := { lastAt := t.at_, contacts := put tr.1.contacts t.contact f.1 }
    let s1 : State := { tr.2 with batten := { tr.2.batten with tracks := put tr.2.batten.tracks t.endpoint track } }
    let s2 := if f.2 = .chatter then s1.touchCount 5 else s1
    let n := fld s2 0x8005 t.endpoint 2
    let bank := fld s2 0x8001 n 0x11
    let hit := (rulesOf (streamLayout s2 n).2).find? fun x =>
      ruleFires x t f.2 && (x.condVar == 0xFF || (s2.bankVar bank x.condVar).toNat == x.condValue)
    match hit with
    | none => done s2
    | some x =>
      done ((s2.updateVar bank x.var ⟨engine + 1, x.op, x.operand, x.limit⟩).touchCount 8)

/-- TOUCH_STUCK (R156): a contact held longer than the stuck time raises one event; it stays down. -/
def execTouchStuck (endpoint : BitVec 20) (contact : Fin 10) (s : State) : Host.Outcome State Fault Refusal :=
  awake s <|
  match look s.batten.tracks endpoint.toNat with
  | none => done s
  | some t =>
    let c := lookD ({} : Contact) t.contacts contact.val
    if c.down && !c.stuck && decide (c.downAt + par s 0x4020 3 * 1000000000 < s.clk.now) then
      let t1 : Track := { t with contacts := put t.contacts contact.val { c with stuck := true } }
      let s1 : State := { s with batten := { s.batten with tracks := put s.batten.tracks endpoint.toNat t1 } }
      let p := enginePhys s (fld s 0x8005 endpoint.toNat 2 % 8)
      done ((s1.touchCount 6).raise 0x006 (mServing mEngine p) (le 4 endpoint.toNat ++ le 1 contact.val))
    else done s

end Sys2Proof.Machine
end

