-- ==== Sys2Proof/Machine/Journal.lean ====
section
/-! DEFINITION. Journal records (R83 to R88, R451 to R454, R482, R490): their commit and its refusal, what an applied write does at once,
the parameter image and the wear leveller. -/

namespace Sys2Proof.Machine

/-! ### Blocks of the store (R449, R456) -/

/-- Physical block of a logical block, 0 to 4,095. -/
def physBlock (st : Store) (l : Nat) : Nat := lookD l st.blockMap l
/-- A physical block that holds no logical block (R456): a block never remapped holds its own number. -/
def isFreeBlock (st : Store) (b : Nat) : Bool :=
  (decide (4096 ≤ b) || (look st.blockMap b).isSome) && !(st.blockMap.any fun q => q.2 == b) && !(st.dead.contains b)
def freeBlocks (st : Store) : List Nat :=
  (List.map Prod.fst st.blockMap ++ (List.range 256).map (· + 4096)).filter (isFreeBlock st)

/-- The free physical block with the lowest write count. -/
def leastWorn (st : Store) : Option Nat := minBy (fun b => lookD 0 st.wear b) (freeBlocks st)

/-- A write of the store goes to the free physical block with the lowest count, which takes the logical number (R456). -/
def Store.blockWrite (st : Store) (l : Nat) : Store :=
  match leastWorn st with
  | none => { st with wear := bump st.wear (physBlock st l), sinceLevel := st.sinceLevel + 1 }
  | some b => { st with blockMap := put st.blockMap l b, wear := bump st.wear b, sinceLevel := st.sinceLevel + 1 }

/-- A block that fails verification three times is retired: a spare replaces it, or the store becomes read-only (R449). -/
def State.retireBlock (s : State) (l : Nat) : State :=
  let st := s.store
  if 0 < st.spares then
    { s with store := { st with
      spares := st.spares - 1, blocksRetired := st.blocksRetired + 1, dead := physBlock st l :: st.dead }.blockWrite l }
  else if st.readOnly then s
  else State.contained { s with store := { st with readOnly := true } } 0x0C .write mStore 0

/-- Logical block of a journal copy's writing position: copies lie in blocks 9 to 200, 64 blocks each. -/
def journalBlock (pos copy : Nat) : Nat := 9 + 64 * copy + pos / 32 % 64

/-! ### Actions (R74, R333, R336) -/

def macOp (n : Nat) : Option MacOp := [MacOp.search, .next, .insert, .delete, .flushPort, .flushAll][n - 1]?
def lpmOp (n : Nat) : Option LpmOp := [LpmOp.insert, .delete, .search, .lookup, .next][n - 1]?

/-- The flush commands of R333. -/
def flushOp (op : MacOp) : Bool := op == .flushPort || op == .flushAll

/-- An accepted write to an action object goes to the unit that acts on it. A flush that finds another session's flush waiting ends at
once with outcome 0x05; a session's own earlier command is waited for (R333). -/
def State.pushAct (s : State) (e : JEntry) : State :=
  if e.idx = 0x2020 then s
  else if e.idx = 0x3040 then
    match macOp e.val.nat with
    | some op =>
      if flushOp op && (s.selv.cmds.any fun c => flushOp c.op) && !(s.selv.cmds.any fun c => decide (c.se = e.se) && !c.drop) then
        if e.drop then s else s.setSess e.se { s.sess e.se with mac := { (s.sess e.se).mac with
          outcome := 5, fMac := 0, fVlan := 0, fDest := 0, fFlags := 0, fAge := 0, removed := 0 } }
      else { s with selv := { s.selv with cmds := s.selv.cmds ++ [{ se := e.se, op := op, args := e.mac, drop := e.drop }] } }
    | none => s
  else if e.idx = 0x3050 then
    match lpmOp e.val.nat with
    | some op => { s with selv := { s.selv with lpmCmds := s.selv.lpmCmds ++ [⟨e.se, op, e.lpm, e.drop⟩] } }
    | none => s
  else { s with dict := { s.dict with acts := s.dict.acts ++ [⟨e.idx, e.sub, e.val, e.tag, e.se⟩] } }

/-! ### What an applied write does at once -/

/-- Encode stream rows (R80, R245, R247, R491). -/
def State.encWritten (s old : State) (n sub : Nat) : State :=
  let changed := decide (fld s 0x8001 n sub ≠ fld old 0x8001 n sub)
  if sub = 1 then
    if serves s then (if encValid s n then s else s.stopStream n false)
    else if encValid s n then
      (if (look s.encs n).isSome then s
       else
         let a := s.allocFrames (.stream (BitVec.ofNat 16 n)) 1
         a.2.setEnc n { frames := a.1 })
    else s.releaseStream n
  else match look s.encs n with
    | none => s
    | some e =>
      let live := encValid s n && changed && serves s
      if !live then s
      else if sub = 2 ∨ sub = 3 ∨ sub = 4 ∨ sub = 7 ∨ sub = 8 then s.stopStream n true
      else if sub = 5 ∨ sub = 6 then s.setEnc n { e with newGrid := some (fld s 0x8001 n 5, fld s 0x8001 n 6) }
      else if sub = 0x10 ∨ sub = 0x11 then s.setEnc n { e with nextFull := true }
      else if sub = 0x14 ∧ fld s 0x8001 n 0x14 = 1 then s.fetchRecord e 7
      else s

/-- Endpoint rows (R355, R360). A new address is not resolved (R336). -/
def State.epWritten (s old : State) (e sub : Nat) : State :=
  if sub = 3 ∧ epValid s e = true ∧ fldBytes s 0x8005 e 3 ≠ fldBytes old 0x8005 e 3 then s.setEp e { s.ep e with resolved := 0 }
  else if sub ≠ 1 then s
  else if epValid s e then
    (s.setEp e { present := true, lastReport := s.clk.now }).logLearn (.present (BitVec.ofNat 20 e) true)
  else if epValid old e then { s with trans := { s.trans with endpoints := del s.trans.endpoints e } }
  else s

/-- Scheduler rows (R349, R354). -/
def State.schedWritten (s old : State) (idx n sub : Nat) : State :=
  if sub ≠ 1 ∨ fld s idx n 1 = fld old idx n 1 then s
  else if idx = 0x8007 then
    (if fldB s idx n 1 then s.setQueue n { s.queue n with shaper := {} } else s.discardQueue n)
  else if idx = 0x8009 then { s with trans := { s.trans with subs := del s.trans.subs n } }
  else if idx = 0x800B then { s with trans := { s.trans with services := del s.trans.services n } }
  else s

/-- A new Treadle patch waits on every active tile (R309). -/
def State.patchWritten (s : State) : State :=
  ((List.range 64).map (encPhys s)).foldl (fun s p =>
    if p = 0xFF then s else s.setTile p { s.tile p with treadle := { (s.tile p).treadle with patch := 3 } }) s

/-- What an applied write of a parameter does at once, beside being found by its function (R74, R80, R130, R138, R139, R245, R309, R324, R339,
R464, R477). -/
def State.written (s old : State) (idx sub : Nat) (row : Option Nat) (v : PVal) : State :=
  match row with
  | some r =>
    if idx = 0x8001 then s.encWritten old r sub
    else if idx = 0x8003 then s.decWritten old r sub
    else if idx = 0x8005 then s.epWritten old r sub
    else s.schedWritten old idx r sub
  | none =>
    if idx = 0x3012 then
      (if par s 0x3012 sub = par old 0x3012 sub then s
       else ((List.range 4).map fun k => 4 * (sub - 1) + k).foldl State.linkDown s)
    else if idx = 0x3030 then
      { s with selv := { s.selv with standby := some { num := 0, image := v.raw } }, store := { s.store with rulesLater := true } }
    else if 0x4100 ≤ idx ∧ idx ≤ 0x41FF then { s with batten := { s.batten with layoutGen := bump s.batten.layoutGen (idx - 0x4100) } }
    else if 0x4600 ≤ idx ∧ idx ≤ 0x47FF then { s with batten := { s.batten with textGen := bump s.batten.textGen (idx - 0x4600) } }
    else if 0x4800 ≤ idx ∧ idx ≤ 0x4BFF then s.updateVar (idx - 0x4800) (sub - 1) ⟨0, 0, v.nat, 0⟩
    else if idx = 0x5F00 then s.patchWritten
    else if idx = 0x7060 ∧ (sub = 2 ∨ sub = 6) then s.syncGpio
    else if idx = 0x7060 ∧ sub = 3 then s.polarityWritten old
    else s

/-- Apply one entry of a committed record: in Newt mode a journaled value is kept and not applied, addressing apart (R55). -/
def State.apply (s : State) (e : JEntry) : State :=
  let idx := e.idx.toNat
  let sub := e.sub.toNat
  let row := e.row.map (·.toNat)
  let s0 : State := { s with dict := { s.dict with
    lastSeq := e.seq, lastTag := e.tag, lastObj := BitVec.ofNat 32 (idx * 256 + sub) } }
  match findObj idx sub with
  | none => s0
  | some o =>
    if o.cls = .act then s0.pushAct e
    else
      -- a class of 52 that the old limits have given stays (R369)
      let s1 := (if idx = 0x6012 then s0.clockView else s0).putParam idx sub row e.val
      if s.boot.newt then s1 else s1.written s0 idx sub row e.val

/-! ### Sequence numbers (R84, R482) -/

/-- Number the entries of a record at its commit; a mirrored record keeps the primary's. -/
def number (epoch : BitVec 16) : Nat → Nat → List JEntry → Nat × Nat × List JEntry
  | p, l, [] => (p, l, [])
  | p, l, e :: r =>
    if e.tag = 6 then
      let q := number epoch (e.seq.toNat % 2 ^ 47 + 1) l r
      (q.1, q.2.1, e :: q.2.2)
    else if isLocal e.idx.toNat e.sub.toNat then
      let q := number epoch p (l + 1) r
      (q.1, q.2.1, { e with seq := BitVec.ofNat 64 (epoch.toNat * 2 ^ 48 + 2 ^ 47 + l % 2 ^ 47) } :: q.2.2)
    else
      let q := number epoch (p + 1) l r
      (q.1, q.2.1, { e with seq := BitVec.ofNat 64 (epoch.toNat * 2 ^ 48 + p % 2 ^ 47) } :: q.2.2)

/-- The newest pair-stream number of some entries. -/
def newestPair (l : List JEntry) (d : BitVec 64) : BitVec 64 := l.foldl (fun d e => if e.seq.getLsbD 47 then d else e.seq) d

/-! ### Commit -/

/-- A mirrored record's entries as they are sent (R490). -/
def mirrorOf (l : List JEntry) : List MirrorEntry :=
  (l.filter fun e => !(e.seq.getLsbD 47)).map fun e => ⟨e.idx, e.sub, e.row, match findObj e.idx.toNat e.sub.toNat with
    | some o => e.val.encode o.ty
    | none => []⟩

/-- The primary mirrors a committed record of the pair stream (R490, R492). -/
def State.mirror (s : State) (l : List JEntry) : State :=
  let m := mirrorOf l
  if s.pair.role ≠ .primary ∨ m.isEmpty then s
  else
    let n := newestPair l 0
    { s with
      pair := { s.pair with unconfirmed := s.pair.unconfirmed ++ [(n, s.clk.now)] }
      out := if s.pair.halfA || s.pair.halfB then s.out ++ [.gavonRecord n m] else s.out }

/-- Acknowledge the writes of a record; a firmware image's write is answered after its verification (R63). -/
def State.acknowledge (s : State) (l : List JEntry) : State :=
  l.foldl (fun s e => if e.idx = 0x2020 then s else s.endOp e.req e.op stOk) s

/-- Operations that were relayed and whose object a mirrored record now holds are answered (R493). -/
def State.relayedDone (s : State) (l : List JEntry) : State :=
  l.foldl (fun s e =>
    match takeFirst (fun r : Relayed => decide (r.idx = e.idx) && decide (r.sub = e.sub) && decide (r.row = e.row)) s.pair.relayed with
    | some (r, rest) => State.endOp { s with pair := { s.pair with relayed := rest } } r.req r.op stOk
    | none => s) s

/-- A record commits: its entries are numbered, stored in the ring, applied and acknowledged in their order, and mirrored or, for a
mirrored record, confirmed (R83, R452, R490). -/
def State.commit (s : State) (r : JRecord) : State :=
  let q := number s.pair.epoch s.store.nextSeq s.store.nextLocal r.entries
  let es := q.2.2
  let pos := s.store.nextSeq + s.store.nextLocal
  let st := ((s.store.blockWrite (journalBlock pos 0)).blockWrite (journalBlock pos 1)).blockWrite (journalBlock pos 2)
  let s1 : State := { s with store := { st with
    journal := st.journal ++ [{ r with entries := es, time := BitVec.ofNat 64 (ptpSec s) }]
    nextSeq := q.1, nextLocal := q.2.1, pairSeq := newestPair es st.pairSeq } }
  let s2 := es.foldl State.apply s1
  let s3 : State := { s2 with pair := { s2.pair with
    discarded := if healthy s2 then 0 else if serves s2 then s2.pair.discarded + (mirrorOf es).length else s2.pair.discarded } }
  let s4 := ((s3.acknowledge es).relayedDone (es.filter fun e => e.tag == 6)).mirror es
  match r.confirm with
  | some n => s4.emit (.gavonConfirm n)
  | none => s4

/-- A record that cannot commit: its copies are zeroed, and each of its writes is refused with `STORE_FAULT`; an image being programmed
leaves its slot empty (R63, R85, R452). -/
def State.commitFails (s : State) (r : JRecord) : State :=
  let gone (p : SlotProgram) : Bool := r.entries.any fun e => e.req == p.req && e.op == p.op
  let s1 : State := { s with boot := { s.boot with slots := s.boot.slots.filter fun p => !(gone p) } }
  let s2 := match s.boot.slots, s1.boot.slots with
    | p :: _, q :: _ => if gone p then s1.startSlot q else s1
    | _, _ => s1
  r.entries.foldl (fun s e => s.endOp e.req e.op stStoreFault) s2

/-- After a commit has ended, the open record closes when it is due (R85). -/
def State.closeDue (s : State) : State :=
  match s.dict.waiting, s.dict.openRec with
  | [], some r => if r.openedAt + 100000 ≤ s.clk.now then s.closeRecord else s
  | _, _ => s

/-- JOURNAL_RECORD_CLOSE (R85): the open record closes and its commit begins. While the previous record is still committing it stays
open; it closes when that commit ends. -/
def execJournalRecordClose (s : State) : Host.Outcome State Fault Refusal :=
  awake s <|
  match s.dict.waiting with
  | [] => done s.closeRecord
  | _ => done s

/-! ### The parameter image (R453, R454) and the leveller (R456) -/

/-- Journal keys hold a parameter's row in their low bits. -/
def entryKey (e : JEntry) : Nat := pkey e.idx.toNat e.sub.toNat (e.row.map (·.toNat))

/-- Put a record's values into the image, each with its sequence number. -/
def imageOf (img : Tab (Nat × PVal)) (l : List JEntry) : Tab (Nat × PVal) :=
  l.foldl (fun t e => if isRwp e.idx.toNat e.sub.toNat then put t (entryKey e) (e.seq.toNat, e.val) else t) img

/-- A record may leave the ring: the primary keeps those that are not confirmed (R492). -/
def mayReclaim (s : State) (r : JRecord) : Bool :=
  decide (s.pair.role ≠ .primary) || !(s.pair.unconfirmed.any fun q => r.entries.any fun e => e.seq == q.1)

/-- PARAMETER_IMAGE_WRITE (R449, R453): the values of the oldest committed record are written into free units of the image, each verified
before its old unit is freed, and the record's space in the ring is reclaimed. `failures` are the logical image blocks that failed
verification. -/
def execParameterImageWrite (failures : List Nat) (s : State) : Host.Outcome State Fault Refusal :=
  awake s <|
  match s.store.journal with
  | [] => done s
  | r :: rest =>
    if !(storeOpen s) || !(mayReclaim s r) then done s
    else
      let s1 := failures.foldl (fun s l => s.retireBlock (905 + l % 3191)) s
      if s1.store.readOnly then done s1
      else
        let st := r.entries.foldl (fun st e => st.blockWrite (905 + entryKey e % 3191)) s1.store
        done { s1 with store := { st with image := imageOf st.image r.entries, journal := rest } }

/-- WEAR_LEVELLER_COPY (R456): after 65,536 block writes, the content of the least-written block in use goes to the most-written free
block. -/
def execWearLevellerCopy (s : State) : Host.Outcome State Fault Refusal :=
  awake s <|
  let st := s.store
  if st.sinceLevel < 65536 ∨ storeOpen s = false then done s
  else
    let most := (freeBlocks st).foldl (fun m b =>
      match m with
      | none => some b
      | some x => if lookD 0 st.wear x < lookD 0 st.wear b then some b else m) (none : Option Nat)
    match minBy (fun l => lookD 0 st.wear (physBlock st l)) (List.range 4096), most with
    | some l, some b =>
      done { s with store := { st with blockMap := put st.blockMap l b, wear := bump st.wear b, sinceLevel := 0 } }
    | _, _ => done { s with store := { st with sinceLevel := 0 } }

end Sys2Proof.Machine
end

