-- ==== Sys2Proof/Machine/PairLink.lean ====
section
/-! DEFINITION. What start-up, power and the pair share (R455, R484, R490, R501): croaks, pair events, the learned tables as deltas. -/

namespace Sys2Proof.Machine

/-! ### Croaks and pair events (R484, R485, R501) -/

/-- `STATE` of a croak. -/
def croakState (s : State) : Nat :=
  if s.boot.newt ∨ s.boot.selvedge = false then 6
  else match s.pair.role with
    | .standalone => 1
    | .primary => 1
    | .secondary => 2
    | .joining => 3
    | .standby => 4

/-- A croak (R484). -/
def croakBytes (s : State) (state : Nat) : Bytes :=
  let b := [0xCA, 0x7D, 0x01] ++ le 1 state ++ le 2 s.pair.epoch.toNat ++ le 1 (b2n s.boot.pairId) ++ [0] ++ le 4 Config.serial.toNat ++
    le 4 s.pair.croaks.toNat ++ le 8 s.store.pairSeq.toNat ++ [0, 0, 0, 0]
  b ++ le 4 (crc32c b).toNat

/-- Halves of the Gavon link that are up. -/
def halvesUp (s : State) : Nat := b2n s.pair.halfA + b2n s.pair.halfB

/-- Send a croak on each half of the link that is up. -/
def State.croak (s : State) (state : Nat) : State :=
  { s with
    pair := { s.pair with croaks := s.pair.croaks + 1 }
    out := s.out ++ List.replicate (halvesUp s) (.gavon 1 (croakBytes s state)) }

/-- Count in 0x7072. -/
def State.pairCount (s : State) (k : Nat) (n : Nat := 1) : State :=
  { s with pair := { s.pair with counters := bump s.pair.counters k n } }

/-! ### The learned tables as deltas (R329, R455, R490) -/

/-- Members of a group entry as its ports name them, each for a membership time from now. -/
def State.restoreMembers (s : State) (vlan : BitVec 12) (mac : BitVec 48) (dest : Nat) : State :=
  let rest := s.selv.members.filter fun q => !(q.1.1 == vlan && q.1.2.1 == mac)
  let until_ := s.clk.now + par s 0x3060 2 * 1000000000
  let ports := (List.range 16).filter fun p => bitOf dest p
  { s with selv := { s.selv with members := rest ++ ports.map fun p => ((vlan, mac, p), until_) } }

/-- Apply a delta: an entry rebuilt has `HIT` 1, `AGE` 0 and `MOVES` 0; a suspended one holds for the whole flap hold. -/
def State.applyDelta (s : State) (d : LearnDelta) : State :=
  match d with
  | .macSet vlan mac group static suspended dest =>
    let e : MacEntry :=
      { mac := mac, vlan := vlan, group := group, static := static, suspended := suspended, dest := dest
        hold := if suspended then BitVec.ofNat 12 (par s 0x3010 3) else 0 }
    let b := macBucket vlan mac
    let pos : Option Nat := match macFind s.selv vlan mac with
      | some (p, _) => some p
      | none => match lowestGap (bucketAt s.selv b) 4 with
        | some i => some (4 * b + i)
        | none => (lowestGap s.selv.overflow 4096).map (262144 + ·)
    let s1 : State := match pos with
      | some p => { s with selv := macPut s.selv p e }
      | none => s
    if group then s1.restoreMembers vlan mac dest.toNat else s1
  | .macDel vlan mac =>
    let s1 : State := match macFind s.selv vlan mac with
      | some (p, _) => { s with selv := macDel s.selv p }
      | none => s
    s1.restoreMembers vlan mac 0
  | .present e on => s.setEp e.toNat { s.ep e.toNat with present := on, lastReport := s.clk.now }
  | .resolved e mac => s.setEp e.toNat { s.ep e.toNat with resolved := mac }

/-- The learned tables whole: MAC table with group membership, endpoint presence and resolved addresses. -/
def wholeTables (s : State) : List LearnDelta :=
  (macPositions s.selv).filterMap (fun p => (macAt s.selv p).map MacEntry.delta) ++
    s.trans.endpoints.flatMap fun q =>
      (if q.2.present then [LearnDelta.present (BitVec.ofNat 20 q.1) true] else []) ++
      (if q.2.resolved = 0 then [] else [LearnDelta.resolved (BitVec.ofNat 20 q.1) q.2.resolved])

end Sys2Proof.Machine
end

