-- ==== Sys2Proof/Machine/Boot.lean ====
section
/-! DEFINITION. The start sequence (R41 to R59, R68, R247, R309, R324, R371, R440, R453, R455, R475, R481): the steps after a whole-device
reset in their order, the start decision, boot sources, Newt mode, host boot. -/

namespace Sys2Proof.Machine

/-! ### Steps up to the store (R41, R42) -/

/-- PLLS_LOCKED (R41). -/
def execPllsLocked (s : State) : Host.Outcome State Fault Refusal :=
  awake s <| done { s with boot := { s.boot with plls := true } }

/-- SRAM_REPAIR (R41, R473): fused and soft repairs are applied and the on-die memories initialised. -/
def execSramRepair (s : State) : Host.Outcome State Fault Refusal :=
  awake s <|
  if s.boot.plls then done { s with boot := { s.boot with sram := true } } else done s

/-! ### Boot sources (R43 to R46, R54, R59) -/

/-- The valid image in the flash, slot A before slot B, with its start outcome. -/
def flashImage (st : Store) : Option (BitVec 8 × Bytes) :=
  match slotImage st false with
  | some b => some (0x00, b)
  | none => (slotImage st true).map fun b => (0x01, b)

/-- The start outcome that needs no firmware (R59), or none for a firmware start: the latch, the straps, an empty flash, three failed
starts. -/
def startDecision (s : State) : Option (BitVec 8) :=
  let m := s.boot.bootMode
  if s.boot.newt then some s.boot.outcome
  else if s.store.newtLatch then some s.store.latchBy
  else if m = 3 then some 0x12
  else if m = 4 ∨ m = 5 ∨ m = 6 then some 0x13
  else if m = 7 then some 0x20
  else if m = 0 ∧ (flashImage s.store).isNone then some 0x14
  else if 3 ≤ s.store.failed then some 0x10
  else none

/-! ### The mount (R42, R52 to R54, R58, R68, R452, R475) -/

/-- The record that a reset cut off: whether no copy of it was begun, none is intact or one is, is not fixed (R452). -/
def State.settleCutOff (s : State) : State :=
  match s.store.cutOff with
  | none => s
  | some r =>
    let k := Config.freeNat s.clk.free % 3
    let s1 : State := State.freed { s with store := { s.store with cutOff := none } }
    if k = 0 then s1
    else if k = 1 then { s1 with store := { s1.store with torn := s1.store.torn + 1 } }
    else
      let q := number s1.store.pair.epoch s1.store.nextSeq s1.store.nextLocal r.entries
      { s1 with store := { s1.store with
        journal := s1.store.journal ++ [{ r with entries := q.2.2 }]
        nextSeq := q.1, nextLocal := q.2.1, pairSeq := newestPair q.2.2 s1.store.pairSeq } }

/-- A record position with no intact copy ends the replay: it is discarded and counted, and its place and numbers are used again. -/
def State.tornAt (s : State) (bad : List (Nat × Fin 3)) : State :=
  let torn (i : Nat) : Bool := (List.range 3).all fun c => bad.any fun q => q.1 == i && q.2.val == c
  match (List.range s.store.journal.length).find? torn with
  | none => s
  | some i =>
    let lost := (s.store.journal.drop i).flatMap (·.entries)
    { s with store := { s.store with
      journal := s.store.journal.take i, torn := s.store.torn + 1
      nextSeq := s.store.nextSeq - (lost.filter fun e => !(e.seq.getLsbD 47)).length
      nextLocal := s.store.nextLocal - (lost.filter fun e => e.seq.getLsbD 47).length } }

/-- The segment that a reset cut off: whether its write had not begun, is torn, or is whole is not fixed (R68, R455). -/
def State.settleSegment (s : State) : State :=
  match s.store.segCut with
  | none => s
  | some g =>
    let k := Config.freeNat s.clk.free % 3
    State.freed { s with store := { s.store with
      segCut := none
      torn := if k = 1 then s.store.torn + 1 else s.store.torn
      learnLog := if k = 2 then s.store.learnLog ++ [g] else s.store.learnLog } }

/-- Learn-log segments whose check fails are discarded and counted (R68, R455). -/
def State.tornLog (s : State) (torn : List Nat) : State :=
  let good := ((s.store.learnLog.mapIdx fun i g => (i, g)).filter fun q => !(torn.contains q.1)).map (·.2)
  { s with store := { s.store with
    learnLog := good, torn := s.store.torn + BitVec.ofNat 32 (s.store.learnLog.length - good.length) } }

/-- One item whose intact copies differ at equal sequence numbers: copy 0 is used (R475). -/
def State.divergedCopy (s : State) : State :=
  State.reportNone { s with
    store := { s.store with diverged := s.store.diverged + 1 }
    faults := { s.faults with diverged := true } } 0x0D

/-- The boot watchdog's time in seconds, as journaled (R63). -/
def watchdogSeconds (st : Store) : Nat :=
  let k := pkey 0x2012 0 none
  let es := (st.journal.flatMap (·.entries)).filter fun e => entryKey e == k
  match es.getLast? with
  | some e => e.val.nat
  | none => ((look st.image k).map fun q => q.2.nat).getD 120

/-- The boot record is read: a shutdown record after a power loss restores the failed-start count and names the cause (R53, R58); the
start is decided, and a firmware start counts and arms its watchdog (R52, R54). -/
def State.readBoot (s : State) : State :=
  let announced := s.boot.cause == 2 && s.store.shutdownRec.isSome
  let s1 : State := { s with
    store := { s.store with
      failed := if announced then s.store.shutdownRec.getD 0 else s.store.failed
      shutdownRec := none, starts := s.store.starts + 1 }
    boot := { s.boot with mounted := true, cause := if announced then 1 else s.boot.cause }
    pair := { s.pair with epoch := s.store.pair.epoch } }
  match startDecision s1 with
  | some o =>
    { s1 with
      store := if o = 0x10 then { s1.store with newtLatch := true, latchBy := 0x10 } else s1.store
      boot := { s1.boot with newt := o != 0x20, outcome := o, bootState := 4, countAtStart := BitVec.ofNat 8 s1.store.failed } }
  | none =>
    { s1 with
      store := { s1.store with failed := s1.store.failed + 1 }
      boot := { s1.boot with
        countAtStart := BitVec.ofNat 8 (s1.store.failed + 1)
        watchdog := some (s1.clk.now + watchdogSeconds s1.store * 1000000000) } }

/-- PERSISTENT_STORE_MOUNT (R42, R52 to R54, R57, R58, R68, R452, R475): not while `PWRFAIL_N` is low. `bad` are copies of journal
positions that are not intact, `tornSegments` the learn-log slots whose check fails, `differ` how many items had intact copies that differ. -/
def execPersistentStoreMount (bad : List (Nat × Fin 3)) (tornSegments : List Nat) (differ : Nat) (s : State) : Host.Outcome State Fault Refusal :=
  awake s <|
  if !s.boot.sram || s.boot.mounted || !s.pins.pwrfailN then done s
  else done (times State.divergedCopy differ (((s.settleCutOff.tornAt bad).tornLog tornSegments).settleSegment.readBoot))

/-! ### Memories (R41, R226, R436 to R440) -/

/-- HBM_TRAINED (R41, R226, R436, R438). -/
def execHbmTrained (s : State) : Host.Outcome State Fault Refusal :=
  awake s <|
  if !s.boot.mounted || s.boot.hbm then done s
  else
    let sts : Tab Stack := (List.range 4).map fun k => (k, { trained := true, replaced := look s.sparing.pseudo k })
    done { s with
      boot := { s.boot with hbm := true }
      mem := { s.mem with hbms := sts }
      pool := { s.pool with hbmFrames := hbmPoolFrames, descs := greyDescs } }

/-- A channel as training finds it: with 0x2050:01 its highest rank is spare, and a recorded retirement has used that spare (R440, R447). -/
-- the LFSR is seeded from an on-die noise source (R445)
def trainedChannel (s : State) (k : Nat) (c : Channel) : Ddr :=
  let r := c.ranks.toNat
  let held := parB s 0x2050 1 && decide (2 ≤ r)
  let gone := if held then look s.sparing.ranks k else none
  { ranks := r, rankBytes := c.rankBytes, trained := c.trained, retired := gone
    spare := if held && gone.isNone then some (r - 1) else none
    lfsr := BitVec.ofNat 32 (Config.freeNat (s.clk.free + k)) }
/-- Usable bytes of a channel. -/
def Ddr.usable (d : Ddr) : Nat :=
  if d.trained then (d.ranks - (if d.spare.isSome || d.retired.isSome then 1 else 0)) * d.rankBytes else 0

/-- DDR5_TRAINED (R41, R247, R439, R440): every channel is used at the usable size of the smallest trained one, 2 TiB in all. -/
def execDdr5Trained (channels : List Channel) (s : State) : Host.Outcome State Fault Refusal :=
  awake s <|
  if !s.boot.timeUp || s.boot.ddr then done s
  else
    let chans := (channels.take 8).mapIdx fun k c => (k, trainedChannel s k c)
    let live := chans.filter fun q => q.2.trained
    let small := ((minBy (fun q : Nat × Ddr => q.2.usable) live).map fun q => q.2.usable).getD 0
    let bytes := min (live.length * small) (2 ^ 41)
    let total := sumNat (live.map fun q => q.2.usable)
    done { s with
      boot := { s.boot with ddr := true }
      clk := { s.clk with free := s.clk.free + 8 }
      mem := { s.mem with ddrs := chans, ddrBytes := bytes, ddrUnused := total - bytes }
      pool := { s.pool with ddrFrames := ddrPoolFrames bytes } }

/-! ### Journal replay (R41, R309, R324, R371, R453, R455) -/

/-- Image and journal give every rwp value; entries not above their image unit's number are skipped (R453). -/
def replayed (st : Store) : Tab PVal :=
  (st.journal.flatMap (·.entries)).foldl (fun t e =>
    if isRwp e.idx.toNat e.sub.toNat then
      match look st.image (entryKey e) with
      | some q => if e.seq.toNat ≤ q.1 then t else put t (entryKey e) e.val
      | none => put t (entryKey e) e.val
    else t) (st.image.map fun q => (q.1, q.2.2))

/-- The parameters hold their journaled values; a default takes no place. -/
def State.replayParams (s : State) : State :=
  (replayed s.store).foldl (fun s q =>
    let obj := q.1 / 2 ^ 33
    let row := q.1 % 2 ^ 33
    s.putParam (obj / 256) (obj % 256) (if row = 2 ^ 32 then none else some row) q.2) { s with dict := { s.dict with params := [] } }

/-- Every variable of a state bank returns to its last dictionary-written value (R137); in Newt mode none applies (R55). -/
def State.replayBanks (s : State) : State :=
  let s0 : State := { s with batten := { s.batten with banks := [] } }
  if s.boot.newt then s0
  else s.dict.params.foldl (fun s q =>
    let idx := q.1 / 2 ^ 41
    if 0x4800 ≤ idx ∧ idx ≤ 0x4BFF then s.setBankVar (idx - 0x4800) (q.1 / 2 ^ 33 % 256 - 1) (BitVec.ofNat 32 q.2.nat) else s) s0

/-- An endpoint is present from the moment its row becomes valid (R355); the learned tables then say which are not. -/
def State.replayEndpoints (s : State) : State :=
  if s.boot.newt then s
  else (validRows s 0x8005).foldl (fun s e => s.setEp e { s.ep e with present := true, lastReport := s.clk.now }) s

/-- The sequence number, path tag and object of the newest entry replayed (R88). -/
def State.lastApplied (s : State) : State :=
  match (s.store.journal.flatMap (·.entries)).getLast? with
  | none => s
  | some e => { s with dict := { s.dict with
      lastSeq := e.seq, lastTag := e.tag, lastObj := BitVec.ofNat 32 (e.idx.toNat * 256 + e.sub.toNat) } }

/-- The snapshot that is in force: the newer of A and B (R455). -/
def newestSnap (st : Store) : Option Learned :=
  match st.snapA, st.snapB with
  | some a, some b => if a.seq < b.seq then some b else some a
  | some a, none => some a
  | none, b => b

/-- The learned tables are rebuilt: the newest snapshot, then the segments after it in order. The time of the newest one applied starts
the seconds count (R371, R455). -/
def State.replayLearned (s : State) : State :=
  let base := newestSnap s.store
  let after := s.store.learnLog.filter fun g => match base with
    | some b => decide (b.seq < g.seq)
    | none => true
  let all := base.toList ++ after
  let s1 := (all.flatMap (·.deltas)).foldl State.applyDelta s
  { s1 with
    time := { s1.time with ptp := match all.getLast? with
      | some g => g.ptp.toNat
      | none => 0 } }

/-- The rule set last activated is active again, and a later image is the standby (R324). -/
def State.replayRules (s : State) : State :=
  let img := (storedV s 0x3030 0).raw
  { s with selv := { s.selv with
    active := { num := s.selv.active.num, image := s.store.ruleset }
    standby := if img.isEmpty ∨ s.store.rulesLater = false then none else some { num := 0, image := img } } }

/-- The stored patch is applied to every active tile (R309). -/
def State.replayPatch (s : State) : State :=
  let b := parBytes s 0x5F00 0
  if b.isEmpty then s
  else ((List.range 64).map (encPhys s)).foldl (fun s p =>
    if p = 0xFF then s else s.setTile p { s.tile p with treadle := (s.tile p).treadle.applyPatch b }) s

/-- JOURNAL_REPLAY (R41, R55, R76, R309, R324, R453, R455): every rwp parameter holds its journaled value or its default. -/
def execJournalReplay (s : State) : Host.Outcome State Fault Refusal :=
  awake s <|
  if !s.boot.hbm || s.boot.replayed then done s
  else
    let s1 := s.replayParams.replayBanks.lastApplied
    let s2 : State := { s1 with boot := { s1.boot with
      replayed := true, atStart := s1.dict.params.filter fun q => atReset (q.1 / 2 ^ 33 / 256) (q.1 / 2 ^ 33 % 256) } }
    let s3 : State := { s2 with pool := { s2.pool with handles := par s2 0x5030 4 } }
    let s4 := (s3.replayRules.replayPatch.replayEndpoints).replayLearned
    done ((validRows s4 0x8003).foldl State.decBegin s4).syncGpio

/-! ### Selvedge and time (R41, R91, R481) -/

/-- Store the role and the epoch (R482): not while the store is write-protected (R65), and during start not while a power warning is
present (R42); a role not stored is owed until the warning has passed. -/
def State.storeRole (s : State) : State :=
  if storeShut s then { s with boot := { s.boot with roleOwed := true } }
  else { s with store := { s.store with pair := {
    known := true, epoch := s.pair.epoch, primary := decide (s.pair.role = .primary), second := decide (s.pair.role = .secondary) } } }

/-- The role at the Selvedge step (R481): Standby while the partner is alive; otherwise primary where the stored role is primary or
secondary, with the epoch incremented, and standalone where none is stored or pairing is not allowed. -/
def State.startRole (s : State) : State :=
  if s.boot.newt || !(parB s 0x7070 1) then s
  else if s.pair.aliveIn then { s with pair := { s.pair with role := .standby } }
  else if s.store.pair.known && (s.store.pair.primary || s.store.pair.second) then
    State.storeRole { s with pair := { s.pair with role := .primary, epoch := s.pair.epoch + 1 } }
  else s

/-- SELVEDGE_ENABLE (R41, R91, R481): bridging, the dictionary paths and the PCIe function become available; the boot-up message goes
out. -/
def execSelvedgeEnable (s : State) : Host.Outcome State Fault Refusal :=
  awake s <|
  if !s.boot.replayed || s.boot.selvedge then done s
  else
    let s1 : State := { s with
      boot := { s.boot with selvedge := true }
      paths := { s.paths with heartbeat := s.clk.now }
      out := s.out ++ [.can (BitVec.ofNat 11 (0x700 + par s 0x1FD0 1)) [0]] }
    done (s1.startRole.pairChanged s)

/-- TIME_UNIT_START (R41, R57, R368, R381, R466): the last second counted from the reset ends with it. -/
def execTimeUnitStart (s : State) : Host.Outcome State Fault Refusal :=
  awake s <|
  if !s.boot.selvedge || s.boot.timeUp then done s
  else
    let traceable := s.time.todValid && s.time.clockClass == 6
    let s1 := if s.faults.excess = 0 then s else s.faultSummary
    done { s1 with
      boot := { s.boot with
        timeUp := true, ptpAtStart := if traceable then BitVec.ofNat 64 (s.time.ptp / 1000000000) else 0 }
      pins := { s.pins with tenMhz := !(squelched s) } }

/-! ### Firmware (R46, R47, R55) -/

/-- An image is copied to the base of L2 and started at `ENTRY` on logical core 0 (R46). -/
def State.startFirmware (s : State) (outcome : BitVec 8) (b : Bytes) : State :=
  State.devStore { s with boot := { s.boot with running := .firmware, outcome := outcome, version := imageVersion b, entry := BitVec.ofNat 32 (le32 b 8) } } 0
    (b.take (le32 b 4))

/-- A tile's patch goes: the ROM alone (R309). -/
def Treadle.dropPatch (r : Treadle) : Treadle :=
  { r with match_ := [], patchRam := [], nanoPatch := [], level := 0, patch := 0, live := false, owed := false }

/-- Newt mode begins (R55, R309): the recovery firmware runs on core 0, no image is loaded, journaled values and patches no longer apply, and
every stream but the clock face stops. -/
def State.enterNewt (s : State) (outcome : BitVec 8) : State :=
  let s1 : State := { s with
    boot := { s.boot with
      newt := true, outcome := outcome, running := .newt, watchdog := none, recovery := some s.clk.now, bootState := 4 }
    tiles := s.tiles.map fun q => (q.1, { q.2 with treadle := q.2.treadle.dropPatch }) }
  let s2 := (s1.encs.map (·.1)).foldl (fun s n => if encValid s n then s else s.stopStream n false) s1
  ((validRows s 0x8003).foldl State.decEnd s2).syncGpio

/-- The check of the image in the boot window begins and ends (R45, R47). -/
def State.checkWindow (s : State) : State :=
  let s0 : State := { s with boot := { s.boot with go := false } }
  let head := bytesAt s.boot.window 0 64
  let b := if headerOk head then bytesAt s.boot.window 0 (le32 head 4) else head
  if imageValid b then State.startFirmware { s0 with boot := { s0.boot with bootState := 2 } } 0x02 b
  else { s0 with boot := { s0.boot with bootState := 3, imageBad := true } }

/-- Wait for a host image (R46, R47): a `BOOT_GO` set before this step acts now. -/
def State.waitHost (s : State) : State :=
  let s1 : State := { s with boot := { s.boot with bootState := 0 } }
  if s1.boot.go then s1.checkWindow else s1

/-- FIRMWARE_LOAD (R43, R46, R55): the source that `BOOT_MODE` selects. -/
def execFirmwareLoad (s : State) : Host.Outcome State Fault Refusal :=
  awake s <|
  if !s.boot.ddr || s.boot.decided then done s
  else
    let s1 : State := { s with boot := { s.boot with decided := true } }
    if s1.boot.newt then
      done { s1 with boot := { s1.boot with running := .newt, recovery := some s1.clk.now } }
    else if s1.boot.bootMode = 7 then done { s1 with boot := { s1.boot with running := .debugHold } }
    else if s1.boot.bootMode = 1 then done s1.waitHost
    else match flashImage s1.store with
      | some (o, b) => done (s1.startFirmware o b)
      | none => done (if s1.boot.bootMode = 2 then s1.waitHost else s1.enterNewt 0x14)

/-- A write of `BOOT_GO` (R47): ignored unless `BOOT_STATE` is 0x00 or 0x03; the check waits for the firmware step. -/
def State.bootGo (s : State) : State :=
  if s.boot.bootState ≠ 0 ∧ s.boot.bootState ≠ 3 then s
  else if s.boot.decided then s.checkWindow
  else { s with boot := { s.boot with go := true } }

/-- BOOT_GO (R47). -/
def execBootGo (m : Master) (s : State) : Host.Outcome State Fault Refusal :=
  issuedBy m s <| done (s.disarm m).bootGo

/-- A write of bytes in the boot window (R48): accepted while `BOOT_STATE` is 0x00 or 0x03, otherwise a lock violation. -/
def State.windowWrite (s : State) (m : Master) (off : Nat) (data : Bytes) : State :=
  if s.boot.bootState = 0 ∨ s.boot.bootState = 3 then { s with boot := { s.boot with window := setBytes s.boot.window off data } }
  else s.lockViolation m (bar0Addr (0x200000 + off))

/-- BOOT_WINDOW_WRITE (R48). -/
def execBootWindowWrite (m : Master) (off : BitVec 21) (data : Bytes) (s : State) : Host.Outcome State Fault Refusal :=
  awake s <|
  guarded (.bootWindowWrite m off data) (done (s.windowWrite m off.toNat data))

/-- BOOT_COMPLETE (R52, R63): an accepted write of 1 to 0x2011:00 stops the armed watchdog and clears the failed-start count. -/
def execBootComplete (s : State) : Host.Outcome State Fault Refusal :=
  awake s <|
  match s.takeAct 0x2011 0 with
  | none => done s
  | some (_, s1) =>
    if s1.boot.watchdog.isSome then
      done { s1 with
        boot := { s1.boot with watchdog := none }
        store := if storeShut s1 then s1.store else { s1.store with failed := 0 } }
    else done s1

end Sys2Proof.Machine
end

