-- ==== Sys2Proof/Machine/DictPaths.lean ====
section
/-! DEFINITION. The dictionary's paths (R63, R83, R86, R90 to R101, R520, R521): requests of each path, CANopen FD, dictionary datagrams, the
BAR2 window, and the end of a firmware slot's programming. -/

namespace Sys2Proof.Machine

/-! ### Sessions of datagrams (R96) -/

/-- Room for a new datagram session: the one idle for the longest goes. -/
def State.evict (s : State) : State :=
  if s.paths.sessions.length < 256 then s
  else match minBy (fun q : DgSession => q.lastUsed) s.paths.sessions with
    | none => s
    | some v =>
      { s with
        paths := { s.paths with
          sessions := s.paths.sessions.filter fun q => !(decide (q.se = v.se))
          evicted := s.paths.evicted + 1 }
        dict := { s.dict with sess := s.dict.sess.filter fun q => !(decide (q.1 = v.se)) } }

/-- A session is used: a datagram session is opened, or its idle time starts anew. -/
def State.useSession (s : State) (se : Session) : State :=
  match se with
  | .dgram .. =>
    if s.paths.sessions.any fun q => decide (q.se = se) then
      { s with paths := { s.paths with sessions := s.paths.sessions.map fun q =>
        if q.se = se then { q with lastUsed := s.clk.now } else q } }
    else
      let s1 := s.evict
      { s1 with paths := { s1.paths with sessions := s1.paths.sessions ++ [⟨se, s.clk.now, [], []⟩] } }
  | _ => s

/-! ### Requests of one operation, and write groups -/

/-- A request with a session's path tag. -/
def State.request (s : State) (se : Session) (group : Bool) (ops : List DOp) : State :=
  if s.boot.selvedge then (s.useSession se).arrive se (pathTag se) .none group ops else s

/-- DICT_READ (R83). -/
def execDictRead (se : Session) (idx : BitVec 16) (sub : BitVec 8) (s : State) : Host.Outcome State Fault Refusal :=
  awake s <|
  done (s.request se false [{ code := 1, idx := idx.toNat, sub := sub.toNat }])

/-- DICT_WRITE (R83, R84). -/
def execDictWrite (se : Session) (idx : BitVec 16) (sub : BitVec 8) (data : Bytes) (s : State) : Host.Outcome State Fault Refusal :=
  awake s <|
  done (s.request se false [{ code := 2, idx := idx.toNat, sub := sub.toNat, data := data }])

/-- CURSOR_WRITE (R79): a write of subindex 1 of a cursor. -/
def execCursorWrite (se : Session) (idx : BitVec 16) (data : Bytes) (s : State) : Host.Outcome State Fault Refusal :=
  awake s <|
  done (s.request se false [{ code := 2, idx := idx.toNat, sub := 1, data := data }])

/-- WRITE_GROUP (R86). -/
def execWriteGroup (se : Session) (ws : List DWrite) (s : State) : Host.Outcome State Fault Refusal :=
  awake s <|
  done (s.request se true (ws.map fun w => { code := 2, idx := w.idx.toNat, sub := w.sub.toNat, data := w.data }))

/-- DOMAIN_SEGMENT_WRITE (R98). -/
def execDomainSegmentWrite (se : Session) (idx : BitVec 16) (sub : BitVec 8) (off : BitVec 32) (data : Bytes) (s : State) :
    Host.Outcome State Fault Refusal :=
  awake s <|
  done (s.request se false [{ code := 2, idx := idx.toNat, sub := sub.toNat, off := off.toNat, data := data }])

/-- DOMAIN_FINAL_WRITE (R98). -/
def execDomainFinalWrite (se : Session) (idx : BitVec 16) (sub : BitVec 8) (off : BitVec 32) (data : Bytes) (s : State) :
    Host.Outcome State Fault Refusal :=
  awake s <|
  done (s.request se false [{ code := 3, idx := idx.toNat, sub := sub.toNat, off := off.toNat, data := data }])

/-- DOMAIN_READ (R520). -/
def execDomainRead (se : Session) (idx : BitVec 16) (sub : BitVec 8) (off : BitVec 32) (room : BitVec 13) (s : State) :
    Host.Outcome State Fault Refusal :=
  awake s <|
  done (s.request se false [{ code := 1, idx := idx.toNat, sub := sub.toNat, off := off.toNat, room := room.toNat }])

/-- FIRMWARE_SLOT_WRITE (R63): the final write of a slot's image. -/
def execFirmwareSlotWrite (se : Session) (slotB : Bool) (off : BitVec 32) (data : Bytes) (s : State) : Host.Outcome State Fault Refusal :=
  awake s <|
  done (s.request se false [{ code := 3, idx := 0x2020, sub := if slotB then 2 else 1, off := off.toNat, data := data }])

/-- FIRMWARE_SLOT_VERIFIED (R63): programming and verification of the image under way end. It has no effect while the write's journal
record has not committed; the next accepted image is then programmed. -/
def execFirmwareSlotVerified (ok : Bool) (s : State) : Host.Outcome State Fault Refusal :=
  awake s <|
  match s.boot.slots with
  | [] => done s
  | p :: rest =>
    if (pendingEntries s).any fun e => e.req == p.req && e.op == p.op then done s
    else
      let s1 : State := { s with boot := { s.boot with slots := rest } }
      let s2 := if ok then
          State.endOp { s1 with store := (s1.store.program p.off p.image).setEntry p.slotB p.off } p.req p.op stOk
        else s1.endOp p.req p.op stStoreFault
      let s3 := match rest with
        | q :: _ => s2.startSlot q
        | [] => s2
      done s3.settleDict

/-! ### CANopen FD (R90, R91) -/

/-- USDO_REQUEST (R90, R98): the transfer of a domain is its final segment and holds it whole. -/
def execUsdoRequest (client : BitVec 8) (op : UsdoOp) (s : State) : Host.Outcome State Fault Refusal :=
  awake s <|
  if !s.boot.selvedge || s.paths.busOff then done s
  else
    let write (idx : BitVec 16) (sub : BitVec 8) (data : Bytes) (dom : Bool) : DOp :=
      let d := dom || match findObj idx.toNat sub.toNat with
        | some o => o.ty.isDom
        | none => false
      { code := if d then 3 else 2, idx := idx.toNat, sub := sub.toNat, data := data }
    let d : DOp := match op with
      | .read idx sub => { code := 1, idx := idx.toNat, sub := sub.toNat }
      | .write idx sub data => write idx sub data false
      | .domain idx sub data => write idx sub data true
    done (s.arrive (.can client) 1 (.usdo client) false [d])

/-- An NMT command reaches the device once the dictionary is reachable by CANopen FD (R41). -/
def nmt (s : State) (k : State) : Host.Outcome State Fault Refusal := done (if !s.boot.selvedge || s.paths.busOff then s else k)

/-- NMT_START (R91). -/
def execNmtStart (s : State) : Host.Outcome State Fault Refusal :=
  awake s <|
  nmt s { s with paths := { s.paths with nmt := .operational } }

/-- NMT_STOP (R91): USDO requests are still answered. -/
def execNmtStop (s : State) : Host.Outcome State Fault Refusal :=
  awake s <|
  nmt s { s with paths := { s.paths with nmt := .stopped } }

/-- NMT_ENTER_PREOPERATIONAL (R91). -/
def execNmtEnterPreoperational (s : State) : Host.Outcome State Fault Refusal :=
  awake s <|
  nmt s { s with paths := { s.paths with nmt := .preOperational } }

/-- The heartbeat or boot-up message (CiA 1301, PRESUMED): COB-ID 0x700 + node-ID and one byte. -/
def nmtMessage (s : State) (b : Byte) : Output := .can (BitVec.ofNat 11 (0x700 + par s 0x1FD0 1)) [b]

def isCan : Session → Bool
  | .can _ => true
  | _ => false

/-- NMT_RESET_COMMUNICATION (R91): USDO transfers end with their staged domain content, cursors stay, the boot-up message goes out and
the device is pre-operational. -/
def execNmtResetCommunication (s : State) : Host.Outcome State Fault Refusal :=
  awake s <|
  let quiet (r : Reply) : Reply := match r with
    | .usdo _ => .discard
    | q => q
  nmt s (State.emit { s with
    paths := { s.paths with nmt := .preOperational }
    dict := { s.dict with
      sess := s.dict.sess.map fun q => (q.1, if isCan q.1 then { q.2 with stage := [] } else q.2)
      reqs := s.dict.reqs.map fun r => { r with reply := quiet r.reply } } } (nmtMessage s 0))

/-- NMT_RESET_NODE (R91): a write of 1 to 0x2001:00 with path tag 0x01. -/
def execNmtResetNode (s : State) : Host.Outcome State Fault Refusal :=
  awake s <|
  nmt s (s.arrive (.can 0) 1 .discard false [{ code := 2, idx := 0x2001, sub := 0, data := [1] }])

/-- The NMT state in a heartbeat (CiA 1301, PRESUMED). -/
def nmtCode : Nmt → Byte
  | .preOperational => 0x7F
  | .operational => 0x05
  | .stopped => 0x04

/-- CANOPEN_HEARTBEAT (R91): the period of 0x1017:00 in ms has passed; 0 sends none. -/
def execCanopenHeartbeat (s : State) : Host.Outcome State Fault Refusal :=
  awake s <|
  let p := par s 0x1017 0
  if !s.boot.selvedge || s.paths.busOff || p == 0 || decide (s.clk.now < s.paths.heartbeat + p * 1000000) then done s
  else done (State.emit { s with paths := { s.paths with heartbeat := s.clk.now } } (nmtMessage s (nmtCode s.paths.nmt)))

/-! ### Dictionary datagrams (R92 to R97) -/

/-- Operations of a datagram body (R94); none where a format fails. -/
def dgramOps : Nat → Bytes → Option (List DOp)
  | 0, b => if b.isEmpty then some [] else none
  | n + 1, b =>
    let code := u8 b 0
    let len := le16 b 8
    let body := slice b 12 len
    let pad := pad4 len - len
    if b.length < 12 + pad4 len ∨ code < 1 ∨ 3 < code ∨ u8 b 10 ≠ 0 ∨ u8 b 11 ≠ 0 ∨ (code = 1 ∧ len ≠ 0) ∨ !(zeroRange b (12 + len) pad) then none
    else
      let d : DOp := { code := code, idx := le16 b 2, sub := u8 b 1, off := le32 b 4, data := body }
      (dgramOps n (b.drop (12 + pad4 len))).map (d :: ·)

/-- A datagram passes the checks of R93 and R94. -/
def dgramParse (b : Bytes) : Option (Word × Bool × List DOp) :=
  let n := b.length
  if n < 20 ∨ 8192 < n ∨ le16 b 0 ≠ 0x7DD1 ∨ u8 b 2 ≠ 1 ∨ u8 b 3 ≠ 1 ∨ le16 b 8 ≠ n ∨ u8 b 10 = 0 ∨ 64 < u8 b 10 ∨
      1 < u8 b 11 ∨ !(zeroRange b 12 4) ∨ le32 b (n - 4) ≠ (crc32c (b.take (n - 4))).toNat then none
  else (dgramOps (u8 b 10) ((b.take (n - 4)).drop 16)).map fun ops => (BitVec.ofNat 32 (le32 b 4), u8 b 11 == 1, ops)

/-- Count a repeat of a request that still runs, or start to count for a new one. -/
def State.dgRunning (s : State) (se : Session) (f : List (Word × Nat) → List (Word × Nat)) : State :=
  { s with paths := { s.paths with sessions := s.paths.sessions.map fun q => if q.se = se then { q with running := f q.running } else q } }

/-- DICT_DATAGRAM (R76, R92 to R97): dropped and counted, answered from memory, or executed. 0x1FD1:03 = 0 names no front VLAN. -/
def execDictDatagram (front : Bool) (vlan : BitVec 12) (ip : BitVec 128) (port : BitVec 16) (payload : Bytes) (s : State) :
    Host.Outcome State Fault Refusal :=
  awake s <|
  guarded (.dictDatagram front vlan ip port payload)
    (if !s.boot.selvedge || (front && !(frontServes s)) then done s
    else
      let s0 : State := { s with paths := { s.paths with received := s.paths.received + 1 } }
      let accepted := if front then vlan != 0 && decide (vlan.toNat = par s 0x1FD1 3) else parB s 0x1FD1 2
      match accepted, dgramParse payload with
      | true, some (reqId, group, ops) =>
        let se : Session := .dgram ip port front
        let s1 := s0.useSession se
        match s1.paths.sessions.find? fun q => decide (q.se = se) with
        | none => done s1
        | some q =>
          match q.answers.find? fun a => a.1 == reqId with
          | some a => done (s1.emit (.datagram front ip port a.2))
          | none =>
            if q.running.any fun a => a.1 == reqId then
              done (s1.dgRunning se fun l => l.map fun a => if a.1 = reqId then (a.1, a.2 + 1) else a)
            else done ((s1.dgRunning se fun l => l ++ [(reqId, 0)]).arrive se (pathTag se) (.dgram reqId) group ops)
      | _, _ => done { s0 with paths := { s0.paths with dropped := s0.paths.dropped + 1 } })

/-! ### The BAR2 window (R99 to R101, R521) -/

/-- `DW_XFER` fields of a written word. -/
def State.dwFields (s : State) (v : Word) : State :=
  { s with bar2 := { s.bar2 with irq := v.getLsbD 17, more := v.getLsbD 16, op := v.extractLsb' 14 2, len := v.extractLsb' 0 13 } }

/-- End a BAR2 request that acts on nothing; a refused write is counted (R88). -/
def State.dwRefuse (s : State) (st : Status) (write : Bool) : State :=
  let s1 : State := if write then { s with dict := { s.dict with refused := s.dict.refused + 1 } } else s
  s1.endBar2 st false []

/-- A parameter that a write group may hold (R86). -/
def groupable (d : DOp) : Bool :=
  match findObj d.idx d.sub with
  | some o => decide (o.cls = .rwp) && !o.ty.isDom
  | none => false

/-- The operation that the window's registers spell. -/
def dwOp (s : State) : DOp :=
  let d := s.bar2
  { code := d.op.toNat, idx := d.index.toNat, sub := d.sub.toNat, off := d.offset.toNat, room := 4096
    data := if d.op = 1 then [] else bytesAt d.data 0 d.len.toNat }

/-- A staged write as an operation of its group. -/
def stagedOp (q : DWrite × Option (BitVec 32)) : DOp :=
  { code := 2, idx := q.1.idx.toNat, sub := q.1.sub.toNat, data := q.1.data, atRow := q.2 }

/-- Stage a write into the open group (R521), or discard the group when it grows too long. -/
def State.dwStage (s : State) (d : DOp) : State :=
  let row := (rowsOf d.idx).map fun _ => (s.sess .bar2).row (d.idx - 1)
  let w : DWrite := ⟨s.bar2.index, s.bar2.sub, d.data⟩
  let g := s.bar2.group ++ [(w, row)]
  if 64 < g.length ∨ 2784 < sumNat (g.map fun q => pad4 q.1.data.length) then
    State.dwRefuse { s with bar2 := { s.bar2 with group := [] } } stLength true
  else State.endBar2 { s with bar2 := { s.bar2 with group := g } } stOk false []

/-- A request arrives from the window. -/
def State.dwArrive (s : State) (group : Bool) (ops : List DOp) : State := s.arrive .bar2 4 .bar2 group ops

/-- `DW_GO` written with a word (R99, R100, R521): ignored with `DW_OVERRUN` while a request runs. -/
def State.dwGo (s : State) (v : Word) : State :=
  if !s.boot.selvedge then s
  else if s.bar2.busy then { s with bar2 := { s.bar2 with overrun := true } }
  else
    let f := s.dwFields v
    let s1 : State := { f with bar2 := { f.bar2 with busy := true } }
    let d := dwOp s1
    let write := d.code == 2 || d.code == 3
    let cursor := (cursorRows d.idx).isSome && d.sub == 1 && d.code == 2
    if d.code = 0 then s1.dwRefuse stMalformed false
    else if write ∧ 4096 < s1.bar2.len.toNat then s1.dwRefuse stLength true
    else if cursor then s1.dwArrive false [d]
    else if s1.bar2.more then
      (if d.code = 2 ∧ d.off = 0 ∧ groupable d then s1.dwStage d else s1.dwRefuse stMalformed write)
    else if d.code = 2 ∧ !s1.bar2.group.isEmpty then
      State.dwArrive { s1 with bar2 := { s1.bar2 with group := [] } } true (s1.bar2.group.map stagedOp ++ [d])
    else s1.dwArrive false [d]

/-- A word with `DW_GO` set and some bits of `DW_XFER` as the command names them. -/
def dwWord (v : Word) (mask bits : Nat) : Word := (v &&& ~~~ (BitVec.ofNat 32 mask)) ||| BitVec.ofNat 32 bits

/-- DW_READ (R100): `DW_GO` with `DW_OP` 0b01. -/
def execDwRead (m : Master) (v : Word) (s : State) : Host.Outcome State Fault Refusal :=
  issuedBy m s <| done ((s.disarm m).dwGo (dwWord v 0xC000 0x4000))

/-- DW_WRITE (R99, R521): `DW_GO` with `DW_OP` 0b10 and `DW_MORE` 0. -/
def execDwWrite (m : Master) (v : Word) (s : State) : Host.Outcome State Fault Refusal :=
  issuedBy m s <| done ((s.disarm m).dwGo (dwWord v 0x1C000 0x8000))

/-- DW_FINAL_DOMAIN_WRITE (R98, R99): `DW_GO` with `DW_OP` 0b11. -/
def execDwFinalDomainWrite (m : Master) (v : Word) (s : State) : Host.Outcome State Fault Refusal :=
  issuedBy m s <| done ((s.disarm m).dwGo (dwWord v 0xC000 0xC000))

/-- DW_STAGED_WRITE (R521): `DW_GO` with `DW_MORE` 1. -/
def execDwStagedWrite (m : Master) (v : Word) (s : State) : Host.Outcome State Fault Refusal :=
  issuedBy m s <| done ((s.disarm m).dwGo (dwWord v 0 0x10000))

end Sys2Proof.Machine
end

