-- ==== Sys2Proof/Machine/DmaUnit.lean ====
section
/-! DEFINITION. The DMA engine (R405 to R411): start, pause, resume, abort, end and failure of transfers. -/

namespace Sys2Proof.Machine

def State.chan (s : State) (n : Nat) : Dma := lookD {} s.dma.chans n
def State.setChan (s : State) (n : Nat) (c : Dma) : State := { s with dma := { s.dma with chans := put s.dma.chans n c } }
/-- Access size of a fixed side. -/
def Dma.unit (c : Dma) : Nat := 2 ^ c.elem.toNat
/-- A transfer is invalid (R406); an `ELEM` of 0b111 is a reserved configuration. -/
def Dma.invalid (c : Dma) : Bool :=
  let fixed := c.srcFixed || c.dstFixed
  c.len == 0 || (c.srcFixed && c.src.toNat % c.unit != 0) || (c.dstFixed && c.dst.toNat % c.unit != 0) ||
    (fixed && c.len.toNat % c.unit != 0) || (fixed && c.elem == 7)

/-! ### Accesses (R407) -/

/-- Length of the access of an incrementing device side at `a` with `n` bytes left: a head up to the next 64-byte boundary, then
multiples of 64 bytes within 256, then the tail. -/
def accessLen (a n : Nat) : Nat :=
  if a % 64 ≠ 0 then min n (64 - a % 64) else if n < 64 then n else min (n / 64 * 64) (256 - a % 256)

/-- The accesses that move `n` bytes of a side, as addresses and lengths. The first argument bounds their number. -/
def accesses (fixed : Bool) (unit : Nat) : Nat → Nat → Nat → List (Nat × Nat)
  | 0, _, _ => []
  | k + 1, a, n =>
    if n = 0 then []
    else if fixed then (a, min n unit) :: accesses fixed unit k a (n - unit)
    else (a, accessLen a n) :: accesses fixed unit k (a + accessLen a n) (n - accessLen a n)

/-- The reads of a device source that succeed before the first that fails, and that one's error and address. -/
def readable (s : State) (m : Master) : List (Nat × Nat) → Nat × Option (Nat × Nat)
  | [] => (0, none)
  | (a, n) :: r =>
    match devProblem s m a n with
    | some e => (0, some (e, a))
    | none => let t := readable s m r; (n + t.1, t.2)

/-- The bytes a device source gives for its first `n`. -/
def sourceBytes (s : State) (c : Dma) (n : Nat) : Bytes :=
  ((accesses c.srcFixed c.unit (n + 1) c.src.toNat n).flatMap fun x => s.devRead x.1 x.2)

/-- The accesses of a read of device memory reach its controllers. -/
def State.readAccess (s : State) (l : List (Nat × Nat)) : State := l.foldl (fun s x => s.ddrTouch x.1 x.2) s

/-- Write moved bytes at the destination. -/
def State.dmaPut (s : State) (ch : Nat) (c : Dma) (b : Bytes) : State :=
  let place (acc : State × Bytes) (x : Nat × Nat) : State × Bytes :=
    let part := acc.2.take x.2
    (if c.dstDev then acc.1.devWrite (mDma ch) .dma x.1 part else acc.1.emit (.hostWrite (BitVec.ofNat 64 x.1) part), acc.2.drop x.2)
  ((accesses c.dstFixed c.unit (b.length + 1) c.dst.toNat b.length).foldl place (s, b)).1

/-- The channel after `n` bytes: an incrementing side and `LEN` stand exactly at the first byte not written. -/
def Dma.advance (c : Dma) (n : Nat) : Dma :=
  { c with
    src := if c.srcFixed then c.src else c.src + BitVec.ofNat 64 n
    dst := if c.dstFixed then c.dst else c.dst + BitVec.ofNat 64 n
    len := c.len - BitVec.ofNat 32 n }

/-- Move bytes of a transfer: they are written and the registers advance. -/
def State.dmaMove (s : State) (ch : Nat) (b : Bytes) : State :=
  let c := s.chan ch
  let s0 := if c.srcDev then s.readAccess (accesses c.srcFixed c.unit (b.length + 1) c.src.toNat b.length) else s
  let s1 := s0.dmaPut ch c b
  s1.setChan ch (c.advance b.length)

/-! ### Starts and ends (R408, R409) -/

/-- A transfer starts; with `PAUSE` 1 it starts at rest. -/
def State.dmaStart (s : State) (ch : Nat) : State :=
  let c := s.chan ch
  if c.invalid then s.setChan ch { c with held := false, err := true, errCode := 3, state := 0 }
  else s.setChan ch { c with held := false, state := if c.pause then 3 else 1 }

/-- A held start takes place once its channel is idle and the engine is not halted. -/
def State.dmaHeld (s : State) (ch : Nat) : State :=
  let c := s.chan ch
  if c.held ∧ c.state = 0 ∧ s.dma.halted = false then s.dmaStart ch else s

/-- A transfer ends with an error code; 0 stands for `DONE`. -/
def State.dmaEnd (s : State) (ch : Nat) (code : BitVec 4) : State :=
  let c := s.chan ch
  s.setChan ch (if code = 0 then { c with state := 0, done := true } else { c with state := 0, err := true, errCode := code })

/-- The reads already issued complete and their data is written (R409). How many they are, and what host memory gives them, is not
fixed: free values, a whole number of units while a side is fixed. -/
def State.dmaDrain (s : State) (ch : Nat) : State :=
  let c := s.chan ch
  let u := if c.srcFixed || c.dstFixed then c.unit else 1
  let n := Config.freeNat s.clk.free % (c.len.toNat / u + 1) * u
  let got := if c.srcDev then (readable s (mDma ch) (accesses c.srcFixed c.unit (n + 1) c.src.toNat n)).1 / u * u else n
  let b := if c.srcDev then sourceBytes s c got else slice (Config.freeBytes s.clk.free) 0 got
  (s.freed).dmaMove ch b

/-- A write of `GO` (R408). -/
def State.dmaGo (s : State) (ch : Nat) : State :=
  let c := s.chan ch
  if s.dma.halted then s
  else if c.state = 1 ∨ c.state = 2 then s.setChan ch { c with held := true }
  else s.dmaStart ch

/-- A write of `PAUSE` 1 (R409): a running transfer drains and rests, or ends with `DONE` when its last byte is written. -/
def State.dmaPause (s : State) (ch : Nat) : State :=
  let s1 := s.setChan ch { s.chan ch with pause := true }
  if (s1.chan ch).state = 1 then
    let s2 := s1.dmaDrain ch
    let c := s2.chan ch
    if c.len = 0 then (s2.dmaEnd ch 0).dmaHeld ch else s2.setChan ch { c with state := 3 }
  else s1

/-- A write of `PAUSE` 0 (R409). -/
def State.dmaResume (s : State) (ch : Nat) : State :=
  let c := s.chan ch
  s.setChan ch { c with pause := false, state := if c.state = 3 then 1 else c.state }

/-- A write of `ABORT` (R409): a running transfer drains; it ends with `ERR_CODE` 0x5. -/
def State.dmaAbort (s : State) (ch : Nat) : State :=
  let c := s.chan ch
  if c.state = 0 then s
  else ((if c.state = 1 then s.dmaDrain ch else s).dmaEnd ch 5).dmaHeld ch

/-- An access of a channel fails (R410): the others drain and end with 0x4, the engine halts, a contained error of kind 0x0A is
recorded. -/
def State.dmaFail (s : State) (ch : Nat) (code : BitVec 4) (addr : Nat) : State :=
  let running := s.dma.chans.filterMap fun q => if q.1 ≠ ch ∧ (q.2.state = 1 ∨ q.2.state = 2) then some q.1 else none
  let s1 := running.foldl (fun s n => (s.dmaDrain n).dmaEnd n 4) (s.dmaEnd ch code)
  let s2 : State := { s1 with dma := { s1.dma with
    halted := true, channel := if s1.dma.halted then s1.dma.channel else BitVec.ofNat 5 ch } }
  (s2.raise 0x013 (mDma ch) (le 1 ch)).contained 0x0A .dma (mDma ch) addr

/-- A register write that came in the cycle of the end. -/
def Dma.write (c : Dma) : DmaReg → Dma
  | .src v => { c with src := v }
  | .dst v => { c with dst := v }
  | .len v => { c with len := v }
  | .cfg v => { c with
      irq := v.getLsbD 8, elem := v.extractLsb' 4 3, dstFixed := v.getLsbD 3, dstDev := v.getLsbD 2, srcFixed := v.getLsbD 1
      srcDev := v.getLsbD 0 }

/-- A write of `HALTED` 1 (R410): ignored while a channel drains; held starts then take place. -/
def State.dmaUnhalt (s : State) : State :=
  if s.dma.chans.any fun q => q.2.state == 2 then s
  else
    let s1 : State := { s with dma := { s.dma with halted := false } }
    (s1.dma.chans.map (·.1)).foldl (fun s n => s.dmaHeld n) s1

/-! ### Commands -/

/-- DMA_GO (R406, R408). -/
def execDmaGo (m : Master) (ch : Fin 32) (s : State) : Host.Outcome State Fault Refusal :=
  issuedBy m s <|
  done ((s.disarm m).dmaGo ch).settleInts
/-- DMA_PAUSE (R409). -/
def execDmaPause (m : Master) (ch : Fin 32) (s : State) : Host.Outcome State Fault Refusal :=
  issuedBy m s <|
  done ((s.disarm m).dmaPause ch).settleInts
/-- DMA_RESUME (R409). -/
def execDmaResume (m : Master) (ch : Fin 32) (s : State) : Host.Outcome State Fault Refusal :=
  issuedBy m s <|
  done ((s.disarm m).dmaResume ch).settleInts
/-- DMA_ABORT (R409). -/
def execDmaAbort (m : Master) (ch : Fin 32) (s : State) : Host.Outcome State Fault Refusal :=
  issuedBy m s <|
  done ((s.disarm m).dmaAbort ch).settleInts

/-- DMA_DONE (R405, R407, R408): the rest of the transfer is moved, `LEN` reaches 0 and a held start begins. `data` is what a host
source gives; `same` are register writes of the ending cycle. A device source that cannot be read fails the transfer instead. -/
def execDmaDone (ch : Fin 32) (data : Bytes) (same : List DmaReg) (s : State) : Host.Outcome State Fault Refusal :=
  awake s <|
  let c := s.chan ch
  if c.state ≠ 1 then done s
  else
    let n := c.len.toNat
    let r := if c.srcDev then readable s (mDma ch) (accesses c.srcFixed c.unit (n + 1) c.src.toNat n) else (n, none)
    let s1 := s.dmaMove ch (if c.srcDev then sourceBytes s c r.1 else slice data 0 n)
    match r.2 with
    | some (e, a) =>
      -- an unmapped read is recorded as such too (R431)
      let s2 := if e = 0x02 then s1.contained 0x02 .dma (mDma ch) a else s1
      done (s2.dmaFail ch 2 a)
    | none =>
      let s2 := s1.dmaEnd ch 0
      let s3 := s2.setChan ch (same.foldl Dma.write (s2.chan ch))
      done (s3.dmaHeld ch).settleInts

/-- DMA_ACCESS_ERROR (R410): an access fails at `addr` after `moved` bytes (their content for a host source). -/
def execDmaAccessError (ch : Fin 32) (e : DmaErr) (addr : BitVec 48) (moved : Bytes) (s : State) : Host.Outcome State Fault Refusal :=
  awake s <|
  let c := s.chan ch
  let possible := match e with | .host => !c.srcDev || !c.dstDev | .device => c.srcDev
  if c.state ≠ 1 ∨ possible = false then done s
  else
    let b := moved.take (c.len.toNat - 1)
    let s1 := s.dmaMove ch (if c.srcDev then sourceBytes s c b.length else b)
    match e with
    | .host => done (s1.dmaFail ch 1 addr.toNat)
    | .device => done (s1.dmaFail ch 2 addr.toNat)

/-- DMA_HALTED_CLEAR (R410). -/
def execDmaHaltedClear (m : Master) (s : State) : Host.Outcome State Fault Refusal :=
  issuedBy m s <| done ((s.disarm m).dmaUnhalt).settleInts

end Sys2Proof.Machine
end

