-- ==== Sys2Proof/Machine/Power.lean ====
section
/-! DEFINITION. Resets and power (R37 to R40, R52 to R56, R60 to R66, R455, R477, R483, R485, R506, R509, R515): the reset kinds but the host
reset, the service button, the power warning, learn-log segments and snapshots, regulators, CAN bus-off, boundary scan. -/

namespace Sys2Proof.Machine

/-! ### Whole-device resets (R37, R39, R58, R509, R515) -/

/-- The rails rise: the retention registers of 0x7011 show the last fatal fault that was committed (R465), and a held thermal reset has
no power to remember it. -/
def State.powerOn (s : State) (st : Straps) : State :=
  State.wholeReset { s with
    faults := { s.faults with lastFatal := s.store.committedFatal, thermalHold := false }
    boot := { s.boot with held := false } } 2 st false

/-- POWER_ON_RESET (R37, R58): cause 0x02 unless the mount finds a shutdown record. -/
def execPowerOnReset (st : Straps) (s : State) : Host.Outcome State Fault Refusal := done (s.powerOn st)

/-- RAIL_MONITOR_TRIP (R509): a rail below 94 % of nominal for 200 ns or longer is a loss of power. -/
def execRailMonitorTrip (_rail : Fin 13) (lowNs : Nat) (st : Straps) (s : State) : Host.Outcome State Fault Refusal :=
  if lowNs < 200 then done s else done (s.powerOn st)

/-- PIN_RESET (R37, R40, R515): `RST_N` low for 100 ns or longer, and its release. -/
def execPinReset (lowNs : Nat) (st : Straps) (s : State) : Host.Outcome State Fault Refusal :=
  if lowNs < 100 then done s
  else
    let t := State.wholeReset { s with out := s.out ++ rstLowPins } 3 st false
    done { t with out := t.out ++ rstHighPins }

/-- RESTART_REQUEST (R37, R63): the accepted write of 1 to 0x2001:00 acts. -/
def execRestartRequest (st : Straps) (s : State) : Host.Outcome State Fault Refusal :=
  awake s <|
  match s.takeAct 0x2001 0 with
  | none => done s
  | some (_, s1) => done (s1.wholeReset 4 st false)

/-- BOOT_WATCHDOG_EXPIRY (R37, R52). -/
def execBootWatchdogExpiry (st : Straps) (s : State) : Host.Outcome State Fault Refusal :=
  awake s <|
  match s.boot.watchdog with
  | none => done s
  | some t => if s.clk.now < t then done s else done (s.wholeReset 5 st false)

/-- A start in Newt mode is decided before the mount (R37, R60). -/
def State.intoNewt (s : State) (outcome : BitVec 8) : State := { s with boot := { s.boot with newt := true, outcome := outcome } }

/-- RECOVERY_WATCHDOG_EXPIRY (R37, R55): 30 s after the recovery firmware last restarted it; Newt mode starts again. -/
def execRecoveryWatchdogExpiry (st : Straps) (s : State) : Host.Outcome State Fault Refusal :=
  awake s <|
  match s.boot.recovery with
  | none => done s
  | some t =>
    if s.clk.now < t + 30000000000 then done s else done ((s.wholeReset 5 st true).intoNewt s.boot.outcome)

/-- LEAVE_NEWT (R37, R56): the latch and the failed-start count are cleared; a write-protected store (R65) keeps them. -/
def execLeaveNewt (st : Straps) (s : State) : Host.Outcome State Fault Refusal :=
  awake s <|
  match s.takeAct 0x2013 0 with
  | none => done s
  | some (_, s1) => done (State.wholeReset
      { s1 with store := if storeShut s1 then s1.store else { s1.store with newtLatch := false, failed := 0 } } 9 st true)

/-! ### The service button (R60 to R62, R477) -/

/-- The button has been held for a time. -/
def heldFor (s : State) (ns : Nat) : Bool :=
  match s.svc.pressedAt with
  | some t => decide (t + ns ≤ s.clk.now)
  | none => false

/-- SERVICE_PRESS (R60, R61): a filtered falling edge starts the timer, once the level has been seen high. -/
def execServicePress (s : State) : Host.Outcome State Fault Refusal :=
  if !s.pins.serviceN then done s
  else if asleep s then done { s with pins := { s.pins with serviceN := false }, svc := { seenHigh := false } }
  else done { s with
    pins := { s.pins with serviceN := false }
    svc := { seenHigh := s.svc.seenHigh, pressedAt := if s.svc.seenHigh then some s.clk.now else none } }

/-- SERVICE_RELEASE (R60, R61): before 5 s a service-press event to station firmware, counted in 0x2014:02. -/
def execServiceRelease (s : State) : Host.Outcome State Fault Refusal :=
  if s.pins.serviceN then done s
  else
    let s1 : State := { s with pins := { s.pins with serviceN := true }, svc := { seenHigh := true } }
    if asleep s then done s1
    else if s.svc.pressedAt.isSome && !(heldFor s 5000000000) then
      done (State.raise { s1 with boot := { s1.boot with presses := s1.boot.presses + 1 } } 0x005 mFault [])
    else done s1

/-- SERVICE_HOLD_5S (R54, R60, R61): the Newt latch is set, once per press, and the device restarts into Newt mode; in Newt mode nothing
happens. A write-protected store (R65) keeps its latch. -/
def execServiceHold5s (st : Straps) (s : State) : Host.Outcome State Fault Refusal :=
  awake s <|
  if !(heldFor s 5000000000) || s.svc.did5 then done s
  else
    let s1 : State := { s with svc := { s.svc with did5 := true } }
    if s.boot.newt then done s1
    else
      let st1 : Store := if storeShut s then s1.store else { s1.store with newtLatch := true, latchBy := 0x11 }
      done ((({ s1 with store := st1 } : State).wholeReset 7 st true).intoNewt 0x11)

/-- The journal record of a factory restore: one entry of path tag 0x07, with the next number of the device-local stream (R82). -/
def restoreRecord (st : Store) : JRecord :=
  { openedAt := 0
    entries := [{
      seq := BitVec.ofNat 64 (2 ^ 47 + st.nextLocal % 2 ^ 47), tag := 7, idx := 0, sub := 0, row := none, val := .num 0, req := 0, op := 0
      se := .firmware }] }

/-- A factory restore (R62), one journal record of its own: every parameter at its default, no snapshot or learned segment, no rule set,
no latch, no pair state. -/
def Store.restored (st : Store) : Store :=
  { st with
    image := [], journal := [restoreRecord st], cutOff := none, segCut := none, learnLog := [], snapA := none, snapB := none, ruleset := [], rulesLater := false
    newtLatch := false, failed := 0, pair := {}, nextLocal := st.nextLocal + 1 }

/-- SERVICE_HOLD_15S (R60, R62): the restore happens in full if its record is `committed`, which intake closed by a power warning or a
read-only store prevents; the device then restarts. -/
def execServiceHold15s (st : Straps) (committed : Bool) (s : State) : Host.Outcome State Fault Refusal :=
  awake s <|
  if !(heldFor s 15000000000) || s.svc.did15 then done s
  else
    let ok := committed && !s.boot.warning && storeOpen s
    done (State.wholeReset { s with
      svc := { s.svc with did15 := true }
      dict := if ok then { s.dict with waiting := [] } else s.dict
      store := if ok then s.store.restored else s.store } 8 st true)

/-- SERVICE_STUCK (R60, R477): held for 60 s, one stuck event; the button counts as input 16. -/
def execServiceStuck (s : State) : Host.Outcome State Fault Refusal :=
  awake s <|
  if !(heldFor s 60000000000) || s.svc.didStuck then done s
  else done (State.raise { s with svc := { s.svc with didStuck := true } } 0x006 mFault [0x10])

/-! ### The power warning (R64 to R67, R85, R455, R483, R485) -/

/-- PWRFAIL_WARNING (R65): a filtered falling edge. From the Selvedge step on a croak with `STATE` 5 goes out first (R485), and
`PAIR_ALIVE_OUT` stays low (R483). Intake closes, the open record's commit begins and a snapshot being written is abandoned (R455). -/
def execPwrfailWarning (s : State) : Host.Outcome State Fault Refusal :=
  if !s.pins.pwrfailN then done s
  else if asleep s then done { s with pins := { s.pins with pwrfailN := false, pwrfailAt := s.clk.now } }
  else
    let s0 : State := if s.boot.selvedge then s.croak 5 else s
    let s1 := State.aliveLow { s0 with pins := { s0.pins with pwrfailN := false, pwrfailAt := s.clk.now } }
    let s2 : State := if s.boot.mounted then
        State.closeRecord { s1 with boot := { s1.boot with warning := true, snapWrite := none } }
      else s1
    done (s2.raise 0x004 mFault [])

/-- SHUTDOWN_RECORD (R53, R65): once every record's commit and a segment's write have ended, the shutdown record is written with the
count of failed starts as it was before a start still under watch, and the store is write-protected. -/
def execShutdownRecord (s : State) : Host.Outcome State Fault Refusal :=
  awake s <|
  if !s.boot.warning || s.boot.shutdown || !s.dict.waiting.isEmpty || s.dict.openRec.isSome || s.boot.segWrite.isSome then done s
  else
    let n := if s.boot.watchdog.isSome then s.store.failed - 1 else s.store.failed
    done { s with boot := { s.boot with shutdown := true }, store := { s.store with shutdownRec := some n } }

/-- BROWNOUT (R66): `PWRFAIL_N` has been high for 10 ms. A warning is counted, its shutdown record erased, and intake reopens; what the
protected store could not take is written now. -/
def execBrownout (s : State) : Host.Outcome State Fault Refusal :=
  if s.pins.pwrfailN || decide (s.clk.now < s.pins.pwrfailAt + 10000000) then done s
  else
    let s1 : State := { s with pins := { s.pins with pwrfailN := true } }
    if s.boot.warning && !(asleep s) then
      let s2 : State := { s1 with
        boot := { s1.boot with warning := false, shutdown := false, roleOwed := false }
        store := { s1.store with brownouts := s1.store.brownouts + 1, shutdownRec := none } }
      let s3 := match s.faults.liveMap with
        | some m => s2.setSparing m
        | none => s2
      done ((if s.boot.roleOwed then s3.storeRole else s3).storeRules)
    else done s1

/-! ### Learn-log segments and snapshots (R66, R455) -/

/-- A capture of the learn log is due (R66): 1 s after the last, or once the log holds 64 KiB. -/
def captureDue (s : State) : Bool :=
  decide (s.boot.lastCapture + 1000000000 ≤ s.clk.now) || decide (65536 ≤ Config.segmentBytes s.selv.learnLog.length)

/-- LEARN_LOG_CAPTURE (R66, R449): the log becomes a segment whose write begins, while one of the 32 slots is free. -/
def execLearnLogCapture (s : State) : Host.Outcome State Fault Refusal :=
  awake s <|
  if !s.boot.selvedge || !(captureDue s) || s.boot.warning || s.store.readOnly || s.boot.segWrite.isSome || decide (32 ≤ s.store.learnLog.length) then done s
  else
    let g : Learned := { seq := s.store.learnSeq + 1, ptp := BitVec.ofNat 64 s.time.ptp, deltas := s.selv.learnLog, whole := false }
    done { s with
      boot := { s.boot with segWrite := some g, lastCapture := s.clk.now }
      selv := { s.selv with learnLog := [] }
      store := { s.store with learnSeq := s.store.learnSeq + 1 } }

/-- LEARN_LOG_SEGMENT_DONE (R65, R66): the segment's write, which yields to journal commits, ends. -/
def execLearnLogSegmentDone (s : State) : Host.Outcome State Fault Refusal :=
  awake s <|
  match s.boot.segWrite, s.dict.waiting with
  | some g, [] => done { s with boot := { s.boot with segWrite := none }, store := { s.store with learnLog := s.store.learnLog ++ [g] } }
  | _, _ => done s

/-- SNAPSHOT_WRITE (R455): with 24 slots in use the learned tables are written whole. -/
def execSnapshotWrite (s : State) : Host.Outcome State Fault Refusal :=
  awake s <|
  if s.store.learnLog.length < 24 ∨ s.boot.warning ∨ s.store.readOnly ∨ s.boot.snapWrite.isSome then done s
  else
    let g : Learned := { seq := s.store.learnSeq, ptp := BitVec.ofNat 64 s.time.ptp, deltas := wholeTables s, whole := true }
    done { s with boot := { s.boot with snapWrite := some g } }

/-- Put a snapshot in the place of the older of A and B. -/
def Store.snapshot (st : Store) (g : Learned) : Store :=
  match st.snapA, st.snapB with
  | some a, some b => if b.seq < a.seq then { st with snapB := some g } else { st with snapA := some g }
  | some _, none => { st with snapB := some g }
  | none, _ => { st with snapA := some g }

/-- SNAPSHOT_VERIFIED (R455): the slots that the snapshot covers are freed. -/
def execSnapshotVerified (s : State) : Host.Outcome State Fault Refusal :=
  awake s <|
  match s.boot.snapWrite, s.dict.waiting with
  | some g, [] =>
    let st := s.store.snapshot g
    done { s with
      boot := { s.boot with snapWrite := none }
      store := { st with learnLog := st.learnLog.filter fun x => decide (g.seq < x.seq) } }
  | _, _ => done s

/-! ### Regulators, CAN, boundary scan (R467, R506, R515) -/

/-- 0x2061 of a rail: voltage in mV and current in 0.1 A, or not read. -/
def railWord (s : State) (answers : List (Option (BitVec 16 × BitVec 16))) (r : Nat) : Word :=
  if par s 0x2060 (r + 1) = 0 then 0xFFFFFFFF
  else match answers[r]? with
    | some (some (v, a)) => a ++ v
    | _ => 0xFFFFFFFF

/-- REGULATOR_POLL (R506): the 13 regulators are read; an address of 0 or no answer leaves 0xFFFF_FFFF. -/
def execRegulatorPoll (answers : List (Option (BitVec 16 × BitVec 16))) (s : State) : Host.Outcome State Fault Refusal :=
  awake s <|
  guarded (.regulatorPoll answers)
    (done { s with mem := { s.mem with
      regs2061 := (List.range 13).foldl (fun t r => put t (r + 1) (railWord s answers r)) s.mem.regs2061 } })

/-- CAN_BUS_OFF (R467). -/
def execCanBusOff (on : Bool) (s : State) : Host.Outcome State Fault Refusal :=
  awake s <|
  done (State.syncErr { s with paths := { s.paths with busOff := on } })

/-- BOUNDARY_SCAN (R515): the core is disconnected from its pins until the next whole-device reset. -/
def execBoundaryScan (s : State) : Host.Outcome State Fault Refusal := done { s with clk := { s.clk with scan := true } }

end Sys2Proof.Machine
end

