-- ==== Sys2Proof/Machine/Interrupts.lean ====
section
/-! DEFINITION. Interrupt commands of chapter 15: raise, claim, complete, pending and mask arrays, SGI, moderation, stream logs. -/

namespace Sys2Proof.Machine

/-! ### Shared parts -/

/-- A target's master-side register in a fault record: `CLAIM` of a core's block, or `HOST_CLAIM` (R416, R418). -/
def claimAddr : IntTarget → Nat
  | .core k => bar0Addr (0x50000 + 0x1000 * k.val)
  | .vector v => bar0Addr (0x60000 + 4 * v.val)

/-- Whether a core's private bank can be reached: its core is in service (R472). -/
def bankReachable (s : State) : IntBank → Bool
  | .shared => true
  | .priv k => corePhys s k.val != 0xFF

/-- Numbers of a bank that are edge sources software may set and clear (R415). -/
def edgeIn : IntBank → Nat → Bool
  | .shared, n => isShared n && !(isLevel n)
  | .priv _, n => isPrivate n
/-- Numbers of a bank that are sources. -/
def sourceIn : IntBank → Nat → Bool
  | .shared, n => isShared n
  | .priv _, n => isPrivate n

/-- The number of bit `b` of word `w` of an array: shared arrays have 128 words, a core block's two words stand for
0x040 to 0x07F (R415, R416). -/
def arrayNum : IntBank → Nat → Nat → Nat
  | .shared, w, b => 32 * w + b
  | .priv _, w, b => 0x40 + 32 * (w % 2) + b

/-- Change the sources whose bits are set in a word written to an array. -/
def arrayWrite (i : Intc) (bank : IntBank) (ok : Nat → Bool) (w : Nat) (v : Word) (f : Source → Source) : Intc :=
  (List.range 32).foldl (fun i b =>
    if v.getLsbD b && ok (arrayNum bank w b) then
      i.setSrc (srcKey bank (arrayNum bank w b)) (f (i.src (srcKey bank (arrayNum bank w b))))
    else i) i

/-- A word of an array as it reads (R415). -/
def arrayRead (bank : IntBank) (w : Nat) (f : Nat → Bool) : Word :=
  (List.range 32).foldl (fun acc b =>
    if sourceIn bank (arrayNum bank w b) && f (srcKey bank (arrayNum bank w b)) then acc ||| (1#32 <<< b) else acc) 0

/-- The eligible sources of a target, each once. -/
def eligibleKeys (s : State) (t : IntTarget) : List Nat := (candidates s).filter (eligibleAt s t)

/-- What a claim at a target returns (R418): the best eligible source, else 4,095 when a notification was outstanding,
else 0. -/
def claimValue (s : State) (t : IntTarget) : Nat :=
  match bestSrc s (eligibleKeys s t) with
  | some key => srcNum key
  | none => if s.intc.notified.contains t then 0xFFF else 0

/-- The controller after a claim: the source active and its pending bit and assignment ended; the notification closed;
a claim that returned 4,095 counted (R418, R423). -/
def claimed (s : State) (t : IntTarget) : Intc :=
  let i := { s.intc with notified := s.intc.notified.filter (· ≠ t) }
  match bestSrc s (eligibleKeys s t) with
  | some key =>
    i.setSrc key { i.src key with
      active := some t, assigned := none, claimedAt := some s.clk.now,
      pending := if isLevel key then (i.src key).pending else false }
  | none => if s.intc.notified.contains t then { i with spurious := sat32 i.spurious } else i

/-- The key that a completion of number `n` at a target names: the core's own bank for private numbers. -/
def completeKey (t : IntTarget) (n : Nat) : Nat :=
  match t with
  | .core k => if 0x40 ≤ n ∧ n ≤ 0x7F then 4096 * (k.val + 1) + n else n
  | .vector _ => n

/-! ### Register accesses -/

/-- A read of `CLAIM` or `HOST_CLAIM` by master `m` (R418). -/
def State.claim (s : State) (m : Master) (t : IntTarget) : State :=
  State.settleInts (({ s with intc := claimed s t } : State).answer m (BitVec.ofNat 32 (claimValue s t)))

/-- A write of `CLAIM` or `HOST_CLAIM` (R418): a source active at the target completes; any other number is counted and recorded as a
contained error of the writing master. -/
def State.completeInt (s : State) (m : Master) (t : IntTarget) (n : Nat) : State :=
  let key := completeKey t n
  if (s.intc.src key).active = some t then
    State.settleInts { s with intc := s.intc.setSrc key { s.intc.src key with active := none } }
  else
    State.contained { s with intc := { s.intc with badComplete := sat32 s.intc.badComplete } } 0x07 .write m (claimAddr t)

/-- A write of an array (R415): the sources it names are changed. -/
def State.writeArray (s : State) (bank : IntBank) (ok : Nat → Bool) (w : Nat) (v : Word) (f : Source → Source) : State :=
  if bankReachable s bank then State.settleInts { s with intc := arrayWrite s.intc bank ok w v f } else s

/-- A write of `PEND_SET` (R415): level sources and private numbers of the shared arrays ignore it. No event is written: the event ring
records what a source's own rule raises. -/
def State.pendSet (s : State) (bank : IntBank) (w : Nat) (v : Word) : State :=
  s.writeArray bank (edgeIn bank) w v fun x => { x with pending := true }
/-- A write of `PEND_CLR` (R415, R112): an edge event `hw` of the same cycle leaves the bit set. -/
def State.pendClr (s : State) (bank : IntBank) (w : Nat) (v hw : Word) : State :=
  if bankReachable s bank then
    let i := arrayWrite s.intc bank (edgeIn bank) w v fun x => { x with pending := false }
    State.settleInts { s with intc := arrayWrite i bank (edgeIn bank) w hw fun x => { x with pending := true } }
  else s
/-- A write of `MASK_SET` (R415, R419). -/
def State.maskSet (s : State) (bank : IntBank) (w : Nat) (v : Word) : State :=
  s.writeArray bank (sourceIn bank) w v fun x => { x with unmasked := false }
/-- A write of `MASK_CLR` (R415). -/
def State.maskClr (s : State) (bank : IntBank) (w : Nat) (v : Word) : State :=
  s.writeArray bank (sourceIn bank) w v fun x => { x with unmasked := true }

/-- A write of `SGI` in logical core `k`'s block (R416): number 0x040 + k of core `CORE`'s bank is raised. -/
def State.sgi (s : State) (k : Nat) (v : Word) : State :=
  let dst := v.toNat % 16
  if corePhys s dst = 0xFF then s
  else State.settleInts { s with intc := s.intc.pend (4096 * (dst + 1) + 0x40 + k) }

/-- Key of a shadow (R115, R116): master and offset of `name_LO`. -/
def shadowKey (m : Master) (lo : Nat) : Nat := m.toNat * 2 ^ 24 + lo

/-- An entry of a stream log as `STREAM_LOG_LO` shows it (R421). -/
def logWord (lo : Word) : Word := lo ||| 0x80000000

/-- A read of `STREAM_LOG_LO` takes the oldest entry; its `STREAM_LOG_HI` is latched for the reading master (R115, R421). -/
def State.takeLog (s : State) (m : Master) (c : Nat) : State :=
  match lookD [] s.intc.logs c with
  | [] => State.answer { s with dev := { s.dev with rdShadow := put s.dev.rdShadow (shadowKey m (0x45000 + 8 * c)) 0 } } m 0
  | (lo, hi) :: r =>
    State.settleInts (({ s with
      intc := { s.intc with logs := put s.intc.logs c r }
      dev := { s.dev with rdShadow := put s.dev.rdShadow (shadowKey m (0x45000 + 8 * c)) hi } } : State).answer m (logWord lo))

/-! ### Commands -/

/-- INTERRUPT_RAISE (R412, R413, R422): an edge source of a bank becomes pending; a shared one writes its event. Level and
reserved numbers are not raised. -/
def execInterruptRaise (bank : IntBank) (n : BitVec 12) (m : Master) (detail : Bytes) (s : State) :
    Host.Outcome State Fault Refusal :=
  issuedBy m s <|
  if edgeIn bank n.toNat then
    match bank with
    | .shared => done (s.raise n.toNat m detail)
    | .priv k => done ({ s with intc := s.intc.pend (srcKey (.priv k) n.toNat) }.settleInts)
  else done s

/-- INTERRUPT_CLAIM (R418). -/
def execInterruptClaim (m : Master) (t : IntTarget) (s : State) : Host.Outcome State Fault Refusal :=
  issuedBy m s <| done (s.claim m t)
/-- INTERRUPT_COMPLETE (R418). -/
def execInterruptComplete (m : Master) (t : IntTarget) (n : BitVec 12) (s : State) : Host.Outcome State Fault Refusal :=
  issuedBy m s <|
  done ((s.disarm m).completeInt m t n.toNat)
/-- PEND_SET (R415). -/
def execPendSet (m : Master) (bank : IntBank) (w : Fin 128) (v : Word) (s : State) : Host.Outcome State Fault Refusal :=
  issuedBy m s <|
  done ((s.disarm m).pendSet bank w.val v)
/-- PEND_CLR (R415, R112). -/
def execPendClr (m : Master) (bank : IntBank) (w : Fin 128) (v : Word) (hw : Word) (s : State) : Host.Outcome State Fault Refusal :=
  issuedBy m s <|
  done ((s.disarm m).pendClr bank w.val v hw)
/-- MASK_SET (R415, R419): writing 1 masks a source; it may be withdrawn. -/
def execMaskSet (m : Master) (bank : IntBank) (w : Fin 128) (v : Word) (s : State) : Host.Outcome State Fault Refusal :=
  issuedBy m s <|
  done ((s.disarm m).maskSet bank w.val v)
/-- MASK_CLR (R415): writing 1 unmasks a source. -/
def execMaskClr (m : Master) (bank : IntBank) (w : Fin 128) (v : Word) (s : State) : Host.Outcome State Fault Refusal :=
  issuedBy m s <|
  done ((s.disarm m).maskClr bank w.val v)
/-- SGI (R416). -/
def execSgi (m : Master) (k : Fin 16) (v : Word) (s : State) : Host.Outcome State Fault Refusal :=
  issuedBy m s <| done ((s.disarm m).sgi k.val v)

/-- MODERATION_EXPIRY (R420): the time of a held source, or of a private one of that number at any core, has passed, so it is notified like any other. Before that time the
command finds it still held. -/
def execModerationExpiry (n : BitVec 12) (s : State) : Host.Outcome State Fault Refusal :=
  awake s <|
  let keys := if isPrivate n.toNat then (List.range 16).map (fun k => 4096 * (k + 1) + n.toNat) else [n.toNat]
  if keys.any fun k => pendingSrc s k && !(modHeld s k) then done s.settleInts else done s

/-- STREAM_LOG_TAKE (R421). -/
def execStreamLogTake (m : Master) (c : Fin 8) (s : State) : Host.Outcome State Fault Refusal :=
  issuedBy m s <| done (s.takeLog m c.val)

end Sys2Proof.Machine
end

