-- ==== Sys2Proof/Machine/RegMap.lean ====
section
/-! DEFINITION. The register maps of BAR0, BAR2 and BAR4 (R47, R48, R99, R105 to R117, R387, R399, R405, R414 to R423, R429, R463): what a
register reads as, and what a write of one does. -/

namespace Sys2Proof.Machine

/-! ### Fields -/

/-- A register word from values and the places of their lowest bits. -/
def pack (l : List (Nat × Nat)) : Word := BitVec.ofNat 32 (l.foldl (fun a q => a + q.1 * 2 ^ q.2) 0)
def lo32 (v : BitVec 64) : Word := v.extractLsb' 0 32
def hi32 (v : BitVec 64) : Word := v.extractLsb' 32 32

/-! ### 64-bit pairs (R115, R116) -/

/-- The offset of `name_LO` of the pair in which a BAR0 offset lies. -/
def wideLo (a : Nat) : Option Nat :=
  let n := a / 8 * 8
  if (0x10000 ≤ n ∧ n < 0x12000 ∧ n % 0x100 < 0x10) ∨ n = 0x20008 ∨ (0x45000 ≤ n ∧ n < 0x45040) ∨ n = 0x45100 ∨
      (0x100000 ≤ n ∧ n < 0x150000 ∧ n % 64 = 0) then some n else none

/-- The 64-bit value of a pair. -/
def wideVal (s : State) (n : Nat) : BitVec 64 :=
  if n < 0x12000 then
    let c := s.chan ((n - 0x10000) / 0x100)
    if n % 0x100 = 0 then c.src else c.dst
  else if n = 0x20008 then s.faults.addr.setWidth 64
  else if n < 0x45040 then
    match lookD [] s.intc.logs ((n - 0x45000) / 8) with
    | [] => 0
    | (lo, hi) :: _ => hi ++ logWord lo
  else if n = 0x45100 then s.intc.evBase
  else if n < 0x140000 then (s.sq ((n - 0x100000) / 64)).base
  else (s.cq ((n - 0x140000) / 64)).base

/-- Commit a pair: read-only pairs ignore it, rings that are not disabled and channels that move data discard it (R388, R408). -/
def State.wideStore (s : State) (n : Nat) (v : BitVec 64) : State :=
  let al := v &&& 0xFFFFFFFFFFFFFFC0
  if n < 0x12000 then
    let ch := (n - 0x10000) / 0x100
    let c := s.chan ch
    if c.state = 1 ∨ c.state = 2 then s
    else s.setChan ch (if n % 0x100 = 0 then { c with src := v } else { c with dst := v })
  else if n < 0x45100 then s
  else if n = 0x45100 then { s with intc := { s.intc with evBase := al } }
  else if n < 0x140000 then
    let p := (n - 0x100000) / 64
    let q := s.sq p
    if q.state = 0 then s.setSq p { q with base := al } else s
  else
    let c := (n - 0x140000) / 64
    s.setCq c { s.cq c with base := al }

/-- A read of `name_LO` fills the reading master's shadow; the log's read takes an entry (R421). -/
def State.readLo (s : State) (m : Master) (n : Nat) : State :=
  if 0x45000 ≤ n ∧ n < 0x45040 then s.takeLog m ((n - 0x45000) / 8)
  else
    let v := wideVal s n
    State.answer { s with dev := { s.dev with rdShadow := put s.dev.rdShadow (shadowKey m n) (hi32 v) } } m (lo32 v)

/-- A read of `name_HI` returns and empties the shadow, or returns the live high word. -/
def State.readHi (s : State) (m : Master) (n : Nat) : State :=
  match look s.dev.rdShadow (shadowKey m n) with
  | some v => State.answer { s with dev := { s.dev with rdShadow := del s.dev.rdShadow (shadowKey m n) } } m v
  | none => s.answer m (hi32 (wideVal s n))

/-- A write of `name_LO` is held. -/
def State.writeLo (s : State) (m : Master) (n : Nat) (v : Word) : State :=
  { s with dev := { s.dev with wrShadow := put s.dev.wrShadow (shadowKey m n) v } }

/-- A write of `name_HI` commits. -/
def State.writeHi (s : State) (m : Master) (n : Nat) (v : Word) : State :=
  let lo := (look s.dev.wrShadow (shadowKey m n)).getD (lo32 (wideVal s n))
  State.wideStore { s with dev := { s.dev with wrShadow := del s.dev.wrShadow (shadowKey m n) } } n (v ++ lo)

/-! ### The device block (R47, R110, R117) -/

def State.window (s : State) (w : Nat) : Window := lookD {} s.dev.windows w
def State.setWindow (s : State) (w : Nat) (v : Window) : State := { s with dev := { s.dev with windows := put s.dev.windows w v } }

/-- Register `r` of window `w` but `INDIRECT_DATA`; windows 21 to 23 read 0. -/
def windowVal (s : State) (w r : Nat) : Word :=
  let v := s.window w
  if 21 ≤ w then 0
  else if r = 0 then pack [(v.target.toNat, 20), (v.offset.toNat, 2)]
  else if r = 8 then pack [(v.errCode.toNat, 4), (b2n v.err, 3), (b2n (v.flight.any fun x => !x.gone), 2), (b2n v.autoInc, 0)]
  else 0

/-- The device block but `SCRATCH`. -/
def devVal (s : State) (m : Master) (a : Nat) : Word :=
  if a = 0 then 0x88600B01
  else if a = 8 then pack [(b2n s.boot.newt, 5), (b2n s.boot.pairId, 4), (s.boot.bootMode.toNat, 0)]
  else if a = 0x10 then pack [(b2n (s.dev.armed.contains m), 0)]
  else if a = 0x14 then s.dev.lockViol
  else if a = 0x20 then pack [(s.dev.injKind.toNat, 1), (b2n s.dev.injGo, 0)]
  else if a = 0x100 then pack [(s.boot.bootState.toNat, 16), (b2n s.boot.imageBad, 1), (b2n s.boot.go, 0)]
  else if 0x200 ≤ a ∧ a < 0x380 then windowVal s ((a - 0x200) / 16) (a % 16)
  else 0

/-- A read of `SCRATCH` (R110): an injected error is met once. -/
def State.readScratch (s : State) (m : Master) : State :=
  let s1 : State := { s with dev := { s.dev with injGo := false } }
  if s.dev.injGo then
    if s.dev.injKind = 2 then (s1.contained 0x01 .read m (bar0Addr 4)).answer m 0xFFFFFFFF
    else s1.corrected.answer m s.dev.scratch
  else s.answer m s.dev.scratch

/-- `UNLOCK_KEY` (R122): the key arms one unlock, any other value clears the master's and counts. -/
def State.writeKey (s : State) (m : Master) (v : Word) : State :=
  let s1 := s.disarm m
  if v = 0x57454654 then { s1 with dev := { s1.dev with armed := s1.dev.armed ++ [m] } } else s1.lockViolation m (bar0Addr 0x10)

/-- `ERR_INJECT` (R110, R111, R123): locked; a reserved `KIND` leaves the register as it is. -/
def State.writeInject (s : State) (m : Master) (v : Word) : State :=
  let open_ := s.dev.armed.contains m
  let s1 := s.disarm m
  let k : BitVec 2 := v.extractLsb' 1 2
  if !open_ then s1.lockViolation m (bar0Addr 0x20)
  else if k = 0 ∨ k = 3 then s1
  else { s1 with dev := { s1.dev with injKind := k, injGo := s1.dev.injGo || v.getLsbD 0 } }

/-! ### Targets (R118) -/

/-- A unit behind a window. -/
inductive ITarget where
  | enc (p : Nat)
  | dec (p : Nat)
  | engine (p : Nat)
  | time
  | store
  | hbm (k : Nat)
  | ddr (k : Nat)
deriving DecidableEq, Repr

/-- A unit is powered: it serves a logical number or is under test as the spare of a regrow (R18, R470, R505). -/
def unitUp (s : State) (u : HwUnit) : Bool :=
  (unitLogical s u).isSome || s.faults.regrows.any fun r => r.spare == some (unitNum u) && unitKind r.unit == unitKind u

/-- The unit of a target; 0x1 for a reserved target, 0x3 for a unit in reset or powered down. -/
def iTarget (s : State) (t : Nat) : Except (BitVec 4) ITarget :=
  let enc (p : Nat) : Except (BitVec 4) ITarget :=
    if p < 72 ∧ (s.tile p).powered ∧ unitUp s (.encTile (Fin.ofNat 72 p)) then .ok (.enc p) else .error 3
  let dec (p : Nat) : Except (BitVec 4) ITarget :=
    if p < 40 ∧ (s.dtile p).powered ∧ unitUp s (.decTile (Fin.ofNat 40 p)) then .ok (.dec p) else .error 3
  let eng (p : Nat) : Except (BitVec 4) ITarget :=
    if p < 9 ∧ (lookD ({} : Engine) s.batten.engines p).powered ∧ unitUp s (.engine (Fin.ofNat 9 p)) then .ok (.engine p) else .error 3
  if t < 0x40 then enc (encPhys s t)
  else if 0x80 ≤ t ∧ t < 0xA0 then dec (decPhys s (t - 0x80))
  else if 0xC0 ≤ t ∧ t < 0xC8 then eng (enginePhys s (t - 0xC0))
  else if t = 0x301 then (if s.boot.timeUp then .ok .time else .error 3)
  else if t = 0x302 then .ok .store
  else if 0x340 ≤ t ∧ t < 0x344 then .ok (.hbm (t - 0x340))
  else if 0x350 ≤ t ∧ t < 0x358 then .ok (.ddr (t - 0x350))
  else if 0x400 ≤ t ∧ t < 0x448 then enc (t - 0x400)
  else if 0x480 ≤ t ∧ t < 0x4A8 then dec (t - 0x480)
  else if 0x4C0 ≤ t ∧ t < 0x4C9 then eng (t - 0x4C0)
  else .error 1

/-- A logical target whose unit is being regrown: its accesses wait for the swap (R120). -/
def iWaits (s : State) (t : Nat) : Bool :=
  s.faults.regrows.any fun r => match unitLogical s r.unit, r.unit with
    | some n, .encTile _ => t == n
    | some n, .decTile _ => t == 0x80 + n
    | some n, .engine _ => t == 0xC0 + n
    | _, _ => false

/-- The control-command Bobbin of a target, for the tiles and engines that are up (R31, R120). -/
def controlBob (s : State) (t : Nat) : Option BobbinId :=
  match iTarget s t with
  | .ok (.enc p) => some (.controlTile (Fin.ofNat 72 p))
  | .ok (.dec p) => some (.controlDtile (Fin.ofNat 40 p))
  | .ok (.engine p) => some (.controlEngine (Fin.ofNat 9 p))
  | _ => none
/-- The command of an access as an item of 64 bits (DESIGN CHOICE, log entry 198: the spec gives the item no layout): data, word offset, write,
window. -/
def accessItem (w : Nat) (x : IAccess) : BitVec 256 :=
  BitVec.ofNat 256 ((x.write.getD 0).toNat + x.offset.toNat * 2 ^ 32 + b2n x.write.isSome * 2 ^ 50 + w % 32 * 2 ^ 51)
/-- The command of an access enters its target's Bobbin, unless it is there or waits for a swap. -/
def State.issueCommand (s : State) (w : Nat) (x : IAccess) : State :=
  match controlBob s x.target.toNat with
  | none => s
  | some b =>
    let v := (s.bobSrc b).bob b
    if iWaits s x.target.toNat || v.held.contains (accessItem w x) || v.items.any (fun q => q.1 == accessItem w x) then s
    else (s.bobSrc b).bobPush b [accessItem w x]

/-- An access through `INDIRECT_DATA` is issued (R119, R120); a write uses up its master's unlock (R122). -/
def State.issueIndirect (s : State) (m : Master) (w : Nat) (write : Option Word) : State :=
  let v := s.window w
  if 21 ≤ w then (if write.isSome then s.disarm m else s.answer m 0)
  else
    let x : IAccess := { m := m, target := v.target, offset := v.offset, write := write, issued := s.clk.now }
    let s1 := if write.isSome then s.disarm m else s
    let s2 := s1.setWindow w { v with flight := v.flight ++ [x], offset := if v.autoInc then v.offset + 1 else v.offset }
    if v.flight.isEmpty then s2.issueCommand w x else s2

/-- A write of a window's `INDIRECT_ADDR` or `INDIRECT_CTRL`. -/
def State.writeWindow (s : State) (w r : Nat) (v : Word) : State :=
  let x := s.window w
  if 21 ≤ w then s
  else if r = 0 then s.setWindow w { x with target := v.extractLsb' 20 12, offset := v.extractLsb' 2 18 }
  else if r = 8 then s.setWindow w { x with err := x.err && !(v.getLsbD 3), autoInc := v.getLsbD 0 }
  else s

/-- A write in the device block, the key and `ERR_INJECT` apart. -/
def State.writeDev (s : State) (a : Nat) (v : Word) : State :=
  if a = 4 then { s with dev := { s.dev with scratch := v } }
  else if a = 0x14 then { s with dev := { s.dev with lockViol := v } }
  else if a = 0x100 then
    let s1 : State := { s with boot := { s.boot with imageBad := s.boot.imageBad && !(v.getLsbD 1) } }
    if v.getLsbD 0 then s1.bootGo else s1
  else if 0x200 ≤ a ∧ a < 0x380 then s.writeWindow ((a - 0x200) / 16) (a % 16) v
  else s

/-! ### DMA (R405) -/

def dmaVal (s : State) (a : Nat) : Word :=
  let c := s.chan ((a - 0x10000) / 0x100)
  let r := a % 0x100
  if a = 0x1F000 then pack [(s.dma.channel.toNat, 8), (b2n s.dma.halted, 0)]
  else if 0x12000 ≤ a then 0
  else if r = 0x10 then c.len
  else if r = 0x14 then
    pack [(b2n c.irq, 8), (c.elem.toNat, 4), (b2n c.dstFixed, 3), (b2n c.dstDev, 2), (b2n c.srcFixed, 1), (b2n c.srcDev, 0)]
  else if r = 0x18 then pack [(b2n c.pause, 1), (b2n c.held, 0)]
  else if r = 0x1C then pack [(c.errCode.toNat, 12), (b2n c.err, 9), (b2n c.done, 8), (b2n c.held, 2), (c.state.toNat, 0)]
  else 0

/-- A write of `DMA_CTRL`: `PAUSE`, then `ABORT`, then `GO`. -/
def State.writeDmaCtrl (s : State) (ch : Nat) (v : Word) : State :=
  let s1 := if v.getLsbD 1 then s.dmaPause ch else s.dmaResume ch
  let s2 := if v.getLsbD 2 then s1.dmaAbort ch else s1
  if v.getLsbD 0 then s2.dmaGo ch else s2

def State.writeDma (s : State) (a : Nat) (v : Word) : State :=
  let ch := (a - 0x10000) / 0x100
  let c := s.chan ch
  let r := a % 0x100
  let still := c.state != 1 && c.state != 2
  if a = 0x1F000 then (if v.getLsbD 0 then s.dmaUnhalt else s)
  else if 0x12000 ≤ a then s
  else if r = 0x10 then (if still then s.setChan ch { c with len := v } else s)
  else if r = 0x14 then (if still then s.setChan ch (c.write (.cfg v)) else s)
  else if r = 0x18 then s.writeDmaCtrl ch v
  else if r = 0x1C then s.setChan ch { c with err := c.err && !(v.getLsbD 9), done := c.done && !(v.getLsbD 8) }
  else s

/-! ### The fault unit (R463, R464) -/

def fltVal (s : State) (a : Nat) : Word :=
  let f := s.faults
  if a = 0 then pack [(b2n f.valid, 31), (b2n f.overflow, 30), (b2n f.diverged, 29)]
  else if a = 4 then pack [(f.kind.toNat, 24), (f.severity.toNat, 16), (f.access.toNat, 12), (f.master.toNat, 0)]
  else if a = 0x10 then pack [(f.nanos.toNat, 0)]
  else if a = 0x14 then f.seconds.extractLsb' 0 32
  else if a = 0x18 then pack [(f.seconds.toNat / 2 ^ 32, 0)]
  else if a = 0x1C then f.overflows
  else if a = 0x20 then f.corrected
  else if a = 0x24 then f.contained
  else if a = 0x28 then pack [(b2n f.pulseEnd.isSome, 2), (b2n f.hold, 1), (b2n f.errLow, 0)]
  else 0

/-- A write of `ERR_PIN` (R464). -/
def State.writeErrPin (s : State) (v : Word) : State :=
  let s1 := State.syncGpio { s with faults := { s.faults with hold := v.getLsbD 1 } }
  if s1.faults.errLow = s.faults.errLow then s1 else s1.emit (.pin "ERR_N" (!s1.faults.errLow))

def State.writeFlt (s : State) (a : Nat) (v : Word) : State :=
  if a = 0 then (s.writeFltStatus v).syncErr
  else if a = 0x1C then { s with faults := { s.faults with overflows := v } }
  else if a = 0x20 then { s with faults := { s.faults with corrected := v } }
  else if a = 0x24 then { s with faults := { s.faults with contained := v } }
  else if a = 0x28 then s.writeErrPin v
  else s

/-! ### The interrupt controller (R414 to R423) -/

/-- `SRC_CFG` of a source. -/
def cfgWord (s : State) (key : Nat) : Word :=
  let c := s.intc.cfg key
  pack [(b2n (isLevel key), 29), (b2n c.classA, 28), (b2n c.toMsix, 27), (c.target.toNat, 16), (c.mod.toNat, 12), (c.prio.toNat, 0)]

/-- A write of `SRC_CFG`: a core above 15 is refused whole; a new priority or target withdraws an assignment (R419). -/
def State.writeSrcCfg (s : State) (n : Nat) (v : Word) : State :=
  let c : SrcCfg :=
    { classA := v.getLsbD 28 && canClassA n, toMsix := v.getLsbD 27, target := v.extractLsb' 16 11, mod := v.extractLsb' 12 4
      prio := v.extractLsb' 0 4 }
  if !(isShared n) || (!c.toMsix && decide (15 < c.target.toNat)) then s
  else State.settleInts { s with intc := s.intc.setSrc n { s.intc.src n with cfg := some c, assigned := none } }

/-- A write of `PRIV_CFG`: only `MOD` and `PRIO` are writable (R415). -/
def State.writePrivCfg (s : State) (k : Fin 16) (n : Nat) (v : Word) : State :=
  let key := srcKey (.priv k) n
  if !(isPrivate n) || !(bankReachable s (.priv k)) then s
  else State.settleInts { s with intc := s.intc.setSrc key { s.intc.src key with
    cfg := some { mod := v.extractLsb' 12 4, prio := v.extractLsb' 0 4 } } }

/-- Word `w` of array `j` of a bank: pending twice, mask twice, active. -/
def arrayVal (s : State) (bank : IntBank) (j w : Nat) : Word :=
  if j < 2 then arrayRead bank w (pendingSrc s)
  else if j < 4 then arrayRead bank w fun key => !(s.intc.src key).unmasked
  else arrayRead bank w fun key => (s.intc.src key).active.isSome
/-- A write of array `j`. -/
def State.writeArrayReg (s : State) (bank : IntBank) (j w : Nat) (v : Word) : State :=
  if j = 0 then s.pendSet bank w v
  else if j = 1 then s.pendClr bank w v 0
  else if j = 2 then s.maskSet bank w v
  else if j = 3 then s.maskClr bank w v
  else s

/-- `CORE_STATE` of logical core `k`. -/
def coreStateVal (s : State) (k : Fin 16) : Word :=
  let n := (s.intc.sources.filter fun q => q.2.assigned == some k.val).length
  pack [(b2n (idleCore s k), 9), (b2n (s.intc.notified.contains (.core k)), 8), (min n 15, 4), (runPrio s (.core k) (2 ^ 40), 0)]

/-- A core's block (R416) but `CLAIM`. -/
def coreVal (s : State) (k : Fin 16) (r : Nat) : Word :=
  if r = 4 then pack [((lookD 0 s.intc.threshold k).toNat, 0)]
  else if r = 8 then coreStateVal s k
  else if 0x10 ≤ r ∧ r < 0x38 then arrayVal s (.priv k) ((r - 0x10) / 8) (r / 4 % 2)
  else if 0x100 ≤ r ∧ r < 0x200 then
    let n := 0x40 + (r - 0x100) / 4
    if isPrivate n then cfgWord s (srcKey (.priv k) n) &&& 0xF00F else 0
  else 0

def State.writeCore (s : State) (m : Master) (k : Fin 16) (r : Nat) (v : Word) : State :=
  if r = 0 then s.completeInt m (.core k) (v.toNat % 4096)
  else if r = 4 then State.settleInts { s with intc := { s.intc with threshold := put s.intc.threshold k (v.extractLsb' 0 4) } }
  else if r = 0xC then s.sgi k v
  else if 0x10 ≤ r ∧ r < 0x38 then s.writeArrayReg (.priv k) ((r - 0x10) / 8) (r / 4 % 2) v
  else if 0x100 ≤ r ∧ r < 0x200 then s.writePrivCfg k (0x40 + (r - 0x100) / 4) v
  else s

/-- The interrupt controller's registers without side effects on a read. -/
def intVal (s : State) (a : Nat) : Word :=
  if a < 0x44000 then
    let n := (a - 0x40000) / 4
    if isShared n then cfgWord s n else 0
  else if a < 0x44A00 then arrayVal s .shared ((a - 0x44000) / 0x200) ((a - 0x44000) / 4 % 128)
  else if a = 0x45108 then pack [(b2n s.intc.evEnable, 31), (b2n s.intc.evLocal, 30), (s.intc.evSize.toNat, 0)]
  else if a = 0x4510C then pack [(s.intc.evTail.toNat, 0)]
  else if a = 0x45110 then pack [(s.intc.evHead.toNat, 0)]
  else if a = 0x45114 then s.intc.evDropped
  else if a = 0x45200 then s.intc.badComplete
  else if a = 0x45204 then s.intc.spurious
  else if a = 0x45208 then s.intc.logLost
  else if 0x50000 ≤ a ∧ a < 0x60000 then coreVal s (Fin.ofNat 16 ((a - 0x50000) / 0x1000)) (a % 0x1000)
  else 0

def State.writeInt (s : State) (m : Master) (a : Nat) (v : Word) : State :=
  let i := s.intc
  if a < 0x44000 then s.writeSrcCfg ((a - 0x40000) / 4) v
  else if a < 0x44A00 then s.writeArrayReg .shared ((a - 0x44000) / 0x200) ((a - 0x44000) / 4 % 128) v
  else if a = 0x45108 then
    { s with intc := { i with evEnable := v.getLsbD 31 && v.extractLsb' 0 4 != 0, evLocal := v.getLsbD 30, evSize := v.extractLsb' 0 4 } }
  else if a = 0x45110 then { s with intc := { i with evHead := v.extractLsb' 0 16 } }
  else if a = 0x45114 then { s with intc := { i with evDropped := v } }
  else if a = 0x45200 then { s with intc := { i with badComplete := v } }
  else if a = 0x45204 then { s with intc := { i with spurious := v } }
  else if a = 0x45208 then { s with intc := { i with logLost := v } }
  else if 0x50000 ≤ a ∧ a < 0x60000 then s.writeCore m (Fin.ofNat 16 ((a - 0x50000) / 0x1000)) (a % 0x1000) v
  else if 0x60000 ≤ a ∧ a < 0x62000 then s.completeInt m (.vector (Fin.ofNat 2048 ((a - 0x60000) / 4))) (v.toNat % 4096)
  else s

/-! ### MSI-X (R106, R418) -/

/-- A word of the MSI-X table; vectors are masked at reset. -/
def msixVal (s : State) (j : Nat) : Word := lookD (if j % 4 = 3 then 1 else 0) s.intc.msix j

/-- 32 bits of the pending-bit array. -/
def pbaVal (s : State) (w : Nat) : Word :=
  (List.range 32).foldl (fun acc b => if s.intc.pba.contains (32 * w + b) then acc ||| (1#32 <<< b) else acc) 0

/-- A write of the MSI-X table: unmasking a vector whose pending bit is set sends its message. -/
def State.writeMsix (s : State) (j : Nat) (v : Word) : State :=
  let x := if j % 4 = 3 then v &&& 1 else if j % 4 = 0 then v &&& 0xFFFFFFFC else v
  let s1 : State := { s with intc := { s.intc with msix := put s.intc.msix j x } }
  let n := j / 4
  if x = 0 ∧ j % 4 = 3 ∧ s.intc.pba.contains n then
    { s1 with
      intc := { s1.intc with pba := s1.intc.pba.filter (· ≠ n) }
      out := s1.out ++ [.notify (.vector (Fin.ofNat 2048 n)),
        .hostWrite (msixVal s1 (4 * n + 1) ++ msixVal s1 (4 * n)) (le 4 (msixVal s1 (4 * n + 2)).toNat)] }
  else s1

/-! ### The buffer pool (R429) -/

/-- The pool's registers but `BPM_ALLOC`. -/
def bpmVal (s : State) (a : Nat) : Word :=
  let b := s.bpm
  if a = 0 then pack [(b.mode.toNat, 0)]
  else if a = 4 then pack [(b.free, 0)]
  else if a = 8 then b.minFree
  else if a = 0xC then b.low
  else if a = 0x10 then b.high
  else if a = 0x20 then pack [(b.query.toNat, 0)]
  else if a = 0x24 then
    match look b.owners b.query.toNat with
    | some o => pack [(1, 31), (o.toNat, 0)]
    | none => 0
  else if a = 0x28 then b.rejects
  else if a = 0x2C then pack [(b.err.toNat, 0)]
  else if a = 0x30 then pack [(b.lastReason.toNat, 30), (b.lastMaster.toNat, 18), (b.lastBuffer.toNat, 0)]
  else 0

def State.writeBpm (s : State) (m : Master) (a : Nat) (v : Word) : State :=
  let b := s.bpm
  let n := v &&& 0x7FFFF
  if a = 8 then s.minFreeWrite
  else if a = 0xC then (if b.high.toNat ≤ n.toNat then s else { s with bpm := { b with low := n } })
  else if a = 0x10 then (if n.toNat ≤ b.low.toNat then s else { s with bpm := { b with high := n } })
  else if a = 0x18 then s.freeBuffer m (v.toNat % 2 ^ 18)
  else if a = 0x1C then s.giveBuffer m (v.toNat % 2 ^ 18) (v.extractLsb' 18 12)
  else if a = 0x20 then { s with bpm := { b with query := v.extractLsb' 0 18 } }
  else if a = 0x28 then { s with bpm := { b with rejects := v } }
  else if a = 0x2C then { s with bpm := { b with err := b.err &&& ~~~ (v.extractLsb' 0 4) } }
  else s

/-! ### Rings (R387, R399) -/

def sqVal (s : State) (p r : Nat) : Word :=
  let q := s.sq p
  if r = 8 then pack [(b2n q.enable, 31), (b2n q.loc, 30), (q.prio.toNat, 28), (q.cq.toNat, 16), (q.size.toNat, 0)]
  else if r = 0xC then pack [(q.head.toNat, 0)]
  else if r = 0x10 then pack [(q.tail.toNat, 0)]
  else if r = 0x14 then pack [(q.errCode.toNat, 12), (inProgress s p, 8), (q.state.toNat, 0)]
  else if r = 0x18 then pack [(b2n q.reset, 0)]
  else if r = 0x1C then q.done
  else 0

def State.writeSq (s : State) (p r : Nat) (v : Word) : State :=
  if r = 8 then s.writeSqCfg p v
  else if r = 0x18 then (if v.getLsbD 0 then s.shutSq p true else s)
  else if r = 0x1C then s.setSq p { s.sq p with done := v }
  else s

def cqVal (s : State) (c r : Nat) : Word :=
  let q := s.cq c
  if r = 8 then pack [(b2n q.enable, 31), (b2n q.loc, 30), (q.size.toNat, 0)]
  else if r = 0xC then pack [(q.tail.toNat, 0)]
  else if r = 0x10 then pack [(q.head.toNat, 0)]
  else if r = 0x14 then pack [(q.staged.length, 8), (b2n q.dbErr, 2), (b2n q.isPaused, 1), (b2n q.full, 0)]
  else if r = 0x1C then q.discarded
  else 0

def State.writeCq (s : State) (c r : Nat) (v : Word) : State :=
  let q := s.cq c
  if r = 8 then s.writeCqCfg c v
  else if r = 0x14 then s.setCq c { q with dbErr := q.dbErr && !(v.getLsbD 2) }
  else if r = 0x18 then (if v.getLsbD 0 then s.resetCq c else s)
  else if r = 0x1C then s.setCq c { q with discarded := v }
  else s

/-! ### The boot window, BAR2 and BAR4 (R48, R99, R107) -/

/-- A word of the boot window. -/
def bootWindowVal (s : State) (o : Nat) : Word :=
  let st := s.boot.bootState
  if st = 0 ∨ st = 1 ∨ st = 3 then BitVec.ofNat 32 (leNat (bytesAt s.boot.window o 4)) else 0

def bar2Val (s : State) (a : Nat) : Word :=
  let b := s.bar2
  if a = 0 then pack [(b.index.toNat, 8), (b.sub.toNat, 0)]
  else if a = 4 then b.offset
  else if a = 8 then pack [(b2n b.irq, 17), (b2n b.more, 16), (b.op.toNat, 14), (b.len.toNat, 0)]
  else if a = 0xC then pack [(b2n b.overrun, 10), (b2n b.done, 9), (b2n b.busy, 8), (b.code.toNat, 0)]
  else if 0x1000 ≤ a ∧ a < 0x2000 then BitVec.ofNat 32 (leNat (bytesAt b.data (a - 0x1000) 4))
  else 0

/-- A write of a BAR2 register: `DW_GO` starts a request; the request's registers are ignored while one runs (R100). -/
def State.writeBar2 (s : State) (a : Nat) (v : Word) : State :=
  let b := s.bar2
  if a = 0 then (if b.busy then s else { s with bar2 := { b with index := v.extractLsb' 8 16, sub := v.extractLsb' 0 8 } })
  else if a = 4 then (if b.busy then s else { s with bar2 := { b with offset := v } })
  else if a = 8 then
    if v.getLsbD 31 then s.dwGo v else if b.busy then s else s.dwFields v
  else if a = 0xC then
    State.settleInts { s with bar2 := { b with overrun := b.overrun && !(v.getLsbD 10), done := b.done && !(v.getLsbD 9) } }
  else s

/-- The last value a doorbell accepted. -/
def bar4Val (s : State) (a : Nat) : Word :=
  if a % 0x1000 ≠ 0 ∨ 0x1400000 ≤ a then 0
  else if a < 0x1000000 then pack [((s.sq (a / 0x1000)).tail.toNat, 0)]
  else pack [((s.cq ((a - 0x1000000) / 0x1000)).head.toNat, 0)]
def State.writeBar4 (s : State) (a : Nat) (v : Word) : State :=
  if a % 0x1000 ≠ 0 ∨ 0x1400000 ≤ a then s
  else if a < 0x1000000 then s.sqDoor (a / 0x1000) v
  else s.cqDoor ((a - 0x1000000) / 0x1000) v

end Sys2Proof.Machine
end

