-- ==== Sys2Proof/Machine/Registers.lean ====
section
/-! DEFINITION. Register commands of chapter 04 over the maps: writes and reads of any register, byte enables, contention in one cycle
(R108, R112 to R116), the unlock and `ERR_INJECT` (R110, R122, R123). -/

namespace Sys2Proof.Machine

/-! ### Reads -/

/-- The value of a BAR0 register whose read has no effect of its own. -/
def bar0Val (s : State) (m : Master) (a : Nat) : Word :=
  if a < 0x1000 then devVal s m a
  else if 0x10000 ≤ a ∧ a < 0x20000 then dmaVal s a
  else if 0x20000 ≤ a ∧ a < 0x30000 then fltVal s (a - 0x20000)
  else if 0x40000 ≤ a ∧ a < 0x80000 then intVal s a
  else if 0x80000 ≤ a ∧ a < 0x90000 then bpmVal s (a - 0x80000)
  else if 0x90000 ≤ a ∧ a < 0x98000 then msixVal s ((a - 0x90000) / 4)
  else if 0x98000 ≤ a ∧ a < 0x98100 then pbaVal s ((a - 0x98000) / 4)
  else if 0x100000 ≤ a ∧ a < 0x140000 then sqVal s ((a - 0x100000) / 64) (a % 64)
  else if 0x140000 ≤ a ∧ a < 0x150000 then cqVal s ((a - 0x140000) / 64) (a % 64)
  else if 0x200000 ≤ a ∧ a < 0x400000 then bootWindowVal s (a - 0x200000)
  else 0

/-- Window of an `INDIRECT_DATA` register. -/
def indirectReg (a : Nat) : Option Nat := if 0x200 ≤ a ∧ a < 0x380 ∧ a % 16 = 4 then some ((a - 0x200) / 16) else none

/-- A read of a BAR0 register with its side effects (R108, R113, R115, R418, R421, R425). -/
def State.bar0Read (s : State) (m : Master) (a : Nat) : State :=
  match indirectReg a, wideLo a with
  | some w, _ => s.issueIndirect m w none
  | none, some n => if a = n then s.readLo m n else s.readHi m n
  | none, none =>
    if a = 4 then s.readScratch m
    else if 0x50000 ≤ a ∧ a < 0x60000 ∧ a % 0x1000 = 0 then s.claim m (.core (Fin.ofNat 16 ((a - 0x50000) / 0x1000)))
    else if 0x60000 ≤ a ∧ a < 0x62000 then s.claim m (.vector (Fin.ofNat 2048 ((a - 0x60000) / 4)))
    else if a = 0x80014 then s.readAlloc m .clean []
    else s.answer m (bar0Val s m a)

/-- A read of a register of a space; a word access at the word in which the offset lies. -/
def State.regRead (s : State) (m : Master) (sp : RegSpace) (a : Nat) : State :=
  match sp with
  | .bar0 => if a < 2 ^ 24 then s.bar0Read m a else s
  | .bar2 => if s.boot.selvedge then s.answer m (bar2Val s a) else s
  | .bar4 => s.answer m (bar4Val s a)

/-! ### Writes -/

/-- A write of a BAR0 register by a master whose unlock it has used up (R122). -/
def State.bar0Put (s : State) (m : Master) (a : Nat) (v : Word) : State :=
  match wideLo a with
  | some n => if a = n then s.writeLo m n v else s.writeHi m n v
  | none =>
    if a < 0x1000 then s.writeDev a v
    else if 0x10000 ≤ a ∧ a < 0x20000 then (s.writeDma a v).settleInts
    else if 0x20000 ≤ a ∧ a < 0x30000 then s.writeFlt (a - 0x20000) v
    else if 0x40000 ≤ a ∧ a < 0x80000 then s.writeInt m a v
    else if 0x80000 ≤ a ∧ a < 0x90000 then s.writeBpm m (a - 0x80000) v
    else if 0x90000 ≤ a ∧ a < 0x98000 then s.writeMsix ((a - 0x90000) / 4) v
    else if 0x100000 ≤ a ∧ a < 0x140000 then s.writeSq ((a - 0x100000) / 64) (a % 64) v
    else if 0x140000 ≤ a ∧ a < 0x150000 then s.writeCq ((a - 0x140000) / 64) (a % 64) v
    else s

/-- A write of a BAR0 register. -/
def State.bar0Write (s : State) (m : Master) (a : Nat) (v : Word) : State :=
  match indirectReg a with
  | some w => s.issueIndirect m w (some v)
  | none =>
    if a = 0x10 then s.writeKey m v
    else if a = 0x20 then s.writeInject m v
    else (s.disarm m).bar0Put m a v

/-- A place of a space that is memory, not a register (R108). -/
def isMemory (sp : RegSpace) (a : Nat) : Bool :=
  match sp with
  | .bar0 => decide (0x200000 ≤ a) && decide (a < 0x400000)
  | .bar2 => decide (0x1000 ≤ a) && decide (a < 0x2000)
  | .bar4 => false

/-- The bytes of a word that its byte enables select, with their offsets. -/
def enabledBytes (be : BitVec 4) (v : Word) : List (Nat × Byte) :=
  (List.range 4).filterMap fun i => if be.getLsbD i then some (i, v.extractLsb' (8 * i) 8) else none

/-- A write of any size to the boot window or `DW_DATA` (R48, R100, R108). -/
def State.memWrite (s : State) (m : Master) (sp : RegSpace) (a : Nat) (be : BitVec 4) (v : Word) : State :=
  let bs := enabledBytes be v
  if bs.isEmpty then s
  else match sp with
    | .bar2 =>
      if s.bar2.busy || !s.boot.selvedge then s
      else { s with bar2 := { s.bar2 with data := bs.foldl (fun t q => setByte t (a - 0x1000 + q.1) q.2) s.bar2.data } }
    | _ =>
      if s.boot.bootState = 0 ∨ s.boot.bootState = 3 then
        { s with boot := { s.boot with window := bs.foldl (fun t q => setByte t (a - 0x200000 + q.1) q.2) s.boot.window } }
      else s.lockViolation m (bar0Addr a)

/-- A register's address in a fault record (R460). -/
def spaceAddr (sp : RegSpace) (a : Nat) : Nat :=
  match sp with
  | .bar0 => bar0Addr a
  | .bar2 => bar2Addr a
  | .bar4 => bar4Addr a

/-! ### Hardware updates of the same cycle (R112 to R114) -/

/-- Add to a counter that saturates. -/
def satAdd (w n : Word) : Word := if 2 ^ 32 - 1 ≤ w.toNat + n.toNat then 0xFFFFFFFF else w + n

/-- Bits that hardware sets and counters it advances in the cycle of an access take effect after it: a bit written 1 by software ends
set, a counter ends at the written value plus the increment. -/
def State.bar0Hw (s : State) (a : Nat) (h : SameCycle) : State :=
  let b (i : Nat) : Bool := h.sets.getLsbD i
  let n := h.inc
  if a = 0x14 then { s with dev := { s.dev with lockViol := satAdd s.dev.lockViol n } }
  else if a = 0x100 then { s with boot := { s.boot with imageBad := s.boot.imageBad || b 1 } }
  else if 0x200 ≤ a ∧ a < 0x350 ∧ a % 16 = 8 then
    let w := (a - 0x200) / 16
    s.setWindow w { s.window w with err := (s.window w).err || b 3 }
  else if 0x10000 ≤ a ∧ a < 0x12000 ∧ a % 0x100 = 0x1C then
    let ch := (a - 0x10000) / 0x100
    (s.setChan ch { s.chan ch with err := (s.chan ch).err || b 9, done := (s.chan ch).done || b 8 }).settleInts
  else if a = 0x1F000 then { s with dma := { s.dma with halted := s.dma.halted || b 0 } }
  else if a = 0x20000 then
    let s1 : State := { s with faults := { s.faults with
      overflow := s.faults.overflow || b 30, diverged := s.faults.diverged || b 29 } }
    match h.fault with
    | some (k, who, at_, acc) => if faultKind k.toNat then s1.report k.toNat acc who (if acc = .none then 0 else at_.toNat) else s1
    | none => s1
  else if a = 0x2001C then { s with faults := { s.faults with overflows := satAdd s.faults.overflows n } }
  else if a = 0x20020 then { s with faults := { s.faults with corrected := satAdd s.faults.corrected n } }
  else if a = 0x20024 then { s with faults := { s.faults with contained := satAdd s.faults.contained n } }
  else if 0x44200 ≤ a ∧ a < 0x44400 then
    State.settleInts { s with intc := arrayWrite s.intc .shared (edgeIn .shared) ((a - 0x44200) / 4) h.sets fun x => { x with pending := true } }
  else if 0x50000 ≤ a ∧ a < 0x60000 ∧ (a % 0x1000 = 0x18 ∨ a % 0x1000 = 0x1C) then
    let bank : IntBank := .priv (Fin.ofNat 16 ((a - 0x50000) / 0x1000))
    State.settleInts { s with intc := arrayWrite s.intc bank (edgeIn bank) (a / 4 % 2) h.sets fun x => { x with pending := true } }
  else if a = 0x45114 then { s with intc := { s.intc with evDropped := s.intc.evDropped + n } }
  else if a = 0x45200 then { s with intc := { s.intc with badComplete := satAdd s.intc.badComplete n } }
  else if a = 0x45204 then { s with intc := { s.intc with spurious := satAdd s.intc.spurious n } }
  else if a = 0x45208 then { s with intc := { s.intc with logLost := satAdd s.intc.logLost n } }
  else if a = 0x80028 then { s with bpm := { s.bpm with rejects := satAdd s.bpm.rejects n } }
  else if a = 0x8002C then { s with bpm := { s.bpm with err := s.bpm.err ||| h.sets.extractLsb' 0 4 } }
  else if 0x100000 ≤ a ∧ a < 0x140000 ∧ a % 64 = 0x1C then
    let p := (a - 0x100000) / 64
    s.setSq p { s.sq p with done := (s.sq p).done + n }
  else if 0x140000 ≤ a ∧ a < 0x150000 ∧ a % 64 = 0x1C then
    let c := (a - 0x140000) / 64
    s.setCq c { s.cq c with discarded := (s.cq c).discarded + n }
  else if 0x140000 ≤ a ∧ a < 0x150000 ∧ a % 64 = 0x14 then
    let c := (a - 0x140000) / 64
    s.setCq c { s.cq c with dbErr := (s.cq c).dbErr || b 2 }
  else s

/-- Hardware's update of a register of a space. -/
def State.regHw (s : State) (sp : RegSpace) (a : Nat) (h : SameCycle) : State :=
  if h = {} then s
  else match sp with
    | .bar0 => s.bar0Hw a h
    | .bar2 =>
      if a = 0xC then State.settleInts { s with bar2 := { s.bar2 with
        overrun := s.bar2.overrun || h.sets.getLsbD 10, done := s.bar2.done || h.sets.getLsbD 9 } }
      else s
    | .bar4 => s

/-- A write of a register: one with a byte enable cleared is discarded and recorded, and uses up the unlock too (R108, R122). -/
def State.regWrite (s : State) (m : Master) (sp : RegSpace) (a : Nat) (be : BitVec 4) (v : Word) (h : SameCycle) : State :=
  if isMemory sp a then s.memWrite m sp a be v
  else if be ≠ 0xF then ((s.disarm m).contained 0x04 .write m (spaceAddr sp a)).regHw sp a h
  else
    let s1 := match sp with
      | .bar0 => if a < 2 ^ 24 then s.bar0Write m a v else s
      | .bar2 => if s.boot.selvedge then (s.disarm m).writeBar2 a v else s
      | .bar4 => (s.disarm m).writeBar4 a v
    s1.regHw sp a h

/-! ### Commands -/

/-- The word in which an offset lies. -/
def regOff {w : Nat} (off : BitVec w) : Nat := off.toNat / 4 * 4

/-- REGISTER_WRITE (R108, R112, R122, R123). -/
def execRegisterWrite (m : Master) (sp : RegSpace) (off : BitVec 25) (be : BitVec 4) (v : Word) (hw : SameCycle) (s : State) :
    Host.Outcome State Fault Refusal :=
  issuedBy m s <| done (s.regWrite m sp (regOff off) be v hw)

/-- RC_READ (R113): a read returns the register as it stood at the start of its cycle, and hardware's update follows. No map of the spec
has a field that a read clears, so nothing is cleared. -/
def execRcRead (m : Master) (sp : RegSpace) (off : BitVec 25) (hw : SameCycle) (s : State) : Host.Outcome State Fault Refusal :=
  issuedBy m s <|
  done ((s.regRead m sp (regOff off)).regHw sp (regOff off) hw)

/-- WIDE_LO_READ (R115): the low word of the pair in which the offset lies. -/
def execWideLoRead (m : Master) (off : BitVec 24) (s : State) : Host.Outcome State Fault Refusal :=
  issuedBy m s <| done (s.bar0Read m (off.toNat / 8 * 8))
/-- WIDE_HI_READ (R115). -/
def execWideHiRead (m : Master) (off : BitVec 24) (s : State) : Host.Outcome State Fault Refusal :=
  issuedBy m s <| done (s.bar0Read m (off.toNat / 8 * 8 + 4))
/-- WIDE_LO_WRITE (R116). -/
def execWideLoWrite (m : Master) (off : BitVec 24) (v : Word) (s : State) : Host.Outcome State Fault Refusal :=
  issuedBy m s <|
  done (s.bar0Write m (off.toNat / 8 * 8) v)
/-- WIDE_HI_WRITE (R116). -/
def execWideHiWrite (m : Master) (off : BitVec 24) (v : Word) (s : State) : Host.Outcome State Fault Refusal :=
  issuedBy m s <|
  done (s.bar0Write m (off.toNat / 8 * 8 + 4) v)

/-- UNLOCK_KEY (R122). -/
def execUnlockKey (m : Master) (v : Word) (s : State) : Host.Outcome State Fault Refusal :=
  issuedBy m s <| done (s.writeKey m v)
/-- ERR_INJECT_GO (R110): a write of `ERR_INJECT` with `GO` set. -/
def execErrInjectGo (m : Master) (v : Word) (s : State) : Host.Outcome State Fault Refusal :=
  issuedBy m s <| done (s.writeInject m (v ||| 1))
/-- SCRATCH_INJECTED_READ (R110): the next read of `SCRATCH` meets the injected error. -/
def execScratchInjectedRead (m : Master) (s : State) : Host.Outcome State Fault Refusal :=
  issuedBy m s <| done (s.readScratch m)

/-- INDIRECT_DATA_READ (R119, R120). -/
def execIndirectDataRead (m : Master) (w : Fin 24) (s : State) : Host.Outcome State Fault Refusal :=
  issuedBy m s <| done (s.issueIndirect m w none)
/-- INDIRECT_DATA_WRITE (R119, R120, R122). -/
def execIndirectDataWrite (m : Master) (w : Fin 24) (v : Word) (s : State) : Host.Outcome State Fault Refusal :=
  issuedBy m s <|
  done (s.issueIndirect m w (some v))

end Sys2Proof.Machine
end

