-- ==== Sys2Proof/Machine/Indirect.lean ====
section
/-! DEFINITION. Behind the indirect windows (R118 to R121, R195, R196, R286, R287, R311, R382, R448): targets, their registers, the end of
an access; and the host reset (R38, R101, R124, R403, R411). -/

namespace Sys2Proof.Machine

/-! ### Registers of the targets -/

/-- `TRD_STATE` (R311): the interrupt sources pending stand in the order of R300. -/
def trdState (r : Treadle) : Word :=
  let p := b2n r.cutReport.isSome + 2 * b2n r.abandon + 4 * b2n (r.laneReq.any fun q => q.lane == 0) + 8 * b2n (r.laneReq.any fun q => q.lane == 1)
  pack [(r.upc.toNat, 17), (r.stack.length, 13), (b2n r.masked, 12), (b2n r.waiting, 11), (p, 7), (r.events.length, 0)]

/-- `STATE` of `TILE_STATE` (R195): loading context until the entries of rows 0 and 1 are in the tile, 1.25 µs after the take (R252);
discarding after a cut by a hint; finishing once every row is coded; idle, or the swap of a regrow. -/
def tileState (s : State) (p : Nat) : Nat :=
  match (s.tile p).frame with
  | none => if swapDue s p then 5 else 0
  | some f =>
    if f.cut.hint.isSome then 4 else if s.clk.now < f.started + 1250 then 1 else if f.rowsDone = f.rows then 3 else 2

/-- Registers of an encode tile (R195, R196, R311). -/
def encReg (s : State) (p : Nat) (o : Nat) : Word :=
  let t := s.tile p
  let r := t.treadle
  let busy := match t.frame with
    | some f => b2n f.lane0.ctu.isSome + 2 * b2n f.lane1.ctu.isSome
    | none => 0
  if o = 0 then pack [(t.stream.toNat, 16), (tileState s p, 12), (busy, 8), (b2n t.codecVvc, 0)]
  else if o = 0x004 then t.frames
  else if o = 0x008 then t.laneCtus
  else if o = 0x00C then t.skipCtus
  else if o = 0x010 then t.fringe
  else if o = 0x014 then t.accepts
  else if o = 0x018 then t.demotes
  else if o = 0x01C then t.waitWave
  else if o = 0x020 then t.waitEnt
  else if o = 0x024 then pack [(t.err.toNat, 0)]
  else if o = 0x100 then pack [(0x0201, 16), (r.level.toNat, 8), (r.patch.toNat, 0)]
  else if o = 0x104 then trdState r
  else if o = 0x108 then pack [(b2n r.overflow, 4), (b2n r.fault, 3), (r.code.toNat, 0)]
  else if o = 0x10C then pack [(r.faultAddr.toNat, 0)]
  else if o = 0x110 then r.faults
  else if o = 0x114 then r.gateWait
  else if 0x180 ≤ o ∧ o < 0x200 then
    match look r.match_ ((o - 0x180) / 4) with
    | some (w, a) => pack [(1, 31), (w.toNat, 14), (a.toNat, 0)]
    | none => 0
  else 0

def encRegWrite (t : Tile) (o : Nat) (v : Word) : Tile :=
  let r := t.treadle
  if o = 0x004 then { t with frames := v }
  else if o = 0x008 then { t with laneCtus := v }
  else if o = 0x00C then { t with skipCtus := v }
  else if o = 0x010 then { t with fringe := v }
  else if o = 0x014 then { t with accepts := v }
  else if o = 0x018 then { t with demotes := v }
  else if o = 0x01C then { t with waitWave := v }
  else if o = 0x020 then { t with waitEnt := v }
  else if o = 0x024 then { t with err := t.err &&& ~~~ (v.extractLsb' 0 4) }
  else if o = 0x108 then { t with treadle := { r with overflow := r.overflow && !(v.getLsbD 4), fault := r.fault && !(v.getLsbD 3) } }
  else if o = 0x110 then { t with treadle := { r with faults := v } }
  else if o = 0x114 then { t with treadle := { r with gateWait := v } }
  else t

/-- `STATE` of `DTILE_STATE` (R286): loading context until the tile has loaded it, 2 µs after the take (R263); decoding; finishing writeback
while the last blocks wait for their Bobbins; idle, or the swap of a regrow. -/
def dtileState (s : State) (p : Nat) : Nat :=
  match s.decs.findSome? fun q => match q.2.decoding with | some g => if g.tile = p then some g.since else none | none => none with
  | some t => if (s.dtile p).state = 3 then 3 else if s.clk.now < t + 2000 then 1 else 2
  | none => if s.faults.regrows.any fun r => r.unit == .decTile (Fin.ofNat 40 p) then 4 else 0

/-- Registers of a decode tile (R286, R287). -/
def decReg (s : State) (p : Nat) (o : Nat) : Word :=
  let t := s.dtile p
  if o = 0 then pack [(t.ctx.toNat, 20), (dtileState s p, 16), (t.kind.toNat, 0)]
  else if o = 0x04 then t.pictures
  else if o = 0x08 then t.blocks
  else if o = 0x0C then t.concealed
  else if o = 0x10 then t.binStall
  else if o = 0x14 then t.waitRef
  else if o = 0x18 then pack [(t.err.toNat, 0)]
  else 0
def decRegWrite (t : Dtile) (o : Nat) (v : Word) : Dtile :=
  if o = 0x04 then { t with pictures := v }
  else if o = 0x08 then { t with blocks := v }
  else if o = 0x0C then { t with concealed := v }
  else if o = 0x10 then { t with binStall := v }
  else if o = 0x14 then { t with waitRef := v }
  else if o = 0x18 then { t with err := t.err &&& ~~~ (v.extractLsb' 0 4) }
  else t

/-- A signed value in 32 bits, saturating. -/
def satInt (x : Int) : Word := BitVec.ofInt 32 (max (-2147483648) (min 2147483647 x))

/-- Registers of the time island (R121, R382). -/
def timeReg (s : State) (o : Nat) : Word :=
  let t := s.time
  let sec := t.ptp / 1000000000
  if o = 0x00 then pack [(sec / 2 ^ 32 % 65536, 0)]
  else if o = 0x04 then BitVec.ofNat 32 sec
  else if o = 0x08 then BitVec.ofNat 32 (t.ptp % 1000000000)
  else if o = 0x10 then
    pack [(if t.mode = TimeMode.passive then 0 else (clockClassNow s).toNat, 24), ((accuracyNow s).toNat, 16), (modeCode t.mode, 12),
      (b2n t.todValid, 11), (b2n t.gnss, 10), (b2n t.tenOk, 9), (b2n t.refOk, 8),
      (if t.mode = TimeMode.slave then t.slavePort.toNat else 0x1F, 0)]
  else if o = 0x14 then satInt t.offset
  else if o = 0x18 then satInt t.freq
  else if o = 0x1C then BitVec.ofNat 32 (holdoverEst s)
  else if o = 0x20 then pack [(t.capSeq.toNat, 16), (t.capFrac.toNat, 0)]
  else if o = 0x24 then pack [(t.capNs.toNat, 0)]
  else if o = 0x28 then t.capSec.extractLsb' 0 32
  else if o = 0x2C then pack [(t.capSec.toNat / 2 ^ 32, 0)]
  else 0

/-- `MEM_STATE` (R448): how far a copy has come is not fixed, a free value of 0 to 100. -/
def memReg (s : State) (ready copying readOnly : Bool) (o : Nat) : Word :=
  if o = 0 then
    pack [(if copying then Config.freeNat s.clk.free % 101 else 0, 24), (b2n readOnly, 2), (b2n copying, 1), (b2n ready, 0)]
  else 0

/-- The word at a byte offset of a target. -/
def iRead (s : State) (t : ITarget) (o : Nat) : Word :=
  match t with
  | .enc p => encReg s p o
  | .dec p => decReg s p o
  | .engine _ => 0
  | .time => timeReg s o
  | .store => memReg s s.boot.mounted false s.store.readOnly o
  | .hbm k => memReg s (s.hbm k).trained (s.hbm k).copying.isSome false o
  | .ddr k => memReg s (s.ddr k).trained (s.ddr k).migrating.isSome false o

/-- A write of a target's word: what no map lists ignores it. -/
def State.iWrite (s : State) (t : ITarget) (o : Nat) (v : Word) : State :=
  match t with
  | .enc p => s.setTile p (encRegWrite (s.tile p) o v)
  | .dec p => s.setDtile p (decRegWrite (s.dtile p) o v)
  | .engine _ => s
  | .time => s
  | .store => s
  | .hbm _ => s
  | .ddr _ => s

/-! ### The end of an access (R120) -/

/-- Serve an access at its target: the value of a read, 0xFFFF_FFFF for one that fails, and the error code. -/
def State.serve (s : State) (x : IAccess) (tagged : Bool) : State × Word × BitVec 4 :=
  if tagged ∧ x.write = none then (s, 0xFFFFFFFF, 4)
  else match iTarget s x.target.toNat with
    | .error e => (s, 0xFFFFFFFF, e)
    | .ok t => match x.write with
      | none => (s.freed, iRead s t (4 * x.offset.toNat), 0)
      | some v => (s.iWrite t (4 * x.offset.toNat) v, 0, 0)

/-- An access of a window ends with a value and an error code; one from before a host reset has no result (R124). The command of the next one
goes out: a window carries its accesses strictly in order. -/
def State.endAccess (s : State) (w : Nat) (x : IAccess) (v : Word) (e : BitVec 4) : State :=
  let q := s.window w
  let next (s : State) : State := match (s.window w).flight with
    | y :: _ => s.issueCommand w y
    | [] => s
  if x.gone then next (s.setWindow w { q with flight := q.flight.erase x })
  else
    let s1 := s.setWindow w { q with
      flight := q.flight.erase x, err := q.err || e != 0, errCode := if e = 0 then q.errCode else e }
    next (if x.write.isSome then s1 else s1.answer x.m v)

/-- A read that its target has not answered within 20 µs. -/
def overdue (s : State) (x : IAccess) : Bool := x.write.isNone && decide (x.issued + 20000 ≤ s.clk.now)

/-- An item is a window's oldest access. -/
def State.accessLive (s : State) (x : BitVec 256) : Bool :=
  (List.range 24).any fun w => match (s.window w).flight with
    | q :: _ => accessItem w q == x
    | [] => false
/-- The target discards the commands at the head of its Bobbin whose access has ended, among `n`, until one has not (R120). -/
def State.skipEnded : Nat → State → BobbinId → State
  | 0, s, _ => s
  | n + 1, s, b =>
    match (s.bob b).items with
    | (x, _) :: _ => if s.bobAvail b = 0 ∨ s.accessLive x = true then s else State.skipEnded n (s.bobDrop b 1) b
    | [] => s

/-- INDIRECT_COMPLETE (R26 to R30, R120): the target serves the window's oldest access, once it sees its command in the control-command Bobbin,
whose commands it serves in order; `item` is how that item's row reads, or that of the item that carries a read's answer. A read whose 20 µs
have passed ends with 0x2 instead. A command that has found no way into the Bobbin yet, or was lost with a reset of it, enters now. -/
def execIndirectComplete (w : Fin 24) (item : Ecc) (s : State) : Host.Outcome State Fault Refusal :=
  awake s <|
  match (s.window w).flight with
  | [] => done s
  | x :: _ =>
    if overdue s x then done (s.endAccess w x 0xFFFFFFFF 2)
    else if iWaits s x.target.toNat then done s
    else
      match controlBob s x.target.toNat with
      | none =>
        let r := s.serve x (decide (item = .uncorrectable))
        done (r.1.endAccess w x r.2.1 r.2.2)
      | some b =>
        let s0 := s.bobDst b
        let s1 := s0.skipEnded (s0.bob b).items.length b
        match (s1.bob b).items with
        | (y, tag) :: _ =>
          if s1.bobAvail b = 0 ∨ y ≠ accessItem w x then done (s1.issueCommand w x)
          else
            let r := ((s1.bobDrop b 1).readItem b item).serve x (tag || decide (item = .uncorrectable))
            done (r.1.endAccess w x r.2.1 r.2.2)
        | [] => done (s1.issueCommand w x)

/-- INDIRECT_TIMEOUT (R120): the oldest read that its target has not answered within 20 µs ends, whether it is in service or behind a write
that waits. -/
def execIndirectTimeout (w : Fin 24) (s : State) : Host.Outcome State Fault Refusal :=
  awake s <|
  match (s.window w).flight.find? (overdue s) with
  | none => done s
  | some x => done (s.endAccess w x 0xFFFFFFFF 2)

/-! ### The host reset (R38, R101, R124, R403, R411) -/

/-- Accesses in flight complete at their targets and their results go: at once, or, from one whose command is on its way or waits for a regrow on,
as its target serves it (R120); the window returns to its reset state. -/
def State.resetWindow (s : State) (w : Nat) : State :=
  let l := (s.window w).flight
  let free (x : IAccess) : Bool := !(iWaits s x.target.toNat) && (controlBob s x.target.toNat).isNone
  let s1 := (l.takeWhile free).foldl (fun s x => (s.serve x false).1) s
  let late := (l.dropWhile free).map fun x => { x with gone := true }
  if late.isEmpty then { s1 with dev := { s1.dev with windows := del s1.dev.windows w } } else s1.setWindow w { flight := late }

/-- The rings: every submission ring is shut down, completions bound for rings with `LOCAL` 0 are discarded and those rings' registers
return to their reset values. -/
def State.resetRings (s : State) : State :=
  let s1 := s.rings.sqs.foldl (fun s q =>
    if q.2.state = 0 then s
    else if (s.cq q.2.ringCq).loc then s.shutSq q.1 (!q.2.loc) else s.discardSq q.1 q.2.ringCq) s
  { s1 with rings := { s1.rings with
    sqs := s1.rings.sqs.filter fun q => q.2.loc || q.2.state != 0
    cqs := s1.rings.cqs.filter fun q => q.2.loc } }

/-- The BAR2 window and its session; a request that has arrived completes and its result is discarded (R101). -/
def State.resetBar2 (s : State) : State :=
  let gone (r : Req) : Req := if r.reply = .bar2 then { r with reply := .discard } else r
  let loses (e : JEntry) : JEntry := if e.se = Session.bar2 then { e with drop := true } else e
  let cut (r : JRecord) : JRecord := { r with entries := r.entries.map loses }
  { s with
    bar2 := {}
    selv := { s.selv with
      cmds := s.selv.cmds.map fun c => if c.se = Session.bar2 then { c with drop := true } else c
      lpmCmds := s.selv.lpmCmds.map fun c => if c.se = Session.bar2 then { c with drop := true } else c }
    dict := { s.dict with
      waiting := s.dict.waiting.map cut, openRec := s.dict.openRec.map cut, reqs := s.dict.reqs.map gone, sess := s.dict.sess.filter fun q => !(decide (q.1 = Session.bar2)) } }

/-- HOST_RESET (R38, R124): host-facing state alone; streams, bridge, time and dictionary go on. -/
def execHostReset (s : State) : Host.Outcome State Fault Refusal :=
  awake s <|
  let s1 := ((List.range 4).foldl State.resetWindow s).resetRings.resetBar2
  let mine (k : Nat) : Bool := k / 2 ^ 24 == mHost.toNat
  let open_ (t : IntTarget) : Bool := match t with
    | .core _ => true
    | .vector _ => false
  done (State.settleInts (State.disarm { s1 with
    dma := {}
    intc := { s1.intc with msix := [], pba := [], pcie := [], notified := s1.intc.notified.filter open_ }
    dev := { s1.dev with
      rdShadow := s1.dev.rdShadow.filter fun q => !(mine q.1), wrShadow := s1.dev.wrShadow.filter fun q => !(mine q.1) } } mHost))

end Sys2Proof.Machine
end

