-- ==== Sys2Proof/Machine/MacCommands.lean ====
section
/-! DEFINITION. The MAC table commands and the longest-match prefix commands (R330 to R336): each accepted write of the command object acts
here, and its results answer the reads that wait for it. -/

namespace Sys2Proof.Machine

/-- The oldest waiting command, if it is of one kind and the arbiter's turn allows, and the state without it. -/
def takeCmd (s : State) (op : MacOp) : Option (MacCmd × State) :=
  match s.selv.cmds with
  | [] => none
  | c :: r =>
    if c.op = op ∧ (s.selv.learns = [] ∨ s.selv.cmdTurn = true) then
      some (c, { s with selv := { s.selv with cmds := r, cmdTurn := false } })
    else none

/-- Results with no entry found (R333). -/
def MacArgs.none_ (a : MacArgs) (o : BitVec 8) : MacArgs :=
  { a with outcome := o, fMac := 0, fVlan := 0, fDest := 0, fFlags := 0, fAge := 0 }
/-- Results with an entry found. -/
def MacArgs.found (a : MacArgs) (o : BitVec 8) (e : MacEntry) : MacArgs :=
  { a with
    outcome := o, fMac := e.mac, fVlan := BitVec.ofNat 16 e.vlan.toNat
    fDest := BitVec.ofNat 16 (if e.group then e.dest.toNat else e.dest.toNat % 32)
    fFlags := BitVec.ofNat 8 (1 + 2 * b2n e.static + 4 * b2n e.group + 8 * b2n e.suspended + 16 * b2n e.hit)
    fAge := BitVec.ofNat 32 (e.age.toNat + e.moves.toNat * 2 ^ 20) }
/-- Place a command's results in its session, unless a host reset has ended that (R101). -/
def State.macResult (s : State) (c : MacCmd) (f : MacArgs → MacArgs) : State :=
  (if c.drop then s else s.setSess c.se { s.sess c.se with mac := f (s.sess c.se).mac }).settleDict

def argVlan (a : MacArgs) : BitVec 12 := BitVec.ofNat 12 a.vlan.toNat

/-- MAC_SEARCH (R333, R338): `bad` here and below, the entry met an uncorrectable error. -/
def execMacSearch (bad : Bool) (s : State) : Host.Outcome State Fault Refusal :=
  awake s <|
  match takeCmd s .search with
  | none => done s
  | some (c, s0) =>
    let s1 := s0.macBad mReplicate (argVlan c.args) c.args.mac bad
    match macFind s1.selv (argVlan c.args) c.args.mac with
    | some q => done (s1.macResult c (·.found 0 q.2))
    | none => done (s1.macResult c (·.none_ 1))

/-- MAC_NEXT (R333): the first valid entry after the position. -/
def execMacNext (s : State) : Host.Outcome State Fault Refusal :=
  awake s <|
  match takeCmd s .next with
  | none => done s
  | some (c, s1) =>
    let at_ := (s1.sess c.se).mac.pos
    let from_ := if at_ = 0xFFFFFFFF then 0 else at_.toNat + 1
    match (macPositions s1.selv).find? fun p => decide (from_ ≤ p) with
    | none => done (s1.macResult c (·.none_ 2))
    | some pos =>
      match macAt s1.selv pos with
      | none => done (s1.macResult c (·.none_ 2))
      | some e => done (s1.macResult c fun a => { (a.found 0 e) with pos := BitVec.ofNat 32 pos })

/-- MAC_INSERT (R331, R333): the results show the entry that the command found, as it found it; of a new one they are 0 (log entry 214). -/
def execMacInsert (bad : Bool) (s : State) : Host.Outcome State Fault Refusal :=
  awake s <|
  match takeCmd s .insert with
  | none => done s
  | some (c, s0) =>
    let s1 := s0.macBad mReplicate (argVlan c.args) c.args.mac bad
    let e : MacEntry :=
      { mac := c.args.mac, vlan := argVlan c.args, static := c.args.static, dest := BitVec.ofNat 20 c.args.dest.toNat }
    match macFind s1.selv e.vlan e.mac with
    | some (pos, o) =>
      if o.static && !e.static then done (s1.macResult c (·.found 4 o))
      else
        let s2 := ({ s1 with selv := macPut s1.selv pos e }).logLearn (e.delta)
        done (s2.macResult c (·.found 0 o))
    | none =>
      let r := s1.macInsert e
      done (r.2.macResult c (·.none_ (if r.1 then 0 else 3)))

/-- MAC_DELETE (R333). -/
def execMacDelete (bad : Bool) (s : State) : Host.Outcome State Fault Refusal :=
  awake s <|
  match takeCmd s .delete with
  | none => done s
  | some (c, s0) =>
    let s1 := s0.macBad mReplicate (argVlan c.args) c.args.mac bad
    match macFind s1.selv (argVlan c.args) c.args.mac with
    | some (pos, e) => done ((s1.macRemove pos).macResult c (·.found 0 e))
    | none => done (s1.macResult c (·.none_ 1))

/-- The arbiter's steps of a flush, a bucket each and the overflow store last, one at a time while a learn event waits too; the last one
places the results (R333). -/
def State.flushSteps (s : State) (op : MacOp) (steps : Nat) : State :=
  match s.selv.cmds with
  | [] => s
  | c :: r =>
    if c.op = op ∧ (s.selv.learns = [] ∨ s.selv.cmdTurn = true) ∧ steps ≠ 0 then
      let hi := min 65537 (c.next_ + (if s.selv.learns.isEmpty then steps else 1))
      let f := s.flushMacs (if op = .flushPort then some c.args.dest.toNat else none) c.args.vlan.toNat c.next_ hi
      let n := c.removed + f.1
      let s1 : State := { f.2 with selv := { f.2.selv with
        cmds := if hi = 65537 then r else { c with next_ := hi, removed := n } :: r, cmdTurn := false } }
      if hi = 65537 then s1.macResult c fun a => { (a.none_ 0) with removed := BitVec.ofNat 32 n } else s1
    else s

/-- MAC_FLUSH_BY_PORT (R333): some steps of a flush by a port, commanded or of a link that went down. -/
def execMacFlushByPort (steps : Nat) (s : State) : Host.Outcome State Fault Refusal :=
  awake s <| done (s.flushSteps .flushPort steps)

/-- MAC_FLUSH_ALL (R333). -/
def execMacFlushAll (steps : Nat) (s : State) : Host.Outcome State Fault Refusal :=
  awake s <| done (s.flushSteps .flushAll steps)

/-! ### The longest-prefix table (R336) -/

def takeLpm (s : State) (op : LpmOp) : Option (LpmCmd × State) :=
  (takeFirst (fun c : LpmCmd => decide (c.op = op)) (s.selv.lpmCmds.take 1)).map fun q =>
    (q.1, { s with selv := { s.selv with lpmCmds := s.selv.lpmCmds.drop 1 } })

def State.lpmResult (s : State) (c : LpmCmd) (f : LpmArgs → LpmArgs) : State :=
  (if c.drop then s else s.setSess c.se { s.sess c.se with lpm := f (s.sess c.se).lpm }).settleDict
def LpmArgs.found (a : LpmArgs) (e : Lpm) : LpmArgs :=
  { a with pre := e.pre, len := BitVec.ofNat 8 e.len, hop := e.hop, vlan := e.vlan, action := e.action, outcome := 0 }
def lpmKey (e : Lpm) (a : LpmArgs) : Bool := e.len == a.len.toNat && samePrefix e.len e.pre a.pre

/-- Insert by descending length, within one length after those present. -/
def insLpm (e : Lpm) : List Lpm → List Lpm
  | [] => [e]
  | x :: r => if x.len < e.len then e :: x :: r else x :: insLpm e r

/-- PREFIX_INSERT (R336). -/
def execPrefixInsert (s : State) : Host.Outcome State Fault Refusal :=
  awake s <|
  match takeLpm s .insert with
  | none => done s
  | some (c, s1) =>
    let a := c.args
    if s1.selv.lpm.any fun e => lpmKey e a then done (s1.lpmResult c ({ · with outcome := 4 }))
    else if 16384 ≤ s1.selv.lpm.length then done (s1.lpmResult c ({ · with outcome := 3 }))
    else
      let s2 : State := { s1 with selv := { s1.selv with lpm := insLpm ⟨a.pre, a.len.toNat, a.hop, a.vlan, a.action⟩ s1.selv.lpm } }
      done (s2.lpmResult c ({ · with outcome := 0 }))

/-- PREFIX_DELETE (R336). -/
def execPrefixDelete (s : State) : Host.Outcome State Fault Refusal :=
  awake s <|
  match takeLpm s .delete with
  | none => done s
  | some (c, s1) =>
    match takeFirst (fun e => lpmKey e c.args) s1.selv.lpm with
    | none => done (s1.lpmResult c ({ · with outcome := 1 }))
    | some (_, r) => done (({ s1 with selv := { s1.selv with lpm := r } } : State).lpmResult c ({ · with outcome := 0 }))

/-- PREFIX_EXACT_SEARCH (R336). -/
def execPrefixExactSearch (s : State) : Host.Outcome State Fault Refusal :=
  awake s <|
  match takeLpm s .search with
  | none => done s
  | some (c, s1) =>
    match s1.selv.lpm.find? fun e => lpmKey e c.args with
    | none => done (s1.lpmResult c ({ · with outcome := 1 }))
    | some e => done (s1.lpmResult c (·.found e))

/-- PREFIX_LONGEST_MATCH (R336, R338): `bad` is the position of an entry that could not be read: it is removed, and firmware told. -/
def execPrefixLongestMatch (bad : Option Nat) (s : State) : Host.Outcome State Fault Refusal :=
  awake s <|
  match takeLpm s .lookup with
  | none => done s
  | some (c, s0) =>
    let s1 := match bad with
      | some i =>
        if i < s0.selv.lpm.length then
          ((({ s0 with selv := { s0.selv with lpm := s0.selv.lpm.eraseIdx i } } : State).raise 0x010 mReplicate (le 4 i)).contained
            0x01 .read mReplicate 0).selvCount 0x12
        else s0
      | none => s0
    match s1.selv.lpm.find? fun e => samePrefix e.len e.pre c.args.pre with
    | none => done (s1.lpmResult c ({ · with outcome := 1 }))
    | some e => done (s1.lpmResult c (·.found e))

/-- PREFIX_NEXT (R336): the entry after the position, 0xFFFF_FFFF for the beginning. -/
def execPrefixNext (s : State) : Host.Outcome State Fault Refusal :=
  awake s <|
  match takeLpm s .next with
  | none => done s
  | some (c, s1) =>
    let at_ := (s1.sess c.se).lpm.pos
    let i := if at_ = 0xFFFFFFFF then 0 else at_.toNat + 1
    match s1.selv.lpm[i]? with
    | none => done (s1.lpmResult c ({ · with outcome := 2 }))
    | some e => done (s1.lpmResult c fun a => { (a.found e) with pos := BitVec.ofNat 32 i })

end Sys2Proof.Machine
end

