-- ==== Sys2Proof/Machine/PairUnit.lean ====
section
/-! DEFINITION. The redundant pair (R479 to R501): alive signal, croaks, mirroring, takeover, role decision, resynchronisation, switchover. -/

namespace Sys2Proof.Machine

/-! ### The alive signal (R483, R496) -/

/-- The partner is silent and shows alive: a contained fault of kind 0x0E and a count, once for each episode (R496). -/
def State.silentAlive (s : State) : State :=
  let p := s.pair
  if p.silent && p.aliveIn && !p.episode then
    (State.pairCount { s with pair := { p with episode := true }, faults := { s.faults with gavonDown := true } } 3).reportNone 0x0E
  else s

/-- PAIR_ALIVE_TOGGLE (R483): every 50 µs from the Selvedge step on; low in Newt mode, in a fatal escalation and in a power warning. -/
def execPairAliveToggle (s : State) : Host.Outcome State Fault Refusal :=
  awake s <|
  if !s.boot.selvedge || s.boot.newt || s.faults.escalating || !s.pins.pwrfailN || decide (s.clk.now < s.pair.aliveOutAt + 50000) then done s
  else
    let v := !s.pins.aliveOut
    done (State.emit { s with pins := { s.pins with aliveOut := v }, pair := { s.pair with aliveOutAt := s.clk.now } }
      (.pin "PAIR_ALIVE_OUT" v))

/-- PAIR_ALIVE_LOST (R483). -/
def execPairAliveLost (s : State) : Host.Outcome State Fault Refusal :=
  awake s <| done { s with pair := { s.pair with aliveIn := false } }

/-- PAIR_ALIVE_RESTORED (R483, R496). -/
def execPairAliveRestored (s : State) : Host.Outcome State Fault Refusal :=
  awake s <|
  let s1 : State := { s with pair := { s.pair with aliveIn := true } }
  done (if s.pair.partner.isSome then s1.silentAlive else s1)

/-! ### Beginning and ceasing to serve (R480, R491, R494, R495, R497, R500) -/

/-- A frame in coding stops without flush: its blocks and reservation go, and nothing more of it is sent; its frame end ends its job. -/
def State.haltTile (s : State) (p : Nat) : State :=
  let t := s.tile p
  match t.frame with
  | none => (s.setTile p { t with out := {} }).bobFlush (.slice (ftile p))
  | some f =>
    let s1 := f.written.foldl (fun s b => s.releaseBlock (mEnc p) b (s.pool.desc b).gen) s
    let s2 : State := { s1 with pool := { s1.pool with reserved := s1.pool.reserved - f.reserved } }
    let s3 := s2.setEnc f.stream { s2.enc f.stream with coding := none }
    let s4 := s3.setTile p { t with
      frame := none, out := {}
      treadle := { t.treadle with
        estimates := [], cutReport := none, abandon := false, laneReq := [], events := [], stalled := [], nals := [], nalOpen := none, bits := [] } }
    let s5 := ([.ctu (ftile p) 0, .ctu (ftile p) 1, .hint (ftile p), .frameDown (ftile p), .slice (ftile p)] : List BobbinId).foldl
      State.bobFlush s4
    (s5.bobSrc (.frameUp (ftile p))).bobPush (.frameUp (ftile p)) [BitVec.ofNat 256 (f.stream % 65536 + 2 ^ 16 + f.slot.toNat * 2 ^ 32)]

/-- A stream that a device no longer runs: on a secondary its mirrored record stays (R491). -/
def State.idleStream (s : State) (keep : Bool) (n : Nat) : State :=
  let head := recordHead s n (s.enc n)
  let s1 := s.releaseStream n
  if keep && encValid s n then
    let a := s1.allocFrames (.stream (BitVec.ofNat 16 n)) 1
    a.2.setEnc n (Enc.fromHead { frames := a.1, lastTick := ptpTicks s, grid := (fld s 0x8001 n 5, fld s 0x8001 n 6) } head)
  else s1

/-- A decode context that a device no longer runs keeps its record frame and its surface. -/
def State.idleContext (s : State) (c : Nat) : State :=
  let s1 := match (s.dec c).decoding with
    | some g => s.dropPicture g.tile
    | none => s
  (s1.releaseDec mStore c).decBegin c

/-- Stop serving in a role that does not serve. -/
def State.stopServing (s : State) (r : Role) : State :=
  let s0 : State := { s with pair := { s.pair with role := r, mirrorOk := false } }
  let s1 := (s0.tiles.map (·.1)).foldl State.haltTile s0
  let s2 := (s1.encs.map (·.1)).foldl (fun s n => s.idleStream (decide (r = .secondary)) n) s1
  ((validRows s2 0x8003).foldl State.idleContext s2).storeRole

/-- Decode contexts start to receive, unsynchronised (R277, R494). -/
def State.startContexts (s : State) : State := (validRows s 0x8003).foldl (fun s c => (s.unsync c).reportRow c true) s

/-! ### Announcing the shared addresses (R494) -/

/-- Gratuitous ARP for the front IPv4 address (PRESUMED: RFC 826), none while it is 0. -/
def arpBytes (s : State) : Option Bytes :=
  let ip := be 4 (par s 0x3002 2)
  if par s 0x3002 2 = 0 then none
  else some ([0x08, 0x06, 0, 1, 8, 0, 6, 4, 0, 1] ++ be 6 frontMac.toNat ++ ip ++ List.replicate 6 0 ++ ip)

/-- Gratuitous ARP and unsolicited neighbour advertisements (free content) on every front port of VLAN 0x3002:01. -/
def State.announceAddresses (s : State) : State :=
  let v := frontVlan s
  let ports := (List.range 16).filter fun p => linkUp s p && vlanMember s v p
  let send (dst : Nat) (b : Bytes) (s : State) (p : Nat) : State :=
    (s.enqueueCopy (bridgeQueue p 7) mReplicate { data := be 6 dst ++ be 6 frontMac.toNat ++ portTag s v p 7 ++ b }).2
  let s1 := match arpBytes s with
    | some b => ports.foldl (send 0xFFFFFFFFFFFF b) s
    | none => s
  (ports.foldl (send 0x333300000001 (Config.freeBytes s.clk.free)) s1).freed

/-- Every group of the mirrored membership, once per VLAN and protocol: group addresses of IPv4 begin 01:00:5E. -/
def State.reportGroups (s : State) : State :=
  let keys := s.selv.members.map fun q => (q.1.1, decide (q.1.2.1.toNat / 2 ^ 24 = 0x01005E))
  (keys.eraseDups).foldl (fun s k => s.groupReport k.1 k.2) s

/-! ### Takeover (R494, R495) -/

/-- Streams a device starts at a takeover: `RESIDENCY` 1 first, then ascending; those whose record frame it holds. -/
def takeoverOrder (s : State) : List Nat :=
  let l := (validRows s 0x8001).filter fun n => (look s.encs n).isSome
  (l.filter fun n => fld s 0x8001 n 0x14 == 1) ++ l.filter fun n => fld s 0x8001 n 0x14 != 1

/-- Become primary of a pair whose other device no longer serves. -/
def State.takeOver (s : State) (counter : Nat) : State :=
  let s0 : State := State.pairCount { s with pair := { s.pair with
    role := .primary, epoch := s.pair.epoch + 1, mirrorOk := false, unconfirmed := [], relayed := []
    repeats := [s.clk.now + 1000000000, s.clk.now + 5000000000] } } counter
  let s1 := s.pair.relayed.foldl (fun s r => s.endOp r.req r.op stNotAvailable) s0.storeRole
  let s2 := (s1.timeTakeover.announceAddresses).reportGroups
  let s3 := (takeoverOrder s2).foldl State.resumeLost s2
  (s3.startContexts.settleDict).pairChanged s

/-- A leaving croak came last from the primary (R485, R500). -/
def leavingSeen (s : State) : Bool := match s.pair.partner with
  | some c => c.state == 5
  | none => false

/-- TAKEOVER (R494, R500): a secondary whose primary is silent and dead, or has sent its leaving croak. With 0x7070:02 = 0 only source 0x015
is raised. -/
def execTakeover (s : State) : Host.Outcome State Fault Refusal :=
  awake s <|
  if s.pair.role ≠ .secondary ∨ !((s.pair.silent && !s.pair.aliveIn) || leavingSeen s) then done s
  else if !(parB s 0x7070 2) then done s.pairEvent
  else done (s.takeOver (if leavingSeen s && s.pair.aliveIn then 2 else 1))

/-- TAKEOVER_ANNOUNCE_REPEAT (R494): 1 s and 5 s after the takeover. -/
def execTakeoverAnnounceRepeat (s : State) : Host.Outcome State Fault Refusal :=
  awake s <|
  match s.pair.repeats with
  | [] => done s
  | t :: r =>
    if s.clk.now < t then done s
    else
      let s1 : State := { s with pair := { s.pair with repeats := r } }
      done (if serves s then s1.announceAddresses else s1)

/-! ### Resynchronisation: the primary's side (R490, R499) -/

/-- A parameter as a mirrored entry. -/
def paramEntry (q : Nat × PVal) : MirrorEntry :=
  let obj := q.1 / 2 ^ 33
  let row := q.1 % 2 ^ 33
  let b := match findObj (obj / 256) (obj % 256) with
    | some o => q.2.encode o.ty
    | none => []
  ⟨BitVec.ofNat 16 (obj / 256), BitVec.ofNat 8 (obj % 256), if row = 2 ^ 32 then none else some (BitVec.ofNat 32 row), b⟩

/-- A parameter key names a device-local object (R489). -/
def localKey (k : Nat) : Bool := isLocal (k / 2 ^ 33 / 256) (k / 2 ^ 33 % 256)

/-- The parameter image of every mirrored object, the learned tables and every context record go to the Joining device. -/
def State.sendResync (s : State) : State :=
  let ps := (s.dict.params.filter fun q => !(localKey q.1)).map paramEntry
  { s with
    pair := { s.pair with lostDeltas := false }
    out := s.out ++ [.gavonResync (.params ps), .gavonResync (.learned (wholeTables s))] ++
      s.encs.map fun q => .gavonResync (.stream (BitVec.ofNat 16 q.1) (recordHead s q.1 q.2)) }

/-! ### Croaks (R484, R485, R497) -/

/-- CROAK_SEND (R484, R490): on each half that is up; the primary mirrors its time at the same pace. -/
def execCroakSend (s : State) : Host.Outcome State Fault Refusal :=
  awake s <|
  if halvesUp s = 0 then done s
  else
    let s1 := s.croak (croakState s)
    let t := s.time
    let m : MirrorTime :=
      { seconds := BitVec.ofNat 48 (t.ptp / 1000000000), nanos := BitVec.ofNat 30 (t.ptp % 1000000000), todValid := t.todValid
        clockClass := clockClassNow s, freq := BitVec.ofInt 32 t.freq, utcOffset := BitVec.ofNat 16 (utcField s 1)
        leap := BitVec.ofNat 8 (utcField s 2), leapAt := BitVec.ofNat 64 (utcField s 3) }
    done (if s.pair.role = .primary ∧ s.boot.timeUp = true then s1.emit (.gavonTime m) else s1)

/-- A croak that passes its checks (R484). -/
def croakParse (b : Bytes) (now : Nat) : Option Croak :=
  if b.length ≠ 32 ∨ le16 b 0 ≠ 0x7DCA ∨ u8 b 2 ≠ 1 ∨ le32 b 0x1C ≠ (crc32c (b.take 28)).toNat then none
  else some
    { state := BitVec.ofNat 8 (u8 b 3), epoch := BitVec.ofNat 16 (le16 b 4), pairId := bitOf (u8 b 6) 0, serial := BitVec.ofNat 32 (le32 b 8)
      seq := BitVec.ofNat 32 (le32 b 0xC), journal := BitVec.ofNat 64 (le64 b 0x10), at_ := now }

/-- A serving device that must give way to the partner's croak (R497); with equal `PAIR_ID`s and epochs both stay (R498). -/
def givesWay (s : State) (c : Croak) : Bool :=
  serves s && c.state == 1 && (decide (s.pair.epoch < c.epoch) || (decide (c.epoch = s.pair.epoch) && s.boot.pairId && !c.pairId))

/-- A valid croak is taken. -/
def State.takeCroak (s : State) (c : Croak) : State :=
  let p := s.pair
  if p.role = .secondary ∧ (c.state = 5 ∨ c.state = 6) then
    -- counts as missed (R485)
    State.pairCount { s with pair := { p with partner := some { c with at_ := (p.partner.map (·.at_)).getD 0 } } } 4
  else
    let joins := decide (p.role = .primary) && c.state == 3 && ((p.partner.map fun o => o.state != 3).getD true)
    let ok := if p.role = .primary then (if c.state = 2 then true else if c.state = 3 then false else p.mirrorOk) else p.mirrorOk
    let s1 : State := { s with
      pair := { p with partner := some c, silent := false, episode := false, mirrorOk := ok }
      faults := { s.faults with gavonDown := false } }
    let s2 := (if joins then s1.sendResync else s1).syncErr
    if givesWay s2 c then (s2.stopServing .joining).pairCount 5 else s2

/-- CROAK_RECEIVE (R484, R485, R497). -/
def execCroakReceive (payload : Bytes) (s : State) : Host.Outcome State Fault Refusal :=
  awake s <|
  guarded (.croakReceive payload)
    (match croakParse payload s.clk.now with
    | none => done s
    | some c => done ((s.takeCroak c).pairChanged s))

/-- PARTNER_SILENT (R485, R496, R499): 300 µs without a valid croak, three missed; a partner that has sent none yet counts as silent while
it shows alive. A resynchronisation cut short begins again when the primary returns. -/
def execPartnerSilent (s : State) : Host.Outcome State Fault Refusal :=
  awake s <|
  let from_ := match s.pair.partner with
    | some c => c.at_
    | none => s.boot.resetAt
  let known := if s.pair.partner.isSome then s.pair.silent else s.pair.episode || !s.pair.aliveIn || !s.boot.selvedge
  if known || decide (s.clk.now < from_ + 300000) then done s
  else
    let s1 := State.pairCount { s with pair := { s.pair with
      silent := true, resync := s.pair.resync && decide (s.pair.role ≠ .joining) } } 4 3
    done (s1.silentAlive.pairChanged s)

/-! ### Mirroring: the secondary's side (R490 to R493) -/

/-- Entries of a mirrored record: the last one has the record's number. They take the next request number, which `queueMirrored` uses up. -/
def mirrorEntries (s : State) (seq : BitVec 64) (l : List MirrorEntry) : List JEntry :=
  let n := l.length
  (l.mapIdx fun i w => (i, w)).filterMap fun q =>
    match findObj q.2.idx.toNat q.2.sub.toNat with
    | none => none
    | some o => match decodeVal o q.2.data with
      | .error _ => none
      | .ok v => some
        { seq := seq - BitVec.ofNat 64 (n - 1 - q.1), tag := 6, idx := q.2.idx, sub := q.2.sub, row := q.2.row, val := v
          req := s.dict.nextReq, op := 0, se := .firmware }

/-- Entries of the local journal with the numbers of a received record. -/
def heldEntries (s : State) (seq : BitVec 64) (n : Nat) : List JEntry :=
  (s.store.journal.flatMap (·.entries)).filter fun e => !(e.seq.getLsbD 47) && decide (seq.toNat < e.seq.toNat + n) && decide (e.seq.toNat ≤ seq.toNat)

/-- Mirrored content takes its place in the arrival order (path tag 0x06, R82): what arrived before it commits first (R83, R85). While the
store takes no write it stays unconfirmed. -/
def State.queueMirrored (s : State) (rs : List JRecord) : State :=
  if storeOpen s then
    let s1 := s.closeRecord
    { s1 with dict := { s1.dict with waiting := s1.dict.waiting ++ rs, nextReq := s1.dict.nextReq + 1 } }
  else s

/-- A mirrored record, committed with its numbers and then confirmed. -/
def State.takeMirrored (s : State) (es : List JEntry) (seq : BitVec 64) : State :=
  s.queueMirrored [{ openedAt := s.clk.now, entries := es, confirm := some seq }]

/-- Mirrored content waits to be committed. -/
def mirrorWaits (s : State) : Bool := s.dict.waiting.any fun r => r.entries.any fun e => e.tag == 6

/-- The newest pair-stream number held or waiting to be committed. -/
def newestMirrored (s : State) : BitVec 64 :=
  s.dict.waiting.foldl (fun a r => r.entries.foldl (fun a e => if e.tag = 6 then e.seq else a) a) s.store.pairSeq
/-- A record does not follow the newest one held (R482): records between them are missing. -/
def mirrorGap (s : State) (seq : BitVec 64) (n : Nat) : Bool :=
  decide ((newestMirrored s).toNat % 2 ^ 47 + n < seq.toNat % 2 ^ 47)

/-- A secondary whose mirror is no longer complete becomes Joining (R492). -/
def State.fallBehind (s : State) : State := State.storeRole { s with pair := { s.pair with role := .joining, mirrorOk := false, resync := false } }

/-- GAVON_JOURNAL_RECORD (R475, R490, R492): a record it holds already is confirmed again; one with the same numbers and other content
replaces the local one while the pair is healthy, and otherwise the local one stays with a fault of kind 0x0D. A secondary that finds
records missing becomes Joining. -/
def execGavonJournalRecord (seq : BitVec 64) (entries : List MirrorEntry) (s : State) : Host.Outcome State Fault Refusal :=
  awake s <|
  if s.pair.role ≠ .secondary ∧ s.pair.role ≠ .joining then done s
  else
    let es := mirrorEntries s seq entries
    if s.dict.waiting.any fun r => r.confirm == some seq then done s
    else if s.pair.role = .secondary ∧ mirrorGap s seq entries.length = true then done (s.fallBehind.pairChanged s)
    else if s.store.pairSeq.toNat < seq.toNat then done (s.takeMirrored es seq)
    else
      let old := heldEntries s seq entries.length
      let same := old.isEmpty || decide (old.map (fun e => (e.idx, e.sub, e.row, e.val)) = es.map (fun e => (e.idx, e.sub, e.row, e.val)))
      if same then done (s.emit (.gavonConfirm seq))
      else if healthy s then done (s.takeMirrored es seq)
      else done ((State.reportNone { s with faults := { s.faults with diverged := true } } 0x0D).emit (.gavonConfirm seq))

/-- GAVON_LEARN_DELTA (R490): applied, and entered in the own learn log. -/
def execGavonLearnDelta (d : LearnDelta) (s : State) : Host.Outcome State Fault Refusal :=
  awake s <|
  if s.pair.role = .secondary ∨ s.pair.role = .joining then done ((s.applyDelta d).logLearn d) else done s

/-- A stream's mirrored record; the next boundary after it has the number `SLOT_NEXT`. -/
def State.mirrorStream (s : State) (n : Nat) (header : Bytes) : State :=
  match look s.encs n with
  | none => s
  | some e =>
    let e1 := e.fromHead (slice header 0 0x1C0)
    s.setEnc n { e1 with lastTick := ptpTicks s, grid := (fld s 0x8001 n 5, fld s 0x8001 n 6) }

/-- A stream's record is stored once the parameters that arrived before it are applied. -/
def State.streamArrives (s : State) (n : Nat) (header : Bytes) : State :=
  if mirrorWaits s then { s with pair := { s.pair with heads := s.pair.heads ++ [(n, header)] } } else s.mirrorStream n header

/-- The stream records held are stored once no mirrored content waits. -/
def State.takeHeads (s : State) : State :=
  if mirrorWaits s then s
  else s.pair.heads.foldl (fun s h => s.mirrorStream h.1 h.2) { s with pair := { s.pair with heads := [] } }

/-- JOURNAL_COMMIT (R83, R85, R449, R452): the commit of the oldest closed record ends. `copies` of its three copies verified; a block
that failed is replaced by a spare and the record commits, or no spare is left, the store becomes read-only and the record does not. -/
def execJournalCommit (copies : Fin 4) (s : State) : Host.Outcome State Fault Refusal :=
  awake s <|
  match s.dict.waiting with
  | [] => done s
  | r :: rest =>
    let s0 : State := { s with dict := { s.dict with waiting := rest } }
    let pos := s.store.nextSeq + s.store.nextLocal
    let s1 := if copies.val < 3 then s0.retireBlock (journalBlock pos copies.val) else s0
    let s2 := if s1.store.readOnly then s1.commitFails r else s1.commit r
    done (s2.settleDict.closeDue.takeHeads)

/-- GAVON_STREAM_RECORD (R490). -/
def execGavonStreamRecord (stream : BitVec 16) (header : Bytes) (s : State) : Host.Outcome State Fault Refusal :=
  awake s <|
  if s.pair.role = .secondary ∨ s.pair.role = .joining then done (s.streamArrives stream.toNat header) else done s

/-- A write as the primary takes it. -/
def relayOp (w : RelayWrite) : DOp :=
  let dom := match findObj w.idx.toNat w.sub.toNat with
    | some o => o.ty.isDom
    | none => false
  { code := if dom then 3 else 2, idx := w.idx.toNat, sub := w.sub.toNat, data := w.data, atRow := w.row }

/-- The primary's answer for one write: a refusal ends the operation that waits. -/
def State.relayAnswer (s : State) (w : RelayWrite) : State :=
  match takeFirst (fun r : Relayed => decide (r.idx = w.idx) && decide (r.sub = w.sub) && decide (r.row = w.row)) s.pair.relayed with
  | some (r, rest) =>
    if w.status = stOk then s else State.endOp { s with pair := { s.pair with relayed := rest } } r.req r.op w.status
  | none => s

/-- RELAYED_REQUEST (R86, R493): on the primary a relayed request arrives with its original path tag, several writes as a group; on the secondary
the primary's answer comes back. -/
def execRelayedRequest (se : Session) (ws : List RelayWrite) (s : State) : Host.Outcome State Fault Refusal :=
  awake s <|
  if s.pair.role = .primary then
    done ((s.pairCount 8).arrive se (pathTag se) .relay (decide (1 < ws.length)) (ws.map relayOp))
  else done ((ws.foldl State.relayAnswer s).settleDict)

/-- MIRROR_CONFIRM (R492). -/
def execMirrorConfirm (seq : BitVec 64) (s : State) : Host.Outcome State Fault Refusal :=
  awake s <|
  if s.pair.role ≠ .primary then done s
  else done { s with pair := { s.pair with
    unconfirmed := s.pair.unconfirmed.filter fun q => decide (seq.toNat < q.1.toNat)
    confirmed := if s.pair.confirmed.toNat < seq.toNat then seq else s.pair.confirmed } }

/-! ### The link (R487, R492, R496) -/

/-- Send every record above the last confirmed sequence again. -/
def State.resend (s : State) : State :=
  { s with out := s.out ++ s.store.journal.filterMap fun r =>
      let m := mirrorOf r.entries
      let n := newestPair r.entries 0
      if m.isEmpty || decide (n.toNat ≤ s.pair.confirmed.toNat) then none else some (.gavonRecord n m) }

/-- GAVON_LINK_UP (R492): after the link was down the primary sends again; a secondary that finds learn deltas lost, which the frames'
sequence numbers tell it (a free value here), becomes Joining. -/
def execGavonLinkUp (halfB : Bool) (s : State) : Host.Outcome State Fault Refusal :=
  awake s <|
  let wasDown := halvesUp s == 0
  let s1 : State := { s with pair := if halfB then { s.pair with halfB := true } else { s.pair with halfA := true } }
  let s2 :=
    if !wasDown then s1
    else if s.pair.role = .primary then s1.resend
    else if s.pair.role = .secondary then
      let lost := Config.freeBit s.clk.free
      let f := s1.freed
      if lost then f.fallBehind else f
    else s1
  done (s2.pairChanged s)

/-- GAVON_LINK_DOWN (R496). -/
def execGavonLinkDown (halfB : Bool) (s : State) : Host.Outcome State Fault Refusal :=
  awake s <|
  let s1 : State := { s with pair := if halfB then { s.pair with halfB := false } else { s.pair with halfA := false } }
  done (s1.pairChanged s)

/-! ### Forming and rejoining (R498, R499) -/

/-- What a role decision comes to, by the first row that applies: `some true` for this device, `some false` for the partner, none where it
stays open (both serve; or only `PAIR_ID` could decide, and it is equal). A partner with no
pair state sends epoch 0 (DEDUCED: each decision increments it). -/
def decision (s : State) (c : Croak) : Option Bool :=
  let mine := s.store.pair
  if serves s && c.state == 1 then none
  else if serves s then some true
  else if c.state = 1 then some false
  else if mine.known && c.epoch == 0 then some true
  else if !mine.known && c.epoch != 0 then some false
  else if mine.known && decide (c.epoch < s.pair.epoch) then some true
  else if mine.known && decide (s.pair.epoch < c.epoch) then some false
  else if mine.known && mine.primary then some true
  else if mine.known && mine.second then some false
  else if c.pairId = s.boot.pairId then none
  else some (!s.boot.pairId)

/-- ROLE_DECISION (R498): a device in Standby or Joining, or one that serves without a partner, with valid croaks on a link that is up. -/
def execRoleDecision (s : State) : Host.Outcome State Fault Refusal :=
  awake s <|
  let open_ := decide (s.pair.role = .standby) || decide (s.pair.role = .joining) || serves s
  match s.pair.partner with
  | none => done s
  | some c =>
    if !open_ || s.boot.newt || !s.boot.selvedge || s.pair.silent || halvesUp s == 0 || !(parB s 0x7070 1) ||
        c.state == 5 || c.state == 6 then done s
    else match decision s c with
      | none =>
        if c.pairId ≠ s.boot.pairId ∨ s.pair.equalIds = true ∨ (serves s = true ∧ c.epoch ≠ s.pair.epoch) then done s
        else done (State.pairEvent { s with pair := { s.pair with equalIds := true } })
      | some true =>
        let served := serves s
        let s1 := State.storeRole { s with pair := { s.pair with
          role := .primary, epoch := if served then s.pair.epoch else s.pair.epoch + 1 } }
        done ((if served then s1 else s1.startContexts).pairChanged s)
      | some false =>
        let s1 := if serves s then s.stopServing .joining
          else State.storeRole { s with pair := { s.pair with role := .joining } }
        done (s1.pairChanged s)

/-- The Joining device discards every mirrored value it holds; the writes it accepted while apart are counted (R499). -/
def State.discardMirrored (s : State) : State :=
  let s1 := (s.encs.map (·.1)).foldl State.releaseStream s
  let s2 := (s1.decs.map (·.1)).foldl (fun s c => s.releaseDec mStore c) s1
  let own (r : JRecord) : JRecord := { r with entries := r.entries.filter fun e => e.seq.getLsbD 47 }
  State.pairCount { s2 with
    pair := { s2.pair with resync := true, discarded := 0, heads := [] }
    dict := { s2.dict with params := s2.dict.params.filter fun q => localKey q.1 }
    store := if storeShut s2 then s2.store else { s2.store with
      image := s2.store.image.filter fun q => localKey q.1
      journal := (s2.store.journal.map own).filter fun r => !r.entries.isEmpty
      pairSeq := 0, learnLog := [], snapA := none, snapB := none }
    selv := { s2.selv with buckets := [], overflow := [], members := [], learnLog := [] }
    trans := { s2.trans with endpoints := s2.trans.endpoints.map fun q =>
      (q.1, { q.2 with present := false, resolved := 0 }) } } 7 s.pair.discarded

/-- Entries in records of at most 4 KiB (R451). -/
def splitRecords : List JEntry → List (List JEntry)
  | [] => []
  | e :: l =>
    match splitRecords l with
    | r :: rs => if recordSize (e :: r) ≤ 4096 then (e :: r) :: rs else [e] :: r :: rs
    | [] => [[e]]

/-- Content of the primary is committed as path tag 0x06, numbered as the primary's newest record (R499). -/
def State.takeResync (s : State) (r : Resync) : State :=
  match r with
  | .params l =>
    let seq := match s.pair.partner with
      | some c => c.journal
      | none => 0
    let es := (mirrorEntries s seq l).map fun e => { e with seq := seq }
    if es.isEmpty && storeOpen s then { s with store := { s.store with pairSeq := seq } }
    else s.queueMirrored ((splitRecords es).map fun l => { openedAt := s.clk.now, entries := l })
  | .learned l => l.foldl (fun s d => (s.applyDelta d).logLearn d) s
  | .stream n h => s.streamArrives n.toNat h

/-- RESYNC_FRAME (R499): the first one begins the resynchronisation. How far it has come is a free value of 0 to 99. -/
def execResyncFrame (r : Resync) (s : State) : Host.Outcome State Fault Refusal :=
  awake s <|
  if s.pair.role ≠ .joining then done s
  else
    let s1 := if s.pair.resync then s else s.discardMirrored.pairCount 6
    let epoch := match s.pair.partner with
      | some c => c.epoch
      | none => s.pair.epoch
    let s2 : State := { s1 with pair := { s1.pair with
      epoch := epoch, progress := BitVec.ofNat 8 (Config.freeNat s1.clk.free % 100) } }
    done (s2.freed.takeResync r)

/-- RESYNC_COMPLETE (R499): the last record is confirmed; the device becomes secondary. -/
def execResyncComplete (s : State) : Host.Outcome State Fault Refusal :=
  awake s <|
  if s.pair.role ≠ .joining ∨ s.pair.resync = false ∨ mirrorWaits s = true then done s
  else
    let s1 := State.storeRole { s with pair := { s.pair with role := .secondary, mirrorOk := true, resync := false, progress := 100 } }
    done (s1.pairChanged s)

/-! ### Switchover and clearing (R500, R501) -/

/-- The primary hands over: the leaving croak, then it no longer serves and becomes secondary; the epoch increments once. -/
def State.handOver2 (s : State) : State :=
  let s1 := (s.croak 5).stopServing .secondary
  State.storeRole (State.pairCount { s1 with pair := { s1.pair with
    epoch := s1.pair.epoch + 1, mirrorOk := true, switching := none, unconfirmed := [], resync := false } } 2)

/-- SWITCHOVER (R500): the request makes the primary take no new slot; it hands over once no frame is in coding and every record is
confirmed, or 5 ms have passed. On the secondary the request goes to the primary. -/
def execSwitchover (s : State) : Host.Outcome State Fault Refusal :=
  awake s <|
  let asked := s.takeAct 0x7070 3
  let s1 : State := match asked with
    | some (_, t) => t
    | none => s
  if s.pair.role = .secondary then
    (if asked.isSome ∧ healthy s = true then done (s1.emit (.gavonRelay 6 [⟨0x7070, 3, none, [1]⟩])) else done s1)
  else if s.pair.role ≠ .primary ∨ (asked.isNone ∧ s.pair.switching.isNone) then done s1
  else if asked.isSome ∧ healthy s = false then done s1
  else
    let from_ := s.pair.switching.getD s.clk.now
    let quiet := s1.encs.map fun q => (q.1, { q.2 with pending := none })
    let s2 : State := { s1 with pair := { s1.pair with switching := some from_ }, encs := quiet }
    let idle := s2.tiles.all fun q => q.2.frame.isNone
    let sent := s2.pair.unconfirmed.isEmpty || decide (from_ + 5000000 ≤ s.clk.now)
    if idle && sent then done (s2.handOver2.pairChanged s) else done s2

/-- CLEAR_PAIR_STATE (R501): a replaced partner, in Joining. A write-protected store keeps its copy (R65). -/
def execClearPairState (s : State) : Host.Outcome State Fault Refusal :=
  awake s <|
  match s.takeAct 0x7070 4 with
  | none => done s
  | some (_, s1) =>
    let s2 := if serves s1 then s1.stopServing .joining else s1
    let s3 : State := { s2 with
      pair := { s2.pair with role := .joining, epoch := 0, mirrorOk := false, resync := false }
      store := if storeShut s2 then s2.store else { s2.store with pair := {} } }
    done (s3.pairChanged s)

end Sys2Proof.Machine
end

