-- ==== Sys2Proof/Machine/Dispatch.lean ====
section
/-! DEFINITION. The meaning of each command: one arm per constructor of `Instr`. -/

namespace Sys2Proof.Machine

def exec (i : Instr) (s : State) : Host.Outcome State Fault Refusal :=
  match i with
  | .powerOnReset st => Sys2Proof.Machine.execPowerOnReset st s
  | .pinReset lowNs st => Sys2Proof.Machine.execPinReset lowNs st s
  | .restartRequest st => Sys2Proof.Machine.execRestartRequest st s
  | .hostReset => Sys2Proof.Machine.execHostReset s
  | .bootWatchdogExpiry st => Sys2Proof.Machine.execBootWatchdogExpiry st s
  | .recoveryWatchdogExpiry st => Sys2Proof.Machine.execRecoveryWatchdogExpiry st s
  | .pllsLocked => Sys2Proof.Machine.execPllsLocked s
  | .sramRepair => Sys2Proof.Machine.execSramRepair s
  | .persistentStoreMount bad tornSegments differ => Sys2Proof.Machine.execPersistentStoreMount bad tornSegments differ s
  | .hbmTrained => Sys2Proof.Machine.execHbmTrained s
  | .journalReplay => Sys2Proof.Machine.execJournalReplay s
  | .selvedgeEnable => Sys2Proof.Machine.execSelvedgeEnable s
  | .timeUnitStart => Sys2Proof.Machine.execTimeUnitStart s
  | .ddr5Trained channels => Sys2Proof.Machine.execDdr5Trained channels s
  | .firmwareLoad => Sys2Proof.Machine.execFirmwareLoad s
  | .bootGo m => Sys2Proof.Machine.execBootGo m s
  | .bootWindowWrite m off data => Sys2Proof.Machine.execBootWindowWrite m off data s
  | .bootComplete => Sys2Proof.Machine.execBootComplete s
  | .leaveNewt st => Sys2Proof.Machine.execLeaveNewt st s
  | .firmwareSlotWrite se slotB off data => Sys2Proof.Machine.execFirmwareSlotWrite se slotB off data s
  | .firmwareSlotVerified ok => Sys2Proof.Machine.execFirmwareSlotVerified ok s
  | .servicePress => Sys2Proof.Machine.execServicePress s
  | .serviceRelease => Sys2Proof.Machine.execServiceRelease s
  | .serviceHold5s st => Sys2Proof.Machine.execServiceHold5s st s
  | .serviceHold15s st committed => Sys2Proof.Machine.execServiceHold15s st committed s
  | .serviceStuck => Sys2Proof.Machine.execServiceStuck s
  | .pwrfailWarning => Sys2Proof.Machine.execPwrfailWarning s
  | .shutdownRecord => Sys2Proof.Machine.execShutdownRecord s
  | .brownout => Sys2Proof.Machine.execBrownout s
  | .learnLogCapture => Sys2Proof.Machine.execLearnLogCapture s
  | .learnLogSegmentDone => Sys2Proof.Machine.execLearnLogSegmentDone s
  | .snapshotWrite => Sys2Proof.Machine.execSnapshotWrite s
  | .railMonitorTrip rail lowNs st => Sys2Proof.Machine.execRailMonitorTrip rail lowNs st s
  | .regulatorPoll answers => Sys2Proof.Machine.execRegulatorPoll answers s
  | .dictRead se idx sub => Sys2Proof.Machine.execDictRead se idx sub s
  | .dictWrite se idx sub data => Sys2Proof.Machine.execDictWrite se idx sub data s
  | .cursorWrite se idx data => Sys2Proof.Machine.execCursorWrite se idx data s
  | .writeGroup se ws => Sys2Proof.Machine.execWriteGroup se ws s
  | .domainSegmentWrite se idx sub off data => Sys2Proof.Machine.execDomainSegmentWrite se idx sub off data s
  | .domainFinalWrite se idx sub off data => Sys2Proof.Machine.execDomainFinalWrite se idx sub off data s
  | .domainRead se idx sub off room => Sys2Proof.Machine.execDomainRead se idx sub off room s
  | .journalRecordClose => Sys2Proof.Machine.execJournalRecordClose s
  | .journalCommit copies => Sys2Proof.Machine.execJournalCommit copies s
  | .parameterImageWrite failures => Sys2Proof.Machine.execParameterImageWrite failures s
  | .wearLevellerCopy => Sys2Proof.Machine.execWearLevellerCopy s
  | .usdoRequest client op => Sys2Proof.Machine.execUsdoRequest client op s
  | .nmtStart => Sys2Proof.Machine.execNmtStart s
  | .nmtStop => Sys2Proof.Machine.execNmtStop s
  | .nmtEnterPreoperational => Sys2Proof.Machine.execNmtEnterPreoperational s
  | .nmtResetCommunication => Sys2Proof.Machine.execNmtResetCommunication s
  | .nmtResetNode => Sys2Proof.Machine.execNmtResetNode s
  | .canopenHeartbeat => Sys2Proof.Machine.execCanopenHeartbeat s
  | .dictDatagram front vlan ip port payload => Sys2Proof.Machine.execDictDatagram front vlan ip port payload s
  | .dwRead m v => Sys2Proof.Machine.execDwRead m v s
  | .dwWrite m v => Sys2Proof.Machine.execDwWrite m v s
  | .dwFinalDomainWrite m v => Sys2Proof.Machine.execDwFinalDomainWrite m v s
  | .dwStagedWrite m v => Sys2Proof.Machine.execDwStagedWrite m v s
  | .registerWrite m sp off be v hw => Sys2Proof.Machine.execRegisterWrite m sp off be v hw s
  | .rcRead m sp off hw => Sys2Proof.Machine.execRcRead m sp off hw s
  | .wideLoRead m off => Sys2Proof.Machine.execWideLoRead m off s
  | .wideHiRead m off => Sys2Proof.Machine.execWideHiRead m off s
  | .wideLoWrite m off v => Sys2Proof.Machine.execWideLoWrite m off v s
  | .wideHiWrite m off v => Sys2Proof.Machine.execWideHiWrite m off v s
  | .unlockKey m v => Sys2Proof.Machine.execUnlockKey m v s
  | .errInjectGo m v => Sys2Proof.Machine.execErrInjectGo m v s
  | .scratchInjectedRead m => Sys2Proof.Machine.execScratchInjectedRead m s
  | .indirectDataRead m w => Sys2Proof.Machine.execIndirectDataRead m w s
  | .indirectDataWrite m w v => Sys2Proof.Machine.execIndirectDataWrite m w v s
  | .indirectComplete w item => Sys2Proof.Machine.execIndirectComplete w item s
  | .indirectTimeout w => Sys2Proof.Machine.execIndirectTimeout w s
  | .bobbinWrite b item => Sys2Proof.Machine.execBobbinWrite b item s
  | .bobbinRead b e => Sys2Proof.Machine.execBobbinRead b e s
  | .slotBoundary stream => Sys2Proof.Machine.execSlotBoundary stream s
  | .tileTake tile rec badEntries => Sys2Proof.Machine.execTileTake tile rec badEntries s
  | .battenFrameStart tile e => Sys2Proof.Machine.execBattenFrameStart tile e s
  | .ctuCompose tile badReads => Sys2Proof.Machine.execCtuCompose tile badReads s
  | .battenFrameEnd tile e => Sys2Proof.Machine.execBattenFrameEnd tile e s
  | .laneCtuStart tile lane hint item => Sys2Proof.Machine.execLaneCtuStart tile lane hint item s
  | .laneRequest tile lane => Sys2Proof.Machine.execLaneRequest tile lane s
  | .laneCtuEnd tile lane refBad => Sys2Proof.Machine.execLaneCtuEnd tile lane refBad s
  | .skipRunCtu tile => Sys2Proof.Machine.execSkipRunCtu tile s
  | .rowClose tile => Sys2Proof.Machine.execRowClose tile s
  | .ctuFinal tile ctu filtered => Sys2Proof.Machine.execCtuFinal tile ctu filtered s
  | .frameFinal tile crc sealItem => Sys2Proof.Machine.execFrameFinal tile crc sealItem s
  | .frameOpenTimeout tile => Sys2Proof.Machine.execFrameOpenTimeout tile s
  | .battenSilenceTimeout tile => Sys2Proof.Machine.execBattenSilenceTimeout tile s
  | .flushApply tile => Sys2Proof.Machine.execFlushApply tile s
  | .packetForm tile item => Sys2Proof.Machine.execPacketForm tile item s
  | .packetReplicate tile badEndpoints badMacs badGroup => Sys2Proof.Machine.execPacketReplicate tile badEndpoints badMacs badGroup s
  | .schedulerDecision node => Sys2Proof.Machine.execSchedulerDecision node s
  | .blockAllocate m h longTerm => Sys2Proof.Machine.execBlockAllocate m h longTerm s
  | .blockName m block gen h => Sys2Proof.Machine.execBlockName m block gen h s
  | .blockRelease m block gen => Sys2Proof.Machine.execBlockRelease m block gen s
  | .surfaceTableCommit surface => Sys2Proof.Machine.execSurfaceTableCommit surface s
  | .settle => Sys2Proof.Machine.execSettle s
  | .prefetch stream => Sys2Proof.Machine.execPrefetch stream s
  | .blockMove block toDdr e => Sys2Proof.Machine.execBlockMove block toDdr e s
  | .movedFrameFree => Sys2Proof.Machine.execMovedFrameFree s
  | .streamStart stream => Sys2Proof.Machine.execStreamStart stream s
  | .poolAudit => Sys2Proof.Machine.execPoolAudit s
  | .poolAuditPass => Sys2Proof.Machine.execPoolAuditPass s
  | .decodePacket ctx tagged => Sys2Proof.Machine.execDecodePacket ctx tagged s
  | .reorderTimeout ctx => Sys2Proof.Machine.execReorderTimeout ctx s
  | .ssrcRelock ctx => Sys2Proof.Machine.execSsrcRelock ctx s
  | .st2110Frame tile item => Sys2Proof.Machine.execSt2110Frame tile item s
  | .decodeTake tile width height poc => Sys2Proof.Machine.execDecodeTake tile width height poc s
  | .decodePictureEnd tile found item => Sys2Proof.Machine.execDecodePictureEnd tile found item s
  | .timedOutputCommit ctx => Sys2Proof.Machine.execTimedOutputCommit ctx s
  | .microwordExecute tile => Sys2Proof.Machine.execMicrowordExecute tile s
  | .treadleInterrupt tile => Sys2Proof.Machine.execTreadleInterrupt tile s
  | .treadleEvent tile ev => Sys2Proof.Machine.execTreadleEvent tile ev s
  | .treadleFault tile code => Sys2Proof.Machine.execTreadleFault tile code s
  | .safePointTimeout tile => Sys2Proof.Machine.execSafePointTimeout tile s
  | .treadleRestart tile => Sys2Proof.Machine.execTreadleRestart tile s
  | .patchApply tile => Sys2Proof.Machine.execPatchApply tile s
  | .packetReceive port data => Sys2Proof.Machine.execPacketReceive port data s
  | .classify pkt tree ingestBad dstBad srcBad => Sys2Proof.Machine.execClassify pkt tree ingestBad dstBad srcBad s
  | .reorderRelease port => Sys2Proof.Machine.execReorderRelease port s
  | .lengthStomp port => Sys2Proof.Machine.execLengthStomp port s
  | .learnEvent bad => Sys2Proof.Machine.execLearnEvent bad s
  | .agingScan => Sys2Proof.Machine.execAgingScan s
  | .macSearch bad => Sys2Proof.Machine.execMacSearch bad s
  | .macNext => Sys2Proof.Machine.execMacNext s
  | .macInsert bad => Sys2Proof.Machine.execMacInsert bad s
  | .macDelete bad => Sys2Proof.Machine.execMacDelete bad s
  | .macFlushByPort steps => Sys2Proof.Machine.execMacFlushByPort steps s
  | .macFlushAll steps => Sys2Proof.Machine.execMacFlushAll steps s
  | .prefixInsert => Sys2Proof.Machine.execPrefixInsert s
  | .prefixDelete => Sys2Proof.Machine.execPrefixDelete s
  | .prefixExactSearch => Sys2Proof.Machine.execPrefixExactSearch s
  | .prefixLongestMatch bad => Sys2Proof.Machine.execPrefixLongestMatch bad s
  | .prefixNext => Sys2Proof.Machine.execPrefixNext s
  | .rulesetActivate => Sys2Proof.Machine.execRulesetActivate s
  | .snoopReport port vlan mac => Sys2Proof.Machine.execSnoopReport port vlan mac s
  | .snoopLeave port vlan mac => Sys2Proof.Machine.execSnoopLeave port vlan mac s
  | .snoopQueryReceived port vlan query ip => Sys2Proof.Machine.execSnoopQueryReceived port vlan query ip s
  | .membershipExpiry port vlan mac => Sys2Proof.Machine.execMembershipExpiry port vlan mac s
  | .generalQuerySend vlan => Sys2Proof.Machine.execGeneralQuerySend vlan s
  | .linkDown port => Sys2Proof.Machine.execLinkDown port s
  | .linkUp port => Sys2Proof.Machine.execLinkUp port s
  | .touchDatagram ip payload => Sys2Proof.Machine.execTouchDatagram ip payload s
  | .touchEvent engine e => Sys2Proof.Machine.execTouchEvent engine e s
  | .touchStuck endpoint contact => Sys2Proof.Machine.execTouchStuck endpoint contact s
  | .presenceScan => Sys2Proof.Machine.execPresenceScan s
  | .rtcpReceive ip port payload => Sys2Proof.Machine.execRtcpReceive ip port payload s
  | .sealCheck => Sys2Proof.Machine.execSealCheck s
  | .sealRecordWaitTimeout => Sys2Proof.Machine.execSealRecordWaitTimeout s
  | .ppsInEdge frac => Sys2Proof.Machine.execPpsInEdge frac s
  | .ppsMissing => Sys2Proof.Machine.execPpsMissing s
  | .referenceInputLost inp => Sys2Proof.Machine.execReferenceInputLost inp s
  | .holdoverLimitCrossed => Sys2Proof.Machine.execHoldoverLimitCrossed s
  | .timeStep => Sys2Proof.Machine.execTimeStep s
  | .setSeconds => Sys2Proof.Machine.execSetSeconds s
  | .announceSend port => Sys2Proof.Machine.execAnnounceSend port s
  | .syncSend port item => Sys2Proof.Machine.execSyncSend port item s
  | .delayReq port item unicast source seq => Sys2Proof.Machine.execDelayReq port item unicast source seq s
  | .foreignAnnounce port a => Sys2Proof.Machine.execForeignAnnounce port a s
  | .announceReceiptTimeout => Sys2Proof.Machine.execAnnounceReceiptTimeout s
  | .syncMetadataSend port => Sys2Proof.Machine.execSyncMetadataSend port s
  | .ppsOutEdge => Sys2Proof.Machine.execPpsOutEdge s
  | .todLine => Sys2Proof.Machine.execTodLine s
  | .sqDoorbell p v => Sys2Proof.Machine.execSqDoorbell p v s
  | .cqDoorbell c v => Sys2Proof.Machine.execCqDoorbell c v s
  | .sqEnable m p v => Sys2Proof.Machine.execSqEnable m p v s
  | .sqDisable m p v => Sys2Proof.Machine.execSqDisable m p v s
  | .sqReset m p => Sys2Proof.Machine.execSqReset m p s
  | .cqEnable m c v => Sys2Proof.Machine.execCqEnable m c v s
  | .cqDisable m c v => Sys2Proof.Machine.execCqDisable m c v s
  | .cqReset m c => Sys2Proof.Machine.execCqReset m c s
  | .entryFetch p entries => Sys2Proof.Machine.execEntryFetch p entries s
  | .dispatch => Sys2Proof.Machine.execDispatch s
  | .nop job => Sys2Proof.Machine.execNop job s
  | .surfaceLoad job host => Sys2Proof.Machine.execSurfaceLoad job host s
  | .surfaceFree job => Sys2Proof.Machine.execSurfaceFree job s
  | .surfaceRead job table hostBad => Sys2Proof.Machine.execSurfaceRead job table hostBad s
  | .bitstream job host => Sys2Proof.Machine.execBitstream job host s
  | .packetSend job host => Sys2Proof.Machine.execPacketSend job host s
  | .receivePost job table => Sys2Proof.Machine.execReceivePost job table s
  | .jobComplete job => Sys2Proof.Machine.execJobComplete job s
  | .dmaGo m ch => Sys2Proof.Machine.execDmaGo m ch s
  | .dmaPause m ch => Sys2Proof.Machine.execDmaPause m ch s
  | .dmaResume m ch => Sys2Proof.Machine.execDmaResume m ch s
  | .dmaAbort m ch => Sys2Proof.Machine.execDmaAbort m ch s
  | .dmaDone ch data same => Sys2Proof.Machine.execDmaDone ch data same s
  | .dmaAccessError ch e addr moved => Sys2Proof.Machine.execDmaAccessError ch e addr moved s
  | .dmaHaltedClear m => Sys2Proof.Machine.execDmaHaltedClear m s
  | .interruptRaise bank n m detail => Sys2Proof.Machine.execInterruptRaise bank n m detail s
  | .interruptClaim m t => Sys2Proof.Machine.execInterruptClaim m t s
  | .interruptComplete m t n => Sys2Proof.Machine.execInterruptComplete m t n s
  | .pendSet m bank w v => Sys2Proof.Machine.execPendSet m bank w v s
  | .pendClr m bank w v hw => Sys2Proof.Machine.execPendClr m bank w v hw s
  | .maskSet m bank w v => Sys2Proof.Machine.execMaskSet m bank w v s
  | .maskClr m bank w v => Sys2Proof.Machine.execMaskClr m bank w v s
  | .sgi m k v => Sys2Proof.Machine.execSgi m k v s
  | .moderationExpiry n => Sys2Proof.Machine.execModerationExpiry n s
  | .streamLogTake m c => Sys2Proof.Machine.execStreamLogTake m c s
  | .bufferAllocate m e stale => Sys2Proof.Machine.execBufferAllocate m e stale s
  | .bufferFree m b => Sys2Proof.Machine.execBufferFree m b s
  | .bufferGive m b owner => Sys2Proof.Machine.execBufferGive m b owner s
  | .bpmMinFreeWrite m v => Sys2Proof.Machine.execBpmMinFreeWrite m v s
  | .bitmapRebuildDone => Sys2Proof.Machine.execBitmapRebuildDone s
  | .patrolScrub addr f => Sys2Proof.Machine.execPatrolScrub addr f s
  | .pseudoChannelRegrow stack pc => Sys2Proof.Machine.execPseudoChannelRegrow stack pc s
  | .pseudoChannelCopyDone stack lost => Sys2Proof.Machine.execPseudoChannelCopyDone stack lost s
  | .rankRetire ch rank => Sys2Proof.Machine.execRankRetire ch rank s
  | .rankMigrationDone ch lost => Sys2Proof.Machine.execRankMigrationDone ch lost s
  | .rankPowerDown ch rank => Sys2Proof.Machine.execRankPowerDown ch rank s
  | .faultReport kind acc m addr struck => Sys2Proof.Machine.execFaultReport kind acc m addr struck s
  | .faultRecordRelease m v newcomer => Sys2Proof.Machine.execFaultRecordRelease m v newcomer s
  | .errPulseEnd st => Sys2Proof.Machine.execErrPulseEnd st s
  | .faultLogSummary => Sys2Proof.Machine.execFaultLogSummary s
  | .ageingSample margins => Sys2Proof.Machine.execAgeingSample margins s
  | .regrowTrigger u k => Sys2Proof.Machine.execRegrowTrigger u k s
  | .regrowRequest => Sys2Proof.Machine.execRegrowRequest s
  | .spareSelfTestDone ok => Sys2Proof.Machine.execSpareSelfTestDone ok s
  | .unitSwap => Sys2Proof.Machine.execUnitSwap s
  | .coreWatchdogExpiry k => Sys2Proof.Machine.execCoreWatchdogExpiry k s
  | .temperatureLimit tj => Sys2Proof.Machine.execTemperatureLimit tj s
  | .thermalTrip tj heldNs => Sys2Proof.Machine.execThermalTrip tj heldNs s
  | .gpioInputAccept n level heldUs chatter => Sys2Proof.Machine.execGpioInputAccept n level heldUs chatter s
  | .gpioStuck n => Sys2Proof.Machine.execGpioStuck n s
  | .pairAliveToggle => Sys2Proof.Machine.execPairAliveToggle s
  | .pairAliveLost => Sys2Proof.Machine.execPairAliveLost s
  | .croakSend => Sys2Proof.Machine.execCroakSend s
  | .croakReceive payload => Sys2Proof.Machine.execCroakReceive payload s
  | .partnerSilent => Sys2Proof.Machine.execPartnerSilent s
  | .takeover => Sys2Proof.Machine.execTakeover s
  | .takeoverAnnounceRepeat => Sys2Proof.Machine.execTakeoverAnnounceRepeat s
  | .gavonJournalRecord seq entries => Sys2Proof.Machine.execGavonJournalRecord seq entries s
  | .gavonLearnDelta d => Sys2Proof.Machine.execGavonLearnDelta d s
  | .gavonStreamRecord stream header => Sys2Proof.Machine.execGavonStreamRecord stream header s
  | .gavonTime t => Sys2Proof.Machine.execGavonTime t s
  | .relayedRequest se ws => Sys2Proof.Machine.execRelayedRequest se ws s
  | .mirrorConfirm seq => Sys2Proof.Machine.execMirrorConfirm seq s
  | .gavonLinkUp halfB => Sys2Proof.Machine.execGavonLinkUp halfB s
  | .gavonLinkDown halfB => Sys2Proof.Machine.execGavonLinkDown halfB s
  | .roleDecision => Sys2Proof.Machine.execRoleDecision s
  | .resyncFrame r => Sys2Proof.Machine.execResyncFrame r s
  | .resyncComplete => Sys2Proof.Machine.execResyncComplete s
  | .switchover => Sys2Proof.Machine.execSwitchover s
  | .clearPairState => Sys2Proof.Machine.execClearPairState s
  | .referenceInputGood inp => Sys2Proof.Machine.execReferenceInputGood inp s
  | .temperatureLimitCleared tj => Sys2Proof.Machine.execTemperatureLimitCleared tj s
  | .thermalResetRelease tj st => Sys2Proof.Machine.execThermalResetRelease tj st s
  | .snapshotVerified => Sys2Proof.Machine.execSnapshotVerified s
  | .canBusOff on => Sys2Proof.Machine.execCanBusOff on s
  | .secondsCountApply => Sys2Proof.Machine.execSecondsCountApply s
  | .pairAliveRestored => Sys2Proof.Machine.execPairAliveRestored s
  | .syncReceive port offsetNs => Sys2Proof.Machine.execSyncReceive port offsetNs s
  | .boundaryScan => Sys2Proof.Machine.execBoundaryScan s

end Sys2Proof.Machine
end

