-- ==== Sys2Proof/Laws/Tables.lean ====
section
/-! SUPPORT. The laws of sparse tables and byte memories: read after write, and the canonical form. -/

namespace Sys2Proof.Machine

/-! ### Tables -/

@[simp] theorem look_nil {α : Type} (k : Nat) : look ([] : Tab α) k = none := rfl

@[simp] theorem look_put_same {α : Type} (t : Tab α) (k : Nat) (v : α) : look (put t k v) k = some v := by
  induction t with
  | nil => simp [put, look]
  | cons p r ih =>
    obtain ⟨j, w⟩ := p
    unfold put
    split
    · simp [look]
    · split
      · simp [look]
      · rename_i _ h
        have h' : ¬ j = k := fun e => h e.symm
        simpa [look, h'] using ih

theorem look_put_ne {α : Type} (t : Tab α) {k j : Nat} (v : α) (h : j ≠ k) : look (put t k v) j = look t j := by
  induction t with
  | nil => simp [put, look, Ne.symm h]
  | cons p r ih =>
    obtain ⟨i, w⟩ := p
    unfold put
    split
    · simp [look, Ne.symm h]
    · split
      · rename_i _ e
        subst e
        simp [look, Ne.symm h]
      · simp [look, ih]

@[simp] theorem lookD_put_same {α : Type} (d : α) (t : Tab α) (k : Nat) (v : α) : lookD d (put t k v) k = v := by
  simp [lookD]

theorem lookD_put_ne {α : Type} (d : α) (t : Tab α) {k j : Nat} (v : α) (h : j ≠ k) : lookD d (put t k v) j = lookD d t j := by
  simp [lookD, look_put_ne t v h]

@[simp] theorem lookD_upd_same {α : Type} (d : α) (t : Tab α) (k : Nat) (f : α → α) :
    lookD d (upd d t k f) k = f (lookD d t k) := by
  simp [upd]

/-- Every key of a table is above a bound. -/
def allAbove {α : Type} (b : Nat) (t : Tab α) : Prop := ∀ p ∈ t, b < p.1

theorem tabWf_cons {α : Type} (j : Nat) (w : α) (r : Tab α) :
    tabWf ((j, w) :: r) = true ↔ allAbove j r ∧ tabWf r = true := by
  induction r generalizing j w with
  | nil => simp [tabWf, allAbove]
  | cons q r ih =>
    obtain ⟨k, v⟩ := q
    simp only [tabWf, Bool.and_eq_true, decide_eq_true_eq]
    constructor
    · rintro ⟨h1, h2⟩
      refine ⟨?_, h2⟩
      intro p hp
      rcases List.mem_cons.mp hp with rfl | hp
      · exact h1
      · exact lt_trans h1 (((ih k v).mp h2).1 p hp)
    · rintro ⟨h1, h2⟩
      exact ⟨h1 _ (List.mem_cons_self ..), h2⟩

theorem mem_put {α : Type} (t : Tab α) (k : Nat) (v : α) (p : Nat × α) : p ∈ put t k v → p = (k, v) ∨ p ∈ t := by
  induction t with
  | nil => simp [put]
  | cons q r ih =>
    obtain ⟨j, w⟩ := q
    unfold put
    split
    · simp
    · split
      · rename_i _ h
        subst h
        intro hp
        rcases List.mem_cons.mp hp with hp | hp
        · exact .inl hp
        · exact .inr (List.mem_cons_of_mem _ hp)
      · intro hp
        rcases List.mem_cons.mp hp with hp | hp
        · exact .inr (hp ▸ List.mem_cons_self ..)
        · rcases ih hp with h | h
          · exact .inl h
          · exact .inr (List.mem_cons_of_mem _ h)

theorem mem_del {α : Type} (t : Tab α) (k : Nat) (p : Nat × α) : p ∈ del t k → p ∈ t := by
  induction t with
  | nil => simp [del]
  | cons q r ih =>
    obtain ⟨j, w⟩ := q
    unfold del
    split
    · exact List.mem_cons_of_mem _
    · intro hp
      rcases List.mem_cons.mp hp with hp | hp
      · exact hp ▸ List.mem_cons_self ..
      · exact List.mem_cons_of_mem _ (ih hp)

theorem tabWf_put {α : Type} (t : Tab α) (k : Nat) (v : α) (h : tabWf t = true) : tabWf (put t k v) = true := by
  induction t with
  | nil => rfl
  | cons q r ih =>
    obtain ⟨j, w⟩ := q
    obtain ⟨ha, hr⟩ := (tabWf_cons j w r).mp h
    unfold put
    split
    · rename_i hk
      refine (tabWf_cons ..).mpr ⟨?_, h⟩
      intro p hp
      rcases List.mem_cons.mp hp with rfl | hp
      · exact hk
      · exact lt_trans hk (ha p hp)
    · split
      · rename_i _ e
        subst e
        exact (tabWf_cons ..).mpr ⟨ha, hr⟩
      · rename_i h1 h2
        refine (tabWf_cons ..).mpr ⟨?_, ih hr⟩
        intro p hp
        rcases mem_put r k v p hp with rfl | hp
        · exact lt_of_le_of_ne (Nat.le_of_not_lt h1) (Ne.symm h2)
        · exact ha p hp

theorem tabWf_del {α : Type} (t : Tab α) (k : Nat) (h : tabWf t = true) : tabWf (del t k) = true := by
  induction t with
  | nil => rfl
  | cons q r ih =>
    obtain ⟨j, w⟩ := q
    obtain ⟨ha, hr⟩ := (tabWf_cons j w r).mp h
    unfold del
    split
    · exact hr
    · exact (tabWf_cons ..).mpr ⟨fun p hp => ha p (mem_del r k p hp), ih hr⟩

theorem look_above {α : Type} (t : Tab α) (k : Nat) (h : allAbove k t) : look t k = none := by
  induction t with
  | nil => rfl
  | cons q r ih =>
    obtain ⟨j, w⟩ := q
    have hj : k < j := h (j, w) (List.mem_cons_self ..)
    have : ¬ j = k := by omega
    simp [look, this, ih fun p hp => h p (List.mem_cons_of_mem _ hp)]

theorem look_del_same {α : Type} (t : Tab α) (k : Nat) (h : tabWf t = true) : look (del t k) k = none := by
  induction t with
  | nil => rfl
  | cons q r ih =>
    obtain ⟨j, w⟩ := q
    obtain ⟨ha, hr⟩ := (tabWf_cons j w r).mp h
    unfold del
    split
    · rename_i e
      exact look_above r k (e ▸ ha)
    · rename_i e
      simp [look, e, ih hr]

theorem look_del_ne {α : Type} (t : Tab α) {k j : Nat} (h : j ≠ k) : look (del t k) j = look t j := by
  induction t with
  | nil => rfl
  | cons q r ih =>
    obtain ⟨i, w⟩ := q
    unfold del
    split
    · rename_i e
      subst e
      simp [look, Ne.symm h]
    · simp [look, ih]

/-! ### Byte memories -/

theorem memWf_iff (t : Tab Byte) : memWf t = true ↔ tabWf t = true ∧ ∀ p ∈ t, p.2 ≠ 0 := by
  simp [memWf]

/-- A byte write keeps the canonical form. -/
theorem memWf_setByte (t : Tab Byte) (a : Nat) (b : Byte) (h : memWf t = true) : memWf (setByte t a b) = true := by
  obtain ⟨h1, h2⟩ := (memWf_iff t).mp h
  unfold setByte
  split
  · exact (memWf_iff _).mpr ⟨tabWf_del t a h1, fun p hp => h2 p (mem_del t a p hp)⟩
  · rename_i hb
    refine (memWf_iff _).mpr ⟨tabWf_put t a b h1, fun p hp => ?_⟩
    rcases mem_put t a b p hp with rfl | hp
    · exact hb
    · exact h2 p hp

/-- A write of a byte string keeps the canonical form. -/
theorem memWf_setBytes (b : Bytes) (t : Tab Byte) (a : Nat) (h : memWf t = true) : memWf (setBytes t a b) = true := by
  induction b generalizing t a with
  | nil => exact h
  | cons x r ih => exact ih _ _ (memWf_setByte t a x h)

theorem byteAt_setByte_same (t : Tab Byte) (a : Nat) (b : Byte) (h : tabWf t = true) : byteAt (setByte t a b) a = b := by
  unfold setByte
  split
  · rename_i e
    simp [byteAt, lookD, look_del_same t a h, e]
  · simp [byteAt]

theorem byteAt_setByte_ne (t : Tab Byte) {a x : Nat} (b : Byte) (h : x ≠ a) : byteAt (setByte t a b) x = byteAt t x := by
  unfold setByte
  split
  · simp [byteAt, lookD, look_del_ne t h]
  · simp [byteAt, lookD, look_put_ne t b h]

/-- A write of a byte string leaves every byte outside it alone. -/
theorem byteAt_setBytes_outside (b : Bytes) (t : Tab Byte) (a x : Nat) (h : x < a ∨ a + b.length ≤ x) :
    byteAt (setBytes t a b) x = byteAt t x := by
  induction b generalizing t a with
  | nil => rfl
  | cons y r ih =>
    have hx : x ≠ a := by
      rcases h with h | h
      · omega
      · simp only [List.length_cons] at h
        omega
    rw [setBytes, ih _ _ (by simp only [List.length_cons] at h; omega), byteAt_setByte_ne t y hx]

end Sys2Proof.Machine
end

