-- ==== Sys2Proof/Laws/State.lean ====
section
/-! SUPPORT. What each shared operation leaves alone: one lemma per field, so that no later proof unfolds an operation. -/

namespace Sys2Proof.Machine

/-- A command acts on a device that is awake. -/
theorem awake_of {s : State} (h : asleep s = false) (k : Host.Outcome State Fault Refusal) : awake s k = k := by
  simp [awake, h]

/-- A command has no effect on a device that sleeps. -/
theorem asleep_of {s : State} (h : asleep s = true) (k : Host.Outcome State Fault Refusal) : awake s k = .next s := by
  simp [awake, h]

/-! An output is appended; nothing else changes. -/

@[simp] theorem State.emit_clk (s : State) (o : Output) : (s.emit o).clk = s.clk := rfl
@[simp] theorem State.emit_pins (s : State) (o : Output) : (s.emit o).pins = s.pins := rfl
@[simp] theorem State.emit_svc (s : State) (o : Output) : (s.emit o).svc = s.svc := rfl
@[simp] theorem State.emit_boot (s : State) (o : Output) : (s.emit o).boot = s.boot := rfl
@[simp] theorem State.emit_store (s : State) (o : Output) : (s.emit o).store = s.store := rfl
@[simp] theorem State.emit_dict (s : State) (o : Output) : (s.emit o).dict = s.dict := rfl
@[simp] theorem State.emit_paths (s : State) (o : Output) : (s.emit o).paths = s.paths := rfl
@[simp] theorem State.emit_bar2 (s : State) (o : Output) : (s.emit o).bar2 = s.bar2 := rfl
@[simp] theorem State.emit_dev (s : State) (o : Output) : (s.emit o).dev = s.dev := rfl
@[simp] theorem State.emit_bobs (s : State) (o : Output) : (s.emit o).bobs = s.bobs := rfl
@[simp] theorem State.emit_tiles (s : State) (o : Output) : (s.emit o).tiles = s.tiles := rfl
@[simp] theorem State.emit_caches (s : State) (o : Output) : (s.emit o).caches = s.caches := rfl
@[simp] theorem State.emit_encs (s : State) (o : Output) : (s.emit o).encs = s.encs := rfl
@[simp] theorem State.emit_batten (s : State) (o : Output) : (s.emit o).batten = s.batten := rfl
@[simp] theorem State.emit_totals (s : State) (o : Output) : (s.emit o).totals = s.totals := rfl
@[simp] theorem State.emit_pool (s : State) (o : Output) : (s.emit o).pool = s.pool := rfl
@[simp] theorem State.emit_dtiles (s : State) (o : Output) : (s.emit o).dtiles = s.dtiles := rfl
@[simp] theorem State.emit_decs (s : State) (o : Output) : (s.emit o).decs = s.decs := rfl
@[simp] theorem State.emit_selv (s : State) (o : Output) : (s.emit o).selv = s.selv := rfl
@[simp] theorem State.emit_trans (s : State) (o : Output) : (s.emit o).trans = s.trans := rfl
@[simp] theorem State.emit_time (s : State) (o : Output) : (s.emit o).time = s.time := rfl
@[simp] theorem State.emit_rings (s : State) (o : Output) : (s.emit o).rings = s.rings := rfl
@[simp] theorem State.emit_dma (s : State) (o : Output) : (s.emit o).dma = s.dma := rfl
@[simp] theorem State.emit_intc (s : State) (o : Output) : (s.emit o).intc = s.intc := rfl
@[simp] theorem State.emit_bpm (s : State) (o : Output) : (s.emit o).bpm = s.bpm := rfl
@[simp] theorem State.emit_mem (s : State) (o : Output) : (s.emit o).mem = s.mem := rfl
@[simp] theorem State.emit_faults (s : State) (o : Output) : (s.emit o).faults = s.faults := rfl
@[simp] theorem State.emit_pair (s : State) (o : Output) : (s.emit o).pair = s.pair := rfl
@[simp] theorem State.emit_pending (s : State) (o : Output) : (s.emit o).pending = s.pending := rfl

/-! A read is answered; nothing else changes. -/

@[simp] theorem State.answer_clk (s : State) (m : Master) (v : Word) : (s.answer m v).clk = s.clk := rfl
@[simp] theorem State.answer_pins (s : State) (m : Master) (v : Word) : (s.answer m v).pins = s.pins := rfl
@[simp] theorem State.answer_svc (s : State) (m : Master) (v : Word) : (s.answer m v).svc = s.svc := rfl
@[simp] theorem State.answer_boot (s : State) (m : Master) (v : Word) : (s.answer m v).boot = s.boot := rfl
@[simp] theorem State.answer_store (s : State) (m : Master) (v : Word) : (s.answer m v).store = s.store := rfl
@[simp] theorem State.answer_dict (s : State) (m : Master) (v : Word) : (s.answer m v).dict = s.dict := rfl
@[simp] theorem State.answer_paths (s : State) (m : Master) (v : Word) : (s.answer m v).paths = s.paths := rfl
@[simp] theorem State.answer_bar2 (s : State) (m : Master) (v : Word) : (s.answer m v).bar2 = s.bar2 := rfl
@[simp] theorem State.answer_dev (s : State) (m : Master) (v : Word) : (s.answer m v).dev = s.dev := rfl
@[simp] theorem State.answer_bobs (s : State) (m : Master) (v : Word) : (s.answer m v).bobs = s.bobs := rfl
@[simp] theorem State.answer_tiles (s : State) (m : Master) (v : Word) : (s.answer m v).tiles = s.tiles := rfl
@[simp] theorem State.answer_caches (s : State) (m : Master) (v : Word) : (s.answer m v).caches = s.caches := rfl
@[simp] theorem State.answer_encs (s : State) (m : Master) (v : Word) : (s.answer m v).encs = s.encs := rfl
@[simp] theorem State.answer_batten (s : State) (m : Master) (v : Word) : (s.answer m v).batten = s.batten := rfl
@[simp] theorem State.answer_totals (s : State) (m : Master) (v : Word) : (s.answer m v).totals = s.totals := rfl
@[simp] theorem State.answer_pool (s : State) (m : Master) (v : Word) : (s.answer m v).pool = s.pool := rfl
@[simp] theorem State.answer_dtiles (s : State) (m : Master) (v : Word) : (s.answer m v).dtiles = s.dtiles := rfl
@[simp] theorem State.answer_decs (s : State) (m : Master) (v : Word) : (s.answer m v).decs = s.decs := rfl
@[simp] theorem State.answer_selv (s : State) (m : Master) (v : Word) : (s.answer m v).selv = s.selv := rfl
@[simp] theorem State.answer_trans (s : State) (m : Master) (v : Word) : (s.answer m v).trans = s.trans := rfl
@[simp] theorem State.answer_time (s : State) (m : Master) (v : Word) : (s.answer m v).time = s.time := rfl
@[simp] theorem State.answer_rings (s : State) (m : Master) (v : Word) : (s.answer m v).rings = s.rings := rfl
@[simp] theorem State.answer_dma (s : State) (m : Master) (v : Word) : (s.answer m v).dma = s.dma := rfl
@[simp] theorem State.answer_intc (s : State) (m : Master) (v : Word) : (s.answer m v).intc = s.intc := rfl
@[simp] theorem State.answer_bpm (s : State) (m : Master) (v : Word) : (s.answer m v).bpm = s.bpm := rfl
@[simp] theorem State.answer_mem (s : State) (m : Master) (v : Word) : (s.answer m v).mem = s.mem := rfl
@[simp] theorem State.answer_faults (s : State) (m : Master) (v : Word) : (s.answer m v).faults = s.faults := rfl
@[simp] theorem State.answer_pair (s : State) (m : Master) (v : Word) : (s.answer m v).pair = s.pair := rfl
@[simp] theorem State.answer_pending (s : State) (m : Master) (v : Word) : (s.answer m v).pending = s.pending := rfl

/-! The unlock of a master is used up; nothing else changes. -/

@[simp] theorem State.disarm_clk (s : State) (m : Master) : (s.disarm m).clk = s.clk := rfl
@[simp] theorem State.disarm_pins (s : State) (m : Master) : (s.disarm m).pins = s.pins := rfl
@[simp] theorem State.disarm_svc (s : State) (m : Master) : (s.disarm m).svc = s.svc := rfl
@[simp] theorem State.disarm_boot (s : State) (m : Master) : (s.disarm m).boot = s.boot := rfl
@[simp] theorem State.disarm_store (s : State) (m : Master) : (s.disarm m).store = s.store := rfl
@[simp] theorem State.disarm_dict (s : State) (m : Master) : (s.disarm m).dict = s.dict := rfl
@[simp] theorem State.disarm_paths (s : State) (m : Master) : (s.disarm m).paths = s.paths := rfl
@[simp] theorem State.disarm_bar2 (s : State) (m : Master) : (s.disarm m).bar2 = s.bar2 := rfl
@[simp] theorem State.disarm_bobs (s : State) (m : Master) : (s.disarm m).bobs = s.bobs := rfl
@[simp] theorem State.disarm_tiles (s : State) (m : Master) : (s.disarm m).tiles = s.tiles := rfl
@[simp] theorem State.disarm_caches (s : State) (m : Master) : (s.disarm m).caches = s.caches := rfl
@[simp] theorem State.disarm_encs (s : State) (m : Master) : (s.disarm m).encs = s.encs := rfl
@[simp] theorem State.disarm_batten (s : State) (m : Master) : (s.disarm m).batten = s.batten := rfl
@[simp] theorem State.disarm_totals (s : State) (m : Master) : (s.disarm m).totals = s.totals := rfl
@[simp] theorem State.disarm_pool (s : State) (m : Master) : (s.disarm m).pool = s.pool := rfl
@[simp] theorem State.disarm_dtiles (s : State) (m : Master) : (s.disarm m).dtiles = s.dtiles := rfl
@[simp] theorem State.disarm_decs (s : State) (m : Master) : (s.disarm m).decs = s.decs := rfl
@[simp] theorem State.disarm_selv (s : State) (m : Master) : (s.disarm m).selv = s.selv := rfl
@[simp] theorem State.disarm_trans (s : State) (m : Master) : (s.disarm m).trans = s.trans := rfl
@[simp] theorem State.disarm_time (s : State) (m : Master) : (s.disarm m).time = s.time := rfl
@[simp] theorem State.disarm_rings (s : State) (m : Master) : (s.disarm m).rings = s.rings := rfl
@[simp] theorem State.disarm_dma (s : State) (m : Master) : (s.disarm m).dma = s.dma := rfl
@[simp] theorem State.disarm_intc (s : State) (m : Master) : (s.disarm m).intc = s.intc := rfl
@[simp] theorem State.disarm_bpm (s : State) (m : Master) : (s.disarm m).bpm = s.bpm := rfl
@[simp] theorem State.disarm_mem (s : State) (m : Master) : (s.disarm m).mem = s.mem := rfl
@[simp] theorem State.disarm_faults (s : State) (m : Master) : (s.disarm m).faults = s.faults := rfl
@[simp] theorem State.disarm_pair (s : State) (m : Master) : (s.disarm m).pair = s.pair := rfl
@[simp] theorem State.disarm_pending (s : State) (m : Master) : (s.disarm m).pending = s.pending := rfl
@[simp] theorem State.disarm_out (s : State) (m : Master) : (s.disarm m).out = s.out := rfl

/-! Device memory is written; nothing else changes. -/

@[simp] theorem State.devStore_clk (s : State) (a : Nat) (b : Bytes) : (s.devStore a b).clk = s.clk := rfl
@[simp] theorem State.devStore_pins (s : State) (a : Nat) (b : Bytes) : (s.devStore a b).pins = s.pins := rfl
@[simp] theorem State.devStore_svc (s : State) (a : Nat) (b : Bytes) : (s.devStore a b).svc = s.svc := rfl
@[simp] theorem State.devStore_boot (s : State) (a : Nat) (b : Bytes) : (s.devStore a b).boot = s.boot := rfl
@[simp] theorem State.devStore_store (s : State) (a : Nat) (b : Bytes) : (s.devStore a b).store = s.store := rfl
@[simp] theorem State.devStore_dict (s : State) (a : Nat) (b : Bytes) : (s.devStore a b).dict = s.dict := rfl
@[simp] theorem State.devStore_paths (s : State) (a : Nat) (b : Bytes) : (s.devStore a b).paths = s.paths := rfl
@[simp] theorem State.devStore_bar2 (s : State) (a : Nat) (b : Bytes) : (s.devStore a b).bar2 = s.bar2 := rfl
@[simp] theorem State.devStore_dev (s : State) (a : Nat) (b : Bytes) : (s.devStore a b).dev = s.dev := rfl
@[simp] theorem State.devStore_bobs (s : State) (a : Nat) (b : Bytes) : (s.devStore a b).bobs = s.bobs := rfl
@[simp] theorem State.devStore_tiles (s : State) (a : Nat) (b : Bytes) : (s.devStore a b).tiles = s.tiles := rfl
@[simp] theorem State.devStore_caches (s : State) (a : Nat) (b : Bytes) : (s.devStore a b).caches = s.caches := rfl
@[simp] theorem State.devStore_encs (s : State) (a : Nat) (b : Bytes) : (s.devStore a b).encs = s.encs := rfl
@[simp] theorem State.devStore_batten (s : State) (a : Nat) (b : Bytes) : (s.devStore a b).batten = s.batten := rfl
@[simp] theorem State.devStore_totals (s : State) (a : Nat) (b : Bytes) : (s.devStore a b).totals = s.totals := rfl
@[simp] theorem State.devStore_pool (s : State) (a : Nat) (b : Bytes) : (s.devStore a b).pool = s.pool := rfl
@[simp] theorem State.devStore_dtiles (s : State) (a : Nat) (b : Bytes) : (s.devStore a b).dtiles = s.dtiles := rfl
@[simp] theorem State.devStore_decs (s : State) (a : Nat) (b : Bytes) : (s.devStore a b).decs = s.decs := rfl
@[simp] theorem State.devStore_selv (s : State) (a : Nat) (b : Bytes) : (s.devStore a b).selv = s.selv := rfl
@[simp] theorem State.devStore_trans (s : State) (a : Nat) (b : Bytes) : (s.devStore a b).trans = s.trans := rfl
@[simp] theorem State.devStore_time (s : State) (a : Nat) (b : Bytes) : (s.devStore a b).time = s.time := rfl
@[simp] theorem State.devStore_rings (s : State) (a : Nat) (b : Bytes) : (s.devStore a b).rings = s.rings := rfl
@[simp] theorem State.devStore_dma (s : State) (a : Nat) (b : Bytes) : (s.devStore a b).dma = s.dma := rfl
@[simp] theorem State.devStore_intc (s : State) (a : Nat) (b : Bytes) : (s.devStore a b).intc = s.intc := rfl
@[simp] theorem State.devStore_bpm (s : State) (a : Nat) (b : Bytes) : (s.devStore a b).bpm = s.bpm := rfl
@[simp] theorem State.devStore_faults (s : State) (a : Nat) (b : Bytes) : (s.devStore a b).faults = s.faults := rfl
@[simp] theorem State.devStore_pair (s : State) (a : Nat) (b : Bytes) : (s.devStore a b).pair = s.pair := rfl
@[simp] theorem State.devStore_pending (s : State) (a : Nat) (b : Bytes) : (s.devStore a b).pending = s.pending := rfl
@[simp] theorem State.devStore_out (s : State) (a : Nat) (b : Bytes) : (s.devStore a b).out = s.out := rfl

/-! The free counter advances; nothing else changes. -/

@[simp] theorem State.freed_pins (s : State) : (s.freed).pins = s.pins := rfl
@[simp] theorem State.freed_svc (s : State) : (s.freed).svc = s.svc := rfl
@[simp] theorem State.freed_boot (s : State) : (s.freed).boot = s.boot := rfl
@[simp] theorem State.freed_store (s : State) : (s.freed).store = s.store := rfl
@[simp] theorem State.freed_dict (s : State) : (s.freed).dict = s.dict := rfl
@[simp] theorem State.freed_paths (s : State) : (s.freed).paths = s.paths := rfl
@[simp] theorem State.freed_bar2 (s : State) : (s.freed).bar2 = s.bar2 := rfl
@[simp] theorem State.freed_dev (s : State) : (s.freed).dev = s.dev := rfl
@[simp] theorem State.freed_bobs (s : State) : (s.freed).bobs = s.bobs := rfl
@[simp] theorem State.freed_tiles (s : State) : (s.freed).tiles = s.tiles := rfl
@[simp] theorem State.freed_caches (s : State) : (s.freed).caches = s.caches := rfl
@[simp] theorem State.freed_encs (s : State) : (s.freed).encs = s.encs := rfl
@[simp] theorem State.freed_batten (s : State) : (s.freed).batten = s.batten := rfl
@[simp] theorem State.freed_totals (s : State) : (s.freed).totals = s.totals := rfl
@[simp] theorem State.freed_pool (s : State) : (s.freed).pool = s.pool := rfl
@[simp] theorem State.freed_dtiles (s : State) : (s.freed).dtiles = s.dtiles := rfl
@[simp] theorem State.freed_decs (s : State) : (s.freed).decs = s.decs := rfl
@[simp] theorem State.freed_selv (s : State) : (s.freed).selv = s.selv := rfl
@[simp] theorem State.freed_trans (s : State) : (s.freed).trans = s.trans := rfl
@[simp] theorem State.freed_time (s : State) : (s.freed).time = s.time := rfl
@[simp] theorem State.freed_rings (s : State) : (s.freed).rings = s.rings := rfl
@[simp] theorem State.freed_dma (s : State) : (s.freed).dma = s.dma := rfl
@[simp] theorem State.freed_intc (s : State) : (s.freed).intc = s.intc := rfl
@[simp] theorem State.freed_bpm (s : State) : (s.freed).bpm = s.bpm := rfl
@[simp] theorem State.freed_mem (s : State) : (s.freed).mem = s.mem := rfl
@[simp] theorem State.freed_faults (s : State) : (s.freed).faults = s.faults := rfl
@[simp] theorem State.freed_pair (s : State) : (s.freed).pair = s.pair := rfl
@[simp] theorem State.freed_pending (s : State) : (s.freed).pending = s.pending := rfl
@[simp] theorem State.freed_out (s : State) : (s.freed).out = s.out := rfl

/-! A counter of 0x6030 advances; nothing else changes. -/

@[simp] theorem State.timeCount_clk (s : State) (k : Nat) : (s.timeCount k).clk = s.clk := rfl
@[simp] theorem State.timeCount_pins (s : State) (k : Nat) : (s.timeCount k).pins = s.pins := rfl
@[simp] theorem State.timeCount_svc (s : State) (k : Nat) : (s.timeCount k).svc = s.svc := rfl
@[simp] theorem State.timeCount_boot (s : State) (k : Nat) : (s.timeCount k).boot = s.boot := rfl
@[simp] theorem State.timeCount_store (s : State) (k : Nat) : (s.timeCount k).store = s.store := rfl
@[simp] theorem State.timeCount_dict (s : State) (k : Nat) : (s.timeCount k).dict = s.dict := rfl
@[simp] theorem State.timeCount_paths (s : State) (k : Nat) : (s.timeCount k).paths = s.paths := rfl
@[simp] theorem State.timeCount_bar2 (s : State) (k : Nat) : (s.timeCount k).bar2 = s.bar2 := rfl
@[simp] theorem State.timeCount_dev (s : State) (k : Nat) : (s.timeCount k).dev = s.dev := rfl
@[simp] theorem State.timeCount_bobs (s : State) (k : Nat) : (s.timeCount k).bobs = s.bobs := rfl
@[simp] theorem State.timeCount_tiles (s : State) (k : Nat) : (s.timeCount k).tiles = s.tiles := rfl
@[simp] theorem State.timeCount_caches (s : State) (k : Nat) : (s.timeCount k).caches = s.caches := rfl
@[simp] theorem State.timeCount_encs (s : State) (k : Nat) : (s.timeCount k).encs = s.encs := rfl
@[simp] theorem State.timeCount_batten (s : State) (k : Nat) : (s.timeCount k).batten = s.batten := rfl
@[simp] theorem State.timeCount_totals (s : State) (k : Nat) : (s.timeCount k).totals = s.totals := rfl
@[simp] theorem State.timeCount_pool (s : State) (k : Nat) : (s.timeCount k).pool = s.pool := rfl
@[simp] theorem State.timeCount_dtiles (s : State) (k : Nat) : (s.timeCount k).dtiles = s.dtiles := rfl
@[simp] theorem State.timeCount_decs (s : State) (k : Nat) : (s.timeCount k).decs = s.decs := rfl
@[simp] theorem State.timeCount_selv (s : State) (k : Nat) : (s.timeCount k).selv = s.selv := rfl
@[simp] theorem State.timeCount_trans (s : State) (k : Nat) : (s.timeCount k).trans = s.trans := rfl
@[simp] theorem State.timeCount_rings (s : State) (k : Nat) : (s.timeCount k).rings = s.rings := rfl
@[simp] theorem State.timeCount_dma (s : State) (k : Nat) : (s.timeCount k).dma = s.dma := rfl
@[simp] theorem State.timeCount_intc (s : State) (k : Nat) : (s.timeCount k).intc = s.intc := rfl
@[simp] theorem State.timeCount_bpm (s : State) (k : Nat) : (s.timeCount k).bpm = s.bpm := rfl
@[simp] theorem State.timeCount_mem (s : State) (k : Nat) : (s.timeCount k).mem = s.mem := rfl
@[simp] theorem State.timeCount_faults (s : State) (k : Nat) : (s.timeCount k).faults = s.faults := rfl
@[simp] theorem State.timeCount_pair (s : State) (k : Nat) : (s.timeCount k).pair = s.pair := rfl
@[simp] theorem State.timeCount_pending (s : State) (k : Nat) : (s.timeCount k).pending = s.pending := rfl
@[simp] theorem State.timeCount_out (s : State) (k : Nat) : (s.timeCount k).out = s.out := rfl

/-! A corrected error is counted; nothing else changes. -/

@[simp] theorem State.corrected_clk (s : State) : (s.corrected).clk = s.clk := rfl
@[simp] theorem State.corrected_pins (s : State) : (s.corrected).pins = s.pins := rfl
@[simp] theorem State.corrected_svc (s : State) : (s.corrected).svc = s.svc := rfl
@[simp] theorem State.corrected_boot (s : State) : (s.corrected).boot = s.boot := rfl
@[simp] theorem State.corrected_store (s : State) : (s.corrected).store = s.store := rfl
@[simp] theorem State.corrected_dict (s : State) : (s.corrected).dict = s.dict := rfl
@[simp] theorem State.corrected_paths (s : State) : (s.corrected).paths = s.paths := rfl
@[simp] theorem State.corrected_bar2 (s : State) : (s.corrected).bar2 = s.bar2 := rfl
@[simp] theorem State.corrected_dev (s : State) : (s.corrected).dev = s.dev := rfl
@[simp] theorem State.corrected_bobs (s : State) : (s.corrected).bobs = s.bobs := rfl
@[simp] theorem State.corrected_tiles (s : State) : (s.corrected).tiles = s.tiles := rfl
@[simp] theorem State.corrected_caches (s : State) : (s.corrected).caches = s.caches := rfl
@[simp] theorem State.corrected_encs (s : State) : (s.corrected).encs = s.encs := rfl
@[simp] theorem State.corrected_batten (s : State) : (s.corrected).batten = s.batten := rfl
@[simp] theorem State.corrected_totals (s : State) : (s.corrected).totals = s.totals := rfl
@[simp] theorem State.corrected_pool (s : State) : (s.corrected).pool = s.pool := rfl
@[simp] theorem State.corrected_dtiles (s : State) : (s.corrected).dtiles = s.dtiles := rfl
@[simp] theorem State.corrected_decs (s : State) : (s.corrected).decs = s.decs := rfl
@[simp] theorem State.corrected_selv (s : State) : (s.corrected).selv = s.selv := rfl
@[simp] theorem State.corrected_trans (s : State) : (s.corrected).trans = s.trans := rfl
@[simp] theorem State.corrected_time (s : State) : (s.corrected).time = s.time := rfl
@[simp] theorem State.corrected_rings (s : State) : (s.corrected).rings = s.rings := rfl
@[simp] theorem State.corrected_dma (s : State) : (s.corrected).dma = s.dma := rfl
@[simp] theorem State.corrected_intc (s : State) : (s.corrected).intc = s.intc := rfl
@[simp] theorem State.corrected_bpm (s : State) : (s.corrected).bpm = s.bpm := rfl
@[simp] theorem State.corrected_mem (s : State) : (s.corrected).mem = s.mem := rfl
@[simp] theorem State.corrected_pair (s : State) : (s.corrected).pair = s.pair := rfl
@[simp] theorem State.corrected_pending (s : State) : (s.corrected).pending = s.pending := rfl
@[simp] theorem State.corrected_out (s : State) : (s.corrected).out = s.out := rfl

/-! An hourly bin is counted; nothing else changes. -/

@[simp] theorem State.countBin_clk (s : State) (k : Nat) : (s.countBin k).clk = s.clk := rfl
@[simp] theorem State.countBin_pins (s : State) (k : Nat) : (s.countBin k).pins = s.pins := rfl
@[simp] theorem State.countBin_svc (s : State) (k : Nat) : (s.countBin k).svc = s.svc := rfl
@[simp] theorem State.countBin_boot (s : State) (k : Nat) : (s.countBin k).boot = s.boot := rfl
@[simp] theorem State.countBin_store (s : State) (k : Nat) : (s.countBin k).store = s.store := rfl
@[simp] theorem State.countBin_dict (s : State) (k : Nat) : (s.countBin k).dict = s.dict := rfl
@[simp] theorem State.countBin_paths (s : State) (k : Nat) : (s.countBin k).paths = s.paths := rfl
@[simp] theorem State.countBin_bar2 (s : State) (k : Nat) : (s.countBin k).bar2 = s.bar2 := rfl
@[simp] theorem State.countBin_dev (s : State) (k : Nat) : (s.countBin k).dev = s.dev := rfl
@[simp] theorem State.countBin_bobs (s : State) (k : Nat) : (s.countBin k).bobs = s.bobs := rfl
@[simp] theorem State.countBin_tiles (s : State) (k : Nat) : (s.countBin k).tiles = s.tiles := rfl
@[simp] theorem State.countBin_caches (s : State) (k : Nat) : (s.countBin k).caches = s.caches := rfl
@[simp] theorem State.countBin_encs (s : State) (k : Nat) : (s.countBin k).encs = s.encs := rfl
@[simp] theorem State.countBin_batten (s : State) (k : Nat) : (s.countBin k).batten = s.batten := rfl
@[simp] theorem State.countBin_totals (s : State) (k : Nat) : (s.countBin k).totals = s.totals := rfl
@[simp] theorem State.countBin_pool (s : State) (k : Nat) : (s.countBin k).pool = s.pool := rfl
@[simp] theorem State.countBin_dtiles (s : State) (k : Nat) : (s.countBin k).dtiles = s.dtiles := rfl
@[simp] theorem State.countBin_decs (s : State) (k : Nat) : (s.countBin k).decs = s.decs := rfl
@[simp] theorem State.countBin_selv (s : State) (k : Nat) : (s.countBin k).selv = s.selv := rfl
@[simp] theorem State.countBin_trans (s : State) (k : Nat) : (s.countBin k).trans = s.trans := rfl
@[simp] theorem State.countBin_time (s : State) (k : Nat) : (s.countBin k).time = s.time := rfl
@[simp] theorem State.countBin_rings (s : State) (k : Nat) : (s.countBin k).rings = s.rings := rfl
@[simp] theorem State.countBin_dma (s : State) (k : Nat) : (s.countBin k).dma = s.dma := rfl
@[simp] theorem State.countBin_intc (s : State) (k : Nat) : (s.countBin k).intc = s.intc := rfl
@[simp] theorem State.countBin_bpm (s : State) (k : Nat) : (s.countBin k).bpm = s.bpm := rfl
@[simp] theorem State.countBin_mem (s : State) (k : Nat) : (s.countBin k).mem = s.mem := rfl
@[simp] theorem State.countBin_pair (s : State) (k : Nat) : (s.countBin k).pair = s.pair := rfl
@[simp] theorem State.countBin_pending (s : State) (k : Nat) : (s.countBin k).pending = s.pending := rfl
@[simp] theorem State.countBin_out (s : State) (k : Nat) : (s.countBin k).out = s.out := rfl

/-! A corrected error of an item is counted; nothing else changes. -/

@[simp] theorem State.correctedBy_clk (s : State) (k : Nat) : (s.correctedBy k).clk = s.clk := rfl
@[simp] theorem State.correctedBy_pins (s : State) (k : Nat) : (s.correctedBy k).pins = s.pins := rfl
@[simp] theorem State.correctedBy_svc (s : State) (k : Nat) : (s.correctedBy k).svc = s.svc := rfl
@[simp] theorem State.correctedBy_boot (s : State) (k : Nat) : (s.correctedBy k).boot = s.boot := rfl
@[simp] theorem State.correctedBy_store (s : State) (k : Nat) : (s.correctedBy k).store = s.store := rfl
@[simp] theorem State.correctedBy_dict (s : State) (k : Nat) : (s.correctedBy k).dict = s.dict := rfl
@[simp] theorem State.correctedBy_paths (s : State) (k : Nat) : (s.correctedBy k).paths = s.paths := rfl
@[simp] theorem State.correctedBy_bar2 (s : State) (k : Nat) : (s.correctedBy k).bar2 = s.bar2 := rfl
@[simp] theorem State.correctedBy_dev (s : State) (k : Nat) : (s.correctedBy k).dev = s.dev := rfl
@[simp] theorem State.correctedBy_bobs (s : State) (k : Nat) : (s.correctedBy k).bobs = s.bobs := rfl
@[simp] theorem State.correctedBy_tiles (s : State) (k : Nat) : (s.correctedBy k).tiles = s.tiles := rfl
@[simp] theorem State.correctedBy_caches (s : State) (k : Nat) : (s.correctedBy k).caches = s.caches := rfl
@[simp] theorem State.correctedBy_encs (s : State) (k : Nat) : (s.correctedBy k).encs = s.encs := rfl
@[simp] theorem State.correctedBy_batten (s : State) (k : Nat) : (s.correctedBy k).batten = s.batten := rfl
@[simp] theorem State.correctedBy_totals (s : State) (k : Nat) : (s.correctedBy k).totals = s.totals := rfl
@[simp] theorem State.correctedBy_pool (s : State) (k : Nat) : (s.correctedBy k).pool = s.pool := rfl
@[simp] theorem State.correctedBy_dtiles (s : State) (k : Nat) : (s.correctedBy k).dtiles = s.dtiles := rfl
@[simp] theorem State.correctedBy_decs (s : State) (k : Nat) : (s.correctedBy k).decs = s.decs := rfl
@[simp] theorem State.correctedBy_selv (s : State) (k : Nat) : (s.correctedBy k).selv = s.selv := rfl
@[simp] theorem State.correctedBy_trans (s : State) (k : Nat) : (s.correctedBy k).trans = s.trans := rfl
@[simp] theorem State.correctedBy_time (s : State) (k : Nat) : (s.correctedBy k).time = s.time := rfl
@[simp] theorem State.correctedBy_rings (s : State) (k : Nat) : (s.correctedBy k).rings = s.rings := rfl
@[simp] theorem State.correctedBy_dma (s : State) (k : Nat) : (s.correctedBy k).dma = s.dma := rfl
@[simp] theorem State.correctedBy_intc (s : State) (k : Nat) : (s.correctedBy k).intc = s.intc := rfl
@[simp] theorem State.correctedBy_bpm (s : State) (k : Nat) : (s.correctedBy k).bpm = s.bpm := rfl
@[simp] theorem State.correctedBy_mem (s : State) (k : Nat) : (s.correctedBy k).mem = s.mem := rfl
@[simp] theorem State.correctedBy_pair (s : State) (k : Nat) : (s.correctedBy k).pair = s.pair := rfl
@[simp] theorem State.correctedBy_pending (s : State) (k : Nat) : (s.correctedBy k).pending = s.pending := rfl
@[simp] theorem State.correctedBy_out (s : State) (k : Nat) : (s.correctedBy k).out = s.out := rfl

/-! Interrupt delivery touches the controller and the outputs alone. -/

@[simp] theorem State.settleInts_clk (s : State) : (s.settleInts).clk = s.clk := by simp only [State.settleInts]
@[simp] theorem State.settleInts_pins (s : State) : (s.settleInts).pins = s.pins := by simp only [State.settleInts]
@[simp] theorem State.settleInts_svc (s : State) : (s.settleInts).svc = s.svc := by simp only [State.settleInts]
@[simp] theorem State.settleInts_boot (s : State) : (s.settleInts).boot = s.boot := by simp only [State.settleInts]
@[simp] theorem State.settleInts_store (s : State) : (s.settleInts).store = s.store := by simp only [State.settleInts]
@[simp] theorem State.settleInts_dict (s : State) : (s.settleInts).dict = s.dict := by simp only [State.settleInts]
@[simp] theorem State.settleInts_paths (s : State) : (s.settleInts).paths = s.paths := by simp only [State.settleInts]
@[simp] theorem State.settleInts_bar2 (s : State) : (s.settleInts).bar2 = s.bar2 := by simp only [State.settleInts]
@[simp] theorem State.settleInts_dev (s : State) : (s.settleInts).dev = s.dev := by simp only [State.settleInts]
@[simp] theorem State.settleInts_bobs (s : State) : (s.settleInts).bobs = s.bobs := by simp only [State.settleInts]
@[simp] theorem State.settleInts_tiles (s : State) : (s.settleInts).tiles = s.tiles := by simp only [State.settleInts]
@[simp] theorem State.settleInts_caches (s : State) : (s.settleInts).caches = s.caches := by simp only [State.settleInts]
@[simp] theorem State.settleInts_encs (s : State) : (s.settleInts).encs = s.encs := by simp only [State.settleInts]
@[simp] theorem State.settleInts_batten (s : State) : (s.settleInts).batten = s.batten := by simp only [State.settleInts]
@[simp] theorem State.settleInts_totals (s : State) : (s.settleInts).totals = s.totals := by simp only [State.settleInts]
@[simp] theorem State.settleInts_pool (s : State) : (s.settleInts).pool = s.pool := by simp only [State.settleInts]
@[simp] theorem State.settleInts_dtiles (s : State) : (s.settleInts).dtiles = s.dtiles := by simp only [State.settleInts]
@[simp] theorem State.settleInts_decs (s : State) : (s.settleInts).decs = s.decs := by simp only [State.settleInts]
@[simp] theorem State.settleInts_selv (s : State) : (s.settleInts).selv = s.selv := by simp only [State.settleInts]
@[simp] theorem State.settleInts_trans (s : State) : (s.settleInts).trans = s.trans := by simp only [State.settleInts]
@[simp] theorem State.settleInts_time (s : State) : (s.settleInts).time = s.time := by simp only [State.settleInts]
@[simp] theorem State.settleInts_rings (s : State) : (s.settleInts).rings = s.rings := by simp only [State.settleInts]
@[simp] theorem State.settleInts_dma (s : State) : (s.settleInts).dma = s.dma := by simp only [State.settleInts]
@[simp] theorem State.settleInts_bpm (s : State) : (s.settleInts).bpm = s.bpm := by simp only [State.settleInts]
@[simp] theorem State.settleInts_mem (s : State) : (s.settleInts).mem = s.mem := by simp only [State.settleInts]
@[simp] theorem State.settleInts_faults (s : State) : (s.settleInts).faults = s.faults := by simp only [State.settleInts]
@[simp] theorem State.settleInts_pair (s : State) : (s.settleInts).pair = s.pair := by simp only [State.settleInts]
@[simp] theorem State.settleInts_pending (s : State) : (s.settleInts).pending = s.pending := by simp only [State.settleInts]

/-! A severe fault drives `ERR_N`. -/

@[simp] theorem State.errPulse_clk (s : State) : (s.errPulse).clk = s.clk := rfl
@[simp] theorem State.errPulse_svc (s : State) : (s.errPulse).svc = s.svc := rfl
@[simp] theorem State.errPulse_boot (s : State) : (s.errPulse).boot = s.boot := rfl
@[simp] theorem State.errPulse_store (s : State) : (s.errPulse).store = s.store := rfl
@[simp] theorem State.errPulse_dict (s : State) : (s.errPulse).dict = s.dict := rfl
@[simp] theorem State.errPulse_paths (s : State) : (s.errPulse).paths = s.paths := rfl
@[simp] theorem State.errPulse_bar2 (s : State) : (s.errPulse).bar2 = s.bar2 := rfl
@[simp] theorem State.errPulse_dev (s : State) : (s.errPulse).dev = s.dev := rfl
@[simp] theorem State.errPulse_bobs (s : State) : (s.errPulse).bobs = s.bobs := rfl
@[simp] theorem State.errPulse_tiles (s : State) : (s.errPulse).tiles = s.tiles := rfl
@[simp] theorem State.errPulse_caches (s : State) : (s.errPulse).caches = s.caches := rfl
@[simp] theorem State.errPulse_encs (s : State) : (s.errPulse).encs = s.encs := rfl
@[simp] theorem State.errPulse_batten (s : State) : (s.errPulse).batten = s.batten := rfl
@[simp] theorem State.errPulse_totals (s : State) : (s.errPulse).totals = s.totals := rfl
@[simp] theorem State.errPulse_pool (s : State) : (s.errPulse).pool = s.pool := rfl
@[simp] theorem State.errPulse_dtiles (s : State) : (s.errPulse).dtiles = s.dtiles := rfl
@[simp] theorem State.errPulse_decs (s : State) : (s.errPulse).decs = s.decs := rfl
@[simp] theorem State.errPulse_selv (s : State) : (s.errPulse).selv = s.selv := rfl
@[simp] theorem State.errPulse_trans (s : State) : (s.errPulse).trans = s.trans := rfl
@[simp] theorem State.errPulse_time (s : State) : (s.errPulse).time = s.time := rfl
@[simp] theorem State.errPulse_rings (s : State) : (s.errPulse).rings = s.rings := rfl
@[simp] theorem State.errPulse_dma (s : State) : (s.errPulse).dma = s.dma := rfl
@[simp] theorem State.errPulse_intc (s : State) : (s.errPulse).intc = s.intc := rfl
@[simp] theorem State.errPulse_bpm (s : State) : (s.errPulse).bpm = s.bpm := rfl
@[simp] theorem State.errPulse_mem (s : State) : (s.errPulse).mem = s.mem := rfl
@[simp] theorem State.errPulse_pair (s : State) : (s.errPulse).pair = s.pair := rfl
@[simp] theorem State.errPulse_pending (s : State) : (s.errPulse).pending = s.pending := rfl

/-! An event touches the controller, its ring and the outputs alone. -/

@[simp] theorem State.eventOut_clk (s : State) (n : Nat) (m : Master) (d : Bytes) : (s.eventOut n m d).clk = s.clk := by
  unfold State.eventOut
  dsimp only
  split <;> rfl
@[simp] theorem State.eventOut_pins (s : State) (n : Nat) (m : Master) (d : Bytes) : (s.eventOut n m d).pins = s.pins := by
  unfold State.eventOut
  dsimp only
  split <;> rfl
@[simp] theorem State.eventOut_svc (s : State) (n : Nat) (m : Master) (d : Bytes) : (s.eventOut n m d).svc = s.svc := by
  unfold State.eventOut
  dsimp only
  split <;> rfl
@[simp] theorem State.eventOut_boot (s : State) (n : Nat) (m : Master) (d : Bytes) : (s.eventOut n m d).boot = s.boot := by
  unfold State.eventOut
  dsimp only
  split <;> rfl
@[simp] theorem State.eventOut_store (s : State) (n : Nat) (m : Master) (d : Bytes) : (s.eventOut n m d).store = s.store := by
  unfold State.eventOut
  dsimp only
  split <;> rfl
@[simp] theorem State.eventOut_dict (s : State) (n : Nat) (m : Master) (d : Bytes) : (s.eventOut n m d).dict = s.dict := by
  unfold State.eventOut
  dsimp only
  split <;> rfl
@[simp] theorem State.eventOut_paths (s : State) (n : Nat) (m : Master) (d : Bytes) : (s.eventOut n m d).paths = s.paths := by
  unfold State.eventOut
  dsimp only
  split <;> rfl
@[simp] theorem State.eventOut_bar2 (s : State) (n : Nat) (m : Master) (d : Bytes) : (s.eventOut n m d).bar2 = s.bar2 := by
  unfold State.eventOut
  dsimp only
  split <;> rfl
@[simp] theorem State.eventOut_dev (s : State) (n : Nat) (m : Master) (d : Bytes) : (s.eventOut n m d).dev = s.dev := by
  unfold State.eventOut
  dsimp only
  split <;> rfl
@[simp] theorem State.eventOut_bobs (s : State) (n : Nat) (m : Master) (d : Bytes) : (s.eventOut n m d).bobs = s.bobs := by
  unfold State.eventOut
  dsimp only
  split <;> rfl
@[simp] theorem State.eventOut_tiles (s : State) (n : Nat) (m : Master) (d : Bytes) : (s.eventOut n m d).tiles = s.tiles := by
  unfold State.eventOut
  dsimp only
  split <;> rfl
@[simp] theorem State.eventOut_caches (s : State) (n : Nat) (m : Master) (d : Bytes) : (s.eventOut n m d).caches = s.caches := by
  unfold State.eventOut
  dsimp only
  split <;> rfl
@[simp] theorem State.eventOut_encs (s : State) (n : Nat) (m : Master) (d : Bytes) : (s.eventOut n m d).encs = s.encs := by
  unfold State.eventOut
  dsimp only
  split <;> rfl
@[simp] theorem State.eventOut_batten (s : State) (n : Nat) (m : Master) (d : Bytes) : (s.eventOut n m d).batten = s.batten := by
  unfold State.eventOut
  dsimp only
  split <;> rfl
@[simp] theorem State.eventOut_totals (s : State) (n : Nat) (m : Master) (d : Bytes) : (s.eventOut n m d).totals = s.totals := by
  unfold State.eventOut
  dsimp only
  split <;> rfl
@[simp] theorem State.eventOut_pool (s : State) (n : Nat) (m : Master) (d : Bytes) : (s.eventOut n m d).pool = s.pool := by
  unfold State.eventOut
  dsimp only
  split <;> rfl
@[simp] theorem State.eventOut_dtiles (s : State) (n : Nat) (m : Master) (d : Bytes) : (s.eventOut n m d).dtiles = s.dtiles := by
  unfold State.eventOut
  dsimp only
  split <;> rfl
@[simp] theorem State.eventOut_decs (s : State) (n : Nat) (m : Master) (d : Bytes) : (s.eventOut n m d).decs = s.decs := by
  unfold State.eventOut
  dsimp only
  split <;> rfl
@[simp] theorem State.eventOut_selv (s : State) (n : Nat) (m : Master) (d : Bytes) : (s.eventOut n m d).selv = s.selv := by
  unfold State.eventOut
  dsimp only
  split <;> rfl
@[simp] theorem State.eventOut_trans (s : State) (n : Nat) (m : Master) (d : Bytes) : (s.eventOut n m d).trans = s.trans := by
  unfold State.eventOut
  dsimp only
  split <;> rfl
@[simp] theorem State.eventOut_time (s : State) (n : Nat) (m : Master) (d : Bytes) : (s.eventOut n m d).time = s.time := by
  unfold State.eventOut
  dsimp only
  split <;> rfl
@[simp] theorem State.eventOut_rings (s : State) (n : Nat) (m : Master) (d : Bytes) : (s.eventOut n m d).rings = s.rings := by
  unfold State.eventOut
  dsimp only
  split <;> rfl
@[simp] theorem State.eventOut_dma (s : State) (n : Nat) (m : Master) (d : Bytes) : (s.eventOut n m d).dma = s.dma := by
  unfold State.eventOut
  dsimp only
  split <;> rfl
@[simp] theorem State.eventOut_bpm (s : State) (n : Nat) (m : Master) (d : Bytes) : (s.eventOut n m d).bpm = s.bpm := by
  unfold State.eventOut
  dsimp only
  split <;> rfl
@[simp] theorem State.eventOut_faults (s : State) (n : Nat) (m : Master) (d : Bytes) : (s.eventOut n m d).faults = s.faults := by
  unfold State.eventOut
  dsimp only
  split <;> rfl
@[simp] theorem State.eventOut_pair (s : State) (n : Nat) (m : Master) (d : Bytes) : (s.eventOut n m d).pair = s.pair := by
  unfold State.eventOut
  dsimp only
  split <;> rfl
@[simp] theorem State.eventOut_pending (s : State) (n : Nat) (m : Master) (d : Bytes) : (s.eventOut n m d).pending = s.pending := by
  unfold State.eventOut
  dsimp only
  split <;> rfl

/-! An edge source touches the controller, its ring and the outputs alone. -/

@[simp] theorem State.raise0_clk (s : State) (n : Nat) (m : Master) (d : Bytes) : (s.raise0 n m d).clk = s.clk := by
  unfold State.raise0
  dsimp only
  split <;> simp
@[simp] theorem State.raise0_pins (s : State) (n : Nat) (m : Master) (d : Bytes) : (s.raise0 n m d).pins = s.pins := by
  unfold State.raise0
  dsimp only
  split <;> simp
@[simp] theorem State.raise0_svc (s : State) (n : Nat) (m : Master) (d : Bytes) : (s.raise0 n m d).svc = s.svc := by
  unfold State.raise0
  dsimp only
  split <;> simp
@[simp] theorem State.raise0_boot (s : State) (n : Nat) (m : Master) (d : Bytes) : (s.raise0 n m d).boot = s.boot := by
  unfold State.raise0
  dsimp only
  split <;> simp
@[simp] theorem State.raise0_store (s : State) (n : Nat) (m : Master) (d : Bytes) : (s.raise0 n m d).store = s.store := by
  unfold State.raise0
  dsimp only
  split <;> simp
@[simp] theorem State.raise0_dict (s : State) (n : Nat) (m : Master) (d : Bytes) : (s.raise0 n m d).dict = s.dict := by
  unfold State.raise0
  dsimp only
  split <;> simp
@[simp] theorem State.raise0_paths (s : State) (n : Nat) (m : Master) (d : Bytes) : (s.raise0 n m d).paths = s.paths := by
  unfold State.raise0
  dsimp only
  split <;> simp
@[simp] theorem State.raise0_bar2 (s : State) (n : Nat) (m : Master) (d : Bytes) : (s.raise0 n m d).bar2 = s.bar2 := by
  unfold State.raise0
  dsimp only
  split <;> simp
@[simp] theorem State.raise0_dev (s : State) (n : Nat) (m : Master) (d : Bytes) : (s.raise0 n m d).dev = s.dev := by
  unfold State.raise0
  dsimp only
  split <;> simp
@[simp] theorem State.raise0_bobs (s : State) (n : Nat) (m : Master) (d : Bytes) : (s.raise0 n m d).bobs = s.bobs := by
  unfold State.raise0
  dsimp only
  split <;> simp
@[simp] theorem State.raise0_tiles (s : State) (n : Nat) (m : Master) (d : Bytes) : (s.raise0 n m d).tiles = s.tiles := by
  unfold State.raise0
  dsimp only
  split <;> simp
@[simp] theorem State.raise0_caches (s : State) (n : Nat) (m : Master) (d : Bytes) : (s.raise0 n m d).caches = s.caches := by
  unfold State.raise0
  dsimp only
  split <;> simp
@[simp] theorem State.raise0_encs (s : State) (n : Nat) (m : Master) (d : Bytes) : (s.raise0 n m d).encs = s.encs := by
  unfold State.raise0
  dsimp only
  split <;> simp
@[simp] theorem State.raise0_batten (s : State) (n : Nat) (m : Master) (d : Bytes) : (s.raise0 n m d).batten = s.batten := by
  unfold State.raise0
  dsimp only
  split <;> simp
@[simp] theorem State.raise0_totals (s : State) (n : Nat) (m : Master) (d : Bytes) : (s.raise0 n m d).totals = s.totals := by
  unfold State.raise0
  dsimp only
  split <;> simp
@[simp] theorem State.raise0_pool (s : State) (n : Nat) (m : Master) (d : Bytes) : (s.raise0 n m d).pool = s.pool := by
  unfold State.raise0
  dsimp only
  split <;> simp
@[simp] theorem State.raise0_dtiles (s : State) (n : Nat) (m : Master) (d : Bytes) : (s.raise0 n m d).dtiles = s.dtiles := by
  unfold State.raise0
  dsimp only
  split <;> simp
@[simp] theorem State.raise0_decs (s : State) (n : Nat) (m : Master) (d : Bytes) : (s.raise0 n m d).decs = s.decs := by
  unfold State.raise0
  dsimp only
  split <;> simp
@[simp] theorem State.raise0_selv (s : State) (n : Nat) (m : Master) (d : Bytes) : (s.raise0 n m d).selv = s.selv := by
  unfold State.raise0
  dsimp only
  split <;> simp
@[simp] theorem State.raise0_trans (s : State) (n : Nat) (m : Master) (d : Bytes) : (s.raise0 n m d).trans = s.trans := by
  unfold State.raise0
  dsimp only
  split <;> simp
@[simp] theorem State.raise0_time (s : State) (n : Nat) (m : Master) (d : Bytes) : (s.raise0 n m d).time = s.time := by
  unfold State.raise0
  dsimp only
  split <;> simp
@[simp] theorem State.raise0_rings (s : State) (n : Nat) (m : Master) (d : Bytes) : (s.raise0 n m d).rings = s.rings := by
  unfold State.raise0
  dsimp only
  split <;> simp
@[simp] theorem State.raise0_dma (s : State) (n : Nat) (m : Master) (d : Bytes) : (s.raise0 n m d).dma = s.dma := by
  unfold State.raise0
  dsimp only
  split <;> simp
@[simp] theorem State.raise0_bpm (s : State) (n : Nat) (m : Master) (d : Bytes) : (s.raise0 n m d).bpm = s.bpm := by
  unfold State.raise0
  dsimp only
  split <;> simp
@[simp] theorem State.raise0_faults (s : State) (n : Nat) (m : Master) (d : Bytes) : (s.raise0 n m d).faults = s.faults := by
  unfold State.raise0
  dsimp only
  split <;> simp
@[simp] theorem State.raise0_pair (s : State) (n : Nat) (m : Master) (d : Bytes) : (s.raise0 n m d).pair = s.pair := by
  unfold State.raise0
  dsimp only
  split <;> simp
@[simp] theorem State.raise0_pending (s : State) (n : Nat) (m : Master) (d : Bytes) : (s.raise0 n m d).pending = s.pending := by
  unfold State.raise0
  dsimp only
  split <;> simp

/-! So does its delivery. -/

@[simp] theorem State.raise_clk (s : State) (n : Nat) (m : Master) (d : Bytes) : (s.raise n m d).clk = s.clk := by simp [State.raise]
@[simp] theorem State.raise_pins (s : State) (n : Nat) (m : Master) (d : Bytes) : (s.raise n m d).pins = s.pins := by simp [State.raise]
@[simp] theorem State.raise_svc (s : State) (n : Nat) (m : Master) (d : Bytes) : (s.raise n m d).svc = s.svc := by simp [State.raise]
@[simp] theorem State.raise_boot (s : State) (n : Nat) (m : Master) (d : Bytes) : (s.raise n m d).boot = s.boot := by simp [State.raise]
@[simp] theorem State.raise_store (s : State) (n : Nat) (m : Master) (d : Bytes) : (s.raise n m d).store = s.store := by simp [State.raise]
@[simp] theorem State.raise_dict (s : State) (n : Nat) (m : Master) (d : Bytes) : (s.raise n m d).dict = s.dict := by simp [State.raise]
@[simp] theorem State.raise_paths (s : State) (n : Nat) (m : Master) (d : Bytes) : (s.raise n m d).paths = s.paths := by simp [State.raise]
@[simp] theorem State.raise_bar2 (s : State) (n : Nat) (m : Master) (d : Bytes) : (s.raise n m d).bar2 = s.bar2 := by simp [State.raise]
@[simp] theorem State.raise_dev (s : State) (n : Nat) (m : Master) (d : Bytes) : (s.raise n m d).dev = s.dev := by simp [State.raise]
@[simp] theorem State.raise_bobs (s : State) (n : Nat) (m : Master) (d : Bytes) : (s.raise n m d).bobs = s.bobs := by simp [State.raise]
@[simp] theorem State.raise_tiles (s : State) (n : Nat) (m : Master) (d : Bytes) : (s.raise n m d).tiles = s.tiles := by simp [State.raise]
@[simp] theorem State.raise_caches (s : State) (n : Nat) (m : Master) (d : Bytes) : (s.raise n m d).caches = s.caches := by simp [State.raise]
@[simp] theorem State.raise_encs (s : State) (n : Nat) (m : Master) (d : Bytes) : (s.raise n m d).encs = s.encs := by simp [State.raise]
@[simp] theorem State.raise_batten (s : State) (n : Nat) (m : Master) (d : Bytes) : (s.raise n m d).batten = s.batten := by simp [State.raise]
@[simp] theorem State.raise_totals (s : State) (n : Nat) (m : Master) (d : Bytes) : (s.raise n m d).totals = s.totals := by simp [State.raise]
@[simp] theorem State.raise_pool (s : State) (n : Nat) (m : Master) (d : Bytes) : (s.raise n m d).pool = s.pool := by simp [State.raise]
@[simp] theorem State.raise_dtiles (s : State) (n : Nat) (m : Master) (d : Bytes) : (s.raise n m d).dtiles = s.dtiles := by simp [State.raise]
@[simp] theorem State.raise_decs (s : State) (n : Nat) (m : Master) (d : Bytes) : (s.raise n m d).decs = s.decs := by simp [State.raise]
@[simp] theorem State.raise_selv (s : State) (n : Nat) (m : Master) (d : Bytes) : (s.raise n m d).selv = s.selv := by simp [State.raise]
@[simp] theorem State.raise_trans (s : State) (n : Nat) (m : Master) (d : Bytes) : (s.raise n m d).trans = s.trans := by simp [State.raise]
@[simp] theorem State.raise_time (s : State) (n : Nat) (m : Master) (d : Bytes) : (s.raise n m d).time = s.time := by simp [State.raise]
@[simp] theorem State.raise_rings (s : State) (n : Nat) (m : Master) (d : Bytes) : (s.raise n m d).rings = s.rings := by simp [State.raise]
@[simp] theorem State.raise_dma (s : State) (n : Nat) (m : Master) (d : Bytes) : (s.raise n m d).dma = s.dma := by simp [State.raise]
@[simp] theorem State.raise_bpm (s : State) (n : Nat) (m : Master) (d : Bytes) : (s.raise n m d).bpm = s.bpm := by simp [State.raise]
@[simp] theorem State.raise_faults (s : State) (n : Nat) (m : Master) (d : Bytes) : (s.raise n m d).faults = s.faults := by simp [State.raise]
@[simp] theorem State.raise_pair (s : State) (n : Nat) (m : Master) (d : Bytes) : (s.raise n m d).pair = s.pair := by simp [State.raise]
@[simp] theorem State.raise_pending (s : State) (n : Nat) (m : Master) (d : Bytes) : (s.raise n m d).pending = s.pending := by simp [State.raise]

/-! The error register and its EMCY message. -/

@[simp] theorem State.syncErr_pins (s : State) : (s.syncErr).pins = s.pins := by
  unfold State.syncErr
  dsimp only
  split <;> rfl
@[simp] theorem State.syncErr_svc (s : State) : (s.syncErr).svc = s.svc := by
  unfold State.syncErr
  dsimp only
  split <;> rfl
@[simp] theorem State.syncErr_boot (s : State) : (s.syncErr).boot = s.boot := by
  unfold State.syncErr
  dsimp only
  split <;> rfl
@[simp] theorem State.syncErr_store (s : State) : (s.syncErr).store = s.store := by
  unfold State.syncErr
  dsimp only
  split <;> rfl
@[simp] theorem State.syncErr_dict (s : State) : (s.syncErr).dict = s.dict := by
  unfold State.syncErr
  dsimp only
  split <;> rfl
@[simp] theorem State.syncErr_bar2 (s : State) : (s.syncErr).bar2 = s.bar2 := by
  unfold State.syncErr
  dsimp only
  split <;> rfl
@[simp] theorem State.syncErr_dev (s : State) : (s.syncErr).dev = s.dev := by
  unfold State.syncErr
  dsimp only
  split <;> rfl
@[simp] theorem State.syncErr_bobs (s : State) : (s.syncErr).bobs = s.bobs := by
  unfold State.syncErr
  dsimp only
  split <;> rfl
@[simp] theorem State.syncErr_tiles (s : State) : (s.syncErr).tiles = s.tiles := by
  unfold State.syncErr
  dsimp only
  split <;> rfl
@[simp] theorem State.syncErr_caches (s : State) : (s.syncErr).caches = s.caches := by
  unfold State.syncErr
  dsimp only
  split <;> rfl
@[simp] theorem State.syncErr_encs (s : State) : (s.syncErr).encs = s.encs := by
  unfold State.syncErr
  dsimp only
  split <;> rfl
@[simp] theorem State.syncErr_batten (s : State) : (s.syncErr).batten = s.batten := by
  unfold State.syncErr
  dsimp only
  split <;> rfl
@[simp] theorem State.syncErr_totals (s : State) : (s.syncErr).totals = s.totals := by
  unfold State.syncErr
  dsimp only
  split <;> rfl
@[simp] theorem State.syncErr_pool (s : State) : (s.syncErr).pool = s.pool := by
  unfold State.syncErr
  dsimp only
  split <;> rfl
@[simp] theorem State.syncErr_dtiles (s : State) : (s.syncErr).dtiles = s.dtiles := by
  unfold State.syncErr
  dsimp only
  split <;> rfl
@[simp] theorem State.syncErr_decs (s : State) : (s.syncErr).decs = s.decs := by
  unfold State.syncErr
  dsimp only
  split <;> rfl
@[simp] theorem State.syncErr_selv (s : State) : (s.syncErr).selv = s.selv := by
  unfold State.syncErr
  dsimp only
  split <;> rfl
@[simp] theorem State.syncErr_trans (s : State) : (s.syncErr).trans = s.trans := by
  unfold State.syncErr
  dsimp only
  split <;> rfl
@[simp] theorem State.syncErr_time (s : State) : (s.syncErr).time = s.time := by
  unfold State.syncErr
  dsimp only
  split <;> rfl
@[simp] theorem State.syncErr_rings (s : State) : (s.syncErr).rings = s.rings := by
  unfold State.syncErr
  dsimp only
  split <;> rfl
@[simp] theorem State.syncErr_dma (s : State) : (s.syncErr).dma = s.dma := by
  unfold State.syncErr
  dsimp only
  split <;> rfl
@[simp] theorem State.syncErr_intc (s : State) : (s.syncErr).intc = s.intc := by
  unfold State.syncErr
  dsimp only
  split <;> rfl
@[simp] theorem State.syncErr_bpm (s : State) : (s.syncErr).bpm = s.bpm := by
  unfold State.syncErr
  dsimp only
  split <;> rfl
@[simp] theorem State.syncErr_mem (s : State) : (s.syncErr).mem = s.mem := by
  unfold State.syncErr
  dsimp only
  split <;> rfl
@[simp] theorem State.syncErr_faults (s : State) : (s.syncErr).faults = s.faults := by
  unfold State.syncErr
  dsimp only
  split <;> rfl
@[simp] theorem State.syncErr_pair (s : State) : (s.syncErr).pair = s.pair := by
  unfold State.syncErr
  dsimp only
  split <;> rfl
@[simp] theorem State.syncErr_pending (s : State) : (s.syncErr).pending = s.pending := by
  unfold State.syncErr
  dsimp only
  split <;> rfl

/-! The summary of a second. -/

@[simp] theorem State.faultSummary_clk (s : State) : (s.faultSummary).clk = s.clk := by
  unfold State.faultSummary
  dsimp only
  split <;> rfl
@[simp] theorem State.faultSummary_pins (s : State) : (s.faultSummary).pins = s.pins := by
  unfold State.faultSummary
  dsimp only
  split <;> rfl
@[simp] theorem State.faultSummary_svc (s : State) : (s.faultSummary).svc = s.svc := by
  unfold State.faultSummary
  dsimp only
  split <;> rfl
@[simp] theorem State.faultSummary_boot (s : State) : (s.faultSummary).boot = s.boot := by
  unfold State.faultSummary
  dsimp only
  split <;> rfl
@[simp] theorem State.faultSummary_dict (s : State) : (s.faultSummary).dict = s.dict := by
  unfold State.faultSummary
  dsimp only
  split <;> rfl
@[simp] theorem State.faultSummary_paths (s : State) : (s.faultSummary).paths = s.paths := by
  unfold State.faultSummary
  dsimp only
  split <;> rfl
@[simp] theorem State.faultSummary_bar2 (s : State) : (s.faultSummary).bar2 = s.bar2 := by
  unfold State.faultSummary
  dsimp only
  split <;> rfl
@[simp] theorem State.faultSummary_dev (s : State) : (s.faultSummary).dev = s.dev := by
  unfold State.faultSummary
  dsimp only
  split <;> rfl
@[simp] theorem State.faultSummary_bobs (s : State) : (s.faultSummary).bobs = s.bobs := by
  unfold State.faultSummary
  dsimp only
  split <;> rfl
@[simp] theorem State.faultSummary_tiles (s : State) : (s.faultSummary).tiles = s.tiles := by
  unfold State.faultSummary
  dsimp only
  split <;> rfl
@[simp] theorem State.faultSummary_caches (s : State) : (s.faultSummary).caches = s.caches := by
  unfold State.faultSummary
  dsimp only
  split <;> rfl
@[simp] theorem State.faultSummary_encs (s : State) : (s.faultSummary).encs = s.encs := by
  unfold State.faultSummary
  dsimp only
  split <;> rfl
@[simp] theorem State.faultSummary_batten (s : State) : (s.faultSummary).batten = s.batten := by
  unfold State.faultSummary
  dsimp only
  split <;> rfl
@[simp] theorem State.faultSummary_totals (s : State) : (s.faultSummary).totals = s.totals := by
  unfold State.faultSummary
  dsimp only
  split <;> rfl
@[simp] theorem State.faultSummary_pool (s : State) : (s.faultSummary).pool = s.pool := by
  unfold State.faultSummary
  dsimp only
  split <;> rfl
@[simp] theorem State.faultSummary_dtiles (s : State) : (s.faultSummary).dtiles = s.dtiles := by
  unfold State.faultSummary
  dsimp only
  split <;> rfl
@[simp] theorem State.faultSummary_decs (s : State) : (s.faultSummary).decs = s.decs := by
  unfold State.faultSummary
  dsimp only
  split <;> rfl
@[simp] theorem State.faultSummary_selv (s : State) : (s.faultSummary).selv = s.selv := by
  unfold State.faultSummary
  dsimp only
  split <;> rfl
@[simp] theorem State.faultSummary_trans (s : State) : (s.faultSummary).trans = s.trans := by
  unfold State.faultSummary
  dsimp only
  split <;> rfl
@[simp] theorem State.faultSummary_time (s : State) : (s.faultSummary).time = s.time := by
  unfold State.faultSummary
  dsimp only
  split <;> rfl
@[simp] theorem State.faultSummary_rings (s : State) : (s.faultSummary).rings = s.rings := by
  unfold State.faultSummary
  dsimp only
  split <;> rfl
@[simp] theorem State.faultSummary_dma (s : State) : (s.faultSummary).dma = s.dma := by
  unfold State.faultSummary
  dsimp only
  split <;> rfl
@[simp] theorem State.faultSummary_intc (s : State) : (s.faultSummary).intc = s.intc := by
  unfold State.faultSummary
  dsimp only
  split <;> rfl
@[simp] theorem State.faultSummary_bpm (s : State) : (s.faultSummary).bpm = s.bpm := by
  unfold State.faultSummary
  dsimp only
  split <;> rfl
@[simp] theorem State.faultSummary_mem (s : State) : (s.faultSummary).mem = s.mem := by
  unfold State.faultSummary
  dsimp only
  split <;> rfl
@[simp] theorem State.faultSummary_pair (s : State) : (s.faultSummary).pair = s.pair := by
  unfold State.faultSummary
  dsimp only
  split <;> rfl
@[simp] theorem State.faultSummary_pending (s : State) : (s.faultSummary).pending = s.pending := by
  unfold State.faultSummary
  dsimp only
  split <;> rfl
@[simp] theorem State.faultSummary_out (s : State) : (s.faultSummary).out = s.out := by
  unfold State.faultSummary
  dsimp only
  split <;> rfl

/-! The fault-log entry of a contained fault. -/

@[simp] theorem State.logContained_clk (s : State) (m : Master) (d : Bytes) : (s.logContained m d).clk = s.clk := by
  unfold State.logContained
  dsimp only
  repeat' split
  all_goals simp
@[simp] theorem State.logContained_pins (s : State) (m : Master) (d : Bytes) : (s.logContained m d).pins = s.pins := by
  unfold State.logContained
  dsimp only
  repeat' split
  all_goals simp
@[simp] theorem State.logContained_svc (s : State) (m : Master) (d : Bytes) : (s.logContained m d).svc = s.svc := by
  unfold State.logContained
  dsimp only
  repeat' split
  all_goals simp
@[simp] theorem State.logContained_boot (s : State) (m : Master) (d : Bytes) : (s.logContained m d).boot = s.boot := by
  unfold State.logContained
  dsimp only
  repeat' split
  all_goals simp
@[simp] theorem State.logContained_dict (s : State) (m : Master) (d : Bytes) : (s.logContained m d).dict = s.dict := by
  unfold State.logContained
  dsimp only
  repeat' split
  all_goals simp
@[simp] theorem State.logContained_paths (s : State) (m : Master) (d : Bytes) : (s.logContained m d).paths = s.paths := by
  unfold State.logContained
  dsimp only
  repeat' split
  all_goals simp
@[simp] theorem State.logContained_bar2 (s : State) (m : Master) (d : Bytes) : (s.logContained m d).bar2 = s.bar2 := by
  unfold State.logContained
  dsimp only
  repeat' split
  all_goals simp
@[simp] theorem State.logContained_dev (s : State) (m : Master) (d : Bytes) : (s.logContained m d).dev = s.dev := by
  unfold State.logContained
  dsimp only
  repeat' split
  all_goals simp
@[simp] theorem State.logContained_bobs (s : State) (m : Master) (d : Bytes) : (s.logContained m d).bobs = s.bobs := by
  unfold State.logContained
  dsimp only
  repeat' split
  all_goals simp
@[simp] theorem State.logContained_tiles (s : State) (m : Master) (d : Bytes) : (s.logContained m d).tiles = s.tiles := by
  unfold State.logContained
  dsimp only
  repeat' split
  all_goals simp
@[simp] theorem State.logContained_caches (s : State) (m : Master) (d : Bytes) : (s.logContained m d).caches = s.caches := by
  unfold State.logContained
  dsimp only
  repeat' split
  all_goals simp
@[simp] theorem State.logContained_encs (s : State) (m : Master) (d : Bytes) : (s.logContained m d).encs = s.encs := by
  unfold State.logContained
  dsimp only
  repeat' split
  all_goals simp
@[simp] theorem State.logContained_batten (s : State) (m : Master) (d : Bytes) : (s.logContained m d).batten = s.batten := by
  unfold State.logContained
  dsimp only
  repeat' split
  all_goals simp
@[simp] theorem State.logContained_totals (s : State) (m : Master) (d : Bytes) : (s.logContained m d).totals = s.totals := by
  unfold State.logContained
  dsimp only
  repeat' split
  all_goals simp
@[simp] theorem State.logContained_pool (s : State) (m : Master) (d : Bytes) : (s.logContained m d).pool = s.pool := by
  unfold State.logContained
  dsimp only
  repeat' split
  all_goals simp
@[simp] theorem State.logContained_dtiles (s : State) (m : Master) (d : Bytes) : (s.logContained m d).dtiles = s.dtiles := by
  unfold State.logContained
  dsimp only
  repeat' split
  all_goals simp
@[simp] theorem State.logContained_decs (s : State) (m : Master) (d : Bytes) : (s.logContained m d).decs = s.decs := by
  unfold State.logContained
  dsimp only
  repeat' split
  all_goals simp
@[simp] theorem State.logContained_selv (s : State) (m : Master) (d : Bytes) : (s.logContained m d).selv = s.selv := by
  unfold State.logContained
  dsimp only
  repeat' split
  all_goals simp
@[simp] theorem State.logContained_trans (s : State) (m : Master) (d : Bytes) : (s.logContained m d).trans = s.trans := by
  unfold State.logContained
  dsimp only
  repeat' split
  all_goals simp
@[simp] theorem State.logContained_time (s : State) (m : Master) (d : Bytes) : (s.logContained m d).time = s.time := by
  unfold State.logContained
  dsimp only
  repeat' split
  all_goals simp
@[simp] theorem State.logContained_rings (s : State) (m : Master) (d : Bytes) : (s.logContained m d).rings = s.rings := by
  unfold State.logContained
  dsimp only
  repeat' split
  all_goals simp
@[simp] theorem State.logContained_dma (s : State) (m : Master) (d : Bytes) : (s.logContained m d).dma = s.dma := by
  unfold State.logContained
  dsimp only
  repeat' split
  all_goals simp
@[simp] theorem State.logContained_intc (s : State) (m : Master) (d : Bytes) : (s.logContained m d).intc = s.intc := by
  unfold State.logContained
  dsimp only
  repeat' split
  all_goals simp
@[simp] theorem State.logContained_bpm (s : State) (m : Master) (d : Bytes) : (s.logContained m d).bpm = s.bpm := by
  unfold State.logContained
  dsimp only
  repeat' split
  all_goals simp
@[simp] theorem State.logContained_mem (s : State) (m : Master) (d : Bytes) : (s.logContained m d).mem = s.mem := by
  unfold State.logContained
  dsimp only
  repeat' split
  all_goals simp
@[simp] theorem State.logContained_pair (s : State) (m : Master) (d : Bytes) : (s.logContained m d).pair = s.pair := by
  unfold State.logContained
  dsimp only
  repeat' split
  all_goals simp
@[simp] theorem State.logContained_pending (s : State) (m : Master) (d : Bytes) : (s.logContained m d).pending = s.pending := by
  unfold State.logContained
  dsimp only
  repeat' split
  all_goals simp
@[simp] theorem State.logContained_out (s : State) (m : Master) (d : Bytes) : (s.logContained m d).out = s.out := by
  unfold State.logContained
  dsimp only
  repeat' split
  all_goals simp

/-! An uncorrectable word of a memory. -/

/-- Only the memories change where an uncorrectable word is met (R446, R457). -/
theorem State.badWord_eq (s : State) (a : Nat) : s.badWord a = { s with mem := (s.badWord a).mem } := by
  unfold State.badWord
  split
  · rfl
  · split
    · simp only [State.retireRank]
      split <;> rfl
    · rfl
@[simp] theorem State.badWord_clk (s : State) (a : Nat) : (s.badWord a).clk = s.clk := by rw [State.badWord_eq]
@[simp] theorem State.badWord_pins (s : State) (a : Nat) : (s.badWord a).pins = s.pins := by rw [State.badWord_eq]
@[simp] theorem State.badWord_svc (s : State) (a : Nat) : (s.badWord a).svc = s.svc := by rw [State.badWord_eq]
@[simp] theorem State.badWord_boot (s : State) (a : Nat) : (s.badWord a).boot = s.boot := by rw [State.badWord_eq]
@[simp] theorem State.badWord_store (s : State) (a : Nat) : (s.badWord a).store = s.store := by rw [State.badWord_eq]
@[simp] theorem State.badWord_dict (s : State) (a : Nat) : (s.badWord a).dict = s.dict := by rw [State.badWord_eq]
@[simp] theorem State.badWord_paths (s : State) (a : Nat) : (s.badWord a).paths = s.paths := by rw [State.badWord_eq]
@[simp] theorem State.badWord_bar2 (s : State) (a : Nat) : (s.badWord a).bar2 = s.bar2 := by rw [State.badWord_eq]
@[simp] theorem State.badWord_dev (s : State) (a : Nat) : (s.badWord a).dev = s.dev := by rw [State.badWord_eq]
@[simp] theorem State.badWord_bobs (s : State) (a : Nat) : (s.badWord a).bobs = s.bobs := by rw [State.badWord_eq]
@[simp] theorem State.badWord_tiles (s : State) (a : Nat) : (s.badWord a).tiles = s.tiles := by rw [State.badWord_eq]
@[simp] theorem State.badWord_caches (s : State) (a : Nat) : (s.badWord a).caches = s.caches := by rw [State.badWord_eq]
@[simp] theorem State.badWord_encs (s : State) (a : Nat) : (s.badWord a).encs = s.encs := by rw [State.badWord_eq]
@[simp] theorem State.badWord_batten (s : State) (a : Nat) : (s.badWord a).batten = s.batten := by rw [State.badWord_eq]
@[simp] theorem State.badWord_totals (s : State) (a : Nat) : (s.badWord a).totals = s.totals := by rw [State.badWord_eq]
@[simp] theorem State.badWord_pool (s : State) (a : Nat) : (s.badWord a).pool = s.pool := by rw [State.badWord_eq]
@[simp] theorem State.badWord_dtiles (s : State) (a : Nat) : (s.badWord a).dtiles = s.dtiles := by rw [State.badWord_eq]
@[simp] theorem State.badWord_decs (s : State) (a : Nat) : (s.badWord a).decs = s.decs := by rw [State.badWord_eq]
@[simp] theorem State.badWord_selv (s : State) (a : Nat) : (s.badWord a).selv = s.selv := by rw [State.badWord_eq]
@[simp] theorem State.badWord_trans (s : State) (a : Nat) : (s.badWord a).trans = s.trans := by rw [State.badWord_eq]
@[simp] theorem State.badWord_time (s : State) (a : Nat) : (s.badWord a).time = s.time := by rw [State.badWord_eq]
@[simp] theorem State.badWord_rings (s : State) (a : Nat) : (s.badWord a).rings = s.rings := by rw [State.badWord_eq]
@[simp] theorem State.badWord_dma (s : State) (a : Nat) : (s.badWord a).dma = s.dma := by rw [State.badWord_eq]
@[simp] theorem State.badWord_intc (s : State) (a : Nat) : (s.badWord a).intc = s.intc := by rw [State.badWord_eq]
@[simp] theorem State.badWord_bpm (s : State) (a : Nat) : (s.badWord a).bpm = s.bpm := by rw [State.badWord_eq]
@[simp] theorem State.badWord_faults (s : State) (a : Nat) : (s.badWord a).faults = s.faults := by rw [State.badWord_eq]
@[simp] theorem State.badWord_pair (s : State) (a : Nat) : (s.badWord a).pair = s.pair := by rw [State.badWord_eq]
@[simp] theorem State.badWord_pending (s : State) (a : Nat) : (s.badWord a).pending = s.pending := by rw [State.badWord_eq]
@[simp] theorem State.badWord_out (s : State) (a : Nat) : (s.badWord a).out = s.out := by rw [State.badWord_eq]
theorem State.badWord_memDev (s : State) (a : Nat) : (s.badWord a).mem.dev = s.mem.dev := by
  unfold State.badWord
  split
  · rfl
  · split
    · simp only [State.retireRank]
      split <;> rfl
    · rfl

/-! A contained fault. -/

@[simp] theorem State.containedAt_svc (s : State) (k : Nat) (a : Access) (m : Master) (addr : Nat) : (s.containedAt k a m addr).svc = s.svc := by
  unfold State.containedAt
  dsimp only
  split <;> simp
@[simp] theorem State.containedAt_boot (s : State) (k : Nat) (a : Access) (m : Master) (addr : Nat) : (s.containedAt k a m addr).boot = s.boot := by
  unfold State.containedAt
  dsimp only
  split <;> simp
@[simp] theorem State.containedAt_dict (s : State) (k : Nat) (a : Access) (m : Master) (addr : Nat) : (s.containedAt k a m addr).dict = s.dict := by
  unfold State.containedAt
  dsimp only
  split <;> simp
@[simp] theorem State.containedAt_bar2 (s : State) (k : Nat) (a : Access) (m : Master) (addr : Nat) : (s.containedAt k a m addr).bar2 = s.bar2 := by
  unfold State.containedAt
  dsimp only
  split <;> simp
@[simp] theorem State.containedAt_dev (s : State) (k : Nat) (a : Access) (m : Master) (addr : Nat) : (s.containedAt k a m addr).dev = s.dev := by
  unfold State.containedAt
  dsimp only
  split <;> simp
@[simp] theorem State.containedAt_bobs (s : State) (k : Nat) (a : Access) (m : Master) (addr : Nat) : (s.containedAt k a m addr).bobs = s.bobs := by
  unfold State.containedAt
  dsimp only
  split <;> simp
@[simp] theorem State.containedAt_tiles (s : State) (k : Nat) (a : Access) (m : Master) (addr : Nat) : (s.containedAt k a m addr).tiles = s.tiles := by
  unfold State.containedAt
  dsimp only
  split <;> simp
@[simp] theorem State.containedAt_caches (s : State) (k : Nat) (a : Access) (m : Master) (addr : Nat) : (s.containedAt k a m addr).caches = s.caches := by
  unfold State.containedAt
  dsimp only
  split <;> simp
@[simp] theorem State.containedAt_encs (s : State) (k : Nat) (a : Access) (m : Master) (addr : Nat) : (s.containedAt k a m addr).encs = s.encs := by
  unfold State.containedAt
  dsimp only
  split <;> simp
@[simp] theorem State.containedAt_batten (s : State) (k : Nat) (a : Access) (m : Master) (addr : Nat) : (s.containedAt k a m addr).batten = s.batten := by
  unfold State.containedAt
  dsimp only
  split <;> simp
@[simp] theorem State.containedAt_totals (s : State) (k : Nat) (a : Access) (m : Master) (addr : Nat) : (s.containedAt k a m addr).totals = s.totals := by
  unfold State.containedAt
  dsimp only
  split <;> simp
@[simp] theorem State.containedAt_pool (s : State) (k : Nat) (a : Access) (m : Master) (addr : Nat) : (s.containedAt k a m addr).pool = s.pool := by
  unfold State.containedAt
  dsimp only
  split <;> simp
@[simp] theorem State.containedAt_dtiles (s : State) (k : Nat) (a : Access) (m : Master) (addr : Nat) : (s.containedAt k a m addr).dtiles = s.dtiles := by
  unfold State.containedAt
  dsimp only
  split <;> simp
@[simp] theorem State.containedAt_decs (s : State) (k : Nat) (a : Access) (m : Master) (addr : Nat) : (s.containedAt k a m addr).decs = s.decs := by
  unfold State.containedAt
  dsimp only
  split <;> simp
@[simp] theorem State.containedAt_selv (s : State) (k : Nat) (a : Access) (m : Master) (addr : Nat) : (s.containedAt k a m addr).selv = s.selv := by
  unfold State.containedAt
  dsimp only
  split <;> simp
@[simp] theorem State.containedAt_trans (s : State) (k : Nat) (a : Access) (m : Master) (addr : Nat) : (s.containedAt k a m addr).trans = s.trans := by
  unfold State.containedAt
  dsimp only
  split <;> simp
@[simp] theorem State.containedAt_time (s : State) (k : Nat) (a : Access) (m : Master) (addr : Nat) : (s.containedAt k a m addr).time = s.time := by
  unfold State.containedAt
  dsimp only
  split <;> simp
@[simp] theorem State.containedAt_rings (s : State) (k : Nat) (a : Access) (m : Master) (addr : Nat) : (s.containedAt k a m addr).rings = s.rings := by
  unfold State.containedAt
  dsimp only
  split <;> simp
@[simp] theorem State.containedAt_dma (s : State) (k : Nat) (a : Access) (m : Master) (addr : Nat) : (s.containedAt k a m addr).dma = s.dma := by
  unfold State.containedAt
  dsimp only
  split <;> simp
@[simp] theorem State.containedAt_bpm (s : State) (k : Nat) (a : Access) (m : Master) (addr : Nat) : (s.containedAt k a m addr).bpm = s.bpm := by
  unfold State.containedAt
  dsimp only
  split <;> simp
@[simp] theorem State.containedAt_pair (s : State) (k : Nat) (a : Access) (m : Master) (addr : Nat) : (s.containedAt k a m addr).pair = s.pair := by
  unfold State.containedAt
  dsimp only
  split <;> simp
@[simp] theorem State.containedAt_pending (s : State) (k : Nat) (a : Access) (m : Master) (addr : Nat) : (s.containedAt k a m addr).pending = s.pending := by
  unfold State.containedAt
  dsimp only
  split <;> simp
@[simp] theorem State.contained_svc (s : State) (k : Nat) (a : Access) (m : Master) (addr : Nat) : (s.contained k a m addr).svc = s.svc := by
  unfold State.contained
  split <;> simp
@[simp] theorem State.contained_boot (s : State) (k : Nat) (a : Access) (m : Master) (addr : Nat) : (s.contained k a m addr).boot = s.boot := by
  unfold State.contained
  split <;> simp
@[simp] theorem State.contained_dict (s : State) (k : Nat) (a : Access) (m : Master) (addr : Nat) : (s.contained k a m addr).dict = s.dict := by
  unfold State.contained
  split <;> simp
@[simp] theorem State.contained_bar2 (s : State) (k : Nat) (a : Access) (m : Master) (addr : Nat) : (s.contained k a m addr).bar2 = s.bar2 := by
  unfold State.contained
  split <;> simp
@[simp] theorem State.contained_dev (s : State) (k : Nat) (a : Access) (m : Master) (addr : Nat) : (s.contained k a m addr).dev = s.dev := by
  unfold State.contained
  split <;> simp
@[simp] theorem State.contained_bobs (s : State) (k : Nat) (a : Access) (m : Master) (addr : Nat) : (s.contained k a m addr).bobs = s.bobs := by
  unfold State.contained
  split <;> simp
@[simp] theorem State.contained_tiles (s : State) (k : Nat) (a : Access) (m : Master) (addr : Nat) : (s.contained k a m addr).tiles = s.tiles := by
  unfold State.contained
  split <;> simp
@[simp] theorem State.contained_caches (s : State) (k : Nat) (a : Access) (m : Master) (addr : Nat) : (s.contained k a m addr).caches = s.caches := by
  unfold State.contained
  split <;> simp
@[simp] theorem State.contained_encs (s : State) (k : Nat) (a : Access) (m : Master) (addr : Nat) : (s.contained k a m addr).encs = s.encs := by
  unfold State.contained
  split <;> simp
@[simp] theorem State.contained_batten (s : State) (k : Nat) (a : Access) (m : Master) (addr : Nat) : (s.contained k a m addr).batten = s.batten := by
  unfold State.contained
  split <;> simp
@[simp] theorem State.contained_totals (s : State) (k : Nat) (a : Access) (m : Master) (addr : Nat) : (s.contained k a m addr).totals = s.totals := by
  unfold State.contained
  split <;> simp
@[simp] theorem State.contained_pool (s : State) (k : Nat) (a : Access) (m : Master) (addr : Nat) : (s.contained k a m addr).pool = s.pool := by
  unfold State.contained
  split <;> simp
@[simp] theorem State.contained_dtiles (s : State) (k : Nat) (a : Access) (m : Master) (addr : Nat) : (s.contained k a m addr).dtiles = s.dtiles := by
  unfold State.contained
  split <;> simp
@[simp] theorem State.contained_decs (s : State) (k : Nat) (a : Access) (m : Master) (addr : Nat) : (s.contained k a m addr).decs = s.decs := by
  unfold State.contained
  split <;> simp
@[simp] theorem State.contained_selv (s : State) (k : Nat) (a : Access) (m : Master) (addr : Nat) : (s.contained k a m addr).selv = s.selv := by
  unfold State.contained
  split <;> simp
@[simp] theorem State.contained_trans (s : State) (k : Nat) (a : Access) (m : Master) (addr : Nat) : (s.contained k a m addr).trans = s.trans := by
  unfold State.contained
  split <;> simp
@[simp] theorem State.contained_time (s : State) (k : Nat) (a : Access) (m : Master) (addr : Nat) : (s.contained k a m addr).time = s.time := by
  unfold State.contained
  split <;> simp
@[simp] theorem State.contained_rings (s : State) (k : Nat) (a : Access) (m : Master) (addr : Nat) : (s.contained k a m addr).rings = s.rings := by
  unfold State.contained
  split <;> simp
@[simp] theorem State.contained_dma (s : State) (k : Nat) (a : Access) (m : Master) (addr : Nat) : (s.contained k a m addr).dma = s.dma := by
  unfold State.contained
  split <;> simp
@[simp] theorem State.contained_bpm (s : State) (k : Nat) (a : Access) (m : Master) (addr : Nat) : (s.contained k a m addr).bpm = s.bpm := by
  unfold State.contained
  split <;> simp
@[simp] theorem State.contained_pair (s : State) (k : Nat) (a : Access) (m : Master) (addr : Nat) : (s.contained k a m addr).pair = s.pair := by
  unfold State.contained
  split <;> simp
@[simp] theorem State.contained_pending (s : State) (k : Nat) (a : Access) (m : Master) (addr : Nat) : (s.contained k a m addr).pending = s.pending := by
  unfold State.contained
  split <;> simp

/-! `PAIR_ALIVE_OUT` goes low; nothing else changes. -/

@[simp] theorem State.aliveLow_clk (s : State) : (s.aliveLow).clk = s.clk := rfl
@[simp] theorem State.aliveLow_svc (s : State) : (s.aliveLow).svc = s.svc := rfl
@[simp] theorem State.aliveLow_boot (s : State) : (s.aliveLow).boot = s.boot := rfl
@[simp] theorem State.aliveLow_store (s : State) : (s.aliveLow).store = s.store := rfl
@[simp] theorem State.aliveLow_dict (s : State) : (s.aliveLow).dict = s.dict := rfl
@[simp] theorem State.aliveLow_paths (s : State) : (s.aliveLow).paths = s.paths := rfl
@[simp] theorem State.aliveLow_bar2 (s : State) : (s.aliveLow).bar2 = s.bar2 := rfl
@[simp] theorem State.aliveLow_dev (s : State) : (s.aliveLow).dev = s.dev := rfl
@[simp] theorem State.aliveLow_bobs (s : State) : (s.aliveLow).bobs = s.bobs := rfl
@[simp] theorem State.aliveLow_tiles (s : State) : (s.aliveLow).tiles = s.tiles := rfl
@[simp] theorem State.aliveLow_caches (s : State) : (s.aliveLow).caches = s.caches := rfl
@[simp] theorem State.aliveLow_encs (s : State) : (s.aliveLow).encs = s.encs := rfl
@[simp] theorem State.aliveLow_batten (s : State) : (s.aliveLow).batten = s.batten := rfl
@[simp] theorem State.aliveLow_totals (s : State) : (s.aliveLow).totals = s.totals := rfl
@[simp] theorem State.aliveLow_pool (s : State) : (s.aliveLow).pool = s.pool := rfl
@[simp] theorem State.aliveLow_dtiles (s : State) : (s.aliveLow).dtiles = s.dtiles := rfl
@[simp] theorem State.aliveLow_decs (s : State) : (s.aliveLow).decs = s.decs := rfl
@[simp] theorem State.aliveLow_selv (s : State) : (s.aliveLow).selv = s.selv := rfl
@[simp] theorem State.aliveLow_trans (s : State) : (s.aliveLow).trans = s.trans := rfl
@[simp] theorem State.aliveLow_time (s : State) : (s.aliveLow).time = s.time := rfl
@[simp] theorem State.aliveLow_rings (s : State) : (s.aliveLow).rings = s.rings := rfl
@[simp] theorem State.aliveLow_dma (s : State) : (s.aliveLow).dma = s.dma := rfl
@[simp] theorem State.aliveLow_intc (s : State) : (s.aliveLow).intc = s.intc := rfl
@[simp] theorem State.aliveLow_bpm (s : State) : (s.aliveLow).bpm = s.bpm := rfl
@[simp] theorem State.aliveLow_mem (s : State) : (s.aliveLow).mem = s.mem := rfl
@[simp] theorem State.aliveLow_faults (s : State) : (s.aliveLow).faults = s.faults := rfl
@[simp] theorem State.aliveLow_pair (s : State) : (s.aliveLow).pair = s.pair := rfl
@[simp] theorem State.aliveLow_pending (s : State) : (s.aliveLow).pending = s.pending := rfl

/-! A fatal fault, until its reset. -/

@[simp] theorem State.fatal_svc (s : State) (k : Nat) (a : Access) (m : Master) (addr : Nat) : (s.fatal k a m addr).svc = s.svc := by
  simp [State.fatal]
@[simp] theorem State.fatal_boot (s : State) (k : Nat) (a : Access) (m : Master) (addr : Nat) : (s.fatal k a m addr).boot = s.boot := by
  simp [State.fatal]
@[simp] theorem State.fatal_dict (s : State) (k : Nat) (a : Access) (m : Master) (addr : Nat) : (s.fatal k a m addr).dict = s.dict := by
  simp [State.fatal]
@[simp] theorem State.fatal_bar2 (s : State) (k : Nat) (a : Access) (m : Master) (addr : Nat) : (s.fatal k a m addr).bar2 = s.bar2 := by
  simp [State.fatal]
@[simp] theorem State.fatal_dev (s : State) (k : Nat) (a : Access) (m : Master) (addr : Nat) : (s.fatal k a m addr).dev = s.dev := by
  simp [State.fatal]
@[simp] theorem State.fatal_bobs (s : State) (k : Nat) (a : Access) (m : Master) (addr : Nat) : (s.fatal k a m addr).bobs = s.bobs := by
  simp [State.fatal]
@[simp] theorem State.fatal_tiles (s : State) (k : Nat) (a : Access) (m : Master) (addr : Nat) : (s.fatal k a m addr).tiles = s.tiles := by
  simp [State.fatal]
@[simp] theorem State.fatal_caches (s : State) (k : Nat) (a : Access) (m : Master) (addr : Nat) : (s.fatal k a m addr).caches = s.caches := by
  simp [State.fatal]
@[simp] theorem State.fatal_encs (s : State) (k : Nat) (a : Access) (m : Master) (addr : Nat) : (s.fatal k a m addr).encs = s.encs := by
  simp [State.fatal]
@[simp] theorem State.fatal_batten (s : State) (k : Nat) (a : Access) (m : Master) (addr : Nat) : (s.fatal k a m addr).batten = s.batten := by
  simp [State.fatal]
@[simp] theorem State.fatal_totals (s : State) (k : Nat) (a : Access) (m : Master) (addr : Nat) : (s.fatal k a m addr).totals = s.totals := by
  simp [State.fatal]
@[simp] theorem State.fatal_pool (s : State) (k : Nat) (a : Access) (m : Master) (addr : Nat) : (s.fatal k a m addr).pool = s.pool := by
  simp [State.fatal]
@[simp] theorem State.fatal_dtiles (s : State) (k : Nat) (a : Access) (m : Master) (addr : Nat) : (s.fatal k a m addr).dtiles = s.dtiles := by
  simp [State.fatal]
@[simp] theorem State.fatal_decs (s : State) (k : Nat) (a : Access) (m : Master) (addr : Nat) : (s.fatal k a m addr).decs = s.decs := by
  simp [State.fatal]
@[simp] theorem State.fatal_selv (s : State) (k : Nat) (a : Access) (m : Master) (addr : Nat) : (s.fatal k a m addr).selv = s.selv := by
  simp [State.fatal]
@[simp] theorem State.fatal_trans (s : State) (k : Nat) (a : Access) (m : Master) (addr : Nat) : (s.fatal k a m addr).trans = s.trans := by
  simp [State.fatal]
@[simp] theorem State.fatal_time (s : State) (k : Nat) (a : Access) (m : Master) (addr : Nat) : (s.fatal k a m addr).time = s.time := by
  simp [State.fatal]
@[simp] theorem State.fatal_rings (s : State) (k : Nat) (a : Access) (m : Master) (addr : Nat) : (s.fatal k a m addr).rings = s.rings := by
  simp [State.fatal]
@[simp] theorem State.fatal_dma (s : State) (k : Nat) (a : Access) (m : Master) (addr : Nat) : (s.fatal k a m addr).dma = s.dma := by
  simp [State.fatal]
@[simp] theorem State.fatal_intc (s : State) (k : Nat) (a : Access) (m : Master) (addr : Nat) : (s.fatal k a m addr).intc = s.intc := by
  simp [State.fatal]
@[simp] theorem State.fatal_bpm (s : State) (k : Nat) (a : Access) (m : Master) (addr : Nat) : (s.fatal k a m addr).bpm = s.bpm := by
  simp [State.fatal]
@[simp] theorem State.fatal_mem (s : State) (k : Nat) (a : Access) (m : Master) (addr : Nat) : (s.fatal k a m addr).mem = s.mem := by
  simp [State.fatal]
@[simp] theorem State.fatal_pair (s : State) (k : Nat) (a : Access) (m : Master) (addr : Nat) : (s.fatal k a m addr).pair = s.pair := by
  simp [State.fatal]
@[simp] theorem State.fatal_pending (s : State) (k : Nat) (a : Access) (m : Master) (addr : Nat) : (s.fatal k a m addr).pending = s.pending := by
  simp [State.fatal]

/-! A fault of either class. -/

@[simp] theorem State.report_svc (s : State) (k : Nat) (a : Access) (m : Master) (addr : Nat) : (s.report k a m addr).svc = s.svc := by
  unfold State.report
  split <;> simp
@[simp] theorem State.report_boot (s : State) (k : Nat) (a : Access) (m : Master) (addr : Nat) : (s.report k a m addr).boot = s.boot := by
  unfold State.report
  split <;> simp
@[simp] theorem State.report_dict (s : State) (k : Nat) (a : Access) (m : Master) (addr : Nat) : (s.report k a m addr).dict = s.dict := by
  unfold State.report
  split <;> simp
@[simp] theorem State.report_bar2 (s : State) (k : Nat) (a : Access) (m : Master) (addr : Nat) : (s.report k a m addr).bar2 = s.bar2 := by
  unfold State.report
  split <;> simp
@[simp] theorem State.report_dev (s : State) (k : Nat) (a : Access) (m : Master) (addr : Nat) : (s.report k a m addr).dev = s.dev := by
  unfold State.report
  split <;> simp
@[simp] theorem State.report_bobs (s : State) (k : Nat) (a : Access) (m : Master) (addr : Nat) : (s.report k a m addr).bobs = s.bobs := by
  unfold State.report
  split <;> simp
@[simp] theorem State.report_tiles (s : State) (k : Nat) (a : Access) (m : Master) (addr : Nat) : (s.report k a m addr).tiles = s.tiles := by
  unfold State.report
  split <;> simp
@[simp] theorem State.report_caches (s : State) (k : Nat) (a : Access) (m : Master) (addr : Nat) : (s.report k a m addr).caches = s.caches := by
  unfold State.report
  split <;> simp
@[simp] theorem State.report_encs (s : State) (k : Nat) (a : Access) (m : Master) (addr : Nat) : (s.report k a m addr).encs = s.encs := by
  unfold State.report
  split <;> simp
@[simp] theorem State.report_batten (s : State) (k : Nat) (a : Access) (m : Master) (addr : Nat) : (s.report k a m addr).batten = s.batten := by
  unfold State.report
  split <;> simp
@[simp] theorem State.report_totals (s : State) (k : Nat) (a : Access) (m : Master) (addr : Nat) : (s.report k a m addr).totals = s.totals := by
  unfold State.report
  split <;> simp
@[simp] theorem State.report_pool (s : State) (k : Nat) (a : Access) (m : Master) (addr : Nat) : (s.report k a m addr).pool = s.pool := by
  unfold State.report
  split <;> simp
@[simp] theorem State.report_dtiles (s : State) (k : Nat) (a : Access) (m : Master) (addr : Nat) : (s.report k a m addr).dtiles = s.dtiles := by
  unfold State.report
  split <;> simp
@[simp] theorem State.report_decs (s : State) (k : Nat) (a : Access) (m : Master) (addr : Nat) : (s.report k a m addr).decs = s.decs := by
  unfold State.report
  split <;> simp
@[simp] theorem State.report_selv (s : State) (k : Nat) (a : Access) (m : Master) (addr : Nat) : (s.report k a m addr).selv = s.selv := by
  unfold State.report
  split <;> simp
@[simp] theorem State.report_trans (s : State) (k : Nat) (a : Access) (m : Master) (addr : Nat) : (s.report k a m addr).trans = s.trans := by
  unfold State.report
  split <;> simp
@[simp] theorem State.report_time (s : State) (k : Nat) (a : Access) (m : Master) (addr : Nat) : (s.report k a m addr).time = s.time := by
  unfold State.report
  split <;> simp
@[simp] theorem State.report_rings (s : State) (k : Nat) (a : Access) (m : Master) (addr : Nat) : (s.report k a m addr).rings = s.rings := by
  unfold State.report
  split <;> simp
@[simp] theorem State.report_dma (s : State) (k : Nat) (a : Access) (m : Master) (addr : Nat) : (s.report k a m addr).dma = s.dma := by
  unfold State.report
  split <;> simp
@[simp] theorem State.report_bpm (s : State) (k : Nat) (a : Access) (m : Master) (addr : Nat) : (s.report k a m addr).bpm = s.bpm := by
  unfold State.report
  split <;> simp
@[simp] theorem State.report_pair (s : State) (k : Nat) (a : Access) (m : Master) (addr : Nat) : (s.report k a m addr).pair = s.pair := by
  unfold State.report
  split <;> simp
@[simp] theorem State.report_pending (s : State) (k : Nat) (a : Access) (m : Master) (addr : Nat) : (s.report k a m addr).pending = s.pending := by
  unfold State.report
  split <;> simp

/-! A fault without an access. -/

@[simp] theorem State.reportNone_svc (s : State) (k : Nat) (m : Master) : (s.reportNone k m).svc = s.svc := by simp [State.reportNone]
@[simp] theorem State.reportNone_boot (s : State) (k : Nat) (m : Master) : (s.reportNone k m).boot = s.boot := by simp [State.reportNone]
@[simp] theorem State.reportNone_dict (s : State) (k : Nat) (m : Master) : (s.reportNone k m).dict = s.dict := by simp [State.reportNone]
@[simp] theorem State.reportNone_bar2 (s : State) (k : Nat) (m : Master) : (s.reportNone k m).bar2 = s.bar2 := by simp [State.reportNone]
@[simp] theorem State.reportNone_dev (s : State) (k : Nat) (m : Master) : (s.reportNone k m).dev = s.dev := by simp [State.reportNone]
@[simp] theorem State.reportNone_bobs (s : State) (k : Nat) (m : Master) : (s.reportNone k m).bobs = s.bobs := by simp [State.reportNone]
@[simp] theorem State.reportNone_tiles (s : State) (k : Nat) (m : Master) : (s.reportNone k m).tiles = s.tiles := by simp [State.reportNone]
@[simp] theorem State.reportNone_caches (s : State) (k : Nat) (m : Master) : (s.reportNone k m).caches = s.caches := by simp [State.reportNone]
@[simp] theorem State.reportNone_encs (s : State) (k : Nat) (m : Master) : (s.reportNone k m).encs = s.encs := by simp [State.reportNone]
@[simp] theorem State.reportNone_batten (s : State) (k : Nat) (m : Master) : (s.reportNone k m).batten = s.batten := by simp [State.reportNone]
@[simp] theorem State.reportNone_totals (s : State) (k : Nat) (m : Master) : (s.reportNone k m).totals = s.totals := by simp [State.reportNone]
@[simp] theorem State.reportNone_pool (s : State) (k : Nat) (m : Master) : (s.reportNone k m).pool = s.pool := by simp [State.reportNone]
@[simp] theorem State.reportNone_dtiles (s : State) (k : Nat) (m : Master) : (s.reportNone k m).dtiles = s.dtiles := by simp [State.reportNone]
@[simp] theorem State.reportNone_decs (s : State) (k : Nat) (m : Master) : (s.reportNone k m).decs = s.decs := by simp [State.reportNone]
@[simp] theorem State.reportNone_selv (s : State) (k : Nat) (m : Master) : (s.reportNone k m).selv = s.selv := by simp [State.reportNone]
@[simp] theorem State.reportNone_trans (s : State) (k : Nat) (m : Master) : (s.reportNone k m).trans = s.trans := by simp [State.reportNone]
@[simp] theorem State.reportNone_time (s : State) (k : Nat) (m : Master) : (s.reportNone k m).time = s.time := by simp [State.reportNone]
@[simp] theorem State.reportNone_rings (s : State) (k : Nat) (m : Master) : (s.reportNone k m).rings = s.rings := by simp [State.reportNone]
@[simp] theorem State.reportNone_dma (s : State) (k : Nat) (m : Master) : (s.reportNone k m).dma = s.dma := by simp [State.reportNone]
@[simp] theorem State.reportNone_bpm (s : State) (k : Nat) (m : Master) : (s.reportNone k m).bpm = s.bpm := by simp [State.reportNone]
@[simp] theorem State.reportNone_pair (s : State) (k : Nat) (m : Master) : (s.reportNone k m).pair = s.pair := by simp [State.reportNone]
@[simp] theorem State.reportNone_pending (s : State) (k : Nat) (m : Master) : (s.reportNone k m).pending = s.pending := by simp [State.reportNone]

/-! A lock violation. -/

@[simp] theorem State.lockViolation_svc (s : State) (m : Master) (addr : Nat) : (s.lockViolation m addr).svc = s.svc := by simp [State.lockViolation]
@[simp] theorem State.lockViolation_boot (s : State) (m : Master) (addr : Nat) : (s.lockViolation m addr).boot = s.boot := by simp [State.lockViolation]
@[simp] theorem State.lockViolation_dict (s : State) (m : Master) (addr : Nat) : (s.lockViolation m addr).dict = s.dict := by simp [State.lockViolation]
@[simp] theorem State.lockViolation_bar2 (s : State) (m : Master) (addr : Nat) : (s.lockViolation m addr).bar2 = s.bar2 := by simp [State.lockViolation]
@[simp] theorem State.lockViolation_bobs (s : State) (m : Master) (addr : Nat) : (s.lockViolation m addr).bobs = s.bobs := by simp [State.lockViolation]
@[simp] theorem State.lockViolation_tiles (s : State) (m : Master) (addr : Nat) : (s.lockViolation m addr).tiles = s.tiles := by simp [State.lockViolation]
@[simp] theorem State.lockViolation_caches (s : State) (m : Master) (addr : Nat) : (s.lockViolation m addr).caches = s.caches := by simp [State.lockViolation]
@[simp] theorem State.lockViolation_encs (s : State) (m : Master) (addr : Nat) : (s.lockViolation m addr).encs = s.encs := by simp [State.lockViolation]
@[simp] theorem State.lockViolation_batten (s : State) (m : Master) (addr : Nat) : (s.lockViolation m addr).batten = s.batten := by simp [State.lockViolation]
@[simp] theorem State.lockViolation_totals (s : State) (m : Master) (addr : Nat) : (s.lockViolation m addr).totals = s.totals := by simp [State.lockViolation]
@[simp] theorem State.lockViolation_pool (s : State) (m : Master) (addr : Nat) : (s.lockViolation m addr).pool = s.pool := by simp [State.lockViolation]
@[simp] theorem State.lockViolation_dtiles (s : State) (m : Master) (addr : Nat) : (s.lockViolation m addr).dtiles = s.dtiles := by simp [State.lockViolation]
@[simp] theorem State.lockViolation_decs (s : State) (m : Master) (addr : Nat) : (s.lockViolation m addr).decs = s.decs := by simp [State.lockViolation]
@[simp] theorem State.lockViolation_selv (s : State) (m : Master) (addr : Nat) : (s.lockViolation m addr).selv = s.selv := by simp [State.lockViolation]
@[simp] theorem State.lockViolation_trans (s : State) (m : Master) (addr : Nat) : (s.lockViolation m addr).trans = s.trans := by simp [State.lockViolation]
@[simp] theorem State.lockViolation_time (s : State) (m : Master) (addr : Nat) : (s.lockViolation m addr).time = s.time := by simp [State.lockViolation]
@[simp] theorem State.lockViolation_rings (s : State) (m : Master) (addr : Nat) : (s.lockViolation m addr).rings = s.rings := by simp [State.lockViolation]
@[simp] theorem State.lockViolation_dma (s : State) (m : Master) (addr : Nat) : (s.lockViolation m addr).dma = s.dma := by simp [State.lockViolation]
@[simp] theorem State.lockViolation_bpm (s : State) (m : Master) (addr : Nat) : (s.lockViolation m addr).bpm = s.bpm := by simp [State.lockViolation]
@[simp] theorem State.lockViolation_pair (s : State) (m : Master) (addr : Nat) : (s.lockViolation m addr).pair = s.pair := by simp [State.lockViolation]
@[simp] theorem State.lockViolation_pending (s : State) (m : Master) (addr : Nat) : (s.lockViolation m addr).pending = s.pending := by simp [State.lockViolation]

/-! The clocks over a nanosecond. -/

theorem State.clockTick_pins {s : State} (h : s.time.ppsFall = none) : (s.clockTick).pins = s.pins := by simp [State.clockTick, h]
@[simp] theorem State.clockTick_svc (s : State) : (s.clockTick).svc = s.svc := rfl
theorem State.clockTick_boot {s : State} (h : s.boot.recovery = none) : (s.clockTick).boot = s.boot := by simp [State.clockTick, h]
@[simp] theorem State.clockTick_store (s : State) : (s.clockTick).store = s.store := rfl
@[simp] theorem State.clockTick_dict (s : State) : (s.clockTick).dict = s.dict := rfl
@[simp] theorem State.clockTick_paths (s : State) : (s.clockTick).paths = s.paths := rfl
@[simp] theorem State.clockTick_bar2 (s : State) : (s.clockTick).bar2 = s.bar2 := rfl
@[simp] theorem State.clockTick_dev (s : State) : (s.clockTick).dev = s.dev := rfl
@[simp] theorem State.clockTick_bobs (s : State) : (s.clockTick).bobs = s.bobs := rfl
@[simp] theorem State.clockTick_tiles (s : State) : (s.clockTick).tiles = s.tiles := rfl
@[simp] theorem State.clockTick_caches (s : State) : (s.clockTick).caches = s.caches := rfl
@[simp] theorem State.clockTick_encs (s : State) : (s.clockTick).encs = s.encs := rfl
@[simp] theorem State.clockTick_batten (s : State) : (s.clockTick).batten = s.batten := rfl
@[simp] theorem State.clockTick_totals (s : State) : (s.clockTick).totals = s.totals := rfl
@[simp] theorem State.clockTick_pool (s : State) : (s.clockTick).pool = s.pool := rfl
@[simp] theorem State.clockTick_dtiles (s : State) : (s.clockTick).dtiles = s.dtiles := rfl
@[simp] theorem State.clockTick_decs (s : State) : (s.clockTick).decs = s.decs := rfl
@[simp] theorem State.clockTick_selv (s : State) : (s.clockTick).selv = s.selv := rfl
@[simp] theorem State.clockTick_trans (s : State) : (s.clockTick).trans = s.trans := rfl
@[simp] theorem State.clockTick_rings (s : State) : (s.clockTick).rings = s.rings := rfl
@[simp] theorem State.clockTick_dma (s : State) : (s.clockTick).dma = s.dma := rfl
@[simp] theorem State.clockTick_intc (s : State) : (s.clockTick).intc = s.intc := rfl
@[simp] theorem State.clockTick_bpm (s : State) : (s.clockTick).bpm = s.bpm := rfl
@[simp] theorem State.clockTick_mem (s : State) : (s.clockTick).mem = s.mem := rfl
@[simp] theorem State.clockTick_faults (s : State) : (s.clockTick).faults = s.faults := rfl
@[simp] theorem State.clockTick_pair (s : State) : (s.clockTick).pair = s.pair := rfl
@[simp] theorem State.clockTick_pending (s : State) : (s.clockTick).pending = s.pending := rfl
theorem State.clockTick_out {s : State} (h : s.time.ppsFall = none) : (s.clockTick).out = s.out := by simp [State.clockTick, h]

/-! The device's own clock identity, whatever its MAC address. -/

theorem eui64_large (m : BitVec 48) : 0xFFFE000000 ≤ eui64 m := by
  rw [eui64]
  omega

theorem clockIdentity_large : 0xFFFE000000 ≤ clockIdentity := eui64_large _

end Sys2Proof.Machine
end

