-- ==== Sys2Proof/Safety.lean ====
section
/-! DEFINITION. What a safe run is: no step is refused, and device memory and the tables keep their canonical form. -/

namespace Sys2Proof

/-- The command, in this state, answers a next state that has the property. -/
def does (c : Instr) (s : Machine.State) (P : Machine.State → Prop) : Prop := ∃ t, Machine.exec c s = .next t ∧ P t

/-- `t` is the device right after a whole-device reset of `s` with this cause and these straps: start step 0, every block as at reset,
the persistent store kept. -/
abbrev freshAfter (s t : Machine.State) (cause : BitVec 8) (st : Straps) : Prop :=
  t.boot.cause = cause ∧ t.boot.bootMode = st.bootMode ∧ t.boot.pairId = st.pairId ∧ t.boot.plls = false ∧ t.boot.mounted = false ∧
  t.boot.selvedge = false ∧ t.boot.running = .nothing ∧ t.dict = {} ∧ t.paths = {} ∧ t.bar2 = {} ∧ t.dev = {} ∧ t.bobs = [] ∧
  t.tiles = [] ∧ t.caches = [] ∧ t.encs = [] ∧ t.batten = {} ∧ t.pool = {} ∧ t.dtiles = [] ∧ t.decs = [] ∧ t.selv = {} ∧ t.trans = {} ∧ t.time = {} ∧
  t.rings = {} ∧ t.dma = {} ∧ t.intc = {} ∧ t.bpm = {} ∧ t.mem = {} ∧ t.pair = {} ∧ t.pins.ppsOut = false ∧ t.pins.aliveOut = false ∧
  t.store.journal = s.store.journal ∧ t.store.image = s.store.image ∧ t.store.faultLog = s.store.faultLog ∧
  t.store.learnLog = s.store.learnLog ∧ t.store.sparing = s.store.sparing ∧ t.store.flash = s.store.flash

/-- The dictionary server runs and nothing waits in it; the device is awake, serves alone and is not in Newt mode. -/
abbrev dictIdle (s : Machine.State) : Prop :=
  Machine.asleep s = false ∧ s.boot.selvedge = true ∧ s.boot.newt = false ∧ s.boot.warning = false ∧ s.pair.role = .standalone ∧
  s.dict.reqs = [] ∧ s.dict.openRec = none ∧ s.dict.waiting = [] ∧ s.pair.relayed = [] ∧ s.selv.cmds = [] ∧ s.selv.lpmCmds = []

/-- A value is an acceptable new value of a parameter of an idle server, and its record has room. -/
abbrev acceptable (s : Machine.State) (o : Machine.Obj) (idx sub : Nat) (row : Option Nat) (v : Machine.PVal) : Prop :=
  Machine.judgeWrite s (if o.cls = .rwp then s.putParam idx sub row v else s) o idx sub row v = Machine.stOk ∧ s.store.journal = []

/-- Treadle waits in its idle loop, unpatched: no event, no interrupt source, nothing on its stack (R300, R305). -/
abbrev treadleIdle (r : Machine.Treadle) : Prop :=
  r.stopped = false ∧ r.upc = 0x40 ∧ r.waiting = true ∧ r.masked = false ∧ r.stack = [] ∧ r.events = [] ∧ r.stalled = [] ∧
  r.laneReq = [] ∧ r.cutReport = none ∧ r.abandon = false ∧ r.match_ = []

/-- Treadle waits in its idle loop, or stands at no entry of the ROM: stopped, say, or in a patch's words. -/
abbrev treadleCalm (r : Machine.Treadle) : Prop := r.atRom = false ∨ treadleIdle r

/-- The buffer pool's bookkeeping: its owner table is in order and within the pool, and the free count counts what the table leaves. -/
def buffersCounted (s : Machine.State) : Prop :=
  Machine.tabWf s.bpm.owners = true ∧ s.bpm.free + s.bpm.owners.length = 262144 ∧ ∀ p, p ∈ s.bpm.owners → p.1 < 262144

/-- Commands that act on a device in boundary scan or held in a thermal reset: resets from its pins and rails, the levels of its
pins, the release of the held reset, and boundary scan itself. -/
def outsideCore : Instr → Bool
  | .powerOnReset _ => true
  | .pinReset _ _ => true
  | .railMonitorTrip _ _ _ => true
  | .servicePress => true
  | .serviceRelease => true
  | .pwrfailWarning => true
  | .brownout => true
  | .thermalResetRelease _ _ => true
  | .boundaryScan => true
  | _ => false

/-- A state whose device memory is in canonical form. -/
def safeState (s : Machine.State) : Prop := s.mem.wf = true

/-- A run is safe when each of its steps answers a next state that is safe. -/
def safeRun : Nat → Machine.State → Prop
  | 0, s => safeState s
  | n + 1, s => safeState s ∧ ∃ t, Machine.step s = .next t ∧ safeRun n t

end Sys2Proof
end

