-- ==== Sys2Proof/Certificates/Slice0/Obligations.lean ====
section
/-! DEFINITION. The statements of this model for the provers. -/

open Sys2Proof Sys2Proof.Machine

/-- Each of these commands answers a next state that is `freshAfter` the old one with a reset cause and the straps given: start step 0, the blocks that `freshAfter` lists as at reset, PPS output and alive signal low, and the
stored journal, image, fault log, learn log, sparing map and flash as before.
POWER_ON_RESET does so in every state, with cause 2, and leaves the last committed fatal record in 0x7011.
PIN_RESET of 100 ns or longer does so with cause 3, RAIL_MONITOR_TRIP of 200 ns or longer with cause 2; a shorter one of either leaves the state as it is.
RESTART_REQUEST does so with cause 4 on an awake device whose accepted write of 0x2001:00 waits.
BOOT_WATCHDOG_EXPIRY does so with cause 5 on an awake device at or after the time for which its boot watchdog is armed.
RECOVERY_WATCHDOG_EXPIRY does so with cause 5 on an awake device 30 s or more after its recovery watchdog was last restarted, and the new state is in Newt mode with the service-button timer as before.
LEAVE_NEWT does so with cause 9 on an awake device whose accepted write of 0x2013:00 waits, with the service-button timer as before, and where the store is not write-protected the Newt latch and the count of failed starts are cleared. -/
def Obligations.WholeDeviceResets : Prop :=
  (∀ (s : State) (st : Straps),
      does (.powerOnReset st) s fun t =>
      freshAfter s t 2 st ∧ t.faults.lastFatal = s.store.committedFatal) ∧
  (∀ (s : State) (st : Straps) (ns : Nat),
      100 ≤ ns → does (.pinReset ns st) s fun t =>
      freshAfter s t 3 st) ∧
  (∀ (s : State) (st : Straps) (ns : Nat),
      ns < 100 → exec (.pinReset ns st) s = .next s) ∧
  (∀ (s : State) (st : Straps) (r : Fin 13) (ns : Nat),
      200 ≤ ns → does (.railMonitorTrip r ns st) s fun t =>
      freshAfter s t 2 st) ∧
  (∀ (s : State) (st : Straps) (r : Fin 13) (ns : Nat),
      ns < 200 → exec (.railMonitorTrip r ns st) s = .next s) ∧
  (∀ (s : State) (st : Straps),
      asleep s = false → (s.takeAct 0x2001 0).isSome = true → does (.restartRequest st) s fun t =>
      freshAfter s t 4 st) ∧
  (∀ (s : State) (st : Straps) (d : Nat),
      asleep s = false → s.boot.watchdog = some d → d ≤ s.clk.now → does (.bootWatchdogExpiry st) s fun t =>
      freshAfter s t 5 st) ∧
  (∀ (s : State) (st : Straps) (d : Nat),
      asleep s = false → s.boot.recovery = some d → d + 30000000000 ≤ s.clk.now → does (.recoveryWatchdogExpiry st) s fun t =>
      freshAfter s t 5 st ∧ t.boot.newt = true ∧ t.svc = s.svc) ∧
  (∀ (s : State) (st : Straps),
      asleep s = false → (s.takeAct 0x2013 0).isSome = true → does (.leaveNewt st) s fun t =>
      freshAfter s t 9 st ∧ (storeShut s = false → t.store.newtLatch = false ∧ t.store.failed = 0) ∧ t.svc = s.svc)

/-- HOST_RESET on an awake device answers a next state: the DMA block and the BAR2 window are as at reset, no MSI-X entry and no bit of the configuration space differs from its reset value, every completion queue left is
one in device memory, and the encode streams, decode contexts, MAC table buckets, active rule set, transport, pool, store, boot state, pins, parameters and PTP count are as before. -/
def Obligations.HostResetSparesTheDevice : Prop :=
  (∀ (s : State),
      asleep s = false → does (.hostReset) s fun t =>
      t.dma = {} ∧ t.intc.msix = [] ∧ t.intc.pcie = [] ∧ t.bar2 = {} ∧ (t.rings.cqs.all fun q => q.2.loc) = true ∧
      t.encs = s.encs ∧ t.decs = s.decs ∧ t.selv.buckets = s.selv.buckets ∧ t.selv.active = s.selv.active ∧ t.trans = s.trans ∧ t.pool = s.pool ∧ t.store = s.store ∧ t.boot = s.boot ∧ t.pins = s.pins ∧
      t.dict.params = s.dict.params ∧ t.time.ptp = s.time.ptp)

/-- On an awake device: PLLS_LOCKED sets only its own flag; SRAM_REPAIR after it sets only its own; PERSISTENT_STORE_MOUNT after that, not mounted before and with `PWRFAIL_N` high, mounts the store, counts the start, consumes the
shutdown record, counts `n` diverged items, takes the stored pair epoch and leaves dictionary, pool, time and Selvedge alone; HBM_TRAINED after the mount trains the four stacks and gives the pool its HBM frames; JOURNAL_REPLAY
after it is taken once, leaves journal and image alone and makes the stored rule set active; SELVEDGE_ENABLE after it sends the boot-up message and starts the heartbeat; TIME_UNIT_START after it starts the PTP count and, where no
fault waits for a summary, changes only that, the time at start and the 10 MHz output; DDR5_TRAINED after it gives at most 2 TiB and changes only boot, memory, pool and the free counter; FIRMWARE_LOAD after it decides the start once: Newt
mode runs the recovery firmware, straps 0b111 hold for debug, straps 0b001 without `BOOT_GO` wait with `BOOT_STATE` 0x00, and a valid flash image with other straps runs with its outcome, version and entry. -/
def Obligations.StartStepsInOrder : Prop :=
  (∀ (s : State),
      asleep s = false → does (.pllsLocked) s fun t =>
      t = { s with boot := { s.boot with plls := true } }) ∧
  (∀ (s : State),
      asleep s = false → s.boot.plls = true → does (.sramRepair) s fun t =>
      t = { s with boot := { s.boot with sram := true } }) ∧
  (∀ (s : State) (bad : List (Nat × Fin 3)) (torn : List Nat) (n : Nat),
      asleep s = false → s.boot.sram = true → s.boot.mounted = false → s.pins.pwrfailN = true → does (.persistentStoreMount bad torn n) s fun t =>
      t.boot.mounted = true ∧ t.store.starts = s.store.starts + 1 ∧ t.store.shutdownRec = none ∧ t.store.diverged = s.store.diverged + n ∧ t.pair.epoch = s.store.pair.epoch ∧
      t.dict = s.dict ∧ t.pool = s.pool ∧ t.time = s.time ∧ t.selv = s.selv) ∧
  (∀ (s : State),
      asleep s = false → s.boot.mounted = true → s.boot.hbm = false → does (.hbmTrained) s fun t =>
      t.boot = { s.boot with hbm := true } ∧ (t.mem.hbms.all fun q => q.2.trained) = true ∧ t.mem.hbms.length = 4 ∧ t.mem.dev = s.mem.dev ∧ t.pool.hbmFrames = hbmPoolFrames ∧
      t = { s with boot := t.boot, mem := t.mem, pool := t.pool }) ∧
  (∀ (s : State),
      asleep s = false → s.boot.hbm = true → s.boot.replayed = false → does (.journalReplay) s fun t =>
      t.boot.replayed = true ∧ t.store.journal = s.store.journal ∧ t.store.image = s.store.image ∧ t.selv.active.image = s.store.ruleset) ∧
  (∀ (s : State),
      asleep s = false → s.boot.replayed = true → s.boot.selvedge = false → does (.selvedgeEnable) s fun t =>
      t.boot = { s.boot with selvedge := true } ∧ t.paths.heartbeat = s.clk.now ∧ Output.can (BitVec.ofNat 11 (0x700 + par s 0x1FD0 1)) [0] ∈ t.out ∧
      t.dict = s.dict ∧ t.selv = s.selv ∧ t.pool = s.pool) ∧
  (∀ (s : State),
      asleep s = false → s.boot.selvedge = true → s.boot.timeUp = false → does (.timeUnitStart) s fun t =>
      t.boot.timeUp = true ∧ t.time = s.time ∧ (s.faults.excess = 0 → t = { s with boot := t.boot, pins := { s.pins with tenMhz := !(squelched s) } })) ∧
  (∀ (s : State) (chs : List Channel),
      asleep s = false → s.boot.timeUp = true → s.boot.ddr = false → does (.ddr5Trained chs) s fun t =>
      t.boot = { s.boot with ddr := true } ∧ t.mem.ddrBytes ≤ 2 ^ 41 ∧ t.mem.dev = s.mem.dev ∧ t = { s with boot := t.boot, mem := t.mem, pool := t.pool, clk := { s.clk with free := s.clk.free + 8 } }) ∧
  (∀ (s : State),
      asleep s = false → s.boot.ddr = true → s.boot.decided = false → does (.firmwareLoad) s fun t =>
      t.boot.decided = true ∧ (s.boot.newt = true → t.boot.running = .newt ∧ t.boot.recovery = some s.clk.now) ∧
      (s.boot.newt = false → s.boot.bootMode = 7 → t.boot.running = .debugHold) ∧
      (s.boot.newt = false → s.boot.bootMode = 1 → s.boot.go = false → t.boot.bootState = 0 ∧ t.boot.running = s.boot.running) ∧
      (s.boot.newt = false → s.boot.bootMode ≠ 1 → s.boot.bootMode ≠ 7 → ∀ q ∈ flashImage s.store,
      t.boot.running = .firmware ∧ t.boot.outcome = q.1 ∧ t.boot.version = imageVersion q.2 ∧ t.boot.entry = BitVec.ofNat 32 (le32 q.2 8)))

/-- On an awake device, with an issued master where the command carries one: BOOT_GO with `BOOT_STATE` 0x00 or 0x03 before the firmware step is remembered and uses up its master's unlock; after that step, with a window whose header fails, it
ends in `BOOT_STATE` 0x03 with what runs unchanged. BOOT_WINDOW_WRITE within the window in those states stores its bytes and nothing else; in any other state it leaves the window, counts a lock violation and
leaves a first-error record valid. BOOT_COMPLETE with its action waiting and the watchdog armed stops the watchdog and, unless the store is write-protected, clears the count of failed starts. FIRMWARE_SLOT_WRITE of a valid image that fits its slot into an idle
dictionary server with an empty journal queues the programming of that slot and enters 0x2020 in the open record with no output yet. FIRMWARE_SLOT_VERIFIED of the one queued programming
whose journal entry has committed ends it: verified, the image is programmed and the slot's directory entry is set; failed, the store is as before. -/
def Obligations.BootFromHostAndFlash : Prop :=
  (∀ (s : State) (m : Master),
      asleep s = false → s.boot.bootState = 0 ∨ s.boot.bootState = 3 → s.boot.decided = false → masterOk m = true → does (.bootGo m) s fun t =>
      t = { s with boot := { s.boot with go := true }, dev := { s.dev with armed := s.dev.armed.filter (· ≠ m) } }) ∧
  (∀ (s : State) (m : Master),
      asleep s = false → s.boot.bootState = 0 ∨ s.boot.bootState = 3 → s.boot.decided = true → headerOk (bytesAt s.boot.window 0 64) = false → masterOk m = true → does (.bootGo m) s fun t =>
      t.boot.bootState = 3 ∧ t.boot.imageBad = true ∧ t.boot.running = s.boot.running) ∧
  (∀ (s : State) (m : Master) (off : BitVec 21) (data : Bytes),
      asleep s = false → s.boot.bootState = 0 ∨ s.boot.bootState = 3 → off.toNat + data.length ≤ 2097152 → masterOk m = true → does (.bootWindowWrite m off data) s fun t =>
      t = { s with boot := { s.boot with window := setBytes s.boot.window off.toNat data } }) ∧
  (∀ (s : State) (m : Master) (off : BitVec 21) (data : Bytes),
      asleep s = false → s.boot.bootState ≠ 0 → s.boot.bootState ≠ 3 → off.toNat + data.length ≤ 2097152 → masterOk m = true → does (.bootWindowWrite m off data) s fun t =>
      t.boot.window = s.boot.window ∧ t.dev.lockViol = sat32 s.dev.lockViol ∧ t.faults.valid = true) ∧
  (∀ (s : State) (d : Nat),
      asleep s = false → (s.takeAct 0x2011 0).isSome = true → s.boot.watchdog = some d → does (.bootComplete) s fun t =>
      t.boot = { s.boot with watchdog := none } ∧ t.store = (if storeShut s then s.store else { s.store with failed := 0 }) ∧ t = { s with boot := t.boot, store := t.store, dict := t.dict }) ∧
  (∀ (s : State) (se : Session) (b : Bool) (data : Bytes),
      dictIdle s → s.store.journal = [] → s.store.readOnly = false → does (.firmwareSlotWrite se b 0 data) s fun t =>
      firmwareOk data = true → data.length ≤ slotSpace s b →
      t.boot.slots = s.boot.slots ++ [⟨s.dict.nextReq, 0, b, slotOffset s b, data⟩] ∧
      (t.dict.openRec.map fun r => r.entries.map fun e => (e.idx, e.sub, e.val)) = some [(0x2020, if b then 2 else 1, .bytes data)] ∧ t.out = s.out) ∧
  (∀ (s : State) (p : SlotProgram),
      asleep s = false → s.boot.slots = [p] → (pendingEntries s).any (fun e => e.req == p.req && e.op == p.op) = false →
      does (.firmwareSlotVerified true) s fun t =>
      t.boot.slots = [] ∧ t.store = (s.store.program p.off p.image).setEntry p.slotB p.off) ∧
  (∀ (s : State) (p : SlotProgram),
      asleep s = false → s.boot.slots = [p] → (pendingEntries s).any (fun e => e.req == p.req && e.op == p.op) = false →
      does (.firmwareSlotVerified false) s fun t =>
      t.boot.slots = [] ∧ t.store = s.store)

/-- SERVICE_PRESS with the pin high, on an awake device that has seen it high, starts the timer. SERVICE_RELEASE on an awake device with the pin low and the timer running for less than 5 s counts a press, and leaves store and dictionary alone.
SERVICE_HOLD_5S on an awake device outside Newt mode, with the timer at 5 s or more and not yet acted on, answers a fresh state of cause 7 in Newt mode with outcome 0x11 and the timer kept, and the Newt latch set unless the
store is write-protected. SERVICE_HOLD_15S on an awake device with the timer at 15 s or more and not yet acted on, whose restore record commits, with no power warning and the store open for writes, answers a start of cause 8
with no parameter image, the restore record alone in the journal, no learn log, no latch and no pair state, fault log and flash as before. SERVICE_STUCK on an awake device with the timer at 60 s or more and not yet reported raises one event and marks it reported. -/
def Obligations.ServiceButton : Prop :=
  (∀ (s : State),
      asleep s = false → s.pins.serviceN = true → s.svc.seenHigh = true → does (.servicePress) s fun t =>
      t = { s with pins := { s.pins with serviceN := false }, svc := { seenHigh := true, pressedAt := some s.clk.now } }) ∧
  (∀ (s : State) (p : Nat),
      asleep s = false → s.pins.serviceN = false → s.svc.pressedAt = some p → s.clk.now < p + 5000000000 → does (.serviceRelease) s fun t =>
      t.pins = { s.pins with serviceN := true } ∧ t.svc = { seenHigh := true } ∧ t.boot = { s.boot with presses := s.boot.presses + 1 } ∧ t.store = s.store ∧ t.dict = s.dict) ∧
  (∀ (s : State) (st : Straps) (p : Nat),
      asleep s = false → s.svc.pressedAt = some p → p + 5000000000 ≤ s.clk.now → s.svc.did5 = false → s.boot.newt = false → does (.serviceHold5s st) s fun t =>
      freshAfter s t 7 st ∧ t.boot.newt = true ∧ t.boot.outcome = 0x11 ∧ (storeShut s = false → t.store.newtLatch = true) ∧ t.svc = { s.svc with did5 := true }) ∧
  (∀ (s : State) (st : Straps) (p : Nat),
      asleep s = false → s.svc.pressedAt = some p → p + 15000000000 ≤ s.clk.now → s.svc.did15 = false → s.boot.warning = false → storeOpen s = true → does (.serviceHold15s st true) s fun t =>
      t.boot.cause = 8 ∧ t.boot.bootMode = st.bootMode ∧ t.boot.mounted = false ∧ t.store.image = [] ∧ t.store.journal = [restoreRecord s.store] ∧ t.store.learnLog = [] ∧ t.store.newtLatch = false ∧
      t.store.pair = {} ∧ t.store.faultLog = s.store.faultLog ∧ t.store.flash = s.store.flash ∧ t.svc = { s.svc with did15 := true }) ∧
  (∀ (s : State) (p : Nat),
      asleep s = false → s.svc.pressedAt = some p → p + 60000000000 ≤ s.clk.now → s.svc.didStuck = false → does (.serviceStuck) s fun t =>
      t.svc = { s.svc with didStuck := true } ∧ t.store = s.store ∧ t.boot = s.boot ∧ t.pins = s.pins ∧ t.intc.evSeq = s.intc.evSeq + 1)

/-- PWRFAIL_WARNING on an awake, mounted device with the pin high sets the warning, abandons a snapshot, drives the alive signal low, closes the open record and raises one event, the store unchanged. SHUTDOWN_RECORD on an awake device under a
warning, with no record open or waiting and no segment being written, writes the record with the count of failed starts as it was before a start under watch, and nothing else changes but the write protection. BROWNOUT
on an awake device under a warning with the pin low, 10 ms or more after its edge, ends the warning and the protection, erases the record and counts; where no role and no sparing map is owed and the stored rule set is the active one, nothing else
changes. LEARN_LOG_CAPTURE on an awake device after the Selvedge step, when a capture is due, with no warning, a writable store, no segment being written and a free slot, starts the segment with the log's deltas and
empties the log. LEARN_LOG_SEGMENT_DONE with no record waiting stores that segment. SNAPSHOT_WRITE with 24 slots or more in use, no warning, a writable store and no snapshot being written starts one of the whole tables.
SNAPSHOT_VERIFIED with no record waiting puts it in snapshot A or B and frees the segments it covers. -/
def Obligations.PowerWarningAndLearnLog : Prop :=
  (∀ (s : State),
      asleep s = false → s.pins.pwrfailN = true → s.boot.mounted = true → does (.pwrfailWarning) s fun t =>
      t.boot.warning = true ∧ t.boot.snapWrite = none ∧ t.pins.pwrfailN = false ∧ t.pins.pwrfailAt = s.clk.now ∧ t.pins.aliveOut = false ∧ t.dict.openRec = none ∧ t.store = s.store ∧ t.intc.evSeq = s.intc.evSeq + 1) ∧
  (∀ (s : State),
      asleep s = false → s.boot.warning = true → s.boot.shutdown = false → s.dict.waiting = [] → s.dict.openRec = none → s.boot.segWrite = none → does (.shutdownRecord) s fun t =>
      t = { s with boot := { s.boot with shutdown := true }, store := { s.store with shutdownRec := some (if s.boot.watchdog.isSome then s.store.failed - 1 else s.store.failed) } }) ∧
  (∀ (s : State),
      asleep s = false → s.pins.pwrfailN = false → s.pins.pwrfailAt + 10000000 ≤ s.clk.now → s.boot.warning = true → does (.brownout) s fun t =>
      t.pins = { s.pins with pwrfailN := true } ∧ t.boot = { s.boot with warning := false, shutdown := false, roleOwed := false } ∧ t.store.brownouts = s.store.brownouts + 1 ∧ t.store.shutdownRec = none ∧ t.store.journal = s.store.journal ∧
      (s.boot.roleOwed = false → s.faults.liveMap = none → s.store.ruleset = s.selv.active.image → s.store.rulesLater = s.selv.standby.isSome →
      t = { s with pins := t.pins, boot := t.boot, store := { s.store with brownouts := s.store.brownouts + 1, shutdownRec := none } })) ∧
  (∀ (s : State),
      asleep s = false → s.boot.selvedge = true → captureDue s = true → s.boot.warning = false → s.store.readOnly = false → s.boot.segWrite = none → s.store.learnLog.length < 32 → does (.learnLogCapture) s fun t =>
      t.boot.lastCapture = s.clk.now ∧ t.boot.segWrite = some { seq := s.store.learnSeq + 1, ptp := BitVec.ofNat 64 s.time.ptp, deltas := s.selv.learnLog, whole := false } ∧ t.selv.learnLog = [] ∧
      t.store = { s.store with learnSeq := s.store.learnSeq + 1 } ∧ t = { s with boot := t.boot, store := t.store, selv := t.selv }) ∧
  (∀ (s : State) (g : Learned),
      asleep s = false → s.boot.segWrite = some g → s.dict.waiting = [] → does (.learnLogSegmentDone) s fun t =>
      t = { s with boot := { s.boot with segWrite := none }, store := { s.store with learnLog := s.store.learnLog ++ [g] } }) ∧
  (∀ (s : State),
      asleep s = false → 24 ≤ s.store.learnLog.length → s.boot.warning = false → s.store.readOnly = false → s.boot.snapWrite = none → does (.snapshotWrite) s fun t =>
      t.boot.snapWrite = some { seq := s.store.learnSeq, ptp := BitVec.ofNat 64 s.time.ptp, deltas := wholeTables s, whole := true } ∧ t = { s with boot := t.boot }) ∧
  (∀ (s : State) (g : Learned),
      asleep s = false → s.boot.snapWrite = some g → s.dict.waiting = [] → does (.snapshotVerified) s fun t =>
      t.boot = { s.boot with snapWrite := none } ∧ t.store.learnLog = s.store.learnLog.filter (fun x => decide (g.seq < x.seq)) ∧ (t.store.snapA = some g ∨ t.store.snapB = some g) ∧ t = { s with boot := t.boot, store := t.store })

/-- REGULATOR_POLL with at most 13 answers on an awake device puts into 0x2061 of each of the 13 rails the word that `railWord` gives, and changes nothing outside the memory block, whose device memory is as before.
CAN_BUS_OFF on an awake device makes bus-off as the command says, with bit 4 of the error register set when it or kind 0x0E holds, and changes nothing but the paths, the clock record and the outputs. BOUNDARY_SCAN in every state sets the scan
flag and nothing else. A DICT_READ on a device that is asleep leaves the state as it is. -/
def Obligations.CabinetAndPinsOfTheBoard : Prop :=
  (∀ (s : State) (a : List (Option (BitVec 16 × BitVec 16))) (r : Nat),
      asleep s = false → a.length ≤ 13 → r < 13 → does (.regulatorPoll a) s fun t =>
      look t.mem.regs2061 (r + 1) = some (railWord s a r) ∧ t.mem.dev = s.mem.dev ∧ t = { s with mem := t.mem }) ∧
  (∀ (s : State) (on : Bool),
      asleep s = false → does (.canBusOff on) s fun t =>
      t.paths.busOff = on ∧ t.paths.errReg.getLsbD 4 = (s.faults.gavonDown || on) ∧ t = { s with paths := t.paths, clk := t.clk, out := t.out }) ∧
  (∀ (s : State),
      does (.boundaryScan) s fun t =>
      t = { s with clk := { s.clk with scan := true } }) ∧
  (∀ (s : State) (se : Session) (i : BitVec 16) (j : BitVec 8),
      asleep s = true → exec (.dictRead se i j) s = .next s)

/-- On a device whose dictionary server is idle (`dictIdle`): DICT_READ that `locate` admits, of an object outside the cursors whose value is a domain or fits 4,096 bytes, is answered with OK to its session under the next request
number, leaves no request behind, and changes no parameter, store or boot state; where the object is a journaled scalar without a row, that answer carries the stored value in the bytes of its type. CURSOR_WRITE of a row below
the object's row count, or of 0xFFFF_FFFF, selects it in the session and is answered OK, no parameter, record or store changed; of any other value it is answered RANGE and the selection stays. DOMAIN_READ of a journaled domain without a row, from an offset
not beyond its end, is answered OK with the bytes from the offset on, as many as the room allows. -/
def Obligations.DictionaryReadsAndCursors : Prop :=
  (∀ (s : State) (se : Session) (i : BitVec 16) (j : BitVec 8) (q : Obj × Option Nat),
      dictIdle s → (locate (s.useSession se) se { code := 1, idx := i.toNat, sub := j.toNat }).toOption = some q →
      cursorRows i.toNat = none → q.1.ty.isDom = true ∨ ((objVal (s.useSession se) se q.1 i.toNat j.toNat q.2).encode q.1.ty).length ≤ 4096 →
      does (.dictRead se i j) s fun t =>
      (t.out.any fun x => match x with
      | .answer se1 n st _ => decide (se1 = se) && n == s.dict.nextReq && st == stOk
      | _ => false) = true ∧ t.dict.reqs = [] ∧ t.dict.params = s.dict.params ∧ t.store = s.store ∧ t.boot = s.boot) ∧
  (∀ (s : State) (se : Session) (i : BitVec 16) (j : BitVec 8) (o : Obj),
      dictIdle s → (locate (s.useSession se) se { code := 1, idx := i.toNat, sub := j.toNat }).toOption = some (o, none) →
      cursorRows i.toNat = none → o.cls = .rwp → o.ty.isDom = false → ((storedV s i.toNat j.toNat).encode o.ty).length ≤ 4096 → does (.dictRead se i j) s fun t =>
      Output.answer se s.dict.nextReq stOk ((storedV s i.toNat j.toNat).encode o.ty) ∈ t.out) ∧
  (∀ (s : State) (se : Session) (i : BitVec 16) (rows : Nat) (v : BitVec 32),
      dictIdle s → cursorRows i.toNat = some rows → v.toNat < rows ∨ v = 0xFFFFFFFF → does (.cursorWrite se i (le 4 v.toNat)) s fun t =>
      (t.sess se).row i.toNat = v ∧ Output.answer se s.dict.nextReq stOk [] ∈ t.out ∧ t.dict.params = s.dict.params ∧ t.dict.openRec = none ∧ t.store = s.store) ∧
  (∀ (s : State) (se : Session) (i : BitVec 16) (rows : Nat) (v : BitVec 32),
      dictIdle s → cursorRows i.toNat = some rows → rows ≤ v.toNat → v ≠ 0xFFFFFFFF → does (.cursorWrite se i (le 4 v.toNat)) s fun t =>
      (t.sess se).row i.toNat = (s.sess se).row i.toNat ∧ Output.answer se s.dict.nextReq stRange [] ∈ t.out) ∧
  (∀ (s : State) (se : Session) (i : BitVec 16) (j : BitVec 8) (off : BitVec 32) (room : BitVec 13) (o : Obj),
      dictIdle s → (locate (s.useSession se) se { code := 1, idx := i.toNat, sub := j.toNat, off := off.toNat, room := room.toNat }).toOption = some (o, none) →
      cursorRows i.toNat = none → o.cls = .rwp → o.ty.isDom = true → off.toNat ≤ (storedV s i.toNat j.toNat).raw.length → does (.domainRead se i j off room) s fun t =>
      Output.answer se s.dict.nextReq stOk (((storedV s i.toNat j.toNat).encode o.ty |>.drop off.toNat).take room.toNat) ∈ t.out ∧ t.dict.params = s.dict.params)

/-- On a device whose dictionary server is idle: DICT_WRITE, or WRITE_GROUP of one write, of a journaled scalar that `locate` admits, with at most 255 bytes that decode and that the object, the ranges and the empty journal accept
(`acceptable`), puts that one entry into the open record, with no parameter or store changed and nothing answered. DICT_WRITE whose bytes do not decode is answered with the decoder's status, enters nothing and counts one refused
write. DOMAIN_SEGMENT_WRITE of a domain that continues its staged content is staged in its session, answered OK and enters nothing. DOMAIN_FINAL_WRITE that completes an acceptable domain puts the one entry into the open record, clears the session's stage, and changes no
parameter, store or output. -/
def Obligations.DictionaryWritesEnterTheJournal : Prop :=
  (∀ (s : State) (se : Session) (i : BitVec 16) (j : BitVec 8) (data : Bytes) (o : Obj) (row : Option Nat) (v : PVal),
      dictIdle s → (locate (s.useSession se) se { code := 2, idx := i.toNat, sub := j.toNat, data := data }).toOption = some (o, row) →
      cursorRows i.toNat = none → o.cls = .rwp → o.ty.isDom = false → (decodeVal o data).toOption = some v → acceptable (s.useSession se) o i.toNat j.toNat row v → data.length ≤ 255 → does (.dictWrite se i j data) s fun t =>
      (t.dict.openRec.map fun r => (r.openedAt, r.entries.map fun e => (e.idx, e.sub, e.row, e.val, e.req))) =
      some (s.clk.now, [(i, j, row.map (BitVec.ofNat 32), v, s.dict.nextReq)]) ∧
      t.dict.params = s.dict.params ∧ t.store = s.store ∧ t.out = s.out ∧ t.boot = s.boot ∧ t.dict.reqs.length = 1) ∧
  (∀ (s : State) (se : Session) (i : BitVec 16) (j : BitVec 8) (data : Bytes) (o : Obj) (row : Option Nat) (e : Status),
      dictIdle s → (locate (s.useSession se) se { code := 2, idx := i.toNat, sub := j.toNat, data := data }).toOption = some (o, row) →
      cursorRows i.toNat = none → o.cls = .rwp → o.ty.isDom = false → (match decodeVal o data with | .error x => some x | .ok _ => none) = some e →
      does (.dictWrite se i j data) s fun t =>
      Output.answer se s.dict.nextReq e [] ∈ t.out ∧ t.dict.openRec = none ∧ t.dict.params = s.dict.params ∧ t.store = s.store ∧ t.dict.refused = s.dict.refused + 1) ∧
  (∀ (s : State) (se : Session) (w : DWrite) (o : Obj) (row : Option Nat) (v : PVal),
      dictIdle s → (locate (s.useSession se) se { code := 2, idx := w.idx.toNat, sub := w.sub.toNat, data := w.data }).toOption = some (o, row) →
      cursorRows w.idx.toNat = none → o.cls = .rwp → o.ty.isDom = false → (decodeVal o w.data).toOption = some v → acceptable (s.useSession se) o w.idx.toNat w.sub.toNat row v → w.data.length ≤ 255 → does (.writeGroup se [w]) s fun t =>
      (t.dict.openRec.map fun r => r.entries.map fun e => (e.idx, e.sub, e.row, e.val, e.req)) =
      some [(w.idx, w.sub, row.map (BitVec.ofNat 32), v, s.dict.nextReq)] ∧ t.dict.params = s.dict.params ∧ t.store = s.store ∧ t.out = s.out) ∧
  (∀ (s : State) (se : Session) (i : BitVec 16) (j : BitVec 8) (off : BitVec 32) (data : Bytes) (o : Obj) (row : Option Nat) (b : Bytes),
      dictIdle s → (locate (s.useSession se) se { code := 2, idx := i.toNat, sub := j.toNat, off := off.toNat, data := data }).toOption = some (o, row) →
      cursorRows i.toNat = none → o.cls ≠ .arg → o.ty.isDom = true → (staged (s.useSession se) se { code := 2, idx := i.toNat, sub := j.toNat, off := off.toNat, data := data }).toOption = some b →
      (decodeVal o b).toOption.isSome = true → does (.domainSegmentWrite se i j off data) s fun t =>
      look (t.sess se).stage (i.toNat * 256 + j.toNat) = some b ∧ Output.answer se s.dict.nextReq stOk [] ∈ t.out ∧ t.dict.openRec = none ∧ t.dict.params = s.dict.params ∧ t.store = s.store) ∧
  (∀ (s : State) (se : Session) (i : BitVec 16) (j : BitVec 8) (off : BitVec 32) (data : Bytes) (o : Obj) (row : Option Nat) (b : Bytes) (v : PVal),
      dictIdle s → (locate (s.useSession se) se { code := 3, idx := i.toNat, sub := j.toNat, off := off.toNat, data := data }).toOption = some (o, row) →
      cursorRows i.toNat = none → o.cls = .rwp → o.ty.isDom = true → (staged (s.useSession se) se { code := 3, idx := i.toNat, sub := j.toNat, off := off.toNat, data := data }).toOption = some b →
      (decodeVal o b).toOption = some v → acceptable (s.useSession se) o i.toNat j.toNat row v → does (.domainFinalWrite se i j off data) s fun t =>
      (t.dict.openRec.map fun r => r.entries.map fun e => (e.idx, e.sub, e.val, e.req)) = some [(i, j, v, s.dict.nextReq)] ∧
      look (t.sess se).stage (i.toNat * 256 + j.toNat) = none ∧ t.dict.params = s.dict.params ∧ t.store = s.store ∧ t.out = s.out)

/-- On an awake device: JOURNAL_RECORD_CLOSE with a record open and none committing makes it the one that commits, and changes nothing else. JOURNAL_COMMIT of the oldest closed record with its three copies verified, the store writable, puts one
record with its entries' objects, rows and values behind the journal as it was, the image as before, and the records behind it wait in their order; where that record is the only one and holds one entry of a journaled parameter
without a row, the stored value of the parameter is the entry's from then on and the newest tag is its tag. JOURNAL_COMMIT with a copy that failed and no spare block left makes the store read-only and leaves journal
and image as they were. PARAMETER_IMAGE_WRITE with the store open, when the oldest record may leave the ring and the spares cover the failed blocks, takes that record out of the journal and puts its values into the
image, and changes nothing outside the store. WEAR_LEVELLER_COPY after 65,536 block writes, the store open, resets that count, leaves journal, image and spares alone and changes nothing outside the store. -/
def Obligations.JournalCommitAndImage : Prop :=
  (∀ (s : State) (r : JRecord),
      asleep s = false → s.dict.waiting = [] → s.dict.openRec = some r → does (.journalRecordClose) s fun t =>
      t = { s with dict := { s.dict with waiting := [r], openRec := none } }) ∧
  (∀ (s : State) (r : JRecord) (rest : List JRecord),
      asleep s = false → s.dict.waiting = r :: rest → s.store.readOnly = false → does (.journalCommit 3) s fun t =>
      t.store.journal.length = s.store.journal.length + 1 ∧ t.store.journal.take s.store.journal.length = s.store.journal ∧
      (t.store.journal.getLast?.map fun q => q.entries.map fun e => (e.idx, e.sub, e.row, e.val)) = some (r.entries.map fun e => (e.idx, e.sub, e.row, e.val)) ∧
      t.store.image = s.store.image ∧ t.dict.waiting.take rest.length = rest) ∧
  (∀ (s : State) (r : JRecord) (e : JEntry) (o : Obj),
      asleep s = false → s.dict.waiting = [r] → s.dict.openRec = none → s.store.readOnly = false → r.entries = [e] → tabWf s.dict.params = true → findObj e.idx.toNat e.sub.toNat = some o → o.cls = .rwp → e.row = none → does (.journalCommit 3) s fun t =>
      storedV t e.idx.toNat e.sub.toNat = e.val ∧ t.dict.lastTag = e.tag ∧ t.dict.waiting = []) ∧
  (∀ (s : State) (r : JRecord) (rest : List JRecord) (c : Fin 4),
      asleep s = false → s.dict.waiting = r :: rest → c.val < 3 → s.store.spares = 0 → s.store.readOnly = false → does (.journalCommit c) s fun t =>
      t.store.readOnly = true ∧ t.store.journal = s.store.journal ∧ t.store.image = s.store.image) ∧
  (∀ (s : State) (r : JRecord) (rest : List JRecord) (bad : List Nat),
      asleep s = false → s.store.journal = r :: rest → storeOpen s = true → mayReclaim s r = true → bad.length ≤ s.store.spares → does (.parameterImageWrite bad) s fun t =>
      t.store.journal = rest ∧ t.store.image = imageOf s.store.image r.entries ∧ t.store.spares = s.store.spares - bad.length ∧ t = { s with store := t.store }) ∧
  (∀ (s : State),
      asleep s = false → 65536 ≤ s.store.sinceLevel → storeOpen s = true → does (.wearLevellerCopy) s fun t =>
      t.store.sinceLevel = 0 ∧ t.store.journal = s.store.journal ∧ t.store.image = s.store.image ∧ t.store.spares = s.store.spares ∧ t = { s with store := t.store })

/-- On an awake device after the Selvedge step with the CAN path not bus-off: USDO_REQUEST reading a journaled scalar without a row, on an idle server, is answered by one CAN frame with the client's number, abort code 0 and the value's bytes, and nothing waits.
NMT_START, NMT_STOP and NMT_ENTER_PREOPERATIONAL set the NMT state and nothing else; NMT_RESET_COMMUNICATION leaves no staged content in any CAN session, sends the boot-up message and enters
pre-operational; NMT_RESET_NODE on an idle server with an empty journal and a writable store enters a write of 1 to 0x2001:00 with path tag 1; CANOPEN_HEARTBEAT a period or more after the last sends the state's code. DICT_DATAGRAM at
the management port, on an awake device after the Selvedge step: when the path is disabled or the payload fails its format it is only counted as received and dropped; when its request is among the sole session's remembered answers that
answer is sent again and dictionary and store stay; a single read on an idle server without sessions is answered by one datagram. -/
def Obligations.CanopenAndDatagramPaths : Prop :=
  (∀ (s : State) (n : BitVec 8) (i : BitVec 16) (j : BitVec 8) (o : Obj),
      dictIdle s → s.paths.busOff = false → (locate s (.can n) { code := 1, idx := i.toNat, sub := j.toNat }).toOption = some (o, none) →
      cursorRows i.toNat = none → o.cls = .rwp → o.ty.isDom = false → ((storedV s i.toNat j.toNat).encode o.ty).length ≤ 4096 → does (.usdoRequest n (.read i j)) s fun t =>
      t.out = s.out ++ [.can (BitVec.ofNat 11 (0x580 + par s 0x1FD0 1)) (le 1 n.toNat ++ le 4 0 ++ (storedV s i.toNat j.toNat).encode o.ty)] ∧ t.dict.reqs = [] ∧ t.store = s.store) ∧
  (∀ (s : State),
      asleep s = false → s.boot.selvedge = true → s.paths.busOff = false → does (.nmtStart) s fun t =>
      t = { s with paths := { s.paths with nmt := .operational } }) ∧
  (∀ (s : State),
      asleep s = false → s.boot.selvedge = true → s.paths.busOff = false → does (.nmtStop) s fun t =>
      t = { s with paths := { s.paths with nmt := .stopped } }) ∧
  (∀ (s : State),
      asleep s = false → s.boot.selvedge = true → s.paths.busOff = false → does (.nmtEnterPreoperational) s fun t =>
      t = { s with paths := { s.paths with nmt := .preOperational } }) ∧
  (∀ (s : State),
      asleep s = false → s.boot.selvedge = true → s.paths.busOff = false → does (.nmtResetCommunication) s fun t =>
      t.paths = { s.paths with nmt := .preOperational } ∧ t.out = s.out ++ [.can (BitVec.ofNat 11 (0x700 + par s 0x1FD0 1)) [0]] ∧ (t.dict.sess.all fun q => !(isCan q.1) || q.2.stage.isEmpty) = true ∧ t = { s with paths := t.paths, dict := t.dict, out := t.out }) ∧
  (∀ (s : State),
      dictIdle s → s.paths.busOff = false → s.store.journal = [] → s.store.readOnly = false → does (.nmtResetNode) s fun t =>
      (t.dict.openRec.map fun r => r.entries.map fun e => (e.tag, e.idx, e.sub, e.val)) = some [(1, 0x2001, 0, .num 1)] ∧ t.store = s.store ∧ t.out = s.out) ∧
  (∀ (s : State),
      asleep s = false → s.boot.selvedge = true → s.paths.busOff = false → par s 0x1017 0 ≠ 0 → s.paths.heartbeat + par s 0x1017 0 * 1000000 ≤ s.clk.now → does (.canopenHeartbeat) s fun t =>
      t = { s with paths := { s.paths with heartbeat := s.clk.now }, out := s.out ++ [.can (BitVec.ofNat 11 (0x700 + par s 0x1FD0 1)) [nmtCode s.paths.nmt]] }) ∧
  (∀ (s : State) (vlan : BitVec 12) (ip : BitVec 128) (port : BitVec 16) (p : Bytes),
      asleep s = false → s.boot.selvedge = true → p.length ≤ 65507 → parB s 0x1FD1 2 = false ∨ dgramParse p = none → does (.dictDatagram false vlan ip port p) s fun t =>
      t = { s with paths := { s.paths with received := s.paths.received + 1, dropped := s.paths.dropped + 1 } }) ∧
  (∀ (s : State) (vlan : BitVec 12) (ip : BitVec 128) (port : BitVec 16) (p : Bytes) (id : Word) (g : Bool) (ops : List DOp) (b : Bytes) (q : DgSession),
      asleep s = false → s.boot.selvedge = true → p.length ≤ 65507 → parB s 0x1FD1 2 = true → s.paths.sessions = [q] → q.se = .dgram ip port false → q.answers = [(id, b)] → does (.dictDatagram false vlan ip port p) s fun t =>
      dgramParse p = some (id, g, ops) → t.out = s.out ++ [.datagram false ip port b] ∧ t.dict = s.dict ∧ t.store = s.store) ∧
  (∀ (s : State) (vlan : BitVec 12) (ip : BitVec 128) (port : BitVec 16) (p : Bytes),
      dictIdle s → p.length ≤ 65507 → parB s 0x1FD1 2 = true → s.paths.sessions = [] → does (.dictDatagram false vlan ip port p) s fun t =>
      ∀ id d, dgramParse p = some (id, false, [d]) → d.code = 1 → t.dict.reqs = [] ∧ ∃ b, t.out = s.out ++ [.datagram false ip port b])

/-- On a device whose dictionary server is idle and whose BAR2 window is not busy, with an issued master: DW_READ with `DW_MORE` 0 and offset 0, of a journaled scalar without a row of at most 4,096 bytes, ends with `DW_DONE`, `DW_CODE` OK, `DW_OP` 0b01 and
the value's bytes in the data window. DW_WRITE with offset 0, no group staged and at most 255 bytes that decode and are acceptable (`acceptable`, which includes an empty journal), and DW_FINAL_DOMAIN_WRITE with `DW_MORE` 0 and offset 0 of an acceptable domain of
at most 4,096 bytes, put that one entry into the open record and stay busy, no parameter or store changed. DW_STAGED_WRITE with `DW_OP` 0b10, offset 0 and at most 2,784 bytes, of a groupable object outside the cursors and with no group staged, stages
that one write and is done with OK. On an awake device after the Selvedge step whose window is busy, DW_READ only sets `DW_OVERRUN` and uses up its master's unlock. -/
def Obligations.Bar2Window : Prop :=
  (∀ (s : State) (m : Master) (v : Word) (o : Obj),
      dictIdle s → s.bar2.busy = false → v.getLsbD 16 = false → s.bar2.offset = 0 → (locate s .bar2 { code := 1, idx := s.bar2.index.toNat, sub := s.bar2.sub.toNat, off := 0, room := 4096 }).toOption = some (o, none) →
      cursorRows s.bar2.index.toNat = none → o.cls = .rwp → o.ty.isDom = false → ((storedV s s.bar2.index.toNat s.bar2.sub.toNat).encode o.ty).length ≤ 4096 →
      masterOk m = true → does (.dwRead m v) s fun t =>
      t.bar2.done = true ∧ t.bar2.busy = false ∧ t.bar2.code = stOk ∧ t.bar2.op = 1 ∧
      t.bar2.data = setBytes s.bar2.data 0 ((storedV s s.bar2.index.toNat s.bar2.sub.toNat).encode o.ty) ∧ t.dict.params = s.dict.params ∧ t.store = s.store) ∧
  (∀ (s : State) (m : Master) (v : Word) (o : Obj) (row : Option Nat) (x : PVal),
      dictIdle s → s.bar2.busy = false → s.bar2.group = [] → s.bar2.offset = 0 → (v.extractLsb' 0 13).toNat ≤ 255 → (locate s .bar2 { code := 2, idx := s.bar2.index.toNat, sub := s.bar2.sub.toNat }).toOption = some (o, row) →
      cursorRows s.bar2.index.toNat = none → o.cls = .rwp → o.ty.isDom = false → (decodeVal o (bytesAt s.bar2.data 0 (v.extractLsb' 0 13).toNat)).toOption = some x →
      acceptable s o s.bar2.index.toNat s.bar2.sub.toNat row x → masterOk m = true → does (.dwWrite m v) s fun t =>
      (t.dict.openRec.map fun r => r.entries.map fun e => (e.idx, e.sub, e.val)) = some [(s.bar2.index, s.bar2.sub, x)] ∧ t.bar2.busy = true ∧ t.bar2.op = 2 ∧
      t.bar2.done = s.bar2.done ∧ t.dict.params = s.dict.params ∧ t.store = s.store) ∧
  (∀ (s : State) (m : Master) (v : Word) (o : Obj) (row : Option Nat) (x : PVal),
      dictIdle s → s.bar2.busy = false → v.getLsbD 16 = false → s.bar2.offset = 0 → (v.extractLsb' 0 13).toNat ≤ 4096 → (locate s .bar2 { code := 3, idx := s.bar2.index.toNat, sub := s.bar2.sub.toNat }).toOption = some (o, row) →
      cursorRows s.bar2.index.toNat = none → o.cls = .rwp → o.ty.isDom = true → (decodeVal o (bytesAt s.bar2.data 0 (v.extractLsb' 0 13).toNat)).toOption = some x →
      acceptable s o s.bar2.index.toNat s.bar2.sub.toNat row x → masterOk m = true → does (.dwFinalDomainWrite m v) s fun t =>
      (t.dict.openRec.map fun r => r.entries.map fun e => (e.idx, e.sub, e.val)) = some [(s.bar2.index, s.bar2.sub, x)] ∧ t.bar2.busy = true ∧ t.bar2.op = 3 ∧
      t.dict.params = s.dict.params ∧ t.store = s.store) ∧
  (∀ (s : State) (m : Master) (v : Word),
      dictIdle s → s.bar2.busy = false → v.extractLsb' 14 2 = 2 → s.bar2.offset = 0 → (v.extractLsb' 0 13).toNat ≤ 2784 → s.bar2.group = [] → groupable { code := 2, idx := s.bar2.index.toNat, sub := s.bar2.sub.toNat } = true →
      cursorRows s.bar2.index.toNat = none → masterOk m = true → does (.dwStagedWrite m v) s fun t =>
      (t.bar2.group.map fun q => q.1) = [⟨s.bar2.index, s.bar2.sub, bytesAt s.bar2.data 0 (v.extractLsb' 0 13).toNat⟩] ∧ t.bar2.done = true ∧ t.bar2.busy = false ∧ t.bar2.code = stOk ∧
      t.dict.params = s.dict.params ∧ t.dict.openRec = none ∧ t.store = s.store) ∧
  (∀ (s : State) (m : Master) (v : Word),
      asleep s = false → s.boot.selvedge = true → s.bar2.busy = true → masterOk m = true → exec (.dwRead m v) s = .next { s with bar2 := { s.bar2 with overrun := true }, dev := { s.dev with armed := s.dev.armed.filter (· ≠ m) } })

/-- On an awake device, for an issued master: REGISTER_WRITE of all bytes of `SCRATCH` stores the word and uses up the unlock, nothing else; with a byte enable cleared it leaves every device register as it was but the unlock, counts a contained fault, leaves
a first-error record valid, which holds kind 0x04, the master and the register's address if it was free before, and leaves boot state, dictionary and rings alone; of byte 1 at 0x200010 of the boot window, with `BOOT_STATE` 0x00 or 0x03, it
stores that byte alone; of `DW_SELECT` in BAR2, the window not busy, it sets index and subindex; of the lock-violation count it stores the value with hardware's increments of the same cycle added. RC_READ of
that count answers the old value and then adds hardware's increments; RC_READ of a submission doorbell in BAR4 answers the ring's tail and changes nothing else. -/
def Obligations.RegisterAccesses : Prop :=
  (∀ (s : State) (m : Master) (v : Word),
      asleep s = false → masterOk m = true → does (.registerWrite m .bar0 4 0xF v {}) s fun t =>
      t = { s with dev := { s.dev with scratch := v, armed := s.dev.armed.filter (· ≠ m) } }) ∧
  (∀ (s : State) (m : Master) (v : Word) (be : BitVec 4),
      asleep s = false → be ≠ 0xF → masterOk m = true → does (.registerWrite m .bar0 4 be v {}) s fun t =>
      t.dev = { s.dev with armed := s.dev.armed.filter (· ≠ m) } ∧ t.faults.contained = sat32 s.faults.contained ∧ t.faults.valid = true ∧
      (s.faults.valid = false → t.faults.kind = 0x04 ∧ t.faults.master = m ∧ t.faults.addr = 0x40000004) ∧ t.boot = s.boot ∧ t.dict = s.dict ∧ t.rings = s.rings) ∧
  (∀ (s : State) (m : Master) (v : Word),
      asleep s = false → s.boot.bootState = 0 ∨ s.boot.bootState = 3 → masterOk m = true → does (.registerWrite m .bar0 0x200010 0b0010 v {}) s fun t =>
      t = { s with boot := { s.boot with window := setByte s.boot.window 0x11 (v.extractLsb' 8 8) } }) ∧
  (∀ (s : State) (m : Master) (v : Word),
      asleep s = false → s.boot.selvedge = true → s.bar2.busy = false → masterOk m = true → does (.registerWrite m .bar2 0 0xF v {}) s fun t =>
      t.bar2 = { s.bar2 with index := v.extractLsb' 8 16, sub := v.extractLsb' 0 8 } ∧ t = { s with bar2 := t.bar2, dev := { s.dev with armed := s.dev.armed.filter (· ≠ m) } }) ∧
  (∀ (s : State) (m : Master) (v : Word) (hw : SameCycle),
      asleep s = false → masterOk m = true → does (.registerWrite m .bar0 0x14 0xF v hw) s fun t =>
      t.dev.lockViol = satAdd v hw.inc ∧ t = { s with dev := t.dev }) ∧
  (∀ (s : State) (m : Master) (hw : SameCycle),
      asleep s = false → masterOk m = true → does (.rcRead m .bar0 0x14 hw) s fun t =>
      t.out = s.out ++ [.readData m s.dev.lockViol] ∧ t.dev.lockViol = satAdd s.dev.lockViol hw.inc ∧ t = { s with dev := t.dev, out := t.out }) ∧
  (∀ (s : State) (m : Master) (p : Fin 4096),
      asleep s = false → masterOk m = true → does (.rcRead m .bar4 (BitVec.ofNat 25 (p.val * 4096)) {}) s fun t =>
      t = { s with out := s.out ++ [.readData m ((s.sq p.val).tail.setWidth 32)] })

/-- On an awake device, for an issued master: WIDE_LO_READ of a pair outside the interrupt block's threshold registers answers the low word and puts the high word into the master's shadow, nothing else; WIDE_HI_READ with a filled
shadow answers it and empties it, nothing else; WIDE_LO_WRITE puts the word into the master's write shadow and leaves the pair as it was; WIDE_HI_WRITE of the event ring's base with a filled write shadow stores both words with the
low six bits zero, and of a DMA channel's source, the channel neither running nor paused, stores both words; each changes nothing outside the device registers and the block written. -/
def Obligations.WideRegisterPairs : Prop :=
  (∀ (s : State) (m : Master) (off : BitVec 24) (n : Nat),
      asleep s = false → wideLo (off.toNat / 8 * 8) = some n → ¬ (0x45000 ≤ n ∧ n < 0x45040) → masterOk m = true → does (.wideLoRead m off) s fun t =>
      t.out = s.out ++ [.readData m ((wideVal s n).extractLsb' 0 32)] ∧ look t.dev.rdShadow (shadowKey m n) = some ((wideVal s n).extractLsb' 32 32) ∧ t = { s with dev := t.dev, out := t.out }) ∧
  (∀ (s : State) (m : Master) (off : BitVec 24) (n : Nat) (v : Word),
      asleep s = false → wideLo (off.toNat / 8 * 8) = some n → tabWf s.dev.rdShadow = true → look s.dev.rdShadow (shadowKey m n) = some v → masterOk m = true → does (.wideHiRead m off) s fun t =>
      t.out = s.out ++ [.readData m v] ∧ look t.dev.rdShadow (shadowKey m n) = none ∧ t = { s with dev := t.dev, out := t.out }) ∧
  (∀ (s : State) (m : Master) (off : BitVec 24) (n : Nat) (v : Word),
      asleep s = false → wideLo (off.toNat / 8 * 8) = some n → masterOk m = true → does (.wideLoWrite m off v) s fun t =>
      look t.dev.wrShadow (shadowKey m n) = some v ∧ wideVal t n = wideVal s n ∧ t = { s with dev := t.dev }) ∧
  (∀ (s : State) (m : Master) (lo : Word) (v : Word),
      asleep s = false → look s.dev.wrShadow (shadowKey m 0x45100) = some lo → masterOk m = true → does (.wideHiWrite m 0x45104 v) s fun t =>
      t.intc.evBase = (v ++ lo) &&& 0xFFFFFFFFFFFFFFC0 ∧ t = { s with dev := t.dev, intc := t.intc }) ∧
  (∀ (s : State) (m : Master) (ch : Fin 32) (lo : Word) (v : Word),
      asleep s = false → look s.dev.wrShadow (shadowKey m (0x10000 + 0x100 * ch.val)) = some lo →
      (s.chan ch.val).state ≠ 1 → (s.chan ch.val).state ≠ 2 → masterOk m = true → does (.wideHiWrite m (BitVec.ofNat 24 (0x10004 + 0x100 * ch.val)) v) s fun t =>
      (t.chan ch.val).src = v ++ lo ∧ t = { s with dev := t.dev, dma := t.dma })

/-- On an awake device, for an issued master where the command carries one: UNLOCK_KEY with 0x57454654 arms its master and changes nothing else; with any other value it disarms it, counts a lock violation and leaves a first-error record valid, of kind 0x03 if it was
free. ERR_INJECT `GO` of an armed master with kind 1 or 2 sets kind and `GO` and disarms it, nothing else. The next SCRATCH read then clears `GO`: of kind 1 it answers `SCRATCH` and counts a corrected error; of kind 2 it answers all ones and leaves a first-error
record valid, of kind 0x01 and that master if it was free. INDIRECT_DATA read or write through windows 0 to 20 queues an access with the window's target and offset, issued now; a read advances the offset under auto-increment, and nothing but device registers, the
free counter and the Bobbins changes; a write uses its master's unlock up. INDIRECT_COMPLETE of a window's only access, not overdue, not waiting for a regrow, none a host reset left, of a target that has no
control-command Bobbin or whose Bobbin, open, shows the access's command and nothing else, ends it: the window has no access left, a read answers what its target serves, and an error code is recorded if there is one; a read of
a reserved target answers all ones with code 1, and nothing but the window and the answer changes. INDIRECT_TIMEOUT of a window's only access, a read issued 20 µs or more ago, none a host reset left, answers all ones with code 2. -/
def Obligations.LocksAndInjection : Prop :=
  (∀ (s : State) (m : Master),
      asleep s = false → masterOk m = true → does (.unlockKey m 0x57454654) s fun t =>
      t.dev.armed.contains m = true ∧ t.dev.lockViol = s.dev.lockViol ∧ t = { s with dev := t.dev }) ∧
  (∀ (s : State) (m : Master) (v : Word),
      asleep s = false → v ≠ 0x57454654 → masterOk m = true → does (.unlockKey m v) s fun t =>
      t.dev.armed.contains m = false ∧ t.dev.lockViol = sat32 s.dev.lockViol ∧ t.faults.valid = true ∧ (s.faults.valid = false → t.faults.kind = 0x03)) ∧
  (∀ (s : State) (m : Master) (v : Word),
      asleep s = false → s.dev.armed.contains m = true → v.extractLsb' 1 2 = 1 ∨ v.extractLsb' 1 2 = 2 → masterOk m = true → does (.errInjectGo m v) s fun t =>
      t.dev.injGo = true ∧ t.dev.injKind = v.extractLsb' 1 2 ∧ t.dev.armed.contains m = false ∧ t = { s with dev := t.dev }) ∧
  (∀ (s : State) (m : Master),
      asleep s = false → s.dev.injGo = true → s.dev.injKind = 1 → masterOk m = true → does (.scratchInjectedRead m) s fun t =>
      t.out = s.out ++ [.readData m s.dev.scratch] ∧ t.dev = { s.dev with injGo := false } ∧ t.faults.corrected = sat32 s.faults.corrected ∧ t = { s with dev := t.dev, out := t.out, faults := t.faults }) ∧
  (∀ (s : State) (m : Master),
      asleep s = false → s.dev.injGo = true → s.dev.injKind = 2 → masterOk m = true → does (.scratchInjectedRead m) s fun t =>
      Output.readData m 0xFFFFFFFF ∈ t.out ∧ t.dev = { s.dev with injGo := false } ∧ t.faults.valid = true ∧ (s.faults.valid = false → t.faults.kind = 0x01 ∧ t.faults.master = m)) ∧
  (∀ (s : State) (m : Master) (w : Fin 24),
      asleep s = false → w.val < 21 → masterOk m = true → does (.indirectDataRead m w) s fun t =>
      (t.window w).flight = (s.window w).flight ++ [{ m := m, target := (s.window w).target, offset := (s.window w).offset, write := none, issued := s.clk.now }] ∧
      (t.window w).offset = (if (s.window w).autoInc then (s.window w).offset + 1 else (s.window w).offset) ∧ t.dev.armed = s.dev.armed ∧
      t = { s with dev := t.dev, bobs := t.bobs, clk := { s.clk with free := t.clk.free } }) ∧
  (∀ (s : State) (m : Master) (w : Fin 24) (v : Word),
      asleep s = false → w.val < 21 → masterOk m = true → does (.indirectDataWrite m w v) s fun t =>
      (t.window w).flight = (s.window w).flight ++ [{ m := m, target := (s.window w).target, offset := (s.window w).offset, write := some v, issued := s.clk.now }] ∧
      t.dev.armed.contains m = false ∧ t = { s with dev := t.dev, bobs := t.bobs, clk := { s.clk with free := t.clk.free } }) ∧
  (∀ (s : State) (w : Fin 24) (x : IAccess) (e : Ecc),
      asleep s = false → (s.window w).flight = [x] → x.gone = false → overdue s x = false → iWaits s x.target.toNat = false → controlBob s x.target.toNat = none → does (.indirectComplete w e) s fun t =>
      (t.window w).flight = [] ∧ (x.write = none → t.out = s.out ++ [.readData x.m (s.serve x (decide (e = .uncorrectable))).2.1]) ∧
      ((s.serve x (decide (e = .uncorrectable))).2.2 ≠ 0 → (t.window w).err = true ∧ (t.window w).errCode = (s.serve x (decide (e = .uncorrectable))).2.2)) ∧
  (∀ (s : State) (w : Fin 24) (x : IAccess) (b : BobbinId),
      asleep s = false → (s.window w).flight = [x] → x.gone = false → x.write = none → overdue s x = false → iWaits s x.target.toNat = false → controlBob s x.target.toNat = some b → (s.bob b).resetAt = none → (s.bob b).held = [] → (s.bob b).items = [(accessItem w x, false)] → crossing s.clk.now (s.bob b).rdLog = [] → crossing s.clk.now (s.bob b).wrLog = [] → (s.bob b).wr = (s.bob b).rd + 1 → does (.indirectComplete w .clean) s fun t =>
      ∃ v, (t.window w).flight = [] ∧ (t.bob b).items = [] ∧ t.out = s.out ++ [.readData x.m v] ∧ (t.window w).err = (s.window w).err) ∧
  (∀ (s : State) (w : Fin 24) (x : IAccess),
      asleep s = false → (s.window w).flight = [x] → x.gone = false → overdue s x = false → iWaits s x.target.toNat = false → x.write = none → 0x4C9 ≤ x.target.toNat → does (.indirectComplete w .clean) s fun t =>
      t.out = s.out ++ [.readData x.m 0xFFFFFFFF] ∧ (t.window w).flight = [] ∧ (t.window w).err = true ∧ (t.window w).errCode = 1 ∧ t = { s with dev := t.dev, out := t.out }) ∧
  (∀ (s : State) (w : Fin 24) (x : IAccess),
      asleep s = false → (s.window w).flight = [x] → x.gone = false → x.write = none → x.issued + 20000 ≤ s.clk.now → does (.indirectTimeout w) s fun t =>
      (t.window w).flight = [] ∧ t.out = s.out ++ [.readData x.m 0xFFFFFFFF] ∧ (t.window w).err = true ∧ (t.window w).errCode = 2 ∧ t = { s with dev := t.dev, out := t.out })

/-- On an awake device, for a Bobbin whose reset has been acknowledged and whose source holds nothing: BOBBIN_WRITE 4 ns or more after its last read (no update of the read pointer is still crossing), with fewer items in it than its depth, puts the item, cut to the Bobbin's width and untagged, behind the others and
advances the write pointer, nothing else but the free counter changed. BOBBIN_READ 4 ns or more after its last write, with an item in it, takes the oldest: intact it is delivered with the tag it has and nothing else changes
but the free counter; uncorrectable it is delivered with its error tag set and a first-error record is valid, of kind 0x01 and the source's master if it was free. BOBBIN_WRITE of a Bobbin that holds its depth of items by every copy of the
read pointer, those still crossing among them, leaves its items and makes the source hold the item behind those it holds. BOBBIN_READ of a Bobbin that is empty by every copy of the write pointer, its source holding nothing, gives the idle item of all ones with the idle
tag, and its items stay. -/
def Obligations.BobbinCrossings : Prop :=
  (∀ (s : State) (b : BobbinId) (x : BitVec 256),
      asleep s = false → (s.bob b).resetAt = none → (s.bob b).held = [] → crossing s.clk.now (s.bob b).rdLog = [] → (s.bob b).wr < (s.bob b).rd + bobDepth b → does (.bobbinWrite b x) s fun t =>
      (t.bob b).items = (s.bob b).items ++ [(cutItem b x, false)] ∧ (t.bob b).held = [] ∧ (t.bob b).wr = (s.bob b).wr + 1 ∧ (t.bob b).rd = (s.bob b).rd ∧ t.clk.now = s.clk.now ∧ t = { s with bobs := t.bobs, clk := t.clk }) ∧
  (∀ (s : State) (b : BobbinId) (x : BitVec 256),
      asleep s = false → (s.bob b).rd + bobDepth b ≤ (s.bob b).wr → (s.bob b).rdSeen + bobDepth b ≤ (s.bob b).wr → ∀ u ∈ (s.bob b).rdLog, u.2 + bobDepth b ≤ (s.bob b).wr → does (.bobbinWrite b x) s fun t =>
      (t.bob b).items = (s.bob b).items ∧ (t.bob b).held = (s.bob b).held ++ [cutItem b x]) ∧
  (∀ (s : State) (b : BobbinId) (x : BitVec 256) (tag : Bool) (r : List (BitVec 256 × Bool)),
      asleep s = false → (s.bob b).resetAt = none → (s.bob b).held = [] → (s.bob b).items = (x, tag) :: r → crossing s.clk.now (s.bob b).wrLog = [] → (s.bob b).rd < (s.bob b).wr → does (.bobbinRead b .clean) s fun t =>
      (t.bob b).items = r ∧ t.out = s.out ++ [.bobbinItem x false tag] ∧ t = { s with bobs := t.bobs, clk := t.clk, out := t.out }) ∧
  (∀ (s : State) (b : BobbinId) (x : BitVec 256) (tag : Bool) (r : List (BitVec 256 × Bool)),
      asleep s = false → (s.bob b).resetAt = none → (s.bob b).held = [] → (s.bob b).items = (x, tag) :: r → crossing s.clk.now (s.bob b).wrLog = [] → (s.bob b).rd < (s.bob b).wr → does (.bobbinRead b .uncorrectable) s fun t =>
      (t.bob b).items = r ∧ Output.bobbinItem x false true ∈ t.out ∧ t.faults.valid = true ∧ (s.faults.valid = false → t.faults.kind = 0x01 ∧ t.faults.master = bobSource s b)) ∧
  (∀ (s : State) (b : BobbinId),
      asleep s = false → (s.bob b).held = [] → (s.bob b).wr ≤ (s.bob b).rd → (s.bob b).wrSeen ≤ (s.bob b).rd → ∀ u ∈ (s.bob b).wrLog, u.2 ≤ (s.bob b).rd → does (.bobbinRead b .clean) s fun t =>
      (t.bob b).items = (s.bob b).items ∧ t.out = s.out ++ [.bobbinItem (idleItem b) true false])

/-- On an awake device: SLOT_BOUNDARY of a stream that runs, starts or is cold, is not stopping and has reached its next boundary, with no role switch and its cluster's engine in service (stream 0: its clock face as it is), advances the stream's grid by one slot; the boundary's
slot becomes pending when the stream has none pending and none in coding; replaces the pending one, counted as missed for busy tiles, when one is pending and none in coding; is missed as an overrun while a picture is in coding; only
encode streams and pool change. TILE_TAKE of an idle tile in service, its engine in service, not waiting for a regrow, its Treadle idle and unpatched, with a stream to take whose blocks the pool has and whose record reads by a copy,
opens a frame with that stream, its pending slot and boundary, started now, nothing pending and coding in this tile; boot state, dictionary and time stay. Without the blocks the slot is dropped and counted as missed for the pool; only
encode streams and pool change. STREAM_START of a valid stream that is stopped or waits for the pool, not stopping, whose start step has come, on a standalone or primary device, when the pool has its context frames, makes it start with its period and phase, its first
boundary at least 1 ms away; tiles, boot state and dictionary stay; when the pool has not, the stream waits for it and nothing else changes. -/
def Obligations.SlotClockAndTake : Prop :=
  (∀ (s : State) (n : BitVec 16) (e : Enc),
      asleep s = false → look s.encs n.toNat = some e → e.state = .starting ∨ e.state = .running ∨ e.state = .cold → e.stopping = false → s.pair.switching = none → nextTick e ≤ ptpTicks s → n = 0 → e.clock = clockOn s → enginePhys s (n.toNat % 8) ≠ 0xFF → e.coding = none → e.pending = none → does (.slotBoundary n) s fun t =>
      lookD {} t.encs n.toNat = { e.pass with pending := some ⟨e.slotNext, nextTick e⟩ } ∧ t = { s with encs := t.encs, pool := t.pool }) ∧
  (∀ (s : State) (n : BitVec 16) (e : Enc),
      asleep s = false → look s.encs n.toNat = some e → e.state = .starting ∨ e.state = .running ∨ e.state = .cold → e.stopping = false → s.pair.switching = none → nextTick e ≤ ptpTicks s → n = 0 → e.clock = clockOn s → enginePhys s (n.toNat % 8) ≠ 0xFF → e.coding = none → e.pending.isSome = true → does (.slotBoundary n) s fun t =>
      (t.enc n.toNat) = { e.pass with pending := some ⟨e.slotNext, nextTick e⟩, missBusy := e.missBusy + 1 } ∧ t = { s with encs := t.encs, pool := t.pool }) ∧
  (∀ (s : State) (n : BitVec 16) (e : Enc),
      asleep s = false → look s.encs n.toNat = some e → e.state = .starting ∨ e.state = .running ∨ e.state = .cold → e.stopping = false → s.pair.switching = none → nextTick e ≤ ptpTicks s → n = 0 → e.clock = clockOn s → enginePhys s (n.toNat % 8) ≠ 0xFF → e.coding.isSome = true → does (.slotBoundary n) s fun t =>
      (t.enc n.toNat) = { e.pass with missOver := e.missOver + 1 } ∧ t = { s with encs := t.encs, pool := t.pool }) ∧
  (∀ (s : State) (tile : Fin 64) (r : RecordRead) (bad : List Nat) (n : Nat) (e : Enc) (d : PendSlot),
      asleep s = false → encPhys s tile ≠ 0xFF → enginePhys s (tile / 8) ≠ 0xFF → tileIdle s (encPhys s tile) = true → swapDue s (encPhys s tile) = false → takeCandidate s tile = some (n, e, d) → treadleIdle (s.tile (encPhys s tile)).treadle → encN s n ≤ unreserved s.pool → r ≠ .both → does (.tileTake tile r bad) s fun t =>
      ((t.tile (encPhys s tile)).frame.map fun f => (f.stream, f.slot, f.boundary, f.started)) = some (n, d.slot, d.boundary, s.clk.now) ∧
      (t.enc n).pending = none ∧ (t.enc n).coding = some tile.val ∧ t.boot = s.boot ∧ t.dict = s.dict ∧ t.time = s.time) ∧
  (∀ (s : State) (tile : Fin 64) (r : RecordRead) (bad : List Nat) (n : Nat) (e : Enc) (d : PendSlot),
      asleep s = false → encPhys s tile ≠ 0xFF → enginePhys s (tile / 8) ≠ 0xFF → tileIdle s (encPhys s tile) = true → swapDue s (encPhys s tile) = false → takeCandidate s tile = some (n, e, d) → unreserved s.pool < encN s n → does (.tileTake tile r bad) s fun t =>
      (t.enc n).pending = none ∧ (t.enc n).missPool = e.missPool + 1 ∧ t = { s with encs := t.encs, pool := t.pool }) ∧
  (∀ (s : State) (n : BitVec 16),
      asleep s = false → encValid s n.toNat = true → (s.enc n.toNat).state = .stopped ∨ (s.enc n.toNat).state = .waitPool →
      (s.enc n.toNat).stopping = false → (if fld s 0x8001 n.toNat 0x14 = 1 then s.boot.selvedge else s.boot.ddr) = true →
      s.pair.role = .standalone ∨ s.pair.role = .primary → contextFrames (encN s n.toNat) ≤ unreserved s.pool → does (.streamStart n) s fun t =>
      (t.enc n.toNat).state = .starting ∧ (t.enc n.toNat).grid = (fld s 0x8001 n.toNat 5, fld s 0x8001 n.toNat 6) ∧ ptpTicks s + 27000 ≤ (t.enc n.toNat).lastTick + 1 ∧ t.tiles = s.tiles ∧ t.boot = s.boot ∧ t.dict = s.dict) ∧
  (∀ (s : State) (n : BitVec 16),
      asleep s = false → encValid s n.toNat = true → (s.enc n.toNat).state = .stopped ∨ (s.enc n.toNat).state = .waitPool →
      (s.enc n.toNat).stopping = false → (if fld s 0x8001 n.toNat 0x14 = 1 then s.boot.selvedge else s.boot.ddr) = true →
      s.pair.role = .standalone ∨ s.pair.role = .primary → unreserved s.pool < contextFrames (encN s n.toNat) → does (.streamStart n) s fun t =>
      t.enc n.toNat = { s.enc n.toNat with state := .waitPool } ∧ t = { s with encs := t.encs })

/-- On an awake device: BATTEN_FRAME_START with an item at the head of the tile's frame Bobbin, seen by the engine and read intact, engine and tile in service, no job of the tile and no frame end of the tile or of the stream awaited, takes the item and
opens the tile's job in the cluster's engine at CTU 0 with the item's stream, slot and refresh columns; Bobbins, composition, pool and the free counter alone change. CTU_COMPOSE with room in the Bobbins (they are open, and where the frame takes the
items fewer than 64 hints are outstanding): of a job whose tile's frame has ended, it advances the job by one CTU, only composition, encode streams, Bobbins and clock changed, or, at the last, leaves no job and makes the tile await the job's frame end with its stream and snapshot, the stream's
block table, the tiles and the dictionary unchanged. With the tile's frame there: a CTU that is not composed, not the last, sends its hint record alone; one that is composed, not the last, sends 256 items; the job advances by one.
BATTEN_FRAME_END with an item at the head of the frame Bobbin, seen and read intact, a frame end of the tile awaited whose stream has not been released, and no job of the tile left, takes the item, and the tile awaits none: of an ended frame the awaited snapshot
is what the next damage is compared with; of an abandoned one the compared snapshot stays and the awaited damage is carried; nothing else changes but Bobbins, encode streams, composition and the free counter. -/
def Obligations.FrameJobsOfTheEngines : Prop :=
  (∀ (s : State) (tile : Fin 64) (x : BitVec 256) (g : Bool) (r : List (BitVec 256 × Bool)),
      asleep s = false → encPhys s tile ≠ 0xFF → enginePhys s (tile / 8) ≠ 0xFF → (s.bob (.frameUp (ftile (encPhys s tile)))).resetAt = none → (s.bob (.frameUp (ftile (encPhys s tile)))).held = [] → crossing s.clk.now (s.bob (.frameUp (ftile (encPhys s tile)))).wrLog = [] →
      (s.bob (.frameUp (ftile (encPhys s tile)))).rd < (s.bob (.frameUp (ftile (encPhys s tile)))).wr →
      (s.bob (.frameUp (ftile (encPhys s tile)))).items = (x, g) :: r →
      jobEngine s tile = none → s.batten.awaits tile (itemStream x) = false → does (.battenFrameStart tile .clean) s fun t =>
      ((look (t.engine (enginePhys s (tile / 8))).jobs tile).map fun j => (j.stream, j.slot, j.nextCtu, j.refCol, j.refCount)) =
      some (itemStream x, itemSlot x, 0, bits x.toNat 22 16, bits x.toNat 29 23) ∧
      (t.bob (.frameUp (ftile (encPhys s tile)))).items = r ∧ t = { s with bobs := t.bobs, batten := t.batten, pool := t.pool, clk := t.clk }) ∧
  (∀ (s : State) (tile : Fin 64) (bad : List (Fin 64 × Nat)) (g : Nat) (j : Job),
      asleep s = false → jobEngine s tile = some (g, j) → jobFrame s (encPhys s tile) j = none → j.nextCtu + 1 ≠ (ctuCols j.snap.w * ctuCols j.snap.h) → discardRoom (((s.bobSrc (.ctu (ftile (encPhys s tile)) (flane (j.nextCtu / ctuCols j.snap.w % 2)))).bobSrc (.hint (ftile (encPhys s tile)))).bobSrc (.frameDown (ftile (encPhys s tile)))) (encPhys s tile) (j.nextCtu / ctuCols j.snap.w % 2) (jobComposes j (ctuCols j.snap.w)) false = true →
      does (.ctuCompose tile bad) s fun t =>
      ((look (t.engine g).jobs tile).map fun q => (q.stream, q.nextCtu)) = some (j.stream, j.nextCtu + 1) ∧ t = { s with batten := t.batten, encs := t.encs, bobs := t.bobs, clk := t.clk }) ∧
  (∀ (s : State) (tile : Fin 64) (bad : List (Fin 64 × Nat)) (g : Nat) (j : Job),
      asleep s = false → jobEngine s tile = some (g, j) → jobFrame s (encPhys s tile) j = none → j.nextCtu + 1 = (ctuCols j.snap.w * ctuCols j.snap.h) → discardRoom (((s.bobSrc (.ctu (ftile (encPhys s tile)) (flane (j.nextCtu / ctuCols j.snap.w % 2)))).bobSrc (.hint (ftile (encPhys s tile)))).bobSrc (.frameDown (ftile (encPhys s tile)))) (encPhys s tile) (j.nextCtu / ctuCols j.snap.w % 2) (jobComposes j (ctuCols j.snap.w)) true = true →
      does (.ctuCompose tile bad) s fun t =>
      ((look t.batten.ended tile).map fun w => (w.stream, w.snap)) = some (j.stream, j.snap) ∧ jobEngine t tile = none ∧ (t.enc j.stream).table = (s.enc j.stream).table ∧ t.tiles = s.tiles ∧ t.dict = s.dict) ∧
  (∀ (s : State) (tile : Fin 64) (bad : List (Fin 64 × Nat)) (g : Nat) (j : Job) (f : Frame),
      asleep s = false → jobEngine s tile = some (g, j) → jobFrame s (encPhys s tile) j = some f → j.nextCtu + 1 ≠ (ctuCols j.snap.w * ctuCols j.snap.h) → jobComposes j (ctuCols j.snap.w) = false → composeRoom (((s.bobSrc (.ctu (ftile (encPhys s tile)) (flane (j.nextCtu / ctuCols j.snap.w % 2)))).bobSrc (.hint (ftile (encPhys s tile)))).bobSrc (.frameDown (ftile (encPhys s tile)))) (encPhys s tile) (j.nextCtu / ctuCols j.snap.w % 2) f false false = true →
      does (.ctuCompose tile bad) s fun t =>
      ((look (t.engine g).jobs tile).map fun q => (q.stream, q.nextCtu)) = some (j.stream, j.nextCtu + 1) ∧
      ((t.bob (.hint (ftile (encPhys s tile)))).items.getLast?.map (·.1)) = some (cutItem (.hint (ftile (encPhys s tile)))
      (hintItem (jobHint (s.enc j.stream) j (ctuCols j.snap.w) (ctuCols j.snap.w * ctuCols j.snap.h) false))) ∧
      t = { s with batten := t.batten, encs := t.encs, bobs := t.bobs, clk := t.clk, tiles := t.tiles }) ∧
  (∀ (s : State) (tile : Fin 64) (bad : List (Fin 64 × Nat)) (g : Nat) (j : Job) (f : Frame),
      asleep s = false → jobEngine s tile = some (g, j) → jobFrame s (encPhys s tile) j = some f → j.nextCtu + 1 ≠ (ctuCols j.snap.w * ctuCols j.snap.h) → jobComposes j (ctuCols j.snap.w) = true → composeRoom (((s.bobSrc (.ctu (ftile (encPhys s tile)) (flane (j.nextCtu / ctuCols j.snap.w % 2)))).bobSrc (.hint (ftile (encPhys s tile)))).bobSrc (.frameDown (ftile (encPhys s tile)))) (encPhys s tile) (j.nextCtu / ctuCols j.snap.w % 2) f true false = true →
      does (.ctuCompose tile bad) s fun t =>
      ((look (t.engine g).jobs tile).map fun q => (q.stream, q.nextCtu)) = some (j.stream, j.nextCtu + 1) ∧
      (t.bob (.ctu (ftile (encPhys s tile)) (flane (j.nextCtu / ctuCols j.snap.w % 2)))).items.length =
      (s.bob (.ctu (ftile (encPhys s tile)) (flane (j.nextCtu / ctuCols j.snap.w % 2)))).items.length +
      (s.bob (.ctu (ftile (encPhys s tile)) (flane (j.nextCtu / ctuCols j.snap.w % 2)))).held.length + 256) ∧
  (∀ (s : State) (tile : Fin 64) (x : BitVec 256) (g : Bool) (r : List (BitVec 256 × Bool)) (w : JobEnd),
      asleep s = false → (s.bob (.frameUp (ftile (encPhys s tile)))).resetAt = none → (s.bob (.frameUp (ftile (encPhys s tile)))).held = [] → crossing s.clk.now (s.bob (.frameUp (ftile (encPhys s tile)))).wrLog = [] →
      (s.bob (.frameUp (ftile (encPhys s tile)))).rd < (s.bob (.frameUp (ftile (encPhys s tile)))).wr →
      (s.bob (.frameUp (ftile (encPhys s tile)))).items = (x, g) :: r →
      look s.batten.ended tile = some w → tabWf s.batten.ended = true → w.gone = false → jobEngine s tile = none → does (.battenFrameEnd tile .clean) s fun t =>
      (t.bob (.frameUp (ftile (encPhys s tile)))).items = r ∧ look t.batten.ended tile = none ∧ (bitOf x.toNat 16 = false → (t.enc w.stream).snap = some w.snap) ∧
      (bitOf x.toNat 16 = true → (t.enc w.stream).snap = (s.enc w.stream).snap ∧ (t.enc w.stream).carried = w.damage) ∧
      t = { s with bobs := t.bobs, encs := t.encs, batten := t.batten, clk := t.clk })

/-- On an awake device, for a tile in service with a frame, after it has read its hint and frame Bobbins; "at rest" is a Treadle that waits idle and unpatched, or stands at no entry of the ROM. LANE_REQUEST of a lane without a CTU, whose next CTU the
wavefront allows and whose 256 items it sees: with Treadle idle, no cut, and bits plus estimates below the frame cap in Treadle's scratch, that CTU is cleared and no request is left, only tiles, encode streams, Bobbins and the clock's free counter changed; behind a rate cut, at rest, the tile clears
it itself; with Treadle stopped and no cut the request waits and the frame stays. LANE_CTU_START of a cleared, unstarted CTU of a frame not draining, its items seen, the wavefront allowing it, at rest: none tagged, items and hint read intact, it starts now with those items taken; with an uncorrectable item the lane lets it go, tile error bit 0 is set, and the first-error record, if free, holds kind 0x01 and the item's source. LANE_CTU_START whose first hint record cannot be corrected, no hint cut yet, a hint due and Treadle idle, cuts the frame there, sets tile error bit 1 and leaves a valid record. LANE_CTU_END of a CTU coded by a lane for 4,096 ns or longer, nothing holding its hand-off, coded intra or all its references usable, not draining, at rest, settles it, frees the lane and counts it. SKIP_RUN_CTU with one next in the open row, at rest, codes and counts it. ROW_CLOSE of a wholly coded open row, the headers committed, no stall, room in the slice Bobbin, at rest, advances the open row, and at the last row closes the last NAL unit. CTU_FINAL of a lane-coded, not yet final CTU whose 3 × 3 square is settled, at rest, makes it final and takes one reserved block; dictionary, encode streams, Bobbins and store stay. LANE_REQUEST behind a cut, the intact start, the lane's end, skip runs and row ends change nothing
but tiles, Bobbins, the clock's free counter and what their clause names (reference caches, totals, encode streams). -/
def Obligations.LanesCodeTheirCtus : Prop :=
  (∀ (s : State) (tile : Fin 64) (lane : Fin 2) (p : Nat) (t0 : Tile) (f : Frame) (i : Nat) (l : List Nat),
      asleep s = false → frameOf (s.pollTile tile) tile = some (p, t0, f) → f.waiting lane.val = i :: l → (f.lane lane.val).ctu = none → f.waveOk i = true → 256 ≤ ((s.pollTile tile).bobDst (.ctu (ftile p) lane)).bobAvail (.ctu (ftile p) lane) →
      treadleIdle t0.treadle → f.cut.rate = none → cest t0 < scratchAt ((s.pollTile tile).enc f.stream) 0xF14 → does (.laneRequest tile lane) s fun t =>
      ((t.tile p).frame.map fun f1 => ((f1.lane lane.val).ctu, (f1.lane lane.val).cleared)) = some (some i, true) ∧ (t.tile p).treadle.laneReq = [] ∧ t = { (s.pollTile tile) with tiles := t.tiles, encs := t.encs, bobs := t.bobs, clk := t.clk }) ∧
  (∀ (s : State) (tile : Fin 64) (lane : Fin 2) (p : Nat) (t0 : Tile) (f : Frame) (i : Nat) (l : List Nat) (c : Nat),
      asleep s = false → frameOf (s.pollTile tile) tile = some (p, t0, f) → f.waiting lane.val = i :: l → (f.lane lane.val).ctu = none → f.waveOk i = true → 256 ≤ ((s.pollTile tile).bobDst (.ctu (ftile p) lane)).bobAvail (.ctu (ftile p) lane) →
      treadleCalm t0.treadle → f.cut.rate = some c → c ≤ i → does (.laneRequest tile lane) s fun t =>
      ((t.tile p).frame.map fun f1 => ((f1.lane lane.val).ctu, (f1.lane lane.val).cleared)) = some (some i, true) ∧ t = { (s.pollTile tile) with tiles := t.tiles, bobs := t.bobs, clk := t.clk }) ∧
  (∀ (s : State) (tile : Fin 64) (lane : Fin 2) (p : Nat) (t0 : Tile) (f : Frame) (i : Nat) (l : List Nat),
      asleep s = false → frameOf (s.pollTile tile) tile = some (p, t0, f) → f.waiting lane.val = i :: l → (f.lane lane.val).ctu = none → f.waveOk i = true → 256 ≤ ((s.pollTile tile).bobDst (.ctu (ftile p) lane)).bobAvail (.ctu (ftile p) lane) →
      t0.treadle.stopped = true → f.cut.rate = none → does (.laneRequest tile lane) s fun t =>
      ((t.tile p).treadle.laneReq.any fun q => q.lane == lane) = true ∧ (t.tile p).frame = t0.frame ∧ t = { (s.pollTile tile) with tiles := t.tiles, bobs := t.bobs, clk := t.clk }) ∧
  (∀ (s : State) (tile : Fin 64) (lane : Fin 2) (p : Nat) (t0 : Tile) (f : Frame) (i : Nat) (c : FrameCtu),
      asleep s = false → frameOf (s.pollTile tile) tile = some (p, t0, f) → (f.lane lane.val).ctu = some i → look f.ctus i = some c → (f.lane lane.val).cleared = true → c.path = none → 256 ≤ ((s.pollTile tile).bobDst (.ctu (ftile p) lane)).bobAvail (.ctu (ftile p) lane) →
      f.waveOk i = true → f.draining = false → treadleCalm t0.treadle → ((((s.pollTile tile).bobDst (.ctu (ftile p) lane)).bob (.ctu (ftile p) lane)).items.take 256).all (fun q => !q.2) = true →
      does (.laneCtuStart tile lane .clean .clean) s fun t =>
      ((t.tile p).frame.map fun f1 => ((f1.lane lane.val).started, (f1.lane lane.val).items, (look f1.ctus i).any fun q => q.path.isSome)) =
      some (s.clk.now, (((s.pollTile tile).bobDst (.ctu (ftile p) lane)).bob (.ctu (ftile p) lane)).items.take 256 |>.map (·.1), true) ∧
      (t.bob (.ctu (ftile p) lane)).items = (((s.pollTile tile).bobDst (.ctu (ftile p) lane)).bob (.ctu (ftile p) lane)).items.drop 256 ∧ t = { (s.pollTile tile) with tiles := t.tiles, bobs := t.bobs, clk := t.clk, caches := t.caches }) ∧
  (∀ (s : State) (tile : Fin 64) (lane : Fin 2) (p : Nat) (t0 : Tile) (f : Frame) (i : Nat) (c : FrameCtu),
      asleep s = false → frameOf (s.pollTile tile) tile = some (p, t0, f) → (f.lane lane.val).ctu = some i → look f.ctus i = some c → (f.lane lane.val).cleared = true → c.path = none → 256 ≤ ((s.pollTile tile).bobDst (.ctu (ftile p) lane)).bobAvail (.ctu (ftile p) lane) →
      f.waveOk i = true → f.draining = false → treadleCalm t0.treadle → does (.laneCtuStart tile lane .clean .uncorrectable) s fun t =>
      ((t.tile p).frame.map fun f1 => (f1.lane lane.val).ctu) = some none ∧ (t.tile p).err.getLsbD 0 = true ∧ t.faults.valid = true ∧
      ((s.pollTile tile).faults.valid = false → t.faults.kind = 0x01 ∧ t.faults.master = bobSource s (.ctu (ftile p) lane))) ∧
  (∀ (s : State) (tile : Fin 64) (lane : Fin 2) (p : Nat) (t0 : Tile) (f : Frame) (b : Ecc) (x : BitVec 256) (g : Bool) (r : List (BitVec 256 × Bool)),
      asleep s = false → frameOf s tile = some (p, t0, f) → f.cut.hint = none → f.hints < f.size → treadleIdle t0.treadle → (s.bob (.hint (ftile p))).resetAt = none → (s.bob (.hint (ftile p))).held = [] → crossing s.clk.now (s.bob (.hint (ftile p))).wrLog = [] → (s.bob (.hint (ftile p))).rd < (s.bob (.hint (ftile p))).wr → (s.bob (.hint (ftile p))).items = (x, g) :: r → does (.laneCtuStart tile lane .uncorrectable b) s fun t =>
      ((t.tile p).frame.map fun f1 => f1.cut.hint) = some (some f.hints) ∧ (t.tile p).err.getLsbD 1 = true ∧ t.faults.valid = true) ∧
  (∀ (s : State) (tile : Fin 64) (lane : Fin 2) (p : Nat) (t0 : Tile) (f : Frame) (i : Nat) (c : FrameCtu) (k : CtuClass) (qp : Nat) (b : Bool),
      asleep s = false → frameOf (s.pollTile tile) tile = some (p, t0, f) → (f.lane lane.val).ctu = some i → look f.ctus i = some c → c.path = some (.lane k qp b) → (f.lane lane.val).started + ctuSlotNs ≤ s.clk.now → f.handOffHeld (outletOf (s.pollTile tile) p) lane.val i = false →
      f.draining = false → (f.lane lane.val).intra = true ∨ unusable (s.pollTile tile) f ((s.pollTile tile).enc f.stream) i c.hint = [] →
      treadleCalm t0.treadle → does (.laneCtuEnd tile lane none) s fun t =>
      ((t.tile p).frame.map fun f1 => ((f1.lane lane.val).ctu, f1.settledAt i)) = some (none, true) ∧ (t.tile p).laneCtus = t0.laneCtus + 1 ∧ t = { (s.pollTile tile) with tiles := t.tiles, bobs := t.bobs, totals := t.totals, clk := t.clk }) ∧
  (∀ (s : State) (tile : Fin 64) (p : Nat) (t0 : Tile) (f : Frame) (i : Nat) (c : FrameCtu),
      asleep s = false → frameOf (s.pollTile tile) tile = some (p, t0, f) → f.nextCtu t0 (outletOf (s.pollTile tile) p) f.rowsDone = some (i, c) →
      c.path = some .skip → treadleCalm t0.treadle → does (.skipRunCtu tile) s fun t =>
      ((t.tile p).frame.map fun f1 => (look f1.ctus i).any fun q => q.coded) = some true ∧ (t.tile p).skipCtus = t0.skipCtus + 1 ∧ t = { (s.pollTile tile) with tiles := t.tiles, bobs := t.bobs, totals := t.totals, clk := t.clk }) ∧
  (∀ (s : State) (tile : Fin 64) (p : Nat) (t0 : Tile) (f : Frame),
      asleep s = false → frameOf (s.pollTile tile) tile = some (p, t0, f) → f.rowsDone < f.rows → f.next f.rowsDone = f.cols → t0.treadle.stalled = [] → f.committed = true → t0.out.freshCount < (outletOf (s.pollTile tile) p).room → treadleCalm t0.treadle → does (.rowClose tile) s fun t =>
      ((t.tile p).frame.map fun f1 => f1.rowsDone) = some (f.rowsDone + 1) ∧ (f.rowsDone + 1 = f.rows → (t.tile p).out.nals.getLast?.all (fun x => x.closed) = true) ∧
      t = { (s.pollTile tile) with tiles := t.tiles, encs := t.encs, bobs := t.bobs, clk := t.clk }) ∧
  (∀ (s : State) (tile : Fin 64) (p : Nat) (t0 : Tile) (f : Frame) (i : BitVec 16) (c : FrameCtu),
      asleep s = false → frameOf (s.pollTile tile) tile = some (p, t0, f) → look f.ctus i.toNat = some c → c.final = false → f.atStake i.toNat = true → (f.square i.toNat).all f.settledAt = true → isLaneCoded c = true → treadleCalm t0.treadle → does (.ctuFinal tile i true) s fun t =>
      ((t.tile p).frame.map fun f1 => ((look f1.ctus i.toNat).any fun q => q.final, f1.reserved)) = some (true, f.reserved - 1) ∧ t.dict = (s.pollTile tile).dict ∧ t.encs = (s.pollTile tile).encs ∧ t.bobs = (s.pollTile tile).bobs ∧ t.store = (s.pollTile tile).store)

/-- On an awake device: FRAME_FINAL of a tile in service whose frame, after it has read its hint and frame Bobbins, is ready, its Treadle idle and unpatched and its stream not stopping, leaves the tile without a frame, counts the frame and the picture, ends the coding, advances POC and serial, makes its slot
the last coded one and stores its seal record with its slot and composed seal; the dictionary stays. FRAME_OPEN_TIMEOUT of a frame open for four slot periods or 100 ms, and BATTEN_SILENCE_TIMEOUT of one that awaits an item and has had none for 1 ms, of a
stream that is not stopping, abandon it: the tile has no frame, a flush of its output is requested, the coding ends, the POC advances, serial and block table stay, a first-error record is valid, the dictionary stays. FLUSH_APPLY
with a flush requested, no packet in progress, the tile's frame no longer that picture's, and Treadle idle or at no ROM entry, takes the first request and discards its picture's NAL units; only tiles, Bobbins, the packetizer's counters and the clock's free counter change. PACKET_FORM with nothing collected, in progress or to be flushed first and, at the head, a whole, closed last NAL unit of a picture of a
running stream that fits a packet and whose items the packetizer sees, read intact, forms a packet of it with the stream's next sequence number and the marker; only tiles, encode streams, totals, Bobbins and the clock's free counter change. PACKET_REPLICATE, Treadle idle or at no ROM entry, releases the tile's oldest packet, encode streams, dictionary and boot state unchanged.
SCHEDULER_DECISION at a free port node that selects a queue holding copies lets its oldest leave and counts it at queue and port node, encode streams and dictionary unchanged. -/
def Obligations.FramesEndOrAreCut : Prop :=
  (∀ (s : State) (tile : Fin 64) (p : Nat) (t0 : Tile) (f : Frame) (crc : Ecc),
      asleep s = false → frameOf (s.pollTile tile) tile = some (p, t0, f) → f.ready = true → treadleIdle t0.treadle → ((s.pollTile tile).enc f.stream).stopping = false → does (.frameFinal tile crc .clean) s fun t =>
      (t.tile p).frame = none ∧ (t.tile p).frames = t0.frames + 1 ∧ (t.enc f.stream).pictures = ((s.pollTile tile).enc f.stream).pictures + 1 ∧ (t.enc f.stream).coding = none ∧
      (t.enc f.stream).poc = ((s.pollTile tile).enc f.stream).poc + 1 ∧ (t.enc f.stream).serial = ((s.pollTile tile).enc f.stream).serial + 1 ∧ (t.enc f.stream).slotLast = f.slot ∧
      ((look (t.enc f.stream).seals (f.slot.toNat % 8)).map fun q => (q.frame, q.composed)) = some (f.slot, BitVec.ofNat 64 (f.sealVal.getD 0)) ∧ t.dict = (s.pollTile tile).dict) ∧
  (∀ (s : State) (tile : Fin 64) (p : Nat) (t0 : Tile) (f : Frame),
      asleep s = false → frameOf s tile = some (p, t0, f) → (s.enc f.stream).stopping = false → f.started + min (4 * (s.enc f.stream).grid.1 * 1000 / 27) 100000000 ≤ s.clk.now →
      does (.frameOpenTimeout tile) s fun t =>
      (t.tile p).frame = none ∧ (t.tile p).out.flush = t0.out.flush ++ [(f.stream, f.slot)] ∧ (t.enc f.stream).coding = none ∧ (t.enc f.stream).poc = (s.enc f.stream).poc + 1 ∧
      (t.enc f.stream).serial = (s.enc f.stream).serial ∧ (t.enc f.stream).table = (s.enc f.stream).table ∧ t.faults.valid = true ∧ t.dict = s.dict) ∧
  (∀ (s : State) (tile : Fin 64) (p : Nat) (t0 : Tile) (f : Frame),
      asleep s = false → frameOf (s.pollTile tile) tile = some (p, t0, f) → ((s.pollTile tile).enc f.stream).stopping = false → f.awaitsItem (s.pollTile tile) p = true → f.lastItem + 1000000 ≤ s.clk.now → does (.battenSilenceTimeout tile) s fun t =>
      (t.tile p).frame = none ∧ (t.tile p).out.flush = t0.out.flush ++ [(f.stream, f.slot)] ∧ (t.enc f.stream).coding = none ∧ (t.enc f.stream).poc = ((s.pollTile tile).enc f.stream).poc + 1 ∧
      (t.enc f.stream).serial = ((s.pollTile tile).enc f.stream).serial ∧ (t.enc f.stream).table = ((s.pollTile tile).enc f.stream).table ∧ t.faults.valid = true ∧ t.dict = (s.pollTile tile).dict) ∧
  (∀ (s : State) (tile : Fin 64) (n : Nat) (slot : Word) (r : List (Nat × Word)),
      asleep s = false → (s.tile (encPhys s tile)).out.flush = (n, slot) :: r → (s.tile (encPhys s tile)).out.packets = [] → ((s.tile (encPhys s tile)).frame.all fun f => f.stream != n || f.slot != slot) = true →
      treadleCalm (s.tile (encPhys s tile)).treadle → does (.flushApply tile) s fun t =>
      (t.tile (encPhys s tile)).out.flush = r ∧ ((t.tile (encPhys s tile)).out.nals.any fun x => x.stream == n && x.slot == slot) = false ∧
      t = { s with tiles := t.tiles, bobs := t.bobs, trans := t.trans, clk := t.clk }) ∧
  (∀ (s : State) (tile : Fin 64) (x : NalOut) (r : List NalOut),
      asleep s = false → (s.tile (encPhys s tile)).out.nals = x :: r → (s.tile (encPhys s tile)).out.collected = [] → (s.tile (encPhys s tile)).out.packets = [] → (s.tile (encPhys s tile)).out.flush.contains (x.stream, x.slot) = false →
      x.sent = 0 → x.taken = 0 → x.closed = true → x.last = true → x.tail = false → x.data.length ≤ x.fu + 3 → ∀ y ∈ x :: r, y.entered = y.whole ∧ y.taken = y.sent / 32 → x.entered ≤ (s.bobDst (.slice (ftile (encPhys s tile)))).bobAvail (.slice (ftile (encPhys s tile))) →
      (look s.encs x.stream).isSome = true → does (.packetForm tile .clean) s fun t =>
      ((t.tile (encPhys s tile)).out.packets.map fun k => (k.stream, k.seq, k.marker, k.payload)) = [(x.stream, (s.enc x.stream).rtpSeq, true, x.data)] ∧
      (t.tile (encPhys s tile)).out.nals = r ∧ (t.enc x.stream).rtpSeq = (s.enc x.stream).rtpSeq + 1 ∧ t = { s with tiles := t.tiles, encs := t.encs, totals := t.totals, bobs := t.bobs, clk := t.clk }) ∧
  (∀ (s : State) (tile : Fin 64) (bad : List Nat) (badM : List Nat) (g : Bool) (k : Packet) (r : List Packet),
      asleep s = false → (s.tile (encPhys s tile)).out.packets = k :: r → treadleCalm (s.tile (encPhys s tile)).treadle → does (.packetReplicate tile bad badM g) s fun t =>
      (t.tile (encPhys s tile)).out.packets = r ∧ t.encs = s.encs ∧ t.dict = s.dict ∧ t.boot = s.boot) ∧
  (∀ (s : State) (node : Fin 20) (q : Nat) (c : Copy) (r : List Copy),
      asleep s = false → portFree s node = true → ((pickPort s node.val).map fun p => p.queue) = some q → (s.queue q).copies = c :: r → does (.schedulerDecision node) s fun t =>
      (t.queue q).copies = r ∧ (t.queue q).sent = (s.queue q).sent + 1 ∧ (t.portNode node.val).sent = (s.portNode node.val).sent + 1 ∧ t.encs = s.encs ∧ t.dict = s.dict)

/-- For an issued master on an awake device: BLOCK_ALLOCATE with a block and a frame free and unreserved hands a block whose number no block in use has, with its next generation, count 1, the holder as owner and the mark of that holder (long-term for a context's long-term picture), in
HBM while HBM has a free frame, else in DDR5, every other descriptor as it was; with nothing unreserved it hands none and changes nothing else. BLOCK_NAME with the right generation raises the count, the mark becoming shared for a holder that is not the owner. BLOCK_RELEASE with the right
generation lowers a count above 1, and takes a count of 1 to 0 and the mark to unused unless the block is one of the two mid-grey ones. BLOCK_NAME with a wrong generation, and BLOCK_RELEASE with a wrong generation, at count 0, or of a mid-grey block at count 1, change no descriptor, are counted in
0x5031:0E and leave a first-error record valid, which holds kind 0x05, the master and the block number if it was free. -/
def Obligations.BlocksAreHanded : Prop :=
  (∀ (s : State) (m : Master) (h : Holder) (l : Bool),
      asleep s = false → unreserved s.pool ≠ 0 → freeFrames s.pool (freeFrames s.pool false == 0) ≠ 0 → masterOk m = true → does (.blockAllocate m h l) s fun t =>
      ∃ b, b ∉ usedBlocks s.pool ∧ t.out = s.out ++ [.block m (some (b, nextGen (s.pool.desc b).gen))] ∧
      (t.pool.desc b).gen = nextGen (s.pool.desc b).gen ∧ (t.pool.desc b).count = 1 ∧ (t.pool.desc b).owner = h ∧ (t.pool.desc b).mark = markFor h l ∧
      (t.pool.desc b).ddr = (freeFrames s.pool false == 0) ∧ (∀ c, c ≠ b → t.pool.desc c = s.pool.desc c) ∧ t = { s with pool := t.pool, clk := t.clk, out := t.out }) ∧
  (∀ (s : State) (m : Master) (h : Holder) (l : Bool),
      asleep s = false → unreserved s.pool = 0 → masterOk m = true → does (.blockAllocate m h l) s fun t =>
      t = { s with out := s.out ++ [.block m none] }) ∧
  (∀ (s : State) (m : Master) (b : BitVec 29) (g : BitVec 16) (h : Holder),
      asleep s = false → (s.pool.desc b.toNat).gen = g → masterOk m = true → does (.blockName m b g h) s fun t =>
      t.pool.desc b.toNat = { s.pool.desc b.toNat with count := (s.pool.desc b.toNat).count + 1, mark := if (s.pool.desc b.toNat).owner = h then (s.pool.desc b.toNat).mark else .shared } ∧ t = { s with pool := { s.pool with descs := t.pool.descs } }) ∧
  (∀ (s : State) (m : Master) (b : BitVec 29) (g : BitVec 16) (h : Holder),
      asleep s = false → (s.pool.desc b.toNat).gen ≠ g → masterOk m = true → does (.blockName m b g h) s fun t =>
      t.pool.descs = s.pool.descs ∧ lookD 0 t.pool.counters 0x0E = lookD 0 s.pool.counters 0x0E + 1 ∧ t.faults.valid = true ∧
      (s.faults.valid = false → t.faults.kind = 0x05 ∧ t.faults.master = m ∧ t.faults.addr = BitVec.ofNat 48 b.toNat) ∧ t.dict = s.dict ∧ t.encs = s.encs ∧ t.boot = s.boot) ∧
  (∀ (s : State) (m : Master) (b : BitVec 29) (g : BitVec 16),
      asleep s = false → (s.pool.desc b.toNat).gen = g → (s.pool.desc b.toNat).count = 1 → 2 ≤ b.toNat → masterOk m = true → does (.blockRelease m b g) s fun t =>
      (t.pool.desc b.toNat).count = 0 ∧ (t.pool.desc b.toNat).mark = .unused ∧ (t.pool.desc b.toNat).gen = g ∧ t = { s with pool := { s.pool with descs := t.pool.descs } }) ∧
  (∀ (s : State) (m : Master) (b : BitVec 29) (g : BitVec 16),
      asleep s = false → (s.pool.desc b.toNat).gen = g → 1 < (s.pool.desc b.toNat).count → masterOk m = true → does (.blockRelease m b g) s fun t =>
      t.pool.desc b.toNat = { s.pool.desc b.toNat with count := (s.pool.desc b.toNat).count - 1 } ∧ t = { s with pool := { s.pool with descs := t.pool.descs } }) ∧
  (∀ (s : State) (m : Master) (b : BitVec 29) (g : BitVec 16),
      asleep s = false → (s.pool.desc b.toNat).gen ≠ g ∨ (s.pool.desc b.toNat).count = 0 ∨ (b.toNat < 2 ∧ (s.pool.desc b.toNat).count = 1) →
      masterOk m = true → does (.blockRelease m b g) s fun t =>
      t.pool.descs = s.pool.descs ∧ lookD 0 t.pool.counters 0x0E = lookD 0 s.pool.counters 0x0E + 1 ∧ t.faults.valid = true ∧
      (s.faults.valid = false → t.faults.kind = 0x05 ∧ t.faults.master = m ∧ t.faults.addr = BitVec.ofNat 48 b.toNat) ∧ t.dict = s.dict ∧ t.encs = s.encs ∧ t.boot = s.boot)

/-- On an awake device: SURFACE_TABLE_COMMIT of a surface whose rewrite waits, with no older table standing and, where it has a table, frame jobs that pin it, takes the new table and size with the next generation, the table that was in use becoming the older one with its pins and its address, and ends the SURFACE_LOAD job whose table it is, nothing else changed but the free counter; while an older one stands it changes nothing.
SETTLE below the start level and the stop level, with one stream, which may be settled and has one block in HBM, and a free unreserved DDR5 frame, moves that block to DDR5 with its data and counts it; at the start level or above it changes nothing. PREFETCH of a stream with one context frame, which is in DDR5, within the prefetch lead of its next slot or with
`RESIDENCY` 1, and a free unreserved HBM frame, moves that frame to HBM and counts. BLOCK_MOVE of a block in use to the tier it is not in, which has a free unreserved frame, keeps all of its descriptor but frame and tier, and `POISONED` where a word could not be corrected, and lets its old frame
cool for 10 µs; a corrected word is counted. MOVED_FRAME_FREE returns the frames whose 10 µs are over. POOL_AUDIT with its accepted write records the time and the blocks that no holder names; POOL_AUDIT_PASS 1 s or later frees those that no holder names in either pass, keeps every other descriptor,
and ends the audit; earlier it changes nothing. What none of these names stays. -/
def Obligations.PoolEngines : Prop :=
  (∀ (s : State) (h : BitVec 24) (w : Nat) (ht : Nat) (d10 : Bool) (sl : List Slot),
      asleep s = false → (s.surface h.toNat).waiting = some (w, ht, d10, sl) → (s.surface h.toNat).prev = none → (s.surface h.toNat).table = [] ∨ (s.surface h.toNat).pins ≠ 0 →
      does (.surfaceTableCommit h) s fun t =>
      t.surface h.toNat = { s.surface h.toNat with width := w, height := ht, depth10 := d10, state := .ready, table := sl, gen := (s.surface h.toNat).gen + 1, waiting := none, prev := if (s.surface h.toNat).table.isEmpty then none else some (s.surface h.toNat).table, prevPins := (s.surface h.toNat).pins, pins := 0, tableAt := (t.surface h.toNat).tableAt, prevAt := (s.surface h.toNat).tableAt } ∧
      t = { s with rings := (s.endLoad h.toNat sl.length).rings, pool := { s.pool with surfaces := t.pool.surfaces }, clk := { s.clk with free := t.clk.free } }) ∧
  (∀ (s : State) (h : BitVec 24),
      asleep s = false → (s.surface h.toNat).prev.isSome = true → does (.surfaceTableCommit h) s fun t =>
      t = s) ∧
  (∀ (s : State) (n : Nat) (e : Enc) (b : Nat),
      asleep s = false → s.encs = [(n, e)] → maySettle s n e = true → settleBlocks s n e = [b] → 100 * freeFrames s.pool false < s.pool.hbmFrames * par s 0x5030 1 →
      100 * (freeFrames s.pool false + (s.pool.cooling.filter fun c => c.1 == false).length) < s.pool.hbmFrames * par s 0x5030 2 →
      (s.pool.desc b).count ≠ 0 → (s.pool.desc b).ddr = false → freeFrames s.pool true ≠ 0 → unreserved s.pool ≠ 0 → does (.settle) s fun t =>
      (t.pool.desc b).ddr = true ∧ (t.pool.desc b).data = (s.pool.desc b).data ∧ lookD 0 t.pool.counters 6 = lookD 0 s.pool.counters 6 + 1 ∧ t = { s with pool := t.pool, clk := t.clk }) ∧
  (∀ (s : State),
      asleep s = false → s.pool.hbmFrames * par s 0x5030 1 ≤ 100 * freeFrames s.pool false →
      does (.settle) s fun t =>
      t = s) ∧
  (∀ (s : State) (n : BitVec 16) (e : Enc) (f : Slot),
      asleep s = false → look s.encs n.toNat = some e → e.frames = [f] → nextTick e ≤ ptpTicks s + leadTicks s ∨ fld s 0x8001 n.toNat 0x14 = 1 →
      (s.pool.desc f.block).count ≠ 0 → (s.pool.desc f.block).ddr = true → freeFrames s.pool false ≠ 0 → unreserved s.pool ≠ 0 → does (.prefetch n) s fun t =>
      (t.pool.desc f.block).ddr = false ∧ lookD 0 t.pool.counters 7 = lookD 0 s.pool.counters 7 + 1 ∧ t = { s with pool := t.pool, clk := t.clk }) ∧
  (∀ (s : State) (b : BitVec 29) (up : Bool) (e : Ecc),
      asleep s = false → (s.pool.desc b.toNat).count ≠ 0 → (s.pool.desc b.toNat).ddr ≠ up → freeFrames s.pool up ≠ 0 → unreserved s.pool ≠ 0 → e ≠ .corrected → does (.blockMove b up e) s fun t =>
      t.pool.desc b.toNat = { s.pool.desc b.toNat with frame := (t.pool.desc b.toNat).frame, ddr := up, poisoned := (s.pool.desc b.toNat).poisoned || (e == .uncorrectable) } ∧
      t.pool.cooling = s.pool.cooling ++ [((s.pool.desc b.toNat).ddr, (s.pool.desc b.toNat).frame, s.clk.now + 10000)] ∧ t = { s with pool := t.pool, clk := t.clk, mem := t.mem } ∧ (e = Ecc.clean → t.mem = s.mem)) ∧
  (∀ (s : State) (b : BitVec 29) (up : Bool),
      asleep s = false → (s.pool.desc b.toNat).count ≠ 0 → (s.pool.desc b.toNat).ddr ≠ up → freeFrames s.pool up ≠ 0 → unreserved s.pool ≠ 0 → does (.blockMove b up .corrected) s fun t =>
      (t.pool.desc b.toNat).ddr = up ∧ (t.pool.desc b.toNat).poisoned = (s.pool.desc b.toNat).poisoned ∧ t.faults.corrected = sat32 s.faults.corrected ∧ t.encs = s.encs ∧ t.dict = s.dict) ∧
  (∀ (s : State),
      asleep s = false → does (.movedFrameFree) s fun t =>
      t = { s with pool := { s.pool with cooling := s.pool.cooling.filter fun c => decide (s.clk.now < c.2.2) } }) ∧
  (∀ (s : State) (x : Act) (r : List Act),
      asleep s = false → takeFirst (fun a : Act => a.idx.toNat == 0x5030 && a.sub.toNat == 5) s.dict.acts = some (x, r) →
      does (.poolAudit) s fun t =>
      t = { s with dict := { s.dict with acts := r }, pool := { s.pool with audit := some (s.clk.now, orphans s) } }) ∧
  (∀ (s : State) (t0 : Nat) (l : List Nat),
      asleep s = false → s.pool.audit = some (t0, l) → t0 + 1000000000 ≤ s.clk.now → does (.poolAuditPass) s fun t =>
      t.pool.audit = none ∧ (∀ b, b ∈ orphans s → b ∈ l → (t.pool.desc b).count = 0 ∧ (t.pool.desc b).gen = (s.pool.desc b).gen) ∧
      (∀ b, ¬ (b ∈ orphans s ∧ b ∈ l) → t.pool.desc b = s.pool.desc b) ∧ t = { s with pool := t.pool }) ∧
  (∀ (s : State) (t0 : Nat) (l : List Nat),
      asleep s = false → s.pool.audit = some (t0, l) → s.clk.now < t0 + 1000000000 → does (.poolAuditPass) s fun t =>
      t = s)

/-- On an awake, serving device, for a valid AVC context that receives: DECODE_PACKET takes the oldest datagram delivered to it. One of the locked source, no fixed source configured, version 2, any payload type accepted, without marker, its body one whole NAL unit, at the next position, with nothing held beyond a gap, in the open access unit that is not dropped and has no open
fragment, the ring having room, appends the NAL unit, advances the position and the ring, notes the time and counts it in 0x38; nothing but decode contexts and memory changes. One whose items are tagged is discarded, counted in 0x39 and changes nothing else. On an awake device: REORDER_TIMEOUT with one packet held beyond a gap, the reorder time in force after it, moves on past it, nothing held, leaving
the held pictures, pool, dictionary and boot state. SSRC_RELOCK of a valid context that receives, without a fixed source, locked and silent for 1 s, gives up the source, discards the open access unit and the position and makes it unsynchronised, its queue, pool and dictionary kept. -/
def Obligations.DecodePacketsEnterInOrder : Prop :=
  (∀ (s : State) (ctx : BitVec 12) (payload : Bytes) (l : List Bytes) (body : Bytes) (q : Nat),
      asleep s = false → (s.dec ctx.toNat).inbox = payload :: l → (s.dec ctx.toNat).live = true → serves s = true → decValid s ctx.toNat = true → fld s 0x8003 ctx.toNat 2 = 2 → fld s 0x8003 ctx.toNat 7 = 0 → rtpPayload payload = some body → u8 payload 0 / 64 = 2 → (rxFor s ctx.toNat (BitVec.ofNat 32 (be32 payload 4))).pt = 0xFF →
      u8 payload 1 / 128 = 0 → (s.dec ctx.toNat).ssrc = some (BitVec.ofNat 32 (be32 payload 8)) →
      (s.dec ctx.toNat).seqNext = some q → q % 65536 = be16 payload 2 → (s.dec ctx.toNat).beyond = [] → (s.dec ctx.toNat).auRtp = some (BitVec.ofNat 32 (be32 payload 4)) →
      (s.dec ctx.toNat).auDrop = false → (s.dec ctx.toNat).frag = none → 2 ≤ body.length → 1 ≤ u8 body 0 % 32 → u8 body 0 % 32 ≤ 23 → ringHeld (s.dec ctx.toNat) + body.length ≤ (s.dec ctx.toNat).ringSize →
      does (.decodePacket ctx false) s fun t =>
      t.dec ctx.toNat = { s.dec ctx.toNat with
      inbox := l, auNals := (s.dec ctx.toNat).auNals ++ [body], seqNext := some (q + 1), lastPkt := s.clk.now, fragLost := false
      ringIn := (s.dec ctx.toNat).ringIn + body.length, counters := (t.dec ctx.toNat).counters } ∧
      lookD 0 (t.dec ctx.toNat).counters 0x38 = lookD 0 (s.dec ctx.toNat).counters 0x38 + 1 ∧ t = { s with decs := t.decs, mem := t.mem }) ∧
  (∀ (s : State) (ctx : BitVec 12) (payload : Bytes) (l : List Bytes),
      asleep s = false → (s.dec ctx.toNat).inbox = payload :: l → (s.dec ctx.toNat).live = true → serves s = true → decValid s ctx.toNat = true → fld s 0x8003 ctx.toNat 2 = 2 → (rtpPayload payload).isSome = true → does (.decodePacket ctx true) s fun t =>
      t.dec ctx.toNat = { s.dec ctx.toNat with inbox := l, counters := bumpW (s.dec ctx.toNat).counters 0x39 } ∧ t = { s with decs := t.decs }) ∧
  (∀ (s : State) (ctx : BitVec 12) (k : HeldPkt),
      asleep s = false → (s.dec ctx.toNat).beyond = [k] → (s.dec ctx.toNat).seqNext.isSome = true → k.at_ + 1000 * (if (s.dec ctx.toNat).auRtp.isSome then (s.dec ctx.toNat).rx else rxRow s ctx.toNat).reorder ≤ s.clk.now →
      does (.reorderTimeout ctx) s fun t =>
      (t.dec ctx.toNat).seqNext = some (k.seq + 1) ∧ (t.dec ctx.toNat).beyond = [] ∧ (t.dec ctx.toNat).dpb = (s.dec ctx.toNat).dpb ∧ t.pool = s.pool ∧ t.dict = s.dict ∧ t.boot = s.boot) ∧
  (∀ (s : State) (ctx : BitVec 12),
      asleep s = false → decValid s ctx.toNat = true → (s.dec ctx.toNat).live = true → fld s 0x8003 ctx.toNat 7 = 0 → (s.dec ctx.toNat).ssrc.isSome = true → (s.dec ctx.toNat).lastPkt + 1000000000 ≤ s.clk.now → does (.ssrcRelock ctx) s fun t =>
      (t.dec ctx.toNat).ssrc = none ∧ (t.dec ctx.toNat).state = .unsync ∧ (t.dec ctx.toNat).seqNext = none ∧ (t.dec ctx.toNat).auNals = [] ∧ (t.dec ctx.toNat).queue = (s.dec ctx.toNat).queue ∧ t.pool = s.pool ∧ t.dict = s.dict)

/-- On an awake device: DECODE_TAKE of an idle, powered tile in service of its cluster, with one decode context, an access unit queued and none in decoding, takes the oldest; with the blocks of its size and the frames of its picture table free it reserves the blocks, makes the tile decode for that context, the output surface being the row's and the POC the bitstream's (0 for
ST 2110-20), and changes nothing but contexts, tiles, pool and the free counter; without them the picture is lost, counted in 0x3C, tiles and pool unchanged. DECODE_PICTURE_END of a video picture in decoding, with one decode context, which receives, and the tile's surface-write Bobbins open and empty, ends it: a supported intra random access picture within the tables, that names no
picture and has no uncovered CTU, nothing to output, into an empty buffer, is held unmarked, the context decodes, the tile is idle and counts it, the reservation is returned, 0x33 is counted, parameters and boot state stay; an unsupported picture of no new sequence and without table frames is discarded and the context is unsupported, the tile idle, the reservation returned, buffer and descriptors unchanged. With one of
those Bobbins not open and empty the tile is finishing its writes and only decode tiles, Bobbins and clock change. ST2110_FRAME of an ST 2110-20 frame in decoding under the same conditions makes it the last output and the flow's previous frame, the tile is idle and counts it, 0x33 is counted, parameters and boot state stay. TIMED_OUTPUT_COMMIT of the one picture waiting of a context that
receives and does not recover, its instant come, not cropped, without blocks, to an existing surface without table or rewrite, makes the surface ready with its width and the next generation and counts it in 0x34, contexts, pool and the free counter alone changed. -/
def Obligations.DecodeTilesAndOutput : Prop :=
  (∀ (s : State) (tile : Fin 32) (w : BitVec 16) (h : BitVec 16) (poc : BitVec 32) (c : Nat) (e : Dec) (au : AccessUnit) (r : List AccessUnit) (n : Nat),
      asleep s = false → decPhys s tile ≠ 0xFF → (s.dtile (decPhys s tile)).state = 0 → (s.dtile (decPhys s tile)).powered = true → s.decs = [(c, e)] → c % 8 = tile.val / 4 → e.queue = au :: r → e.decoding = none → n = (if au.codec = 3 then ctuCols e.rx.width * ctuCols e.rx.height else ctuCols w.toNat * ctuCols h.toNat) →
      n + tableFrames n ≤ unreserved s.pool → does (.decodeTake tile w h poc) s fun t =>
      (t.dec c).queue = r ∧ ((t.dec c).decoding.map fun g => (g.tile, g.au, g.reserved, g.surface, g.poc)) = some (decPhys s tile, au, n, fld s 0x8003 c 0xD, if au.codec = 3 then 0 else poc) ∧
      (t.dtile (decPhys s tile)).state = 2 ∧ (t.dtile (decPhys s tile)).ctx = BitVec.ofNat 12 c ∧ t.pool.reserved = s.pool.reserved + n ∧
      t = { s with decs := t.decs, dtiles := t.dtiles, pool := t.pool, clk := t.clk }) ∧
  (∀ (s : State) (tile : Fin 32) (w : BitVec 16) (h : BitVec 16) (poc : BitVec 32) (c : Nat) (e : Dec) (au : AccessUnit) (r : List AccessUnit) (n : Nat),
      asleep s = false → decPhys s tile ≠ 0xFF → (s.dtile (decPhys s tile)).state = 0 → (s.dtile (decPhys s tile)).powered = true → s.decs = [(c, e)] → c % 8 = tile.val / 4 → e.queue = au :: r → e.decoding = none → n = (if au.codec = 3 then ctuCols e.rx.width * ctuCols e.rx.height else ctuCols w.toNat * ctuCols h.toNat) →
      unreserved s.pool < n + tableFrames n → does (.decodeTake tile w h poc) s fun t =>
      (t.dec c).queue = r ∧ (t.dec c).decoding = none ∧ lookD 0 (t.dec c).counters 0x3C = lookD 0 e.counters 0x3C + 1 ∧ t.dtiles = s.dtiles ∧ t.pool = s.pool) ∧
  (∀ (s : State) (tile : Fin 32) (f : PicFound) (c : Nat) (e : Dec) (g : Decoding),
      asleep s = false → s.decs = [(c, e)] → e.decoding = some g → g.tile = (decPhys s tile) → e.live = true → (s.surfaceClear (decPhys s tile)).surfaceOpen (decPhys s tile) = true →
      g.au.codec ≠ 3 → f.supported = true → f.tooLarge = false → f.start = .irap → f.newCvs = false → f.named = [] ∧ f.uncovered = [] → f.drop = [] ∧ f.outputs = [] → f.isRef = true → f.missingTop = none → withinTable g.au.codec f.info = true → e.dpb = [] → does (.decodePictureEnd tile f .clean) s fun t =>
      (t.dec c).decoding = none ∧ (t.dec c).state = .decoding ∧ ((t.dec c).dpb.map fun p => (p.poc, p.marks)) = [(g.poc, [])] ∧ (t.dec c).info = f.info &&& 0x1FFFFF ∧
      (t.dtile (decPhys s tile)).state = 0 ∧ (t.dtile (decPhys s tile)).pictures = (s.dtile (decPhys s tile)).pictures + 1 ∧ t.pool.reserved = s.pool.reserved - g.reserved ∧
      lookD 0 (t.dec c).counters 0x33 = lookD 0 e.counters 0x33 + 1 ∧ t.dict.params = s.dict.params ∧ t.boot = s.boot) ∧
  (∀ (s : State) (tile : Fin 32) (f : PicFound) (c : Nat) (e : Dec) (g : Decoding),
      asleep s = false → s.decs = [(c, e)] → e.decoding = some g → g.tile = (decPhys s tile) → e.live = true → (s.surfaceClear (decPhys s tile)).surfaceOpen (decPhys s tile) = true →
      g.au.codec ≠ 3 → f.supported = false → f.newCvs = false → g.frames = [] → does (.decodePictureEnd tile f .clean) s fun t =>
      (t.dec c).decoding = none ∧ (t.dec c).state = .unsupported ∧ (t.dec c).dpb = e.dpb ∧ (t.dtile (decPhys s tile)).state = 0 ∧ t.pool.reserved = s.pool.reserved - g.reserved ∧ t.pool.descs = s.pool.descs) ∧
  (∀ (s : State) (tile : Fin 32) (f : PicFound) (c : Nat) (e : Dec) (g : Decoding) (i : Ecc),
      asleep s = false → s.decs = [(c, e)] → e.decoding = some g → g.tile = (decPhys s tile) → e.live = true → (s.surfaceClear (decPhys s tile)).surfaceOpen (decPhys s tile) = false →
      g.au.codec ≠ 3 → does (.decodePictureEnd tile f i) s fun t =>
      (t.dtile (decPhys s tile)).state = 3 ∧ t = { s with dtiles := t.dtiles, bobs := t.bobs, clk := t.clk }) ∧
  (∀ (s : State) (ctx : BitVec 12) (x : Timed),
      asleep s = false → (s.dec ctx.toNat).toCommit = [x] → (s.dec ctx.toNat).live = true → (s.dec ctx.toNat).state ≠ .recovering → x.due ≤ s.time.ptp → x.surf < s.pool.handles → x.pic.blocks = [] → x.pic.cropL = 0 → x.pic.cropT = 0 → (s.surface x.surf).waiting = none → (s.surface x.surf).prev = none → (s.surface x.surf).table = [] → does (.timedOutputCommit ctx) s fun t =>
      (t.dec ctx.toNat).toCommit = [] ∧ (t.surface x.surf).state = .ready ∧ (t.surface x.surf).width = x.pic.outW ∧ (t.surface x.surf).gen = (s.surface x.surf).gen + 1 ∧ lookD 0 (t.dec ctx.toNat).counters 0x34 = lookD 0 (s.dec ctx.toNat).counters 0x34 + 1 ∧ t = { s with decs := t.decs, pool := t.pool, clk := t.clk }) ∧
  (∀ (s : State) (tile : Fin 32) (i : Ecc) (c : Nat) (e : Dec) (g : Decoding),
      asleep s = false → s.decs = [(c, e)] → e.decoding = some g → g.tile = (decPhys s tile) → e.live = true → (s.surfaceClear (decPhys s tile)).surfaceOpen (decPhys s tile) = true →
      g.au.codec = 3 → does (.st2110Frame tile i) s fun t =>
      (t.dec c).decoding = none ∧ (t.dec c).lastOut.isSome = true ∧ (t.dec c).stPrev.isSome = true ∧ lookD 0 (t.dec c).counters 0x33 = lookD 0 (s.dec c).counters 0x33 + 1 ∧
      (t.dtile (decPhys s tile)).state = 0 ∧ (t.dtile (decPhys s tile)).pictures = (s.dtile (decPhys s tile)).pictures + 1 ∧ t.dict.params = s.dict.params ∧ t.boot = s.boot)

/-- On an awake device, for any encode tile: MICROWORD_EXECUTE of a running Treadle below its safe-point limit, at a patch-RAM address whose microword only continues, goes on to the next address and changes nothing else but the free counter; at one that waits on the empty event queue, or at the entry of the ROM's idle loop that no match register redirects with that queue empty, it waits there, at a safe point with its timer 0;
at an address beyond the stores, with no frame, it stops with fault code 1 at that address as the first and leaves a first-error record valid. TREADLE_INTERRUPT of a running, unmasked Treadle at a safe point with a pending source and room on its stack pushes the next address and goes to 0x10, masked, its sources kept. TREADLE_EVENT puts an event into a queue below 64 with nothing stalled, and holds it with a
full one. TREADLE_FAULT of a running Treadle with a code other than 0, and SAFE_POINT_TIMEOUT with the timer at 4,096 (code 5), stop it with that code as the first, count it, end a frame whose lanes are drained, and leave a first-error record valid, which holds kind 0x08 and the address if it was free. TREADLE_RESTART of a stopped one starts at address 0
with stack and registers empty. PATCH_APPLY of a pending patch on a tile without a frame, not in Newt mode, applies the stored image, or removes the patch when there is none. -/
def Obligations.TreadleRuns : Prop :=
  (∀ (s : State) (tile : Fin 72) (a : Nat),
      asleep s = false → (s.tile tile).treadle.stopped = false → (s.tile tile).treadle.safeTimer < 4096 → (s.tile tile).treadle.upc.toNat = 0x4000 + a → a < 1023 → lookD 0 (s.tile tile).treadle.patchRam a = 0xF0000000 → lookD 0 (s.tile tile).treadle.nanoPatch 0 = 0 → does (.microwordExecute tile) s fun t =>
      (t.tile tile).treadle.upc = (s.tile tile).treadle.upc + 1 ∧ (t.tile tile).frame = (s.tile tile).frame ∧ t = { s with tiles := t.tiles, clk := t.clk }) ∧
  (∀ (s : State) (tile : Fin 72) (a : Nat),
      asleep s = false → (s.tile tile).treadle.stopped = false → (s.tile tile).treadle.safeTimer < 4096 → (s.tile tile).treadle.upc.toNat = 0x4000 + a → a < 1024 → lookD 0 (s.tile tile).treadle.patchRam a = 0xF0038000 → lookD 0 (s.tile tile).treadle.nanoPatch 0 = 0x2000000000 → (s.tile tile).treadle.events = [] → does (.microwordExecute tile) s fun t =>
      (t.tile tile).treadle = { (s.tile tile).treadle with waiting := true, atSafe := true, safeTimer := 0 } ∧ t = { s with tiles := t.tiles }) ∧
  (∀ (s : State) (tile : Fin 72),
      asleep s = false → (s.tile tile).treadle.atRom = true → (s.tile tile).treadle.safeTimer < 4096 → (s.tile tile).treadle.upc = 0x40 → (s.tile tile).treadle.events = [] → does (.microwordExecute tile) s fun t =>
      (t.tile tile).treadle = { (s.tile tile).treadle with waiting := true, atSafe := true, safeTimer := 0 } ∧ t = { s with tiles := t.tiles }) ∧
  (∀ (s : State) (tile : Fin 72),
      asleep s = false → (s.tile tile).treadle.stopped = false → (s.tile tile).treadle.safeTimer < 4096 → 0x4400 ≤ (s.tile tile).treadle.upc.toNat → (s.tile tile).frame = none → does (.microwordExecute tile) s fun t =>
      (t.tile tile).treadle.stopped = true ∧ (t.tile tile).treadle.fault = true ∧ ((s.tile tile).treadle.fault = false → (t.tile tile).treadle.code = 1 ∧ (t.tile tile).treadle.faultAddr = (s.tile tile).treadle.upc) ∧ t.faults.valid = true) ∧
  (∀ (s : State) (tile : Fin 72),
      asleep s = false → (s.tile tile).treadle.stopped = false → (s.tile tile).treadle.masked = false → (s.tile tile).treadle.atSafe = true → (s.tile tile).treadle.cutReport.isSome = true ∨ (s.tile tile).treadle.abandon = true ∨ (s.tile tile).treadle.laneReq ≠ [] →
      (s.tile tile).treadle.stack.length ≠ 8 → does (.treadleInterrupt tile) s fun t =>
      (t.tile tile).treadle = { (s.tile tile).treadle with stack := (s.tile tile).treadle.upc :: (s.tile tile).treadle.stack, upc := 0x10, masked := true, waiting := false, atSafe := false } ∧ t = { s with tiles := t.tiles }) ∧
  (∀ (s : State) (tile : Fin 72) (ev : Word),
      asleep s = false → (s.tile tile).treadle.events.length < 64 → (s.tile tile).treadle.stalled = [] → does (.treadleEvent tile ev) s fun t =>
      (t.tile tile).treadle = { (s.tile tile).treadle with events := (s.tile tile).treadle.events ++ [ev] } ∧ t = { s with tiles := t.tiles }) ∧
  (∀ (s : State) (tile : Fin 72) (ev : Word),
      asleep s = false → 64 ≤ (s.tile tile).treadle.events.length → does (.treadleEvent tile ev) s fun t =>
      (t.tile tile).treadle = { (s.tile tile).treadle with stalled := (s.tile tile).treadle.stalled ++ [ev] } ∧ t = { s with tiles := t.tiles }) ∧
  (∀ (s : State) (tile : Fin 72) (c : BitVec 3),
      asleep s = false → c ≠ 0 → (s.tile tile).treadle.stopped = false → does (.treadleFault tile c) s fun t =>
      (t.tile tile).treadle.stopped = true ∧ (t.tile tile).treadle.fault = true ∧ (t.tile tile).treadle.faults = (s.tile tile).treadle.faults + 1 ∧ ((s.tile tile).treadle.fault = false → (t.tile tile).treadle.code = c) ∧
      ((s.tile tile).frame = none → t.encs = s.encs) ∧ (∀ f ∈ (s.tile tile).frame, f.drained = true → (t.tile tile).frame = none) ∧ t.faults.valid = true ∧ (s.faults.valid = false → t.faults.kind = 0x08 ∧ t.faults.addr = BitVec.ofNat 48 (s.tile tile).treadle.upc.toNat)) ∧
  (∀ (s : State) (tile : Fin 72),
      asleep s = false → 4096 ≤ (s.tile tile).treadle.safeTimer → (s.tile tile).treadle.stopped = false → does (.safePointTimeout tile) s fun t =>
      (t.tile tile).treadle.stopped = true ∧ (t.tile tile).treadle.fault = true ∧ (t.tile tile).treadle.faults = (s.tile tile).treadle.faults + 1 ∧ ((s.tile tile).treadle.fault = false → (t.tile tile).treadle.code = 5) ∧
      ((s.tile tile).frame = none → t.encs = s.encs) ∧ (∀ f ∈ (s.tile tile).frame, f.drained = true → (t.tile tile).frame = none) ∧ t.faults.valid = true ∧ (s.faults.valid = false → t.faults.kind = 0x08 ∧ t.faults.addr = BitVec.ofNat 48 (s.tile tile).treadle.upc.toNat)) ∧
  (∀ (s : State) (tile : Fin 72),
      asleep s = false → (s.tile tile).treadle.stopped = true → does (.treadleRestart tile) s fun t =>
      (t.tile tile).treadle = { (s.tile tile).treadle with stopped := false, upc := 0, stack := [], w := [], masked := false, waiting := false, safeTimer := 0, atSafe := false } ∧ t = { s with tiles := t.tiles }) ∧
  (∀ (s : State) (tile : Fin 72),
      asleep s = false → (s.tile tile).treadle.patch = 3 → (s.tile tile).frame = none → s.boot.newt = false → parBytes s 0x5F00 0 = [] → does (.patchApply tile) s fun t =>
      (t.tile tile).treadle = { (s.tile tile).treadle with match_ := [], patchRam := [], nanoPatch := [], level := 0, patch := 0, live := false, owed := false } ∧ t = { s with tiles := t.tiles }) ∧
  (∀ (s : State) (tile : Fin 72),
      asleep s = false → (s.tile tile).treadle.patch = 3 → (s.tile tile).frame = none → s.boot.newt = false → parBytes s 0x5F00 0 ≠ [] → does (.patchApply tile) s fun t =>
      (t.tile tile).treadle.patch = 1 ∧ (t.tile tile).treadle.level.toNat = u8 (parBytes s 0x5F00 0) 0xE ∧ (t.tile tile).treadle.match_.length = u8 (parBytes s 0x5F00 0) 0xF ∧ t = { s with tiles := t.tiles })

/-- On an awake, serving device whose Selvedge runs, for a frame of at most 16 KiB on an existing port with its link up: PACKET_RECEIVE puts the frame, with the words that its parser reads, last among those whose words wait, and changes nothing else; of an event message with time running it captures a timestamp besides, which waits under the port. In a cycle in which a pipeline with fewer
than 128 packets takes the last word of the only such frame (`serveWord`): one without a parsing problem goes last into the pipeline with the next number and the port's next sequence number, and is counted; a first pass, where no older packet waits for an engine and one has a slot, enters that engine with the active rule set's generation, which holds one more; one
whose IP lengths contradict the frame, or whose header checksum fails, is dropped and counted, the pipeline as before, where reason 3 is not reported; nothing outside Selvedge changes. On an awake device: CLASSIFY of a packet in an engine, tree words and table entries intact, which no rule matches, ends with the fixed classes' verdict, nothing outside Selvedge
changed; with an uncorrectable tree word it ends in the exception queue with reason 7, and a first-error record is valid, of kind 0x01 and the ingress group's master if it was free, the parameters kept. REORDER_RELEASE of the oldest packet of a port, dropped by a rule and not copied, removes it without learning; a bridged first pass, not copied, in a member VLAN, with one
destination port of the VLAN, not its own, that has room, a link and buffers, puts its egress frame last into that port's queue. LENGTH_STOMP of a frame that has ended, a packet of it still in the pipeline and no copy of it waiting, removes that packet and counts it, where reason 3 is not reported. -/
def Obligations.PacketsThroughSelvedge : Prop :=
  (∀ (s : State) (port : Fin 16) (data : Bytes),
      asleep s = false → data.length ≤ 16384 → s.boot.selvedge = true → linkUp s port = true → portActive s port = true → frontServes s = true → s.boot.timeUp = false ∨ isEventMessage { id := 0, port := port.val, seq := 0, data := data, parsed := parseFrame data, gen := 0 } = false →
      does (.packetReceive port data) s fun t =>
      t = { s with selv := { s.selv with arrivals := s.selv.arrivals ++ [({ id := 0, port := port.val, seq := 0, data := data, parsed := parseFrame data, gen := 0 }, parseWords data)] } }) ∧
  (∀ (s : State) (port : Fin 16) (data : Bytes),
      asleep s = false → data.length ≤ 16384 → s.boot.selvedge = true → linkUp s port = true → portActive s port = true → frontServes s = true → s.boot.timeUp = true → isEventMessage { id := 0, port := port.val, seq := 0, data := data, parsed := parseFrame data, gen := 0 } = true →
      does (.packetReceive port data) s fun t =>
      t.selv = { s.selv with arrivals := s.selv.arrivals ++ [({ id := 0, port := port.val, seq := 0, data := data, parsed := parseFrame data, gen := 0 }, parseWords data)] } ∧
      t.time.arrived = s.time.arrived ++ [(port.val, lookD 0 t.time.caps port.val)] ∧ t = { s with selv := t.selv, time := t.time, clk := t.clk }) ∧
  (∀ (s : State) (k : Pkt),
      s.selv.arrivals = [(k, 1)] → s.selv.buffered (k.port / 4) < 128 → k.port < 16 → (parseFrame k.data).problem = 0 → (((s.serveWord (k.port / 4)).selv.pipeline.getLast?).map fun x => (x.id, x.port, x.seq, x.data, x.parsed)) = some (s.selv.nextId, k.port, lookD 0 s.selv.nextSeq k.port, k.data, parseFrame k.data) ∧
      (s.serveWord (k.port / 4)).selv.arrivals = [] ∧ (s.serveWord (k.port / 4)).selv.pipeline.length = s.selv.pipeline.length + 1 ∧ lookD 0 (s.serveWord (k.port / 4)).selv.nextSeq k.port = lookD 0 s.selv.nextSeq k.port + 1 ∧
      lookD 0 (s.serveWord (k.port / 4)).selv.counters 1 = lookD 0 s.selv.counters 1 + 1 ∧ (s.serveWord (k.port / 4)) = { s with selv := (s.serveWord (k.port / 4)).selv }) ∧
  (∀ (s : State) (k : Pkt),
      s.selv.arrivals = [(k, 1)] → s.selv.buffered (k.port / 4) < 128 → k.port < 16 → (parseFrame k.data).problem = 0 → k.pass2 = none → (s.selv.pipeline.all fun x => (x.verdict.isSome || x.engine.isSome) && x.id != s.selv.nextId) = true →
      s.selv.engineFor.isSome = true → k.verdict = none → k.engine = none → (((s.serveWord (k.port / 4)).selv.pipeline.getLast?).map fun x => (x.id, x.engine, x.gen)) = some (s.selv.nextId, s.selv.engineFor, s.selv.active.num) ∧ (s.serveWord (k.port / 4)).selv.active.held = s.selv.active.held + 1) ∧
  (∀ (s : State) (k : Pkt),
      s.selv.arrivals = [(k, 1)] → s.selv.buffered (k.port / 4) < 128 → k.port < 16 → (parseFrame k.data).problem = 3 ∨ (parseFrame k.data).problem = 4 →
      parB s 0x3010 6 = false → (s.serveWord (k.port / 4)).selv.pipeline = s.selv.pipeline ∧ lookD 0 (s.serveWord (k.port / 4)).selv.counters (if (parseFrame k.data).problem = 4 then 6 else 4) = lookD 0 s.selv.counters (if (parseFrame k.data).problem = 4 then 6 else 4) + 1 ∧
      (s.serveWord (k.port / 4)) = { s with selv := (s.serveWord (k.port / 4)).selv }) ∧
  (∀ (s : State) (n : Nat) (k : Pkt),
      asleep s = false → s.selv.pipeline.find? (fun x => x.id == n && x.verdict.isNone && x.engine.isSome) = some k →
      matchRule s (s.selv.genOf k.gen) k = none → does (.classify n .clean false false false) s fun t =>
      ((t.selv.pipeline.find? fun x => x.id == n).map fun x => (x.verdict, x.rule, x.data)) = some (some (classifyFixed s k false), none, k.data) ∧ t = { s with selv := t.selv }) ∧
  (∀ (s : State) (n : Nat) (k : Pkt),
      asleep s = false → s.selv.pipeline.find? (fun x => x.id == n && x.verdict.isNone && x.engine.isSome) = some k →
      does (.classify n .uncorrectable false false false) s fun t =>
      ((t.selv.pipeline.find? fun x => x.id == n).map fun x => (x.verdict, x.rule, x.data)) = some (some (.exception 7), none, k.data) ∧ t.faults.valid = true ∧
      (s.faults.valid = false → t.faults.kind = 0x01 ∧ t.faults.master = mIngress k.port) ∧ t.dict.params = s.dict.params) ∧
  (∀ (s : State) (port : Fin 16) (k : Pkt),
      asleep s = false → s.selv.pipeline.find? (fun x => x.port == port.val) = some k → k.verdict = some (.drop true) → k.copyToException = false → does (.reorderRelease port) s fun t =>
      t.selv.pipeline = s.selv.pipeline.filter (fun x => x.id ≠ k.id) ∧ t.selv.learns = s.selv.learns ∧ t.trans = s.trans ∧ t = { s with selv := t.selv }) ∧
  (∀ (s : State) (port : Fin 16) (k : Pkt) (p : Nat),
      asleep s = false → s.selv.pipeline.find? (fun x => x.port == port.val) = some k → k.verdict = some .bridge → k.pass2 = none → k.copyToException = false → vidOf s port k.parsed ≠ 4095 → vlanMember s (vidOf s port k.parsed) k.port = true → bridgePorts s k (vidOf s port k.parsed) = [p] → p < 16 → p ≠ k.port → vlanMember s (vidOf s port k.parsed) p = true → (s.queue (bridgeQueue p (pcpOf k.parsed))).depth < fld s 0x8007 (bridgeQueue p (pcpOf k.parsed)) 9 →
      s.bpm.owners.length + cellsOf (egressFrame s k (vidOf s port k.parsed) p).length ≤ 262144 →
      queuePort s (bridgeQueue p (pcpOf k.parsed)) = p → linkUp s p = true → does (.reorderRelease port) s fun t =>
      (((t.queue (bridgeQueue p (pcpOf k.parsed))).copies.getLast?).map fun c => (c.data, c.ingress, c.stomped)) = some (egressFrame s k (vidOf s port k.parsed) p, k.port, k.badEnd) ∧
      (t.queue (bridgeQueue p (pcpOf k.parsed))).copies.length = (s.queue (bridgeQueue p (pcpOf k.parsed))).copies.length + 1 ∧ t.selv.pipeline = s.selv.pipeline.filter (fun x => x.id ≠ k.id) ∧ t.dict = s.dict ∧ t.encs = s.encs) ∧
  (∀ (s : State) (port : Fin 16) (k : Pkt) (l : List Pkt) (x : Pkt) (r : List Pkt),
      asleep s = false → takeFirst (fun k : Pkt => k.port == port.val) s.selv.ending = some (k, l) →
      (s.trans.queues.all fun q => q.2.copies.all fun c => !(c.cutBy port)) = true →
      takeFirst (fun x : Pkt => x.port == port.val && x.badEnd && !(match x.verdict with | some (.exception _) => true | _ => false)) s.selv.pipeline = some (x, r) →
      parB s 0x3010 6 = false → does (.lengthStomp port) s fun t =>
      t.selv.pipeline.map (·.id) = r.map (·.id) ∧ t.selv.ending = l ∧ lookD 0 t.selv.counters 4 = lookD 0 s.selv.counters 4 + 1 ∧ t = { s with selv := t.selv })

/-- On an awake device: LEARN_EVENT at the arbiter's turn, the entry intact, of an unknown address whose bucket has room, enters it with its port, counts and logs it; of another port than a dynamic, unsuspended entry's, within its move limit, it counts and logs the move. AGING_SCAN on a serving device 1 s or more after the last, with one entry in the overflow table, leaves it as one visit of R332 does, or
removes a dynamic unicast entry that reaches its limit, counted and logged. RULESET_ACTIVATE with its accepted write and a standby set makes that set active with the next generation, and stores it where the store takes writes and has been replayed. With snooping on, SNOOP_REPORT sets the port's membership time; SNOOP_LEAVE cuts it to 2 s at most, or ends the only membership at once with fast leave;
SNOOP_QUERY_RECEIVED sets the port's router time, and a query of a lower address than the device's own in its protocol names a querier for 255 s. MEMBERSHIP_EXPIRY on a serving device of the only membership, or the only router port, past its time removes it. GENERAL_QUERY_SEND of the querier on a serving device, no other querier and none sent before, in a VLAN with members, notes the time of sending for both protocols. LINK_DOWN of a link that is up clears its bit
and no other, the dictionary, encode streams and boot state kept; LINK_UP of an existing port, once Selvedge runs, sets its bit and no other and changes nothing else. -/
def Obligations.LearningAndTheLinks : Prop :=
  (∀ (s : State) (ev : Learn) (r : List Learn) (i : Nat),
      asleep s = false → s.selv.learns = ev :: r → s.selv.cmds = [] ∨ s.selv.cmdTurn = false → macFind s.selv ev.vlan ev.mac = none → lowestGap (bucketAt s.selv (macBucket ev.vlan ev.mac)) 4 = some i →
      does (.learnEvent false) s fun t =>
      t.selv.learns = r ∧ macFind t.selv ev.vlan ev.mac = some (4 * macBucket ev.vlan ev.mac + i, { mac := ev.mac, vlan := ev.vlan, dest := BitVec.ofNat 20 ev.port }) ∧
      lookD 0 t.selv.counters 0x0B = lookD 0 s.selv.counters 0x0B + 1 ∧ t.selv.learnLog = s.selv.learnLog ++ [.macSet ev.vlan ev.mac false false false (BitVec.ofNat 20 ev.port)] ∧ t = { s with selv := t.selv, pair := t.pair, out := t.out }) ∧
  (∀ (s : State) (ev : Learn) (r : List Learn) (pos : Nat) (e : MacEntry),
      asleep s = false → s.selv.learns = ev :: r → s.selv.cmds = [] ∨ s.selv.cmdTurn = false → macFind s.selv ev.vlan ev.mac = some (pos, e) → e.dest.toNat ≠ ev.port → e.static = false → e.suspended = false → e.moves.toNat + 1 ≤ par s 0x3010 2 → e.moves.toNat < 15 → does (.learnEvent false) s fun t =>
      t.selv.learns = r ∧ lookD 0 t.selv.counters 0x0C = lookD 0 s.selv.counters 0x0C + 1 ∧ t.selv.learnLog = s.selv.learnLog ++ [.macSet e.vlan e.mac e.group false false (BitVec.ofNat 20 ev.port)] ∧ t = { s with selv := t.selv, pair := t.pair, out := t.out }) ∧
  (∀ (s : State) (i : Nat) (e : MacEntry) (e1 : MacEntry),
      asleep s = false → serves s = true → s.selv.lastScan + 1000000000 ≤ s.clk.now → s.selv.buckets = [] → s.selv.overflow = [(i, e)] → aged (par s 0x3010 1) e = some e1 → does (.agingScan) s fun t =>
      t.selv.overflow = [(i, e1)] ∧ t.selv.lastScan = s.clk.now ∧ t.selv.counters = s.selv.counters ∧ t.dict = s.dict) ∧
  (∀ (s : State) (i : Nat) (e : MacEntry),
      asleep s = false → serves s = true → s.selv.lastScan + 1000000000 ≤ s.clk.now → s.selv.buckets = [] → s.selv.overflow = [(i, e)] → e.static = false → e.group = false → e.hit = false → par s 0x3010 1 ≤ e.age.toNat + 1 → e.age.toNat < 1048575 → does (.agingScan) s fun t =>
      t.selv.overflow = [] ∧ lookD 0 t.selv.counters 0x10 = lookD 0 s.selv.counters 0x10 + 1 ∧ t.selv.learnLog = s.selv.learnLog ++ [.macDel e.vlan e.mac] ∧ t.dict = s.dict) ∧
  (∀ (s : State) (x : Act) (r : List Act) (g : RuleGen),
      asleep s = false → takeFirst (fun a : Act => a.idx.toNat == 0x3031 && a.sub.toNat == 1) s.dict.acts = some (x, r) →
      s.selv.standby = some g → storeOpen s = true → s.boot.replayed = true → does (.rulesetActivate) s fun t =>
      t.selv.active = { g with num := s.selv.active.num + 1, held := 0 } ∧ t.selv.standby = none ∧ t.store = { s.store with ruleset := g.image, rulesLater := false } ∧ t = { s with dict := { s.dict with acts := r }, selv := t.selv, store := t.store }) ∧
  (∀ (s : State) (x : Act) (r : List Act) (g : RuleGen),
      asleep s = false → takeFirst (fun a : Act => a.idx.toNat == 0x3031 && a.sub.toNat == 1) s.dict.acts = some (x, r) →
      s.selv.standby = some g → storeOpen s = false ∨ s.boot.replayed = false → does (.rulesetActivate) s fun t =>
      t.selv.active = { g with num := s.selv.active.num + 1, held := 0 } ∧ t.selv.standby = none ∧ t = { s with dict := { s.dict with acts := r }, selv := t.selv }) ∧
  (∀ (s : State) (port : Fin 16) (v : BitVec 12) (mac : BitVec 48),
      asleep s = false → parB s 0x3060 1 = true → does (.snoopReport port v mac) s fun t =>
      alook t.selv.members (v, mac, port.val) = some (s.clk.now + par s 0x3060 2 * 1000000000) ∧ t.selv.routers = s.selv.routers ∧ t.dict = s.dict ∧ t.trans = s.trans) ∧
  (∀ (s : State) (port : Fin 16) (v : BitVec 12) (mac : BitVec 48) (u : Nat),
      asleep s = false → parB s 0x3060 1 = true → parB s 0x3060 3 = false → alook s.selv.members (v, mac, port.val) = some u → does (.snoopLeave port v mac) s fun t =>
      alook t.selv.members (v, mac, port.val) = some (min u (s.clk.now + 2000000000)) ∧ t.selv.routers = s.selv.routers ∧ t.dict = s.dict ∧ t.trans = s.trans) ∧
  (∀ (s : State) (port : Fin 16) (v : BitVec 12) (mac : BitVec 48) (u : Nat),
      asleep s = false → parB s 0x3060 1 = true → parB s 0x3060 3 = true → s.selv.members = [((v, mac, port.val), u)] → does (.snoopLeave port v mac) s fun t =>
      t.selv.members = [] ∧ t.selv.routers = s.selv.routers ∧ t.dict = s.dict ∧ t.trans = s.trans) ∧
  (∀ (s : State) (port : Fin 16) (v : BitVec 12) (q : Bool) (ip : BitVec 128),
      asleep s = false → parB s 0x3060 1 = true → does (.snoopQueryReceived port v q ip) s fun t =>
      alook t.selv.routers (v, port.val) = some (s.clk.now + par s 0x3060 2 * 1000000000) ∧
      t.selv.queriers = (if q = true ∧ ip.toNat < querierIp s (decide (ip.toNat / 2 ^ 32 = 0xFFFF)) then aput s.selv.queriers (v, (decide (ip.toNat / 2 ^ 32 = 0xFFFF))) (s.clk.now + 255000000000) else s.selv.queriers) ∧ t = { s with selv := t.selv }) ∧
  (∀ (s : State) (port : Fin 16) (v : BitVec 12) (mac : BitVec 48) (u : Nat),
      asleep s = false → serves s = true → s.selv.members = [((v, mac, port.val), u)] → u ≤ s.clk.now → does (.membershipExpiry port v (some mac)) s fun t =>
      t.selv.members = [] ∧ t.dict = s.dict ∧ t.trans = s.trans) ∧
  (∀ (s : State) (port : Fin 16) (v : BitVec 12) (u : Nat),
      asleep s = false → serves s = true → s.selv.routers = [((v, port.val), u)] → u ≤ s.clk.now → does (.membershipExpiry port v none) s fun t =>
      t = { s with selv := { s.selv with routers := [] } }) ∧
  (∀ (s : State) (v : BitVec 12),
      asleep s = false → serves s = true → parB s 0x3060 4 = true → parB s 0x3060 1 = true → look s.selv.lastQuery (2 * v.toNat) = none ∧ look s.selv.lastQuery (2 * v.toNat + 1) = none →
      otherQuerier s v true = false ∧ otherQuerier s v false = false →
      vlanEntry s v.toNat % 65536 ≠ 0 → does (.generalQuerySend v) s fun t =>
      look t.selv.lastQuery (2 * v.toNat) = some s.clk.now ∧ look t.selv.lastQuery (2 * v.toNat + 1) = some s.clk.now ∧ t.dict = s.dict ∧ t.encs = s.encs ∧ t.boot = s.boot) ∧
  (∀ (s : State) (port : Fin 16),
      asleep s = false → linkUp s port = true → does (.linkDown port) s fun t =>
      linkUp t port = false ∧ (∀ p, p < 16 → p ≠ port.val → linkUp t p = linkUp s p) ∧ t.dict = s.dict ∧ t.encs = s.encs ∧ t.boot = s.boot) ∧
  (∀ (s : State) (port : Fin 16),
      asleep s = false → s.boot.selvedge = true → portActive s port = true → does (.linkUp port) s fun t =>
      linkUp t port = true ∧ (∀ p, p < 16 → p ≠ port.val → linkUp t p = linkUp s p) ∧ t = { s with selv := { s.selv with links := t.selv.links } })

/-- On an awake device at the arbiter's turn, entries intact, for the oldest waiting command of a session that no host reset has ended, with no dictionary request waiting: MAC_SEARCH ends with the entry found, or with outcome 1; MAC_NEXT from the beginning with one entry in the overflow table with that entry and its position, with none with outcome 2; MAC_INSERT of an absent address whose bucket
has room enters it, outcome 0; MAC_DELETE of the only entry removes it, outcome 0; MAC_FLUSH_BY_PORT and MAC_FLUSH_ALL, no learn event waiting, with all of a flush's 65,537 steps remove the only entry where it is a dynamic unicast one they name, outcome 0, one removed, and with fewer, of an empty table, advance by those steps, the flush still waiting. PREFIX_INSERT of an absent prefix into a table that is not full enters it, outcome 0, of a present one ends with 4; PREFIX_DELETE removes
the entry, outcome 0; PREFIX_EXACT_SEARCH ends with the entry; PREFIX_LONGEST_MATCH, no entry unreadable, with the first entry that covers the address, or outcome 1 with an empty table; PREFIX_NEXT from the beginning with the first entry. Each changes nothing but the arbiter's queue and turn, the table, the session's results, and, for a changed MAC table, the learn log and what it mirrors. -/
def Obligations.AddressTableCommands : Prop :=
  (∀ (s : State) (c : MacCmd) (r : List MacCmd) (pos : Nat) (e : MacEntry),
      asleep s = false → s.selv.cmds = c :: r → c.drop = false → c.op = .search → s.selv.learns = [] ∨ s.selv.cmdTurn = true → s.dict.reqs = [] → macFind s.selv (BitVec.ofNat 12 c.args.vlan.toNat) c.args.mac = some (pos, e) →
      does (.macSearch false) s fun t =>
      ((t.sess c.se).mac.outcome, (t.sess c.se).mac.fMac, (t.sess c.se).mac.fVlan.toNat) = (0, e.mac, e.vlan.toNat) ∧ t = { s with selv := { s.selv with cmds := r, cmdTurn := false }, dict := { s.dict with sess := t.dict.sess } }) ∧
  (∀ (s : State) (c : MacCmd) (r : List MacCmd),
      asleep s = false → s.selv.cmds = c :: r → c.drop = false → c.op = .search → s.selv.learns = [] ∨ s.selv.cmdTurn = true → s.dict.reqs = [] → macFind s.selv (BitVec.ofNat 12 c.args.vlan.toNat) c.args.mac = none →
      does (.macSearch false) s fun t =>
      (t.sess c.se).mac.outcome = 1 ∧ (t.sess c.se).mac.fMac = 0 ∧ t = { s with selv := { s.selv with cmds := r, cmdTurn := false }, dict := { s.dict with sess := t.dict.sess } }) ∧
  (∀ (s : State) (c : MacCmd) (r : List MacCmd) (i : Nat) (e : MacEntry),
      asleep s = false → s.selv.cmds = c :: r → c.drop = false → c.op = .next → s.selv.learns = [] ∨ s.selv.cmdTurn = true → s.dict.reqs = [] → (s.sess c.se).mac.pos = 0xFFFFFFFF → s.selv.buckets = [] → s.selv.overflow = [(i, e)] → i < 4096 → does (.macNext) s fun t =>
      ((t.sess c.se).mac.outcome, (t.sess c.se).mac.fMac, (t.sess c.se).mac.pos.toNat) = (0, e.mac, 262144 + i) ∧ t = { s with selv := { s.selv with cmds := r, cmdTurn := false }, dict := { s.dict with sess := t.dict.sess } }) ∧
  (∀ (s : State) (c : MacCmd) (r : List MacCmd),
      asleep s = false → s.selv.cmds = c :: r → c.drop = false → c.op = .next → s.selv.learns = [] ∨ s.selv.cmdTurn = true → s.dict.reqs = [] → s.selv.buckets = [] → s.selv.overflow = [] → does (.macNext) s fun t =>
      (t.sess c.se).mac.outcome = 2 ∧ t = { s with selv := { s.selv with cmds := r, cmdTurn := false }, dict := { s.dict with sess := t.dict.sess } }) ∧
  (∀ (s : State) (c : MacCmd) (r : List MacCmd) (i : Nat),
      asleep s = false → s.selv.cmds = c :: r → c.drop = false → c.op = .insert → s.selv.learns = [] ∨ s.selv.cmdTurn = true → s.dict.reqs = [] → macFind s.selv (BitVec.ofNat 12 c.args.vlan.toNat) c.args.mac = none →
      lowestGap (bucketAt s.selv (macBucket (BitVec.ofNat 12 c.args.vlan.toNat) c.args.mac)) 4 = some i →
      does (.macInsert false) s fun t =>
      ((macFind t.selv (BitVec.ofNat 12 c.args.vlan.toNat) c.args.mac).map fun q => (q.2.mac, q.2.static, q.2.dest)) = some (c.args.mac, c.args.static, BitVec.ofNat 20 c.args.dest.toNat) ∧ (t.sess c.se).mac.outcome = 0 ∧
      t.selv.cmds = r ∧ t = { s with selv := t.selv, dict := { s.dict with sess := t.dict.sess }, pair := t.pair, out := t.out }) ∧
  (∀ (s : State) (c : MacCmd) (r : List MacCmd) (i : Nat) (e : MacEntry),
      asleep s = false → s.selv.cmds = c :: r → c.drop = false → c.op = .delete → s.selv.learns = [] ∨ s.selv.cmdTurn = true → s.dict.reqs = [] → s.selv.buckets = [] → s.selv.overflow = [(i, e)] → e.mac = c.args.mac → e.vlan = BitVec.ofNat 12 c.args.vlan.toNat → does (.macDelete false) s fun t =>
      t.selv.overflow = [] ∧ (t.sess c.se).mac.outcome = 0 ∧ t.selv.cmds = r ∧ t = { s with selv := t.selv, dict := { s.dict with sess := t.dict.sess }, pair := t.pair, out := t.out }) ∧
  (∀ (s : State) (c : MacCmd) (r : List MacCmd) (i : Nat) (e : MacEntry) (k : Nat),
      asleep s = false → s.selv.cmds = c :: r → c.drop = false → c.op = .flushPort → s.selv.learns = [] ∨ s.selv.cmdTurn = true → s.dict.reqs = [] → s.selv.learns = [] → c.next_ = 0 → c.removed = 0 → 65537 ≤ k → s.selv.buckets = [] → s.selv.overflow = [(i, e)] → e.static = false → e.group = false → c.args.vlan = 0 ∨ e.vlan.toNat = c.args.vlan.toNat → e.dest.toNat = c.args.dest.toNat → does (.macFlushByPort k) s fun t =>
      t.selv.overflow = [] ∧ (t.sess c.se).mac.outcome = 0 ∧ (t.sess c.se).mac.removed = 1 ∧ t.selv.cmds = r ∧ t = { s with selv := t.selv, dict := { s.dict with sess := t.dict.sess }, pair := t.pair, out := t.out }) ∧
  (∀ (s : State) (c : MacCmd) (r : List MacCmd) (k : Nat),
      asleep s = false → s.selv.cmds = c :: r → c.drop = false → c.op = .flushPort → s.selv.learns = [] ∨ s.selv.cmdTurn = true → s.dict.reqs = [] → s.selv.learns = [] → s.selv.buckets = [] → s.selv.overflow = [] → k ≠ 0 → c.next_ + k < 65537 → does (.macFlushByPort k) s fun t =>
      t = { s with selv := { s.selv with cmds := { c with next_ := c.next_ + k } :: r, cmdTurn := false } }) ∧
  (∀ (s : State) (c : MacCmd) (r : List MacCmd) (i : Nat) (e : MacEntry) (k : Nat),
      asleep s = false → s.selv.cmds = c :: r → c.drop = false → c.op = .flushAll → s.selv.learns = [] ∨ s.selv.cmdTurn = true → s.dict.reqs = [] → s.selv.learns = [] → c.next_ = 0 → c.removed = 0 → 65537 ≤ k → s.selv.buckets = [] → s.selv.overflow = [(i, e)] → e.static = false → e.group = false → c.args.vlan = 0 ∨ e.vlan.toNat = c.args.vlan.toNat → does (.macFlushAll k) s fun t =>
      t.selv.overflow = [] ∧ (t.sess c.se).mac.outcome = 0 ∧ (t.sess c.se).mac.removed = 1 ∧ t.selv.cmds = r ∧ t = { s with selv := t.selv, dict := { s.dict with sess := t.dict.sess }, pair := t.pair, out := t.out }) ∧
  (∀ (s : State) (c : MacCmd) (r : List MacCmd) (k : Nat),
      asleep s = false → s.selv.cmds = c :: r → c.drop = false → c.op = .flushAll → s.selv.learns = [] ∨ s.selv.cmdTurn = true → s.dict.reqs = [] → s.selv.learns = [] → s.selv.buckets = [] → s.selv.overflow = [] → k ≠ 0 → c.next_ + k < 65537 → does (.macFlushAll k) s fun t =>
      t = { s with selv := { s.selv with cmds := { c with next_ := c.next_ + k } :: r, cmdTurn := false } }) ∧
  (∀ (s : State) (c : LpmCmd) (r : List LpmCmd),
      asleep s = false → s.selv.lpmCmds = c :: r → c.drop = false → c.op = .insert → s.dict.reqs = [] → (s.selv.lpm.any fun e => lpmKey e c.args) = false → s.selv.lpm.length < 16384 → does (.prefixInsert) s fun t =>
      t.selv.lpm.length = s.selv.lpm.length + 1 ∧ (t.selv.lpm.any fun e => lpmKey e c.args && e.hop == c.args.hop) = true ∧ (t.sess c.se).lpm.outcome = 0 ∧ t = { s with selv := { s.selv with lpmCmds := r, lpm := t.selv.lpm }, dict := { s.dict with sess := t.dict.sess } }) ∧
  (∀ (s : State) (c : LpmCmd) (r : List LpmCmd),
      asleep s = false → s.selv.lpmCmds = c :: r → c.drop = false → c.op = .insert → s.dict.reqs = [] → (s.selv.lpm.any fun e => lpmKey e c.args) = true → does (.prefixInsert) s fun t =>
      t.selv.lpm = s.selv.lpm ∧ (t.sess c.se).lpm.outcome = 4 ∧ t = { s with selv := { s.selv with lpmCmds := r, lpm := t.selv.lpm }, dict := { s.dict with sess := t.dict.sess } }) ∧
  (∀ (s : State) (c : LpmCmd) (r : List LpmCmd) (e : Lpm) (l : List Lpm),
      asleep s = false → s.selv.lpmCmds = c :: r → c.drop = false → c.op = .delete → s.dict.reqs = [] → takeFirst (fun e => lpmKey e c.args) s.selv.lpm = some (e, l) →
      does (.prefixDelete) s fun t =>
      t.selv.lpm = l ∧ (t.sess c.se).lpm.outcome = 0 ∧ t = { s with selv := { s.selv with lpmCmds := r, lpm := t.selv.lpm }, dict := { s.dict with sess := t.dict.sess } }) ∧
  (∀ (s : State) (c : LpmCmd) (r : List LpmCmd) (e : Lpm),
      asleep s = false → s.selv.lpmCmds = c :: r → c.drop = false → c.op = .search → s.dict.reqs = [] → s.selv.lpm.find? (fun e => lpmKey e c.args) = some e → does (.prefixExactSearch) s fun t =>
      t.selv.lpm = s.selv.lpm ∧ ((t.sess c.se).lpm.outcome, (t.sess c.se).lpm.hop) = (0, e.hop) ∧ t = { s with selv := { s.selv with lpmCmds := r, lpm := t.selv.lpm }, dict := { s.dict with sess := t.dict.sess } }) ∧
  (∀ (s : State) (c : LpmCmd) (r : List LpmCmd) (e : Lpm),
      asleep s = false → s.selv.lpmCmds = c :: r → c.drop = false → c.op = .lookup → s.dict.reqs = [] → s.selv.lpm.find? (fun e => samePrefix e.len e.pre c.args.pre) = some e →
      does (.prefixLongestMatch none) s fun t =>
      t.selv.lpm = s.selv.lpm ∧ ((t.sess c.se).lpm.outcome, (t.sess c.se).lpm.len.toNat, (t.sess c.se).lpm.hop) = (0, e.len % 256, e.hop) ∧ t = { s with selv := { s.selv with lpmCmds := r, lpm := t.selv.lpm }, dict := { s.dict with sess := t.dict.sess } }) ∧
  (∀ (s : State) (c : LpmCmd) (r : List LpmCmd),
      asleep s = false → s.selv.lpmCmds = c :: r → c.drop = false → c.op = .lookup → s.dict.reqs = [] → s.selv.lpm = [] → does (.prefixLongestMatch none) s fun t =>
      (t.sess c.se).lpm.outcome = 1 ∧ t = { s with selv := { s.selv with lpmCmds := r, lpm := t.selv.lpm }, dict := { s.dict with sess := t.dict.sess } }) ∧
  (∀ (s : State) (c : LpmCmd) (r : List LpmCmd) (e : Lpm) (l : List Lpm),
      asleep s = false → s.selv.lpmCmds = c :: r → c.drop = false → c.op = .next → s.dict.reqs = [] → (s.sess c.se).lpm.pos = 0xFFFFFFFF → s.selv.lpm = e :: l → does (.prefixNext) s fun t =>
      ((t.sess c.se).lpm.outcome, (t.sess c.se).lpm.pos, (t.sess c.se).lpm.hop) = (0, 0, e.hop) ∧ t.selv.lpm = s.selv.lpm ∧ t = { s with selv := { s.selv with lpmCmds := r, lpm := t.selv.lpm }, dict := { s.dict with sess := t.dict.sess } })

/-- On an awake device: TOUCH_DATAGRAM of one well-formed event of a defined type and contact, from its endpoint's own address, once Selvedge runs, its engine in service with fewer than 256 events queued and nothing held before its Bobbin, not copied to firmware, comes last behind the events of that Bobbin and queue, counted; a datagram whose form fails is counted alone. TOUCH_EVENT of an engine in service with
an item at the head of its Bobbin that it sees, read intact, its queue empty, the endpoint tracked: a down event that its contact's history accepts, with a first rule that fires and whose condition holds, leaves the rule's value in the variable of the stream's bank and counts it, and the contact is down since the event's time; with a layout
without rules the banks stay. TOUCH_STUCK of a contact that is down longer than the stuck time and not yet reported counts it once, the contact stays down, banks and dictionary stay. -/
def Obligations.TouchEventsAndRules : Prop :=
  (∀ (s : State) (ip : BitVec 128) (b : Bytes) (p : Nat),
      asleep s = false → b.length ≤ 65507 → s.boot.selvedge = true → touchFormOk b = true → touchSourceOk s (le32 b 4) ip = true → u8 b 3 = 1 → enginePhys s (fld s 0x8005 (le32 b 4) 2 % 8) = p → p ≠ 0xFF → (s.engine p).touches.length < 256 → (s.bob (.touch (fengine p))).held = [] → 1 ≤ u8 b 8 → u8 b 8 ≤ 3 → u8 b 9 ≤ 9 → parB s 0x4020 2 = false → does (.touchDatagram ip b) s fun t =>
      ((t.bob (.touch (fengine p))).items.map fun q => q.1) ++ (t.engine p).touches.map (fun k => cutItem (.touch (fengine p)) (touchItem k)) =
      ((s.bob (.touch (fengine p))).items.map fun q => q.1) ++ ((s.engine p).touches ++ [touchAt s b (le32 b 4) 0]).map (fun k => cutItem (.touch (fengine p)) (touchItem k)) ∧
      lookD 0 t.batten.touchCount 1 = sat32 (lookD 0 s.batten.touchCount 1) ∧ t = { s with batten := t.batten, bobs := t.bobs, clk := t.clk }) ∧
  (∀ (s : State) (ip : BitVec 128) (b : Bytes),
      asleep s = false → b.length ≤ 65507 → s.boot.selvedge = true → touchFormOk b = false → does (.touchDatagram ip b) s fun t =>
      lookD 0 t.batten.touchCount 2 = sat32 (lookD 0 s.batten.touchCount 2) ∧ t = { s with batten := { s.batten with touchCount := t.batten.touchCount } }) ∧
  (∀ (s : State) (e : Fin 8) (p : Nat) (x : BitVec 256) (g : Bool) (r : List (BitVec 256 × Bool)) (k : Touch) (tr : Track) (u : Rule),
      asleep s = false → enginePhys s e = p → p ≠ 0xFF → (s.engine p).touches = [] → (s.bob (.touch (fengine p))).resetAt = none → (s.bob (.touch (fengine p))).held = [] → crossing s.clk.now (s.bob (.touch (fengine p))).wrLog = [] → (s.bob (.touch (fengine p))).rd < (s.bob (.touch (fengine p))).wr →
      (s.bob (.touch (fengine p))).items = (x, g) :: r → itemTouch s.clk.now x = k → look s.batten.tracks k.endpoint = some tr → ((lookD ({} : Contact) tr.contacts k.contact).follow k (par s 0x4020 4 * 1000)).2 = .down →
      (rulesOf (streamLayout s (fld s 0x8005 k.endpoint 2)).2).find? (fun y => ruleFires y k .down && (y.condVar == 0xFF || (s.bankVar (fld s 0x8001 (fld s 0x8005 k.endpoint 2) 0x11) y.condVar).toNat == y.condValue)) = some u →
      does (.touchEvent e .clean) s fun t =>
      (t.bob (.touch (fengine p))).items = r ∧ t.bankVar (fld s 0x8001 (fld s 0x8005 k.endpoint 2) 0x11) u.var = BitVec.ofNat 32 (ruleValue u (s.bankVar (fld s 0x8001 (fld s 0x8005 k.endpoint 2) 0x11) u.var).toNat) ∧ lookD 0 t.batten.touchCount 8 = sat32 (lookD 0 s.batten.touchCount 8) ∧ ((look t.batten.tracks k.endpoint).map fun q => ((lookD ({} : Contact) q.contacts k.contact).down, (lookD ({} : Contact) q.contacts k.contact).downAt)) = some (true, k.at_) ∧ t = { s with batten := t.batten, bobs := t.bobs, clk := t.clk }) ∧
  (∀ (s : State) (e : Fin 8) (p : Nat) (x : BitVec 256) (g : Bool) (r : List (BitVec 256 × Bool)) (k : Touch) (tr : Track),
      asleep s = false → enginePhys s e = p → p ≠ 0xFF → (s.engine p).touches = [] → (s.bob (.touch (fengine p))).resetAt = none → (s.bob (.touch (fengine p))).held = [] → crossing s.clk.now (s.bob (.touch (fengine p))).wrLog = [] → (s.bob (.touch (fengine p))).rd < (s.bob (.touch (fengine p))).wr →
      (s.bob (.touch (fengine p))).items = (x, g) :: r → itemTouch s.clk.now x = k → look s.batten.tracks k.endpoint = some tr → rulesOf (streamLayout s (fld s 0x8005 k.endpoint 2)).2 = [] → does (.touchEvent e .clean) s fun t =>
      (t.bob (.touch (fengine p))).items = r ∧ t.batten.banks = s.batten.banks ∧ t = { s with batten := t.batten, bobs := t.bobs, clk := t.clk }) ∧
  (∀ (s : State) (ep : BitVec 20) (c : Fin 10) (tr : Track),
      asleep s = false → look s.batten.tracks ep.toNat = some tr → (lookD ({} : Contact) tr.contacts c.val).down = true → (lookD ({} : Contact) tr.contacts c.val).stuck = false → (lookD ({} : Contact) tr.contacts c.val).downAt + par s 0x4020 3 * 1000000000 < s.clk.now →
      does (.touchStuck ep c) s fun t =>
      lookD 0 t.batten.touchCount 6 = sat32 (lookD 0 s.batten.touchCount 6) ∧ ((look t.batten.tracks ep.toNat).map fun q => ((lookD ({} : Contact) q.contacts c.val).down, (lookD ({} : Contact) q.contacts c.val).stuck)) = some (true, true) ∧ t.batten.banks = s.batten.banks ∧ t.dict = s.dict)

/-- On an awake device: RTCP_RECEIVE of a compound packet that begins with a receiver report and holds one seal packet of a valid endpoint, from its own address, to its stream's port, the stream valid, the endpoint's seals checked and fewer than 4,096 waiting, makes the endpoint present with this report's time and queues its seal, encode streams and dictionary as before; a packet that does not parse is counted as malformed
and nothing else. PRESENCE_SCAN on a serving device 250 ms or more after the last: the only endpoint, present without a report for the absent time, becomes absent and is counted; with every endpoint heard within it only the time of the scan changes. SEAL_CHECK of the oldest returned seal whose record is there, of the same frame and mode, valid: a value equal to the endpoint's own seal
counts as matched with its frame; another counts as mismatched. SEAL_RECORD_WAIT_TIMEOUT of a seal that has waited 1 ms for its record counts it as unchecked and nothing else. -/
def Obligations.PresenceAndReturnedSeals : Prop :=
  (∀ (s : State) (ip : BitVec 128) (port : BitVec 16) (b : Bytes) (rr : Bytes) (rest : List Bytes) (app : Bytes) (e : Nat),
      asleep s = false → b.length ≤ 65507 → rtcpParts b.length b = some (rr :: rest) → (rr :: rest).filter isSealApp = [app] → be32 app 0x0C = e → u8 rr 1 = 201 → e < 2 ^ 20 → epValid s e = true → beNat (fldBytes s 0x8005 e 3) = ip.toNat → fld s 0x8001 (fld s 0x8005 e 2) 0x23 = port.toNat → encValid s (fld s 0x8005 e 2) = true → be32 app 0x10 ≠ 0xFFFFFFFF → fldB s 0x8005 e 0x22 = true → s.trans.seals.length < 4096 → does (.rtcpReceive ip port b) s fun t =>
      (t.ep e).present = true ∧ (t.ep e).lastReport = s.clk.now ∧ t.trans.seals = s.trans.seals ++ [⟨e, BitVec.ofNat 32 (be32 app 0x10), BitVec.ofNat 8 (u8 app 0 % 32), BitVec.ofNat 64 (beNat (slice app 0x14 8)), s.clk.now⟩] ∧ t.encs = s.encs ∧ t.dict = s.dict) ∧
  (∀ (s : State) (ip : BitVec 128) (port : BitVec 16) (b : Bytes),
      asleep s = false → b.length ≤ 65507 → rtcpParts b.length b = none → does (.rtcpReceive ip port b) s fun t =>
      t = { s with trans := { s.trans with counters := bump s.trans.counters 2 } }) ∧
  (∀ (s : State) (e : Nat) (v : Endpoint),
      asleep s = false → serves s = true → s.trans.lastScan + 250000000 ≤ s.clk.now → s.trans.endpoints = [(e, v)] → epValid s e = true → v.present = true → v.lastReport + par s 0x3080 1 * 1000000000 ≤ s.clk.now → does (.presenceScan) s fun t =>
      t.ep e = { v with present := false } ∧ t.trans.lastScan = s.clk.now ∧ lookD 0 t.trans.counters 9 = lookD 0 s.trans.counters 9 + 1 ∧ t.encs = s.encs ∧ t.dict = s.dict) ∧
  (∀ (s : State),
      asleep s = false → serves s = true → s.trans.lastScan + 250000000 ≤ s.clk.now → s.trans.endpoints.all (fun q => decide (s.clk.now < q.2.lastReport + par s 0x3080 1 * 1000000000)) = true →
      does (.presenceScan) s fun t =>
      t = { s with trans := { s.trans with lastScan := s.clk.now } }) ∧
  (∀ (s : State) (q : SealIn) (l : List SealIn) (r : SealRec),
      asleep s = false → takeFirst (fun q => !(sealWaits s q)) s.trans.seals = some (q, l) →
      sealRecord s q = some r → r.frame = q.frame → r.sealValid = true → r.sealMode = q.sealMode → endpointSeal r.sealMode.toNat q.endpoint (encN s (fld s 0x8005 q.endpoint 2)) r.recon.toNat = q.value.toNat →
      does (.sealCheck) s fun t =>
      t.ep q.endpoint = { s.ep q.endpoint with matched := (s.ep q.endpoint).matched + 1, lastSeal := q.frame } ∧ t.trans.seals = l ∧ lookD 0 t.trans.counters 3 = lookD 0 s.trans.counters 3 + 1 ∧ t = { s with trans := t.trans }) ∧
  (∀ (s : State) (q : SealIn) (l : List SealIn) (r : SealRec),
      asleep s = false → takeFirst (fun q => !(sealWaits s q)) s.trans.seals = some (q, l) →
      sealRecord s q = some r → r.frame = q.frame → r.sealValid = true → r.sealMode = q.sealMode → endpointSeal r.sealMode.toNat q.endpoint (encN s (fld s 0x8005 q.endpoint 2)) r.recon.toNat ≠ q.value.toNat →
      does (.sealCheck) s fun t =>
      (t.ep q.endpoint).mismatched = (s.ep q.endpoint).mismatched + 1 ∧ (t.ep q.endpoint).matched = (s.ep q.endpoint).matched ∧ t.trans.seals = l ∧ lookD 0 t.trans.counters 4 = lookD 0 s.trans.counters 4 + 1 ∧ t.encs = s.encs ∧ t.dict = s.dict) ∧
  (∀ (s : State) (q : SealIn) (l : List SealIn),
      asleep s = false → takeFirst (fun q => sealWaits s q && decide (q.since + 1000000 ≤ s.clk.now)) s.trans.seals = some (q, l) →
      does (.sealRecordWaitTimeout) s fun t =>
      (t.ep q.endpoint).unchecked = (s.ep q.endpoint).unchecked + 1 ∧ t.trans.seals = l ∧ lookD 0 t.trans.counters 5 = lookD 0 s.trans.counters 5 + 1 ∧ t = { s with trans := t.trans })

/-- On an awake device whose time unit runs, with no second held back that came before this cycle: PPS_IN_EDGE without a previous edge captures the count and the fraction and becomes that edge, nothing else changed; valid, near, while Locked with GNSS and time of day, it stays Locked, keeps the count, records the offset, is counted and leaves the frequency within 100 ppm; one too early, not the third bad one, is counted as
invalid. With the unit running: PPS_MISSING more than 1 s + 1 µs after the previous edge, GNSS not qualified, is counted, the missing edge taking its place; the third in a row while Locked with GNSS ends GNSS and takes Locked to Holdover with source 0xA0 and an estimate from the last valid edge. REFERENCE_INPUT_LOST and REFERENCE_INPUT_GOOD change their own input's flag, and a good 10 MHz after a loss forgets the previous edge. HOLDOVER_LIMIT_CROSSED in
Holdover sets accuracy and class from the estimate, class 52 standing. TIME_STEP at or after the pending step's second boundary, by an offset that changes the count, makes the step and counts it, a held second kept; before the boundary it changes nothing. SET_SECONDS with its accepted write holds the second until the next second boundary, in place of one held before this cycle. SECONDS_COUNT_APPLY at or after that boundary, without GNSS, not Slave or Passive, applies the held second, keeping the part below a second; before it, nothing changes.
Of the streams and the pool's counters a step changes nothing unless it goes forward. -/
def Obligations.TimeInputs : Prop :=
  (∀ (s : State) (f : BitVec 16),
      asleep s = false → s.boot.timeUp = true → heldNow s = none → s.time.prevEdge = none → does (.ppsInEdge f) s fun t =>
      t = { s with time := { s.time with capSeq := s.time.capSeq + 1, capFrac := f, capNs := BitVec.ofNat 30 (s.time.ptp % 1000000000), capSec := BitVec.ofNat 48 (s.time.ptp / 1000000000), prevEdge := some s.clk.now } }) ∧
  (∀ (s : State) (f : BitVec 16) (p : Nat),
      asleep s = false → s.boot.timeUp = true → heldNow s = none → s.time.prevEdge = some p → s.time.tenOk = true → s.time.gnss = true → s.time.mode = .locked → s.time.todValid = true → p + 999999000 ≤ s.clk.now → s.clk.now ≤ p + 1000001000 → (edgeOffset s.time.ptp).natAbs ≤ 100 → does (.ppsInEdge f) s fun t =>
      t.time.mode = .locked ∧ t.time.prevEdge = some s.clk.now ∧ t.time.offset = edgeOffset s.time.ptp ∧ t.time.good = s.time.good + 1 ∧ t.time.ptp = s.time.ptp ∧ -25600000 ≤ t.time.freq ∧ t.time.freq ≤ 25600000 ∧ lookD 0 t.time.counters 1 = lookD 0 s.time.counters 1 + 1 ∧ t = { s with time := t.time, clk := t.clk }) ∧
  (∀ (s : State) (f : BitVec 16) (p : Nat),
      asleep s = false → s.boot.timeUp = true → heldNow s = none → s.time.prevEdge = some p → s.clk.now < p + 999999000 → s.time.bad < 2 → does (.ppsInEdge f) s fun t =>
      t.time.mode = s.time.mode ∧ t.time.good = 0 ∧ t.time.bad = s.time.bad + 1 ∧ t.time.prevEdge = some s.clk.now ∧ t.time.gnss = s.time.gnss ∧ lookD 0 t.time.counters 2 = lookD 0 s.time.counters 2 + 1 ∧ t = { s with time := t.time }) ∧
  (∀ (s : State) (p : Nat),
      asleep s = false → s.boot.timeUp = true → s.time.prevEdge = some p → p + 1000001000 < s.clk.now → s.time.gnss = false → does (.ppsMissing) s fun t =>
      t.time.good = 0 ∧ t.time.bad = s.time.bad + 1 ∧ t.time.prevEdge = some (p + 1000000000) ∧ lookD 0 t.time.counters 2 = lookD 0 s.time.counters 2 + 1 ∧ t = { s with time := t.time }) ∧
  (∀ (s : State) (p : Nat),
      asleep s = false → s.boot.timeUp = true → s.time.prevEdge = some p → p + 1000001000 < s.clk.now → s.time.gnss = true → s.time.bad = 2 → s.time.mode = .locked → does (.ppsMissing) s fun t =>
      t.time.gnss = false ∧ t.time.mode = .holdover ∧ t.time.source = 0xA0 ∧ t.time.holdFrom = s.time.lastValid ∧ t.time.holdBase = 100 ∧ (t.time.clockClass = 7 ∨ t.time.clockClass = 52) ∧ t.dict = s.dict) ∧
  (∀ (s : State),
      asleep s = false → s.boot.timeUp = true → does (.referenceInputLost .tenMhz) s fun t =>
      t = { s with time := { s.time with tenOk := false } }) ∧
  (∀ (s : State),
      asleep s = false → s.boot.timeUp = true → does (.referenceInputLost .refIn) s fun t =>
      t = { s with time := { s.time with refOk := false } }) ∧
  (∀ (s : State),
      asleep s = false → s.boot.timeUp = true → s.time.tenOk = false → does (.referenceInputGood .tenMhz) s fun t =>
      t = { s with time := { s.time with tenOk := true, prevEdge := none } }) ∧
  (∀ (s : State),
      asleep s = false → s.boot.timeUp = true → does (.referenceInputGood .refIn) s fun t =>
      t = { s with time := { s.time with refOk := true } }) ∧
  (∀ (s : State),
      asleep s = false → s.time.mode = .holdover → does (.holdoverLimitCrossed) s fun t =>
      t = { s with time := { s.time with accuracy := accuracyCode s, clockClass := if s.time.clockClass ≠ 52 ∧ estNum s ≤ par s 0x6012 1 * estDen then 7 else 52 } }) ∧
  (∀ (s : State) (o : Int) (u : Nat),
      asleep s = false → s.time.pendingStep = some (o, u) → u ≤ s.time.ptp → ((s.time.ptp : Int) - o).toNat ≠ s.time.ptp → does (.timeStep) s fun t =>
      t.time = { s.time with ptp := ((s.time.ptp : Int) - o).toNat, pendingStep := none, counters := bump s.time.counters 5, held := t.time.held } ∧ t.time.held.map (·.1) = s.time.held.map (·.1) ∧ (0 ≤ o → t.encs = s.encs ∧ t.pool = s.pool) ∧ t = { s with time := t.time, encs := t.encs, pool := { s.pool with counters := t.pool.counters } }) ∧
  (∀ (s : State) (o : Int) (u : Nat),
      asleep s = false → s.time.pendingStep = some (o, u) → s.time.ptp < u → does (.timeStep) s fun t =>
      t = s) ∧
  (∀ (s : State) (a : Act) (r : List Act),
      asleep s = false → takeFirst (fun a : Act => a.idx == 0x6013 && a.sub == 1) s.dict.acts = some (a, r) →
      does (.setSeconds) s fun t =>
      t = { s with dict := { s.dict with acts := r }, time := { s.time with held := (heldNow s).toList ++ [(BitVec.ofNat 48 a.val.nat, s.clk.now, nextSecond s.time.ptp)] } }) ∧
  (∀ (s : State) (v : BitVec 48) (w : Nat) (u : Nat),
      asleep s = false → heldNow s = some (v, w, u) → u ≤ s.time.ptp → s.time.gnss = false → s.boot.timeUp = true → s.time.mode ≠ TimeMode.slave → s.time.mode ≠ TimeMode.passive → does (.secondsCountApply) s fun t =>
      t.time.ptp = v.toNat * 1000000000 + s.time.ptp % 1000000000 ∧ heldNow t = none ∧ t.time.todValid = true ∧ (t.time.ptp ≤ s.time.ptp → t.encs = s.encs ∧ t.pool = s.pool) ∧ t = { s with time := t.time, encs := t.encs, pool := { s.pool with counters := t.pool.counters } }) ∧
  (∀ (s : State) (v : BitVec 48) (w : Nat) (u : Nat),
      asleep s = false → heldNow s = some (v, w, u) → s.time.ptp < u → does (.secondsCountApply) s fun t =>
      t = s)

/-- On an awake device, for a Master port: ANNOUNCE_SEND sends an Announce with the next sequence number; with the timestamp Bobbin open and empty and its item intact, SYNC_SEND sends a one-step Sync with the next sequence number, or a Sync and its Follow_Up, and DELAY_REQ within the second's 16 million sends a Delay_Resp and is counted; SYNC_METADATA_SEND under the ST 2059 profile sends its message; each keeps count and state of the time unit, dictionary, encode streams
and pool. FOREIGN_ANNOUNCE on a PTP port of a masterOnly device that is no Slave is counted and remembered, with the same kept; under the BMCA, heard before from the same clock and port, better than a Free-run device, it makes it Slave on that port with that parent and class. ANNOUNCE_RECEIPT_TIMEOUT of a Slave without GNSS three intervals after its master's last Announce returns it to Free run. SYNC_RECEIVE on the slave port sets the offset, corrected by the port's
asymmetry, leaves the frequency within 100 ppm and keeps the same; where the port has not asked yet, it sends a Delay_Req. PPS_OUT_EDGE with the unit running raises both outputs, or, squelched, neither. TOD_LINE after an edge sends one line. GAVON_TIME on the secondary of a healthy pair whose time unit runs makes it Passive with class 0, its count within 10 ns of the primary's, the dictionary kept. -/
def Obligations.TimeMessagesAndOutputs : Prop :=
  (∀ (s : State) (port : Fin 16),
      asleep s = false → masterPort s port = true → does (.announceSend port) s fun t =>
      (t.out.any fun o => match o with | .ptp p k _ => p == port.val && k == 11 | _ => false) = true ∧ lookD 0 t.time.seqs port = (lookD 0 s.time.seqs port + 1) % 65536 ∧ t.time.ptp = s.time.ptp ∧ t.time.mode = s.time.mode ∧ t.dict = s.dict ∧ t.encs = s.encs ∧ t.pool = s.pool) ∧
  (∀ (s : State) (port : Fin 16),
      asleep s = false → masterPort s port = true → (s.bob .timestamp).resetAt = none → (s.bob .timestamp).items = [] → (s.bob .timestamp).held = [] → parB s 0x6020 4 = true → does (.syncSend port .clean) s fun t =>
      (t.out.any fun o => match o with | .ptp p k _ => p == port.val && k == 0 | _ => false) = true ∧ lookD 0 t.time.seqs (16 + port) = (lookD 0 s.time.seqs (16 + port) + 1) % 65536 ∧ t.time.ptp = s.time.ptp ∧ t.time.mode = s.time.mode ∧ t.dict = s.dict ∧ t.encs = s.encs ∧ t.pool = s.pool) ∧
  (∀ (s : State) (port : Fin 16),
      asleep s = false → masterPort s port = true → (s.bob .timestamp).resetAt = none → (s.bob .timestamp).items = [] → (s.bob .timestamp).held = [] → parB s 0x6020 4 = false → does (.syncSend port .clean) s fun t =>
      (t.out.any fun o => match o with | .ptp p k _ => p == port.val && k == 0 | _ => false) = true ∧ (t.out.any fun o => match o with | .ptp p k _ => p == port.val && k == 8 | _ => false) = true ∧ t.time.ptp = s.time.ptp ∧ t.time.mode = s.time.mode ∧ t.dict = s.dict ∧ t.encs = s.encs ∧ t.pool = s.pool) ∧
  (∀ (s : State) (port : Fin 16) (u : Option (BitVec 48 × BitVec 128)) (src : BitVec 80) (q : BitVec 16),
      asleep s = false → masterPort s port = true → (s.bob .timestamp).resetAt = none → (s.bob .timestamp).items = [] → (s.bob .timestamp).held = [] → s.time.answerSec ≠ s.clk.now / 1000000000 ∨ s.time.answered < 16000000 →
      does (.delayReq port .clean u src q) s fun t =>
      (t.out.any fun o => match o with | .ptp p k _ => p == port.val && k == 9 | _ => false) = true ∧ lookD 0 t.time.counters 6 = lookD 0 s.time.counters 6 + 1 ∧ t.time.ptp = s.time.ptp ∧ t.time.mode = s.time.mode ∧ t.dict = s.dict ∧ t.encs = s.encs ∧ t.pool = s.pool) ∧
  (∀ (s : State) (port : Fin 16) (a : Announce),
      asleep s = false → ptpPort s port = true → par s 0x6020 3 = 0 → s.time.mode ≠ TimeMode.slave → does (.foreignAnnounce port a) s fun t =>
      lookD 0 t.time.counters 8 = lookD 0 s.time.counters 8 + 1 ∧ (⟨port, a, s.clk.now⟩ : Foreign) ∈ t.time.foreign ∧ t.time.ptp = s.time.ptp ∧ t.time.mode = s.time.mode ∧ t.dict = s.dict ∧ t.encs = s.encs ∧ t.pool = s.pool) ∧
  (∀ (s : State) (port : Fin 16) (a : Announce),
      asleep s = false → ptpPort s port = true → par s 0x6020 3 ≠ 0 → a.gmId.toNat ≠ clockIdentity → (s.time.foreign.find? fun f => f.ann.clockId == a.clockId && f.port == port.val) = some ⟨port, a, s.clk.now⟩ →
      s.time.mode = .freeRun → lexLt (annKey a) (ownKey s) = true → does (.foreignAnnounce port a) s fun t =>
      t.time.mode = TimeMode.slave ∧ t.time.slavePort = BitVec.ofNat 5 port ∧ t.time.parent = some a ∧ t.time.clockClass = a.clockClass ∧ t.time.ptp = s.time.ptp ∧ t.dict = s.dict) ∧
  (∀ (s : State),
      asleep s = false → s.time.mode = TimeMode.slave → s.time.parentAt + 3 * announceNs s ≤ s.clk.now → s.time.gnss = false → does (.announceReceiptTimeout) s fun t =>
      t.time.mode = .freeRun ∧ t.time.parent = none ∧ t.time.clockClass = 248 ∧ t.time.slavePort = 0x1F ∧ t.time.ptp = s.time.ptp ∧ t.dict = s.dict) ∧
  (∀ (s : State) (port : Fin 16) (o : Int),
      asleep s = false → s.time.mode = TimeMode.slave → s.time.slavePort.toNat = port.val → does (.syncReceive port o) s fun t =>
      t.time.slaveOffset = o - sext 32 (par s 0x6022 (port + 1)) ∧ -25600000 ≤ t.time.freq ∧ t.time.freq ≤ 25600000 ∧ t.time.ptp = s.time.ptp ∧ t.time.mode = s.time.mode ∧ t.dict = s.dict ∧ t.encs = s.encs ∧ t.pool = s.pool) ∧
  (∀ (s : State) (port : Fin 16) (o : Int),
      asleep s = false → s.time.mode = TimeMode.slave → s.time.slavePort.toNat = port.val → look s.time.asked port = none → does (.syncReceive port o) s fun t =>
      (t.out.any fun o => match o with | .ptp p k _ => p == port.val && k == 1 | _ => false) = true ∧ look t.time.asked port = some s.clk.now) ∧
  (∀ (s : State) (port : Fin 16),
      asleep s = false → masterPort s port = true → par s 0x6020 1 = 0 → does (.syncMetadataSend port) s fun t =>
      (t.out.any fun o => match o with | .ptp p k _ => p == port.val && k == 13 | _ => false) = true ∧ t.time.ptp = s.time.ptp ∧ t.time.mode = s.time.mode ∧ t.dict = s.dict ∧ t.encs = s.encs ∧ t.pool = s.pool) ∧
  (∀ (s : State),
      asleep s = false → s.boot.timeUp = true → squelched s = false → does (.ppsOutEdge) s fun t =>
      t.out = s.out ++ [.pin "TEN_MHZ_OUT" true, .pin "PPS_OUT" true] ∧ t.pins.ppsOut = true ∧ t.pins.tenMhz = true ∧ t.time.edgeAt = some s.time.ptp ∧ t = { s with time := t.time, pins := t.pins, out := t.out }) ∧
  (∀ (s : State),
      asleep s = false → s.boot.timeUp = true → squelched s = true → does (.ppsOutEdge) s fun t =>
      t.out = s.out ∧ t.pins.ppsOut = false ∧ t.pins.tenMhz = false ∧ t.time.edgeAt = some s.time.ptp ∧ t = { s with time := t.time, pins := t.pins }) ∧
  (∀ (s : State) (e : Nat),
      asleep s = false → s.time.edgeAt = some e → does (.todLine) s fun t =>
      t = { s with time := { s.time with edgeAt := none }, out := s.out ++ [.serial (todText s)] }) ∧
  (∀ (s : State) (m : MirrorTime),
      asleep s = false → s.boot.timeUp = true → s.pair.role = .secondary → healthy s = true → does (.gavonTime m) s fun t =>
      t.time.mode = TimeMode.passive ∧ t.time.clockClass = 0 ∧ t.time.ptp ≤ m.seconds.toNat * 1000000000 + m.nanos.toNat + 10 ∧ m.seconds.toNat * 1000000000 + m.nanos.toNat ≤ t.time.ptp + 10 ∧ t.time.todValid = m.todValid ∧ t.dict = s.dict)

/-- On an awake device, the bridge's other registers, streams, pool and dictionary as before. SQ_DOORBELL on a running ring with a value inside its index range, not beyond the ring's size from its head nor behind its tail, makes the value the tail; outside the index range it puts the ring into its error state with code 0x1, and on a ring that does not run it leaves the ring alone: both count as rejected. CQ_DOORBELL inside the
range and not past the tail, no completion staged and no ring aborting, makes the value the head; outside the range it sets DB_ERR. SQ_ENABLE of an idle ring with a nonzero size takes place, priority, size and completion ring from the value and runs it if that completion ring is enabled, else leaves it idle with code 0x3. SQ_DISABLE of a running or failed ring and SQ_RESET, with nothing fetched,
nothing outstanding and, for the disabling, head equal to tail, bring it to idle and disabled, the reset zeroing indices and code. CQ_ENABLE takes place, size and enable from the value. CQ_DISABLE of an enabled ring and CQ_RESET, with no ring in use that names it, disable it and drop its staged completions, the disabling counting them, the reset zeroing its indices. -/
def Obligations.RingControl : Prop :=
  (∀ (s : State) (p : Fin 4096) (v : Word),
      asleep s = false → (s.sq p).state = 1 → v.toNat % 65536 < 2 ^ ((s.sq p).size.toNat + 1) → ringDist (s.sq p).size.toNat (s.sq p).head.toNat (v.toNat % 65536) ≤ 2 ^ (s.sq p).size.toNat →
      ringDist (s.sq p).size.toNat (s.sq p).tail.toNat (v.toNat % 65536) ≤ ringDist (s.sq p).size.toNat (s.sq p).head.toNat (v.toNat % 65536) →
      does (.sqDoorbell p v) s fun t =>
      t.sq p = { s.sq p with tail := BitVec.ofNat 16 (v.toNat % 65536) } ∧ t.rings.rejected = s.rings.rejected ∧ t = { s with rings := t.rings, dev := { s.dev with armed := t.dev.armed } }) ∧
  (∀ (s : State) (p : Fin 4096) (v : Word),
      asleep s = false → (s.sq p).state = 1 → 2 ^ ((s.sq p).size.toNat + 1) ≤ v.toNat % 65536 → does (.sqDoorbell p v) s fun t =>
      t.sq p = { s.sq p with state := 2, errCode := 1 } ∧ t.rings.rejected = s.rings.rejected + 1 ∧ t = { s with rings := t.rings, dev := { s.dev with armed := t.dev.armed } }) ∧
  (∀ (s : State) (p : Fin 4096) (v : Word),
      asleep s = false → (s.sq p).state ≠ 1 → does (.sqDoorbell p v) s fun t =>
      t.sq p = s.sq p ∧ t.rings.rejected = s.rings.rejected + 1 ∧ t = { s with rings := t.rings, dev := { s.dev with armed := t.dev.armed } }) ∧
  (∀ (s : State) (c : Fin 1024) (v : Word),
      asleep s = false → v.toNat % 65536 < 2 ^ ((s.cq c).size.toNat + 1) → ringDist (s.cq c).size.toNat (s.cq c).head.toNat (v.toNat % 65536) ≤ ringDist (s.cq c).size.toNat (s.cq c).head.toNat (s.cq c).tail.toNat →
      (s.cq c).staged = [] → (s.rings.sqs.all fun q => q.2.aborts.isEmpty) = true → does (.cqDoorbell c v) s fun t =>
      t.cq c = { s.cq c with head := BitVec.ofNat 16 (v.toNat % 65536) } ∧ t = { s with rings := t.rings, dev := { s.dev with armed := t.dev.armed }, intc := t.intc, out := t.out }) ∧
  (∀ (s : State) (c : Fin 1024) (v : Word),
      asleep s = false → 2 ^ ((s.cq c).size.toNat + 1) ≤ v.toNat % 65536 → does (.cqDoorbell c v) s fun t =>
      t.cq c = { s.cq c with dbErr := true } ∧ t = { s with rings := t.rings, dev := { s.dev with armed := t.dev.armed } }) ∧
  (∀ (s : State) (m : Master) (p : Fin 4096) (v : Word),
      asleep s = false → (s.sq p).state = 0 → v.extractLsb' 0 4 ≠ 0 → (s.cq (v.extractLsb' 16 10).toNat).enable = true → masterOk m = true → does (.sqEnable m p v) s fun t =>
      t.sq p = { s.sq p with loc := v.getLsbD 30, prio := v.extractLsb' 28 2, cq := v.extractLsb' 16 10, size := v.extractLsb' 0 4, enable := true, state := 1 } ∧ t = { s with rings := t.rings, dev := { s.dev with armed := t.dev.armed } }) ∧
  (∀ (s : State) (m : Master) (p : Fin 4096) (v : Word),
      asleep s = false → (s.sq p).state = 0 → v.extractLsb' 0 4 ≠ 0 → (s.cq (v.extractLsb' 16 10).toNat).enable = false → masterOk m = true → does (.sqEnable m p v) s fun t =>
      (t.sq p).state = 0 ∧ (t.sq p).errCode = 3 ∧ (t.sq p).enable = (s.sq p).enable ∧ t = { s with rings := t.rings, dev := { s.dev with armed := t.dev.armed } }) ∧
  (∀ (s : State) (m : Master) (p : Fin 4096) (v : Word),
      asleep s = false → (s.sq p).state = 1 ∨ (s.sq p).state = 2 → (s.sq p).fetched = [] → (s.sq p).aborts = [] → (s.sq p).head = (s.sq p).tail → (s.rings.jobs.all fun j => j.sq != p.val) = true → masterOk m = true → does (.sqDisable m p v) s fun t =>
      (t.sq p).state = 0 ∧ (t.sq p).enable = false ∧ (t.sq p).size = (s.sq p).size ∧ t.rings.cqs = s.rings.cqs ∧ t = { s with rings := t.rings, dev := { s.dev with armed := t.dev.armed } }) ∧
  (∀ (s : State) (m : Master) (p : Fin 4096),
      asleep s = false → (s.sq p).fetched = [] → (s.sq p).aborts = [] → (s.sq p).head = (s.sq p).tail → (s.rings.jobs.all fun j => j.sq != p.val) = true → masterOk m = true → does (.sqReset m p) s fun t =>
      (t.sq p).state = 0 ∧ (t.sq p).enable = false ∧ (t.sq p).head = 0 ∧ (t.sq p).tail = 0 ∧ (t.sq p).errCode = 0 ∧ t.rings.cqs = s.rings.cqs ∧ t = { s with rings := t.rings, dev := { s.dev with armed := t.dev.armed } }) ∧
  (∀ (s : State) (m : Master) (c : Fin 1024) (v : Word),
      asleep s = false → masterOk m = true → does (.cqEnable m c v) s fun t =>
      t.cq c = { s.cq c with loc := v.getLsbD 30, size := v.extractLsb' 0 4, enable := v.extractLsb' 0 4 != 0 } ∧ t = { s with rings := t.rings, dev := { s.dev with armed := t.dev.armed } }) ∧
  (∀ (s : State) (m : Master) (c : Fin 1024) (v : Word),
      asleep s = false → (s.cq c).enable = true → (s.rings.sqs.all fun q => q.2.cq.toNat != c.val || q.2.state == 0) = true →
      masterOk m = true → does (.cqDisable m c v) s fun t =>
      (t.cq c).enable = false ∧ (t.cq c).staged = [] ∧ (t.cq c).discarded = (s.cq c).discarded + BitVec.ofNat 32 (s.cq c).staged.length ∧ (t.cq c).size = v.extractLsb' 0 4 ∧ t = { s with rings := t.rings, dev := { s.dev with armed := t.dev.armed }, intc := t.intc, out := t.out }) ∧
  (∀ (s : State) (m : Master) (c : Fin 1024),
      asleep s = false → (s.rings.sqs.all fun q => q.2.cq.toNat != c.val || q.2.state == 0) = true →
      masterOk m = true → does (.cqReset m c) s fun t =>
      (t.cq c).enable = false ∧ (t.cq c).head = 0 ∧ (t.cq c).tail = 0 ∧ (t.cq c).staged = [] ∧ t = { s with rings := t.rings, dev := { s.dev with armed := t.dev.armed }, intc := t.intc, out := t.out })

/-- On an awake device: ENTRY_FETCH for a running ring in host memory, given 1 to 8 entries, no more than wait, appends them to the fetched ones and moves the head past them, changing nothing but the rings; a failed fetch with entries waiting puts the ring into its error state with code 0x2, appends nothing, leaves the dictionary and stands in the fault log, as kind 0x09 of the host bridge where no record stood. DISPATCH
with one ring, allowed, takes the oldest fetched entry: the newest job has the next number, that ring, the entry's tag, opcode and address, already ended if the entry is malformed, and one more completion is reserved; only the rings change. JOB_COMPLETE of an ended job, its completion ring enabled, not full, in host memory and without staged completions, its own ring not draining, no ring aborting, removes the job,
counts it, frees its reserved place and writes its completion entry at the tail's place in host memory; only rings, interrupts and outputs change. -/
def Obligations.EntriesAndCompletions : Prop :=
  (∀ (s : State) (p : Fin 4096) (l : List Bytes),
      asleep s = false → (s.sq p).state = 1 → (s.sq p).loc = false → l ≠ [] → l.length ≤ 8 → l.length ≤ ringDist (s.sq p).size.toNat (s.sq p).head.toNat (s.sq p).tail.toNat →
      does (.entryFetch p (some l)) s fun t =>
      t.sq p = { s.sq p with head := BitVec.ofNat 16 (((s.sq p).head.toNat + l.length) % 2 ^ ((s.sq p).size.toNat + 1)), fetched := (s.sq p).fetched ++ l.map fun b => slice b 0 64 } ∧ t = { s with rings := t.rings }) ∧
  (∀ (s : State) (p : Fin 4096),
      asleep s = false → (s.sq p).state = 1 → (s.sq p).loc = false → ringDist (s.sq p).size.toNat (s.sq p).head.toNat (s.sq p).tail.toNat ≠ 0 →
      does (.entryFetch p none) s fun t =>
      (t.sq p).state = 2 ∧ (t.sq p).errCode = 2 ∧ (t.sq p).fetched = (s.sq p).fetched ∧ t.faults.valid = true ∧ (s.faults.valid = false → t.faults.kind = 0x09 ∧ t.faults.master = mHost) ∧ t.dict = s.dict) ∧
  (∀ (s : State) (p : Nat) (w : Sq) (b : Bytes) (r : List Bytes),
      asleep s = false → s.rings.sqs = [(p, w)] → mayDispatch s p w = true → w.fetched = b :: r → does (.dispatch) s fun t =>
      ((t.rings.jobs.getLast?).map fun j => (j.id, j.sq, j.tag.toNat, j.opcode.toNat, j.addr.toNat, j.ended.isSome)) = some (s.rings.nextJob, p, le32 b 4 % 2 ^ 32, u8 b 0, le64 b 0x10 % 2 ^ 64, badEntry b) ∧
      t.rings.jobs.length = s.rings.jobs.length + 1 ∧ (t.sq p).fetched = r ∧ (t.cq w.cq.toNat).reserved = (s.cq w.cq.toNat).reserved + 1 ∧ t.rings.nextJob = s.rings.nextJob + 1 ∧ t = { s with rings := t.rings }) ∧
  (∀ (s : State) (n : Nat) (j : HostJob) (st : BitVec 8) (res : Word) (inf : Word),
      asleep s = false → s.rings.jobs.find? (fun x => x.id == n) = some j → j.ended = some (st, res, inf) → (s.cq (s.sq j.sq).cq.toNat).enable = true → (s.cq (s.sq j.sq).cq.toNat).full = false → (s.cq (s.sq j.sq).cq.toNat).staged = [] → (s.cq (s.sq j.sq).cq.toNat).loc = false → (s.rings.sqs.all fun q => q.2.aborts.isEmpty) = true → (s.sq j.sq).state ≠ 3 → does (.jobComplete n) s fun t =>
      t.rings.jobs = s.rings.jobs.filter (fun x => x.id != n) ∧ (t.sq j.sq).done = (s.sq j.sq).done + 1 ∧ (t.cq (s.sq j.sq).cq.toNat).reserved = (s.cq (s.sq j.sq).cq.toNat).reserved - 1 ∧
      Output.hostWrite (BitVec.ofNat 64 ((s.cq (s.sq j.sq).cq.toNat).base.toNat + 16 * ((s.cq (s.sq j.sq).cq.toNat).tail.toNat % 2 ^ (s.cq (s.sq j.sq).cq.toNat).size.toNat))) (cqeBytes (s.cq (s.sq j.sq).cq.toNat).size.toNat (s.cq (s.sq j.sq).cq.toNat).tail.toNat ⟨j.tag, st, j.sq, res, inf⟩) ∈ t.out ∧
      t = { s with rings := t.rings, intc := t.intc, out := t.out })

/-- On an awake device, for a job of the command's opcode. NOP ends with status 0, or with 3 if it names an object. SURFACE_LOAD, in its turn, of a handle that exists and no context owns, with a defined depth, a whole picture of host data, enough unreserved frames and an empty handle, gives the handle a table of one block per CTU, ready, with the picture's width and the next generation, and ends with status 0 and its bytes. SURFACE_FREE of a pinned handle ends with
status 0, the handle free with no table, no block descriptor changed. SURFACE_READ of a ready surface with no poisoned block writes the blocks' bytes to the host at the job's address and ends with status 0 and their number, the pool as before. BITSTREAM of a valid context in bridge mode 4 with room in its queue and in its ring appends the access unit split into NAL units, its timestamp and codec taken from the
parameters, the ring's write place advancing by their bytes, and ends with status 0 and its length. PACKET_SEND of 60 to 9,216 bytes for a valid transmit queue with room in queue and cells and a port that is up puts the frame last in that queue and ends with status 0 and its length, dictionary and encode streams as before. RECEIVE_POST, oldest of its kind, makes the job's buffer the last posted one. Besides what is named, NOP and RECEIVE_POST change only the rings, SURFACE_FREE rings and pool,
SURFACE_LOAD these and the count of free values, SURFACE_READ rings and outputs, BITSTREAM rings, decode contexts and the ring's bytes in memory. -/
def Obligations.HostJobs : Prop :=
  (∀ (s : State) (n : Nat) (j : HostJob),
      asleep s = false → jobOf s n 0 = some j → j.object = 0 → does (.nop n) s fun t =>
      ((t.rings.jobs.find? fun x => x.id == n).bind fun x => x.ended) = some (0, 0, 0) ∧ t = { s with rings := t.rings }) ∧
  (∀ (s : State) (n : Nat) (j : HostJob),
      asleep s = false → jobOf s n 0 = some j → j.object ≠ 0 → does (.nop n) s fun t =>
      ((t.rings.jobs.find? fun x => x.id == n).bind fun x => x.ended) = some (3, 0, 0) ∧ t = { s with rings := t.rings }) ∧
  (∀ (s : State) (n : Nat) (j : HostJob) (d : Bytes),
      asleep s = false → jobOf s n 1 = some j → j.loaded = false → jobTurn s j = true → j.object.toNat < s.pool.handles → ownedByContext (s.surface j.object.toNat) = false → le16 j.params 0 ≠ 0 → le16 j.params 2 ≠ 0 → u8 j.params 4 = 8 ∨ u8 j.params 4 = 10 → bitOf j.flags.toNat 0 = false → jobLocal s j = false → j.len.toNat = 8192 * (ctuCols (le16 j.params 0) * ctuCols (le16 j.params 2)) →
      (ctuCols (le16 j.params 0) * ctuCols (le16 j.params 2)) ≤ unreserved s.pool →
      (s.surface j.object.toNat).prev = none → (s.surface j.object.toNat).table = [] → does (.surfaceLoad n { data := some d }) s fun t =>
      (t.surface j.object.toNat).table.length = (ctuCols (le16 j.params 0) * ctuCols (le16 j.params 2)) ∧ (t.surface j.object.toNat).state = .ready ∧ (t.surface j.object.toNat).width = le16 j.params 0 ∧ (t.surface j.object.toNat).gen = (s.surface j.object.toNat).gen + 1 ∧ ((t.rings.jobs.find? fun x => x.id == n).bind fun x => x.ended) = some (0, BitVec.ofNat 32 (8192 * (ctuCols (le16 j.params 0) * ctuCols (le16 j.params 2))), 0) ∧ t = { s with rings := t.rings, pool := t.pool, clk := t.clk }) ∧
  (∀ (s : State) (n : Nat) (j : HostJob),
      asleep s = false → jobOf s n 2 = some j → jobTurn s j = true → j.object.toNat < s.pool.handles → ownedByContext (s.surface j.object.toNat) = false → (s.surface j.object.toNat).pins + (s.surface j.object.toNat).prevPins ≠ 0 →
      does (.surfaceFree n) s fun t =>
      ((t.rings.jobs.find? fun x => x.id == n).bind fun x => x.ended) = some (0, 0, 0) ∧ (t.surface j.object.toNat).state = .free ∧ (t.surface j.object.toNat).table = [] ∧ t.pool.descs = s.pool.descs ∧ t = { s with rings := t.rings, pool := t.pool }) ∧
  (∀ (s : State) (n : Nat) (j : HostJob),
      asleep s = false → jobOf s n 3 = some j → jobTurn s j = true → j.object.toNat < s.pool.handles → ownedByContext (s.surface j.object.toNat) = false → (s.surface j.object.toNat).state = .ready → bitOf j.flags.toNat 0 = false → jobLocal s j = false → j.len.toNat = 8192 * (s.surface j.object.toNat).table.length → j.len ≠ 0 → ((s.surface j.object.toNat).table.any fun x => (s.pool.desc x.block).poisoned) = false →
      ((s.surface j.object.toNat).table.flatMap fun x => blockBytes (s.pool.desc x.block).data) ≠ [] →
      does (.surfaceRead n none false) s fun t =>
      Output.hostWrite (BitVec.ofNat 64 j.addr.toNat) (((s.surface j.object.toNat).table.flatMap fun x => blockBytes (s.pool.desc x.block).data).take j.len.toNat) ∈ t.out ∧ ((t.rings.jobs.find? fun x => x.id == n).bind fun x => x.ended) = some (0, BitVec.ofNat 32 ((s.surface j.object.toNat).table.flatMap fun x => blockBytes (s.pool.desc x.block).data).length, 0) ∧ t.pool = s.pool ∧ t = { s with rings := t.rings, out := t.out }) ∧
  (∀ (s : State) (n : Nat) (j : HostJob) (d : Bytes),
      asleep s = false → jobOf s n 4 = some j → jobTurn s j = true → j.object.toNat < 4096 → decValid s j.object.toNat = true → fld s 0x8003 j.object.toNat 2 = 4 → (s.dec j.object.toNat).queue.length < par s 0x5040 1 → ringHeld (s.dec j.object.toNat) + sumNat ((splitNals (slice d 0 j.len.toNat) []).map List.length) ≤ (s.dec j.object.toNat).ringSize →
      bitOf j.flags.toNat 0 = false → jobLocal s j = false → does (.bitstream n { data := some d }) s fun t =>
      (t.dec j.object.toNat).queue = (s.dec j.object.toNat).queue ++ [{ nals := splitNals (slice d 0 j.len.toNat) [], rtp := BitVec.ofNat 32 (le32 j.params 4), completeAt := s.clk.now, arrived := s.time.ptp, codec := u8 j.params 0 }] ∧ ((t.rings.jobs.find? fun x => x.id == n).bind fun x => x.ended) = some (0, BitVec.ofNat 32 (slice d 0 j.len.toNat).length, 0) ∧ (t.dec j.object.toNat).ringIn = (s.dec j.object.toNat).ringIn + sumNat ((splitNals (slice d 0 j.len.toNat) []).map List.length) ∧ t = { s with rings := t.rings, decs := t.decs, mem := t.mem }) ∧
  (∀ (s : State) (n : Nat) (j : HostJob) (d : Bytes),
      asleep s = false → jobOf s n 5 = some j → j.object.toNat < 65536 → j.object.toNat < 65400 ∨ 65407 < j.object.toNat → fldB s 0x8007 j.object.toNat 1 = true → bitOf j.flags.toNat 0 = false → jobLocal s j = false → 60 ≤ j.len.toNat → j.len.toNat ≤ 9216 → (s.queue j.object.toNat).depth < fld s 0x8007 j.object.toNat 9 →
      s.bpm.owners.length + cellsOf (slice d 0 j.len.toNat).length ≤ 262144 →
      16 ≤ queuePort s j.object.toNat ∨ linkUp s (queuePort s j.object.toNat) = true →
      does (.packetSend n { data := some d }) s fun t =>
      (((t.queue j.object.toNat).copies.getLast?).map fun c => c.data) = some (slice d 0 j.len.toNat) ∧ (t.queue j.object.toNat).copies.length = (s.queue j.object.toNat).copies.length + 1 ∧ ((t.rings.jobs.find? fun x => x.id == n).bind fun x => x.ended) = some (0, BitVec.ofNat 32 (slice d 0 j.len.toNat).length, 0) ∧ t.dict = s.dict ∧ t.encs = s.encs) ∧
  (∀ (s : State) (n : Nat) (j : HostJob),
      asleep s = false → jobOf s n 6 = some j → s.rings.posted.contains j.id = false → (s.rings.jobs.any fun x => decide (x.id < j.id) && x.opcode == 6 && x.ended.isNone && !(s.rings.posted.contains x.id)) = false →
      j.object = 0 → bitOf j.flags.toNat 0 = false → does (.receivePost n none) s fun t =>
      t.rings.posted = s.rings.posted ++ [j.id] ∧ ((t.rings.jobs.find? fun x => x.id == n).map fun x => x.frags) = some [(j.addr.toNat, j.len.toNat)] ∧ t = { s with rings := t.rings })

/-- On an awake device. DMA_GO with the engine not halted: an idle, unpaused channel with a valid transfer runs; an idle one of length 0 ends at once with error 0x3; a running or pausing one holds the start. DMA_PAUSE of a channel that does not run sets only PAUSE; of a running one with no start held it leaves it paused, or done with length 0, never with a longer rest. DMA_RESUME of a paused channel runs it, PAUSE clear.
DMA_ABORT of a paused or pausing channel with no start held ends it with error 0x5; of a running one likewise, never with a longer rest. DMA_ACCESS_ERROR by the host on a running channel with a host side, no other channel running, ends it with error 0x1, halts the engine, names the channel if the engine was not halted, and stands in the fault log, as kind 0x0A of the channel at that address where no record stood and the channel
writes to the host; the dictionary stays. DMA_HALTED_CLEAR with no channel pausing and no start held clears only HALTED. -/
def Obligations.DmaStartsAndStops : Prop :=
  (∀ (s : State) (m : Master) (ch : Fin 32),
      asleep s = false → s.dma.halted = false → (s.chan ch).state = 0 → (s.chan ch).invalid = false → (s.chan ch).pause = false → masterOk m = true → does (.dmaGo m ch) s fun t =>
      t.chan ch = { s.chan ch with held := false, state := 1 } ∧ t = { s with dma := t.dma, dev := { s.dev with armed := t.dev.armed }, intc := t.intc, out := t.out }) ∧
  (∀ (s : State) (m : Master) (ch : Fin 32),
      asleep s = false → s.dma.halted = false → (s.chan ch).state = 0 → (s.chan ch).len = 0 → masterOk m = true → does (.dmaGo m ch) s fun t =>
      t.chan ch = { s.chan ch with held := false, err := true, errCode := 3, state := 0 } ∧ t = { s with dma := t.dma, dev := { s.dev with armed := t.dev.armed }, intc := t.intc, out := t.out }) ∧
  (∀ (s : State) (m : Master) (ch : Fin 32),
      asleep s = false → s.dma.halted = false → (s.chan ch).state = 1 ∨ (s.chan ch).state = 2 → masterOk m = true → does (.dmaGo m ch) s fun t =>
      t.chan ch = { s.chan ch with held := true } ∧ t = { s with dma := t.dma, dev := { s.dev with armed := t.dev.armed }, intc := t.intc, out := t.out }) ∧
  (∀ (s : State) (m : Master) (ch : Fin 32),
      asleep s = false → (s.chan ch).state ≠ 1 → masterOk m = true → does (.dmaPause m ch) s fun t =>
      t.chan ch = { s.chan ch with pause := true } ∧ t = { s with dma := t.dma, dev := { s.dev with armed := t.dev.armed }, intc := t.intc, out := t.out }) ∧
  (∀ (s : State) (m : Master) (ch : Fin 32),
      asleep s = false → (s.chan ch).state = 1 → (s.chan ch).held = false → masterOk m = true → does (.dmaPause m ch) s fun t =>
      (t.chan ch).pause = true ∧ ((t.chan ch).state = 3 ∨ ((t.chan ch).state = 0 ∧ (t.chan ch).done = true ∧ (t.chan ch).len = 0)) ∧ (t.chan ch).len.toNat ≤ (s.chan ch).len.toNat ∧ t.dma.halted = s.dma.halted ∧ t.dict = s.dict) ∧
  (∀ (s : State) (m : Master) (ch : Fin 32),
      asleep s = false → (s.chan ch).state = 3 → masterOk m = true → does (.dmaResume m ch) s fun t =>
      t.chan ch = { s.chan ch with pause := false, state := 1 } ∧ t = { s with dma := t.dma, dev := { s.dev with armed := t.dev.armed }, intc := t.intc, out := t.out }) ∧
  (∀ (s : State) (m : Master) (ch : Fin 32),
      asleep s = false → (s.chan ch).state = 3 ∨ (s.chan ch).state = 2 → (s.chan ch).held = false → masterOk m = true → does (.dmaAbort m ch) s fun t =>
      t.chan ch = { s.chan ch with state := 0, err := true, errCode := 5 } ∧ t = { s with dma := t.dma, dev := { s.dev with armed := t.dev.armed }, intc := t.intc, out := t.out }) ∧
  (∀ (s : State) (m : Master) (ch : Fin 32),
      asleep s = false → (s.chan ch).state = 1 → (s.chan ch).held = false → masterOk m = true → does (.dmaAbort m ch) s fun t =>
      (t.chan ch).state = 0 ∧ (t.chan ch).err = true ∧ (t.chan ch).errCode = 5 ∧ (t.chan ch).len.toNat ≤ (s.chan ch).len.toNat ∧ t.dma.halted = s.dma.halted ∧ t.dict = s.dict) ∧
  (∀ (s : State) (ch : Fin 32) (a : BitVec 48) (d : Bytes),
      asleep s = false → (s.chan ch).state = 1 → (s.chan ch).srcDev = false ∨ (s.chan ch).dstDev = false → (s.dma.chans.all fun q => q.1 == ch.val || (q.2.state != 1 && q.2.state != 2)) = true →
      does (.dmaAccessError ch .host a d) s fun t =>
      (t.chan ch).state = 0 ∧ (t.chan ch).err = true ∧ (t.chan ch).errCode = 1 ∧ t.dma.halted = true ∧ (s.dma.halted = false → t.dma.channel = BitVec.ofNat 5 ch) ∧ t.faults.valid = true ∧ (s.faults.valid = false → (s.chan ch).dstDev = false → t.faults.kind = 0x0A ∧ t.faults.master = mDma ch ∧ t.faults.addr = BitVec.ofNat 48 a.toNat) ∧ t.dict = s.dict) ∧
  (∀ (s : State) (m : Master),
      asleep s = false → (s.dma.chans.all fun q => q.2.state != 2 && !q.2.held) = true →
      masterOk m = true → does (.dmaHaltedClear m) s fun t =>
      t.dma = { s.dma with halted := false } ∧ t = { s with dma := t.dma, dev := { s.dev with armed := t.dev.armed }, intc := t.intc, out := t.out })

/-- DMA_DONE on an awake device with canonical device memory, for a running channel with incrementing addresses and no start held, leaves it idle with DONE, length 0 and both addresses past the last byte. With a device destination whose accesses are all mapped, device memory there then holds the bytes the source gave (what device memory read there before, every source access readable; or the host's bytes), and every byte
outside it is unchanged; below the HBM region the pool is unchanged too. To a host destination no byte of device memory and nothing of the pool changes. Besides memory and pool only the DMA engine, interrupts and outputs change; from host to host not even memory. -/
def Obligations.DmaCopies : Prop :=
  (∀ (s : State) (ch : Fin 32),
      asleep s = false → (s.chan ch).state = 1 → (s.chan ch).srcFixed = false → (s.chan ch).dstFixed = false → (s.chan ch).held = false → s.mem.wf = true → (s.chan ch).srcDev = true → (s.chan ch).dstDev = true → readable s (mDma ch) (accesses false (s.chan ch).unit ((s.chan ch).len.toNat + 1) (s.chan ch).src.toNat (s.chan ch).len.toNat) = ((s.chan ch).len.toNat, none) →
      ((accesses false (s.chan ch).unit ((s.chan ch).len.toNat + 1) (s.chan ch).dst.toNat (s.chan ch).len.toNat).all fun x => devMapped s (mDma ch) x.1 x.2) = true →
      does (.dmaDone ch [] []) s fun t =>
      (t.chan ch).state = 0 ∧ (t.chan ch).done = true ∧ (t.chan ch).len = 0 ∧ (t.chan ch).src = (s.chan ch).src + BitVec.ofNat 64 (s.chan ch).len.toNat ∧ (t.chan ch).dst = (s.chan ch).dst + BitVec.ofNat 64 (s.chan ch).len.toNat ∧
      bytesAt t.mem.dev (s.chan ch).dst.toNat (s.chan ch).len.toNat = s.devRead (s.chan ch).src.toNat (s.chan ch).len.toNat ∧
      (∀ a, a < (s.chan ch).dst.toNat ∨ (s.chan ch).dst.toNat + (s.chan ch).len.toNat ≤ a → byteAt t.mem.dev a = byteAt s.mem.dev a) ∧
      ((s.chan ch).dst.toNat + (s.chan ch).len.toNat ≤ 0x010000000000 → t.pool = s.pool) ∧ t = { s with dma := t.dma, mem := t.mem, pool := t.pool, intc := t.intc, out := t.out }) ∧
  (∀ (s : State) (ch : Fin 32) (d : Bytes),
      asleep s = false → (s.chan ch).state = 1 → (s.chan ch).srcFixed = false → (s.chan ch).dstFixed = false → (s.chan ch).held = false → s.mem.wf = true → (s.chan ch).srcDev = false → (s.chan ch).dstDev = true → ((accesses false (s.chan ch).unit ((s.chan ch).len.toNat + 1) (s.chan ch).dst.toNat (s.chan ch).len.toNat).all fun x => devMapped s (mDma ch) x.1 x.2) = true →
      does (.dmaDone ch d []) s fun t =>
      (t.chan ch).state = 0 ∧ (t.chan ch).done = true ∧ (t.chan ch).len = 0 ∧ (t.chan ch).src = (s.chan ch).src + BitVec.ofNat 64 (s.chan ch).len.toNat ∧ (t.chan ch).dst = (s.chan ch).dst + BitVec.ofNat 64 (s.chan ch).len.toNat ∧
      bytesAt t.mem.dev (s.chan ch).dst.toNat (s.chan ch).len.toNat = slice d 0 (s.chan ch).len.toNat ∧
      (∀ a, a < (s.chan ch).dst.toNat ∨ (s.chan ch).dst.toNat + (s.chan ch).len.toNat ≤ a → byteAt t.mem.dev a = byteAt s.mem.dev a) ∧
      ((s.chan ch).dst.toNat + (s.chan ch).len.toNat ≤ 0x010000000000 → t.pool = s.pool) ∧ t = { s with dma := t.dma, mem := t.mem, pool := t.pool, intc := t.intc, out := t.out }) ∧
  (∀ (s : State) (ch : Fin 32),
      asleep s = false → (s.chan ch).state = 1 → (s.chan ch).srcFixed = false → (s.chan ch).dstFixed = false → (s.chan ch).held = false → (s.chan ch).srcDev = true → (s.chan ch).dstDev = false → readable s (mDma ch) (accesses false (s.chan ch).unit ((s.chan ch).len.toNat + 1) (s.chan ch).src.toNat (s.chan ch).len.toNat) = ((s.chan ch).len.toNat, none) →
      does (.dmaDone ch [] []) s fun t =>
      (t.chan ch).state = 0 ∧ (t.chan ch).done = true ∧ (t.chan ch).len = 0 ∧ (t.chan ch).src = (s.chan ch).src + BitVec.ofNat 64 (s.chan ch).len.toNat ∧ (t.chan ch).dst = (s.chan ch).dst + BitVec.ofNat 64 (s.chan ch).len.toNat ∧ t.mem.dev = s.mem.dev ∧ t = { s with dma := t.dma, mem := t.mem, intc := t.intc, out := t.out }) ∧
  (∀ (s : State) (ch : Fin 32) (d : Bytes),
      asleep s = false → (s.chan ch).state = 1 → (s.chan ch).srcFixed = false → (s.chan ch).dstFixed = false → (s.chan ch).held = false → (s.chan ch).srcDev = false → (s.chan ch).dstDev = false → does (.dmaDone ch d []) s fun t =>
      (t.chan ch).state = 0 ∧ (t.chan ch).done = true ∧ (t.chan ch).len = 0 ∧ (t.chan ch).src = (s.chan ch).src + BitVec.ofNat 64 (s.chan ch).len.toNat ∧ (t.chan ch).dst = (s.chan ch).dst + BitVec.ofNat 64 (s.chan ch).len.toNat ∧ t = { s with dma := t.dma, intc := t.intc, out := t.out })

/-- On an awake device; the controller and the outputs change, memory too where an event is written, and nothing else unless named. INTERRUPT_RAISE of a shared edge source makes it pending, no other but 0x016 changing; of a private source, at its core. INTERRUPT_CLAIM answers the best eligible source's number and makes it active at the target, an edge source no longer pending; with none eligible and a notification outstanding it
answers 0xFFF and counts it. INTERRUPT_COMPLETE of a source active at the target ends that; of any other number it is counted, is in the fault log, as kind 0x07 of the writer at that register where no record stood, and leaves the dictionary. PEND_SET and PEND_CLR, on a reachable bank, set and clear the pending bit of every edge source whose bit is written (an event of the same cycle leaves it set), MASK_SET and MASK_CLR
mask and unmask every source whose bit is written; sources not named keep theirs. SGI makes its number pending at the named core in service. MODERATION_EXPIRY of a Class B source no longer held and eligible notifies its vector. STREAM_LOG_TAKE answers the oldest entry of the log, removes it and latches its high word. -/
def Obligations.InterruptSources : Prop :=
  (∀ (s : State) (n : BitVec 12) (m : Master) (d : Bytes),
      asleep s = false → edgeIn .shared n.toNat = true → masterOk m = true → does (.interruptRaise .shared n m d) s fun t =>
      (t.intc.src n.toNat).pending = true ∧ (∀ k, k ≠ n.toNat → k ≠ 0x016 → (t.intc.src k).pending = (s.intc.src k).pending) ∧ t = { s with intc := t.intc, mem := t.mem, out := t.out }) ∧
  (∀ (s : State) (k : Fin 16) (n : BitVec 12) (m : Master) (d : Bytes),
      asleep s = false → edgeIn (.priv k) n.toNat = true → masterOk m = true → does (.interruptRaise (.priv k) n m d) s fun t =>
      (t.intc.src (srcKey (.priv k) n.toNat)).pending = true ∧ t = { s with intc := t.intc, out := t.out }) ∧
  (∀ (s : State) (m : Master) (g : IntTarget) (k : Nat),
      asleep s = false → bestSrc s (eligibleKeys s g) = some k → masterOk m = true → does (.interruptClaim m g) s fun t =>
      Output.readData m (BitVec.ofNat 32 (srcNum k)) ∈ t.out ∧ (t.intc.src k).active = some g ∧ (isLevel k = false → (t.intc.src k).pending = false) ∧ t = { s with intc := t.intc, out := t.out }) ∧
  (∀ (s : State) (m : Master) (g : IntTarget),
      asleep s = false → bestSrc s (eligibleKeys s g) = none → s.intc.notified.contains g = true → masterOk m = true → does (.interruptClaim m g) s fun t =>
      Output.readData m 0xFFF ∈ t.out ∧ t.intc.spurious = sat32 s.intc.spurious ∧ t = { s with intc := t.intc, out := t.out }) ∧
  (∀ (s : State) (m : Master) (g : IntTarget) (n : BitVec 12),
      asleep s = false → (s.intc.src (completeKey g n.toNat)).active = some g → masterOk m = true → does (.interruptComplete m g n) s fun t =>
      (t.intc.src (completeKey g n.toNat)).active = none ∧ t.intc.badComplete = s.intc.badComplete ∧ t = { s with dev := { s.dev with armed := t.dev.armed }, intc := t.intc, out := t.out }) ∧
  (∀ (s : State) (m : Master) (g : IntTarget) (n : BitVec 12),
      asleep s = false → (s.intc.src (completeKey g n.toNat)).active ≠ some g → masterOk m = true → does (.interruptComplete m g n) s fun t =>
      t.intc.badComplete = sat32 s.intc.badComplete ∧ t.faults.valid = true ∧ (s.faults.valid = false → t.faults.kind = 0x07 ∧ t.faults.master = m ∧ t.faults.addr = BitVec.ofNat 48 (claimAddr g)) ∧ t.dict = s.dict) ∧
  (∀ (s : State) (m : Master) (bank : IntBank) (w : Fin 128) (v : Word),
      asleep s = false → bankReachable s bank = true → masterOk m = true → does (.pendSet m bank w v) s fun t =>
      (∀ i, i < 32 → v.getLsbD i = true → edgeIn bank (arrayNum bank w i) = true → (t.intc.src (srcKey bank (arrayNum bank w i))).pending = true) ∧
      (∀ k, (∀ i, i < 32 → v.getLsbD i = true → k ≠ srcKey bank (arrayNum bank w i)) → (t.intc.src k).pending = (s.intc.src k).pending) ∧ (∀ k, (t.intc.src k).unmasked = (s.intc.src k).unmasked) ∧ t = { s with dev := { s.dev with armed := t.dev.armed }, intc := t.intc, out := t.out }) ∧
  (∀ (s : State) (m : Master) (bank : IntBank) (w : Fin 128) (v : Word),
      asleep s = false → bankReachable s bank = true → masterOk m = true → does (.pendClr m bank w v 0) s fun t =>
      (∀ i, i < 32 → v.getLsbD i = true → edgeIn bank (arrayNum bank w i) = true → (t.intc.src (srcKey bank (arrayNum bank w i))).pending = false) ∧
      (∀ k, (∀ i, i < 32 → v.getLsbD i = true → k ≠ srcKey bank (arrayNum bank w i)) → (t.intc.src k).pending = (s.intc.src k).pending) ∧ (∀ k, (t.intc.src k).unmasked = (s.intc.src k).unmasked) ∧ t = { s with dev := { s.dev with armed := t.dev.armed }, intc := t.intc, out := t.out }) ∧
  (∀ (s : State) (m : Master) (bank : IntBank) (w : Fin 128) (v : Word),
      asleep s = false → bankReachable s bank = true → masterOk m = true → does (.pendClr m bank w v v) s fun t =>
      (∀ i, i < 32 → v.getLsbD i = true → edgeIn bank (arrayNum bank w i) = true → (t.intc.src (srcKey bank (arrayNum bank w i))).pending = true) ∧
      (∀ k, (∀ i, i < 32 → v.getLsbD i = true → k ≠ srcKey bank (arrayNum bank w i)) → (t.intc.src k).pending = (s.intc.src k).pending) ∧ (∀ k, (t.intc.src k).unmasked = (s.intc.src k).unmasked) ∧ t = { s with dev := { s.dev with armed := t.dev.armed }, intc := t.intc, out := t.out }) ∧
  (∀ (s : State) (m : Master) (bank : IntBank) (w : Fin 128) (v : Word),
      asleep s = false → bankReachable s bank = true → masterOk m = true → does (.maskSet m bank w v) s fun t =>
      (∀ i, i < 32 → v.getLsbD i = true → sourceIn bank (arrayNum bank w i) = true → (t.intc.src (srcKey bank (arrayNum bank w i))).unmasked = false) ∧
      (∀ k, (∀ i, i < 32 → v.getLsbD i = true → k ≠ srcKey bank (arrayNum bank w i)) → (t.intc.src k).unmasked = (s.intc.src k).unmasked) ∧ (∀ k, (t.intc.src k).pending = (s.intc.src k).pending) ∧ t = { s with dev := { s.dev with armed := t.dev.armed }, intc := t.intc, out := t.out }) ∧
  (∀ (s : State) (m : Master) (bank : IntBank) (w : Fin 128) (v : Word),
      asleep s = false → bankReachable s bank = true → masterOk m = true → does (.maskClr m bank w v) s fun t =>
      (∀ i, i < 32 → v.getLsbD i = true → sourceIn bank (arrayNum bank w i) = true → (t.intc.src (srcKey bank (arrayNum bank w i))).unmasked = true) ∧
      (∀ k, (∀ i, i < 32 → v.getLsbD i = true → k ≠ srcKey bank (arrayNum bank w i)) → (t.intc.src k).unmasked = (s.intc.src k).unmasked) ∧ (∀ k, (t.intc.src k).pending = (s.intc.src k).pending) ∧ t = { s with dev := { s.dev with armed := t.dev.armed }, intc := t.intc, out := t.out }) ∧
  (∀ (s : State) (m : Master) (k : Fin 16) (v : Word),
      asleep s = false → corePhys s (v.toNat % 16) ≠ 0xFF → masterOk m = true → does (.sgi m k v) s fun t =>
      (t.intc.src (4096 * (v.toNat % 16 + 1) + 0x40 + k)).pending = true ∧ t = { s with dev := { s.dev with armed := t.dev.armed }, intc := t.intc, out := t.out }) ∧
  (∀ (s : State) (n : BitVec 12) (v : Fin 2048),
      asleep s = false → n.toNat ∈ candidates s → modHeld s n.toNat = false → isClassA s n.toNat = false → classBTarget s n.toNat = .vector v → eligibleAt s (.vector v) n.toNat = true → does (.moderationExpiry n) s fun t =>
      t.intc.notified.contains (.vector v) = true ∧ t = { s with intc := t.intc, out := t.out }) ∧
  (∀ (s : State) (m : Master) (c : Fin 8) (lo : Word) (hi : Word) (r : List (Word × Word)),
      asleep s = false → lookD [] s.intc.logs c.val = (lo, hi) :: r → masterOk m = true → does (.streamLogTake m c) s fun t =>
      Output.readData m (logWord lo) ∈ t.out ∧ lookD [] t.intc.logs c.val = r ∧ look t.dev.rdShadow (shadowKey m (0x45000 + 8 * c.val)) = some hi ∧ t = { s with dev := t.dev, intc := t.intc, out := t.out })

/-- On an awake device, the owner table in order where a buffer is taken or freed. BUFFER_ALLOCATE in ring mode with a free buffer and a clean read answers a buffer that had no owner, with bit 31 set, now owned by the reading master, every other owner as before, and sets `ALLOC_BAD` if the cache named an allocated buffer first; in bitmap mode with all buffers free and fewer than two allocations counted it takes buffer 0. A word that cannot be corrected takes the pool out of ring mode, a buffer is allocated all the same (with fewer than two allocations counted), and the fault log
holds it, as kind 0x01 of the pool manager where no record stood, the dictionary as before. BUFFER_FREE by the owner leaves the buffer without one, every other owner and the count of rejections as before; by another master, or of a buffer without owner, owners stay and the rejection is counted with its reason, master and buffer, and is in the fault log, as kind 0x06 of that master where no record stood.
BUFFER_GIVE by the owner changes that owner alone. BPM_MIN_FREE_WRITE sets the lowest count to the free count; BITMAP_REBUILD_DONE returns to ring mode. -/
def Obligations.BuffersOfThePool : Prop :=
  (∀ (s : State) (m : Master) (l : List (BitVec 18)),
      asleep s = false → s.bpm.owners.length < 262144 → tabWf s.bpm.owners = true → s.bpm.mode = 0 → masterOk m = true → does (.bufferAllocate m .clean l) s fun t =>
      (∃ b, look s.bpm.owners b = none ∧ look t.bpm.owners b = some m ∧ (∀ c, c ≠ b → look t.bpm.owners c = look s.bpm.owners c) ∧ t.out.getLast? = some (.readData m (BitVec.ofNat 32 (0x80000000 + b)))) ∧ ((∃ x ∈ l, look s.bpm.owners x.toNat ≠ none) → t.bpm.err.getLsbD 2 = true) ∧ t = { s with bpm := t.bpm, clk := t.clk, intc := t.intc, mem := t.mem, out := t.out }) ∧
  (∀ (s : State) (m : Master),
      asleep s = false → s.bpm.owners = [] → s.bpm.mode = 1 → s.bpm.rateN < 2 → masterOk m = true → does (.bufferAllocate m .clean []) s fun t =>
      look t.bpm.owners 0 = some m ∧ t.out.getLast? = some (.readData m 0x80000000) ∧ t = { s with bpm := t.bpm, clk := t.clk, intc := t.intc, mem := t.mem, out := t.out }) ∧
  (∀ (s : State) (m : Master),
      asleep s = false → s.bpm.owners.length < 262144 → tabWf s.bpm.owners = true → s.bpm.mode = 0 → s.bpm.rateN < 2 → masterOk m = true → does (.bufferAllocate m .uncorrectable []) s fun t =>
      t.bpm.mode ≠ 0 ∧ t.bpm.owners.length = s.bpm.owners.length + 1 ∧ t.faults.valid = true ∧ (s.faults.valid = false → t.faults.kind = 0x01 ∧ t.faults.master = mBpm) ∧ t.dict = s.dict) ∧
  (∀ (s : State) (m : Master) (b : BitVec 18),
      asleep s = false → look s.bpm.owners b.toNat = some m → tabWf s.bpm.owners = true → masterOk m = true → does (.bufferFree m b) s fun t =>
      look t.bpm.owners b.toNat = none ∧ (∀ c, c ≠ b.toNat → look t.bpm.owners c = look s.bpm.owners c) ∧ t.bpm.rejects = s.bpm.rejects ∧ t = { s with bpm := t.bpm, dev := { s.dev with armed := t.dev.armed }, intc := t.intc, mem := t.mem, out := t.out }) ∧
  (∀ (s : State) (m : Master) (b : BitVec 18) (o : Master),
      asleep s = false → look s.bpm.owners b.toNat = some o → o ≠ m → masterOk m = true → does (.bufferFree m b) s fun t =>
      t.bpm.owners = s.bpm.owners ∧ t.bpm.rejects = sat32 s.bpm.rejects ∧ t.bpm.lastMaster = m ∧ t.bpm.lastBuffer.toNat = b.toNat ∧ t.bpm.lastReason = 2 ∧ t.faults.valid = true ∧ (s.faults.valid = false → t.faults.kind = 0x06 ∧ t.faults.master = m) ∧ t.dict = s.dict) ∧
  (∀ (s : State) (m : Master) (b : BitVec 18),
      asleep s = false → look s.bpm.owners b.toNat = none → masterOk m = true → does (.bufferFree m b) s fun t =>
      t.bpm.owners = s.bpm.owners ∧ t.bpm.rejects = sat32 s.bpm.rejects ∧ t.bpm.lastMaster = m ∧ t.bpm.lastBuffer.toNat = b.toNat ∧ t.bpm.lastReason = 1 ∧ t.faults.valid = true ∧ (s.faults.valid = false → t.faults.kind = 0x06 ∧ t.faults.master = m) ∧ t.dict = s.dict) ∧
  (∀ (s : State) (m : Master) (b : BitVec 18) (o : Master),
      asleep s = false → look s.bpm.owners b.toNat = some m → masterOk m = true → does (.bufferGive m b o) s fun t =>
      look t.bpm.owners b.toNat = some o ∧ (∀ c, c ≠ b.toNat → look t.bpm.owners c = look s.bpm.owners c) ∧ t = { s with bpm := { s.bpm with owners := t.bpm.owners }, dev := { s.dev with armed := t.dev.armed } }) ∧
  (∀ (s : State) (m : Master) (v : Word),
      asleep s = false → masterOk m = true → does (.bpmMinFreeWrite m v) s fun t =>
      t = { s with bpm := { s.bpm with minFree := BitVec.ofNat 32 s.bpm.free }, dev := { s.dev with armed := t.dev.armed } }) ∧
  (∀ (s : State),
      asleep s = false → does (.bitmapRebuildDone) s fun t =>
      t = { s with bpm := { s.bpm with mode := 0 } })

/-- On an awake device. PATROL_SCRUB of an SRAM row counts one corrected error and nothing outside the fault unit changes while the row stays under its hourly threshold; at it, not listed before and with room in the list, the row joins the soft-repair list of the sparing map, which is the stored one unless the store is closed. PATROL_SCRUB of the scrub's own address, in trained memory and not poisoned: a word read clean only moves the scrub on by
32 bytes; behind the end of HBM3E the scrub goes to DDR5, or, without it, to the start, counting a pass; a corrected word is counted in its counter and as a corrected error, device memory and the fault record staying unless more bits are wrong than the code corrects, then the memory outside that word; an uncorrectable word is counted, is a contained error, raises source 0x002 and stands in the fault log, as kind 0x01 of a read at that address where no record
stood, dictionary and pool as before, and one of usable DDR5 begins the migration of its rank where the channel has an unused spare. PSEUDO_CHANNEL_REGROW of a trained stack with a free spare begins the copy; with the spare in use nothing changes. PSEUDO_CHANNEL_COPY_DONE, the lost words all in that pseudo-channel, puts the spare in its place in stack and sparing map, counts it, raises source 0x014, and poisons and counts the lost words; with none lost nothing else but memory state, sparing map, interrupts and outputs changes. RANK_RETIRE of a rank in a trained
channel with an unused spare begins the migration; without a spare nothing changes. RANK_MIGRATION_DONE, the lost words all in that rank, retires it into the spare in channel and sparing map, counts it, raises 0x014, poisons and counts the lost words, and changes the fault record only when some were lost. RANK_POWER_DOWN of a trained, powered rank that is not migrating and had no access for the time of 0x2050:04 powers it down and forgets its open rows. -/
def Obligations.MemoryScrubAndSpares : Prop :=
  (∀ (s : State) (a : BitVec 48) (r : Nat) (u : Option HwUnit),
      asleep s = false → hourCount (s.sramCounted r u) (0x40000 + r) < par s 0x7030 4 → does (.patrolScrub a (.sram r u)) s fun t =>
      t.faults.corrected = sat32 s.faults.corrected ∧ t = { s with faults := t.faults }) ∧
  (∀ (s : State) (a : BitVec 48) (r : Nat) (u : Option HwUnit),
      asleep s = false → par s 0x7030 4 ≤ hourCount (s.sramCounted r u) (0x40000 + r) → s.sparing.repairs.contains r = false → s.sparing.repairs.length < 256 → does (.patrolScrub a (.sram r u)) s fun t =>
      t.sparing = { s.sparing with repairs := s.sparing.repairs ++ [r] } ∧ (storeShut s = false → t.store.sparing = t.sparing) ∧ (storeShut s = true → t.store.sparing = s.store.sparing) ∧ t.faults.corrected = sat32 s.faults.corrected ∧ t = { s with faults := t.faults, store := t.store }) ∧
  (∀ (s : State) (a : BitVec 48) (e : CodeErr),
      asleep s = false → a.toNat = s.mem.scrubAt → s.boot.hbm = true → a.toNat + 32 < hbmEnd → s.mem.poison.contains (a.toNat / 32) = false → codeOutcome e s.clk.free = .clean → does (.patrolScrub a (.hbm e)) s fun t =>
      t.mem.scrubAt = a.toNat + 32 ∧ (∀ k, lookD 0 t.mem.counters k = lookD 0 s.mem.counters k) ∧ t = { s with mem := { s.mem with scrubAt := t.mem.scrubAt, counters := t.mem.counters }, clk := { s.clk with free := s.clk.free + 1 } }) ∧
  (∀ (s : State) (a : BitVec 48) (e : CodeErr),
      asleep s = false → a.toNat = s.mem.scrubAt → s.boot.hbm = true → a.toNat + 32 = hbmEnd → s.mem.poison.contains (a.toNat / 32) = false → s.mem.ddrBytes = 0 → codeOutcome e s.clk.free = .clean → does (.patrolScrub a (.hbm e)) s fun t =>
      t.mem.scrubAt = hbmBase ∧ lookD 0 t.mem.counters 0x0C = lookD 0 s.mem.counters 0x0C + 1) ∧
  (∀ (s : State) (a : BitVec 48) (e : CodeErr),
      asleep s = false → a.toNat = s.mem.scrubAt → s.boot.hbm = true → a.toNat + 32 = hbmEnd → s.mem.poison.contains (a.toNat / 32) = false → s.mem.ddrBytes ≠ 0 → codeOutcome e s.clk.free = .clean → does (.patrolScrub a (.hbm e)) s fun t =>
      t.mem.scrubAt = ddrBase ∧ lookD 0 t.mem.counters 0x0C = lookD 0 s.mem.counters 0x0C) ∧
  (∀ (s : State) (a : BitVec 48) (e : CodeErr),
      asleep s = false → a.toNat = s.mem.scrubAt → s.boot.hbm = true → a.toNat < hbmEnd → s.mem.poison.contains (a.toNat / 32) = false → codeOutcome e s.clk.free = .corrected → does (.patrolScrub a (.hbm e)) s fun t =>
      lookD 0 t.mem.counters 4 = lookD 0 s.mem.counters 4 + 1 ∧ t.faults.corrected = sat32 s.faults.corrected ∧ t.faults.valid = s.faults.valid ∧ (codeMany e = false → t.mem.dev = s.mem.dev) ∧ (∀ x, x < a.toNat / 32 * 32 ∨ a.toNat / 32 * 32 + 32 ≤ x → byteAt t.mem.dev x = byteAt s.mem.dev x) ∧ t = { s with mem := t.mem, faults := t.faults, clk := { s.clk with free := s.clk.free + 1 } }) ∧
  (∀ (s : State) (a : BitVec 48) (e : CodeErr),
      asleep s = false → a.toNat = s.mem.scrubAt → s.boot.hbm = true → a.toNat < hbmEnd → codeOutcome e s.clk.free = .uncorrectable ∨ s.mem.poison.contains (a.toNat / 32) = true →
      does (.patrolScrub a (.hbm e)) s fun t =>
      lookD 0 t.mem.counters 7 = lookD 0 s.mem.counters 7 + 1 ∧ t.faults.contained = sat32 s.faults.contained ∧ t.faults.valid = true ∧ (s.faults.valid = false → t.faults.kind = 0x01 ∧ t.faults.access = 0 ∧ t.faults.addr = a) ∧ (t.intc.src 2).pending = true ∧ t.dict = s.dict ∧ t.pool = s.pool) ∧
  (∀ (s : State) (a : BitVec 48) (e : CodeErr),
      asleep s = false → a.toNat = s.mem.scrubAt → ddrBase ≤ a.toNat → s.boot.ddr = true → s.mem.poison.contains (a.toNat / 32) = false → codeOutcome e s.clk.free = .corrected → does (.patrolScrub a (.ddr e none)) s fun t =>
      lookD 0 t.mem.counters 5 = lookD 0 s.mem.counters 5 + 1 ∧ t.faults.corrected = sat32 s.faults.corrected ∧ t.faults.valid = s.faults.valid ∧ (codeMany e = false → t.mem.dev = s.mem.dev) ∧ (∀ x, x < a.toNat / 32 * 32 ∨ a.toNat / 32 * 32 + 32 ≤ x → byteAt t.mem.dev x = byteAt s.mem.dev x) ∧ t = { s with mem := t.mem, faults := t.faults, clk := { s.clk with free := s.clk.free + 1 } }) ∧
  (∀ (s : State) (a : BitVec 48) (e : CodeErr),
      asleep s = false → a.toNat = s.mem.scrubAt → ddrBase ≤ a.toNat → s.boot.ddr = true → a.toNat < ddrBase + s.mem.ddrBytes → codeOutcome e s.clk.free = .uncorrectable ∨ s.mem.poison.contains (a.toNat / 32) = true →
      does (.patrolScrub a (.ddr e none)) s fun t =>
      lookD 0 t.mem.counters 8 = lookD 0 s.mem.counters 8 + 1 ∧ ((s.ddr (ddrPlace s a.toNat).1).trained = true → (s.ddr (ddrPlace s a.toNat).1).spare.isSome = true → (s.ddr (ddrPlace s a.toNat).1).spare ≠ some (ddrPlace s a.toNat).2 → (s.ddr (ddrPlace s a.toNat).1).migrating = none → (s.ddr (ddrPlace s a.toNat).1).retired = none → (ddrPlace s a.toNat).2 < (s.ddr (ddrPlace s a.toNat).1).ranks → (t.ddr (ddrPlace s a.toNat).1).migrating = some (ddrPlace s a.toNat).2) ∧ t.faults.contained = sat32 s.faults.contained ∧ t.faults.valid = true ∧ (s.faults.valid = false → t.faults.kind = 0x01 ∧ t.faults.access = 0 ∧ t.faults.addr = a) ∧ (t.intc.src 2).pending = true ∧ t.dict = s.dict ∧ t.pool = s.pool) ∧
  (∀ (s : State) (k : Fin 4) (c : Fin 31),
      asleep s = false → (s.hbm k).trained = true → (s.hbm k).replaced = none → (s.hbm k).copying = none → does (.pseudoChannelRegrow k c) s fun t =>
      t.hbm k = { s.hbm k with copying := some c.val } ∧ (∀ j, j ≠ k.val → t.hbm j = s.hbm j) ∧ t = { s with mem := { s.mem with hbms := t.mem.hbms } }) ∧
  (∀ (s : State) (k : Fin 4) (c : Fin 31) (d : Nat),
      asleep s = false → (s.hbm k).replaced = some d → exec (.pseudoChannelRegrow k c) s = .next s) ∧
  (∀ (s : State) (k : Fin 4) (l : List (BitVec 48)) (c : Nat),
      asleep s = false → (s.hbm k).copying = some c → (l.all fun x => decide (hbmBase ≤ x.toNat ∧ x.toNat < hbmEnd ∧ hbmPlace x.toNat = (k.val, c))) = true →
      does (.pseudoChannelCopyDone k l) s fun t =>
      t.hbm k = { s.hbm k with copying := none, replaced := some c } ∧ pcPhys t k c = 31 ∧ t.sparing = { s.sparing with pseudo := put s.sparing.pseudo k c } ∧ (storeShut s = false → t.store.sparing = t.sparing) ∧ (storeShut s = true → t.store.sparing = s.store.sparing) ∧ lookD 0 t.mem.counters 0x0B = lookD 0 s.mem.counters 0x0B + 1 ∧ (l.all fun x => t.mem.poison.contains (x.toNat / 32)) = true ∧ lookD 0 t.mem.counters 0x0D = lookD 0 s.mem.counters 0x0D + l.length ∧ (t.intc.src 0x14).pending = true ∧ (l ≠ [] → t.faults.valid = true) ∧ (l = [] → t = { s with mem := t.mem, store := t.store, faults := { s.faults with liveMap := t.faults.liveMap }, intc := t.intc, out := t.out })) ∧
  (∀ (s : State) (c : Fin 8) (r : Fin 4) (p : Nat),
      asleep s = false → (s.ddr c).trained = true → (s.ddr c).spare = some p → p ≠ r.val → (s.ddr c).migrating = none → (s.ddr c).retired = none → r.val < (s.ddr c).ranks → does (.rankRetire c r) s fun t =>
      t.ddr c = { s.ddr c with migrating := some r.val, down := (s.ddr c).down.filter (· ≠ r.val) } ∧ (∀ j, j ≠ c.val → t.ddr j = s.ddr j) ∧ t = { s with mem := { s.mem with ddrs := t.mem.ddrs } }) ∧
  (∀ (s : State) (c : Fin 8) (r : Fin 4),
      asleep s = false → (s.ddr c).spare = none → exec (.rankRetire c r) s = .next s) ∧
  (∀ (s : State) (c : Fin 8) (l : List (BitVec 48)) (r : Nat),
      asleep s = false → (s.ddr c).migrating = some r → (l.all fun x => decide (ddrBase ≤ x.toNat ∧ ddrPlace s x.toNat = (c.val, r))) = true →
      does (.rankMigrationDone c l) s fun t =>
      (t.ddr c).migrating = none ∧ (t.ddr c).retired = some r ∧ (t.ddr c).spare = none ∧ t.sparing = { s.sparing with ranks := put s.sparing.ranks c r } ∧ (storeShut s = false → t.store.sparing = t.sparing) ∧ (storeShut s = true → t.store.sparing = s.store.sparing) ∧ lookD 0 t.mem.counters 0x0A = lookD 0 s.mem.counters 0x0A + 1 ∧ (l.all fun x => t.mem.poison.contains (x.toNat / 32)) = true ∧ lookD 0 t.mem.counters 0x0D = lookD 0 s.mem.counters 0x0D + l.length ∧ (t.intc.src 0x14).pending = true ∧ (l ≠ [] → t.faults.valid = true) ∧ (l = [] → t.faults = { s.faults with liveMap := t.faults.liveMap })) ∧
  (∀ (s : State) (c : Fin 8) (r : Fin 4),
      asleep s = false → par s 0x2050 4 ≠ 0 → (s.ddr c).trained = true → r.val < (s.ddr c).ranks → (s.ddr c).migrating ≠ some r.val → (s.ddr c).down.contains r.val = false → lookD 0 (s.ddr c).touched r + 1000 * par s 0x2050 4 ≤ s.clk.now →
      does (.rankPowerDown c r) s fun t =>
      t.ddr c = { s.ddr c with down := r.val :: (s.ddr c).down, rows := (s.ddr c).rows.filter fun q => decide (q.1 / 256 ≠ r.val) } ∧ (∀ j, j ≠ c.val → t.ddr j = s.ddr j) ∧ t = { s with mem := { s.mem with ddrs := t.mem.ddrs } })

/-- On an awake device. FAULT_REPORT of a contained kind counts it, raises source 0x002 and leaves the first-error record valid: where none stood it holds kind, severity 2, master and, for an access, its address (else 0), with no overflow added; where one stood it stays and the overflow is counted. Of a fatal kind it starts the escalation and the pulse of 0x7010:01, drives ERR_N low if it was not, counts a fatal fault in the store unless that is shut and fills an empty
record with severity 3; the first one becomes 0x7011, committed to the store if that takes writes; kind 0x82 holds the reset. Both change only the fault unit, pins, store, error paths, free values, interrupts, memory and outputs. A reserved kind changes nothing. FAULT_RECORD_RELEASE clears exactly the flags of the bits written, and with a contained fault of the same cycle, VALID released, the record is that fault's. ERR_PULSE_END once the pulse is over: under
an escalation a fresh start of cause 6, held if the trip was thermal, 0x7011 kept; else, with nothing holding the line, ERR_N rises, the outputs take their values of 0x7060:02 and nothing else but the pulse changes; before that time nothing changes. FAULT_LOG_SUMMARY after a second with unlogged faults and the store open appends one entry with the next number, the log within 8,192, and changes only the store's log and the second's counts. -/
def Obligations.FaultsReachTheFaultUnit : Prop :=
  (∀ (s : State) (k : BitVec 8) (acc : Access) (m : Master) (a : BitVec 48) (u : Option HwUnit),
      asleep s = false → 0x01 ≤ k → k ≤ 0x12 → masterOk m = true → does (.faultReport k acc m a u) s fun t =>
      t.faults.contained = sat32 s.faults.contained ∧ t.faults.valid = true ∧ (s.faults.valid = false → t.faults.kind = k ∧ t.faults.severity = 2 ∧ t.faults.master = m ∧ (acc ≠ .none → t.faults.addr = a) ∧ (acc = .none → t.faults.addr = 0) ∧ t.faults.overflow = s.faults.overflow) ∧ (s.faults.valid = true → t.faults.kind = s.faults.kind ∧ t.faults.overflow = true ∧ t.faults.overflows = sat32 s.faults.overflows) ∧ (t.intc.src 2).pending = true ∧ t = { s with faults := t.faults, pins := t.pins, store := t.store, paths := t.paths, clk := { s.clk with free := t.clk.free }, intc := t.intc, mem := t.mem, out := t.out }) ∧
  (∀ (s : State) (k : BitVec 8) (acc : Access) (m : Master) (a : BitVec 48) (u : Option HwUnit),
      asleep s = false → 0x80 ≤ k → k ≤ 0x83 → masterOk m = true → does (.faultReport k acc m a u) s fun t =>
      t.faults.valid = true ∧ t.faults.escalating = true ∧ t.faults.pulseEnd = some (s.clk.now + par s 0x7010 1 * 1000) ∧ (s.faults.errLow = false → Output.pin "ERR_N" false ∈ t.out) ∧ t.store.fatals = (if storeShut s then s.store.fatals else s.store.fatals + 1) ∧
      (s.faults.valid = false → t.faults.kind = k ∧ t.faults.severity = 3 ∧ t.faults.master = m) ∧ (s.faults.escalating = false → t.faults.lastFatal.kind = k ∧ t.faults.lastFatal.master = m) ∧
      (s.faults.escalating = false → storeOpen s = true → t.store.committedFatal = t.faults.lastFatal) ∧ (k = 0x82 → t.faults.thermalHold = true) ∧ t = { s with faults := t.faults, pins := t.pins, store := t.store, paths := t.paths, clk := { s.clk with free := t.clk.free }, intc := t.intc, mem := t.mem, out := t.out }) ∧
  (∀ (s : State) (k : BitVec 8) (acc : Access) (m : Master) (a : BitVec 48) (u : Option HwUnit),
      asleep s = false → k = 0 ∨ (0x12 < k ∧ k < 0x80) ∨ 0x83 < k → masterOk m = true → exec (.faultReport k acc m a u) s = .next s) ∧
  (∀ (s : State) (m : Master) (v : Word),
      asleep s = false → masterOk m = true → does (.faultRecordRelease m v none) s fun t =>
      t.faults = { s.faults with valid := s.faults.valid && !(v.getLsbD 31), overflow := s.faults.overflow && !(v.getLsbD 30), diverged := s.faults.diverged && !(v.getLsbD 29) } ∧ t = { s with faults := t.faults, dev := { s.dev with armed := t.dev.armed }, paths := t.paths, clk := { s.clk with free := t.clk.free }, out := t.out }) ∧
  (∀ (s : State) (m : Master) (v : Word) (k : BitVec 8) (who : Master) (a : BitVec 48) (acc : Access),
      asleep s = false → v.getLsbD 31 = true → 0x01 ≤ k → k ≤ 0x12 → masterOk who = true → masterOk m = true → does (.faultRecordRelease m v (some (k, who, a, acc))) s fun t =>
      t.faults.valid = true ∧ t.faults.kind = k ∧ t.faults.master = who ∧ (acc ≠ .none → t.faults.addr = a) ∧ (v.getLsbD 30 = true → t.faults.overflow = false) ∧ t.faults.overflows = s.faults.overflows) ∧
  (∀ (s : State) (st : Straps) (d : Nat),
      asleep s = false → s.faults.pulseEnd = some d → d ≤ s.clk.now → s.faults.escalating = true → does (.errPulseEnd st) s fun t =>
      freshAfter s t 6 st ∧ t.boot.held = s.faults.thermalHold ∧ t.faults.lastFatal = s.faults.lastFatal) ∧
  (∀ (s : State) (st : Straps) (d : Nat),
      asleep s = false → s.faults.pulseEnd = some d → d ≤ s.clk.now → s.faults.escalating = false → s.faults.hold = false → does (.errPulseEnd st) s fun t =>
      t.faults = { s.faults with pulseEnd := none } ∧ t.pins.gpioOut = BitVec.ofNat 8 (par s 0x7060 2) ∧ t = { s with faults := t.faults, pins := { s.pins with gpioOut := t.pins.gpioOut }, out := s.out ++ [.pin "ERR_N" true] }) ∧
  (∀ (s : State) (st : Straps) (d : Nat),
      asleep s = false → s.faults.pulseEnd = some d → s.clk.now < d → exec (.errPulseEnd st) s = .next s) ∧
  (∀ (s : State),
      asleep s = false → logSecond s ≠ s.faults.logSec → s.faults.excess ≠ 0 → storeOpen s = true → s.store.faultLog.length ≤ 8192 → does (.faultLogSummary) s fun t =>
      t.faults = { s.faults with logged := 0, excess := 0, logSec := logSecond s } ∧ t.store.faultSeq = s.store.faultSeq + 1 ∧ t.store.faultLog.length ≤ 8192 ∧ (t.store.faultLog.getLast?.map LogEntry.seq) = some s.store.faultSeq ∧ t = { s with faults := t.faults, store := { s.store with faultLog := t.store.faultLog, faultSeq := t.store.faultSeq } })

/-- On an awake device, for a unit in service that is not regrowing. REGROW_TRIGGER with regrowing enabled: a contained count at its threshold starts a failure regrow with the unit's first spare; a corrected count at its threshold (a lane's trigger stands for it) starts a threshold regrow and raises source 0x003; a margin under its threshold with no spare leaves regrows and sparing map, and stands in the fault log, as kind 0x0F where no record stood; a core that does
not answer, with no spare, leaves service for good and is logged likewise; a margin not measured or not under its threshold, and a corrected or contained count below its own, changes nothing. With regrowing disabled a corrected trigger only raises 0x003. REGROW_REQUEST with its accepted write of a unit with a spare starts a threshold regrow. SPARE_SELF_TEST_DONE of the only regrow: passed, it is tested and nothing else changes; failed, the regrow ends, the failure is counted, the spare
retired, and the fault log holds it, as kind 0x0F where no record stood. UNIT_SWAP of the only, tested regrow: a core's spare takes its logical number, the core is retired, source 0x014 raised, and only fault unit, store, buffer owners, interrupts, memory and outputs change; an idle encode tile's spare takes its number and its egress, the tile is retired and without power, the dictionary as before; untested or not at its boundary, nothing changes. AGEING_SAMPLE sets that unit's margin
alone. CORE_WATCHDOG_EXPIRY of a core in service is a contained error, kind 0x12 against it with no address where no record stood. -/
def Obligations.UnitsRegrow : Prop :=
  (∀ (s : State) (u : HwUnit) (v : HwUnit),
      asleep s = false → (unitLogical s u).isSome = true → regrowing s u = false → parB s 0x7030 5 = true → par s 0x7030 3 ≤ hourCount s (0x30000 + unitItem u) → spareFor s u = some v → does (.regrowTrigger u .contained) s fun t =>
      t.faults.regrows = s.faults.regrows ++ [{ unit := u, failure := true, spare := some (unitNum v), since := s.clk.now }] ∧ t = { s with faults := { s.faults with regrows := t.faults.regrows } }) ∧
  (∀ (s : State) (u : HwUnit) (v : HwUnit),
      asleep s = false → (unitLogical s u).isSome = true → regrowing s u = false → parB s 0x7030 5 = true → unitKind u = 5 ∨ par s 0x7030 2 ≤ hourCount s (unitItem u) → spareFor s u = some v → does (.regrowTrigger u .corrected) s fun t =>
      (t.intc.src 3).pending = true ∧ t.faults.regrows = s.faults.regrows ++ [{ unit := u, failure := false, spare := some (unitNum v), since := s.clk.now }] ∧ t = { s with faults := { s.faults with regrows := t.faults.regrows }, intc := t.intc, mem := t.mem, out := t.out }) ∧
  (∀ (s : State) (u : HwUnit),
      asleep s = false → (unitLogical s u).isSome = true → regrowing s u = false → parB s 0x7030 5 = false → unitKind u = 5 ∨ par s 0x7030 2 ≤ hourCount s (unitItem u) → does (.regrowTrigger u .corrected) s fun t =>
      (t.intc.src 3).pending = true ∧ t = { s with intc := t.intc, mem := t.mem, out := t.out }) ∧
  (∀ (s : State) (u : HwUnit) (g : BitVec 8),
      asleep s = false → (unitLogical s u).isSome = true → regrowing s u = false → parB s 0x7030 5 = true → spareFor s u = none → alook s.faults.margins u = some g → g ≠ 0xFF → g.toNat < par s 0x7030 1 → does (.regrowTrigger u .margin) s fun t =>
      t.faults.regrows = s.faults.regrows ∧ t.sparing = s.sparing ∧ t.faults.valid = true ∧ (s.faults.valid = false → t.faults.kind = 0x0F)) ∧
  (∀ (s : State) (k : Fin 18) (l : Nat),
      asleep s = false → coreLogical s k = some l → regrowing s (.core k) = false → parB s 0x7030 5 = true → spareFor s (.core k) = none → does (.regrowTrigger (.core k) .unanswered) s fun t =>
      corePhys t l = 0xFF ∧ .core k ∈ t.sparing.retired ∧ t.faults.valid = true ∧ (s.faults.valid = false → t.faults.kind = 0x0F) ∧ t.faults.regrows = s.faults.regrows) ∧
  (∀ (s : State) (u : HwUnit),
      asleep s = false → (match alook s.faults.margins u with | some g => decide (g ≠ 0xFF) && decide (g.toNat < par s 0x7030 1) | none => false) = false →
      exec (.regrowTrigger u .margin) s = .next s) ∧
  (∀ (s : State) (u : HwUnit),
      asleep s = false → unitKind u ≠ 5 → hourCount s (unitItem u) < par s 0x7030 2 → exec (.regrowTrigger u .corrected) s = .next s) ∧
  (∀ (s : State) (u : HwUnit),
      asleep s = false → hourCount s (0x30000 + unitItem u) < par s 0x7030 3 → exec (.regrowTrigger u .contained) s = .next s) ∧
  (∀ (s : State) (a : Act) (r : List Act) (u : HwUnit) (v : HwUnit),
      asleep s = false → takeFirst (fun x : Act => x.idx == 0x7031 && x.sub == 1) s.dict.acts = some (a, r) →
      codeUnit s a.val.nat = some u → regrowing s u = false → spareFor s u = some v → does (.regrowRequest) s fun t =>
      t.faults.regrows = s.faults.regrows ++ [{ unit := u, failure := false, spare := some (unitNum v), since := s.clk.now }] ∧ t = { s with dict := { s.dict with acts := r }, faults := { s.faults with regrows := t.faults.regrows } }) ∧
  (∀ (s : State) (r : Regrow),
      asleep s = false → s.faults.regrows = [r] → r.tested = false → does (.spareSelfTestDone true) s fun t =>
      t.faults.regrows = [{ r with tested := true }] ∧ t = { s with faults := { s.faults with regrows := t.faults.regrows } }) ∧
  (∀ (s : State) (r : Regrow) (n : Nat),
      asleep s = false → s.faults.regrows = [r] → r.tested = false → r.spare = some n → r.failure = false → does (.spareSelfTestDone false) s fun t =>
      t.faults.regrows = [] ∧ t.faults.selfTestFails = s.faults.selfTestFails + 1 ∧ unitLike r.unit n ∈ t.sparing.retired ∧ t.faults.valid = true ∧ (s.faults.valid = false → t.faults.kind = 0x0F)) ∧
  (∀ (s : State) (r : Regrow) (k : Fin 18) (n : Nat) (l : Nat),
      asleep s = false → s.faults.regrows = [r] → r.tested = true → r.unit = .core k → r.spare = some n → coreLogical s k = some l → does (.unitSwap) s fun t =>
      corePhys t l = n ∧ .core k ∈ t.sparing.retired ∧ t.faults.regrows = [] ∧ (t.intc.src 0x14).pending = true ∧ t.dict = s.dict ∧ t.tiles = s.tiles ∧ t = { s with faults := t.faults, store := t.store, bpm := t.bpm, intc := t.intc, mem := t.mem, out := t.out }) ∧
  (∀ (s : State) (r : Regrow) (k : Fin 72) (n : Nat) (l : Nat),
      asleep s = false → s.faults.regrows = [r] → r.tested = true → r.unit = .encTile k → r.spare = some n → n ≠ k.val → (s.tile k).frame = none → encLogical s k = some l → does (.unitSwap) s fun t =>
      encPhys t l = n ∧ .encTile k ∈ t.sparing.retired ∧ t.faults.regrows = [] ∧ (t.tile k).powered = false ∧ (t.tile n).out = (s.tile k).out ∧ (t.intc.src 0x14).pending = true ∧ t.dict = s.dict) ∧
  (∀ (s : State) (r : Regrow),
      asleep s = false → s.faults.regrows = [r] → (r.tested && atBoundary s r) = false → exec .unitSwap s = .next s) ∧
  (∀ (s : State) (u : HwUnit) (m : BitVec 8),
      asleep s = false → (unitLogical s u).isSome = true → does (.ageingSample [(u, m)]) s fun t =>
      alook t.faults.margins u = some m ∧ (∀ w, w ≠ u → alook t.faults.margins w = alook s.faults.margins w) ∧ t = { s with faults := { s.faults with margins := t.faults.margins } }) ∧
  (∀ (s : State) (k : Fin 16),
      asleep s = false → corePhys s k ≠ 0xFF → does (.coreWatchdogExpiry k) s fun t =>
      t.faults.contained = sat32 s.faults.contained ∧ t.faults.valid = true ∧ (s.faults.valid = false → t.faults.kind = 0x12 ∧ t.faults.master = mCore (corePhys s k) ∧ t.faults.addr = 0) ∧ (t.intc.src 2).pending = true ∧ t = { s with faults := t.faults, pins := t.pins, store := t.store, paths := t.paths, clk := { s.clk with free := t.clk.free }, intc := t.intc, mem := t.mem, out := t.out })

/-- On an awake device, the temperature recorded. TEMPERATURE_LIMIT above the grade limit, not yet hot, is a contained error, kind 0x11 where no record stood, and the device is hot; hot already, only the temperatures change. TEMPERATURE_LIMIT_CLEARED 3 °C below the limit ends it and changes nothing but the temperatures and what the error register sends. THERMAL_TRIP 10 °C above the limit for 1 ms is fatal, kind 0x82 and severity 3 where no record stood: the pulse
starts and the reset will be held; for less time only the temperatures change. THERMAL_RESET_RELEASE of a device held outside boundary scan, 10 °C below the limit, awakes it with these straps and the boot state of their mode, store, dictionary and clock as before. GPIO_INPUT_ACCEPT of a new level held for its filter time sets that input alone, since now, counts its chatter and raises source 0x007; of a level that stands, or not held long enough, only the chatter
changes. GPIO_STUCK of an input active for the stuck time and not yet stuck sets that bit and raises source 0x006. Where a source is raised, only fault unit, interrupts, memory and outputs change, and for the faults what FAULT_REPORT may change. -/
def Obligations.TemperatureAndCabinet : Prop :=
  (∀ (s : State) (tj : Int),
      asleep s = false → gradeLimit < tj → s.faults.hot = false → does (.temperatureLimit tj) s fun t =>
      t.faults.hot = true ∧ t.faults.tj = tj ∧ t.faults.tjMax = max s.faults.tjMax tj ∧ t.faults.contained = sat32 s.faults.contained ∧ t.faults.valid = true ∧ (s.faults.valid = false → t.faults.kind = 0x11) ∧ t = { s with faults := t.faults, pins := t.pins, store := t.store, paths := t.paths, clk := { s.clk with free := t.clk.free }, intc := t.intc, mem := t.mem, out := t.out }) ∧
  (∀ (s : State) (tj : Int),
      asleep s = false → s.faults.hot = true → does (.temperatureLimit tj) s fun t =>
      t = { s with faults := { s.faults with tj := tj, tjMax := max s.faults.tjMax tj } }) ∧
  (∀ (s : State) (tj : Int),
      asleep s = false → tj ≤ gradeLimit - 3 → does (.temperatureLimitCleared tj) s fun t =>
      t.faults = { s.faults with hot := false, tj := tj, tjMax := max s.faults.tjMax tj } ∧ t = { s with faults := t.faults, paths := t.paths, clk := { s.clk with free := t.clk.free }, out := t.out }) ∧
  (∀ (s : State) (tj : Int) (n : Nat),
      asleep s = false → gradeLimit + 10 ≤ tj → 1000000 ≤ n → does (.thermalTrip tj n) s fun t =>
      t.faults.escalating = true ∧ t.faults.thermalHold = true ∧ t.faults.pulseEnd = some (s.clk.now + par s 0x7010 1 * 1000) ∧ t.faults.valid = true ∧ (s.faults.valid = false → t.faults.kind = 0x82 ∧ t.faults.severity = 3) ∧ t = { s with faults := t.faults, pins := t.pins, store := t.store, paths := t.paths, clk := { s.clk with free := t.clk.free }, intc := t.intc, mem := t.mem, out := t.out }) ∧
  (∀ (s : State) (tj : Int) (n : Nat),
      asleep s = false → n < 1000000 → does (.thermalTrip tj n) s fun t =>
      t = { s with faults := { s.faults with tj := tj, tjMax := max s.faults.tjMax tj } }) ∧
  (∀ (s : State) (tj : Int) (st : Straps),
      s.clk.scan = false → s.boot.held = true → tj ≤ gradeLimit - 10 → does (.thermalResetRelease tj st) s fun t =>
      asleep t = false ∧ t.boot = { s.boot with held := false, resetAt := s.clk.now, bootMode := st.bootMode, pairId := st.pairId, bootState := if st.bootMode = 1 then 0 else 4 } ∧ t.pins = { s.pins with straps := st } ∧ t.store = s.store ∧ t.dict = s.dict ∧ t.clk = s.clk) ∧
  (∀ (s : State) (n : Fin 16) (v : Bool) (us : Nat) (c : Word),
      asleep s = false → s.faults.gpio.getLsbD n ≠ v → par s 0x7061 (n + 1) ≤ us → does (.gpioInputAccept n v us c) s fun t =>
      t.faults.gpio.getLsbD n = v ∧ (∀ k, k < 16 → k ≠ n.val → t.faults.gpio.getLsbD k = s.faults.gpio.getLsbD k) ∧ look t.faults.gpioSince n = some s.clk.now ∧ lookD 0 t.faults.chatter n = lookD 0 s.faults.chatter n + c ∧ (t.intc.src 7).pending = true ∧ t = { s with faults := t.faults, intc := t.intc, mem := t.mem, out := t.out }) ∧
  (∀ (s : State) (n : Fin 16) (v : Bool) (us : Nat) (c : Word),
      asleep s = false → s.faults.gpio.getLsbD n = v ∨ us < par s 0x7061 (n + 1) → does (.gpioInputAccept n v us c) s fun t =>
      lookD 0 t.faults.chatter n = lookD 0 s.faults.chatter n + c ∧ t = { s with faults := { s.faults with chatter := t.faults.chatter } }) ∧
  (∀ (s : State) (n : Fin 16),
      asleep s = false → gpioActive s n (s.faults.gpio.getLsbD n) = true → s.faults.stuck.getLsbD n = false → lookD s.boot.resetAt s.faults.gpioSince n + par s 0x7060 4 * 1000000000 ≤ s.clk.now →
      does (.gpioStuck n) s fun t =>
      t.faults = { s.faults with stuck := s.faults.stuck ||| (1 <<< n.val) } ∧ (t.intc.src 6).pending = true ∧ t = { s with faults := t.faults, intc := t.intc, mem := t.mem, out := t.out })

/-- On an awake device. PAIR_ALIVE_TOGGLE, 50 µs after the last, from the Selvedge step on, outside Newt mode, a fatal escalation and a power warning, toggles the alive output and nothing else; otherwise nothing changes. PAIR_ALIVE_LOST, and PAIR_ALIVE_RESTORED of a partner that is not silent or already known as silent and alive, change the alive input alone; a partner that becomes silent and alive is counted, once an episode, as a contained error, kind 0x0E where no record stood, role and dictionary as before. CROAK_SEND
sends one croak on each half that is up, and a primary whose time unit runs its time too. CROAK_RECEIVE of a croak that passes its checks ends silence and episode and becomes the partner's last, role, epoch, dictionary and store as before, with source 0x015 after a silence; a higher epoch, or an equal one with the lower identity, of a serving partner makes a serving device Joining, every tile without a frame, counted, with 0x015; a leaving one does not end a secondary's silence and counts as missed; one that fails its
checks changes nothing. PARTNER_SILENT 300 µs after the last croak: silent, three counted as missed, 0x015, and only pair, interrupts, memory and outputs change; with the partner alive, the fault too, also when it never sent a croak since the start. GAVON_LINK_UP and GAVON_LINK_DOWN of a half change that half, raise 0x015, and a primary whose link was down sends every record above the last confirmed number again. -/
def Obligations.PairSignals : Prop :=
  (∀ (s : State),
      asleep s = false → s.boot.selvedge = true → s.boot.newt = false → s.faults.escalating = false → s.pins.pwrfailN = true → s.pair.aliveOutAt + 50000 ≤ s.clk.now → does (.pairAliveToggle) s fun t =>
      t = { s with pins := { s.pins with aliveOut := !s.pins.aliveOut }, pair := { s.pair with aliveOutAt := s.clk.now }, out := s.out ++ [.pin "PAIR_ALIVE_OUT" (!s.pins.aliveOut)] }) ∧
  (∀ (s : State),
      asleep s = false → s.boot.newt = true ∨ s.faults.escalating = true ∨ s.pins.pwrfailN = false ∨ s.boot.selvedge = false ∨ s.clk.now < s.pair.aliveOutAt + 50000 →
      exec .pairAliveToggle s = .next s) ∧
  (∀ (s : State),
      asleep s = false → does (.pairAliveLost) s fun t =>
      t = { s with pair := { s.pair with aliveIn := false } }) ∧
  (∀ (s : State),
      asleep s = false → s.pair.silent = false ∨ s.pair.partner = none ∨ s.pair.episode = true →
      does (.pairAliveRestored) s fun t =>
      t = { s with pair := { s.pair with aliveIn := true } }) ∧
  (∀ (s : State) (c : Croak),
      asleep s = false → s.pair.silent = true → s.pair.partner = some c → s.pair.episode = false → does (.pairAliveRestored) s fun t =>
      t.pair.aliveIn = true ∧ t.pair.episode = true ∧ t.pair.role = s.pair.role ∧ lookD 0 t.pair.counters 3 = lookD 0 s.pair.counters 3 + 1 ∧ t.faults.gavonDown = true ∧ t.faults.valid = true ∧ (s.faults.valid = false → t.faults.kind = 0x0E) ∧ t.dict = s.dict) ∧
  (∀ (s : State),
      asleep s = false → s.pair.halfA = true → s.pair.halfB = true → s.pair.role ≠ .primary → does (.croakSend) s fun t =>
      t = { s with pair := { s.pair with croaks := s.pair.croaks + 1 }, out := s.out ++ [.gavon 1 (croakBytes s (croakState s)), .gavon 1 (croakBytes s (croakState s))] }) ∧
  (∀ (s : State),
      asleep s = false → s.pair.halfA = true → s.pair.halfB = false → s.pair.role = .primary → s.boot.timeUp = true → does (.croakSend) s fun t =>
      (∃ m : MirrorTime, m.seconds = BitVec.ofNat 48 (s.time.ptp / 1000000000) ∧ m.nanos = BitVec.ofNat 30 (s.time.ptp % 1000000000) ∧ t.out = s.out ++ [.gavon 1 (croakBytes s (croakState s)), .gavonTime m]) ∧ t = { s with pair := { s.pair with croaks := s.pair.croaks + 1 }, out := t.out }) ∧
  (∀ (s : State) (p : Bytes) (c : Croak),
      asleep s = false → croakParse p s.clk.now = some c → s.pair.role ≠ .secondary ∨ (c.state ≠ 5 ∧ c.state ≠ 6) → c.state ≠ 1 → does (.croakReceive p) s fun t =>
      t.pair.partner = some c ∧ t.pair.silent = false ∧ t.pair.episode = false ∧ t.pair.role = s.pair.role ∧ t.pair.epoch = s.pair.epoch ∧ t.faults.gavonDown = false ∧ (s.pair.silent = true → (t.intc.src 0x15).pending = true) ∧ t.dict = s.dict ∧ t.store = s.store) ∧
  (∀ (s : State) (p : Bytes) (c : Croak),
      asleep s = false → croakParse p s.clk.now = some c → serves s = true → c.state = 1 → s.pair.epoch < c.epoch ∨ (s.pair.epoch = c.epoch ∧ s.boot.pairId = true ∧ c.pairId = false) →
      does (.croakReceive p) s fun t =>
      t.pair.role = .joining ∧ t.pair.partner = some c ∧ lookD 0 t.pair.counters 5 = lookD 0 s.pair.counters 5 + 1 ∧ (t.intc.src 0x15).pending = true ∧ (∀ p : Fin 72, (t.tile p).frame = none)) ∧
  (∀ (s : State) (p : Bytes) (c : Croak),
      asleep s = false → croakParse p s.clk.now = some c → s.pair.role = .secondary → c.state = 5 ∨ c.state = 6 → does (.croakReceive p) s fun t =>
      t.pair.role = .secondary ∧ t.pair.silent = s.pair.silent ∧ (t.pair.partner.map Croak.state) = some c.state ∧ lookD 0 t.pair.counters 4 = lookD 0 s.pair.counters 4 + 1) ∧
  (∀ (s : State) (p : Bytes),
      asleep s = false → p.length ≤ 65507 → croakParse p s.clk.now = none → exec (.croakReceive p) s = .next s) ∧
  (∀ (s : State) (c : Croak),
      asleep s = false → s.pair.partner = some c → s.pair.silent = false → c.at_ + 300000 ≤ s.clk.now → s.pair.aliveIn = false → does (.partnerSilent) s fun t =>
      t.pair = { s.pair with silent := true, resync := s.pair.resync && decide (s.pair.role ≠ .joining), counters := t.pair.counters } ∧ lookD 0 t.pair.counters 4 = lookD 0 s.pair.counters 4 + 3 ∧ (t.intc.src 0x15).pending = true ∧ t = { s with pair := t.pair, intc := t.intc, mem := t.mem, out := t.out }) ∧
  (∀ (s : State) (c : Croak),
      asleep s = false → s.pair.partner = some c → s.pair.silent = false → c.at_ + 300000 ≤ s.clk.now → s.pair.aliveIn = true → s.pair.episode = false → does (.partnerSilent) s fun t =>
      t.pair.silent = true ∧ lookD 0 t.pair.counters 4 = lookD 0 s.pair.counters 4 + 3 ∧ t.pair.aliveIn = true ∧ t.pair.episode = true ∧ t.pair.role = s.pair.role ∧ lookD 0 t.pair.counters 3 = lookD 0 s.pair.counters 3 + 1 ∧ t.faults.gavonDown = true ∧ t.faults.valid = true ∧ (s.faults.valid = false → t.faults.kind = 0x0E) ∧ t.dict = s.dict) ∧
  (∀ (s : State),
      asleep s = false → s.pair.partner = none → s.boot.selvedge = true → s.boot.resetAt + 300000 ≤ s.clk.now → s.pair.aliveIn = true → s.pair.episode = false → does (.partnerSilent) s fun t =>
      t.pair.silent = true ∧ lookD 0 t.pair.counters 4 = lookD 0 s.pair.counters 4 + 3 ∧ t.pair.aliveIn = true ∧ t.pair.episode = true ∧ t.pair.role = s.pair.role ∧ lookD 0 t.pair.counters 3 = lookD 0 s.pair.counters 3 + 1 ∧ t.faults.gavonDown = true ∧ t.faults.valid = true ∧ (s.faults.valid = false → t.faults.kind = 0x0E) ∧ t.dict = s.dict) ∧
  (∀ (s : State),
      asleep s = false → s.pair.halfA = true → s.pair.halfB = false → does (.gavonLinkUp true) s fun t =>
      t.pair = { s.pair with halfB := true } ∧ (t.intc.src 0x15).pending = true ∧ t = { s with pair := t.pair, intc := t.intc, mem := t.mem, out := t.out }) ∧
  (∀ (s : State),
      asleep s = false → s.pair.halfA = false → s.pair.halfB = false → s.pair.role = .primary → does (.gavonLinkUp false) s fun t =>
      t.pair = { s.pair with halfA := true } ∧ (∀ r, r ∈ s.store.journal → mirrorOf r.entries ≠ [] → s.pair.confirmed.toNat < (newestPair r.entries 0).toNat → Output.gavonRecord (newestPair r.entries 0) (mirrorOf r.entries) ∈ t.out) ∧ (t.intc.src 0x15).pending = true ∧ t = { s with pair := t.pair, intc := t.intc, mem := t.mem, out := t.out }) ∧
  (∀ (s : State),
      asleep s = false → s.pair.halfA = true → does (.gavonLinkDown false) s fun t =>
      t.pair = { s.pair with halfA := false } ∧ (t.intc.src 0x15).pending = true ∧ t = { s with pair := t.pair, intc := t.intc, mem := t.mem, out := t.out })

/-- On an awake secondary or Joining device. GAVON_JOURNAL_RECORD, not itself waiting, on a secondary with no number missing before it, the store open and no record open: numbers above the newest held, or other content than is held while the pair is healthy, wait to be committed last, to be confirmed then, and nothing else changes; held with the same content it is confirmed again and nothing else changes; held with another number of entries while the pair is not healthy the local ones stay, the fault log holds it, as kind 0x0D where no record
stood, and it is confirmed. A record that waits changes nothing; one with numbers missing before it makes a secondary Joining, its mirror no longer complete. GAVON_LEARN_DELTA of a presence or a resolved address sets it and enters it in the learn log, nothing else. GAVON_STREAM_RECORD of a held context takes slot number and picture order count from the record, keeps the context's frames and every other context; while mirrored content waits it is kept for later. RELAYED_REQUEST on a serving primary counts it and arrives as one new request, parameters and role as
before; a group as one request; a refusal on the secondary ends the oldest waiting operation it names, and no answer adds one or changes parameters, store or the rest of the pair. MIRROR_CONFIRM on the primary above the last confirmed number takes that number and releases every record up to it, nothing else. -/
def Obligations.PairMirrors : Prop :=
  (∀ (s : State) (q : BitVec 64) (l : List MirrorEntry),
      asleep s = false → s.pair.role = .joining ∨ (s.pair.role = .secondary ∧ mirrorGap s q l.length = false) →
      (s.dict.waiting.any fun r => r.confirm == some q) = false → storeOpen s = true → s.dict.openRec = none → s.store.pairSeq.toNat < q.toNat ∨ (healthy s = true ∧ heldEntries s q l.length ≠ [] ∧ (heldEntries s q l.length).length ≠ (mirrorEntries s q l).length) →
      does (.gavonJournalRecord q l) s fun t =>
      t = { s with dict := { s.dict with waiting := s.dict.waiting ++ [{ openedAt := s.clk.now, entries := mirrorEntries s q l, confirm := some q }], nextReq := s.dict.nextReq + 1 } }) ∧
  (∀ (s : State) (q : BitVec 64) (l : List MirrorEntry),
      asleep s = false → (s.dict.waiting.any fun r => r.confirm == some q) = true → exec (.gavonJournalRecord q l) s = .next s) ∧
  (∀ (s : State) (q : BitVec 64) (l : List MirrorEntry),
      asleep s = false → (s.dict.waiting.any fun r => r.confirm == some q) = false → s.pair.role = .secondary → mirrorGap s q l.length = true → does (.gavonJournalRecord q l) s fun t =>
      t.pair.role = .joining ∧ t.pair.mirrorOk = false ∧ (t.intc.src 0x15).pending = true ∧ t.dict = s.dict ∧ t.store.journal = s.store.journal) ∧
  (∀ (s : State) (q : BitVec 64) (l : List MirrorEntry),
      asleep s = false → s.pair.role = .joining ∨ (s.pair.role = .secondary ∧ mirrorGap s q l.length = false) →
      (s.dict.waiting.any fun r => r.confirm == some q) = false → q.toNat ≤ s.store.pairSeq.toNat → heldEntries s q l.length = [] → does (.gavonJournalRecord q l) s fun t =>
      t = { s with out := s.out ++ [.gavonConfirm q] }) ∧
  (∀ (s : State) (q : BitVec 64) (l : List MirrorEntry),
      asleep s = false → s.pair.role = .joining ∨ (s.pair.role = .secondary ∧ mirrorGap s q l.length = false) →
      (s.dict.waiting.any fun r => r.confirm == some q) = false → q.toNat ≤ s.store.pairSeq.toNat → (heldEntries s q l.length).map (fun e => (e.idx, e.sub, e.row, e.val)) = (mirrorEntries s q l).map (fun e => (e.idx, e.sub, e.row, e.val)) →
      does (.gavonJournalRecord q l) s fun t =>
      t = { s with out := s.out ++ [.gavonConfirm q] }) ∧
  (∀ (s : State) (q : BitVec 64) (l : List MirrorEntry),
      asleep s = false → s.pair.role = .joining ∨ (s.pair.role = .secondary ∧ mirrorGap s q l.length = false) →
      (s.dict.waiting.any fun r => r.confirm == some q) = false → healthy s = false → q.toNat ≤ s.store.pairSeq.toNat → heldEntries s q l.length ≠ [] → (heldEntries s q l.length).length ≠ (mirrorEntries s q l).length →
      does (.gavonJournalRecord q l) s fun t =>
      t.faults.diverged = true ∧ t.faults.valid = true ∧ (s.faults.valid = false → t.faults.kind = 0x0D) ∧ t.out.getLast? = some (.gavonConfirm q) ∧ t.store.journal = s.store.journal ∧ t.dict = s.dict) ∧
  (∀ (s : State) (e : BitVec 20) (on : Bool),
      asleep s = false → s.pair.role = .secondary ∨ s.pair.role = .joining → does (.gavonLearnDelta (.present e on)) s fun t =>
      (t.ep e.toNat).present = on ∧ t.selv.learnLog = s.selv.learnLog ++ [.present e on] ∧ (∀ k, k ≠ e.toNat → t.ep k = s.ep k) ∧ t = { s with trans := { s.trans with endpoints := t.trans.endpoints }, selv := { s.selv with learnLog := t.selv.learnLog } }) ∧
  (∀ (s : State) (e : BitVec 20) (m : BitVec 48),
      asleep s = false → s.pair.role = .secondary ∨ s.pair.role = .joining → does (.gavonLearnDelta (.resolved e m)) s fun t =>
      (t.ep e.toNat).resolved = m ∧ t.selv.learnLog = s.selv.learnLog ++ [.resolved e m] ∧ t = { s with trans := { s.trans with endpoints := t.trans.endpoints }, selv := { s.selv with learnLog := t.selv.learnLog } }) ∧
  (∀ (s : State) (n : BitVec 16) (b : Bytes) (e : Enc),
      asleep s = false → s.pair.role = .secondary ∨ s.pair.role = .joining → look s.encs n.toNat = some e → mirrorWaits s = false → does (.gavonStreamRecord n b) s fun t =>
      (t.enc n.toNat).slotNext = BitVec.ofNat 32 (le32 (slice b 0 0x1C0) 4) ∧ (t.enc n.toNat).poc = BitVec.ofNat 32 (le32 (slice b 0 0x1C0) 0xC) ∧ (t.enc n.toNat).frames = e.frames ∧ (t.enc n.toNat).lastTick = ptpTicks s ∧ (∀ k, k ≠ n.toNat → t.enc k = s.enc k) ∧ t = { s with encs := t.encs }) ∧
  (∀ (s : State) (n : BitVec 16) (b : Bytes),
      asleep s = false → s.pair.role = .secondary ∨ s.pair.role = .joining → mirrorWaits s = true → does (.gavonStreamRecord n b) s fun t =>
      t = { s with pair := { s.pair with heads := s.pair.heads ++ [(n.toNat, b)] } }) ∧
  (∀ (s : State) (se : Session) (l : List RelayWrite),
      asleep s = false → s.pair.role = .primary → s.boot.selvedge = true → does (.relayedRequest se l) s fun t =>
      lookD 0 t.pair.counters 8 = lookD 0 s.pair.counters 8 + 1 ∧ t.dict.nextReq = s.dict.nextReq + 1 ∧ t.dict.params = s.dict.params ∧ t.pair.role = .primary) ∧
  (∀ (s : State) (se : Session) (w : RelayWrite) (x : Relayed) (rest : List Relayed),
      asleep s = false → s.pair.role = .secondary → w.status ≠ stOk → takeFirst (fun r2 : Relayed => decide (r2.idx = w.idx) && decide (r2.sub = w.sub) && decide (r2.row = w.row)) s.pair.relayed = some (x, rest) →
      does (.relayedRequest se [w]) s fun t =>
      t.pair = { s.pair with relayed := rest } ∧ t.dict.params = s.dict.params ∧ t.store = s.store) ∧
  (∀ (s : State) (se : Session) (l : List RelayWrite),
      asleep s = false → s.pair.role = .secondary → does (.relayedRequest se l) s fun t =>
      t.pair = { s.pair with relayed := t.pair.relayed } ∧ t.pair.relayed.length ≤ s.pair.relayed.length ∧ t.dict.params = s.dict.params ∧ t.store = s.store) ∧
  (∀ (s : State) (q : BitVec 64),
      asleep s = false → s.pair.role = .primary → s.pair.confirmed.toNat < q.toNat → does (.mirrorConfirm q) s fun t =>
      t.pair = { s.pair with confirmed := q, unconfirmed := s.pair.unconfirmed.filter fun x => decide (q.toNat < x.1.toNat) } ∧ t = { s with pair := t.pair })

/-- On an awake device. TAKEOVER of a secondary whose primary is silent and dead, or has said that it leaves, makes it primary with the next epoch, counted (a takeover, or, the primary alive, a switchover), to announce itself 1 s and 5 s later, source 0x015 raised, stored if the store takes it; with automatic takeover off only 0x015 is raised. TAKEOVER_ANNOUNCE_REPEAT drops an announcement that is due, and nothing else changes where the device does not serve; store and dictionary stay. ROLE_DECISION,
outside Newt mode, after the Selvedge step, with pairing allowed, a partner not silent and not leaving on half A: the first row of R498 that applies decides, for this device, with the next epoch if it did not serve, or for the partner, then Joining with its epoch; so the partner that serves wins, a higher stored epoch wins, a serving device stays, and without stored state the identity decides; equal identities without stored state are marked and change nothing else; 0x015 is raised each time.
RESYNC_FRAME, the first: only device-local parameters and image entries stay, membership is empty, the epoch is the partner's, the resynchronisation and the discarded writes are counted. RESYNC_COMPLETE with nothing mirrored waiting makes the device secondary with its mirror complete, 0x015 raised, dictionary as before. SWITCHOVER with its request on the primary of a healthy pair: with no frame in coding and nothing unconfirmed it becomes secondary with the next epoch, counted; with records
unconfirmed it takes no new slot and waits; on the secondary the request goes to the primary. CLEAR_PAIR_STATE with its request leaves the device Joining with epoch 0 and, if the store is not protected, no stored pair state. -/
def Obligations.PairRoles : Prop :=
  (∀ (s : State),
      asleep s = false → s.pair.role = .secondary → s.pair.silent = true → s.pair.aliveIn = false → par s 0x7070 2 ≠ 0 → does (.takeover) s fun t =>
      t.pair.role = .primary ∧ t.pair.epoch = s.pair.epoch + 1 ∧ lookD 0 t.pair.counters 1 = lookD 0 s.pair.counters 1 + 1 ∧ t.pair.repeats = [s.clk.now + 1000000000, s.clk.now + 5000000000] ∧ (t.intc.src 0x15).pending = true ∧ (storeShut s = false → t.store.pair = ⟨true, s.pair.epoch + 1, true, false⟩)) ∧
  (∀ (s : State) (c : Croak),
      asleep s = false → s.pair.role = .secondary → s.pair.partner = some c → c.state = 5 → s.pair.aliveIn = true → par s 0x7070 2 ≠ 0 → does (.takeover) s fun t =>
      t.pair.role = .primary ∧ t.pair.epoch = s.pair.epoch + 1 ∧ lookD 0 t.pair.counters 2 = lookD 0 s.pair.counters 2 + 1 ∧ t.pair.repeats = [s.clk.now + 1000000000, s.clk.now + 5000000000] ∧ (t.intc.src 0x15).pending = true) ∧
  (∀ (s : State),
      asleep s = false → s.pair.role = .secondary → s.pair.silent = true → s.pair.aliveIn = false → par s 0x7070 2 = 0 → does (.takeover) s fun t =>
      (t.intc.src 0x15).pending = true ∧ t = { s with intc := t.intc, mem := t.mem, out := t.out }) ∧
  (∀ (s : State) (d : Nat) (r : List Nat),
      asleep s = false → s.pair.repeats = d :: r → d ≤ s.clk.now → serves s = false → does (.takeoverAnnounceRepeat) s fun t =>
      t = { s with pair := { s.pair with repeats := r } }) ∧
  (∀ (s : State) (d : Nat) (r : List Nat),
      asleep s = false → s.pair.repeats = d :: r → d ≤ s.clk.now → serves s = true → does (.takeoverAnnounceRepeat) s fun t =>
      t.pair = { s.pair with repeats := r } ∧ t.store = s.store ∧ t.dict = s.dict) ∧
  (∀ (s : State) (c : Croak),
      asleep s = false → s.pair.partner = some c → s.boot.newt = false → s.boot.selvedge = true → s.pair.silent = false → s.pair.halfA = true → par s 0x7070 1 ≠ 0 → c.state ≠ 5 → c.state ≠ 6 → s.pair.role = .standby ∨ s.pair.role = .joining → decision s c = some true → does (.roleDecision) s fun t =>
      t.pair.role = .primary ∧ t.pair.epoch = s.pair.epoch + 1 ∧ (t.intc.src 0x15).pending = true) ∧
  (∀ (s : State) (c : Croak),
      asleep s = false → s.pair.partner = some c → s.boot.newt = false → s.boot.selvedge = true → s.pair.silent = false → s.pair.halfA = true → par s 0x7070 1 ≠ 0 → c.state ≠ 5 → c.state ≠ 6 → s.pair.role = .standby → decision s c = some false → does (.roleDecision) s fun t =>
      t.pair.role = .joining ∧ t.pair.epoch = s.pair.epoch ∧ t.dict = s.dict ∧ (t.intc.src 0x15).pending = true) ∧
  (∀ (s : State) (c : Croak),
      asleep s = false → s.pair.partner = some c → s.boot.newt = false → s.boot.selvedge = true → s.pair.silent = false → s.pair.halfA = true → par s 0x7070 1 ≠ 0 → s.pair.role = .standby → c.state = 1 → does (.roleDecision) s fun t =>
      t.pair.role = .joining ∧ t.pair.epoch = s.pair.epoch ∧ t.dict = s.dict ∧ (t.intc.src 0x15).pending = true) ∧
  (∀ (s : State) (c : Croak),
      asleep s = false → s.pair.partner = some c → s.boot.newt = false → s.boot.selvedge = true → s.pair.silent = false → s.pair.halfA = true → par s 0x7070 1 ≠ 0 → c.state ≠ 5 → c.state ≠ 6 → s.pair.role = .standby ∨ s.pair.role = .joining → c.state ≠ 1 → s.store.pair.known = true → c.epoch < s.pair.epoch → does (.roleDecision) s fun t =>
      t.pair.role = .primary ∧ t.pair.epoch = s.pair.epoch + 1 ∧ (t.intc.src 0x15).pending = true) ∧
  (∀ (s : State) (c : Croak),
      asleep s = false → s.pair.partner = some c → s.boot.newt = false → s.boot.selvedge = true → s.pair.silent = false → s.pair.halfA = true → par s 0x7070 1 ≠ 0 → c.state ≠ 5 → c.state ≠ 6 → s.pair.role = .standalone → c.state ≠ 1 → does (.roleDecision) s fun t =>
      t.pair.role = .primary ∧ t.pair.epoch = s.pair.epoch ∧ t.encs = s.encs ∧ (t.intc.src 0x15).pending = true) ∧
  (∀ (s : State) (c : Croak),
      asleep s = false → s.pair.partner = some c → s.boot.newt = false → s.boot.selvedge = true → s.pair.silent = false → s.pair.halfA = true → par s 0x7070 1 ≠ 0 → c.state ≠ 5 → c.state ≠ 6 → s.pair.role = .standby → c.state ≠ 1 → s.store.pair.known = false → c.epoch = 0 → s.boot.pairId = false → c.pairId = true → does (.roleDecision) s fun t =>
      t.pair.role = .primary ∧ t.pair.epoch = s.pair.epoch + 1 ∧ (t.intc.src 0x15).pending = true) ∧
  (∀ (s : State) (c : Croak),
      asleep s = false → s.pair.partner = some c → s.boot.newt = false → s.boot.selvedge = true → s.pair.silent = false → s.pair.halfA = true → par s 0x7070 1 ≠ 0 → c.state ≠ 5 → c.state ≠ 6 → s.pair.role = .standby → c.state ≠ 1 → s.store.pair.known = false → c.epoch = 0 → c.pairId = s.boot.pairId → s.pair.equalIds = false → does (.roleDecision) s fun t =>
      t.pair = { s.pair with equalIds := true } ∧ (t.intc.src 0x15).pending = true ∧ t = { s with pair := t.pair, intc := t.intc, mem := t.mem, out := t.out }) ∧
  (∀ (s : State) (c : Croak),
      asleep s = false → s.pair.role = .joining → s.pair.resync = false → s.pair.partner = some c → s.boot.shutdown = false → does (.resyncFrame (.learned [])) s fun t =>
      t.pair.role = .joining ∧ t.pair.resync = true ∧ t.pair.epoch = c.epoch ∧ (t.dict.params.all fun q => localKey q.1) = true ∧ (t.store.image.all fun q => localKey q.1) = true ∧ t.selv.members = [] ∧ lookD 0 t.pair.counters 6 = lookD 0 s.pair.counters 6 + 1 ∧ lookD 0 t.pair.counters 7 = lookD 0 s.pair.counters 7 + s.pair.discarded) ∧
  (∀ (s : State),
      asleep s = false → s.pair.role = .joining → s.pair.resync = true → mirrorWaits s = false → does (.resyncComplete) s fun t =>
      t.pair.role = .secondary ∧ t.pair.mirrorOk = true ∧ t.pair.resync = false ∧ t.pair.progress = 100 ∧ t.pair.epoch = s.pair.epoch ∧ (t.intc.src 0x15).pending = true ∧ t.dict = s.dict ∧ (storeShut s = false → t.store.pair = ⟨true, s.pair.epoch, false, true⟩)) ∧
  (∀ (s : State),
      asleep s = false → (s.takeAct 0x7070 3).isSome = true → healthy s = true → s.pair.role = .primary → (s.tiles.all fun q => q.2.frame.isNone) = true → s.pair.unconfirmed = [] → does (.switchover) s fun t =>
      t.pair.role = .secondary ∧ t.pair.epoch = s.pair.epoch + 1 ∧ t.pair.switching = none ∧ lookD 0 t.pair.counters 2 = lookD 0 s.pair.counters 2 + 1 ∧ (t.intc.src 0x15).pending = true) ∧
  (∀ (s : State),
      asleep s = false → (s.takeAct 0x7070 3).isSome = true → healthy s = true → s.pair.role = .primary → s.pair.unconfirmed ≠ [] → s.pair.switching = none → does (.switchover) s fun t =>
      t.pair = { s.pair with switching := some s.clk.now } ∧ (t.encs.all fun q => q.2.pending.isNone) = true ∧ t.tiles = s.tiles ∧ t.store = s.store) ∧
  (∀ (s : State),
      asleep s = false → (s.takeAct 0x7070 3).isSome = true → healthy s = true → s.pair.role = .secondary → does (.switchover) s fun t =>
      t.out = s.out ++ [.gavonRelay 6 [⟨0x7070, 3, none, [1]⟩]] ∧ t = { s with dict := { s.dict with acts := t.dict.acts }, out := t.out }) ∧
  (∀ (s : State),
      asleep s = false → (s.takeAct 0x7070 4).isSome = true → does (.clearPairState) s fun t =>
      t.pair.role = .joining ∧ t.pair.epoch = 0 ∧ t.pair.mirrorOk = false ∧ (storeShut s = false → t.store.pair = {}) ∧ (s.pair.role ≠ .joining → (t.intc.src 0x15).pending = true))

/-- For every command and state, a step of the state with that command at the front of its queue is the command's execution on the state with the queue's rest. -/
def Obligations.StepRunsTheFrontCommand : Prop :=
  ∀ (c : Instr) (rest : List Instr) (s : State),
  step { s with pending := c :: rest } = exec c { s with pending := rest }

/-- With no command waiting a step answers a next state one nanosecond later: the model's clock counts 1, and besides it only these may change: the PTP count, by 0, 1 or 2 and not before the time unit runs, with its phase; the PPS output and what was emitted, only while the output's fall is due; the recovery watchdog's restart, only in recovery; and, only while words of frames wait at the ingress pipelines, Selvedge and the transport.
A frame that waits alone there with at most three words to come, at a port below 16 whose pipeline holds fewer than 128 packets, is parsed in this step: it waits no more and is counted in the count of parsed packets. This tick is the model's own choice (log entries 2 and 217). -/
def Obligations.IdleStepIsOneNanosecond : Prop :=
  (∀ s : State, s.pending = [] → ∃ t : State, step s = .next t ∧ t.clk = { s.clk with now := s.clk.now + 1 } ∧
  (s.boot.timeUp = false → t.time.ptp = s.time.ptp ∧ t.time.phase = s.time.phase) ∧ s.time.ptp ≤ t.time.ptp ∧ t.time.ptp ≤ s.time.ptp + 2 ∧
  (s.time.ppsFall = none → t.pins = s.pins ∧ t.out = s.out ∧ t.time.ppsFall = none) ∧ (s.boot.recovery = none → t.boot = s.boot) ∧
  (s.selv.arrivals = [] → t.selv = s.selv ∧ t.trans = s.trans) ∧
  t = { s with clk := t.clk, out := t.out, pins := { s.pins with ppsOut := t.pins.ppsOut }, boot := { s.boot with recovery := t.boot.recovery }, time := { s.time with ptp := t.time.ptp, phase := t.time.phase, ppsFall := t.time.ppsFall }, selv := t.selv, trans := t.trans }) ∧
  (∀ (s : State) (k : Pkt) (n : Nat), s.pending = [] → s.selv.arrivals = [(k, n)] → n ≤ 3 → k.port < 16 → s.selv.buffered (k.port / 4) < 128 →
  ∃ t : State, step s = .next t ∧ t.selv.arrivals = [] ∧ lookD 0 t.selv.counters 1 = lookD 0 s.selv.counters 1 + 1)

/-- Every well-formed command answers a next state in every state; a command that is not well formed (a byte string longer than what carries it, or a master whose ID is reserved) is refused as ill formed by every device that is awake. -/
def Obligations.NoCommandStops : Prop :=
  (∀ (c : Instr) (s : State), c.wellFormed = true → ∃ t, exec c s = .next t) ∧
  (∀ (c : Instr) (s : State), c.wellFormed = false → asleep s = false → exec c s = .refused .illFormed)

/-- A command that answers a next state leaves the queue of waiting commands and the model's clock as they were. -/
def Obligations.CommandsLeaveQueueAndClock : Prop :=
  ∀ (c : Instr) (s t : State), exec c s = .next t → t.pending = s.pending ∧ t.clk.now = s.clk.now

/-- Every step that answers a next state keeps what the device has emitted and appends to it. -/
def Obligations.OutputsAreNeverTakenBack : Prop :=
  ∀ s t : State, step s = .next t → s.out <+: t.out

/-- From every state whose device memory lists rising addresses and no zero byte, every step that answers a next state, whatever the command, answers one whose device memory does too. -/
def Obligations.EveryStepKeepsDeviceMemoryCanonical : Prop :=
  ∀ s t : State, s.mem.wf = true → step s = .next t → t.mem.wf = true

/-- From every state in which the pool's owner table is in order, lies within the 262,144 buffers and leaves as many as the free count says, every step that answers a next state answers such a state. -/
def Obligations.EveryStepKeepsBuffersCounted : Prop :=
  ∀ s t : State, buffersCounted s → step s = .next t → buffersCounted t

/-- From every state whose fault log has at most 8,192 entries, every step that answers a next state answers one whose fault log has at most 8,192. -/
def Obligations.EveryStepBoundsTheFaultLog : Prop :=
  ∀ s t : State, s.store.faultLog.length ≤ 8192 → step s = .next t → t.store.faultLog.length ≤ 8192

/-- After reset device memory is canonical, the buffers are counted, the fault log is within its bound, nothing waits and nothing has been emitted, every buffer is free, no source is pending, no ring or channel is in use. -/
def Obligations.ResetStateIsInOrder : Prop :=
  State.reset.mem.wf = true ∧ buffersCounted State.reset ∧ State.reset.store.faultLog.length ≤ 8192 ∧ State.reset.pending = [] ∧ State.reset.out = [] ∧
  State.reset.bpm.free = 262144 ∧ State.reset.intc.sources = [] ∧ State.reset.rings = {} ∧ State.reset.dma.chans = [] ∧ State.reset.boot.selvedge = false

/-- In boundary scan or while a thermal reset is held every command but the pin, rail and release commands answers the same state (an inference from R515 and R476: assumption 106). -/
def Obligations.DisconnectedCoreIgnoresCommands : Prop :=
  ∀ (c : Instr) (s : State), asleep s = true → outsideCore c = false → exec c s = .next s

/-- On an idle channel of an engine that is not halted, a `GO` with `LEN` 0, with a fixed side's address not a multiple of 2^ELEM, or with a fixed side and `LEN` not a multiple of 2^ELEM ends at once with `ERR` and `ERR_CODE` 3, makes no access and does not halt the engine; any other transfer with `ELEM` up to 6 starts. -/
def Obligations.InvalidTransfersEndAtTheirStart : Prop :=
  ∀ (s : State) (m : Master) (ch : Fin 32),
  asleep s = false → masterOk m = true → s.dma.halted = false → (s.chan ch).state = 0 → (s.chan ch).pause = false →
  (((s.chan ch).len.toNat = 0 ∨ ((s.chan ch).srcFixed = true ∧ (s.chan ch).src.toNat % 2 ^ (s.chan ch).elem.toNat ≠ 0) ∨
  ((s.chan ch).dstFixed = true ∧ (s.chan ch).dst.toNat % 2 ^ (s.chan ch).elem.toNat ≠ 0) ∨
  (((s.chan ch).srcFixed = true ∨ (s.chan ch).dstFixed = true) ∧ (s.chan ch).len.toNat % 2 ^ (s.chan ch).elem.toNat ≠ 0)) →
  does (.dmaGo m ch) s fun t => t.chan ch = { s.chan ch with held := false, err := true, errCode := 3, state := 0 } ∧
  t.mem = s.mem ∧ t.dma.halted = false) ∧
  (¬ ((s.chan ch).len.toNat = 0 ∨ ((s.chan ch).srcFixed = true ∧ (s.chan ch).src.toNat % 2 ^ (s.chan ch).elem.toNat ≠ 0) ∨
  ((s.chan ch).dstFixed = true ∧ (s.chan ch).dst.toNat % 2 ^ (s.chan ch).elem.toNat ≠ 0) ∨
  (((s.chan ch).srcFixed = true ∨ (s.chan ch).dstFixed = true) ∧ (s.chan ch).len.toNat % 2 ^ (s.chan ch).elem.toNat ≠ 0)) →
  (s.chan ch).elem ≠ 7 → does (.dmaGo m ch) s fun t => (t.chan ch).state = 1 ∧ (t.chan ch).err = (s.chan ch).err)

/-- HOST_RESET on an awake device, and every whole-device reset, complete with all 32 channels idle, every register at its reset value and the engine not halted: POWER_ON_RESET; PIN_RESET of 100 ns or longer and RAIL_MONITOR_TRIP of 200 ns or longer; on an awake device RESTART_REQUEST and LEAVE_NEWT with their accepted writes, BOOT_WATCHDOG_EXPIRY and RECOVERY_WATCHDOG_EXPIRY at or after
their times, SERVICE_HOLD_5S of a button held 5 s outside Newt mode and SERVICE_HOLD_15S of one held 15 s, each not yet acted on, and ERR_PULSE_END of an escalation whose pulse is over. The model's whole-device reset does the same whatever its cause. -/
def Obligations.ResetsClearTheChannels : Prop :=
  (∀ (s : State),
      asleep s = false → does (.hostReset) s fun t =>
      t.dma = {} ∧ ∀ ch, t.chan ch = {}) ∧
  (∀ (s : State) (cause : Nat) (st : Straps) (keep : Bool),
      (s.wholeReset cause st keep).dma = {} ∧ ∀ ch, (s.wholeReset cause st keep).chan ch = {}) ∧
  (∀ (s : State) (st : Straps),
      does (.powerOnReset st) s fun t =>
      t.dma = {} ∧ ∀ ch, t.chan ch = {}) ∧
  (∀ (s : State) (st : Straps) (ns : Nat),
      100 ≤ ns → does (.pinReset ns st) s fun t =>
      t.dma = {} ∧ ∀ ch, t.chan ch = {}) ∧
  (∀ (s : State) (st : Straps) (r : Fin 13) (ns : Nat),
      200 ≤ ns → does (.railMonitorTrip r ns st) s fun t =>
      t.dma = {} ∧ ∀ ch, t.chan ch = {}) ∧
  (∀ (s : State) (st : Straps),
      asleep s = false → (s.takeAct 0x2001 0).isSome = true → does (.restartRequest st) s fun t =>
      t.dma = {} ∧ ∀ ch, t.chan ch = {}) ∧
  (∀ (s : State) (st : Straps),
      asleep s = false → (s.takeAct 0x2013 0).isSome = true → does (.leaveNewt st) s fun t =>
      t.dma = {} ∧ ∀ ch, t.chan ch = {}) ∧
  (∀ (s : State) (st : Straps) (d : Nat),
      asleep s = false → s.boot.watchdog = some d → d ≤ s.clk.now → does (.bootWatchdogExpiry st) s fun t =>
      t.dma = {} ∧ ∀ ch, t.chan ch = {}) ∧
  (∀ (s : State) (st : Straps) (d : Nat),
      asleep s = false → s.boot.recovery = some d → d + 30000000000 ≤ s.clk.now → does (.recoveryWatchdogExpiry st) s fun t =>
      t.dma = {} ∧ ∀ ch, t.chan ch = {}) ∧
  (∀ (s : State) (st : Straps),
      asleep s = false → heldFor s 5000000000 = true → s.svc.did5 = false → s.boot.newt = false → does (.serviceHold5s st) s fun t =>
      t.dma = {} ∧ ∀ ch, t.chan ch = {}) ∧
  (∀ (s : State) (st : Straps) (c : Bool),
      asleep s = false → heldFor s 15000000000 = true → s.svc.did15 = false → does (.serviceHold15s st c) s fun t =>
      t.dma = {} ∧ ∀ ch, t.chan ch = {}) ∧
  (∀ (s : State) (st : Straps) (d : Nat),
      asleep s = false → s.faults.pulseEnd = some d → d ≤ s.clk.now → s.faults.escalating = true → does (.errPulseEnd st) s fun t =>
      t.dma = {} ∧ ∀ ch, t.chan ch = {})

/-- A time of s seconds and n nanoseconds is 27,000,000 s + ⌊27 n / 1,000⌋ ticks; the slot clock reads the running PTP count in these ticks, and the RTP count of a time is a 300th of them, modulo 2^32. -/
def Obligations.TicksOfPtpTime : Prop :=
  (∀ s n : Nat, n < 1000000000 → ticksOf (s * 1000000000 + n) = s * 27000000 + n * 27 / 1000) ∧
  (∀ s : State, s.boot.timeUp = true → ptpTicks s = ticksOf s.time.ptp) ∧ (∀ t : Nat, rtpTime t 0 = t / 300 % 2 ^ 32)

/-- In every seal mode, for every endpoint, frame number and list of CTU check values, the messages of two endpoints have one length and differ in their first four bytes alone, and the stored seal of endpoint 0 combined with the linear check value of the endpoint number is the seal of the endpoint's own message. -/
def Obligations.EndpointSealsFollowFromOne : Prop :=
  ∀ (mode e frame : Nat) (crcs : List Nat), mode < 4 →
  (sealMessage mode e frame crcs).length = (sealMessage mode 0 frame crcs).length ∧
  (sealMessage mode e frame crcs).drop 4 = (sealMessage mode 0 frame crcs).drop 4 ∧
  endpointSeal mode e crcs.length (frameSeal mode 0 frame crcs) = frameSeal mode e frame crcs
end

