-- ==== Sys2Proof/Laws/Units.lean ====
section
/-! SUPPORT. The units of the block as rows of their tables: what is written is read, the other rows stay, and so does every other part of
the state. -/

namespace Sys2Proof.Machine

/-! ### Association lists -/

@[simp] theorem alook_aput_same {κ α : Type} [DecidableEq κ] (l : List (κ × α)) (k : κ) (v : α) : alook (aput l k v) k = some v := by
  induction l with
  | nil => simp [aput, alook]
  | cons p r ih =>
    by_cases h : p.1 = k
    · simp [aput, alook, h]
    · simp [aput, alook, h, ih]

theorem alook_aput_ne {κ α : Type} [DecidableEq κ] (l : List (κ × α)) {k j : κ} (v : α) (h : j ≠ k) :
    alook (aput l k v) j = alook l j := by
  induction l with
  | nil => simp [aput, alook, Ne.symm h]
  | cons p r ih =>
    by_cases e : p.1 = k
    · simp [aput, alook, e, Ne.symm h]
    · by_cases g : p.1 = j
      · simp [aput, alook, g, h]
      · simp [aput, alook, e, g, ih]

/-! ### What is written is read; the other rows stay -/

@[simp] theorem State.tile_setTile (s : State) (i : Nat) (t : Tile) : (s.setTile i t).tile i = t := lookD_put_same _ _ _ _
theorem State.tile_setTile_ne (s : State) {i j : Nat} (t : Tile) (h : j ≠ i) : (s.setTile i t).tile j = s.tile j :=
  lookD_put_ne _ _ _ h
@[simp] theorem State.enc_setEnc (s : State) (i : Nat) (e : Enc) : (s.setEnc i e).enc i = e := lookD_put_same _ _ _ _
theorem State.enc_setEnc_ne (s : State) {i j : Nat} (e : Enc) (h : j ≠ i) : (s.setEnc i e).enc j = s.enc j :=
  lookD_put_ne _ _ _ h
@[simp] theorem State.engine_setEngine (s : State) (i : Nat) (g : Engine) : (s.setEngine i g).engine i = g := lookD_put_same _ _ _ _
theorem State.engine_setEngine_ne (s : State) {i j : Nat} (g : Engine) (h : j ≠ i) : (s.setEngine i g).engine j = s.engine j :=
  lookD_put_ne _ _ _ h
@[simp] theorem State.dec_setDec (s : State) (i : Nat) (e : Dec) : (s.setDec i e).dec i = e := lookD_put_same _ _ _ _
theorem State.dec_setDec_ne (s : State) {i j : Nat} (e : Dec) (h : j ≠ i) : (s.setDec i e).dec j = s.dec j :=
  lookD_put_ne _ _ _ h
@[simp] theorem State.dtile_setDtile (s : State) (i : Nat) (v : Dtile) : (s.setDtile i v).dtile i = v := lookD_put_same _ _ _ _
theorem State.dtile_setDtile_ne (s : State) {i j : Nat} (v : Dtile) (h : j ≠ i) : (s.setDtile i v).dtile j = s.dtile j :=
  lookD_put_ne _ _ _ h
@[simp] theorem State.surface_setSurface (s : State) (i : Nat) (v : Surface) : (s.setSurface i v).surface i = v := lookD_put_same _ _ _ _
theorem State.surface_setSurface_ne (s : State) {i j : Nat} (v : Surface) (h : j ≠ i) : (s.setSurface i v).surface j = s.surface j :=
  lookD_put_ne _ _ _ h
@[simp] theorem State.queue_setQueue (s : State) (i : Nat) (v : Queue) : (s.setQueue i v).queue i = v := lookD_put_same _ _ _ _
theorem State.queue_setQueue_ne (s : State) {i j : Nat} (v : Queue) (h : j ≠ i) : (s.setQueue i v).queue j = s.queue j :=
  lookD_put_ne _ _ _ h
@[simp] theorem State.portNode_setPort (s : State) (i : Nat) (v : PortNode) : (s.setPort i v).portNode i = v := lookD_put_same _ _ _ _
theorem State.portNode_setPort_ne (s : State) {i j : Nat} (v : PortNode) (h : j ≠ i) : (s.setPort i v).portNode j = s.portNode j :=
  lookD_put_ne _ _ _ h
@[simp] theorem State.ep_setEp (s : State) (i : Nat) (v : Endpoint) : (s.setEp i v).ep i = v := lookD_put_same _ _ _ _
theorem State.ep_setEp_ne (s : State) {i j : Nat} (v : Endpoint) (h : j ≠ i) : (s.setEp i v).ep j = s.ep j :=
  lookD_put_ne _ _ _ h
@[simp] theorem State.sq_setSq (s : State) (i : Nat) (v : Sq) : (s.setSq i v).sq i = v := lookD_put_same _ _ _ _
theorem State.sq_setSq_ne (s : State) {i j : Nat} (v : Sq) (h : j ≠ i) : (s.setSq i v).sq j = s.sq j :=
  lookD_put_ne _ _ _ h
@[simp] theorem State.cq_setCq (s : State) (i : Nat) (v : Cq) : (s.setCq i v).cq i = v := lookD_put_same _ _ _ _
theorem State.cq_setCq_ne (s : State) {i j : Nat} (v : Cq) (h : j ≠ i) : (s.setCq i v).cq j = s.cq j :=
  lookD_put_ne _ _ _ h
@[simp] theorem State.chan_setChan (s : State) (i : Nat) (v : Dma) : (s.setChan i v).chan i = v := lookD_put_same _ _ _ _
theorem State.chan_setChan_ne (s : State) {i j : Nat} (v : Dma) (h : j ≠ i) : (s.setChan i v).chan j = s.chan j :=
  lookD_put_ne _ _ _ h
@[simp] theorem State.window_setWindow (s : State) (i : Nat) (v : Window) : (s.setWindow i v).window i = v := lookD_put_same _ _ _ _
theorem State.window_setWindow_ne (s : State) {i j : Nat} (v : Window) (h : j ≠ i) : (s.setWindow i v).window j = s.window j :=
  lookD_put_ne _ _ _ h
@[simp] theorem State.ddr_setDdr (s : State) (i : Nat) (v : Ddr) : (s.setDdr i v).ddr i = v := lookD_put_same _ _ _ _
theorem State.ddr_setDdr_ne (s : State) {i j : Nat} (v : Ddr) (h : j ≠ i) : (s.setDdr i v).ddr j = s.ddr j :=
  lookD_put_ne _ _ _ h
@[simp] theorem State.hbm_setHbm (s : State) (i : Nat) (v : Stack) : (s.setHbm i v).hbm i = v := lookD_put_same _ _ _ _
theorem State.hbm_setHbm_ne (s : State) {i j : Nat} (v : Stack) (h : j ≠ i) : (s.setHbm i v).hbm j = s.hbm j :=
  lookD_put_ne _ _ _ h
@[simp] theorem State.desc_setDesc (s : State) (b : Nat) (d : Desc) : (s.setDesc b d).pool.desc b = d := lookD_put_same _ _ _ _
theorem State.desc_setDesc_ne (s : State) {b c : Nat} (d : Desc) (h : c ≠ b) : (s.setDesc b d).pool.desc c = s.pool.desc c :=
  lookD_put_ne _ _ _ h
@[simp] theorem State.bob_setBob (s : State) (b : BobbinId) (v : Bobbin) : (s.setBob b v).bob b = v := by
  simp [State.bob, State.setBob]
theorem State.bob_setBob_ne (s : State) {b c : BobbinId} (v : Bobbin) (h : c ≠ b) : (s.setBob b v).bob c = s.bob c := by
  simp [State.bob, State.setBob, alook_aput_ne _ _ h]
@[simp] theorem State.sess_setSess (s : State) (e : Session) (v : SessState) : (s.setSess e v).sess e = v := by
  simp [State.sess, State.setSess]
theorem State.sess_setSess_ne (s : State) {e f : Session} (v : SessState) (h : f ≠ e) : (s.setSess e v).sess f = s.sess f := by
  simp [State.sess, State.setSess, alook_aput_ne _ _ h]

/-! ### Bobbins: what each pointer does (R24 to R29) -/

/-- What has crossed for certain is no less than what was seen, and no more than the pointer (R25). -/
theorem surely_between {now seen actual : Nat} {log : List (Nat × Nat)} (h : seen ≤ actual) (hl : ∀ u ∈ log, u.2 ≤ actual) :
    seen ≤ surely now seen log ∧ surely now seen log ≤ actual := by
  induction log generalizing seen with
  | nil => exact ⟨Nat.le_refl _, h⟩
  | cons u r ih =>
    have hr : ∀ x ∈ r, x.2 ≤ actual := fun x hx => hl x (List.mem_cons_of_mem _ hx)
    have hu : u.2 ≤ actual := hl u (List.mem_cons_self ..)
    by_cases g : u.1 + 4 ≤ now
    · have := ih (seen := max seen u.2) (by omega) hr
      simp only [surely, List.foldl_cons, g, if_true] at this ⊢
      exact ⟨by omega, this.2⟩
    · have := ih h hr
      simpa only [surely, List.foldl_cons, g, if_false] using this

/-- A synchronised copy lies between what was seen and the pointer (R26). -/
theorem crossed_between {flops now free seen actual : Nat} {log : List (Nat × Nat)} (h : seen ≤ actual) (hl : ∀ u ∈ log, u.2 ≤ actual) :
    seen ≤ crossed flops now free seen actual log ∧ crossed flops now free seen actual log ≤ actual := by
  have := surely_between (now := now) h hl
  unfold crossed
  split
  · exact ⟨h, Nat.le_refl _⟩
  · omega

/-- It trails the pointer by at most one entry more than the synchroniser has flip-flops (R26). -/
theorem crossed_trails (flops now free seen actual : Nat) (log : List (Nat × Nat)) :
    actual ≤ crossed flops now free seen actual log + (flops + 1) := by
  unfold crossed
  split
  · omega
  · split
    · omega
    · have : free % (flops + 2) < flops + 2 := Nat.mod_lt _ (by omega)
      omega

/-- Every update has crossed 4 ns later, whatever came after it (R25). -/
theorem crossed_of_old {flops now free seen actual : Nat} {log : List (Nat × Nat)} {u : Nat × Nat} (hu : u ∈ log) (h : u.1 + 4 ≤ now)
    (ha : u.2 ≤ actual) : u.2 ≤ crossed flops now free seen actual log := by
  have key : ∀ (l : List (Nat × Nat)) (a : Nat), u ∈ l ∨ u.2 ≤ a → u.2 ≤ surely now a l := by
    intro l
    induction l with
    | nil => intro a g; simpa [surely] using g
    | cons x r ih =>
      intro a g
      simp only [surely, List.foldl_cons]
      refine ih _ ?_
      rcases g with g | g
      · rcases List.mem_cons.1 g with e | e
        · subst e; right; simp only [h, if_true]; omega
        · exact .inl e
      · right; split <;> omega
  unfold crossed
  split
  · exact ha
  · exact Nat.le_trans (key log seen (.inl hu)) (Nat.le_max_left _ _)

/-- Nothing that enters a Bobbin is lost: it is held by the source or waits in order (R27). -/
theorem Bobbin.refill_items (b : BobbinId) (v : Bobbin) (now : Nat) :
    (v.refill b now).items.map (·.1) ++ (v.refill b now).held = v.items.map (·.1) ++ v.held := by
  by_cases h : (v.held.take (min (v.space b) v.held.length)).isEmpty = true
  · have e : v.held.drop (min (v.space b) v.held.length) = v.held := by
      have e1 := List.take_append_drop (min (v.space b) v.held.length) v.held
      rw [List.isEmpty_iff.1 h, List.nil_append] at e1
      exact e1
    simp only [Bobbin.refill, Bobbin.put, h, if_true, e]
  · simp only [Bobbin.refill, Bobbin.put, Bobbin.wrTo, h, if_false, List.map_append, List.map_map, List.append_assoc, Bool.false_eq_true]
    rw [show ((fun x : BitVec 256 × Bool => x.1) ∘ fun x : BitVec 256 => (x, false)) = id from rfl, List.map_id,
      List.take_append_drop]

/-! A unit of the encode side is written. -/

@[simp] theorem State.setTile_clk (s : State) (p : Nat) (t : Tile) : (s.setTile p t).clk = s.clk := rfl
@[simp] theorem State.setTile_pins (s : State) (p : Nat) (t : Tile) : (s.setTile p t).pins = s.pins := rfl
@[simp] theorem State.setTile_svc (s : State) (p : Nat) (t : Tile) : (s.setTile p t).svc = s.svc := rfl
@[simp] theorem State.setTile_boot (s : State) (p : Nat) (t : Tile) : (s.setTile p t).boot = s.boot := rfl
@[simp] theorem State.setTile_store (s : State) (p : Nat) (t : Tile) : (s.setTile p t).store = s.store := rfl
@[simp] theorem State.setTile_dict (s : State) (p : Nat) (t : Tile) : (s.setTile p t).dict = s.dict := rfl
@[simp] theorem State.setTile_paths (s : State) (p : Nat) (t : Tile) : (s.setTile p t).paths = s.paths := rfl
@[simp] theorem State.setTile_bar2 (s : State) (p : Nat) (t : Tile) : (s.setTile p t).bar2 = s.bar2 := rfl
@[simp] theorem State.setTile_dev (s : State) (p : Nat) (t : Tile) : (s.setTile p t).dev = s.dev := rfl
@[simp] theorem State.setTile_bobs (s : State) (p : Nat) (t : Tile) : (s.setTile p t).bobs = s.bobs := rfl
@[simp] theorem State.setTile_caches (s : State) (p : Nat) (t : Tile) : (s.setTile p t).caches = s.caches := rfl
@[simp] theorem State.setTile_encs (s : State) (p : Nat) (t : Tile) : (s.setTile p t).encs = s.encs := rfl
@[simp] theorem State.setTile_batten (s : State) (p : Nat) (t : Tile) : (s.setTile p t).batten = s.batten := rfl
@[simp] theorem State.setTile_totals (s : State) (p : Nat) (t : Tile) : (s.setTile p t).totals = s.totals := rfl
@[simp] theorem State.setTile_pool (s : State) (p : Nat) (t : Tile) : (s.setTile p t).pool = s.pool := rfl
@[simp] theorem State.setTile_dtiles (s : State) (p : Nat) (t : Tile) : (s.setTile p t).dtiles = s.dtiles := rfl
@[simp] theorem State.setTile_decs (s : State) (p : Nat) (t : Tile) : (s.setTile p t).decs = s.decs := rfl
@[simp] theorem State.setTile_selv (s : State) (p : Nat) (t : Tile) : (s.setTile p t).selv = s.selv := rfl
@[simp] theorem State.setTile_trans (s : State) (p : Nat) (t : Tile) : (s.setTile p t).trans = s.trans := rfl
@[simp] theorem State.setTile_time (s : State) (p : Nat) (t : Tile) : (s.setTile p t).time = s.time := rfl
@[simp] theorem State.setTile_rings (s : State) (p : Nat) (t : Tile) : (s.setTile p t).rings = s.rings := rfl
@[simp] theorem State.setTile_dma (s : State) (p : Nat) (t : Tile) : (s.setTile p t).dma = s.dma := rfl
@[simp] theorem State.setTile_intc (s : State) (p : Nat) (t : Tile) : (s.setTile p t).intc = s.intc := rfl
@[simp] theorem State.setTile_bpm (s : State) (p : Nat) (t : Tile) : (s.setTile p t).bpm = s.bpm := rfl
@[simp] theorem State.setTile_mem (s : State) (p : Nat) (t : Tile) : (s.setTile p t).mem = s.mem := rfl
@[simp] theorem State.setTile_faults (s : State) (p : Nat) (t : Tile) : (s.setTile p t).faults = s.faults := rfl
@[simp] theorem State.setTile_pair (s : State) (p : Nat) (t : Tile) : (s.setTile p t).pair = s.pair := rfl
@[simp] theorem State.setTile_pending (s : State) (p : Nat) (t : Tile) : (s.setTile p t).pending = s.pending := rfl
@[simp] theorem State.setTile_out (s : State) (p : Nat) (t : Tile) : (s.setTile p t).out = s.out := rfl

@[simp] theorem State.setEnc_clk (s : State) (n : Nat) (e : Enc) : (s.setEnc n e).clk = s.clk := rfl
@[simp] theorem State.setEnc_pins (s : State) (n : Nat) (e : Enc) : (s.setEnc n e).pins = s.pins := rfl
@[simp] theorem State.setEnc_svc (s : State) (n : Nat) (e : Enc) : (s.setEnc n e).svc = s.svc := rfl
@[simp] theorem State.setEnc_boot (s : State) (n : Nat) (e : Enc) : (s.setEnc n e).boot = s.boot := rfl
@[simp] theorem State.setEnc_store (s : State) (n : Nat) (e : Enc) : (s.setEnc n e).store = s.store := rfl
@[simp] theorem State.setEnc_dict (s : State) (n : Nat) (e : Enc) : (s.setEnc n e).dict = s.dict := rfl
@[simp] theorem State.setEnc_paths (s : State) (n : Nat) (e : Enc) : (s.setEnc n e).paths = s.paths := rfl
@[simp] theorem State.setEnc_bar2 (s : State) (n : Nat) (e : Enc) : (s.setEnc n e).bar2 = s.bar2 := rfl
@[simp] theorem State.setEnc_dev (s : State) (n : Nat) (e : Enc) : (s.setEnc n e).dev = s.dev := rfl
@[simp] theorem State.setEnc_bobs (s : State) (n : Nat) (e : Enc) : (s.setEnc n e).bobs = s.bobs := rfl
@[simp] theorem State.setEnc_tiles (s : State) (n : Nat) (e : Enc) : (s.setEnc n e).tiles = s.tiles := rfl
@[simp] theorem State.setEnc_caches (s : State) (n : Nat) (e : Enc) : (s.setEnc n e).caches = s.caches := rfl
@[simp] theorem State.setEnc_batten (s : State) (n : Nat) (e : Enc) : (s.setEnc n e).batten = s.batten := rfl
@[simp] theorem State.setEnc_totals (s : State) (n : Nat) (e : Enc) : (s.setEnc n e).totals = s.totals := rfl
@[simp] theorem State.setEnc_pool (s : State) (n : Nat) (e : Enc) : (s.setEnc n e).pool = s.pool := rfl
@[simp] theorem State.setEnc_dtiles (s : State) (n : Nat) (e : Enc) : (s.setEnc n e).dtiles = s.dtiles := rfl
@[simp] theorem State.setEnc_decs (s : State) (n : Nat) (e : Enc) : (s.setEnc n e).decs = s.decs := rfl
@[simp] theorem State.setEnc_selv (s : State) (n : Nat) (e : Enc) : (s.setEnc n e).selv = s.selv := rfl
@[simp] theorem State.setEnc_trans (s : State) (n : Nat) (e : Enc) : (s.setEnc n e).trans = s.trans := rfl
@[simp] theorem State.setEnc_time (s : State) (n : Nat) (e : Enc) : (s.setEnc n e).time = s.time := rfl
@[simp] theorem State.setEnc_rings (s : State) (n : Nat) (e : Enc) : (s.setEnc n e).rings = s.rings := rfl
@[simp] theorem State.setEnc_dma (s : State) (n : Nat) (e : Enc) : (s.setEnc n e).dma = s.dma := rfl
@[simp] theorem State.setEnc_intc (s : State) (n : Nat) (e : Enc) : (s.setEnc n e).intc = s.intc := rfl
@[simp] theorem State.setEnc_bpm (s : State) (n : Nat) (e : Enc) : (s.setEnc n e).bpm = s.bpm := rfl
@[simp] theorem State.setEnc_mem (s : State) (n : Nat) (e : Enc) : (s.setEnc n e).mem = s.mem := rfl
@[simp] theorem State.setEnc_faults (s : State) (n : Nat) (e : Enc) : (s.setEnc n e).faults = s.faults := rfl
@[simp] theorem State.setEnc_pair (s : State) (n : Nat) (e : Enc) : (s.setEnc n e).pair = s.pair := rfl
@[simp] theorem State.setEnc_pending (s : State) (n : Nat) (e : Enc) : (s.setEnc n e).pending = s.pending := rfl
@[simp] theorem State.setEnc_out (s : State) (n : Nat) (e : Enc) : (s.setEnc n e).out = s.out := rfl

@[simp] theorem State.setEngine_clk (s : State) (p : Nat) (g : Engine) : (s.setEngine p g).clk = s.clk := rfl
@[simp] theorem State.setEngine_pins (s : State) (p : Nat) (g : Engine) : (s.setEngine p g).pins = s.pins := rfl
@[simp] theorem State.setEngine_svc (s : State) (p : Nat) (g : Engine) : (s.setEngine p g).svc = s.svc := rfl
@[simp] theorem State.setEngine_boot (s : State) (p : Nat) (g : Engine) : (s.setEngine p g).boot = s.boot := rfl
@[simp] theorem State.setEngine_store (s : State) (p : Nat) (g : Engine) : (s.setEngine p g).store = s.store := rfl
@[simp] theorem State.setEngine_dict (s : State) (p : Nat) (g : Engine) : (s.setEngine p g).dict = s.dict := rfl
@[simp] theorem State.setEngine_paths (s : State) (p : Nat) (g : Engine) : (s.setEngine p g).paths = s.paths := rfl
@[simp] theorem State.setEngine_bar2 (s : State) (p : Nat) (g : Engine) : (s.setEngine p g).bar2 = s.bar2 := rfl
@[simp] theorem State.setEngine_dev (s : State) (p : Nat) (g : Engine) : (s.setEngine p g).dev = s.dev := rfl
@[simp] theorem State.setEngine_bobs (s : State) (p : Nat) (g : Engine) : (s.setEngine p g).bobs = s.bobs := rfl
@[simp] theorem State.setEngine_tiles (s : State) (p : Nat) (g : Engine) : (s.setEngine p g).tiles = s.tiles := rfl
@[simp] theorem State.setEngine_caches (s : State) (p : Nat) (g : Engine) : (s.setEngine p g).caches = s.caches := rfl
@[simp] theorem State.setEngine_encs (s : State) (p : Nat) (g : Engine) : (s.setEngine p g).encs = s.encs := rfl
@[simp] theorem State.setEngine_totals (s : State) (p : Nat) (g : Engine) : (s.setEngine p g).totals = s.totals := rfl
@[simp] theorem State.setEngine_pool (s : State) (p : Nat) (g : Engine) : (s.setEngine p g).pool = s.pool := rfl
@[simp] theorem State.setEngine_dtiles (s : State) (p : Nat) (g : Engine) : (s.setEngine p g).dtiles = s.dtiles := rfl
@[simp] theorem State.setEngine_decs (s : State) (p : Nat) (g : Engine) : (s.setEngine p g).decs = s.decs := rfl
@[simp] theorem State.setEngine_selv (s : State) (p : Nat) (g : Engine) : (s.setEngine p g).selv = s.selv := rfl
@[simp] theorem State.setEngine_trans (s : State) (p : Nat) (g : Engine) : (s.setEngine p g).trans = s.trans := rfl
@[simp] theorem State.setEngine_time (s : State) (p : Nat) (g : Engine) : (s.setEngine p g).time = s.time := rfl
@[simp] theorem State.setEngine_rings (s : State) (p : Nat) (g : Engine) : (s.setEngine p g).rings = s.rings := rfl
@[simp] theorem State.setEngine_dma (s : State) (p : Nat) (g : Engine) : (s.setEngine p g).dma = s.dma := rfl
@[simp] theorem State.setEngine_intc (s : State) (p : Nat) (g : Engine) : (s.setEngine p g).intc = s.intc := rfl
@[simp] theorem State.setEngine_bpm (s : State) (p : Nat) (g : Engine) : (s.setEngine p g).bpm = s.bpm := rfl
@[simp] theorem State.setEngine_mem (s : State) (p : Nat) (g : Engine) : (s.setEngine p g).mem = s.mem := rfl
@[simp] theorem State.setEngine_faults (s : State) (p : Nat) (g : Engine) : (s.setEngine p g).faults = s.faults := rfl
@[simp] theorem State.setEngine_pair (s : State) (p : Nat) (g : Engine) : (s.setEngine p g).pair = s.pair := rfl
@[simp] theorem State.setEngine_pending (s : State) (p : Nat) (g : Engine) : (s.setEngine p g).pending = s.pending := rfl
@[simp] theorem State.setEngine_out (s : State) (p : Nat) (g : Engine) : (s.setEngine p g).out = s.out := rfl

@[simp] theorem State.setBankVar_clk (s : State) (k v : Nat) (x : Word) : (s.setBankVar k v x).clk = s.clk := rfl
@[simp] theorem State.setBankVar_pins (s : State) (k v : Nat) (x : Word) : (s.setBankVar k v x).pins = s.pins := rfl
@[simp] theorem State.setBankVar_svc (s : State) (k v : Nat) (x : Word) : (s.setBankVar k v x).svc = s.svc := rfl
@[simp] theorem State.setBankVar_boot (s : State) (k v : Nat) (x : Word) : (s.setBankVar k v x).boot = s.boot := rfl
@[simp] theorem State.setBankVar_store (s : State) (k v : Nat) (x : Word) : (s.setBankVar k v x).store = s.store := rfl
@[simp] theorem State.setBankVar_dict (s : State) (k v : Nat) (x : Word) : (s.setBankVar k v x).dict = s.dict := rfl
@[simp] theorem State.setBankVar_paths (s : State) (k v : Nat) (x : Word) : (s.setBankVar k v x).paths = s.paths := rfl
@[simp] theorem State.setBankVar_bar2 (s : State) (k v : Nat) (x : Word) : (s.setBankVar k v x).bar2 = s.bar2 := rfl
@[simp] theorem State.setBankVar_dev (s : State) (k v : Nat) (x : Word) : (s.setBankVar k v x).dev = s.dev := rfl
@[simp] theorem State.setBankVar_bobs (s : State) (k v : Nat) (x : Word) : (s.setBankVar k v x).bobs = s.bobs := rfl
@[simp] theorem State.setBankVar_tiles (s : State) (k v : Nat) (x : Word) : (s.setBankVar k v x).tiles = s.tiles := rfl
@[simp] theorem State.setBankVar_caches (s : State) (k v : Nat) (x : Word) : (s.setBankVar k v x).caches = s.caches := rfl
@[simp] theorem State.setBankVar_encs (s : State) (k v : Nat) (x : Word) : (s.setBankVar k v x).encs = s.encs := rfl
@[simp] theorem State.setBankVar_totals (s : State) (k v : Nat) (x : Word) : (s.setBankVar k v x).totals = s.totals := rfl
@[simp] theorem State.setBankVar_pool (s : State) (k v : Nat) (x : Word) : (s.setBankVar k v x).pool = s.pool := rfl
@[simp] theorem State.setBankVar_dtiles (s : State) (k v : Nat) (x : Word) : (s.setBankVar k v x).dtiles = s.dtiles := rfl
@[simp] theorem State.setBankVar_decs (s : State) (k v : Nat) (x : Word) : (s.setBankVar k v x).decs = s.decs := rfl
@[simp] theorem State.setBankVar_selv (s : State) (k v : Nat) (x : Word) : (s.setBankVar k v x).selv = s.selv := rfl
@[simp] theorem State.setBankVar_trans (s : State) (k v : Nat) (x : Word) : (s.setBankVar k v x).trans = s.trans := rfl
@[simp] theorem State.setBankVar_time (s : State) (k v : Nat) (x : Word) : (s.setBankVar k v x).time = s.time := rfl
@[simp] theorem State.setBankVar_rings (s : State) (k v : Nat) (x : Word) : (s.setBankVar k v x).rings = s.rings := rfl
@[simp] theorem State.setBankVar_dma (s : State) (k v : Nat) (x : Word) : (s.setBankVar k v x).dma = s.dma := rfl
@[simp] theorem State.setBankVar_intc (s : State) (k v : Nat) (x : Word) : (s.setBankVar k v x).intc = s.intc := rfl
@[simp] theorem State.setBankVar_bpm (s : State) (k v : Nat) (x : Word) : (s.setBankVar k v x).bpm = s.bpm := rfl
@[simp] theorem State.setBankVar_mem (s : State) (k v : Nat) (x : Word) : (s.setBankVar k v x).mem = s.mem := rfl
@[simp] theorem State.setBankVar_faults (s : State) (k v : Nat) (x : Word) : (s.setBankVar k v x).faults = s.faults := rfl
@[simp] theorem State.setBankVar_pair (s : State) (k v : Nat) (x : Word) : (s.setBankVar k v x).pair = s.pair := rfl
@[simp] theorem State.setBankVar_pending (s : State) (k v : Nat) (x : Word) : (s.setBankVar k v x).pending = s.pending := rfl
@[simp] theorem State.setBankVar_out (s : State) (k v : Nat) (x : Word) : (s.setBankVar k v x).out = s.out := rfl

/-! A unit of the decode side is written. -/

@[simp] theorem State.setDec_clk (s : State) (c : Nat) (e : Dec) : (s.setDec c e).clk = s.clk := rfl
@[simp] theorem State.setDec_pins (s : State) (c : Nat) (e : Dec) : (s.setDec c e).pins = s.pins := rfl
@[simp] theorem State.setDec_svc (s : State) (c : Nat) (e : Dec) : (s.setDec c e).svc = s.svc := rfl
@[simp] theorem State.setDec_boot (s : State) (c : Nat) (e : Dec) : (s.setDec c e).boot = s.boot := rfl
@[simp] theorem State.setDec_store (s : State) (c : Nat) (e : Dec) : (s.setDec c e).store = s.store := rfl
@[simp] theorem State.setDec_dict (s : State) (c : Nat) (e : Dec) : (s.setDec c e).dict = s.dict := rfl
@[simp] theorem State.setDec_paths (s : State) (c : Nat) (e : Dec) : (s.setDec c e).paths = s.paths := rfl
@[simp] theorem State.setDec_bar2 (s : State) (c : Nat) (e : Dec) : (s.setDec c e).bar2 = s.bar2 := rfl
@[simp] theorem State.setDec_dev (s : State) (c : Nat) (e : Dec) : (s.setDec c e).dev = s.dev := rfl
@[simp] theorem State.setDec_bobs (s : State) (c : Nat) (e : Dec) : (s.setDec c e).bobs = s.bobs := rfl
@[simp] theorem State.setDec_tiles (s : State) (c : Nat) (e : Dec) : (s.setDec c e).tiles = s.tiles := rfl
@[simp] theorem State.setDec_caches (s : State) (c : Nat) (e : Dec) : (s.setDec c e).caches = s.caches := rfl
@[simp] theorem State.setDec_encs (s : State) (c : Nat) (e : Dec) : (s.setDec c e).encs = s.encs := rfl
@[simp] theorem State.setDec_batten (s : State) (c : Nat) (e : Dec) : (s.setDec c e).batten = s.batten := rfl
@[simp] theorem State.setDec_totals (s : State) (c : Nat) (e : Dec) : (s.setDec c e).totals = s.totals := rfl
@[simp] theorem State.setDec_pool (s : State) (c : Nat) (e : Dec) : (s.setDec c e).pool = s.pool := rfl
@[simp] theorem State.setDec_dtiles (s : State) (c : Nat) (e : Dec) : (s.setDec c e).dtiles = s.dtiles := rfl
@[simp] theorem State.setDec_selv (s : State) (c : Nat) (e : Dec) : (s.setDec c e).selv = s.selv := rfl
@[simp] theorem State.setDec_trans (s : State) (c : Nat) (e : Dec) : (s.setDec c e).trans = s.trans := rfl
@[simp] theorem State.setDec_time (s : State) (c : Nat) (e : Dec) : (s.setDec c e).time = s.time := rfl
@[simp] theorem State.setDec_rings (s : State) (c : Nat) (e : Dec) : (s.setDec c e).rings = s.rings := rfl
@[simp] theorem State.setDec_dma (s : State) (c : Nat) (e : Dec) : (s.setDec c e).dma = s.dma := rfl
@[simp] theorem State.setDec_intc (s : State) (c : Nat) (e : Dec) : (s.setDec c e).intc = s.intc := rfl
@[simp] theorem State.setDec_bpm (s : State) (c : Nat) (e : Dec) : (s.setDec c e).bpm = s.bpm := rfl
@[simp] theorem State.setDec_mem (s : State) (c : Nat) (e : Dec) : (s.setDec c e).mem = s.mem := rfl
@[simp] theorem State.setDec_faults (s : State) (c : Nat) (e : Dec) : (s.setDec c e).faults = s.faults := rfl
@[simp] theorem State.setDec_pair (s : State) (c : Nat) (e : Dec) : (s.setDec c e).pair = s.pair := rfl
@[simp] theorem State.setDec_pending (s : State) (c : Nat) (e : Dec) : (s.setDec c e).pending = s.pending := rfl
@[simp] theorem State.setDec_out (s : State) (c : Nat) (e : Dec) : (s.setDec c e).out = s.out := rfl

@[simp] theorem State.setDtile_clk (s : State) (p : Nat) (v : Dtile) : (s.setDtile p v).clk = s.clk := rfl
@[simp] theorem State.setDtile_pins (s : State) (p : Nat) (v : Dtile) : (s.setDtile p v).pins = s.pins := rfl
@[simp] theorem State.setDtile_svc (s : State) (p : Nat) (v : Dtile) : (s.setDtile p v).svc = s.svc := rfl
@[simp] theorem State.setDtile_boot (s : State) (p : Nat) (v : Dtile) : (s.setDtile p v).boot = s.boot := rfl
@[simp] theorem State.setDtile_store (s : State) (p : Nat) (v : Dtile) : (s.setDtile p v).store = s.store := rfl
@[simp] theorem State.setDtile_dict (s : State) (p : Nat) (v : Dtile) : (s.setDtile p v).dict = s.dict := rfl
@[simp] theorem State.setDtile_paths (s : State) (p : Nat) (v : Dtile) : (s.setDtile p v).paths = s.paths := rfl
@[simp] theorem State.setDtile_bar2 (s : State) (p : Nat) (v : Dtile) : (s.setDtile p v).bar2 = s.bar2 := rfl
@[simp] theorem State.setDtile_dev (s : State) (p : Nat) (v : Dtile) : (s.setDtile p v).dev = s.dev := rfl
@[simp] theorem State.setDtile_bobs (s : State) (p : Nat) (v : Dtile) : (s.setDtile p v).bobs = s.bobs := rfl
@[simp] theorem State.setDtile_tiles (s : State) (p : Nat) (v : Dtile) : (s.setDtile p v).tiles = s.tiles := rfl
@[simp] theorem State.setDtile_caches (s : State) (p : Nat) (v : Dtile) : (s.setDtile p v).caches = s.caches := rfl
@[simp] theorem State.setDtile_encs (s : State) (p : Nat) (v : Dtile) : (s.setDtile p v).encs = s.encs := rfl
@[simp] theorem State.setDtile_batten (s : State) (p : Nat) (v : Dtile) : (s.setDtile p v).batten = s.batten := rfl
@[simp] theorem State.setDtile_totals (s : State) (p : Nat) (v : Dtile) : (s.setDtile p v).totals = s.totals := rfl
@[simp] theorem State.setDtile_pool (s : State) (p : Nat) (v : Dtile) : (s.setDtile p v).pool = s.pool := rfl
@[simp] theorem State.setDtile_decs (s : State) (p : Nat) (v : Dtile) : (s.setDtile p v).decs = s.decs := rfl
@[simp] theorem State.setDtile_selv (s : State) (p : Nat) (v : Dtile) : (s.setDtile p v).selv = s.selv := rfl
@[simp] theorem State.setDtile_trans (s : State) (p : Nat) (v : Dtile) : (s.setDtile p v).trans = s.trans := rfl
@[simp] theorem State.setDtile_time (s : State) (p : Nat) (v : Dtile) : (s.setDtile p v).time = s.time := rfl
@[simp] theorem State.setDtile_rings (s : State) (p : Nat) (v : Dtile) : (s.setDtile p v).rings = s.rings := rfl
@[simp] theorem State.setDtile_dma (s : State) (p : Nat) (v : Dtile) : (s.setDtile p v).dma = s.dma := rfl
@[simp] theorem State.setDtile_intc (s : State) (p : Nat) (v : Dtile) : (s.setDtile p v).intc = s.intc := rfl
@[simp] theorem State.setDtile_bpm (s : State) (p : Nat) (v : Dtile) : (s.setDtile p v).bpm = s.bpm := rfl
@[simp] theorem State.setDtile_mem (s : State) (p : Nat) (v : Dtile) : (s.setDtile p v).mem = s.mem := rfl
@[simp] theorem State.setDtile_faults (s : State) (p : Nat) (v : Dtile) : (s.setDtile p v).faults = s.faults := rfl
@[simp] theorem State.setDtile_pair (s : State) (p : Nat) (v : Dtile) : (s.setDtile p v).pair = s.pair := rfl
@[simp] theorem State.setDtile_pending (s : State) (p : Nat) (v : Dtile) : (s.setDtile p v).pending = s.pending := rfl
@[simp] theorem State.setDtile_out (s : State) (p : Nat) (v : Dtile) : (s.setDtile p v).out = s.out := rfl

/-! A row of the reference pool is written. -/

@[simp] theorem State.setDesc_clk (s : State) (b : Nat) (d : Desc) : (s.setDesc b d).clk = s.clk := rfl
@[simp] theorem State.setDesc_pins (s : State) (b : Nat) (d : Desc) : (s.setDesc b d).pins = s.pins := rfl
@[simp] theorem State.setDesc_svc (s : State) (b : Nat) (d : Desc) : (s.setDesc b d).svc = s.svc := rfl
@[simp] theorem State.setDesc_boot (s : State) (b : Nat) (d : Desc) : (s.setDesc b d).boot = s.boot := rfl
@[simp] theorem State.setDesc_store (s : State) (b : Nat) (d : Desc) : (s.setDesc b d).store = s.store := rfl
@[simp] theorem State.setDesc_dict (s : State) (b : Nat) (d : Desc) : (s.setDesc b d).dict = s.dict := rfl
@[simp] theorem State.setDesc_paths (s : State) (b : Nat) (d : Desc) : (s.setDesc b d).paths = s.paths := rfl
@[simp] theorem State.setDesc_bar2 (s : State) (b : Nat) (d : Desc) : (s.setDesc b d).bar2 = s.bar2 := rfl
@[simp] theorem State.setDesc_dev (s : State) (b : Nat) (d : Desc) : (s.setDesc b d).dev = s.dev := rfl
@[simp] theorem State.setDesc_bobs (s : State) (b : Nat) (d : Desc) : (s.setDesc b d).bobs = s.bobs := rfl
@[simp] theorem State.setDesc_tiles (s : State) (b : Nat) (d : Desc) : (s.setDesc b d).tiles = s.tiles := rfl
@[simp] theorem State.setDesc_caches (s : State) (b : Nat) (d : Desc) : (s.setDesc b d).caches = s.caches := rfl
@[simp] theorem State.setDesc_encs (s : State) (b : Nat) (d : Desc) : (s.setDesc b d).encs = s.encs := rfl
@[simp] theorem State.setDesc_batten (s : State) (b : Nat) (d : Desc) : (s.setDesc b d).batten = s.batten := rfl
@[simp] theorem State.setDesc_totals (s : State) (b : Nat) (d : Desc) : (s.setDesc b d).totals = s.totals := rfl
@[simp] theorem State.setDesc_dtiles (s : State) (b : Nat) (d : Desc) : (s.setDesc b d).dtiles = s.dtiles := rfl
@[simp] theorem State.setDesc_decs (s : State) (b : Nat) (d : Desc) : (s.setDesc b d).decs = s.decs := rfl
@[simp] theorem State.setDesc_selv (s : State) (b : Nat) (d : Desc) : (s.setDesc b d).selv = s.selv := rfl
@[simp] theorem State.setDesc_trans (s : State) (b : Nat) (d : Desc) : (s.setDesc b d).trans = s.trans := rfl
@[simp] theorem State.setDesc_time (s : State) (b : Nat) (d : Desc) : (s.setDesc b d).time = s.time := rfl
@[simp] theorem State.setDesc_rings (s : State) (b : Nat) (d : Desc) : (s.setDesc b d).rings = s.rings := rfl
@[simp] theorem State.setDesc_dma (s : State) (b : Nat) (d : Desc) : (s.setDesc b d).dma = s.dma := rfl
@[simp] theorem State.setDesc_intc (s : State) (b : Nat) (d : Desc) : (s.setDesc b d).intc = s.intc := rfl
@[simp] theorem State.setDesc_bpm (s : State) (b : Nat) (d : Desc) : (s.setDesc b d).bpm = s.bpm := rfl
@[simp] theorem State.setDesc_mem (s : State) (b : Nat) (d : Desc) : (s.setDesc b d).mem = s.mem := rfl
@[simp] theorem State.setDesc_faults (s : State) (b : Nat) (d : Desc) : (s.setDesc b d).faults = s.faults := rfl
@[simp] theorem State.setDesc_pair (s : State) (b : Nat) (d : Desc) : (s.setDesc b d).pair = s.pair := rfl
@[simp] theorem State.setDesc_pending (s : State) (b : Nat) (d : Desc) : (s.setDesc b d).pending = s.pending := rfl
@[simp] theorem State.setDesc_out (s : State) (b : Nat) (d : Desc) : (s.setDesc b d).out = s.out := rfl

@[simp] theorem State.setSurface_clk (s : State) (h : Nat) (v : Surface) : (s.setSurface h v).clk = s.clk := rfl
@[simp] theorem State.setSurface_pins (s : State) (h : Nat) (v : Surface) : (s.setSurface h v).pins = s.pins := rfl
@[simp] theorem State.setSurface_svc (s : State) (h : Nat) (v : Surface) : (s.setSurface h v).svc = s.svc := rfl
@[simp] theorem State.setSurface_boot (s : State) (h : Nat) (v : Surface) : (s.setSurface h v).boot = s.boot := rfl
@[simp] theorem State.setSurface_store (s : State) (h : Nat) (v : Surface) : (s.setSurface h v).store = s.store := rfl
@[simp] theorem State.setSurface_dict (s : State) (h : Nat) (v : Surface) : (s.setSurface h v).dict = s.dict := rfl
@[simp] theorem State.setSurface_paths (s : State) (h : Nat) (v : Surface) : (s.setSurface h v).paths = s.paths := rfl
@[simp] theorem State.setSurface_bar2 (s : State) (h : Nat) (v : Surface) : (s.setSurface h v).bar2 = s.bar2 := rfl
@[simp] theorem State.setSurface_dev (s : State) (h : Nat) (v : Surface) : (s.setSurface h v).dev = s.dev := rfl
@[simp] theorem State.setSurface_bobs (s : State) (h : Nat) (v : Surface) : (s.setSurface h v).bobs = s.bobs := rfl
@[simp] theorem State.setSurface_tiles (s : State) (h : Nat) (v : Surface) : (s.setSurface h v).tiles = s.tiles := rfl
@[simp] theorem State.setSurface_caches (s : State) (h : Nat) (v : Surface) : (s.setSurface h v).caches = s.caches := rfl
@[simp] theorem State.setSurface_encs (s : State) (h : Nat) (v : Surface) : (s.setSurface h v).encs = s.encs := rfl
@[simp] theorem State.setSurface_batten (s : State) (h : Nat) (v : Surface) : (s.setSurface h v).batten = s.batten := rfl
@[simp] theorem State.setSurface_totals (s : State) (h : Nat) (v : Surface) : (s.setSurface h v).totals = s.totals := rfl
@[simp] theorem State.setSurface_dtiles (s : State) (h : Nat) (v : Surface) : (s.setSurface h v).dtiles = s.dtiles := rfl
@[simp] theorem State.setSurface_decs (s : State) (h : Nat) (v : Surface) : (s.setSurface h v).decs = s.decs := rfl
@[simp] theorem State.setSurface_selv (s : State) (h : Nat) (v : Surface) : (s.setSurface h v).selv = s.selv := rfl
@[simp] theorem State.setSurface_trans (s : State) (h : Nat) (v : Surface) : (s.setSurface h v).trans = s.trans := rfl
@[simp] theorem State.setSurface_time (s : State) (h : Nat) (v : Surface) : (s.setSurface h v).time = s.time := rfl
@[simp] theorem State.setSurface_rings (s : State) (h : Nat) (v : Surface) : (s.setSurface h v).rings = s.rings := rfl
@[simp] theorem State.setSurface_dma (s : State) (h : Nat) (v : Surface) : (s.setSurface h v).dma = s.dma := rfl
@[simp] theorem State.setSurface_intc (s : State) (h : Nat) (v : Surface) : (s.setSurface h v).intc = s.intc := rfl
@[simp] theorem State.setSurface_bpm (s : State) (h : Nat) (v : Surface) : (s.setSurface h v).bpm = s.bpm := rfl
@[simp] theorem State.setSurface_mem (s : State) (h : Nat) (v : Surface) : (s.setSurface h v).mem = s.mem := rfl
@[simp] theorem State.setSurface_faults (s : State) (h : Nat) (v : Surface) : (s.setSurface h v).faults = s.faults := rfl
@[simp] theorem State.setSurface_pair (s : State) (h : Nat) (v : Surface) : (s.setSurface h v).pair = s.pair := rfl
@[simp] theorem State.setSurface_pending (s : State) (h : Nat) (v : Surface) : (s.setSurface h v).pending = s.pending := rfl
@[simp] theorem State.setSurface_out (s : State) (h : Nat) (v : Surface) : (s.setSurface h v).out = s.out := rfl

/-! A row of the transport is written. -/

@[simp] theorem State.setQueue_clk (s : State) (q : Nat) (v : Queue) : (s.setQueue q v).clk = s.clk := rfl
@[simp] theorem State.setQueue_pins (s : State) (q : Nat) (v : Queue) : (s.setQueue q v).pins = s.pins := rfl
@[simp] theorem State.setQueue_svc (s : State) (q : Nat) (v : Queue) : (s.setQueue q v).svc = s.svc := rfl
@[simp] theorem State.setQueue_boot (s : State) (q : Nat) (v : Queue) : (s.setQueue q v).boot = s.boot := rfl
@[simp] theorem State.setQueue_store (s : State) (q : Nat) (v : Queue) : (s.setQueue q v).store = s.store := rfl
@[simp] theorem State.setQueue_dict (s : State) (q : Nat) (v : Queue) : (s.setQueue q v).dict = s.dict := rfl
@[simp] theorem State.setQueue_paths (s : State) (q : Nat) (v : Queue) : (s.setQueue q v).paths = s.paths := rfl
@[simp] theorem State.setQueue_bar2 (s : State) (q : Nat) (v : Queue) : (s.setQueue q v).bar2 = s.bar2 := rfl
@[simp] theorem State.setQueue_dev (s : State) (q : Nat) (v : Queue) : (s.setQueue q v).dev = s.dev := rfl
@[simp] theorem State.setQueue_bobs (s : State) (q : Nat) (v : Queue) : (s.setQueue q v).bobs = s.bobs := rfl
@[simp] theorem State.setQueue_tiles (s : State) (q : Nat) (v : Queue) : (s.setQueue q v).tiles = s.tiles := rfl
@[simp] theorem State.setQueue_caches (s : State) (q : Nat) (v : Queue) : (s.setQueue q v).caches = s.caches := rfl
@[simp] theorem State.setQueue_encs (s : State) (q : Nat) (v : Queue) : (s.setQueue q v).encs = s.encs := rfl
@[simp] theorem State.setQueue_batten (s : State) (q : Nat) (v : Queue) : (s.setQueue q v).batten = s.batten := rfl
@[simp] theorem State.setQueue_totals (s : State) (q : Nat) (v : Queue) : (s.setQueue q v).totals = s.totals := rfl
@[simp] theorem State.setQueue_pool (s : State) (q : Nat) (v : Queue) : (s.setQueue q v).pool = s.pool := rfl
@[simp] theorem State.setQueue_dtiles (s : State) (q : Nat) (v : Queue) : (s.setQueue q v).dtiles = s.dtiles := rfl
@[simp] theorem State.setQueue_decs (s : State) (q : Nat) (v : Queue) : (s.setQueue q v).decs = s.decs := rfl
@[simp] theorem State.setQueue_selv (s : State) (q : Nat) (v : Queue) : (s.setQueue q v).selv = s.selv := rfl
@[simp] theorem State.setQueue_time (s : State) (q : Nat) (v : Queue) : (s.setQueue q v).time = s.time := rfl
@[simp] theorem State.setQueue_rings (s : State) (q : Nat) (v : Queue) : (s.setQueue q v).rings = s.rings := rfl
@[simp] theorem State.setQueue_dma (s : State) (q : Nat) (v : Queue) : (s.setQueue q v).dma = s.dma := rfl
@[simp] theorem State.setQueue_intc (s : State) (q : Nat) (v : Queue) : (s.setQueue q v).intc = s.intc := rfl
@[simp] theorem State.setQueue_bpm (s : State) (q : Nat) (v : Queue) : (s.setQueue q v).bpm = s.bpm := rfl
@[simp] theorem State.setQueue_mem (s : State) (q : Nat) (v : Queue) : (s.setQueue q v).mem = s.mem := rfl
@[simp] theorem State.setQueue_faults (s : State) (q : Nat) (v : Queue) : (s.setQueue q v).faults = s.faults := rfl
@[simp] theorem State.setQueue_pair (s : State) (q : Nat) (v : Queue) : (s.setQueue q v).pair = s.pair := rfl
@[simp] theorem State.setQueue_pending (s : State) (q : Nat) (v : Queue) : (s.setQueue q v).pending = s.pending := rfl
@[simp] theorem State.setQueue_out (s : State) (q : Nat) (v : Queue) : (s.setQueue q v).out = s.out := rfl

@[simp] theorem State.setPort_clk (s : State) (p : Nat) (v : PortNode) : (s.setPort p v).clk = s.clk := rfl
@[simp] theorem State.setPort_pins (s : State) (p : Nat) (v : PortNode) : (s.setPort p v).pins = s.pins := rfl
@[simp] theorem State.setPort_svc (s : State) (p : Nat) (v : PortNode) : (s.setPort p v).svc = s.svc := rfl
@[simp] theorem State.setPort_boot (s : State) (p : Nat) (v : PortNode) : (s.setPort p v).boot = s.boot := rfl
@[simp] theorem State.setPort_store (s : State) (p : Nat) (v : PortNode) : (s.setPort p v).store = s.store := rfl
@[simp] theorem State.setPort_dict (s : State) (p : Nat) (v : PortNode) : (s.setPort p v).dict = s.dict := rfl
@[simp] theorem State.setPort_paths (s : State) (p : Nat) (v : PortNode) : (s.setPort p v).paths = s.paths := rfl
@[simp] theorem State.setPort_bar2 (s : State) (p : Nat) (v : PortNode) : (s.setPort p v).bar2 = s.bar2 := rfl
@[simp] theorem State.setPort_dev (s : State) (p : Nat) (v : PortNode) : (s.setPort p v).dev = s.dev := rfl
@[simp] theorem State.setPort_bobs (s : State) (p : Nat) (v : PortNode) : (s.setPort p v).bobs = s.bobs := rfl
@[simp] theorem State.setPort_tiles (s : State) (p : Nat) (v : PortNode) : (s.setPort p v).tiles = s.tiles := rfl
@[simp] theorem State.setPort_caches (s : State) (p : Nat) (v : PortNode) : (s.setPort p v).caches = s.caches := rfl
@[simp] theorem State.setPort_encs (s : State) (p : Nat) (v : PortNode) : (s.setPort p v).encs = s.encs := rfl
@[simp] theorem State.setPort_batten (s : State) (p : Nat) (v : PortNode) : (s.setPort p v).batten = s.batten := rfl
@[simp] theorem State.setPort_totals (s : State) (p : Nat) (v : PortNode) : (s.setPort p v).totals = s.totals := rfl
@[simp] theorem State.setPort_pool (s : State) (p : Nat) (v : PortNode) : (s.setPort p v).pool = s.pool := rfl
@[simp] theorem State.setPort_dtiles (s : State) (p : Nat) (v : PortNode) : (s.setPort p v).dtiles = s.dtiles := rfl
@[simp] theorem State.setPort_decs (s : State) (p : Nat) (v : PortNode) : (s.setPort p v).decs = s.decs := rfl
@[simp] theorem State.setPort_selv (s : State) (p : Nat) (v : PortNode) : (s.setPort p v).selv = s.selv := rfl
@[simp] theorem State.setPort_time (s : State) (p : Nat) (v : PortNode) : (s.setPort p v).time = s.time := rfl
@[simp] theorem State.setPort_rings (s : State) (p : Nat) (v : PortNode) : (s.setPort p v).rings = s.rings := rfl
@[simp] theorem State.setPort_dma (s : State) (p : Nat) (v : PortNode) : (s.setPort p v).dma = s.dma := rfl
@[simp] theorem State.setPort_intc (s : State) (p : Nat) (v : PortNode) : (s.setPort p v).intc = s.intc := rfl
@[simp] theorem State.setPort_bpm (s : State) (p : Nat) (v : PortNode) : (s.setPort p v).bpm = s.bpm := rfl
@[simp] theorem State.setPort_mem (s : State) (p : Nat) (v : PortNode) : (s.setPort p v).mem = s.mem := rfl
@[simp] theorem State.setPort_faults (s : State) (p : Nat) (v : PortNode) : (s.setPort p v).faults = s.faults := rfl
@[simp] theorem State.setPort_pair (s : State) (p : Nat) (v : PortNode) : (s.setPort p v).pair = s.pair := rfl
@[simp] theorem State.setPort_pending (s : State) (p : Nat) (v : PortNode) : (s.setPort p v).pending = s.pending := rfl
@[simp] theorem State.setPort_out (s : State) (p : Nat) (v : PortNode) : (s.setPort p v).out = s.out := rfl

@[simp] theorem State.setEp_clk (s : State) (e : Nat) (v : Endpoint) : (s.setEp e v).clk = s.clk := rfl
@[simp] theorem State.setEp_pins (s : State) (e : Nat) (v : Endpoint) : (s.setEp e v).pins = s.pins := rfl
@[simp] theorem State.setEp_svc (s : State) (e : Nat) (v : Endpoint) : (s.setEp e v).svc = s.svc := rfl
@[simp] theorem State.setEp_boot (s : State) (e : Nat) (v : Endpoint) : (s.setEp e v).boot = s.boot := rfl
@[simp] theorem State.setEp_store (s : State) (e : Nat) (v : Endpoint) : (s.setEp e v).store = s.store := rfl
@[simp] theorem State.setEp_dict (s : State) (e : Nat) (v : Endpoint) : (s.setEp e v).dict = s.dict := rfl
@[simp] theorem State.setEp_paths (s : State) (e : Nat) (v : Endpoint) : (s.setEp e v).paths = s.paths := rfl
@[simp] theorem State.setEp_bar2 (s : State) (e : Nat) (v : Endpoint) : (s.setEp e v).bar2 = s.bar2 := rfl
@[simp] theorem State.setEp_dev (s : State) (e : Nat) (v : Endpoint) : (s.setEp e v).dev = s.dev := rfl
@[simp] theorem State.setEp_bobs (s : State) (e : Nat) (v : Endpoint) : (s.setEp e v).bobs = s.bobs := rfl
@[simp] theorem State.setEp_tiles (s : State) (e : Nat) (v : Endpoint) : (s.setEp e v).tiles = s.tiles := rfl
@[simp] theorem State.setEp_caches (s : State) (e : Nat) (v : Endpoint) : (s.setEp e v).caches = s.caches := rfl
@[simp] theorem State.setEp_encs (s : State) (e : Nat) (v : Endpoint) : (s.setEp e v).encs = s.encs := rfl
@[simp] theorem State.setEp_batten (s : State) (e : Nat) (v : Endpoint) : (s.setEp e v).batten = s.batten := rfl
@[simp] theorem State.setEp_totals (s : State) (e : Nat) (v : Endpoint) : (s.setEp e v).totals = s.totals := rfl
@[simp] theorem State.setEp_pool (s : State) (e : Nat) (v : Endpoint) : (s.setEp e v).pool = s.pool := rfl
@[simp] theorem State.setEp_dtiles (s : State) (e : Nat) (v : Endpoint) : (s.setEp e v).dtiles = s.dtiles := rfl
@[simp] theorem State.setEp_decs (s : State) (e : Nat) (v : Endpoint) : (s.setEp e v).decs = s.decs := rfl
@[simp] theorem State.setEp_selv (s : State) (e : Nat) (v : Endpoint) : (s.setEp e v).selv = s.selv := rfl
@[simp] theorem State.setEp_time (s : State) (e : Nat) (v : Endpoint) : (s.setEp e v).time = s.time := rfl
@[simp] theorem State.setEp_rings (s : State) (e : Nat) (v : Endpoint) : (s.setEp e v).rings = s.rings := rfl
@[simp] theorem State.setEp_dma (s : State) (e : Nat) (v : Endpoint) : (s.setEp e v).dma = s.dma := rfl
@[simp] theorem State.setEp_intc (s : State) (e : Nat) (v : Endpoint) : (s.setEp e v).intc = s.intc := rfl
@[simp] theorem State.setEp_bpm (s : State) (e : Nat) (v : Endpoint) : (s.setEp e v).bpm = s.bpm := rfl
@[simp] theorem State.setEp_mem (s : State) (e : Nat) (v : Endpoint) : (s.setEp e v).mem = s.mem := rfl
@[simp] theorem State.setEp_faults (s : State) (e : Nat) (v : Endpoint) : (s.setEp e v).faults = s.faults := rfl
@[simp] theorem State.setEp_pair (s : State) (e : Nat) (v : Endpoint) : (s.setEp e v).pair = s.pair := rfl
@[simp] theorem State.setEp_pending (s : State) (e : Nat) (v : Endpoint) : (s.setEp e v).pending = s.pending := rfl
@[simp] theorem State.setEp_out (s : State) (e : Nat) (v : Endpoint) : (s.setEp e v).out = s.out := rfl

/-! A row of the host interface is written. -/

@[simp] theorem State.setSq_clk (s : State) (p : Nat) (v : Sq) : (s.setSq p v).clk = s.clk := rfl
@[simp] theorem State.setSq_pins (s : State) (p : Nat) (v : Sq) : (s.setSq p v).pins = s.pins := rfl
@[simp] theorem State.setSq_svc (s : State) (p : Nat) (v : Sq) : (s.setSq p v).svc = s.svc := rfl
@[simp] theorem State.setSq_boot (s : State) (p : Nat) (v : Sq) : (s.setSq p v).boot = s.boot := rfl
@[simp] theorem State.setSq_store (s : State) (p : Nat) (v : Sq) : (s.setSq p v).store = s.store := rfl
@[simp] theorem State.setSq_dict (s : State) (p : Nat) (v : Sq) : (s.setSq p v).dict = s.dict := rfl
@[simp] theorem State.setSq_paths (s : State) (p : Nat) (v : Sq) : (s.setSq p v).paths = s.paths := rfl
@[simp] theorem State.setSq_bar2 (s : State) (p : Nat) (v : Sq) : (s.setSq p v).bar2 = s.bar2 := rfl
@[simp] theorem State.setSq_dev (s : State) (p : Nat) (v : Sq) : (s.setSq p v).dev = s.dev := rfl
@[simp] theorem State.setSq_bobs (s : State) (p : Nat) (v : Sq) : (s.setSq p v).bobs = s.bobs := rfl
@[simp] theorem State.setSq_tiles (s : State) (p : Nat) (v : Sq) : (s.setSq p v).tiles = s.tiles := rfl
@[simp] theorem State.setSq_caches (s : State) (p : Nat) (v : Sq) : (s.setSq p v).caches = s.caches := rfl
@[simp] theorem State.setSq_encs (s : State) (p : Nat) (v : Sq) : (s.setSq p v).encs = s.encs := rfl
@[simp] theorem State.setSq_batten (s : State) (p : Nat) (v : Sq) : (s.setSq p v).batten = s.batten := rfl
@[simp] theorem State.setSq_totals (s : State) (p : Nat) (v : Sq) : (s.setSq p v).totals = s.totals := rfl
@[simp] theorem State.setSq_pool (s : State) (p : Nat) (v : Sq) : (s.setSq p v).pool = s.pool := rfl
@[simp] theorem State.setSq_dtiles (s : State) (p : Nat) (v : Sq) : (s.setSq p v).dtiles = s.dtiles := rfl
@[simp] theorem State.setSq_decs (s : State) (p : Nat) (v : Sq) : (s.setSq p v).decs = s.decs := rfl
@[simp] theorem State.setSq_selv (s : State) (p : Nat) (v : Sq) : (s.setSq p v).selv = s.selv := rfl
@[simp] theorem State.setSq_trans (s : State) (p : Nat) (v : Sq) : (s.setSq p v).trans = s.trans := rfl
@[simp] theorem State.setSq_time (s : State) (p : Nat) (v : Sq) : (s.setSq p v).time = s.time := rfl
@[simp] theorem State.setSq_dma (s : State) (p : Nat) (v : Sq) : (s.setSq p v).dma = s.dma := rfl
@[simp] theorem State.setSq_intc (s : State) (p : Nat) (v : Sq) : (s.setSq p v).intc = s.intc := rfl
@[simp] theorem State.setSq_bpm (s : State) (p : Nat) (v : Sq) : (s.setSq p v).bpm = s.bpm := rfl
@[simp] theorem State.setSq_mem (s : State) (p : Nat) (v : Sq) : (s.setSq p v).mem = s.mem := rfl
@[simp] theorem State.setSq_faults (s : State) (p : Nat) (v : Sq) : (s.setSq p v).faults = s.faults := rfl
@[simp] theorem State.setSq_pair (s : State) (p : Nat) (v : Sq) : (s.setSq p v).pair = s.pair := rfl
@[simp] theorem State.setSq_pending (s : State) (p : Nat) (v : Sq) : (s.setSq p v).pending = s.pending := rfl
@[simp] theorem State.setSq_out (s : State) (p : Nat) (v : Sq) : (s.setSq p v).out = s.out := rfl

@[simp] theorem State.setCq_clk (s : State) (c : Nat) (v : Cq) : (s.setCq c v).clk = s.clk := rfl
@[simp] theorem State.setCq_pins (s : State) (c : Nat) (v : Cq) : (s.setCq c v).pins = s.pins := rfl
@[simp] theorem State.setCq_svc (s : State) (c : Nat) (v : Cq) : (s.setCq c v).svc = s.svc := rfl
@[simp] theorem State.setCq_boot (s : State) (c : Nat) (v : Cq) : (s.setCq c v).boot = s.boot := rfl
@[simp] theorem State.setCq_store (s : State) (c : Nat) (v : Cq) : (s.setCq c v).store = s.store := rfl
@[simp] theorem State.setCq_dict (s : State) (c : Nat) (v : Cq) : (s.setCq c v).dict = s.dict := rfl
@[simp] theorem State.setCq_paths (s : State) (c : Nat) (v : Cq) : (s.setCq c v).paths = s.paths := rfl
@[simp] theorem State.setCq_bar2 (s : State) (c : Nat) (v : Cq) : (s.setCq c v).bar2 = s.bar2 := rfl
@[simp] theorem State.setCq_dev (s : State) (c : Nat) (v : Cq) : (s.setCq c v).dev = s.dev := rfl
@[simp] theorem State.setCq_bobs (s : State) (c : Nat) (v : Cq) : (s.setCq c v).bobs = s.bobs := rfl
@[simp] theorem State.setCq_tiles (s : State) (c : Nat) (v : Cq) : (s.setCq c v).tiles = s.tiles := rfl
@[simp] theorem State.setCq_caches (s : State) (c : Nat) (v : Cq) : (s.setCq c v).caches = s.caches := rfl
@[simp] theorem State.setCq_encs (s : State) (c : Nat) (v : Cq) : (s.setCq c v).encs = s.encs := rfl
@[simp] theorem State.setCq_batten (s : State) (c : Nat) (v : Cq) : (s.setCq c v).batten = s.batten := rfl
@[simp] theorem State.setCq_totals (s : State) (c : Nat) (v : Cq) : (s.setCq c v).totals = s.totals := rfl
@[simp] theorem State.setCq_pool (s : State) (c : Nat) (v : Cq) : (s.setCq c v).pool = s.pool := rfl
@[simp] theorem State.setCq_dtiles (s : State) (c : Nat) (v : Cq) : (s.setCq c v).dtiles = s.dtiles := rfl
@[simp] theorem State.setCq_decs (s : State) (c : Nat) (v : Cq) : (s.setCq c v).decs = s.decs := rfl
@[simp] theorem State.setCq_selv (s : State) (c : Nat) (v : Cq) : (s.setCq c v).selv = s.selv := rfl
@[simp] theorem State.setCq_trans (s : State) (c : Nat) (v : Cq) : (s.setCq c v).trans = s.trans := rfl
@[simp] theorem State.setCq_time (s : State) (c : Nat) (v : Cq) : (s.setCq c v).time = s.time := rfl
@[simp] theorem State.setCq_dma (s : State) (c : Nat) (v : Cq) : (s.setCq c v).dma = s.dma := rfl
@[simp] theorem State.setCq_intc (s : State) (c : Nat) (v : Cq) : (s.setCq c v).intc = s.intc := rfl
@[simp] theorem State.setCq_bpm (s : State) (c : Nat) (v : Cq) : (s.setCq c v).bpm = s.bpm := rfl
@[simp] theorem State.setCq_mem (s : State) (c : Nat) (v : Cq) : (s.setCq c v).mem = s.mem := rfl
@[simp] theorem State.setCq_faults (s : State) (c : Nat) (v : Cq) : (s.setCq c v).faults = s.faults := rfl
@[simp] theorem State.setCq_pair (s : State) (c : Nat) (v : Cq) : (s.setCq c v).pair = s.pair := rfl
@[simp] theorem State.setCq_pending (s : State) (c : Nat) (v : Cq) : (s.setCq c v).pending = s.pending := rfl
@[simp] theorem State.setCq_out (s : State) (c : Nat) (v : Cq) : (s.setCq c v).out = s.out := rfl

@[simp] theorem State.setJob_clk (s : State) (j : HostJob) : (s.setJob j).clk = s.clk := rfl
@[simp] theorem State.setJob_pins (s : State) (j : HostJob) : (s.setJob j).pins = s.pins := rfl
@[simp] theorem State.setJob_svc (s : State) (j : HostJob) : (s.setJob j).svc = s.svc := rfl
@[simp] theorem State.setJob_boot (s : State) (j : HostJob) : (s.setJob j).boot = s.boot := rfl
@[simp] theorem State.setJob_store (s : State) (j : HostJob) : (s.setJob j).store = s.store := rfl
@[simp] theorem State.setJob_dict (s : State) (j : HostJob) : (s.setJob j).dict = s.dict := rfl
@[simp] theorem State.setJob_paths (s : State) (j : HostJob) : (s.setJob j).paths = s.paths := rfl
@[simp] theorem State.setJob_bar2 (s : State) (j : HostJob) : (s.setJob j).bar2 = s.bar2 := rfl
@[simp] theorem State.setJob_dev (s : State) (j : HostJob) : (s.setJob j).dev = s.dev := rfl
@[simp] theorem State.setJob_bobs (s : State) (j : HostJob) : (s.setJob j).bobs = s.bobs := rfl
@[simp] theorem State.setJob_tiles (s : State) (j : HostJob) : (s.setJob j).tiles = s.tiles := rfl
@[simp] theorem State.setJob_caches (s : State) (j : HostJob) : (s.setJob j).caches = s.caches := rfl
@[simp] theorem State.setJob_encs (s : State) (j : HostJob) : (s.setJob j).encs = s.encs := rfl
@[simp] theorem State.setJob_batten (s : State) (j : HostJob) : (s.setJob j).batten = s.batten := rfl
@[simp] theorem State.setJob_totals (s : State) (j : HostJob) : (s.setJob j).totals = s.totals := rfl
@[simp] theorem State.setJob_pool (s : State) (j : HostJob) : (s.setJob j).pool = s.pool := rfl
@[simp] theorem State.setJob_dtiles (s : State) (j : HostJob) : (s.setJob j).dtiles = s.dtiles := rfl
@[simp] theorem State.setJob_decs (s : State) (j : HostJob) : (s.setJob j).decs = s.decs := rfl
@[simp] theorem State.setJob_selv (s : State) (j : HostJob) : (s.setJob j).selv = s.selv := rfl
@[simp] theorem State.setJob_trans (s : State) (j : HostJob) : (s.setJob j).trans = s.trans := rfl
@[simp] theorem State.setJob_time (s : State) (j : HostJob) : (s.setJob j).time = s.time := rfl
@[simp] theorem State.setJob_dma (s : State) (j : HostJob) : (s.setJob j).dma = s.dma := rfl
@[simp] theorem State.setJob_intc (s : State) (j : HostJob) : (s.setJob j).intc = s.intc := rfl
@[simp] theorem State.setJob_bpm (s : State) (j : HostJob) : (s.setJob j).bpm = s.bpm := rfl
@[simp] theorem State.setJob_mem (s : State) (j : HostJob) : (s.setJob j).mem = s.mem := rfl
@[simp] theorem State.setJob_faults (s : State) (j : HostJob) : (s.setJob j).faults = s.faults := rfl
@[simp] theorem State.setJob_pair (s : State) (j : HostJob) : (s.setJob j).pair = s.pair := rfl
@[simp] theorem State.setJob_pending (s : State) (j : HostJob) : (s.setJob j).pending = s.pending := rfl
@[simp] theorem State.setJob_out (s : State) (j : HostJob) : (s.setJob j).out = s.out := rfl

@[simp] theorem State.setChan_clk (s : State) (n : Nat) (c : Dma) : (s.setChan n c).clk = s.clk := rfl
@[simp] theorem State.setChan_pins (s : State) (n : Nat) (c : Dma) : (s.setChan n c).pins = s.pins := rfl
@[simp] theorem State.setChan_svc (s : State) (n : Nat) (c : Dma) : (s.setChan n c).svc = s.svc := rfl
@[simp] theorem State.setChan_boot (s : State) (n : Nat) (c : Dma) : (s.setChan n c).boot = s.boot := rfl
@[simp] theorem State.setChan_store (s : State) (n : Nat) (c : Dma) : (s.setChan n c).store = s.store := rfl
@[simp] theorem State.setChan_dict (s : State) (n : Nat) (c : Dma) : (s.setChan n c).dict = s.dict := rfl
@[simp] theorem State.setChan_paths (s : State) (n : Nat) (c : Dma) : (s.setChan n c).paths = s.paths := rfl
@[simp] theorem State.setChan_bar2 (s : State) (n : Nat) (c : Dma) : (s.setChan n c).bar2 = s.bar2 := rfl
@[simp] theorem State.setChan_dev (s : State) (n : Nat) (c : Dma) : (s.setChan n c).dev = s.dev := rfl
@[simp] theorem State.setChan_bobs (s : State) (n : Nat) (c : Dma) : (s.setChan n c).bobs = s.bobs := rfl
@[simp] theorem State.setChan_tiles (s : State) (n : Nat) (c : Dma) : (s.setChan n c).tiles = s.tiles := rfl
@[simp] theorem State.setChan_caches (s : State) (n : Nat) (c : Dma) : (s.setChan n c).caches = s.caches := rfl
@[simp] theorem State.setChan_encs (s : State) (n : Nat) (c : Dma) : (s.setChan n c).encs = s.encs := rfl
@[simp] theorem State.setChan_batten (s : State) (n : Nat) (c : Dma) : (s.setChan n c).batten = s.batten := rfl
@[simp] theorem State.setChan_totals (s : State) (n : Nat) (c : Dma) : (s.setChan n c).totals = s.totals := rfl
@[simp] theorem State.setChan_pool (s : State) (n : Nat) (c : Dma) : (s.setChan n c).pool = s.pool := rfl
@[simp] theorem State.setChan_dtiles (s : State) (n : Nat) (c : Dma) : (s.setChan n c).dtiles = s.dtiles := rfl
@[simp] theorem State.setChan_decs (s : State) (n : Nat) (c : Dma) : (s.setChan n c).decs = s.decs := rfl
@[simp] theorem State.setChan_selv (s : State) (n : Nat) (c : Dma) : (s.setChan n c).selv = s.selv := rfl
@[simp] theorem State.setChan_trans (s : State) (n : Nat) (c : Dma) : (s.setChan n c).trans = s.trans := rfl
@[simp] theorem State.setChan_time (s : State) (n : Nat) (c : Dma) : (s.setChan n c).time = s.time := rfl
@[simp] theorem State.setChan_rings (s : State) (n : Nat) (c : Dma) : (s.setChan n c).rings = s.rings := rfl
@[simp] theorem State.setChan_intc (s : State) (n : Nat) (c : Dma) : (s.setChan n c).intc = s.intc := rfl
@[simp] theorem State.setChan_bpm (s : State) (n : Nat) (c : Dma) : (s.setChan n c).bpm = s.bpm := rfl
@[simp] theorem State.setChan_mem (s : State) (n : Nat) (c : Dma) : (s.setChan n c).mem = s.mem := rfl
@[simp] theorem State.setChan_faults (s : State) (n : Nat) (c : Dma) : (s.setChan n c).faults = s.faults := rfl
@[simp] theorem State.setChan_pair (s : State) (n : Nat) (c : Dma) : (s.setChan n c).pair = s.pair := rfl
@[simp] theorem State.setChan_pending (s : State) (n : Nat) (c : Dma) : (s.setChan n c).pending = s.pending := rfl
@[simp] theorem State.setChan_out (s : State) (n : Nat) (c : Dma) : (s.setChan n c).out = s.out := rfl

@[simp] theorem State.setWindow_clk (s : State) (w : Nat) (v : Window) : (s.setWindow w v).clk = s.clk := rfl
@[simp] theorem State.setWindow_pins (s : State) (w : Nat) (v : Window) : (s.setWindow w v).pins = s.pins := rfl
@[simp] theorem State.setWindow_svc (s : State) (w : Nat) (v : Window) : (s.setWindow w v).svc = s.svc := rfl
@[simp] theorem State.setWindow_boot (s : State) (w : Nat) (v : Window) : (s.setWindow w v).boot = s.boot := rfl
@[simp] theorem State.setWindow_store (s : State) (w : Nat) (v : Window) : (s.setWindow w v).store = s.store := rfl
@[simp] theorem State.setWindow_dict (s : State) (w : Nat) (v : Window) : (s.setWindow w v).dict = s.dict := rfl
@[simp] theorem State.setWindow_paths (s : State) (w : Nat) (v : Window) : (s.setWindow w v).paths = s.paths := rfl
@[simp] theorem State.setWindow_bar2 (s : State) (w : Nat) (v : Window) : (s.setWindow w v).bar2 = s.bar2 := rfl
@[simp] theorem State.setWindow_bobs (s : State) (w : Nat) (v : Window) : (s.setWindow w v).bobs = s.bobs := rfl
@[simp] theorem State.setWindow_tiles (s : State) (w : Nat) (v : Window) : (s.setWindow w v).tiles = s.tiles := rfl
@[simp] theorem State.setWindow_caches (s : State) (w : Nat) (v : Window) : (s.setWindow w v).caches = s.caches := rfl
@[simp] theorem State.setWindow_encs (s : State) (w : Nat) (v : Window) : (s.setWindow w v).encs = s.encs := rfl
@[simp] theorem State.setWindow_batten (s : State) (w : Nat) (v : Window) : (s.setWindow w v).batten = s.batten := rfl
@[simp] theorem State.setWindow_totals (s : State) (w : Nat) (v : Window) : (s.setWindow w v).totals = s.totals := rfl
@[simp] theorem State.setWindow_pool (s : State) (w : Nat) (v : Window) : (s.setWindow w v).pool = s.pool := rfl
@[simp] theorem State.setWindow_dtiles (s : State) (w : Nat) (v : Window) : (s.setWindow w v).dtiles = s.dtiles := rfl
@[simp] theorem State.setWindow_decs (s : State) (w : Nat) (v : Window) : (s.setWindow w v).decs = s.decs := rfl
@[simp] theorem State.setWindow_selv (s : State) (w : Nat) (v : Window) : (s.setWindow w v).selv = s.selv := rfl
@[simp] theorem State.setWindow_trans (s : State) (w : Nat) (v : Window) : (s.setWindow w v).trans = s.trans := rfl
@[simp] theorem State.setWindow_time (s : State) (w : Nat) (v : Window) : (s.setWindow w v).time = s.time := rfl
@[simp] theorem State.setWindow_rings (s : State) (w : Nat) (v : Window) : (s.setWindow w v).rings = s.rings := rfl
@[simp] theorem State.setWindow_dma (s : State) (w : Nat) (v : Window) : (s.setWindow w v).dma = s.dma := rfl
@[simp] theorem State.setWindow_intc (s : State) (w : Nat) (v : Window) : (s.setWindow w v).intc = s.intc := rfl
@[simp] theorem State.setWindow_bpm (s : State) (w : Nat) (v : Window) : (s.setWindow w v).bpm = s.bpm := rfl
@[simp] theorem State.setWindow_mem (s : State) (w : Nat) (v : Window) : (s.setWindow w v).mem = s.mem := rfl
@[simp] theorem State.setWindow_faults (s : State) (w : Nat) (v : Window) : (s.setWindow w v).faults = s.faults := rfl
@[simp] theorem State.setWindow_pair (s : State) (w : Nat) (v : Window) : (s.setWindow w v).pair = s.pair := rfl
@[simp] theorem State.setWindow_pending (s : State) (w : Nat) (v : Window) : (s.setWindow w v).pending = s.pending := rfl
@[simp] theorem State.setWindow_out (s : State) (w : Nat) (v : Window) : (s.setWindow w v).out = s.out := rfl

/-! A row of the memory controllers is written. -/

@[simp] theorem State.setDdr_clk (s : State) (c : Nat) (d : Ddr) : (s.setDdr c d).clk = s.clk := rfl
@[simp] theorem State.setDdr_pins (s : State) (c : Nat) (d : Ddr) : (s.setDdr c d).pins = s.pins := rfl
@[simp] theorem State.setDdr_svc (s : State) (c : Nat) (d : Ddr) : (s.setDdr c d).svc = s.svc := rfl
@[simp] theorem State.setDdr_boot (s : State) (c : Nat) (d : Ddr) : (s.setDdr c d).boot = s.boot := rfl
@[simp] theorem State.setDdr_store (s : State) (c : Nat) (d : Ddr) : (s.setDdr c d).store = s.store := rfl
@[simp] theorem State.setDdr_dict (s : State) (c : Nat) (d : Ddr) : (s.setDdr c d).dict = s.dict := rfl
@[simp] theorem State.setDdr_paths (s : State) (c : Nat) (d : Ddr) : (s.setDdr c d).paths = s.paths := rfl
@[simp] theorem State.setDdr_bar2 (s : State) (c : Nat) (d : Ddr) : (s.setDdr c d).bar2 = s.bar2 := rfl
@[simp] theorem State.setDdr_dev (s : State) (c : Nat) (d : Ddr) : (s.setDdr c d).dev = s.dev := rfl
@[simp] theorem State.setDdr_bobs (s : State) (c : Nat) (d : Ddr) : (s.setDdr c d).bobs = s.bobs := rfl
@[simp] theorem State.setDdr_tiles (s : State) (c : Nat) (d : Ddr) : (s.setDdr c d).tiles = s.tiles := rfl
@[simp] theorem State.setDdr_caches (s : State) (c : Nat) (d : Ddr) : (s.setDdr c d).caches = s.caches := rfl
@[simp] theorem State.setDdr_encs (s : State) (c : Nat) (d : Ddr) : (s.setDdr c d).encs = s.encs := rfl
@[simp] theorem State.setDdr_batten (s : State) (c : Nat) (d : Ddr) : (s.setDdr c d).batten = s.batten := rfl
@[simp] theorem State.setDdr_totals (s : State) (c : Nat) (d : Ddr) : (s.setDdr c d).totals = s.totals := rfl
@[simp] theorem State.setDdr_pool (s : State) (c : Nat) (d : Ddr) : (s.setDdr c d).pool = s.pool := rfl
@[simp] theorem State.setDdr_dtiles (s : State) (c : Nat) (d : Ddr) : (s.setDdr c d).dtiles = s.dtiles := rfl
@[simp] theorem State.setDdr_decs (s : State) (c : Nat) (d : Ddr) : (s.setDdr c d).decs = s.decs := rfl
@[simp] theorem State.setDdr_selv (s : State) (c : Nat) (d : Ddr) : (s.setDdr c d).selv = s.selv := rfl
@[simp] theorem State.setDdr_trans (s : State) (c : Nat) (d : Ddr) : (s.setDdr c d).trans = s.trans := rfl
@[simp] theorem State.setDdr_time (s : State) (c : Nat) (d : Ddr) : (s.setDdr c d).time = s.time := rfl
@[simp] theorem State.setDdr_rings (s : State) (c : Nat) (d : Ddr) : (s.setDdr c d).rings = s.rings := rfl
@[simp] theorem State.setDdr_dma (s : State) (c : Nat) (d : Ddr) : (s.setDdr c d).dma = s.dma := rfl
@[simp] theorem State.setDdr_intc (s : State) (c : Nat) (d : Ddr) : (s.setDdr c d).intc = s.intc := rfl
@[simp] theorem State.setDdr_bpm (s : State) (c : Nat) (d : Ddr) : (s.setDdr c d).bpm = s.bpm := rfl
@[simp] theorem State.setDdr_faults (s : State) (c : Nat) (d : Ddr) : (s.setDdr c d).faults = s.faults := rfl
@[simp] theorem State.setDdr_pair (s : State) (c : Nat) (d : Ddr) : (s.setDdr c d).pair = s.pair := rfl
@[simp] theorem State.setDdr_pending (s : State) (c : Nat) (d : Ddr) : (s.setDdr c d).pending = s.pending := rfl
@[simp] theorem State.setDdr_out (s : State) (c : Nat) (d : Ddr) : (s.setDdr c d).out = s.out := rfl

@[simp] theorem State.setHbm_clk (s : State) (k : Nat) (v : Stack) : (s.setHbm k v).clk = s.clk := rfl
@[simp] theorem State.setHbm_pins (s : State) (k : Nat) (v : Stack) : (s.setHbm k v).pins = s.pins := rfl
@[simp] theorem State.setHbm_svc (s : State) (k : Nat) (v : Stack) : (s.setHbm k v).svc = s.svc := rfl
@[simp] theorem State.setHbm_boot (s : State) (k : Nat) (v : Stack) : (s.setHbm k v).boot = s.boot := rfl
@[simp] theorem State.setHbm_store (s : State) (k : Nat) (v : Stack) : (s.setHbm k v).store = s.store := rfl
@[simp] theorem State.setHbm_dict (s : State) (k : Nat) (v : Stack) : (s.setHbm k v).dict = s.dict := rfl
@[simp] theorem State.setHbm_paths (s : State) (k : Nat) (v : Stack) : (s.setHbm k v).paths = s.paths := rfl
@[simp] theorem State.setHbm_bar2 (s : State) (k : Nat) (v : Stack) : (s.setHbm k v).bar2 = s.bar2 := rfl
@[simp] theorem State.setHbm_dev (s : State) (k : Nat) (v : Stack) : (s.setHbm k v).dev = s.dev := rfl
@[simp] theorem State.setHbm_bobs (s : State) (k : Nat) (v : Stack) : (s.setHbm k v).bobs = s.bobs := rfl
@[simp] theorem State.setHbm_tiles (s : State) (k : Nat) (v : Stack) : (s.setHbm k v).tiles = s.tiles := rfl
@[simp] theorem State.setHbm_caches (s : State) (k : Nat) (v : Stack) : (s.setHbm k v).caches = s.caches := rfl
@[simp] theorem State.setHbm_encs (s : State) (k : Nat) (v : Stack) : (s.setHbm k v).encs = s.encs := rfl
@[simp] theorem State.setHbm_batten (s : State) (k : Nat) (v : Stack) : (s.setHbm k v).batten = s.batten := rfl
@[simp] theorem State.setHbm_totals (s : State) (k : Nat) (v : Stack) : (s.setHbm k v).totals = s.totals := rfl
@[simp] theorem State.setHbm_pool (s : State) (k : Nat) (v : Stack) : (s.setHbm k v).pool = s.pool := rfl
@[simp] theorem State.setHbm_dtiles (s : State) (k : Nat) (v : Stack) : (s.setHbm k v).dtiles = s.dtiles := rfl
@[simp] theorem State.setHbm_decs (s : State) (k : Nat) (v : Stack) : (s.setHbm k v).decs = s.decs := rfl
@[simp] theorem State.setHbm_selv (s : State) (k : Nat) (v : Stack) : (s.setHbm k v).selv = s.selv := rfl
@[simp] theorem State.setHbm_trans (s : State) (k : Nat) (v : Stack) : (s.setHbm k v).trans = s.trans := rfl
@[simp] theorem State.setHbm_time (s : State) (k : Nat) (v : Stack) : (s.setHbm k v).time = s.time := rfl
@[simp] theorem State.setHbm_rings (s : State) (k : Nat) (v : Stack) : (s.setHbm k v).rings = s.rings := rfl
@[simp] theorem State.setHbm_dma (s : State) (k : Nat) (v : Stack) : (s.setHbm k v).dma = s.dma := rfl
@[simp] theorem State.setHbm_intc (s : State) (k : Nat) (v : Stack) : (s.setHbm k v).intc = s.intc := rfl
@[simp] theorem State.setHbm_bpm (s : State) (k : Nat) (v : Stack) : (s.setHbm k v).bpm = s.bpm := rfl
@[simp] theorem State.setHbm_faults (s : State) (k : Nat) (v : Stack) : (s.setHbm k v).faults = s.faults := rfl
@[simp] theorem State.setHbm_pair (s : State) (k : Nat) (v : Stack) : (s.setHbm k v).pair = s.pair := rfl
@[simp] theorem State.setHbm_pending (s : State) (k : Nat) (v : Stack) : (s.setHbm k v).pending = s.pending := rfl
@[simp] theorem State.setHbm_out (s : State) (k : Nat) (v : Stack) : (s.setHbm k v).out = s.out := rfl

/-! A session or a request of the dictionary is written. -/

@[simp] theorem State.setSess_clk (s : State) (e : Session) (v : SessState) : (s.setSess e v).clk = s.clk := rfl
@[simp] theorem State.setSess_pins (s : State) (e : Session) (v : SessState) : (s.setSess e v).pins = s.pins := rfl
@[simp] theorem State.setSess_svc (s : State) (e : Session) (v : SessState) : (s.setSess e v).svc = s.svc := rfl
@[simp] theorem State.setSess_boot (s : State) (e : Session) (v : SessState) : (s.setSess e v).boot = s.boot := rfl
@[simp] theorem State.setSess_store (s : State) (e : Session) (v : SessState) : (s.setSess e v).store = s.store := rfl
@[simp] theorem State.setSess_paths (s : State) (e : Session) (v : SessState) : (s.setSess e v).paths = s.paths := rfl
@[simp] theorem State.setSess_bar2 (s : State) (e : Session) (v : SessState) : (s.setSess e v).bar2 = s.bar2 := rfl
@[simp] theorem State.setSess_dev (s : State) (e : Session) (v : SessState) : (s.setSess e v).dev = s.dev := rfl
@[simp] theorem State.setSess_bobs (s : State) (e : Session) (v : SessState) : (s.setSess e v).bobs = s.bobs := rfl
@[simp] theorem State.setSess_tiles (s : State) (e : Session) (v : SessState) : (s.setSess e v).tiles = s.tiles := rfl
@[simp] theorem State.setSess_caches (s : State) (e : Session) (v : SessState) : (s.setSess e v).caches = s.caches := rfl
@[simp] theorem State.setSess_encs (s : State) (e : Session) (v : SessState) : (s.setSess e v).encs = s.encs := rfl
@[simp] theorem State.setSess_batten (s : State) (e : Session) (v : SessState) : (s.setSess e v).batten = s.batten := rfl
@[simp] theorem State.setSess_totals (s : State) (e : Session) (v : SessState) : (s.setSess e v).totals = s.totals := rfl
@[simp] theorem State.setSess_pool (s : State) (e : Session) (v : SessState) : (s.setSess e v).pool = s.pool := rfl
@[simp] theorem State.setSess_dtiles (s : State) (e : Session) (v : SessState) : (s.setSess e v).dtiles = s.dtiles := rfl
@[simp] theorem State.setSess_decs (s : State) (e : Session) (v : SessState) : (s.setSess e v).decs = s.decs := rfl
@[simp] theorem State.setSess_selv (s : State) (e : Session) (v : SessState) : (s.setSess e v).selv = s.selv := rfl
@[simp] theorem State.setSess_trans (s : State) (e : Session) (v : SessState) : (s.setSess e v).trans = s.trans := rfl
@[simp] theorem State.setSess_time (s : State) (e : Session) (v : SessState) : (s.setSess e v).time = s.time := rfl
@[simp] theorem State.setSess_rings (s : State) (e : Session) (v : SessState) : (s.setSess e v).rings = s.rings := rfl
@[simp] theorem State.setSess_dma (s : State) (e : Session) (v : SessState) : (s.setSess e v).dma = s.dma := rfl
@[simp] theorem State.setSess_intc (s : State) (e : Session) (v : SessState) : (s.setSess e v).intc = s.intc := rfl
@[simp] theorem State.setSess_bpm (s : State) (e : Session) (v : SessState) : (s.setSess e v).bpm = s.bpm := rfl
@[simp] theorem State.setSess_mem (s : State) (e : Session) (v : SessState) : (s.setSess e v).mem = s.mem := rfl
@[simp] theorem State.setSess_faults (s : State) (e : Session) (v : SessState) : (s.setSess e v).faults = s.faults := rfl
@[simp] theorem State.setSess_pair (s : State) (e : Session) (v : SessState) : (s.setSess e v).pair = s.pair := rfl
@[simp] theorem State.setSess_pending (s : State) (e : Session) (v : SessState) : (s.setSess e v).pending = s.pending := rfl
@[simp] theorem State.setSess_out (s : State) (e : Session) (v : SessState) : (s.setSess e v).out = s.out := rfl

@[simp] theorem State.setReq_clk (s : State) (k : Nat) (f : Req → Req) : (s.setReq k f).clk = s.clk := rfl
@[simp] theorem State.setReq_pins (s : State) (k : Nat) (f : Req → Req) : (s.setReq k f).pins = s.pins := rfl
@[simp] theorem State.setReq_svc (s : State) (k : Nat) (f : Req → Req) : (s.setReq k f).svc = s.svc := rfl
@[simp] theorem State.setReq_boot (s : State) (k : Nat) (f : Req → Req) : (s.setReq k f).boot = s.boot := rfl
@[simp] theorem State.setReq_store (s : State) (k : Nat) (f : Req → Req) : (s.setReq k f).store = s.store := rfl
@[simp] theorem State.setReq_paths (s : State) (k : Nat) (f : Req → Req) : (s.setReq k f).paths = s.paths := rfl
@[simp] theorem State.setReq_bar2 (s : State) (k : Nat) (f : Req → Req) : (s.setReq k f).bar2 = s.bar2 := rfl
@[simp] theorem State.setReq_dev (s : State) (k : Nat) (f : Req → Req) : (s.setReq k f).dev = s.dev := rfl
@[simp] theorem State.setReq_bobs (s : State) (k : Nat) (f : Req → Req) : (s.setReq k f).bobs = s.bobs := rfl
@[simp] theorem State.setReq_tiles (s : State) (k : Nat) (f : Req → Req) : (s.setReq k f).tiles = s.tiles := rfl
@[simp] theorem State.setReq_caches (s : State) (k : Nat) (f : Req → Req) : (s.setReq k f).caches = s.caches := rfl
@[simp] theorem State.setReq_encs (s : State) (k : Nat) (f : Req → Req) : (s.setReq k f).encs = s.encs := rfl
@[simp] theorem State.setReq_batten (s : State) (k : Nat) (f : Req → Req) : (s.setReq k f).batten = s.batten := rfl
@[simp] theorem State.setReq_totals (s : State) (k : Nat) (f : Req → Req) : (s.setReq k f).totals = s.totals := rfl
@[simp] theorem State.setReq_pool (s : State) (k : Nat) (f : Req → Req) : (s.setReq k f).pool = s.pool := rfl
@[simp] theorem State.setReq_dtiles (s : State) (k : Nat) (f : Req → Req) : (s.setReq k f).dtiles = s.dtiles := rfl
@[simp] theorem State.setReq_decs (s : State) (k : Nat) (f : Req → Req) : (s.setReq k f).decs = s.decs := rfl
@[simp] theorem State.setReq_selv (s : State) (k : Nat) (f : Req → Req) : (s.setReq k f).selv = s.selv := rfl
@[simp] theorem State.setReq_trans (s : State) (k : Nat) (f : Req → Req) : (s.setReq k f).trans = s.trans := rfl
@[simp] theorem State.setReq_time (s : State) (k : Nat) (f : Req → Req) : (s.setReq k f).time = s.time := rfl
@[simp] theorem State.setReq_rings (s : State) (k : Nat) (f : Req → Req) : (s.setReq k f).rings = s.rings := rfl
@[simp] theorem State.setReq_dma (s : State) (k : Nat) (f : Req → Req) : (s.setReq k f).dma = s.dma := rfl
@[simp] theorem State.setReq_intc (s : State) (k : Nat) (f : Req → Req) : (s.setReq k f).intc = s.intc := rfl
@[simp] theorem State.setReq_bpm (s : State) (k : Nat) (f : Req → Req) : (s.setReq k f).bpm = s.bpm := rfl
@[simp] theorem State.setReq_mem (s : State) (k : Nat) (f : Req → Req) : (s.setReq k f).mem = s.mem := rfl
@[simp] theorem State.setReq_faults (s : State) (k : Nat) (f : Req → Req) : (s.setReq k f).faults = s.faults := rfl
@[simp] theorem State.setReq_pair (s : State) (k : Nat) (f : Req → Req) : (s.setReq k f).pair = s.pair := rfl
@[simp] theorem State.setReq_pending (s : State) (k : Nat) (f : Req → Req) : (s.setReq k f).pending = s.pending := rfl
@[simp] theorem State.setReq_out (s : State) (k : Nat) (f : Req → Req) : (s.setReq k f).out = s.out := rfl

/-! A counter rises. -/

@[simp] theorem State.compCount_clk (s : State) (k n : Nat) : (s.compCount k n).clk = s.clk := rfl
@[simp] theorem State.compCount_pins (s : State) (k n : Nat) : (s.compCount k n).pins = s.pins := rfl
@[simp] theorem State.compCount_svc (s : State) (k n : Nat) : (s.compCount k n).svc = s.svc := rfl
@[simp] theorem State.compCount_boot (s : State) (k n : Nat) : (s.compCount k n).boot = s.boot := rfl
@[simp] theorem State.compCount_store (s : State) (k n : Nat) : (s.compCount k n).store = s.store := rfl
@[simp] theorem State.compCount_dict (s : State) (k n : Nat) : (s.compCount k n).dict = s.dict := rfl
@[simp] theorem State.compCount_paths (s : State) (k n : Nat) : (s.compCount k n).paths = s.paths := rfl
@[simp] theorem State.compCount_bar2 (s : State) (k n : Nat) : (s.compCount k n).bar2 = s.bar2 := rfl
@[simp] theorem State.compCount_dev (s : State) (k n : Nat) : (s.compCount k n).dev = s.dev := rfl
@[simp] theorem State.compCount_bobs (s : State) (k n : Nat) : (s.compCount k n).bobs = s.bobs := rfl
@[simp] theorem State.compCount_tiles (s : State) (k n : Nat) : (s.compCount k n).tiles = s.tiles := rfl
@[simp] theorem State.compCount_caches (s : State) (k n : Nat) : (s.compCount k n).caches = s.caches := rfl
@[simp] theorem State.compCount_encs (s : State) (k n : Nat) : (s.compCount k n).encs = s.encs := rfl
@[simp] theorem State.compCount_totals (s : State) (k n : Nat) : (s.compCount k n).totals = s.totals := rfl
@[simp] theorem State.compCount_pool (s : State) (k n : Nat) : (s.compCount k n).pool = s.pool := rfl
@[simp] theorem State.compCount_dtiles (s : State) (k n : Nat) : (s.compCount k n).dtiles = s.dtiles := rfl
@[simp] theorem State.compCount_decs (s : State) (k n : Nat) : (s.compCount k n).decs = s.decs := rfl
@[simp] theorem State.compCount_selv (s : State) (k n : Nat) : (s.compCount k n).selv = s.selv := rfl
@[simp] theorem State.compCount_trans (s : State) (k n : Nat) : (s.compCount k n).trans = s.trans := rfl
@[simp] theorem State.compCount_time (s : State) (k n : Nat) : (s.compCount k n).time = s.time := rfl
@[simp] theorem State.compCount_rings (s : State) (k n : Nat) : (s.compCount k n).rings = s.rings := rfl
@[simp] theorem State.compCount_dma (s : State) (k n : Nat) : (s.compCount k n).dma = s.dma := rfl
@[simp] theorem State.compCount_intc (s : State) (k n : Nat) : (s.compCount k n).intc = s.intc := rfl
@[simp] theorem State.compCount_bpm (s : State) (k n : Nat) : (s.compCount k n).bpm = s.bpm := rfl
@[simp] theorem State.compCount_mem (s : State) (k n : Nat) : (s.compCount k n).mem = s.mem := rfl
@[simp] theorem State.compCount_faults (s : State) (k n : Nat) : (s.compCount k n).faults = s.faults := rfl
@[simp] theorem State.compCount_pair (s : State) (k n : Nat) : (s.compCount k n).pair = s.pair := rfl
@[simp] theorem State.compCount_pending (s : State) (k n : Nat) : (s.compCount k n).pending = s.pending := rfl
@[simp] theorem State.compCount_out (s : State) (k n : Nat) : (s.compCount k n).out = s.out := rfl

@[simp] theorem State.touchCount_clk (s : State) (k : Nat) : (s.touchCount k).clk = s.clk := rfl
@[simp] theorem State.touchCount_pins (s : State) (k : Nat) : (s.touchCount k).pins = s.pins := rfl
@[simp] theorem State.touchCount_svc (s : State) (k : Nat) : (s.touchCount k).svc = s.svc := rfl
@[simp] theorem State.touchCount_boot (s : State) (k : Nat) : (s.touchCount k).boot = s.boot := rfl
@[simp] theorem State.touchCount_store (s : State) (k : Nat) : (s.touchCount k).store = s.store := rfl
@[simp] theorem State.touchCount_dict (s : State) (k : Nat) : (s.touchCount k).dict = s.dict := rfl
@[simp] theorem State.touchCount_paths (s : State) (k : Nat) : (s.touchCount k).paths = s.paths := rfl
@[simp] theorem State.touchCount_bar2 (s : State) (k : Nat) : (s.touchCount k).bar2 = s.bar2 := rfl
@[simp] theorem State.touchCount_dev (s : State) (k : Nat) : (s.touchCount k).dev = s.dev := rfl
@[simp] theorem State.touchCount_bobs (s : State) (k : Nat) : (s.touchCount k).bobs = s.bobs := rfl
@[simp] theorem State.touchCount_tiles (s : State) (k : Nat) : (s.touchCount k).tiles = s.tiles := rfl
@[simp] theorem State.touchCount_caches (s : State) (k : Nat) : (s.touchCount k).caches = s.caches := rfl
@[simp] theorem State.touchCount_encs (s : State) (k : Nat) : (s.touchCount k).encs = s.encs := rfl
@[simp] theorem State.touchCount_totals (s : State) (k : Nat) : (s.touchCount k).totals = s.totals := rfl
@[simp] theorem State.touchCount_pool (s : State) (k : Nat) : (s.touchCount k).pool = s.pool := rfl
@[simp] theorem State.touchCount_dtiles (s : State) (k : Nat) : (s.touchCount k).dtiles = s.dtiles := rfl
@[simp] theorem State.touchCount_decs (s : State) (k : Nat) : (s.touchCount k).decs = s.decs := rfl
@[simp] theorem State.touchCount_selv (s : State) (k : Nat) : (s.touchCount k).selv = s.selv := rfl
@[simp] theorem State.touchCount_trans (s : State) (k : Nat) : (s.touchCount k).trans = s.trans := rfl
@[simp] theorem State.touchCount_time (s : State) (k : Nat) : (s.touchCount k).time = s.time := rfl
@[simp] theorem State.touchCount_rings (s : State) (k : Nat) : (s.touchCount k).rings = s.rings := rfl
@[simp] theorem State.touchCount_dma (s : State) (k : Nat) : (s.touchCount k).dma = s.dma := rfl
@[simp] theorem State.touchCount_intc (s : State) (k : Nat) : (s.touchCount k).intc = s.intc := rfl
@[simp] theorem State.touchCount_bpm (s : State) (k : Nat) : (s.touchCount k).bpm = s.bpm := rfl
@[simp] theorem State.touchCount_mem (s : State) (k : Nat) : (s.touchCount k).mem = s.mem := rfl
@[simp] theorem State.touchCount_faults (s : State) (k : Nat) : (s.touchCount k).faults = s.faults := rfl
@[simp] theorem State.touchCount_pair (s : State) (k : Nat) : (s.touchCount k).pair = s.pair := rfl
@[simp] theorem State.touchCount_pending (s : State) (k : Nat) : (s.touchCount k).pending = s.pending := rfl
@[simp] theorem State.touchCount_out (s : State) (k : Nat) : (s.touchCount k).out = s.out := rfl

@[simp] theorem State.decCount_clk (s : State) (c k n : Nat) : (s.decCount c k n).clk = s.clk := rfl
@[simp] theorem State.decCount_pins (s : State) (c k n : Nat) : (s.decCount c k n).pins = s.pins := rfl
@[simp] theorem State.decCount_svc (s : State) (c k n : Nat) : (s.decCount c k n).svc = s.svc := rfl
@[simp] theorem State.decCount_boot (s : State) (c k n : Nat) : (s.decCount c k n).boot = s.boot := rfl
@[simp] theorem State.decCount_store (s : State) (c k n : Nat) : (s.decCount c k n).store = s.store := rfl
@[simp] theorem State.decCount_dict (s : State) (c k n : Nat) : (s.decCount c k n).dict = s.dict := rfl
@[simp] theorem State.decCount_paths (s : State) (c k n : Nat) : (s.decCount c k n).paths = s.paths := rfl
@[simp] theorem State.decCount_bar2 (s : State) (c k n : Nat) : (s.decCount c k n).bar2 = s.bar2 := rfl
@[simp] theorem State.decCount_dev (s : State) (c k n : Nat) : (s.decCount c k n).dev = s.dev := rfl
@[simp] theorem State.decCount_bobs (s : State) (c k n : Nat) : (s.decCount c k n).bobs = s.bobs := rfl
@[simp] theorem State.decCount_tiles (s : State) (c k n : Nat) : (s.decCount c k n).tiles = s.tiles := rfl
@[simp] theorem State.decCount_caches (s : State) (c k n : Nat) : (s.decCount c k n).caches = s.caches := rfl
@[simp] theorem State.decCount_encs (s : State) (c k n : Nat) : (s.decCount c k n).encs = s.encs := rfl
@[simp] theorem State.decCount_batten (s : State) (c k n : Nat) : (s.decCount c k n).batten = s.batten := rfl
@[simp] theorem State.decCount_totals (s : State) (c k n : Nat) : (s.decCount c k n).totals = s.totals := rfl
@[simp] theorem State.decCount_pool (s : State) (c k n : Nat) : (s.decCount c k n).pool = s.pool := rfl
@[simp] theorem State.decCount_dtiles (s : State) (c k n : Nat) : (s.decCount c k n).dtiles = s.dtiles := rfl
@[simp] theorem State.decCount_selv (s : State) (c k n : Nat) : (s.decCount c k n).selv = s.selv := rfl
@[simp] theorem State.decCount_trans (s : State) (c k n : Nat) : (s.decCount c k n).trans = s.trans := rfl
@[simp] theorem State.decCount_time (s : State) (c k n : Nat) : (s.decCount c k n).time = s.time := rfl
@[simp] theorem State.decCount_rings (s : State) (c k n : Nat) : (s.decCount c k n).rings = s.rings := rfl
@[simp] theorem State.decCount_dma (s : State) (c k n : Nat) : (s.decCount c k n).dma = s.dma := rfl
@[simp] theorem State.decCount_intc (s : State) (c k n : Nat) : (s.decCount c k n).intc = s.intc := rfl
@[simp] theorem State.decCount_bpm (s : State) (c k n : Nat) : (s.decCount c k n).bpm = s.bpm := rfl
@[simp] theorem State.decCount_mem (s : State) (c k n : Nat) : (s.decCount c k n).mem = s.mem := rfl
@[simp] theorem State.decCount_faults (s : State) (c k n : Nat) : (s.decCount c k n).faults = s.faults := rfl
@[simp] theorem State.decCount_pair (s : State) (c k n : Nat) : (s.decCount c k n).pair = s.pair := rfl
@[simp] theorem State.decCount_pending (s : State) (c k n : Nat) : (s.decCount c k n).pending = s.pending := rfl
@[simp] theorem State.decCount_out (s : State) (c k n : Nat) : (s.decCount c k n).out = s.out := rfl

@[simp] theorem State.count_clk (s : State) (idx sub n : Nat) : (s.count idx sub n).clk = s.clk := rfl
@[simp] theorem State.count_pins (s : State) (idx sub n : Nat) : (s.count idx sub n).pins = s.pins := rfl
@[simp] theorem State.count_svc (s : State) (idx sub n : Nat) : (s.count idx sub n).svc = s.svc := rfl
@[simp] theorem State.count_boot (s : State) (idx sub n : Nat) : (s.count idx sub n).boot = s.boot := rfl
@[simp] theorem State.count_store (s : State) (idx sub n : Nat) : (s.count idx sub n).store = s.store := rfl
@[simp] theorem State.count_dict (s : State) (idx sub n : Nat) : (s.count idx sub n).dict = s.dict := rfl
@[simp] theorem State.count_paths (s : State) (idx sub n : Nat) : (s.count idx sub n).paths = s.paths := rfl
@[simp] theorem State.count_bar2 (s : State) (idx sub n : Nat) : (s.count idx sub n).bar2 = s.bar2 := rfl
@[simp] theorem State.count_dev (s : State) (idx sub n : Nat) : (s.count idx sub n).dev = s.dev := rfl
@[simp] theorem State.count_bobs (s : State) (idx sub n : Nat) : (s.count idx sub n).bobs = s.bobs := rfl
@[simp] theorem State.count_tiles (s : State) (idx sub n : Nat) : (s.count idx sub n).tiles = s.tiles := rfl
@[simp] theorem State.count_caches (s : State) (idx sub n : Nat) : (s.count idx sub n).caches = s.caches := rfl
@[simp] theorem State.count_encs (s : State) (idx sub n : Nat) : (s.count idx sub n).encs = s.encs := rfl
@[simp] theorem State.count_batten (s : State) (idx sub n : Nat) : (s.count idx sub n).batten = s.batten := rfl
@[simp] theorem State.count_pool (s : State) (idx sub n : Nat) : (s.count idx sub n).pool = s.pool := rfl
@[simp] theorem State.count_dtiles (s : State) (idx sub n : Nat) : (s.count idx sub n).dtiles = s.dtiles := rfl
@[simp] theorem State.count_decs (s : State) (idx sub n : Nat) : (s.count idx sub n).decs = s.decs := rfl
@[simp] theorem State.count_selv (s : State) (idx sub n : Nat) : (s.count idx sub n).selv = s.selv := rfl
@[simp] theorem State.count_trans (s : State) (idx sub n : Nat) : (s.count idx sub n).trans = s.trans := rfl
@[simp] theorem State.count_time (s : State) (idx sub n : Nat) : (s.count idx sub n).time = s.time := rfl
@[simp] theorem State.count_rings (s : State) (idx sub n : Nat) : (s.count idx sub n).rings = s.rings := rfl
@[simp] theorem State.count_dma (s : State) (idx sub n : Nat) : (s.count idx sub n).dma = s.dma := rfl
@[simp] theorem State.count_intc (s : State) (idx sub n : Nat) : (s.count idx sub n).intc = s.intc := rfl
@[simp] theorem State.count_bpm (s : State) (idx sub n : Nat) : (s.count idx sub n).bpm = s.bpm := rfl
@[simp] theorem State.count_mem (s : State) (idx sub n : Nat) : (s.count idx sub n).mem = s.mem := rfl
@[simp] theorem State.count_faults (s : State) (idx sub n : Nat) : (s.count idx sub n).faults = s.faults := rfl
@[simp] theorem State.count_pair (s : State) (idx sub n : Nat) : (s.count idx sub n).pair = s.pair := rfl
@[simp] theorem State.count_pending (s : State) (idx sub n : Nat) : (s.count idx sub n).pending = s.pending := rfl
@[simp] theorem State.count_out (s : State) (idx sub n : Nat) : (s.count idx sub n).out = s.out := rfl

@[simp] theorem State.poolCount_clk (s : State) (k n : Nat) : (s.poolCount k n).clk = s.clk := rfl
@[simp] theorem State.poolCount_pins (s : State) (k n : Nat) : (s.poolCount k n).pins = s.pins := rfl
@[simp] theorem State.poolCount_svc (s : State) (k n : Nat) : (s.poolCount k n).svc = s.svc := rfl
@[simp] theorem State.poolCount_boot (s : State) (k n : Nat) : (s.poolCount k n).boot = s.boot := rfl
@[simp] theorem State.poolCount_store (s : State) (k n : Nat) : (s.poolCount k n).store = s.store := rfl
@[simp] theorem State.poolCount_dict (s : State) (k n : Nat) : (s.poolCount k n).dict = s.dict := rfl
@[simp] theorem State.poolCount_paths (s : State) (k n : Nat) : (s.poolCount k n).paths = s.paths := rfl
@[simp] theorem State.poolCount_bar2 (s : State) (k n : Nat) : (s.poolCount k n).bar2 = s.bar2 := rfl
@[simp] theorem State.poolCount_dev (s : State) (k n : Nat) : (s.poolCount k n).dev = s.dev := rfl
@[simp] theorem State.poolCount_bobs (s : State) (k n : Nat) : (s.poolCount k n).bobs = s.bobs := rfl
@[simp] theorem State.poolCount_tiles (s : State) (k n : Nat) : (s.poolCount k n).tiles = s.tiles := rfl
@[simp] theorem State.poolCount_caches (s : State) (k n : Nat) : (s.poolCount k n).caches = s.caches := rfl
@[simp] theorem State.poolCount_encs (s : State) (k n : Nat) : (s.poolCount k n).encs = s.encs := rfl
@[simp] theorem State.poolCount_batten (s : State) (k n : Nat) : (s.poolCount k n).batten = s.batten := rfl
@[simp] theorem State.poolCount_totals (s : State) (k n : Nat) : (s.poolCount k n).totals = s.totals := rfl
@[simp] theorem State.poolCount_dtiles (s : State) (k n : Nat) : (s.poolCount k n).dtiles = s.dtiles := rfl
@[simp] theorem State.poolCount_decs (s : State) (k n : Nat) : (s.poolCount k n).decs = s.decs := rfl
@[simp] theorem State.poolCount_selv (s : State) (k n : Nat) : (s.poolCount k n).selv = s.selv := rfl
@[simp] theorem State.poolCount_trans (s : State) (k n : Nat) : (s.poolCount k n).trans = s.trans := rfl
@[simp] theorem State.poolCount_time (s : State) (k n : Nat) : (s.poolCount k n).time = s.time := rfl
@[simp] theorem State.poolCount_rings (s : State) (k n : Nat) : (s.poolCount k n).rings = s.rings := rfl
@[simp] theorem State.poolCount_dma (s : State) (k n : Nat) : (s.poolCount k n).dma = s.dma := rfl
@[simp] theorem State.poolCount_intc (s : State) (k n : Nat) : (s.poolCount k n).intc = s.intc := rfl
@[simp] theorem State.poolCount_bpm (s : State) (k n : Nat) : (s.poolCount k n).bpm = s.bpm := rfl
@[simp] theorem State.poolCount_mem (s : State) (k n : Nat) : (s.poolCount k n).mem = s.mem := rfl
@[simp] theorem State.poolCount_faults (s : State) (k n : Nat) : (s.poolCount k n).faults = s.faults := rfl
@[simp] theorem State.poolCount_pair (s : State) (k n : Nat) : (s.poolCount k n).pair = s.pair := rfl
@[simp] theorem State.poolCount_pending (s : State) (k n : Nat) : (s.poolCount k n).pending = s.pending := rfl
@[simp] theorem State.poolCount_out (s : State) (k n : Nat) : (s.poolCount k n).out = s.out := rfl

@[simp] theorem State.pairCount_clk (s : State) (k n : Nat) : (s.pairCount k n).clk = s.clk := rfl
@[simp] theorem State.pairCount_pins (s : State) (k n : Nat) : (s.pairCount k n).pins = s.pins := rfl
@[simp] theorem State.pairCount_svc (s : State) (k n : Nat) : (s.pairCount k n).svc = s.svc := rfl
@[simp] theorem State.pairCount_boot (s : State) (k n : Nat) : (s.pairCount k n).boot = s.boot := rfl
@[simp] theorem State.pairCount_store (s : State) (k n : Nat) : (s.pairCount k n).store = s.store := rfl
@[simp] theorem State.pairCount_dict (s : State) (k n : Nat) : (s.pairCount k n).dict = s.dict := rfl
@[simp] theorem State.pairCount_paths (s : State) (k n : Nat) : (s.pairCount k n).paths = s.paths := rfl
@[simp] theorem State.pairCount_bar2 (s : State) (k n : Nat) : (s.pairCount k n).bar2 = s.bar2 := rfl
@[simp] theorem State.pairCount_dev (s : State) (k n : Nat) : (s.pairCount k n).dev = s.dev := rfl
@[simp] theorem State.pairCount_bobs (s : State) (k n : Nat) : (s.pairCount k n).bobs = s.bobs := rfl
@[simp] theorem State.pairCount_tiles (s : State) (k n : Nat) : (s.pairCount k n).tiles = s.tiles := rfl
@[simp] theorem State.pairCount_caches (s : State) (k n : Nat) : (s.pairCount k n).caches = s.caches := rfl
@[simp] theorem State.pairCount_encs (s : State) (k n : Nat) : (s.pairCount k n).encs = s.encs := rfl
@[simp] theorem State.pairCount_batten (s : State) (k n : Nat) : (s.pairCount k n).batten = s.batten := rfl
@[simp] theorem State.pairCount_totals (s : State) (k n : Nat) : (s.pairCount k n).totals = s.totals := rfl
@[simp] theorem State.pairCount_pool (s : State) (k n : Nat) : (s.pairCount k n).pool = s.pool := rfl
@[simp] theorem State.pairCount_dtiles (s : State) (k n : Nat) : (s.pairCount k n).dtiles = s.dtiles := rfl
@[simp] theorem State.pairCount_decs (s : State) (k n : Nat) : (s.pairCount k n).decs = s.decs := rfl
@[simp] theorem State.pairCount_selv (s : State) (k n : Nat) : (s.pairCount k n).selv = s.selv := rfl
@[simp] theorem State.pairCount_trans (s : State) (k n : Nat) : (s.pairCount k n).trans = s.trans := rfl
@[simp] theorem State.pairCount_time (s : State) (k n : Nat) : (s.pairCount k n).time = s.time := rfl
@[simp] theorem State.pairCount_rings (s : State) (k n : Nat) : (s.pairCount k n).rings = s.rings := rfl
@[simp] theorem State.pairCount_dma (s : State) (k n : Nat) : (s.pairCount k n).dma = s.dma := rfl
@[simp] theorem State.pairCount_intc (s : State) (k n : Nat) : (s.pairCount k n).intc = s.intc := rfl
@[simp] theorem State.pairCount_bpm (s : State) (k n : Nat) : (s.pairCount k n).bpm = s.bpm := rfl
@[simp] theorem State.pairCount_mem (s : State) (k n : Nat) : (s.pairCount k n).mem = s.mem := rfl
@[simp] theorem State.pairCount_faults (s : State) (k n : Nat) : (s.pairCount k n).faults = s.faults := rfl
@[simp] theorem State.pairCount_pending (s : State) (k n : Nat) : (s.pairCount k n).pending = s.pending := rfl
@[simp] theorem State.pairCount_out (s : State) (k n : Nat) : (s.pairCount k n).out = s.out := rfl

@[simp] theorem State.memCount_clk (s : State) (k n : Nat) : (s.memCount k n).clk = s.clk := rfl
@[simp] theorem State.memCount_pins (s : State) (k n : Nat) : (s.memCount k n).pins = s.pins := rfl
@[simp] theorem State.memCount_svc (s : State) (k n : Nat) : (s.memCount k n).svc = s.svc := rfl
@[simp] theorem State.memCount_boot (s : State) (k n : Nat) : (s.memCount k n).boot = s.boot := rfl
@[simp] theorem State.memCount_store (s : State) (k n : Nat) : (s.memCount k n).store = s.store := rfl
@[simp] theorem State.memCount_dict (s : State) (k n : Nat) : (s.memCount k n).dict = s.dict := rfl
@[simp] theorem State.memCount_paths (s : State) (k n : Nat) : (s.memCount k n).paths = s.paths := rfl
@[simp] theorem State.memCount_bar2 (s : State) (k n : Nat) : (s.memCount k n).bar2 = s.bar2 := rfl
@[simp] theorem State.memCount_dev (s : State) (k n : Nat) : (s.memCount k n).dev = s.dev := rfl
@[simp] theorem State.memCount_bobs (s : State) (k n : Nat) : (s.memCount k n).bobs = s.bobs := rfl
@[simp] theorem State.memCount_tiles (s : State) (k n : Nat) : (s.memCount k n).tiles = s.tiles := rfl
@[simp] theorem State.memCount_caches (s : State) (k n : Nat) : (s.memCount k n).caches = s.caches := rfl
@[simp] theorem State.memCount_encs (s : State) (k n : Nat) : (s.memCount k n).encs = s.encs := rfl
@[simp] theorem State.memCount_batten (s : State) (k n : Nat) : (s.memCount k n).batten = s.batten := rfl
@[simp] theorem State.memCount_totals (s : State) (k n : Nat) : (s.memCount k n).totals = s.totals := rfl
@[simp] theorem State.memCount_pool (s : State) (k n : Nat) : (s.memCount k n).pool = s.pool := rfl
@[simp] theorem State.memCount_dtiles (s : State) (k n : Nat) : (s.memCount k n).dtiles = s.dtiles := rfl
@[simp] theorem State.memCount_decs (s : State) (k n : Nat) : (s.memCount k n).decs = s.decs := rfl
@[simp] theorem State.memCount_selv (s : State) (k n : Nat) : (s.memCount k n).selv = s.selv := rfl
@[simp] theorem State.memCount_trans (s : State) (k n : Nat) : (s.memCount k n).trans = s.trans := rfl
@[simp] theorem State.memCount_time (s : State) (k n : Nat) : (s.memCount k n).time = s.time := rfl
@[simp] theorem State.memCount_rings (s : State) (k n : Nat) : (s.memCount k n).rings = s.rings := rfl
@[simp] theorem State.memCount_dma (s : State) (k n : Nat) : (s.memCount k n).dma = s.dma := rfl
@[simp] theorem State.memCount_intc (s : State) (k n : Nat) : (s.memCount k n).intc = s.intc := rfl
@[simp] theorem State.memCount_bpm (s : State) (k n : Nat) : (s.memCount k n).bpm = s.bpm := rfl
@[simp] theorem State.memCount_faults (s : State) (k n : Nat) : (s.memCount k n).faults = s.faults := rfl
@[simp] theorem State.memCount_pair (s : State) (k n : Nat) : (s.memCount k n).pair = s.pair := rfl
@[simp] theorem State.memCount_pending (s : State) (k n : Nat) : (s.memCount k n).pending = s.pending := rfl
@[simp] theorem State.memCount_out (s : State) (k n : Nat) : (s.memCount k n).out = s.out := rfl

@[simp] theorem State.selvCount_clk (s : State) (k n : Nat) : (s.selvCount k n).clk = s.clk := rfl
@[simp] theorem State.selvCount_pins (s : State) (k n : Nat) : (s.selvCount k n).pins = s.pins := rfl
@[simp] theorem State.selvCount_svc (s : State) (k n : Nat) : (s.selvCount k n).svc = s.svc := rfl
@[simp] theorem State.selvCount_boot (s : State) (k n : Nat) : (s.selvCount k n).boot = s.boot := rfl
@[simp] theorem State.selvCount_store (s : State) (k n : Nat) : (s.selvCount k n).store = s.store := rfl
@[simp] theorem State.selvCount_dict (s : State) (k n : Nat) : (s.selvCount k n).dict = s.dict := rfl
@[simp] theorem State.selvCount_paths (s : State) (k n : Nat) : (s.selvCount k n).paths = s.paths := rfl
@[simp] theorem State.selvCount_bar2 (s : State) (k n : Nat) : (s.selvCount k n).bar2 = s.bar2 := rfl
@[simp] theorem State.selvCount_dev (s : State) (k n : Nat) : (s.selvCount k n).dev = s.dev := rfl
@[simp] theorem State.selvCount_bobs (s : State) (k n : Nat) : (s.selvCount k n).bobs = s.bobs := rfl
@[simp] theorem State.selvCount_tiles (s : State) (k n : Nat) : (s.selvCount k n).tiles = s.tiles := rfl
@[simp] theorem State.selvCount_caches (s : State) (k n : Nat) : (s.selvCount k n).caches = s.caches := rfl
@[simp] theorem State.selvCount_encs (s : State) (k n : Nat) : (s.selvCount k n).encs = s.encs := rfl
@[simp] theorem State.selvCount_batten (s : State) (k n : Nat) : (s.selvCount k n).batten = s.batten := rfl
@[simp] theorem State.selvCount_totals (s : State) (k n : Nat) : (s.selvCount k n).totals = s.totals := rfl
@[simp] theorem State.selvCount_pool (s : State) (k n : Nat) : (s.selvCount k n).pool = s.pool := rfl
@[simp] theorem State.selvCount_dtiles (s : State) (k n : Nat) : (s.selvCount k n).dtiles = s.dtiles := rfl
@[simp] theorem State.selvCount_decs (s : State) (k n : Nat) : (s.selvCount k n).decs = s.decs := rfl
@[simp] theorem State.selvCount_trans (s : State) (k n : Nat) : (s.selvCount k n).trans = s.trans := rfl
@[simp] theorem State.selvCount_time (s : State) (k n : Nat) : (s.selvCount k n).time = s.time := rfl
@[simp] theorem State.selvCount_rings (s : State) (k n : Nat) : (s.selvCount k n).rings = s.rings := rfl
@[simp] theorem State.selvCount_dma (s : State) (k n : Nat) : (s.selvCount k n).dma = s.dma := rfl
@[simp] theorem State.selvCount_intc (s : State) (k n : Nat) : (s.selvCount k n).intc = s.intc := rfl
@[simp] theorem State.selvCount_bpm (s : State) (k n : Nat) : (s.selvCount k n).bpm = s.bpm := rfl
@[simp] theorem State.selvCount_mem (s : State) (k n : Nat) : (s.selvCount k n).mem = s.mem := rfl
@[simp] theorem State.selvCount_faults (s : State) (k n : Nat) : (s.selvCount k n).faults = s.faults := rfl
@[simp] theorem State.selvCount_pair (s : State) (k n : Nat) : (s.selvCount k n).pair = s.pair := rfl
@[simp] theorem State.selvCount_pending (s : State) (k n : Nat) : (s.selvCount k n).pending = s.pending := rfl
@[simp] theorem State.selvCount_out (s : State) (k n : Nat) : (s.selvCount k n).out = s.out := rfl

@[simp] theorem State.transCount_clk (s : State) (k n : Nat) : (s.transCount k n).clk = s.clk := rfl
@[simp] theorem State.transCount_pins (s : State) (k n : Nat) : (s.transCount k n).pins = s.pins := rfl
@[simp] theorem State.transCount_svc (s : State) (k n : Nat) : (s.transCount k n).svc = s.svc := rfl
@[simp] theorem State.transCount_boot (s : State) (k n : Nat) : (s.transCount k n).boot = s.boot := rfl
@[simp] theorem State.transCount_store (s : State) (k n : Nat) : (s.transCount k n).store = s.store := rfl
@[simp] theorem State.transCount_dict (s : State) (k n : Nat) : (s.transCount k n).dict = s.dict := rfl
@[simp] theorem State.transCount_paths (s : State) (k n : Nat) : (s.transCount k n).paths = s.paths := rfl
@[simp] theorem State.transCount_bar2 (s : State) (k n : Nat) : (s.transCount k n).bar2 = s.bar2 := rfl
@[simp] theorem State.transCount_dev (s : State) (k n : Nat) : (s.transCount k n).dev = s.dev := rfl
@[simp] theorem State.transCount_bobs (s : State) (k n : Nat) : (s.transCount k n).bobs = s.bobs := rfl
@[simp] theorem State.transCount_tiles (s : State) (k n : Nat) : (s.transCount k n).tiles = s.tiles := rfl
@[simp] theorem State.transCount_caches (s : State) (k n : Nat) : (s.transCount k n).caches = s.caches := rfl
@[simp] theorem State.transCount_encs (s : State) (k n : Nat) : (s.transCount k n).encs = s.encs := rfl
@[simp] theorem State.transCount_batten (s : State) (k n : Nat) : (s.transCount k n).batten = s.batten := rfl
@[simp] theorem State.transCount_totals (s : State) (k n : Nat) : (s.transCount k n).totals = s.totals := rfl
@[simp] theorem State.transCount_pool (s : State) (k n : Nat) : (s.transCount k n).pool = s.pool := rfl
@[simp] theorem State.transCount_dtiles (s : State) (k n : Nat) : (s.transCount k n).dtiles = s.dtiles := rfl
@[simp] theorem State.transCount_decs (s : State) (k n : Nat) : (s.transCount k n).decs = s.decs := rfl
@[simp] theorem State.transCount_selv (s : State) (k n : Nat) : (s.transCount k n).selv = s.selv := rfl
@[simp] theorem State.transCount_time (s : State) (k n : Nat) : (s.transCount k n).time = s.time := rfl
@[simp] theorem State.transCount_rings (s : State) (k n : Nat) : (s.transCount k n).rings = s.rings := rfl
@[simp] theorem State.transCount_dma (s : State) (k n : Nat) : (s.transCount k n).dma = s.dma := rfl
@[simp] theorem State.transCount_intc (s : State) (k n : Nat) : (s.transCount k n).intc = s.intc := rfl
@[simp] theorem State.transCount_bpm (s : State) (k n : Nat) : (s.transCount k n).bpm = s.bpm := rfl
@[simp] theorem State.transCount_mem (s : State) (k n : Nat) : (s.transCount k n).mem = s.mem := rfl
@[simp] theorem State.transCount_faults (s : State) (k n : Nat) : (s.transCount k n).faults = s.faults := rfl
@[simp] theorem State.transCount_pair (s : State) (k n : Nat) : (s.transCount k n).pair = s.pair := rfl
@[simp] theorem State.transCount_pending (s : State) (k n : Nat) : (s.transCount k n).pending = s.pending := rfl
@[simp] theorem State.transCount_out (s : State) (k n : Nat) : (s.transCount k n).out = s.out := rfl

/-! A Bobbin is written, looked at, or reset: the others and every other part of the state stay. -/

@[simp] theorem State.setBob_clk (s : State) (b : BobbinId) (v : Bobbin) : (s.setBob b v).clk = s.clk := rfl
@[simp] theorem State.setBob_pins (s : State) (b : BobbinId) (v : Bobbin) : (s.setBob b v).pins = s.pins := rfl
@[simp] theorem State.setBob_svc (s : State) (b : BobbinId) (v : Bobbin) : (s.setBob b v).svc = s.svc := rfl
@[simp] theorem State.setBob_boot (s : State) (b : BobbinId) (v : Bobbin) : (s.setBob b v).boot = s.boot := rfl
@[simp] theorem State.setBob_store (s : State) (b : BobbinId) (v : Bobbin) : (s.setBob b v).store = s.store := rfl
@[simp] theorem State.setBob_dict (s : State) (b : BobbinId) (v : Bobbin) : (s.setBob b v).dict = s.dict := rfl
@[simp] theorem State.setBob_paths (s : State) (b : BobbinId) (v : Bobbin) : (s.setBob b v).paths = s.paths := rfl
@[simp] theorem State.setBob_bar2 (s : State) (b : BobbinId) (v : Bobbin) : (s.setBob b v).bar2 = s.bar2 := rfl
@[simp] theorem State.setBob_dev (s : State) (b : BobbinId) (v : Bobbin) : (s.setBob b v).dev = s.dev := rfl
@[simp] theorem State.setBob_tiles (s : State) (b : BobbinId) (v : Bobbin) : (s.setBob b v).tiles = s.tiles := rfl
@[simp] theorem State.setBob_caches (s : State) (b : BobbinId) (v : Bobbin) : (s.setBob b v).caches = s.caches := rfl
@[simp] theorem State.setBob_encs (s : State) (b : BobbinId) (v : Bobbin) : (s.setBob b v).encs = s.encs := rfl
@[simp] theorem State.setBob_batten (s : State) (b : BobbinId) (v : Bobbin) : (s.setBob b v).batten = s.batten := rfl
@[simp] theorem State.setBob_totals (s : State) (b : BobbinId) (v : Bobbin) : (s.setBob b v).totals = s.totals := rfl
@[simp] theorem State.setBob_pool (s : State) (b : BobbinId) (v : Bobbin) : (s.setBob b v).pool = s.pool := rfl
@[simp] theorem State.setBob_dtiles (s : State) (b : BobbinId) (v : Bobbin) : (s.setBob b v).dtiles = s.dtiles := rfl
@[simp] theorem State.setBob_decs (s : State) (b : BobbinId) (v : Bobbin) : (s.setBob b v).decs = s.decs := rfl
@[simp] theorem State.setBob_selv (s : State) (b : BobbinId) (v : Bobbin) : (s.setBob b v).selv = s.selv := rfl
@[simp] theorem State.setBob_trans (s : State) (b : BobbinId) (v : Bobbin) : (s.setBob b v).trans = s.trans := rfl
@[simp] theorem State.setBob_time (s : State) (b : BobbinId) (v : Bobbin) : (s.setBob b v).time = s.time := rfl
@[simp] theorem State.setBob_rings (s : State) (b : BobbinId) (v : Bobbin) : (s.setBob b v).rings = s.rings := rfl
@[simp] theorem State.setBob_dma (s : State) (b : BobbinId) (v : Bobbin) : (s.setBob b v).dma = s.dma := rfl
@[simp] theorem State.setBob_intc (s : State) (b : BobbinId) (v : Bobbin) : (s.setBob b v).intc = s.intc := rfl
@[simp] theorem State.setBob_bpm (s : State) (b : BobbinId) (v : Bobbin) : (s.setBob b v).bpm = s.bpm := rfl
@[simp] theorem State.setBob_mem (s : State) (b : BobbinId) (v : Bobbin) : (s.setBob b v).mem = s.mem := rfl
@[simp] theorem State.setBob_faults (s : State) (b : BobbinId) (v : Bobbin) : (s.setBob b v).faults = s.faults := rfl
@[simp] theorem State.setBob_pair (s : State) (b : BobbinId) (v : Bobbin) : (s.setBob b v).pair = s.pair := rfl
@[simp] theorem State.setBob_pending (s : State) (b : BobbinId) (v : Bobbin) : (s.setBob b v).pending = s.pending := rfl
@[simp] theorem State.setBob_out (s : State) (b : BobbinId) (v : Bobbin) : (s.setBob b v).out = s.out := rfl

@[simp] theorem State.bobSrc_pins (s : State) (b : BobbinId) : (s.bobSrc b).pins = s.pins := rfl
@[simp] theorem State.bobSrc_svc (s : State) (b : BobbinId) : (s.bobSrc b).svc = s.svc := rfl
@[simp] theorem State.bobSrc_boot (s : State) (b : BobbinId) : (s.bobSrc b).boot = s.boot := rfl
@[simp] theorem State.bobSrc_store (s : State) (b : BobbinId) : (s.bobSrc b).store = s.store := rfl
@[simp] theorem State.bobSrc_dict (s : State) (b : BobbinId) : (s.bobSrc b).dict = s.dict := rfl
@[simp] theorem State.bobSrc_paths (s : State) (b : BobbinId) : (s.bobSrc b).paths = s.paths := rfl
@[simp] theorem State.bobSrc_bar2 (s : State) (b : BobbinId) : (s.bobSrc b).bar2 = s.bar2 := rfl
@[simp] theorem State.bobSrc_dev (s : State) (b : BobbinId) : (s.bobSrc b).dev = s.dev := rfl
@[simp] theorem State.bobSrc_tiles (s : State) (b : BobbinId) : (s.bobSrc b).tiles = s.tiles := rfl
@[simp] theorem State.bobSrc_caches (s : State) (b : BobbinId) : (s.bobSrc b).caches = s.caches := rfl
@[simp] theorem State.bobSrc_encs (s : State) (b : BobbinId) : (s.bobSrc b).encs = s.encs := rfl
@[simp] theorem State.bobSrc_batten (s : State) (b : BobbinId) : (s.bobSrc b).batten = s.batten := rfl
@[simp] theorem State.bobSrc_totals (s : State) (b : BobbinId) : (s.bobSrc b).totals = s.totals := rfl
@[simp] theorem State.bobSrc_pool (s : State) (b : BobbinId) : (s.bobSrc b).pool = s.pool := rfl
@[simp] theorem State.bobSrc_dtiles (s : State) (b : BobbinId) : (s.bobSrc b).dtiles = s.dtiles := rfl
@[simp] theorem State.bobSrc_decs (s : State) (b : BobbinId) : (s.bobSrc b).decs = s.decs := rfl
@[simp] theorem State.bobSrc_selv (s : State) (b : BobbinId) : (s.bobSrc b).selv = s.selv := rfl
@[simp] theorem State.bobSrc_trans (s : State) (b : BobbinId) : (s.bobSrc b).trans = s.trans := rfl
@[simp] theorem State.bobSrc_time (s : State) (b : BobbinId) : (s.bobSrc b).time = s.time := rfl
@[simp] theorem State.bobSrc_rings (s : State) (b : BobbinId) : (s.bobSrc b).rings = s.rings := rfl
@[simp] theorem State.bobSrc_dma (s : State) (b : BobbinId) : (s.bobSrc b).dma = s.dma := rfl
@[simp] theorem State.bobSrc_intc (s : State) (b : BobbinId) : (s.bobSrc b).intc = s.intc := rfl
@[simp] theorem State.bobSrc_bpm (s : State) (b : BobbinId) : (s.bobSrc b).bpm = s.bpm := rfl
@[simp] theorem State.bobSrc_mem (s : State) (b : BobbinId) : (s.bobSrc b).mem = s.mem := rfl
@[simp] theorem State.bobSrc_faults (s : State) (b : BobbinId) : (s.bobSrc b).faults = s.faults := rfl
@[simp] theorem State.bobSrc_pair (s : State) (b : BobbinId) : (s.bobSrc b).pair = s.pair := rfl
@[simp] theorem State.bobSrc_pending (s : State) (b : BobbinId) : (s.bobSrc b).pending = s.pending := rfl
@[simp] theorem State.bobSrc_out (s : State) (b : BobbinId) : (s.bobSrc b).out = s.out := rfl

@[simp] theorem State.bobDst_pins (s : State) (b : BobbinId) : (s.bobDst b).pins = s.pins := rfl
@[simp] theorem State.bobDst_svc (s : State) (b : BobbinId) : (s.bobDst b).svc = s.svc := rfl
@[simp] theorem State.bobDst_boot (s : State) (b : BobbinId) : (s.bobDst b).boot = s.boot := rfl
@[simp] theorem State.bobDst_store (s : State) (b : BobbinId) : (s.bobDst b).store = s.store := rfl
@[simp] theorem State.bobDst_dict (s : State) (b : BobbinId) : (s.bobDst b).dict = s.dict := rfl
@[simp] theorem State.bobDst_paths (s : State) (b : BobbinId) : (s.bobDst b).paths = s.paths := rfl
@[simp] theorem State.bobDst_bar2 (s : State) (b : BobbinId) : (s.bobDst b).bar2 = s.bar2 := rfl
@[simp] theorem State.bobDst_dev (s : State) (b : BobbinId) : (s.bobDst b).dev = s.dev := rfl
@[simp] theorem State.bobDst_tiles (s : State) (b : BobbinId) : (s.bobDst b).tiles = s.tiles := rfl
@[simp] theorem State.bobDst_caches (s : State) (b : BobbinId) : (s.bobDst b).caches = s.caches := rfl
@[simp] theorem State.bobDst_encs (s : State) (b : BobbinId) : (s.bobDst b).encs = s.encs := rfl
@[simp] theorem State.bobDst_batten (s : State) (b : BobbinId) : (s.bobDst b).batten = s.batten := rfl
@[simp] theorem State.bobDst_totals (s : State) (b : BobbinId) : (s.bobDst b).totals = s.totals := rfl
@[simp] theorem State.bobDst_pool (s : State) (b : BobbinId) : (s.bobDst b).pool = s.pool := rfl
@[simp] theorem State.bobDst_dtiles (s : State) (b : BobbinId) : (s.bobDst b).dtiles = s.dtiles := rfl
@[simp] theorem State.bobDst_decs (s : State) (b : BobbinId) : (s.bobDst b).decs = s.decs := rfl
@[simp] theorem State.bobDst_selv (s : State) (b : BobbinId) : (s.bobDst b).selv = s.selv := rfl
@[simp] theorem State.bobDst_trans (s : State) (b : BobbinId) : (s.bobDst b).trans = s.trans := rfl
@[simp] theorem State.bobDst_time (s : State) (b : BobbinId) : (s.bobDst b).time = s.time := rfl
@[simp] theorem State.bobDst_rings (s : State) (b : BobbinId) : (s.bobDst b).rings = s.rings := rfl
@[simp] theorem State.bobDst_dma (s : State) (b : BobbinId) : (s.bobDst b).dma = s.dma := rfl
@[simp] theorem State.bobDst_intc (s : State) (b : BobbinId) : (s.bobDst b).intc = s.intc := rfl
@[simp] theorem State.bobDst_bpm (s : State) (b : BobbinId) : (s.bobDst b).bpm = s.bpm := rfl
@[simp] theorem State.bobDst_mem (s : State) (b : BobbinId) : (s.bobDst b).mem = s.mem := rfl
@[simp] theorem State.bobDst_faults (s : State) (b : BobbinId) : (s.bobDst b).faults = s.faults := rfl
@[simp] theorem State.bobDst_pair (s : State) (b : BobbinId) : (s.bobDst b).pair = s.pair := rfl
@[simp] theorem State.bobDst_pending (s : State) (b : BobbinId) : (s.bobDst b).pending = s.pending := rfl
@[simp] theorem State.bobDst_out (s : State) (b : BobbinId) : (s.bobDst b).out = s.out := rfl

@[simp] theorem State.bobPush_clk (s : State) (b : BobbinId) (xs : List (BitVec 256)) : (s.bobPush b xs).clk = s.clk := rfl
@[simp] theorem State.bobPush_pins (s : State) (b : BobbinId) (xs : List (BitVec 256)) : (s.bobPush b xs).pins = s.pins := rfl
@[simp] theorem State.bobPush_svc (s : State) (b : BobbinId) (xs : List (BitVec 256)) : (s.bobPush b xs).svc = s.svc := rfl
@[simp] theorem State.bobPush_boot (s : State) (b : BobbinId) (xs : List (BitVec 256)) : (s.bobPush b xs).boot = s.boot := rfl
@[simp] theorem State.bobPush_store (s : State) (b : BobbinId) (xs : List (BitVec 256)) : (s.bobPush b xs).store = s.store := rfl
@[simp] theorem State.bobPush_dict (s : State) (b : BobbinId) (xs : List (BitVec 256)) : (s.bobPush b xs).dict = s.dict := rfl
@[simp] theorem State.bobPush_paths (s : State) (b : BobbinId) (xs : List (BitVec 256)) : (s.bobPush b xs).paths = s.paths := rfl
@[simp] theorem State.bobPush_bar2 (s : State) (b : BobbinId) (xs : List (BitVec 256)) : (s.bobPush b xs).bar2 = s.bar2 := rfl
@[simp] theorem State.bobPush_dev (s : State) (b : BobbinId) (xs : List (BitVec 256)) : (s.bobPush b xs).dev = s.dev := rfl
@[simp] theorem State.bobPush_tiles (s : State) (b : BobbinId) (xs : List (BitVec 256)) : (s.bobPush b xs).tiles = s.tiles := rfl
@[simp] theorem State.bobPush_caches (s : State) (b : BobbinId) (xs : List (BitVec 256)) : (s.bobPush b xs).caches = s.caches := rfl
@[simp] theorem State.bobPush_encs (s : State) (b : BobbinId) (xs : List (BitVec 256)) : (s.bobPush b xs).encs = s.encs := rfl
@[simp] theorem State.bobPush_batten (s : State) (b : BobbinId) (xs : List (BitVec 256)) : (s.bobPush b xs).batten = s.batten := rfl
@[simp] theorem State.bobPush_totals (s : State) (b : BobbinId) (xs : List (BitVec 256)) : (s.bobPush b xs).totals = s.totals := rfl
@[simp] theorem State.bobPush_pool (s : State) (b : BobbinId) (xs : List (BitVec 256)) : (s.bobPush b xs).pool = s.pool := rfl
@[simp] theorem State.bobPush_dtiles (s : State) (b : BobbinId) (xs : List (BitVec 256)) : (s.bobPush b xs).dtiles = s.dtiles := rfl
@[simp] theorem State.bobPush_decs (s : State) (b : BobbinId) (xs : List (BitVec 256)) : (s.bobPush b xs).decs = s.decs := rfl
@[simp] theorem State.bobPush_selv (s : State) (b : BobbinId) (xs : List (BitVec 256)) : (s.bobPush b xs).selv = s.selv := rfl
@[simp] theorem State.bobPush_trans (s : State) (b : BobbinId) (xs : List (BitVec 256)) : (s.bobPush b xs).trans = s.trans := rfl
@[simp] theorem State.bobPush_time (s : State) (b : BobbinId) (xs : List (BitVec 256)) : (s.bobPush b xs).time = s.time := rfl
@[simp] theorem State.bobPush_rings (s : State) (b : BobbinId) (xs : List (BitVec 256)) : (s.bobPush b xs).rings = s.rings := rfl
@[simp] theorem State.bobPush_dma (s : State) (b : BobbinId) (xs : List (BitVec 256)) : (s.bobPush b xs).dma = s.dma := rfl
@[simp] theorem State.bobPush_intc (s : State) (b : BobbinId) (xs : List (BitVec 256)) : (s.bobPush b xs).intc = s.intc := rfl
@[simp] theorem State.bobPush_bpm (s : State) (b : BobbinId) (xs : List (BitVec 256)) : (s.bobPush b xs).bpm = s.bpm := rfl
@[simp] theorem State.bobPush_mem (s : State) (b : BobbinId) (xs : List (BitVec 256)) : (s.bobPush b xs).mem = s.mem := rfl
@[simp] theorem State.bobPush_faults (s : State) (b : BobbinId) (xs : List (BitVec 256)) : (s.bobPush b xs).faults = s.faults := rfl
@[simp] theorem State.bobPush_pair (s : State) (b : BobbinId) (xs : List (BitVec 256)) : (s.bobPush b xs).pair = s.pair := rfl
@[simp] theorem State.bobPush_pending (s : State) (b : BobbinId) (xs : List (BitVec 256)) : (s.bobPush b xs).pending = s.pending := rfl
@[simp] theorem State.bobPush_out (s : State) (b : BobbinId) (xs : List (BitVec 256)) : (s.bobPush b xs).out = s.out := rfl

@[simp] theorem State.bobDrop_clk (s : State) (b : BobbinId) (n : Nat) : (s.bobDrop b n).clk = s.clk := rfl
@[simp] theorem State.bobDrop_pins (s : State) (b : BobbinId) (n : Nat) : (s.bobDrop b n).pins = s.pins := rfl
@[simp] theorem State.bobDrop_svc (s : State) (b : BobbinId) (n : Nat) : (s.bobDrop b n).svc = s.svc := rfl
@[simp] theorem State.bobDrop_boot (s : State) (b : BobbinId) (n : Nat) : (s.bobDrop b n).boot = s.boot := rfl
@[simp] theorem State.bobDrop_store (s : State) (b : BobbinId) (n : Nat) : (s.bobDrop b n).store = s.store := rfl
@[simp] theorem State.bobDrop_dict (s : State) (b : BobbinId) (n : Nat) : (s.bobDrop b n).dict = s.dict := rfl
@[simp] theorem State.bobDrop_paths (s : State) (b : BobbinId) (n : Nat) : (s.bobDrop b n).paths = s.paths := rfl
@[simp] theorem State.bobDrop_bar2 (s : State) (b : BobbinId) (n : Nat) : (s.bobDrop b n).bar2 = s.bar2 := rfl
@[simp] theorem State.bobDrop_dev (s : State) (b : BobbinId) (n : Nat) : (s.bobDrop b n).dev = s.dev := rfl
@[simp] theorem State.bobDrop_tiles (s : State) (b : BobbinId) (n : Nat) : (s.bobDrop b n).tiles = s.tiles := rfl
@[simp] theorem State.bobDrop_caches (s : State) (b : BobbinId) (n : Nat) : (s.bobDrop b n).caches = s.caches := rfl
@[simp] theorem State.bobDrop_encs (s : State) (b : BobbinId) (n : Nat) : (s.bobDrop b n).encs = s.encs := rfl
@[simp] theorem State.bobDrop_batten (s : State) (b : BobbinId) (n : Nat) : (s.bobDrop b n).batten = s.batten := rfl
@[simp] theorem State.bobDrop_totals (s : State) (b : BobbinId) (n : Nat) : (s.bobDrop b n).totals = s.totals := rfl
@[simp] theorem State.bobDrop_pool (s : State) (b : BobbinId) (n : Nat) : (s.bobDrop b n).pool = s.pool := rfl
@[simp] theorem State.bobDrop_dtiles (s : State) (b : BobbinId) (n : Nat) : (s.bobDrop b n).dtiles = s.dtiles := rfl
@[simp] theorem State.bobDrop_decs (s : State) (b : BobbinId) (n : Nat) : (s.bobDrop b n).decs = s.decs := rfl
@[simp] theorem State.bobDrop_selv (s : State) (b : BobbinId) (n : Nat) : (s.bobDrop b n).selv = s.selv := rfl
@[simp] theorem State.bobDrop_trans (s : State) (b : BobbinId) (n : Nat) : (s.bobDrop b n).trans = s.trans := rfl
@[simp] theorem State.bobDrop_time (s : State) (b : BobbinId) (n : Nat) : (s.bobDrop b n).time = s.time := rfl
@[simp] theorem State.bobDrop_rings (s : State) (b : BobbinId) (n : Nat) : (s.bobDrop b n).rings = s.rings := rfl
@[simp] theorem State.bobDrop_dma (s : State) (b : BobbinId) (n : Nat) : (s.bobDrop b n).dma = s.dma := rfl
@[simp] theorem State.bobDrop_intc (s : State) (b : BobbinId) (n : Nat) : (s.bobDrop b n).intc = s.intc := rfl
@[simp] theorem State.bobDrop_bpm (s : State) (b : BobbinId) (n : Nat) : (s.bobDrop b n).bpm = s.bpm := rfl
@[simp] theorem State.bobDrop_mem (s : State) (b : BobbinId) (n : Nat) : (s.bobDrop b n).mem = s.mem := rfl
@[simp] theorem State.bobDrop_faults (s : State) (b : BobbinId) (n : Nat) : (s.bobDrop b n).faults = s.faults := rfl
@[simp] theorem State.bobDrop_pair (s : State) (b : BobbinId) (n : Nat) : (s.bobDrop b n).pair = s.pair := rfl
@[simp] theorem State.bobDrop_pending (s : State) (b : BobbinId) (n : Nat) : (s.bobDrop b n).pending = s.pending := rfl
@[simp] theorem State.bobDrop_out (s : State) (b : BobbinId) (n : Nat) : (s.bobDrop b n).out = s.out := rfl

@[simp] theorem State.bobFlush_clk (s : State) (b : BobbinId) : (s.bobFlush b).clk = s.clk := rfl
@[simp] theorem State.bobFlush_pins (s : State) (b : BobbinId) : (s.bobFlush b).pins = s.pins := rfl
@[simp] theorem State.bobFlush_svc (s : State) (b : BobbinId) : (s.bobFlush b).svc = s.svc := rfl
@[simp] theorem State.bobFlush_boot (s : State) (b : BobbinId) : (s.bobFlush b).boot = s.boot := rfl
@[simp] theorem State.bobFlush_store (s : State) (b : BobbinId) : (s.bobFlush b).store = s.store := rfl
@[simp] theorem State.bobFlush_dict (s : State) (b : BobbinId) : (s.bobFlush b).dict = s.dict := rfl
@[simp] theorem State.bobFlush_paths (s : State) (b : BobbinId) : (s.bobFlush b).paths = s.paths := rfl
@[simp] theorem State.bobFlush_bar2 (s : State) (b : BobbinId) : (s.bobFlush b).bar2 = s.bar2 := rfl
@[simp] theorem State.bobFlush_dev (s : State) (b : BobbinId) : (s.bobFlush b).dev = s.dev := rfl
@[simp] theorem State.bobFlush_tiles (s : State) (b : BobbinId) : (s.bobFlush b).tiles = s.tiles := rfl
@[simp] theorem State.bobFlush_caches (s : State) (b : BobbinId) : (s.bobFlush b).caches = s.caches := rfl
@[simp] theorem State.bobFlush_encs (s : State) (b : BobbinId) : (s.bobFlush b).encs = s.encs := rfl
@[simp] theorem State.bobFlush_batten (s : State) (b : BobbinId) : (s.bobFlush b).batten = s.batten := rfl
@[simp] theorem State.bobFlush_totals (s : State) (b : BobbinId) : (s.bobFlush b).totals = s.totals := rfl
@[simp] theorem State.bobFlush_pool (s : State) (b : BobbinId) : (s.bobFlush b).pool = s.pool := rfl
@[simp] theorem State.bobFlush_dtiles (s : State) (b : BobbinId) : (s.bobFlush b).dtiles = s.dtiles := rfl
@[simp] theorem State.bobFlush_decs (s : State) (b : BobbinId) : (s.bobFlush b).decs = s.decs := rfl
@[simp] theorem State.bobFlush_selv (s : State) (b : BobbinId) : (s.bobFlush b).selv = s.selv := rfl
@[simp] theorem State.bobFlush_trans (s : State) (b : BobbinId) : (s.bobFlush b).trans = s.trans := rfl
@[simp] theorem State.bobFlush_time (s : State) (b : BobbinId) : (s.bobFlush b).time = s.time := rfl
@[simp] theorem State.bobFlush_rings (s : State) (b : BobbinId) : (s.bobFlush b).rings = s.rings := rfl
@[simp] theorem State.bobFlush_dma (s : State) (b : BobbinId) : (s.bobFlush b).dma = s.dma := rfl
@[simp] theorem State.bobFlush_intc (s : State) (b : BobbinId) : (s.bobFlush b).intc = s.intc := rfl
@[simp] theorem State.bobFlush_bpm (s : State) (b : BobbinId) : (s.bobFlush b).bpm = s.bpm := rfl
@[simp] theorem State.bobFlush_mem (s : State) (b : BobbinId) : (s.bobFlush b).mem = s.mem := rfl
@[simp] theorem State.bobFlush_faults (s : State) (b : BobbinId) : (s.bobFlush b).faults = s.faults := rfl
@[simp] theorem State.bobFlush_pair (s : State) (b : BobbinId) : (s.bobFlush b).pair = s.pair := rfl
@[simp] theorem State.bobFlush_pending (s : State) (b : BobbinId) : (s.bobFlush b).pending = s.pending := rfl
@[simp] theorem State.bobFlush_out (s : State) (b : BobbinId) : (s.bobFlush b).out = s.out := rfl

@[simp] theorem State.resetBob_clk (s : State) (b : BobbinId) : (s.resetBob b).clk = s.clk := rfl
@[simp] theorem State.resetBob_pins (s : State) (b : BobbinId) : (s.resetBob b).pins = s.pins := rfl
@[simp] theorem State.resetBob_svc (s : State) (b : BobbinId) : (s.resetBob b).svc = s.svc := rfl
@[simp] theorem State.resetBob_boot (s : State) (b : BobbinId) : (s.resetBob b).boot = s.boot := rfl
@[simp] theorem State.resetBob_store (s : State) (b : BobbinId) : (s.resetBob b).store = s.store := rfl
@[simp] theorem State.resetBob_dict (s : State) (b : BobbinId) : (s.resetBob b).dict = s.dict := rfl
@[simp] theorem State.resetBob_paths (s : State) (b : BobbinId) : (s.resetBob b).paths = s.paths := rfl
@[simp] theorem State.resetBob_bar2 (s : State) (b : BobbinId) : (s.resetBob b).bar2 = s.bar2 := rfl
@[simp] theorem State.resetBob_dev (s : State) (b : BobbinId) : (s.resetBob b).dev = s.dev := rfl
@[simp] theorem State.resetBob_tiles (s : State) (b : BobbinId) : (s.resetBob b).tiles = s.tiles := rfl
@[simp] theorem State.resetBob_caches (s : State) (b : BobbinId) : (s.resetBob b).caches = s.caches := rfl
@[simp] theorem State.resetBob_encs (s : State) (b : BobbinId) : (s.resetBob b).encs = s.encs := rfl
@[simp] theorem State.resetBob_batten (s : State) (b : BobbinId) : (s.resetBob b).batten = s.batten := rfl
@[simp] theorem State.resetBob_totals (s : State) (b : BobbinId) : (s.resetBob b).totals = s.totals := rfl
@[simp] theorem State.resetBob_pool (s : State) (b : BobbinId) : (s.resetBob b).pool = s.pool := rfl
@[simp] theorem State.resetBob_dtiles (s : State) (b : BobbinId) : (s.resetBob b).dtiles = s.dtiles := rfl
@[simp] theorem State.resetBob_decs (s : State) (b : BobbinId) : (s.resetBob b).decs = s.decs := rfl
@[simp] theorem State.resetBob_selv (s : State) (b : BobbinId) : (s.resetBob b).selv = s.selv := rfl
@[simp] theorem State.resetBob_trans (s : State) (b : BobbinId) : (s.resetBob b).trans = s.trans := rfl
@[simp] theorem State.resetBob_time (s : State) (b : BobbinId) : (s.resetBob b).time = s.time := rfl
@[simp] theorem State.resetBob_rings (s : State) (b : BobbinId) : (s.resetBob b).rings = s.rings := rfl
@[simp] theorem State.resetBob_dma (s : State) (b : BobbinId) : (s.resetBob b).dma = s.dma := rfl
@[simp] theorem State.resetBob_intc (s : State) (b : BobbinId) : (s.resetBob b).intc = s.intc := rfl
@[simp] theorem State.resetBob_bpm (s : State) (b : BobbinId) : (s.resetBob b).bpm = s.bpm := rfl
@[simp] theorem State.resetBob_mem (s : State) (b : BobbinId) : (s.resetBob b).mem = s.mem := rfl
@[simp] theorem State.resetBob_faults (s : State) (b : BobbinId) : (s.resetBob b).faults = s.faults := rfl
@[simp] theorem State.resetBob_pair (s : State) (b : BobbinId) : (s.resetBob b).pair = s.pair := rfl
@[simp] theorem State.resetBob_pending (s : State) (b : BobbinId) : (s.resetBob b).pending = s.pending := rfl
@[simp] theorem State.resetBob_out (s : State) (b : BobbinId) : (s.resetBob b).out = s.out := rfl

end Sys2Proof.Machine
end

