-- ==== Sys2Proof/Laws/Ingress.lean ====
section
/-! SUPPORT. The ingress pipelines, which run with the clock: all that they can change is Selvedge and the transport's queues. -/

namespace Sys2Proof.Machine

/-- `t` differs from `s` in Selvedge and in the transport alone. -/
def ingressOnly (s t : State) : Prop := ∃ v q, t = { s with selv := v, trans := q }

theorem ingressOnly.refl (s : State) : ingressOnly s s := ⟨s.selv, s.trans, rfl⟩
theorem ingressOnly.trans {s t u : State} (h : ingressOnly s t) (g : ingressOnly t u) : ingressOnly s u := by
  obtain ⟨_, _, rfl⟩ := h
  obtain ⟨v, q, rfl⟩ := g
  exact ⟨v, q, rfl⟩

theorem selvCount_only (s : State) (k n : Nat) : ingressOnly s (s.selvCount k n) := ⟨_, s.trans, rfl⟩

theorem exception_only (s : State) (k : Pkt) (r : Nat) : ingressOnly s (s.exception k r) := by
  unfold State.exception
  simp only
  split
  · exact ⟨_, _, rfl⟩
  · exact ⟨s.selv, _, rfl⟩

/-- Lookups that meet no error change nothing but the hit of the source's entry. -/
theorem lookups_only (s : State) (k : Pkt) : ingressOnly s (s.lookups k false false).2 := by
  simp only [State.lookups, State.macBad, if_false, Bool.false_eq_true]
  split
  · split
    · exact ⟨_, s.trans, rfl⟩
    · exact .refl s
  · exact .refl s

theorem parsed_only (s : State) (k : Pkt) : ingressOnly s (s.parsed k) := by
  have enter (u : State) (v : Selvedge) : ingressOnly u { u with selv := v } := ⟨v, u.trans, rfl⟩
  unfold State.parsed
  simp only
  split
  · exact (enter s _).trans (enter _ _)
  · exact ((enter s _).trans (lookups_only _ _)).trans ((enter _ _).trans (selvCount_only _ _ _))
  · exact ((enter s _).trans (lookups_only _ _)).trans ((enter _ _).trans (selvCount_only _ _ _))
  · split
    · exact ((enter s _).trans (selvCount_only _ _ _)).trans (exception_only _ _ _)
    · exact (enter s _).trans (selvCount_only _ _ _)

theorem serveWord_only (s : State) (g : Nat) : ingressOnly s (s.serveWord g) := by
  have enter (u : State) (v : Selvedge) : ingressOnly u { u with selv := v } := ⟨v, u.trans, rfl⟩
  unfold State.serveWord
  simp only
  split
  · exact .refl s
  · split
    · exact .refl s
    · split
      · exact .refl s
      · split
        · exact (enter s _).trans (parsed_only _ _)
        · exact enter s _

theorem ingressCycle_only (s : State) : ingressOnly s s.ingressCycle := by
  unfold State.ingressCycle
  split
  · exact .refl s
  · have : ∀ (l : List Nat) (u : State), ingressOnly u (l.foldl State.serveWord u) := by
      intro l
      induction l with
      | nil => exact ingressOnly.refl
      | cons g r ih => exact fun u => (serveWord_only u g).trans (ih _)
    exact this _ s

/-- A nanosecond passes: the clocks' part, then the ingress pipelines'. -/
theorem tick_only (s : State) : ingressOnly s.clockTick s.tick :=
  ((ingressCycle_only _).trans (ingressCycle_only _)).trans (ingressCycle_only _)

/-- With no frame at the ingress pipelines the clocks alone move. -/
theorem tick_of_empty {s : State} (h : s.selv.arrivals = []) : s.tick = s.clockTick := by
  have e : ∀ u : State, u.selv.arrivals = [] → u.ingressCycle = u := fun u hu => by simp [State.ingressCycle, hu]
  have h' : s.clockTick.selv.arrivals = [] := h
  simp only [State.tick, times, e _ h']

end Sys2Proof.Machine
end

