-- ==== Sys2Proof/Laws/Memory.lean ====
section
/-! SUPPORT. Device memory: every operation that stores there keeps the canonical form, and what the operations that only touch the DDR5
controllers or the pool leave alone. -/

namespace Sys2Proof.Machine

/-- Reset memory is in canonical form. -/
theorem State.reset_memWf : State.reset.mem.wf = true := rfl

/-- A store of bytes keeps the canonical form. -/
theorem State.devStore_memWf {s : State} (a : Nat) (b : Bytes) (h : s.mem.wf = true) : (s.devStore a b).mem.wf = true :=
  memWf_setBytes b s.mem.dev a h

/-- A byte outside the stored ones reads as before. -/
theorem State.devStore_outside (s : State) (a x : Nat) (b : Bytes) (h : x < a ∨ a + b.length ≤ x) :
    byteAt (s.devStore a b).mem.dev x = byteAt s.mem.dev x := byteAt_setBytes_outside b s.mem.dev a x h

/-- Filling packet cells keeps the canonical form. -/
theorem State.fillCells_memWf {s : State} (l : List Nat) (d : Bytes) (h : s.mem.wf = true) : (s.fillCells l d).mem.wf = true := by
  induction l generalizing s d with
  | nil => exact h
  | cons b r ih => exact ih _ (State.devStore_memWf _ _ h)

/-- A miscorrected word that is written back keeps the canonical form. -/
theorem State.writeBack_memWf {s : State} (a : Nat) (e : CodeErr) (h : s.mem.wf = true) : (s.writeBack a e).mem.wf = true := by
  unfold State.writeBack
  split
  · exact State.devStore_memWf _ _ h
  · exact h

/-! An event-ring entry in device memory, and what raises one. -/

theorem State.eventOut_memWf {s : State} (n : Nat) (m : Master) (d : Bytes) (h : s.mem.wf = true) : (s.eventOut n m d).mem.wf = true := by
  unfold State.eventOut
  simp only []
  split
  · dsimp only
    split
    · exact memWf_setBytes _ s.mem.dev _ h
    · exact h
  · exact h

theorem State.raise0_memWf {s : State} (n : Nat) (m : Master) (d : Bytes) (h : s.mem.wf = true) : (s.raise0 n m d).mem.wf = true := by
  unfold State.raise0
  simp only []
  split
  · exact State.eventOut_memWf n m d h
  · exact h

theorem State.raise_memWf {s : State} (n : Nat) (m : Master) (d : Bytes) (h : s.mem.wf = true) : (s.raise n m d).mem.wf = true := by
  unfold State.raise
  rw [State.settleInts_mem]
  exact State.raise0_memWf n m d h

theorem State.badWord_memWf {s : State} (x : Nat) (h : s.mem.wf = true) : (s.badWord x).mem.wf = true := by
  unfold Memory.wf at *
  rw [State.badWord_memDev]
  exact h

theorem State.containedAt_memWf {s : State} (k : Nat) (a : Access) (m : Master) (x : Nat) (h : s.mem.wf = true) :
    (s.containedAt k a m x).mem.wf = true := by
  unfold State.containedAt
  simp only [State.syncErr_mem]
  split
  · rw [State.errPulse_mem]
    exact State.raise_memWf _ _ _ (by rw [State.logContained_mem]; exact h)
  · exact State.raise_memWf _ _ _ (by rw [State.logContained_mem]; exact h)

theorem State.contained_memWf {s : State} (k : Nat) (a : Access) (m : Master) (x : Nat) (h : s.mem.wf = true) :
    (s.contained k a m x).mem.wf = true := by
  unfold State.contained
  split
  · exact State.containedAt_memWf _ _ _ _ (State.badWord_memWf x h)
  · exact State.containedAt_memWf _ _ _ _ h

/-- A fault of either class. -/
theorem State.report_memWf {s : State} (k : Nat) (a : Access) (m : Master) (x : Nat) (h : s.mem.wf = true) :
    (s.report k a m x).mem.wf = true := by
  unfold State.report
  split
  · rw [State.fatal_mem]; exact h
  · exact State.contained_memWf k a m x h

theorem State.lockViolation_memWf {s : State} (m : Master) (x : Nat) (h : s.mem.wf = true) : (s.lockViolation m x).mem.wf = true :=
  State.contained_memWf _ _ _ _ h

/-! DDR5 accesses and the pool's content touch no stored byte. -/

@[simp] theorem State.wakeRank_dev (s : State) (c r : Nat) : (s.wakeRank c r).mem.dev = s.mem.dev := rfl

@[simp] theorem State.activate_dev (s : State) (a : Nat) : (s.activate a).mem.dev = s.mem.dev := by
  unfold State.activate
  simp only []
  repeat' split
  all_goals rfl

/-- A sequence of operations that store nothing stores nothing. -/
theorem foldl_dev (f : State → Nat → State) (h : ∀ s i, (f s i).mem.dev = s.mem.dev) (l : List Nat) (s : State) :
    (l.foldl f s).mem.dev = s.mem.dev := by
  induction l generalizing s with
  | nil => rfl
  | cons i r ih => exact (ih (f s i)).trans (h s i)

@[simp] theorem State.ddrTouch_dev (s : State) (a n : Nat) : (s.ddrTouch a n).mem.dev = s.mem.dev := by
  unfold State.ddrTouch
  split
  · rfl
  · exact foldl_dev _ (fun s i => State.activate_dev s _) _ s

@[simp] theorem State.poolWrite_mem (s : State) (a : Nat) (b : Bytes) : (s.poolWrite a b).mem = s.mem := by
  unfold State.poolWrite
  split <;> rfl

/-- A write of device memory by a master, mapped or not. -/
theorem State.devWrite_memWf {s : State} (m : Master) (acc : Access) (a : Nat) (b : Bytes) (h : s.mem.wf = true) :
    (s.devWrite m acc a b).mem.wf = true := by
  unfold State.devWrite
  split
  · exact h
  · split
    · exact State.contained_memWf _ _ _ _ h
    · show memWf ((((s.poolWrite a b).devStore a b).ddrTouch a b.length).mem.dev) = true
      rw [State.ddrTouch_dev]
      exact State.devStore_memWf (s := s.poolWrite a b) a b (by rw [State.poolWrite_mem]; exact h)

/-- A mapped write stores its bytes and leaves every other byte as it was. -/
theorem State.devWrite_outside (s : State) (m : Master) (acc : Access) (a x : Nat) (b : Bytes)
    (hm : devMapped s m a b.length = true) (h : x < a ∨ a + b.length ≤ x) :
    byteAt (s.devWrite m acc a b).mem.dev x = byteAt s.mem.dev x := by
  unfold State.devWrite
  split
  · rfl
  · rw [hm, if_neg (by decide)]
    show byteAt ((((s.poolWrite a b).devStore a b).ddrTouch a b.length).mem.dev) x = _
    rw [State.ddrTouch_dev, State.devStore_outside _ _ _ _ h, State.poolWrite_mem]

end Sys2Proof.Machine
end

