-- ==== Sys2Proof/Tests/Slice0.lean ====
section
/-! SUPPORT. Tests: well-formedness, check values the manual prints, steps on small states, and for each statement with hypotheses a
concrete state and operands that meet them. -/

set_option synthInstance.maxSize 2000
set_option maxRecDepth 100000
set_option linter.unusedVariables false

open Sys2Proof Sys2Proof.Machine

namespace Sys2Proof.Tests

/-! ### Well-formedness: one ill-formed term for each check -/

theorem test_wf_bootWindowWrite : (Instr.bootWindowWrite 0x240 2097151 [1, 2]).wellFormed = false := by decide
theorem test_wf_bootWindowWrite_fits : (Instr.bootWindowWrite 0x240 2097150 [1, 2]).wellFormed = true := by decide
theorem test_wf_regulatorPoll : (Instr.regulatorPoll (List.replicate 14 none)).wellFormed = false := by decide

theorem test_wf_reservedMaster : (Instr.registerWrite 0x1BF .bar0 0 0xF 0 {}).wellFormed = false := by decide
theorem test_wf_issuedMaster : (Instr.registerWrite 0x240 .bar0 0 0xF 0 {}).wellFormed = true := by decide
theorem test_wf_packetReceive : (Instr.packetReceive 0 (List.replicate 16385 0)).wellFormed = false := by
  simp only [Instr.wellFormed, List.length_replicate]; rfl
theorem test_wf_dictDatagram : (Instr.dictDatagram true 1 0 0 (List.replicate 65508 0)).wellFormed = false := by
  simp only [Instr.wellFormed, List.length_replicate]; rfl
theorem test_wf_touchDatagram : (Instr.touchDatagram 0 (List.replicate 65508 0)).wellFormed = false := by
  simp only [Instr.wellFormed, List.length_replicate]; rfl
theorem test_wf_rtcpReceive : (Instr.rtcpReceive 0 0 (List.replicate 65508 0)).wellFormed = false := by
  simp only [Instr.wellFormed, List.length_replicate]; rfl
theorem test_wf_croakReceive : (Instr.croakReceive (List.replicate 65508 0)).wellFormed = false := by
  simp only [Instr.wellFormed, List.length_replicate]; rfl

/-! ### Check values of the manual (R189, R191) -/

theorem test_crc16 : (crc16 [0x31, 0x32, 0x33, 0x34, 0x35, 0x36, 0x37, 0x38, 0x39]).toNat = 0x29B1 := by decide
theorem test_crc32 : (crc32 [0x31, 0x32, 0x33, 0x34, 0x35, 0x36, 0x37, 0x38, 0x39]).toNat = 0xCBF43926 := by decide
theorem test_crc32c : (crc32c [0x31, 0x32, 0x33, 0x34, 0x35, 0x36, 0x37, 0x38, 0x39]).toNat = 0xE3069283 := by decide
theorem test_crc64 : (crc64 [0x31, 0x32, 0x33, 0x34, 0x35, 0x36, 0x37, 0x38, 0x39]).toNat = 0x6C40DF5F0B497347 := by decide
/-- The worked example of the frame seal (chapter 6). -/
theorem test_frameSeal : frameSeal 3 0xA31 256 [0x5A3C, 0xC0DE] = 0x7190 := by decide
theorem test_endpointSeal : endpointSeal 3 0xA31 2 (frameSeal 3 0 256 [0x5A3C, 0xC0DE]) = 0x7190 := by decide

/-! ### Steps -/

theorem test_ticks : ticksOf 1500000000 = 40500000 := by decide
theorem test_step_idle : step {} = .next { clk := { now := 1 } } := rfl
theorem test_step_front : step { pending := [.pllsLocked, .sramRepair] } = .next { pending := [.sramRepair], boot := { plls := true } } := rfl
theorem test_fault_record : (match exec (.faultReport 0x05 .write 0x240 0x1000 none) {} with
    | .next t => (t.faults.valid, t.faults.kind, t.faults.master, t.faults.overflow)
    | _ => (false, 0, 0, false)) = (true, 0x05, 0x240, false) := by decide
theorem test_fault_overflow : (match exec (.faultReport 0x05 .write 0x240 0x1000 none) { faults := { valid := true, kind := 9 } } with
    | .next t => (t.faults.kind, t.faults.overflow, t.faults.overflows)
    | _ => (0, false, 0)) = (9, true, 1) := by decide

/-! ### Every statement with hypotheses has a state and operands that meet them -/

/-- The hypotheses of every clause of `Obligations.WholeDeviceResets` can be met. -/
theorem wit_wholeDeviceResets :
    (∃ (s : State), ∃ (st : Straps), ∃ (ns : Nat),
      100 ≤ ns) ∧
    (∃ (s : State), ∃ (st : Straps), ∃ (ns : Nat),
      ns < 100) ∧
    (∃ (s : State), ∃ (st : Straps), ∃ (r : Fin 13), ∃ (ns : Nat),
      200 ≤ ns) ∧
    (∃ (s : State), ∃ (st : Straps), ∃ (r : Fin 13), ∃ (ns : Nat),
      ns < 200) ∧
    (∃ (s : State), ∃ (st : Straps),
      asleep s = false ∧ (s.takeAct 0x2001 0).isSome = true) ∧
    (∃ (s : State), ∃ (st : Straps), ∃ (d : Nat),
      asleep s = false ∧ s.boot.watchdog = some d ∧ d ≤ s.clk.now) ∧
    (∃ (s : State), ∃ (st : Straps), ∃ (d : Nat),
      asleep s = false ∧ s.boot.recovery = some d ∧ d + 30000000000 ≤ s.clk.now) ∧
    (∃ (s : State), ∃ (st : Straps),
      asleep s = false ∧ (s.takeAct 0x2013 0).isSome = true) :=
  ⟨⟨{ boot := { selvedge := true } }, {}, 100, by decide⟩,
   ⟨{}, {}, 99, by decide⟩,
   ⟨{ boot := { selvedge := true } }, {}, 0, 200, by decide⟩,
   ⟨{}, {}, 12, 199, by decide⟩,
   ⟨{ dict := { acts := [⟨0x2001, 0, .num 1, 1, .can 5⟩] } }, {}, by decide⟩,
   ⟨{ boot := { watchdog := some 7 }, clk := { now := 7 } }, {}, 7, by decide⟩,
   ⟨{ boot := { recovery := some 0 }, clk := { now := 30000000000 } }, {}, 0, by decide⟩,
   ⟨{ dict := { acts := [⟨0x2013, 0, .num 1, 1, .can 5⟩] }, store := { newtLatch := true, failed := 3 } }, {}, by decide⟩⟩

/-- The hypotheses of every clause of `Obligations.HostResetSparesTheDevice` can be met. -/
theorem wit_hostResetSparesTheDevice :
    (∃ (s : State),
      asleep s = false) :=
  ⟨{ dma := { chans := [(3, {})] }, intc := { msix := [(3, 0)] } }, by decide⟩

/-- The hypotheses of every clause of `Obligations.StartStepsInOrder` can be met. -/
theorem wit_startStepsInOrder :
    (∃ (s : State),
      asleep s = false) ∧
    (∃ (s : State),
      asleep s = false ∧ s.boot.plls = true) ∧
    (∃ (s : State), ∃ (bad : List (Nat × Fin 3)), ∃ (torn : List Nat), ∃ (n : Nat),
      asleep s = false ∧ s.boot.sram = true ∧ s.boot.mounted = false ∧ s.pins.pwrfailN = true) ∧
    (∃ (s : State),
      asleep s = false ∧ s.boot.mounted = true ∧ s.boot.hbm = false) ∧
    (∃ (s : State),
      asleep s = false ∧ s.boot.hbm = true ∧ s.boot.replayed = false) ∧
    (∃ (s : State),
      asleep s = false ∧ s.boot.replayed = true ∧ s.boot.selvedge = false) ∧
    (∃ (s : State),
      asleep s = false ∧ s.boot.selvedge = true ∧ s.boot.timeUp = false) ∧
    (∃ (s : State), ∃ (chs : List Channel),
      asleep s = false ∧ s.boot.timeUp = true ∧ s.boot.ddr = false) ∧
    (∃ (s : State),
      asleep s = false ∧ s.boot.ddr = true ∧ s.boot.decided = false) :=
  ⟨⟨{}, by decide⟩,
   ⟨{ boot := { plls := true } }, by decide⟩,
   ⟨{ boot := { sram := true } }, [(0, 1)], [0], 2, by decide⟩,
   ⟨{ boot := { mounted := true } }, by decide⟩,
   ⟨{ boot := { hbm := true } }, by decide⟩,
   ⟨{ boot := { replayed := true } }, by decide⟩,
   ⟨{ boot := { selvedge := true } }, by decide⟩,
   ⟨{ boot := { timeUp := true } }, [⟨true, 2, 34359738368⟩], by decide⟩,
   ⟨{ boot := { ddr := true, bootMode := 7 } }, by decide⟩⟩

/-- The hypotheses of every clause of `Obligations.BootFromHostAndFlash` can be met. -/
theorem wit_bootFromHostAndFlash :
    (∃ (s : State), ∃ (m : Master),
      asleep s = false ∧ (s.boot.bootState = 0 ∨ s.boot.bootState = 3) ∧ s.boot.decided = false ∧ masterOk m = true) ∧
    (∃ (s : State), ∃ (m : Master),
      asleep s = false ∧ (s.boot.bootState = 0 ∨ s.boot.bootState = 3) ∧ s.boot.decided = true ∧ headerOk (bytesAt s.boot.window 0 64) = false ∧ masterOk m = true) ∧
    (∃ (s : State), ∃ (m : Master), ∃ (off : BitVec 21), ∃ (data : Bytes),
      asleep s = false ∧ (s.boot.bootState = 0 ∨ s.boot.bootState = 3) ∧ off.toNat + data.length ≤ 2097152 ∧ masterOk m = true) ∧
    (∃ (s : State), ∃ (m : Master), ∃ (off : BitVec 21), ∃ (data : Bytes),
      asleep s = false ∧ s.boot.bootState ≠ 0 ∧ s.boot.bootState ≠ 3 ∧ off.toNat + data.length ≤ 2097152 ∧ masterOk m = true) ∧
    (∃ (s : State), ∃ (d : Nat),
      asleep s = false ∧ (s.takeAct 0x2011 0).isSome = true ∧ s.boot.watchdog = some d) ∧
    (∃ (s : State), ∃ (se : Session), ∃ (b : Bool), ∃ (data : Bytes),
      dictIdle s ∧ s.store.journal = [] ∧ s.store.readOnly = false) ∧
    (∃ (s : State), ∃ (p : SlotProgram),
      asleep s = false ∧ s.boot.slots = [p] ∧ (pendingEntries s).any (fun e => e.req == p.req && e.op == p.op) = false) ∧
    (∃ (s : State), ∃ (p : SlotProgram),
      asleep s = false ∧ s.boot.slots = [p] ∧ (pendingEntries s).any (fun e => e.req == p.req && e.op == p.op) = false) :=
  ⟨⟨{ boot := { bootState := 0 } }, 0x240, by decide⟩,
   ⟨{ boot := { bootState := 0, decided := true } }, 0x240, by decide⟩,
   ⟨{ boot := { bootState := 3 } }, 0x240, 2097150, [1, 2], by decide⟩,
   ⟨{ boot := { bootState := 4 } }, 0x240, 0, [1], by decide⟩,
   ⟨{ dict := { acts := [⟨0x2011, 0, .num 1, 1, .can 5⟩] }, boot := { watchdog := some 9 }, store := { failed := 2 } }, 9, by decide⟩,
   ⟨{ boot := { selvedge := true } }, .can 5, true, [1], by decide⟩,
   ⟨{ boot := { slots := [⟨0, 0, false, 4096, [1, 2]⟩] } }, ⟨0, 0, false, 4096, [1, 2]⟩, by decide⟩,
   ⟨{ boot := { slots := [⟨0, 0, false, 4096, [1, 2]⟩] } }, ⟨0, 0, false, 4096, [1, 2]⟩, by decide⟩⟩

/-- The hypotheses of every clause of `Obligations.ServiceButton` can be met. -/
theorem wit_serviceButton :
    (∃ (s : State),
      asleep s = false ∧ s.pins.serviceN = true ∧ s.svc.seenHigh = true) ∧
    (∃ (s : State), ∃ (p : Nat),
      asleep s = false ∧ s.pins.serviceN = false ∧ s.svc.pressedAt = some p ∧ s.clk.now < p + 5000000000) ∧
    (∃ (s : State), ∃ (st : Straps), ∃ (p : Nat),
      asleep s = false ∧ s.svc.pressedAt = some p ∧ p + 5000000000 ≤ s.clk.now ∧ s.svc.did5 = false ∧ s.boot.newt = false) ∧
    (∃ (s : State), ∃ (st : Straps), ∃ (p : Nat),
      asleep s = false ∧ s.svc.pressedAt = some p ∧ p + 15000000000 ≤ s.clk.now ∧ s.svc.did15 = false ∧ s.boot.warning = false ∧ storeOpen s = true) ∧
    (∃ (s : State), ∃ (p : Nat),
      asleep s = false ∧ s.svc.pressedAt = some p ∧ p + 60000000000 ≤ s.clk.now ∧ s.svc.didStuck = false) :=
  ⟨⟨{ svc := { seenHigh := true } }, by decide⟩,
   ⟨{ pins := { serviceN := false }, svc := { pressedAt := some 0 } }, 0, by decide⟩,
   ⟨{ svc := { pressedAt := some 0 }, clk := { now := 5000000000 } }, {}, 0, by decide⟩,
   ⟨{ svc := { pressedAt := some 0 }, clk := { now := 15000000000 } }, {}, 0, by decide⟩,
   ⟨{ svc := { pressedAt := some 0 }, clk := { now := 60000000000 } }, 0, by decide⟩⟩

/-- The hypotheses of every clause of `Obligations.PowerWarningAndLearnLog` can be met. -/
theorem wit_powerWarningAndLearnLog :
    (∃ (s : State),
      asleep s = false ∧ s.pins.pwrfailN = true ∧ s.boot.mounted = true) ∧
    (∃ (s : State),
      asleep s = false ∧ s.boot.warning = true ∧ s.boot.shutdown = false ∧ s.dict.waiting = [] ∧ s.dict.openRec = none ∧ s.boot.segWrite = none) ∧
    (∃ (s : State),
      asleep s = false ∧ s.pins.pwrfailN = false ∧ s.pins.pwrfailAt + 10000000 ≤ s.clk.now ∧ s.boot.warning = true) ∧
    (∃ (s : State),
      asleep s = false ∧ s.boot.selvedge = true ∧ captureDue s = true ∧ s.boot.warning = false ∧ s.store.readOnly = false ∧ s.boot.segWrite = none ∧ s.store.learnLog.length < 32) ∧
    (∃ (s : State), ∃ (g : Learned),
      asleep s = false ∧ s.boot.segWrite = some g ∧ s.dict.waiting = []) ∧
    (∃ (s : State),
      asleep s = false ∧ 24 ≤ s.store.learnLog.length ∧ s.boot.warning = false ∧ s.store.readOnly = false ∧ s.boot.snapWrite = none) ∧
    (∃ (s : State), ∃ (g : Learned),
      asleep s = false ∧ s.boot.snapWrite = some g ∧ s.dict.waiting = []) :=
  ⟨⟨{ boot := { mounted := true } }, by decide⟩,
   ⟨{ boot := { warning := true } }, by decide⟩,
   ⟨{ pins := { pwrfailN := false }, boot := { warning := true }, clk := { now := 10000000 } }, by decide⟩,
   ⟨{ boot := { selvedge := true }, selv := { learnLog := [.macDel 1 2] }, clk := { now := 1000000000 } }, by decide⟩,
   ⟨{ boot := { segWrite := some ⟨1, 0, [], false⟩ } }, ⟨1, 0, [], false⟩, by decide⟩,
   ⟨{ store := { learnLog := List.replicate 24 ⟨1, 0, [], false⟩ } }, by decide⟩,
   ⟨{ boot := { snapWrite := some ⟨4, 0, [], true⟩ } }, ⟨4, 0, [], true⟩, by decide⟩⟩

/-- The hypotheses of every clause of `Obligations.CabinetAndPinsOfTheBoard` can be met. -/
theorem wit_cabinetAndPinsOfTheBoard :
    (∃ (s : State), ∃ (a : List (Option (BitVec 16 × BitVec 16))), ∃ (r : Nat),
      asleep s = false ∧ a.length ≤ 13 ∧ r < 13) ∧
    (∃ (s : State), ∃ (on : Bool),
      asleep s = false) ∧
    (∃ (s : State), ∃ (se : Session), ∃ (i : BitVec 16), ∃ (j : BitVec 8),
      asleep s = true) :=
  ⟨⟨{}, [some (1, 2)], 0, by decide⟩,
   ⟨{}, true, by decide⟩,
   ⟨{ clk := { scan := true } }, .can 1, 0x1000, 0, by decide⟩⟩

/-- The hypotheses of every clause of `Obligations.DictionaryReadsAndCursors` can be met. -/
theorem wit_dictionaryReadsAndCursors :
    (∃ (s : State), ∃ (se : Session), ∃ (i : BitVec 16), ∃ (j : BitVec 8), ∃ (q : Obj × Option Nat),
      dictIdle s ∧ (locate (s.useSession se) se { code := 1, idx := i.toNat, sub := j.toNat }).toOption = some q ∧ cursorRows i.toNat = none ∧ (q.1.ty.isDom = true ∨ ((objVal (s.useSession se) se q.1 i.toNat j.toNat q.2).encode q.1.ty).length ≤ 4096)) ∧
    (∃ (s : State), ∃ (se : Session), ∃ (i : BitVec 16), ∃ (j : BitVec 8), ∃ (o : Obj),
      dictIdle s ∧ (locate (s.useSession se) se { code := 1, idx := i.toNat, sub := j.toNat }).toOption = some (o, none) ∧ cursorRows i.toNat = none ∧ o.cls = .rwp ∧ o.ty.isDom = false ∧ ((storedV s i.toNat j.toNat).encode o.ty).length ≤ 4096) ∧
    (∃ (s : State), ∃ (se : Session), ∃ (i : BitVec 16), ∃ (rows : Nat), ∃ (v : BitVec 32),
      dictIdle s ∧ cursorRows i.toNat = some rows ∧ (v.toNat < rows ∨ v = 0xFFFFFFFF)) ∧
    (∃ (s : State), ∃ (se : Session), ∃ (i : BitVec 16), ∃ (rows : Nat), ∃ (v : BitVec 32),
      dictIdle s ∧ cursorRows i.toNat = some rows ∧ rows ≤ v.toNat ∧ v ≠ 0xFFFFFFFF) ∧
    (∃ (s : State), ∃ (se : Session), ∃ (i : BitVec 16), ∃ (j : BitVec 8), ∃ (off : BitVec 32), ∃ (room : BitVec 13), ∃ (o : Obj),
      dictIdle s ∧ (locate (s.useSession se) se { code := 1, idx := i.toNat, sub := j.toNat, off := off.toNat, room := room.toNat }).toOption = some (o, none) ∧ cursorRows i.toNat = none ∧ o.cls = .rwp ∧ o.ty.isDom = true ∧ off.toNat ≤ (storedV s i.toNat j.toNat).raw.length) :=
  ⟨⟨{ boot := { selvedge := true } }, .can 5, 0x2012, 0, (ob 0x2012 0 .u16 .rwp 120 (.btw 10 3600), none), by decide⟩,
   ⟨{ boot := { selvedge := true } }, .can 5, 0x2012, 0, ob 0x2012 0 .u16 .rwp 120 (.btw 10 3600), by decide⟩,
   ⟨{ boot := { selvedge := true } }, .can 5, 0x8000, 65536, 0xFFFF, by decide⟩,
   ⟨{ boot := { selvedge := true } }, .can 5, 0x8002, 4096, 0x1000, by decide⟩,
   ⟨{ boot := { selvedge := true } }, .can 5, 0x4100, 0, 0, 8, ⟨0x4100, 0x41FF, 0, 0, .dom 16384, .rwp, .bytes [], .any⟩, by decide⟩⟩

/-- The hypotheses of every clause of `Obligations.DictionaryWritesEnterTheJournal` can be met. -/
theorem wit_dictionaryWritesEnterTheJournal :
    (∃ (s : State), ∃ (se : Session), ∃ (i : BitVec 16), ∃ (j : BitVec 8), ∃ (data : Bytes), ∃ (o : Obj), ∃ (row : Option Nat), ∃ (v : PVal),
      dictIdle s ∧ (locate (s.useSession se) se { code := 2, idx := i.toNat, sub := j.toNat, data := data }).toOption = some (o, row) ∧ cursorRows i.toNat = none ∧ o.cls = .rwp ∧ o.ty.isDom = false ∧ (decodeVal o data).toOption = some v ∧ acceptable (s.useSession se) o i.toNat j.toNat row v ∧ data.length ≤ 255) ∧
    (∃ (s : State), ∃ (se : Session), ∃ (i : BitVec 16), ∃ (j : BitVec 8), ∃ (data : Bytes), ∃ (o : Obj), ∃ (row : Option Nat), ∃ (e : Status),
      dictIdle s ∧ (locate (s.useSession se) se { code := 2, idx := i.toNat, sub := j.toNat, data := data }).toOption = some (o, row) ∧ cursorRows i.toNat = none ∧ o.cls = .rwp ∧ o.ty.isDom = false ∧ (match decodeVal o data with | .error x => some x | .ok _ => none) = some e) ∧
    (∃ (s : State), ∃ (se : Session), ∃ (w : DWrite), ∃ (o : Obj), ∃ (row : Option Nat), ∃ (v : PVal),
      dictIdle s ∧ (locate (s.useSession se) se { code := 2, idx := w.idx.toNat, sub := w.sub.toNat, data := w.data }).toOption = some (o, row) ∧ cursorRows w.idx.toNat = none ∧ o.cls = .rwp ∧ o.ty.isDom = false ∧ (decodeVal o w.data).toOption = some v ∧ acceptable (s.useSession se) o w.idx.toNat w.sub.toNat row v ∧ w.data.length ≤ 255) ∧
    (∃ (s : State), ∃ (se : Session), ∃ (i : BitVec 16), ∃ (j : BitVec 8), ∃ (off : BitVec 32), ∃ (data : Bytes), ∃ (o : Obj), ∃ (row : Option Nat), ∃ (b : Bytes),
      dictIdle s ∧ (locate (s.useSession se) se { code := 2, idx := i.toNat, sub := j.toNat, off := off.toNat, data := data }).toOption = some (o, row) ∧ cursorRows i.toNat = none ∧ o.cls ≠ .arg ∧ o.ty.isDom = true ∧ (staged (s.useSession se) se { code := 2, idx := i.toNat, sub := j.toNat, off := off.toNat, data := data }).toOption = some b ∧ (decodeVal o b).toOption.isSome = true) ∧
    (∃ (s : State), ∃ (se : Session), ∃ (i : BitVec 16), ∃ (j : BitVec 8), ∃ (off : BitVec 32), ∃ (data : Bytes), ∃ (o : Obj), ∃ (row : Option Nat), ∃ (b : Bytes), ∃ (v : PVal),
      dictIdle s ∧ (locate (s.useSession se) se { code := 3, idx := i.toNat, sub := j.toNat, off := off.toNat, data := data }).toOption = some (o, row) ∧ cursorRows i.toNat = none ∧ o.cls = .rwp ∧ o.ty.isDom = true ∧ (staged (s.useSession se) se { code := 3, idx := i.toNat, sub := j.toNat, off := off.toNat, data := data }).toOption = some b ∧ (decodeVal o b).toOption = some v ∧ acceptable (s.useSession se) o i.toNat j.toNat row v) :=
  ⟨⟨{ boot := { selvedge := true } }, .can 5, 0x2012, 0, [60, 0], ob 0x2012 0 .u16 .rwp 120 (.btw 10 3600), none, .num 60, by decide⟩,
   ⟨{ boot := { selvedge := true } }, .can 5, 0x2012, 0, [9, 0], ob 0x2012 0 .u16 .rwp 120 (.btw 10 3600), none, stRange, by decide⟩,
   ⟨{ boot := { selvedge := true } }, .can 5, ⟨0x2012, 0, [60, 0]⟩, ob 0x2012 0 .u16 .rwp 120 (.btw 10 3600), none, .num 60, by decide⟩,
   ⟨{ boot := { selvedge := true } }, .can 5, 0x4100, 0, 0, [1, 2], ⟨0x4100, 0x41FF, 0, 0, .dom 16384, .rwp, .bytes [], .any⟩, none, [1, 2], by decide⟩,
   ⟨{ boot := { selvedge := true } }, .can 5, 0x4600, 0, 0, [], ⟨0x4600, 0x47FF, 0, 0, .dom 512, .rwp, .bytes [], .any⟩, none, [], .bytes [], by decide⟩⟩

/-- The hypotheses of every clause of `Obligations.JournalCommitAndImage` can be met. -/
theorem wit_journalCommitAndImage :
    (∃ (s : State), ∃ (r : JRecord),
      asleep s = false ∧ s.dict.waiting = [] ∧ s.dict.openRec = some r) ∧
    (∃ (s : State), ∃ (r : JRecord), ∃ (rest : List JRecord),
      asleep s = false ∧ s.dict.waiting = r :: rest ∧ s.store.readOnly = false) ∧
    (∃ (s : State), ∃ (r : JRecord), ∃ (e : JEntry), ∃ (o : Obj),
      asleep s = false ∧ s.dict.waiting = [r] ∧ s.dict.openRec = none ∧ s.store.readOnly = false ∧ r.entries = [e] ∧ tabWf s.dict.params = true ∧ findObj e.idx.toNat e.sub.toNat = some o ∧ o.cls = .rwp ∧ e.row = none) ∧
    (∃ (s : State), ∃ (r : JRecord), ∃ (rest : List JRecord), ∃ (c : Fin 4),
      asleep s = false ∧ s.dict.waiting = r :: rest ∧ c.val < 3 ∧ s.store.spares = 0 ∧ s.store.readOnly = false) ∧
    (∃ (s : State), ∃ (r : JRecord), ∃ (rest : List JRecord), ∃ (bad : List Nat),
      asleep s = false ∧ s.store.journal = r :: rest ∧ storeOpen s = true ∧ mayReclaim s r = true ∧ bad.length ≤ s.store.spares) ∧
    (∃ (s : State),
      asleep s = false ∧ 65536 ≤ s.store.sinceLevel ∧ storeOpen s = true) :=
  ⟨⟨{ dict := { openRec := some { openedAt := 0, entries := [] } } }, { openedAt := 0, entries := [] }, by decide⟩,
   ⟨{ dict := { waiting := [{ openedAt := 0, entries := [⟨0, 1, 0x2012, 0, none, .num 60, 0, 0, .can 5, {}, {}, false⟩] }] }, boot := { selvedge := true } }, { openedAt := 0, entries := [⟨0, 1, 0x2012, 0, none, .num 60, 0, 0, .can 5, {}, {}, false⟩] }, [], by decide⟩,
   ⟨{ dict := { waiting := [{ openedAt := 0, entries := [⟨0, 1, 0x2012, 0, none, .num 60, 0, 0, .can 5, {}, {}, false⟩] }] }, boot := { selvedge := true } }, { openedAt := 0, entries := [⟨0, 1, 0x2012, 0, none, .num 60, 0, 0, .can 5, {}, {}, false⟩] }, ⟨0, 1, 0x2012, 0, none, .num 60, 0, 0, .can 5, {}, {}, false⟩, ob 0x2012 0 .u16 .rwp 120 (.btw 10 3600), by decide⟩,
   ⟨{ dict := { waiting := [{ openedAt := 0, entries := [] }] }, store := { spares := 0 } }, { openedAt := 0, entries := [] }, [], 1, by decide⟩,
   ⟨{ store := { journal := [{ openedAt := 0, entries := [] }] } }, { openedAt := 0, entries := [] }, [], [3], by decide⟩,
   ⟨{ store := { sinceLevel := 65536 } }, by decide⟩⟩

/-- The hypotheses of every clause of `Obligations.CanopenAndDatagramPaths` can be met. -/
theorem wit_canopenAndDatagramPaths :
    (∃ (s : State), ∃ (n : BitVec 8), ∃ (i : BitVec 16), ∃ (j : BitVec 8), ∃ (o : Obj),
      dictIdle s ∧ s.paths.busOff = false ∧ (locate s (.can n) { code := 1, idx := i.toNat, sub := j.toNat }).toOption = some (o, none) ∧ cursorRows i.toNat = none ∧ o.cls = .rwp ∧ o.ty.isDom = false ∧ ((storedV s i.toNat j.toNat).encode o.ty).length ≤ 4096) ∧
    (∃ (s : State),
      asleep s = false ∧ s.boot.selvedge = true ∧ s.paths.busOff = false) ∧
    (∃ (s : State),
      asleep s = false ∧ s.boot.selvedge = true ∧ s.paths.busOff = false) ∧
    (∃ (s : State),
      asleep s = false ∧ s.boot.selvedge = true ∧ s.paths.busOff = false) ∧
    (∃ (s : State),
      asleep s = false ∧ s.boot.selvedge = true ∧ s.paths.busOff = false) ∧
    (∃ (s : State),
      dictIdle s ∧ s.paths.busOff = false ∧ s.store.journal = [] ∧ s.store.readOnly = false) ∧
    (∃ (s : State),
      asleep s = false ∧ s.boot.selvedge = true ∧ s.paths.busOff = false ∧ par s 0x1017 0 ≠ 0 ∧ s.paths.heartbeat + par s 0x1017 0 * 1000000 ≤ s.clk.now) ∧
    (∃ (s : State), ∃ (vlan : BitVec 12), ∃ (ip : BitVec 128), ∃ (port : BitVec 16), ∃ (p : Bytes),
      asleep s = false ∧ s.boot.selvedge = true ∧ p.length ≤ 65507 ∧ (parB s 0x1FD1 2 = false ∨ dgramParse p = none)) ∧
    (∃ (s : State), ∃ (vlan : BitVec 12), ∃ (ip : BitVec 128), ∃ (port : BitVec 16), ∃ (p : Bytes), ∃ (id : Word), ∃ (g : Bool), ∃ (ops : List DOp), ∃ (b : Bytes), ∃ (q : DgSession),
      asleep s = false ∧ s.boot.selvedge = true ∧ p.length ≤ 65507 ∧ parB s 0x1FD1 2 = true ∧ s.paths.sessions = [q] ∧ q.se = .dgram ip port false ∧ q.answers = [(id, b)]) ∧
    (∃ (s : State), ∃ (vlan : BitVec 12), ∃ (ip : BitVec 128), ∃ (port : BitVec 16), ∃ (p : Bytes),
      dictIdle s ∧ p.length ≤ 65507 ∧ parB s 0x1FD1 2 = true ∧ s.paths.sessions = []) :=
  ⟨⟨{ boot := { selvedge := true } }, 5, 0x2012, 0, ob 0x2012 0 .u16 .rwp 120 (.btw 10 3600), by decide⟩,
   ⟨{ boot := { selvedge := true } }, by decide⟩,
   ⟨{ boot := { selvedge := true } }, by decide⟩,
   ⟨{ boot := { selvedge := true } }, by decide⟩,
   ⟨{ boot := { selvedge := true }, dict := { sess := [(.can 5, { stage := [(1, [2])] })] } }, by decide⟩,
   ⟨{ boot := { selvedge := true } }, by decide⟩,
   ⟨{ boot := { selvedge := true }, clk := { now := 1000000000 } }, by decide⟩,
   ⟨{ boot := { selvedge := true } }, 1, 7, 7, [1, 2], by decide⟩,
   ⟨{ boot := { selvedge := true }, paths := { sessions := [⟨.dgram 7 8 false, 0, [(3, [1])], []⟩] } }, 1, 7, 8, [], 3, false, [], [1], ⟨.dgram 7 8 false, 0, [(3, [1])], []⟩, by decide⟩,
   ⟨{ boot := { selvedge := true } }, 1, 7, 8, [], by decide⟩⟩

/-- The hypotheses of every clause of `Obligations.Bar2Window` can be met. -/
theorem wit_bar2Window :
    (∃ (s : State), ∃ (m : Master), ∃ (v : Word), ∃ (o : Obj),
      dictIdle s ∧ s.bar2.busy = false ∧ v.getLsbD 16 = false ∧ s.bar2.offset = 0 ∧ (locate s .bar2 { code := 1, idx := s.bar2.index.toNat, sub := s.bar2.sub.toNat, off := 0, room := 4096 }).toOption = some (o, none) ∧ cursorRows s.bar2.index.toNat = none ∧ o.cls = .rwp ∧ o.ty.isDom = false ∧ ((storedV s s.bar2.index.toNat s.bar2.sub.toNat).encode o.ty).length ≤ 4096 ∧ masterOk m = true) ∧
    (∃ (s : State), ∃ (m : Master), ∃ (v : Word), ∃ (o : Obj), ∃ (row : Option Nat), ∃ (x : PVal),
      dictIdle s ∧ s.bar2.busy = false ∧ s.bar2.group = [] ∧ s.bar2.offset = 0 ∧ (v.extractLsb' 0 13).toNat ≤ 255 ∧ (locate s .bar2 { code := 2, idx := s.bar2.index.toNat, sub := s.bar2.sub.toNat }).toOption = some (o, row) ∧ cursorRows s.bar2.index.toNat = none ∧ o.cls = .rwp ∧ o.ty.isDom = false ∧ (decodeVal o (bytesAt s.bar2.data 0 (v.extractLsb' 0 13).toNat)).toOption = some x ∧ acceptable s o s.bar2.index.toNat s.bar2.sub.toNat row x ∧ masterOk m = true) ∧
    (∃ (s : State), ∃ (m : Master), ∃ (v : Word), ∃ (o : Obj), ∃ (row : Option Nat), ∃ (x : PVal),
      dictIdle s ∧ s.bar2.busy = false ∧ v.getLsbD 16 = false ∧ s.bar2.offset = 0 ∧ (v.extractLsb' 0 13).toNat ≤ 4096 ∧ (locate s .bar2 { code := 3, idx := s.bar2.index.toNat, sub := s.bar2.sub.toNat }).toOption = some (o, row) ∧ cursorRows s.bar2.index.toNat = none ∧ o.cls = .rwp ∧ o.ty.isDom = true ∧ (decodeVal o (bytesAt s.bar2.data 0 (v.extractLsb' 0 13).toNat)).toOption = some x ∧ acceptable s o s.bar2.index.toNat s.bar2.sub.toNat row x ∧ masterOk m = true) ∧
    (∃ (s : State), ∃ (m : Master), ∃ (v : Word),
      dictIdle s ∧ s.bar2.busy = false ∧ v.extractLsb' 14 2 = 2 ∧ s.bar2.offset = 0 ∧ (v.extractLsb' 0 13).toNat ≤ 2784 ∧ s.bar2.group = [] ∧ groupable { code := 2, idx := s.bar2.index.toNat, sub := s.bar2.sub.toNat } = true ∧ cursorRows s.bar2.index.toNat = none ∧ masterOk m = true) ∧
    (∃ (s : State), ∃ (m : Master), ∃ (v : Word),
      asleep s = false ∧ s.boot.selvedge = true ∧ s.bar2.busy = true ∧ masterOk m = true) :=
  ⟨⟨{ boot := { selvedge := true }, bar2 := { index := 0x2012, data := [(0, 60)] } }, 0x240, 0, ob 0x2012 0 .u16 .rwp 120 (.btw 10 3600), by decide⟩,
   ⟨{ boot := { selvedge := true }, bar2 := { index := 0x2012, data := [(0, 60)] } }, 0x240, 2, ob 0x2012 0 .u16 .rwp 120 (.btw 10 3600), none, .num 60, by decide⟩,
   ⟨{ boot := { selvedge := true }, bar2 := { index := 0x4600 } }, 0x240, 0, ⟨0x4600, 0x47FF, 0, 0, .dom 512, .rwp, .bytes [], .any⟩, none, .bytes [], by decide⟩,
   ⟨{ boot := { selvedge := true }, bar2 := { index := 0x2012, data := [(0, 60)] } }, 0x240, 0x8002, by decide⟩,
   ⟨{ boot := { selvedge := true }, bar2 := { busy := true } }, 0x240, 0, by decide⟩⟩

/-- The hypotheses of every clause of `Obligations.RegisterAccesses` can be met. -/
theorem wit_registerAccesses :
    (∃ (s : State), ∃ (m : Master), ∃ (v : Word),
      asleep s = false ∧ masterOk m = true) ∧
    (∃ (s : State), ∃ (m : Master), ∃ (v : Word), ∃ (be : BitVec 4),
      asleep s = false ∧ be ≠ 0xF ∧ masterOk m = true) ∧
    (∃ (s : State), ∃ (m : Master), ∃ (v : Word),
      asleep s = false ∧ (s.boot.bootState = 0 ∨ s.boot.bootState = 3) ∧ masterOk m = true) ∧
    (∃ (s : State), ∃ (m : Master), ∃ (v : Word),
      asleep s = false ∧ s.boot.selvedge = true ∧ s.bar2.busy = false ∧ masterOk m = true) ∧
    (∃ (s : State), ∃ (m : Master), ∃ (v : Word), ∃ (hw : SameCycle),
      asleep s = false ∧ masterOk m = true) ∧
    (∃ (s : State), ∃ (m : Master), ∃ (hw : SameCycle),
      asleep s = false ∧ masterOk m = true) ∧
    (∃ (s : State), ∃ (m : Master), ∃ (p : Fin 4096),
      asleep s = false ∧ masterOk m = true) :=
  ⟨⟨{ dev := { armed := [0x240] } }, 0x240, 7, by decide⟩,
   ⟨{}, 0x240, 7, 7, by decide⟩,
   ⟨{ boot := { bootState := 0 } }, 0x240, 0x1200, by decide⟩,
   ⟨{ boot := { selvedge := true } }, 0x240, 0x201200, by decide⟩,
   ⟨{}, 0x240, 5, { inc := 2 }, by decide⟩,
   ⟨{ dev := { lockViol := 3 } }, 0x240, { inc := 1 }, by decide⟩,
   ⟨{}, 0x240, 4095, by decide⟩⟩

/-- The hypotheses of every clause of `Obligations.WideRegisterPairs` can be met. -/
theorem wit_wideRegisterPairs :
    (∃ (s : State), ∃ (m : Master), ∃ (off : BitVec 24), ∃ (n : Nat),
      asleep s = false ∧ wideLo (off.toNat / 8 * 8) = some n ∧ ¬ (0x45000 ≤ n ∧ n < 0x45040) ∧ masterOk m = true) ∧
    (∃ (s : State), ∃ (m : Master), ∃ (off : BitVec 24), ∃ (n : Nat), ∃ (v : Word),
      asleep s = false ∧ wideLo (off.toNat / 8 * 8) = some n ∧ tabWf s.dev.rdShadow = true ∧ look s.dev.rdShadow (shadowKey m n) = some v ∧ masterOk m = true) ∧
    (∃ (s : State), ∃ (m : Master), ∃ (off : BitVec 24), ∃ (n : Nat), ∃ (v : Word),
      asleep s = false ∧ wideLo (off.toNat / 8 * 8) = some n ∧ masterOk m = true) ∧
    (∃ (s : State), ∃ (m : Master), ∃ (lo : Word), ∃ (v : Word),
      asleep s = false ∧ look s.dev.wrShadow (shadowKey m 0x45100) = some lo ∧ masterOk m = true) ∧
    (∃ (s : State), ∃ (m : Master), ∃ (ch : Fin 32), ∃ (lo : Word), ∃ (v : Word),
      asleep s = false ∧ look s.dev.wrShadow (shadowKey m (0x10000 + 0x100 * ch.val)) = some lo ∧ (s.chan ch.val).state ≠ 1 ∧ (s.chan ch.val).state ≠ 2 ∧ masterOk m = true) :=
  ⟨⟨{ intc := { evBase := 0x123456780 } }, 0x240, 0x45100, 0x45100, by decide⟩,
   ⟨{ dev := { rdShadow := [(0x240 * 16777216 + 0x45100, 9)] } }, 0x240, 0x45104, 0x45100, 9, by decide⟩,
   ⟨{}, 0x240, 0x45100, 0x45100, 0x1000, by decide⟩,
   ⟨{ dev := { wrShadow := [(0x240 * 16777216 + 0x45100, 0x47)] } }, 0x240, 0x47, 1, by decide⟩,
   ⟨{ dev := { wrShadow := [(0x240 * 16777216 + 0x10100, 0x47)] } }, 0x240, 1, 0x47, 1, by decide⟩⟩

/-- The hypotheses of every clause of `Obligations.LocksAndInjection` can be met. -/
theorem wit_locksAndInjection :
    (∃ (s : State), ∃ (m : Master),
      asleep s = false ∧ masterOk m = true) ∧
    (∃ (s : State), ∃ (m : Master), ∃ (v : Word),
      asleep s = false ∧ v ≠ 0x57454654 ∧ masterOk m = true) ∧
    (∃ (s : State), ∃ (m : Master), ∃ (v : Word),
      asleep s = false ∧ s.dev.armed.contains m = true ∧ (v.extractLsb' 1 2 = 1 ∨ v.extractLsb' 1 2 = 2) ∧ masterOk m = true) ∧
    (∃ (s : State), ∃ (m : Master),
      asleep s = false ∧ s.dev.injGo = true ∧ s.dev.injKind = 1 ∧ masterOk m = true) ∧
    (∃ (s : State), ∃ (m : Master),
      asleep s = false ∧ s.dev.injGo = true ∧ s.dev.injKind = 2 ∧ masterOk m = true) ∧
    (∃ (s : State), ∃ (m : Master), ∃ (w : Fin 24),
      asleep s = false ∧ w.val < 21 ∧ masterOk m = true) ∧
    (∃ (s : State), ∃ (m : Master), ∃ (w : Fin 24), ∃ (v : Word),
      asleep s = false ∧ w.val < 21 ∧ masterOk m = true) ∧
    (∃ (s : State), ∃ (w : Fin 24), ∃ (x : IAccess), ∃ (e : Ecc),
      asleep s = false ∧ (s.window w).flight = [x] ∧ x.gone = false ∧ overdue s x = false ∧ iWaits s x.target.toNat = false ∧ controlBob s x.target.toNat = none) ∧
    (∃ (s : State), ∃ (w : Fin 24), ∃ (x : IAccess), ∃ (b : BobbinId),
      asleep s = false ∧ (s.window w).flight = [x] ∧ x.gone = false ∧ x.write = none ∧ overdue s x = false ∧ iWaits s x.target.toNat = false ∧ controlBob s x.target.toNat = some b ∧ (s.bob b).resetAt = none ∧ (s.bob b).held = [] ∧ (s.bob b).items = [(accessItem w x, false)] ∧ crossing s.clk.now (s.bob b).rdLog = [] ∧ crossing s.clk.now (s.bob b).wrLog = [] ∧ (s.bob b).wr = (s.bob b).rd + 1) ∧
    (∃ (s : State), ∃ (w : Fin 24), ∃ (x : IAccess),
      asleep s = false ∧ (s.window w).flight = [x] ∧ x.gone = false ∧ overdue s x = false ∧ iWaits s x.target.toNat = false ∧ x.write = none ∧ 0x4C9 ≤ x.target.toNat) ∧
    (∃ (s : State), ∃ (w : Fin 24), ∃ (x : IAccess),
      asleep s = false ∧ (s.window w).flight = [x] ∧ x.gone = false ∧ x.write = none ∧ x.issued + 20000 ≤ s.clk.now) :=
  ⟨⟨{}, 0x240, by decide⟩,
   ⟨{ dev := { armed := [0x240] } }, 0x240, 1, by decide⟩,
   ⟨{ dev := { armed := [0x240] } }, 0x240, 2, by decide⟩,
   ⟨{ dev := { injGo := true, injKind := 1, scratch := 5 } }, 0x240, by decide⟩,
   ⟨{ dev := { injGo := true, injKind := 2, scratch := 5 } }, 0x240, by decide⟩,
   ⟨{}, 0x240, 20, by decide⟩,
   ⟨{}, 0x240, 0, 3, by decide⟩,
   ⟨{ dev := { windows := [(1, { flight := [⟨0x240, 0xFFF, 0, none, 0, false⟩] })] } }, 1, ⟨0x240, 0xFFF, 0, none, 0, false⟩, .corrected, by decide⟩,
   ⟨{ dev := { windows := [(1, { flight := [⟨0x240, 0x003, 0, none, 0, false⟩] })] }, bobs := [(.controlTile 3, { items := [(accessItem 1 ⟨0x240, 0x003, 0, none, 0, false⟩, false)], wr := 1, resetAt := none })] }, 1, ⟨0x240, 0x003, 0, none, 0, false⟩, .controlTile 3, by decide⟩,
   ⟨{ dev := { windows := [(1, { flight := [⟨0x240, 0xFFF, 0, none, 0, false⟩] })] } }, 1, ⟨0x240, 0xFFF, 0, none, 0, false⟩, by decide⟩,
   ⟨{ clk := { now := 20000 }, dev := { windows := [(1, { flight := [⟨0x240, 0xFFF, 0, none, 0, false⟩] })] } }, 1, ⟨0x240, 0xFFF, 0, none, 0, false⟩, by decide⟩⟩

/-- The hypotheses of every clause of `Obligations.BobbinCrossings` can be met. -/
theorem wit_bobbinCrossings :
    (∃ (s : State), ∃ (b : BobbinId), ∃ (x : BitVec 256),
      asleep s = false ∧ (s.bob b).resetAt = none ∧ (s.bob b).held = [] ∧ crossing s.clk.now (s.bob b).rdLog = [] ∧ (s.bob b).wr < (s.bob b).rd + bobDepth b) ∧
    (∃ (s : State), ∃ (b : BobbinId), ∃ (x : BitVec 256),
      asleep s = false ∧ (s.bob b).rd + bobDepth b ≤ (s.bob b).wr ∧ (s.bob b).rdSeen + bobDepth b ≤ (s.bob b).wr ∧ (∀ u ∈ (s.bob b).rdLog, u.2 + bobDepth b ≤ (s.bob b).wr)) ∧
    (∃ (s : State), ∃ (b : BobbinId), ∃ (x : BitVec 256), ∃ (tag : Bool), ∃ (r : List (BitVec 256 × Bool)),
      asleep s = false ∧ (s.bob b).resetAt = none ∧ (s.bob b).held = [] ∧ (s.bob b).items = (x, tag) :: r ∧ crossing s.clk.now (s.bob b).wrLog = [] ∧ (s.bob b).rd < (s.bob b).wr) ∧
    (∃ (s : State), ∃ (b : BobbinId), ∃ (x : BitVec 256), ∃ (tag : Bool), ∃ (r : List (BitVec 256 × Bool)),
      asleep s = false ∧ (s.bob b).resetAt = none ∧ (s.bob b).held = [] ∧ (s.bob b).items = (x, tag) :: r ∧ crossing s.clk.now (s.bob b).wrLog = [] ∧ (s.bob b).rd < (s.bob b).wr) ∧
    (∃ (s : State), ∃ (b : BobbinId),
      asleep s = false ∧ (s.bob b).held = [] ∧ (s.bob b).wr ≤ (s.bob b).rd ∧ (s.bob b).wrSeen ≤ (s.bob b).rd ∧ (∀ u ∈ (s.bob b).wrLog, u.2 ≤ (s.bob b).rd)) :=
  ⟨⟨{ clk := { now := 10 }, bobs := [(.hint 3, { items := [(1, false), (2, false)], wr := 2, resetAt := none })] }, .hint 3, 7, by decide⟩,
   ⟨{ bobs := [(.timestamp, { items := [(1, false), (2, false), (3, false), (4, false)], wr := 4, resetAt := none })] }, .timestamp, 7, by decide⟩,
   ⟨{ clk := { now := 10 }, bobs := [(.hint 3, { items := [(1, false), (2, false)], wr := 2, resetAt := none })] }, .hint 3, 1, false, [(2, false)], by decide⟩,
   ⟨{ clk := { now := 10 }, bobs := [(.hint 3, { items := [(1, false), (2, false)], wr := 2, resetAt := none })] }, .hint 3, 1, false, [(2, false)], by decide⟩,
   ⟨{}, .slice 71, by decide⟩⟩

/-- The hypotheses of every clause of `Obligations.SlotClockAndTake` can be met. -/
theorem wit_slotClockAndTake :
    (∃ (s : State), ∃ (n : BitVec 16), ∃ (e : Enc),
      asleep s = false ∧ look s.encs n.toNat = some e ∧ (e.state = .starting ∨ e.state = .running ∨ e.state = .cold) ∧ e.stopping = false ∧ s.pair.switching = none ∧ nextTick e ≤ ptpTicks s ∧ (n = 0 → e.clock = clockOn s) ∧ enginePhys s (n.toNat % 8) ≠ 0xFF ∧ e.coding = none ∧ e.pending = none) ∧
    (∃ (s : State), ∃ (n : BitVec 16), ∃ (e : Enc),
      asleep s = false ∧ look s.encs n.toNat = some e ∧ (e.state = .starting ∨ e.state = .running ∨ e.state = .cold) ∧ e.stopping = false ∧ s.pair.switching = none ∧ nextTick e ≤ ptpTicks s ∧ (n = 0 → e.clock = clockOn s) ∧ enginePhys s (n.toNat % 8) ≠ 0xFF ∧ e.coding = none ∧ e.pending.isSome = true) ∧
    (∃ (s : State), ∃ (n : BitVec 16), ∃ (e : Enc),
      asleep s = false ∧ look s.encs n.toNat = some e ∧ (e.state = .starting ∨ e.state = .running ∨ e.state = .cold) ∧ e.stopping = false ∧ s.pair.switching = none ∧ nextTick e ≤ ptpTicks s ∧ (n = 0 → e.clock = clockOn s) ∧ enginePhys s (n.toNat % 8) ≠ 0xFF ∧ e.coding.isSome = true) ∧
    (∃ (s : State), ∃ (tile : Fin 64), ∃ (r : RecordRead), ∃ (bad : List Nat), ∃ (n : Nat), ∃ (e : Enc), ∃ (d : PendSlot),
      asleep s = false ∧ encPhys s tile ≠ 0xFF ∧ enginePhys s (tile / 8) ≠ 0xFF ∧ tileIdle s (encPhys s tile) = true ∧ swapDue s (encPhys s tile) = false ∧ takeCandidate s tile = some (n, e, d) ∧ treadleIdle (s.tile (encPhys s tile)).treadle ∧ encN s n ≤ unreserved s.pool ∧ r ≠ .both) ∧
    (∃ (s : State), ∃ (tile : Fin 64), ∃ (r : RecordRead), ∃ (bad : List Nat), ∃ (n : Nat), ∃ (e : Enc), ∃ (d : PendSlot),
      asleep s = false ∧ encPhys s tile ≠ 0xFF ∧ enginePhys s (tile / 8) ≠ 0xFF ∧ tileIdle s (encPhys s tile) = true ∧ swapDue s (encPhys s tile) = false ∧ takeCandidate s tile = some (n, e, d) ∧ unreserved s.pool < encN s n) ∧
    (∃ (s : State), ∃ (n : BitVec 16),
      asleep s = false ∧ encValid s n.toNat = true ∧ ((s.enc n.toNat).state = .stopped ∨ (s.enc n.toNat).state = .waitPool) ∧ (s.enc n.toNat).stopping = false ∧ (if fld s 0x8001 n.toNat 0x14 = 1 then s.boot.selvedge else s.boot.ddr) = true ∧ (s.pair.role = .standalone ∨ s.pair.role = .primary) ∧ contextFrames (encN s n.toNat) ≤ unreserved s.pool) ∧
    (∃ (s : State), ∃ (n : BitVec 16),
      asleep s = false ∧ encValid s n.toNat = true ∧ ((s.enc n.toNat).state = .stopped ∨ (s.enc n.toNat).state = .waitPool) ∧ (s.enc n.toNat).stopping = false ∧ (if fld s 0x8001 n.toNat 0x14 = 1 then s.boot.selvedge else s.boot.ddr) = true ∧ (s.pair.role = .standalone ∨ s.pair.role = .primary) ∧ unreserved s.pool < contextFrames (encN s n.toNat)) :=
  ⟨⟨{ encs := [(5, { state := .running, slotNext := 9, lastTick := 26950, grid := (100, 0) })], boot := { timeUp := true }, time := { ptp := 1000000 } }, 5, { state := .running, slotNext := 9, lastTick := 26950, grid := (100, 0) }, by decide⟩,
   ⟨{ encs := [(5, { state := .running, slotNext := 9, lastTick := 26950, grid := (100, 0), pending := some ⟨1, 2⟩ })], boot := { timeUp := true }, time := { ptp := 1000000 } }, 5, { state := .running, slotNext := 9, lastTick := 26950, grid := (100, 0), pending := some ⟨1, 2⟩ }, by decide⟩,
   ⟨{ encs := [(5, { state := .running, slotNext := 9, lastTick := 26950, grid := (100, 0), coding := some 4 })], boot := { timeUp := true }, time := { ptp := 1000000 } }, 5, { state := .running, slotNext := 9, lastTick := 26950, grid := (100, 0), coding := some 4 }, by decide⟩,
   ⟨{ tiles := [(45, { treadle := { upc := 0x40, waiting := true } })], encs := [(5, { state := .running, pending := some ⟨9, 100⟩, grid := (100, 0) })], pool := { hbmFrames := 100 }, dict := { params := [(pkey 0x8001 3 (some 5), .num 64), (pkey 0x8001 4 (some 5), .num 64)] } }, 40, .clean, [], 5, { state := .running, pending := some ⟨9, 100⟩, grid := (100, 0) }, ⟨9, 100⟩, by decide⟩,
   ⟨{ tiles := [(45, { treadle := { upc := 0x40, waiting := true } })], encs := [(5, { state := .running, pending := some ⟨9, 100⟩, grid := (100, 0) })], pool := { hbmFrames := 0 }, dict := { params := [(pkey 0x8001 3 (some 5), .num 64), (pkey 0x8001 4 (some 5), .num 64)] } }, 40, .clean, [], 5, { state := .running, pending := some ⟨9, 100⟩, grid := (100, 0) }, ⟨9, 100⟩, by decide⟩,
   ⟨{ boot := { selvedge := true }, pool := { hbmFrames := 100 } }, 0, by decide⟩,
   ⟨{ boot := { selvedge := true } }, 0, by decide⟩⟩

/-- The hypotheses of every clause of `Obligations.FrameJobsOfTheEngines` can be met. -/
theorem wit_frameJobsOfTheEngines :
    (∃ (s : State), ∃ (tile : Fin 64), ∃ (x : BitVec 256), ∃ (g : Bool), ∃ (r : List (BitVec 256 × Bool)),
      asleep s = false ∧ encPhys s tile ≠ 0xFF ∧ enginePhys s (tile / 8) ≠ 0xFF ∧ (s.bob (.frameUp (ftile (encPhys s tile)))).resetAt = none ∧ (s.bob (.frameUp (ftile (encPhys s tile)))).held = [] ∧ crossing s.clk.now (s.bob (.frameUp (ftile (encPhys s tile)))).wrLog = [] ∧ (s.bob (.frameUp (ftile (encPhys s tile)))).rd < (s.bob (.frameUp (ftile (encPhys s tile)))).wr ∧ (s.bob (.frameUp (ftile (encPhys s tile)))).items = (x, g) :: r ∧ jobEngine s tile = none ∧ s.batten.awaits tile (itemStream x) = false) ∧
    (∃ (s : State), ∃ (tile : Fin 64), ∃ (bad : List (Fin 64 × Nat)), ∃ (g : Nat), ∃ (j : Job),
      asleep s = false ∧ jobEngine s tile = some (g, j) ∧ jobFrame s (encPhys s tile) j = none ∧ j.nextCtu + 1 ≠ (ctuCols j.snap.w * ctuCols j.snap.h) ∧ discardRoom (((s.bobSrc (.ctu (ftile (encPhys s tile)) (flane (j.nextCtu / ctuCols j.snap.w % 2)))).bobSrc (.hint (ftile (encPhys s tile)))).bobSrc (.frameDown (ftile (encPhys s tile)))) (encPhys s tile) (j.nextCtu / ctuCols j.snap.w % 2) (jobComposes j (ctuCols j.snap.w)) false = true) ∧
    (∃ (s : State), ∃ (tile : Fin 64), ∃ (bad : List (Fin 64 × Nat)), ∃ (g : Nat), ∃ (j : Job),
      asleep s = false ∧ jobEngine s tile = some (g, j) ∧ jobFrame s (encPhys s tile) j = none ∧ j.nextCtu + 1 = (ctuCols j.snap.w * ctuCols j.snap.h) ∧ discardRoom (((s.bobSrc (.ctu (ftile (encPhys s tile)) (flane (j.nextCtu / ctuCols j.snap.w % 2)))).bobSrc (.hint (ftile (encPhys s tile)))).bobSrc (.frameDown (ftile (encPhys s tile)))) (encPhys s tile) (j.nextCtu / ctuCols j.snap.w % 2) (jobComposes j (ctuCols j.snap.w)) true = true) ∧
    (∃ (s : State), ∃ (tile : Fin 64), ∃ (bad : List (Fin 64 × Nat)), ∃ (g : Nat), ∃ (j : Job), ∃ (f : Frame),
      asleep s = false ∧ jobEngine s tile = some (g, j) ∧ jobFrame s (encPhys s tile) j = some f ∧ j.nextCtu + 1 ≠ (ctuCols j.snap.w * ctuCols j.snap.h) ∧ jobComposes j (ctuCols j.snap.w) = false ∧ composeRoom (((s.bobSrc (.ctu (ftile (encPhys s tile)) (flane (j.nextCtu / ctuCols j.snap.w % 2)))).bobSrc (.hint (ftile (encPhys s tile)))).bobSrc (.frameDown (ftile (encPhys s tile)))) (encPhys s tile) (j.nextCtu / ctuCols j.snap.w % 2) f false false = true) ∧
    (∃ (s : State), ∃ (tile : Fin 64), ∃ (bad : List (Fin 64 × Nat)), ∃ (g : Nat), ∃ (j : Job), ∃ (f : Frame),
      asleep s = false ∧ jobEngine s tile = some (g, j) ∧ jobFrame s (encPhys s tile) j = some f ∧ j.nextCtu + 1 ≠ (ctuCols j.snap.w * ctuCols j.snap.h) ∧ jobComposes j (ctuCols j.snap.w) = true ∧ composeRoom (((s.bobSrc (.ctu (ftile (encPhys s tile)) (flane (j.nextCtu / ctuCols j.snap.w % 2)))).bobSrc (.hint (ftile (encPhys s tile)))).bobSrc (.frameDown (ftile (encPhys s tile)))) (encPhys s tile) (j.nextCtu / ctuCols j.snap.w % 2) f true false = true) ∧
    (∃ (s : State), ∃ (tile : Fin 64), ∃ (x : BitVec 256), ∃ (g : Bool), ∃ (r : List (BitVec 256 × Bool)), ∃ (w : JobEnd),
      asleep s = false ∧ (s.bob (.frameUp (ftile (encPhys s tile)))).resetAt = none ∧ (s.bob (.frameUp (ftile (encPhys s tile)))).held = [] ∧ crossing s.clk.now (s.bob (.frameUp (ftile (encPhys s tile)))).wrLog = [] ∧ (s.bob (.frameUp (ftile (encPhys s tile)))).rd < (s.bob (.frameUp (ftile (encPhys s tile)))).wr ∧ (s.bob (.frameUp (ftile (encPhys s tile)))).items = (x, g) :: r ∧ look s.batten.ended tile = some w ∧ tabWf s.batten.ended = true ∧ w.gone = false ∧ jobEngine s tile = none) :=
  ⟨⟨{ clk := { now := 10 }, bobs := [(.frameUp 0, { items := [(frameStartItem 5 1 2 false 3, false)], wr := 1, resetAt := none })] }, 0, frameStartItem 5 1 2 false 3, false, [], by decide⟩,
   ⟨{ bobs := [(.ctu 0 0, { resetAt := none }), (.hint 0, { resetAt := none }), (.frameDown 0, { resetAt := none })], batten := { engines := [(0, { jobs := [(0, { stream := 5, slot := 3, refCol := 0, refCount := 0, full := true, snap := { w := 128, h := 64 }, damage := [] })] })] } }, 0, [], 0, { stream := 5, slot := 3, refCol := 0, refCount := 0, full := true, snap := { w := 128, h := 64 }, damage := [] }, by decide⟩,
   ⟨{ bobs := [(.ctu 0 0, { resetAt := none }), (.hint 0, { resetAt := none }), (.frameDown 0, { resetAt := none })], batten := { engines := [(0, { jobs := [(0, { stream := 5, slot := 3, refCol := 0, refCount := 0, full := true, snap := { w := 128, h := 64 }, damage := [], nextCtu := 1 })] })] } }, 0, [], 0, { stream := 5, slot := 3, refCol := 0, refCount := 0, full := true, snap := { w := 128, h := 64 }, damage := [], nextCtu := 1 }, by decide⟩,
   ⟨{ clk := { now := 10 }, tiles := [(0, { frame := some { stream := 5, slot := 3, boundary := 0, started := 0, first := false, codec := 0, sealMode := 0, refs := 2, width := 128, height := 64, refCol := 0, refCount := 0, full := false, sweepK := 1, sweepW := 1, reserved := 2 } })], batten := { engines := [(0, { jobs := [(0, { stream := 5, slot := 3, refCol := 0, refCount := 0, full := false, snap := { w := 128, h := 64 }, damage := [] })] })] } }, 0, [], 0, { stream := 5, slot := 3, refCol := 0, refCount := 0, full := false, snap := { w := 128, h := 64 }, damage := [] }, { stream := 5, slot := 3, boundary := 0, started := 0, first := false, codec := 0, sealMode := 0, refs := 2, width := 128, height := 64, refCol := 0, refCount := 0, full := false, sweepK := 1, sweepW := 1, reserved := 2 }, by decide⟩,
   ⟨{ clk := { now := 10 }, tiles := [(0, { frame := some { stream := 5, slot := 3, boundary := 0, started := 0, first := false, codec := 0, sealMode := 0, refs := 2, width := 128, height := 64, refCol := 0, refCount := 0, full := false, sweepK := 1, sweepW := 1, reserved := 2 } })], batten := { engines := [(0, { jobs := [(0, { stream := 5, slot := 3, refCol := 0, refCount := 0, full := true, snap := { w := 128, h := 64 }, damage := [] })] })] } }, 0, [], 0, { stream := 5, slot := 3, refCol := 0, refCount := 0, full := true, snap := { w := 128, h := 64 }, damage := [] }, { stream := 5, slot := 3, boundary := 0, started := 0, first := false, codec := 0, sealMode := 0, refs := 2, width := 128, height := 64, refCol := 0, refCount := 0, full := false, sweepK := 1, sweepW := 1, reserved := 2 }, by decide⟩,
   ⟨{ clk := { now := 10 }, bobs := [(.frameUp 0, { items := [(frameEndItem 5 false none 3, false)], wr := 1, resetAt := none })], batten := { ended := [(0, { stream := 5, snap := {}, damage := [1], subst := [], refCol := 0, refCount := 0, gone := false })] } }, 0, frameEndItem 5 false none 3, false, [], { stream := 5, snap := {}, damage := [1], subst := [], refCol := 0, refCount := 0, gone := false }, by decide⟩⟩

/-- The hypotheses of every clause of `Obligations.LanesCodeTheirCtus` can be met. -/
theorem wit_lanesCodeTheirCtus :
    (∃ (s : State), ∃ (tile : Fin 64), ∃ (lane : Fin 2), ∃ (p : Nat), ∃ (t0 : Tile), ∃ (f : Frame), ∃ (i : Nat), ∃ (l : List Nat),
      asleep s = false ∧ frameOf (s.pollTile tile) tile = some (p, t0, f) ∧ f.waiting lane.val = i :: l ∧ (f.lane lane.val).ctu = none ∧ f.waveOk i = true ∧ 256 ≤ ((s.pollTile tile).bobDst (.ctu (ftile p) lane)).bobAvail (.ctu (ftile p) lane) ∧ treadleIdle t0.treadle ∧ f.cut.rate = none ∧ cest t0 < scratchAt ((s.pollTile tile).enc f.stream) 0xF14) ∧
    (∃ (s : State), ∃ (tile : Fin 64), ∃ (lane : Fin 2), ∃ (p : Nat), ∃ (t0 : Tile), ∃ (f : Frame), ∃ (i : Nat), ∃ (l : List Nat), ∃ (c : Nat),
      asleep s = false ∧ frameOf (s.pollTile tile) tile = some (p, t0, f) ∧ f.waiting lane.val = i :: l ∧ (f.lane lane.val).ctu = none ∧ f.waveOk i = true ∧ 256 ≤ ((s.pollTile tile).bobDst (.ctu (ftile p) lane)).bobAvail (.ctu (ftile p) lane) ∧ treadleCalm t0.treadle ∧ f.cut.rate = some c ∧ c ≤ i) ∧
    (∃ (s : State), ∃ (tile : Fin 64), ∃ (lane : Fin 2), ∃ (p : Nat), ∃ (t0 : Tile), ∃ (f : Frame), ∃ (i : Nat), ∃ (l : List Nat),
      asleep s = false ∧ frameOf (s.pollTile tile) tile = some (p, t0, f) ∧ f.waiting lane.val = i :: l ∧ (f.lane lane.val).ctu = none ∧ f.waveOk i = true ∧ 256 ≤ ((s.pollTile tile).bobDst (.ctu (ftile p) lane)).bobAvail (.ctu (ftile p) lane) ∧ t0.treadle.stopped = true ∧ f.cut.rate = none) ∧
    (∃ (s : State), ∃ (tile : Fin 64), ∃ (lane : Fin 2), ∃ (p : Nat), ∃ (t0 : Tile), ∃ (f : Frame), ∃ (i : Nat), ∃ (c : FrameCtu),
      asleep s = false ∧ frameOf (s.pollTile tile) tile = some (p, t0, f) ∧ (f.lane lane.val).ctu = some i ∧ look f.ctus i = some c ∧ (f.lane lane.val).cleared = true ∧ c.path = none ∧ 256 ≤ ((s.pollTile tile).bobDst (.ctu (ftile p) lane)).bobAvail (.ctu (ftile p) lane) ∧ f.waveOk i = true ∧ f.draining = false ∧ treadleCalm t0.treadle ∧ ((((s.pollTile tile).bobDst (.ctu (ftile p) lane)).bob (.ctu (ftile p) lane)).items.take 256).all (fun q => !q.2) = true) ∧
    (∃ (s : State), ∃ (tile : Fin 64), ∃ (lane : Fin 2), ∃ (p : Nat), ∃ (t0 : Tile), ∃ (f : Frame), ∃ (i : Nat), ∃ (c : FrameCtu),
      asleep s = false ∧ frameOf (s.pollTile tile) tile = some (p, t0, f) ∧ (f.lane lane.val).ctu = some i ∧ look f.ctus i = some c ∧ (f.lane lane.val).cleared = true ∧ c.path = none ∧ 256 ≤ ((s.pollTile tile).bobDst (.ctu (ftile p) lane)).bobAvail (.ctu (ftile p) lane) ∧ f.waveOk i = true ∧ f.draining = false ∧ treadleCalm t0.treadle) ∧
    (∃ (s : State), ∃ (tile : Fin 64), ∃ (lane : Fin 2), ∃ (p : Nat), ∃ (t0 : Tile), ∃ (f : Frame), ∃ (b : Ecc), ∃ (x : BitVec 256), ∃ (g : Bool), ∃ (r : List (BitVec 256 × Bool)),
      asleep s = false ∧ frameOf s tile = some (p, t0, f) ∧ f.cut.hint = none ∧ f.hints < f.size ∧ treadleIdle t0.treadle ∧ (s.bob (.hint (ftile p))).resetAt = none ∧ (s.bob (.hint (ftile p))).held = [] ∧ crossing s.clk.now (s.bob (.hint (ftile p))).wrLog = [] ∧ (s.bob (.hint (ftile p))).rd < (s.bob (.hint (ftile p))).wr ∧ (s.bob (.hint (ftile p))).items = (x, g) :: r) ∧
    (∃ (s : State), ∃ (tile : Fin 64), ∃ (lane : Fin 2), ∃ (p : Nat), ∃ (t0 : Tile), ∃ (f : Frame), ∃ (i : Nat), ∃ (c : FrameCtu), ∃ (k : CtuClass), ∃ (qp : Nat), ∃ (b : Bool),
      asleep s = false ∧ frameOf (s.pollTile tile) tile = some (p, t0, f) ∧ (f.lane lane.val).ctu = some i ∧ look f.ctus i = some c ∧ c.path = some (.lane k qp b) ∧ (f.lane lane.val).started + ctuSlotNs ≤ s.clk.now ∧ f.handOffHeld (outletOf (s.pollTile tile) p) lane.val i = false ∧ f.draining = false ∧ ((f.lane lane.val).intra = true ∨ unusable (s.pollTile tile) f ((s.pollTile tile).enc f.stream) i c.hint = []) ∧ treadleCalm t0.treadle) ∧
    (∃ (s : State), ∃ (tile : Fin 64), ∃ (p : Nat), ∃ (t0 : Tile), ∃ (f : Frame), ∃ (i : Nat), ∃ (c : FrameCtu),
      asleep s = false ∧ frameOf (s.pollTile tile) tile = some (p, t0, f) ∧ f.nextCtu t0 (outletOf (s.pollTile tile) p) f.rowsDone = some (i, c) ∧ c.path = some .skip ∧ treadleCalm t0.treadle) ∧
    (∃ (s : State), ∃ (tile : Fin 64), ∃ (p : Nat), ∃ (t0 : Tile), ∃ (f : Frame),
      asleep s = false ∧ frameOf (s.pollTile tile) tile = some (p, t0, f) ∧ f.rowsDone < f.rows ∧ f.next f.rowsDone = f.cols ∧ t0.treadle.stalled = [] ∧ f.committed = true ∧ t0.out.freshCount < (outletOf (s.pollTile tile) p).room ∧ treadleCalm t0.treadle) ∧
    (∃ (s : State), ∃ (tile : Fin 64), ∃ (p : Nat), ∃ (t0 : Tile), ∃ (f : Frame), ∃ (i : BitVec 16), ∃ (c : FrameCtu),
      asleep s = false ∧ frameOf (s.pollTile tile) tile = some (p, t0, f) ∧ look f.ctus i.toNat = some c ∧ c.final = false ∧ f.atStake i.toNat = true ∧ (f.square i.toNat).all f.settledAt = true ∧ isLaneCoded c = true ∧ treadleCalm t0.treadle) :=
  ⟨⟨{ tiles := [(0, { frame := some { stream := 5, slot := 3, boundary := 0, started := 0, first := false, codec := 0, sealMode := 0, refs := 2, width := 64, height := 64, refCol := 0, refCount := 0, full := false, sweepK := 1, sweepW := 1, reserved := 2, ctus := [(0, { hint := ⟨0, false, true, false, 0, 0, 0, 0, 0⟩ })] }, treadle := { upc := 0x40, waiting := true } })], bobs := [(.ctu 0 0, { items := List.replicate 256 (0, false), wr := 256, wrSeen := 256, resetAt := none })], encs := [(5, { scratch := setBytes [] 0x114 (le 4 1000) })] }, 0, 0, 0, { frame := some { stream := 5, slot := 3, boundary := 0, started := 0, first := false, codec := 0, sealMode := 0, refs := 2, width := 64, height := 64, refCol := 0, refCount := 0, full := false, sweepK := 1, sweepW := 1, reserved := 2, ctus := [(0, { hint := ⟨0, false, true, false, 0, 0, 0, 0, 0⟩ })] }, treadle := { upc := 0x40, waiting := true } }, { stream := 5, slot := 3, boundary := 0, started := 0, first := false, codec := 0, sealMode := 0, refs := 2, width := 64, height := 64, refCol := 0, refCount := 0, full := false, sweepK := 1, sweepW := 1, reserved := 2, ctus := [(0, { hint := ⟨0, false, true, false, 0, 0, 0, 0, 0⟩ })] }, 0, [], by decide⟩,
   ⟨{ tiles := [(0, { frame := some { stream := 5, slot := 3, boundary := 0, started := 0, first := false, codec := 0, sealMode := 0, refs := 2, width := 64, height := 64, refCol := 0, refCount := 0, full := false, sweepK := 1, sweepW := 1, reserved := 2, ctus := [(0, { hint := ⟨0, false, true, false, 0, 0, 0, 0, 0⟩ })], cut := { rate := some 0 } }, treadle := { upc := 0x40, waiting := true } })], bobs := [(.ctu 0 0, { items := List.replicate 256 (0, false), wr := 256, wrSeen := 256, resetAt := none })] }, 0, 0, 0, { frame := some { stream := 5, slot := 3, boundary := 0, started := 0, first := false, codec := 0, sealMode := 0, refs := 2, width := 64, height := 64, refCol := 0, refCount := 0, full := false, sweepK := 1, sweepW := 1, reserved := 2, ctus := [(0, { hint := ⟨0, false, true, false, 0, 0, 0, 0, 0⟩ })], cut := { rate := some 0 } }, treadle := { upc := 0x40, waiting := true } }, { stream := 5, slot := 3, boundary := 0, started := 0, first := false, codec := 0, sealMode := 0, refs := 2, width := 64, height := 64, refCol := 0, refCount := 0, full := false, sweepK := 1, sweepW := 1, reserved := 2, ctus := [(0, { hint := ⟨0, false, true, false, 0, 0, 0, 0, 0⟩ })], cut := { rate := some 0 } }, 0, [], 0, by decide⟩,
   ⟨{ tiles := [(0, { frame := some { stream := 5, slot := 3, boundary := 0, started := 0, first := false, codec := 0, sealMode := 0, refs := 2, width := 64, height := 64, refCol := 0, refCount := 0, full := false, sweepK := 1, sweepW := 1, reserved := 2, ctus := [(0, { hint := ⟨0, false, true, false, 0, 0, 0, 0, 0⟩ })] }, treadle := { stopped := true } })], bobs := [(.ctu 0 0, { items := List.replicate 256 (0, false), wr := 256, wrSeen := 256, resetAt := none })] }, 0, 0, 0, { frame := some { stream := 5, slot := 3, boundary := 0, started := 0, first := false, codec := 0, sealMode := 0, refs := 2, width := 64, height := 64, refCol := 0, refCount := 0, full := false, sweepK := 1, sweepW := 1, reserved := 2, ctus := [(0, { hint := ⟨0, false, true, false, 0, 0, 0, 0, 0⟩ })] }, treadle := { stopped := true } }, { stream := 5, slot := 3, boundary := 0, started := 0, first := false, codec := 0, sealMode := 0, refs := 2, width := 64, height := 64, refCol := 0, refCount := 0, full := false, sweepK := 1, sweepW := 1, reserved := 2, ctus := [(0, { hint := ⟨0, false, true, false, 0, 0, 0, 0, 0⟩ })] }, 0, [], by decide⟩,
   ⟨{ tiles := [(0, { frame := some { stream := 5, slot := 3, boundary := 0, started := 0, first := false, codec := 0, sealMode := 0, refs := 2, width := 64, height := 64, refCol := 0, refCount := 0, full := false, sweepK := 1, sweepW := 1, reserved := 2, ctus := [(0, { hint := ⟨0, false, true, false, 0, 0, 0, 0, 0⟩ })], lane0 := { ctu := some 0, cleared := true } }, treadle := { upc := 0x40, waiting := true } })], bobs := [(.ctu 0 0, { items := List.replicate 256 (0, false), wr := 256, wrSeen := 256, resetAt := none })] }, 0, 0, 0, { frame := some { stream := 5, slot := 3, boundary := 0, started := 0, first := false, codec := 0, sealMode := 0, refs := 2, width := 64, height := 64, refCol := 0, refCount := 0, full := false, sweepK := 1, sweepW := 1, reserved := 2, ctus := [(0, { hint := ⟨0, false, true, false, 0, 0, 0, 0, 0⟩ })], lane0 := { ctu := some 0, cleared := true } }, treadle := { upc := 0x40, waiting := true } }, { stream := 5, slot := 3, boundary := 0, started := 0, first := false, codec := 0, sealMode := 0, refs := 2, width := 64, height := 64, refCol := 0, refCount := 0, full := false, sweepK := 1, sweepW := 1, reserved := 2, ctus := [(0, { hint := ⟨0, false, true, false, 0, 0, 0, 0, 0⟩ })], lane0 := { ctu := some 0, cleared := true } }, 0, { hint := ⟨0, false, true, false, 0, 0, 0, 0, 0⟩ }, by decide⟩,
   ⟨{ tiles := [(0, { frame := some { stream := 5, slot := 3, boundary := 0, started := 0, first := false, codec := 0, sealMode := 0, refs := 2, width := 64, height := 64, refCol := 0, refCount := 0, full := false, sweepK := 1, sweepW := 1, reserved := 2, ctus := [(0, { hint := ⟨0, false, true, false, 0, 0, 0, 0, 0⟩ })], lane0 := { ctu := some 0, cleared := true } }, treadle := { upc := 0x40, waiting := true } })], bobs := [(.ctu 0 0, { items := List.replicate 256 (0, false), wr := 256, wrSeen := 256, resetAt := none })] }, 0, 0, 0, { frame := some { stream := 5, slot := 3, boundary := 0, started := 0, first := false, codec := 0, sealMode := 0, refs := 2, width := 64, height := 64, refCol := 0, refCount := 0, full := false, sweepK := 1, sweepW := 1, reserved := 2, ctus := [(0, { hint := ⟨0, false, true, false, 0, 0, 0, 0, 0⟩ })], lane0 := { ctu := some 0, cleared := true } }, treadle := { upc := 0x40, waiting := true } }, { stream := 5, slot := 3, boundary := 0, started := 0, first := false, codec := 0, sealMode := 0, refs := 2, width := 64, height := 64, refCol := 0, refCount := 0, full := false, sweepK := 1, sweepW := 1, reserved := 2, ctus := [(0, { hint := ⟨0, false, true, false, 0, 0, 0, 0, 0⟩ })], lane0 := { ctu := some 0, cleared := true } }, 0, { hint := ⟨0, false, true, false, 0, 0, 0, 0, 0⟩ }, by decide⟩,
   ⟨{ tiles := [(0, { frame := some { stream := 5, slot := 3, boundary := 0, started := 0, first := false, codec := 0, sealMode := 0, refs := 2, width := 64, height := 64, refCol := 0, refCount := 0, full := false, sweepK := 1, sweepW := 1, reserved := 2 }, treadle := { upc := 0x40, waiting := true } })], clk := { now := 10 }, bobs := [(.hint 0, { items := [(0, false)], wr := 1, resetAt := none })] }, 0, 0, 0, { frame := some { stream := 5, slot := 3, boundary := 0, started := 0, first := false, codec := 0, sealMode := 0, refs := 2, width := 64, height := 64, refCol := 0, refCount := 0, full := false, sweepK := 1, sweepW := 1, reserved := 2 }, treadle := { upc := 0x40, waiting := true } }, { stream := 5, slot := 3, boundary := 0, started := 0, first := false, codec := 0, sealMode := 0, refs := 2, width := 64, height := 64, refCol := 0, refCount := 0, full := false, sweepK := 1, sweepW := 1, reserved := 2 }, .clean, 0, false, [], by decide⟩,
   ⟨{ tiles := [(0, { frame := some { stream := 5, slot := 3, boundary := 0, started := 0, first := false, codec := 0, sealMode := 0, refs := 2, width := 64, height := 64, refCol := 0, refCount := 0, full := false, sweepK := 1, sweepW := 1, reserved := 2, ctus := [(0, { hint := ⟨0, false, true, false, 0, 0, 0, 0, 0⟩, path := some (.lane .other 30 false) })], lane0 := { ctu := some 0, cleared := true, intra := true } }, treadle := { upc := 0x40, waiting := true } })], clk := { now := 4096 } }, 0, 0, 0, { frame := some { stream := 5, slot := 3, boundary := 0, started := 0, first := false, codec := 0, sealMode := 0, refs := 2, width := 64, height := 64, refCol := 0, refCount := 0, full := false, sweepK := 1, sweepW := 1, reserved := 2, ctus := [(0, { hint := ⟨0, false, true, false, 0, 0, 0, 0, 0⟩, path := some (.lane .other 30 false) })], lane0 := { ctu := some 0, cleared := true, intra := true } }, treadle := { upc := 0x40, waiting := true } }, { stream := 5, slot := 3, boundary := 0, started := 0, first := false, codec := 0, sealMode := 0, refs := 2, width := 64, height := 64, refCol := 0, refCount := 0, full := false, sweepK := 1, sweepW := 1, reserved := 2, ctus := [(0, { hint := ⟨0, false, true, false, 0, 0, 0, 0, 0⟩, path := some (.lane .other 30 false) })], lane0 := { ctu := some 0, cleared := true, intra := true } }, 0, { hint := ⟨0, false, true, false, 0, 0, 0, 0, 0⟩, path := some (.lane .other 30 false) }, .other, 30, false, by decide⟩,
   ⟨{ tiles := [(0, { frame := some { stream := 5, slot := 3, boundary := 0, started := 0, first := false, codec := 0, sealMode := 0, refs := 2, width := 64, height := 64, refCol := 0, refCount := 0, full := false, sweepK := 1, sweepW := 1, reserved := 2, ctus := [(0, { hint := ⟨0, false, true, false, 0, 0, 0, 0, 0⟩, path := some .skip, settled := true })] }, treadle := { upc := 0x40, waiting := true } })] }, 0, 0, { frame := some { stream := 5, slot := 3, boundary := 0, started := 0, first := false, codec := 0, sealMode := 0, refs := 2, width := 64, height := 64, refCol := 0, refCount := 0, full := false, sweepK := 1, sweepW := 1, reserved := 2, ctus := [(0, { hint := ⟨0, false, true, false, 0, 0, 0, 0, 0⟩, path := some .skip, settled := true })] }, treadle := { upc := 0x40, waiting := true } }, { stream := 5, slot := 3, boundary := 0, started := 0, first := false, codec := 0, sealMode := 0, refs := 2, width := 64, height := 64, refCol := 0, refCount := 0, full := false, sweepK := 1, sweepW := 1, reserved := 2, ctus := [(0, { hint := ⟨0, false, true, false, 0, 0, 0, 0, 0⟩, path := some .skip, settled := true })] }, 0, { hint := ⟨0, false, true, false, 0, 0, 0, 0, 0⟩, path := some .skip, settled := true }, by decide⟩,
   ⟨{ tiles := [(0, { frame := some { stream := 5, slot := 3, boundary := 0, started := 0, first := false, codec := 0, sealMode := 0, refs := 2, width := 64, height := 64, refCol := 0, refCount := 0, full := false, sweepK := 1, sweepW := 1, reserved := 2, ecNext := [(0, 1)], committed := true }, treadle := { upc := 0x40, waiting := true }, out := { nals := [⟨5, 3, 0, false, 1200, [1], false, true, false, 0, 0, 0, false⟩] } })] }, 0, 0, { frame := some { stream := 5, slot := 3, boundary := 0, started := 0, first := false, codec := 0, sealMode := 0, refs := 2, width := 64, height := 64, refCol := 0, refCount := 0, full := false, sweepK := 1, sweepW := 1, reserved := 2, ecNext := [(0, 1)], committed := true }, treadle := { upc := 0x40, waiting := true }, out := { nals := [⟨5, 3, 0, false, 1200, [1], false, true, false, 0, 0, 0, false⟩] } }, { stream := 5, slot := 3, boundary := 0, started := 0, first := false, codec := 0, sealMode := 0, refs := 2, width := 64, height := 64, refCol := 0, refCount := 0, full := false, sweepK := 1, sweepW := 1, reserved := 2, ecNext := [(0, 1)], committed := true }, by decide⟩,
   ⟨{ tiles := [(0, { frame := some { stream := 5, slot := 3, boundary := 0, started := 0, first := false, codec := 0, sealMode := 0, refs := 2, width := 64, height := 64, refCol := 0, refCount := 0, full := false, sweepK := 1, sweepW := 1, reserved := 2, ctus := [(0, { hint := ⟨0, false, true, false, 0, 0, 0, 0, 0⟩, path := some (.lane .other 30 false), settled := true })] }, treadle := { upc := 0x40, waiting := true } })] }, 0, 0, { frame := some { stream := 5, slot := 3, boundary := 0, started := 0, first := false, codec := 0, sealMode := 0, refs := 2, width := 64, height := 64, refCol := 0, refCount := 0, full := false, sweepK := 1, sweepW := 1, reserved := 2, ctus := [(0, { hint := ⟨0, false, true, false, 0, 0, 0, 0, 0⟩, path := some (.lane .other 30 false), settled := true })] }, treadle := { upc := 0x40, waiting := true } }, { stream := 5, slot := 3, boundary := 0, started := 0, first := false, codec := 0, sealMode := 0, refs := 2, width := 64, height := 64, refCol := 0, refCount := 0, full := false, sweepK := 1, sweepW := 1, reserved := 2, ctus := [(0, { hint := ⟨0, false, true, false, 0, 0, 0, 0, 0⟩, path := some (.lane .other 30 false), settled := true })] }, 0, { hint := ⟨0, false, true, false, 0, 0, 0, 0, 0⟩, path := some (.lane .other 30 false), settled := true }, by decide⟩⟩

/-- The hypotheses of every clause of `Obligations.FramesEndOrAreCut` can be met. -/
theorem wit_framesEndOrAreCut :
    (∃ (s : State), ∃ (tile : Fin 64), ∃ (p : Nat), ∃ (t0 : Tile), ∃ (f : Frame), ∃ (crc : Ecc),
      asleep s = false ∧ frameOf (s.pollTile tile) tile = some (p, t0, f) ∧ f.ready = true ∧ treadleIdle t0.treadle ∧ ((s.pollTile tile).enc f.stream).stopping = false) ∧
    (∃ (s : State), ∃ (tile : Fin 64), ∃ (p : Nat), ∃ (t0 : Tile), ∃ (f : Frame),
      asleep s = false ∧ frameOf s tile = some (p, t0, f) ∧ (s.enc f.stream).stopping = false ∧ f.started + min (4 * (s.enc f.stream).grid.1 * 1000 / 27) 100000000 ≤ s.clk.now) ∧
    (∃ (s : State), ∃ (tile : Fin 64), ∃ (p : Nat), ∃ (t0 : Tile), ∃ (f : Frame),
      asleep s = false ∧ frameOf (s.pollTile tile) tile = some (p, t0, f) ∧ ((s.pollTile tile).enc f.stream).stopping = false ∧ f.awaitsItem (s.pollTile tile) p = true ∧ f.lastItem + 1000000 ≤ s.clk.now) ∧
    (∃ (s : State), ∃ (tile : Fin 64), ∃ (n : Nat), ∃ (slot : Word), ∃ (r : List (Nat × Word)),
      asleep s = false ∧ (s.tile (encPhys s tile)).out.flush = (n, slot) :: r ∧ (s.tile (encPhys s tile)).out.packets = [] ∧ ((s.tile (encPhys s tile)).frame.all fun f => f.stream != n || f.slot != slot) = true ∧ treadleCalm (s.tile (encPhys s tile)).treadle) ∧
    (∃ (s : State), ∃ (tile : Fin 64), ∃ (x : NalOut), ∃ (r : List NalOut),
      asleep s = false ∧ (s.tile (encPhys s tile)).out.nals = x :: r ∧ (s.tile (encPhys s tile)).out.collected = [] ∧ (s.tile (encPhys s tile)).out.packets = [] ∧ (s.tile (encPhys s tile)).out.flush.contains (x.stream, x.slot) = false ∧ x.sent = 0 ∧ x.taken = 0 ∧ x.closed = true ∧ x.last = true ∧ x.tail = false ∧ x.data.length ≤ x.fu + 3 ∧ (∀ y ∈ x :: r, y.entered = y.whole ∧ y.taken = y.sent / 32) ∧ x.entered ≤ (s.bobDst (.slice (ftile (encPhys s tile)))).bobAvail (.slice (ftile (encPhys s tile))) ∧ (look s.encs x.stream).isSome = true) ∧
    (∃ (s : State), ∃ (tile : Fin 64), ∃ (bad : List Nat), ∃ (badM : List Nat), ∃ (g : Bool), ∃ (k : Packet), ∃ (r : List Packet),
      asleep s = false ∧ (s.tile (encPhys s tile)).out.packets = k :: r ∧ treadleCalm (s.tile (encPhys s tile)).treadle) ∧
    (∃ (s : State), ∃ (node : Fin 20), ∃ (q : Nat), ∃ (c : Copy), ∃ (r : List Copy),
      asleep s = false ∧ portFree s node = true ∧ ((pickPort s node.val).map fun p => p.queue) = some q ∧ (s.queue q).copies = c :: r) :=
  ⟨⟨{ tiles := [(0, { frame := some { stream := 5, slot := 3, boundary := 0, started := 0, first := false, codec := 0, sealMode := 0, refs := 2, width := 64, height := 64, refCol := 0, refCount := 0, full := false, sweepK := 1, sweepW := 1, reserved := 2, ctus := [(0, { hint := ⟨0, false, true, false, 0, 0, 0, 0, 0⟩, path := some .skip, settled := true, coded := true })], rowsDone := 1, sealVal := some 7, hints := 1, committed := true }, treadle := { upc := 0x40, waiting := true } })], encs := [(5, { state := .running })] }, 0, 0, { frame := some { stream := 5, slot := 3, boundary := 0, started := 0, first := false, codec := 0, sealMode := 0, refs := 2, width := 64, height := 64, refCol := 0, refCount := 0, full := false, sweepK := 1, sweepW := 1, reserved := 2, ctus := [(0, { hint := ⟨0, false, true, false, 0, 0, 0, 0, 0⟩, path := some .skip, settled := true, coded := true })], rowsDone := 1, sealVal := some 7, hints := 1, committed := true }, treadle := { upc := 0x40, waiting := true } }, { stream := 5, slot := 3, boundary := 0, started := 0, first := false, codec := 0, sealMode := 0, refs := 2, width := 64, height := 64, refCol := 0, refCount := 0, full := false, sweepK := 1, sweepW := 1, reserved := 2, ctus := [(0, { hint := ⟨0, false, true, false, 0, 0, 0, 0, 0⟩, path := some .skip, settled := true, coded := true })], rowsDone := 1, sealVal := some 7, hints := 1, committed := true }, .clean, by decide⟩,
   ⟨{ tiles := [(0, { frame := some { stream := 5, slot := 3, boundary := 0, started := 0, first := false, codec := 0, sealMode := 0, refs := 2, width := 64, height := 64, refCol := 0, refCount := 0, full := false, sweepK := 1, sweepW := 1, reserved := 2, ctus := [(0, { hint := ⟨0, false, true, false, 0, 0, 0, 0, 0⟩, path := some .skip, settled := true, coded := true })], rowsDone := 1, sealVal := some 7, hints := 1, committed := true } })], encs := [(5, { state := .running, grid := (1080000, 0) })], clk := { now := 100000000 } }, 0, 0, { frame := some { stream := 5, slot := 3, boundary := 0, started := 0, first := false, codec := 0, sealMode := 0, refs := 2, width := 64, height := 64, refCol := 0, refCount := 0, full := false, sweepK := 1, sweepW := 1, reserved := 2, ctus := [(0, { hint := ⟨0, false, true, false, 0, 0, 0, 0, 0⟩, path := some .skip, settled := true, coded := true })], rowsDone := 1, sealVal := some 7, hints := 1, committed := true } }, { stream := 5, slot := 3, boundary := 0, started := 0, first := false, codec := 0, sealMode := 0, refs := 2, width := 64, height := 64, refCol := 0, refCount := 0, full := false, sweepK := 1, sweepW := 1, reserved := 2, ctus := [(0, { hint := ⟨0, false, true, false, 0, 0, 0, 0, 0⟩, path := some .skip, settled := true, coded := true })], rowsDone := 1, sealVal := some 7, hints := 1, committed := true }, by decide⟩,
   ⟨{ tiles := [(0, { frame := some { stream := 5, slot := 3, boundary := 0, started := 0, first := false, codec := 0, sealMode := 0, refs := 2, width := 64, height := 64, refCol := 0, refCount := 0, full := false, sweepK := 1, sweepW := 1, reserved := 2 } })], encs := [(5, { state := .running })], clk := { now := 1000000 } }, 0, 0, { frame := some { stream := 5, slot := 3, boundary := 0, started := 0, first := false, codec := 0, sealMode := 0, refs := 2, width := 64, height := 64, refCol := 0, refCount := 0, full := false, sweepK := 1, sweepW := 1, reserved := 2 } }, { stream := 5, slot := 3, boundary := 0, started := 0, first := false, codec := 0, sealMode := 0, refs := 2, width := 64, height := 64, refCol := 0, refCount := 0, full := false, sweepK := 1, sweepW := 1, reserved := 2 }, by decide⟩,
   ⟨{ tiles := [(0, { treadle := { upc := 0x40, waiting := true }, out := { flush := [(5, 3)], nals := [⟨5, 3, 0, false, 1200, [1], true, true, true, 0, 0, 0, false⟩] } })] }, 0, 5, 3, [], by decide⟩,
   ⟨{ tiles := [(0, { out := { nals := [⟨5, 3, 0, false, 1200, [1, 2], true, true, true, 0, 1, 0, false⟩] } })], encs := [(5, { rtpSeq := 7 })], bobs := [(.slice 0, { items := [(0x201, false)], wr := 1, resetAt := none })] }, 0, ⟨5, 3, 0, false, 1200, [1, 2], true, true, true, 0, 1, 0, false⟩, [], by decide⟩,
   ⟨{ tiles := [(0, { treadle := { upc := 0x40, waiting := true }, out := { packets := [⟨5, 3, 7, true, [1, 2], 0, true, {}, 1⟩] } })] }, 0, [], [], false, ⟨5, 3, 7, true, [1, 2], 0, true, {}, 1⟩, [], by decide⟩,
   ⟨{ trans := { queues := [(65408, { copies := [{ data := [1, 2] }] })] }, selv := { links := 1 } }, 0, 65408, { data := [1, 2] }, [], by decide⟩⟩

/-- The hypotheses of every clause of `Obligations.BlocksAreHanded` can be met. -/
theorem wit_blocksAreHanded :
    (∃ (s : State), ∃ (m : Master), ∃ (h : Holder), ∃ (l : Bool),
      asleep s = false ∧ unreserved s.pool ≠ 0 ∧ freeFrames s.pool (freeFrames s.pool false == 0) ≠ 0 ∧ masterOk m = true) ∧
    (∃ (s : State), ∃ (m : Master), ∃ (h : Holder), ∃ (l : Bool),
      asleep s = false ∧ unreserved s.pool = 0 ∧ masterOk m = true) ∧
    (∃ (s : State), ∃ (m : Master), ∃ (b : BitVec 29), ∃ (g : BitVec 16), ∃ (h : Holder),
      asleep s = false ∧ (s.pool.desc b.toNat).gen = g ∧ masterOk m = true) ∧
    (∃ (s : State), ∃ (m : Master), ∃ (b : BitVec 29), ∃ (g : BitVec 16), ∃ (h : Holder),
      asleep s = false ∧ (s.pool.desc b.toNat).gen ≠ g ∧ masterOk m = true) ∧
    (∃ (s : State), ∃ (m : Master), ∃ (b : BitVec 29), ∃ (g : BitVec 16),
      asleep s = false ∧ (s.pool.desc b.toNat).gen = g ∧ (s.pool.desc b.toNat).count = 1 ∧ 2 ≤ b.toNat ∧ masterOk m = true) ∧
    (∃ (s : State), ∃ (m : Master), ∃ (b : BitVec 29), ∃ (g : BitVec 16),
      asleep s = false ∧ (s.pool.desc b.toNat).gen = g ∧ 1 < (s.pool.desc b.toNat).count ∧ masterOk m = true) ∧
    (∃ (s : State), ∃ (m : Master), ∃ (b : BitVec 29), ∃ (g : BitVec 16),
      asleep s = false ∧ ((s.pool.desc b.toNat).gen ≠ g ∨ (s.pool.desc b.toNat).count = 0 ∨ (b.toNat < 2 ∧ (s.pool.desc b.toNat).count = 1)) ∧ masterOk m = true) :=
  ⟨⟨{ pool := { hbmFrames := 100, descs := [(7, ⟨3, false, .shortTerm, 9, false, false, 1, .stream 5, [1]⟩)] } }, 0x240, .stream 5, false, by decide⟩,
   ⟨{}, 0x240, .stream 5, true, by decide⟩,
   ⟨{ pool := { hbmFrames := 100, descs := [(7, ⟨3, false, .shortTerm, 9, false, false, 1, .stream 5, [1]⟩)] } }, 0x240, 7, 9, .stream 6, by decide⟩,
   ⟨{ pool := { hbmFrames := 100, descs := [(7, ⟨3, false, .shortTerm, 9, false, false, 1, .stream 5, [1]⟩)] } }, 0x240, 7, 8, .stream 6, by decide⟩,
   ⟨{ pool := { hbmFrames := 100, descs := [(7, ⟨3, false, .shortTerm, 9, false, false, 1, .stream 5, [1]⟩)] } }, 0x240, 7, 9, by decide⟩,
   ⟨{ pool := { hbmFrames := 100, descs := [(7, ⟨3, false, .shortTerm, 9, false, false, 2, .stream 5, [1]⟩)] } }, 0x240, 7, 9, by decide⟩,
   ⟨{ pool := { hbmFrames := 100, descs := [(7, ⟨3, false, .shortTerm, 9, false, false, 0, .stream 5, [1]⟩)] } }, 0x240, 7, 9, by decide⟩⟩

/-- The hypotheses of every clause of `Obligations.PoolEngines` can be met. -/
theorem wit_poolEngines :
    (∃ (s : State), ∃ (h : BitVec 24), ∃ (w : Nat), ∃ (ht : Nat), ∃ (d10 : Bool), ∃ (sl : List Slot),
      asleep s = false ∧ (s.surface h.toNat).waiting = some (w, ht, d10, sl) ∧ (s.surface h.toNat).prev = none ∧ ((s.surface h.toNat).table = [] ∨ (s.surface h.toNat).pins ≠ 0)) ∧
    (∃ (s : State), ∃ (h : BitVec 24),
      asleep s = false ∧ (s.surface h.toNat).prev.isSome = true) ∧
    (∃ (s : State), ∃ (n : Nat), ∃ (e : Enc), ∃ (b : Nat),
      asleep s = false ∧ s.encs = [(n, e)] ∧ maySettle s n e = true ∧ settleBlocks s n e = [b] ∧ 100 * freeFrames s.pool false < s.pool.hbmFrames * par s 0x5030 1 ∧ 100 * (freeFrames s.pool false + (s.pool.cooling.filter fun c => c.1 == false).length) < s.pool.hbmFrames * par s 0x5030 2 ∧ (s.pool.desc b).count ≠ 0 ∧ (s.pool.desc b).ddr = false ∧ freeFrames s.pool true ≠ 0 ∧ unreserved s.pool ≠ 0) ∧
    (∃ (s : State),
      asleep s = false ∧ s.pool.hbmFrames * par s 0x5030 1 ≤ 100 * freeFrames s.pool false) ∧
    (∃ (s : State), ∃ (n : BitVec 16), ∃ (e : Enc), ∃ (f : Slot),
      asleep s = false ∧ look s.encs n.toNat = some e ∧ e.frames = [f] ∧ (nextTick e ≤ ptpTicks s + leadTicks s ∨ fld s 0x8001 n.toNat 0x14 = 1) ∧ (s.pool.desc f.block).count ≠ 0 ∧ (s.pool.desc f.block).ddr = true ∧ freeFrames s.pool false ≠ 0 ∧ unreserved s.pool ≠ 0) ∧
    (∃ (s : State), ∃ (b : BitVec 29), ∃ (up : Bool), ∃ (e : Ecc),
      asleep s = false ∧ (s.pool.desc b.toNat).count ≠ 0 ∧ (s.pool.desc b.toNat).ddr ≠ up ∧ freeFrames s.pool up ≠ 0 ∧ unreserved s.pool ≠ 0 ∧ e ≠ .corrected) ∧
    (∃ (s : State), ∃ (b : BitVec 29), ∃ (up : Bool),
      asleep s = false ∧ (s.pool.desc b.toNat).count ≠ 0 ∧ (s.pool.desc b.toNat).ddr ≠ up ∧ freeFrames s.pool up ≠ 0 ∧ unreserved s.pool ≠ 0) ∧
    (∃ (s : State),
      asleep s = false) ∧
    (∃ (s : State), ∃ (x : Act), ∃ (r : List Act),
      asleep s = false ∧ takeFirst (fun a : Act => a.idx.toNat == 0x5030 && a.sub.toNat == 5) s.dict.acts = some (x, r)) ∧
    (∃ (s : State), ∃ (t0 : Nat), ∃ (l : List Nat),
      asleep s = false ∧ s.pool.audit = some (t0, l) ∧ t0 + 1000000000 ≤ s.clk.now) ∧
    (∃ (s : State), ∃ (t0 : Nat), ∃ (l : List Nat),
      asleep s = false ∧ s.pool.audit = some (t0, l) ∧ s.clk.now < t0 + 1000000000) :=
  ⟨⟨{ pool := { surfaces := [(4, { waiting := some (64, 64, false, [{ block := 0, gen := 1 }]) , table := [{ block := 0, gen := 1 }], pins := 1 })] } }, 4, 64, 64, false, [{ block := 0, gen := 1 }], by decide⟩,
   ⟨{ pool := { surfaces := [(4, { waiting := some (64, 64, false, [{ block := 0, gen := 1 }]) , prev := some [] })] } }, 4, by decide⟩,
   ⟨{ encs := [(5, { frames := [{ block := 7, gen := 9 }], grid := (10000000, 0) })], pool := { hbmFrames := 1, ddrFrames := 4, descs := [(7, ⟨0, false, .shortTerm, 9, false, false, 1, .stream 5, [1]⟩)] } }, 5, { frames := [{ block := 7, gen := 9 }], grid := (10000000, 0) }, 7, by decide⟩,
   ⟨{ pool := { hbmFrames := 100 } }, by decide⟩,
   ⟨{ encs := [(5, { frames := [{ block := 7, gen := 9 }], grid := (10000000, 0) })], pool := { hbmFrames := 1, ddrFrames := 4, descs := [(7, ⟨0, true, .shortTerm, 9, false, false, 1, .stream 5, [1]⟩)] }, boot := { timeUp := true }, time := { ptp := 5000000000 } }, 5, { frames := [{ block := 7, gen := 9 }], grid := (10000000, 0) }, { block := 7, gen := 9 }, by decide⟩,
   ⟨{ encs := [(5, { frames := [{ block := 7, gen := 9 }], grid := (10000000, 0) })], pool := { hbmFrames := 1, ddrFrames := 4, descs := [(7, ⟨0, false, .shortTerm, 9, false, false, 1, .stream 5, [1]⟩)] } }, 7, true, .uncorrectable, by decide⟩,
   ⟨{ encs := [(5, { frames := [{ block := 7, gen := 9 }], grid := (10000000, 0) })], pool := { hbmFrames := 1, ddrFrames := 4, descs := [(7, ⟨0, false, .shortTerm, 9, false, false, 1, .stream 5, [1]⟩)] } }, 7, true, by decide⟩,
   ⟨{}, by decide⟩,
   ⟨{ dict := { acts := [{ idx := 0x5030, sub := 5, val := .num 1, tag := 0, se := .bar2 }] } }, { idx := 0x5030, sub := 5, val := .num 1, tag := 0, se := .bar2 }, [], by decide⟩,
   ⟨{ pool := { audit := some (0, [7]), hbmFrames := 100, descs := [(7, ⟨3, false, .shortTerm, 9, false, false, 1, .stream 5, [1]⟩)] }, clk := { now := 1000000000 } }, 0, [7], by decide⟩,
   ⟨{ pool := { audit := some (0, []) } }, 0, [], by decide⟩⟩

/-- The hypotheses of every clause of `Obligations.DecodePacketsEnterInOrder` can be met. -/
theorem wit_decodePacketsEnterInOrder :
    (∃ (s : State), ∃ (ctx : BitVec 12), ∃ (payload : Bytes), ∃ (l : List Bytes), ∃ (body : Bytes), ∃ (q : Nat),
      asleep s = false ∧ (s.dec ctx.toNat).inbox = payload :: l ∧ (s.dec ctx.toNat).live = true ∧ serves s = true ∧ decValid s ctx.toNat = true ∧ fld s 0x8003 ctx.toNat 2 = 2 ∧ fld s 0x8003 ctx.toNat 7 = 0 ∧ rtpPayload payload = some body ∧ u8 payload 0 / 64 = 2 ∧ (rxFor s ctx.toNat (BitVec.ofNat 32 (be32 payload 4))).pt = 0xFF ∧ u8 payload 1 / 128 = 0 ∧ (s.dec ctx.toNat).ssrc = some (BitVec.ofNat 32 (be32 payload 8)) ∧ (s.dec ctx.toNat).seqNext = some q ∧ q % 65536 = be16 payload 2 ∧ (s.dec ctx.toNat).beyond = [] ∧ (s.dec ctx.toNat).auRtp = some (BitVec.ofNat 32 (be32 payload 4)) ∧ (s.dec ctx.toNat).auDrop = false ∧ (s.dec ctx.toNat).frag = none ∧ 2 ≤ body.length ∧ 1 ≤ u8 body 0 % 32 ∧ u8 body 0 % 32 ≤ 23 ∧ ringHeld (s.dec ctx.toNat) + body.length ≤ (s.dec ctx.toNat).ringSize) ∧
    (∃ (s : State), ∃ (ctx : BitVec 12), ∃ (payload : Bytes), ∃ (l : List Bytes),
      asleep s = false ∧ (s.dec ctx.toNat).inbox = payload :: l ∧ (s.dec ctx.toNat).live = true ∧ serves s = true ∧ decValid s ctx.toNat = true ∧ fld s 0x8003 ctx.toNat 2 = 2 ∧ (rtpPayload payload).isSome = true) ∧
    (∃ (s : State), ∃ (ctx : BitVec 12), ∃ (k : HeldPkt),
      asleep s = false ∧ (s.dec ctx.toNat).beyond = [k] ∧ (s.dec ctx.toNat).seqNext.isSome = true ∧ k.at_ + 1000 * (if (s.dec ctx.toNat).auRtp.isSome then (s.dec ctx.toNat).rx else rxRow s ctx.toNat).reorder ≤ s.clk.now) ∧
    (∃ (s : State), ∃ (ctx : BitVec 12),
      asleep s = false ∧ decValid s ctx.toNat = true ∧ (s.dec ctx.toNat).live = true ∧ fld s 0x8003 ctx.toNat 7 = 0 ∧ (s.dec ctx.toNat).ssrc.isSome = true ∧ (s.dec ctx.toNat).lastPkt + 1000000000 ≤ s.clk.now) :=
  ⟨⟨{ dict := { params := [(pkey 0x8003 1 (some 5), .num 1), (pkey 0x8003 2 (some 5), .num 2), (pkey 0x8003 8 (some 5), .num 0xFF)] }, decs := [(5, { state := .decoding, ssrc := some 7, seqNext := some 65545, auRtp := some 3, live := true, inbox := [[0x80, 0x60, 0, 9, 0, 0, 0, 3, 0, 0, 0, 7, 0x41, 1, 2]] })] }, 5, [0x80, 0x60, 0, 9, 0, 0, 0, 3, 0, 0, 0, 7, 0x41, 1, 2], [], [0x41, 1, 2], 65545, by decide⟩,
   ⟨{ dict := { params := [(pkey 0x8003 1 (some 5), .num 1), (pkey 0x8003 2 (some 5), .num 2), (pkey 0x8003 8 (some 5), .num 0xFF)] }, decs := [(5, { state := .decoding, ssrc := some 7, seqNext := some 65545, auRtp := some 3, live := true, inbox := [[0x80, 0x60, 0, 9, 0, 0, 0, 3, 0, 0, 0, 7, 0x41, 1, 2]] })] }, 5, [0x80, 0x60, 0, 9, 0, 0, 0, 3, 0, 0, 0, 7, 0x41, 1, 2], [], by decide⟩,
   ⟨{ dict := { params := [(pkey 0x8003 1 (some 5), .num 1), (pkey 0x8003 2 (some 5), .num 2), (pkey 0x8003 8 (some 5), .num 0xFF)] }, decs := [(5, { state := .decoding, ssrc := some 7, seqNext := some 9, auRtp := some 3, beyond := [{ seq := 11, at_ := 100, marker := false, rtp := 3, payload := [0x41, 5] }] })], clk := { now := 100000000 } }, 5, { seq := 11, at_ := 100, marker := false, rtp := 3, payload := [0x41, 5] }, by decide⟩,
   ⟨{ dict := { params := [(pkey 0x8003 1 (some 5), .num 1), (pkey 0x8003 2 (some 5), .num 2), (pkey 0x8003 8 (some 5), .num 0xFF)] }, decs := [(5, { state := .decoding, ssrc := some 7, seqNext := some 65545, auRtp := some 3, live := true, inbox := [[0x80, 0x60, 0, 9, 0, 0, 0, 3, 0, 0, 0, 7, 0x41, 1, 2]] })], clk := { now := 1000000000 } }, 5, by decide⟩⟩

/-- The hypotheses of every clause of `Obligations.DecodeTilesAndOutput` can be met. -/
theorem wit_decodeTilesAndOutput :
    (∃ (s : State), ∃ (tile : Fin 32), ∃ (w : BitVec 16), ∃ (h : BitVec 16), ∃ (poc : BitVec 32), ∃ (c : Nat), ∃ (e : Dec), ∃ (au : AccessUnit), ∃ (r : List AccessUnit), ∃ (n : Nat),
      asleep s = false ∧ decPhys s tile ≠ 0xFF ∧ (s.dtile (decPhys s tile)).state = 0 ∧ (s.dtile (decPhys s tile)).powered = true ∧ s.decs = [(c, e)] ∧ c % 8 = tile.val / 4 ∧ e.queue = au :: r ∧ e.decoding = none ∧ n = (if au.codec = 3 then ctuCols e.rx.width * ctuCols e.rx.height else ctuCols w.toNat * ctuCols h.toNat) ∧ n + tableFrames n ≤ unreserved s.pool) ∧
    (∃ (s : State), ∃ (tile : Fin 32), ∃ (w : BitVec 16), ∃ (h : BitVec 16), ∃ (poc : BitVec 32), ∃ (c : Nat), ∃ (e : Dec), ∃ (au : AccessUnit), ∃ (r : List AccessUnit), ∃ (n : Nat),
      asleep s = false ∧ decPhys s tile ≠ 0xFF ∧ (s.dtile (decPhys s tile)).state = 0 ∧ (s.dtile (decPhys s tile)).powered = true ∧ s.decs = [(c, e)] ∧ c % 8 = tile.val / 4 ∧ e.queue = au :: r ∧ e.decoding = none ∧ n = (if au.codec = 3 then ctuCols e.rx.width * ctuCols e.rx.height else ctuCols w.toNat * ctuCols h.toNat) ∧ unreserved s.pool < n + tableFrames n) ∧
    (∃ (s : State), ∃ (tile : Fin 32), ∃ (f : PicFound), ∃ (c : Nat), ∃ (e : Dec), ∃ (g : Decoding),
      asleep s = false ∧ s.decs = [(c, e)] ∧ e.decoding = some g ∧ g.tile = (decPhys s tile) ∧ e.live = true ∧ (s.surfaceClear (decPhys s tile)).surfaceOpen (decPhys s tile) = true ∧ g.au.codec ≠ 3 ∧ f.supported = true ∧ f.tooLarge = false ∧ f.start = .irap ∧ f.newCvs = false ∧ f.named = [] ∧ f.uncovered = [] ∧ f.drop = [] ∧ f.outputs = [] ∧ f.isRef = true ∧ f.missingTop = none ∧ withinTable g.au.codec f.info = true ∧ e.dpb = []) ∧
    (∃ (s : State), ∃ (tile : Fin 32), ∃ (f : PicFound), ∃ (c : Nat), ∃ (e : Dec), ∃ (g : Decoding),
      asleep s = false ∧ s.decs = [(c, e)] ∧ e.decoding = some g ∧ g.tile = (decPhys s tile) ∧ e.live = true ∧ (s.surfaceClear (decPhys s tile)).surfaceOpen (decPhys s tile) = true ∧ g.au.codec ≠ 3 ∧ f.supported = false ∧ f.newCvs = false ∧ g.frames = []) ∧
    (∃ (s : State), ∃ (tile : Fin 32), ∃ (f : PicFound), ∃ (c : Nat), ∃ (e : Dec), ∃ (g : Decoding), ∃ (i : Ecc),
      asleep s = false ∧ s.decs = [(c, e)] ∧ e.decoding = some g ∧ g.tile = (decPhys s tile) ∧ e.live = true ∧ (s.surfaceClear (decPhys s tile)).surfaceOpen (decPhys s tile) = false ∧ g.au.codec ≠ 3) ∧
    (∃ (s : State), ∃ (ctx : BitVec 12), ∃ (x : Timed),
      asleep s = false ∧ (s.dec ctx.toNat).toCommit = [x] ∧ (s.dec ctx.toNat).live = true ∧ (s.dec ctx.toNat).state ≠ .recovering ∧ x.due ≤ s.time.ptp ∧ x.surf < s.pool.handles ∧ x.pic.blocks = [] ∧ x.pic.cropL = 0 ∧ x.pic.cropT = 0 ∧ (s.surface x.surf).waiting = none ∧ (s.surface x.surf).prev = none ∧ (s.surface x.surf).table = []) ∧
    (∃ (s : State), ∃ (tile : Fin 32), ∃ (i : Ecc), ∃ (c : Nat), ∃ (e : Dec), ∃ (g : Decoding),
      asleep s = false ∧ s.decs = [(c, e)] ∧ e.decoding = some g ∧ g.tile = (decPhys s tile) ∧ e.live = true ∧ (s.surfaceClear (decPhys s tile)).surfaceOpen (decPhys s tile) = true ∧ g.au.codec = 3) :=
  ⟨⟨{ decs := [(8, { state := .decoding, queue := [{ nals := [[1, 2]], rtp := 3, completeAt := 50, arrived := 0, codec := 0 }] })], pool := { hbmFrames := 9 } }, 0, 128, 64, 7, 8, { state := .decoding, queue := [{ nals := [[1, 2]], rtp := 3, completeAt := 50, arrived := 0, codec := 0 }] }, { nals := [[1, 2]], rtp := 3, completeAt := 50, arrived := 0, codec := 0 }, [], 2, by decide⟩,
   ⟨{ decs := [(8, { state := .decoding, queue := [{ nals := [[1, 2]], rtp := 3, completeAt := 50, arrived := 0, codec := 0 }] })], pool := { hbmFrames := 1 } }, 0, 128, 64, 7, 8, { state := .decoding, queue := [{ nals := [[1, 2]], rtp := 3, completeAt := 50, arrived := 0, codec := 0 }] }, { nals := [[1, 2]], rtp := 3, completeAt := 50, arrived := 0, codec := 0 }, [], 2, by decide⟩,
   ⟨{ bobs := [0, 1, 2, 3].map fun k => (BobbinId.surface 3 k, { resetAt := none }), dict := { params := [(pkey 0x8003 1 (some 8), .num 1)] }, decs := [(8, { state := .unsync, live := true, decoding := some { tile := 3, au := { nals := [[1, 2]], rtp := 3, completeAt := 50, arrived := 0, codec := 0 }, reserved := 2, startAny := true, withhold := false, surface := 0xFFFFFFFF, timed := false, delay := 0, poc := 4 } })], pool := { reserved := 2, hbmFrames := 9 } }, 3, { supported := true, newCvs := false, start := .irap, cropL := 0, cropT := 0, outW := 0, outH := 0, depth10 := false, info := 0x185D01, isRef := true, longTerm := false, output := false, tooLarge := false, named := [], generated := [], uncovered := [], slicesCut := 0, reads := [], refErrors := [], missingTop := none, itemTagged := false, remark := [], drop := [], outputs := [], binStall := 1, waitRef := 2 }, 8, { state := .unsync, live := true, decoding := some { tile := 3, au := { nals := [[1, 2]], rtp := 3, completeAt := 50, arrived := 0, codec := 0 }, reserved := 2, startAny := true, withhold := false, surface := 0xFFFFFFFF, timed := false, delay := 0, poc := 4 } }, { tile := 3, au := { nals := [[1, 2]], rtp := 3, completeAt := 50, arrived := 0, codec := 0 }, reserved := 2, startAny := true, withhold := false, surface := 0xFFFFFFFF, timed := false, delay := 0, poc := 4 }, by decide⟩,
   ⟨{ bobs := [0, 1, 2, 3].map fun k => (BobbinId.surface 3 k, { resetAt := none }), dict := { params := [(pkey 0x8003 1 (some 8), .num 1)] }, decs := [(8, { state := .unsync, live := true, decoding := some { tile := 3, au := { nals := [[1, 2]], rtp := 3, completeAt := 50, arrived := 0, codec := 0 }, reserved := 2, startAny := true, withhold := false, surface := 0xFFFFFFFF, timed := false, delay := 0, poc := 4 } })], pool := { reserved := 2, hbmFrames := 9 } }, 3, { supported := false, newCvs := false, start := .irap, cropL := 0, cropT := 0, outW := 0, outH := 0, depth10 := false, info := 0x185D01, isRef := true, longTerm := false, output := false, tooLarge := false, named := [], generated := [], uncovered := [], slicesCut := 0, reads := [], refErrors := [], missingTop := none, itemTagged := false, remark := [], drop := [], outputs := [], binStall := 1, waitRef := 2 }, 8, { state := .unsync, live := true, decoding := some { tile := 3, au := { nals := [[1, 2]], rtp := 3, completeAt := 50, arrived := 0, codec := 0 }, reserved := 2, startAny := true, withhold := false, surface := 0xFFFFFFFF, timed := false, delay := 0, poc := 4 } }, { tile := 3, au := { nals := [[1, 2]], rtp := 3, completeAt := 50, arrived := 0, codec := 0 }, reserved := 2, startAny := true, withhold := false, surface := 0xFFFFFFFF, timed := false, delay := 0, poc := 4 }, by decide⟩,
   ⟨{ clk := { now := 3 }, bobs := (.surface 3 2, {}) :: [0, 1, 2, 3].map fun k => (BobbinId.surface 3 k, { resetAt := some 3 }), dict := { params := [(pkey 0x8003 1 (some 8), .num 1)] }, decs := [(8, { state := .unsync, live := true, decoding := some { tile := 3, au := { nals := [[1, 2]], rtp := 3, completeAt := 50, arrived := 0, codec := 0 }, reserved := 2, startAny := true, withhold := false, surface := 0xFFFFFFFF, timed := false, delay := 0, poc := 4 } })], pool := { reserved := 2, hbmFrames := 9 } }, 3, { supported := false, newCvs := false, start := .irap, cropL := 0, cropT := 0, outW := 0, outH := 0, depth10 := false, info := 0x185D01, isRef := true, longTerm := false, output := false, tooLarge := false, named := [], generated := [], uncovered := [], slicesCut := 0, reads := [], refErrors := [], missingTop := none, itemTagged := false, remark := [], drop := [], outputs := [], binStall := 1, waitRef := 2 }, 8, { state := .unsync, live := true, decoding := some { tile := 3, au := { nals := [[1, 2]], rtp := 3, completeAt := 50, arrived := 0, codec := 0 }, reserved := 2, startAny := true, withhold := false, surface := 0xFFFFFFFF, timed := false, delay := 0, poc := 4 } }, { tile := 3, au := { nals := [[1, 2]], rtp := 3, completeAt := 50, arrived := 0, codec := 0 }, reserved := 2, startAny := true, withhold := false, surface := 0xFFFFFFFF, timed := false, delay := 0, poc := 4 }, .clean, by decide⟩,
   ⟨{ decs := [(8, { live := true, toCommit := [{ due := 100, pic := { poc := 4, cvs := 0, isRef := false, longTerm := false, output := true, rtp := 3, blocks := [], marks := [], width := 0, height := 0, outW := 0, outH := 0, cropL := 0, cropT := 0, depth10 := false, arrived := 0 }, surf := 4, tile := 3 }] })], time := { ptp := 100 } }, 8, { due := 100, pic := { poc := 4, cvs := 0, isRef := false, longTerm := false, output := true, rtp := 3, blocks := [], marks := [], width := 0, height := 0, outW := 0, outH := 0, cropL := 0, cropT := 0, depth10 := false, arrived := 0 }, surf := 4, tile := 3 }, by decide⟩,
   ⟨{ bobs := [0, 1, 2, 3].map fun k => (BobbinId.surface 3 k, { resetAt := none }), dict := { params := [(pkey 0x8003 1 (some 8), .num 1)] }, decs := [(8, { live := true, decoding := some { tile := 3, au := { nals := [], rtp := 3, completeAt := 50, arrived := 0, codec := 3 }, reserved := 1, startAny := true, withhold := false, surface := 0xFFFFFFFF, timed := false, delay := 0, rx := { width := 2, height := 2 } } })], pool := { reserved := 1, hbmFrames := 9 } }, 3, .clean, 8, { live := true, decoding := some { tile := 3, au := { nals := [], rtp := 3, completeAt := 50, arrived := 0, codec := 3 }, reserved := 1, startAny := true, withhold := false, surface := 0xFFFFFFFF, timed := false, delay := 0, rx := { width := 2, height := 2 } } }, { tile := 3, au := { nals := [], rtp := 3, completeAt := 50, arrived := 0, codec := 3 }, reserved := 1, startAny := true, withhold := false, surface := 0xFFFFFFFF, timed := false, delay := 0, rx := { width := 2, height := 2 } }, by decide⟩⟩

/-- The hypotheses of every clause of `Obligations.TreadleRuns` can be met. -/
theorem wit_treadleRuns :
    (∃ (s : State), ∃ (tile : Fin 72), ∃ (a : Nat),
      asleep s = false ∧ (s.tile tile).treadle.stopped = false ∧ (s.tile tile).treadle.safeTimer < 4096 ∧ (s.tile tile).treadle.upc.toNat = 0x4000 + a ∧ a < 1023 ∧ lookD 0 (s.tile tile).treadle.patchRam a = 0xF0000000 ∧ lookD 0 (s.tile tile).treadle.nanoPatch 0 = 0) ∧
    (∃ (s : State), ∃ (tile : Fin 72), ∃ (a : Nat),
      asleep s = false ∧ (s.tile tile).treadle.stopped = false ∧ (s.tile tile).treadle.safeTimer < 4096 ∧ (s.tile tile).treadle.upc.toNat = 0x4000 + a ∧ a < 1024 ∧ lookD 0 (s.tile tile).treadle.patchRam a = 0xF0038000 ∧ lookD 0 (s.tile tile).treadle.nanoPatch 0 = 0x2000000000 ∧ (s.tile tile).treadle.events = []) ∧
    (∃ (s : State), ∃ (tile : Fin 72),
      asleep s = false ∧ (s.tile tile).treadle.atRom = true ∧ (s.tile tile).treadle.safeTimer < 4096 ∧ (s.tile tile).treadle.upc = 0x40 ∧ (s.tile tile).treadle.events = []) ∧
    (∃ (s : State), ∃ (tile : Fin 72),
      asleep s = false ∧ (s.tile tile).treadle.stopped = false ∧ (s.tile tile).treadle.safeTimer < 4096 ∧ 0x4400 ≤ (s.tile tile).treadle.upc.toNat ∧ (s.tile tile).frame = none) ∧
    (∃ (s : State), ∃ (tile : Fin 72),
      asleep s = false ∧ (s.tile tile).treadle.stopped = false ∧ (s.tile tile).treadle.masked = false ∧ (s.tile tile).treadle.atSafe = true ∧ ((s.tile tile).treadle.cutReport.isSome = true ∨ (s.tile tile).treadle.abandon = true ∨ (s.tile tile).treadle.laneReq ≠ []) ∧ (s.tile tile).treadle.stack.length ≠ 8) ∧
    (∃ (s : State), ∃ (tile : Fin 72), ∃ (ev : Word),
      asleep s = false ∧ (s.tile tile).treadle.events.length < 64 ∧ (s.tile tile).treadle.stalled = []) ∧
    (∃ (s : State), ∃ (tile : Fin 72), ∃ (ev : Word),
      asleep s = false ∧ 64 ≤ (s.tile tile).treadle.events.length) ∧
    (∃ (s : State), ∃ (tile : Fin 72), ∃ (c : BitVec 3),
      asleep s = false ∧ c ≠ 0 ∧ (s.tile tile).treadle.stopped = false) ∧
    (∃ (s : State), ∃ (tile : Fin 72),
      asleep s = false ∧ 4096 ≤ (s.tile tile).treadle.safeTimer ∧ (s.tile tile).treadle.stopped = false) ∧
    (∃ (s : State), ∃ (tile : Fin 72),
      asleep s = false ∧ (s.tile tile).treadle.stopped = true) ∧
    (∃ (s : State), ∃ (tile : Fin 72),
      asleep s = false ∧ (s.tile tile).treadle.patch = 3 ∧ (s.tile tile).frame = none ∧ s.boot.newt = false ∧ parBytes s 0x5F00 0 = []) ∧
    (∃ (s : State), ∃ (tile : Fin 72),
      asleep s = false ∧ (s.tile tile).treadle.patch = 3 ∧ (s.tile tile).frame = none ∧ s.boot.newt = false ∧ parBytes s 0x5F00 0 ≠ []) :=
  ⟨⟨{ tiles := [(3, { treadle := { upc := 0x4001, patchRam := [(1, 0xF0000000)] } })] }, 3, 1, by decide⟩,
   ⟨{ tiles := [(3, { treadle := { upc := 0x4001, patchRam := [(1, 0xF0038000)], nanoPatch := [(0, 0x2000000000)] } })] }, 3, 1, by decide⟩,
   ⟨{ tiles := [(3, { treadle := { upc := 0x40 } })] }, 3, by decide⟩,
   ⟨{ tiles := [(3, { treadle := { upc := 0x4400 } })] }, 3, by decide⟩,
   ⟨{ tiles := [(3, { treadle := { upc := 7, laneReq := [{ lane := 1, idx := 3, cls := .other, first := false, since := 0 }] } })] }, 3, by decide⟩,
   ⟨{}, 3, 9, by decide⟩,
   ⟨{ tiles := [(3, { treadle := { events := List.replicate 64 1 } })] }, 3, 9, by decide⟩,
   ⟨{}, 3, 4, by decide⟩,
   ⟨{ tiles := [(3, { treadle := { safeTimer := 4096 } })] }, 3, by decide⟩,
   ⟨{ tiles := [(3, { treadle := { stopped := true } })] }, 3, by decide⟩,
   ⟨{ tiles := [(3, { treadle := { patch := 3, level := 4 } })] }, 3, by decide⟩,
   ⟨{ tiles := [(3, { treadle := { patch := 3 } })], dict := { params := [(pkey 0x5F00 0 none, .bytes (List.replicate 32 1))] } }, 3, by decide⟩⟩

/-- The hypotheses of every clause of `Obligations.PacketsThroughSelvedge` can be met. -/
theorem wit_packetsThroughSelvedge :
    (∃ (s : State), ∃ (port : Fin 16), ∃ (data : Bytes),
      asleep s = false ∧ data.length ≤ 16384 ∧ s.boot.selvedge = true ∧ linkUp s port = true ∧ portActive s port = true ∧ frontServes s = true ∧ (s.boot.timeUp = false ∨ isEventMessage { id := 0, port := port.val, seq := 0, data := data, parsed := parseFrame data, gen := 0 } = false)) ∧
    (∃ (s : State), ∃ (port : Fin 16), ∃ (data : Bytes),
      asleep s = false ∧ data.length ≤ 16384 ∧ s.boot.selvedge = true ∧ linkUp s port = true ∧ portActive s port = true ∧ frontServes s = true ∧ s.boot.timeUp = true ∧ isEventMessage { id := 0, port := port.val, seq := 0, data := data, parsed := parseFrame data, gen := 0 } = true) ∧
    (∃ (s : State), ∃ (k : Pkt),
      s.selv.arrivals = [(k, 1)] ∧ s.selv.buffered (k.port / 4) < 128 ∧ k.port < 16 ∧ (parseFrame k.data).problem = 0) ∧
    (∃ (s : State), ∃ (k : Pkt),
      s.selv.arrivals = [(k, 1)] ∧ s.selv.buffered (k.port / 4) < 128 ∧ k.port < 16 ∧ (parseFrame k.data).problem = 0 ∧ k.pass2 = none ∧ (s.selv.pipeline.all fun x => (x.verdict.isSome || x.engine.isSome) && x.id != s.selv.nextId) = true ∧ s.selv.engineFor.isSome = true ∧ k.verdict = none ∧ k.engine = none) ∧
    (∃ (s : State), ∃ (k : Pkt),
      s.selv.arrivals = [(k, 1)] ∧ s.selv.buffered (k.port / 4) < 128 ∧ k.port < 16 ∧ ((parseFrame k.data).problem = 3 ∨ (parseFrame k.data).problem = 4) ∧ parB s 0x3010 6 = false) ∧
    (∃ (s : State), ∃ (n : Nat), ∃ (k : Pkt),
      asleep s = false ∧ s.selv.pipeline.find? (fun x => x.id == n && x.verdict.isNone && x.engine.isSome) = some k ∧ matchRule s (s.selv.genOf k.gen) k = none) ∧
    (∃ (s : State), ∃ (n : Nat), ∃ (k : Pkt),
      asleep s = false ∧ s.selv.pipeline.find? (fun x => x.id == n && x.verdict.isNone && x.engine.isSome) = some k) ∧
    (∃ (s : State), ∃ (port : Fin 16), ∃ (k : Pkt),
      asleep s = false ∧ s.selv.pipeline.find? (fun x => x.port == port.val) = some k ∧ k.verdict = some (.drop true) ∧ k.copyToException = false) ∧
    (∃ (s : State), ∃ (port : Fin 16), ∃ (k : Pkt), ∃ (p : Nat),
      asleep s = false ∧ s.selv.pipeline.find? (fun x => x.port == port.val) = some k ∧ k.verdict = some .bridge ∧ k.pass2 = none ∧ k.copyToException = false ∧ vidOf s port k.parsed ≠ 4095 ∧ vlanMember s (vidOf s port k.parsed) k.port = true ∧ bridgePorts s k (vidOf s port k.parsed) = [p] ∧ p < 16 ∧ p ≠ k.port ∧ vlanMember s (vidOf s port k.parsed) p = true ∧ (s.queue (bridgeQueue p (pcpOf k.parsed))).depth < fld s 0x8007 (bridgeQueue p (pcpOf k.parsed)) 9 ∧ s.bpm.owners.length + cellsOf (egressFrame s k (vidOf s port k.parsed) p).length ≤ 262144 ∧ queuePort s (bridgeQueue p (pcpOf k.parsed)) = p ∧ linkUp s p = true) ∧
    (∃ (s : State), ∃ (port : Fin 16), ∃ (k : Pkt), ∃ (l : List Pkt), ∃ (x : Pkt), ∃ (r : List Pkt),
      asleep s = false ∧ takeFirst (fun k : Pkt => k.port == port.val) s.selv.ending = some (k, l) ∧ (s.trans.queues.all fun q => q.2.copies.all fun c => !(c.cutBy port)) = true ∧ takeFirst (fun x : Pkt => x.port == port.val && x.badEnd && !(match x.verdict with | some (.exception _) => true | _ => false)) s.selv.pipeline = some (x, r) ∧ parB s 0x3010 6 = false) :=
  ⟨⟨{ boot := { selvedge := true }, selv := { links := 1 } }, 0, [0x02, 0, 0, 0, 0, 1, 0x02, 0, 0, 0, 0, 2, 0x12, 0x34, 1, 2], by decide⟩,
   ⟨{ boot := { selvedge := true, timeUp := true }, selv := { links := 1 } }, 0, [1, 0x1B, 0x19, 0, 0, 0, 2, 0, 0, 0, 0, 2, 0x88, 0xF7, 0x00, 2], by decide⟩,
   ⟨{ selv := { arrivals := [({ id := 0, port := 0, seq := 0, data := [0x02, 0, 0, 0, 0, 1, 0x02, 0, 0, 0, 0, 2, 0x12, 0x34, 1, 2], parsed := parseFrame [0x02, 0, 0, 0, 0, 1, 0x02, 0, 0, 0, 0, 2, 0x12, 0x34, 1, 2], gen := 0 }, 1)] } }, { id := 0, port := 0, seq := 0, data := [0x02, 0, 0, 0, 0, 1, 0x02, 0, 0, 0, 0, 2, 0x12, 0x34, 1, 2], parsed := parseFrame [0x02, 0, 0, 0, 0, 1, 0x02, 0, 0, 0, 0, 2, 0x12, 0x34, 1, 2], gen := 0 }, by decide⟩,
   ⟨{ selv := { arrivals := [({ id := 0, port := 0, seq := 0, data := [0x02, 0, 0, 0, 0, 1, 0x02, 0, 0, 0, 0, 2, 0x12, 0x34, 1, 2], parsed := parseFrame [0x02, 0, 0, 0, 0, 1, 0x02, 0, 0, 0, 0, 2, 0x12, 0x34, 1, 2], gen := 0 }, 1)] } }, { id := 0, port := 0, seq := 0, data := [0x02, 0, 0, 0, 0, 1, 0x02, 0, 0, 0, 0, 2, 0x12, 0x34, 1, 2], parsed := parseFrame [0x02, 0, 0, 0, 0, 1, 0x02, 0, 0, 0, 0, 2, 0x12, 0x34, 1, 2], gen := 0 }, by decide⟩,
   ⟨{ selv := { arrivals := [({ id := 0, port := 0, seq := 0, data := [2, 0, 0, 0, 0, 1, 2, 0, 0, 0, 0, 2, 8, 0, 0x45, 0, 0, 1, 0, 0, 0, 0, 64, 17, 0, 0, 1, 2, 3, 4, 1, 2, 3, 5], parsed := parseFrame [2, 0, 0, 0, 0, 1, 2, 0, 0, 0, 0, 2, 8, 0, 0x45, 0, 0, 1, 0, 0, 0, 0, 64, 17, 0, 0, 1, 2, 3, 4, 1, 2, 3, 5], gen := 0 }, 1)] } }, { id := 0, port := 0, seq := 0, data := [2, 0, 0, 0, 0, 1, 2, 0, 0, 0, 0, 2, 8, 0, 0x45, 0, 0, 1, 0, 0, 0, 0, 64, 17, 0, 0, 1, 2, 3, 4, 1, 2, 3, 5], parsed := parseFrame [2, 0, 0, 0, 0, 1, 2, 0, 0, 0, 0, 2, 8, 0, 0x45, 0, 0, 1, 0, 0, 0, 0, 64, 17, 0, 0, 1, 2, 3, 4, 1, 2, 3, 5], gen := 0 }, by decide⟩,
   ⟨{ boot := { selvedge := true }, selv := { pipeline := [{ id := 3, port := 1, seq := 0, data := [0x02, 0, 0, 0, 0, 1, 0x02, 0, 0, 0, 0, 2, 0x12, 0x34, 1, 2], parsed := parseFrame [0x02, 0, 0, 0, 0, 1, 0x02, 0, 0, 0, 0, 2, 0x12, 0x34, 1, 2], gen := 0, engine := some 0 }] } }, 3, { id := 3, port := 1, seq := 0, data := [0x02, 0, 0, 0, 0, 1, 0x02, 0, 0, 0, 0, 2, 0x12, 0x34, 1, 2], parsed := parseFrame [0x02, 0, 0, 0, 0, 1, 0x02, 0, 0, 0, 0, 2, 0x12, 0x34, 1, 2], gen := 0, engine := some 0 }, by decide⟩,
   ⟨{ boot := { selvedge := true }, selv := { pipeline := [{ id := 3, port := 1, seq := 0, data := [0x02, 0, 0, 0, 0, 1, 0x02, 0, 0, 0, 0, 2, 0x12, 0x34, 1, 2], parsed := parseFrame [0x02, 0, 0, 0, 0, 1, 0x02, 0, 0, 0, 0, 2, 0x12, 0x34, 1, 2], gen := 0, engine := some 0 }] } }, 3, { id := 3, port := 1, seq := 0, data := [0x02, 0, 0, 0, 0, 1, 0x02, 0, 0, 0, 0, 2, 0x12, 0x34, 1, 2], parsed := parseFrame [0x02, 0, 0, 0, 0, 1, 0x02, 0, 0, 0, 0, 2, 0x12, 0x34, 1, 2], gen := 0, engine := some 0 }, by decide⟩,
   ⟨{ boot := { selvedge := true }, selv := { pipeline := [{ id := 3, port := 1, seq := 0, data := [0x02, 0, 0, 0, 0, 1, 0x02, 0, 0, 0, 0, 2, 0x12, 0x34, 1, 2], parsed := parseFrame [0x02, 0, 0, 0, 0, 1, 0x02, 0, 0, 0, 0, 2, 0x12, 0x34, 1, 2], gen := 0, verdict := some (.drop true) }] } }, 1, { id := 3, port := 1, seq := 0, data := [0x02, 0, 0, 0, 0, 1, 0x02, 0, 0, 0, 0, 2, 0x12, 0x34, 1, 2], parsed := parseFrame [0x02, 0, 0, 0, 0, 1, 0x02, 0, 0, 0, 0, 2, 0x12, 0x34, 1, 2], gen := 0, verdict := some (.drop true) }, by decide⟩,
   ⟨{ boot := { selvedge := true }, selv := { pipeline := [{ id := 3, port := 1, seq := 0, data := [0x02, 0, 0, 0, 0, 1, 0x02, 0, 0, 0, 0, 2, 0x12, 0x34, 1, 2], parsed := parseFrame [0x02, 0, 0, 0, 0, 1, 0x02, 0, 0, 0, 0, 2, 0x12, 0x34, 1, 2], gen := 0, dst := some { mac := 0x020000000001, vlan := 1, dest := 0 }, verdict := some .bridge }], links := 1 } }, 1, { id := 3, port := 1, seq := 0, data := [0x02, 0, 0, 0, 0, 1, 0x02, 0, 0, 0, 0, 2, 0x12, 0x34, 1, 2], parsed := parseFrame [0x02, 0, 0, 0, 0, 1, 0x02, 0, 0, 0, 0, 2, 0x12, 0x34, 1, 2], gen := 0, dst := some { mac := 0x020000000001, vlan := 1, dest := 0 }, verdict := some .bridge }, 0, by decide⟩,
   ⟨{ boot := { selvedge := true }, selv := { ending := [{ id := 3, port := 1, seq := 0, data := [0x02, 0, 0, 0, 0, 1, 0x02, 0, 0, 0, 0, 2, 0x12, 0x34, 1, 2], parsed := parseFrame [0x02, 0, 0, 0, 0, 1, 0x02, 0, 0, 0, 0, 2, 0x12, 0x34, 1, 2], gen := 0, badEnd := true, verdict := some .bridge }], pipeline := [{ id := 3, port := 1, seq := 0, data := [0x02, 0, 0, 0, 0, 1, 0x02, 0, 0, 0, 0, 2, 0x12, 0x34, 1, 2], parsed := parseFrame [0x02, 0, 0, 0, 0, 1, 0x02, 0, 0, 0, 0, 2, 0x12, 0x34, 1, 2], gen := 0, badEnd := true, verdict := some .bridge }] } }, 1, { id := 3, port := 1, seq := 0, data := [0x02, 0, 0, 0, 0, 1, 0x02, 0, 0, 0, 0, 2, 0x12, 0x34, 1, 2], parsed := parseFrame [0x02, 0, 0, 0, 0, 1, 0x02, 0, 0, 0, 0, 2, 0x12, 0x34, 1, 2], gen := 0, badEnd := true, verdict := some .bridge }, [], { id := 3, port := 1, seq := 0, data := [0x02, 0, 0, 0, 0, 1, 0x02, 0, 0, 0, 0, 2, 0x12, 0x34, 1, 2], parsed := parseFrame [0x02, 0, 0, 0, 0, 1, 0x02, 0, 0, 0, 0, 2, 0x12, 0x34, 1, 2], gen := 0, badEnd := true, verdict := some .bridge }, [], by decide⟩⟩

/-- The hypotheses of every clause of `Obligations.LearningAndTheLinks` can be met. -/
theorem wit_learningAndTheLinks :
    (∃ (s : State), ∃ (ev : Learn), ∃ (r : List Learn), ∃ (i : Nat),
      asleep s = false ∧ s.selv.learns = ev :: r ∧ (s.selv.cmds = [] ∨ s.selv.cmdTurn = false) ∧ macFind s.selv ev.vlan ev.mac = none ∧ lowestGap (bucketAt s.selv (macBucket ev.vlan ev.mac)) 4 = some i) ∧
    (∃ (s : State), ∃ (ev : Learn), ∃ (r : List Learn), ∃ (pos : Nat), ∃ (e : MacEntry),
      asleep s = false ∧ s.selv.learns = ev :: r ∧ (s.selv.cmds = [] ∨ s.selv.cmdTurn = false) ∧ macFind s.selv ev.vlan ev.mac = some (pos, e) ∧ e.dest.toNat ≠ ev.port ∧ e.static = false ∧ e.suspended = false ∧ e.moves.toNat + 1 ≤ par s 0x3010 2 ∧ e.moves.toNat < 15) ∧
    (∃ (s : State), ∃ (i : Nat), ∃ (e : MacEntry), ∃ (e1 : MacEntry),
      asleep s = false ∧ serves s = true ∧ s.selv.lastScan + 1000000000 ≤ s.clk.now ∧ s.selv.buckets = [] ∧ s.selv.overflow = [(i, e)] ∧ aged (par s 0x3010 1) e = some e1) ∧
    (∃ (s : State), ∃ (i : Nat), ∃ (e : MacEntry),
      asleep s = false ∧ serves s = true ∧ s.selv.lastScan + 1000000000 ≤ s.clk.now ∧ s.selv.buckets = [] ∧ s.selv.overflow = [(i, e)] ∧ e.static = false ∧ e.group = false ∧ e.hit = false ∧ par s 0x3010 1 ≤ e.age.toNat + 1 ∧ e.age.toNat < 1048575) ∧
    (∃ (s : State), ∃ (x : Act), ∃ (r : List Act), ∃ (g : RuleGen),
      asleep s = false ∧ takeFirst (fun a : Act => a.idx.toNat == 0x3031 && a.sub.toNat == 1) s.dict.acts = some (x, r) ∧ s.selv.standby = some g ∧ storeOpen s = true ∧ s.boot.replayed = true) ∧
    (∃ (s : State), ∃ (x : Act), ∃ (r : List Act), ∃ (g : RuleGen),
      asleep s = false ∧ takeFirst (fun a : Act => a.idx.toNat == 0x3031 && a.sub.toNat == 1) s.dict.acts = some (x, r) ∧ s.selv.standby = some g ∧ (storeOpen s = false ∨ s.boot.replayed = false)) ∧
    (∃ (s : State), ∃ (port : Fin 16), ∃ (v : BitVec 12), ∃ (mac : BitVec 48),
      asleep s = false ∧ parB s 0x3060 1 = true) ∧
    (∃ (s : State), ∃ (port : Fin 16), ∃ (v : BitVec 12), ∃ (mac : BitVec 48), ∃ (u : Nat),
      asleep s = false ∧ parB s 0x3060 1 = true ∧ parB s 0x3060 3 = false ∧ alook s.selv.members (v, mac, port.val) = some u) ∧
    (∃ (s : State), ∃ (port : Fin 16), ∃ (v : BitVec 12), ∃ (mac : BitVec 48), ∃ (u : Nat),
      asleep s = false ∧ parB s 0x3060 1 = true ∧ parB s 0x3060 3 = true ∧ s.selv.members = [((v, mac, port.val), u)]) ∧
    (∃ (s : State), ∃ (port : Fin 16), ∃ (v : BitVec 12), ∃ (q : Bool), ∃ (ip : BitVec 128),
      asleep s = false ∧ parB s 0x3060 1 = true) ∧
    (∃ (s : State), ∃ (port : Fin 16), ∃ (v : BitVec 12), ∃ (mac : BitVec 48), ∃ (u : Nat),
      asleep s = false ∧ serves s = true ∧ s.selv.members = [((v, mac, port.val), u)] ∧ u ≤ s.clk.now) ∧
    (∃ (s : State), ∃ (port : Fin 16), ∃ (v : BitVec 12), ∃ (u : Nat),
      asleep s = false ∧ serves s = true ∧ s.selv.routers = [((v, port.val), u)] ∧ u ≤ s.clk.now) ∧
    (∃ (s : State), ∃ (v : BitVec 12),
      asleep s = false ∧ serves s = true ∧ parB s 0x3060 4 = true ∧ parB s 0x3060 1 = true ∧ look s.selv.lastQuery (2 * v.toNat) = none ∧ look s.selv.lastQuery (2 * v.toNat + 1) = none ∧ otherQuerier s v true = false ∧ otherQuerier s v false = false ∧ vlanEntry s v.toNat % 65536 ≠ 0) ∧
    (∃ (s : State), ∃ (port : Fin 16),
      asleep s = false ∧ linkUp s port = true) ∧
    (∃ (s : State), ∃ (port : Fin 16),
      asleep s = false ∧ s.boot.selvedge = true ∧ portActive s port = true) :=
  ⟨⟨{ boot := { selvedge := true }, selv := { learns := [{ vlan := 1, mac := 0x020000000002, port := 3 }] } }, { vlan := 1, mac := 0x020000000002, port := 3 }, [], 0, by decide⟩,
   ⟨{ boot := { selvedge := true }, selv := { learns := [{ vlan := 1, mac := 0x020000000002, port := 3 }], overflow := [(0, { mac := 0x020000000002, vlan := 1, dest := 5 })] } }, { vlan := 1, mac := 0x020000000002, port := 3 }, [], 262144, { mac := 0x020000000002, vlan := 1, dest := 5 }, by decide⟩,
   ⟨{ clk := { now := 1000000000 }, selv := { overflow := [(2, { mac := 5, vlan := 1, dest := 5, hit := true, age := 0 })] } }, 2, { mac := 5, vlan := 1, dest := 5 }, { mac := 5, vlan := 1, dest := 5, hit := false }, by decide⟩,
   ⟨{ clk := { now := 1000000000 }, selv := { overflow := [(2, { mac := 5, vlan := 1, dest := 5, hit := false, age := 300 })] } }, 2, { mac := 5, vlan := 1, dest := 5, hit := false, age := 300 }, by decide⟩,
   ⟨{ boot := { selvedge := true, mounted := true, replayed := true }, selv := { standby := some { num := 0, image := [1] } }, dict := { acts := [{ idx := 0x3031, sub := 1, val := .num 1, tag := 0, se := .bar2 }] } }, { idx := 0x3031, sub := 1, val := .num 1, tag := 0, se := .bar2 }, [], { num := 0, image := [1] }, by decide⟩,
   ⟨{ boot := { selvedge := true }, selv := { standby := some { num := 0, image := [1] } }, dict := { acts := [{ idx := 0x3031, sub := 1, val := .num 1, tag := 0, se := .bar2 }] } }, { idx := 0x3031, sub := 1, val := .num 1, tag := 0, se := .bar2 }, [], { num := 0, image := [1] }, by decide⟩,
   ⟨{}, 1, 2, 0x01005E000005, by decide⟩,
   ⟨{ clk := { now := 5000000000 }, selv := { members := [((2, 0x01005E000005, 1), 99000000000)], overflow := [] } , dict := { params := [(pkey 0x3060 3 none, .num 0)] } }, 1, 2, 0x01005E000005, 99000000000, by decide⟩,
   ⟨{ clk := { now := 5000000000 }, selv := { members := [((2, 0x01005E000005, 1), 99000000000)], overflow := [] } , dict := { params := [(pkey 0x3060 3 none, .num 1)] } }, 1, 2, 0x01005E000005, 99000000000, by decide⟩,
   ⟨{}, 1, 2, true, 9, by decide⟩,
   ⟨{ clk := { now := 5000000000 }, selv := { members := [((2, 0x01005E000005, 1), 4000000000)], overflow := [] }  }, 1, 2, 0x01005E000005, 4000000000, by decide⟩,
   ⟨{ clk := { now := 9 }, selv := { routers := [((2, 1), 5)] } }, 1, 2, 5, by decide⟩,
   ⟨{ dict := { params := [(pkey 0x3060 1 none, .num 1), (pkey 0x3060 4 none, .num 1)] } }, 1, by decide⟩,
   ⟨{ boot := { selvedge := true }, selv := { links := 3 } }, 1, by decide⟩,
   ⟨{ boot := { selvedge := true }, selv := { links := 3 } }, 4, by decide⟩⟩

/-- The hypotheses of every clause of `Obligations.AddressTableCommands` can be met. -/
theorem wit_addressTableCommands :
    (∃ (s : State), ∃ (c : MacCmd), ∃ (r : List MacCmd), ∃ (pos : Nat), ∃ (e : MacEntry),
      asleep s = false ∧ s.selv.cmds = c :: r ∧ c.drop = false ∧ c.op = .search ∧ (s.selv.learns = [] ∨ s.selv.cmdTurn = true) ∧ s.dict.reqs = [] ∧ macFind s.selv (BitVec.ofNat 12 c.args.vlan.toNat) c.args.mac = some (pos, e)) ∧
    (∃ (s : State), ∃ (c : MacCmd), ∃ (r : List MacCmd),
      asleep s = false ∧ s.selv.cmds = c :: r ∧ c.drop = false ∧ c.op = .search ∧ (s.selv.learns = [] ∨ s.selv.cmdTurn = true) ∧ s.dict.reqs = [] ∧ macFind s.selv (BitVec.ofNat 12 c.args.vlan.toNat) c.args.mac = none) ∧
    (∃ (s : State), ∃ (c : MacCmd), ∃ (r : List MacCmd), ∃ (i : Nat), ∃ (e : MacEntry),
      asleep s = false ∧ s.selv.cmds = c :: r ∧ c.drop = false ∧ c.op = .next ∧ (s.selv.learns = [] ∨ s.selv.cmdTurn = true) ∧ s.dict.reqs = [] ∧ (s.sess c.se).mac.pos = 0xFFFFFFFF ∧ s.selv.buckets = [] ∧ s.selv.overflow = [(i, e)] ∧ i < 4096) ∧
    (∃ (s : State), ∃ (c : MacCmd), ∃ (r : List MacCmd),
      asleep s = false ∧ s.selv.cmds = c :: r ∧ c.drop = false ∧ c.op = .next ∧ (s.selv.learns = [] ∨ s.selv.cmdTurn = true) ∧ s.dict.reqs = [] ∧ s.selv.buckets = [] ∧ s.selv.overflow = []) ∧
    (∃ (s : State), ∃ (c : MacCmd), ∃ (r : List MacCmd), ∃ (i : Nat),
      asleep s = false ∧ s.selv.cmds = c :: r ∧ c.drop = false ∧ c.op = .insert ∧ (s.selv.learns = [] ∨ s.selv.cmdTurn = true) ∧ s.dict.reqs = [] ∧ macFind s.selv (BitVec.ofNat 12 c.args.vlan.toNat) c.args.mac = none ∧ lowestGap (bucketAt s.selv (macBucket (BitVec.ofNat 12 c.args.vlan.toNat) c.args.mac)) 4 = some i) ∧
    (∃ (s : State), ∃ (c : MacCmd), ∃ (r : List MacCmd), ∃ (i : Nat), ∃ (e : MacEntry),
      asleep s = false ∧ s.selv.cmds = c :: r ∧ c.drop = false ∧ c.op = .delete ∧ (s.selv.learns = [] ∨ s.selv.cmdTurn = true) ∧ s.dict.reqs = [] ∧ s.selv.buckets = [] ∧ s.selv.overflow = [(i, e)] ∧ e.mac = c.args.mac ∧ e.vlan = BitVec.ofNat 12 c.args.vlan.toNat) ∧
    (∃ (s : State), ∃ (c : MacCmd), ∃ (r : List MacCmd), ∃ (i : Nat), ∃ (e : MacEntry), ∃ (k : Nat),
      asleep s = false ∧ s.selv.cmds = c :: r ∧ c.drop = false ∧ c.op = .flushPort ∧ (s.selv.learns = [] ∨ s.selv.cmdTurn = true) ∧ s.dict.reqs = [] ∧ s.selv.learns = [] ∧ c.next_ = 0 ∧ c.removed = 0 ∧ 65537 ≤ k ∧ s.selv.buckets = [] ∧ s.selv.overflow = [(i, e)] ∧ e.static = false ∧ e.group = false ∧ (c.args.vlan = 0 ∨ e.vlan.toNat = c.args.vlan.toNat) ∧ e.dest.toNat = c.args.dest.toNat) ∧
    (∃ (s : State), ∃ (c : MacCmd), ∃ (r : List MacCmd), ∃ (k : Nat),
      asleep s = false ∧ s.selv.cmds = c :: r ∧ c.drop = false ∧ c.op = .flushPort ∧ (s.selv.learns = [] ∨ s.selv.cmdTurn = true) ∧ s.dict.reqs = [] ∧ s.selv.learns = [] ∧ s.selv.buckets = [] ∧ s.selv.overflow = [] ∧ k ≠ 0 ∧ c.next_ + k < 65537) ∧
    (∃ (s : State), ∃ (c : MacCmd), ∃ (r : List MacCmd), ∃ (i : Nat), ∃ (e : MacEntry), ∃ (k : Nat),
      asleep s = false ∧ s.selv.cmds = c :: r ∧ c.drop = false ∧ c.op = .flushAll ∧ (s.selv.learns = [] ∨ s.selv.cmdTurn = true) ∧ s.dict.reqs = [] ∧ s.selv.learns = [] ∧ c.next_ = 0 ∧ c.removed = 0 ∧ 65537 ≤ k ∧ s.selv.buckets = [] ∧ s.selv.overflow = [(i, e)] ∧ e.static = false ∧ e.group = false ∧ (c.args.vlan = 0 ∨ e.vlan.toNat = c.args.vlan.toNat)) ∧
    (∃ (s : State), ∃ (c : MacCmd), ∃ (r : List MacCmd), ∃ (k : Nat),
      asleep s = false ∧ s.selv.cmds = c :: r ∧ c.drop = false ∧ c.op = .flushAll ∧ (s.selv.learns = [] ∨ s.selv.cmdTurn = true) ∧ s.dict.reqs = [] ∧ s.selv.learns = [] ∧ s.selv.buckets = [] ∧ s.selv.overflow = [] ∧ k ≠ 0 ∧ c.next_ + k < 65537) ∧
    (∃ (s : State), ∃ (c : LpmCmd), ∃ (r : List LpmCmd),
      asleep s = false ∧ s.selv.lpmCmds = c :: r ∧ c.drop = false ∧ c.op = .insert ∧ s.dict.reqs = [] ∧ (s.selv.lpm.any fun e => lpmKey e c.args) = false ∧ s.selv.lpm.length < 16384) ∧
    (∃ (s : State), ∃ (c : LpmCmd), ∃ (r : List LpmCmd),
      asleep s = false ∧ s.selv.lpmCmds = c :: r ∧ c.drop = false ∧ c.op = .insert ∧ s.dict.reqs = [] ∧ (s.selv.lpm.any fun e => lpmKey e c.args) = true) ∧
    (∃ (s : State), ∃ (c : LpmCmd), ∃ (r : List LpmCmd), ∃ (e : Lpm), ∃ (l : List Lpm),
      asleep s = false ∧ s.selv.lpmCmds = c :: r ∧ c.drop = false ∧ c.op = .delete ∧ s.dict.reqs = [] ∧ takeFirst (fun e => lpmKey e c.args) s.selv.lpm = some (e, l)) ∧
    (∃ (s : State), ∃ (c : LpmCmd), ∃ (r : List LpmCmd), ∃ (e : Lpm),
      asleep s = false ∧ s.selv.lpmCmds = c :: r ∧ c.drop = false ∧ c.op = .search ∧ s.dict.reqs = [] ∧ s.selv.lpm.find? (fun e => lpmKey e c.args) = some e) ∧
    (∃ (s : State), ∃ (c : LpmCmd), ∃ (r : List LpmCmd), ∃ (e : Lpm),
      asleep s = false ∧ s.selv.lpmCmds = c :: r ∧ c.drop = false ∧ c.op = .lookup ∧ s.dict.reqs = [] ∧ s.selv.lpm.find? (fun e => samePrefix e.len e.pre c.args.pre) = some e) ∧
    (∃ (s : State), ∃ (c : LpmCmd), ∃ (r : List LpmCmd),
      asleep s = false ∧ s.selv.lpmCmds = c :: r ∧ c.drop = false ∧ c.op = .lookup ∧ s.dict.reqs = [] ∧ s.selv.lpm = []) ∧
    (∃ (s : State), ∃ (c : LpmCmd), ∃ (r : List LpmCmd), ∃ (e : Lpm), ∃ (l : List Lpm),
      asleep s = false ∧ s.selv.lpmCmds = c :: r ∧ c.drop = false ∧ c.op = .next ∧ s.dict.reqs = [] ∧ (s.sess c.se).lpm.pos = 0xFFFFFFFF ∧ s.selv.lpm = e :: l) :=
  ⟨⟨{ boot := { selvedge := true }, selv := { cmds := [{ se := .bar2, op := .search, args := { mac := 5, vlan := 1, dest := 3 } }], overflow := [(1, { mac := 5, vlan := 1, dest := 3 })] } }, { se := .bar2, op := .search, args := { mac := 5, vlan := 1, dest := 3 } }, [], 262145, { mac := 5, vlan := 1, dest := 3 }, by decide⟩,
   ⟨{ boot := { selvedge := true }, selv := { cmds := [{ se := .bar2, op := .search, args := { mac := 5, vlan := 1, dest := 3 } }] } }, { se := .bar2, op := .search, args := { mac := 5, vlan := 1, dest := 3 } }, [], by decide⟩,
   ⟨{ boot := { selvedge := true }, selv := { cmds := [{ se := .bar2, op := .next, args := { mac := 5, vlan := 1, dest := 3 } }], overflow := [(1, { mac := 5, vlan := 1, dest := 3 })] } }, { se := .bar2, op := .next, args := { mac := 5, vlan := 1, dest := 3 } }, [], 1, { mac := 5, vlan := 1, dest := 3 }, by decide⟩,
   ⟨{ boot := { selvedge := true }, selv := { cmds := [{ se := .bar2, op := .next, args := { mac := 5, vlan := 1, dest := 3 } }] } }, { se := .bar2, op := .next, args := { mac := 5, vlan := 1, dest := 3 } }, [], by decide⟩,
   ⟨{ boot := { selvedge := true }, selv := { cmds := [{ se := .bar2, op := .insert, args := { mac := 5, vlan := 1, dest := 3 } }] } }, { se := .bar2, op := .insert, args := { mac := 5, vlan := 1, dest := 3 } }, [], 0, by decide⟩,
   ⟨{ boot := { selvedge := true }, selv := { cmds := [{ se := .bar2, op := .delete, args := { mac := 5, vlan := 1, dest := 3 } }], overflow := [(1, { mac := 5, vlan := 1, dest := 3 })] } }, { se := .bar2, op := .delete, args := { mac := 5, vlan := 1, dest := 3 } }, [], 1, { mac := 5, vlan := 1, dest := 3 }, by decide⟩,
   ⟨{ boot := { selvedge := true }, selv := { cmds := [{ se := .bar2, op := .flushPort, args := { mac := 5, vlan := 1, dest := 3 } }], overflow := [(1, { mac := 5, vlan := 1, dest := 3 })] } }, { se := .bar2, op := .flushPort, args := { mac := 5, vlan := 1, dest := 3 } }, [], 1, { mac := 5, vlan := 1, dest := 3 }, 65537, by decide⟩,
   ⟨{ boot := { selvedge := true }, selv := { cmds := [{ se := .bar2, op := .flushPort, args := { mac := 5, vlan := 1, dest := 3 } }] } }, { se := .bar2, op := .flushPort, args := { mac := 5, vlan := 1, dest := 3 } }, [], 65536, by decide⟩,
   ⟨{ boot := { selvedge := true }, selv := { cmds := [{ se := .bar2, op := .flushAll, args := { mac := 5, vlan := 1, dest := 3 } }], overflow := [(1, { mac := 5, vlan := 1, dest := 3 })] } }, { se := .bar2, op := .flushAll, args := { mac := 5, vlan := 1, dest := 3 } }, [], 1, { mac := 5, vlan := 1, dest := 3 }, 65537, by decide⟩,
   ⟨{ boot := { selvedge := true }, selv := { cmds := [{ se := .bar2, op := .flushAll, args := { mac := 5, vlan := 1, dest := 3 } }] } }, { se := .bar2, op := .flushAll, args := { mac := 5, vlan := 1, dest := 3 } }, [], 65536, by decide⟩,
   ⟨{ boot := { selvedge := true }, selv := { lpmCmds := [{ se := .bar2, op := .insert, args := { pre := 0x0A000000000000000000000000000000, len := 8, hop := 9, vlan := 1, action := 2 } }] } }, { se := .bar2, op := .insert, args := { pre := 0x0A000000000000000000000000000000, len := 8, hop := 9, vlan := 1, action := 2 } }, [], by decide⟩,
   ⟨{ boot := { selvedge := true }, selv := { lpmCmds := [{ se := .bar2, op := .insert, args := { pre := 0x0A000000000000000000000000000000, len := 8, hop := 9, vlan := 1, action := 2 } }], lpm := [⟨0x0A000000000000000000000000000000, 8, 9, 1, 2⟩] } }, { se := .bar2, op := .insert, args := { pre := 0x0A000000000000000000000000000000, len := 8, hop := 9, vlan := 1, action := 2 } }, [], by decide⟩,
   ⟨{ boot := { selvedge := true }, selv := { lpmCmds := [{ se := .bar2, op := .delete, args := { pre := 0x0A000000000000000000000000000000, len := 8, hop := 9, vlan := 1, action := 2 } }], lpm := [⟨0x0A000000000000000000000000000000, 8, 9, 1, 2⟩] } }, { se := .bar2, op := .delete, args := { pre := 0x0A000000000000000000000000000000, len := 8, hop := 9, vlan := 1, action := 2 } }, [], ⟨0x0A000000000000000000000000000000, 8, 9, 1, 2⟩, [], by decide⟩,
   ⟨{ boot := { selvedge := true }, selv := { lpmCmds := [{ se := .bar2, op := .search, args := { pre := 0x0A000000000000000000000000000000, len := 8, hop := 9, vlan := 1, action := 2 } }], lpm := [⟨0x0A000000000000000000000000000000, 8, 9, 1, 2⟩] } }, { se := .bar2, op := .search, args := { pre := 0x0A000000000000000000000000000000, len := 8, hop := 9, vlan := 1, action := 2 } }, [], ⟨0x0A000000000000000000000000000000, 8, 9, 1, 2⟩, by decide⟩,
   ⟨{ boot := { selvedge := true }, selv := { lpmCmds := [{ se := .bar2, op := .lookup, args := { pre := 0x0A000000000000000000000000000000, len := 8, hop := 9, vlan := 1, action := 2 } }], lpm := [⟨0x0A000000000000000000000000000000, 8, 9, 1, 2⟩] } }, { se := .bar2, op := .lookup, args := { pre := 0x0A000000000000000000000000000000, len := 8, hop := 9, vlan := 1, action := 2 } }, [], ⟨0x0A000000000000000000000000000000, 8, 9, 1, 2⟩, by decide⟩,
   ⟨{ boot := { selvedge := true }, selv := { lpmCmds := [{ se := .bar2, op := .lookup, args := { pre := 0x0A000000000000000000000000000000, len := 8, hop := 9, vlan := 1, action := 2 } }] } }, { se := .bar2, op := .lookup, args := { pre := 0x0A000000000000000000000000000000, len := 8, hop := 9, vlan := 1, action := 2 } }, [], by decide⟩,
   ⟨{ boot := { selvedge := true }, selv := { lpmCmds := [{ se := .bar2, op := .next, args := { pre := 0x0A000000000000000000000000000000, len := 8, hop := 9, vlan := 1, action := 2 } }], lpm := [⟨0x0A000000000000000000000000000000, 8, 9, 1, 2⟩] } }, { se := .bar2, op := .next, args := { pre := 0x0A000000000000000000000000000000, len := 8, hop := 9, vlan := 1, action := 2 } }, [], ⟨0x0A000000000000000000000000000000, 8, 9, 1, 2⟩, [], by decide⟩⟩

/-- The hypotheses of every clause of `Obligations.TouchEventsAndRules` can be met. -/
theorem wit_touchEventsAndRules :
    (∃ (s : State), ∃ (ip : BitVec 128), ∃ (b : Bytes), ∃ (p : Nat),
      asleep s = false ∧ b.length ≤ 65507 ∧ s.boot.selvedge = true ∧ touchFormOk b = true ∧ touchSourceOk s (le32 b 4) ip = true ∧ u8 b 3 = 1 ∧ enginePhys s (fld s 0x8005 (le32 b 4) 2 % 8) = p ∧ p ≠ 0xFF ∧ (s.engine p).touches.length < 256 ∧ (s.bob (.touch (fengine p))).held = [] ∧ 1 ≤ u8 b 8 ∧ u8 b 8 ≤ 3 ∧ u8 b 9 ≤ 9 ∧ parB s 0x4020 2 = false) ∧
    (∃ (s : State), ∃ (ip : BitVec 128), ∃ (b : Bytes),
      asleep s = false ∧ b.length ≤ 65507 ∧ s.boot.selvedge = true ∧ touchFormOk b = false) ∧
    (∃ (s : State), ∃ (e : Fin 8), ∃ (p : Nat), ∃ (x : BitVec 256), ∃ (g : Bool), ∃ (r : List (BitVec 256 × Bool)), ∃ (k : Touch), ∃ (tr : Track), ∃ (u : Rule),
      asleep s = false ∧ enginePhys s e = p ∧ p ≠ 0xFF ∧ (s.engine p).touches = [] ∧ (s.bob (.touch (fengine p))).resetAt = none ∧ (s.bob (.touch (fengine p))).held = [] ∧ crossing s.clk.now (s.bob (.touch (fengine p))).wrLog = [] ∧ (s.bob (.touch (fengine p))).rd < (s.bob (.touch (fengine p))).wr ∧ (s.bob (.touch (fengine p))).items = (x, g) :: r ∧ itemTouch s.clk.now x = k ∧ look s.batten.tracks k.endpoint = some tr ∧ ((lookD ({} : Contact) tr.contacts k.contact).follow k (par s 0x4020 4 * 1000)).2 = .down ∧ (rulesOf (streamLayout s (fld s 0x8005 k.endpoint 2)).2).find? (fun y => ruleFires y k .down && (y.condVar == 0xFF || (s.bankVar (fld s 0x8001 (fld s 0x8005 k.endpoint 2) 0x11) y.condVar).toNat == y.condValue)) = some u) ∧
    (∃ (s : State), ∃ (e : Fin 8), ∃ (p : Nat), ∃ (x : BitVec 256), ∃ (g : Bool), ∃ (r : List (BitVec 256 × Bool)), ∃ (k : Touch), ∃ (tr : Track),
      asleep s = false ∧ enginePhys s e = p ∧ p ≠ 0xFF ∧ (s.engine p).touches = [] ∧ (s.bob (.touch (fengine p))).resetAt = none ∧ (s.bob (.touch (fengine p))).held = [] ∧ crossing s.clk.now (s.bob (.touch (fengine p))).wrLog = [] ∧ (s.bob (.touch (fengine p))).rd < (s.bob (.touch (fengine p))).wr ∧ (s.bob (.touch (fengine p))).items = (x, g) :: r ∧ itemTouch s.clk.now x = k ∧ look s.batten.tracks k.endpoint = some tr ∧ rulesOf (streamLayout s (fld s 0x8005 k.endpoint 2)).2 = []) ∧
    (∃ (s : State), ∃ (ep : BitVec 20), ∃ (c : Fin 10), ∃ (tr : Track),
      asleep s = false ∧ look s.batten.tracks ep.toNat = some tr ∧ (lookD ({} : Contact) tr.contacts c.val).down = true ∧ (lookD ({} : Contact) tr.contacts c.val).stuck = false ∧ (lookD ({} : Contact) tr.contacts c.val).downAt + par s 0x4020 3 * 1000000000 < s.clk.now) :=
  ⟨⟨{ boot := { selvedge := true }, dict := { params := [(pkey 0x4100 0 none, .bytes (List.replicate 9 0 ++ [1] ++ List.replicate 22 0 ++ [1, 3, 1, 0xFF, 0, 0, 0, 0, 100, 0, 100, 0, 7, 0, 0, 0] ++ List.replicate 16 0)), (pkey 0x8005 1 (some 9), .num 1), (pkey 0x8005 2 (some 9), .num 5), (pkey 0x8005 3 (some 9), .bytes (List.replicate 15 0 ++ [8])), (pkey 0x8005 6 (some 9), .num 1)] } }, 8, [0xC7, 0x7D, 1, 1, 9, 0, 0, 0, 1, 2, 10, 0, 20, 0, 0, 0, 5, 0, 0, 0, 0, 0, 0, 0, 45, 30, 48, 4], 5, by decide⟩,
   ⟨{ boot := { selvedge := true }, dict := { params := [(pkey 0x4100 0 none, .bytes (List.replicate 9 0 ++ [1] ++ List.replicate 22 0 ++ [1, 3, 1, 0xFF, 0, 0, 0, 0, 100, 0, 100, 0, 7, 0, 0, 0] ++ List.replicate 16 0)), (pkey 0x8005 1 (some 9), .num 1), (pkey 0x8005 2 (some 9), .num 5), (pkey 0x8005 3 (some 9), .bytes (List.replicate 15 0 ++ [8])), (pkey 0x8005 6 (some 9), .num 1)] } }, 8, [1, 2, 3], by decide⟩,
   ⟨{ boot := { selvedge := true }, dict := { params := [(pkey 0x4100 0 none, .bytes (List.replicate 9 0 ++ [1] ++ List.replicate 22 0 ++ [1, 3, 1, 0xFF, 0, 0, 0, 0, 100, 0, 100, 0, 7, 0, 0, 0] ++ List.replicate 16 0)), (pkey 0x8005 1 (some 9), .num 1), (pkey 0x8005 2 (some 9), .num 5), (pkey 0x8005 3 (some 9), .bytes (List.replicate 15 0 ++ [8])), (pkey 0x8005 6 (some 9), .num 1)] }, clk := { now := 60 }, bobs := [(.touch 5, { items := [((touchItem { endpoint := 9, kind := 1, contact := 2, x := 10, y := 20, seq := 5, at_ := 50 }), false)], wr := 1, resetAt := none })], batten := { tracks := [(9, {})] } }, 5, 5, (touchItem { endpoint := 9, kind := 1, contact := 2, x := 10, y := 20, seq := 5, at_ := 50 }), false, [], { endpoint := 9, kind := 1, contact := 2, x := 10, y := 20, seq := 5, at_ := 50 }, {}, { trigger := 1, var := 3, op := 1, condVar := 0xFF, x := 0, y := 0, w := 100, h := 100, operand := 7, limit := 0, condValue := 0 }, by decide⟩,
   ⟨{ clk := { now := 60 }, bobs := [(.touch 5, { items := [((touchItem { endpoint := 9, kind := 1, contact := 2, x := 10, y := 20, seq := 5, at_ := 50 }), false)], wr := 1, resetAt := none })], batten := { tracks := [(9, {})] }, dict := { params := [(pkey 0x8005 2 (some 9), .num 5)] } }, 5, 5, (touchItem { endpoint := 9, kind := 1, contact := 2, x := 10, y := 20, seq := 5, at_ := 50 }), false, [], { endpoint := 9, kind := 1, contact := 2, x := 10, y := 20, seq := 5, at_ := 50 }, {}, by decide⟩,
   ⟨{ clk := { now := 100000000000000 }, batten := { tracks := [(9, { contacts := [(2, { down := true })] })] } }, 9, 2, { contacts := [(2, { down := true })] }, by decide⟩⟩

/-- The hypotheses of every clause of `Obligations.PresenceAndReturnedSeals` can be met. -/
theorem wit_presenceAndReturnedSeals :
    (∃ (s : State), ∃ (ip : BitVec 128), ∃ (port : BitVec 16), ∃ (b : Bytes), ∃ (rr : Bytes), ∃ (rest : List Bytes), ∃ (app : Bytes), ∃ (e : Nat),
      asleep s = false ∧ b.length ≤ 65507 ∧ rtcpParts b.length b = some (rr :: rest) ∧ (rr :: rest).filter isSealApp = [app] ∧ be32 app 0x0C = e ∧ u8 rr 1 = 201 ∧ e < 2 ^ 20 ∧ epValid s e = true ∧ beNat (fldBytes s 0x8005 e 3) = ip.toNat ∧ fld s 0x8001 (fld s 0x8005 e 2) 0x23 = port.toNat ∧ encValid s (fld s 0x8005 e 2) = true ∧ be32 app 0x10 ≠ 0xFFFFFFFF ∧ fldB s 0x8005 e 0x22 = true ∧ s.trans.seals.length < 4096) ∧
    (∃ (s : State), ∃ (ip : BitVec 128), ∃ (port : BitVec 16), ∃ (b : Bytes),
      asleep s = false ∧ b.length ≤ 65507 ∧ rtcpParts b.length b = none) ∧
    (∃ (s : State), ∃ (e : Nat), ∃ (v : Endpoint),
      asleep s = false ∧ serves s = true ∧ s.trans.lastScan + 250000000 ≤ s.clk.now ∧ s.trans.endpoints = [(e, v)] ∧ epValid s e = true ∧ v.present = true ∧ v.lastReport + par s 0x3080 1 * 1000000000 ≤ s.clk.now) ∧
    (∃ (s : State),
      asleep s = false ∧ serves s = true ∧ s.trans.lastScan + 250000000 ≤ s.clk.now ∧ s.trans.endpoints.all (fun q => decide (s.clk.now < q.2.lastReport + par s 0x3080 1 * 1000000000)) = true) ∧
    (∃ (s : State), ∃ (q : SealIn), ∃ (l : List SealIn), ∃ (r : SealRec),
      asleep s = false ∧ takeFirst (fun q => !(sealWaits s q)) s.trans.seals = some (q, l) ∧ sealRecord s q = some r ∧ r.frame = q.frame ∧ r.sealValid = true ∧ r.sealMode = q.sealMode ∧ endpointSeal r.sealMode.toNat q.endpoint (encN s (fld s 0x8005 q.endpoint 2)) r.recon.toNat = q.value.toNat) ∧
    (∃ (s : State), ∃ (q : SealIn), ∃ (l : List SealIn), ∃ (r : SealRec),
      asleep s = false ∧ takeFirst (fun q => !(sealWaits s q)) s.trans.seals = some (q, l) ∧ sealRecord s q = some r ∧ r.frame = q.frame ∧ r.sealValid = true ∧ r.sealMode = q.sealMode ∧ endpointSeal r.sealMode.toNat q.endpoint (encN s (fld s 0x8005 q.endpoint 2)) r.recon.toNat ≠ q.value.toNat) ∧
    (∃ (s : State), ∃ (q : SealIn), ∃ (l : List SealIn),
      asleep s = false ∧ takeFirst (fun q => sealWaits s q && decide (q.since + 1000000 ≤ s.clk.now)) s.trans.seals = some (q, l)) :=
  ⟨⟨{ boot := { selvedge := true }, dict := { params := [(pkey 0x4100 0 none, .bytes (List.replicate 9 0 ++ [1] ++ List.replicate 22 0 ++ [1, 3, 1, 0xFF, 0, 0, 0, 0, 100, 0, 100, 0, 7, 0, 0, 0] ++ List.replicate 16 0)), (pkey 0x8005 1 (some 9), .num 1), (pkey 0x8005 2 (some 9), .num 5), (pkey 0x8005 3 (some 9), .bytes (List.replicate 15 0 ++ [8])), (pkey 0x8005 6 (some 9), .num 1), (pkey 0x8001 1 (some 5), .num 1), (pkey 0x8001 0x23 (some 5), .num 5005), (pkey 0x8005 0x22 (some 9), .num 1)] } }, 8, 5005, [0x80, 201, 0, 1, 0, 0, 0, 0, 0x80, 204, 0, 6, 0, 0, 0, 0, 0x53, 0x45, 0x41, 0x4C, 0, 0, 0, 9, 0, 0, 0, 7, 1, 2, 3, 4, 5, 6, 7, 8], [0x80, 201, 0, 1, 0, 0, 0, 0], [[0x80, 204, 0, 6, 0, 0, 0, 0, 0x53, 0x45, 0x41, 0x4C, 0, 0, 0, 9, 0, 0, 0, 7, 1, 2, 3, 4, 5, 6, 7, 8]], [0x80, 204, 0, 6, 0, 0, 0, 0, 0x53, 0x45, 0x41, 0x4C, 0, 0, 0, 9, 0, 0, 0, 7, 1, 2, 3, 4, 5, 6, 7, 8], 9, by decide⟩,
   ⟨{}, 8, 5005, [1, 2, 3], by decide⟩,
   ⟨{ boot := { selvedge := true }, dict := { params := [(pkey 0x4100 0 none, .bytes (List.replicate 9 0 ++ [1] ++ List.replicate 22 0 ++ [1, 3, 1, 0xFF, 0, 0, 0, 0, 100, 0, 100, 0, 7, 0, 0, 0] ++ List.replicate 16 0)), (pkey 0x8005 1 (some 9), .num 1), (pkey 0x8005 2 (some 9), .num 5), (pkey 0x8005 3 (some 9), .bytes (List.replicate 15 0 ++ [8])), (pkey 0x8005 6 (some 9), .num 1)] }, clk := { now := 100000000000000 }, trans := { endpoints := [(9, { present := true })] } }, 9, { present := true }, by decide⟩,
   ⟨{ clk := { now := 250000000 }, trans := { endpoints := [(9, { present := true, lastReport := 1 })] } }, by decide⟩,
   ⟨{ boot := { selvedge := true }, dict := { params := [(pkey 0x4100 0 none, .bytes (List.replicate 9 0 ++ [1] ++ List.replicate 22 0 ++ [1, 3, 1, 0xFF, 0, 0, 0, 0, 100, 0, 100, 0, 7, 0, 0, 0] ++ List.replicate 16 0)), (pkey 0x8005 1 (some 9), .num 1), (pkey 0x8005 2 (some 9), .num 5), (pkey 0x8005 3 (some 9), .bytes (List.replicate 15 0 ++ [8])), (pkey 0x8005 6 (some 9), .num 1), (pkey 0x8001 3 (some 5), .num 64), (pkey 0x8001 4 (some 5), .num 64)] }, trans := { seals := [⟨9, 3, 0, (BitVec.ofNat 64 (endpointSeal 0 9 1 5)), 0⟩] }, encs := [(5, { seals := [(3, { frame := 3, sealMode := 0, sealValid := true, composedValid := false, truncated := false, substituted := false, laneCtus := 0, recon := 5, composed := 0, skipCtus := 0, fringeCtus := 0, bytes := 0 })] })] }, ⟨9, 3, 0, (BitVec.ofNat 64 (endpointSeal 0 9 1 5)), 0⟩, [], { frame := 3, sealMode := 0, sealValid := true, composedValid := false, truncated := false, substituted := false, laneCtus := 0, recon := 5, composed := 0, skipCtus := 0, fringeCtus := 0, bytes := 0 }, by decide⟩,
   ⟨{ boot := { selvedge := true }, dict := { params := [(pkey 0x4100 0 none, .bytes (List.replicate 9 0 ++ [1] ++ List.replicate 22 0 ++ [1, 3, 1, 0xFF, 0, 0, 0, 0, 100, 0, 100, 0, 7, 0, 0, 0] ++ List.replicate 16 0)), (pkey 0x8005 1 (some 9), .num 1), (pkey 0x8005 2 (some 9), .num 5), (pkey 0x8005 3 (some 9), .bytes (List.replicate 15 0 ++ [8])), (pkey 0x8005 6 (some 9), .num 1), (pkey 0x8001 3 (some 5), .num 64), (pkey 0x8001 4 (some 5), .num 64)] }, trans := { seals := [⟨9, 3, 0, 0, 0⟩] }, encs := [(5, { seals := [(3, { frame := 3, sealMode := 0, sealValid := true, composedValid := false, truncated := false, substituted := false, laneCtus := 0, recon := 5, composed := 0, skipCtus := 0, fringeCtus := 0, bytes := 0 })] })] }, ⟨9, 3, 0, 0, 0⟩, [], { frame := 3, sealMode := 0, sealValid := true, composedValid := false, truncated := false, substituted := false, laneCtus := 0, recon := 5, composed := 0, skipCtus := 0, fringeCtus := 0, bytes := 0 }, by decide⟩,
   ⟨{ clk := { now := 1000000 }, trans := { seals := [⟨9, 3, 0, 7, 0⟩] } }, ⟨9, 3, 0, 7, 0⟩, [], by decide⟩⟩

/-- The hypotheses of every clause of `Obligations.TimeInputs` can be met. -/
theorem wit_timeInputs :
    (∃ (s : State), ∃ (f : BitVec 16),
      asleep s = false ∧ s.boot.timeUp = true ∧ heldNow s = none ∧ s.time.prevEdge = none) ∧
    (∃ (s : State), ∃ (f : BitVec 16), ∃ (p : Nat),
      asleep s = false ∧ s.boot.timeUp = true ∧ heldNow s = none ∧ s.time.prevEdge = some p ∧ s.time.tenOk = true ∧ s.time.gnss = true ∧ s.time.mode = .locked ∧ s.time.todValid = true ∧ p + 999999000 ≤ s.clk.now ∧ s.clk.now ≤ p + 1000001000 ∧ (edgeOffset s.time.ptp).natAbs ≤ 100) ∧
    (∃ (s : State), ∃ (f : BitVec 16), ∃ (p : Nat),
      asleep s = false ∧ s.boot.timeUp = true ∧ heldNow s = none ∧ s.time.prevEdge = some p ∧ s.clk.now < p + 999999000 ∧ s.time.bad < 2) ∧
    (∃ (s : State), ∃ (p : Nat),
      asleep s = false ∧ s.boot.timeUp = true ∧ s.time.prevEdge = some p ∧ p + 1000001000 < s.clk.now ∧ s.time.gnss = false) ∧
    (∃ (s : State), ∃ (p : Nat),
      asleep s = false ∧ s.boot.timeUp = true ∧ s.time.prevEdge = some p ∧ p + 1000001000 < s.clk.now ∧ s.time.gnss = true ∧ s.time.bad = 2 ∧ s.time.mode = .locked) ∧
    (∃ (s : State),
      asleep s = false ∧ s.boot.timeUp = true) ∧
    (∃ (s : State),
      asleep s = false ∧ s.boot.timeUp = true) ∧
    (∃ (s : State),
      asleep s = false ∧ s.boot.timeUp = true ∧ s.time.tenOk = false) ∧
    (∃ (s : State),
      asleep s = false ∧ s.boot.timeUp = true) ∧
    (∃ (s : State),
      asleep s = false ∧ s.time.mode = .holdover) ∧
    (∃ (s : State), ∃ (o : Int), ∃ (u : Nat),
      asleep s = false ∧ s.time.pendingStep = some (o, u) ∧ u ≤ s.time.ptp ∧ ((s.time.ptp : Int) - o).toNat ≠ s.time.ptp) ∧
    (∃ (s : State), ∃ (o : Int), ∃ (u : Nat),
      asleep s = false ∧ s.time.pendingStep = some (o, u) ∧ s.time.ptp < u) ∧
    (∃ (s : State), ∃ (a : Act), ∃ (r : List Act),
      asleep s = false ∧ takeFirst (fun a : Act => a.idx == 0x6013 && a.sub == 1) s.dict.acts = some (a, r)) ∧
    (∃ (s : State), ∃ (v : BitVec 48), ∃ (w : Nat), ∃ (u : Nat),
      asleep s = false ∧ heldNow s = some (v, w, u) ∧ u ≤ s.time.ptp ∧ s.time.gnss = false ∧ s.boot.timeUp = true ∧ s.time.mode ≠ TimeMode.slave ∧ s.time.mode ≠ TimeMode.passive) ∧
    (∃ (s : State), ∃ (v : BitVec 48), ∃ (w : Nat), ∃ (u : Nat),
      asleep s = false ∧ heldNow s = some (v, w, u) ∧ s.time.ptp < u) :=
  ⟨⟨{ boot := { timeUp := true }, time := { ptp := 5000000003 } }, 7, by decide⟩,
   ⟨{ boot := { timeUp := true }, time := { ptp := 5000000003, prevEdge := some 0, tenOk := true, gnss := true, mode := .locked, todValid := true }, clk := { now := 1000000000 } }, 7, 0, by decide⟩,
   ⟨{ boot := { timeUp := true }, time := { prevEdge := some 0 } }, 7, 0, by decide⟩,
   ⟨{ boot := { timeUp := true }, time := { prevEdge := some 0 }, clk := { now := 1000001001 } }, 0, by decide⟩,
   ⟨{ boot := { timeUp := true }, time := { prevEdge := some 0, gnss := true, bad := 2, mode := .locked }, clk := { now := 1000001001 } }, 0, by decide⟩,
   ⟨{ boot := { timeUp := true }, time := { tenOk := true } }, by decide⟩,
   ⟨{ boot := { timeUp := true }, time := { refOk := true } }, by decide⟩,
   ⟨{ boot := { timeUp := true }, time := { prevEdge := some 4 } }, by decide⟩,
   ⟨{ boot := { timeUp := true }, time := {  } }, by decide⟩,
   ⟨{ boot := { timeUp := true }, time := { mode := .holdover } }, by decide⟩,
   ⟨{ boot := { timeUp := true }, time := { ptp := 100, pendingStep := some (7, 90) } }, 7, 90, by decide⟩,
   ⟨{ boot := { timeUp := true }, time := { ptp := 100, pendingStep := some (7, 101) } }, 7, 101, by decide⟩,
   ⟨{ dict := { acts := [{ idx := 0x6013, sub := 1, val := .num 77, tag := 0, se := .bar2 }] } }, { idx := 0x6013, sub := 1, val := .num 77, tag := 0, se := .bar2 }, [], by decide⟩,
   ⟨{ boot := { timeUp := true }, time := { ptp := 5, held := [(77, 0, 3)] }, clk := { now := 1 } }, 77, 0, 3, by decide⟩,
   ⟨{ boot := { timeUp := true }, time := { ptp := 5, held := [(77, 0, 9)] }, clk := { now := 1 } }, 77, 0, 9, by decide⟩⟩

/-- The hypotheses of every clause of `Obligations.TimeMessagesAndOutputs` can be met. -/
theorem wit_timeMessagesAndOutputs :
    (∃ (s : State), ∃ (port : Fin 16),
      asleep s = false ∧ masterPort s port = true) ∧
    (∃ (s : State), ∃ (port : Fin 16),
      asleep s = false ∧ masterPort s port = true ∧ (s.bob .timestamp).resetAt = none ∧ (s.bob .timestamp).items = [] ∧ (s.bob .timestamp).held = [] ∧ parB s 0x6020 4 = true) ∧
    (∃ (s : State), ∃ (port : Fin 16),
      asleep s = false ∧ masterPort s port = true ∧ (s.bob .timestamp).resetAt = none ∧ (s.bob .timestamp).items = [] ∧ (s.bob .timestamp).held = [] ∧ parB s 0x6020 4 = false) ∧
    (∃ (s : State), ∃ (port : Fin 16), ∃ (u : Option (BitVec 48 × BitVec 128)), ∃ (src : BitVec 80), ∃ (q : BitVec 16),
      asleep s = false ∧ masterPort s port = true ∧ (s.bob .timestamp).resetAt = none ∧ (s.bob .timestamp).items = [] ∧ (s.bob .timestamp).held = [] ∧ (s.time.answerSec ≠ s.clk.now / 1000000000 ∨ s.time.answered < 16000000)) ∧
    (∃ (s : State), ∃ (port : Fin 16), ∃ (a : Announce),
      asleep s = false ∧ ptpPort s port = true ∧ par s 0x6020 3 = 0 ∧ s.time.mode ≠ TimeMode.slave) ∧
    (∃ (s : State), ∃ (port : Fin 16), ∃ (a : Announce),
      asleep s = false ∧ ptpPort s port = true ∧ par s 0x6020 3 ≠ 0 ∧ a.gmId.toNat ≠ clockIdentity ∧ (s.time.foreign.find? fun f => f.ann.clockId == a.clockId && f.port == port.val) = some ⟨port, a, s.clk.now⟩ ∧ s.time.mode = .freeRun ∧ lexLt (annKey a) (ownKey s) = true) ∧
    (∃ (s : State),
      asleep s = false ∧ s.time.mode = TimeMode.slave ∧ s.time.parentAt + 3 * announceNs s ≤ s.clk.now ∧ s.time.gnss = false) ∧
    (∃ (s : State), ∃ (port : Fin 16), ∃ (o : Int),
      asleep s = false ∧ s.time.mode = TimeMode.slave ∧ s.time.slavePort.toNat = port.val) ∧
    (∃ (s : State), ∃ (port : Fin 16), ∃ (o : Int),
      asleep s = false ∧ s.time.mode = TimeMode.slave ∧ s.time.slavePort.toNat = port.val ∧ look s.time.asked port = none) ∧
    (∃ (s : State), ∃ (port : Fin 16),
      asleep s = false ∧ masterPort s port = true ∧ par s 0x6020 1 = 0) ∧
    (∃ (s : State),
      asleep s = false ∧ s.boot.timeUp = true ∧ squelched s = false) ∧
    (∃ (s : State),
      asleep s = false ∧ s.boot.timeUp = true ∧ squelched s = true) ∧
    (∃ (s : State), ∃ (e : Nat),
      asleep s = false ∧ s.time.edgeAt = some e) ∧
    (∃ (s : State), ∃ (m : MirrorTime),
      asleep s = false ∧ s.boot.timeUp = true ∧ s.pair.role = .secondary ∧ healthy s = true) :=
  ⟨⟨{ boot := { timeUp := true }, time := {  }, selv := { links := 1 } }, 0, by decide⟩,
   ⟨{ boot := { timeUp := true }, time := {  }, bobs := [(.timestamp, { resetAt := none })], selv := { links := 1 }, dict := { params := [(pkey 0x6020 4 none, .num 1)] } }, 0, by decide⟩,
   ⟨{ boot := { timeUp := true }, time := {  }, bobs := [(.timestamp, { resetAt := none })], selv := { links := 1 } }, 0, by decide⟩,
   ⟨{ boot := { timeUp := true }, time := {  }, bobs := [(.timestamp, { resetAt := none })], selv := { links := 1 } }, 0, none, 5, 6, by decide⟩,
   ⟨{ boot := { timeUp := true }, time := {  }, selv := { links := 1 } }, 0, { clockId := 77, priority1 := 128, clockClass := 6, accuracy := 0x21, variance := 0x4E5D, priority2 := 128, gmId := 77, stepsRemoved := 0, timeSource := 0x20, utcOffset := 37, utcValid := true }, by decide⟩,
   ⟨{ boot := { timeUp := true }, time := { foreign := [⟨0, { clockId := 77, priority1 := 128, clockClass := 6, accuracy := 0x21, variance := 0x4E5D, priority2 := 128, gmId := 77, stepsRemoved := 0, timeSource := 0x20, utcOffset := 37, utcValid := true }, 0⟩] }, selv := { links := 1 }, dict := { params := [(pkey 0x6020 3 none, .num 1)] } }, 0, { clockId := 77, priority1 := 128, clockClass := 6, accuracy := 0x21, variance := 0x4E5D, priority2 := 128, gmId := 77, stepsRemoved := 0, timeSource := 0x20, utcOffset := 37, utcValid := true }, by refine ⟨by decide, by decide, by decide, by have := clockIdentity_large; change (77 : Nat) ≠ clockIdentity; omega, by decide, by decide, ?_⟩; simp only [ownKey, annKey, bmcaKey]; generalize clockIdentity = c; rfl⟩,
   ⟨{ boot := { timeUp := true }, time := { mode := TimeMode.slave }, clk := { now := 100000000000 } }, by decide⟩,
   ⟨{ boot := { timeUp := true }, time := { mode := TimeMode.slave, slavePort := 1 } }, 1, 50, by decide⟩,
   ⟨{ boot := { timeUp := true }, time := { mode := TimeMode.slave, slavePort := 1 } }, 1, 50, by decide⟩,
   ⟨{ boot := { timeUp := true }, time := {  }, selv := { links := 1 } }, 0, by decide⟩,
   ⟨{ boot := { timeUp := true }, time := { clockClass := 6 } }, by decide⟩,
   ⟨{ boot := { timeUp := true }, time := {  }, dict := { params := [(pkey 0x6015 3 none, .num 1)] } }, by decide⟩,
   ⟨{ boot := { timeUp := true }, time := { edgeAt := some 5 } }, 5, by decide⟩,
   ⟨{ boot := { timeUp := true }, time := {  }, pair := { role := .secondary, silent := false, mirrorOk := true, partner := some ⟨1, 0, true, 7, 1, 0, 0⟩ } }, { seconds := 5, nanos := 6, todValid := true, clockClass := 6, freq := 0, utcOffset := 37, leap := 0, leapAt := 0 }, by decide⟩⟩

/-- The hypotheses of every clause of `Obligations.RingControl` can be met. -/
theorem wit_ringControl :
    (∃ (s : State), ∃ (p : Fin 4096), ∃ (v : Word),
      asleep s = false ∧ (s.sq p).state = 1 ∧ v.toNat % 65536 < 2 ^ ((s.sq p).size.toNat + 1) ∧ ringDist (s.sq p).size.toNat (s.sq p).head.toNat (v.toNat % 65536) ≤ 2 ^ (s.sq p).size.toNat ∧ ringDist (s.sq p).size.toNat (s.sq p).tail.toNat (v.toNat % 65536) ≤ ringDist (s.sq p).size.toNat (s.sq p).head.toNat (v.toNat % 65536)) ∧
    (∃ (s : State), ∃ (p : Fin 4096), ∃ (v : Word),
      asleep s = false ∧ (s.sq p).state = 1 ∧ 2 ^ ((s.sq p).size.toNat + 1) ≤ v.toNat % 65536) ∧
    (∃ (s : State), ∃ (p : Fin 4096), ∃ (v : Word),
      asleep s = false ∧ (s.sq p).state ≠ 1) ∧
    (∃ (s : State), ∃ (c : Fin 1024), ∃ (v : Word),
      asleep s = false ∧ v.toNat % 65536 < 2 ^ ((s.cq c).size.toNat + 1) ∧ ringDist (s.cq c).size.toNat (s.cq c).head.toNat (v.toNat % 65536) ≤ ringDist (s.cq c).size.toNat (s.cq c).head.toNat (s.cq c).tail.toNat ∧ (s.cq c).staged = [] ∧ (s.rings.sqs.all fun q => q.2.aborts.isEmpty) = true) ∧
    (∃ (s : State), ∃ (c : Fin 1024), ∃ (v : Word),
      asleep s = false ∧ 2 ^ ((s.cq c).size.toNat + 1) ≤ v.toNat % 65536) ∧
    (∃ (s : State), ∃ (m : Master), ∃ (p : Fin 4096), ∃ (v : Word),
      asleep s = false ∧ (s.sq p).state = 0 ∧ v.extractLsb' 0 4 ≠ 0 ∧ (s.cq (v.extractLsb' 16 10).toNat).enable = true ∧ masterOk m = true) ∧
    (∃ (s : State), ∃ (m : Master), ∃ (p : Fin 4096), ∃ (v : Word),
      asleep s = false ∧ (s.sq p).state = 0 ∧ v.extractLsb' 0 4 ≠ 0 ∧ (s.cq (v.extractLsb' 16 10).toNat).enable = false ∧ masterOk m = true) ∧
    (∃ (s : State), ∃ (m : Master), ∃ (p : Fin 4096), ∃ (v : Word),
      asleep s = false ∧ ((s.sq p).state = 1 ∨ (s.sq p).state = 2) ∧ (s.sq p).fetched = [] ∧ (s.sq p).aborts = [] ∧ (s.sq p).head = (s.sq p).tail ∧ (s.rings.jobs.all fun j => j.sq != p.val) = true ∧ masterOk m = true) ∧
    (∃ (s : State), ∃ (m : Master), ∃ (p : Fin 4096),
      asleep s = false ∧ (s.sq p).fetched = [] ∧ (s.sq p).aborts = [] ∧ (s.sq p).head = (s.sq p).tail ∧ (s.rings.jobs.all fun j => j.sq != p.val) = true ∧ masterOk m = true) ∧
    (∃ (s : State), ∃ (m : Master), ∃ (c : Fin 1024), ∃ (v : Word),
      asleep s = false ∧ masterOk m = true) ∧
    (∃ (s : State), ∃ (m : Master), ∃ (c : Fin 1024), ∃ (v : Word),
      asleep s = false ∧ (s.cq c).enable = true ∧ (s.rings.sqs.all fun q => q.2.cq.toNat != c.val || q.2.state == 0) = true ∧ masterOk m = true) ∧
    (∃ (s : State), ∃ (m : Master), ∃ (c : Fin 1024),
      asleep s = false ∧ (s.rings.sqs.all fun q => q.2.cq.toNat != c.val || q.2.state == 0) = true ∧ masterOk m = true) :=
  ⟨⟨{ rings := { sqs := [(7, { state := 1, size := 3 })] } }, 7, 5, by decide⟩,
   ⟨{ rings := { sqs := [(7, { state := 1, size := 3 })] } }, 7, 16, by decide⟩,
   ⟨{}, 7, 16, by decide⟩,
   ⟨{ rings := { cqs := [(3, { enable := true, size := 3, tail := 4 })] } }, 3, 2, by decide⟩,
   ⟨{ rings := { cqs := [(3, { enable := true, size := 3 })] } }, 3, 20, by decide⟩,
   ⟨{ rings := { cqs := [(3, { enable := true, size := 3 })] } }, 0x240, 7, 0x00030004, by decide⟩,
   ⟨{}, 0x240, 7, 0x00030004, by decide⟩,
   ⟨{ rings := { sqs := [(7, { state := 1, enable := true, size := 3 })] } }, 0x240, 7, 4, by decide⟩,
   ⟨{ rings := { sqs := [(7, { state := 2, enable := true, size := 3, head := 2, tail := 2, errCode := 1 })] } }, 0x240, 7, by decide⟩,
   ⟨{}, 0x240, 3, 4, by decide⟩,
   ⟨{ rings := { cqs := [(3, { enable := true, size := 3 })] } }, 0x240, 3, 5, by decide⟩,
   ⟨{ rings := { cqs := [(3, { enable := true, size := 3, head := 1, tail := 2 })] } }, 0x240, 3, by decide⟩⟩

/-- The hypotheses of every clause of `Obligations.EntriesAndCompletions` can be met. -/
theorem wit_entriesAndCompletions :
    (∃ (s : State), ∃ (p : Fin 4096), ∃ (l : List Bytes),
      asleep s = false ∧ (s.sq p).state = 1 ∧ (s.sq p).loc = false ∧ l ≠ [] ∧ l.length ≤ 8 ∧ l.length ≤ ringDist (s.sq p).size.toNat (s.sq p).head.toNat (s.sq p).tail.toNat) ∧
    (∃ (s : State), ∃ (p : Fin 4096),
      asleep s = false ∧ (s.sq p).state = 1 ∧ (s.sq p).loc = false ∧ ringDist (s.sq p).size.toNat (s.sq p).head.toNat (s.sq p).tail.toNat ≠ 0) ∧
    (∃ (s : State), ∃ (p : Nat), ∃ (w : Sq), ∃ (b : Bytes), ∃ (r : List Bytes),
      asleep s = false ∧ s.rings.sqs = [(p, w)] ∧ mayDispatch s p w = true ∧ w.fetched = b :: r) ∧
    (∃ (s : State), ∃ (n : Nat), ∃ (j : HostJob), ∃ (st : BitVec 8), ∃ (res : Word), ∃ (inf : Word),
      asleep s = false ∧ s.rings.jobs.find? (fun x => x.id == n) = some j ∧ j.ended = some (st, res, inf) ∧ (s.cq (s.sq j.sq).cq.toNat).enable = true ∧ (s.cq (s.sq j.sq).cq.toNat).full = false ∧ (s.cq (s.sq j.sq).cq.toNat).staged = [] ∧ (s.cq (s.sq j.sq).cq.toNat).loc = false ∧ (s.rings.sqs.all fun q => q.2.aborts.isEmpty) = true ∧ (s.sq j.sq).state ≠ 3) :=
  ⟨⟨{ rings := { sqs := [(7, { state := 1, size := 3, tail := 2 })] } }, 7, [[1, 2]], by decide⟩,
   ⟨{ rings := { sqs := [(7, { state := 1, size := 3, tail := 2 })] } }, 7, by decide⟩,
   ⟨{ rings := { sqs := [(7, { state := 1, size := 3, cq := 3, fetched := [List.replicate 64 0] })], cqs := [(3, { enable := true, size := 3 })] } }, 7, { state := 1, size := 3, cq := 3, fetched := [List.replicate 64 0] }, List.replicate 64 0, [], by decide⟩,
   ⟨{ rings := { sqs := [(7, { state := 1, size := 3, cq := 3 })], cqs := [(3, { enable := true, size := 3, reserved := 1 })], jobs := [{ id := 9, sq := 7, tag := 4, opcode := 0, flags := 0, object := 0, addr := 0x1000, len := 0, params := [], ended := some (0, 5, 6) }] } }, 9, { id := 9, sq := 7, tag := 4, opcode := 0, flags := 0, object := 0, addr := 0x1000, len := 0, params := [], ended := some (0, 5, 6) }, 0, 5, 6, by decide⟩⟩

/-- The hypotheses of every clause of `Obligations.HostJobs` can be met. -/
theorem wit_hostJobs :
    (∃ (s : State), ∃ (n : Nat), ∃ (j : HostJob),
      asleep s = false ∧ jobOf s n 0 = some j ∧ j.object = 0) ∧
    (∃ (s : State), ∃ (n : Nat), ∃ (j : HostJob),
      asleep s = false ∧ jobOf s n 0 = some j ∧ j.object ≠ 0) ∧
    (∃ (s : State), ∃ (n : Nat), ∃ (j : HostJob), ∃ (d : Bytes),
      asleep s = false ∧ jobOf s n 1 = some j ∧ j.loaded = false ∧ jobTurn s j = true ∧ j.object.toNat < s.pool.handles ∧ ownedByContext (s.surface j.object.toNat) = false ∧ le16 j.params 0 ≠ 0 ∧ le16 j.params 2 ≠ 0 ∧ (u8 j.params 4 = 8 ∨ u8 j.params 4 = 10) ∧ bitOf j.flags.toNat 0 = false ∧ jobLocal s j = false ∧ j.len.toNat = 8192 * (ctuCols (le16 j.params 0) * ctuCols (le16 j.params 2)) ∧ (ctuCols (le16 j.params 0) * ctuCols (le16 j.params 2)) ≤ unreserved s.pool ∧ (s.surface j.object.toNat).prev = none ∧ (s.surface j.object.toNat).table = []) ∧
    (∃ (s : State), ∃ (n : Nat), ∃ (j : HostJob),
      asleep s = false ∧ jobOf s n 2 = some j ∧ jobTurn s j = true ∧ j.object.toNat < s.pool.handles ∧ ownedByContext (s.surface j.object.toNat) = false ∧ (s.surface j.object.toNat).pins + (s.surface j.object.toNat).prevPins ≠ 0) ∧
    (∃ (s : State), ∃ (n : Nat), ∃ (j : HostJob),
      asleep s = false ∧ jobOf s n 3 = some j ∧ jobTurn s j = true ∧ j.object.toNat < s.pool.handles ∧ ownedByContext (s.surface j.object.toNat) = false ∧ (s.surface j.object.toNat).state = .ready ∧ bitOf j.flags.toNat 0 = false ∧ jobLocal s j = false ∧ j.len.toNat = 8192 * (s.surface j.object.toNat).table.length ∧ j.len ≠ 0 ∧ ((s.surface j.object.toNat).table.any fun x => (s.pool.desc x.block).poisoned) = false ∧ ((s.surface j.object.toNat).table.flatMap fun x => blockBytes (s.pool.desc x.block).data) ≠ []) ∧
    (∃ (s : State), ∃ (n : Nat), ∃ (j : HostJob), ∃ (d : Bytes),
      asleep s = false ∧ jobOf s n 4 = some j ∧ jobTurn s j = true ∧ j.object.toNat < 4096 ∧ decValid s j.object.toNat = true ∧ fld s 0x8003 j.object.toNat 2 = 4 ∧ (s.dec j.object.toNat).queue.length < par s 0x5040 1 ∧ ringHeld (s.dec j.object.toNat) + sumNat ((splitNals (slice d 0 j.len.toNat) []).map List.length) ≤ (s.dec j.object.toNat).ringSize ∧ bitOf j.flags.toNat 0 = false ∧ jobLocal s j = false) ∧
    (∃ (s : State), ∃ (n : Nat), ∃ (j : HostJob), ∃ (d : Bytes),
      asleep s = false ∧ jobOf s n 5 = some j ∧ j.object.toNat < 65536 ∧ (j.object.toNat < 65400 ∨ 65407 < j.object.toNat) ∧ fldB s 0x8007 j.object.toNat 1 = true ∧ bitOf j.flags.toNat 0 = false ∧ jobLocal s j = false ∧ 60 ≤ j.len.toNat ∧ j.len.toNat ≤ 9216 ∧ (s.queue j.object.toNat).depth < fld s 0x8007 j.object.toNat 9 ∧ s.bpm.owners.length + cellsOf (slice d 0 j.len.toNat).length ≤ 262144 ∧ (16 ≤ queuePort s j.object.toNat ∨ linkUp s (queuePort s j.object.toNat) = true)) ∧
    (∃ (s : State), ∃ (n : Nat), ∃ (j : HostJob),
      asleep s = false ∧ jobOf s n 6 = some j ∧ s.rings.posted.contains j.id = false ∧ (s.rings.jobs.any fun x => decide (x.id < j.id) && x.opcode == 6 && x.ended.isNone && !(s.rings.posted.contains x.id)) = false ∧ j.object = 0 ∧ bitOf j.flags.toNat 0 = false) :=
  ⟨⟨{ rings := { sqs := [(7, { state := 1, size := 3, cq := 3 })], cqs := [(3, { enable := true, size := 3, reserved := 1 })], jobs := [{ id := 9, sq := 7, tag := 4, opcode := 0, flags := 0, object := 0, addr := 0x1000, len := 0, params := [] }] } }, 9, { id := 9, sq := 7, tag := 4, opcode := 0, flags := 0, object := 0, addr := 0x1000, len := 0, params := [] }, by decide⟩,
   ⟨{ rings := { sqs := [(7, { state := 1, size := 3, cq := 3 })], cqs := [(3, { enable := true, size := 3, reserved := 1 })], jobs := [{ id := 9, sq := 7, tag := 4, opcode := 0, flags := 0, object := 1, addr := 0x1000, len := 0, params := [] }] } }, 9, { id := 9, sq := 7, tag := 4, opcode := 0, flags := 0, object := 1, addr := 0x1000, len := 0, params := [] }, by decide⟩,
   ⟨{ rings := { sqs := [(7, { state := 1, size := 3, cq := 3 })], cqs := [(3, { enable := true, size := 3, reserved := 1 })], jobs := [{ id := 9, sq := 7, tag := 4, opcode := 1, flags := 0, object := 4, addr := 0x1000, len := 8192, params := [64, 0, 64, 0, 8] }] }, pool := { hbmFrames := 4 } }, 9, { id := 9, sq := 7, tag := 4, opcode := 1, flags := 0, object := 4, addr := 0x1000, len := 8192, params := [64, 0, 64, 0, 8] }, [], by decide⟩,
   ⟨{ rings := { sqs := [(7, { state := 1, size := 3, cq := 3 })], cqs := [(3, { enable := true, size := 3, reserved := 1 })], jobs := [{ id := 9, sq := 7, tag := 4, opcode := 2, flags := 0, object := 4, addr := 0x1000, len := 0, params := [] }] }, pool := { surfaces := [(4, { state := .ready, table := [{ block := 0, gen := 1 }], pins := 1 })] } }, 9, { id := 9, sq := 7, tag := 4, opcode := 2, flags := 0, object := 4, addr := 0x1000, len := 0, params := [] }, by decide⟩,
   ⟨{ rings := { sqs := [(7, { state := 1, size := 3, cq := 3 })], cqs := [(3, { enable := true, size := 3, reserved := 1 })], jobs := [{ id := 9, sq := 7, tag := 4, opcode := 3, flags := 0, object := 4, addr := 0x1000, len := 8192, params := [] }] }, pool := { surfaces := [(4, { state := .ready, table := [{ block := 2, gen := 1 }] })], descs := [(2, { data := [5] })] } }, 9, { id := 9, sq := 7, tag := 4, opcode := 3, flags := 0, object := 4, addr := 0x1000, len := 8192, params := [] }, by decide⟩,
   ⟨{ rings := { sqs := [(7, { state := 1, size := 3, cq := 3 })], cqs := [(3, { enable := true, size := 3, reserved := 1 })], jobs := [{ id := 9, sq := 7, tag := 4, opcode := 4, flags := 0, object := 5, addr := 0x1000, len := 4, params := [0, 0, 0, 0, 7, 0, 0, 0] }] }, dict := { params := [(pkey 0x8003 1 (some 5), .num 1), (pkey 0x8003 2 (some 5), .num 4)] } }, 9, { id := 9, sq := 7, tag := 4, opcode := 4, flags := 0, object := 5, addr := 0x1000, len := 4, params := [0, 0, 0, 0, 7, 0, 0, 0] }, [0, 0, 1, 5], by decide⟩,
   ⟨{ rings := { sqs := [(7, { state := 1, size := 3, cq := 3 })], cqs := [(3, { enable := true, size := 3, reserved := 1 })], jobs := [{ id := 9, sq := 7, tag := 4, opcode := 5, flags := 0, object := 65408, addr := 0x1000, len := 60, params := [] }] }, selv := { links := 1 } }, 9, { id := 9, sq := 7, tag := 4, opcode := 5, flags := 0, object := 65408, addr := 0x1000, len := 60, params := [] }, [1, 2], by decide⟩,
   ⟨{ rings := { sqs := [(7, { state := 1, size := 3, cq := 3 })], cqs := [(3, { enable := true, size := 3, reserved := 1 })], jobs := [{ id := 9, sq := 7, tag := 4, opcode := 6, flags := 0, object := 0, addr := 0x1000, len := 4, params := [] }] } }, 9, { id := 9, sq := 7, tag := 4, opcode := 6, flags := 0, object := 0, addr := 0x1000, len := 4, params := [] }, by decide⟩⟩

/-- The hypotheses of every clause of `Obligations.DmaStartsAndStops` can be met. -/
theorem wit_dmaStartsAndStops :
    (∃ (s : State), ∃ (m : Master), ∃ (ch : Fin 32),
      asleep s = false ∧ s.dma.halted = false ∧ (s.chan ch).state = 0 ∧ (s.chan ch).invalid = false ∧ (s.chan ch).pause = false ∧ masterOk m = true) ∧
    (∃ (s : State), ∃ (m : Master), ∃ (ch : Fin 32),
      asleep s = false ∧ s.dma.halted = false ∧ (s.chan ch).state = 0 ∧ (s.chan ch).len = 0 ∧ masterOk m = true) ∧
    (∃ (s : State), ∃ (m : Master), ∃ (ch : Fin 32),
      asleep s = false ∧ s.dma.halted = false ∧ ((s.chan ch).state = 1 ∨ (s.chan ch).state = 2) ∧ masterOk m = true) ∧
    (∃ (s : State), ∃ (m : Master), ∃ (ch : Fin 32),
      asleep s = false ∧ (s.chan ch).state ≠ 1 ∧ masterOk m = true) ∧
    (∃ (s : State), ∃ (m : Master), ∃ (ch : Fin 32),
      asleep s = false ∧ (s.chan ch).state = 1 ∧ (s.chan ch).held = false ∧ masterOk m = true) ∧
    (∃ (s : State), ∃ (m : Master), ∃ (ch : Fin 32),
      asleep s = false ∧ (s.chan ch).state = 3 ∧ masterOk m = true) ∧
    (∃ (s : State), ∃ (m : Master), ∃ (ch : Fin 32),
      asleep s = false ∧ ((s.chan ch).state = 3 ∨ (s.chan ch).state = 2) ∧ (s.chan ch).held = false ∧ masterOk m = true) ∧
    (∃ (s : State), ∃ (m : Master), ∃ (ch : Fin 32),
      asleep s = false ∧ (s.chan ch).state = 1 ∧ (s.chan ch).held = false ∧ masterOk m = true) ∧
    (∃ (s : State), ∃ (ch : Fin 32), ∃ (a : BitVec 48), ∃ (d : Bytes),
      asleep s = false ∧ (s.chan ch).state = 1 ∧ ((s.chan ch).srcDev = false ∨ (s.chan ch).dstDev = false) ∧ (s.dma.chans.all fun q => q.1 == ch.val || (q.2.state != 1 && q.2.state != 2)) = true) ∧
    (∃ (s : State), ∃ (m : Master),
      asleep s = false ∧ (s.dma.chans.all fun q => q.2.state != 2 && !q.2.held) = true ∧ masterOk m = true) :=
  ⟨⟨{ dma := { chans := [(2, { len := 16 })] } }, 0x240, 2, by decide⟩,
   ⟨{}, 0x240, 2, by decide⟩,
   ⟨{ dma := { chans := [(2, { len := 16, state := 1 })] } }, 0x240, 2, by decide⟩,
   ⟨{ dma := { chans := [(2, { len := 16 })] } }, 0x240, 2, by decide⟩,
   ⟨{ dma := { chans := [(2, { len := 16, state := 1 })] } }, 0x240, 2, by decide⟩,
   ⟨{ dma := { chans := [(2, { len := 16, state := 3, pause := true })] } }, 0x240, 2, by decide⟩,
   ⟨{ dma := { chans := [(2, { len := 16, state := 3 })] } }, 0x240, 2, by decide⟩,
   ⟨{ dma := { chans := [(2, { len := 16, state := 1 })] } }, 0x240, 2, by decide⟩,
   ⟨{ dma := { chans := [(2, { len := 16, state := 1 })] } }, 2, 0x1000, [], by decide⟩,
   ⟨{ dma := { chans := [(2, { len := 16 })], halted := true } }, 0x240, by decide⟩⟩

/-- The hypotheses of every clause of `Obligations.DmaCopies` can be met. -/
theorem wit_dmaCopies :
    (∃ (s : State), ∃ (ch : Fin 32),
      asleep s = false ∧ (s.chan ch).state = 1 ∧ (s.chan ch).srcFixed = false ∧ (s.chan ch).dstFixed = false ∧ (s.chan ch).held = false ∧ s.mem.wf = true ∧ (s.chan ch).srcDev = true ∧ (s.chan ch).dstDev = true ∧ readable s (mDma ch) (accesses false (s.chan ch).unit ((s.chan ch).len.toNat + 1) (s.chan ch).src.toNat (s.chan ch).len.toNat) = ((s.chan ch).len.toNat, none) ∧ ((accesses false (s.chan ch).unit ((s.chan ch).len.toNat + 1) (s.chan ch).dst.toNat (s.chan ch).len.toNat).all fun x => devMapped s (mDma ch) x.1 x.2) = true) ∧
    (∃ (s : State), ∃ (ch : Fin 32), ∃ (d : Bytes),
      asleep s = false ∧ (s.chan ch).state = 1 ∧ (s.chan ch).srcFixed = false ∧ (s.chan ch).dstFixed = false ∧ (s.chan ch).held = false ∧ s.mem.wf = true ∧ (s.chan ch).srcDev = false ∧ (s.chan ch).dstDev = true ∧ ((accesses false (s.chan ch).unit ((s.chan ch).len.toNat + 1) (s.chan ch).dst.toNat (s.chan ch).len.toNat).all fun x => devMapped s (mDma ch) x.1 x.2) = true) ∧
    (∃ (s : State), ∃ (ch : Fin 32),
      asleep s = false ∧ (s.chan ch).state = 1 ∧ (s.chan ch).srcFixed = false ∧ (s.chan ch).dstFixed = false ∧ (s.chan ch).held = false ∧ (s.chan ch).srcDev = true ∧ (s.chan ch).dstDev = false ∧ readable s (mDma ch) (accesses false (s.chan ch).unit ((s.chan ch).len.toNat + 1) (s.chan ch).src.toNat (s.chan ch).len.toNat) = ((s.chan ch).len.toNat, none)) ∧
    (∃ (s : State), ∃ (ch : Fin 32), ∃ (d : Bytes),
      asleep s = false ∧ (s.chan ch).state = 1 ∧ (s.chan ch).srcFixed = false ∧ (s.chan ch).dstFixed = false ∧ (s.chan ch).held = false ∧ (s.chan ch).srcDev = false ∧ (s.chan ch).dstDev = false) :=
  ⟨⟨{ dma := { chans := [(2, { state := 1, srcDev := true, dstDev := true, src := 0x100, dst := 0x200, len := 16 })] } }, 2, by decide⟩,
   ⟨{ dma := { chans := [(2, { state := 1, dstDev := true, src := 0x100, dst := 0x200, len := 16 })] } }, 2, [1, 2, 3], by decide⟩,
   ⟨{ dma := { chans := [(2, { state := 1, srcDev := true, src := 0x100, dst := 0x200, len := 16 })] } }, 2, by decide⟩,
   ⟨{ dma := { chans := [(2, { len := 16, state := 1 })] } }, 2, [1, 2], by decide⟩⟩

/-- The hypotheses of every clause of `Obligations.InterruptSources` can be met. -/
theorem wit_interruptSources :
    (∃ (s : State), ∃ (n : BitVec 12), ∃ (m : Master), ∃ (d : Bytes),
      asleep s = false ∧ edgeIn .shared n.toNat = true ∧ masterOk m = true) ∧
    (∃ (s : State), ∃ (k : Fin 16), ∃ (n : BitVec 12), ∃ (m : Master), ∃ (d : Bytes),
      asleep s = false ∧ edgeIn (.priv k) n.toNat = true ∧ masterOk m = true) ∧
    (∃ (s : State), ∃ (m : Master), ∃ (g : IntTarget), ∃ (k : Nat),
      asleep s = false ∧ bestSrc s (eligibleKeys s g) = some k ∧ masterOk m = true) ∧
    (∃ (s : State), ∃ (m : Master), ∃ (g : IntTarget),
      asleep s = false ∧ bestSrc s (eligibleKeys s g) = none ∧ s.intc.notified.contains g = true ∧ masterOk m = true) ∧
    (∃ (s : State), ∃ (m : Master), ∃ (g : IntTarget), ∃ (n : BitVec 12),
      asleep s = false ∧ (s.intc.src (completeKey g n.toNat)).active = some g ∧ masterOk m = true) ∧
    (∃ (s : State), ∃ (m : Master), ∃ (g : IntTarget), ∃ (n : BitVec 12),
      asleep s = false ∧ (s.intc.src (completeKey g n.toNat)).active ≠ some g ∧ masterOk m = true) ∧
    (∃ (s : State), ∃ (m : Master), ∃ (bank : IntBank), ∃ (w : Fin 128), ∃ (v : Word),
      asleep s = false ∧ bankReachable s bank = true ∧ masterOk m = true) ∧
    (∃ (s : State), ∃ (m : Master), ∃ (bank : IntBank), ∃ (w : Fin 128), ∃ (v : Word),
      asleep s = false ∧ bankReachable s bank = true ∧ masterOk m = true) ∧
    (∃ (s : State), ∃ (m : Master), ∃ (bank : IntBank), ∃ (w : Fin 128), ∃ (v : Word),
      asleep s = false ∧ bankReachable s bank = true ∧ masterOk m = true) ∧
    (∃ (s : State), ∃ (m : Master), ∃ (bank : IntBank), ∃ (w : Fin 128), ∃ (v : Word),
      asleep s = false ∧ bankReachable s bank = true ∧ masterOk m = true) ∧
    (∃ (s : State), ∃ (m : Master), ∃ (bank : IntBank), ∃ (w : Fin 128), ∃ (v : Word),
      asleep s = false ∧ bankReachable s bank = true ∧ masterOk m = true) ∧
    (∃ (s : State), ∃ (m : Master), ∃ (k : Fin 16), ∃ (v : Word),
      asleep s = false ∧ corePhys s (v.toNat % 16) ≠ 0xFF ∧ masterOk m = true) ∧
    (∃ (s : State), ∃ (n : BitVec 12), ∃ (v : Fin 2048),
      asleep s = false ∧ n.toNat ∈ candidates s ∧ modHeld s n.toNat = false ∧ isClassA s n.toNat = false ∧ classBTarget s n.toNat = .vector v ∧ eligibleAt s (.vector v) n.toNat = true) ∧
    (∃ (s : State), ∃ (m : Master), ∃ (c : Fin 8), ∃ (lo : Word), ∃ (hi : Word), ∃ (r : List (Word × Word)),
      asleep s = false ∧ lookD [] s.intc.logs c.val = (lo, hi) :: r ∧ masterOk m = true) :=
  ⟨⟨{}, 8, 5, [1], by decide⟩,
   ⟨{}, 3, 0x41, 5, [1], by decide⟩,
   ⟨{ intc := { sources := [(8, { cfg := some { toMsix := true, target := 5, prio := 3 }, pending := true, unmasked := true })] } }, 0x240, .vector 5, 8, by decide⟩,
   ⟨{ intc := { notified := [.vector 5] } }, 0x240, .vector 5, by decide⟩,
   ⟨{ intc := { sources := [(8, { cfg := some { toMsix := true, target := 5, prio := 3 }, pending := true, unmasked := true, active := some (.vector 5) })] } }, 0x240, .vector 5, 8, by decide⟩,
   ⟨{}, 0x240, .vector 5, 8, by decide⟩,
   ⟨{}, 0x240, .shared, 0, 0x100, by decide⟩,
   ⟨{ intc := { sources := [(8, { cfg := some { toMsix := true, target := 5, prio := 3 }, pending := true, unmasked := true })] } }, 0x240, .shared, 0, 0x100, by decide⟩,
   ⟨{}, 0x240, .shared, 0, 0x100, by decide⟩,
   ⟨{ intc := { sources := [(8, { cfg := some { toMsix := true, target := 5, prio := 3 }, pending := true, unmasked := true })] } }, 0x240, .shared, 0, 0x100, by decide⟩,
   ⟨{}, 0x240, .shared, 0, 0x100, by decide⟩,
   ⟨{}, 0x240, 3, 5, by decide⟩,
   ⟨{ clk := { now := 900000 }, intc := { sources := [(8, { cfg := some { toMsix := true, target := 5, prio := 3 }, pending := true, unmasked := true, claimedAt := some 5 })] } }, 8, 5, by decide⟩,
   ⟨{ intc := { logs := [(2, [(5, 6)])] } }, 0x240, 2, 5, 6, [], by decide⟩⟩

/-- The hypotheses of every clause of `Obligations.BuffersOfThePool` can be met. -/
theorem wit_buffersOfThePool :
    (∃ (s : State), ∃ (m : Master), ∃ (l : List (BitVec 18)),
      asleep s = false ∧ s.bpm.owners.length < 262144 ∧ tabWf s.bpm.owners = true ∧ s.bpm.mode = 0 ∧ masterOk m = true) ∧
    (∃ (s : State), ∃ (m : Master),
      asleep s = false ∧ s.bpm.owners = [] ∧ s.bpm.mode = 1 ∧ s.bpm.rateN < 2 ∧ masterOk m = true) ∧
    (∃ (s : State), ∃ (m : Master),
      asleep s = false ∧ s.bpm.owners.length < 262144 ∧ tabWf s.bpm.owners = true ∧ s.bpm.mode = 0 ∧ s.bpm.rateN < 2 ∧ masterOk m = true) ∧
    (∃ (s : State), ∃ (m : Master), ∃ (b : BitVec 18),
      asleep s = false ∧ look s.bpm.owners b.toNat = some m ∧ tabWf s.bpm.owners = true ∧ masterOk m = true) ∧
    (∃ (s : State), ∃ (m : Master), ∃ (b : BitVec 18), ∃ (o : Master),
      asleep s = false ∧ look s.bpm.owners b.toNat = some o ∧ o ≠ m ∧ masterOk m = true) ∧
    (∃ (s : State), ∃ (m : Master), ∃ (b : BitVec 18),
      asleep s = false ∧ look s.bpm.owners b.toNat = none ∧ masterOk m = true) ∧
    (∃ (s : State), ∃ (m : Master), ∃ (b : BitVec 18), ∃ (o : Master),
      asleep s = false ∧ look s.bpm.owners b.toNat = some m ∧ masterOk m = true) ∧
    (∃ (s : State), ∃ (m : Master), ∃ (v : Word),
      asleep s = false ∧ masterOk m = true) ∧
    (∃ (s : State),
      asleep s = false) :=
  ⟨⟨{}, 0x240, [], by decide⟩,
   ⟨{ bpm := { mode := 1 } }, 0x240, by decide⟩,
   ⟨{}, 0x240, by decide⟩,
   ⟨{ bpm := { owners := [(3, 0x240)], free := 262143 } }, 0x240, 3, by decide⟩,
   ⟨{ bpm := { owners := [(3, 0x241)] } }, 0x240, 3, 0x241, by decide⟩,
   ⟨{}, 0x240, 3, by decide⟩,
   ⟨{ bpm := { owners := [(3, 0x240)] } }, 0x240, 3, 0x290, by decide⟩,
   ⟨{}, 0x240, 9, by decide⟩,
   ⟨{ bpm := { mode := 1 } }, by decide⟩⟩

/-- The hypotheses of every clause of `Obligations.MemoryScrubAndSpares` can be met. -/
theorem wit_memoryScrubAndSpares :
    (∃ (s : State), ∃ (a : BitVec 48), ∃ (r : Nat), ∃ (u : Option HwUnit),
      asleep s = false ∧ hourCount (s.sramCounted r u) (0x40000 + r) < par s 0x7030 4) ∧
    (∃ (s : State), ∃ (a : BitVec 48), ∃ (r : Nat), ∃ (u : Option HwUnit),
      asleep s = false ∧ par s 0x7030 4 ≤ hourCount (s.sramCounted r u) (0x40000 + r) ∧ s.sparing.repairs.contains r = false ∧ s.sparing.repairs.length < 256) ∧
    (∃ (s : State), ∃ (a : BitVec 48), ∃ (e : CodeErr),
      asleep s = false ∧ a.toNat = s.mem.scrubAt ∧ s.boot.hbm = true ∧ a.toNat + 32 < hbmEnd ∧ s.mem.poison.contains (a.toNat / 32) = false ∧ codeOutcome e s.clk.free = .clean) ∧
    (∃ (s : State), ∃ (a : BitVec 48), ∃ (e : CodeErr),
      asleep s = false ∧ a.toNat = s.mem.scrubAt ∧ s.boot.hbm = true ∧ a.toNat + 32 = hbmEnd ∧ s.mem.poison.contains (a.toNat / 32) = false ∧ s.mem.ddrBytes = 0 ∧ codeOutcome e s.clk.free = .clean) ∧
    (∃ (s : State), ∃ (a : BitVec 48), ∃ (e : CodeErr),
      asleep s = false ∧ a.toNat = s.mem.scrubAt ∧ s.boot.hbm = true ∧ a.toNat + 32 = hbmEnd ∧ s.mem.poison.contains (a.toNat / 32) = false ∧ s.mem.ddrBytes ≠ 0 ∧ codeOutcome e s.clk.free = .clean) ∧
    (∃ (s : State), ∃ (a : BitVec 48), ∃ (e : CodeErr),
      asleep s = false ∧ a.toNat = s.mem.scrubAt ∧ s.boot.hbm = true ∧ a.toNat < hbmEnd ∧ s.mem.poison.contains (a.toNat / 32) = false ∧ codeOutcome e s.clk.free = .corrected) ∧
    (∃ (s : State), ∃ (a : BitVec 48), ∃ (e : CodeErr),
      asleep s = false ∧ a.toNat = s.mem.scrubAt ∧ s.boot.hbm = true ∧ a.toNat < hbmEnd ∧ (codeOutcome e s.clk.free = .uncorrectable ∨ s.mem.poison.contains (a.toNat / 32) = true)) ∧
    (∃ (s : State), ∃ (a : BitVec 48), ∃ (e : CodeErr),
      asleep s = false ∧ a.toNat = s.mem.scrubAt ∧ ddrBase ≤ a.toNat ∧ s.boot.ddr = true ∧ s.mem.poison.contains (a.toNat / 32) = false ∧ codeOutcome e s.clk.free = .corrected) ∧
    (∃ (s : State), ∃ (a : BitVec 48), ∃ (e : CodeErr),
      asleep s = false ∧ a.toNat = s.mem.scrubAt ∧ ddrBase ≤ a.toNat ∧ s.boot.ddr = true ∧ a.toNat < ddrBase + s.mem.ddrBytes ∧ (codeOutcome e s.clk.free = .uncorrectable ∨ s.mem.poison.contains (a.toNat / 32) = true)) ∧
    (∃ (s : State), ∃ (k : Fin 4), ∃ (c : Fin 31),
      asleep s = false ∧ (s.hbm k).trained = true ∧ (s.hbm k).replaced = none ∧ (s.hbm k).copying = none) ∧
    (∃ (s : State), ∃ (k : Fin 4), ∃ (c : Fin 31), ∃ (d : Nat),
      asleep s = false ∧ (s.hbm k).replaced = some d) ∧
    (∃ (s : State), ∃ (k : Fin 4), ∃ (l : List (BitVec 48)), ∃ (c : Nat),
      asleep s = false ∧ (s.hbm k).copying = some c ∧ (l.all fun x => decide (hbmBase ≤ x.toNat ∧ x.toNat < hbmEnd ∧ hbmPlace x.toNat = (k.val, c))) = true) ∧
    (∃ (s : State), ∃ (c : Fin 8), ∃ (r : Fin 4), ∃ (p : Nat),
      asleep s = false ∧ (s.ddr c).trained = true ∧ (s.ddr c).spare = some p ∧ p ≠ r.val ∧ (s.ddr c).migrating = none ∧ (s.ddr c).retired = none ∧ r.val < (s.ddr c).ranks) ∧
    (∃ (s : State), ∃ (c : Fin 8), ∃ (r : Fin 4),
      asleep s = false ∧ (s.ddr c).spare = none) ∧
    (∃ (s : State), ∃ (c : Fin 8), ∃ (l : List (BitVec 48)), ∃ (r : Nat),
      asleep s = false ∧ (s.ddr c).migrating = some r ∧ (l.all fun x => decide (ddrBase ≤ x.toNat ∧ ddrPlace s x.toNat = (c.val, r))) = true) ∧
    (∃ (s : State), ∃ (c : Fin 8), ∃ (r : Fin 4),
      asleep s = false ∧ par s 0x2050 4 ≠ 0 ∧ (s.ddr c).trained = true ∧ r.val < (s.ddr c).ranks ∧ (s.ddr c).migrating ≠ some r.val ∧ (s.ddr c).down.contains r.val = false ∧ lookD 0 (s.ddr c).touched r + 1000 * par s 0x2050 4 ≤ s.clk.now) :=
  ⟨⟨{}, 0, 7, some (.encTile 3), by decide⟩,
   ⟨{ faults := { bins := [(binKey 0x40007 0, 100)] } }, 0, 7, none, by decide⟩,
   ⟨{ boot := { hbm := true } }, 0x010000000000, {}, by decide⟩,
   ⟨{ boot := { hbm := true }, mem := { scrubAt := 0x01173FFFFFE0 } }, 0x01173FFFFFE0, {}, by decide⟩,
   ⟨{ boot := { hbm := true }, mem := { scrubAt := 0x01173FFFFFE0, ddrBytes := 4096 } }, 0x01173FFFFFE0, {}, by decide⟩,
   ⟨{ boot := { hbm := true } }, 0x010000000000, { bits := [5] }, by decide⟩,
   ⟨{ boot := { hbm := true } }, 0x010000000000, { moved := true }, by decide⟩,
   ⟨{ boot := { ddr := true }, mem := { scrubAt := 0x020000000000, ddrBytes := 4096 } }, 0x020000000000, { bits := [4, 5] }, by decide⟩,
   ⟨{ boot := { ddr := true }, mem := { scrubAt := 0x020000000000, ddrBytes := 4096, ddrs := [(0, { trained := true, ranks := 2, rankBytes := 4096, spare := some 1 })] } }, 0x020000000000, { bits := [5, 6] }, by decide⟩,
   ⟨{ mem := { hbms := [(1, { trained := true })] } }, 1, 30, by decide⟩,
   ⟨{ mem := { hbms := [(1, { trained := true, replaced := some 4 })] } }, 1, 30, 4, by decide⟩,
   ⟨{ mem := { hbms := [(1, { trained := true, copying := some 4 })] } }, 1, [0x010000001100, 0x010000001120], 4, by decide⟩,
   ⟨{ mem := { ddrs := [(1, { trained := true, ranks := 2, spare := some 1 })] } }, 1, 0, 1, by decide⟩,
   ⟨{}, 1, 0, by decide⟩,
   ⟨{ mem := { ddrBytes := 65536, ddrs := [(1, { trained := true, ranks := 2, spare := some 1, migrating := some 0 })] } }, 1, [0x020000000120], 0, by decide⟩,
   ⟨{ dict := { params := [(pkey 0x2050 4 none, .num 1)] }, mem := { ddrs := [(1, { trained := true, ranks := 2 })] }, clk := { now := 1000 } }, 1, 1, by decide⟩⟩

/-- The hypotheses of every clause of `Obligations.FaultsReachTheFaultUnit` can be met. -/
theorem wit_faultsReachTheFaultUnit :
    (∃ (s : State), ∃ (k : BitVec 8), ∃ (acc : Access), ∃ (m : Master), ∃ (a : BitVec 48), ∃ (u : Option HwUnit),
      asleep s = false ∧ 0x01 ≤ k ∧ k ≤ 0x12 ∧ masterOk m = true) ∧
    (∃ (s : State), ∃ (k : BitVec 8), ∃ (acc : Access), ∃ (m : Master), ∃ (a : BitVec 48), ∃ (u : Option HwUnit),
      asleep s = false ∧ 0x80 ≤ k ∧ k ≤ 0x83 ∧ masterOk m = true) ∧
    (∃ (s : State), ∃ (k : BitVec 8), ∃ (acc : Access), ∃ (m : Master), ∃ (a : BitVec 48), ∃ (u : Option HwUnit),
      asleep s = false ∧ (k = 0 ∨ (0x12 < k ∧ k < 0x80) ∨ 0x83 < k) ∧ masterOk m = true) ∧
    (∃ (s : State), ∃ (m : Master), ∃ (v : Word),
      asleep s = false ∧ masterOk m = true) ∧
    (∃ (s : State), ∃ (m : Master), ∃ (v : Word), ∃ (k : BitVec 8), ∃ (who : Master), ∃ (a : BitVec 48), ∃ (acc : Access),
      asleep s = false ∧ v.getLsbD 31 = true ∧ 0x01 ≤ k ∧ k ≤ 0x12 ∧ masterOk who = true ∧ masterOk m = true) ∧
    (∃ (s : State), ∃ (st : Straps), ∃ (d : Nat),
      asleep s = false ∧ s.faults.pulseEnd = some d ∧ d ≤ s.clk.now ∧ s.faults.escalating = true) ∧
    (∃ (s : State), ∃ (st : Straps), ∃ (d : Nat),
      asleep s = false ∧ s.faults.pulseEnd = some d ∧ d ≤ s.clk.now ∧ s.faults.escalating = false ∧ s.faults.hold = false) ∧
    (∃ (s : State), ∃ (st : Straps), ∃ (d : Nat),
      asleep s = false ∧ s.faults.pulseEnd = some d ∧ s.clk.now < d) ∧
    (∃ (s : State),
      asleep s = false ∧ logSecond s ≠ s.faults.logSec ∧ s.faults.excess ≠ 0 ∧ storeOpen s = true ∧ s.store.faultLog.length ≤ 8192) :=
  ⟨⟨{}, 5, .write, 0x240, 0x1000, none, by decide⟩,
   ⟨{}, 0x81, .read, 0x240, 0x1000, none, by decide⟩,
   ⟨{}, 0x13, .read, 0x240, 0, none, by decide⟩,
   ⟨{ faults := { valid := true, overflow := true } }, 0x240, 0x80000000, by decide⟩,
   ⟨{ faults := { valid := true, overflow := true, kind := 9 } }, 0x240, 0xC0000000, 5, 0x290, 0x2000, .read, by decide⟩,
   ⟨{ faults := { pulseEnd := some 5, escalating := true }, clk := { now := 9 } }, {}, 5, by decide⟩,
   ⟨{ faults := { pulseEnd := some 5 }, clk := { now := 9 } }, {}, 5, by decide⟩,
   ⟨{ faults := { pulseEnd := some 5 } }, {}, 5, by decide⟩,
   ⟨{ faults := { excess := 4 }, clk := { now := 3000000000 } }, by decide⟩⟩

/-- The hypotheses of every clause of `Obligations.UnitsRegrow` can be met. -/
theorem wit_unitsRegrow :
    (∃ (s : State), ∃ (u : HwUnit), ∃ (v : HwUnit),
      asleep s = false ∧ (unitLogical s u).isSome = true ∧ regrowing s u = false ∧ parB s 0x7030 5 = true ∧ par s 0x7030 3 ≤ hourCount s (0x30000 + unitItem u) ∧ spareFor s u = some v) ∧
    (∃ (s : State), ∃ (u : HwUnit), ∃ (v : HwUnit),
      asleep s = false ∧ (unitLogical s u).isSome = true ∧ regrowing s u = false ∧ parB s 0x7030 5 = true ∧ (unitKind u = 5 ∨ par s 0x7030 2 ≤ hourCount s (unitItem u)) ∧ spareFor s u = some v) ∧
    (∃ (s : State), ∃ (u : HwUnit),
      asleep s = false ∧ (unitLogical s u).isSome = true ∧ regrowing s u = false ∧ parB s 0x7030 5 = false ∧ (unitKind u = 5 ∨ par s 0x7030 2 ≤ hourCount s (unitItem u))) ∧
    (∃ (s : State), ∃ (u : HwUnit), ∃ (g : BitVec 8),
      asleep s = false ∧ (unitLogical s u).isSome = true ∧ regrowing s u = false ∧ parB s 0x7030 5 = true ∧ spareFor s u = none ∧ alook s.faults.margins u = some g ∧ g ≠ 0xFF ∧ g.toNat < par s 0x7030 1) ∧
    (∃ (s : State), ∃ (k : Fin 18), ∃ (l : Nat),
      asleep s = false ∧ coreLogical s k = some l ∧ regrowing s (.core k) = false ∧ parB s 0x7030 5 = true ∧ spareFor s (.core k) = none) ∧
    (∃ (s : State), ∃ (u : HwUnit),
      asleep s = false ∧ (match alook s.faults.margins u with | some g => decide (g ≠ 0xFF) && decide (g.toNat < par s 0x7030 1) | none => false) = false) ∧
    (∃ (s : State), ∃ (u : HwUnit),
      asleep s = false ∧ unitKind u ≠ 5 ∧ hourCount s (unitItem u) < par s 0x7030 2) ∧
    (∃ (s : State), ∃ (u : HwUnit),
      asleep s = false ∧ hourCount s (0x30000 + unitItem u) < par s 0x7030 3) ∧
    (∃ (s : State), ∃ (a : Act), ∃ (r : List Act), ∃ (u : HwUnit), ∃ (v : HwUnit),
      asleep s = false ∧ takeFirst (fun x : Act => x.idx == 0x7031 && x.sub == 1) s.dict.acts = some (a, r) ∧ codeUnit s a.val.nat = some u ∧ regrowing s u = false ∧ spareFor s u = some v) ∧
    (∃ (s : State), ∃ (r : Regrow),
      asleep s = false ∧ s.faults.regrows = [r] ∧ r.tested = false) ∧
    (∃ (s : State), ∃ (r : Regrow), ∃ (n : Nat),
      asleep s = false ∧ s.faults.regrows = [r] ∧ r.tested = false ∧ r.spare = some n ∧ r.failure = false) ∧
    (∃ (s : State), ∃ (r : Regrow), ∃ (k : Fin 18), ∃ (n : Nat), ∃ (l : Nat),
      asleep s = false ∧ s.faults.regrows = [r] ∧ r.tested = true ∧ r.unit = .core k ∧ r.spare = some n ∧ coreLogical s k = some l) ∧
    (∃ (s : State), ∃ (r : Regrow), ∃ (k : Fin 72), ∃ (n : Nat), ∃ (l : Nat),
      asleep s = false ∧ s.faults.regrows = [r] ∧ r.tested = true ∧ r.unit = .encTile k ∧ r.spare = some n ∧ n ≠ k.val ∧ (s.tile k).frame = none ∧ encLogical s k = some l) ∧
    (∃ (s : State), ∃ (r : Regrow),
      asleep s = false ∧ s.faults.regrows = [r] ∧ (r.tested && atBoundary s r) = false) ∧
    (∃ (s : State), ∃ (u : HwUnit), ∃ (m : BitVec 8),
      asleep s = false ∧ (unitLogical s u).isSome = true) ∧
    (∃ (s : State), ∃ (k : Fin 16),
      asleep s = false ∧ corePhys s k ≠ 0xFF) :=
  ⟨⟨{ faults := { bins := [(binKey (0x30000 + unitItem (.encTile 3)) 0, 1000)] } }, .encTile 3, .encTile 8, by decide⟩,
   ⟨{}, .gavonLane 2, .gavonLane 4, by decide⟩,
   ⟨{ dict := { params := [(pkey 0x7030 5 none, .num 0)] } }, .gavonLane 2, by decide⟩,
   ⟨{ store := { sparing := { retired := [.engine 8] } }, faults := { margins := [(.engine 2, 0)] } }, .engine 2, 0, by decide⟩,
   ⟨{ store := { sparing := { retired := [.core 16, .core 17] } } }, 2, 2, by decide⟩,
   ⟨{ faults := { margins := [(.core 2, 0xFF)] } }, .core 2, by decide⟩,
   ⟨{}, .core 2, by decide⟩,
   ⟨{}, .core 2, by decide⟩,
   ⟨{ dict := { acts := [⟨0x7031, 1, .num 0x02000003, 1, .can 5⟩] } }, ⟨0x7031, 1, .num 0x02000003, 1, .can 5⟩, [], .decTile 3, .decTile 4, by decide⟩,
   ⟨{ faults := { regrows := [⟨.core 2, false, some 16, false, 0⟩] } }, ⟨.core 2, false, some 16, false, 0⟩, by decide⟩,
   ⟨{ faults := { regrows := [⟨.core 2, false, some 16, false, 0⟩] } }, ⟨.core 2, false, some 16, false, 0⟩, 16, by decide⟩,
   ⟨{ faults := { regrows := [⟨.core 2, false, some 16, true, 0⟩] } }, ⟨.core 2, false, some 16, true, 0⟩, 2, 16, 2, by decide⟩,
   ⟨{ faults := { regrows := [⟨.encTile 3, false, some 8, true, 0⟩] } }, ⟨.encTile 3, false, some 8, true, 0⟩, 3, 8, 3, by decide⟩,
   ⟨{ faults := { regrows := [⟨.core 2, false, some 16, false, 0⟩] } }, ⟨.core 2, false, some 16, false, 0⟩, by decide⟩,
   ⟨{}, .core 2, 17, by decide⟩,
   ⟨{}, 3, by decide⟩⟩

/-- The hypotheses of every clause of `Obligations.TemperatureAndCabinet` can be met. -/
theorem wit_temperatureAndCabinet :
    (∃ (s : State), ∃ (tj : Int),
      asleep s = false ∧ gradeLimit < tj ∧ s.faults.hot = false) ∧
    (∃ (s : State), ∃ (tj : Int),
      asleep s = false ∧ s.faults.hot = true) ∧
    (∃ (s : State), ∃ (tj : Int),
      asleep s = false ∧ tj ≤ gradeLimit - 3) ∧
    (∃ (s : State), ∃ (tj : Int), ∃ (n : Nat),
      asleep s = false ∧ gradeLimit + 10 ≤ tj ∧ 1000000 ≤ n) ∧
    (∃ (s : State), ∃ (tj : Int), ∃ (n : Nat),
      asleep s = false ∧ n < 1000000) ∧
    (∃ (s : State), ∃ (tj : Int), ∃ (st : Straps),
      s.clk.scan = false ∧ s.boot.held = true ∧ tj ≤ gradeLimit - 10) ∧
    (∃ (s : State), ∃ (n : Fin 16), ∃ (v : Bool), ∃ (us : Nat), ∃ (c : Word),
      asleep s = false ∧ s.faults.gpio.getLsbD n ≠ v ∧ par s 0x7061 (n + 1) ≤ us) ∧
    (∃ (s : State), ∃ (n : Fin 16), ∃ (v : Bool), ∃ (us : Nat), ∃ (c : Word),
      asleep s = false ∧ (s.faults.gpio.getLsbD n = v ∨ us < par s 0x7061 (n + 1))) ∧
    (∃ (s : State), ∃ (n : Fin 16),
      asleep s = false ∧ gpioActive s n (s.faults.gpio.getLsbD n) = true ∧ s.faults.stuck.getLsbD n = false ∧ lookD s.boot.resetAt s.faults.gpioSince n + par s 0x7060 4 * 1000000000 ≤ s.clk.now) :=
  ⟨⟨{}, 120, by refine ⟨by decide, ?_, by decide⟩; unfold gradeLimit; split <;> decide⟩,
   ⟨{ faults := { hot := true } }, 120, by decide⟩,
   ⟨{ faults := { hot := true } }, 60, by refine ⟨by decide, ?_⟩; unfold gradeLimit; split <;> decide⟩,
   ⟨{}, 130, 1000000, by refine ⟨by decide, ?_, by decide⟩; unfold gradeLimit; split <;> decide⟩,
   ⟨{}, 130, 5, by decide⟩,
   ⟨{ boot := { held := true } }, 50, { bootMode := 1 }, by refine ⟨by decide, by decide, ?_⟩; unfold gradeLimit; split <;> decide⟩,
   ⟨{}, 3, false, 1000000000, 2, by decide⟩,
   ⟨{}, 3, true, 1000000000, 2, by decide⟩,
   ⟨{ faults := { gpio := 0xFFF7 }, clk := { now := 100000000000000 } }, 3, by decide⟩⟩

/-- The hypotheses of every clause of `Obligations.PairSignals` can be met. -/
theorem wit_pairSignals :
    (∃ (s : State),
      asleep s = false ∧ s.boot.selvedge = true ∧ s.boot.newt = false ∧ s.faults.escalating = false ∧ s.pins.pwrfailN = true ∧ s.pair.aliveOutAt + 50000 ≤ s.clk.now) ∧
    (∃ (s : State),
      asleep s = false ∧ (s.boot.newt = true ∨ s.faults.escalating = true ∨ s.pins.pwrfailN = false ∨ s.boot.selvedge = false ∨ s.clk.now < s.pair.aliveOutAt + 50000)) ∧
    (∃ (s : State),
      asleep s = false) ∧
    (∃ (s : State),
      asleep s = false ∧ (s.pair.silent = false ∨ s.pair.partner = none ∨ s.pair.episode = true)) ∧
    (∃ (s : State), ∃ (c : Croak),
      asleep s = false ∧ s.pair.silent = true ∧ s.pair.partner = some c ∧ s.pair.episode = false) ∧
    (∃ (s : State),
      asleep s = false ∧ s.pair.halfA = true ∧ s.pair.halfB = true ∧ s.pair.role ≠ .primary) ∧
    (∃ (s : State),
      asleep s = false ∧ s.pair.halfA = true ∧ s.pair.halfB = false ∧ s.pair.role = .primary ∧ s.boot.timeUp = true) ∧
    (∃ (s : State), ∃ (p : Bytes), ∃ (c : Croak),
      asleep s = false ∧ croakParse p s.clk.now = some c ∧ (s.pair.role ≠ .secondary ∨ (c.state ≠ 5 ∧ c.state ≠ 6)) ∧ c.state ≠ 1) ∧
    (∃ (s : State), ∃ (p : Bytes), ∃ (c : Croak),
      asleep s = false ∧ croakParse p s.clk.now = some c ∧ serves s = true ∧ c.state = 1 ∧ (s.pair.epoch < c.epoch ∨ (s.pair.epoch = c.epoch ∧ s.boot.pairId = true ∧ c.pairId = false))) ∧
    (∃ (s : State), ∃ (p : Bytes), ∃ (c : Croak),
      asleep s = false ∧ croakParse p s.clk.now = some c ∧ s.pair.role = .secondary ∧ (c.state = 5 ∨ c.state = 6)) ∧
    (∃ (s : State), ∃ (p : Bytes),
      asleep s = false ∧ p.length ≤ 65507 ∧ croakParse p s.clk.now = none) ∧
    (∃ (s : State), ∃ (c : Croak),
      asleep s = false ∧ s.pair.partner = some c ∧ s.pair.silent = false ∧ c.at_ + 300000 ≤ s.clk.now ∧ s.pair.aliveIn = false) ∧
    (∃ (s : State), ∃ (c : Croak),
      asleep s = false ∧ s.pair.partner = some c ∧ s.pair.silent = false ∧ c.at_ + 300000 ≤ s.clk.now ∧ s.pair.aliveIn = true ∧ s.pair.episode = false) ∧
    (∃ (s : State),
      asleep s = false ∧ s.pair.partner = none ∧ s.boot.selvedge = true ∧ s.boot.resetAt + 300000 ≤ s.clk.now ∧ s.pair.aliveIn = true ∧ s.pair.episode = false) ∧
    (∃ (s : State),
      asleep s = false ∧ s.pair.halfA = true ∧ s.pair.halfB = false) ∧
    (∃ (s : State),
      asleep s = false ∧ s.pair.halfA = false ∧ s.pair.halfB = false ∧ s.pair.role = .primary) ∧
    (∃ (s : State),
      asleep s = false ∧ s.pair.halfA = true) :=
  ⟨⟨{ boot := { selvedge := true }, clk := { now := 50000 } }, by decide⟩,
   ⟨{ boot := { newt := true } }, by decide⟩,
   ⟨{ pair := { aliveIn := true } }, by decide⟩,
   ⟨{}, by decide⟩,
   ⟨{ pair := { partner := some ⟨1, 1, true, 7, 1, 0, 0⟩ } }, ⟨1, 1, true, 7, 1, 0, 0⟩, by decide⟩,
   ⟨{ pair := { halfA := true, halfB := true, role := .secondary } }, by decide⟩,
   ⟨{ pair := { halfA := true, role := .primary }, boot := { timeUp := true, selvedge := true } }, by decide⟩,
   ⟨{}, ([0xCA, 0x7D, 1, 2, 4, 0, 1, 0, 7] ++ List.replicate 19 0 ++ le 4 (crc32c ([0xCA, 0x7D, 1, 2, 4, 0, 1, 0, 7] ++ List.replicate 19 0)).toNat), ⟨2, 4, true, 7, 0, 0, 0⟩, by decide⟩,
   ⟨{}, ([0xCA, 0x7D, 1, 1, 4, 0, 1, 0, 7] ++ List.replicate 19 0 ++ le 4 (crc32c ([0xCA, 0x7D, 1, 1, 4, 0, 1, 0, 7] ++ List.replicate 19 0)).toNat), ⟨1, 4, true, 7, 0, 0, 0⟩, by decide⟩,
   ⟨{ pair := { role := .secondary } }, ([0xCA, 0x7D, 1, 5, 4, 0, 1, 0, 7] ++ List.replicate 19 0 ++ le 4 (crc32c ([0xCA, 0x7D, 1, 5, 4, 0, 1, 0, 7] ++ List.replicate 19 0)).toNat), ⟨5, 4, true, 7, 0, 0, 0⟩, by decide⟩,
   ⟨{}, [1, 2, 3], by decide⟩,
   ⟨{ pair := { silent := false, partner := some ⟨1, 1, true, 7, 1, 0, 0⟩ }, clk := { now := 300000 } }, ⟨1, 1, true, 7, 1, 0, 0⟩, by decide⟩,
   ⟨{ pair := { silent := false, aliveIn := true, partner := some ⟨1, 1, true, 7, 1, 0, 0⟩ }, clk := { now := 300000 } }, ⟨1, 1, true, 7, 1, 0, 0⟩, by decide⟩,
   ⟨{ pair := { aliveIn := true }, boot := { selvedge := true }, clk := { now := 300000 } }, by decide⟩,
   ⟨{ pair := { halfA := true } }, by decide⟩,
   ⟨{ pair := { role := .primary } }, by decide⟩,
   ⟨{ pair := { halfA := true } }, by decide⟩⟩

/-- The hypotheses of every clause of `Obligations.PairMirrors` can be met. -/
theorem wit_pairMirrors :
    (∃ (s : State), ∃ (q : BitVec 64), ∃ (l : List MirrorEntry),
      asleep s = false ∧ (s.pair.role = .joining ∨ (s.pair.role = .secondary ∧ mirrorGap s q l.length = false)) ∧ (s.dict.waiting.any fun r => r.confirm == some q) = false ∧ storeOpen s = true ∧ s.dict.openRec = none ∧ (s.store.pairSeq.toNat < q.toNat ∨ (healthy s = true ∧ heldEntries s q l.length ≠ [] ∧ (heldEntries s q l.length).length ≠ (mirrorEntries s q l).length))) ∧
    (∃ (s : State), ∃ (q : BitVec 64), ∃ (l : List MirrorEntry),
      asleep s = false ∧ (s.dict.waiting.any fun r => r.confirm == some q) = true) ∧
    (∃ (s : State), ∃ (q : BitVec 64), ∃ (l : List MirrorEntry),
      asleep s = false ∧ (s.dict.waiting.any fun r => r.confirm == some q) = false ∧ s.pair.role = .secondary ∧ mirrorGap s q l.length = true) ∧
    (∃ (s : State), ∃ (q : BitVec 64), ∃ (l : List MirrorEntry),
      asleep s = false ∧ (s.pair.role = .joining ∨ (s.pair.role = .secondary ∧ mirrorGap s q l.length = false)) ∧ (s.dict.waiting.any fun r => r.confirm == some q) = false ∧ q.toNat ≤ s.store.pairSeq.toNat ∧ heldEntries s q l.length = []) ∧
    (∃ (s : State), ∃ (q : BitVec 64), ∃ (l : List MirrorEntry),
      asleep s = false ∧ (s.pair.role = .joining ∨ (s.pair.role = .secondary ∧ mirrorGap s q l.length = false)) ∧ (s.dict.waiting.any fun r => r.confirm == some q) = false ∧ q.toNat ≤ s.store.pairSeq.toNat ∧ (heldEntries s q l.length).map (fun e => (e.idx, e.sub, e.row, e.val)) = (mirrorEntries s q l).map (fun e => (e.idx, e.sub, e.row, e.val))) ∧
    (∃ (s : State), ∃ (q : BitVec 64), ∃ (l : List MirrorEntry),
      asleep s = false ∧ (s.pair.role = .joining ∨ (s.pair.role = .secondary ∧ mirrorGap s q l.length = false)) ∧ (s.dict.waiting.any fun r => r.confirm == some q) = false ∧ healthy s = false ∧ q.toNat ≤ s.store.pairSeq.toNat ∧ heldEntries s q l.length ≠ [] ∧ (heldEntries s q l.length).length ≠ (mirrorEntries s q l).length) ∧
    (∃ (s : State), ∃ (e : BitVec 20), ∃ (on : Bool),
      asleep s = false ∧ (s.pair.role = .secondary ∨ s.pair.role = .joining)) ∧
    (∃ (s : State), ∃ (e : BitVec 20), ∃ (m : BitVec 48),
      asleep s = false ∧ (s.pair.role = .secondary ∨ s.pair.role = .joining)) ∧
    (∃ (s : State), ∃ (n : BitVec 16), ∃ (b : Bytes), ∃ (e : Enc),
      asleep s = false ∧ (s.pair.role = .secondary ∨ s.pair.role = .joining) ∧ look s.encs n.toNat = some e ∧ mirrorWaits s = false) ∧
    (∃ (s : State), ∃ (n : BitVec 16), ∃ (b : Bytes),
      asleep s = false ∧ (s.pair.role = .secondary ∨ s.pair.role = .joining) ∧ mirrorWaits s = true) ∧
    (∃ (s : State), ∃ (se : Session), ∃ (l : List RelayWrite),
      asleep s = false ∧ s.pair.role = .primary ∧ s.boot.selvedge = true) ∧
    (∃ (s : State), ∃ (se : Session), ∃ (w : RelayWrite), ∃ (x : Relayed), ∃ (rest : List Relayed),
      asleep s = false ∧ s.pair.role = .secondary ∧ w.status ≠ stOk ∧ takeFirst (fun r2 : Relayed => decide (r2.idx = w.idx) && decide (r2.sub = w.sub) && decide (r2.row = w.row)) s.pair.relayed = some (x, rest)) ∧
    (∃ (s : State), ∃ (se : Session), ∃ (l : List RelayWrite),
      asleep s = false ∧ s.pair.role = .secondary) ∧
    (∃ (s : State), ∃ (q : BitVec 64),
      asleep s = false ∧ s.pair.role = .primary ∧ s.pair.confirmed.toNat < q.toNat) :=
  ⟨⟨{ pair := { role := .secondary } }, 1, [⟨0x2050, 4, none, [1]⟩], by decide⟩,
   ⟨{ pair := { role := .secondary }, dict := { waiting := [{ openedAt := 0, confirm := some 9, entries := [] }] } }, 9, [], by decide⟩,
   ⟨{ pair := { role := .secondary } }, 9, [⟨0x2050, 4, none, [1]⟩], by decide⟩,
   ⟨{ pair := { role := .secondary }, store := { pairSeq := 9 } }, 9, [⟨0x2050, 4, none, [1]⟩], by decide⟩,
   ⟨{ pair := { role := .secondary }, store := { pairSeq := 9, journal := [{ openedAt := 0, entries := [{ seq := 9, tag := 1, idx := 0x2050, sub := 4, row := none, val := .num 1, req := 0, op := 0, se := .firmware }] }] } }, 9, [⟨0x2050, 4, none, [1, 0]⟩], by decide⟩,
   ⟨{ pair := { role := .secondary }, store := { pairSeq := 9, journal := [{ openedAt := 0, entries := [{ seq := 9, tag := 1, idx := 0x2050, sub := 4, row := none, val := .num 1, req := 0, op := 0, se := .firmware }] }] } }, 9, [⟨1, 0, none, []⟩], by decide⟩,
   ⟨{ pair := { role := .secondary } }, 5, true, by decide⟩,
   ⟨{ pair := { role := .secondary } }, 5, 9, by decide⟩,
   ⟨{ pair := { role := .secondary }, encs := [(2, {})] }, 2, [2, 0, 3, 0, 9], {}, by decide⟩,
   ⟨{ pair := { role := .secondary }, dict := { waiting := [{ openedAt := 0, entries := [{ seq := 9, tag := 6, idx := 0x2050, sub := 4, row := none, val := .num 1, req := 0, op := 0, se := .firmware }] }] } }, 2, [], by decide⟩,
   ⟨{ pair := { role := .primary }, boot := { selvedge := true } }, .can 5, [⟨0x2050, 4, none, [1], 0⟩, ⟨0x2050, 4, none, [2], 0⟩], by decide⟩,
   ⟨{ pair := { role := .secondary, relayed := [⟨3, 0, 0x2050, 4, none⟩] } }, .can 5, ⟨0x2050, 4, none, [1], stRange⟩, ⟨3, 0, 0x2050, 4, none⟩, [], by decide⟩,
   ⟨{ pair := { role := .secondary, relayed := [⟨3, 0, 0x2050, 4, none⟩] } }, .can 5, [⟨0x2050, 4, none, [1], stRange⟩, ⟨0x2050, 5, none, [1], stRange⟩], by decide⟩,
   ⟨{ pair := { role := .primary, unconfirmed := [(3, 0), (9, 0)] } }, 5, by decide⟩⟩

/-- The hypotheses of every clause of `Obligations.PairRoles` can be met. -/
theorem wit_pairRoles :
    (∃ (s : State),
      asleep s = false ∧ s.pair.role = .secondary ∧ s.pair.silent = true ∧ s.pair.aliveIn = false ∧ par s 0x7070 2 ≠ 0) ∧
    (∃ (s : State), ∃ (c : Croak),
      asleep s = false ∧ s.pair.role = .secondary ∧ s.pair.partner = some c ∧ c.state = 5 ∧ s.pair.aliveIn = true ∧ par s 0x7070 2 ≠ 0) ∧
    (∃ (s : State),
      asleep s = false ∧ s.pair.role = .secondary ∧ s.pair.silent = true ∧ s.pair.aliveIn = false ∧ par s 0x7070 2 = 0) ∧
    (∃ (s : State), ∃ (d : Nat), ∃ (r : List Nat),
      asleep s = false ∧ s.pair.repeats = d :: r ∧ d ≤ s.clk.now ∧ serves s = false) ∧
    (∃ (s : State), ∃ (d : Nat), ∃ (r : List Nat),
      asleep s = false ∧ s.pair.repeats = d :: r ∧ d ≤ s.clk.now ∧ serves s = true) ∧
    (∃ (s : State), ∃ (c : Croak),
      asleep s = false ∧ s.pair.partner = some c ∧ s.boot.newt = false ∧ s.boot.selvedge = true ∧ s.pair.silent = false ∧ s.pair.halfA = true ∧ par s 0x7070 1 ≠ 0 ∧ c.state ≠ 5 ∧ c.state ≠ 6 ∧ (s.pair.role = .standby ∨ s.pair.role = .joining) ∧ decision s c = some true) ∧
    (∃ (s : State), ∃ (c : Croak),
      asleep s = false ∧ s.pair.partner = some c ∧ s.boot.newt = false ∧ s.boot.selvedge = true ∧ s.pair.silent = false ∧ s.pair.halfA = true ∧ par s 0x7070 1 ≠ 0 ∧ c.state ≠ 5 ∧ c.state ≠ 6 ∧ s.pair.role = .standby ∧ decision s c = some false) ∧
    (∃ (s : State), ∃ (c : Croak),
      asleep s = false ∧ s.pair.partner = some c ∧ s.boot.newt = false ∧ s.boot.selvedge = true ∧ s.pair.silent = false ∧ s.pair.halfA = true ∧ par s 0x7070 1 ≠ 0 ∧ s.pair.role = .standby ∧ c.state = 1) ∧
    (∃ (s : State), ∃ (c : Croak),
      asleep s = false ∧ s.pair.partner = some c ∧ s.boot.newt = false ∧ s.boot.selvedge = true ∧ s.pair.silent = false ∧ s.pair.halfA = true ∧ par s 0x7070 1 ≠ 0 ∧ c.state ≠ 5 ∧ c.state ≠ 6 ∧ (s.pair.role = .standby ∨ s.pair.role = .joining) ∧ c.state ≠ 1 ∧ s.store.pair.known = true ∧ c.epoch < s.pair.epoch) ∧
    (∃ (s : State), ∃ (c : Croak),
      asleep s = false ∧ s.pair.partner = some c ∧ s.boot.newt = false ∧ s.boot.selvedge = true ∧ s.pair.silent = false ∧ s.pair.halfA = true ∧ par s 0x7070 1 ≠ 0 ∧ c.state ≠ 5 ∧ c.state ≠ 6 ∧ s.pair.role = .standalone ∧ c.state ≠ 1) ∧
    (∃ (s : State), ∃ (c : Croak),
      asleep s = false ∧ s.pair.partner = some c ∧ s.boot.newt = false ∧ s.boot.selvedge = true ∧ s.pair.silent = false ∧ s.pair.halfA = true ∧ par s 0x7070 1 ≠ 0 ∧ c.state ≠ 5 ∧ c.state ≠ 6 ∧ s.pair.role = .standby ∧ c.state ≠ 1 ∧ s.store.pair.known = false ∧ c.epoch = 0 ∧ s.boot.pairId = false ∧ c.pairId = true) ∧
    (∃ (s : State), ∃ (c : Croak),
      asleep s = false ∧ s.pair.partner = some c ∧ s.boot.newt = false ∧ s.boot.selvedge = true ∧ s.pair.silent = false ∧ s.pair.halfA = true ∧ par s 0x7070 1 ≠ 0 ∧ c.state ≠ 5 ∧ c.state ≠ 6 ∧ s.pair.role = .standby ∧ c.state ≠ 1 ∧ s.store.pair.known = false ∧ c.epoch = 0 ∧ c.pairId = s.boot.pairId ∧ s.pair.equalIds = false) ∧
    (∃ (s : State), ∃ (c : Croak),
      asleep s = false ∧ s.pair.role = .joining ∧ s.pair.resync = false ∧ s.pair.partner = some c ∧ s.boot.shutdown = false) ∧
    (∃ (s : State),
      asleep s = false ∧ s.pair.role = .joining ∧ s.pair.resync = true ∧ mirrorWaits s = false) ∧
    (∃ (s : State),
      asleep s = false ∧ (s.takeAct 0x7070 3).isSome = true ∧ healthy s = true ∧ s.pair.role = .primary ∧ (s.tiles.all fun q => q.2.frame.isNone) = true ∧ s.pair.unconfirmed = []) ∧
    (∃ (s : State),
      asleep s = false ∧ (s.takeAct 0x7070 3).isSome = true ∧ healthy s = true ∧ s.pair.role = .primary ∧ s.pair.unconfirmed ≠ [] ∧ s.pair.switching = none) ∧
    (∃ (s : State),
      asleep s = false ∧ (s.takeAct 0x7070 3).isSome = true ∧ healthy s = true ∧ s.pair.role = .secondary) ∧
    (∃ (s : State),
      asleep s = false ∧ (s.takeAct 0x7070 4).isSome = true) :=
  ⟨⟨{ pair := { role := .secondary } }, by decide⟩,
   ⟨{ pair := { role := .secondary, silent := false, aliveIn := true, partner := some ⟨5, 1, true, 7, 1, 0, 0⟩ } }, ⟨5, 1, true, 7, 1, 0, 0⟩, by decide⟩,
   ⟨{ pair := { role := .secondary }, dict := { params := [(pkey 0x7070 2 none, .num 0)] } }, by decide⟩,
   ⟨{ pair := { role := .joining, repeats := [0, 9] } }, 0, [9], by decide⟩,
   ⟨{ pair := { role := .primary, repeats := [0, 9] } }, 0, [9], by decide⟩,
   ⟨{ pair := { silent := false, halfA := true, partner := some ⟨4, 0, true, 7, 1, 0, 0⟩, role := .standby }, boot := { selvedge := true } }, ⟨4, 0, true, 7, 1, 0, 0⟩, by decide⟩,
   ⟨{ pair := { silent := false, halfA := true, partner := some ⟨4, 4, true, 7, 1, 0, 0⟩, role := .standby }, boot := { selvedge := true } }, ⟨4, 4, true, 7, 1, 0, 0⟩, by decide⟩,
   ⟨{ pair := { silent := false, halfA := true, partner := some ⟨1, 4, true, 7, 1, 0, 0⟩, role := .standby }, boot := { selvedge := true } }, ⟨1, 4, true, 7, 1, 0, 0⟩, by decide⟩,
   ⟨{ pair := { silent := false, halfA := true, partner := some ⟨4, 4, true, 7, 1, 0, 0⟩, role := .standby, epoch := 7 }, boot := { selvedge := true }, store := { pair := ⟨true, 7, false, true⟩ } }, ⟨4, 4, true, 7, 1, 0, 0⟩, by decide⟩,
   ⟨{ pair := { silent := false, halfA := true, partner := some ⟨4, 4, true, 7, 1, 0, 0⟩ }, boot := { selvedge := true } }, ⟨4, 4, true, 7, 1, 0, 0⟩, by decide⟩,
   ⟨{ pair := { silent := false, halfA := true, partner := some ⟨4, 0, true, 7, 1, 0, 0⟩, role := .standby }, boot := { selvedge := true } }, ⟨4, 0, true, 7, 1, 0, 0⟩, by decide⟩,
   ⟨{ pair := { silent := false, halfA := true, partner := some ⟨4, 0, false, 7, 1, 0, 0⟩, role := .standby }, boot := { selvedge := true } }, ⟨4, 0, false, 7, 1, 0, 0⟩, by decide⟩,
   ⟨{ pair := { role := .joining, partner := some ⟨1, 4, true, 7, 1, 0, 0⟩, discarded := 3 } }, ⟨1, 4, true, 7, 1, 0, 0⟩, by decide⟩,
   ⟨{ pair := { role := .joining, resync := true } }, by decide⟩,
   ⟨{ pair := { role := .primary, epoch := 4, silent := false, mirrorOk := true, halfA := true, partner := some ⟨2, 4, true, 7, 1, 0, 0⟩ }, dict := { acts := [⟨0x7070, 3, .num 1, 1, .can 5⟩] } }, by decide⟩,
   ⟨{ pair := { role := .primary, epoch := 4, silent := false, mirrorOk := true, halfA := true, partner := some ⟨2, 4, true, 7, 1, 0, 0⟩, unconfirmed := [(3, 0)] }, dict := { acts := [⟨0x7070, 3, .num 1, 1, .can 5⟩] } }, by decide⟩,
   ⟨{ pair := { role := .secondary, epoch := 4, silent := false, mirrorOk := true, partner := some ⟨1, 4, true, 7, 1, 0, 0⟩ }, dict := { acts := [⟨0x7070, 3, .num 1, 1, .can 5⟩] } }, by decide⟩,
   ⟨{ dict := { acts := [⟨0x7070, 4, .num 1, 1, .can 5⟩] }, pair := { role := .primary, epoch := 3 } }, by decide⟩⟩

theorem wit_idle : ∃ s : State, s.pending = [] := ⟨{}, by decide⟩

theorem wit_idleFrame : ∃ (s : State) (k : Pkt) (n : Nat), s.pending = [] ∧ s.selv.arrivals = [(k, n)] ∧ n ≤ 3 ∧ k.port < 16 ∧ s.selv.buffered (k.port / 4) < 128 :=
  ⟨{ selv := { arrivals := [({ id := 0, port := 15, seq := 0, data := [1], parsed := parseFrame [1], gen := 0 }, 3)] } },
    { id := 0, port := 15, seq := 0, data := [1], parsed := parseFrame [1], gen := 0 }, 3, by decide⟩

theorem wit_wellFormed : ∃ c : Instr, c.wellFormed = true := ⟨.pllsLocked, by decide⟩

theorem wit_illFormed : ∃ (c : Instr) (s : State), c.wellFormed = false ∧ asleep s = false :=
  ⟨.bootWindowWrite 0 2097151 [0, 0], {}, by decide⟩

theorem wit_commandsLeave : ∃ (c : Instr) (s t : State), exec c s = .next t :=
  ⟨.pllsLocked, {}, { boot := { plls := true } }, rfl⟩

theorem wit_outputs : ∃ s t : State, step s = .next t :=
  ⟨{ pending := [.pllsLocked] }, { boot := { plls := true } }, rfl⟩

theorem wit_memory : ∃ s t : State, s.mem.wf = true ∧ step s = .next t :=
  ⟨{ pending := [.pllsLocked], mem := { dev := [(4, 7)] } }, { boot := { plls := true }, mem := { dev := [(4, 7)] } }, by decide, rfl⟩

theorem wit_buffers : ∃ s t : State, buffersCounted s ∧ step s = .next t :=
  ⟨{ pending := [.pllsLocked], bpm := { owners := [(4, 0x240)], free := 262143 } }, { boot := { plls := true }, bpm := { owners := [(4, 0x240)], free := 262143 } },
    ⟨by decide, by decide, by simp⟩, rfl⟩

theorem wit_faultLog : ∃ s t : State, s.store.faultLog.length ≤ 8192 ∧ step s = .next t :=
  ⟨{ pending := [.pllsLocked] }, { boot := { plls := true } }, by decide, rfl⟩

theorem wit_disconnected : ∃ (c : Instr) (s : State), asleep s = true ∧ outsideCore c = false :=
  ⟨.pllsLocked, { clk := { scan := true } }, by decide⟩

theorem wit_invalidTransfer : ∃ (s : State) (m : Master) (ch : Fin 32), asleep s = false ∧ masterOk m = true ∧ s.dma.halted = false ∧ (s.chan ch).state = 0 ∧
    (s.chan ch).pause = false ∧ (s.chan ch).srcFixed = true ∧ (s.chan ch).src.toNat % 2 ^ (s.chan ch).elem.toNat ≠ 0 :=
  ⟨{ dma := { chans := [(2, { len := 16, srcFixed := true, src := 2, elem := 2 })] } }, 0x240, 2, by decide⟩

theorem wit_validTransfer : ∃ (s : State) (m : Master) (ch : Fin 32), asleep s = false ∧ masterOk m = true ∧ s.dma.halted = false ∧ (s.chan ch).state = 0 ∧
    (s.chan ch).pause = false ∧ (s.chan ch).len.toNat ≠ 0 ∧ (s.chan ch).srcFixed = false ∧ (s.chan ch).dstFixed = false ∧ (s.chan ch).elem ≠ 7 :=
  ⟨{ dma := { chans := [(2, { len := 16 })] } }, 0x240, 2, by decide⟩

/-- The hypotheses of every clause of `Obligations.ResetsClearTheChannels` can be met. -/
theorem wit_resetsClearTheChannels :
    (∃ (s : State),
      asleep s = false) ∧
    (∃ (s : State), ∃ (st : Straps), ∃ (ns : Nat),
      100 ≤ ns) ∧
    (∃ (s : State), ∃ (st : Straps), ∃ (r : Fin 13), ∃ (ns : Nat),
      200 ≤ ns) ∧
    (∃ (s : State), ∃ (st : Straps),
      asleep s = false ∧ (s.takeAct 0x2001 0).isSome = true) ∧
    (∃ (s : State), ∃ (st : Straps),
      asleep s = false ∧ (s.takeAct 0x2013 0).isSome = true) ∧
    (∃ (s : State), ∃ (st : Straps), ∃ (d : Nat),
      asleep s = false ∧ s.boot.watchdog = some d ∧ d ≤ s.clk.now) ∧
    (∃ (s : State), ∃ (st : Straps), ∃ (d : Nat),
      asleep s = false ∧ s.boot.recovery = some d ∧ d + 30000000000 ≤ s.clk.now) ∧
    (∃ (s : State), ∃ (st : Straps),
      asleep s = false ∧ heldFor s 5000000000 = true ∧ s.svc.did5 = false ∧ s.boot.newt = false) ∧
    (∃ (s : State), ∃ (st : Straps), ∃ (c : Bool),
      asleep s = false ∧ heldFor s 15000000000 = true ∧ s.svc.did15 = false) ∧
    (∃ (s : State), ∃ (st : Straps), ∃ (d : Nat),
      asleep s = false ∧ s.faults.pulseEnd = some d ∧ d ≤ s.clk.now ∧ s.faults.escalating = true) :=
  ⟨⟨{ dma := { chans := [(2, { state := 1 })] } }, by decide⟩,
   ⟨{}, {}, 100, by decide⟩,
   ⟨{}, {}, 12, 200, by decide⟩,
   ⟨{ dict := { acts := [⟨0x2001, 0, .num 1, 1, .can 5⟩] } }, {}, by decide⟩,
   ⟨{ dict := { acts := [⟨0x2013, 0, .num 1, 1, .can 5⟩] } }, {}, by decide⟩,
   ⟨{ boot := { watchdog := some 7 }, clk := { now := 7 } }, {}, 7, by decide⟩,
   ⟨{ boot := { recovery := some 0 }, clk := { now := 30000000000 } }, {}, 0, by decide⟩,
   ⟨{ svc := { pressedAt := some 0 }, clk := { now := 5000000000 } }, {}, by decide⟩,
   ⟨{ svc := { pressedAt := some 0 }, clk := { now := 15000000000 } }, {}, true, by decide⟩,
   ⟨{ faults := { pulseEnd := some 5, escalating := true }, clk := { now := 9 } }, {}, 5, by decide⟩⟩

theorem wit_ticks : ∃ (n : Nat) (s : State), n < 1000000000 ∧ s.boot.timeUp = true := ⟨5, { boot := { timeUp := true } }, by decide⟩

theorem wit_seals : ∃ mode : Nat, mode < 4 := ⟨3, by decide⟩

end Sys2Proof.Tests
end

section
/-! PROOFS. PTP time in ticks of 1/27,000,000 s and its 90 kHz count (R366). -/

open Sys2Proof Sys2Proof.Machine

namespace Sys2Proof.Proofs

/-- The model holds a PTP time as one count of nanoseconds; below a second the nanoseconds do not carry, so division gives back
the seconds and the remainder the nanoseconds of R366. -/
theorem ticksOf_seconds_add_nanoseconds (s : Nat) {n : Nat} (hn : n < 1000000000) :
    ticksOf (s * 1000000000 + n) = s * 27000000 + n * 27 / 1000 := by
  have hsec : (s * 1000000000 + n) / 1000000000 = s := by omega
  have hns : (s * 1000000000 + n) % 1000000000 = n := by omega
  rw [ticksOf, hsec, hns]

/-- While the time unit runs, the slot clock reads the PTP count and not the 0 of R460. -/
theorem ptpTicks_of_timeUp {s : State} (hup : s.boot.timeUp = true) : ptpTicks s = ticksOf s.time.ptp := by
  rw [ptpTicks, if_pos hup]

/-- Without a presentation offset the RTP time is the 90 kHz count of R366 in the 32 bits of the RTP header (R342). -/
theorem rtpTime_zero_offset (t : Nat) : rtpTime t 0 = t / 300 % 2 ^ 32 := by
  rw [rtpTime, Nat.mul_zero, Nat.add_zero]

/-- Settles O59: the seconds and nanoseconds of a count are recovered by division, the slot clock reads the running count, and the
RTP time adds nothing for the offset 0. -/
theorem ticksOfPtpTime : Obligations.TicksOfPtpTime :=
  ⟨fun s _ hn => ticksOf_seconds_add_nanoseconds s hn, fun _ hup => ptpTicks_of_timeUp hup, rtpTime_zero_offset⟩

end Sys2Proof.Proofs
end

section
/-! PROOFS. The DMA engine: which transfers fail at their start (R406), and what resets leave of the channels (R411). -/

open Sys2Proof Sys2Proof.Machine

namespace Sys2Proof.Proofs

/-! ### The channels read through changes of other state -/

/-- A command of an issued master acts on a device that is awake. -/
theorem issuedBy_of {s : State} {m : Master} (hawake : asleep s = false) (hm : masterOk m = true)
    (k : Host.Outcome State Fault Refusal) : issuedBy m s k = k := by
  rw [issuedBy, awake_of hawake, if_pos hm]

/-- A channel reads the engine's state alone. -/
theorem chan_eq_of_dma_eq {s t : State} (h : t.dma = s.dma) (n : Nat) : t.chan n = s.chan n := by
  rw [State.chan, State.chan, h]

@[simp] theorem chan_disarm (s : State) (m : Master) (n : Nat) : (s.disarm m).chan n = s.chan n :=
  chan_eq_of_dma_eq (State.disarm_dma s m) n

@[simp] theorem chan_settleInts (s : State) (n : Nat) : s.settleInts.chan n = s.chan n :=
  chan_eq_of_dma_eq (State.settleInts_dma s) n

@[simp] theorem setChan_halted (s : State) (n : Nat) (c : Dma) : (s.setChan n c).dma.halted = s.dma.halted := rfl

/-! ### The start of a transfer (R406) -/

/-- R406's words: `LEN` is 0, a fixed side's address is no multiple of the unit, or `LEN` is none while a side is fixed. -/
def BreaksTransferRules (c : Dma) : Prop :=
  c.len.toNat = 0 ∨ (c.srcFixed = true ∧ c.src.toNat % 2 ^ c.elem.toNat ≠ 0) ∨
  (c.dstFixed = true ∧ c.dst.toNat % 2 ^ c.elem.toNat ≠ 0) ∨
  ((c.srcFixed = true ∨ c.dstFixed = true) ∧ c.len.toNat % 2 ^ c.elem.toNat ≠ 0)

/-- The model refuses what R406 refuses, and a fixed side with the reserved `ELEM` 0b111. -/
theorem invalid_iff (c : Dma) :
    c.invalid = true ↔ BreaksTransferRules c ∨ ((c.srcFixed = true ∨ c.dstFixed = true) ∧ c.elem = 7) := by
  have hlen : c.len = 0#32 ↔ c.len.toNat = 0 := BitVec.toNat_eq
  simp [Dma.invalid, Dma.unit, BreaksTransferRules, hlen, or_assoc]

theorem dmaStart_of_invalid {s : State} {ch : Nat} (h : (s.chan ch).invalid = true) :
    s.dmaStart ch = s.setChan ch { s.chan ch with held := false, err := true, errCode := 3, state := 0 } :=
  if_pos h

theorem dmaStart_of_valid {s : State} {ch : Nat} (h : (s.chan ch).invalid = false) (hpause : (s.chan ch).pause = false) :
    s.dmaStart ch = s.setChan ch { s.chan ch with held := false, state := 1 } := by
  simp [State.dmaStart, h, hpause]

/-- A `GO` on an idle channel of an engine that is not halted is neither ignored nor held: the transfer starts. -/
theorem dmaGo_of_idle {s : State} {ch : Nat} (hrun : s.dma.halted = false) (hidle : (s.chan ch).state = 0) :
    s.dmaGo ch = s.dmaStart ch := by
  simp [State.dmaGo, hrun, hidle]

theorem exec_dmaGo_of_idle {s : State} {m : Master} {ch : Fin 32} (hawake : asleep s = false) (hm : masterOk m = true)
    (hrun : s.dma.halted = false) (hidle : (s.chan ch).state = 0) :
    exec (.dmaGo m ch) s = .next ((s.disarm m).dmaStart ch).settleInts := by
  have hstart : (s.disarm m).dmaGo ch = (s.disarm m).dmaStart ch :=
    dmaGo_of_idle (by simpa using hrun) (by simpa using hidle)
  calc exec (.dmaGo m ch) s
    _ = issuedBy m s (done ((s.disarm m).dmaGo ch).settleInts) := rfl
    _ = .next ((s.disarm m).dmaStart ch).settleInts := by rw [issuedBy_of hawake hm, hstart]

/-- Settles O57: an idle channel's `GO` is its start, which asks R406's three questions and, for a fixed side alone, whether
`ELEM` is the reserved 0b111. -/
theorem invalidTransfersEndAtTheirStart : Obligations.InvalidTransfersEndAtTheirStart := by
  intro s m ch hawake hm hrun hidle hpause
  have hgo := exec_dmaGo_of_idle hawake hm hrun hidle
  constructor
  · intro (hbad : BreaksTransferRules (s.chan ch))
    have hinv : ((s.disarm m).chan ch).invalid = true := by
      rw [chan_disarm]
      exact (invalid_iff _).2 (.inl hbad)
    exact ⟨_, hgo, by simp [dmaStart_of_invalid hinv, hrun]⟩
  · intro (hgood : ¬ BreaksTransferRules (s.chan ch)) helem
    have hvalid : ((s.disarm m).chan ch).invalid = false := by
      rw [chan_disarm, Bool.eq_false_iff]
      exact fun h => ((invalid_iff _).1 h).elim hgood fun hreserved => helem hreserved.2
    exact ⟨_, hgo, by simp [dmaStart_of_valid hvalid (by simpa using hpause)]⟩

/-! ### Resets (R411) -/

/-- Every register of R405 is at its reset value: all 32 channels are idle and the engine is not halted. -/
def DmaAtReset (t : State) : Prop := t.dma = {} ∧ ∀ ch, t.chan ch = {}

/-- The channels are rows of the engine's table, and the empty table reads every row at its reset value. -/
theorem dmaAtReset_of_dma {t : State} (h : t.dma = {}) : DmaAtReset t :=
  ⟨h, fun ch => by rw [State.chan, h]; rfl⟩

/-- A command that answers a state with an empty engine clears the channels. -/
theorem does_dmaAtReset {c : Instr} {s t : State} (hexec : exec c s = .next t) (hdma : t.dma = {}) : does c s DmaAtReset :=
  ⟨t, hexec, dmaAtReset_of_dma hdma⟩

/-- A whole-device reset starts from the reset state and carries nothing of the engine over. -/
@[simp] theorem wholeReset_dma (s : State) (cause : Nat) (st : Straps) (keep : Bool) :
    (s.wholeReset cause st keep).dma = {} := rfl

@[simp] theorem powerOn_dma (s : State) (st : Straps) : (s.powerOn st).dma = {} := rfl

@[simp] theorem intoNewt_dma (s : State) (outcome : BitVec 8) : (s.intoNewt outcome).dma = s.dma := rfl

theorem hostReset_clears_channels {s : State} (hawake : asleep s = false) : does .hostReset s DmaAtReset := by
  refine does_dmaAtReset (awake_of hawake _) ?_
  rw [State.settleInts_dma, State.disarm_dma]

theorem powerOnReset_clears_channels (s : State) (st : Straps) : does (.powerOnReset st) s DmaAtReset :=
  does_dmaAtReset (t := s.powerOn st) rfl (powerOn_dma s st)

theorem pinReset_clears_channels (s : State) (st : Straps) {ns : Nat} (hlow : 100 ≤ ns) :
    does (.pinReset ns st) s DmaAtReset :=
  does_dmaAtReset (if_neg (Nat.not_lt.2 hlow)) (wholeReset_dma { s with out := s.out ++ rstLowPins } 3 st false)

theorem railMonitorTrip_clears_channels (s : State) (st : Straps) (r : Fin 13) {ns : Nat} (hlow : 200 ≤ ns) :
    does (.railMonitorTrip r ns st) s DmaAtReset :=
  does_dmaAtReset (if_neg (Nat.not_lt.2 hlow)) (powerOn_dma s st)

theorem restartRequest_clears_channels {s : State} (st : Straps) (hawake : asleep s = false)
    (hact : (s.takeAct 0x2001 0).isSome = true) : does (.restartRequest st) s DmaAtReset := by
  obtain ⟨⟨a, s1⟩, htake⟩ := Option.isSome_iff_exists.1 hact
  have hexec : exec (.restartRequest st) s = .next (s1.wholeReset 4 st false) :=
    (awake_of hawake _).trans (by simp [htake])
  exact does_dmaAtReset hexec (wholeReset_dma ..)

theorem leaveNewt_clears_channels {s : State} (st : Straps) (hawake : asleep s = false)
    (hact : (s.takeAct 0x2013 0).isSome = true) : does (.leaveNewt st) s DmaAtReset := by
  obtain ⟨⟨a, s1⟩, htake⟩ := Option.isSome_iff_exists.1 hact
  have hexec : exec (.leaveNewt st) s = .next (State.wholeReset
      { s1 with store := if storeShut s1 then s1.store else { s1.store with newtLatch := false, failed := 0 } } 9 st true) :=
    (awake_of hawake _).trans (by simp [htake])
  exact does_dmaAtReset hexec (wholeReset_dma ..)

theorem bootWatchdogExpiry_clears_channels {s : State} (st : Straps) {d : Nat} (hawake : asleep s = false)
    (hdog : s.boot.watchdog = some d) (hdue : d ≤ s.clk.now) : does (.bootWatchdogExpiry st) s DmaAtReset := by
  have hexec : exec (.bootWatchdogExpiry st) s = .next (s.wholeReset 5 st false) :=
    (awake_of hawake _).trans (by simp [hdog, hdue])
  exact does_dmaAtReset hexec (wholeReset_dma ..)

theorem recoveryWatchdogExpiry_clears_channels {s : State} (st : Straps) {d : Nat} (hawake : asleep s = false)
    (hdog : s.boot.recovery = some d) (hdue : d + 30000000000 ≤ s.clk.now) :
    does (.recoveryWatchdogExpiry st) s DmaAtReset := by
  have hexec : exec (.recoveryWatchdogExpiry st) s = .next ((s.wholeReset 5 st true).intoNewt s.boot.outcome) :=
    (awake_of hawake _).trans (by simp [hdog, hdue])
  exact does_dmaAtReset hexec (by simp)

theorem serviceHold5s_clears_channels {s : State} (st : Straps) (hawake : asleep s = false)
    (hheld : heldFor s 5000000000 = true) (hfirst : s.svc.did5 = false) (hnewt : s.boot.newt = false) :
    does (.serviceHold5s st) s DmaAtReset := by
  have hexec : exec (.serviceHold5s st) s = _ :=
    (awake_of hawake _).trans ((if_neg (by simp [hheld, hfirst])).trans (if_neg (by simp [hnewt])))
  exact does_dmaAtReset hexec ((intoNewt_dma ..).trans (wholeReset_dma ..))

theorem serviceHold15s_clears_channels {s : State} (st : Straps) (committed : Bool) (hawake : asleep s = false)
    (hheld : heldFor s 15000000000 = true) (hfirst : s.svc.did15 = false) :
    does (.serviceHold15s st committed) s DmaAtReset := by
  have hexec : exec (.serviceHold15s st committed) s = _ :=
    (awake_of hawake _).trans (if_neg (by simp [hheld, hfirst]))
  exact does_dmaAtReset hexec (wholeReset_dma ..)

theorem errPulseEnd_clears_channels {s : State} (st : Straps) {d : Nat} (hawake : asleep s = false)
    (hpulse : s.faults.pulseEnd = some d) (hdue : d ≤ s.clk.now) (hfatal : s.faults.escalating = true) :
    does (.errPulseEnd st) s DmaAtReset := by
  have hexec : exec (.errPulseEnd st) s = .next (s.wholeReset 6 st false) :=
    (awake_of hawake _).trans (by simp [hpulse, hdue, hfatal])
  exact does_dmaAtReset hexec (wholeReset_dma ..)

/-- Settles O58: HOST_RESET writes the empty engine itself; every other command, at its time, answers a whole-device reset. -/
theorem resetsClearTheChannels : Obligations.ResetsClearTheChannels :=
  ⟨fun _ => hostReset_clears_channels,
   fun s cause st keep => dmaAtReset_of_dma (wholeReset_dma s cause st keep),
   powerOnReset_clears_channels,
   fun s st _ => pinReset_clears_channels s st,
   fun s st r _ => railMonitorTrip_clears_channels s st r,
   fun _ st => restartRequest_clears_channels st,
   fun _ st => leaveNewt_clears_channels st,
   fun _ st _ => bootWatchdogExpiry_clears_channels st,
   fun _ st _ => recoveryWatchdogExpiry_clears_channels st,
   fun _ st => serviceHold5s_clears_channels st,
   fun _ st c => serviceHold15s_clears_channels st c,
   fun _ st _ => errPulseEnd_clears_channels st⟩

end Sys2Proof.Proofs
end

section
/-! PROOFS. The owner table of the buffer pool (R424 to R428): what an allocation, a free and a give do to the count of free buffers. -/

open Sys2Proof Sys2Proof.Machine

namespace Sys2Proof.Proofs

/-! ### Sizes of tables -/

theorem length_put_of_look_none {α : Type} {t : Tab α} {k : Nat} (v : α) (h : look t k = none) :
    (put t k v).length = t.length + 1 := by
  induction t with
  | nil => rfl
  | cons q r ih =>
    obtain ⟨j, w⟩ := q
    have hj : j ≠ k := fun e => by simp [look, e] at h
    have hr : look r k = none := by simpa [look, hj] using h
    unfold put
    split
    · rfl
    · rw [if_neg (Ne.symm hj), List.length_cons, ih hr, List.length_cons]

theorem length_put_of_look_some {α : Type} {t : Tab α} {k : Nat} {w : α} (v : α) (hwf : tabWf t = true) (h : look t k = some w) :
    (put t k v).length = t.length := by
  induction t with
  | nil => cases h
  | cons q r ih =>
    obtain ⟨j, x⟩ := q
    obtain ⟨habove, hr⟩ := (tabWf_cons j x r).1 hwf
    unfold put
    split
    · next hk =>
      have hnone : look r k = none := look_above r k fun p hp => hk.trans (habove p hp)
      have hj : j ≠ k := by omega
      simp [look, hj, hnone] at h
    · split
      · rfl
      · next hj => rw [List.length_cons, ih hr (by simpa [look, Ne.symm hj] using h), List.length_cons]

theorem length_del_of_look_some {α : Type} {t : Tab α} {k : Nat} {w : α} (h : look t k = some w) :
    (del t k).length + 1 = t.length := by
  induction t with
  | nil => cases h
  | cons q r ih =>
    obtain ⟨j, x⟩ := q
    unfold del
    split
    · rfl
    · next hj => rw [List.length_cons, ih (by simpa [look, hj] using h), List.length_cons]

theorem key_lt_of_look_some {α : Type} {t : Tab α} {k b : Nat} {w : α} (hkeys : ∀ p ∈ t, p.1 < b) (h : look t k = some w) : k < b := by
  induction t with
  | nil => cases h
  | cons q r ih =>
    obtain ⟨j, x⟩ := q
    by_cases hj : j = k
    · exact hj ▸ hkeys (j, x) List.mem_cons_self
    · exact ih (fun p hp => hkeys p (List.mem_cons_of_mem _ hp)) (by simpa [look, hj] using h)

/-- Renaming the rows of a table keeps the order of its keys. -/
theorem tabWf_map_rows {α : Type} {t : Tab α} {f : Nat × α → Nat × α} (hf : ∀ q, (f q).1 = q.1) (h : tabWf t = true) :
    tabWf (t.map f) = true := by
  induction t with
  | nil => rfl
  | cons q r ih =>
    obtain ⟨habove, hr⟩ := (tabWf_cons q.1 q.2 r).1 h
    refine (tabWf_cons (f q).1 (f q).2 (r.map f)).2 ⟨fun p hp => ?_, ih hr⟩
    obtain ⟨x, hx, rfl⟩ := List.mem_map.1 hp
    rw [hf, hf]
    exact habove x hx

/-! ### The buffer that an allocation takes -/

theorem lowestFree_bounds (o : List (Nat × Master)) (k : Nat) : k ≤ lowestFree o k ∧ lowestFree o k ≤ k + o.length := by
  induction o generalizing k with
  | nil => simp [lowestFree]
  | cons q r ih =>
    unfold lowestFree
    split
    · have := ih (k + 1)
      rw [List.length_cons]
      omega
    · simp

theorem look_lowestFree {o : Tab Master} {k : Nat} (hwf : tabWf o = true) (hk : ∀ p ∈ o, k ≤ p.1) : look o (lowestFree o k) = none := by
  induction o generalizing k with
  | nil => rfl
  | cons q r ih =>
    obtain ⟨j, x⟩ := q
    obtain ⟨habove, hr⟩ := (tabWf_cons j x r).1 hwf
    unfold lowestFree
    split
    · next hj =>
      have hlow := (lowestFree_bounds r (k + 1)).1
      have hne : j ≠ lowestFree r (k + 1) := by omega
      rw [look, if_neg hne]
      exact ih hr fun p hp => hj ▸ habove p hp
    · next hj =>
      have hkj : k < j := lt_of_le_of_ne (hk (j, x) List.mem_cons_self) (Ne.symm hj)
      rw [look, if_neg hj]
      exact look_above r k fun p hp => hkj.trans (habove p hp)

theorem le_nthFree {o : Tab Master} {k i : Nat} (hwf : tabWf o = true) (hk : ∀ p ∈ o, k ≤ p.1) : k ≤ nthFree o k i := by
  induction o generalizing k i with
  | nil => exact Nat.le_add_right _ _
  | cons q r ih =>
    obtain ⟨j, x⟩ := q
    obtain ⟨habove, hr⟩ := (tabWf_cons j x r).1 hwf
    have hkj : k ≤ j := hk (j, x) List.mem_cons_self
    unfold nthFree
    split
    · omega
    · exact (hkj.trans j.le_succ).trans (ih hr habove)

theorem nthFree_lt {o : Tab Master} {k i n : Nat} (hwf : tabWf o = true) (hk : ∀ p ∈ o, k ≤ p.1) (hn : ∀ p ∈ o, p.1 < n)
    (hi : k + i + o.length < n) : nthFree o k i < n := by
  induction o generalizing k i with
  | nil => simpa [nthFree] using hi
  | cons q r ih =>
    obtain ⟨j, x⟩ := q
    obtain ⟨habove, hr⟩ := (tabWf_cons j x r).1 hwf
    have hj : j < n := hn (j, x) List.mem_cons_self
    have hkj : k ≤ j := hk (j, x) List.mem_cons_self
    rw [List.length_cons] at hi
    unfold nthFree
    split
    · omega
    · exact ih hr habove (fun p hp => hn p (List.mem_cons_of_mem _ hp)) (by omega)

theorem look_nthFree {o : Tab Master} {k i : Nat} (hwf : tabWf o = true) (hk : ∀ p ∈ o, k ≤ p.1) : look o (nthFree o k i) = none := by
  induction o generalizing k i with
  | nil => rfl
  | cons q r ih =>
    obtain ⟨j, x⟩ := q
    obtain ⟨habove, hr⟩ := (tabWf_cons j x r).1 hwf
    unfold nthFree
    split
    · next hlt =>
      rw [look, if_neg (by omega)]
      exact look_above r _ fun p hp => hlt.trans (habove p hp)
    · have hge : j + 1 ≤ nthFree r (j + 1) (i - (j - k)) := le_nthFree hr habove
      rw [look, if_neg (by omega)]
      exact ih hr habove

/-- R424, R428: while a buffer is free, the one that is taken is free and one of the pool's. -/
theorem choose_free {b : Bpm} {n : Nat} (hwf : tabWf b.owners = true) (hkeys : ∀ p ∈ b.owners, p.1 < 262144)
    (hroom : b.owners.length < 262144) : look b.owners (b.choose n) = none ∧ b.choose n < 262144 := by
  unfold Bpm.choose
  split
  · have hmod : Config.freeNat n % (262144 - b.owners.length) < 262144 - b.owners.length := Nat.mod_lt _ (by omega)
    exact ⟨look_nthFree hwf fun _ _ => Nat.zero_le _, nthFree_lt hwf (fun _ _ => Nat.zero_le _) hkeys (by omega)⟩
  · have hbound := (lowestFree_bounds b.owners 0).2
    exact ⟨look_lowestFree hwf fun _ _ => Nat.zero_le _, by omega⟩

/-! ### The count of free buffers -/

theorem buffersCounted_counted {s : State} {o : Tab Master} (hwf : tabWf o = true) (hkeys : ∀ p ∈ o, p.1 < 262144)
    (hlen : o.length ≤ 262144) : buffersCounted { s with bpm := s.bpm.counted o } :=
  ⟨hwf, Nat.sub_add_cancel hlen, hkeys⟩

theorem buffersCounted_allocated {s : State} {m : Master} {n : Nat} (hroom : s.bpm.owners.length < 262144) (h : buffersCounted s) :
    buffersCounted { s with bpm := s.bpm.counted (put s.bpm.owners (s.bpm.choose n) m) } := by
  obtain ⟨hwf, -, hkeys⟩ := h
  obtain ⟨hnone, hlt⟩ := choose_free (n := n) hwf hkeys hroom
  refine buffersCounted_counted (tabWf_put _ _ _ hwf) (fun p hp => ?_) ?_
  · rcases mem_put _ _ _ _ hp with rfl | hp
    · exact hlt
    · exact hkeys p hp
  · rw [length_put_of_look_none _ hnone]
    omega

theorem buffersCounted_freed {s : State} {b : Nat} {m : Master} (hown : look s.bpm.owners b = some m) (h : buffersCounted s) :
    buffersCounted { s with bpm := s.bpm.counted (del s.bpm.owners b) } := by
  obtain ⟨hwf, hfree, hkeys⟩ := h
  have hlen := length_del_of_look_some hown
  exact buffersCounted_counted (tabWf_del _ _ hwf) (fun p hp => hkeys p (mem_del _ _ _ hp)) (by omega)

theorem buffersCounted_put_owned {s : State} {b : Nat} {m o : Master} (hown : look s.bpm.owners b = some o) (h : buffersCounted s) :
    buffersCounted { s with bpm := { s.bpm with owners := put s.bpm.owners b m } } := by
  obtain ⟨hwf, hfree, hkeys⟩ := h
  refine ⟨tabWf_put _ _ _ hwf, ?_, fun p hp => ?_⟩
  · dsimp only
    rw [length_put_of_look_some _ hwf hown, hfree]
  · rcases mem_put _ _ _ _ hp with rfl | hp
    · exact key_lt_of_look_some hkeys hown
    · exact hkeys p hp

/-- A core's spare takes over its buffers: the owners change, the buffers stay. -/
theorem buffersCounted_rename {s : State} {f : Nat × Master → Nat × Master} (hf : ∀ q, (f q).1 = q.1) (h : buffersCounted s) :
    buffersCounted { s with bpm := { s.bpm with owners := s.bpm.owners.map f } } := by
  obtain ⟨hwf, hfree, hkeys⟩ := h
  refine ⟨tabWf_map_rows hf hwf, by simpa using hfree, fun p hp => ?_⟩
  obtain ⟨q, hq, rfl⟩ := List.mem_map.1 hp
  rw [hf]
  exact hkeys q hq

/-- Every buffer of a list has an owner. -/
def AllOwned (o : Tab Master) (l : List Nat) : Prop := ∀ b ∈ l, (look o b).isSome = true

theorem AllOwned.put {o : Tab Master} {l : List Nat} (h : AllOwned o l) (b : Nat) (m : Master) : AllOwned (put o b m) l := by
  intro c hc
  by_cases hcb : c = b
  · simp [hcb]
  · rw [look_put_ne _ _ hcb]
    exact h c hc

/-- Buffers that have an owner are given on: their number stays. -/
theorem buffersCounted_give {s : State} {l : List Nat} {m : Master} (hown : AllOwned s.bpm.owners l) (h : buffersCounted s) :
    buffersCounted { s with bpm := { s.bpm with owners := l.foldl (fun o b => put o b m) s.bpm.owners } } := by
  induction l generalizing s with
  | nil => exact h
  | cons b r ih =>
    obtain ⟨o, ho⟩ := Option.isSome_iff_exists.1 (hown b List.mem_cons_self)
    exact ih (s := { s with bpm := { s.bpm with owners := put s.bpm.owners b m } })
      (AllOwned.put (fun c hc => hown c (List.mem_cons_of_mem _ hc)) b m) (buffersCounted_put_owned ho h)

@[simp] theorem watermark_bpm (s : State) (b : Bpm) : (s.watermark b).bpm = b := by
  unfold State.watermark
  dsimp only
  split
  · simp
  · split <;> simp

/-- An allocation adds its buffer to the owner table, or changes nothing there. -/
theorem allocBuffer_owners {s s' : State} {m : Master} {b : Option Nat} (h : s.allocBuffer m = (b, s')) :
    (∀ n, b = some n → s'.bpm.owners = put s.bpm.owners n m) ∧ (b = none → s' = s) := by
  unfold State.allocBuffer at h
  split at h
  · obtain ⟨rfl, rfl⟩ := Prod.mk.inj h
    simp
  · obtain ⟨rfl, rfl⟩ := Prod.mk.inj h
    simp [Bpm.counted]

/-- The cells taken for a frame have an owner. -/
theorem takeCells_owned (s : State) (m : Master) (n : Nat) : AllOwned (s.takeCells m n).2.bpm.owners (s.takeCells m n).1 := by
  induction n with
  | zero => exact fun b hb => absurd hb List.not_mem_nil
  | succ n ih =>
    unfold State.takeCells
    dsimp only
    split
    · next b s' heq =>
      rw [(allocBuffer_owners heq).1 b rfl]
      intro c hc
      rcases List.mem_append.1 hc with hc | hc
      · exact ih.put b m c hc
      · simp [List.mem_singleton.1 hc]
    · next s' heq =>
      rw [(allocBuffer_owners heq).2 rfl]
      exact ih

end Sys2Proof.Proofs
end

section
/-! PROOFS. What every command keeps: the order of device memory, the buffer pool's count, the bound of the fault log, what was emitted,
the queue and the model's clock. -/

open Sys2Proof Sys2Proof.Machine

namespace Sys2Proof.Proofs

/-- `t` comes from `s` by operations that keep every invariant of a step. -/
structure Keeps (s t : State) : Prop where
  mem : s.mem.wf = true → t.mem.wf = true
  bpm : buffersCounted s → buffersCounted t
  log : s.store.faultLog.length ≤ 8192 → t.store.faultLog.length ≤ 8192
  out : s.out <+: t.out
  pending : t.pending = s.pending
  now : t.clk.now = s.clk.now

namespace Keeps

variable {s t u : State}

theorem refl (s : State) : Keeps s s := ⟨id, id, id, List.prefix_rfl, rfl, rfl⟩

theorem trans (h : Keeps s t) (g : Keeps t u) : Keeps s u :=
  ⟨g.mem ∘ h.mem, g.bpm ∘ h.bpm, g.log ∘ h.log, h.out.trans g.out, g.pending.trans h.pending, g.now.trans h.now⟩

/-- What the invariants do not speak of may change. -/
theorem same (h : Keeps s t) (hlog : u.store.faultLog = t.store.faultLog := by dsimp only)
    (hout : t.out <+: u.out := by exact List.prefix_rfl) (hdev : u.mem.dev = t.mem.dev := by dsimp only)
    (howners : u.bpm.owners = t.bpm.owners := by dsimp only) (hfree : u.bpm.free = t.bpm.free := by dsimp only)
    (hpending : u.pending = t.pending := by dsimp only) (hnow : u.clk.now = t.clk.now := by dsimp only) : Keeps s u := by
  refine h.trans ⟨?_, ?_, ?_, hout, hpending, hnow⟩
  · simp [Memory.wf, hdev]
  · simp [buffersCounted, howners, hfree]
  · simp [hlog]

/-- The parts of the state without an invariant may be written. -/
theorem set (h : Keeps s t) {pins svc boot dict paths bar2 dev bobs tiles caches encs batten totals pool dtiles decs selv trans time
    rings dma intc faults pair} :
    Keeps s { t with
      pins := pins, svc := svc, boot := boot, dict := dict, paths := paths, bar2 := bar2, dev := dev, bobs := bobs, tiles := tiles,
      caches := caches, encs := encs, batten := batten, totals := totals, pool := pool, dtiles := dtiles, decs := decs, selv := selv,
      trans := trans, time := time, rings := rings, dma := dma, intc := intc, faults := faults, pair := pair } :=
  h.same

/-- Of the clock's record the count of nanoseconds alone stands still. -/
theorem setFree (h : Keeps s t) {free scan pins svc boot dict paths bar2 dev bobs tiles caches encs batten totals pool dtiles decs selv
    trans time rings dma intc faults pair} :
    Keeps s { t with
      clk := { t.clk with free := free, scan := scan }, pins := pins, svc := svc, boot := boot, dict := dict, paths := paths, bar2 := bar2, dev := dev,
      bobs := bobs, tiles := tiles, caches := caches, encs := encs, batten := batten, totals := totals, pool := pool, dtiles := dtiles,
      decs := decs, selv := selv, trans := trans, time := time, rings := rings, dma := dma, intc := intc, faults := faults,
      pair := pair } :=
  h.same

/-- The fault log may be written within its bound. -/
theorem logs (h : Keeps s t) (hlog : t.store.faultLog.length ≤ 8192 → u.store.faultLog.length ≤ 8192)
    (hout : t.out <+: u.out := by exact List.prefix_rfl) (hdev : u.mem.dev = t.mem.dev := by dsimp only)
    (howners : u.bpm.owners = t.bpm.owners := by dsimp only) (hfree : u.bpm.free = t.bpm.free := by dsimp only)
    (hpending : u.pending = t.pending := by dsimp only) (hnow : u.clk.now = t.clk.now := by dsimp only) : Keeps s u := by
  refine h.trans ⟨?_, ?_, hlog, hout, hpending, hnow⟩
  · simp [Memory.wf, hdev]
  · simp [buffersCounted, howners, hfree]

/-- The buffer pool may be written in order. -/
theorem pools (h : Keeps s t) {b : Bpm} (hb : buffersCounted t → buffersCounted { t with bpm := b }) : Keeps s { t with bpm := b } :=
  h.trans ⟨id, hb, id, List.prefix_rfl, rfl, rfl⟩

theorem ite {c : Prop} [Decidable c] (h : Keeps s t) (g : Keeps s u) : Keeps s (if c then t else u) := by
  split
  · exact h
  · exact g

theorem foldl {α : Type} {f : State → α → State} {l : List α} (h : Keeps s t) (hf : ∀ u a, Keeps s u → Keeps s (f u a)) :
    Keeps s (l.foldl f t) := by
  induction l generalizing t with
  | nil => exact h
  | cons a r ih => exact ih (hf t a h)

theorem foldlFst {α β : Type} {f : State × β → α → State × β} {l : List α} {p : State × β} (h : Keeps s p.1)
    (hf : ∀ q a, Keeps s q.1 → Keeps s (f q a).1) : Keeps s (l.foldl f p).1 := by
  induction l generalizing p with
  | nil => exact h
  | cons a r ih => exact ih (hf p a h)

theorem times {f : State → State} (n : Nat) (h : Keeps s t) (hf : ∀ u, Keeps s u → Keeps s (f u)) :
    Keeps s (times f n t) := by
  induction n generalizing t with
  | zero => exact h
  | succ n ih => exact ih (hf t h)

theorem snd {α : Type} {p : α × State} {a : α} (h : Keeps s p.2) (e : p = (a, u)) : Keeps s u := by
  subst e
  exact h

theorem fst {α : Type} {p : State × α} {a : α} (h : Keeps s p.1) (e : p = (u, a)) : Keeps s u := by
  subst e
  exact h

end Keeps

end Sys2Proof.Proofs
end

section
/-! PROOFS. Every shared operation of the model keeps the invariants of a step. -/

open Sys2Proof Sys2Proof.Machine

-- One proof at a time: a thread for each proof would pass the limit that the check sets to memory.
set_option Elab.async false

namespace Sys2Proof.Proofs.Keeps

variable {s t u : State}

/-- A whole-device reset starts from empty memories, keeps the fault log and only adds the levels of the pins. -/
theorem wholeReset (h : Keeps s t) {cause : ℕ} {st : Straps} {keep : Bool} : Keeps s (t.wholeReset cause st keep) where
  mem _ := rfl
  bpm _ := ⟨rfl, rfl, fun _ hp => absurd hp List.not_mem_nil⟩
  log hs := h.log hs
  out := h.out.trans ((List.prefix_append _ _).trans (List.prefix_append _ _))
  pending := h.pending
  now := h.now

theorem powerOn (h : Keeps s t) {st : Straps} : Keeps s (t.powerOn st) :=
  wholeReset h.set

theorem takeAct (h : Keeps s t) {idx sub : ℕ} {a : Act} (e : t.takeAct idx sub = some (a, u)) : Keeps s u := by
  obtain ⟨p, _, hp⟩ := Option.map_eq_some_iff.1 e
  obtain ⟨-, rfl⟩ := Prod.mk.inj hp
  exact h.set

theorem resetBar2 (h : Keeps s t) : Keeps s t.resetBar2 :=
  h.set

theorem setJob (h : Keeps s t) {j : HostJob} : Keeps s (t.setJob j) :=
  h.set

theorem closeJob (h : Keeps s t) {j : HostJob} {status result info : ℕ} : Keeps s (t.closeJob j status result info) :=
  h.setJob

theorem withdraw (h : Keeps s t) : Keeps s (Machine.withdraw t) :=
  h.set

theorem assignAll (h : Keeps s t) {n : ℕ} {keys : List ℕ} : Keeps s (Machine.assignAll n t keys) := by
  induction n generalizing t keys with
  | zero => exact h
  | succ n ih =>
    unfold Machine.assignAll
    split
    · exact h
    · dsimp only
      split
      · exact ih h.set
      · exact ih h

theorem assigned (h : Keeps s t) : Keeps s (Machine.assigned t) :=
  h.withdraw.assignAll

theorem settleInts (h : Keeps s t) : Keeps s t.settleInts := by
  refine h.trans ⟨?_, ?_, ?_, ?_, ?_, ?_⟩
  · simp
  · simp [buffersCounted]
  · simp
  · exact List.prefix_append _ _
  · simp
  · simp

theorem eventOut (h : Keeps s t) {n : ℕ} {m : Master} {d : Bytes} : Keeps s (t.eventOut n m d) := by
  refine h.trans ⟨State.eventOut_memWf n m d, ?_, ?_, ?_, ?_, ?_⟩
  · simp [buffersCounted]
  · simp
  · unfold State.eventOut
    dsimp only
    split
    · dsimp only
      split
      · exact List.prefix_rfl
      · exact List.prefix_append _ _
    · exact List.prefix_rfl
  · simp
  · simp

theorem raise0 (h : Keeps s t) {n : ℕ} {m : Master} {detail : Bytes} : Keeps s (t.raise0 n m detail) := by
  unfold State.raise0
  dsimp only
  exact ite (eventOut h.set) h.set

theorem raise (h : Keeps s t) {n : ℕ} {m : Master} {detail : Bytes} : Keeps s (t.raise n m detail) :=
  h.raise0.settleInts

theorem logFault_length {st : Store} {source : ℕ} {m : Master} {sec ns : ℕ} {d : Bytes} (h : st.faultLog.length ≤ 8192) :
    (st.logFault source m sec ns d).faultLog.length ≤ 8192 := by
  simp [Store.logFault]
  omega

theorem faultSummary (h : Keeps s t) : Keeps s t.faultSummary := by
  unfold State.faultSummary
  split
  · exact h.set
  · refine h.logs ?_
    dsimp only
    split
    · exact logFault_length
    · exact id

theorem logContained (h : Keeps s t) {m : Master} {d : Bytes} : Keeps s (t.logContained m d) := by
  unfold State.logContained
  have hsum : Keeps s (if logSecond t = t.faults.logSec then t else t.faultSummary) := ite h h.faultSummary
  generalize (if logSecond t = t.faults.logSec then t else t.faultSummary) = v at hsum
  dsimp only
  split
  · refine hsum.logs ?_
    dsimp only
    split
    · exact logFault_length
    · exact id
  · exact hsum.set

theorem syncErr (h : Keeps s t) : Keeps s t.syncErr := by
  unfold State.syncErr
  dsimp only
  split
  · exact h
  · exact h.same rfl (List.prefix_append _ _)

theorem errPulse (h : Keeps s t) : Keeps s t.errPulse := by
  unfold State.errPulse
  exact h.same rfl (List.prefix_append _ _)

theorem containedAt (h : Keeps s t) {kind : ℕ} {acc : Access} {m : Master} {addr : ℕ} : Keeps s (t.containedAt kind acc m addr) := by
  unfold State.containedAt
  dsimp only
  exact syncErr (ite (errPulse (raise (logContained h.set))) (raise (logContained h.set)))

theorem memCount (h : Keeps s t) {k n : ℕ} : Keeps s (t.memCount k n) := by
  unfold State.memCount
  dsimp only
  exact same h

theorem setDdr (h : Keeps s t) {c : ℕ} {d : Ddr} : Keeps s (t.setDdr c d) := by
  unfold State.setDdr
  dsimp only
  exact same h

theorem retireRank (h : Keeps s t) {ch rank : ℕ} : Keeps s (t.retireRank ch rank) := by
  unfold State.retireRank
  dsimp only
  exact ite h.setDdr h

theorem badWord (h : Keeps s t) {a : ℕ} : Keeps s (t.badWord a) := by
  unfold State.badWord
  dsimp only
  exact ite h.memCount (ite h.memCount.retireRank h)

theorem contained (h : Keeps s t) {kind : ℕ} {acc : Access} {m : Master} {addr : ℕ} : Keeps s (t.contained kind acc m addr) := by
  unfold State.contained
  exact containedAt (ite h.badWord h)

theorem poolCount (h : Keeps s t) {k n : ℕ} : Keeps s (t.poolCount k n) :=
  h.set

theorem refuseDesc (h : Keeps s t) {m : Master} {b : ℕ} : Keeps s (t.refuseDesc m b) :=
  h.poolCount.contained

theorem setDesc (h : Keeps s t) {b : ℕ} {d : Desc} : Keeps s (t.setDesc b d) :=
  h.set

theorem releaseBlock (h : Keeps s t) {m : Master} {b : ℕ} {g : BitVec 16} : Keeps s (t.releaseBlock m b g) := by
  unfold State.releaseBlock
  dsimp only
  exact ite h.refuseDesc h.setDesc

theorem releaseSlots (h : Keeps s t) {m : Master} {l : List Slot} : Keeps s (t.releaseSlots m l) := by
  unfold State.releaseSlots
  exact foldl h fun _ _ hu => hu.releaseBlock

theorem setSurface (h : Keeps s t) {h1 : ℕ} {v : Surface} : Keeps s (t.setSurface h1 v) :=
  h.set

theorem abortEffect (h : Keeps s t) {j : HostJob} : Keeps s (t.abortEffect j) := by
  unfold State.abortEffect
  dsimp only
  split
  · split
    · exact releaseSlots h.setSurface
    · exact h
  · exact ite h.set h

theorem abortJobs (h : Keeps s t) {p : ℕ} : Keeps s (t.abortJobs p) := by
  unfold State.abortJobs
  exact foldl h fun _ _ hu => hu.abortEffect.closeJob

theorem setSq (h : Keeps s t) {p : ℕ} {v : Sq} : Keeps s (t.setSq p v) :=
  h.set

theorem restSq (h : Keeps s t) {p : ℕ} : Keeps s (t.restSq p) := by
  unfold State.restSq
  dsimp only
  exact ite h.setSq h

theorem setCq (h : Keeps s t) {c : ℕ} {v : Cq} : Keeps s (t.setCq c v) :=
  h.set

theorem wakeRank (h : Keeps s t) {c r : ℕ} : Keeps s (t.wakeRank c r) :=
  h.setDdr

theorem activate (h : Keeps s t) {a : ℕ} : Keeps s (t.activate a) := by
  unfold State.activate
  dsimp only
  exact ite h.wakeRank (ite (memCount h.wakeRank.setDdr) h.wakeRank.setDdr)

theorem ddrTouch (h : Keeps s t) {a n : ℕ} : Keeps s (t.ddrTouch a n) := by
  unfold State.ddrTouch
  exact ite h (foldl h fun _ _ hu => hu.activate)

theorem devStore (h : Keeps s t) {a : ℕ} {b : Bytes} : Keeps s (t.devStore a b) :=
  h.trans ⟨State.devStore_memWf a b, id, id, List.prefix_rfl, rfl, rfl⟩

theorem poolWrite (h : Keeps s t) {a : ℕ} {b : Bytes} : Keeps s (t.poolWrite a b) := by
  unfold State.poolWrite
  dsimp only
  exact ite h h.set

theorem devWrite (h : Keeps s t) {m : Master} {acc : Access} {a : ℕ} {b : Bytes} : Keeps s (t.devWrite m acc a b) := by
  unfold State.devWrite
  dsimp only
  exact ite h (ite h.contained (same h.poolWrite.devStore.ddrTouch))

theorem emit (h : Keeps s t) {o : Output} : Keeps s (t.emit o) := by
  unfold State.emit
  exact h.same rfl (List.prefix_append _ _)

theorem writeCqe (h : Keeps s t) {c : ℕ} {e : Cqe} : Keeps s (t.writeCqe c e) := by
  unfold State.writeCqe
  dsimp only
  exact ite (raise (ite (devWrite h.setCq) (emit h.setCq))) (settleInts (ite (devWrite h.setCq) (emit h.setCq)))

theorem complete (h : Keeps s t) {c : ℕ} {e : Cqe} : Keeps s (t.complete c e) := by
  unfold State.complete
  dsimp only
  exact ite (setCq h.setSq) (ite (setCq h.setSq) (writeCqe h.setSq))

theorem drainAborts (h : Keeps s t) {n p : ℕ} : Keeps s (Machine.drainAborts n t p) := by
  induction n generalizing t with
  | zero => exact h.restSq
  | succ n ih =>
    unfold Machine.drainAborts
    dsimp only
    split
    · exact h.restSq
    · split
      · exact h
      · exact ih h.setSq.complete

theorem drain (h : Keeps s t) {p : ℕ} : Keeps s (t.drain p) :=
  h.drainAborts

theorem shutSq (h : Keeps s t) {p : ℕ} {reset : Bool} : Keeps s (t.shutSq p reset) :=
  drain h.abortJobs.setSq

theorem discardSq (h : Keeps s t) {p c : ℕ} : Keeps s (t.discardSq p c) :=
  setCq (setSq h.abortJobs.set)

theorem resetRings (h : Keeps s t) : Keeps s t.resetRings := by
  unfold State.resetRings
  dsimp only
  exact set (foldl h fun _ _ hu => (ite hu (ite hu.shutSq hu.discardSq)))

theorem freed (h : Keeps s t) : Keeps s t.freed :=
  h.setFree

theorem holdoverNow (h : Keeps s t) : Keeps s t.holdoverNow :=
  h.set

theorem clockView (h : Keeps s t) : Keeps s t.clockView := by
  unfold State.clockView
  exact ite h.holdoverNow h

theorem setTile (h : Keeps s t) {p : ℕ} {t1 : Tile} : Keeps s (t.setTile p t1) :=
  h.set

theorem setDtile (h : Keeps s t) {p : ℕ} {v : Dtile} : Keeps s (t.setDtile p v) :=
  h.set

theorem iWrite (h : Keeps s t) {t1 : ITarget} {o : ℕ} {v : Word} : Keeps s (t.iWrite t1 o v) := by
  unfold State.iWrite
  split
  · exact h.setTile
  · exact h.setDtile
  · exact h
  · exact h
  · exact h
  · exact h
  · exact h

theorem serve (h : Keeps s t) {x : IAccess} {tagged : Bool} : Keeps s (t.serve x tagged).1 := by
  unfold State.serve
  split
  · exact h
  · split
    · exact h
    · split
      · exact h.freed
      · exact h.iWrite

theorem setWindow (h : Keeps s t) {w : ℕ} {v : Window} : Keeps s (t.setWindow w v) :=
  h.set

theorem resetWindow (h : Keeps s t) {w : ℕ} : Keeps s (t.resetWindow w) := by
  unfold State.resetWindow
  dsimp only
  exact ite (set (foldl h fun _ _ hu => hu.serve)) (setWindow (foldl h fun _ _ hu => hu.serve))

theorem disarm (h : Keeps s t) {m : Master} : Keeps s (t.disarm m) :=
  h.set

theorem intoNewt (h : Keeps s t) {outcome : BitVec 8} : Keeps s (t.intoNewt outcome) :=
  h.set

theorem aliveLow (h : Keeps s t) : Keeps s t.aliveLow := by
  unfold State.aliveLow
  refine h.same rfl ?_
  dsimp only
  split
  · exact List.prefix_append _ _
  · exact List.prefix_rfl

theorem fatal (h : Keeps s t) {kind : ℕ} {acc : Access} {m : Master} {addr : ℕ} : Keeps s (t.fatal kind acc m addr) := by
  have hstore (f : Faults) (st : Store) (hst : t.store.faultLog.length ≤ 8192 → st.faultLog.length ≤ 8192) :
      Keeps s { t with faults := f, store := st } := h.logs hst
  unfold State.fatal
  extract_lets lf commit logged kept flt s1
  have hs1 : Keeps s s1 := by
    refine hstore _ _ ?_
    split
    · dsimp only [logged]
      exact logFault_length
    · split
      · exact id
      · exact id
  exact hs1.aliveLow.errPulse.syncErr

theorem report (h : Keeps s t) {kind : ℕ} {acc : Access} {m : Master} {addr : ℕ} : Keeps s (t.report kind acc m addr) := by
  unfold State.report
  exact ite h.fatal h.contained

theorem reportNone (h : Keeps s t) {kind : ℕ} {m : Master} : Keeps s (t.reportNone kind m) :=
  h.report

theorem divergedCopy (h : Keeps s t) : Keeps s t.divergedCopy := by
  unfold State.divergedCopy
  dsimp only
  exact reportNone (same h)

theorem readBoot (h : Keeps s t) : Keeps s t.readBoot := by
  unfold State.readBoot
  dsimp only
  split
  · split
    · split
      · exact same h
      · exact same h
    · split
      · exact same h
      · exact same h
  · exact same h

theorem settleSegment (h : Keeps s t) : Keeps s t.settleSegment := by
  unfold State.settleSegment
  dsimp only
  split
  · exact h
  · exact freed (same h)

theorem tornLog (h : Keeps s t) {torn : List ℕ} : Keeps s (t.tornLog torn) := by
  unfold State.tornLog
  dsimp only
  exact same h

theorem tornAt (h : Keeps s t) {bad : List (ℕ × Fin 3)} : Keeps s (t.tornAt bad) := by
  unfold State.tornAt
  dsimp only
  split
  · exact h
  · exact same h

theorem settleCutOff (h : Keeps s t) : Keeps s t.settleCutOff := by
  have hcut : Keeps s (State.freed { t with store := { t.store with cutOff := none } }) := freed (same h)
  unfold State.settleCutOff
  split
  · exact h
  · exact ite hcut (ite (hcut.same rfl) (hcut.same rfl))

theorem lastApplied (h : Keeps s t) : Keeps s t.lastApplied := by
  unfold State.lastApplied
  dsimp only
  split
  · exact h
  · exact h.set

theorem setBankVar (h : Keeps s t) {bank v : ℕ} {x : Word} : Keeps s (t.setBankVar bank v x) :=
  h.set

theorem replayBanks (h : Keeps s t) : Keeps s t.replayBanks := by
  unfold State.replayBanks
  dsimp only
  exact ite h.set (foldl h.set fun _ _ hu => (ite hu.setBankVar hu))

theorem putParam (h : Keeps s t) {idx sub : ℕ} {row : Option ℕ} {v : PVal} : Keeps s (t.putParam idx sub row v) :=
  h.set

theorem replayParams (h : Keeps s t) : Keeps s t.replayParams := by
  unfold State.replayParams
  dsimp only
  exact foldl h.set fun _ _ hu => hu.putParam

theorem restoreMembers (h : Keeps s t) {vlan : BitVec 12} {mac : BitVec 48} {dest : ℕ} : Keeps s (t.restoreMembers vlan mac dest) :=
  h.set

theorem setEp (h : Keeps s t) {e : ℕ} {v : Endpoint} : Keeps s (t.setEp e v) :=
  h.set

theorem applyDelta (h : Keeps s t) {d : LearnDelta} : Keeps s (t.applyDelta d) := by
  unfold State.applyDelta
  dsimp only
  split
  · split
    · refine restoreMembers ?_
      split
      · exact h.set
      · exact h
    · split
      · exact h.set
      · exact h
  · refine restoreMembers ?_
    split
    · exact h.set
    · exact h
  · exact h.setEp
  · exact h.setEp

theorem replayLearned (h : Keeps s t) : Keeps s t.replayLearned := by
  unfold State.replayLearned
  dsimp only
  exact set (foldl h fun _ _ hu => hu.applyDelta)

theorem replayEndpoints (h : Keeps s t) : Keeps s t.replayEndpoints := by
  unfold State.replayEndpoints
  dsimp only
  exact ite h (foldl h fun _ _ hu => hu.setEp)

theorem replayPatch (h : Keeps s t) : Keeps s t.replayPatch := by
  unfold State.replayPatch
  dsimp only
  exact ite h (foldl h fun _ _ hu => (ite hu hu.setTile))

theorem replayRules (h : Keeps s t) : Keeps s t.replayRules :=
  h.set

theorem syncGpio (h : Keeps s t) : Keeps s t.syncGpio :=
  h.set

theorem allocBlock (h : Keeps s t) {h1 : Holder} {mark : Mark} {data : Block} : Keeps s (t.allocBlock h1 mark data).2 := by
  unfold State.allocBlock
  dsimp only
  split
  · exact h
  · exact h.setFree

theorem allocFrames (h : Keeps s t) {o : Holder} {n : ℕ} : Keeps s (t.allocFrames o n).2 := by
  induction n with
  | zero => exact h
  | succ n ih =>
    have ha : Keeps s (if unreserved (t.allocFrames o n).2.pool = 0 then (none, (t.allocFrames o n).2)
        else (t.allocFrames o n).2.allocBlock o .shortTerm []).2 := by
      split
      · exact ih
      · exact ih.allocBlock
    unfold State.allocFrames
    dsimp only
    split
    · exact ha
    · exact ih

theorem setDec (h : Keeps s t) {c : ℕ} {e : Dec} : Keeps s (t.setDec c e) :=
  h.set

theorem ownSurface (h : Keeps s t) {c h1 : ℕ} : Keeps s (t.ownSurface c h1) := by
  unfold State.ownSurface
  dsimp only
  exact ite (setDec (ite h.setSurface h)) (setSurface (setDec (ite h.setSurface h)))

theorem transCount (h : Keeps s t) {k n : ℕ} : Keeps s (t.transCount k n) :=
  h.set

theorem setQueue (h : Keeps s t) {q : ℕ} {v : Queue} : Keeps s (t.setQueue q v) :=
  h.set

theorem queueDrop (h : Keeps s t) {q : ℕ} : Keeps s (t.queueDrop q) :=
  h.setQueue

theorem watermark (h : Keeps s t) {b : Bpm} (hb : buffersCounted t → buffersCounted { t with bpm := b }) :
    Keeps s (t.watermark b) := by
  have hset : Keeps s { t with bpm := b } := h.pools hb
  unfold State.watermark
  dsimp only
  split
  · exact hset.raise
  · exact ite hset.raise hset

theorem allocBuffer (h : Keeps s t) {m : Master} : Keeps s (t.allocBuffer m).2 := by
  unfold State.allocBuffer
  split
  · exact h
  · next hroom => exact watermark h.freed (buffersCounted_allocated (s := t) (Nat.not_le.1 hroom))

theorem takeCells (h : Keeps s t) {m : Master} {n : ℕ} : Keeps s (t.takeCells m n).2 := by
  induction n with
  | zero => exact h
  | succ n ih =>
    unfold State.takeCells
    dsimp only
    split
    · next heq => exact ih.allocBuffer.snd heq
    · next heq => exact ih.allocBuffer.snd heq

theorem fillCells (h : Keeps s t) {l : List ℕ} {d : Bytes} : Keeps s (t.fillCells l d) := by
  induction l generalizing t d with
  | nil => exact h
  | cons b r ih => exact ih h.devStore

theorem giveCells (h : Keeps s t) {l : List ℕ} (hown : AllOwned t.bpm.owners l) : Keeps s (t.giveCells l) :=
  h.pools (buffersCounted_give hown)

theorem enqueueCopy (h : Keeps s t) {q : ℕ} {m : Master} {c : Copy} : Keeps s (t.enqueueCopy q m c).2 := by
  unfold State.enqueueCopy
  dsimp only
  split
  · exact h.queueDrop.transCount
  · split
    · exact h.queueDrop
    · exact (h.takeCells.giveCells (takeCells_owned t m _)).fillCells.setQueue

theorem ownReport (h : Keeps s t) {vlan : BitVec 12} {group : Bytes} {source : Option Bytes} {join : Bool} :
    Keeps s (t.ownReport vlan group source join) := by
  unfold State.ownReport
  dsimp only
  exact freed (foldl h fun _ _ hu => hu.enqueueCopy)

theorem reportRow (h : Keeps s t) {c : ℕ} {join : Bool} : Keeps s (t.reportRow c join) := by
  unfold State.reportRow
  dsimp only
  exact ite h.ownReport h

theorem decState (h : Keeps s t) {m : Master} {c : ℕ} {st : DecState} : Keeps s (t.decState m c st) := by
  unfold State.decState
  dsimp only
  exact ite h.setDec (raise h.setDec)

theorem unsync (h : Keeps s t) {c : ℕ} : Keeps s (t.unsync c) :=
  decState h.setDec

theorem decBegin (h : Keeps s t) {c : ℕ} : Keeps s (t.decBegin c) := by
  unfold State.decBegin
  dsimp only
  split
  · refine reportRow ?_
    refine unsync ?_
    refine ownSurface ?_
    refine setDec ?_
    refine freed ?_
    split
    · exact h
    · exact h.allocFrames
  · refine ownSurface ?_
    refine setDec ?_
    refine freed ?_
    split
    · exact h
    · exact h.allocFrames

theorem pairEvent (h : Keeps s t) : Keeps s t.pairEvent :=
  h.raise

theorem pairChanged (h : Keeps s t) {old : State} : Keeps s (t.pairChanged old) := by
  unfold State.pairChanged
  exact ite h h.pairEvent

theorem storeRole (h : Keeps s t) : Keeps s t.storeRole :=
  ite h.set (same h)

theorem startRole (h : Keeps s t) : Keeps s t.startRole := by
  unfold State.startRole
  dsimp only
  exact ite h (ite h.set (ite (storeRole h.set) h))

theorem startFirmware (h : Keeps s t) {outcome : BitVec 8} {b : Bytes} : Keeps s (t.startFirmware outcome b) :=
  devStore h.set

theorem checkWindow (h : Keeps s t) : Keeps s t.checkWindow := by
  unfold State.checkWindow
  dsimp only
  exact ite (startFirmware h.set) h.set

theorem waitHost (h : Keeps s t) : Keeps s t.waitHost := by
  unfold State.waitHost
  dsimp only
  exact ite (checkWindow h.set) h.set

theorem setEnc (h : Keeps s t) {n : ℕ} {e : Enc} : Keeps s (t.setEnc n e) :=
  h.set

theorem orphanJobs (h : Keeps s t) {n : ℕ} : Keeps s (t.orphanJobs n) :=
  h.set

theorem keepTail (h : Keeps s t) {n : ℕ} : Keeps s (t.keepTail n) := by
  unfold State.keepTail
  dsimp only
  exact ite h.set h

theorem releaseStream (h : Keeps s t) {n : ℕ} : Keeps s (t.releaseStream n) := by
  unfold State.releaseStream
  extract_lets e v v1 v2 v3
  have hv3 : Keeps s v3 := set (releaseSlots (foldl h.keepTail.orphanJobs fun _ _ hu => hu.releaseBlock))
  exact ite hv3.setEnc hv3

theorem stopStream (h : Keeps s t) {n : ℕ} {restart : Bool} : Keeps s (t.stopStream n restart) := by
  unfold State.stopStream
  dsimp only
  split
  · exact h
  · exact ite h.setEnc (releaseStream h.setEnc)

theorem releasePic (h : Keeps s t) {m : Master} {p : DecPic} : Keeps s (t.releasePic m p) :=
  h.releaseSlots

theorem forgetPic (h : Keeps s t) {m : Master} {p : DecPic} : Keeps s (t.forgetPic m p) :=
  h.releasePic.releaseSlots

theorem releaseDec (h : Keeps s t) {m : Master} {c : ℕ} : Keeps s (t.releaseDec m c) := by
  unfold State.releaseDec
  dsimp only
  refine setDec ?_
  refine decState ?_
  refine ownSurface ?_
  refine releaseSlots ?_
  refine foldl ?_ fun u a hu => ?_
  · split
    · exact releasePic (foldl h fun _ _ hu => hu.forgetPic)
    · exact foldl h fun _ _ hu => hu.forgetPic
  · exact hu.releasePic

theorem closeDec (h : Keeps s t) {m : Master} {c : ℕ} : Keeps s (t.closeDec m c) := by
  unfold State.closeDec
  dsimp only
  exact ite h (ite (decBegin h.releaseDec.setDec) h.releaseDec)

theorem decEnd (h : Keeps s t) {c : ℕ} : Keeps s (t.decEnd c) :=
  closeDec (reportRow h.setDec)

theorem enterNewt (h : Keeps s t) {outcome : BitVec 8} : Keeps s (t.enterNewt outcome) := by
  unfold State.enterNewt
  dsimp only
  exact syncGpio (foldl (foldl h.set fun _ _ hu => (ite hu hu.stopStream)) fun _ _ hu => hu.decEnd)

theorem bootGo (h : Keeps s t) : Keeps s t.bootGo := by
  unfold State.bootGo
  dsimp only
  exact ite h (ite h.checkWindow h.set)

theorem lockViolation (h : Keeps s t) {m : Master} {addr : ℕ} : Keeps s (t.lockViolation m addr) :=
  contained h.set

theorem windowWrite (h : Keeps s t) {m : Master} {off : ℕ} {data : Bytes} : Keeps s (t.windowWrite m off data) := by
  unfold State.windowWrite
  dsimp only
  exact ite h.set h.lockViolation

theorem answerDgram (h : Keeps s t) {r : Req} {id : Word} {keep : Bool} : Keeps s (t.answerDgram r id keep) := by
  unfold State.answerDgram
  split
  · exact h.same rfl (List.prefix_append _ _)
  · exact h

theorem endBar2 (h : Keeps s t) {st : Status} {read : Bool} {value : Bytes} : Keeps s (t.endBar2 st read value) :=
  settleInts h.set

theorem reply (h : Keeps s t) {r : Req} {keep : Bool} : Keeps s (t.reply r keep) := by
  unfold State.reply
  split
  · exact h.same rfl (List.prefix_append _ _)
  · exact h.emit
  · exact h.answerDgram
  · exact h.endBar2
  · exact h.emit
  · exact h

theorem finish (h : Keeps s t) {id : ℕ} : Keeps s (t.finish id) := by
  unfold State.finish
  dsimp only
  split
  · exact h
  · exact ite (reply h.set) h

theorem finishAll (h : Keeps s t) : Keeps s t.finishAll := by
  unfold State.finishAll
  exact foldl h fun _ _ hu => hu.finish

theorem setReq (h : Keeps s t) {id : ℕ} {f : Req → Req} : Keeps s (t.setReq id f) :=
  h.set

theorem endOp (h : Keeps s t) {id k : ℕ} {st : Status} {value : Bytes} : Keeps s (t.endOp id k st value) := by
  unfold State.endOp
  dsimp only
  split
  · exact h
  · exact ite h (ite (set h.setReq) h.setReq)

theorem answerRead (h : Keeps s t) {r : Req} {k : ℕ} {o : ReqOp} : Keeps s (t.answerRead r k o) := by
  unfold State.answerRead
  dsimp only
  split
  · exact ite h.endOp h.endOp
  · split
    · exact h.endOp
    · exact ite (ite (endOp (ite h.freed h)) (endOp (ite h.freed h))) (ite (endOp (ite h.freed h)) (endOp (ite h.freed h)))

theorem answerReads (h : Keeps s t) : Keeps s t.answerReads := by
  unfold State.answerReads
  dsimp only
  refine h.foldl fun u a hu => ?_
  split
  · exact hu
  · split
    · exact hu
    · exact ite hu.answerRead hu

theorem settleDict (h : Keeps s t) : Keeps s t.settleDict :=
  h.answerReads.finishAll

theorem setSess (h : Keeps s t) {se : Session} {v : SessState} : Keeps s (t.setSess se v) :=
  h.set

theorem cursorOp (h : Keeps s t) {r : Req} {k : ℕ} {d : DOp} {rows : ℕ} : Keeps s (t.cursorOp r k d rows) := by
  unfold State.cursorOp
  dsimp only
  exact ite h.endOp (ite h.endOp (ite h.setReq (ite h.endOp (ite h.endOp (ite h.endOp (ite h.endOp (ite h.endOp (endOp h.setSess))))))))

theorem markRow (h : Keeps s t) {id k : ℕ} {row : Option ℕ} : Keeps s (t.markRow id k row) :=
  h.setReq

theorem groupSplit (h : Keeps s t) {id k : ℕ} {l : List DOp} : Keeps s (Machine.groupSplit id k t l).1 := by
  induction l generalizing t k with
  | nil => exact h
  | cons d l ih =>
    unfold Machine.groupSplit
    split
    · exact h
    · split
      · exact ih h.cursorOp
      · exact ih h.markRow

theorem ahead (h : Keeps s t) : Keeps s (Machine.ahead t) := by
  unfold Machine.ahead
  exact foldl h fun _ _ hu => (ite hu.putParam hu)

theorem relayAll (h : Keeps s t) {r : Req} {ws : List (ℕ × DOp × Option ℕ)} : Keeps s (t.relayAll r ws) := by
  unfold State.relayAll
  exact h.same rfl (List.prefix_append _ _)

theorem closeRecord (h : Keeps s t) : Keeps s t.closeRecord := by
  unfold State.closeRecord
  dsimp only
  split
  · exact h
  · exact h.set

theorem enter (h : Keeps s t) {es : List JEntry} : Keeps s (t.enter es) := by
  unfold State.enter
  dsimp only
  exact ite (closeRecord (set (ite h h.closeRecord))) (set (ite h h.closeRecord))

theorem group (h : Keeps s t) {id : ℕ} {ops : List DOp} : Keeps s (t.group id ops) := by
  unfold State.group
  dsimp only
  split
  · exact h.groupSplit
  · exact ite (foldl h.groupSplit fun _ _ hu => hu.endOp) (ite (foldl h.groupSplit fun _ _ hu => hu.endOp) (ite (foldl h.groupSplit fun
      _ _ hu => hu.endOp) (ite h.groupSplit.relayAll (ite h.groupSplit (ite h.groupSplit.enter (foldl h.groupSplit fun _ _ hu =>
      hu.endOp))))))

theorem setArg (h : Keeps s t) {se : Session} {idx sub : ℕ} {v : PVal} : Keeps s (t.setArg se idx sub v) := by
  unfold State.setArg
  dsimp only
  exact ite h.setSess h.setSess

theorem relay (h : Keeps s t) {r : Req} {k : ℕ} {d : DOp} {row : Option ℕ} : Keeps s (t.relay r k d row) :=
  h.relayAll

theorem startSlot (h : Keeps s t) {p : SlotProgram} : Keeps s (t.startSlot p) := by
  unfold State.startSlot
  exact h.same rfl

theorem accept (h : Keeps s t) {r : Req} {k : ℕ} {d : DOp} {row : Option ℕ} {v : PVal} : Keeps s (t.accept r k d row v) := by
  unfold State.accept
  dsimp only
  exact ite h.endOp (ite (set (ite h.enter.startSlot h.enter)) h.enter)

theorem writeOp (h : Keeps s t) {r : Req} {k : ℕ} {d : DOp} {o : Obj} {row : Option ℕ} : Keeps s (t.writeOp r k d o row) := by
  unfold State.writeOp
  dsimp only
  split
  · exact h.endOp
  · split
    · split
      · exact h.endOp
      · exact ite (endOp h.setArg) h.endOp
    · split
      · split
        · exact h.endOp
        · split
          · exact h.endOp
          · exact ite (endOp h.setSess) (ite (ite (relay h.setSess) (endOp h.setSess)) (ite (endOp h.setSess) (accept h.setSess)))
      · split
        · exact h.endOp
        · exact ite (ite h.relay h.endOp) (ite h.endOp h.accept)

theorem issue (h : Keeps s t) {id k : ℕ} {d : DOp} : Keeps s (t.issue id k d) := by
  unfold State.issue
  dsimp only
  split
  · exact h
  · split
    · exact h.cursorOp
    · split
      · exact h.endOp
      · exact ite h.markRow h.markRow.writeOp

theorem issueAll (h : Keeps s t) {id k : ℕ} {l : List DOp} : Keeps s (Machine.issueAll id k t l) := by
  induction l generalizing t k with
  | nil => exact h
  | cons d l ih => exact ih h.issue

theorem arrive (h : Keeps s t) {se : Session} {tag : BitVec 8} {reply1 : Reply} {group1 : Bool} {ops : List DOp} :
    Keeps s (t.arrive se tag reply1 group1 ops) := by
  unfold State.arrive
  dsimp only
  exact ite h (ite (reply h.set) (settleDict (ite (group h.set) (issueAll h.set))))

theorem evict (h : Keeps s t) : Keeps s t.evict := by
  unfold State.evict
  dsimp only
  split
  · exact h
  · split
    · exact h
    · exact h.set

theorem useSession (h : Keeps s t) {se : Session} : Keeps s (t.useSession se) := by
  unfold State.useSession
  dsimp only
  split
  · exact ite h.set h.evict.set
  · exact h

theorem request (h : Keeps s t) {se : Session} {group1 : Bool} {ops : List DOp} : Keeps s (t.request se group1 ops) := by
  unfold State.request
  exact ite h.useSession.arrive h

theorem croak (h : Keeps s t) {state : ℕ} : Keeps s (t.croak state) := by
  unfold State.croak
  exact h.same rfl (List.prefix_append _ _)

theorem setSparing (h : Keeps s t) {p : Sparing} : Keeps s (t.setSparing p) :=
  ite h.set (same h)

theorem storeRules (h : Keeps s t) : Keeps s t.storeRules := by
  unfold State.storeRules
  dsimp only
  exact ite h (same h)

@[simp] theorem blockWrite_faultLog (st : Store) (l : ℕ) : (st.blockWrite l).faultLog = st.faultLog := by
  unfold Store.blockWrite
  split
  · rfl
  · rfl

theorem retireBlock (h : Keeps s t) {l : ℕ} : Keeps s (t.retireBlock l) := by
  unfold State.retireBlock
  dsimp only
  split
  · exact h.same (blockWrite_faultLog _ _)
  · exact ite h (contained (same h))

theorem commitFails (h : Keeps s t) {r : JRecord} : Keeps s (t.commitFails r) := by
  unfold State.commitFails
  dsimp only
  refine foldl ?_ fun u a hu => ?_
  · split
    · exact ite (startSlot h.set) h.set
    · exact h.set
  · exact hu.endOp

theorem pushAct (h : Keeps s t) {e : JEntry} : Keeps s (t.pushAct e) := by
  unfold State.pushAct
  dsimp only
  split
  · exact h
  · split
    · split
      · exact ite (ite h h.setSess) h.set
      · exact h
    · split
      · split
        · exact h.set
        · exact h
      · exact h.set

theorem moveBlock (h : Keeps s t) {b : ℕ} {toDdr bad : Bool} : Keeps s (t.moveBlock b toDdr bad) := by
  unfold State.moveBlock
  dsimp only
  exact ite h (same h)

theorem fetchRecord (h : Keeps s t) {e : Enc} {k : ℕ} : Keeps s (t.fetchRecord e k) := by
  unfold State.fetchRecord
  dsimp only
  exact ite (foldl h fun _ _ hu => hu.moveBlock) (poolCount (foldl h fun _ _ hu => hu.moveBlock))

theorem encWritten (h : Keeps s t) {old : State} {n sub : ℕ} : Keeps s (t.encWritten old n sub) := by
  unfold State.encWritten
  dsimp only
  split
  · exact ite (ite h h.stopStream) (ite (ite h h.allocFrames.setEnc) h.releaseStream)
  · split
    · exact h
    · exact ite h (ite h.stopStream (ite h.setEnc (ite h.setEnc (ite h.fetchRecord h))))

theorem decWritten (h : Keeps s t) {old : State} (hold : Keeps s old) {c sub : ℕ} : Keeps s (t.decWritten old c sub) := by
  have hgroup : Keeps s (if sub = 3 ∨ sub = 5 ∨ sub = 6 then { (old.reportRow c false) with dict := t.dict } else t) :=
    ite (set hold.reportRow) h
  unfold State.decWritten
  dsimp only
  split
  · exact h.setDec
  · split
    · exact h
    · split
      · exact ite h.decBegin h.decEnd
      · split
        · exact ite hgroup.setDec.unsync.reportRow hgroup.setDec.unsync
        · exact h

theorem logLearn (h : Keeps s t) {d : LearnDelta} : Keeps s (t.logLearn d) := by
  unfold State.logLearn
  refine h.same rfl ?_
  dsimp only
  split
  · exact List.prefix_append _ _
  · exact List.prefix_rfl

theorem epWritten (h : Keeps s t) {old : State} {e sub : ℕ} : Keeps s (t.epWritten old e sub) := by
  unfold State.epWritten
  dsimp only
  exact ite h.setEp (ite h (ite (logLearn h.setEp) (ite h.set h)))

theorem rejectBuffer (h : Keeps s t) {m : Master} {b reason : ℕ} : Keeps s (t.rejectBuffer m b reason) := by
  unfold State.rejectBuffer
  dsimp only
  exact contained (raise (same h))

theorem freeBuffer (h : Keeps s t) {m : Master} {b : ℕ} : Keeps s (t.freeBuffer m b) := by
  unfold State.freeBuffer
  split
  · exact h.rejectBuffer
  · next heq => exact ite (h.watermark (buffersCounted_freed heq)) h.rejectBuffer

theorem dropCells (h : Keeps s t) {m : Master} {l : List ℕ} : Keeps s (t.dropCells m l) := by
  unfold State.dropCells
  exact foldl h fun _ _ hu => hu.freeBuffer

theorem discardQueue (h : Keeps s t) {q : ℕ} : Keeps s (t.discardQueue q) := by
  unfold State.discardQueue
  dsimp only
  exact setQueue (foldl h fun _ _ hu => hu.dropCells)

theorem schedWritten (h : Keeps s t) {old : State} {idx n sub : ℕ} : Keeps s (t.schedWritten old idx n sub) := by
  unfold State.schedWritten
  dsimp only
  exact ite h (ite (ite h.setQueue h.discardQueue) (ite h.set (ite h.set h)))

theorem downFlush (h : Keeps s t) {port : ℕ} : Keeps s (t.downFlush port) := by
  unfold State.downFlush
  dsimp only
  exact ite h h.set

theorem linkDown (h : Keeps s t) {port : ℕ} : Keeps s (t.linkDown port) := by
  unfold State.linkDown
  dsimp only
  exact ite h (ite (downFlush (foldl h.set fun _ _ hu => hu.discardQueue)) (foldl h.set fun _ _ hu => hu.discardQueue))

theorem updateVar (h : Keeps s t) {bank v : ℕ} {u1 : VarUpdate} : Keeps s (t.updateVar bank v u1) :=
  set h.setBankVar

theorem patchWritten (h : Keeps s t) : Keeps s t.patchWritten := by
  unfold State.patchWritten
  dsimp only
  exact foldl h fun _ _ hu => (ite hu hu.setTile)

theorem polarityWritten (h : Keeps s t) {old : State} : Keeps s (t.polarityWritten old) :=
  h.set

theorem written (h : Keeps s t) {old : State} (hold : Keeps s old) {idx sub : ℕ} {row : Option ℕ} {v : PVal} :
    Keeps s (t.written old idx sub row v) := by
  unfold State.written
  split
  · exact ite h.encWritten (ite (h.decWritten hold) (ite h.epWritten h.schedWritten))
  · exact ite (ite h (foldl h fun _ _ hu => hu.linkDown)) (ite (same h) (ite h.set (ite h.set (ite h.updateVar
      (ite h.patchWritten (ite h.syncGpio (ite h.polarityWritten h)))))))

theorem apply (h : Keeps s t) {e : JEntry} : Keeps s (t.apply e) := by
  have hlast (seq tag obj) : Keeps s { t with dict := { t.dict with lastSeq := seq, lastTag := tag, lastObj := obj } } := h.set
  unfold State.apply
  dsimp only
  split
  · exact hlast _ _ _
  · split
    · exact (hlast _ _ _).pushAct
    · have hput (c : Prop) [Decidable c] (seq tag obj) (idx sub : ℕ) (row : Option ℕ) :
          Keeps s ((if c then State.clockView { t with dict := { t.dict with lastSeq := seq, lastTag := tag, lastObj := obj } }
            else { t with dict := { t.dict with lastSeq := seq, lastTag := tag, lastObj := obj } }).putParam idx sub row e.val) :=
        putParam (ite (hlast _ _ _).clockView (hlast _ _ _))
      exact ite (hput ..) ((hput ..).written (hlast _ _ _))

theorem mirror (h : Keeps s t) {l : List JEntry} : Keeps s (t.mirror l) := by
  unfold State.mirror
  dsimp only
  split
  · exact h
  · refine h.same rfl ?_
    dsimp only
    split
    · exact List.prefix_append _ _
    · exact List.prefix_rfl

theorem relayedDone (h : Keeps s t) {l : List JEntry} : Keeps s (t.relayedDone l) := by
  unfold State.relayedDone
  dsimp only
  refine h.foldl fun u a hu => ?_
  split
  · exact endOp hu.set
  · exact hu

theorem acknowledge (h : Keeps s t) {l : List JEntry} : Keeps s (t.acknowledge l) := by
  unfold State.acknowledge
  exact foldl h fun _ _ hu => (ite hu hu.endOp)

theorem commit (h : Keeps s t) {r : JRecord} : Keeps s (t.commit r) := by
  have hes (st : Store) (hst : st.faultLog = t.store.faultLog) (l : List JEntry) :
      Keeps s (l.foldl State.apply { t with store := st }) := foldl (same h hst) fun _ _ hu => hu.apply
  unfold State.commit
  dsimp only
  split
  · exact emit (mirror (relayedDone (acknowledge (set (hes _ (by simp) _)))))
  · exact mirror (relayedDone (acknowledge (set (hes _ (by simp) _))))

theorem mirrorStream (h : Keeps s t) {n : ℕ} {header : Bytes} : Keeps s (t.mirrorStream n header) := by
  unfold State.mirrorStream
  dsimp only
  split
  · exact h
  · exact h.setEnc

theorem takeHeads (h : Keeps s t) : Keeps s t.takeHeads := by
  unfold State.takeHeads
  dsimp only
  exact ite h (foldl h.set fun _ _ hu => hu.mirrorStream)

theorem closeDue (h : Keeps s t) : Keeps s t.closeDue := by
  unfold State.closeDue
  split
  · exact ite h.closeRecord h
  · exact h

theorem dgRunning (h : Keeps s t) {se : Session} {f : List (Word × ℕ) → List (Word × ℕ)} : Keeps s (t.dgRunning se f) :=
  h.set

theorem dwFields (h : Keeps s t) {v : Word} : Keeps s (t.dwFields v) :=
  h.set

theorem dwRefuse (h : Keeps s t) {st : Status} {write : Bool} : Keeps s (t.dwRefuse st write) := by
  unfold State.dwRefuse
  dsimp only
  exact endBar2 (ite h.set h)

theorem dwArrive (h : Keeps s t) {group1 : Bool} {ops : List DOp} : Keeps s (t.dwArrive group1 ops) :=
  h.arrive

theorem dwStage (h : Keeps s t) {d : DOp} : Keeps s (t.dwStage d) := by
  unfold State.dwStage
  dsimp only
  exact ite (dwRefuse h.set) (endBar2 h.set)

theorem dwGo (h : Keeps s t) {v : Word} : Keeps s (t.dwGo v) := by
  unfold State.dwGo
  dsimp only
  exact ite h (ite h.set (ite (dwRefuse h.dwFields.set) (ite (dwRefuse h.dwFields.set) (ite (dwArrive h.dwFields.set) (ite (ite (dwStage
    h.dwFields.set) (dwRefuse h.dwFields.set)) (ite (dwArrive h.dwFields.set) (dwArrive h.dwFields.set)))))))

theorem memWrite (h : Keeps s t) {m : Master} {sp : RegSpace} {a : ℕ} {be : BitVec 4} {v : Word} :
    Keeps s (t.memWrite m sp a be v) := by
  unfold State.memWrite
  dsimp only
  split
  · exact h
  · split
    · exact ite h h.set
    · exact ite h.set h.lockViolation

theorem setChan (h : Keeps s t) {n : ℕ} {c : Dma} : Keeps s (t.setChan n c) :=
  h.set

theorem bar0Hw (h : Keeps s t) {a : ℕ} {hw : SameCycle} : Keeps s (t.bar0Hw a hw) := by
  have hflt : Keeps s { t with faults := { t.faults with
      overflow := t.faults.overflow || hw.sets.getLsbD 30, diverged := t.faults.diverged || hw.sets.getLsbD 29 } } := h.set
  have hfault : Keeps s (match hw.fault with
      | some (k, who, at_, acc) =>
        if faultKind k.toNat then
          State.report { t with faults := { t.faults with
            overflow := t.faults.overflow || hw.sets.getLsbD 30, diverged := t.faults.diverged || hw.sets.getLsbD 29 } } k.toNat acc who
            (if acc = .none then 0 else at_.toNat)
        else { t with faults := { t.faults with
          overflow := t.faults.overflow || hw.sets.getLsbD 30, diverged := t.faults.diverged || hw.sets.getLsbD 29 } }
      | none => { t with faults := { t.faults with
          overflow := t.faults.overflow || hw.sets.getLsbD 30, diverged := t.faults.diverged || hw.sets.getLsbD 29 } }) := by
    split
    · exact ite hflt.report hflt
    · exact hflt
  exact ite h.set (ite h.set (ite h.setWindow (ite h.setChan.settleInts (ite h.set (ite hfault (ite h.set (ite h.set (ite h.set
    (ite (settleInts h.set) (ite (settleInts h.set) (ite h.set (ite h.set (ite h.set (ite h.set (ite (same h) (ite (same h)
    (ite h.setSq (ite h.setCq (ite h.setCq h)))))))))))))))))))

theorem regHw (h : Keeps s t) {sp : RegSpace} {a : ℕ} {h1 : SameCycle} : Keeps s (t.regHw sp a h1) := by
  unfold State.regHw
  dsimp only
  split
  · exact h
  · split
    · exact h.bar0Hw
    · exact ite (settleInts h.set) h
    · exact h

theorem answer (h : Keeps s t) {m : Master} {v : Word} : Keeps s (t.answer m v) :=
  h.emit

theorem setBob (h : Keeps s t) {b : BobbinId} {v : Bobbin} : Keeps s (t.setBob b v) :=
  h.set

theorem bobSrc (h : Keeps s t) {b : BobbinId} : Keeps s (t.bobSrc b) :=
  freed h.setBob

theorem bobPush (h : Keeps s t) {b : BobbinId} {xs : List (BitVec 256)} : Keeps s (t.bobPush b xs) :=
  h.setBob

theorem issueCommand (h : Keeps s t) {w : ℕ} {x : IAccess} : Keeps s (t.issueCommand w x) := by
  unfold State.issueCommand
  dsimp only
  split
  · exact h
  · exact ite h h.bobSrc.bobPush

theorem issueIndirect (h : Keeps s t) {m : Master} {w : ℕ} {write : Option Word} : Keeps s (t.issueIndirect m w write) := by
  unfold State.issueIndirect
  dsimp only
  exact ite (ite h.disarm h.answer) (ite (issueCommand (setWindow (ite h.disarm h))) (setWindow (ite h.disarm h)))

theorem writeKey (h : Keeps s t) {m : Master} {v : Word} : Keeps s (t.writeKey m v) := by
  unfold State.writeKey
  dsimp only
  exact ite h.disarm.set h.disarm.lockViolation

theorem writeInject (h : Keeps s t) {m : Master} {v : Word} : Keeps s (t.writeInject m v) := by
  unfold State.writeInject
  dsimp only
  exact ite h.disarm.lockViolation (ite h.disarm h.disarm.set)

theorem writeLo (h : Keeps s t) {m : Master} {n : ℕ} {v : Word} : Keeps s (t.writeLo m n v) :=
  h.set

theorem wideStore (h : Keeps s t) {n : ℕ} {v : BitVec 64} : Keeps s (t.wideStore n v) := by
  unfold State.wideStore
  dsimp only
  exact ite (ite h h.setChan) (ite h (ite h.set (ite (ite h.setSq h) h.setCq)))

theorem writeHi (h : Keeps s t) {m : Master} {n : ℕ} {v : Word} : Keeps s (t.writeHi m n v) :=
  wideStore h.set

theorem writeWindow (h : Keeps s t) {w r : ℕ} {v : Word} : Keeps s (t.writeWindow w r v) := by
  unfold State.writeWindow
  dsimp only
  exact ite h (ite h.setWindow (ite h.setWindow h))

theorem writeDev (h : Keeps s t) {a : ℕ} {v : Word} : Keeps s (t.writeDev a v) := by
  unfold State.writeDev
  dsimp only
  exact ite h.set (ite h.set (ite (ite (bootGo h.set) h.set) (ite h.writeWindow h)))

theorem dmaStart (h : Keeps s t) {ch : ℕ} : Keeps s (t.dmaStart ch) := by
  unfold State.dmaStart
  dsimp only
  exact ite h.setChan h.setChan

theorem dmaHeld (h : Keeps s t) {ch : ℕ} : Keeps s (t.dmaHeld ch) := by
  unfold State.dmaHeld
  dsimp only
  exact ite h.dmaStart h

theorem dmaUnhalt (h : Keeps s t) : Keeps s t.dmaUnhalt := by
  unfold State.dmaUnhalt
  dsimp only
  exact ite h (foldl h.set fun _ _ hu => hu.dmaHeld)

theorem readAccess (h : Keeps s t) {l : List (ℕ × ℕ)} : Keeps s (t.readAccess l) := by
  unfold State.readAccess
  exact foldl h fun _ _ hu => hu.ddrTouch

theorem dmaPut (h : Keeps s t) {ch : ℕ} {c : Dma} {b : Bytes} : Keeps s (t.dmaPut ch c b) := by
  unfold State.dmaPut
  exact foldlFst h fun q x hq => ite hq.devWrite hq.emit

theorem dmaMove (h : Keeps s t) {ch : ℕ} {b : Bytes} : Keeps s (t.dmaMove ch b) := by
  unfold State.dmaMove
  dsimp only
  exact setChan (dmaPut (ite h.readAccess h))

theorem dmaDrain (h : Keeps s t) {ch : ℕ} : Keeps s (t.dmaDrain ch) :=
  h.freed.dmaMove

theorem dmaEnd (h : Keeps s t) {ch : ℕ} {code : BitVec 4} : Keeps s (t.dmaEnd ch code) :=
  h.setChan

theorem dmaPause (h : Keeps s t) {ch : ℕ} : Keeps s (t.dmaPause ch) := by
  unfold State.dmaPause
  dsimp only
  exact ite (ite (dmaHeld (dmaEnd (dmaDrain h.setChan))) (setChan (dmaDrain h.setChan))) h.setChan

theorem dmaResume (h : Keeps s t) {ch : ℕ} : Keeps s (t.dmaResume ch) :=
  h.setChan

theorem dmaAbort (h : Keeps s t) {ch : ℕ} : Keeps s (t.dmaAbort ch) := by
  unfold State.dmaAbort
  dsimp only
  exact ite h (dmaHeld (dmaEnd (ite h.dmaDrain h)))

theorem dmaGo (h : Keeps s t) {ch : ℕ} : Keeps s (t.dmaGo ch) := by
  unfold State.dmaGo
  dsimp only
  exact ite h (ite h.setChan h.dmaStart)

theorem writeDmaCtrl (h : Keeps s t) {ch : ℕ} {v : Word} : Keeps s (t.writeDmaCtrl ch v) := by
  unfold State.writeDmaCtrl
  dsimp only
  exact ite (dmaGo (ite (dmaAbort (ite h.dmaPause h.dmaResume)) (ite h.dmaPause h.dmaResume))) (ite (dmaAbort (ite h.dmaPause
    h.dmaResume)) (ite h.dmaPause h.dmaResume))

theorem writeDma (h : Keeps s t) {a : ℕ} {v : Word} : Keeps s (t.writeDma a v) := by
  unfold State.writeDma
  dsimp only
  exact ite (ite h.dmaUnhalt h) (ite h (ite (ite h.setChan h) (ite (ite h.setChan h) (ite h.writeDmaCtrl (ite h.setChan h)))))

theorem writeFltStatus (h : Keeps s t) {v : Word} : Keeps s (t.writeFltStatus v) :=
  h.set

theorem writeErrPin (h : Keeps s t) {v : Word} : Keeps s (t.writeErrPin v) := by
  unfold State.writeErrPin
  dsimp only
  exact ite (syncGpio h.set) (emit (syncGpio h.set))

theorem writeFlt (h : Keeps s t) {a : ℕ} {v : Word} : Keeps s (t.writeFlt a v) := by
  unfold State.writeFlt
  dsimp only
  exact ite h.writeFltStatus.syncErr (ite h.set (ite h.set (ite h.set (ite h.writeErrPin h))))

theorem writeSrcCfg (h : Keeps s t) {n : ℕ} {v : Word} : Keeps s (t.writeSrcCfg n v) := by
  unfold State.writeSrcCfg
  dsimp only
  exact ite h (settleInts h.set)

theorem writeArray (h : Keeps s t) {bank : IntBank} {ok : ℕ → Bool} {w : ℕ} {v : Word} {f : Source → Source} :
    Keeps s (t.writeArray bank ok w v f) := by
  unfold State.writeArray
  exact ite (settleInts h.set) h

theorem pendSet (h : Keeps s t) {bank : IntBank} {w : ℕ} {v : Word} : Keeps s (t.pendSet bank w v) := by
  unfold State.pendSet
  exact h.writeArray

theorem pendClr (h : Keeps s t) {bank : IntBank} {w : ℕ} {v hw : Word} : Keeps s (t.pendClr bank w v hw) := by
  unfold State.pendClr
  dsimp only
  exact ite (settleInts h.set) h

theorem maskSet (h : Keeps s t) {bank : IntBank} {w : ℕ} {v : Word} : Keeps s (t.maskSet bank w v) := by
  unfold State.maskSet
  exact h.writeArray

theorem maskClr (h : Keeps s t) {bank : IntBank} {w : ℕ} {v : Word} : Keeps s (t.maskClr bank w v) := by
  unfold State.maskClr
  exact h.writeArray

theorem writeArrayReg (h : Keeps s t) {bank : IntBank} {j w : ℕ} {v : Word} : Keeps s (t.writeArrayReg bank j w v) := by
  unfold State.writeArrayReg
  exact ite h.pendSet (ite h.pendClr (ite h.maskSet (ite h.maskClr h)))

theorem completeInt (h : Keeps s t) {m : Master} {t1 : IntTarget} {n : ℕ} : Keeps s (t.completeInt m t1 n) := by
  unfold State.completeInt
  dsimp only
  exact ite (settleInts h.set) (contained h.set)

theorem sgi (h : Keeps s t) {k : ℕ} {v : Word} : Keeps s (t.sgi k v) := by
  unfold State.sgi
  dsimp only
  exact ite h (settleInts h.set)

theorem writePrivCfg (h : Keeps s t) {k : Fin 16} {n : ℕ} {v : Word} : Keeps s (t.writePrivCfg k n v) := by
  unfold State.writePrivCfg
  dsimp only
  exact ite h (settleInts h.set)

theorem writeCore (h : Keeps s t) {m : Master} {k : Fin 16} {r : ℕ} {v : Word} : Keeps s (t.writeCore m k r v) := by
  unfold State.writeCore
  dsimp only
  exact ite h.completeInt (ite (settleInts h.set) (ite h.sgi (ite h.writeArrayReg (ite h.writePrivCfg h))))

theorem writeInt (h : Keeps s t) {m : Master} {a : ℕ} {v : Word} : Keeps s (t.writeInt m a v) := by
  unfold State.writeInt
  dsimp only
  exact ite h.writeSrcCfg (ite h.writeArrayReg (ite h.set (ite h.set (ite h.set (ite h.set (ite h.set (ite h.set (ite h.writeCore (ite
    h.completeInt h)))))))))

theorem minFreeWrite (h : Keeps s t) : Keeps s t.minFreeWrite := by
  unfold State.minFreeWrite
  dsimp only
  exact same h

theorem giveBuffer (h : Keeps s t) {m : Master} {b : ℕ} {owner : Master} : Keeps s (t.giveBuffer m b owner) := by
  unfold State.giveBuffer
  split
  · exact h.rejectBuffer
  · next heq => exact ite (h.pools (buffersCounted_put_owned heq)) h.rejectBuffer

theorem writeBpm (h : Keeps s t) {m : Master} {a : ℕ} {v : Word} : Keeps s (t.writeBpm m a v) := by
  unfold State.writeBpm
  dsimp only
  exact ite h.minFreeWrite (ite (ite h (same h)) (ite (ite h (same h)) (ite h.freeBuffer (ite h.giveBuffer (ite (same h) (ite (same h)
    (ite (same h) h)))))))

theorem writeMsix (h : Keeps s t) {j : ℕ} {v : Word} : Keeps s (t.writeMsix j v) := by
  unfold State.writeMsix
  exact ite (same h rfl (List.prefix_append _ _)) h.set

theorem writeSqCfg (h : Keeps s t) {p : ℕ} {v : Word} : Keeps s (t.writeSqCfg p v) := by
  unfold State.writeSqCfg
  dsimp only
  exact ite (ite h (ite h.setSq (ite h.setSq h.setSq))) (ite h.setSq (ite h h.shutSq))

theorem writeSq (h : Keeps s t) {p r : ℕ} {v : Word} : Keeps s (t.writeSq p r v) := by
  unfold State.writeSq
  dsimp only
  exact ite h.writeSqCfg (ite (ite h.shutSq h) (ite h.setSq h))

theorem shutCq (h : Keeps s t) {c : ℕ} : Keeps s (t.shutCq c) := by
  unfold State.shutCq
  dsimp only
  exact settleInts (setCq (foldl h fun _ _ hu => hu.discardSq))

theorem writeCqCfg (h : Keeps s t) {c : ℕ} {v : Word} : Keeps s (t.writeCqCfg c v) := by
  unfold State.writeCqCfg
  dsimp only
  exact ite h.setCq (setCq (ite h.shutCq h))

theorem resetCq (h : Keeps s t) {c : ℕ} : Keeps s (t.resetCq c) :=
  settleInts h.shutCq.setCq

theorem writeCq (h : Keeps s t) {c r : ℕ} {v : Word} : Keeps s (t.writeCq c r v) := by
  unfold State.writeCq
  dsimp only
  exact ite h.writeCqCfg (ite h.setCq (ite (ite h.resetCq h) (ite h.setCq h)))

theorem bar0Put (h : Keeps s t) {m : Master} {a : ℕ} {v : Word} : Keeps s (t.bar0Put m a v) := by
  unfold State.bar0Put
  split
  · exact ite h.writeLo h.writeHi
  · exact ite h.writeDev (ite h.writeDma.settleInts (ite h.writeFlt (ite h.writeInt (ite h.writeBpm (ite h.writeMsix (ite h.writeSq (ite
      h.writeCq h)))))))

theorem bar0Write (h : Keeps s t) {m : Master} {a : ℕ} {v : Word} : Keeps s (t.bar0Write m a v) := by
  unfold State.bar0Write
  split
  · exact h.issueIndirect
  · exact ite h.writeKey (ite h.writeInject h.disarm.bar0Put)

theorem writeBar2 (h : Keeps s t) {a : ℕ} {v : Word} : Keeps s (t.writeBar2 a v) := by
  unfold State.writeBar2
  dsimp only
  exact ite (ite h h.set) (ite (ite h h.set) (ite (ite h.dwGo (ite h h.dwFields)) (ite (settleInts h.set) h)))

theorem rejectDoorbell (h : Keeps s t) : Keeps s t.rejectDoorbell :=
  h.set

theorem sqDoor (h : Keeps s t) {p : ℕ} {v : Word} : Keeps s (t.sqDoor p v) := by
  unfold State.sqDoor
  dsimp only
  exact ite h.rejectDoorbell (ite h.setSq (rejectDoorbell h.setSq))

theorem drainBound (h : Keeps s t) {c : ℕ} : Keeps s (t.drainBound c) := by
  unfold State.drainBound
  exact foldl h fun _ _ hu => hu.drain

theorem unstage (h : Keeps s t) {n c : ℕ} : Keeps s (Machine.unstage n t c) := by
  induction n generalizing t with
  | zero => exact h
  | succ n ih =>
    unfold Machine.unstage
    dsimp only
    split
    · exact h
    · exact ite h (ih h.setCq.writeCqe)

theorem cqDoor (h : Keeps s t) {c : ℕ} {v : Word} : Keeps s (t.cqDoor c v) := by
  unfold State.cqDoor
  dsimp only
  exact ite (settleInts (drainBound (unstage h.setCq))) h.setCq

theorem writeBar4 (h : Keeps s t) {a : ℕ} {v : Word} : Keeps s (t.writeBar4 a v) := by
  unfold State.writeBar4
  exact ite h (ite h.sqDoor h.cqDoor)

theorem regWrite (h : Keeps s t) {m : Master} {sp : RegSpace} {a : ℕ} {be : BitVec 4} {v : Word} {h1 : SameCycle} :
    Keeps s (t.regWrite m sp a be v h1) := by
  unfold State.regWrite
  dsimp only
  split
  · exact h.memWrite
  · split
    · exact h.disarm.contained.regHw
    · refine regHw ?_
      split
      · exact ite h.bar0Write h
      · exact ite h.disarm.writeBar2 h
      · exact h.disarm.writeBar4

theorem takeLog (h : Keeps s t) {m : Master} {c : ℕ} : Keeps s (t.takeLog m c) := by
  unfold State.takeLog
  dsimp only
  split
  · exact answer h.set
  · exact settleInts (answer h.set)

theorem readLo (h : Keeps s t) {m : Master} {n : ℕ} : Keeps s (t.readLo m n) := by
  unfold State.readLo
  dsimp only
  exact ite h.takeLog (answer h.set)

theorem readHi (h : Keeps s t) {m : Master} {n : ℕ} : Keeps s (t.readHi m n) := by
  unfold State.readHi
  dsimp only
  split
  · exact answer h.set
  · exact h.answer

theorem corrected (h : Keeps s t) : Keeps s t.corrected :=
  h.set

theorem readScratch (h : Keeps s t) {m : Master} : Keeps s (t.readScratch m) := by
  unfold State.readScratch
  dsimp only
  exact ite (ite (answer (contained h.set)) (answer (corrected h.set))) h.answer

theorem claim (h : Keeps s t) {m : Master} {t1 : IntTarget} : Keeps s (t.claim m t1) :=
  settleInts (answer h.set)

theorem staleEntries (h : Keeps s t) {l : List (BitVec 18)} : Keeps s (t.staleEntries l) := by
  unfold State.staleEntries
  dsimp only
  exact ite h (same h)

theorem rated (h : Keeps s t) : Keeps s t.rated := by
  unfold State.rated
  dsimp only
  exact ite h (same h)

theorem readAlloc (h : Keeps s t) {m : Master} {e : Ecc} {stale : List (BitVec 18)} : Keeps s (t.readAlloc m e stale) := by
  unfold State.readAlloc
  dsimp only
  split
  · split
    · exact ite h.staleEntries.freed.answer h.staleEntries.rated.allocBuffer.answer
    · exact ite h.corrected.staleEntries.freed.answer h.corrected.staleEntries.rated.allocBuffer.answer
    · exact ite (answer (freed (contained (freed (same h))))) (answer (allocBuffer (rated (contained (freed (same h))))))
  · exact ite h.freed.answer h.rated.allocBuffer.answer

theorem bar0Read (h : Keeps s t) {m : Master} {a : ℕ} : Keeps s (t.bar0Read m a) := by
  unfold State.bar0Read
  split
  · exact h.issueIndirect
  · exact ite h.readLo h.readHi
  · exact ite h.readScratch (ite h.claim (ite h.claim (ite h.readAlloc h.answer)))

theorem regRead (h : Keeps s t) {m : Master} {sp : RegSpace} {a : ℕ} : Keeps s (t.regRead m sp a) := by
  unfold State.regRead
  split
  · exact ite h.bar0Read h
  · exact ite h.answer h
  · exact h.answer

theorem endAccess (h : Keeps s t) {w : ℕ} {x : IAccess} {v : Word} {e : BitVec 4} : Keeps s (t.endAccess w x v e) := by
  unfold State.endAccess
  dsimp only
  split
  · split
    · exact issueCommand h.setWindow
    · exact h.setWindow
  · split
    · exact issueCommand (ite h.setWindow (answer h.setWindow))
    · exact ite h.setWindow (answer h.setWindow)

theorem bobDst (h : Keeps s t) {b : BobbinId} : Keeps s (t.bobDst b) :=
  freed h.bobSrc.setBob

theorem bobDrop (h : Keeps s t) {b : BobbinId} {n : ℕ} : Keeps s (t.bobDrop b n) :=
  h.setBob

theorem skipEnded (h : Keeps s t) {n : ℕ} {b : BobbinId} : Keeps s (t.skipEnded n b) := by
  induction n generalizing t with
  | zero => exact h
  | succ n ih =>
    unfold State.skipEnded
    split
    · exact ite h (ih h.bobDrop)
    · exact h

theorem countBin (h : Keeps s t) {item : ℕ} : Keeps s (t.countBin item) :=
  h.set

theorem correctedBy (h : Keeps s t) {item : ℕ} : Keeps s (t.correctedBy item) :=
  h.corrected.countBin

theorem readItem (h : Keeps s t) {b : BobbinId} {e : Ecc} : Keeps s (t.readItem b e) := by
  unfold State.readItem
  split
  · exact h
  · exact h.correctedBy
  · exact h.countBin.contained

theorem chargeTo (h : Keeps s t) {h1 : Holder} : Keeps s (t.chargeTo h1) :=
  h.set

theorem nameBlock (h : Keeps s t) {m : Master} {b : ℕ} {g : BitVec 16} {h1 : Holder} : Keeps s (t.nameBlock m b g h1) := by
  unfold State.nameBlock
  dsimp only
  exact ite h.refuseDesc h.setDesc

theorem substSlot (h : Keeps s t) {m : Master} {n p : ℕ} {lost : Bool} {from_ : BitVec 16} :
    Keeps s (t.substSlot m n p lost from_).2 := by
  unfold State.substSlot
  dsimp only
  exact nameBlock (ite h.poolCount h)

theorem substTable (h : Keeps s t) {m : Master} {n : ℕ} {lost : Bool} {k p : ℕ} : Keeps s (t.substTable m n lost k p).2 := by
  induction k generalizing t p with
  | zero => exact h
  | succ k ih => exact ih h.substSlot

theorem loseRefs (h : Keeps s t) {m : Master} {n : ℕ} : Keeps s (t.loseRefs m n) := by
  unfold State.loseRefs
  dsimp only
  exact setEnc (foldl h.substTable fun _ _ hu => hu.releaseSlots)

theorem checkLost (h : Keeps s t) {m : Master} {n : ℕ} : Keeps s (t.checkLost m n) := by
  unfold State.checkLost
  dsimp only
  exact ite h.loseRefs h

theorem loseEntry (h : Keeps s t) {m : Master} {n i : ℕ} : Keeps s (t.loseEntry m n i) :=
  checkLost (contained (chargeTo (poolCount h.substSlot.setEnc)))

theorem count (h : Keeps s t) {idx sub n : ℕ} : Keeps s (t.count idx sub n) :=
  h.set

theorem bobFlush (h : Keeps s t) {b : BobbinId} : Keeps s (t.bobFlush b) :=
  h.setBob

theorem streamLog (h : Keeps s t) {tile stream : ℕ} {slot : Word} {abandoned truncated valid : Bool} :
    Keeps s (t.streamLog tile stream slot abandoned truncated valid) := by
  unfold State.streamLog
  dsimp only
  exact ite h.set (settleInts h.set)

theorem compCount (h : Keeps s t) {k n : ℕ} : Keeps s (t.compCount k n) :=
  h.set

theorem afterPicture (h : Keeps s t) {n : ℕ} : Keeps s (t.afterPicture n) := by
  unfold State.afterPicture
  exact ite h.releaseStream h

theorem abandon (h : Keeps s t) {tile p : ℕ} {f : Frame} : Keeps s (t.abandon tile p f) := by
  unfold State.abandon
  dsimp only
  exact afterPicture (contained (streamLog (compCount (count (bobPush (bobFlush (bobFlush (bobFlush (bobFlush (bobSrc (setTile (setEnc
    (set (foldl h fun _ _ hu => hu.releaseBlock))))))))))))))

theorem abandonDrained (h : Keeps s t) {tile p : ℕ} : Keeps s (t.abandonDrained tile p) := by
  unfold State.abandonDrained
  split
  · exact ite h.abandon h
  · exact h

theorem treadleFault (h : Keeps s t) {p code : ℕ} : Keeps s (t.treadleFault p code) := by
  unfold State.treadleFault
  dsimp only
  split
  · exact abandonDrained (setTile (contained (ite (countBin (ite (raise (count (count h.setTile))) (count (count h.setTile)))) (ite
      (raise (count (count h.setTile))) (count (count h.setTile))))))
  · exact contained (ite (countBin (ite (raise (count (count h.setTile))) (count (count h.setTile)))) (ite (raise (count (count
      h.setTile))) (count (count h.setTile))))

theorem setTreadle (h : Keeps s t) {p : ℕ} {r : Treadle} : Keeps s (t.setTreadle p r) :=
  h.setTile

theorem romVector (h : Keeps s t) {p : ℕ} : Keeps s (t.romVector p) := by
  unfold State.romVector
  dsimp only
  split
  · exact h.setTreadle
  · split
    · exact h.setTreadle
    · split
      · exact ite h.setTreadle h.setTreadle
      · exact h.setTreadle

theorem feedSlice (h : Keeps s t) {p : ℕ} : Keeps s (t.feedSlice p) :=
  bobPush h.setTile

theorem putFrame (h : Keeps s t) {p : ℕ} {v : Tile} {f : Frame} : Keeps s (t.putFrame p v f) :=
  feedSlice (setFree (t := (t.bobSrc (.slice (ftile p))).setTile p _) h.bobSrc.setTile)

theorem resumeCoder (h : Keeps s t) {p : ℕ} : Keeps s (t.resumeCoder p) := by
  unfold State.resumeCoder
  split
  · exact h.putFrame
  · exact h.bobSrc.feedSlice

theorem romIdle (h : Keeps s t) {p : ℕ} : Keeps s (t.romIdle p) := by
  unfold State.romIdle
  dsimp only
  split
  · exact h.setTreadle
  · split
    · split
      · exact h.setTreadle
      · exact h.setTreadle
      · exact setEnc h.setTreadle
      · exact h.setTreadle
      · exact h.setTile
      · exact h.setTile
      · exact h.setTreadle
    · refine resumeCoder ?_
      split
      · exact h.setTreadle
      · exact h.setTreadle
      · exact setEnc h.setTreadle
      · exact h.setTreadle
      · exact h.setTile
      · exact h.setTile
      · exact h.setTreadle

theorem romRet (h : Keeps s t) {p : ℕ} : Keeps s (t.romRet p) :=
  h.setTreadle

theorem sendStart (h : Keeps s t) {p : ℕ} {lo slot : Word} : Keeps s (t.sendStart p lo slot) := by
  unfold State.sendStart
  dsimp only
  refine bobPush ?_
  refine bobSrc ?_
  split
  · exact h.setTile
  · exact h

theorem romTake (h : Keeps s t) {p : ℕ} {f : Frame} : Keeps s (t.romTake p f) :=
  count (count (count (sendStart (setEnc h.setTile))))

theorem romPlan (h : Keeps s t) {p : ℕ} {f : Frame} : Keeps s (t.romPlan p f) :=
  freed (setEnc h.setTile)

theorem romHeaders (h : Keeps s t) {p : ℕ} {l : List Bytes} : Keeps s (t.romHeaders p l) :=
  h.setTreadle

theorem romSlice (h : Keeps s t) {p : ℕ} {f : Frame} : Keeps s (t.romSlice p f) :=
  resumeCoder h.setTile

theorem settleRequests (h : Keeps s t) {p : ℕ} : Keeps s (t.settleRequests p) := by
  unfold State.settleRequests
  dsimp only
  refine setTile ?_
  refine h.foldl fun u a hu => ?_
  split
  · exact ite hu.setTile hu
  · exact hu

theorem dropItems (h : Keeps s t) {p : ℕ} {f : Frame} {gone : ℕ → Bool} : Keeps s (t.dropItems p f gone) := by
  unfold State.dropItems
  dsimp only
  exact foldl h fun _ _ hu => hu.setBob

theorem cutRate (h : Keeps s t) {p : ℕ} {t1 : Tile} {f : Frame} {c : ℕ} : Keeps s (t.cutRate p t1 f c) :=
  h.dropItems.putFrame

theorem cutAt (h : Keeps s t) {p a : ℕ} : Keeps s (t.cutAt p a) := by
  unfold State.cutAt
  split
  · exact ite h h.cutRate.count.settleRequests
  · exact h

theorem mirrorRecord (h : Keeps s t) {n : ℕ} : Keeps s (t.mirrorRecord n) := by
  unfold State.mirrorRecord
  exact ite h.emit h

theorem closeFrame (h : Keeps s t) {tile p : ℕ} {f : Frame} {truncated valid : Bool} {item : BitVec 256} :
    Keeps s (t.closeFrame tile p f truncated valid item) :=
  afterPicture (streamLog (mirrorRecord (count (bobPush (bobSrc (setTile (set (releaseSlots h.setEnc))))))))

theorem sendEnd (h : Keeps s t) {p : ℕ} {lo : Word} : Keeps s (t.sendEnd p lo) := by
  unfold State.sendEnd
  dsimp only
  split
  · split
    · exact h.closeFrame
    · exact h.bobSrc.bobPush
  · exact h

theorem clearLane (h : Keeps s t) {p : ℕ} {l : Fin 2} {est : ℕ} : Keeps s (t.clearLane p l est) := by
  unfold State.clearLane
  dsimp only
  split
  · exact h.freed.setTile
  · exact h

theorem port (h : Keeps s t) {p op : ℕ} {a b : Word} : Keeps s (t.port p op a b) := by
  unfold State.port
  dsimp only
  split
  · exact h.sendStart
  · split
    · exact h.setTile
    · exact h
  · exact h.cutAt
  · exact h.sendEnd
  · exact h.clearLane
  · exact h

theorem romRowQp (h : Keeps s t) {p : ℕ} {f : Frame} {q : LaneReq} : Keeps s (t.romRowQp p f q) := by
  unfold State.romRowQp
  dsimp only
  exact port h.freed.setEnc

theorem romGate (h : Keeps s t) {p : ℕ} {f : Frame} {q : LaneReq} : Keeps s (t.romGate p f q) := by
  unfold State.romGate
  dsimp only
  exact ite h.port h.freed.port

theorem romAccount (h : Keeps s t) {p : ℕ} {f : Frame} : Keeps s (t.romAccount p f) :=
  h.setTile

theorem romUpdate (h : Keeps s t) {f : Frame} : Keeps s (t.romUpdate f) :=
  count (setFree (t := t.setEnc f.stream _) h.setEnc)

theorem romClose (h : Keeps s t) {p : ℕ} {f : Frame} : Keeps s (t.romClose p f) :=
  h.port

theorem romStep (h : Keeps s t) {p : ℕ} : Keeps s (t.romStep p) := by
  unfold State.romStep
  dsimp only
  split
  · exact h.romVector
  · split
    · exact h.romIdle
    · split
      · exact h.setTreadle
      · split
        · exact h.romRet
        · split
          · exact h.romRet.romTake
          · exact h.romRet.romPlan
          · exact h.romRet.romHeaders
          · exact h.romRet.romHeaders
          · exact h.romRet.romSlice
          · split
            · exact h.romRet.romRowQp
            · exact h.romRet
          · split
            · exact h.romRet.romGate
            · exact h.romRet
          · exact h.romRet.romAccount
          · exact h.romRet.romUpdate
          · exact h.romRet.romClose
          · exact h.romRet

theorem romRun (h : Keeps s t) {n p : ℕ} : Keeps s (t.romRun n p) := by
  induction n generalizing t with
  | zero => exact h
  | succ n ih =>
    unfold State.romRun
    dsimp only
    split
    · exact h
    · split
      · split
        · exact ite h.treadleFault (ih h.setTreadle)
        · exact ite (ite h h.romStep) (ih h.romStep)
      · exact ih h.romStep

theorem runTreadle (h : Keeps s t) {p : ℕ} : Keeps s (t.runTreadle p) :=
  h.romRun

theorem takeFrame (h : Keeps s t) {tile p n : ℕ} {e0 : Enc} {d : PendSlot} {badRows : List ℕ} :
    Keeps s (t.takeFrame tile p n e0 d badRows) :=
  poolCount (set (setEnc h.setTile))

theorem pinAll (h : Keeps s t) {sn : Snapshot} : Keeps s (t.pinAll sn) := by
  unfold State.pinAll
  dsimp only
  exact foldl h fun _ _ hu => hu.setSurface

theorem setEngine (h : Keeps s t) {p : ℕ} {g : Engine} : Keeps s (t.setEngine p g) :=
  h.set

theorem bobPass (h : Keeps s t) {b : BobbinId} {n : ℕ} : Keeps s (t.bobPass b n) := by
  unfold State.bobPass
  dsimp only
  exact ite h h.setBob

theorem dropPrev (h : Keeps s t) {m : Master} {h1 : ℕ} : Keeps s (t.dropPrev m h1) := by
  unfold State.dropPrev
  dsimp only
  split
  · exact ite (releaseSlots h.setSurface) h
  · exact h

theorem unpin (h : Keeps s t) {m : Master} {h1 gen : ℕ} : Keeps s (t.unpin m h1 gen) := by
  unfold State.unpin
  dsimp only
  exact ite h.setSurface (dropPrev h.setSurface)

theorem unpinAll (h : Keeps s t) {m : Master} {sn : Snapshot} : Keeps s (t.unpinAll m sn) := by
  unfold State.unpinAll
  exact foldl h fun _ _ hu => hu.unpin

theorem endJob (h : Keeps s t) {p g tile : ℕ} {j : Job} : Keeps s (t.endJob p g tile j) := by
  unfold State.endJob
  dsimp only
  split
  · exact bobPush (set (unpinAll h.setEngine))
  · exact bobPass (set (unpinAll h.setEngine))

theorem rowEntries (h : Keeps s t) {p : ℕ} {f : Frame} {y : ℕ} : Keeps s (t.rowEntries p f y) := by
  unfold State.rowEntries
  dsimp only
  split
  · exact setTile (foldl h fun _ _ hu => hu.loseEntry)
  · exact foldl h fun _ _ hu => hu.loseEntry

theorem trimItems (h : Keeps s t) {p : ℕ} {f : Frame} : Keeps s (t.trimItems p f) := by
  unfold State.trimItems
  dsimp only
  exact foldl h fun _ _ hu => hu.setBob

theorem tileError (h : Keeps s t) {p bit : ℕ} : Keeps s (t.tileError p bit) :=
  contained h.setTile

theorem cutHint (h : Keeps s t) {p : ℕ} {t1 : Tile} {f : Frame} {c : ℕ} : Keeps s (t.cutHint p t1 f c) :=
  h.dropItems.putFrame.count.count.tileError

theorem discardNext (h : Keeps s t) {p : ℕ} {f : Frame} {l : ℕ} : Keeps s (t.discardNext p f l) :=
  h.setBob

theorem takeHint (h : Keeps s t) {p : ℕ} {x : BitVec 256} {tagged : Bool} : Keeps s (t.takeHint p x tagged) := by
  unfold State.takeHint
  dsimp only
  split
  · exact h
  · exact ite (ite h.rowEntries h) (ite (trimItems (setTile (ite h.rowEntries h))) (ite (cutHint (setTile (ite h.rowEntries h))) (ite
      (discardNext (setTile (ite h.rowEntries h))) (setTile (ite h.rowEntries h)))))

theorem takeSeal (h : Keeps s t) {p : ℕ} {e : Ecc} : Keeps s (t.takeSeal p e) := by
  unfold State.takeSeal
  dsimp only
  split
  · exact h
  · exact ite h (readItem (bobDrop h.setTile))

theorem pollTile (h : Keeps s t) {tile : ℕ} {e sealItem : Ecc} : Keeps s (t.pollTile tile e sealItem) := by
  unfold State.pollTile
  dsimp only
  split
  · exact h
  · refine takeSeal ?_
    refine bobDst ?_
    split
    · exact h.bobDst.bobDrop
    · exact foldl h.bobDst.bobDrop.readItem.takeHint fun _ _ hu => hu.takeHint

theorem fetchRefs (h : Keeps s t) {p : ℕ} {f : Frame} {i : ℕ} {h1 : Hint} : Keeps s (t.fetchRefs p f i h1) :=
  set h.setTile

theorem loseSlot (h : Keeps s t) {m : Master} {n i k : ℕ} : Keeps s (t.loseSlot m n i k) := by
  unfold State.loseSlot
  dsimp only
  split
  · exact h
  · split
    · exact h
    · exact checkLost (contained (chargeTo (poolCount (setEnc (substSlot (ite h (releaseBlock h.setDesc)))))))

theorem allocReserved (h : Keeps s t) {h1 : Holder} {mark : Mark} {data : Block} : Keeps s (t.allocReserved h1 mark data).2 :=
  h.allocBlock.set

theorem strikeSlice (h : Keeps s t) {p : ℕ} {keep : NalOut → Bool} : Keeps s (t.strikeSlice p keep) :=
  h.setBob

theorem formed (h : Keeps s t) {p : ℕ} {o : SliceOut} {x : NalOut} {b : Bytes} {nalBytes items : ℕ} {first last : Bool} {kind : ℕ} :
    Keeps s (t.formed p o x b nalBytes items first last kind) := by
  unfold State.formed
  dsimp only
  refine count ?_
  split
  · exact set h.setTile
  · split
    · exact setEnc h.setTile
    · exact h.setTile

theorem updateList (h : Keeps s t) {n : ℕ} {first : Bool} : Keeps s (t.updateList n first) :=
  h.set

theorem selvCount (h : Keeps s t) {k n : ℕ} : Keeps s (t.selvCount k n) :=
  h.set

theorem macRemove (h : Keeps s t) {pos : ℕ} : Keeps s (t.macRemove pos) := by
  unfold State.macRemove
  split
  · exact logLearn h.set
  · exact h

theorem macBad (h : Keeps s t) {m : Master} {vlan : BitVec 12} {mac : BitVec 48} {bad : Bool} : Keeps s (t.macBad m vlan mac bad) := by
  unfold State.macBad
  split
  · refine selvCount ?_
    refine contained ?_
    split
    · exact h.macRemove
    · exact h
  · exact h

theorem copyToEndpoint (h : Keeps s t) {k : Packet} {e : ℕ} {bad : Bool} : Keeps s (t.copyToEndpoint k e bad) := by
  unfold State.copyToEndpoint
  dsimp only
  split
  · exact h.macBad.setEp
  · exact ite (transCount (setEp h.macBad.setEp)) (ite (transCount (setEp (enqueueCopy (freed h.macBad.setEp)))) (ite (setEp
      (enqueueCopy (freed h.macBad.setEp))) (enqueueCopy (freed h.macBad.setEp))))

theorem copyToGroup (h : Keeps s t) {k : Packet} {p : ℕ} : Keeps s (t.copyToGroup k p) := by
  unfold State.copyToGroup
  dsimp only
  exact ite h.freed.enqueueCopy.transCount h.freed.enqueueCopy

theorem setShaper (h : Keeps s t) {lv n : ℕ} {v : Shaper} : Keeps s (t.setShaper lv n v) := by
  unfold State.setShaper
  dsimp only
  exact ite h.setQueue (ite h.set h.set)

theorem settlePick (h : Keeps s t) {p : Pick} : Keeps s (t.settlePick p) := by
  unfold State.settlePick
  dsimp only
  exact set (foldl h fun _ _ hu => hu.setShaper)

theorem charge (h : Keeps s t) {lv n st len : ℕ} : Keeps s (t.charge lv n st len) :=
  h.setShaper

theorem setPort (h : Keeps s t) {p : ℕ} {v : PortNode} : Keeps s (t.setPort p v) :=
  h.set

theorem jobWrite (h : Keeps s t) {loc : Bool} {l : List (ℕ × ℕ)} {d : Bytes} : Keeps s (t.jobWrite loc l d) := by
  induction l generalizing t d with
  | nil => exact h
  | cons f r ih => exact ih (ite h (ite h.devWrite h.emit))

theorem hostDeliver (h : Keeps s t) {frame : Bytes} {ingress : ℕ} : Keeps s (t.hostDeliver frame ingress) := by
  unfold State.hostDeliver
  dsimp only
  split
  · exact h
  · split
    · exact h.set
    · exact closeJob (jobWrite h.set)

theorem resolveFrom (h : Keeps s t) {port1 : ℕ} {b : Bytes} : Keeps s (t.resolveFrom port1 b) := by
  unfold State.resolveFrom
  dsimp only
  split
  · exact h
  · exact foldl h fun _ _ hu => (ite hu (logLearn hu.set))

theorem reenter (h : Keeps s t) {port1 gen node vlan : ℕ} {b : Bytes} : Keeps s (t.reenter port1 gen node vlan b) :=
  h.set

theorem depart (h : Keeps s t) {node : ℕ} {c : Copy} : Keeps s (t.depart node c) := by
  unfold State.depart
  dsimp only
  split
  · exact ite (selvCount (emit h.dropCells.setPort)) (emit h.dropCells.setPort)
  · split
    · exact h.dropCells.hostDeliver
    · split
      · refine settleInts ?_
        split
        · exact ite h.dropCells.emit.resolveFrom h.dropCells.emit
        · exact h.dropCells.emit
      · split
        · exact h.dropCells.reenter
        · exact h.dropCells

theorem endLoad (h : Keeps s t) {h1 n : ℕ} : Keeps s (t.endLoad h1 n) :=
  h.set

theorem commitSurface (h : Keeps s t) {m : Master} {h1 : ℕ} : Keeps s (t.commitSurface m h1) := by
  unfold State.commitSurface
  dsimp only
  split
  · exact dropPrev (endLoad h.freed.setSurface)
  · exact h

theorem settleLoop (h : Keeps s t) {n : ℕ} : Keeps s (Machine.settleLoop n t) := by
  induction n generalizing t with
  | zero => exact h
  | succ n ih =>
    unfold Machine.settleLoop
    split
    · exact h
    · dsimp only
      split
      · exact h
      · exact ih (poolCount (foldl h fun _ _ hu => hu.moveBlock))

theorem resumeStream (h : Keeps s t) {n : ℕ} : Keeps s (t.resumeStream n) := by
  unfold State.resumeStream
  dsimp only
  exact ite h.setEnc h.allocFrames.substTable.setEnc

theorem decCount (h : Keeps s t) {c k n : ℕ} : Keeps s (t.decCount c k n) :=
  h.setDec

theorem losePicture (h : Keeps s t) {c : ℕ} : Keeps s (t.losePicture c) :=
  h.decCount.count.setDec

theorem completeAu (h : Keeps s t) {c : ℕ} : Keeps s (t.completeAu c) := by
  unfold State.completeAu
  dsimp only
  exact ite (losePicture h.setDec) (ite h.setDec (setDec h.setDec))

theorem ringWrite (h : Keeps s t) {c : ℕ} {b : Bytes} : Keeps s (t.ringWrite c b) :=
  h.devStore.devStore.setDec

theorem enterNal (h : Keeps s t) {c : ℕ} {b : Bytes} : Keeps s (t.enterNal c b) := by
  unfold State.enterNal
  dsimp only
  exact ite h.decCount h.ringWrite.setDec

theorem enterNals (h : Keeps s t) {c : ℕ} {donl : Bool} {l : List (Bytes × BitVec 16)} : Keeps s (t.enterNals c donl l) := by
  induction l generalizing t with
  | nil => exact h
  | cons x r ih => exact ih (ite h.decCount h.setDec.enterNal)

theorem cutFrag (h : Keeps s t) {c : ℕ} : Keeps s (t.cutFrag c) := by
  unfold State.cutFrag
  dsimp only
  exact setDec (ite h.decCount h)

theorem takePayload (h : Keeps s t) {c kind : ℕ} {donl : Bool} {b : Bytes} : Keeps s (t.takePayload c kind donl b) := by
  unfold State.takePayload
  dsimp only
  split
  · exact h.decCount
  · exact h.cutFrag.enterNals
  · split
    · exact ite h.cutFrag.decCount.setDec h.cutFrag.setDec
    · split
      · exact ite (enterNal h.setDec) h.setDec
      · exact setDec (ite h h.decCount)

theorem handOn (h : Keeps s t) {c : ℕ} {k : HeldPkt} : Keeps s (t.handOn c k) := by
  unfold State.handOn
  dsimp only
  split
  · refine completeAu ?_
    split
    · exact ite (decCount (setDec (ite (ite h.completeAu h) (setDec (ite h.completeAu h))))) (ite (setDec (ite (ite h.completeAu h)
        (setDec (ite h.completeAu h)))) (takePayload (ite (ite h.completeAu h) (setDec (ite h.completeAu h)))))
    · exact ite (decCount (setDec (ite h h.setDec))) (ite (setDec (ite h h.setDec)) (takePayload (ite h h.setDec)))
  · split
    · exact ite (decCount (setDec (ite (ite h.completeAu h) (setDec (ite h.completeAu h))))) (ite (setDec (ite (ite h.completeAu h)
        (setDec (ite h.completeAu h)))) (takePayload (ite (ite h.completeAu h) (setDec (ite h.completeAu h)))))
    · exact ite (decCount (setDec (ite h h.setDec))) (ite (setDec (ite h h.setDec)) (takePayload (ite h h.setDec)))

theorem drainHeld (h : Keeps s t) {n c : ℕ} : Keeps s (Machine.drainHeld n t c) := by
  induction n generalizing t with
  | zero => exact h
  | succ n ih =>
    unfold Machine.drainHeld
    dsimp only
    split
    · exact ite (ih h.setDec.handOn) h
    · exact h

theorem loseGap (h : Keeps s t) {c : ℕ} : Keeps s (t.loseGap c) := by
  unfold State.loseGap
  dsimp only
  split
  · exact drainHeld (ite (decCount (count (decCount h.setDec))) (count (decCount h.setDec)))
  · exact h

theorem decodePacket (h : Keeps s t) {c : ℕ} {payload : Bytes} {tagged : Bool} : Keeps s (t.decodePacket c payload tagged) := by
  unfold State.decodePacket
  dsimp only
  split
  · exact h
  · split
    · exact h.decCount
    · exact ite h.decCount (ite (decCount (decCount (setDec (ite h.unsync h)))) (ite (drainHeld (handOn (setDec (decCount (setDec (ite
        h.unsync h)))))) (ite (loseGap (setDec (decCount (setDec (ite h.unsync h))))) (setDec (decCount (setDec (ite h.unsync h)))))))

theorem bobClear (h : Keeps s t) {b : BobbinId} : Keeps s (t.bobClear b) :=
  h.bobDst.bobDrop

theorem surfaceClear (h : Keeps s t) {p : ℕ} : Keeps s (t.surfaceClear p) := by
  unfold State.surfaceClear
  exact foldl h fun _ _ hu => hu.bobClear

theorem finishing (h : Keeps s t) {p : ℕ} {k : State → State} (hk : ∀ u, Keeps s u → Keeps s (k u)) :
    Keeps s (t.finishing p k) := by
  unfold State.finishing
  exact ite (hk _ h.surfaceClear) h.surfaceClear.setDtile

theorem surfaceItems (h : Keeps s t) {p : ℕ} : Keeps s (t.surfaceItems p) := by
  unfold State.surfaceItems
  exact foldl h fun _ _ hu => hu.bobPass

theorem writeBlocks (h : Keeps s t) {p : ℕ} {o : Holder} {mark : Mark} {content : State → List Slot → ℕ → Block} {n : ℕ} :
    Keeps s (t.writeBlocks p o mark content n).2 := by
  induction n with
  | zero => exact h
  | succ n ih =>
    unfold State.writeBlocks
    dsimp only
    split
    · exact ih.freed.freed.surfaceItems.allocBlock
    · exact ih.freed.freed.surfaceItems.allocBlock

theorem dropPics (h : Keeps s t) {m : Master} {c : ℕ} {gone : DecPic → Bool} : Keeps s (t.dropPics m c gone) := by
  unfold State.dropPics
  dsimp only
  exact setDec (foldl h fun _ _ hu => hu.forgetPic)

theorem tileWrote (h : Keeps s t) {p n : ℕ} : Keeps s (t.tileWrote p n) :=
  h.setDtile

theorem surfaceRow (h : Keeps s t) {p : ℕ} {sl : List Slot} {e : Ecc} : Keeps s (t.surfaceRow p sl e) := by
  unfold State.surfaceRow
  dsimp only
  split
  · exact h
  · exact ite (same h.freed.freed.readItem) h.freed.freed.readItem

theorem reviewMarks (h : Keeps s t) {m : Master} {c : ℕ} : Keeps s (t.reviewMarks m c) :=
  h.decState

theorem trimDpb (h : Keeps s t) {m : Master} {c : ℕ} : Keeps s (t.trimDpb m c) := by
  unfold State.trimDpb
  dsimp only
  exact ite h.dropPics h.dropPics.dropPics

theorem namePic (h : Keeps s t) {m : Master} {h1 : Holder} {p : DecPic} : Keeps s (t.namePic m h1 p) := by
  unfold State.namePic
  exact foldl h fun _ _ hu => hu.nameBlock

theorem commitTable (h : Keeps s t) {m : Master} {c surf : ℕ} {p : DecPic} {t1 : List Slot} :
    Keeps s (t.commitTable m c surf p t1) := by
  unfold State.commitTable
  dsimp only
  refine decCount ?_
  refine commitSurface ?_
  refine setSurface ?_
  split
  · exact decCount (releaseSlots h.setSurface)
  · exact h

theorem commitPic (h : Keeps s t) {m : Master} {p c surf : ℕ} {pic : DecPic} : Keeps s (t.commitPic m p c surf pic) := by
  unfold State.commitPic
  dsimp only
  exact ite h (ite h.namePic.commitTable (ite h (commitTable h.writeBlocks.tileWrote.setDec)))

theorem outputPic (h : Keeps s t) {m : Master} {c : ℕ} {g : Decoding} {p : DecPic} : Keeps s (t.outputPic m c g p) := by
  unfold State.outputPic
  dsimp only
  split
  · refine decCount ?_
    refine setDec ?_
    split
    · exact h.namePic.releasePic
    · exact h.namePic
  · split
    · refine setDec ?_
      split
      · exact h.namePic.releasePic
      · exact h.namePic
    · split
      · refine commitPic ?_
        refine setDec ?_
        split
        · exact h.namePic.releasePic
        · exact h.namePic
      · split
        · refine decCount ?_
          refine commitPic ?_
          refine setDec ?_
          split
          · exact h.namePic.releasePic
          · exact h.namePic
        · refine setDec ?_
          refine namePic ?_
          refine setDec ?_
          split
          · exact h.namePic.releasePic
          · exact h.namePic

theorem stFrame (h : Keeps s t) {m : Master} {p c : ℕ} {g : Decoding} {item : Ecc} : Keeps s (t.stFrame m p c g item) := by
  unfold State.stFrame
  dsimp only
  exact reviewMarks (trimDpb (outputPic (count h.writeBlocks.surfaceRow.tileWrote.dropPics.decCount.setDec)))

theorem tileEnded (h : Keeps s t) {p c : ℕ} {g : Decoding} {stall wait : Word} : Keeps s (t.tileEnded p c g stall wait) :=
  setDtile (setDec h.set)

theorem beginPicture (h : Keeps s t) {p c : ℕ} {au : AccessUnit} {width height : ℕ} {poc : BitVec 32} :
    Keeps s (t.beginPicture p c au width height poc) := by
  unfold State.beginPicture
  dsimp only
  exact ite h.losePicture (setDtile (set h.ownSurface.allocFrames.setDec))

theorem countPicture (h : Keeps s t) {p c : ℕ} {f : PicFound} {concealed missing damaged : ℕ} :
    Keeps s (t.countPicture p c f concealed missing damaged) :=
  count (count (count (decCount (decCount (decCount (decCount h.setDtile))))))

theorem refDamaged (h : Keeps s t) {m : Master} {c : ℕ} {e : Dec} {cvs : ℕ} {x : RefError} :
    Keeps s (State.refDamaged m c e cvs t x) := by
  unfold State.refDamaged
  split
  · exact h
  · exact contained (chargeTo (poolCount (ite h.setDesc h)))

theorem remarkPic (h : Keeps s t) {isRef longTerm : Bool} {p : DecPic} : Keeps s (t.remarkPic isRef longTerm p) := by
  unfold State.remarkPic
  dsimp only
  exact foldl h fun _ _ hu => (ite hu.setDesc hu)

theorem remark (h : Keeps s t) {c cvs : ℕ} {l : List (BitVec 32 × Bool × Bool)} : Keeps s (t.remark c cvs l) := by
  unfold State.remark
  dsimp only
  refine setDec ?_
  refine h.foldl fun u a hu => ?_
  split
  · exact hu.remarkPic
  · exact hu

theorem endPicture (h : Keeps s t) {m : Master} {p c : ℕ} {g : Decoding} {f : PicFound} {item : Ecc} :
    Keeps s (t.endPicture m p c g f item) := by
  unfold State.endPicture
  dsimp only
  refine reviewMarks ?_
  refine trimDpb ?_
  refine (ite (count (setDec (dropPics (remark (tileWrote (surfaceRow (writeBlocks (foldl h.countPicture fun _ _ hu =>
    hu.refDamaged)))))))) (setDec (dropPics (remark (tileWrote (surfaceRow (writeBlocks (foldl h.countPicture fun _ _ hu =>
    hu.refDamaged)))))))).foldl fun u a hu => ?_
  split
  · exact hu.outputPic
  · exact hu

theorem judgePicture (h : Keeps s t) {m : Master} {p c : ℕ} {g : Decoding} {f : PicFound} {item : Ecc} :
    Keeps s (t.judgePicture m p c g f item) := by
  unfold State.judgePicture
  dsimp only
  exact ite (releaseSlots (decState (ite (decState h.setDec) h))) (ite (releaseSlots (decCount (decState (ite (decState h.setDec) h))))
    (ite (releaseSlots (losePicture (ite (decState h.setDec) h))) (endPicture (ite (decState h.setDec) h))))

theorem picLeft (h : Keeps s t) {m : Master} {c : ℕ} : Keeps s (t.picLeft m c) := by
  unfold State.picLeft
  exact ite h.reviewMarks h

theorem recordStore (h : Keeps s t) {n off : ℕ} {v : Word} : Keeps s (t.recordStore n off v) := by
  unfold State.recordStore
  dsimp only
  split
  · exact h
  · exact ite h.setEnc h.setEnc

theorem runWord (h : Keeps s t) {p w nv : ℕ} : Keeps s (Machine.runWord t p w nv) := by
  have hport (v : Tile) (c1 c2 : Prop) [Decidable c1] [Decidable c2] (n a x : ℕ) (y b z : Word) :
      Keeps s ((if c2 then (if c1 then (t.freed.setTile p v).resumeCoder p else t.freed.setTile p v).recordStore n a b
        else if c1 then (t.freed.setTile p v).resumeCoder p else t.freed.setTile p v).port p x y z) := by
    have hcoder : Keeps s (if c1 then (t.freed.setTile p v).resumeCoder p else t.freed.setTile p v) :=
      ite h.freed.setTile.resumeCoder h.freed.setTile
    exact port (ite hcoder.recordStore hcoder)
  unfold Machine.runWord
  extract_lets v r a b op mem n x res dest m r1 r2 r3 bw r4 safe r5 v1 s0 s1 s2 s3 t3
  have hs3 : Keeps s s3 := hport ..
  refine ite h.treadleFault ?_
  split
  · exact hs3.setTile
  · exact hs3.treadleFault

theorem capture (h : Keeps s t) {p : ℕ} : Keeps s (t.capture p) :=
  freed h.set

theorem captureArrival (h : Keeps s t) {k : Pkt} : Keeps s (t.captureArrival k) := by
  unfold State.captureArrival
  dsimp only
  exact ite h.capture.set h

theorem lookups (h : Keeps s t) {k : Pkt} {dstBad srcBad : Bool} : Keeps s (t.lookups k dstBad srcBad).2 := by
  unfold State.lookups
  dsimp only
  split
  · exact ite h.macBad.macBad.set h.macBad.macBad
  · exact h.macBad.macBad

theorem learnFrom (h : Keeps s t) {k : Pkt} : Keeps s (t.learnFrom k) := by
  unfold State.learnFrom
  dsimp only
  split
  · exact h
  · split
    · exact ite h.selvCount h.set
    · exact ite h (ite h.selvCount (ite h (ite h.selvCount h.set)))

theorem exception (h : Keeps s t) {k : Pkt} {reason : ℕ} : Keeps s (t.exception k reason) := by
  unfold State.exception
  dsimp only
  exact ite h.queueDrop.selvCount h.setQueue

theorem timeCount (h : Keeps s t) {k : ℕ} : Keeps s (t.timeCount k) :=
  h.set

theorem toNode (h : Keeps s t) {k : Pkt} {vid node : ℕ} : Keeps s (t.toNode k vid node) := by
  unfold State.toNode
  dsimp only
  exact ite h.enqueueCopy (ite h.enqueueCopy h.exception)

theorem bridgeTo (h : Keeps s t) {k : Pkt} {vid : ℕ} {ports : List ℕ} : Keeps s (t.bridgeTo k vid ports) := by
  unfold State.bridgeTo
  dsimp only
  exact ite h.set (ite h (foldl h fun _ _ hu => hu.toNode))

theorem bridge (h : Keeps s t) {k : Pkt} {vid : ℕ} : Keeps s (t.bridge k vid) :=
  h.bridgeTo

theorem toContext (h : Keeps s t) {c : ℕ} {k : Pkt} : Keeps s (t.toContext c k) := by
  unfold State.toContext
  dsimp only
  exact ite h.set h

theorem macInsert (h : Keeps s t) {e : MacEntry} : Keeps s (t.macInsert e).2 := by
  unfold State.macInsert
  dsimp only
  split
  · exact logLearn (selvCount h.set)
  · split
    · exact logLearn (selvCount h.set)
    · split
      · exact h.selvCount
      · split
        · exact logLearn (selvCount h.logLearn.freed.selvCount.set)
        · exact logLearn (selvCount h.freed.selvCount.set)

theorem takeCmd (h : Keeps s t) {op : MacOp} {c : MacCmd} (e : Machine.takeCmd t op = some (c, u)) : Keeps s u := by
  unfold Machine.takeCmd at e
  split at e
  · cases e
  · split at e
    · obtain ⟨-, rfl⟩ := Prod.mk.inj (Option.some.inj e)
      exact h.set
    · cases e

theorem macResult (h : Keeps s t) {c : MacCmd} {f : MacArgs → MacArgs} : Keeps s (t.macResult c f) := by
  unfold State.macResult
  dsimp only
  exact settleDict (ite h h.setSess)

theorem flushMacs (h : Keeps s t) {port1 : Option ℕ} {vlan lo hi : ℕ} : Keeps s (t.flushMacs port1 vlan lo hi).2 := by
  unfold State.flushMacs
  dsimp only
  exact foldl h fun _ _ hu => hu.macRemove

theorem flushSteps (h : Keeps s t) {op : MacOp} {steps : ℕ} : Keeps s (t.flushSteps op steps) := by
  unfold State.flushSteps
  dsimp only
  split
  · exact h
  · exact ite (ite (macResult h.flushMacs.set) h.flushMacs.set) h

theorem takeLpm (h : Keeps s t) {op : LpmOp} {c : LpmCmd} (e : Machine.takeLpm t op = some (c, u)) : Keeps s u := by
  obtain ⟨p, _, hp⟩ := Option.map_eq_some_iff.1 e
  obtain ⟨-, rfl⟩ := Prod.mk.inj hp
  exact h.set

theorem lpmResult (h : Keeps s t) {c : LpmCmd} {f : LpmArgs → LpmArgs} : Keeps s (t.lpmResult c f) := by
  unfold State.lpmResult
  dsimp only
  exact settleDict (ite h h.setSess)

theorem syncGroup (h : Keeps s t) {vlan : BitVec 12} {mac : BitVec 48} : Keeps s (t.syncGroup vlan mac) := by
  unfold State.syncGroup
  dsimp only
  split
  · exact ite h.macRemove (ite h (logLearn h.set))
  · exact ite h h.macInsert

theorem setMember (h : Keeps s t) {vlan : BitVec 12} {mac : BitVec 48} {port1 until_ : ℕ} :
    Keeps s (t.setMember vlan mac port1 until_) :=
  syncGroup h.set

theorem dropMember (h : Keeps s t) {vlan : BitVec 12} {mac : BitVec 48} {port1 : ℕ} : Keeps s (t.dropMember vlan mac port1) :=
  syncGroup h.set

theorem generalQuery (h : Keeps s t) {vlan : BitVec 12} {v4 : Bool} : Keeps s (t.generalQuery vlan v4) := by
  unfold State.generalQuery
  dsimp only
  exact ite h (foldl h.freed.set fun _ _ hu => hu.enqueueCopy)

theorem touchCount (h : Keeps s t) {k : ℕ} : Keeps s (t.touchCount k) :=
  h.set

theorem feedTouch (h : Keeps s t) {p : ℕ} : Keeps s (t.feedTouch p) :=
  bobPush h.bobSrc.setEngine

theorem queueTouch (h : Keeps s t) {p : ℕ} {t1 : Touch} {raw : Bytes} : Keeps s (t.queueTouch p t1 raw) := by
  unfold State.queueTouch
  dsimp only
  exact ite h.touchCount (ite h.feedTouch.touchCount (ite (raise (feedTouch (touchCount h.feedTouch.setEngine))) (feedTouch (touchCount
    h.feedTouch.setEngine))))

theorem trackOf (h : Keeps s t) {ep : ℕ} : Keeps s (t.trackOf ep).2 := by
  unfold State.trackOf
  dsimp only
  split
  · exact h
  · split
    · exact h
    · split
      · exact h
      · exact touchCount h.set

theorem presence (h : Keeps s t) {e : ℕ} {on : Bool} : Keeps s (t.presence e on) :=
  raise (logLearn h.setEp)

theorem tell (h : Keeps s t) {reason : ℕ} {data : Bytes} : Keeps s (t.tell reason data) :=
  h.emit

theorem unchecked (h : Keeps s t) {e : ℕ} : Keeps s (t.unchecked e) :=
  transCount h.setEp

theorem jumpStream (h : Keeps s t) {ticks n : ℕ} {e : Enc} : Keeps s (t.jumpStream ticks n e) := by
  unfold State.jumpStream
  dsimp only
  exact ite h (poolCount h.set)

theorem steppedFrom (h : Keeps s t) {old : ℕ} : Keeps s (t.steppedFrom old) := by
  unfold State.steppedFrom
  exact ite h.set (foldl h fun _ _ hu => hu.jumpStream)

theorem setPtp (h : Keeps s t) {new : ℕ} : Keeps s (t.setPtp new) := by
  unfold State.setPtp
  dsimp only
  exact ite h (steppedFrom h.timeCount.set)

theorem setCount (h : Keeps s t) {sec : ℕ} {off : ℤ} : Keeps s (t.setCount sec off) :=
  setPtp h.set

theorem heldDone (h : Keeps s t) : Keeps s t.heldDone :=
  h.set

theorem timeMode (h : Keeps s t) {m : TimeMode} : Keeps s (t.timeMode m) := by
  unfold State.timeMode
  dsimp only
  exact ite h (raise h.set)

theorem toLocked (h : Keeps s t) : Keeps s t.toLocked := by
  unfold State.toLocked
  dsimp only
  exact ite h (timeMode (freed h.set))

theorem toAcquiring (h : Keeps s t) : Keeps s t.toAcquiring := by
  unfold State.toAcquiring
  dsimp only
  exact ite h (timeMode h.clockView.set)

theorem judge (h : Keeps s t) {off : ℤ} : Keeps s (t.judge off) := by
  unfold State.judge
  dsimp only
  split
  · exact h
  · exact h
  · exact ite (ite h h.toAcquiring.toLocked) h.toAcquiring.set

theorem toFreeRun (h : Keeps s t) : Keeps s t.toFreeRun :=
  timeMode h.set

theorem fromInputs (h : Keeps s t) : Keeps s t.fromInputs := by
  unfold State.fromInputs
  exact ite (ite h.toLocked h.toAcquiring) h.toFreeRun

theorem leaveSlave (h : Keeps s t) : Keeps s t.leaveSlave :=
  fromInputs h.set

theorem reviewSlave (h : Keeps s t) : Keeps s t.reviewSlave := by
  unfold State.reviewSlave
  split
  · exact ite h.leaveSlave h
  · exact h

theorem setFreq (h : Keeps s t) {f : ℤ} : Keeps s (t.setFreq f) :=
  h.set

theorem steer (h : Keeps s t) : Keeps s t.steer :=
  freed (setFreq h.set)

theorem toHoldover (h : Keeps s t) {base origin : ℕ} : Keeps s (t.toHoldover base origin) :=
  timeMode (holdoverNow (timeCount h.set))

theorem gnssLost (h : Keeps s t) : Keeps s t.gnssLost := by
  unfold State.gnssLost
  dsimp only
  split
  · exact toHoldover (timeCount h.set)
  · split
    · exact toHoldover (timeCount h.set)
    · exact timeMode (holdoverNow (timeCount (timeCount h.set)))
    · exact toFreeRun (timeCount h.set)
  · exact timeCount h.set

theorem badEdge (h : Keeps s t) {prev : ℕ} : Keeps s (t.badEdge prev) := by
  unfold State.badEdge
  dsimp only
  exact ite (gnssLost (timeCount (set (ite (setFreq h.set) h)))) (timeCount (set (ite (setFreq h.set) h)))

theorem nextSeqOf (h : Keeps s t) {kind p : ℕ} : Keeps s (t.nextSeqOf kind p).2 :=
  h.set

theorem sendPtp (h : Keeps s t) {p : ℕ} {event : Bool} {to_ : Option (BitVec 48 × BitVec 128)} {msg : Bytes} :
    Keeps s (t.sendPtp p event to_ msg) :=
  emit (enqueueCopy h.setFree)

theorem takeArrival (h : Keeps s t) {p : ℕ} : Keeps s (t.takeArrival p) := by
  unfold State.takeArrival
  dsimp only
  split
  · exact h.set
  · exact h.capture

theorem crossStamp (h : Keeps s t) {p : ℕ} {received : Bool} {item : Ecc} {b : Bytes} (e : t.crossStamp p received item = some (u, b)) :
    Keeps s u := by
  unfold State.crossStamp at e
  dsimp only at e
  have hitem : Keeps s (((if received then (t.bobClear .timestamp).takeArrival p else (t.bobClear .timestamp).capture p).bobPass
      .timestamp 1).readItem .timestamp item) :=
    readItem (bobPass (ite h.bobClear.takeArrival h.bobClear.capture))
  split at e
  · split at e
    · obtain ⟨rfl, -⟩ := Prod.mk.inj (Option.some.inj e)
      exact hitem.freed
    · obtain ⟨rfl, -⟩ := Prod.mk.inj (Option.some.inj e)
      exact hitem
  · cases e

theorem dropArrival (h : Keeps s t) {p : ℕ} : Keeps s (t.dropArrival p) := by
  unfold State.dropArrival
  dsimp only
  split
  · exact h.set
  · exact h

theorem follow (h : Keeps s t) {port1 : ℕ} {a : Announce} : Keeps s (t.follow port1 a) :=
  timeMode h.set

theorem takeEntries (h : Keeps s t) {p n : ℕ} {got : Option (List Bytes)} : Keeps s (t.takeEntries p n got) := by
  unfold State.takeEntries
  dsimp only
  split
  · exact ite (drain h.setSq) h.setSq
  · exact drain h.setSq

theorem jobFrags (h : Keeps s t) {j : HostJob} {table : Option Bytes} : Keeps s (Machine.jobFrags t j table).2 := by
  unfold Machine.jobFrags
  dsimp only
  split
  · exact h
  · split
    · exact h
    · split
      · split
        · exact h.contained
        · split
          · exact h.ddrTouch
          · exact h.ddrTouch
      · split
        · split
          · exact h
          · exact h
        · exact h.contained

theorem jobData (h : Keeps s t) {j : HostJob} {l : List (ℕ × ℕ)} {data : Option Bytes} : Keeps s (Machine.jobData t j l data).2 := by
  unfold Machine.jobData
  split
  · split
    · exact h.contained
    · exact foldl h fun _ _ hu => hu.ddrTouch
  · split
    · exact h
    · exact h.contained

theorem loadBlocks (h : Keeps s t) {o : Holder} {l : List Bytes} : Keeps s (t.loadBlocks o l).2 := by
  induction l generalizing t with
  | nil => exact h
  | cons b r ih =>
    unfold State.loadBlocks
    dsimp only
    split
    · exact ih h.allocBlock
    · exact ih h.allocBlock

theorem freeSurface (h : Keeps s t) {m : Master} {h1 : ℕ} : Keeps s (t.freeSurface m h1) :=
  dropPrev h.setSurface

theorem dmaFail (h : Keeps s t) {ch : ℕ} {code : BitVec 4} {addr : ℕ} : Keeps s (t.dmaFail ch code addr) := by
  unfold State.dmaFail
  dsimp only
  exact contained (raise (set (foldl h.dmaEnd fun _ _ hu => hu.dmaDrain.dmaEnd)))

theorem sramCounted (h : Keeps s t) {row : ℕ} {u1 : Option HwUnit} : Keeps s (t.sramCounted row u1) := by
  unfold State.sramCounted
  split
  · exact h.correctedBy.countBin
  · exact h.correctedBy

theorem sramRow (h : Keeps s t) {row : ℕ} {u1 : Option HwUnit} : Keeps s (t.sramRow row u1) := by
  unfold State.sramRow
  dsimp only
  exact ite h.sramCounted (ite h.sramCounted.set h.sramCounted.setSparing)

theorem scrubBad (h : Keeps s t) {a : ℕ} : Keeps s (t.scrubBad a) :=
  h.contained

theorem writeBack (h : Keeps s t) {a : ℕ} {e : CodeErr} : Keeps s (t.writeBack a e) := by
  unfold State.writeBack
  exact ite h.devStore h

theorem deviceHit (h : Keeps s t) {c dev : ℕ} : Keeps s (t.deviceHit c dev) :=
  h.setDdr

theorem scrubWord (h : Keeps s t) {a : ℕ} {f : ScrubFound} : Keeps s (t.scrubWord a f) := by
  unfold State.scrubWord
  dsimp only
  split
  · exact h
  · split
    · exact h.scrubBad
    · split
      · exact h
      · exact h.writeBack.memCount.correctedBy
      · exact h.scrubBad
  · split
    · refine scrubBad ?_
      split
      · exact h.ddrTouch.memCount.correctedBy.deviceHit
      · exact h.ddrTouch
    · split
      · split
        · exact h.ddrTouch.memCount.correctedBy.deviceHit
        · exact h.ddrTouch
      · refine correctedBy ?_
        refine memCount ?_
        refine writeBack ?_
        split
        · exact h.ddrTouch.memCount.correctedBy.deviceHit
        · exact h.ddrTouch
      · refine scrubBad ?_
        split
        · exact h.ddrTouch.memCount.correctedBy.deviceHit
        · exact h.ddrTouch

theorem setHbm (h : Keeps s t) {k : ℕ} {v : Stack} : Keeps s (t.setHbm k v) := by
  unfold State.setHbm
  dsimp only
  exact same h

theorem loseWord (h : Keeps s t) {a : BitVec 48} : Keeps s (t.loseWord a) := by
  unfold State.loseWord
  dsimp only
  exact contained (memCount (foldl (same h) fun _ _ hu => hu.chargeTo))

theorem loseWords (h : Keeps s t) {lost : List (BitVec 48)} : Keeps s (t.loseWords lost) := by
  unfold State.loseWords
  exact foldl (foldl h fun _ _ hu => hu.loseWord) fun _ _ hu => hu.loseRefs

theorem regrown (h : Keeps s t) {m : Master} {logical phys : ℕ} : Keeps s (t.regrown m logical phys) :=
  h.raise

theorem dropPicture (h : Keeps s t) {p : ℕ} : Keeps s (t.dropPicture p) := by
  unfold State.dropPicture
  dsimp only
  split
  · exact closeDec (losePicture (releaseSlots (set (setDtile h.setDec))))
  · exact h

theorem dropFrame (h : Keeps s t) {p : ℕ} : Keeps s (t.dropFrame p) := by
  unfold State.dropFrame
  split
  · exact h.abandon
  · exact h

theorem laneHalfDown (h : Keeps s t) {u1 : HwUnit} : Keeps s (t.laneHalfDown u1) := by
  unfold State.laneHalfDown
  dsimp only
  split
  · exact pairChanged h.set
  · exact h

theorem powerDown (h : Keeps s t) {x0 : HwUnit} : Keeps s (t.powerDown x0) := by
  unfold State.powerDown
  dsimp only
  split
  · exact h.setTile
  · exact h.setDtile
  · exact h.set
  · exact h
  · exact h

theorem outOfService (h : Keeps s t) {u1 : HwUnit} {logical : ℕ} : Keeps s (t.outOfService u1 logical) := by
  unfold State.outOfService
  dsimp only
  refine settleInts ?_
  refine powerDown ?_
  refine setSparing ?_
  split
  · exact h.dropPicture
  · rename_i u _
    refine h.foldl fun u a hu => ?_
    split
    · exact ite hu hu.dropFrame
    · exact hu
  · exact h.laneHalfDown

theorem noSpare (h : Keeps s t) {u1 : HwUnit} {failure : Bool} : Keeps s (t.noSpare u1 failure) := by
  unfold State.noSpare
  dsimp only
  split
  · exact ite h.reportNone.reportNone.set h.reportNone.reportNone.outOfService
  · exact h.reportNone

theorem callRegrow (h : Keeps s t) {u1 : HwUnit} {failure : Bool} : Keeps s (t.callRegrow u1 failure) := by
  unfold State.callRegrow
  dsimp only
  split
  · exact h.set
  · exact h.noSpare

theorem resetBob (h : Keeps s t) {b : BobbinId} : Keeps s (t.resetBob b) :=
  h.setBob

theorem resetUnitBobs (h : Keeps s t) {u1 : HwUnit} {logical : ℕ} : Keeps s (t.resetUnitBobs u1 logical) := by
  unfold State.resetUnitBobs
  dsimp only
  split
  · exact foldl (foldl h fun _ _ hu => hu.resetBob) fun _ _ hu => (ite hu.resetBob hu)
  · exact foldl h fun _ _ hu => hu.resetBob

theorem moveItems (h : Keeps s t) {a b : BobbinId} : Keeps s (t.moveItems a b) :=
  h.setBob

theorem drainUnit (h : Keeps s t) {u1 : HwUnit} {n : ℕ} : Keeps s (t.drainUnit u1 n) := by
  unfold State.drainUnit
  dsimp only
  split
  · exact moveItems h.setEngine
  · exact foldl h fun _ _ hu => hu.moveItems

theorem handOver (h : Keeps s t) {u : HwUnit} {n : ℕ} : Keeps s (t.handOver u n) := by
  unfold State.handOver
  split
  · exact h.setTile.setTile
  · exact h.setDtile
  · exact h.set
  · exact h.pools (buffersCounted_rename fun q => by split <;> rfl)
  · exact h

theorem setTj (h : Keeps s t) {tj : ℤ} : Keeps s (t.setTj tj) :=
  h.set

theorem pairCount (h : Keeps s t) {k n : ℕ} : Keeps s (t.pairCount k n) :=
  h.set

theorem sendResync (h : Keeps s t) : Keeps s t.sendResync := by
  unfold State.sendResync
  exact h.same rfl ((List.prefix_append _ _).trans (List.prefix_append _ _))

theorem haltTile (h : Keeps s t) {p : ℕ} : Keeps s (t.haltTile p) := by
  unfold State.haltTile
  dsimp only
  split
  · exact bobFlush h.setTile
  · exact bobPush (bobSrc (foldl (setTile (setEnc (set (foldl h fun _ _ hu => hu.releaseBlock)))) fun _ _ hu => hu.bobFlush))

theorem idleStream (h : Keeps s t) {keep : Bool} {n : ℕ} : Keeps s (t.idleStream keep n) := by
  unfold State.idleStream
  dsimp only
  exact ite h.releaseStream.allocFrames.setEnc h.releaseStream

theorem idleContext (h : Keeps s t) {c : ℕ} : Keeps s (t.idleContext c) := by
  unfold State.idleContext
  dsimp only
  refine decBegin ?_
  refine releaseDec ?_
  split
  · exact h.dropPicture
  · exact h

theorem stopServing (h : Keeps s t) {r : Role} : Keeps s (t.stopServing r) := by
  unfold State.stopServing
  dsimp only
  exact storeRole (foldl (foldl (foldl h.set fun _ _ hu => hu.haltTile) fun _ _ hu => hu.idleStream) fun _ _ hu => hu.idleContext)

theorem takeCroak (h : Keeps s t) {c : Croak} : Keeps s (t.takeCroak c) := by
  unfold State.takeCroak
  dsimp only
  exact ite (pairCount h.set) (ite (pairCount (stopServing (syncErr (ite (sendResync h.set) h.set)))) (syncErr (ite (sendResync h.set)
    h.set)))

theorem silentAlive (h : Keeps s t) : Keeps s t.silentAlive := by
  unfold State.silentAlive
  dsimp only
  exact ite (reportNone (pairCount h.set)) h

theorem groupReport (h : Keeps s t) {vlan : BitVec 12} {v4 : Bool} : Keeps s (t.groupReport vlan v4) := by
  unfold State.groupReport
  dsimp only
  exact freed (foldl h fun _ _ hu => hu.enqueueCopy)

theorem reportGroups (h : Keeps s t) : Keeps s t.reportGroups := by
  unfold State.reportGroups
  dsimp only
  exact foldl h fun _ _ hu => hu.groupReport

theorem announceAddresses (h : Keeps s t) : Keeps s t.announceAddresses := by
  unfold State.announceAddresses
  dsimp only
  split
  · exact freed (foldl (foldl h fun _ _ hu => hu.enqueueCopy) fun _ _ hu => hu.enqueueCopy)
  · exact freed (foldl h fun _ _ hu => hu.enqueueCopy)

theorem timeTakeover (h : Keeps s t) : Keeps s t.timeTakeover := by
  unfold State.timeTakeover
  dsimp only
  exact ite h.toLocked (ite (ite h.toHoldover.toAcquiring h.toHoldover) (ite (toAcquiring h.set) h.toFreeRun))

theorem resumeLost (h : Keeps s t) {n : ℕ} : Keeps s (t.resumeLost n) :=
  resumeStream h.setEnc

theorem startContexts (h : Keeps s t) : Keeps s t.startContexts := by
  unfold State.startContexts
  exact foldl h fun _ _ hu => hu.unsync.reportRow

theorem takeOver (h : Keeps s t) {counter : ℕ} : Keeps s (t.takeOver counter) := by
  unfold State.takeOver
  dsimp only
  exact pairChanged (settleDict (startContexts (foldl (reportGroups (announceAddresses (timeTakeover (foldl (storeRole (pairCount
    h.set)) fun _ _ hu => hu.endOp)))) fun _ _ hu => hu.resumeLost)))

theorem fallBehind (h : Keeps s t) : Keeps s t.fallBehind :=
  storeRole h.set

theorem queueMirrored (h : Keeps s t) {rs : List JRecord} : Keeps s (t.queueMirrored rs) := by
  unfold State.queueMirrored
  dsimp only
  exact ite h.closeRecord.set h

theorem takeMirrored (h : Keeps s t) {es : List JEntry} {seq : BitVec 64} : Keeps s (t.takeMirrored es seq) :=
  h.queueMirrored

theorem streamArrives (h : Keeps s t) {n : ℕ} {header : Bytes} : Keeps s (t.streamArrives n header) := by
  unfold State.streamArrives
  dsimp only
  exact ite h.set h.mirrorStream

theorem mirrorTime (h : Keeps s t) {t1 : MirrorTime} : Keeps s (t.mirrorTime t1) :=
  set (timeMode (freed (setFreq h.set)))

theorem relayAnswer (h : Keeps s t) {w : RelayWrite} : Keeps s (t.relayAnswer w) := by
  unfold State.relayAnswer
  dsimp only
  split
  · exact ite h (endOp h.set)
  · exact h

theorem resend (h : Keeps s t) : Keeps s t.resend := by
  unfold State.resend
  exact h.same rfl (List.prefix_append _ _)

theorem discardMirrored (h : Keeps s t) : Keeps s t.discardMirrored := by
  unfold State.discardMirrored
  dsimp only
  refine pairCount ?_
  split
  · exact set (foldl (foldl h fun _ _ hu => hu.releaseStream) fun _ _ hu => hu.releaseDec)
  · exact same (foldl (foldl h fun _ _ hu => hu.releaseStream) fun _ _ hu => hu.releaseDec)

theorem takeResync (h : Keeps s t) {r : Resync} : Keeps s (t.takeResync r) := by
  unfold State.takeResync
  dsimp only
  split
  · exact ite (same h) h.queueMirrored
  · exact foldl h fun _ _ hu => hu.applyDelta.logLearn
  · exact h.streamArrives

theorem handOver2 (h : Keeps s t) : Keeps s t.handOver2 :=
  storeRole (pairCount h.croak.stopServing.set)

theorem askDelay (h : Keeps s t) {p : ℕ} : Keeps s (t.askDelay p) := by
  unfold State.askDelay
  dsimp only
  exact ite h (sendPtp h.freed.capture.nextSeqOf.set)

end Sys2Proof.Proofs.Keeps
end

section
/-! PROOFS. What a command answers: a next state that keeps the invariants of a step. -/

open Sys2Proof Sys2Proof.Machine

namespace Sys2Proof.Proofs

/-- The outcome is a next state, which keeps what every step keeps of `s`. -/
def Runs (s : State) (o : Host.Outcome State Fault Refusal) : Prop := ∃ t, o = .next t ∧ Keeps s t

namespace Runs

variable {s t : State} {o p : Host.Outcome State Fault Refusal}

theorem done (h : Keeps s t) : Runs s (done t) := ⟨t, rfl, h⟩

theorem awake (h : Runs s o) : Runs s (awake s o) := by
  unfold Machine.awake
  split
  · exact done (.refl s)
  · exact h

theorem issuedBy {m : Master} (hm : masterOk m = true) (h : Runs s o) : Runs s (issuedBy m s o) := by
  unfold Machine.issuedBy
  rw [if_pos hm]
  exact h.awake

theorem guarded {c : Instr} (hc : c.wellFormed = true) (h : Runs s o) : Runs s (guarded c o) := by
  unfold Machine.guarded
  rw [if_pos hc]
  exact h

theorem ite {c : Prop} [Decidable c] (h : Runs s o) (g : Runs s p) : Runs s (if c then o else p) := by
  split
  · exact h
  · exact g

end Runs

end Sys2Proof.Proofs
end

section
/-! PROOFS. Every command that is well formed answers a next state, which keeps the invariants of a step. -/

open Sys2Proof Sys2Proof.Machine

-- One proof at a time: a thread for each proof would pass the limit that the check sets to memory.
set_option Elab.async false

namespace Sys2Proof.Proofs.Keeps

variable {s t u : State}

theorem nmt_runs (h : Keeps s t) : Runs s (nmt s t) :=
  .done (ite (refl s) h)

theorem execPowerOnReset_runs (s : State) {st : Straps} : Runs s (execPowerOnReset st s) :=
  .done ((refl _).powerOn)

theorem execPinReset_runs (s : State) {lowNs : ℕ} {st : Straps} : Runs s (execPinReset lowNs st s) := by
  have hlow : Keeps s { s with out := s.out ++ rstLowPins } := same (refl s) rfl (List.prefix_append _ _)
  unfold execPinReset
  split
  · exact .done (refl s)
  · exact .done (same hlow.wholeReset rfl (List.prefix_append _ _))

theorem execRestartRequest_runs (s : State) {st : Straps} : Runs s (execRestartRequest st s) := by
  unfold execRestartRequest
  refine .awake ?_
  split
  · exact .done (refl _)
  · rename_i e
    exact .done (((refl _).takeAct e).wholeReset)

theorem execHostReset_runs (s : State) : Runs s (execHostReset s) :=
  .awake (.done (settleInts (disarm (set (resetBar2 (resetRings (foldl (refl _) fun _ _ hu => hu.resetWindow)))))))

theorem execBootWatchdogExpiry_runs (s : State) {st : Straps} : Runs s (execBootWatchdogExpiry st s) := by
  unfold execBootWatchdogExpiry
  refine .awake ?_
  split
  · exact .done (refl _)
  · split
    · exact .done (refl _)
    · exact .done ((refl _).wholeReset)

theorem execRecoveryWatchdogExpiry_runs (s : State) {st : Straps} : Runs s (execRecoveryWatchdogExpiry st s) := by
  unfold execRecoveryWatchdogExpiry
  refine .awake ?_
  split
  · exact .done (refl _)
  · split
    · exact .done (refl _)
    · exact .done ((refl _).wholeReset.intoNewt)

theorem execPllsLocked_runs (s : State) : Runs s (execPllsLocked s) :=
  .awake (.done ((refl _).set))

theorem execSramRepair_runs (s : State) : Runs s (execSramRepair s) :=
  .awake (.ite (.done ((refl _).set)) (.done (refl _)))

theorem execPersistentStoreMount_runs (s : State) {bad : List (ℕ × Fin 3)} {tornSegments : List ℕ} {differ : ℕ} :
    Runs s (execPersistentStoreMount bad tornSegments differ s) := by
  unfold execPersistentStoreMount
  refine .awake ?_
  split
  · exact .done (refl _)
  · exact .done (times _ (readBoot (settleSegment (tornLog (tornAt (refl _).settleCutOff)))) fun _ hu => hu.divergedCopy)

theorem execHbmTrained_runs (s : State) : Runs s (execHbmTrained s) :=
  .awake (.ite (.done (refl _)) (.done (same (refl _))))

theorem execJournalReplay_runs (s : State) : Runs s (execJournalReplay s) := by
  unfold execJournalReplay
  refine .awake ?_
  split
  · exact .done (refl _)
  · exact .done (syncGpio (foldl (replayLearned (replayEndpoints (replayPatch (replayRules (refl
      _).replayParams.replayBanks.lastApplied.set)))) fun _ _ hu => hu.decBegin))

theorem execSelvedgeEnable_runs (s : State) : Runs s (execSelvedgeEnable s) := by
  have hbooted (b : Boot) (p : Paths) (l : List Output) : Keeps s { s with boot := b, paths := p, out := s.out ++ l } :=
    same (refl s) rfl (List.prefix_append _ _)
  unfold execSelvedgeEnable
  refine .awake ?_
  split
  · exact .done (refl _)
  · exact .done (hbooted _ _ _).startRole.pairChanged

theorem execTimeUnitStart_runs (s : State) : Runs s (execTimeUnitStart s) :=
  .awake (.ite (.done (refl _)) (.done (set (ite (refl _) (refl _).faultSummary))))

theorem execDdr5Trained_runs (s : State) {channels : List Channel} : Runs s (execDdr5Trained channels s) :=
  .awake (.ite (.done (refl _)) (.done (same (refl _))))

theorem execFirmwareLoad_runs (s : State) : Runs s (execFirmwareLoad s) := by
  unfold execFirmwareLoad
  dsimp only
  refine .awake ?_
  split
  · exact .done (refl _)
  · split
    · exact .done ((refl _).set)
    · split
      · exact .done ((refl _).set)
      · split
        · exact .done (waitHost (refl _).set)
        · split
          · exact .done (startFirmware (refl _).set)
          · exact .done (ite (waitHost (refl _).set) (enterNewt (refl _).set))

theorem execBootGo_runs (s : State) {m : Master} (hm : masterOk m = true) : Runs s (execBootGo m s) :=
  .issuedBy hm (.done ((refl _).disarm.bootGo))

theorem execBootWindowWrite_runs (s : State) {m : Master} {off : BitVec 21} {data : Bytes}
    (hc : (Instr.bootWindowWrite m off data).wellFormed = true) :
    Runs s (execBootWindowWrite m off data s) :=
  .awake (.guarded hc (.done ((refl _).windowWrite)))

theorem execBootComplete_runs (s : State) : Runs s (execBootComplete s) := by
  unfold execBootComplete
  refine .awake ?_
  split
  · exact .done (refl _)
  · rename_i e
    split
    · refine .done ?_
      split
      · exact ((refl _).takeAct e).set
      · exact same ((refl _).takeAct e)
    · exact .done ((refl _).takeAct e)

theorem execLeaveNewt_runs (s : State) {st : Straps} : Runs s (execLeaveNewt st s) := by
  unfold execLeaveNewt
  refine .awake ?_
  split
  · exact .done (refl _)
  · rename_i e
    refine .done ?_
    refine wholeReset ?_
    split
    · exact ((refl _).takeAct e).set
    · exact same ((refl _).takeAct e)

theorem execFirmwareSlotWrite_runs (s : State) {se : Session} {slotB : Bool} {off : BitVec 32} {data : Bytes} :
    Runs s (execFirmwareSlotWrite se slotB off data s) :=
  .awake (.done ((refl _).request))

theorem execFirmwareSlotVerified_runs (s : State) {ok : Bool} : Runs s (execFirmwareSlotVerified ok s) := by
  unfold execFirmwareSlotVerified
  refine .awake ?_
  split
  · exact .done (refl _)
  · split
    · exact .done (refl _)
    · have hprogram (v : State) (hv : Keeps s v) (st : Store) (hst : st.faultLog = v.store.faultLog) : Keeps s { v with store := st } :=
        same hv hst
      extract_lets b v1 v2 v3
      have hv1 : Keeps s v1 := (refl s).set
      have hv2 : Keeps s v2 := by
        refine ite (endOp (hprogram v1 hv1 _ ?_)) hv1.endOp
        rfl
      refine .done (settleDict ?_)
      dsimp only [v3]
      split
      · exact hv2.startSlot
      · exact hv2

theorem execServicePress_runs (s : State) : Runs s (execServicePress s) := by
  unfold execServicePress
  split
  · exact .done (refl _)
  · split
    · exact .done ((refl _).set)
    · exact .done ((refl _).set)

theorem execServiceRelease_runs (s : State) : Runs s (execServiceRelease s) := by
  unfold execServiceRelease
  split
  · exact .done (refl _)
  · split
    · exact .done ((refl _).set)
    · split
      · exact .done (raise (refl _).set)
      · exact .done ((refl _).set)

theorem execServiceHold5s_runs (s : State) {st : Straps} : Runs s (execServiceHold5s st s) := by
  unfold execServiceHold5s
  refine .awake ?_
  split
  · exact .done (refl _)
  · split
    · exact .done ((refl _).set)
    · refine .done ?_
      refine intoNewt ?_
      refine wholeReset ?_
      split
      · exact (refl _).set
      · exact same (refl _)

theorem execServiceHold15s_runs (s : State) {st : Straps} {committed : Bool} : Runs s (execServiceHold15s st committed s) := by
  have hstore (d : Dict) (v : Service) (st : Store) (hlog : st.faultLog = s.store.faultLog) :
      Keeps s { s with svc := v, dict := d, store := st } := (refl s).same hlog
  unfold execServiceHold15s
  refine .awake ?_
  split
  · exact .done (refl _)
  · refine .done (wholeReset (hstore _ _ _ ?_))
    split
    · rfl
    · rfl

theorem execServiceStuck_runs (s : State) : Runs s (execServiceStuck s) :=
  .awake (.ite (.done (refl _)) (.done (raise (refl _).set)))

theorem execPwrfailWarning_runs (s : State) : Runs s (execPwrfailWarning s) := by
  unfold execPwrfailWarning
  split
  · exact .done (refl _)
  · split
    · exact .done ((refl _).set)
    · exact .done (raise (ite (closeRecord (set (aliveLow (set (ite (refl _).croak (refl _)))))) (aliveLow (set (ite (refl _).croak
        (refl _))))))

theorem execShutdownRecord_runs (s : State) : Runs s (execShutdownRecord s) :=
  .awake (.ite (.done (refl _)) (.done (same (refl _))))

theorem execBrownout_runs (s : State) : Runs s (execBrownout s) := by
  unfold execBrownout
  split
  · exact .done (refl _)
  · split
    · refine .done ?_
      refine storeRules ?_
      split
      · refine storeRole ?_
        split
        · exact setSparing (same (refl _))
        · exact same (refl _)
      · split
        · exact setSparing (same (refl _))
        · exact same (refl _)
    · exact .done ((refl _).set)

theorem execLearnLogCapture_runs (s : State) : Runs s (execLearnLogCapture s) :=
  .awake (.ite (.done (refl _)) (.done (same (refl _))))

theorem execLearnLogSegmentDone_runs (s : State) : Runs s (execLearnLogSegmentDone s) := by
  unfold execLearnLogSegmentDone
  refine .awake ?_
  split
  · exact .done (same (refl _))
  · exact .done (refl _)

theorem execSnapshotWrite_runs (s : State) : Runs s (execSnapshotWrite s) :=
  .awake (.ite (.done (refl _)) (.done ((refl _).set)))

theorem execRailMonitorTrip_runs (s : State) (rail : Fin 13) {lowNs : ℕ} {st : Straps} :
    Runs s (execRailMonitorTrip rail lowNs st s) :=
  .ite (.done (refl _)) (.done ((refl _).powerOn))

theorem execRegulatorPoll_runs (s : State) {answers : List (Option (BitVec 16 × BitVec 16))}
    (hc : (Instr.regulatorPoll answers).wellFormed = true) :
    Runs s (execRegulatorPoll answers s) :=
  .awake (.guarded hc (.done (same (refl _))))

theorem execDictRead_runs (s : State) {se : Session} {idx : BitVec 16} {sub : BitVec 8} : Runs s (execDictRead se idx sub s) :=
  .awake (.done ((refl _).request))

theorem execDictWrite_runs (s : State) {se : Session} {idx : BitVec 16} {sub : BitVec 8} {data : Bytes} :
    Runs s (execDictWrite se idx sub data s) :=
  .awake (.done ((refl _).request))

theorem execCursorWrite_runs (s : State) {se : Session} {idx : BitVec 16} {data : Bytes} : Runs s (execCursorWrite se idx data s) :=
  .awake (.done ((refl _).request))

theorem execWriteGroup_runs (s : State) {se : Session} {ws : List DWrite} : Runs s (execWriteGroup se ws s) :=
  .awake (.done ((refl _).request))

theorem execDomainSegmentWrite_runs (s : State) {se : Session} {idx : BitVec 16} {sub : BitVec 8} {off : BitVec 32} {data : Bytes} :
    Runs s (execDomainSegmentWrite se idx sub off data s) :=
  .awake (.done ((refl _).request))

theorem execDomainFinalWrite_runs (s : State) {se : Session} {idx : BitVec 16} {sub : BitVec 8} {off : BitVec 32} {data : Bytes} :
    Runs s (execDomainFinalWrite se idx sub off data s) :=
  .awake (.done ((refl _).request))

theorem execDomainRead_runs (s : State) {se : Session} {idx : BitVec 16} {sub : BitVec 8} {off : BitVec 32} {room : BitVec 13} :
    Runs s (execDomainRead se idx sub off room s) :=
  .awake (.done ((refl _).request))

theorem execJournalRecordClose_runs (s : State) : Runs s (execJournalRecordClose s) := by
  unfold execJournalRecordClose
  refine .awake ?_
  split
  · exact .done ((refl _).closeRecord)
  · exact .done (refl _)

theorem execJournalCommit_runs (s : State) {copies : Fin 4} : Runs s (execJournalCommit copies s) := by
  unfold execJournalCommit
  refine .awake ?_
  split
  · exact .done (refl _)
  · exact .done (takeHeads (closeDue (settleDict (ite (commitFails (ite (retireBlock (refl _).set) (refl _).set)) (commit (ite
      (retireBlock (refl _).set) (refl _).set))))))

theorem foldl_blockWrite_faultLog {α : Type} (f : α → ℕ) (l : List α) (st : Store) :
    (l.foldl (fun st a => st.blockWrite (f a)) st).faultLog = st.faultLog := by
  induction l generalizing st with
  | nil => rfl
  | cons a r ih => rw [List.foldl_cons, ih, blockWrite_faultLog]

theorem execParameterImageWrite_runs (s : State) {failures : List ℕ} : Runs s (execParameterImageWrite failures s) := by
  have hretired : Keeps s (failures.foldl (fun s l => s.retireBlock (905 + l % 3191)) s) :=
    foldl (refl s) fun _ _ hu => hu.retireBlock
  unfold execParameterImageWrite
  dsimp only
  refine .awake ?_
  split
  · exact .done (refl _)
  · split
    · exact .done (refl _)
    · split
      · exact .done hretired
      · exact .done (hretired.same (foldl_blockWrite_faultLog _ _ _))

theorem execWearLevellerCopy_runs (s : State) : Runs s (execWearLevellerCopy s) := by
  unfold execWearLevellerCopy
  dsimp only
  refine .awake ?_
  split
  · exact .done (refl _)
  · split
    · exact .done (same (refl _))
    · exact .done (same (refl _))

theorem execUsdoRequest_runs (s : State) {client : BitVec 8} {op : UsdoOp} : Runs s (execUsdoRequest client op s) :=
  .awake (.ite (.done (refl _)) (.done ((refl _).arrive)))

theorem execNmtStart_runs (s : State) : Runs s (execNmtStart s) :=
  .awake (nmt_runs ((refl _).set))

theorem execNmtStop_runs (s : State) : Runs s (execNmtStop s) :=
  .awake (nmt_runs ((refl _).set))

theorem execNmtEnterPreoperational_runs (s : State) : Runs s (execNmtEnterPreoperational s) :=
  .awake (nmt_runs ((refl _).set))

theorem execNmtResetCommunication_runs (s : State) : Runs s (execNmtResetCommunication s) :=
  .awake (nmt_runs (emit (refl _).set))

theorem execNmtResetNode_runs (s : State) : Runs s (execNmtResetNode s) :=
  .awake (nmt_runs ((refl _).arrive))

theorem execCanopenHeartbeat_runs (s : State) : Runs s (execCanopenHeartbeat s) := by
  unfold execCanopenHeartbeat
  dsimp only
  refine .awake ?_
  split
  · exact .done (refl _)
  · exact .done (emit (refl _).set)

theorem execDictDatagram_runs (s : State) {front : Bool} {vlan : BitVec 12} {ip : BitVec 128} {port1 : BitVec 16} {payload : Bytes}
    (hc : (Instr.dictDatagram front vlan ip port1 payload).wellFormed = true) :
    Runs s (execDictDatagram front vlan ip port1 payload s) := by
  unfold execDictDatagram
  dsimp only
  refine .awake ?_
  refine .guarded hc ?_
  split
  · exact .done (refl _)
  · split
    · split
      · exact .done (useSession (refl _).set)
      · split
        · exact .done (emit (useSession (refl _).set))
        · split
          · exact .done (dgRunning (useSession (refl _).set))
          · exact .done (arrive (dgRunning (useSession (refl _).set)))
    · exact .done ((refl _).set)

theorem execDwRead_runs (s : State) {m : Master} {v : Word} (hm : masterOk m = true) : Runs s (execDwRead m v s) :=
  .issuedBy hm (.done ((refl _).disarm.dwGo))

theorem execDwWrite_runs (s : State) {m : Master} {v : Word} (hm : masterOk m = true) : Runs s (execDwWrite m v s) :=
  .issuedBy hm (.done ((refl _).disarm.dwGo))

theorem execDwFinalDomainWrite_runs (s : State) {m : Master} {v : Word} (hm : masterOk m = true) :
    Runs s (execDwFinalDomainWrite m v s) :=
  .issuedBy hm (.done ((refl _).disarm.dwGo))

theorem execDwStagedWrite_runs (s : State) {m : Master} {v : Word} (hm : masterOk m = true) : Runs s (execDwStagedWrite m v s) :=
  .issuedBy hm (.done ((refl _).disarm.dwGo))

theorem execRegisterWrite_runs (s : State) {m : Master} {sp : RegSpace} {off : BitVec 25} {be : BitVec 4} {v : Word} {hw : SameCycle}
    (hm : masterOk m = true) :
    Runs s (execRegisterWrite m sp off be v hw s) :=
  .issuedBy hm (.done ((refl _).regWrite))

theorem execRcRead_runs (s : State) {m : Master} {sp : RegSpace} {off : BitVec 25} {hw : SameCycle} (hm : masterOk m = true) :
    Runs s (execRcRead m sp off hw s) :=
  .issuedBy hm (.done ((refl _).regRead.regHw))

theorem execWideLoRead_runs (s : State) {m : Master} {off : BitVec 24} (hm : masterOk m = true) : Runs s (execWideLoRead m off s) :=
  .issuedBy hm (.done ((refl _).bar0Read))

theorem execWideHiRead_runs (s : State) {m : Master} {off : BitVec 24} (hm : masterOk m = true) : Runs s (execWideHiRead m off s) :=
  .issuedBy hm (.done ((refl _).bar0Read))

theorem execWideLoWrite_runs (s : State) {m : Master} {off : BitVec 24} {v : Word} (hm : masterOk m = true) :
    Runs s (execWideLoWrite m off v s) :=
  .issuedBy hm (.done ((refl _).bar0Write))

theorem execWideHiWrite_runs (s : State) {m : Master} {off : BitVec 24} {v : Word} (hm : masterOk m = true) :
    Runs s (execWideHiWrite m off v s) :=
  .issuedBy hm (.done ((refl _).bar0Write))

theorem execUnlockKey_runs (s : State) {m : Master} {v : Word} (hm : masterOk m = true) : Runs s (execUnlockKey m v s) :=
  .issuedBy hm (.done ((refl _).writeKey))

theorem execErrInjectGo_runs (s : State) {m : Master} {v : Word} (hm : masterOk m = true) : Runs s (execErrInjectGo m v s) :=
  .issuedBy hm (.done ((refl _).writeInject))

theorem execScratchInjectedRead_runs (s : State) {m : Master} (hm : masterOk m = true) : Runs s (execScratchInjectedRead m s) :=
  .issuedBy hm (.done ((refl _).readScratch))

theorem execIndirectDataRead_runs (s : State) {m : Master} {w : Fin 24} (hm : masterOk m = true) :
    Runs s (execIndirectDataRead m w s) :=
  .issuedBy hm (.done ((refl _).issueIndirect))

theorem execIndirectDataWrite_runs (s : State) {m : Master} {w : Fin 24} {v : Word} (hm : masterOk m = true) :
    Runs s (execIndirectDataWrite m w v s) :=
  .issuedBy hm (.done ((refl _).issueIndirect))

theorem execIndirectComplete_runs (s : State) {w : Fin 24} {item : Ecc} : Runs s (execIndirectComplete w item s) := by
  unfold execIndirectComplete
  dsimp only
  refine .awake ?_
  split
  · exact .done (refl _)
  · split
    · exact .done ((refl _).endAccess)
    · split
      · exact .done (refl _)
      · split
        · exact .done ((refl _).serve.endAccess)
        · split
          · split
            · exact .done ((refl _).bobDst.skipEnded.issueCommand)
            · exact .done ((refl _).bobDst.skipEnded.bobDrop.readItem.serve.endAccess)
          · exact .done ((refl _).bobDst.skipEnded.issueCommand)

theorem execIndirectTimeout_runs (s : State) {w : Fin 24} : Runs s (execIndirectTimeout w s) := by
  unfold execIndirectTimeout
  refine .awake ?_
  split
  · exact .done (refl _)
  · exact .done ((refl _).endAccess)

theorem execBobbinWrite_runs (s : State) {b : BobbinId} {item : BitVec 256} : Runs s (execBobbinWrite b item s) :=
  .awake (.done ((refl _).bobSrc.bobPush))

theorem execBobbinRead_runs (s : State) {b : BobbinId} {e : Ecc} : Runs s (execBobbinRead b e s) := by
  unfold execBobbinRead
  dsimp only
  refine .awake ?_
  split
  · exact .done ((refl _).bobDst.emit)
  · split
    · exact .done ((refl _).bobDst.emit)
    · exact .done ((refl _).bobDst.bobDrop.emit.readItem)

theorem execSlotBoundary_runs (s : State) {stream : BitVec 16} : Runs s (execSlotBoundary stream s) := by
  unfold execSlotBoundary
  dsimp only
  refine .awake ?_
  split
  · exact .done (refl _)
  · split
    · exact .done (refl _)
    · split
      · exact .done ((refl _).stopStream)
      · split
        · exact .done (poolCount (refl _).setEnc)
        · split
          · exact .done (poolCount (refl _).setEnc)
          · split
            · exact .done (poolCount (refl _).setEnc)
            · exact .done ((refl _).setEnc)

theorem execTileTake_runs (s : State) {tile : Fin 64} {rec_ : RecordRead} {badEntries : List ℕ} :
    Runs s (execTileTake tile rec_ badEntries s) := by
  unfold execTileTake
  dsimp only
  refine .awake ?_
  split
  · exact .done (refl _)
  · split
    · exact .done (refl _)
    · split
      · exact .done (poolCount (refl _).setEnc)
      · split
        · exact .done ((refl _).fetchRecord.poolCount.chargeTo.contained.stopStream.poolCount)
        · refine .done ?_
          refine runTreadle ?_
          refine takeFrame ?_
          refine foldl ?_ fun u a hu => ?_
          · split
            · exact (refl _).fetchRecord
            · exact contained (chargeTo (poolCount (refl _).fetchRecord.setEnc))
            · exact (refl _).fetchRecord.poolCount.chargeTo.contained
          · exact hu.loseEntry

theorem execBattenFrameStart_runs (s : State) {tile : Fin 64} {ecc : Ecc} : Runs s (execBattenFrameStart tile ecc s) := by
  unfold execBattenFrameStart
  dsimp only
  refine .awake ?_
  split
  · exact .done ((refl _).bobDst)
  · split
    · exact .done ((refl _).bobDst)
    · exact .done (ite (compCount (refl _).bobDst.bobDrop.readItem.pinAll.setEngine) (refl _).bobDst.bobDrop.readItem.pinAll.setEngine)

theorem execCtuCompose_runs (s : State) {tile : Fin 64} {badReads : List (Fin 64 × ℕ)} :
    Runs s (execCtuCompose tile badReads s) := by
  unfold execCtuCompose
  refine .awake ?_
  split
  · exact .done (refl _)
  · extract_lets p n sn cols size i cx cy bob hb v e fr pixels last room c subst hint mode e1 j1 g1 v1 v2 v3 t1 v4
    have hv : Keeps s v := (refl s).bobSrc.bobSrc.bobSrc
    have hv1 : Keeps s v1 := setEngine (ite hv.freed hv.freed.setEnc)
    have hv2 : Keeps s v2 := ite hv1.compCount hv1
    have hv3 : Keeps s v3 := ite hv2.compCount hv2
    have hv4 : Keeps s v4 := by
      clear_value v3 fr
      dsimp only [v4]
      split
      · exact hv3.bobPass.bobPass
      · exact ite hv3.setTile.bobPush.bobPush hv3.setTile.bobPush
    split
    · exact .done hv
    · exact .done (ite hv4.endJob hv4)

theorem execBattenFrameEnd_runs (s : State) {tile : Fin 64} {ecc : Ecc} : Runs s (execBattenFrameEnd tile ecc s) := by
  unfold execBattenFrameEnd
  dsimp only
  refine .awake ?_
  split
  · exact .done ((refl _).bobDst)
  · split
    · exact .done ((refl _).bobDst)
    · split
      · exact .done ((refl _).bobDst)
      · split
        · exact .done (ite (refl _).bobDst.bobDrop.readItem.set (setEnc (refl _).bobDst.bobDrop.readItem.set))
        · exact .done (compCount (ite (refl _).bobDst.bobDrop.readItem.set (setEnc (refl _).bobDst.bobDrop.readItem.set)))

theorem execLaneCtuStart_runs (s : State) {tile : Fin 64} {lane : Fin 2} {hint item : Ecc} :
    Runs s (execLaneCtuStart tile lane hint item s) := by
  unfold execLaneCtuStart
  dsimp only
  refine .awake ?_
  split
  · exact .done ((refl _).pollTile)
  · split
    · exact .done ((refl _).pollTile.runTreadle)
    · split
      · exact .done ((refl _).pollTile.bobDst)
      · split
        · exact .done ((refl _).pollTile.bobDst.runTreadle)
        · split
          · exact .done (runTreadle (tileError (ite (refl _).pollTile.bobDst.bobDrop.readItem.putFrame.count.count (refl
              _).pollTile.bobDst.bobDrop.readItem.putFrame.count)))
          · exact .done (runTreadle (ite (refl _).pollTile.bobDst.bobDrop.readItem.setTile (fetchRefs (refl
              _).pollTile.bobDst.bobDrop.readItem.setTile)))

theorem execLaneRequest_runs (s : State) {tile : Fin 64} {lane : Fin 2} : Runs s (execLaneRequest tile lane s) := by
  unfold execLaneRequest
  dsimp only
  refine .awake ?_
  split
  · exact .done ((refl _).pollTile)
  · split
    · exact .done ((refl _).pollTile.runTreadle)
    · split
      · exact .done ((refl _).pollTile.bobDst.runTreadle)
      · split
        · split
          · exact .done (runTreadle (refl _).pollTile.bobDst.setTile)
          · exact .done (runTreadle (refl _).pollTile.bobDst.setTile)
        · split
          · exact .done (runTreadle (refl _).pollTile.bobDst.setTile)
          · exact .done (runTreadle (refl _).pollTile.bobDst.setTile)

theorem execLaneCtuEnd_runs (s : State) {tile : Fin 64} {lane : Fin 2} {refBad : Option (BitVec 13 × Fin 4)} :
    Runs s (execLaneCtuEnd tile lane refBad s) := by
  unfold execLaneCtuEnd
  dsimp only
  refine .awake ?_
  split
  · exact .done ((refl _).pollTile)
  · split
    · exact .done ((refl _).pollTile.runTreadle)
    · split
      · exact .done ((refl _).pollTile.runTreadle)
      · split
        · split
          · exact .done ((refl _).pollTile.runTreadle)
          · split
            · exact .done (runTreadle (refl _).pollTile.setTile)
            · exact .done (runTreadle (abandonDrained (foldl (ite (count (count (count (count (putFrame (refl _).pollTile.setFree)))))
                (tileError (count (count (count (count (putFrame (refl _).pollTile.setFree))))))) fun _ _ hu => hu.loseSlot)))
        · exact .done ((refl _).pollTile.runTreadle)

theorem execSkipRunCtu_runs (s : State) {tile : Fin 64} : Runs s (execSkipRunCtu tile s) := by
  unfold execSkipRunCtu
  dsimp only
  refine .awake ?_
  split
  · exact .done ((refl _).pollTile)
  · split
    · exact .done ((refl _).pollTile.runTreadle)
    · exact .done (runTreadle (count (count (putFrame (refl _).pollTile.setFree))))

theorem execRowClose_runs (s : State) {tile : Fin 64} : Runs s (execRowClose tile s) := by
  unfold execRowClose
  dsimp only
  refine .awake ?_
  split
  · exact .done ((refl _).pollTile)
  · split
    · exact .done ((refl _).pollTile.runTreadle)
    · exact .done (runTreadle (putFrame (refl _).pollTile.setFree))

theorem execCtuFinal_runs (s : State) {tile : Fin 64} {ctu : BitVec 16} {filtered : Bool} :
    Runs s (execCtuFinal tile ctu filtered s) := by
  unfold execCtuFinal
  dsimp only
  refine .awake ?_
  split
  · exact .done ((refl _).pollTile)
  · split
    · exact .done ((refl _).pollTile.runTreadle)
    · split
      · exact .done ((refl _).pollTile.runTreadle)
      · split
        · exact .done (runTreadle (refl _).pollTile.setTile)
        · exact .done (runTreadle (setTile (ite (refl _).pollTile.freed.allocReserved.count (refl _).pollTile.freed.allocReserved)))

theorem execFrameFinal_runs (s : State) {tile : Fin 64} {crc sealItem : Ecc} : Runs s (execFrameFinal tile crc sealItem s) := by
  unfold execFrameFinal
  dsimp only
  refine .awake ?_
  split
  · exact .done ((refl _).pollTile)
  · split
    · exact .done ((refl _).pollTile.runTreadle)
    · exact .done (runTreadle (ite (setTile (refl _).pollTile.setEnc) (tileError (setTile (refl _).pollTile.setEnc))))

theorem execFrameOpenTimeout_runs (s : State) {tile : Fin 64} : Runs s (execFrameOpenTimeout tile s) := by
  unfold execFrameOpenTimeout
  dsimp only
  refine .awake ?_
  split
  · exact .done (refl _)
  · split
    · exact .done (refl _)
    · exact .done ((refl _).abandon.runTreadle)

theorem execBattenSilenceTimeout_runs (s : State) {tile : Fin 64} : Runs s (execBattenSilenceTimeout tile s) := by
  unfold execBattenSilenceTimeout
  dsimp only
  refine .awake ?_
  split
  · exact .done ((refl _).pollTile)
  · split
    · exact .done ((refl _).pollTile.abandon.runTreadle)
    · exact .done ((refl _).pollTile.runTreadle)

theorem execFlushApply_runs (s : State) {tile : Fin 64} : Runs s (execFlushApply tile s) := by
  unfold execFlushApply
  dsimp only
  refine .awake ?_
  split
  · exact .done (refl _)
  · split
    · exact .done (refl _)
    · exact .done (runTreadle (resumeCoder (set (refl _).strikeSlice.setTile)))

theorem execPacketForm_runs (s : State) {tile : Fin 64} {item : Ecc} : Runs s (execPacketForm tile item s) := by
  unfold execPacketForm
  dsimp only
  refine .awake ?_
  split
  · exact .done ((refl _).bobDst.feedSlice)
  · split
    · exact .done ((refl _).bobDst.feedSlice)
    · split
      · exact .done ((refl _).bobDst.feedSlice.setTile)
      · exact .done ((refl _).bobDst.feedSlice.formed.readItem)
      · exact .done ((refl _).bobDst.feedSlice.formed.readItem)

theorem execPacketReplicate_runs (s : State) {tile : Fin 64} {badEndpoints badMacs : List ℕ} {badGroup : Bool} :
    Runs s (execPacketReplicate tile badEndpoints badMacs badGroup s) := by
  unfold execPacketReplicate
  dsimp only
  refine .awake ?_
  split
  · exact .done (refl _)
  · split
    · exact .done (runTreadle (resumeCoder (bobDrop (foldl (foldl (updateList (refl _).setTile) fun _ _ hu => hu.contained.selvCount)
        fun _ _ hu => hu.copyToEndpoint))))
    · exact .done (runTreadle (resumeCoder (bobDrop (foldl (macBad (foldl (foldl (updateList (refl _).setTile) fun _ _ hu =>
        hu.contained.selvCount) fun _ _ hu => hu.copyToEndpoint)) fun _ _ hu => hu.copyToGroup))))

theorem execSchedulerDecision_runs (s : State) {node : Fin 20} : Runs s (execSchedulerDecision node s) := by
  unfold execSchedulerDecision
  refine .awake ?_
  split
  · exact .done (refl _)
  · split
    · exact .done (refl _)
    · split
      · exact .done (refl _)
      · exact .done (depart (setPort (settlePick (foldl (refl _).setQueue fun _ _ hu => hu.charge))))

theorem execBlockAllocate_runs (s : State) {m : Master} {h1 : Holder} {longTerm : Bool} (hm : masterOk m = true) :
    Runs s (execBlockAllocate m h1 longTerm s) :=
  .issuedBy hm (.ite (.done ((refl _).emit)) (.done ((refl _).freed.allocBlock.emit)))

theorem execBlockName_runs (s : State) {m : Master} {block : BitVec 29} {gen : BitVec 16} {h1 : Holder} (hm : masterOk m = true) :
    Runs s (execBlockName m block gen h1 s) :=
  .issuedBy hm (.done ((refl _).nameBlock))

theorem execBlockRelease_runs (s : State) {m : Master} {block : BitVec 29} {gen : BitVec 16} (hm : masterOk m = true) :
    Runs s (execBlockRelease m block gen s) :=
  .issuedBy hm (.done ((refl _).releaseBlock))

theorem execSurfaceTableCommit_runs (s : State) {surface : BitVec 24} : Runs s (execSurfaceTableCommit surface s) :=
  .awake (.done ((refl _).commitSurface))

theorem execSettle_runs (s : State) : Runs s (execSettle s) :=
  .awake (.ite (.done ((refl _).settleLoop)) (.done (refl _)))

theorem execPrefetch_runs (s : State) {stream : BitVec 16} : Runs s (execPrefetch stream s) := by
  unfold execPrefetch
  refine .awake ?_
  split
  · exact .done (refl _)
  · split
    · exact .done ((refl _).fetchRecord)
    · exact .done (refl _)

theorem execBlockMove_runs (s : State) {block : BitVec 29} {toDdr : Bool} {e : Ecc} : Runs s (execBlockMove block toDdr e s) := by
  unfold execBlockMove
  refine .awake ?_
  split
  · exact .done ((refl _).moveBlock)
  · exact .done ((refl _).corrected.moveBlock)
  · exact .done ((refl _).moveBlock)

theorem execMovedFrameFree_runs (s : State) : Runs s (execMovedFrameFree s) :=
  .awake (.done ((refl _).set))

theorem execStreamStart_runs (s : State) {stream : BitVec 16} : Runs s (execStreamStart stream s) := by
  unfold execStreamStart
  dsimp only
  refine .awake ?_
  split
  · split
    · exact .done (refl _)
    · split
      · exact .done ((refl _).resumeStream)
      · split
        · exact .done ((refl _).setEnc)
        · exact .done ((refl _).allocFrames.substTable.setEnc)
  · split
    · exact .done (refl _)
    · split
      · exact .done ((refl _).resumeStream)
      · split
        · exact .done ((refl _).setEnc)
        · exact .done ((refl _).allocFrames.substTable.setEnc)

theorem execPoolAudit_runs (s : State) : Runs s (execPoolAudit s) := by
  unfold execPoolAudit
  refine .awake ?_
  split
  · exact .done (refl _)
  · rename_i e
    exact .done (((refl _).takeAct e).set)

theorem execPoolAuditPass_runs (s : State) : Runs s (execPoolAuditPass s) := by
  unfold execPoolAuditPass
  refine .awake ?_
  split
  · exact .done (refl _)
  · split
    · exact .done (refl _)
    · exact .done (poolCount (refl _).set)

theorem execDecodePacket_runs (s : State) {ctx : BitVec 12} {tagged : Bool} : Runs s (execDecodePacket ctx tagged s) := by
  unfold execDecodePacket
  refine .awake ?_
  split
  · exact .done (refl _)
  · exact .done (decodePacket (refl _).setDec)

theorem execReorderTimeout_runs (s : State) {ctx : BitVec 12} : Runs s (execReorderTimeout ctx s) := by
  unfold execReorderTimeout
  dsimp only
  refine .awake ?_
  split
  · exact .done (refl _)
  · split
    · split
      · exact .done ((refl _).loseGap)
      · exact .done (refl _)
    · split
      · exact .done ((refl _).loseGap)
      · exact .done (refl _)

theorem execSsrcRelock_runs (s : State) {ctx : BitVec 12} : Runs s (execSsrcRelock ctx s) := by
  unfold execSsrcRelock
  dsimp only
  refine .awake ?_
  split
  · exact .done (unsync (refl _).setDec)
  · exact .done (refl _)

theorem execSt2110Frame_runs (s : State) {tile : Fin 32} {item : Ecc} : Runs s (execSt2110Frame tile item s) := by
  unfold execSt2110Frame
  dsimp only
  refine .awake ?_
  split
  · exact .done (refl _)
  · split
    · exact .done (refl _)
    · exact .done ((refl _).finishing fun _ hu => hu.tileEnded.stFrame.closeDec)

theorem execDecodeTake_runs (s : State) {tile : Fin 32} {width height : BitVec 16} {poc : BitVec 32} :
    Runs s (execDecodeTake tile width height poc s) := by
  unfold execDecodeTake
  dsimp only
  refine .awake ?_
  split
  · exact .done (refl _)
  · split
    · exact .done (refl _)
    · split
      · exact .done (refl _)
      · exact .done (ite (beginPicture (refl _).setDec) (beginPicture (refl _).setDec))

theorem execDecodePictureEnd_runs (s : State) {tile : Fin 32} {found : PicFound} {item : Ecc} :
    Runs s (execDecodePictureEnd tile found item s) := by
  unfold execDecodePictureEnd
  dsimp only
  refine .awake ?_
  split
  · exact .done (refl _)
  · split
    · exact .done (refl _)
    · exact .done ((refl _).finishing fun _ hu => hu.tileEnded.judgePicture.closeDec)

theorem execTimedOutputCommit_runs (s : State) {ctx : BitVec 12} : Runs s (execTimedOutputCommit ctx s) := by
  unfold execTimedOutputCommit
  dsimp only
  refine .awake ?_
  split
  · exact .done (refl _)
  · split
    · exact .done (refl _)
    · exact .done (closeDec (picLeft (releasePic (commitPic (refl _).setDec))))

theorem execMicrowordExecute_runs (s : State) {tile : Fin 72} : Runs s (execMicrowordExecute tile s) := by
  unfold execMicrowordExecute
  dsimp only
  refine .awake ?_
  split
  · exact .done (refl _)
  · split
    · exact .done ((refl _).treadleFault)
    · split
      · exact .done ((refl _).romStep)
      · split
        · exact .done ((refl _).treadleFault)
        · split
          · exact .done ((refl _).treadleFault)
          · split
            · exact .done ((refl _).setTile)
            · exact .done ((refl _).runWord)

theorem execTreadleInterrupt_runs (s : State) {tile : Fin 72} : Runs s (execTreadleInterrupt tile s) := by
  unfold execTreadleInterrupt
  dsimp only
  refine .awake ?_
  split
  · exact .done (refl _)
  · split
    · exact .done ((refl _).treadleFault)
    · exact .done ((refl _).setTile)

theorem execTreadleEvent_runs (s : State) {tile : Fin 72} {ev : Word} : Runs s (execTreadleEvent tile ev s) :=
  .awake (.done ((refl _).setTile))

theorem execTreadleFault_runs (s : State) {tile : Fin 72} {code : BitVec 3} : Runs s (execTreadleFault tile code s) :=
  .awake (.ite (.done (refl _)) (.done ((refl _).treadleFault)))

theorem execSafePointTimeout_runs (s : State) {tile : Fin 72} : Runs s (execSafePointTimeout tile s) := by
  unfold execSafePointTimeout
  dsimp only
  refine .awake ?_
  split
  · exact .done ((refl _).treadleFault)
  · exact .done (refl _)

theorem execTreadleRestart_runs (s : State) {tile : Fin 72} : Runs s (execTreadleRestart tile s) := by
  unfold execTreadleRestart
  dsimp only
  refine .awake ?_
  split
  · exact .done ((refl _).setTile)
  · exact .done (refl _)

theorem execPatchApply_runs (s : State) {tile : Fin 72} : Runs s (execPatchApply tile s) := by
  unfold execPatchApply
  dsimp only
  refine .awake ?_
  split
  · exact .done ((refl _).setTile)
  · exact .done (refl _)

theorem execPacketReceive_runs (s : State) {port1 : Fin 16} {data : Bytes} (hc : (Instr.packetReceive port1 data).wellFormed = true) :
    Runs s (execPacketReceive port1 data s) :=
  .awake (.guarded hc (.ite (.done (refl _)) (.done ((refl _).captureArrival.set))))

theorem execClassify_runs (s : State) {pkt : ℕ} {tree : Ecc} {ingestBad dstBad srcBad : Bool} :
    Runs s (execClassify pkt tree ingestBad dstBad srcBad s) := by
  unfold execClassify
  refine .awake ?_
  split
  · exact .done (refl _)
  · exact .done (ite (selvCount (contained (ite (corrected (ite (selvCount (ite (selvCount (refl _).lookups.set) (refl _).lookups.set))
      (ite (selvCount (refl _).lookups.set) (refl _).lookups.set))) (ite (selvCount (ite (selvCount (refl _).lookups.set) (refl
      _).lookups.set)) (ite (selvCount (refl _).lookups.set) (refl _).lookups.set))))) (ite (corrected (ite (selvCount (ite (selvCount
      (refl _).lookups.set) (refl _).lookups.set)) (ite (selvCount (refl _).lookups.set) (refl _).lookups.set))) (ite (selvCount (ite
      (selvCount (refl _).lookups.set) (refl _).lookups.set)) (ite (selvCount (refl _).lookups.set) (refl _).lookups.set))))

theorem execReorderRelease_runs (s : State) {port1 : Fin 16} : Runs s (execReorderRelease port1 s) := by
  unfold execReorderRelease
  dsimp only
  refine .awake ?_
  split
  · exact .done (refl _)
  · split
    · exact .done (refl _)
    · split
      · exact .done (ite (exception (learnFrom (refl _).set)) (learnFrom (refl _).set))
      · exact .done (exception (ite (exception (learnFrom (refl _).set)) (learnFrom (refl _).set)))
      · exact .done (exception (ite (exception (learnFrom (refl _).set)) (learnFrom (refl _).set)))
      · exact .done (ite (timeCount (ite (exception (learnFrom (refl _).set)) (learnFrom (refl _).set))) (ite (exception (learnFrom
          (refl _).set)) (learnFrom (refl _).set)))
      · exact .done (ite (exception (learnFrom (refl _).set)) (learnFrom (refl _).set))
      · exact .done (ite (exception (learnFrom (refl _).set)) (learnFrom (refl _).set))
      · exact .done (ite (exception (learnFrom (refl _).set)) (learnFrom (refl _).set))
      · exact .done (ite (bridge (toContext (ite (exception (learnFrom (refl _).set)) (learnFrom (refl _).set)))) (toContext (ite
          (exception (learnFrom (refl _).set)) (learnFrom (refl _).set))))
      · split
        · exact .done (bridgeTo (ite (exception (learnFrom (refl _).set)) (learnFrom (refl _).set)))
        · exact .done (bridge (ite (exception (learnFrom (refl _).set)) (learnFrom (refl _).set)))
      · exact .done (bridge (ite (exception (learnFrom (refl _).set)) (learnFrom (refl _).set)))
      · exact .done (ite (enqueueCopy (ite (exception (learnFrom (refl _).set)) (learnFrom (refl _).set))) (set (enqueueCopy (ite
          (exception (learnFrom (refl _).set)) (learnFrom (refl _).set)))))

theorem execLengthStomp_runs (s : State) {port1 : Fin 16} : Runs s (execLengthStomp port1 s) := by
  unfold execLengthStomp
  refine .awake ?_
  split
  · exact .done (refl _)
  · refine .done ?_
    refine selvCount ?_
    split
    · refine exception ?_
      split
      · exact set (foldl (refl _).set fun _ _ hu => (set (setQueue (foldl hu fun _ _ hu1 => hu1.dropCells))))
      · exact foldl (refl _).set fun _ _ hu => (set (setQueue (foldl hu fun _ _ hu1 => hu1.dropCells)))
    · split
      · exact set (foldl (refl _).set fun _ _ hu => (set (setQueue (foldl hu fun _ _ hu1 => hu1.dropCells))))
      · exact foldl (refl _).set fun _ _ hu => (set (setQueue (foldl hu fun _ _ hu1 => hu1.dropCells)))

theorem execLearnEvent_runs (s : State) {bad : Bool} : Runs s (execLearnEvent bad s) := by
  unfold execLearnEvent
  dsimp only
  refine .awake ?_
  split
  · exact .done (refl _)
  · split
    · exact .done (refl _)
    · split
      · exact .done (macInsert (macBad (refl _).set))
      · split
        · exact .done (set (macBad (refl _).set))
        · split
          · exact .done (selvCount (macBad (refl _).set))
          · split
            · exact .done (macBad (refl _).set)
            · exact .done (ite (raise (selvCount (logLearn (selvCount (set (macBad (refl _).set)))))) (logLearn (selvCount (set (macBad
                (refl _).set)))))

theorem execAgingScan_runs (s : State) : Runs s (execAgingScan s) := by
  unfold execAgingScan
  refine .awake ?_
  split
  · exact .done (refl _)
  · refine .done ?_
    refine (refl _).set.foldl fun u a hu => ?_
    split
    · exact hu
    · split
      · exact hu.macRemove.selvCount
      · exact ite (logLearn hu.set) hu.set

theorem execMacSearch_runs (s : State) {bad : Bool} : Runs s (execMacSearch bad s) := by
  unfold execMacSearch
  dsimp only
  refine .awake ?_
  split
  · exact .done (refl _)
  · rename_i e
    split
    · exact .done (((refl _).takeCmd e).macBad.macResult)
    · exact .done (((refl _).takeCmd e).macBad.macResult)

theorem execMacNext_runs (s : State) : Runs s (execMacNext s) := by
  unfold execMacNext
  dsimp only
  refine .awake ?_
  split
  · exact .done (refl _)
  · rename_i e
    split
    · exact .done (((refl _).takeCmd e).macResult)
    · split
      · exact .done (((refl _).takeCmd e).macResult)
      · exact .done (((refl _).takeCmd e).macResult)

theorem execMacInsert_runs (s : State) {bad : Bool} : Runs s (execMacInsert bad s) := by
  unfold execMacInsert
  dsimp only
  refine .awake ?_
  split
  · exact .done (refl _)
  · rename_i e
    split
    · split
      · exact .done (((refl _).takeCmd e).macBad.macResult)
      · exact .done (macResult (logLearn ((refl _).takeCmd e).macBad.set))
    · exact .done (((refl _).takeCmd e).macBad.macInsert.macResult)

theorem execMacDelete_runs (s : State) {bad : Bool} : Runs s (execMacDelete bad s) := by
  unfold execMacDelete
  dsimp only
  refine .awake ?_
  split
  · exact .done (refl _)
  · rename_i e
    split
    · exact .done (((refl _).takeCmd e).macBad.macRemove.macResult)
    · exact .done (((refl _).takeCmd e).macBad.macResult)

theorem execMacFlushByPort_runs (s : State) {steps : ℕ} : Runs s (execMacFlushByPort steps s) :=
  .awake (.done ((refl _).flushSteps))

theorem execMacFlushAll_runs (s : State) {steps : ℕ} : Runs s (execMacFlushAll steps s) :=
  .awake (.done ((refl _).flushSteps))

theorem execPrefixInsert_runs (s : State) : Runs s (execPrefixInsert s) := by
  unfold execPrefixInsert
  dsimp only
  refine .awake ?_
  split
  · exact .done (refl _)
  · rename_i e
    split
    · exact .done (((refl _).takeLpm e).lpmResult)
    · split
      · exact .done (((refl _).takeLpm e).lpmResult)
      · exact .done (lpmResult ((refl _).takeLpm e).set)

theorem execPrefixDelete_runs (s : State) : Runs s (execPrefixDelete s) := by
  unfold execPrefixDelete
  refine .awake ?_
  split
  · exact .done (refl _)
  · rename_i e
    split
    · exact .done (((refl _).takeLpm e).lpmResult)
    · exact .done (lpmResult ((refl _).takeLpm e).set)

theorem execPrefixExactSearch_runs (s : State) : Runs s (execPrefixExactSearch s) := by
  unfold execPrefixExactSearch
  refine .awake ?_
  split
  · exact .done (refl _)
  · rename_i e
    split
    · exact .done (((refl _).takeLpm e).lpmResult)
    · exact .done (((refl _).takeLpm e).lpmResult)

theorem execPrefixLongestMatch_runs (s : State) {bad : Option ℕ} : Runs s (execPrefixLongestMatch bad s) := by
  unfold execPrefixLongestMatch
  dsimp only
  refine .awake ?_
  split
  · exact .done (refl _)
  · rename_i e
    split
    · refine .done ?_
      refine lpmResult ?_
      split
      · exact ite (selvCount (contained (raise ((refl _).takeLpm e).set))) ((refl _).takeLpm e)
      · exact (refl _).takeLpm e
    · refine .done ?_
      refine lpmResult ?_
      split
      · exact ite (selvCount (contained (raise ((refl _).takeLpm e).set))) ((refl _).takeLpm e)
      · exact (refl _).takeLpm e

theorem execPrefixNext_runs (s : State) : Runs s (execPrefixNext s) := by
  unfold execPrefixNext
  dsimp only
  refine .awake ?_
  split
  · exact .done (refl _)
  · rename_i e
    split
    · exact .done (((refl _).takeLpm e).lpmResult)
    · exact .done (((refl _).takeLpm e).lpmResult)

theorem execRulesetActivate_runs (s : State) : Runs s (execRulesetActivate s) := by
  unfold execRulesetActivate
  dsimp only
  refine .awake ?_
  split
  · exact .done (refl _)
  · rename_i e
    split
    · exact .done ((refl _).takeAct e)
    · exact .done (storeRules ((refl _).takeAct e).set)

theorem execSnoopReport_runs (s : State) {port1 : Fin 16} {vlan : BitVec 12} {mac : BitVec 48} :
    Runs s (execSnoopReport port1 vlan mac s) :=
  .awake (.ite (.done ((refl _).setMember)) (.done (refl _)))

theorem execSnoopLeave_runs (s : State) {port1 : Fin 16} {vlan : BitVec 12} {mac : BitVec 48} :
    Runs s (execSnoopLeave port1 vlan mac s) := by
  unfold execSnoopLeave
  refine .awake ?_
  split
  · exact .done (refl _)
  · split
    · exact .done ((refl _).dropMember)
    · split
      · exact .done (refl _)
      · exact .done ((refl _).setMember)

theorem execSnoopQueryReceived_runs (s : State) {port1 : Fin 16} {vlan : BitVec 12} {query : Bool} {ip : BitVec 128} :
    Runs s (execSnoopQueryReceived port1 vlan query ip s) :=
  .awake (.ite (.done (refl _)) (.done ((refl _).set)))

theorem execMembershipExpiry_runs (s : State) {port1 : Fin 16} {vlan : BitVec 12} {mac : Option (BitVec 48)} :
    Runs s (execMembershipExpiry port1 vlan mac s) := by
  unfold execMembershipExpiry
  refine .awake ?_
  split
  · exact .done (refl _)
  · split
    · split
      · split
        · exact .done ((refl _).dropMember)
        · exact .done (refl _)
      · exact .done (refl _)
    · split
      · split
        · exact .done ((refl _).set)
        · exact .done (refl _)
      · exact .done (refl _)

theorem execGeneralQuerySend_runs (s : State) {vlan : BitVec 12} : Runs s (execGeneralQuerySend vlan s) :=
  .awake (.ite (.done (refl _)) (.done ((refl _).generalQuery.generalQuery)))

theorem execLinkDown_runs (s : State) {port1 : Fin 16} : Runs s (execLinkDown port1 s) :=
  .awake (.done ((refl _).linkDown))

theorem execLinkUp_runs (s : State) {port1 : Fin 16} : Runs s (execLinkUp port1 s) :=
  .awake (.ite (.done ((refl _).set)) (.done (refl _)))

theorem execTouchDatagram_runs (s : State) {ip : BitVec 128} {payload : Bytes}
    (hc : (Instr.touchDatagram ip payload).wellFormed = true) :
    Runs s (execTouchDatagram ip payload s) := by
  unfold execTouchDatagram
  dsimp only
  refine .awake ?_
  refine .guarded hc ?_
  split
  · exact .done (refl _)
  · split
    · exact .done ((refl _).touchCount)
    · split
      · exact .done ((refl _).touchCount)
      · exact .done (foldl (refl _) fun _ _ hu => (ite hu.queueTouch hu))

theorem execTouchEvent_runs (s : State) {engine : Fin 8} {e : Ecc} : Runs s (execTouchEvent engine e s) := by
  unfold execTouchEvent
  dsimp only
  refine .awake ?_
  split
  · exact .done (refl _)
  · split
    · exact .done ((refl _).feedTouch.bobDst)
    · split
      · exact .done (ite (touchCount (refl _).feedTouch.bobDst.bobDrop.readItem.feedTouch.trackOf.set) (refl
          _).feedTouch.bobDst.bobDrop.readItem.feedTouch.trackOf.set)
      · exact .done (touchCount (updateVar (ite (touchCount (refl _).feedTouch.bobDst.bobDrop.readItem.feedTouch.trackOf.set) (refl
          _).feedTouch.bobDst.bobDrop.readItem.feedTouch.trackOf.set)))

theorem execTouchStuck_runs (s : State) {endpoint : BitVec 20} {contact : Fin 10} : Runs s (execTouchStuck endpoint contact s) := by
  unfold execTouchStuck
  dsimp only
  refine .awake ?_
  split
  · exact .done (refl _)
  · split
    · exact .done (raise (touchCount (refl _).set))
    · exact .done (refl _)

theorem execPresenceScan_runs (s : State) : Runs s (execPresenceScan s) :=
  .awake (.ite (.done (refl _)) (.done (foldl (refl _).set fun _ _ hu => hu.presence.transCount)))

theorem execRtcpReceive_runs (s : State) {ip : BitVec 128} {port1 : BitVec 16} {payload : Bytes}
    (hc : (Instr.rtcpReceive ip port1 payload).wellFormed = true) :
    Runs s (execRtcpReceive ip port1 payload s) := by
  unfold execRtcpReceive
  dsimp only
  refine .awake ?_
  refine .guarded hc ?_
  split
  · exact .done ((refl _).transCount)
  · exact .done ((refl _).transCount)
  · split
    · split
      · exact .done ((refl _).transCount)
      · split
        · refine .done ?_
          split
          · refine tell ?_
            split
            · exact ite (setEp (refl _).setEp) (transCount (presence (setEp (refl _).setEp)))
            · exact ite (refl _).setEp (transCount (presence (refl _).setEp))
          · split
            · exact ite (setEp (refl _).setEp) (transCount (presence (setEp (refl _).setEp)))
            · exact ite (refl _).setEp (transCount (presence (refl _).setEp))
        · split
          · split
            · split
              · split
                · exact .done (unchecked (tell (setEp (refl _).setEp)))
                · exact .done (set (tell (setEp (refl _).setEp)))
              · split
                · exact .done (unchecked (tell (transCount (presence (setEp (refl _).setEp)))))
                · exact .done (set (tell (transCount (presence (setEp (refl _).setEp)))))
            · split
              · split
                · exact .done (unchecked (tell (refl _).setEp))
                · exact .done (set (tell (refl _).setEp))
              · split
                · exact .done (unchecked (tell (transCount (presence (refl _).setEp))))
                · exact .done (set (tell (transCount (presence (refl _).setEp))))
          · split
            · split
              · split
                · exact .done (unchecked (setEp (refl _).setEp))
                · exact .done (set (setEp (refl _).setEp))
              · split
                · exact .done (unchecked (transCount (presence (setEp (refl _).setEp))))
                · exact .done (set (transCount (presence (setEp (refl _).setEp))))
            · split
              · split
                · exact .done (unchecked (refl _).setEp)
                · exact .done (set (refl _).setEp)
              · split
                · exact .done (unchecked (transCount (presence (refl _).setEp)))
                · exact .done (set (transCount (presence (refl _).setEp)))
    · exact .done ((refl _).transCount)

theorem execSealCheck_runs (s : State) : Runs s (execSealCheck s) := by
  unfold execSealCheck
  dsimp only
  refine .awake ?_
  split
  · exact .done (refl _)
  · split
    · exact .done ((refl _).set)
    · split
      · exact .done (unchecked (refl _).set)
      · split
        · exact .done (transCount (setEp (refl _).set))
        · exact .done (ite (transCount (setEp (refl _).set)) (raise (transCount (setEp (refl _).set))))

theorem execSealRecordWaitTimeout_runs (s : State) : Runs s (execSealRecordWaitTimeout s) := by
  unfold execSealRecordWaitTimeout
  refine .awake ?_
  split
  · exact .done (refl _)
  · exact .done (unchecked (refl _).set)

theorem execPpsInEdge_runs (s : State) {frac : BitVec 16} : Runs s (execPpsInEdge frac s) := by
  unfold execPpsInEdge
  dsimp only
  refine .awake ?_
  split
  · exact .done (refl _)
  · split
    · refine .done ?_
      split
      · exact set (ite (setCount (heldDone (refl _).set)) (refl _).set)
      · exact set (refl _).set
    · split
      · split
        · split
          · split
            · refine .done ?_
              split
              · exact reviewSlave (judge (timeCount (set (setCount (heldDone (refl _).set)))))
              · exact ite (steer (judge (timeCount (set (setCount (heldDone (refl _).set)))))) (judge (timeCount (set (setCount
                  (heldDone (refl _).set)))))
              · exact steer (judge (timeCount (set (setCount (heldDone (refl _).set)))))
            · exact .done (timeCount (set (setCount (heldDone (refl _).set))))
          · split
            · refine .done ?_
              split
              · exact reviewSlave (judge (timeCount (set (refl _).set)))
              · exact ite (steer (judge (timeCount (set (refl _).set)))) (judge (timeCount (set (refl _).set)))
              · exact steer (judge (timeCount (set (refl _).set)))
            · exact .done (timeCount (set (refl _).set))
        · split
          · refine .done ?_
            split
            · exact reviewSlave (judge (timeCount (set (refl _).set)))
            · exact ite (steer (judge (timeCount (set (refl _).set)))) (judge (timeCount (set (refl _).set)))
            · exact steer (judge (timeCount (set (refl _).set)))
          · exact .done (timeCount (set (refl _).set))
      · refine .done ?_
        refine badEdge ?_
        split
        · exact ite (setCount (heldDone (refl _).set)) (refl _).set
        · exact (refl _).set

theorem execPpsMissing_runs (s : State) : Runs s (execPpsMissing s) := by
  unfold execPpsMissing
  refine .awake ?_
  split
  · exact .done (refl _)
  · split
    · exact .done (refl _)
    · exact .done ((refl _).badEdge)

theorem execReferenceInputLost_runs (s : State) {i : RefInput} : Runs s (execReferenceInputLost i s) := by
  unfold execReferenceInputLost
  refine .awake ?_
  split
  · exact .done (refl _)
  · split
    · exact .done ((refl _).set)
    · exact .done ((refl _).set)

theorem execHoldoverLimitCrossed_runs (s : State) : Runs s (execHoldoverLimitCrossed s) :=
  .awake (.ite (.done ((refl _).holdoverNow)) (.done (refl _)))

theorem execTimeStep_runs (s : State) : Runs s (execTimeStep s) := by
  unfold execTimeStep
  refine .awake ?_
  split
  · exact .done (refl _)
  · split
    · exact .done (refl _)
    · exact .done (setPtp (refl _).set)

theorem execSetSeconds_runs (s : State) : Runs s (execSetSeconds s) := by
  unfold execSetSeconds
  refine .awake ?_
  split
  · exact .done (refl _)
  · exact .done ((refl _).set)

theorem execAnnounceSend_runs (s : State) {port1 : Fin 16} : Runs s (execAnnounceSend port1 s) :=
  .awake (.ite (.done ((refl _).freed.nextSeqOf.sendPtp)) (.done (refl _)))

theorem execSyncSend_runs (s : State) {port1 : Fin 16} {item : Ecc} : Runs s (execSyncSend port1 item s) := by
  unfold execSyncSend
  refine .awake ?_
  split
  · split
    · exact .done ((refl _).bobClear)
    · rename_i e1
      split
      · exact .done (((refl _).freed.crossStamp e1).nextSeqOf.sendPtp)
      · exact .done (((refl _).freed.crossStamp e1).nextSeqOf.sendPtp.sendPtp)
  · exact .done (refl _)

theorem execDelayReq_runs (s : State) {port1 : Fin 16} {item : Ecc} {unicast : Option (BitVec 48 × BitVec 128)} {source : BitVec 80}
    {seq : BitVec 16} :
    Runs s (execDelayReq port1 item unicast source seq s) := by
  unfold execDelayReq
  dsimp only
  refine .awake ?_
  split
  · split
    · split
      · exact .done (dropArrival (timeCount (refl _).set))
      · split
        · exact .done ((refl _).bobClear)
        · rename_i e3
          exact .done (sendPtp (timeCount ((refl _).crossStamp e3).set))
    · split
      · exact .done (dropArrival (timeCount (refl _).set))
      · split
        · exact .done ((refl _).bobClear)
        · rename_i e3
          exact .done (sendPtp (timeCount ((refl _).crossStamp e3).set))
  · exact .done ((refl _).dropArrival)

theorem execForeignAnnounce_runs (s : State) {port1 : Fin 16} {a : Announce} : Runs s (execForeignAnnounce port1 a s) := by
  unfold execForeignAnnounce
  dsimp only
  refine .awake ?_
  split
  · exact .done (refl _)
  · split
    · exact .done (reviewSlave (ite (refl _).timeCount.set (raise (refl _).timeCount.set)))
    · split
      · split
        · exact .done (reviewSlave (refl _).timeCount.set)
        · split
          · split
            · exact .done (reviewSlave (follow (refl _).timeCount.set))
            · split
              · exact .done (follow (refl _).timeCount.set)
              · exact .done (reviewSlave (refl _).timeCount.set)
          · split
            · exact .done (follow (refl _).timeCount.set)
            · exact .done ((refl _).timeCount.set)
      · split
        · exact .done (reviewSlave (refl _).timeCount.set)
        · split
          · split
            · exact .done (reviewSlave (follow (refl _).timeCount.set))
            · split
              · exact .done (follow (refl _).timeCount.set)
              · exact .done (reviewSlave (refl _).timeCount.set)
          · split
            · exact .done (follow (refl _).timeCount.set)
            · exact .done ((refl _).timeCount.set)

theorem execAnnounceReceiptTimeout_runs (s : State) : Runs s (execAnnounceReceiptTimeout s) :=
  .awake (.ite (.done ((refl _).leaveSlave)) (.done (refl _)))

theorem execSyncMetadataSend_runs (s : State) {port1 : Fin 16} : Runs s (execSyncMetadataSend port1 s) :=
  .awake (.ite (.done ((refl _).freed.nextSeqOf.sendPtp)) (.done (refl _)))

theorem execPpsOutEdge_runs (s : State) : Runs s (execPpsOutEdge s) :=
  .awake (.ite (.done (refl _)) (.done (ite (refl _).set (emit (emit (refl _).set)))))

theorem execTodLine_runs (s : State) : Runs s (execTodLine s) := by
  unfold execTodLine
  refine .awake ?_
  split
  · exact .done (refl _)
  · exact .done (emit (refl _).set)

theorem execSqDoorbell_runs (s : State) {p : Fin 4096} {v : Word} : Runs s (execSqDoorbell p v s) :=
  .awake (.done ((refl _).disarm.sqDoor))

theorem execCqDoorbell_runs (s : State) {c : Fin 1024} {v : Word} : Runs s (execCqDoorbell c v s) :=
  .awake (.done ((refl _).disarm.cqDoor))

theorem execSqEnable_runs (s : State) {m : Master} {p : Fin 4096} {v : Word} (hm : masterOk m = true) :
    Runs s (execSqEnable m p v s) :=
  .issuedBy hm (.done ((refl _).disarm.writeSqCfg))

theorem execSqDisable_runs (s : State) {m : Master} {p : Fin 4096} {v : Word} (hm : masterOk m = true) :
    Runs s (execSqDisable m p v s) :=
  .issuedBy hm (.done ((refl _).disarm.writeSqCfg))

theorem execSqReset_runs (s : State) {m : Master} {p : Fin 4096} (hm : masterOk m = true) : Runs s (execSqReset m p s) :=
  .issuedBy hm (.done ((refl _).disarm.shutSq))

theorem execCqEnable_runs (s : State) {m : Master} {c : Fin 1024} {v : Word} (hm : masterOk m = true) :
    Runs s (execCqEnable m c v s) :=
  .issuedBy hm (.done ((refl _).disarm.writeCqCfg))

theorem execCqDisable_runs (s : State) {m : Master} {c : Fin 1024} {v : Word} (hm : masterOk m = true) :
    Runs s (execCqDisable m c v s) :=
  .issuedBy hm (.done ((refl _).disarm.writeCqCfg))

theorem execCqReset_runs (s : State) {m : Master} {c : Fin 1024} (hm : masterOk m = true) : Runs s (execCqReset m c s) :=
  .issuedBy hm (.done ((refl _).disarm.resetCq))

theorem execEntryFetch_runs (s : State) {p : Fin 4096} {entries : Option (List Bytes)} : Runs s (execEntryFetch p entries s) := by
  unfold execEntryFetch
  dsimp only
  refine .awake ?_
  split
  · exact .done (refl _)
  · split
    · split
      · exact .done ((refl _).contained.takeEntries)
      · exact .done (takeEntries (foldl (refl _) fun _ _ hu => hu.ddrTouch))
    · split
      · exact .done ((refl _).contained.takeEntries)
      · split
        · exact .done (refl _)
        · exact .done ((refl _).takeEntries)

theorem execDispatch_runs (s : State) : Runs s (execDispatch s) := by
  unfold execDispatch
  dsimp only
  refine .awake ?_
  split
  · exact .done (refl _)
  · split
    · exact .done (refl _)
    · exact .done (set (setCq (refl _).setSq))

theorem execNop_runs (s : State) {job : ℕ} : Runs s (execNop job s) := by
  unfold execNop
  refine .awake ?_
  split
  · exact .done (refl _)
  · exact .done ((refl _).closeJob)

theorem execSurfaceLoad_runs (s : State) {job : ℕ} {host : HostRead} : Runs s (execSurfaceLoad job host s) := by
  unfold execSurfaceLoad
  dsimp only
  refine .awake ?_
  split
  · exact .done (refl _)
  · split
    · exact .done (refl _)
    · split
      · exact .done ((refl _).closeJob)
      · split
        · exact .done ((refl _).closeJob)
        · split
          · exact .done ((refl _).closeJob)
          · split
            · exact .done ((refl _).jobFrags.closeJob)
            · split
              · exact .done ((refl _).jobFrags.closeJob)
              · split
                · exact .done ((refl _).jobFrags.closeJob)
                · split
                  · exact .done ((refl _).jobFrags.jobData.closeJob)
                  · exact .done (commitSurface (setJob (refl _).jobFrags.jobData.loadBlocks.setSurface))

theorem execSurfaceFree_runs (s : State) {job : ℕ} : Runs s (execSurfaceFree job s) := by
  unfold execSurfaceFree
  refine .awake ?_
  split
  · exact .done (refl _)
  · split
    · exact .done (refl _)
    · split
      · exact .done ((refl _).closeJob)
      · split
        · exact .done ((refl _).closeJob)
        · exact .done ((refl _).freeSurface.closeJob)

theorem execSurfaceRead_runs (s : State) {job : ℕ} {table : Option Bytes} {hostBad : Bool} :
    Runs s (execSurfaceRead job table hostBad s) := by
  unfold execSurfaceRead
  dsimp only
  refine .awake ?_
  split
  · exact .done (refl _)
  · split
    · exact .done (refl _)
    · split
      · exact .done ((refl _).closeJob)
      · split
        · exact .done ((refl _).closeJob)
        · split
          · exact .done ((refl _).closeJob)
          · split
            · exact .done ((refl _).jobFrags.closeJob)
            · split
              · exact .done ((refl _).jobFrags.closeJob)
              · split
                · exact .done ((refl _).jobFrags.contained.closeJob)
                · split
                  · exact .done ((refl _).jobFrags.contained.closeJob)
                  · exact .done ((refl _).jobFrags.jobWrite.closeJob)

theorem execBitstream_runs (s : State) {job : ℕ} {host : HostRead} : Runs s (execBitstream job host s) := by
  unfold execBitstream
  dsimp only
  refine .awake ?_
  split
  · exact .done (refl _)
  · split
    · exact .done (refl _)
    · split
      · exact .done ((refl _).closeJob)
      · split
        · exact .done (refl _)
        · split
          · exact .done ((refl _).jobFrags.closeJob)
          · split
            · exact .done ((refl _).jobFrags.jobData.closeJob)
            · split
              · exact .done (refl _)
              · exact .done (closeJob (setDec (foldl (refl _).jobFrags.jobData fun _ _ hu => hu.ringWrite)))

theorem execPacketSend_runs (s : State) {job : ℕ} {host : HostRead} : Runs s (execPacketSend job host s) := by
  unfold execPacketSend
  dsimp only
  refine .awake ?_
  split
  · exact .done (refl _)
  · split
    · exact .done ((refl _).closeJob)
    · split
      · exact .done ((refl _).jobFrags.closeJob)
      · split
        · exact .done ((refl _).jobFrags.closeJob)
        · split
          · exact .done ((refl _).jobFrags.jobData.closeJob)
          · exact .done ((refl _).jobFrags.jobData.enqueueCopy.closeJob)

theorem execReceivePost_runs (s : State) {job : ℕ} {table : Option Bytes} : Runs s (execReceivePost job table s) := by
  unfold execReceivePost
  dsimp only
  refine .awake ?_
  split
  · exact .done (refl _)
  · split
    · exact .done (refl _)
    · split
      · exact .done (refl _)
      · split
        · exact .done ((refl _).closeJob)
        · split
          · exact .done ((refl _).jobFrags.closeJob)
          · exact .done (set (refl _).jobFrags.setJob)

theorem execJobComplete_runs (s : State) {job : ℕ} : Runs s (execJobComplete job s) := by
  unfold execJobComplete
  refine .awake ?_
  split
  · exact .done (refl _)
  · split
    · exact .done (refl _)
    · exact .done (restSq (drainBound (complete (setCq (refl _).set))))

theorem execDmaGo_runs (s : State) {m : Master} {ch : Fin 32} (hm : masterOk m = true) : Runs s (execDmaGo m ch s) :=
  .issuedBy hm (.done ((refl _).disarm.dmaGo.settleInts))

theorem execDmaPause_runs (s : State) {m : Master} {ch : Fin 32} (hm : masterOk m = true) : Runs s (execDmaPause m ch s) :=
  .issuedBy hm (.done ((refl _).disarm.dmaPause.settleInts))

theorem execDmaResume_runs (s : State) {m : Master} {ch : Fin 32} (hm : masterOk m = true) : Runs s (execDmaResume m ch s) :=
  .issuedBy hm (.done ((refl _).disarm.dmaResume.settleInts))

theorem execDmaAbort_runs (s : State) {m : Master} {ch : Fin 32} (hm : masterOk m = true) : Runs s (execDmaAbort m ch s) :=
  .issuedBy hm (.done ((refl _).disarm.dmaAbort.settleInts))

theorem execDmaDone_runs (s : State) {ch : Fin 32} {data : Bytes} {same1 : List DmaReg} : Runs s (execDmaDone ch data same1 s) := by
  unfold execDmaDone
  dsimp only
  refine .awake ?_
  split
  · exact .done (refl _)
  · split
    · exact .done (dmaFail (ite (refl _).dmaMove.contained (refl _).dmaMove))
    · exact .done (settleInts (dmaHeld (refl _).dmaMove.dmaEnd.setChan))

theorem execDmaAccessError_runs (s : State) {ch : Fin 32} {e : DmaErr} {addr : BitVec 48} {moved : Bytes} :
    Runs s (execDmaAccessError ch e addr moved s) := by
  unfold execDmaAccessError
  dsimp only
  refine .awake ?_
  split
  · split
    · exact .done (refl _)
    · exact .done ((refl _).dmaMove.dmaFail)
  · split
    · exact .done (refl _)
    · exact .done ((refl _).dmaMove.dmaFail)

theorem execDmaHaltedClear_runs (s : State) {m : Master} (hm : masterOk m = true) : Runs s (execDmaHaltedClear m s) :=
  .issuedBy hm (.done ((refl _).disarm.dmaUnhalt.settleInts))

theorem execInterruptRaise_runs (s : State) {bank : IntBank} {n : BitVec 12} {m : Master} {detail : Bytes} (hm : masterOk m = true) :
    Runs s (execInterruptRaise bank n m detail s) := by
  unfold execInterruptRaise
  refine .issuedBy hm ?_
  split
  · split
    · exact .done ((refl _).raise)
    · exact .done (settleInts (refl _).set)
  · exact .done (refl _)

theorem execInterruptClaim_runs (s : State) {m : Master} {t1 : IntTarget} (hm : masterOk m = true) :
    Runs s (execInterruptClaim m t1 s) :=
  .issuedBy hm (.done ((refl _).claim))

theorem execInterruptComplete_runs (s : State) {m : Master} {t1 : IntTarget} {n : BitVec 12} (hm : masterOk m = true) :
    Runs s (execInterruptComplete m t1 n s) :=
  .issuedBy hm (.done ((refl _).disarm.completeInt))

theorem execPendSet_runs (s : State) {m : Master} {bank : IntBank} {w : Fin 128} {v : Word} (hm : masterOk m = true) :
    Runs s (execPendSet m bank w v s) :=
  .issuedBy hm (.done ((refl _).disarm.pendSet))

theorem execPendClr_runs (s : State) {m : Master} {bank : IntBank} {w : Fin 128} {v hw : Word} (hm : masterOk m = true) :
    Runs s (execPendClr m bank w v hw s) :=
  .issuedBy hm (.done ((refl _).disarm.pendClr))

theorem execMaskSet_runs (s : State) {m : Master} {bank : IntBank} {w : Fin 128} {v : Word} (hm : masterOk m = true) :
    Runs s (execMaskSet m bank w v s) :=
  .issuedBy hm (.done ((refl _).disarm.maskSet))

theorem execMaskClr_runs (s : State) {m : Master} {bank : IntBank} {w : Fin 128} {v : Word} (hm : masterOk m = true) :
    Runs s (execMaskClr m bank w v s) :=
  .issuedBy hm (.done ((refl _).disarm.maskClr))

theorem execSgi_runs (s : State) {m : Master} {k : Fin 16} {v : Word} (hm : masterOk m = true) : Runs s (execSgi m k v s) :=
  .issuedBy hm (.done ((refl _).disarm.sgi))

theorem execModerationExpiry_runs (s : State) {n : BitVec 12} : Runs s (execModerationExpiry n s) := by
  unfold execModerationExpiry
  dsimp only
  refine .awake ?_
  split
  · split
    · exact .done ((refl _).settleInts)
    · exact .done (refl _)
  · split
    · exact .done ((refl _).settleInts)
    · exact .done (refl _)

theorem execStreamLogTake_runs (s : State) {m : Master} {c : Fin 8} (hm : masterOk m = true) : Runs s (execStreamLogTake m c s) :=
  .issuedBy hm (.done ((refl _).takeLog))

theorem execBufferAllocate_runs (s : State) {m : Master} {e : Ecc} {stale : List (BitVec 18)} (hm : masterOk m = true) :
    Runs s (execBufferAllocate m e stale s) :=
  .issuedBy hm (.done ((refl _).readAlloc))

theorem execBufferFree_runs (s : State) {m : Master} {b : BitVec 18} (hm : masterOk m = true) : Runs s (execBufferFree m b s) :=
  .issuedBy hm (.done ((refl _).disarm.freeBuffer))

theorem execBufferGive_runs (s : State) {m : Master} {b : BitVec 18} {owner : Master} (hm : masterOk m = true) :
    Runs s (execBufferGive m b owner s) :=
  .issuedBy hm (.done ((refl _).disarm.giveBuffer))

theorem execBpmMinFreeWrite_runs (s : State) {m : Master} (v : Word) (hm : masterOk m = true) :
    Runs s (execBpmMinFreeWrite m v s) :=
  .issuedBy hm (.done ((refl _).disarm.minFreeWrite))

theorem execBitmapRebuildDone_runs (s : State) : Runs s (execBitmapRebuildDone s) :=
  .awake (.done (same (refl _)))

theorem execPatrolScrub_runs (s : State) {addr : BitVec 48} {f : ScrubFound} : Runs s (execPatrolScrub addr f s) := by
  unfold execPatrolScrub
  dsimp only
  refine .awake ?_
  split
  · exact .done ((refl _).sramRow)
  · split
    · exact .done (refl _)
    · exact .done (memCount (same (refl _).scrubWord.freed))
  · split
    · exact .done (refl _)
    · exact .done (memCount (same (refl _).scrubWord.freed))

theorem execPseudoChannelRegrow_runs (s : State) {stack : Fin 4} {pc : Fin 31} : Runs s (execPseudoChannelRegrow stack pc s) := by
  unfold execPseudoChannelRegrow
  dsimp only
  refine .awake ?_
  split
  · exact .done ((refl _).setHbm)
  · exact .done (refl _)

theorem execPseudoChannelCopyDone_runs (s : State) {stack : Fin 4} {lost : List (BitVec 48)} :
    Runs s (execPseudoChannelCopyDone stack lost s) := by
  unfold execPseudoChannelCopyDone
  dsimp only
  refine .awake ?_
  split
  · exact .done (refl _)
  · exact .done (regrown (memCount (setSparing (refl _).loseWords.setHbm)))

theorem execRankRetire_runs (s : State) {ch : Fin 8} {rank : Fin 4} : Runs s (execRankRetire ch rank s) :=
  .awake (.done ((refl _).retireRank))

theorem execRankMigrationDone_runs (s : State) {ch : Fin 8} {lost : List (BitVec 48)} : Runs s (execRankMigrationDone ch lost s) := by
  unfold execRankMigrationDone
  dsimp only
  refine .awake ?_
  split
  · exact .done (refl _)
  · exact .done (regrown (memCount (setSparing (refl _).loseWords.setDdr)))

theorem execRankPowerDown_runs (s : State) {ch : Fin 8} {rank : Fin 4} : Runs s (execRankPowerDown ch rank s) := by
  unfold execRankPowerDown
  dsimp only
  refine .awake ?_
  split
  · exact .done (refl _)
  · exact .done ((refl _).setDdr)

theorem execFaultReport_runs (s : State) {kind : BitVec 8} {acc : Access} {m : Master} {addr : BitVec 48} {struck : Option HwUnit}
    (hm : masterOk m = true) :
    Runs s (execFaultReport kind acc m addr struck s) := by
  unfold execFaultReport
  refine .issuedBy hm ?_
  split
  · refine .done ?_
    refine report ?_
    split
    · exact ite (refl _).countBin (refl _)
    · exact refl _
  · exact .done (refl _)

theorem execFaultRecordRelease_runs (s : State) {m : Master} {v : Word} {newcomer : Option (BitVec 8 × Master × BitVec 48 × Access)}
    (hc : (Instr.faultRecordRelease m v newcomer).wellFormed = true) :
    Runs s (execFaultRecordRelease m v newcomer s) := by
  unfold execFaultRecordRelease
  refine .awake ?_
  refine .guarded hc ?_
  split
  · exact .done ((refl _).disarm.writeFltStatus.syncErr)
  · split
    · exact .done ((refl _).disarm.writeFltStatus.report)
    · exact .done ((refl _).disarm.writeFltStatus.syncErr)

theorem execErrPulseEnd_runs (s : State) {st : Straps} : Runs s (execErrPulseEnd st s) := by
  unfold execErrPulseEnd
  refine .awake ?_
  split
  · exact .done (refl _)
  · split
    · exact .done (refl _)
    · split
      · exact .done ((refl _).wholeReset)
      · exact .done (ite (refl _).set (emit (syncGpio (refl _).set)))

theorem execFaultLogSummary_runs (s : State) : Runs s (execFaultLogSummary s) :=
  .awake (.ite (.done (refl _)) (.done ((refl _).faultSummary)))

theorem execAgeingSample_runs (s : State) {margins : List (HwUnit × BitVec 8)} : Runs s (execAgeingSample margins s) :=
  .awake (.done ((refl _).set))

theorem execRegrowTrigger_runs (s : State) {u1 : HwUnit} {k : TriggerKind} : Runs s (execRegrowTrigger u1 k s) := by
  unfold execRegrowTrigger
  dsimp only
  refine .awake ?_
  split
  · split
    · split
      · exact .done (refl _)
      · split
        · exact .done (callRegrow (ite (refl _).raise (refl _)))
        · exact .done (ite (refl _).raise (refl _))
    · split
      · exact .done (refl _)
      · split
        · exact .done (callRegrow (ite (refl _).raise (refl _)))
        · exact .done (ite (refl _).raise (refl _))
  · split
    · exact .done (refl _)
    · split
      · exact .done (callRegrow (ite (refl _).raise (refl _)))
      · exact .done (ite (refl _).raise (refl _))
  · split
    · exact .done (refl _)
    · split
      · exact .done (callRegrow (ite (refl _).raise (refl _)))
      · exact .done (ite (refl _).raise (refl _))
  · split
    · exact .done (refl _)
    · split
      · exact .done (callRegrow (ite (refl _).raise (refl _)))
      · exact .done (ite (refl _).raise (refl _))

theorem execRegrowRequest_runs (s : State) : Runs s (execRegrowRequest s) := by
  unfold execRegrowRequest
  dsimp only
  refine .awake ?_
  split
  · exact .done (refl _)
  · split
    · exact .done ((refl _).set)
    · split
      · exact .done ((refl _).set)
      · exact .done (callRegrow (refl _).set)

theorem execSpareSelfTestDone_runs (s : State) {ok : Bool} : Runs s (execSpareSelfTestDone ok s) := by
  unfold execSpareSelfTestDone
  refine .awake ?_
  split
  · exact .done (refl _)
  · split
    · exact .done ((refl _).set)
    · exact .done (noSpare (setSparing (refl _).set))

theorem execUnitSwap_runs (s : State) : Runs s (execUnitSwap s) := by
  unfold execUnitSwap
  dsimp only
  refine .awake ?_
  split
  · exact .done (refl _)
  · split
    · exact .done (outOfService (refl _).set)
    · exact .done (regrown (powerDown (setSparing (laneHalfDown (resetUnitBobs (drainUnit (handOver (refl _).set)))))))
    · exact .done ((refl _).set)

theorem execCoreWatchdogExpiry_runs (s : State) {k : Fin 16} : Runs s (execCoreWatchdogExpiry k s) :=
  .awake (.ite (.done (refl _)) (.done ((refl _).reportNone)))

theorem execTemperatureLimit_runs (s : State) {tj : ℤ} : Runs s (execTemperatureLimit tj s) :=
  .awake (.ite (.done (reportNone (set (refl _).setTj))) (.done ((refl _).setTj)))

theorem execThermalTrip_runs (s : State) {tj : ℤ} {heldNs : ℕ} : Runs s (execThermalTrip tj heldNs s) :=
  .awake (.ite (.done (reportNone (refl _).setTj)) (.done ((refl _).setTj)))

theorem execGpioInputAccept_runs (s : State) {n : Fin 16} {level : Bool} {heldUs : ℕ} {chatter : Word} :
    Runs s (execGpioInputAccept n level heldUs chatter s) :=
  .awake (.ite (.done ((refl _).set)) (.done (raise (refl _).set)))

theorem execGpioStuck_runs (s : State) {n : Fin 16} : Runs s (execGpioStuck n s) := by
  unfold execGpioStuck
  dsimp only
  refine .awake ?_
  split
  · exact .done (raise (refl _).set)
  · exact .done (refl _)

theorem execPairAliveToggle_runs (s : State) : Runs s (execPairAliveToggle s) :=
  .awake (.ite (.done (refl _)) (.done (emit (refl _).set)))

theorem execPairAliveLost_runs (s : State) : Runs s (execPairAliveLost s) :=
  .awake (.done ((refl _).set))

theorem execCroakSend_runs (s : State) : Runs s (execCroakSend s) :=
  .awake (.ite (.done (refl _)) (.done (ite (refl _).croak.emit (refl _).croak)))

theorem execCroakReceive_runs (s : State) {payload : Bytes} (hc : (Instr.croakReceive payload).wellFormed = true) :
    Runs s (execCroakReceive payload s) := by
  unfold execCroakReceive
  refine .awake ?_
  refine .guarded hc ?_
  split
  · exact .done (refl _)
  · exact .done ((refl _).takeCroak.pairChanged)

theorem execPartnerSilent_runs (s : State) : Runs s (execPartnerSilent s) := by
  unfold execPartnerSilent
  dsimp only
  refine .awake ?_
  split
  · split
    · split
      · exact .done (refl _)
      · exact .done (pairChanged (silentAlive (pairCount (refl _).set)))
    · split
      · exact .done (refl _)
      · exact .done (pairChanged (silentAlive (pairCount (refl _).set)))
  · split
    · split
      · exact .done (refl _)
      · exact .done (pairChanged (silentAlive (pairCount (refl _).set)))
    · split
      · exact .done (refl _)
      · exact .done (pairChanged (silentAlive (pairCount (refl _).set)))

theorem execTakeover_runs (s : State) : Runs s (execTakeover s) := by
  unfold execTakeover
  refine .awake ?_
  split
  · exact .done (refl _)
  · split
    · exact .done ((refl _).pairEvent)
    · exact .done ((refl _).takeOver)

theorem execTakeoverAnnounceRepeat_runs (s : State) : Runs s (execTakeoverAnnounceRepeat s) := by
  unfold execTakeoverAnnounceRepeat
  refine .awake ?_
  split
  · exact .done (refl _)
  · split
    · exact .done (refl _)
    · exact .done (ite (announceAddresses (refl _).set) (refl _).set)

theorem execGavonJournalRecord_runs (s : State) {seq : BitVec 64} {entries : List MirrorEntry} :
    Runs s (execGavonJournalRecord seq entries s) := by
  unfold execGavonJournalRecord
  dsimp only
  refine .awake ?_
  split
  · exact .done (refl _)
  · split
    · exact .done (refl _)
    · split
      · exact .done ((refl _).fallBehind.pairChanged)
      · split
        · exact .done ((refl _).takeMirrored)
        · split
          · exact .done ((refl _).emit)
          · split
            · exact .done ((refl _).takeMirrored)
            · exact .done (emit (reportNone (refl _).set))

theorem execGavonLearnDelta_runs (s : State) {d : LearnDelta} : Runs s (execGavonLearnDelta d s) :=
  .awake (.ite (.done ((refl _).applyDelta.logLearn)) (.done (refl _)))

theorem execGavonStreamRecord_runs (s : State) {stream : BitVec 16} {header : Bytes} :
    Runs s (execGavonStreamRecord stream header s) :=
  .awake (.ite (.done ((refl _).streamArrives)) (.done (refl _)))

theorem execGavonTime_runs (s : State) {t1 : MirrorTime} : Runs s (execGavonTime t1 s) :=
  .awake (.ite (.done ((refl _).mirrorTime)) (.done (refl _)))

theorem execRelayedRequest_runs (s : State) {se : Session} {ws : List RelayWrite} : Runs s (execRelayedRequest se ws s) :=
  .awake (.ite (.done ((refl _).pairCount.arrive)) (.done (settleDict (foldl (refl _) fun _ _ hu => hu.relayAnswer))))

theorem execMirrorConfirm_runs (s : State) {seq : BitVec 64} : Runs s (execMirrorConfirm seq s) :=
  .awake (.ite (.done (refl _)) (.done ((refl _).set)))

theorem execGavonLinkUp_runs (s : State) {halfB : Bool} : Runs s (execGavonLinkUp halfB s) := by
  unfold execGavonLinkUp
  refine .awake ?_
  exact .done (pairChanged (ite (refl _).set (ite (resend (refl _).set) (ite (ite (fallBehind (freed (refl _).set)) (freed (refl
    _).set)) (refl _).set))))

theorem execGavonLinkDown_runs (s : State) {halfB : Bool} : Runs s (execGavonLinkDown halfB s) :=
  .awake (.done (pairChanged (refl _).set))

theorem execRoleDecision_runs (s : State) : Runs s (execRoleDecision s) := by
  unfold execRoleDecision
  dsimp only
  refine .awake ?_
  split
  · exact .done (refl _)
  · split
    · exact .done (refl _)
    · split
      · split
        · exact .done (refl _)
        · exact .done (pairEvent (refl _).set)
      · exact .done (pairChanged (ite (storeRole (refl _).set) (startContexts (storeRole (refl _).set))))
      · exact .done (pairChanged (ite (refl _).stopServing (storeRole (refl _).set)))

theorem execResyncFrame_runs (s : State) {r : Resync} : Runs s (execResyncFrame r s) :=
  .awake (.ite (.done (refl _)) (.done (takeResync (freed (set (ite (refl _) (refl _).discardMirrored.pairCount))))))

theorem execResyncComplete_runs (s : State) : Runs s (execResyncComplete s) :=
  .awake (.ite (.done (refl _)) (.done (pairChanged (storeRole (refl _).set))))

theorem execSwitchover_runs (s : State) : Runs s (execSwitchover s) := by
  unfold execSwitchover
  dsimp only
  refine .awake ?_
  split
  · split
    · refine .done ?_
      refine emit ?_
      split
      · rename_i e2
        exact (refl _).takeAct e2
      · exact refl _
    · refine .done ?_
      split
      · rename_i e2
        exact (refl _).takeAct e2
      · exact refl _
  · split
    · refine .done ?_
      split
      · rename_i e2
        exact (refl _).takeAct e2
      · exact refl _
    · split
      · refine .done ?_
        split
        · rename_i e3
          exact (refl _).takeAct e3
        · exact refl _
      · split
        · rename_i e3
          split
          · exact .done (pairChanged (handOver2 ((refl _).takeAct e3).set))
          · exact .done (((refl _).takeAct e3).set)
        · split
          · exact .done (pairChanged (handOver2 (refl _).set))
          · exact .done ((refl _).set)

theorem execClearPairState_runs (s : State) : Runs s (execClearPairState s) := by
  unfold execClearPairState
  refine .awake ?_
  split
  · exact .done (refl _)
  · rename_i e
    refine .done ?_
    refine pairChanged ?_
    split
    · split
      · exact ((refl _).takeAct e).stopServing.set
      · exact same ((refl _).takeAct e).stopServing
    · split
      · exact ((refl _).takeAct e).set
      · exact same ((refl _).takeAct e)

theorem execReferenceInputGood_runs (s : State) {i : RefInput} : Runs s (execReferenceInputGood i s) := by
  unfold execReferenceInputGood
  refine .awake ?_
  split
  · exact .done (refl _)
  · split
    · exact .done (ite (refl _) (refl _).set)
    · exact .done ((refl _).set)

theorem execTemperatureLimitCleared_runs (s : State) {tj : ℤ} : Runs s (execTemperatureLimitCleared tj s) :=
  .awake (.ite (.done (syncErr (set (refl _).setTj))) (.done ((refl _).setTj)))

theorem execThermalResetRelease_runs (s : State) {tj : ℤ} {st : Straps} : Runs s (execThermalResetRelease tj st s) :=
  .ite (.done (set (refl _).setTj)) (.done ((refl _).setTj))

theorem snapshot_faultLog (st : Store) (g : Learned) : (st.snapshot g).faultLog = st.faultLog := by
  unfold Store.snapshot
  split
  · split
    · rfl
    · rfl
  · rfl
  · rfl

theorem execSnapshotVerified_runs (s : State) : Runs s (execSnapshotVerified s) := by
  unfold execSnapshotVerified
  refine .awake ?_
  split
  · exact .done (same (refl s) (snapshot_faultLog _ _))
  · exact .done (refl _)

theorem execCanBusOff_runs (s : State) {on : Bool} : Runs s (execCanBusOff on s) :=
  .awake (.done (syncErr (refl _).set))

theorem execSecondsCountApply_runs (s : State) : Runs s (execSecondsCountApply s) := by
  unfold execSecondsCountApply
  refine .awake ?_
  split
  · exact .done (refl _)
  · split
    · exact .done (refl _)
    · exact .done ((refl _).heldDone.setCount)

theorem execPairAliveRestored_runs (s : State) : Runs s (execPairAliveRestored s) :=
  .awake (.done (ite (silentAlive (refl _).set) (refl _).set))

theorem execSyncReceive_runs (s : State) {port1 : Fin 16} {offsetNs : ℤ} : Runs s (execSyncReceive port1 offsetNs s) :=
  .awake (.ite (.done (askDelay (steer (refl _).takeArrival.set))) (.done ((refl _).dropArrival)))

theorem execBoundaryScan_runs (s : State) : Runs s (execBoundaryScan s) :=
  .done ((refl _).setFree)

end Sys2Proof.Proofs.Keeps
end

section
/-! PROOFS. The invariants of a step, and which commands complete: the outcomes of every command, and what a step keeps. -/

open Sys2Proof Sys2Proof.Machine

-- One proof at a time: a thread for each proof would pass the limit that the check sets to memory.
set_option Elab.async false

namespace Sys2Proof.Proofs

variable {c : Instr} {s t : State}

/-! ### Well-formed commands complete -/

theorem masterOk_of (hc : c.wellFormed = true) {m : Master} (hm : m ∈ c.masters) : masterOk m = true :=
  List.all_eq_true.1 (Bool.and_eq_true_iff.1 hc).1 m hm

open Keeps in
/-- Every well-formed command answers a next state that keeps the invariants of a step. -/
theorem exec_runs (c : Instr) (s : State) (hc : c.wellFormed = true) : Runs s (exec c s) := by
  cases c with
  | powerOnReset _ => exact execPowerOnReset_runs s
  | pinReset _ _ => exact execPinReset_runs s
  | restartRequest _ => exact execRestartRequest_runs s
  | hostReset => exact execHostReset_runs s
  | bootWatchdogExpiry _ => exact execBootWatchdogExpiry_runs s
  | recoveryWatchdogExpiry _ => exact execRecoveryWatchdogExpiry_runs s
  | pllsLocked => exact execPllsLocked_runs s
  | sramRepair => exact execSramRepair_runs s
  | persistentStoreMount _ _ _ => exact execPersistentStoreMount_runs s
  | hbmTrained => exact execHbmTrained_runs s
  | journalReplay => exact execJournalReplay_runs s
  | selvedgeEnable => exact execSelvedgeEnable_runs s
  | timeUnitStart => exact execTimeUnitStart_runs s
  | ddr5Trained _ => exact execDdr5Trained_runs s
  | firmwareLoad => exact execFirmwareLoad_runs s
  | bootGo _ => exact execBootGo_runs s (masterOk_of hc (.head _))
  | bootWindowWrite _ _ _ => exact execBootWindowWrite_runs s hc
  | bootComplete => exact execBootComplete_runs s
  | leaveNewt _ => exact execLeaveNewt_runs s
  | firmwareSlotWrite _ _ _ _ => exact execFirmwareSlotWrite_runs s
  | firmwareSlotVerified _ => exact execFirmwareSlotVerified_runs s
  | servicePress => exact execServicePress_runs s
  | serviceRelease => exact execServiceRelease_runs s
  | serviceHold5s _ => exact execServiceHold5s_runs s
  | serviceHold15s _ _ => exact execServiceHold15s_runs s
  | serviceStuck => exact execServiceStuck_runs s
  | pwrfailWarning => exact execPwrfailWarning_runs s
  | shutdownRecord => exact execShutdownRecord_runs s
  | brownout => exact execBrownout_runs s
  | learnLogCapture => exact execLearnLogCapture_runs s
  | learnLogSegmentDone => exact execLearnLogSegmentDone_runs s
  | snapshotWrite => exact execSnapshotWrite_runs s
  | railMonitorTrip rail _ _ => exact execRailMonitorTrip_runs s rail
  | regulatorPoll _ => exact execRegulatorPoll_runs s hc
  | dictRead _ _ _ => exact execDictRead_runs s
  | dictWrite _ _ _ _ => exact execDictWrite_runs s
  | cursorWrite _ _ _ => exact execCursorWrite_runs s
  | writeGroup _ _ => exact execWriteGroup_runs s
  | domainSegmentWrite _ _ _ _ _ => exact execDomainSegmentWrite_runs s
  | domainFinalWrite _ _ _ _ _ => exact execDomainFinalWrite_runs s
  | domainRead _ _ _ _ _ => exact execDomainRead_runs s
  | journalRecordClose => exact execJournalRecordClose_runs s
  | journalCommit _ => exact execJournalCommit_runs s
  | parameterImageWrite _ => exact execParameterImageWrite_runs s
  | wearLevellerCopy => exact execWearLevellerCopy_runs s
  | usdoRequest _ _ => exact execUsdoRequest_runs s
  | nmtStart => exact execNmtStart_runs s
  | nmtStop => exact execNmtStop_runs s
  | nmtEnterPreoperational => exact execNmtEnterPreoperational_runs s
  | nmtResetCommunication => exact execNmtResetCommunication_runs s
  | nmtResetNode => exact execNmtResetNode_runs s
  | canopenHeartbeat => exact execCanopenHeartbeat_runs s
  | dictDatagram _ _ _ _ _ => exact execDictDatagram_runs s hc
  | dwRead _ _ => exact execDwRead_runs s (masterOk_of hc (.head _))
  | dwWrite _ _ => exact execDwWrite_runs s (masterOk_of hc (.head _))
  | dwFinalDomainWrite _ _ => exact execDwFinalDomainWrite_runs s (masterOk_of hc (.head _))
  | dwStagedWrite _ _ => exact execDwStagedWrite_runs s (masterOk_of hc (.head _))
  | registerWrite _ _ _ _ _ _ => exact execRegisterWrite_runs s (masterOk_of hc (.head _))
  | rcRead _ _ _ _ => exact execRcRead_runs s (masterOk_of hc (.head _))
  | wideLoRead _ _ => exact execWideLoRead_runs s (masterOk_of hc (.head _))
  | wideHiRead _ _ => exact execWideHiRead_runs s (masterOk_of hc (.head _))
  | wideLoWrite _ _ _ => exact execWideLoWrite_runs s (masterOk_of hc (.head _))
  | wideHiWrite _ _ _ => exact execWideHiWrite_runs s (masterOk_of hc (.head _))
  | unlockKey _ _ => exact execUnlockKey_runs s (masterOk_of hc (.head _))
  | errInjectGo _ _ => exact execErrInjectGo_runs s (masterOk_of hc (.head _))
  | scratchInjectedRead _ => exact execScratchInjectedRead_runs s (masterOk_of hc (.head _))
  | indirectDataRead _ _ => exact execIndirectDataRead_runs s (masterOk_of hc (.head _))
  | indirectDataWrite _ _ _ => exact execIndirectDataWrite_runs s (masterOk_of hc (.head _))
  | indirectComplete _ _ => exact execIndirectComplete_runs s
  | indirectTimeout _ => exact execIndirectTimeout_runs s
  | bobbinWrite _ _ => exact execBobbinWrite_runs s
  | bobbinRead _ _ => exact execBobbinRead_runs s
  | slotBoundary _ => exact execSlotBoundary_runs s
  | tileTake _ _ _ => exact execTileTake_runs s
  | battenFrameStart _ _ => exact execBattenFrameStart_runs s
  | ctuCompose _ _ => exact execCtuCompose_runs s
  | battenFrameEnd _ _ => exact execBattenFrameEnd_runs s
  | laneCtuStart _ _ _ _ => exact execLaneCtuStart_runs s
  | laneRequest _ _ => exact execLaneRequest_runs s
  | laneCtuEnd _ _ _ => exact execLaneCtuEnd_runs s
  | skipRunCtu _ => exact execSkipRunCtu_runs s
  | rowClose _ => exact execRowClose_runs s
  | ctuFinal _ _ _ => exact execCtuFinal_runs s
  | frameFinal _ _ _ => exact execFrameFinal_runs s
  | frameOpenTimeout _ => exact execFrameOpenTimeout_runs s
  | battenSilenceTimeout _ => exact execBattenSilenceTimeout_runs s
  | flushApply _ => exact execFlushApply_runs s
  | packetForm _ _ => exact execPacketForm_runs s
  | packetReplicate _ _ _ _ => exact execPacketReplicate_runs s
  | schedulerDecision _ => exact execSchedulerDecision_runs s
  | blockAllocate _ _ _ => exact execBlockAllocate_runs s (masterOk_of hc (.head _))
  | blockName _ _ _ _ => exact execBlockName_runs s (masterOk_of hc (.head _))
  | blockRelease _ _ _ => exact execBlockRelease_runs s (masterOk_of hc (.head _))
  | surfaceTableCommit _ => exact execSurfaceTableCommit_runs s
  | settle => exact execSettle_runs s
  | prefetch _ => exact execPrefetch_runs s
  | blockMove _ _ _ => exact execBlockMove_runs s
  | movedFrameFree => exact execMovedFrameFree_runs s
  | streamStart _ => exact execStreamStart_runs s
  | poolAudit => exact execPoolAudit_runs s
  | poolAuditPass => exact execPoolAuditPass_runs s
  | decodePacket _ _ => exact execDecodePacket_runs s
  | reorderTimeout _ => exact execReorderTimeout_runs s
  | ssrcRelock _ => exact execSsrcRelock_runs s
  | st2110Frame _ _ => exact execSt2110Frame_runs s
  | decodeTake _ _ _ _ => exact execDecodeTake_runs s
  | decodePictureEnd _ _ _ => exact execDecodePictureEnd_runs s
  | timedOutputCommit _ => exact execTimedOutputCommit_runs s
  | microwordExecute _ => exact execMicrowordExecute_runs s
  | treadleInterrupt _ => exact execTreadleInterrupt_runs s
  | treadleEvent _ _ => exact execTreadleEvent_runs s
  | treadleFault _ _ => exact execTreadleFault_runs s
  | safePointTimeout _ => exact execSafePointTimeout_runs s
  | treadleRestart _ => exact execTreadleRestart_runs s
  | patchApply _ => exact execPatchApply_runs s
  | packetReceive _ _ => exact execPacketReceive_runs s hc
  | classify _ _ _ _ _ => exact execClassify_runs s
  | reorderRelease _ => exact execReorderRelease_runs s
  | lengthStomp _ => exact execLengthStomp_runs s
  | learnEvent _ => exact execLearnEvent_runs s
  | agingScan => exact execAgingScan_runs s
  | macSearch _ => exact execMacSearch_runs s
  | macNext => exact execMacNext_runs s
  | macInsert _ => exact execMacInsert_runs s
  | macDelete _ => exact execMacDelete_runs s
  | macFlushByPort _ => exact execMacFlushByPort_runs s
  | macFlushAll _ => exact execMacFlushAll_runs s
  | prefixInsert => exact execPrefixInsert_runs s
  | prefixDelete => exact execPrefixDelete_runs s
  | prefixExactSearch => exact execPrefixExactSearch_runs s
  | prefixLongestMatch _ => exact execPrefixLongestMatch_runs s
  | prefixNext => exact execPrefixNext_runs s
  | rulesetActivate => exact execRulesetActivate_runs s
  | snoopReport _ _ _ => exact execSnoopReport_runs s
  | snoopLeave _ _ _ => exact execSnoopLeave_runs s
  | snoopQueryReceived _ _ _ _ => exact execSnoopQueryReceived_runs s
  | membershipExpiry _ _ _ => exact execMembershipExpiry_runs s
  | generalQuerySend _ => exact execGeneralQuerySend_runs s
  | linkDown _ => exact execLinkDown_runs s
  | linkUp _ => exact execLinkUp_runs s
  | touchDatagram _ _ => exact execTouchDatagram_runs s hc
  | touchEvent _ _ => exact execTouchEvent_runs s
  | touchStuck _ _ => exact execTouchStuck_runs s
  | presenceScan => exact execPresenceScan_runs s
  | rtcpReceive _ _ _ => exact execRtcpReceive_runs s hc
  | sealCheck => exact execSealCheck_runs s
  | sealRecordWaitTimeout => exact execSealRecordWaitTimeout_runs s
  | ppsInEdge _ => exact execPpsInEdge_runs s
  | ppsMissing => exact execPpsMissing_runs s
  | referenceInputLost _ => exact execReferenceInputLost_runs s
  | holdoverLimitCrossed => exact execHoldoverLimitCrossed_runs s
  | timeStep => exact execTimeStep_runs s
  | setSeconds => exact execSetSeconds_runs s
  | announceSend _ => exact execAnnounceSend_runs s
  | syncSend _ _ => exact execSyncSend_runs s
  | delayReq _ _ _ _ _ => exact execDelayReq_runs s
  | foreignAnnounce _ _ => exact execForeignAnnounce_runs s
  | announceReceiptTimeout => exact execAnnounceReceiptTimeout_runs s
  | syncMetadataSend _ => exact execSyncMetadataSend_runs s
  | ppsOutEdge => exact execPpsOutEdge_runs s
  | todLine => exact execTodLine_runs s
  | sqDoorbell _ _ => exact execSqDoorbell_runs s
  | cqDoorbell _ _ => exact execCqDoorbell_runs s
  | sqEnable _ _ _ => exact execSqEnable_runs s (masterOk_of hc (.head _))
  | sqDisable _ _ _ => exact execSqDisable_runs s (masterOk_of hc (.head _))
  | sqReset _ _ => exact execSqReset_runs s (masterOk_of hc (.head _))
  | cqEnable _ _ _ => exact execCqEnable_runs s (masterOk_of hc (.head _))
  | cqDisable _ _ _ => exact execCqDisable_runs s (masterOk_of hc (.head _))
  | cqReset _ _ => exact execCqReset_runs s (masterOk_of hc (.head _))
  | entryFetch _ _ => exact execEntryFetch_runs s
  | dispatch => exact execDispatch_runs s
  | nop _ => exact execNop_runs s
  | surfaceLoad _ _ => exact execSurfaceLoad_runs s
  | surfaceFree _ => exact execSurfaceFree_runs s
  | surfaceRead _ _ _ => exact execSurfaceRead_runs s
  | bitstream _ _ => exact execBitstream_runs s
  | packetSend _ _ => exact execPacketSend_runs s
  | receivePost _ _ => exact execReceivePost_runs s
  | jobComplete _ => exact execJobComplete_runs s
  | dmaGo _ _ => exact execDmaGo_runs s (masterOk_of hc (.head _))
  | dmaPause _ _ => exact execDmaPause_runs s (masterOk_of hc (.head _))
  | dmaResume _ _ => exact execDmaResume_runs s (masterOk_of hc (.head _))
  | dmaAbort _ _ => exact execDmaAbort_runs s (masterOk_of hc (.head _))
  | dmaDone _ _ _ => exact execDmaDone_runs s
  | dmaAccessError _ _ _ _ => exact execDmaAccessError_runs s
  | dmaHaltedClear _ => exact execDmaHaltedClear_runs s (masterOk_of hc (.head _))
  | interruptRaise _ _ _ _ => exact execInterruptRaise_runs s (masterOk_of hc (.head _))
  | interruptClaim _ _ => exact execInterruptClaim_runs s (masterOk_of hc (.head _))
  | interruptComplete _ _ _ => exact execInterruptComplete_runs s (masterOk_of hc (.head _))
  | pendSet _ _ _ _ => exact execPendSet_runs s (masterOk_of hc (.head _))
  | pendClr _ _ _ _ _ => exact execPendClr_runs s (masterOk_of hc (.head _))
  | maskSet _ _ _ _ => exact execMaskSet_runs s (masterOk_of hc (.head _))
  | maskClr _ _ _ _ => exact execMaskClr_runs s (masterOk_of hc (.head _))
  | sgi _ _ _ => exact execSgi_runs s (masterOk_of hc (.head _))
  | moderationExpiry _ => exact execModerationExpiry_runs s
  | streamLogTake _ _ => exact execStreamLogTake_runs s (masterOk_of hc (.head _))
  | bufferAllocate _ _ _ => exact execBufferAllocate_runs s (masterOk_of hc (.head _))
  | bufferFree _ _ => exact execBufferFree_runs s (masterOk_of hc (.head _))
  | bufferGive _ _ _ => exact execBufferGive_runs s (masterOk_of hc (.head _))
  | bpmMinFreeWrite _ v => exact execBpmMinFreeWrite_runs s v (masterOk_of hc (.head _))
  | bitmapRebuildDone => exact execBitmapRebuildDone_runs s
  | patrolScrub _ _ => exact execPatrolScrub_runs s
  | pseudoChannelRegrow _ _ => exact execPseudoChannelRegrow_runs s
  | pseudoChannelCopyDone _ _ => exact execPseudoChannelCopyDone_runs s
  | rankRetire _ _ => exact execRankRetire_runs s
  | rankMigrationDone _ _ => exact execRankMigrationDone_runs s
  | rankPowerDown _ _ => exact execRankPowerDown_runs s
  | faultReport _ _ _ _ _ => exact execFaultReport_runs s (masterOk_of hc (.head _))
  | faultRecordRelease _ _ _ => exact execFaultRecordRelease_runs s hc
  | errPulseEnd _ => exact execErrPulseEnd_runs s
  | faultLogSummary => exact execFaultLogSummary_runs s
  | ageingSample _ => exact execAgeingSample_runs s
  | regrowTrigger _ _ => exact execRegrowTrigger_runs s
  | regrowRequest => exact execRegrowRequest_runs s
  | spareSelfTestDone _ => exact execSpareSelfTestDone_runs s
  | unitSwap => exact execUnitSwap_runs s
  | coreWatchdogExpiry _ => exact execCoreWatchdogExpiry_runs s
  | temperatureLimit _ => exact execTemperatureLimit_runs s
  | thermalTrip _ _ => exact execThermalTrip_runs s
  | gpioInputAccept _ _ _ _ => exact execGpioInputAccept_runs s
  | gpioStuck _ => exact execGpioStuck_runs s
  | pairAliveToggle => exact execPairAliveToggle_runs s
  | pairAliveLost => exact execPairAliveLost_runs s
  | croakSend => exact execCroakSend_runs s
  | croakReceive _ => exact execCroakReceive_runs s hc
  | partnerSilent => exact execPartnerSilent_runs s
  | takeover => exact execTakeover_runs s
  | takeoverAnnounceRepeat => exact execTakeoverAnnounceRepeat_runs s
  | gavonJournalRecord _ _ => exact execGavonJournalRecord_runs s
  | gavonLearnDelta _ => exact execGavonLearnDelta_runs s
  | gavonStreamRecord _ _ => exact execGavonStreamRecord_runs s
  | gavonTime _ => exact execGavonTime_runs s
  | relayedRequest _ _ => exact execRelayedRequest_runs s
  | mirrorConfirm _ => exact execMirrorConfirm_runs s
  | gavonLinkUp _ => exact execGavonLinkUp_runs s
  | gavonLinkDown _ => exact execGavonLinkDown_runs s
  | roleDecision => exact execRoleDecision_runs s
  | resyncFrame _ => exact execResyncFrame_runs s
  | resyncComplete => exact execResyncComplete_runs s
  | switchover => exact execSwitchover_runs s
  | clearPairState => exact execClearPairState_runs s
  | referenceInputGood _ => exact execReferenceInputGood_runs s
  | temperatureLimitCleared _ => exact execTemperatureLimitCleared_runs s
  | thermalResetRelease _ _ => exact execThermalResetRelease_runs s
  | snapshotVerified => exact execSnapshotVerified_runs s
  | canBusOff _ => exact execCanBusOff_runs s
  | secondsCountApply => exact execSecondsCountApply_runs s
  | pairAliveRestored => exact execPairAliveRestored_runs s
  | syncReceive _ _ => exact execSyncReceive_runs s
  | boundaryScan => exact execBoundaryScan_runs s

/-! ### Ill-formed commands are refused -/

theorem issuedBy_refuses {m : Master} (hm : masterOk m = false) (hawake : asleep s = false) (o : Host.Outcome State Fault Refusal) :
    issuedBy m s o = .refused .illFormed := by
  rw [issuedBy, awake_of hawake, hm]
  rfl

theorem guarded_refuses (hc : c.wellFormed = false) (hawake : asleep s = false) (o : Host.Outcome State Fault Refusal) :
    awake s (guarded c o) = .refused .illFormed := by
  rw [awake_of hawake, guarded, hc]
  rfl

/-- The only check of a command that carries a master and no byte string is the master's. -/
theorem masterOk_eq_false_of {m : Master} (hc : ([m].all masterOk && true) = false) : masterOk m = false := by
  simpa using hc

theorem exec_refuses (c : Instr) (s : State) (hc : c.wellFormed = false) (hawake : asleep s = false) :
    exec c s = .refused .illFormed := by
  cases c
  case bootGo => exact issuedBy_refuses (masterOk_eq_false_of hc) hawake _
  case bootWindowWrite => exact guarded_refuses hc hawake _
  case regulatorPoll => exact guarded_refuses hc hawake _
  case dictDatagram => exact guarded_refuses hc hawake _
  case dwRead => exact issuedBy_refuses (masterOk_eq_false_of hc) hawake _
  case dwWrite => exact issuedBy_refuses (masterOk_eq_false_of hc) hawake _
  case dwFinalDomainWrite => exact issuedBy_refuses (masterOk_eq_false_of hc) hawake _
  case dwStagedWrite => exact issuedBy_refuses (masterOk_eq_false_of hc) hawake _
  case registerWrite => exact issuedBy_refuses (masterOk_eq_false_of hc) hawake _
  case rcRead => exact issuedBy_refuses (masterOk_eq_false_of hc) hawake _
  case wideLoRead => exact issuedBy_refuses (masterOk_eq_false_of hc) hawake _
  case wideHiRead => exact issuedBy_refuses (masterOk_eq_false_of hc) hawake _
  case wideLoWrite => exact issuedBy_refuses (masterOk_eq_false_of hc) hawake _
  case wideHiWrite => exact issuedBy_refuses (masterOk_eq_false_of hc) hawake _
  case unlockKey => exact issuedBy_refuses (masterOk_eq_false_of hc) hawake _
  case errInjectGo => exact issuedBy_refuses (masterOk_eq_false_of hc) hawake _
  case scratchInjectedRead => exact issuedBy_refuses (masterOk_eq_false_of hc) hawake _
  case indirectDataRead => exact issuedBy_refuses (masterOk_eq_false_of hc) hawake _
  case indirectDataWrite => exact issuedBy_refuses (masterOk_eq_false_of hc) hawake _
  case blockAllocate => exact issuedBy_refuses (masterOk_eq_false_of hc) hawake _
  case blockName => exact issuedBy_refuses (masterOk_eq_false_of hc) hawake _
  case blockRelease => exact issuedBy_refuses (masterOk_eq_false_of hc) hawake _
  case packetReceive => exact guarded_refuses hc hawake _
  case touchDatagram => exact guarded_refuses hc hawake _
  case rtcpReceive => exact guarded_refuses hc hawake _
  case sqEnable => exact issuedBy_refuses (masterOk_eq_false_of hc) hawake _
  case sqDisable => exact issuedBy_refuses (masterOk_eq_false_of hc) hawake _
  case sqReset => exact issuedBy_refuses (masterOk_eq_false_of hc) hawake _
  case cqEnable => exact issuedBy_refuses (masterOk_eq_false_of hc) hawake _
  case cqDisable => exact issuedBy_refuses (masterOk_eq_false_of hc) hawake _
  case cqReset => exact issuedBy_refuses (masterOk_eq_false_of hc) hawake _
  case dmaGo => exact issuedBy_refuses (masterOk_eq_false_of hc) hawake _
  case dmaPause => exact issuedBy_refuses (masterOk_eq_false_of hc) hawake _
  case dmaResume => exact issuedBy_refuses (masterOk_eq_false_of hc) hawake _
  case dmaAbort => exact issuedBy_refuses (masterOk_eq_false_of hc) hawake _
  case dmaHaltedClear => exact issuedBy_refuses (masterOk_eq_false_of hc) hawake _
  case interruptRaise => exact issuedBy_refuses (masterOk_eq_false_of hc) hawake _
  case interruptClaim => exact issuedBy_refuses (masterOk_eq_false_of hc) hawake _
  case interruptComplete => exact issuedBy_refuses (masterOk_eq_false_of hc) hawake _
  case pendSet => exact issuedBy_refuses (masterOk_eq_false_of hc) hawake _
  case pendClr => exact issuedBy_refuses (masterOk_eq_false_of hc) hawake _
  case maskSet => exact issuedBy_refuses (masterOk_eq_false_of hc) hawake _
  case maskClr => exact issuedBy_refuses (masterOk_eq_false_of hc) hawake _
  case sgi => exact issuedBy_refuses (masterOk_eq_false_of hc) hawake _
  case streamLogTake => exact issuedBy_refuses (masterOk_eq_false_of hc) hawake _
  case bufferAllocate => exact issuedBy_refuses (masterOk_eq_false_of hc) hawake _
  case bufferFree => exact issuedBy_refuses (masterOk_eq_false_of hc) hawake _
  case bufferGive => exact issuedBy_refuses (masterOk_eq_false_of hc) hawake _
  case bpmMinFreeWrite => exact issuedBy_refuses (masterOk_eq_false_of hc) hawake _
  case faultReport => exact issuedBy_refuses (masterOk_eq_false_of hc) hawake _
  case faultRecordRelease => exact guarded_refuses hc hawake _
  case croakReceive => exact guarded_refuses hc hawake _
  all_goals exact nomatch (show true = false from hc)

/-- Settles O49: by cases of the command, the well-formed ones through what each operation keeps. -/
theorem noCommandStops : Obligations.NoCommandStops := by
  refine ⟨fun c s hc => ?_, exec_refuses⟩
  obtain ⟨t, ht, -⟩ := exec_runs c s hc
  exact ⟨t, ht⟩

/-! ### A device that sleeps -/

/-- Settles O56: every command that is not of the pins, the rails or the release begins with the question whether the device sleeps. -/
theorem disconnectedCoreIgnoresCommands : Obligations.DisconnectedCoreIgnoresCommands := by
  intro c s hasleep hinside
  cases c
  case powerOnReset => exact nomatch (show true = false from hinside)
  case pinReset => exact nomatch (show true = false from hinside)
  case railMonitorTrip => exact nomatch (show true = false from hinside)
  case servicePress => exact nomatch (show true = false from hinside)
  case serviceRelease => exact nomatch (show true = false from hinside)
  case pwrfailWarning => exact nomatch (show true = false from hinside)
  case brownout => exact nomatch (show true = false from hinside)
  case thermalResetRelease => exact nomatch (show true = false from hinside)
  case boundaryScan => exact nomatch (show true = false from hinside)
  all_goals exact asleep_of hasleep _

/-! ### What commands and steps keep -/

theorem wellFormed_of_outsideCore (h : outsideCore c = true) : c.wellFormed = true := by
  cases c
  case powerOnReset => rfl
  case pinReset => rfl
  case railMonitorTrip => rfl
  case servicePress => rfl
  case serviceRelease => rfl
  case pwrfailWarning => rfl
  case brownout => rfl
  case thermalResetRelease => rfl
  case boundaryScan => rfl
  all_goals exact nomatch (show false = true from h)

/-- A command that answers a next state keeps the invariants, well formed or not: an ill-formed one answers one only in its sleep. -/
theorem exec_keeps (h : exec c s = .next t) : Keeps s t := by
  by_cases hc : c.wellFormed = true
  · obtain ⟨u, hu, hkeeps⟩ := exec_runs c s hc
    rw [h] at hu
    cases hu
    exact hkeeps
  · have hill : c.wellFormed = false := Bool.eq_false_iff.2 hc
    cases hasleep : asleep s with
    | false => rw [exec_refuses c s hill hasleep] at h; cases h
    | true =>
      have hinside : outsideCore c = false := Bool.eq_false_iff.2 fun hout => hc (wellFormed_of_outsideCore hout)
      rw [disconnectedCoreIgnoresCommands c s hasleep hinside] at h
      cases h
      exact .refl s

/-- Settles O50. -/
theorem commandsLeaveQueueAndClock : Obligations.CommandsLeaveQueueAndClock :=
  fun _ _ _ h => ⟨(exec_keeps h).pending, (exec_keeps h).now⟩

theorem prefix_ite {α : Type} {c : Prop} [Decidable c] (l r : List α) : l <+: if c then l ++ r else l := by
  split
  · exact List.prefix_append l r
  · exact List.prefix_rfl

/-- A nanosecond keeps the invariants: it writes neither memory, pool nor store, and emits at most the fall of `PPS_OUT`. -/
theorem tick_keeps (s : State) : Keeps { s with clk := s.tick.clk } s.tick := by
  obtain ⟨v, q, htick⟩ := tick_only s
  have hclock : Keeps { s with clk := s.clockTick.clk } s.clockTick := by
    exact .same (.refl _) rfl (prefix_ite _ _) rfl rfl rfl rfl rfl
  rw [htick]
  exact hclock.set

/-- But for the queue and the clock a step keeps the invariants: it is a command on the rest of the queue, or a nanosecond. -/
theorem step_keeps (h : step s = .next t) : Keeps { s with pending := t.pending, clk := t.clk } t := by
  unfold step at h
  split at h
  · cases h
    have hpending : s.tick.pending = s.pending := (tick_keeps s).pending
    rw [hpending]
    exact tick_keeps s
  · have hrest := exec_keeps h
    exact ⟨hrest.mem, hrest.bpm, hrest.log, hrest.out, rfl, rfl⟩

/-- Settles O52. -/
theorem everyStepKeepsDeviceMemoryCanonical : Obligations.EveryStepKeepsDeviceMemoryCanonical :=
  fun _ _ hs h => (step_keeps h).mem hs

/-- Settles O53. -/
theorem everyStepKeepsBuffersCounted : Obligations.EveryStepKeepsBuffersCounted :=
  fun _ _ hs h => (step_keeps h).bpm hs

/-- Settles O54. -/
theorem everyStepBoundsTheFaultLog : Obligations.EveryStepBoundsTheFaultLog :=
  fun _ _ hs h => (step_keeps h).log hs

/-- Settles O51. -/
theorem outputsAreNeverTakenBack : Obligations.OutputsAreNeverTakenBack :=
  fun _ _ h => (step_keeps h).out

end Sys2Proof.Proofs
end

section
/-! PROOFS. Steps and their clock: the front command, the idle nanosecond, the reset state, and the seals of endpoints. -/

open Sys2Proof Sys2Proof.Machine

-- One proof at a time: a thread for each proof would pass the limit that the check sets to memory.
set_option Elab.async false

namespace Sys2Proof.Proofs

/-- Settles O47: the step takes the front command off the queue before it runs it. -/
theorem stepRunsTheFrontCommand : Obligations.StepRunsTheFrontCommand := fun _ _ _ => rfl

theorem buffersCounted_reset : buffersCounted State.reset := ⟨rfl, rfl, by simp [State.reset]⟩

/-- Settles O55: every block of the reset state is empty. -/
theorem resetStateIsInOrder : Obligations.ResetStateIsInOrder :=
  ⟨State.reset_memWf, buffersCounted_reset, Nat.zero_le _, rfl, rfl, rfl, rfl, rfl, rfl, rfl⟩

/-! ### An idle nanosecond (R55, R313, R379) -/

theorem step_idle {s : State} (h : s.pending = []) : step s = .next s.tick := by
  simp [step, h]

/-- The PTP count and its phase stand until the time unit runs. -/
theorem clockTick_time_of_down {s : State} (h : s.boot.timeUp = false) :
    s.clockTick.time.ptp = s.time.ptp ∧ s.clockTick.time.phase = s.time.phase := by
  simp [State.clockTick, h]

/-- A nanosecond advances the PTP count by one, and by one more or one less where the phase overflows. -/
theorem clockTick_ptp (s : State) : s.time.ptp ≤ s.clockTick.time.ptp ∧ s.clockTick.time.ptp ≤ s.time.ptp + 2 := by
  unfold State.clockTick
  dsimp only
  split
  · dsimp only
    split
    · omega
    · split <;> omega
  · exact ⟨le_rfl, Nat.le_add_right _ _⟩

theorem clockTick_ppsFall {s : State} (h : s.time.ppsFall = none) : s.clockTick.time.ppsFall = none := by
  simp [State.clockTick, h]
  split <;> simp

/-- The clocks' part of a nanosecond: all that it can change. -/
theorem clockTick_frame (s : State) :
    s.clockTick = { s with
      clk := { s.clk with now := s.clk.now + 1 }, out := s.clockTick.out,
      pins := { s.pins with ppsOut := s.clockTick.pins.ppsOut }, boot := { s.boot with recovery := s.clockTick.boot.recovery },
      time := { s.time with ptp := s.clockTick.time.ptp, phase := s.clockTick.time.phase, ppsFall := s.clockTick.time.ppsFall } } := by
  have hboot : s.clockTick.boot = { s.boot with recovery := s.clockTick.boot.recovery } := by
    simp only [State.clockTick]
    split
    · split <;> rfl
    · rfl
  have htime : s.clockTick.time =
      { s.time with ptp := s.clockTick.time.ptp, phase := s.clockTick.time.phase, ppsFall := s.clockTick.time.ppsFall } := by
    simp only [State.clockTick]
    split <;> rfl
  rw [← hboot, ← htime]
  rfl

/-! A frame that waits alone at the ingress pipelines. -/

@[simp] theorem exception_arrivals (s : State) (k : Pkt) (r : Nat) : (s.exception k r).selv.arrivals = s.selv.arrivals := by
  unfold State.exception
  dsimp only
  split <;> rfl

theorem exception_parsedCount (s : State) (k : Pkt) (r : Nat) :
    lookD 0 (s.exception k r).selv.counters 1 = lookD 0 s.selv.counters 1 := by
  unfold State.exception
  dsimp only
  split
  · exact lookD_put_ne 0 _ _ (by decide)
  · rfl

theorem macPut_selv (v : Selvedge) (p : Nat) (e : MacEntry) :
    (macPut v p e).arrivals = v.arrivals ∧ (macPut v p e).counters = v.counters := by
  unfold macPut
  split <;> exact ⟨rfl, rfl⟩

/-- Lookups that meet no error leave the waiting frames and the counters alone. -/
theorem lookups_selv (s : State) (k : Pkt) :
    (s.lookups k false false).2.selv.arrivals = s.selv.arrivals ∧ (s.lookups k false false).2.selv.counters = s.selv.counters := by
  simp only [State.lookups, State.macBad, if_false, Bool.false_eq_true]
  split
  · split
    · exact macPut_selv ..
    · exact ⟨rfl, rfl⟩
  · exact ⟨rfl, rfl⟩

theorem dispatch_selv (v : Selvedge) : v.dispatch.arrivals = v.arrivals ∧ v.dispatch.counters = v.counters := by
  unfold Selvedge.dispatch
  split
  · dsimp only
    split <;> exact ⟨rfl, rfl⟩
  · exact ⟨rfl, rfl⟩

/-- A parsed frame is counted once, whatever its parsing ends with, and brings no frame to the pipelines. -/
theorem parsed_counts (s : State) (k : Pkt) :
    (s.parsed k).selv.arrivals = s.selv.arrivals ∧ lookD 0 (s.parsed k).selv.counters 1 = lookD 0 s.selv.counters 1 + 1 := by
  have other (t : State) (j : Nat) (hj : j ≠ 1) : lookD 0 (t.selvCount j).selv.counters 1 = lookD 0 t.selv.counters 1 :=
    lookD_put_ne 0 _ _ hj.symm
  have counted : lookD 0 (bump s.selv.counters 1) 1 = lookD 0 s.selv.counters 1 + 1 := lookD_upd_same ..
  unfold State.parsed
  dsimp only
  split
  · exact ⟨(dispatch_selv _).1, by rw [(dispatch_selv _).2]; exact counted⟩
  · constructor
    · exact (dispatch_selv _).1.trans (lookups_selv _ _).1
    · rw [other _ _ (by decide), (dispatch_selv _).2, (lookups_selv _ _).2]
      exact counted
  · constructor
    · exact (dispatch_selv _).1.trans (lookups_selv _ _).1
    · rw [other _ _ (by decide), (dispatch_selv _).2, (lookups_selv _ _).2]
      exact counted
  · next q _ _ _ =>
    have h6 : (if (parseFrame k.data).problem = 4 then 6 else 4) ≠ 1 := by split <;> decide
    split
    · exact ⟨exception_arrivals .., by rw [exception_parsedCount, other _ _ h6]; exact counted⟩
    · exact ⟨rfl, by rw [other _ _ h6]; exact counted⟩

theorem requester_lt (k : Pkt) : k.requester < 5 := by
  unfold Pkt.requester
  split <;> omega

/-- A frame waits alone at the ingress pipelines, with room in its own. -/
structure WaitsAlone (s : State) (k : Pkt) (n : Nat) (count : Nat) : Prop where
  arrivals : s.selv.arrivals = [(k, n)]
  room : s.selv.buffered (k.port / 4) < 128
  count : lookD 0 s.selv.counters 1 = count

/-- No frame waits, and one more has been parsed. -/
def ParsedOne (s : State) (count : Nat) : Prop := s.selv.arrivals = [] ∧ lookD 0 s.selv.counters 1 = count + 1

variable {s : State} {k : Pkt} {n count g : Nat}

/-- A pipeline without a frame of its own takes nothing. -/
theorem serveWord_of_none (h : ∀ q ∈ s.selv.arrivals, q.1.port / 4 ≠ g) : s.serveWord g = s := by
  have hnone (r : Nat) : s.selv.arrivals.find? (fun q => q.1.port / 4 == g && q.1.requester == r) = none := by
    rw [List.find?_eq_none]
    intro q hq
    simp [h q hq]
  have hrot : (((List.range 5).map fun i => (lookD 0 s.selv.pointers g + i) % 5).find? fun _ => false) = none := by
    simp [List.find?_eq_none]
  unfold State.serveWord
  simp only [hnone, Option.isSome_none, hrot, ite_self]

theorem serveWord_of_empty (h : s.selv.arrivals = []) (g : Nat) : s.serveWord g = s :=
  serveWord_of_none (by simp [h])

theorem serveWord_of_other (h : WaitsAlone s k n count) (hg : k.port / 4 ≠ g) : s.serveWord g = s :=
  serveWord_of_none (by simp [h.arrivals, hg])

/-- The rotation of a pipeline's requesters reaches every requester. -/
theorem rotation_reaches (p r : Nat) (hr : r < 5) : r ∈ (List.range 5).map fun i => (p + i) % 5 := by
  simp only [List.mem_map, List.mem_range]
  exact ⟨(r + 4 * p) % 5, Nat.mod_lt _ (by decide), by omega⟩

/-- A pipeline with room takes the word of the only frame that waits: the last one parses it. -/
theorem serveWord_of_own (h : WaitsAlone s k n count) :
    (n ≤ 1 → ParsedOne (s.serveWord (k.port / 4)) count) ∧ (1 < n → WaitsAlone (s.serveWord (k.port / 4)) k (n - 1) count) := by
  obtain ⟨harr, hroom, hcount⟩ := h
  have hfind : (((List.range 5).map fun i => (lookD 0 s.selv.pointers (k.port / 4) + i) % 5).find? fun r => k.requester == r) =
      some k.requester := by
    obtain ⟨r, hr⟩ := Option.isSome_iff_exists.1
      (List.find?_isSome.2 ⟨_, rotation_reaches (lookD 0 s.selv.pointers (k.port / 4)) _ (requester_lt k), beq_self_eq_true _⟩)
    rw [hr, eq_of_beq (List.find?_some hr)]
  have hready : (fun r => (List.find? (fun q : Pkt × Nat => q.1.port / 4 == k.port / 4 && q.1.requester == r) [(k, n)]).isSome) =
      fun r => k.requester == r := by
    funext r
    by_cases hr : k.requester = r <;> simp [hr]
  unfold State.serveWord
  simp only [harr, hready, hfind, Nat.not_le.2 hroom, if_false, takeFirst, updFirst, beq_self_eq_true, Bool.and_self, if_true]
  constructor
  · intro hn
    rw [if_pos hn]
    exact ⟨(parsed_counts _ k).1, (parsed_counts _ k).2.trans (congrArg (· + 1) hcount)⟩
  · intro hn
    rw [if_neg (Nat.not_le.2 hn)]
    exact ⟨rfl, hroom, hcount⟩

theorem serveWords_of_empty (h : s.selv.arrivals = []) (l : List Nat) : l.foldl State.serveWord s = s := by
  induction l with
  | nil => rfl
  | cons g r ih => rw [List.foldl_cons, serveWord_of_empty h, ih]

theorem serveWords_of_other (h : WaitsAlone s k n count) {l : List Nat} (hl : k.port / 4 ∉ l) : l.foldl State.serveWord s = s := by
  induction l with
  | nil => rfl
  | cons g r ih =>
    rw [List.mem_cons, not_or] at hl
    rw [List.foldl_cons, serveWord_of_other h hl.1, ih hl.2]

/-- In a cycle the frame's own pipeline takes one word, the others none. -/
theorem ingressCycle_of_alone (h : WaitsAlone s k n count) (hport : k.port < 16) :
    (n ≤ 1 → ParsedOne s.ingressCycle count) ∧ (1 < n → WaitsAlone s.ingressCycle k (n - 1) count) := by
  have hmem : k.port / 4 ∈ List.range 4 := List.mem_range.2 (by omega)
  obtain ⟨l, r, hsplit⟩ := List.append_of_mem hmem
  have hnodup : (l ++ k.port / 4 :: r).Nodup := hsplit ▸ List.nodup_range
  obtain ⟨hl, hr⟩ : k.port / 4 ∉ l ∧ k.port / 4 ∉ r := by
    rw [List.nodup_middle, List.nodup_cons, List.mem_append, not_or] at hnodup
    exact hnodup.1
  have hcycle : s.ingressCycle = r.foldl State.serveWord (s.serveWord (k.port / 4)) := by
    rw [State.ingressCycle, h.arrivals, hsplit, List.foldl_append, List.foldl_cons, serveWords_of_other h hl]
    rfl
  obtain ⟨hlast, hmore⟩ := serveWord_of_own h
  constructor
  · intro hn
    rw [hcycle, serveWords_of_empty (hlast hn).1]
    exact hlast hn
  · intro hn
    rw [hcycle, serveWords_of_other (hmore hn) hr]
    exact hmore hn

theorem ingressCycle_of_empty (h : s.selv.arrivals = []) : s.ingressCycle = s := by
  simp [State.ingressCycle, h]

/-- As many cycles as a frame has words to come parse it; further ones change nothing. -/
theorem times_ingressCycle_parses (hport : k.port < 16) :
    ∀ (c n : Nat) (s : State), WaitsAlone s k n count → n ≤ c → 0 < c → ParsedOne (times State.ingressCycle c s) count := by
  have rest : ∀ (c : Nat) (s : State), s.selv.arrivals = [] → times State.ingressCycle c s = s := by
    intro c
    induction c with
    | zero => exact fun _ _ => rfl
    | succ c ih => intro s h; rw [times, ingressCycle_of_empty h, ih s h]
  intro c
  induction c with
  | zero => exact fun _ _ _ _ h => absurd h (Nat.lt_irrefl 0)
  | succ c ih =>
    intro n s h hn _
    obtain ⟨hlast, hmore⟩ := ingressCycle_of_alone h hport
    rw [times]
    by_cases h1 : n ≤ 1
    · rw [rest c _ (hlast h1).1]
      exact hlast h1
    · exact ih (n - 1) _ (hmore (by omega)) (by omega) (by omega)

/-- Settles O48: an idle step is the tick, whose clocks' part and whose ingress pipelines' part change what they may; three cycles parse
a frame of three words. -/
theorem idleStepIsOneNanosecond : Obligations.IdleStepIsOneNanosecond := by
  constructor
  · intro s hidle
    obtain ⟨v, q, htick⟩ := tick_only s
    have hframe := clockTick_frame s
    refine ⟨s.tick, step_idle hidle, ?_⟩
    rw [htick]
    refine ⟨rfl, clockTick_time_of_down, (clockTick_ptp s).1, (clockTick_ptp s).2, ?_, fun h => State.clockTick_boot h, ?_, ?_⟩
    · exact fun h => ⟨State.clockTick_pins h, State.clockTick_out h, clockTick_ppsFall h⟩
    · intro h
      have hsame := (tick_of_empty h).symm.trans htick
      exact ⟨(congrArg State.selv hsame).symm, (congrArg State.trans hsame).symm⟩
    · conv_lhs => rw [hframe]
      rfl
  · intro s k n hidle harr hn hport hroom
    exact ⟨s.tick, step_idle hidle, times_ingressCycle_parses hport 3 n _ ⟨harr, hroom, rfl⟩ hn (by decide)⟩

end Sys2Proof.Proofs
end

section
/-! PROOFS. Seals of endpoints (R187 to R191): check values are linear in the message, so the stored seal gives every endpoint's. -/

open Sys2Proof Sys2Proof.Machine

-- One proof at a time: a thread for each proof would pass the limit that the check sets to memory.
set_option Elab.async false

namespace Sys2Proof.Proofs

/-! ### Linearity of a check value -/

/-- A function of bit strings that carries exclusive-or to exclusive-or. -/
def XorLinear {v w : Nat} (f : BitVec v → BitVec w) : Prop := ∀ a b, f (a ^^^ b) = f a ^^^ f b

variable {w : Nat}

theorem XorLinear.times {f : BitVec w → BitVec w} (h : XorLinear f) (n : Nat) : XorLinear (times f n) := by
  induction n with
  | zero => exact fun _ _ => rfl
  | succ n ih => intro a b; rw [Machine.times, Machine.times, Machine.times, h, ih]

theorem xor_left_comm (a b c : BitVec w) : a ^^^ (b ^^^ c) = b ^^^ (a ^^^ c) := by
  rw [← BitVec.xor_assoc, BitVec.xor_comm a, BitVec.xor_assoc]

theorem crcBitR_linear (poly : BitVec w) : XorLinear (crcBitR poly) := by
  intro a b
  have hshift : (a ^^^ b) >>> 1 = a >>> 1 ^^^ b >>> 1 := BitVec.ushiftRight_xor_distrib ..
  unfold crcBitR
  rw [hshift, BitVec.getLsbD_xor]
  cases a.getLsbD 0 <;> cases b.getLsbD 0 <;> simp [BitVec.xor_comm, xor_left_comm]

theorem crcBitN_linear (poly : BitVec w) : XorLinear (crcBitN poly) := by
  intro a b
  have hshift : (a ^^^ b) <<< 1 = a <<< 1 ^^^ b <<< 1 := BitVec.shiftLeft_xor_distrib ..
  unfold crcBitN
  rw [hshift, BitVec.msb_xor]
  cases a.msb <;> cases b.msb <;> simp [BitVec.xor_comm, xor_left_comm]

/-- A byte at the low end of a check value. -/
theorem byteLow_linear : XorLinear fun x : BitVec 8 => BitVec.ofNat w x.toNat := by
  intro a b
  simp only [BitVec.ofNat_toNat, BitVec.setWidth_xor]

/-- A byte at the high end of a check value. -/
theorem byteHigh_linear : XorLinear fun x : BitVec 8 => BitVec.ofNat w (x.toNat * 2 ^ (w - 8)) := by
  have hshift (x : BitVec 8) : BitVec.ofNat w (x.toNat * 2 ^ (w - 8)) = x.setWidth w <<< (w - 8) := by
    apply BitVec.eq_of_toNat_eq
    simp [BitVec.toNat_shiftLeft, Nat.shiftLeft_eq]
  intro a b
  simp only [hshift, BitVec.setWidth_xor, BitVec.shiftLeft_xor_distrib]

/-- A check value of two messages of one length, and of their exclusive-or. -/
theorem foldl_linear {f : BitVec w → BitVec w} {inj : BitVec 8 → BitVec w} (hf : XorLinear f) (hinj : XorLinear inj) :
    ∀ (m n : Bytes) (c d : BitVec w), m.length = n.length →
      (List.zipWith (· ^^^ ·) m n).foldl (fun c x => f (c ^^^ inj x)) (c ^^^ d) =
        m.foldl (fun c x => f (c ^^^ inj x)) c ^^^ n.foldl (fun c x => f (c ^^^ inj x)) d := by
  intro m
  induction m with
  | nil =>
    intro n c d h
    rw [List.eq_nil_of_length_eq_zero h.symm]
    rfl
  | cons x m ih =>
    intro n c d h
    cases n with
    | nil => cases h
    | cons y n =>
      have hstep : f (c ^^^ d ^^^ inj (x ^^^ y)) = f (c ^^^ inj x) ^^^ f (d ^^^ inj y) := by
        rw [← hf, hinj]
        congr 1
        simp only [BitVec.xor_assoc, xor_left_comm d]
      simp only [List.zipWith_cons_cons, List.foldl_cons]
      rw [hstep, ih n _ _ (Nat.succ.inj h)]

theorem crcR_xor (poly c : BitVec w) {m n : Bytes} (h : m.length = n.length) :
    crcR poly c (List.zipWith (· ^^^ ·) m n) = crcR poly c m ^^^ crcR poly 0 n := by
  have := foldl_linear ((crcBitR_linear poly).times 8) byteLow_linear m n c 0#w h
  rwa [BitVec.xor_zero] at this

theorem crcN_xor (poly c : BitVec w) {m n : Bytes} (h : m.length = n.length) :
    crcN poly c (List.zipWith (· ^^^ ·) m n) = crcN poly c m ^^^ crcN poly 0 n := by
  have := foldl_linear ((crcBitN_linear poly).times 8) byteHigh_linear m n c 0#w h
  rwa [BitVec.xor_zero] at this

theorem not_xor_left (a b : BitVec w) : ~~~(a ^^^ b) = ~~~a ^^^ b := by
  rw [← BitVec.xor_allOnes, ← BitVec.xor_allOnes]
  simp only [BitVec.xor_assoc, BitVec.xor_comm b]

/-- The check value of an exclusive-or, in every seal mode (R191). -/
theorem sealCrc_xor (mode : Nat) {m n : Bytes} (h : m.length = n.length) :
    sealCrc mode (List.zipWith (· ^^^ ·) m n) = sealCrc mode m ^^^ sealLinear mode n := by
  unfold sealCrc sealLinear
  split
  · rw [← BitVec.toNat_xor, crc32, crc32, crcR_xor _ _ h, not_xor_left]
  · split
    · rw [← BitVec.toNat_xor, crc32c, crc32c, crcR_xor _ _ h, not_xor_left]
    · split
      · rw [← BitVec.toNat_xor, crc64, crc64, crc64, crcN_xor _ _ h]
      · rw [← BitVec.toNat_xor, crc16, crc16, crcN_xor _ _ h]

/-! ### The messages of two endpoints -/

@[simp] theorem le_length (n v : Nat) : (le n v).length = n := by
  induction n generalizing v with
  | zero => rfl
  | succ n ih => rw [le, List.length_cons, ih]

/-- The part of a frame message behind the endpoint's number. -/
def sealBody (mode frame : Nat) (crcs : List Nat) : Bytes := le 4 frame ++ crcs.flatMap (le (sealBytes mode))

theorem sealMessage_eq (mode e frame : Nat) (crcs : List Nat) : sealMessage mode e frame crcs = le 4 e ++ sealBody mode frame crcs :=
  List.append_assoc ..

theorem sealBody_length (mode frame : Nat) (crcs : List Nat) :
    (sealBody mode frame crcs).length = 4 + crcs.length * sealBytes mode := by
  simp [sealBody, List.length_flatMap]

theorem zipWith_xor_zeros (b : Bytes) : List.zipWith (· ^^^ ·) b (List.replicate b.length 0) = b := by
  induction b with
  | nil => rfl
  | cons x b ih => simpa [List.replicate_succ] using ih

theorem zipWith_zero_xor (v : Nat) : List.zipWith (· ^^^ ·) (le 4 0) (le 4 v) = le 4 v := by
  simp [le]

/-- The message of an endpoint is that of endpoint 0 and its number, combined. -/
theorem sealMessage_xor (mode e frame : Nat) (crcs : List Nat) :
    List.zipWith (· ^^^ ·) (sealMessage mode 0 frame crcs) (le 4 e ++ List.replicate (4 + crcs.length * sealBytes mode) 0) =
      sealMessage mode e frame crcs := by
  rw [sealMessage_eq, sealMessage_eq, ← sealBody_length mode frame crcs, List.zipWith_append (by simp), zipWith_xor_zeros,
    zipWith_zero_xor]

/-- Settles O60: the endpoints' messages differ in the endpoint's number alone, and check values are linear. -/
theorem endpointSealsFollowFromOne : Obligations.EndpointSealsFollowFromOne := by
  intro mode e frame crcs _
  refine ⟨?_, ?_, ?_⟩
  · simp [sealMessage_eq]
  · rw [sealMessage_eq, sealMessage_eq, List.drop_left' (le_length ..), List.drop_left' (le_length ..)]
  · have hlen : (sealMessage mode 0 frame crcs).length =
        (le 4 e ++ List.replicate (4 + crcs.length * sealBytes mode) 0).length := by
      simp [sealMessage_eq, sealBody_length]
    rw [endpointSeal, frameSeal, frameSeal, ← sealCrc_xor mode hlen, sealMessage_xor]

end Sys2Proof.Proofs
end

section
/-! PROOFS. Frames: which parts of the state an operation may change. -/

open Sys2Proof Sys2Proof.Machine

-- One proof at a time: a thread for each proof would pass the limit that the check sets to memory.
set_option Elab.async false

namespace Sys2Proof.Proofs

/-- The parts of the state. -/
inductive Part where
  | clk | pins | svc | boot | store | dict | paths | bar2 | dev | bobs | tiles | caches | encs | batten | totals | pool | dtiles | decs | selv | trans | time | rings | dma | intc | bpm | mem | faults | pair | pending | out
deriving DecidableEq

/-- A part is the same in two states. -/
@[simp, reducible] def Part.Same (s t : State) : Part → Prop
  | .clk => t.clk = s.clk
  | .pins => t.pins = s.pins
  | .svc => t.svc = s.svc
  | .boot => t.boot = s.boot
  | .store => t.store = s.store
  | .dict => t.dict = s.dict
  | .paths => t.paths = s.paths
  | .bar2 => t.bar2 = s.bar2
  | .dev => t.dev = s.dev
  | .bobs => t.bobs = s.bobs
  | .tiles => t.tiles = s.tiles
  | .caches => t.caches = s.caches
  | .encs => t.encs = s.encs
  | .batten => t.batten = s.batten
  | .totals => t.totals = s.totals
  | .pool => t.pool = s.pool
  | .dtiles => t.dtiles = s.dtiles
  | .decs => t.decs = s.decs
  | .selv => t.selv = s.selv
  | .trans => t.trans = s.trans
  | .time => t.time = s.time
  | .rings => t.rings = s.rings
  | .dma => t.dma = s.dma
  | .intc => t.intc = s.intc
  | .bpm => t.bpm = s.bpm
  | .mem => t.mem = s.mem
  | .faults => t.faults = s.faults
  | .pair => t.pair = s.pair
  | .pending => t.pending = s.pending
  | .out => t.out = s.out

/-- Two states with the same parts are one. -/
theorem eq_of_same {s t : State} (h : ∀ p, Part.Same s t p) : t = s := by
  cases s
  cases t
  rw [State.mk.injEq]
  exact ⟨h .clk, h .pins, h .svc, h .boot, h .store, h .dict, h .paths, h .bar2, h .dev, h .bobs, h .tiles, h .caches, h .encs, h .batten, h .totals, h .pool, h .dtiles, h .decs, h .selv, h .trans, h .time, h .rings, h .dma, h .intc, h .bpm, h .mem, h .faults, h .pair, h .pending, h .out⟩

/-- What the first-error record tells of the error (R460). -/
def Faults.told (f : Faults) : Bool × BitVec 8 × BitVec 2 × BitVec 3 × Master × BitVec 48 := (f.valid, f.kind, f.severity, f.access, f.master, f.addr)

/-- A first-error record that is valid stands. -/
def Stands (f g : Faults) : Prop := f.valid = true → Faults.told g = Faults.told f

theorem Stands.refl (f : Faults) : Stands f f := fun _ => rfl

theorem Stands.trans {f g h : Faults} (hg : Stands f g) (hh : Stands g h) : Stands f h := fun hvalid =>
  (hh ((congrArg Prod.fst (hg hvalid)).trans hvalid)).trans (hg hvalid)

theorem record_stands (f : Faults) (kind sev acc : Nat) (m : Master) (addr sec ns : Nat) : Stands f (f.record kind sev acc m addr sec ns) :=
  fun hvalid => by
    rw [Faults.record, if_pos hvalid]
    rfl

/-- The fault unit but for the count of the running second's entries and the pulse of `ERR_N`. -/
def SameRecord (f g : Faults) : Prop :=
  ∃ logged excess logSec hold pulseEnd,
    g = { f with logged := logged, excess := excess, logSec := logSec, hold := hold, pulseEnd := pulseEnd }

theorem SameRecord.refl (f : Faults) : SameRecord f f := ⟨_, _, _, _, _, rfl⟩

theorem SameRecord.trans {f g h : Faults} (hg : SameRecord f g) (hh : SameRecord g h) : SameRecord f h := by
  obtain ⟨_, _, _, _, _, rfl⟩ := hg
  obtain ⟨_, _, _, _, _, rfl⟩ := hh
  exact ⟨_, _, _, _, _, rfl⟩

theorem SameRecord.stands {f g : Faults} (h : SameRecord f g) : Stands f g := by
  obtain ⟨_, _, _, _, _, rfl⟩ := h
  exact fun _ => rfl

theorem faultSummary_sameRecord (s : State) : SameRecord s.faults s.faultSummary.faults := by
  unfold State.faultSummary
  split <;> exact ⟨_, _, _, _, _, rfl⟩

theorem logContained_sameRecord (s : State) (m : Master) (d : Bytes) : SameRecord s.faults (s.logContained m d).faults := by
  have hsum : SameRecord s.faults (if logSecond s = s.faults.logSec then s else s.faultSummary).faults := by
    split
    · exact .refl _
    · exact faultSummary_sameRecord s
  unfold State.logContained
  generalize (if logSecond s = s.faults.logSec then s else s.faultSummary) = v at hsum ⊢
  refine hsum.trans ?_
  dsimp only
  split <;> exact ⟨_, _, _, _, _, rfl⟩

theorem errPulse_sameRecord (s : State) : SameRecord s.faults s.errPulse.faults := ⟨_, _, _, _, _, rfl⟩

/-- Of the parts of `s`, `t` changes those in the list at most, and never the model's time; and a first-error record that is valid stands. -/
structure Touches (l : List Part) (s t : State) : Prop where
  keeps : ∀ p, p ∉ l → Part.Same s t p
  /-- Of the clock's record only the free values move on. -/
  ticks : t.clk = { s.clk with free := t.clk.free }
  stands : Stands s.faults t.faults

namespace Touches

variable {s t u : State} {l k : List Part}

theorem same (h : Touches l s t) (p : Part) (hp : p ∉ l := by decide) : Part.Same s t p := h.keeps p hp

theorem refl (s : State) : Touches l s s := ⟨fun p _ => by cases p <;> rfl, rfl, .refl _⟩

/-- An operation that leaves the clock's record alone. -/
theorem fixed (h : ∀ p, p ∉ l → Part.Same s t p) (hclk : .clk ∉ l := by decide) (hstands : Stands s.faults t.faults := by exact fun _ => rfl) :
    Touches l s t where
  keeps := h
  ticks := by rw [h .clk hclk]
  stands := hstands

/-- One that leaves the fault unit alone too. -/
theorem faultless (h : ∀ p, p ∉ l → Part.Same s t p) (hclk : .clk ∉ l := by decide) (hfaults : .faults ∉ l := by decide) : Touches l s t :=
  .fixed h hclk (by rw [h .faults hfaults]; exact .refl _)

theorem trans (h : Touches l s t) (g : Touches l t u) : Touches l s u where
  keeps p hp := by
    have h := h.keeps p hp
    have g := g.keeps p hp
    cases p <;> exact Eq.trans g h
  ticks := by rw [g.ticks, h.ticks]
  stands := h.stands.trans g.stands

theorem mono (h : Touches l s t) (hl : l ⊆ k) : Touches k s t := ⟨fun p hp => h.keeps p fun q => hp (hl q), h.ticks, h.stands⟩

/-- An operation that touches parts of the list comes behind what touches no others. -/
theorem op (h : Touches l s t) (g : Touches k t u) (hl : k ⊆ l := by decide) : Touches l s u := h.trans (g.mono hl)

/-- Two states that differ from `s` in the list's parts alone, and agree in them, are one. -/
theorem frame (h : Touches l s t) (hin : ∀ p ∈ l, Part.Same t u p)
    (hout : ∀ p, p ∉ l → Part.Same s u p := by intro p hp; cases p <;> simp at hp <;> rfl) : t = u := eq_of_same fun p => by
  by_cases hp : p ∈ l
  · have hin := hin p hp
    cases p <;> exact hin.symm
  · have h := h.keeps p hp
    have hout := hout p hp
    cases p <;> exact h.trans hout.symm

theorem ite {c : Prop} [Decidable c] (h : Touches l s t) (g : Touches l s u) : Touches l s (if c then t else u) := by
  split
  · exact h
  · exact g

theorem foldl {α : Type} {f : State → α → State} {r : List α} (h : Touches l s t) (hf : ∀ u a, Touches l s u → Touches l s (f u a)) :
    Touches l s (r.foldl f t) := by
  induction r generalizing t with
  | nil => exact h
  | cons a r ih => exact ih (hf t a h)


/-- Several parts written at once. -/
theorem write (h : Touches l s t) (k : List Part) (hu : ∀ p, p ∉ k → Part.Same t u p) (hl : k ⊆ l := by decide)
    (hclk : u.clk = { t.clk with free := u.clk.free } := by rfl) (hstands : Stands t.faults u.faults := by exact fun _ => rfl) : Touches l s u :=
  h.op ⟨hu, hclk, hstands⟩ hl

theorem foldlFst {α β : Type} {f : State × β → α → State × β} {r : List α} {p : State × β} (h : Touches l s p.1)
    (hf : ∀ q a, Touches l s q.1 → Touches l s (f q a).1) : Touches l s (r.foldl f p).1 := by
  induction r generalizing p with
  | nil => exact h
  | cons a r ih => exact ih (hf p a h)

theorem snd {α : Type} {p : α × State} {a : α} (h : Touches l s p.2) (e : p = (a, u)) : Touches l s u := by
  subst e
  exact h

/-! Each part written alone. -/

/-- The count of free values. -/
theorem setClk (h : Touches l s t) {x} (hl : [.clk] ⊆ l := by decide) : Touches l s { t with clk := { t.clk with free := x } } :=
  h.write [.clk] (fun p hp => by cases p <;> simp_all) hl

theorem setPins (h : Touches l s t) {x} (hl : [.pins] ⊆ l := by decide) : Touches l s { t with pins := x } :=
  h.write [.pins] (fun p hp => by cases p <;> simp_all) hl

theorem setBoot (h : Touches l s t) {x} (hl : [.boot] ⊆ l := by decide) : Touches l s { t with boot := x } :=
  h.write [.boot] (fun p hp => by cases p <;> simp_all) hl

theorem setStore (h : Touches l s t) {x} (hl : [.store] ⊆ l := by decide) : Touches l s { t with store := x } :=
  h.write [.store] (fun p hp => by cases p <;> simp_all) hl

theorem setDict (h : Touches l s t) {x} (hl : [.dict] ⊆ l := by decide) : Touches l s { t with dict := x } :=
  h.write [.dict] (fun p hp => by cases p <;> simp_all) hl

theorem setBar2 (h : Touches l s t) {x} (hl : [.bar2] ⊆ l := by decide) : Touches l s { t with bar2 := x } :=
  h.write [.bar2] (fun p hp => by cases p <;> simp_all) hl

theorem setBobs (h : Touches l s t) {x} (hl : [.bobs] ⊆ l := by decide) : Touches l s { t with bobs := x } :=
  h.write [.bobs] (fun p hp => by cases p <;> simp_all) hl

theorem setTiles (h : Touches l s t) {x} (hl : [.tiles] ⊆ l := by decide) : Touches l s { t with tiles := x } :=
  h.write [.tiles] (fun p hp => by cases p <;> simp_all) hl

theorem setCaches (h : Touches l s t) {x} (hl : [.caches] ⊆ l := by decide) : Touches l s { t with caches := x } :=
  h.write [.caches] (fun p hp => by cases p <;> simp_all) hl

theorem setEncs (h : Touches l s t) {x} (hl : [.encs] ⊆ l := by decide) : Touches l s { t with encs := x } :=
  h.write [.encs] (fun p hp => by cases p <;> simp_all) hl

theorem setBatten (h : Touches l s t) {x} (hl : [.batten] ⊆ l := by decide) : Touches l s { t with batten := x } :=
  h.write [.batten] (fun p hp => by cases p <;> simp_all) hl

theorem setTotals (h : Touches l s t) {x} (hl : [.totals] ⊆ l := by decide) : Touches l s { t with totals := x } :=
  h.write [.totals] (fun p hp => by cases p <;> simp_all) hl

theorem setPool (h : Touches l s t) {x} (hl : [.pool] ⊆ l := by decide) : Touches l s { t with pool := x } :=
  h.write [.pool] (fun p hp => by cases p <;> simp_all) hl

theorem setDtiles (h : Touches l s t) {x} (hl : [.dtiles] ⊆ l := by decide) : Touches l s { t with dtiles := x } :=
  h.write [.dtiles] (fun p hp => by cases p <;> simp_all) hl

theorem setDecs (h : Touches l s t) {x} (hl : [.decs] ⊆ l := by decide) : Touches l s { t with decs := x } :=
  h.write [.decs] (fun p hp => by cases p <;> simp_all) hl

theorem setSelv (h : Touches l s t) {x} (hl : [.selv] ⊆ l := by decide) : Touches l s { t with selv := x } :=
  h.write [.selv] (fun p hp => by cases p <;> simp_all) hl

theorem setTrans (h : Touches l s t) {x} (hl : [.trans] ⊆ l := by decide) : Touches l s { t with trans := x } :=
  h.write [.trans] (fun p hp => by cases p <;> simp_all) hl

theorem setTime (h : Touches l s t) {x} (hl : [.time] ⊆ l := by decide) : Touches l s { t with time := x } :=
  h.write [.time] (fun p hp => by cases p <;> simp_all) hl

theorem setRings (h : Touches l s t) {x} (hl : [.rings] ⊆ l := by decide) : Touches l s { t with rings := x } :=
  h.write [.rings] (fun p hp => by cases p <;> simp_all) hl

theorem setDma (h : Touches l s t) {x} (hl : [.dma] ⊆ l := by decide) : Touches l s { t with dma := x } :=
  h.write [.dma] (fun p hp => by cases p <;> simp_all) hl

theorem setIntc (h : Touches l s t) {x} (hl : [.intc] ⊆ l := by decide) : Touches l s { t with intc := x } :=
  h.write [.intc] (fun p hp => by cases p <;> simp_all) hl

theorem setBpm (h : Touches l s t) {x} (hl : [.bpm] ⊆ l := by decide) : Touches l s { t with bpm := x } :=
  h.write [.bpm] (fun p hp => by cases p <;> simp_all) hl

theorem setMem (h : Touches l s t) {x} (hl : [.mem] ⊆ l := by decide) : Touches l s { t with mem := x } :=
  h.write [.mem] (fun p hp => by cases p <;> simp_all) hl

theorem setFaults (h : Touches l s t) {x} (hl : [.faults] ⊆ l := by decide) (hstands : Stands t.faults x := by exact fun _ => rfl) :
    Touches l s { t with faults := x } :=
  h.write [.faults] (fun p hp => by cases p <;> simp_all) hl rfl hstands

theorem setPair (h : Touches l s t) {x} (hl : [.pair] ⊆ l := by decide) : Touches l s { t with pair := x } :=
  h.write [.pair] (fun p hp => by cases p <;> simp_all) hl

theorem setOut (h : Touches l s t) {x} (hl : [.out] ⊆ l := by decide) : Touches l s { t with out := x } :=
  h.write [.out] (fun p hp => by cases p <;> simp_all) hl

/-! What the shared operations touch. -/

theorem emit (h : Touches l s t) {o : Output} (hl : [.out] ⊆ l := by decide) : Touches l s (t.emit o) :=
  h.op (k := [.out]) (.faultless fun p hp => by cases p <;> simp_all) hl

theorem answer (h : Touches l s t) {m : Master} {v : Word} (hl : [.out] ⊆ l := by decide) : Touches l s (t.answer m v) :=
  h.op (k := [.out]) (.faultless fun p hp => by cases p <;> simp_all) hl

theorem disarm (h : Touches l s t) {m : Master} (hl : [.dev] ⊆ l := by decide) : Touches l s (t.disarm m) :=
  h.op (k := [.dev]) (.faultless fun p hp => by cases p <;> simp_all) hl

theorem devStore (h : Touches l s t) {a : Nat} {b : Bytes} (hl : [.mem] ⊆ l := by decide) : Touches l s (t.devStore a b) :=
  h.op (k := [.mem]) (.faultless fun p hp => by cases p <;> simp_all) hl

theorem freed (h : Touches l s t) (hl : [.clk] ⊆ l := by decide) : Touches l s t.freed :=
  h.setClk hl

theorem countBin (h : Touches l s t) {k : Nat} (hl : [.faults] ⊆ l := by decide) : Touches l s (t.countBin k) :=
  h.op (k := [.faults]) (.fixed fun p hp => by cases p <;> simp_all) hl

theorem correctedBy (h : Touches l s t) {k : Nat} (hl : [.faults] ⊆ l := by decide) : Touches l s (t.correctedBy k) :=
  h.op (k := [.faults]) (.fixed fun p hp => by cases p <;> simp_all) hl

theorem settleInts (h : Touches l s t) (hl : [.intc, .out] ⊆ l := by decide) : Touches l s t.settleInts :=
  h.op (k := [.intc, .out]) (.faultless fun p hp => by cases p <;> simp_all) hl

theorem errPulse (h : Touches l s t) (hl : [.pins, .faults, .out] ⊆ l := by decide) : Touches l s t.errPulse :=
  h.op (k := [.pins, .faults, .out]) (.fixed fun p hp => by cases p <;> simp_all) hl

theorem raise (h : Touches l s t) {n : Nat} {m : Master} {d : Bytes} (hl : [.intc, .mem, .out] ⊆ l := by decide) : Touches l s (t.raise n m d) :=
  h.op (k := [.intc, .mem, .out]) (.faultless fun p hp => by cases p <;> simp_all) hl

theorem syncErr (h : Touches l s t) (hl : [.clk, .paths, .out] ⊆ l := by decide) : Touches l s t.syncErr :=
  h.op (k := [.clk, .paths, .out]) (by
    unfold State.syncErr
    exact .ite (.refl _) ((refl _).write [.clk, .paths, .out] fun p hp => by cases p <;> simp_all)) hl

theorem logContained (h : Touches l s t) {m : Master} {d : Bytes} (hl : [.store, .faults] ⊆ l := by decide) : Touches l s (t.logContained m d) :=
  h.op (k := [.store, .faults]) (.fixed (fun p hp => by cases p <;> simp_all) (by decide) (logContained_sameRecord t m d).stands) hl

theorem badWord (h : Touches l s t) {a : Nat} (hl : [.mem] ⊆ l := by decide) : Touches l s (t.badWord a) :=
  h.op (k := [.mem]) (.faultless fun p hp => by cases p <;> simp_all) hl

theorem containedAt (h : Touches l s t) {k : Nat} {a : Access} {m : Master} {addr : Nat} (hl : [.clk, .pins, .store, .paths, .intc, .mem, .faults, .out] ⊆ l := by decide) : Touches l s (t.containedAt k a m addr) :=
  h.op (k := [.clk, .pins, .store, .paths, .intc, .mem, .faults, .out])
    (have hrecord := setFaults (refl t) (x := { t.faults.record k 2 (accCode a) m addr (ptpSec t) (ptpNs t) with
        contained := sat32 t.faults.contained, containedAll := t.faults.containedAll + 1 })
      (hstands := record_stands t.faults k 2 (accCode a) m addr (ptpSec t) (ptpNs t))
    syncErr (.ite (errPulse (raise (logContained hrecord))) (raise (logContained hrecord)))) hl

theorem contained (h : Touches l s t) {k : Nat} {a : Access} {m : Master} {addr : Nat} (hl : [.clk, .pins, .store, .paths, .intc, .mem, .faults, .out] ⊆ l := by decide) : Touches l s (t.contained k a m addr) :=
  h.op (k := [.clk, .pins, .store, .paths, .intc, .mem, .faults, .out]) (containedAt (.ite (refl _).badWord (refl _))) hl

theorem aliveLow (h : Touches l s t) (hl : [.pins, .out] ⊆ l := by decide) : Touches l s t.aliveLow :=
  h.op (k := [.pins, .out]) (.faultless fun p hp => by cases p <;> simp_all) hl

theorem fatal (h : Touches l s t) {k : Nat} {a : Access} {m : Master} {addr : Nat} (hl : [.clk, .pins, .store, .paths, .faults, .out] ⊆ l := by decide) : Touches l s (t.fatal k a m addr) :=
  h.op (k := [.clk, .pins, .store, .paths, .faults, .out])
    (syncErr (errPulse (aliveLow ((refl _).write [.store, .faults] (fun p hp => by cases p <;> simp_all)
      (hstands := record_stands t.faults k 3 (accCode a) m addr (ptpSec t) (ptpNs t)))))) hl


end Touches

end Sys2Proof.Proofs
end

section
/-! PROOFS. What a fault leaves in the fault unit (R458 to R466). -/

open Sys2Proof Sys2Proof.Machine

-- One proof at a time: a thread for each proof would pass the limit that the check sets to memory.
set_option Elab.async false

namespace Sys2Proof.Proofs

variable (s : State) (kind : Nat) (acc : Access) (m : Master) (addr : Nat)

/-- The first-error record and the counts of a contained fault. -/
def Recorded (f : Faults) (kind acc : Nat) (m : Master) (addr sec ns : Nat) : Faults :=
  { f.record kind 2 acc m addr sec ns with contained := sat32 f.contained, containedAll := f.containedAll + 1 }

/-- A contained fault is recorded, or counted as an overflow, and counted. -/
theorem containedAt_record :
    SameRecord (Recorded s.faults kind (accCode acc) m addr (ptpSec s) (ptpNs s)) (s.containedAt kind acc m addr).faults := by
  have hlog := logContained_sameRecord
    { s with faults := Recorded s.faults kind (accCode acc) m addr (ptpSec s) (ptpNs s) } m (faultDetail kind 2 (accCode acc) addr 1)
  unfold State.containedAt
  rw [State.syncErr_faults]
  split
  · refine SameRecord.trans ?_ (errPulse_sameRecord _)
    rw [State.raise_faults]
    exact hlog
  · rw [State.raise_faults]
    exact hlog

theorem contained_record :
    SameRecord (Recorded s.faults kind (accCode acc) m addr (ptpSec s) (ptpNs s)) (s.contained kind acc m addr).faults := by
  unfold State.contained
  split
  · have h := containedAt_record (s.badWord addr) kind acc m addr
    rwa [State.badWord_faults, ptpSec, ptpNs, State.badWord_time, State.badWord_boot] at h
  · exact containedAt_record s kind acc m addr

/-! The record's fields. -/

theorem contained_valid : (s.contained kind acc m addr).faults.valid = true := by
  obtain ⟨_, _, _, _, _, h⟩ := contained_record s kind acc m addr
  rw [h]
  unfold Recorded Faults.record
  dsimp only
  split
  · assumption
  · rfl

/-- Where no record stood the record is the fault's. -/
theorem contained_first (hfree : s.faults.valid = false) :
    (s.contained kind acc m addr).faults.kind = BitVec.ofNat 8 kind ∧ (s.contained kind acc m addr).faults.severity = 2 ∧
    (s.contained kind acc m addr).faults.access = BitVec.ofNat 3 (accCode acc) ∧
    (s.contained kind acc m addr).faults.master = m ∧ (s.contained kind acc m addr).faults.addr = BitVec.ofNat 48 addr := by
  obtain ⟨_, _, _, _, _, h⟩ := contained_record s kind acc m addr
  rw [h]
  simp [Recorded, Faults.record, hfree]

/-- A contained fault is counted. -/
theorem contained_counted :
    (s.contained kind acc m addr).faults.contained = sat32 s.faults.contained ∧
    (s.contained kind acc m addr).faults.containedAll = s.faults.containedAll + 1 := by
  obtain ⟨_, _, _, _, _, h⟩ := contained_record s kind acc m addr
  rw [h]
  exact ⟨rfl, rfl⟩

end Sys2Proof.Proofs
end

section
/-! PROOFS. What the model's operations touch. -/

open Sys2Proof Sys2Proof.Machine

-- One proof at a time: a thread for each proof would pass the limit that the check sets to memory.
set_option Elab.async false

namespace Sys2Proof.Proofs.Touches

variable {s t u : State} {l : List Part}

theorem setJob (h : Touches l s t) {j : HostJob} (hl : [.rings] ⊆ l := by decide) : Touches l s (t.setJob j) := by
  refine h.op (k := [.rings]) ?_ hl
  unfold State.setJob
  dsimp only
  exact (refl _).setRings

theorem closeJob (h : Touches l s t) {j : HostJob} {status result info : ℕ} (hl : [.rings] ⊆ l := by decide) :
    Touches l s (t.closeJob j status result info) :=
  h.setJob hl

theorem poolCount (h : Touches l s t) {k n : ℕ} (hl : [.pool] ⊆ l := by decide) : Touches l s (t.poolCount k n) := by
  refine h.op (k := [.pool]) ?_ hl
  unfold State.poolCount
  dsimp only
  exact (refl _).setPool

theorem refuseDesc (h : Touches l s t) {m : Master} {b : ℕ}
    (hl : [.clk, .pins, .store, .paths, .pool, .intc, .mem, .faults, .out] ⊆ l := by decide) : Touches l s (t.refuseDesc m b) :=
  h.op (k := [.clk, .pins, .store, .paths, .pool, .intc, .mem, .faults, .out]) ((refl _).poolCount.contained) hl

theorem setDesc (h : Touches l s t) {b : ℕ} {d : Desc} (hl : [.pool] ⊆ l := by decide) : Touches l s (t.setDesc b d) := by
  refine h.op (k := [.pool]) ?_ hl
  unfold State.setDesc
  dsimp only
  exact (refl _).setPool

theorem releaseBlock (h : Touches l s t) {m : Master} {b : ℕ} {g : BitVec 16}
    (hl : [.clk, .pins, .store, .paths, .pool, .intc, .mem, .faults, .out] ⊆ l := by decide) : Touches l s (t.releaseBlock m b g) := by
  refine h.op (k := [.clk, .pins, .store, .paths, .pool, .intc, .mem, .faults, .out]) ?_ hl
  unfold State.releaseBlock
  dsimp only
  exact ite (refl _).refuseDesc (refl _).setDesc

theorem releaseSlots (h : Touches l s t) {m : Master} {l1 : List Slot}
    (hl : [.clk, .pins, .store, .paths, .pool, .intc, .mem, .faults, .out] ⊆ l := by decide) : Touches l s (t.releaseSlots m l1) := by
  refine h.op (k := [.clk, .pins, .store, .paths, .pool, .intc, .mem, .faults, .out]) ?_ hl
  unfold State.releaseSlots
  exact foldl (refl _) fun _ _ hu => hu.releaseBlock

theorem setSurface (h : Touches l s t) {h1 : ℕ} {v : Surface} (hl : [.pool] ⊆ l := by decide) : Touches l s (t.setSurface h1 v) := by
  refine h.op (k := [.pool]) ?_ hl
  unfold State.setSurface
  dsimp only
  exact (refl _).setPool

theorem setSq (h : Touches l s t) {p : ℕ} {v : Sq} (hl : [.rings] ⊆ l := by decide) : Touches l s (t.setSq p v) := by
  refine h.op (k := [.rings]) ?_ hl
  unfold State.setSq
  dsimp only
  exact (refl _).setRings

theorem restSq (h : Touches l s t) {p : ℕ} (hl : [.rings] ⊆ l := by decide) : Touches l s (t.restSq p) := by
  refine h.op (k := [.rings]) ?_ hl
  unfold State.restSq
  dsimp only
  exact ite (refl _).setSq (refl _)

theorem setCq (h : Touches l s t) {c : ℕ} {v : Cq} (hl : [.rings] ⊆ l := by decide) : Touches l s (t.setCq c v) := by
  refine h.op (k := [.rings]) ?_ hl
  unfold State.setCq
  dsimp only
  exact (refl _).setRings

theorem setDdr (h : Touches l s t) {c : ℕ} {d : Ddr} (hl : [.mem] ⊆ l := by decide) : Touches l s (t.setDdr c d) := by
  refine h.op (k := [.mem]) ?_ hl
  unfold State.setDdr
  dsimp only
  exact (refl _).setMem

theorem wakeRank (h : Touches l s t) {c r : ℕ} (hl : [.mem] ⊆ l := by decide) : Touches l s (t.wakeRank c r) := by
  refine h.op (k := [.mem]) ?_ hl
  unfold State.wakeRank
  dsimp only
  exact (refl _).setDdr

theorem memCount (h : Touches l s t) {k n : ℕ} (hl : [.mem] ⊆ l := by decide) : Touches l s (t.memCount k n) := by
  refine h.op (k := [.mem]) ?_ hl
  unfold State.memCount
  dsimp only
  exact (refl _).setMem

theorem activate (h : Touches l s t) {a : ℕ} (hl : [.mem] ⊆ l := by decide) : Touches l s (t.activate a) := by
  refine h.op (k := [.mem]) ?_ hl
  unfold State.activate
  dsimp only
  exact ite (refl _).wakeRank (ite (refl _).wakeRank.setDdr.memCount (refl _).wakeRank.setDdr)

theorem ddrTouch (h : Touches l s t) {a n : ℕ} (hl : [.mem] ⊆ l := by decide) : Touches l s (t.ddrTouch a n) := by
  refine h.op (k := [.mem]) ?_ hl
  unfold State.ddrTouch
  exact ite (refl _) (foldl (refl _) fun _ _ hu => hu.activate)

theorem poolWrite (h : Touches l s t) {a : ℕ} {b : Bytes} (hl : [.pool] ⊆ l := by decide) : Touches l s (t.poolWrite a b) := by
  refine h.op (k := [.pool]) ?_ hl
  unfold State.poolWrite
  dsimp only
  exact ite (refl _) (refl _).setPool

theorem devWrite (h : Touches l s t) {m : Master} {acc : Access} {a : ℕ} {b : Bytes}
    (hl : [.clk, .pins, .store, .paths, .pool, .intc, .mem, .faults, .out] ⊆ l := by decide) : Touches l s (t.devWrite m acc a b) := by
  refine h.op (k := [.clk, .pins, .store, .paths, .pool, .intc, .mem, .faults, .out]) ?_ hl
  unfold State.devWrite
  dsimp only
  exact ite (refl _) (ite (refl _).contained (refl _).poolWrite.devStore.ddrTouch.setMem)

theorem writeCqe (h : Touches l s t) {c : ℕ} {e : Cqe}
    (hl : [.clk, .pins, .store, .paths, .pool, .rings, .intc, .mem, .faults, .out] ⊆ l := by decide) :
    Touches l s (t.writeCqe c e) := by
  refine h.op (k := [.clk, .pins, .store, .paths, .pool, .rings, .intc, .mem, .faults, .out]) ?_ hl
  unfold State.writeCqe
  dsimp only
  exact ite (raise (ite (refl _).setCq.devWrite (refl _).setCq.emit)) (settleInts (ite (refl _).setCq.devWrite (refl _).setCq.emit))

theorem complete (h : Touches l s t) {c : ℕ} {e : Cqe}
    (hl : [.clk, .pins, .store, .paths, .pool, .rings, .intc, .mem, .faults, .out] ⊆ l := by decide) :
    Touches l s (t.complete c e) := by
  refine h.op (k := [.clk, .pins, .store, .paths, .pool, .rings, .intc, .mem, .faults, .out]) ?_ hl
  unfold State.complete
  dsimp only
  exact ite (refl _).setSq.setCq (ite (refl _).setSq.setCq (refl _).setSq.writeCqe)

theorem drainAborts (h : Touches l s t) {n p : ℕ}
    (hl : [.clk, .pins, .store, .paths, .pool, .rings, .intc, .mem, .faults, .out] ⊆ l := by decide) : Touches l s (Machine.drainAborts
      n t p) := by
  induction n generalizing t with
  | zero => exact h.op (k := [.clk, .pins, .store, .paths, .pool, .rings, .intc, .mem, .faults, .out]) (refl _).restSq hl
  | succ n ih =>
    unfold Machine.drainAborts
    dsimp only
    split
    · exact h.op (k := [.clk, .pins, .store, .paths, .pool, .rings, .intc, .mem, .faults, .out]) (refl _).restSq hl
    · split
      · exact h
      · exact ih (h.op (k := [.clk, .pins, .store, .paths, .pool, .rings, .intc, .mem, .faults, .out]) (refl _).setSq.complete hl)

theorem drain (h : Touches l s t) {p : ℕ}
    (hl : [.clk, .pins, .store, .paths, .pool, .rings, .intc, .mem, .faults, .out] ⊆ l := by decide) : Touches l s (t.drain p) :=
  h.op (k := [.clk, .pins, .store, .paths, .pool, .rings, .intc, .mem, .faults, .out]) ((refl _).drainAborts) hl

theorem holdoverNow (h : Touches l s t) (hl : [.time] ⊆ l := by decide) : Touches l s t.holdoverNow := by
  refine h.op (k := [.time]) ?_ hl
  unfold State.holdoverNow
  dsimp only
  exact (refl _).setTime

theorem clockView (h : Touches l s t) (hl : [.time] ⊆ l := by decide) : Touches l s t.clockView := by
  refine h.op (k := [.time]) ?_ hl
  unfold State.clockView
  exact ite (refl _).holdoverNow (refl _)

theorem setTile (h : Touches l s t) {p : ℕ} {t1 : Tile} (hl : [.tiles] ⊆ l := by decide) : Touches l s (t.setTile p t1) :=
  h.setTiles hl

theorem setDtile (h : Touches l s t) {p : ℕ} {v : Dtile} (hl : [.dtiles] ⊆ l := by decide) : Touches l s (t.setDtile p v) :=
  h.setDtiles hl

theorem iWrite (h : Touches l s t) {t1 : ITarget} {o : ℕ} {v : Word} (hl : [.tiles, .dtiles] ⊆ l := by decide) :
    Touches l s (t.iWrite t1 o v) := by
  refine h.op (k := [.tiles, .dtiles]) ?_ hl
  unfold State.iWrite
  split
  · exact (refl _).setTile
  · exact (refl _).setDtile
  · exact refl _
  · exact refl _
  · exact refl _
  · exact refl _
  · exact refl _

theorem setBankVar (h : Touches l s t) {bank v : ℕ} {x : Word} (hl : [.batten] ⊆ l := by decide) :
    Touches l s (t.setBankVar bank v x) := by
  refine h.op (k := [.batten]) ?_ hl
  unfold State.setBankVar
  dsimp only
  exact (refl _).setBatten

theorem putParam (h : Touches l s t) {idx sub : ℕ} {row : Option ℕ} {v : PVal} (hl : [.dict] ⊆ l := by decide) :
    Touches l s (t.putParam idx sub row v) := by
  refine h.op (k := [.dict]) ?_ hl
  unfold State.putParam
  dsimp only
  exact (refl _).setDict

theorem setEp (h : Touches l s t) {e : ℕ} {v : Endpoint} (hl : [.trans] ⊆ l := by decide) : Touches l s (t.setEp e v) := by
  refine h.op (k := [.trans]) ?_ hl
  unfold State.setEp
  dsimp only
  exact (refl _).setTrans

theorem syncGpio (h : Touches l s t) (hl : [.pins] ⊆ l := by decide) : Touches l s t.syncGpio := by
  refine h.op (k := [.pins]) ?_ hl
  unfold State.syncGpio
  dsimp only
  exact (refl _).setPins

theorem allocBlock (h : Touches l s t) {h1 : Holder} {mark : Mark} {data : Block} (hl : [.clk, .pool] ⊆ l := by decide) :
    Touches l s (t.allocBlock h1 mark data).2 := by
  refine h.op (k := [.clk, .pool]) ?_ hl
  unfold State.allocBlock
  dsimp only
  split
  · exact refl _
  · exact (refl _).write [.clk, .pool] fun p hp => by cases p <;> simp at hp <;> rfl

theorem allocFrames (h : Touches l s t) {o : Holder} {n : ℕ}
    (hl : [.clk, .pool] ⊆ l := by decide) : Touches l s (t.allocFrames o n).2 := by
  refine h.op (k := [.clk, .pool]) ?_ hl
  induction n with
  | zero => exact refl _
  | succ n ih =>
    have ha : Touches [.clk, .pool] t (if unreserved (t.allocFrames o n).2.pool = 0 then (none, (t.allocFrames o n).2)
        else (t.allocFrames o n).2.allocBlock o .shortTerm []).2 := by
      split
      · exact ih
      · exact ih.allocBlock
    unfold State.allocFrames
    dsimp only
    split
    · exact ha
    · exact ih

theorem setDec (h : Touches l s t) {c : ℕ} {e : Dec} (hl : [.decs] ⊆ l := by decide) : Touches l s (t.setDec c e) :=
  h.setDecs hl

theorem ownSurface (h : Touches l s t) {c h1 : ℕ} (hl : [.pool, .decs] ⊆ l := by decide) : Touches l s (t.ownSurface c h1) := by
  refine h.op (k := [.pool, .decs]) ?_ hl
  unfold State.ownSurface
  dsimp only
  exact ite (setDec (ite (refl _).setSurface (refl _))) (setSurface (setDec (ite (refl _).setSurface (refl _))))

theorem transCount (h : Touches l s t) {k n : ℕ} (hl : [.trans] ⊆ l := by decide) : Touches l s (t.transCount k n) := by
  refine h.op (k := [.trans]) ?_ hl
  unfold State.transCount
  dsimp only
  exact (refl _).setTrans

theorem setQueue (h : Touches l s t) {q : ℕ} {v : Queue} (hl : [.trans] ⊆ l := by decide) : Touches l s (t.setQueue q v) := by
  refine h.op (k := [.trans]) ?_ hl
  unfold State.setQueue
  dsimp only
  exact (refl _).setTrans

theorem queueDrop (h : Touches l s t) {q : ℕ} (hl : [.trans] ⊆ l := by decide) : Touches l s (t.queueDrop q) := by
  refine h.op (k := [.trans]) ?_ hl
  unfold State.queueDrop
  dsimp only
  exact (refl _).setQueue

theorem watermark (h : Touches l s t) {b : Bpm} (hl : [.intc, .bpm, .mem, .out] ⊆ l := by decide) : Touches l s (t.watermark b) := by
  refine h.op (k := [.intc, .bpm, .mem, .out]) ?_ hl
  unfold State.watermark
  dsimp only
  exact ite (refl _).setBpm.raise (ite (refl _).setBpm.raise (refl _).setBpm)

theorem allocBuffer (h : Touches l s t) {m : Master} (hl : [.clk, .intc, .bpm, .mem, .out] ⊆ l := by decide) :
    Touches l s (t.allocBuffer m).2 := by
  refine h.op (k := [.clk, .intc, .bpm, .mem, .out]) ?_ hl
  unfold State.allocBuffer
  dsimp only
  split
  · exact refl _
  · exact (refl _).freed.watermark

theorem takeCells (h : Touches l s t) {m : Master} {n : ℕ}
    (hl : [.clk, .intc, .bpm, .mem, .out] ⊆ l := by decide) : Touches l s (t.takeCells m n).2 := by
  refine h.op (k := [.clk, .intc, .bpm, .mem, .out]) ?_ hl
  induction n with
  | zero => exact refl _
  | succ n ih =>
    unfold State.takeCells
    dsimp only
    split
    · next heq => exact ih.allocBuffer.snd heq
    · next heq => exact ih.allocBuffer.snd heq

theorem fillCells (h : Touches l s t) {r : List ℕ} {d : Bytes}
    (hl : [.mem] ⊆ l := by decide) : Touches l s (t.fillCells r d) := by
  induction r generalizing t d with
  | nil => exact h
  | cons b r ih => exact ih (h.devStore hl)

theorem giveCells (h : Touches l s t) {l1 : List ℕ} (hl : [.bpm] ⊆ l := by decide) : Touches l s (t.giveCells l1) := by
  refine h.op (k := [.bpm]) ?_ hl
  unfold State.giveCells
  dsimp only
  exact (refl _).setBpm

theorem enqueueCopy (h : Touches l s t) {q : ℕ} {m : Master} {c : Copy} (hl : [.clk, .trans, .intc, .bpm, .mem, .out] ⊆ l := by decide) :
    Touches l s (t.enqueueCopy q m c).2 := by
  refine h.op (k := [.clk, .trans, .intc, .bpm, .mem, .out]) ?_ hl
  unfold State.enqueueCopy
  dsimp only
  split
  · exact (refl _).queueDrop.transCount
  · split
    · exact (refl _).queueDrop
    · exact (refl _).takeCells.giveCells.fillCells.setQueue

theorem ownReport (h : Touches l s t) {vlan : BitVec 12} {group : Bytes} {source : Option Bytes} {join : Bool}
    (hl : [.clk, .trans, .intc, .bpm, .mem, .out] ⊆ l := by decide) : Touches l s (t.ownReport vlan group source join) := by
  refine h.op (k := [.clk, .trans, .intc, .bpm, .mem, .out]) ?_ hl
  unfold State.ownReport
  dsimp only
  exact freed (foldl (refl _) fun _ _ hu => hu.enqueueCopy)

theorem reportRow (h : Touches l s t) {c : ℕ} {join : Bool} (hl : [.clk, .trans, .intc, .bpm, .mem, .out] ⊆ l := by decide) :
    Touches l s (t.reportRow c join) := by
  refine h.op (k := [.clk, .trans, .intc, .bpm, .mem, .out]) ?_ hl
  unfold State.reportRow
  dsimp only
  exact ite (refl _).ownReport (refl _)

theorem decState (h : Touches l s t) {m : Master} {c : ℕ} {st : DecState} (hl : [.decs, .intc, .mem, .out] ⊆ l := by decide) :
    Touches l s (t.decState m c st) := by
  refine h.op (k := [.decs, .intc, .mem, .out]) ?_ hl
  unfold State.decState
  dsimp only
  exact ite (refl _).setDec (refl _).setDec.raise

theorem unsync (h : Touches l s t) {c : ℕ} (hl : [.decs, .intc, .mem, .out] ⊆ l := by decide) : Touches l s (t.unsync c) := by
  refine h.op (k := [.decs, .intc, .mem, .out]) ?_ hl
  unfold State.unsync
  dsimp only
  exact (refl _).setDec.decState

theorem decBegin (h : Touches l s t) {c : ℕ} (hl : [.clk, .pool, .decs, .trans, .intc, .bpm, .mem, .out] ⊆ l := by decide) :
    Touches l s (t.decBegin c) := by
  refine h.op (k := [.clk, .pool, .decs, .trans, .intc, .bpm, .mem, .out]) ?_ hl
  unfold State.decBegin
  dsimp only
  split
  · refine reportRow ?_
    refine unsync ?_
    refine ownSurface ?_
    refine setDec ?_
    refine freed ?_
    split
    · exact refl _
    · exact (refl _).allocFrames
  · refine ownSurface ?_
    refine setDec ?_
    refine freed ?_
    split
    · exact refl _
    · exact (refl _).allocFrames

theorem pairEvent (h : Touches l s t) (hl : [.intc, .mem, .out] ⊆ l := by decide) : Touches l s t.pairEvent :=
  h.op (k := [.intc, .mem, .out]) ((refl _).raise) hl

theorem pairChanged (h : Touches l s t) {old : State} (hl : [.intc, .mem, .out] ⊆ l := by decide) :
    Touches l s (t.pairChanged old) := by
  refine h.op (k := [.intc, .mem, .out]) ?_ hl
  unfold State.pairChanged
  exact ite (refl _) (refl _).pairEvent

theorem storeRole (h : Touches l s t) (hl : [.boot, .store] ⊆ l := by decide) : Touches l s t.storeRole := by
  refine h.op (k := [.boot, .store]) ?_ hl
  unfold State.storeRole
  dsimp only
  exact ite (refl _).setBoot (refl _).setStore

theorem setEnc (h : Touches l s t) {n : ℕ} {e : Enc} (hl : [.encs] ⊆ l := by decide) : Touches l s (t.setEnc n e) :=
  h.setEncs hl

theorem orphanJobs (h : Touches l s t) {n : ℕ} (hl : [.batten] ⊆ l := by decide) : Touches l s (t.orphanJobs n) := by
  refine h.op (k := [.batten]) ?_ hl
  unfold State.orphanJobs
  dsimp only
  exact (refl _).setBatten

theorem keepTail (h : Touches l s t) {n : ℕ} (hl : [.tiles, .trans] ⊆ l := by decide) : Touches l s (t.keepTail n) := by
  refine h.op (k := [.tiles, .trans]) ?_ hl
  unfold State.keepTail
  dsimp only
  exact ite ((refl _).write [.tiles, .trans] fun p hp => by cases p <;> simp at hp <;> rfl) (refl _)

theorem releaseStream (h : Touches l s t) {n : ℕ}
    (hl : [.clk, .pins, .store, .paths, .tiles, .encs, .batten, .pool, .trans, .intc, .mem, .faults, .out] ⊆ l := by decide) :
    Touches l s (t.releaseStream n) := by
  refine h.op (k := [.clk, .pins, .store, .paths, .tiles, .encs, .batten, .pool, .trans, .intc, .mem, .faults, .out]) ?_ hl
  unfold State.releaseStream
  dsimp only
  exact ite (setEnc (releaseSlots (foldl (refl _).keepTail.orphanJobs fun _ _ hu => hu.releaseBlock)).setEncs) (releaseSlots (foldl
    (refl _).keepTail.orphanJobs fun _ _ hu => hu.releaseBlock)).setEncs

theorem stopStream (h : Touches l s t) {n : ℕ} {restart : Bool}
    (hl : [.clk, .pins, .store, .paths, .tiles, .encs, .batten, .pool, .trans, .intc, .mem, .faults, .out] ⊆ l := by decide) :
    Touches l s (t.stopStream n restart) := by
  refine h.op (k := [.clk, .pins, .store, .paths, .tiles, .encs, .batten, .pool, .trans, .intc, .mem, .faults, .out]) ?_ hl
  unfold State.stopStream
  dsimp only
  split
  · exact refl _
  · exact ite (refl _).setEnc (refl _).setEnc.releaseStream

theorem releasePic (h : Touches l s t) {m : Master} {p : DecPic}
    (hl : [.clk, .pins, .store, .paths, .pool, .intc, .mem, .faults, .out] ⊆ l := by decide) : Touches l s (t.releasePic m p) :=
  h.op (k := [.clk, .pins, .store, .paths, .pool, .intc, .mem, .faults, .out]) ((refl _).releaseSlots) hl

theorem forgetPic (h : Touches l s t) {m : Master} {p : DecPic}
    (hl : [.clk, .pins, .store, .paths, .pool, .intc, .mem, .faults, .out] ⊆ l := by decide) : Touches l s (t.forgetPic m p) :=
  h.op (k := [.clk, .pins, .store, .paths, .pool, .intc, .mem, .faults, .out]) ((refl _).releasePic.releaseSlots) hl

theorem releaseDec (h : Touches l s t) {m : Master} {c : ℕ}
    (hl : [.clk, .pins, .store, .paths, .pool, .decs, .intc, .mem, .faults, .out] ⊆ l := by decide) :
    Touches l s (t.releaseDec m c) := by
  refine h.op (k := [.clk, .pins, .store, .paths, .pool, .decs, .intc, .mem, .faults, .out]) ?_ hl
  unfold State.releaseDec
  dsimp only
  refine setDec ?_
  refine decState ?_
  refine ownSurface ?_
  refine releaseSlots ?_
  refine foldl ?_ fun u a hu => ?_
  · split
    · exact releasePic (foldl (refl _) fun _ _ hu => hu.forgetPic)
    · exact foldl (refl _) fun _ _ hu => hu.forgetPic
  · exact hu.releasePic

theorem closeDec (h : Touches l s t) {m : Master} {c : ℕ}
    (hl : [.clk, .pins, .store, .paths, .pool, .decs, .trans, .intc, .bpm, .mem, .faults, .out] ⊆ l := by decide) :
    Touches l s (t.closeDec m c) := by
  refine h.op (k := [.clk, .pins, .store, .paths, .pool, .decs, .trans, .intc, .bpm, .mem, .faults, .out]) ?_ hl
  unfold State.closeDec
  dsimp only
  exact ite (refl _) (ite (refl _).releaseDec.setDec.decBegin (refl _).releaseDec)

theorem decEnd (h : Touches l s t) {c : ℕ}
    (hl : [.clk, .pins, .store, .paths, .pool, .decs, .trans, .intc, .bpm, .mem, .faults, .out] ⊆ l := by decide) :
    Touches l s (t.decEnd c) := by
  refine h.op (k := [.clk, .pins, .store, .paths, .pool, .decs, .trans, .intc, .bpm, .mem, .faults, .out]) ?_ hl
  unfold State.decEnd
  dsimp only
  exact (refl _).setDec.reportRow.closeDec

theorem answerDgram (h : Touches l s t) {r : Req} {reqId : Word} {keep : Bool} (hl : [.paths, .out] ⊆ l := by decide) :
    Touches l s (t.answerDgram r reqId keep) := by
  refine h.op (k := [.paths, .out]) ?_ hl
  unfold State.answerDgram
  dsimp only
  split
  · exact (refl _).write [.paths, .out] fun p hp => by cases p <;> simp at hp <;> rfl
  · exact refl _

theorem endBar2 (h : Touches l s t) {st : Status} {read : Bool} {value : Bytes} (hl : [.bar2, .intc, .out] ⊆ l := by decide) :
    Touches l s (t.endBar2 st read value) := by
  refine h.op (k := [.bar2, .intc, .out]) ?_ hl
  unfold State.endBar2
  dsimp only
  exact (refl _).setBar2.settleInts

theorem reply (h : Touches l s t) {r : Req} {keep : Bool} (hl : [.paths, .bar2, .intc, .out] ⊆ l := by decide) :
    Touches l s (t.reply r keep) := by
  refine h.op (k := [.paths, .bar2, .intc, .out]) ?_ hl
  unfold State.reply
  dsimp only
  split
  · exact (refl _).setOut
  · exact (refl _).emit
  · exact (refl _).answerDgram
  · exact (refl _).endBar2
  · exact (refl _).emit
  · exact refl _

theorem finish (h : Touches l s t) {id : ℕ} (hl : [.dict, .paths, .bar2, .intc, .out] ⊆ l := by decide) :
    Touches l s (t.finish id) := by
  refine h.op (k := [.dict, .paths, .bar2, .intc, .out]) ?_ hl
  unfold State.finish
  dsimp only
  split
  · exact refl _
  · exact ite (refl _).setDict.reply (refl _)

theorem finishAll (h : Touches l s t) (hl : [.dict, .paths, .bar2, .intc, .out] ⊆ l := by decide) : Touches l s t.finishAll := by
  refine h.op (k := [.dict, .paths, .bar2, .intc, .out]) ?_ hl
  unfold State.finishAll
  exact foldl (refl _) fun _ _ hu => hu.finish

theorem setReq (h : Touches l s t) {id : ℕ} {f : Req → Req} (hl : [.dict] ⊆ l := by decide) : Touches l s (t.setReq id f) := by
  refine h.op (k := [.dict]) ?_ hl
  unfold State.setReq
  dsimp only
  exact (refl _).setDict

theorem endOp (h : Touches l s t) {id k : ℕ} {st : Status} {value : Bytes} (hl : [.dict] ⊆ l := by decide) :
    Touches l s (t.endOp id k st value) := by
  refine h.op (k := [.dict]) ?_ hl
  unfold State.endOp
  dsimp only
  split
  · exact refl _
  · exact ite (refl _) (ite (refl _).setReq.setDict (refl _).setReq)

theorem answerRead (h : Touches l s t) {r : Req} {k : ℕ} {o : ReqOp} (hl : [.clk, .dict] ⊆ l := by decide) :
    Touches l s (t.answerRead r k o) := by
  refine h.op (k := [.clk, .dict]) ?_ hl
  unfold State.answerRead
  dsimp only
  split
  · exact ite (refl _).endOp (refl _).endOp
  · split
    · exact (refl _).endOp
    · exact ite (ite (endOp (ite (refl _).freed (refl _))) (endOp (ite (refl _).freed (refl _)))) (ite (endOp (ite (refl _).freed (refl
        _))) (endOp (ite (refl _).freed (refl _))))

theorem answerReads (h : Touches l s t) (hl : [.clk, .dict] ⊆ l := by decide) : Touches l s t.answerReads := by
  refine h.op (k := [.clk, .dict]) ?_ hl
  unfold State.answerReads
  dsimp only
  refine (refl _).foldl fun u a hu => ?_
  split
  · exact hu
  · split
    · exact hu
    · exact ite hu.answerRead hu

theorem settleDict (h : Touches l s t) (hl : [.clk, .dict, .paths, .bar2, .intc, .out] ⊆ l := by decide) : Touches l s t.settleDict :=
  h.op (k := [.clk, .dict, .paths, .bar2, .intc, .out]) ((refl _).answerReads.finishAll) hl

theorem setSess (h : Touches l s t) {se : Session} {v : SessState} (hl : [.dict] ⊆ l := by decide) : Touches l s (t.setSess se v) := by
  refine h.op (k := [.dict]) ?_ hl
  unfold State.setSess
  dsimp only
  exact (refl _).setDict

theorem closeRecord (h : Touches l s t) (hl : [.dict] ⊆ l := by decide) : Touches l s t.closeRecord := by
  refine h.op (k := [.dict]) ?_ hl
  unfold State.closeRecord
  dsimp only
  split
  · exact refl _
  · exact (refl _).setDict

theorem setSparing (h : Touches l s t) {p : Sparing} (hl : [.store, .faults] ⊆ l := by decide) : Touches l s (t.setSparing p) := by
  refine h.op (k := [.store, .faults]) ?_ hl
  unfold State.setSparing
  dsimp only
  exact ite (refl _).setFaults ((refl _).write [.store, .faults] fun p hp => by cases p <;> simp at hp <;> rfl)

theorem pushAct (h : Touches l s t) {e : JEntry} (hl : [.dict, .selv] ⊆ l := by decide) : Touches l s (t.pushAct e) := by
  refine h.op (k := [.dict, .selv]) ?_ hl
  unfold State.pushAct
  dsimp only
  split
  · exact refl _
  · split
    · split
      · exact ite (ite (refl _) (refl _).setSess) (refl _).setSelv
      · exact refl _
    · split
      · split
        · exact (refl _).setSelv
        · exact refl _
      · exact (refl _).setDict

theorem moveBlock (h : Touches l s t) {b : ℕ} {toDdr bad : Bool} (hl : [.clk, .pool, .mem] ⊆ l := by decide) :
    Touches l s (t.moveBlock b toDdr bad) := by
  refine h.op (k := [.clk, .pool, .mem]) ?_ hl
  unfold State.moveBlock
  dsimp only
  exact ite (refl _) ((refl _).write [.clk, .pool, .mem] fun p hp => by cases p <;> simp at hp <;> rfl)

theorem fetchRecord (h : Touches l s t) {e : Enc} {k : ℕ} (hl : [.clk, .pool, .mem] ⊆ l := by decide) :
    Touches l s (t.fetchRecord e k) := by
  refine h.op (k := [.clk, .pool, .mem]) ?_ hl
  unfold State.fetchRecord
  dsimp only
  exact ite (foldl (refl _) fun _ _ hu => hu.moveBlock) (poolCount (foldl (refl _) fun _ _ hu => hu.moveBlock))

theorem encWritten (h : Touches l s t) {old : State} {n sub : ℕ}
    (hl : [.clk, .pins, .store, .paths, .tiles, .encs, .batten, .pool, .trans, .intc, .mem, .faults, .out] ⊆ l := by decide) :
    Touches l s (t.encWritten old n sub) := by
  refine h.op (k := [.clk, .pins, .store, .paths, .tiles, .encs, .batten, .pool, .trans, .intc, .mem, .faults, .out]) ?_ hl
  unfold State.encWritten
  dsimp only
  split
  · exact ite (ite (refl _) (refl _).stopStream) (ite (ite (refl _) (refl _).allocFrames.setEnc) (refl _).releaseStream)
  · split
    · exact refl _
    · exact ite (refl _) (ite (refl _).stopStream (ite (refl _).setEnc (ite (refl _).setEnc (ite (refl _).fetchRecord (refl _)))))

theorem decWritten (h : Touches l s t) {old : State} (hold : Touches l s old) {c sub : ℕ}
    (hl : [.clk, .pins, .store, .dict, .paths, .pool, .decs, .trans, .intc, .bpm, .mem, .faults, .out] ⊆ l := by decide) :
    Touches l s (t.decWritten old c sub) := by
  have hgroup : Touches l s (if sub = 3 ∨ sub = 5 ∨ sub = 6 then { (old.reportRow c false) with dict := t.dict } else t) :=
    ite (hold.op (k := [.clk, .pins, .store, .dict, .paths, .pool, .decs, .trans, .intc, .bpm, .mem, .faults, .out]) (refl
      _).reportRow.setDict hl) h
  have hunsync : Touches l s (((if sub = 3 ∨ sub = 5 ∨ sub = 6 then { (old.reportRow c false) with dict := t.dict } else t).setDec c
      { (if sub = 3 ∨ sub = 5 ∨ sub = 6 then { (old.reportRow c false) with dict := t.dict } else t).dec c with ssrc := none }).unsync
        c) :=
    hgroup.op (k := [.clk, .pins, .store, .dict, .paths, .pool, .decs, .trans, .intc, .bpm, .mem, .faults, .out]) (refl _).setDec.unsync
      hl
  unfold State.decWritten
  dsimp only
  split
  · exact h.op (k := [.clk, .pins, .store, .dict, .paths, .pool, .decs, .trans, .intc, .bpm, .mem, .faults, .out]) (refl _).setDec hl
  · split
    · exact h
    · split
      · exact ite (h.op (k := [.clk, .pins, .store, .dict, .paths, .pool, .decs, .trans, .intc, .bpm, .mem, .faults, .out]) (refl
          _).decBegin hl) (h.op (k := [.clk, .pins, .store, .dict, .paths, .pool, .decs, .trans, .intc, .bpm, .mem, .faults, .out])
          (refl _).decEnd hl)
      · split
        · exact ite (hunsync.op (k := [.clk, .pins, .store, .dict, .paths, .pool, .decs, .trans, .intc, .bpm, .mem, .faults, .out])
            (refl _).reportRow hl) hunsync
        · exact h

theorem logLearn (h : Touches l s t) {d : LearnDelta} (hl : [.selv, .pair, .out] ⊆ l := by decide) : Touches l s (t.logLearn d) := by
  refine h.op (k := [.selv, .pair, .out]) ?_ hl
  unfold State.logLearn
  dsimp only
  exact (refl _).write [.selv, .pair, .out] fun p hp => by cases p <;> simp at hp <;> rfl

theorem epWritten (h : Touches l s t) {old : State} {e sub : ℕ} (hl : [.selv, .trans, .pair, .out] ⊆ l := by decide) :
    Touches l s (t.epWritten old e sub) := by
  refine h.op (k := [.selv, .trans, .pair, .out]) ?_ hl
  unfold State.epWritten
  dsimp only
  exact ite (refl _).setEp (ite (refl _) (ite (refl _).setEp.logLearn (ite (refl _).setTrans (refl _))))

theorem rejectBuffer (h : Touches l s t) {m : Master} {b reason : ℕ}
    (hl : [.clk, .pins, .store, .paths, .intc, .bpm, .mem, .faults, .out] ⊆ l := by decide) :
    Touches l s (t.rejectBuffer m b reason) := by
  refine h.op (k := [.clk, .pins, .store, .paths, .intc, .bpm, .mem, .faults, .out]) ?_ hl
  unfold State.rejectBuffer
  dsimp only
  exact (refl _).setBpm.raise.contained

theorem freeBuffer (h : Touches l s t) {m : Master} {b : ℕ}
    (hl : [.clk, .pins, .store, .paths, .intc, .bpm, .mem, .faults, .out] ⊆ l := by decide) : Touches l s (t.freeBuffer m b) := by
  refine h.op (k := [.clk, .pins, .store, .paths, .intc, .bpm, .mem, .faults, .out]) ?_ hl
  unfold State.freeBuffer
  split
  · exact (refl _).rejectBuffer
  · exact ite (refl _).watermark (refl _).rejectBuffer

theorem dropCells (h : Touches l s t) {m : Master} {l1 : List ℕ}
    (hl : [.clk, .pins, .store, .paths, .intc, .bpm, .mem, .faults, .out] ⊆ l := by decide) : Touches l s (t.dropCells m l1) := by
  refine h.op (k := [.clk, .pins, .store, .paths, .intc, .bpm, .mem, .faults, .out]) ?_ hl
  unfold State.dropCells
  exact foldl (refl _) fun _ _ hu => hu.freeBuffer

theorem discardQueue (h : Touches l s t) {q : ℕ}
    (hl : [.clk, .pins, .store, .paths, .trans, .intc, .bpm, .mem, .faults, .out] ⊆ l := by decide) :
    Touches l s (t.discardQueue q) := by
  refine h.op (k := [.clk, .pins, .store, .paths, .trans, .intc, .bpm, .mem, .faults, .out]) ?_ hl
  unfold State.discardQueue
  dsimp only
  exact setQueue (foldl (refl _) fun _ _ hu => hu.dropCells)

theorem schedWritten (h : Touches l s t) {old : State} {idx n sub : ℕ}
    (hl : [.clk, .pins, .store, .paths, .trans, .intc, .bpm, .mem, .faults, .out] ⊆ l := by decide) :
    Touches l s (t.schedWritten old idx n sub) := by
  refine h.op (k := [.clk, .pins, .store, .paths, .trans, .intc, .bpm, .mem, .faults, .out]) ?_ hl
  unfold State.schedWritten
  dsimp only
  exact ite (refl _) (ite (ite (refl _).setQueue (refl _).discardQueue) (ite (refl _).setTrans (ite (refl _).setTrans (refl _))))

theorem downFlush (h : Touches l s t) {port : ℕ} (hl : [.selv] ⊆ l := by decide) : Touches l s (t.downFlush port) := by
  refine h.op (k := [.selv]) ?_ hl
  unfold State.downFlush
  dsimp only
  exact ite (refl _) (refl _).setSelv

theorem linkDown (h : Touches l s t) {port : ℕ}
    (hl : [.clk, .pins, .store, .paths, .selv, .trans, .intc, .bpm, .mem, .faults, .out] ⊆ l := by decide) :
    Touches l s (t.linkDown port) := by
  refine h.op (k := [.clk, .pins, .store, .paths, .selv, .trans, .intc, .bpm, .mem, .faults, .out]) ?_ hl
  unfold State.linkDown
  dsimp only
  exact ite (refl _) (ite (downFlush (foldl ((refl _).write [.selv, .trans] fun p hp => by cases p <;> simp at hp <;> rfl) fun _ _ hu =>
    hu.discardQueue)) (foldl ((refl _).write [.selv, .trans] fun p hp => by cases p <;> simp at hp <;> rfl) fun _ _ hu =>
    hu.discardQueue))

theorem updateVar (h : Touches l s t) {bank v : ℕ} {u1 : VarUpdate} (hl : [.batten] ⊆ l := by decide) :
    Touches l s (t.updateVar bank v u1) := by
  refine h.op (k := [.batten]) ?_ hl
  unfold State.updateVar
  dsimp only
  exact (refl _).setBankVar.setBatten

theorem patchWritten (h : Touches l s t) (hl : [.tiles] ⊆ l := by decide) : Touches l s t.patchWritten := by
  refine h.op (k := [.tiles]) ?_ hl
  unfold State.patchWritten
  dsimp only
  exact foldl (refl _) fun _ _ hu => (ite hu hu.setTile)

theorem polarityWritten (h : Touches l s t) {old : State} (hl : [.faults] ⊆ l := by decide) : Touches l s (t.polarityWritten old) := by
  refine h.op (k := [.faults]) ?_ hl
  unfold State.polarityWritten
  dsimp only
  exact (refl _).setFaults

theorem written (h : Touches l s t) {old : State} (hold : Touches l s old) {idx sub : ℕ} {row : Option ℕ} {v : PVal}
    (hl : [.clk, .pins, .store, .dict, .paths, .tiles, .encs, .batten, .pool, .decs, .selv, .trans, .intc, .bpm, .mem, .faults, .pair,
      .out] ⊆ l := by decide) :
    Touches l s (t.written old idx sub row v) := by
  have r : Touches [.clk, .pins, .store, .dict, .paths, .tiles, .encs, .batten, .pool, .decs, .selv, .trans, .intc, .bpm, .mem, .faults,
    .pair, .out] t t := refl _
  unfold State.written
  split
  · exact ite (h.op r.encWritten hl) (ite (h.decWritten hold (List.Subset.trans (by decide) hl)) (h.op (ite r.epWritten r.schedWritten)
      hl))
  · exact h.op (ite (ite r (foldl r fun _ _ hu => hu.linkDown))
      (ite (r.write [.store, .selv] fun p hp => by cases p <;> simp at hp <;> rfl) (ite r.setBatten (ite r.setBatten (ite r.updateVar
        (ite r.patchWritten (ite r.syncGpio (ite r.polarityWritten r)))))))) hl

theorem apply (h : Touches l s t) {e : JEntry}
    (hl : [.clk, .pins, .store, .dict, .paths, .tiles, .encs, .batten, .pool, .decs, .selv, .trans, .time, .intc, .bpm, .mem, .faults,
      .pair, .out] ⊆ l := by decide) : Touches l s (t.apply e) := by
  refine h.op (k := [.clk, .pins, .store, .dict, .paths, .tiles, .encs, .batten, .pool, .decs, .selv, .trans, .time, .intc, .bpm, .mem,
    .faults, .pair, .out]) ?_ hl
  have hlast (seq tag obj) : Touches [.clk, .pins, .store, .dict, .paths, .tiles, .encs, .batten, .pool, .decs, .selv, .trans, .time,
    .intc, .bpm, .mem, .faults, .pair, .out] t
      { t with dict := { t.dict with lastSeq := seq, lastTag := tag, lastObj := obj } } := (refl _).setDict
  unfold State.apply
  dsimp only
  split
  · exact hlast _ _ _
  · split
    · exact pushAct (hlast _ _ _)
    · have hput (c : Prop) [Decidable c] (seq tag obj) (idx sub : ℕ) (row : Option ℕ) : Touches [.clk, .pins, .store, .dict, .paths,
        .tiles, .encs, .batten, .pool, .decs, .selv, .trans, .time, .intc, .bpm, .mem, .faults, .pair, .out] t
          ((if c then State.clockView { t with dict := { t.dict with lastSeq := seq, lastTag := tag, lastObj := obj } }
            else { t with dict := { t.dict with lastSeq := seq, lastTag := tag, lastObj := obj } }).putParam idx sub row e.val) :=
        putParam (ite (clockView (hlast _ _ _)) (hlast _ _ _))
      exact ite (hput _ _ _ _ _ _ _) (written (hput _ _ _ _ _ _ _) (hlast _ _ _))

theorem mirror (h : Touches l s t) {l1 : List JEntry} (hl : [.pair, .out] ⊆ l := by decide) : Touches l s (t.mirror l1) := by
  refine h.op (k := [.pair, .out]) ?_ hl
  unfold State.mirror
  dsimp only
  exact ite (refl _) ((refl _).write [.pair, .out] fun p hp => by cases p <;> simp at hp <;> rfl)

theorem relayedDone (h : Touches l s t) {l1 : List JEntry} (hl : [.dict, .pair] ⊆ l := by decide) : Touches l s (t.relayedDone l1) := by
  refine h.op (k := [.dict, .pair]) ?_ hl
  unfold State.relayedDone
  dsimp only
  refine (refl _).foldl fun u a hu => ?_
  split
  · exact hu.setPair.endOp
  · exact hu

theorem acknowledge (h : Touches l s t) {l1 : List JEntry} (hl : [.dict] ⊆ l := by decide) : Touches l s (t.acknowledge l1) := by
  refine h.op (k := [.dict]) ?_ hl
  unfold State.acknowledge
  exact foldl (refl _) fun _ _ hu => (ite hu hu.endOp)

theorem mirrorStream (h : Touches l s t) {n : ℕ} {header : Bytes} (hl : [.encs] ⊆ l := by decide) :
    Touches l s (t.mirrorStream n header) := by
  refine h.op (k := [.encs]) ?_ hl
  unfold State.mirrorStream
  dsimp only
  split
  · exact refl _
  · exact (refl _).setEnc

theorem takeHeads (h : Touches l s t) (hl : [.encs, .pair] ⊆ l := by decide) : Touches l s t.takeHeads := by
  refine h.op (k := [.encs, .pair]) ?_ hl
  unfold State.takeHeads
  dsimp only
  exact ite (refl _) (foldl (refl _).setPair fun _ _ hu => hu.mirrorStream)

theorem closeDue (h : Touches l s t) (hl : [.dict] ⊆ l := by decide) : Touches l s t.closeDue := by
  refine h.op (k := [.dict]) ?_ hl
  unfold State.closeDue
  split
  · exact ite (refl _).closeRecord (refl _)
  · exact refl _

theorem setChan (h : Touches l s t) {n : ℕ} {c : Dma} (hl : [.dma] ⊆ l := by decide) : Touches l s (t.setChan n c) := by
  refine h.op (k := [.dma]) ?_ hl
  unfold State.setChan
  dsimp only
  exact (refl _).setDma

theorem setBob (h : Touches l s t) {b : BobbinId} {v : Bobbin} (hl : [.bobs] ⊆ l := by decide) : Touches l s (t.setBob b v) :=
  h.setBobs hl

theorem bobSrc (h : Touches l s t) {b : BobbinId} (hl : [.clk, .bobs] ⊆ l := by decide) : Touches l s (t.bobSrc b) :=
  h.op (k := [.clk, .bobs]) ((refl _).setBob.freed) hl

theorem bobPush (h : Touches l s t) {b : BobbinId} {xs : List (BitVec 256)} (hl : [.bobs] ⊆ l := by decide) :
    Touches l s (t.bobPush b xs) :=
  h.setBob hl

theorem dmaStart (h : Touches l s t) {ch : ℕ} (hl : [.dma] ⊆ l := by decide) : Touches l s (t.dmaStart ch) := by
  refine h.op (k := [.dma]) ?_ hl
  unfold State.dmaStart
  dsimp only
  exact ite (refl _).setChan (refl _).setChan

theorem dmaHeld (h : Touches l s t) {ch : ℕ} (hl : [.dma] ⊆ l := by decide) : Touches l s (t.dmaHeld ch) := by
  refine h.op (k := [.dma]) ?_ hl
  unfold State.dmaHeld
  dsimp only
  exact ite (refl _).dmaStart (refl _)

theorem dmaUnhalt (h : Touches l s t) (hl : [.dma] ⊆ l := by decide) : Touches l s t.dmaUnhalt := by
  refine h.op (k := [.dma]) ?_ hl
  unfold State.dmaUnhalt
  dsimp only
  exact ite (refl _) (foldl (refl _).setDma fun _ _ hu => hu.dmaHeld)

theorem readAccess (h : Touches l s t) {l1 : List (ℕ × ℕ)} (hl : [.mem] ⊆ l := by decide) : Touches l s (t.readAccess l1) := by
  refine h.op (k := [.mem]) ?_ hl
  unfold State.readAccess
  exact foldl (refl _) fun _ _ hu => hu.ddrTouch

theorem dmaPut (h : Touches l s t) {ch : ℕ} {c : Dma} {b : Bytes}
    (hl : [.clk, .pins, .store, .paths, .pool, .intc, .mem, .faults, .out] ⊆ l := by decide) : Touches l s (t.dmaPut ch c b) := by
  refine h.op (k := [.clk, .pins, .store, .paths, .pool, .intc, .mem, .faults, .out]) ?_ hl
  unfold State.dmaPut
  exact foldlFst (refl _) fun q _ hq => ite hq.devWrite hq.emit

theorem dmaMove (h : Touches l s t) {ch : ℕ} {b : Bytes}
    (hl : [.clk, .pins, .store, .paths, .pool, .dma, .intc, .mem, .faults, .out] ⊆ l := by decide) : Touches l s (t.dmaMove ch b) := by
  refine h.op (k := [.clk, .pins, .store, .paths, .pool, .dma, .intc, .mem, .faults, .out]) ?_ hl
  unfold State.dmaMove
  dsimp only
  exact setChan (dmaPut (ite (refl _).readAccess (refl _)))

theorem dmaDrain (h : Touches l s t) {ch : ℕ}
    (hl : [.clk, .pins, .store, .paths, .pool, .dma, .intc, .mem, .faults, .out] ⊆ l := by decide) : Touches l s (t.dmaDrain ch) := by
  refine h.op (k := [.clk, .pins, .store, .paths, .pool, .dma, .intc, .mem, .faults, .out]) ?_ hl
  unfold State.dmaDrain
  dsimp only
  exact (refl _).freed.dmaMove

theorem dmaEnd (h : Touches l s t) {ch : ℕ} {code : BitVec 4} (hl : [.dma] ⊆ l := by decide) : Touches l s (t.dmaEnd ch code) := by
  refine h.op (k := [.dma]) ?_ hl
  unfold State.dmaEnd
  dsimp only
  exact (refl _).setChan

theorem dmaPause (h : Touches l s t) {ch : ℕ}
    (hl : [.clk, .pins, .store, .paths, .pool, .dma, .intc, .mem, .faults, .out] ⊆ l := by decide) : Touches l s (t.dmaPause ch) := by
  refine h.op (k := [.clk, .pins, .store, .paths, .pool, .dma, .intc, .mem, .faults, .out]) ?_ hl
  unfold State.dmaPause
  dsimp only
  exact ite (ite (refl _).setChan.dmaDrain.dmaEnd.dmaHeld (refl _).setChan.dmaDrain.setChan) (refl _).setChan

theorem dmaResume (h : Touches l s t) {ch : ℕ} (hl : [.dma] ⊆ l := by decide) : Touches l s (t.dmaResume ch) := by
  refine h.op (k := [.dma]) ?_ hl
  unfold State.dmaResume
  dsimp only
  exact (refl _).setChan

theorem dmaAbort (h : Touches l s t) {ch : ℕ}
    (hl : [.clk, .pins, .store, .paths, .pool, .dma, .intc, .mem, .faults, .out] ⊆ l := by decide) : Touches l s (t.dmaAbort ch) := by
  refine h.op (k := [.clk, .pins, .store, .paths, .pool, .dma, .intc, .mem, .faults, .out]) ?_ hl
  unfold State.dmaAbort
  dsimp only
  exact ite (refl _) (dmaHeld (dmaEnd (ite (refl _).dmaDrain (refl _))))

theorem dmaGo (h : Touches l s t) {ch : ℕ} (hl : [.dma] ⊆ l := by decide) : Touches l s (t.dmaGo ch) := by
  refine h.op (k := [.dma]) ?_ hl
  unfold State.dmaGo
  dsimp only
  exact ite (refl _) (ite (refl _).setChan (refl _).dmaStart)

theorem staleEntries (h : Touches l s t) {l1 : List (BitVec 18)} (hl : [.bpm] ⊆ l := by decide) : Touches l s (t.staleEntries l1) := by
  refine h.op (k := [.bpm]) ?_ hl
  unfold State.staleEntries
  dsimp only
  exact ite (refl _) (refl _).setBpm

theorem rated (h : Touches l s t) (hl : [.bpm] ⊆ l := by decide) : Touches l s t.rated := by
  refine h.op (k := [.bpm]) ?_ hl
  unfold State.rated
  dsimp only
  exact ite (refl _) (refl _).setBpm

theorem bobDst (h : Touches l s t) {b : BobbinId} (hl : [.clk, .bobs] ⊆ l := by decide) : Touches l s (t.bobDst b) := by
  refine h.op (k := [.clk, .bobs]) ?_ hl
  unfold State.bobDst
  dsimp only
  exact (refl _).bobSrc.setBob.freed

theorem bobDrop (h : Touches l s t) {b : BobbinId} {n : ℕ} (hl : [.bobs] ⊆ l := by decide) : Touches l s (t.bobDrop b n) :=
  h.setBob hl

theorem readItem (h : Touches l s t) {b : BobbinId} {e : Ecc}
    (hl : [.clk, .pins, .store, .paths, .intc, .mem, .faults, .out] ⊆ l := by decide) : Touches l s (t.readItem b e) := by
  refine h.op (k := [.clk, .pins, .store, .paths, .intc, .mem, .faults, .out]) ?_ hl
  unfold State.readItem
  split
  · exact refl _
  · exact (refl _).correctedBy
  · exact (refl _).countBin.contained

theorem chargeTo (h : Touches l s t) {h1 : Holder} (hl : [.faults] ⊆ l := by decide) : Touches l s (t.chargeTo h1) := by
  refine h.op (k := [.faults]) ?_ hl
  unfold State.chargeTo
  dsimp only
  exact (refl _).setFaults

theorem nameBlock (h : Touches l s t) {m : Master} {b : ℕ} {g : BitVec 16} {h1 : Holder}
    (hl : [.clk, .pins, .store, .paths, .pool, .intc, .mem, .faults, .out] ⊆ l := by decide) : Touches l s (t.nameBlock m b g h1) := by
  refine h.op (k := [.clk, .pins, .store, .paths, .pool, .intc, .mem, .faults, .out]) ?_ hl
  unfold State.nameBlock
  dsimp only
  exact ite (refl _).refuseDesc (refl _).setDesc

theorem substSlot (h : Touches l s t) {m : Master} {n p : ℕ} {lost : Bool} {from_ : BitVec 16}
    (hl : [.clk, .pins, .store, .paths, .pool, .intc, .mem, .faults, .out] ⊆ l := by decide) :
    Touches l s (t.substSlot m n p lost from_).2 := by
  refine h.op (k := [.clk, .pins, .store, .paths, .pool, .intc, .mem, .faults, .out]) ?_ hl
  unfold State.substSlot
  dsimp only
  exact nameBlock (ite (refl _).poolCount (refl _))

theorem substTable (h : Touches l s t) {m : Master} {n : ℕ} {lost : Bool} {k p : ℕ}
    (hl : [.clk, .pins, .store, .paths, .pool, .intc, .mem, .faults, .out] ⊆ l := by decide) : Touches l s (t.substTable m n lost k p).2
      := by
  induction k generalizing t p with
  | zero => exact h
  | succ k ih => exact ih (h.op (k := [.clk, .pins, .store, .paths, .pool, .intc, .mem, .faults, .out]) (refl _).substSlot hl)

theorem loseRefs (h : Touches l s t) {m : Master} {n : ℕ}
    (hl : [.clk, .pins, .store, .paths, .encs, .pool, .intc, .mem, .faults, .out] ⊆ l := by decide) : Touches l s (t.loseRefs m n) := by
  refine h.op (k := [.clk, .pins, .store, .paths, .encs, .pool, .intc, .mem, .faults, .out]) ?_ hl
  unfold State.loseRefs
  dsimp only
  exact setEnc (foldl (refl _).substTable fun _ _ hu => hu.releaseSlots)

theorem checkLost (h : Touches l s t) {m : Master} {n : ℕ}
    (hl : [.clk, .pins, .store, .paths, .encs, .pool, .intc, .mem, .faults, .out] ⊆ l := by decide) :
    Touches l s (t.checkLost m n) := by
  refine h.op (k := [.clk, .pins, .store, .paths, .encs, .pool, .intc, .mem, .faults, .out]) ?_ hl
  unfold State.checkLost
  dsimp only
  exact ite (refl _).loseRefs (refl _)

theorem loseEntry (h : Touches l s t) {m : Master} {n i : ℕ}
    (hl : [.clk, .pins, .store, .paths, .encs, .pool, .intc, .mem, .faults, .out] ⊆ l := by decide) :
    Touches l s (t.loseEntry m n i) := by
  refine h.op (k := [.clk, .pins, .store, .paths, .encs, .pool, .intc, .mem, .faults, .out]) ?_ hl
  unfold State.loseEntry
  dsimp only
  exact (refl _).substSlot.setEnc.poolCount.chargeTo.contained.checkLost

theorem count (h : Touches l s t) {idx sub n : ℕ} (hl : [.totals] ⊆ l := by decide) : Touches l s (t.count idx sub n) :=
  h.setTotals hl

theorem bobFlush (h : Touches l s t) {b : BobbinId} (hl : [.bobs] ⊆ l := by decide) : Touches l s (t.bobFlush b) := by
  refine h.op (k := [.bobs]) ?_ hl
  unfold State.bobFlush
  dsimp only
  exact (refl _).setBob

theorem streamLog (h : Touches l s t) {tile stream : ℕ} {slot : Word} {abandoned truncated valid : Bool}
    (hl : [.intc, .out] ⊆ l := by decide) : Touches l s (t.streamLog tile stream slot abandoned truncated valid) := by
  refine h.op (k := [.intc, .out]) ?_ hl
  unfold State.streamLog
  dsimp only
  exact ite (refl _).setIntc (refl _).setIntc.settleInts

theorem compCount (h : Touches l s t) {k n : ℕ} (hl : [.batten] ⊆ l := by decide) : Touches l s (t.compCount k n) := by
  refine h.op (k := [.batten]) ?_ hl
  unfold State.compCount
  dsimp only
  exact (refl _).setBatten

theorem afterPicture (h : Touches l s t) {n : ℕ}
    (hl : [.clk, .pins, .store, .paths, .tiles, .encs, .batten, .pool, .trans, .intc, .mem, .faults, .out] ⊆ l := by decide) :
    Touches l s (t.afterPicture n) := by
  refine h.op (k := [.clk, .pins, .store, .paths, .tiles, .encs, .batten, .pool, .trans, .intc, .mem, .faults, .out]) ?_ hl
  unfold State.afterPicture
  exact ite (refl _).releaseStream (refl _)

theorem abandon (h : Touches l s t) {tile p : ℕ} {f : Frame}
    (hl : [.clk, .pins, .store, .paths, .bobs, .tiles, .encs, .batten, .totals, .pool, .trans, .intc, .mem, .faults, .out] ⊆ l := by
      decide) : Touches l s (t.abandon tile p f) := by
  refine h.op (k := [.clk, .pins, .store, .paths, .bobs, .tiles, .encs, .batten, .totals, .pool, .trans, .intc, .mem, .faults, .out]) ?_
    hl
  unfold State.abandon
  dsimp only
  exact afterPicture (contained (streamLog (compCount (count (bobPush (bobFlush (bobFlush (bobFlush (bobFlush (bobSrc (setTile (setEnc
    (foldl (refl _) fun _ _ hu => hu.releaseBlock).setPool))))))))))))

theorem abandonDrained (h : Touches l s t) {tile p : ℕ}
    (hl : [.clk, .pins, .store, .paths, .bobs, .tiles, .encs, .batten, .totals, .pool, .trans, .intc, .mem, .faults, .out] ⊆ l := by
      decide) : Touches l s (t.abandonDrained tile p) := by
  refine h.op (k := [.clk, .pins, .store, .paths, .bobs, .tiles, .encs, .batten, .totals, .pool, .trans, .intc, .mem, .faults, .out]) ?_
    hl
  unfold State.abandonDrained
  split
  · exact ite (refl _).abandon (refl _)
  · exact refl _

theorem setTreadle (h : Touches l s t) {p : ℕ} {r : Treadle} (hl : [.tiles] ⊆ l := by decide) : Touches l s (t.setTreadle p r) := by
  refine h.op (k := [.tiles]) ?_ hl
  unfold State.setTreadle
  dsimp only
  exact (refl _).setTile

theorem feedSlice (h : Touches l s t) {p : ℕ} (hl : [.bobs, .tiles] ⊆ l := by decide) : Touches l s (t.feedSlice p) := by
  refine h.op (k := [.bobs, .tiles]) ?_ hl
  unfold State.feedSlice
  dsimp only
  exact (refl _).setTile.bobPush

theorem putFrame (h : Touches l s t) {p : ℕ} {t1 : Tile} {f : Frame} (hl : [.clk, .bobs, .tiles] ⊆ l := by decide) :
    Touches l s (t.putFrame p t1 f) := by
  refine h.op (k := [.clk, .bobs, .tiles]) ?_ hl
  unfold State.putFrame
  dsimp only
  exact (refl _).bobSrc.setTile.setClk.feedSlice

theorem resumeCoder (h : Touches l s t) {p : ℕ} (hl : [.clk, .bobs, .tiles] ⊆ l := by decide) : Touches l s (t.resumeCoder p) := by
  refine h.op (k := [.clk, .bobs, .tiles]) ?_ hl
  unfold State.resumeCoder
  split
  · exact (refl _).putFrame
  · exact (refl _).bobSrc.feedSlice

theorem romRet (h : Touches l s t) {p : ℕ} (hl : [.tiles] ⊆ l := by decide) : Touches l s (t.romRet p) :=
  h.setTreadle hl

theorem dropItems (h : Touches l s t) {p : ℕ} {f : Frame} {gone : ℕ → Bool} (hl : [.bobs] ⊆ l := by decide) :
    Touches l s (t.dropItems p f gone) := by
  refine h.op (k := [.bobs]) ?_ hl
  unfold State.dropItems
  dsimp only
  exact foldl (refl _) fun _ _ hu => hu.setBob

theorem setEngine (h : Touches l s t) {p : ℕ} {g : Engine} (hl : [.batten] ⊆ l := by decide) : Touches l s (t.setEngine p g) := by
  refine h.op (k := [.batten]) ?_ hl
  unfold State.setEngine
  dsimp only
  exact (refl _).setBatten

theorem bobPass (h : Touches l s t) {b : BobbinId} {n : ℕ} (hl : [.bobs] ⊆ l := by decide) : Touches l s (t.bobPass b n) := by
  refine h.op (k := [.bobs]) ?_ hl
  unfold State.bobPass
  dsimp only
  exact ite (refl _) (refl _).setBob

theorem rowEntries (h : Touches l s t) {p : ℕ} {f : Frame} {y : ℕ}
    (hl : [.clk, .pins, .store, .paths, .tiles, .encs, .pool, .intc, .mem, .faults, .out] ⊆ l := by decide) :
    Touches l s (t.rowEntries p f y) := by
  refine h.op (k := [.clk, .pins, .store, .paths, .tiles, .encs, .pool, .intc, .mem, .faults, .out]) ?_ hl
  unfold State.rowEntries
  dsimp only
  split
  · exact setTile (foldl (refl _) fun _ _ hu => hu.loseEntry)
  · exact foldl (refl _) fun _ _ hu => hu.loseEntry

theorem trimItems (h : Touches l s t) {p : ℕ} {f : Frame} (hl : [.bobs] ⊆ l := by decide) : Touches l s (t.trimItems p f) := by
  refine h.op (k := [.bobs]) ?_ hl
  unfold State.trimItems
  dsimp only
  exact foldl (refl _) fun _ _ hu => hu.setBob

theorem tileError (h : Touches l s t) {p bit : ℕ}
    (hl : [.clk, .pins, .store, .paths, .tiles, .intc, .mem, .faults, .out] ⊆ l := by decide) : Touches l s (t.tileError p bit) := by
  refine h.op (k := [.clk, .pins, .store, .paths, .tiles, .intc, .mem, .faults, .out]) ?_ hl
  unfold State.tileError
  dsimp only
  exact (refl _).setTile.contained

theorem cutHint (h : Touches l s t) {p : ℕ} {t1 : Tile} {f : Frame} {c : ℕ}
    (hl : [.clk, .pins, .store, .paths, .bobs, .tiles, .totals, .intc, .mem, .faults, .out] ⊆ l := by decide) :
    Touches l s (t.cutHint p t1 f c) := by
  refine h.op (k := [.clk, .pins, .store, .paths, .bobs, .tiles, .totals, .intc, .mem, .faults, .out]) ?_ hl
  unfold State.cutHint
  dsimp only
  exact (refl _).dropItems.putFrame.count.count.tileError

theorem discardNext (h : Touches l s t) {p : ℕ} {f : Frame} {l1 : ℕ} (hl : [.bobs] ⊆ l := by decide) :
    Touches l s (t.discardNext p f l1) := by
  refine h.op (k := [.bobs]) ?_ hl
  unfold State.discardNext
  dsimp only
  exact (refl _).setBob

theorem takeHint (h : Touches l s t) {p : ℕ} {x : BitVec 256} {tagged : Bool}
    (hl : [.clk, .pins, .store, .paths, .bobs, .tiles, .encs, .totals, .pool, .intc, .mem, .faults, .out] ⊆ l := by decide) :
    Touches l s (t.takeHint p x tagged) := by
  refine h.op (k := [.clk, .pins, .store, .paths, .bobs, .tiles, .encs, .totals, .pool, .intc, .mem, .faults, .out]) ?_ hl
  unfold State.takeHint
  dsimp only
  split
  · exact refl _
  · exact ite (ite (refl _).rowEntries (refl _)) (ite (trimItems (setTile (ite (refl _).rowEntries (refl _)))) (ite (cutHint (setTile
      (ite (refl _).rowEntries (refl _)))) (ite (discardNext (setTile (ite (refl _).rowEntries (refl _)))) (setTile (ite (refl
      _).rowEntries (refl _))))))

theorem takeSeal (h : Touches l s t) {p : ℕ} {e : Ecc}
    (hl : [.clk, .pins, .store, .paths, .bobs, .tiles, .intc, .mem, .faults, .out] ⊆ l := by decide) :
    Touches l s (t.takeSeal p e) := by
  refine h.op (k := [.clk, .pins, .store, .paths, .bobs, .tiles, .intc, .mem, .faults, .out]) ?_ hl
  unfold State.takeSeal
  dsimp only
  split
  · exact refl _
  · exact ite (refl _) (refl _).setTile.bobDrop.readItem

theorem pollTile (h : Touches l s t) {tile : ℕ} {e sealItem : Ecc}
    (hl : [.clk, .pins, .store, .paths, .bobs, .tiles, .encs, .totals, .pool, .intc, .mem, .faults, .out] ⊆ l := by decide) :
    Touches l s (t.pollTile tile e sealItem) := by
  refine h.op (k := [.clk, .pins, .store, .paths, .bobs, .tiles, .encs, .totals, .pool, .intc, .mem, .faults, .out]) ?_ hl
  unfold State.pollTile
  dsimp only
  split
  · exact refl _
  · refine takeSeal ?_
    refine bobDst ?_
    split
    · exact (refl _).bobDst.bobDrop
    · exact foldl (refl _).bobDst.bobDrop.readItem.takeHint fun _ _ hu => hu.takeHint

theorem fetchRefs (h : Touches l s t) {p : ℕ} {f : Frame} {i : ℕ} {h1 : Hint} (hl : [.tiles, .caches] ⊆ l := by decide) :
    Touches l s (t.fetchRefs p f i h1) := by
  refine h.op (k := [.tiles, .caches]) ?_ hl
  unfold State.fetchRefs
  dsimp only
  exact (refl _).setTile.setCaches

theorem allocReserved (h : Touches l s t) {h1 : Holder} {mark : Mark} {data : Block} (hl : [.clk, .pool] ⊆ l := by decide) :
    Touches l s (t.allocReserved h1 mark data).2 := by
  refine h.op (k := [.clk, .pool]) ?_ hl
  unfold State.allocReserved
  dsimp only
  exact (refl _).allocBlock.setPool

theorem selvCount (h : Touches l s t) {k n : ℕ} (hl : [.selv] ⊆ l := by decide) : Touches l s (t.selvCount k n) := by
  refine h.op (k := [.selv]) ?_ hl
  unfold State.selvCount
  dsimp only
  exact (refl _).setSelv

theorem macRemove (h : Touches l s t) {pos : ℕ} (hl : [.selv, .pair, .out] ⊆ l := by decide) : Touches l s (t.macRemove pos) := by
  refine h.op (k := [.selv, .pair, .out]) ?_ hl
  unfold State.macRemove
  split
  · exact (refl _).setSelv.logLearn
  · exact refl _

theorem decCount (h : Touches l s t) {c k n : ℕ} (hl : [.decs] ⊆ l := by decide) : Touches l s (t.decCount c k n) := by
  refine h.op (k := [.decs]) ?_ hl
  unfold State.decCount
  dsimp only
  exact (refl _).setDec

theorem losePicture (h : Touches l s t) {c : ℕ} (hl : [.totals, .decs] ⊆ l := by decide) : Touches l s (t.losePicture c) := by
  refine h.op (k := [.totals, .decs]) ?_ hl
  unfold State.losePicture
  dsimp only
  exact (refl _).decCount.count.setDec

theorem completeAu (h : Touches l s t) {c : ℕ} (hl : [.totals, .decs] ⊆ l := by decide) : Touches l s (t.completeAu c) := by
  refine h.op (k := [.totals, .decs]) ?_ hl
  unfold State.completeAu
  dsimp only
  exact ite (refl _).setDec.losePicture (ite (refl _).setDec (refl _).setDec.setDec)

theorem ringWrite (h : Touches l s t) {c : ℕ} {b : Bytes} (hl : [.decs, .mem] ⊆ l := by decide) : Touches l s (t.ringWrite c b) := by
  refine h.op (k := [.decs, .mem]) ?_ hl
  unfold State.ringWrite
  dsimp only
  exact (refl _).devStore.devStore.setDec

theorem enterNal (h : Touches l s t) {c : ℕ} {b : Bytes} (hl : [.decs, .mem] ⊆ l := by decide) : Touches l s (t.enterNal c b) := by
  refine h.op (k := [.decs, .mem]) ?_ hl
  unfold State.enterNal
  dsimp only
  exact ite (refl _).decCount (refl _).ringWrite.setDec

theorem enterNals (h : Touches l s t) {c : ℕ} {donl : Bool} {r : List (Bytes × BitVec 16)}
    (hl : [.decs, .mem] ⊆ l := by decide) : Touches l s (t.enterNals c donl r) := by
  refine h.op (k := [.decs, .mem]) ?_ hl
  clear h
  induction r generalizing t with
  | nil => exact refl _
  | cons x r ih => exact trans (ite (refl _).decCount (refl _).setDec.enterNal) ih

theorem cutFrag (h : Touches l s t) {c : ℕ} (hl : [.decs] ⊆ l := by decide) : Touches l s (t.cutFrag c) := by
  refine h.op (k := [.decs]) ?_ hl
  unfold State.cutFrag
  dsimp only
  exact setDec (ite (refl _).decCount (refl _))

theorem takePayload (h : Touches l s t) {c kind : ℕ} {donl : Bool} {b : Bytes} (hl : [.decs, .mem] ⊆ l := by decide) :
    Touches l s (t.takePayload c kind donl b) := by
  refine h.op (k := [.decs, .mem]) ?_ hl
  unfold State.takePayload
  dsimp only
  split
  · exact (refl _).decCount
  · exact (refl _).cutFrag.enterNals
  · split
    · exact ite (refl _).cutFrag.decCount.setDec (refl _).cutFrag.setDec
    · split
      · exact ite (refl _).setDec.enterNal (refl _).setDec
      · exact setDec (ite (refl _) (refl _).decCount)

theorem handOn (h : Touches l s t) {c : ℕ} {k : HeldPkt} (hl : [.totals, .decs, .mem] ⊆ l := by decide) :
    Touches l s (t.handOn c k) := by
  refine h.op (k := [.totals, .decs, .mem]) ?_ hl
  unfold State.handOn
  dsimp only
  split
  · refine completeAu ?_
    split
    · exact ite (decCount (setDec (ite (ite (refl _).completeAu (refl _)) (setDec (ite (refl _).completeAu (refl _)))))) (ite (setDec
        (ite (ite (refl _).completeAu (refl _)) (setDec (ite (refl _).completeAu (refl _))))) (takePayload (ite (ite (refl _).completeAu
        (refl _)) (setDec (ite (refl _).completeAu (refl _))))))
    · exact ite (decCount (setDec (ite (refl _) (refl _).setDec))) (ite (setDec (ite (refl _) (refl _).setDec)) (takePayload (ite (refl
        _) (refl _).setDec)))
  · split
    · exact ite (decCount (setDec (ite (ite (refl _).completeAu (refl _)) (setDec (ite (refl _).completeAu (refl _)))))) (ite (setDec
        (ite (ite (refl _).completeAu (refl _)) (setDec (ite (refl _).completeAu (refl _))))) (takePayload (ite (ite (refl _).completeAu
        (refl _)) (setDec (ite (refl _).completeAu (refl _))))))
    · exact ite (decCount (setDec (ite (refl _) (refl _).setDec))) (ite (setDec (ite (refl _) (refl _).setDec)) (takePayload (ite (refl
        _) (refl _).setDec)))

theorem drainHeld (h : Touches l s t) {n c : ℕ}
    (hl : [.totals, .decs, .mem] ⊆ l := by decide) : Touches l s (Machine.drainHeld n t c) := by
  refine h.op (k := [.totals, .decs, .mem]) ?_ hl
  clear h
  induction n generalizing t with
  | zero => exact refl _
  | succ n ih =>
    unfold Machine.drainHeld
    dsimp only
    split
    · exact ite (trans (refl _).setDec.handOn ih) (refl _)
    · exact refl _

theorem loseGap (h : Touches l s t) {c : ℕ} (hl : [.totals, .decs, .mem] ⊆ l := by decide) : Touches l s (t.loseGap c) := by
  refine h.op (k := [.totals, .decs, .mem]) ?_ hl
  unfold State.loseGap
  dsimp only
  split
  · exact drainHeld (ite (refl _).setDec.decCount.count.decCount (refl _).setDec.decCount.count)
  · exact refl _

theorem bobClear (h : Touches l s t) {b : BobbinId} (hl : [.clk, .bobs] ⊆ l := by decide) : Touches l s (t.bobClear b) := by
  refine h.op (k := [.clk, .bobs]) ?_ hl
  unfold State.bobClear
  dsimp only
  exact (refl _).bobDst.bobDrop

theorem capture (h : Touches l s t) {p : ℕ} (hl : [.clk, .time] ⊆ l := by decide) : Touches l s (t.capture p) := by
  refine h.op (k := [.clk, .time]) ?_ hl
  unfold State.capture
  dsimp only
  exact (refl _).setTime.freed

theorem macInsert (h : Touches l s t) {e : MacEntry} (hl : [.clk, .selv, .pair, .out] ⊆ l := by decide) :
    Touches l s (t.macInsert e).2 := by
  refine h.op (k := [.clk, .selv, .pair, .out]) ?_ hl
  unfold State.macInsert
  dsimp only
  split
  · exact (refl _).setSelv.selvCount.logLearn
  · split
    · exact (refl _).setSelv.selvCount.logLearn
    · split
      · exact (refl _).selvCount
      · split
        · exact (refl _).logLearn.freed.selvCount.setSelv.selvCount.logLearn
        · exact (refl _).freed.selvCount.setSelv.selvCount.logLearn

theorem syncGroup (h : Touches l s t) {vlan : BitVec 12} {mac : BitVec 48} (hl : [.clk, .selv, .pair, .out] ⊆ l := by decide) :
    Touches l s (t.syncGroup vlan mac) := by
  refine h.op (k := [.clk, .selv, .pair, .out]) ?_ hl
  unfold State.syncGroup
  dsimp only
  split
  · exact ite (refl _).macRemove (ite (refl _) (refl _).setSelv.logLearn)
  · exact ite (refl _) (refl _).macInsert

theorem generalQuery (h : Touches l s t) {vlan : BitVec 12} {v4 : Bool}
    (hl : [.clk, .selv, .trans, .intc, .bpm, .mem, .out] ⊆ l := by decide) : Touches l s (t.generalQuery vlan v4) := by
  refine h.op (k := [.clk, .selv, .trans, .intc, .bpm, .mem, .out]) ?_ hl
  unfold State.generalQuery
  dsimp only
  exact ite (refl _) (foldl (refl _).freed.setSelv fun _ _ hu => hu.enqueueCopy)

theorem presence (h : Touches l s t) {e : ℕ} {on : Bool} (hl : [.selv, .trans, .intc, .mem, .pair, .out] ⊆ l := by decide) :
    Touches l s (t.presence e on) := by
  refine h.op (k := [.selv, .trans, .intc, .mem, .pair, .out]) ?_ hl
  unfold State.presence
  dsimp only
  exact (refl _).setEp.logLearn.raise

theorem tell (h : Touches l s t) {reason : ℕ} {data : Bytes} (hl : [.out] ⊆ l := by decide) : Touches l s (t.tell reason data) :=
  h.op (k := [.out]) ((refl _).emit) hl

theorem timeMode (h : Touches l s t) {m : TimeMode} (hl : [.time, .intc, .mem, .out] ⊆ l := by decide) :
    Touches l s (t.timeMode m) := by
  refine h.op (k := [.time, .intc, .mem, .out]) ?_ hl
  unfold State.timeMode
  dsimp only
  exact ite (refl _) (refl _).setTime.raise

theorem setFreq (h : Touches l s t) {f : ℤ} (hl : [.time] ⊆ l := by decide) : Touches l s (t.setFreq f) := by
  refine h.op (k := [.time]) ?_ hl
  unfold State.setFreq
  dsimp only
  exact (refl _).setTime

theorem steer (h : Touches l s t) (hl : [.clk, .time] ⊆ l := by decide) : Touches l s t.steer := by
  refine h.op (k := [.clk, .time]) ?_ hl
  unfold State.steer
  dsimp only
  exact (refl _).setTime.setFreq.freed

theorem nextSeqOf (h : Touches l s t) {kind p : ℕ} (hl : [.time] ⊆ l := by decide) : Touches l s (t.nextSeqOf kind p).2 := by
  refine h.op (k := [.time]) ?_ hl
  unfold State.nextSeqOf
  dsimp only
  exact (refl _).setTime

theorem sendPtp (h : Touches l s t) {p : ℕ} {event : Bool} {to_ : Option (BitVec 48 × BitVec 128)} {msg : Bytes}
    (hl : [.clk, .trans, .intc, .bpm, .mem, .out] ⊆ l := by decide) : Touches l s (t.sendPtp p event to_ msg) := by
  refine h.op (k := [.clk, .trans, .intc, .bpm, .mem, .out]) ?_ hl
  unfold State.sendPtp
  dsimp only
  exact (refl _).setClk.enqueueCopy.emit

theorem takeArrival (h : Touches l s t) {p : ℕ} (hl : [.clk, .time] ⊆ l := by decide) : Touches l s (t.takeArrival p) := by
  refine h.op (k := [.clk, .time]) ?_ hl
  unfold State.takeArrival
  dsimp only
  split
  · exact (refl _).setTime
  · exact (refl _).capture

theorem crossStamp (h : Touches l s t) {p : ℕ} {received : Bool} {item : Ecc} {b : Bytes}
    (e : t.crossStamp p received item = some (u, b)) (hl : [.clk, .pins, .store, .paths, .bobs, .time, .intc, .mem, .faults, .out] ⊆ l
      := by decide) :
    Touches l s u := by
  unfold State.crossStamp at e
  dsimp only at e
  refine h.op (k := [.clk, .pins, .store, .paths, .bobs, .time, .intc, .mem, .faults, .out]) ?_ hl
  have hitem : Touches [.clk, .pins, .store, .paths, .bobs, .time, .intc, .mem, .faults, .out] t
      (((if received then (t.bobClear .timestamp).takeArrival p else (t.bobClear .timestamp).capture p).bobPass
        .timestamp 1).readItem .timestamp item) :=
    readItem (bobPass (ite (refl _).bobClear.takeArrival (refl _).bobClear.capture))
  split at e
  · split at e
    · obtain ⟨rfl, -⟩ := Prod.mk.inj (Option.some.inj e)
      exact hitem.freed
    · obtain ⟨rfl, -⟩ := Prod.mk.inj (Option.some.inj e)
      exact hitem
  · cases e

theorem follow (h : Touches l s t) {port1 : ℕ} {a : Announce} (hl : [.time, .intc, .mem, .out] ⊆ l := by decide) :
    Touches l s (t.follow port1 a) := by
  refine h.op (k := [.time, .intc, .mem, .out]) ?_ hl
  unfold State.follow
  dsimp only
  exact (refl _).setTime.timeMode

theorem takeEntries (h : Touches l s t) {p n : ℕ} {got : Option (List Bytes)}
    (hl : [.clk, .pins, .store, .paths, .pool, .rings, .intc, .mem, .faults, .out] ⊆ l := by decide) :
    Touches l s (t.takeEntries p n got) := by
  refine h.op (k := [.clk, .pins, .store, .paths, .pool, .rings, .intc, .mem, .faults, .out]) ?_ hl
  unfold State.takeEntries
  dsimp only
  split
  · exact ite (refl _).setSq.drain (refl _).setSq
  · exact (refl _).setSq.drain

theorem regrown (h : Touches l s t) {m : Master} {logical phys : ℕ} (hl : [.intc, .mem, .out] ⊆ l := by decide) :
    Touches l s (t.regrown m logical phys) :=
  h.op (k := [.intc, .mem, .out]) ((refl _).raise) hl

theorem dropPicture (h : Touches l s t) {p : ℕ}
    (hl : [.clk, .pins, .store, .paths, .totals, .pool, .dtiles, .decs, .trans, .intc, .bpm, .mem, .faults, .out] ⊆ l := by decide) :
    Touches l s (t.dropPicture p) := by
  refine h.op (k := [.clk, .pins, .store, .paths, .totals, .pool, .dtiles, .decs, .trans, .intc, .bpm, .mem, .faults, .out]) ?_ hl
  unfold State.dropPicture
  dsimp only
  split
  · exact (refl _).setDec.setDtile.setPool.releaseSlots.losePicture.closeDec
  · exact refl _

theorem resetBob (h : Touches l s t) {b : BobbinId} (hl : [.bobs] ⊆ l := by decide) : Touches l s (t.resetBob b) :=
  h.setBob hl

theorem resetUnitBobs (h : Touches l s t) {u1 : HwUnit} {logical : ℕ} (hl : [.bobs] ⊆ l := by decide) :
    Touches l s (t.resetUnitBobs u1 logical) := by
  refine h.op (k := [.bobs]) ?_ hl
  unfold State.resetUnitBobs
  dsimp only
  split
  · exact foldl (foldl (refl _) fun _ _ hu => hu.resetBob) fun _ _ hu => (ite hu.resetBob hu)
  · exact foldl (refl _) fun _ _ hu => hu.resetBob

theorem moveItems (h : Touches l s t) {a b : BobbinId} (hl : [.bobs] ⊆ l := by decide) : Touches l s (t.moveItems a b) := by
  refine h.op (k := [.bobs]) ?_ hl
  unfold State.moveItems
  dsimp only
  exact (refl _).setBob

theorem drainUnit (h : Touches l s t) {u1 : HwUnit} {n : ℕ} (hl : [.bobs, .batten] ⊆ l := by decide) :
    Touches l s (t.drainUnit u1 n) := by
  refine h.op (k := [.bobs, .batten]) ?_ hl
  unfold State.drainUnit
  dsimp only
  split
  · exact (refl _).setEngine.moveItems
  · exact foldl (refl _) fun _ _ hu => hu.moveItems

theorem handOver (h : Touches l s t) {u1 : HwUnit} {n : ℕ} (hl : [.tiles, .batten, .dtiles, .bpm] ⊆ l := by decide) :
    Touches l s (t.handOver u1 n) := by
  refine h.op (k := [.tiles, .batten, .dtiles, .bpm]) ?_ hl
  unfold State.handOver
  dsimp only
  split
  · exact (refl _).setTile.setTile
  · exact (refl _).setDtile
  · exact (refl _).setBatten
  · exact (refl _).setBpm
  · exact refl _

theorem haltTile (h : Touches l s t) {p : ℕ}
    (hl : [.clk, .pins, .store, .paths, .bobs, .tiles, .encs, .pool, .intc, .mem, .faults, .out] ⊆ l := by decide) :
    Touches l s (t.haltTile p) := by
  refine h.op (k := [.clk, .pins, .store, .paths, .bobs, .tiles, .encs, .pool, .intc, .mem, .faults, .out]) ?_ hl
  unfold State.haltTile
  dsimp only
  split
  · exact (refl _).setTile.bobFlush
  · exact bobPush (bobSrc (foldl (setTile (setEnc (foldl (refl _) fun _ _ hu => hu.releaseBlock).setPool)) fun _ _ hu => hu.bobFlush))

theorem idleStream (h : Touches l s t) {keep : Bool} {n : ℕ}
    (hl : [.clk, .pins, .store, .paths, .tiles, .encs, .batten, .pool, .trans, .intc, .mem, .faults, .out] ⊆ l := by decide) :
    Touches l s (t.idleStream keep n) := by
  refine h.op (k := [.clk, .pins, .store, .paths, .tiles, .encs, .batten, .pool, .trans, .intc, .mem, .faults, .out]) ?_ hl
  unfold State.idleStream
  dsimp only
  exact ite (refl _).releaseStream.allocFrames.setEnc (refl _).releaseStream

theorem idleContext (h : Touches l s t) {c : ℕ}
    (hl : [.clk, .pins, .store, .paths, .totals, .pool, .dtiles, .decs, .trans, .intc, .bpm, .mem, .faults, .out] ⊆ l := by decide) :
    Touches l s (t.idleContext c) := by
  refine h.op (k := [.clk, .pins, .store, .paths, .totals, .pool, .dtiles, .decs, .trans, .intc, .bpm, .mem, .faults, .out]) ?_ hl
  unfold State.idleContext
  dsimp only
  refine decBegin ?_
  refine releaseDec ?_
  split
  · exact (refl _).dropPicture
  · exact refl _

theorem askDelay (h : Touches l s t) {p : ℕ} (hl : [.clk, .trans, .time, .intc, .bpm, .mem, .out] ⊆ l := by decide) :
    Touches l s (t.askDelay p) := by
  refine h.op (k := [.clk, .trans, .time, .intc, .bpm, .mem, .out]) ?_ hl
  unfold State.askDelay
  dsimp only
  exact ite (refl _) (refl _).freed.capture.nextSeqOf.setTime.sendPtp

end Sys2Proof.Proofs.Touches
end

section
/-! PROOFS. The DMA engine: next states of its commands (R405 to R411). -/

open Sys2Proof Sys2Proof.Machine

-- One proof at a time: a thread for each proof would pass the limit that the check sets to memory.
set_option Elab.async false

namespace Sys2Proof.Proofs

variable {s t : State} {m : Master} {ch : Nat}

theorem mem_of_look {α : Type} {t : Tab α} {k : Nat} {v : α} (h : look t k = some v) : (k, v) ∈ t := by
  induction t with
  | nil => cases h
  | cons q r ih =>
    rw [look] at h
    split at h
    · next he => exact List.mem_cons.2 (.inl (Prod.ext he.symm (Option.some.inj h).symm))
    · exact List.mem_cons_of_mem _ (ih h)

/-! ### Frames -/

/-- What a register write of the DMA block may change, with the unlock it uses up and the interrupts it settles. -/
theorem settled_frame (h : Touches [.dma] (s.disarm m) t) :
    t.settleInts = { s with
      dma := t.settleInts.dma, dev := { s.dev with armed := t.settleInts.dev.armed }, intc := t.settleInts.intc,
      out := t.settleInts.out } := by
  have hdev : t.dev = (s.disarm m).dev := h.same .dev
  have hall : Touches [.dma, .dev, .intc, .out] s t.settleInts :=
    ((Touches.refl s).disarm.trans (h.mono (by decide))).settleInts
  exact hall.frame (by simp [hdev, State.disarm])

theorem exec_of_settled {c : Instr} (f : State → State) (hawake : asleep s = false) (hm : masterOk m = true)
    (hc : exec c s = issuedBy m s (done (f (s.disarm m)).settleInts) := by rfl) : exec c s = .next (f (s.disarm m)).settleInts := by
  rw [hc, issuedBy_of hawake hm]

/-! ### Starts -/

theorem dmaGo_of_moving (hrun : s.dma.halted = false) (hst : (s.chan ch).state = 1 ∨ (s.chan ch).state = 2) :
    s.dmaGo ch = s.setChan ch { s.chan ch with held := true } := by
  rw [State.dmaGo, hrun, if_neg Bool.false_ne_true, if_pos hst]

theorem dmaPause_of_rest (hst : (s.chan ch).state ≠ 1) : s.dmaPause ch = s.setChan ch { s.chan ch with pause := true } := by
  have hst' : ¬((s.setChan ch { s.chan ch with pause := true }).chan ch).state = 1 := by rwa [State.chan_setChan]
  exact if_neg hst'

theorem dmaHeld_of_free (h : (s.chan ch).held = false) : s.dmaHeld ch = s := by
  simp [State.dmaHeld, h]

theorem dmaEnd_done (s : State) (ch : Nat) : s.dmaEnd ch 0 = s.setChan ch { s.chan ch with state := 0, done := true } := rfl

theorem dmaEnd_error {code : BitVec 4} (h : code ≠ 0) :
    s.dmaEnd ch code = s.setChan ch { s.chan ch with state := 0, err := true, errCode := code } := by
  rw [State.dmaEnd, if_neg h]

/-- An abort that finds no read outstanding ends the transfer at once. -/
theorem dmaAbort_of_paused (hst : (s.chan ch).state = 3 ∨ (s.chan ch).state = 2) (hfree : (s.chan ch).held = false) :
    s.dmaAbort ch = s.setChan ch { s.chan ch with state := 0, err := true, errCode := 5 } := by
  have h0 : (s.chan ch).state ≠ 0 := by rcases hst with h | h <;> rw [h] <;> decide
  have h1 : (s.chan ch).state ≠ 1 := by rcases hst with h | h <;> rw [h] <;> decide
  rw [State.dmaAbort, if_neg h0, if_neg h1, dmaEnd_error (by decide), dmaHeld_of_free (by simpa using hfree)]

/-- An abort of a running transfer drains it first. -/
theorem dmaAbort_of_running (hst : (s.chan ch).state = 1) (hfree : ((s.dmaDrain ch).chan ch).held = false) :
    s.dmaAbort ch = (s.dmaDrain ch).setChan ch { (s.dmaDrain ch).chan ch with state := 0, err := true, errCode := 5 } := by
  rw [State.dmaAbort, if_neg (by rw [hst]; decide), if_pos hst, dmaEnd_error (by decide), dmaHeld_of_free (by simpa using hfree)]

/-! ### Draining (R409) -/

theorem dmaMove_dma (s : State) (ch : Nat) (b : Bytes) :
    (s.dmaMove ch b).dma = (s.setChan ch ((s.chan ch).advance b.length)).dma := by
  have hput : Touches [.clk, .pins, .store, .paths, .pool, .intc, .mem, .faults, .out] s
      ((if (s.chan ch).srcDev then s.readAccess (accesses (s.chan ch).srcFixed (s.chan ch).unit (b.length + 1) (s.chan ch).src.toNat b.length)
        else s).dmaPut ch (s.chan ch) b) :=
    Touches.dmaPut (Touches.ite (Touches.refl s).readAccess (Touches.refl s))
  unfold State.dmaMove
  dsimp only
  rw [State.setChan, State.setChan, hput.same .dma]

@[simp] theorem dmaMove_chan (s : State) (ch : Nat) (b : Bytes) : (s.dmaMove ch b).chan ch = (s.chan ch).advance b.length := by
  rw [chan_eq_of_dma_eq (dmaMove_dma s ch b), State.chan_setChan]

@[simp] theorem dmaMove_halted (s : State) (ch : Nat) (b : Bytes) : (s.dmaMove ch b).dma.halted = s.dma.halted := by
  rw [dmaMove_dma]
  rfl

/-! Lengths of a side's accesses (R407). -/

theorem accessLen_pos {a n : Nat} (h : 0 < n) : 0 < accessLen a n ∧ accessLen a n ≤ n := by
  unfold accessLen
  split
  · omega
  · split <;> omega

/-- The accesses of a side move its bytes, no more and no fewer. -/
theorem accesses_total {fixed : Bool} {unit : Nat} (hunit : 0 < unit) :
    ∀ (k a n : Nat), n < k → ((accesses fixed unit k a n).map (·.2)).sum = n := by
  intro k
  induction k with
  | zero => exact fun _ _ h => absurd h (Nat.not_lt_zero _)
  | succ k ih =>
    intro a n h
    unfold accesses
    split
    · next h0 => exact h0.symm
    · next h0 =>
      split
      · rw [List.map_cons, List.sum_cons, ih _ _ (by omega)]
        omega
      · have hlen := accessLen_pos (a := a) (Nat.pos_of_ne_zero h0)
        rw [List.map_cons, List.sum_cons, ih _ _ (by omega)]
        omega

theorem unit_pos (c : Dma) : 0 < c.unit := Nat.two_pow_pos _

/-- No more bytes can be read than the accesses ask for. -/
theorem readable_le (s : State) (m : Master) (l : List (Nat × Nat)) : (readable s m l).1 ≤ (l.map (·.2)).sum := by
  induction l with
  | nil => exact Nat.le_refl 0
  | cons x r ih =>
    unfold readable
    split
    · exact Nat.zero_le _
    · rw [List.map_cons, List.sum_cons]
      exact Nat.add_le_add_left ih _

@[simp] theorem bytesAt_length (t : Tab Byte) (a n : Nat) : (bytesAt t a n).length = n := by
  simp [bytesAt]

@[simp] theorem devRead_length (s : State) (a n : Nat) : (s.devRead a n).length = n := by
  simp [State.devRead]

theorem sourceBytes_length (s : State) (c : Dma) (n : Nat) : (sourceBytes s c n).length = n := by
  rw [sourceBytes, List.length_flatMap]
  simpa using accesses_total (unit_pos c) (n + 1) c.src.toNat n (Nat.lt_succ_self n)

theorem slice_length_le (b : Bytes) (o n : Nat) : (slice b o n).length ≤ n := by
  simp [slice]

/-- Bytes that a drain moves are at most the rest of the transfer. -/
theorem drained_le (len u x : Nat) : x % (len / u + 1) * u ≤ len := by
  have h : x % (len / u + 1) ≤ len / u := Nat.le_of_lt_succ (Nat.mod_lt _ (Nat.succ_pos _))
  calc x % (len / u + 1) * u
    _ ≤ len / u * u := Nat.mul_le_mul_right u h
    _ ≤ len := Nat.div_mul_le_self len u

/-- A drain moves some bytes of the rest, whatever the source. -/
theorem dmaDrain_dma (s : State) (ch : Nat) :
    ∃ n ≤ (s.chan ch).len.toNat, (s.dmaDrain ch).dma = (s.setChan ch ((s.chan ch).advance n)).dma := by
  have hchan : s.freed.chan ch = s.chan ch := chan_eq_of_dma_eq (State.freed_dma s) ch
  unfold State.dmaDrain
  dsimp only
  rw [dmaMove_dma, hchan]
  refine ⟨_, ?_, rfl⟩
  have hn := drained_le (s.chan ch).len.toNat (if (s.chan ch).srcFixed || (s.chan ch).dstFixed then (s.chan ch).unit else 1)
    (Config.freeNat s.clk.free)
  split
  · rw [sourceBytes_length]
    refine (Nat.div_mul_le_self _ _).trans ((readable_le _ _ _).trans ?_)
    rwa [accesses_total (unit_pos _) _ _ _ (Nat.lt_succ_self _)]
  · exact (slice_length_le _ _ _).trans hn

theorem advance_len_le {c : Dma} {n : Nat} (h : n ≤ c.len.toNat) : (c.advance n).len.toNat ≤ c.len.toNat := by
  have hlt : n < 2 ^ 32 := Nat.lt_of_le_of_lt h c.len.isLt
  simp only [Dma.advance]
  rw [BitVec.toNat_sub_of_le]
  · exact Nat.sub_le _ _
  · rw [BitVec.le_def, BitVec.toNat_ofNat, Nat.mod_eq_of_lt hlt]
    exact h

/-- A drained channel: the bytes moved apart, it is as it was. -/
theorem dmaDrain_chan (s : State) (ch : Nat) :
    ∃ n ≤ (s.chan ch).len.toNat, (s.dmaDrain ch).chan ch = (s.chan ch).advance n := by
  obtain ⟨n, hn, h⟩ := dmaDrain_dma s ch
  exact ⟨n, hn, by rw [chan_eq_of_dma_eq h, State.chan_setChan]⟩

theorem dmaDrain_halted (s : State) (ch : Nat) : (s.dmaDrain ch).dma.halted = s.dma.halted := by
  obtain ⟨n, _, h⟩ := dmaDrain_dma s ch
  rw [h]
  rfl

/-! ### Failing accesses (R410) -/

/-- Bytes for the host leave the device through its outputs. -/
theorem dmaPut_of_host (s : State) (ch : Nat) {c : Dma} (b : Bytes) (h : c.dstDev = false) : Touches [.out] s (s.dmaPut ch c b) := by
  unfold State.dmaPut
  exact Touches.foldlFst (.refl s) fun q x hq => by simpa [h] using hq.emit

theorem dmaMove_of_host {b : Bytes} (h : (s.chan ch).dstDev = false) : Touches [.dma, .mem, .out] s (s.dmaMove ch b) := by
  unfold State.dmaMove
  dsimp only
  exact ((Touches.ite (Touches.refl s).readAccess (Touches.refl s)).op (dmaPut_of_host _ ch b h)).setChan

/-- No channel but this one moves bytes. -/
def NoneElseMoves (s : State) (ch : Nat) : Prop := ∀ q ∈ s.dma.chans, q.1 = ch ∨ (q.2.state ≠ 1 ∧ q.2.state ≠ 2)

theorem NoneElseMoves.setChan (h : NoneElseMoves s ch) (c : Dma) : NoneElseMoves (s.setChan ch c) ch := by
  intro q hq
  rcases mem_put _ _ _ _ hq with rfl | hq
  · exact .inl rfl
  · exact h q hq

theorem NoneElseMoves.of_dma (h : NoneElseMoves s ch) (e : t.dma = s.dma) : NoneElseMoves t ch := by
  rwa [NoneElseMoves, e]

/-- The engine after a failure that drains no other channel: its transfer has ended and the engine is halted. -/
def failedAlone (s : State) (ch : Nat) (code : BitVec 4) : State :=
  { s.dmaEnd ch code with dma := { (s.dmaEnd ch code).dma with
    halted := true, channel := if s.dma.halted then s.dma.channel else BitVec.ofNat 5 ch } }

theorem failedAlone_chan {code : BitVec 4} (h : code ≠ 0) :
    (failedAlone s ch code).chan ch = { s.chan ch with state := 0, err := true, errCode := code } := by
  have hend : (failedAlone s ch code).chan ch = (s.dmaEnd ch code).chan ch := rfl
  rw [hend, dmaEnd_error h, State.chan_setChan]

/-- With no other channel to drain, a failure ends its own transfer, halts the engine and is recorded. -/
theorem dmaFail_of_alone {code : BitVec 4} {addr : Nat} (h : NoneElseMoves s ch) :
    s.dmaFail ch code addr = ((failedAlone s ch code).raise 0x013 (mDma ch) (le 1 ch)).contained 0x0A .dma (mDma ch) addr := by
  have hnone : (s.dma.chans.filterMap fun q => if q.1 ≠ ch ∧ (q.2.state = 1 ∨ q.2.state = 2) then some q.1 else none) = [] := by
    rw [List.filterMap_eq_nil_iff]
    intro q hq
    refine if_neg ?_
    rintro ⟨hne, hst⟩
    rcases h q hq with he | ⟨h1, h2⟩
    · exact hne he
    · exact hst.elim h1 h2
  unfold State.dmaFail
  dsimp only
  rw [hnone]
  rfl

/-! ### Commands that a master issues -/

variable (s : State) (m : Master) (ch : Fin 32)

theorem dmaGo_runs (hawake : asleep s = false) (hrun : s.dma.halted = false) (hidle : (s.chan ch).state = 0)
    (hvalid : (s.chan ch).invalid = false) (hpause : (s.chan ch).pause = false) (hm : masterOk m = true) :
    does (.dmaGo m ch) s fun t =>
      t.chan ch = { s.chan ch with held := false, state := 1 } ∧
      t = { s with dma := t.dma, dev := { s.dev with armed := t.dev.armed }, intc := t.intc, out := t.out } := by
  refine ⟨_, exec_of_settled (fun u => u.dmaGo ch) hawake hm, ?_, settled_frame (Touches.refl _).dmaGo⟩
  rw [dmaGo_of_idle (by simpa using hrun) (by simpa using hidle), dmaStart_of_valid (by simpa using hvalid) (by simpa using hpause), chan_settleInts, State.chan_setChan, chan_disarm]

theorem dmaGo_ends_empty (hawake : asleep s = false) (hrun : s.dma.halted = false) (hidle : (s.chan ch).state = 0)
    (hlen : (s.chan ch).len = 0) (hm : masterOk m = true) :
    does (.dmaGo m ch) s fun t =>
      t.chan ch = { s.chan ch with held := false, err := true, errCode := 3, state := 0 } ∧
      t = { s with dma := t.dma, dev := { s.dev with armed := t.dev.armed }, intc := t.intc, out := t.out } := by
  have hinv : ((s.disarm m).chan ch).invalid = true := by simp [Dma.invalid, hlen]
  refine ⟨_, exec_of_settled (fun u => u.dmaGo ch) hawake hm, ?_, settled_frame (Touches.refl _).dmaGo⟩
  rw [dmaGo_of_idle (by simpa using hrun) (by simpa using hidle), dmaStart_of_invalid hinv, chan_settleInts, State.chan_setChan, chan_disarm]

theorem dmaGo_holds_start (hawake : asleep s = false) (hrun : s.dma.halted = false)
    (hst : (s.chan ch).state = 1 ∨ (s.chan ch).state = 2) (hm : masterOk m = true) :
    does (.dmaGo m ch) s fun t =>
      t.chan ch = { s.chan ch with held := true } ∧
      t = { s with dma := t.dma, dev := { s.dev with armed := t.dev.armed }, intc := t.intc, out := t.out } := by
  refine ⟨_, exec_of_settled (fun u => u.dmaGo ch) hawake hm, ?_, settled_frame (Touches.refl _).dmaGo⟩
  rw [dmaGo_of_moving (by simpa using hrun) (by simpa using hst), chan_settleInts, State.chan_setChan, chan_disarm]

theorem dmaPause_sets_pause (hawake : asleep s = false) (hst : (s.chan ch).state ≠ 1) (hm : masterOk m = true) :
    does (.dmaPause m ch) s fun t =>
      t.chan ch = { s.chan ch with pause := true } ∧
      t = { s with dma := t.dma, dev := { s.dev with armed := t.dev.armed }, intc := t.intc, out := t.out } := by
  have hpause : (s.disarm m).dmaPause ch = (s.disarm m).setChan ch { (s.disarm m).chan ch with pause := true } :=
    dmaPause_of_rest (by simpa using hst)
  refine ⟨_, exec_of_settled (fun u => u.dmaPause ch) hawake hm, ?_, settled_frame (m := m) ?_⟩
  · rw [chan_settleInts, hpause, State.chan_setChan, chan_disarm]
  · exact hpause ▸ (Touches.refl _).setChan

theorem dmaResume_runs (hawake : asleep s = false) (hst : (s.chan ch).state = 3) (hm : masterOk m = true) :
    does (.dmaResume m ch) s fun t =>
      t.chan ch = { s.chan ch with pause := false, state := 1 } ∧
      t = { s with dma := t.dma, dev := { s.dev with armed := t.dev.armed }, intc := t.intc, out := t.out } := by
  refine ⟨_, exec_of_settled (fun u => u.dmaResume ch) hawake hm, ?_, settled_frame (Touches.refl _).dmaResume⟩
  simp [State.dmaResume, hst]

theorem dmaAbort_ends_paused (hawake : asleep s = false) (hst : (s.chan ch).state = 3 ∨ (s.chan ch).state = 2)
    (hfree : (s.chan ch).held = false) (hm : masterOk m = true) :
    does (.dmaAbort m ch) s fun t =>
      t.chan ch = { s.chan ch with state := 0, err := true, errCode := 5 } ∧
      t = { s with dma := t.dma, dev := { s.dev with armed := t.dev.armed }, intc := t.intc, out := t.out } := by
  have habort : (s.disarm m).dmaAbort ch =
      (s.disarm m).setChan ch { (s.disarm m).chan ch with state := 0, err := true, errCode := 5 } :=
    dmaAbort_of_paused (by simpa using hst) (by simpa using hfree)
  refine ⟨_, exec_of_settled (fun u => u.dmaAbort ch) hawake hm, ?_, settled_frame (m := m) ?_⟩
  · rw [chan_settleInts, habort, State.chan_setChan, chan_disarm]
  · exact habort ▸ (Touches.refl _).setChan

/-- A pause of a running transfer drains it; what is left then decides whether it rests or is done. -/
theorem dmaPause_drains (hawake : asleep s = false) (hst : (s.chan ch).state = 1) (hfree : (s.chan ch).held = false)
    (hm : masterOk m = true) :
    does (.dmaPause m ch) s fun t =>
      (t.chan ch).pause = true ∧
      ((t.chan ch).state = 3 ∨ ((t.chan ch).state = 0 ∧ (t.chan ch).done = true ∧ (t.chan ch).len = 0)) ∧
      (t.chan ch).len.toNat ≤ (s.chan ch).len.toNat ∧ t.dma.halted = s.dma.halted ∧ t.dict = s.dict := by
  refine ⟨_, exec_of_settled (fun u => u.dmaPause ch) hawake hm, ?_⟩
  generalize hu : (s.disarm m).setChan ch { (s.disarm m).chan ch with pause := true } = u
  have huchan : u.chan ch = { s.chan ch with pause := true } := by rw [← hu, State.chan_setChan, chan_disarm]
  have hhalt : (u.dmaDrain ch).dma.halted = s.dma.halted := by rw [dmaDrain_halted, ← hu, setChan_halted, State.disarm_dma]
  obtain ⟨n, hn, hdrain⟩ := dmaDrain_chan u ch
  have hlen : ((u.dmaDrain ch).chan ch).len.toNat ≤ (s.chan ch).len.toNat := by
    have := advance_len_le hn
    rwa [← hdrain, huchan] at this
  have hfree' : ((u.dmaDrain ch).chan ch).held = false := by rw [hdrain, huchan]; exact hfree
  have hpause : ((u.dmaDrain ch).chan ch).pause = true := by rw [hdrain, huchan]; rfl
  have hdict : ((s.disarm m).dmaPause ch).dict = s.dict := (Touches.refl (s.disarm m)).dmaPause (hl := List.Subset.refl _) |>.same .dict
  have hstep : (s.disarm m).dmaPause ch =
      if ((u.dmaDrain ch).chan ch).len = 0 then ((u.dmaDrain ch).dmaEnd ch 0).dmaHeld ch
      else (u.dmaDrain ch).setChan ch { (u.dmaDrain ch).chan ch with state := 3 } := by
    unfold State.dmaPause
    rw [hu]
    exact if_pos (huchan ▸ hst)
  generalize u.dmaDrain ch = v at hstep hhalt hlen hfree' hpause
  rw [dmaEnd_done, dmaHeld_of_free (by simpa using hfree')] at hstep
  rw [State.settleInts_dict, State.settleInts_dma, chan_settleInts]
  refine ⟨?_, ?_, ?_, ?_, hdict⟩
  all_goals rw [hstep]; split
  all_goals simp [*]

theorem dmaAbort_drains (hawake : asleep s = false) (hst : (s.chan ch).state = 1) (hfree : (s.chan ch).held = false)
    (hm : masterOk m = true) :
    does (.dmaAbort m ch) s fun t =>
      (t.chan ch).state = 0 ∧ (t.chan ch).err = true ∧ (t.chan ch).errCode = 5 ∧ (t.chan ch).len.toNat ≤ (s.chan ch).len.toNat ∧
      t.dma.halted = s.dma.halted ∧ t.dict = s.dict := by
  refine ⟨_, exec_of_settled (fun u => u.dmaAbort ch) hawake hm, ?_⟩
  have hdict : ((s.disarm m).dmaAbort ch).dict = s.dict :=
    (Touches.refl (s.disarm m)).dmaAbort (hl := List.Subset.refl _) |>.same .dict
  obtain ⟨n, hn, hdrain⟩ := dmaDrain_chan (s.disarm m) ch
  have hfree' : (((s.disarm m).dmaDrain ch).chan ch).held = false := by rw [hdrain, chan_disarm]; exact hfree
  have hlen : (((s.disarm m).dmaDrain ch).chan ch).len.toNat ≤ (s.chan ch).len.toNat := by
    have := advance_len_le hn
    rwa [← hdrain, chan_disarm] at this
  have hhalt : ((s.disarm m).dmaDrain ch).dma.halted = s.dma.halted := by rw [dmaDrain_halted, State.disarm_dma]
  refine ⟨?_, ?_, ?_, ?_, ?_, by rw [State.settleInts_dict, hdict]⟩
  all_goals
    simp only [chan_settleInts, State.settleInts_dma, dmaAbort_of_running ((chan_disarm s m ch).symm ▸ hst) hfree', State.chan_setChan,
      setChan_halted, hhalt, hlen]

/-- The failing access of a host side, no other channel running. -/
theorem dmaAccessError_fails (a : BitVec 48) (d : Bytes) (hawake : asleep s = false) (hst : (s.chan ch).state = 1)
    (hhost : (s.chan ch).srcDev = false ∨ (s.chan ch).dstDev = false)
    (hothers : (s.dma.chans.all fun q => q.1 == ch.val || (q.2.state != 1 && q.2.state != 2)) = true) :
    does (.dmaAccessError ch .host a d) s fun t =>
      (t.chan ch).state = 0 ∧ (t.chan ch).err = true ∧ (t.chan ch).errCode = 1 ∧ t.dma.halted = true ∧
      (s.dma.halted = false → t.dma.channel = BitVec.ofNat 5 ch) ∧ t.faults.valid = true ∧
      (s.faults.valid = false → (s.chan ch).dstDev = false →
        t.faults.kind = 0x0A ∧ t.faults.master = mDma ch ∧ t.faults.addr = BitVec.ofNat 48 a.toNat) ∧ t.dict = s.dict := by
  generalize hb : (if (s.chan ch).srcDev then sourceBytes s (s.chan ch) (d.take ((s.chan ch).len.toNat - 1)).length
    else d.take ((s.chan ch).len.toNat - 1)) = b
  have hpossible : ¬((s.chan ch).state ≠ 1 ∨ (!(s.chan ch).srcDev || !(s.chan ch).dstDev) = false) := by
    rw [hst]
    rcases hhost with h | h <;> simp [h]
  have hexec : exec (.dmaAccessError ch .host a d) s = .next ((s.dmaMove ch b).dmaFail ch 1 a.toNat) := by
    rw [← hb]
    exact (awake_of hawake _).trans (if_neg hpossible)
  have halone : NoneElseMoves (s.dmaMove ch b) ch := by
    refine NoneElseMoves.of_dma (NoneElseMoves.setChan ?_ _) (dmaMove_dma s ch b)
    intro q hq
    simpa using List.all_eq_true.1 hothers q hq
  have hmove : Touches [.clk, .pins, .store, .paths, .pool, .dma, .intc, .mem, .faults, .out] s (s.dmaMove ch b) :=
    (Touches.refl s).dmaMove
  have hdma : (((failedAlone (s.dmaMove ch b) ch 1).raise 0x013 (mDma ch) (le 1 ch)).contained 0x0A .dma (mDma ch) a.toNat).dma =
      (failedAlone (s.dmaMove ch b) ch 1).dma := by rw [State.contained_dma, State.raise_dma]
  refine ⟨_, hexec, ?_⟩
  beta_reduce
  rw [dmaFail_of_alone halone, chan_eq_of_dma_eq hdma, failedAlone_chan (by decide), hdma]
  refine ⟨rfl, rfl, rfl, rfl, ?_, contained_valid .., ?_, ?_⟩
  · intro hrun
    exact if_neg (by rw [dmaMove_halted, hrun]; decide)
  · intro hfree hdst
    have hfaults : (s.dmaMove ch b).faults = s.faults := (dmaMove_of_host hdst).same .faults
    have hnone : ((failedAlone (s.dmaMove ch b) ch 1).raise 0x013 (mDma ch) (le 1 ch)).faults.valid = false := by
      rw [State.raise_faults]
      exact (congrArg Faults.valid hfaults).trans hfree
    obtain ⟨hkind, -, -, hmaster, haddr⟩ := contained_first _ 0x0A .dma (mDma ch) a.toNat hnone
    exact ⟨hkind, hmaster, haddr⟩
  · rw [State.contained_dict, State.raise_dict]
    exact hmove.same .dict

theorem dmaHaltedClear_runs (hawake : asleep s = false) (hrest : (s.dma.chans.all fun q => q.2.state != 2 && !q.2.held) = true)
    (hm : masterOk m = true) :
    does (.dmaHaltedClear m) s fun t =>
      t.dma = { s.dma with halted := false } ∧
      t = { s with dma := t.dma, dev := { s.dev with armed := t.dev.armed }, intc := t.intc, out := t.out } := by
  refine ⟨_, exec_of_settled (fun u => u.dmaUnhalt) hawake hm, ?_, settled_frame (Touches.refl _).dmaUnhalt⟩
  have hfree : ∀ n, (s.chan n).held = false := by
    intro n
    unfold State.chan lookD
    cases hl : look s.dma.chans n with
    | none => rfl
    | some c =>
      have := List.all_eq_true.1 hrest _ (mem_of_look hl)
      simp_all
  have hpausing : ((s.disarm m).dma.chans.any fun q => q.2.state == 2) = false := by
    rw [List.any_eq_false]
    intro q hq
    have := List.all_eq_true.1 hrest q hq
    simp_all
  have hnone : ∀ (l : List Nat) (u : State), (∀ n, (u.chan n).held = false) → l.foldl (fun s n => s.dmaHeld n) u = u := by
    intro l
    induction l with
    | nil => exact fun _ _ => rfl
    | cons n r ih => intro u hu; rw [List.foldl_cons, dmaHeld_of_free (hu n), ih u hu]
  unfold State.dmaUnhalt
  rw [if_neg (by rw [hpausing]; decide), hnone, State.settleInts_dma]
  · rfl
  · exact hfree

/-- Settles O36: every command of the block ends or starts its channel as R408 to R410 say; a drain moves no more than the rest. -/
theorem dmaStartsAndStops : Obligations.DmaStartsAndStops :=
  ⟨dmaGo_runs, dmaGo_ends_empty, dmaGo_holds_start, dmaPause_sets_pause, dmaPause_drains, dmaResume_runs, dmaAbort_ends_paused,
   dmaAbort_drains, dmaAccessError_fails, dmaHaltedClear_runs⟩

end Sys2Proof.Proofs
end

section
/-! PROOFS. The DMA engine: what a transfer copies (R405, R407). -/

open Sys2Proof Sys2Proof.Machine

-- One proof at a time: a thread for each proof would pass the limit that the check sets to memory.
set_option Elab.async false

namespace Sys2Proof.Proofs

variable {s t u : State} {m : Master} {ch : Nat}

/-! ### Byte strings in memory -/

theorem setBytes_append (t : Tab Byte) (a : Nat) (b c : Bytes) :
    setBytes t a (b ++ c) = setBytes (setBytes t a b) (a + b.length) c := by
  induction b generalizing t a with
  | nil => rfl
  | cons x b ih =>
    rw [List.cons_append, setBytes, ih, setBytes, List.length_cons, Nat.add_assoc, Nat.add_comm 1]

theorem bytesAt_succ (t : Tab Byte) (a n : Nat) : bytesAt t a (n + 1) = byteAt t a :: bytesAt t (a + 1) n := by
  simp [bytesAt, List.range_succ_eq_map, Function.comp_def, Nat.add_assoc, Nat.add_comm 1]

theorem tabWf_of_memWf {t : Tab Byte} (h : memWf t = true) : tabWf t = true := (Bool.and_eq_true_iff.1 h).1

/-- A string that was stored reads back. -/
theorem bytesAt_setBytes (b : Bytes) {t : Tab Byte} (a : Nat) (h : memWf t = true) : bytesAt (setBytes t a b) a b.length = b := by
  induction b generalizing t a with
  | nil => rfl
  | cons x b ih =>
    have hhead : byteAt (setBytes (setByte t a x) (a + 1) b) a = x := by
      rw [byteAt_setBytes_outside _ _ _ _ (.inl (Nat.lt_succ_self a)), byteAt_setByte_same _ _ _ (tabWf_of_memWf h)]
    rw [List.length_cons, bytesAt_succ, setBytes, hhead, ih _ (memWf_setByte t a x h)]

theorem bytesAt_add (t : Tab Byte) (a n k : Nat) : bytesAt t a (n + k) = bytesAt t a n ++ bytesAt t (a + n) k := by
  simp [bytesAt, List.range_add, Function.comp_def, Nat.add_assoc]

theorem devRead_add (s : State) (a n k : Nat) : s.devRead a (n + k) = s.devRead a n ++ s.devRead (a + n) k := by
  unfold State.devRead
  rw [bytesAt_add, List.zipIdx_append, List.map_append, bytesAt_length, Nat.zero_add, List.zipIdx_eq_map_add (i := n), List.map_map]
  congr 1
  refine List.map_congr_left fun q _ => ?_
  simp [Nat.add_assoc]

/-- The accesses of a moving side read its bytes in order. -/
theorem accesses_read (s : State) {unit : Nat} :
    ∀ (k a n : Nat), n < k → (accesses false unit k a n).flatMap (fun x => s.devRead x.1 x.2) = s.devRead a n := by
  intro k
  induction k with
  | zero => exact fun _ _ h => absurd h (Nat.not_lt_zero _)
  | succ k ih =>
    intro a n h
    unfold accesses
    split
    · next h0 => subst h0; rfl
    · next h0 =>
      have hlen := accessLen_pos (a := a) (Nat.pos_of_ne_zero h0)
      rw [if_neg Bool.false_ne_true, List.flatMap_cons, ih _ _ (by omega), ← devRead_add]
      congr 1
      omega

theorem sourceBytes_eq {c : Dma} (h : c.srcFixed = false) (n : Nat) : sourceBytes s c n = s.devRead c.src.toNat n := by
  rw [sourceBytes, h, accesses_read s _ _ _ (Nat.lt_succ_self n)]

/-! ### Writes of device memory -/

@[simp] theorem activate_ddrBytes (s : State) (a : Nat) : (s.activate a).mem.ddrBytes = s.mem.ddrBytes := by
  unfold State.activate
  dsimp only
  repeat' split
  all_goals rfl

@[simp] theorem ddrTouch_ddrBytes (s : State) (a n : Nat) : (s.ddrTouch a n).mem.ddrBytes = s.mem.ddrBytes := by
  have hfold : ∀ (l : List Nat) (u : State),
      (l.foldl (fun s i => s.activate (256 * (a / 256 + i))) u).mem.ddrBytes = u.mem.ddrBytes := by
    intro l
    induction l with
    | nil => exact fun _ => rfl
    | cons i r ih => exact fun u => (ih _).trans (activate_ddrBytes u _)
  unfold State.ddrTouch
  split
  · rfl
  · exact hfold _ s

/-- Which accesses are mapped depends on the size of DDR5 alone. -/
theorem devMapped_congr (h : t.mem.ddrBytes = s.mem.ddrBytes) (m : Master) (a n : Nat) : devMapped t m a n = devMapped s m a n := by
  have hregion : region t = region s := by
    funext x
    simp only [region, h]
  rw [devMapped, devMapped, hregion]

/-- `t` is `s` with a string stored in device memory, and in the pool's blocks that it covers. -/
structure Placed (s t : State) (a : Nat) (b : Bytes) : Prop where
  dev : t.mem.dev = setBytes s.mem.dev a b
  size : t.mem.ddrBytes = s.mem.ddrBytes
  frame : Touches [.pool, .mem] s t
  pool : a + b.length ≤ 0x010000000000 → t.pool = s.pool

theorem Placed.nil (s : State) (a : Nat) : Placed s s a [] := ⟨rfl, rfl, .refl s, fun _ => rfl⟩

theorem Placed.append {a : Nat} {b c : Bytes} (h : Placed s t a b) (g : Placed t u (a + b.length) c) : Placed s u a (b ++ c) where
  dev := by rw [g.dev, h.dev, setBytes_append]
  size := g.size.trans h.size
  frame := h.frame.trans g.frame
  pool := fun hb => by
    rw [List.length_append] at hb
    exact (g.pool (by omega)).trans (h.pool (by omega))

/-- A mapped write places its string. -/
theorem devWrite_placed {acc : Access} {a : Nat} {b : Bytes} (h : devMapped s m a b.length = true) : Placed s (s.devWrite m acc a b) a b := by
  unfold State.devWrite
  split
  · next he =>
    rw [List.isEmpty_iff.1 he]
    exact .nil s a
  · next he =>
    have hpos : 0 < b.length := List.length_pos_iff.2 fun hb => he (by rw [hb]; rfl)
    rw [h, if_neg (by decide)]
    dsimp only
    refine ⟨?_, ?_, (Touches.refl s).poolWrite.devStore.ddrTouch.setMem, ?_⟩
    · dsimp only
      rw [State.ddrTouch_dev, State.devStore, State.poolWrite_mem]
    · dsimp only
      rw [ddrTouch_ddrBytes, State.devStore, State.poolWrite_mem]
    · intro hlow
      have htouch : (((s.poolWrite a b).devStore a b).ddrTouch a b.length).pool = (s.poolWrite a b).pool :=
        (Touches.refl (s.poolWrite a b)).devStore.ddrTouch (hl := List.Subset.refl _) |>.same .pool
      exact htouch.trans (congrArg State.pool (if_pos (by omega)))

/-- The accesses of a moving destination place the moved bytes in order. -/
theorem accesses_placed {unit : Nat} {acc : Access} :
    ∀ (k a : Nat) (b : Bytes) (s : State), b.length < k →
      (accesses false unit k a b.length).all (fun x => devMapped s m x.1 x.2) = true →
      Placed s ((accesses false unit k a b.length).foldl
        (fun (q : State × Bytes) x => (q.1.devWrite m acc x.1 (q.2.take x.2), q.2.drop x.2)) (s, b)).1 a b := by
  intro k
  induction k with
  | zero => exact fun _ _ _ h => absurd h (Nat.not_lt_zero _)
  | succ k ih =>
    intro a b s h hmapped
    unfold accesses at hmapped ⊢
    split
    · next h0 =>
      rw [List.eq_nil_of_length_eq_zero h0]
      exact .nil s a
    · next h0 =>
      rw [if_neg h0, if_neg Bool.false_ne_true, List.all_cons, Bool.and_eq_true] at hmapped
      obtain ⟨hhead, htail⟩ := hmapped
      have hlen := accessLen_pos (a := a) (Nat.pos_of_ne_zero h0)
      have htake : (b.take (accessLen a b.length)).length = accessLen a b.length := by
        rw [List.length_take]
        omega
      have hdrop : (b.drop (accessLen a b.length)).length = b.length - accessLen a b.length := List.length_drop
      have hfirst : Placed s (s.devWrite m acc a (b.take (accessLen a b.length))) a (b.take (accessLen a b.length)) :=
        devWrite_placed (by rw [htake]; exact hhead)
      have hrest := ih (a + accessLen a b.length) (b.drop (accessLen a b.length)) (s.devWrite m acc a (b.take (accessLen a b.length)))
        (by omega) (by
          rw [hdrop]
          simpa only [devMapped_congr hfirst.size] using htail)
      rw [hdrop] at hrest
      have hboth := hfirst.append (by rw [htake]; exact hrest)
      rw [List.take_append_drop] at hboth
      rw [if_neg Bool.false_ne_true, List.foldl_cons]
      exact hboth

theorem dmaPut_placed {c : Dma} {b : Bytes} (hdev : c.dstDev = true) (hfixed : c.dstFixed = false)
    (hmapped : (accesses false c.unit (b.length + 1) c.dst.toNat b.length).all (fun x => devMapped s (mDma ch) x.1 x.2) = true) :
    Placed s (s.dmaPut ch c b) c.dst.toNat b := by
  unfold State.dmaPut
  simp only [hdev, hfixed, if_true]
  exact accesses_placed _ _ _ _ (Nat.lt_succ_self _) hmapped

theorem readAccess_mem (s : State) (l : List (Nat × Nat)) :
    (s.readAccess l).mem.dev = s.mem.dev ∧ (s.readAccess l).mem.ddrBytes = s.mem.ddrBytes := by
  unfold State.readAccess
  induction l generalizing s with
  | nil => exact ⟨rfl, rfl⟩
  | cons x r ih =>
    obtain ⟨hdev, hsize⟩ := ih (s.ddrTouch x.1 x.2)
    rw [List.foldl_cons]
    exact ⟨hdev.trans (State.ddrTouch_dev ..), hsize.trans (ddrTouch_ddrBytes ..)⟩

/-! ### The end of a transfer -/

/-- A channel whose transfer is complete. -/
def Completed (s t : State) (ch : Nat) : Prop :=
  (t.chan ch).state = 0 ∧ (t.chan ch).done = true ∧ (t.chan ch).len = 0 ∧
  (t.chan ch).src = (s.chan ch).src + BitVec.ofNat 64 (s.chan ch).len.toNat ∧
  (t.chan ch).dst = (s.chan ch).dst + BitVec.ofNat 64 (s.chan ch).len.toNat

/-- The state that DMA_DONE leaves when its last bytes are `b`: no register is written in the same cycle. -/
def afterDone (s : State) (ch : Nat) (b : Bytes) : State :=
  (((s.dmaMove ch b).dmaEnd ch 0).setChan ch (((s.dmaMove ch b).dmaEnd ch 0).chan ch)).settleInts

/-- Of the moved state the end changes the channel, and settles the interrupts. -/
theorem afterDone_touches (s : State) (ch : Nat) (b : Bytes) : Touches [.dma, .intc, .out] (s.dmaMove ch b) (afterDone s ch b) :=
  (Touches.refl _).dmaEnd.setChan.settleInts

theorem dmaEnd_chan (s : State) (ch : Nat) (b : Bytes) :
    ((s.dmaMove ch b).dmaEnd ch 0).chan ch = { (s.chan ch).advance b.length with state := 0, done := true } := by
  rw [dmaEnd_done, State.chan_setChan, dmaMove_chan]

theorem afterDone_completed {b : Bytes} (hsrc : (s.chan ch).srcFixed = false) (hdst : (s.chan ch).dstFixed = false)
    (hlen : b.length = (s.chan ch).len.toNat) : Completed s (afterDone s ch b) ch := by
  have hchan : (afterDone s ch b).chan ch = { (s.chan ch).advance b.length with state := 0, done := true } := by
    rw [afterDone, chan_settleInts, State.chan_setChan, dmaEnd_chan]
  simp [Completed, hchan, Dma.advance, hsrc, hdst, hlen]

/-- A command DMA_DONE whose source can be read, with no start held and no register write of the same cycle. -/
theorem exec_dmaDone {ch : Fin 32} {data : Bytes} (hawake : asleep s = false) (hst : (s.chan ch).state = 1)
    (hfree : (s.chan ch).held = false) {b : Bytes}
    (hb : (if (s.chan ch).srcDev then sourceBytes s (s.chan ch) (s.chan ch).len.toNat else slice data 0 (s.chan ch).len.toNat) = b)
    (hread : (s.chan ch).srcDev = true →
      readable s (mDma ch) (accesses (s.chan ch).srcFixed (s.chan ch).unit ((s.chan ch).len.toNat + 1) (s.chan ch).src.toNat
        (s.chan ch).len.toNat) = ((s.chan ch).len.toNat, none)) :
    exec (.dmaDone ch data []) s = .next (afterDone s ch b) := by
  have hgot : (if (s.chan ch).srcDev then readable s (mDma ch) (accesses (s.chan ch).srcFixed (s.chan ch).unit
      ((s.chan ch).len.toNat + 1) (s.chan ch).src.toNat (s.chan ch).len.toNat) else ((s.chan ch).len.toNat, none)) =
      ((s.chan ch).len.toNat, none) := by
    split
    · next h => exact hread h
    · rfl
  refine (awake_of hawake _).trans ((if_neg (not_not.2 hst)).trans ?_)
  have hheld : (((s.dmaMove ch b).dmaEnd ch 0).setChan ch (((s.dmaMove ch b).dmaEnd ch 0).chan ch)).dmaHeld ch =
      ((s.dmaMove ch b).dmaEnd ch 0).setChan ch (((s.dmaMove ch b).dmaEnd ch 0).chan ch) :=
    dmaHeld_of_free (by rw [State.chan_setChan, dmaEnd_chan]; exact hfree)
  dsimp only
  rw [hgot, hb, List.foldl_nil, hheld]
  rfl

/-- The moved bytes of a device destination lie there, and nowhere else. -/
theorem dmaMove_placed {ch : Fin 32} {b : Bytes} (hdev : (s.chan ch).dstDev = true) (hfixed : (s.chan ch).dstFixed = false)
    (hlen : b.length = (s.chan ch).len.toNat)
    (hmapped : ((accesses false (s.chan ch).unit ((s.chan ch).len.toNat + 1) (s.chan ch).dst.toNat (s.chan ch).len.toNat).all fun x =>
      devMapped s (mDma ch) x.1 x.2) = true) :
    (s.dmaMove ch b).mem.dev = setBytes s.mem.dev (s.chan ch).dst.toNat b ∧
    ((s.chan ch).dst.toNat + b.length ≤ 0x010000000000 → (s.dmaMove ch b).pool = s.pool) ∧
    Touches [.dma, .pool, .mem] s (s.dmaMove ch b) := by
  unfold State.dmaMove
  dsimp only
  generalize hr : (if (s.chan ch).srcDev then
    s.readAccess (accesses (s.chan ch).srcFixed (s.chan ch).unit (b.length + 1) (s.chan ch).src.toNat b.length) else s) = r
  obtain ⟨hrdev, hrsize, hrframe⟩ : r.mem.dev = s.mem.dev ∧ r.mem.ddrBytes = s.mem.ddrBytes ∧ Touches [.mem] s r := by
    rw [← hr]
    split
    · exact ⟨(readAccess_mem s _).1, (readAccess_mem s _).2, (Touches.refl s).readAccess⟩
    · exact ⟨rfl, rfl, .refl s⟩
  have hput : Placed r (r.dmaPut ch (s.chan ch) b) (s.chan ch).dst.toNat b := by
    refine dmaPut_placed hdev hfixed ?_
    rw [hlen]
    simpa only [devMapped_congr hrsize] using hmapped
  refine ⟨?_, ?_, ?_⟩
  · rw [State.setChan_mem, hput.dev, hrdev]
  · intro hlow
    rw [State.setChan_pool, hput.pool hlow]
    exact hrframe.same .pool
  · exact ((hrframe.mono (by decide)).trans (hput.frame.mono (by decide))).setChan

/-- A transfer into device memory: the bytes moved lie at the destination, nothing else of memory changes. -/
theorem dmaDone_to_device {ch : Fin 32} {data b : Bytes} (hawake : asleep s = false) (hst : (s.chan ch).state = 1)
    (hsrc : (s.chan ch).srcFixed = false) (hdst : (s.chan ch).dstFixed = false) (hfree : (s.chan ch).held = false)
    (hwf : s.mem.wf = true) (hdev : (s.chan ch).dstDev = true)
    (hb : (if (s.chan ch).srcDev then sourceBytes s (s.chan ch) (s.chan ch).len.toNat else slice data 0 (s.chan ch).len.toNat) = b)
    (hlen : b.length = (s.chan ch).len.toNat)
    (hread : (s.chan ch).srcDev = true →
      readable s (mDma ch) (accesses (s.chan ch).srcFixed (s.chan ch).unit ((s.chan ch).len.toNat + 1) (s.chan ch).src.toNat
        (s.chan ch).len.toNat) = ((s.chan ch).len.toNat, none))
    (hmapped : ((accesses false (s.chan ch).unit ((s.chan ch).len.toNat + 1) (s.chan ch).dst.toNat (s.chan ch).len.toNat).all fun x =>
      devMapped s (mDma ch) x.1 x.2) = true) :
    does (.dmaDone ch data []) s fun t => Completed s t ch ∧
      bytesAt t.mem.dev (s.chan ch).dst.toNat (s.chan ch).len.toNat = b ∧
      (∀ a, a < (s.chan ch).dst.toNat ∨ (s.chan ch).dst.toNat + (s.chan ch).len.toNat ≤ a → byteAt t.mem.dev a = byteAt s.mem.dev a) ∧
      ((s.chan ch).dst.toNat + (s.chan ch).len.toNat ≤ 0x010000000000 → t.pool = s.pool) ∧
      t = { s with dma := t.dma, mem := t.mem, pool := t.pool, intc := t.intc, out := t.out } := by
  obtain ⟨hplaced, hpool, hmove⟩ := dmaMove_placed hdev hdst hlen hmapped
  have hend := afterDone_touches s ch b
  have hmem : (afterDone s ch b).mem.dev = setBytes s.mem.dev (s.chan ch).dst.toNat b :=
    (congrArg Memory.dev (hend.same .mem)).trans hplaced
  have hframe : Touches [.pool, .dma, .mem, .intc, .out] s (afterDone s ch b) :=
    (hmove.mono (by decide)).trans (hend.mono (by decide))
  refine ⟨_, exec_dmaDone hawake hst hfree hb hread, afterDone_completed hsrc hdst hlen, ?_, ?_, ?_, hframe.frame (by simp)⟩
  · rw [hmem, ← hlen]
    exact bytesAt_setBytes b _ hwf
  · intro a ha
    rw [hmem]
    exact byteAt_setBytes_outside _ _ _ _ (hlen ▸ ha)
  · intro hlow
    exact (hend.same .pool).trans (hpool (hlen ▸ hlow))

@[simp] theorem slice_length (b : Bytes) (o n : Nat) : (slice b o n).length = n := by
  simp [slice]

/-- Moved bytes for the host change no byte of device memory. -/
theorem dmaMove_host_dev {b : Bytes} (h : (s.chan ch).dstDev = false) : (s.dmaMove ch b).mem.dev = s.mem.dev := by
  unfold State.dmaMove
  dsimp only
  rw [State.setChan_mem, (dmaPut_of_host _ ch b h).same .mem]
  split
  · exact (readAccess_mem s _).1
  · rfl

/-- From host to host nothing of memory is even touched. -/
theorem dmaMove_host_host {b : Bytes} (hsrc : (s.chan ch).srcDev = false) (hdst : (s.chan ch).dstDev = false) :
    Touches [.dma, .out] s (s.dmaMove ch b) := by
  unfold State.dmaMove
  dsimp only
  rw [hsrc, if_neg Bool.false_ne_true]
  exact ((Touches.refl s).op (dmaPut_of_host s ch b hdst)).setChan

/-- Settles O37: a transfer moves its bytes access by access, each where it belongs. -/
theorem dmaCopies : Obligations.DmaCopies := by
  refine ⟨?_, ?_, ?_, ?_⟩
  · intro s ch hawake hst hsrc hdst hfree hwf hsdev hddev hread hmapped
    have hb : (if (s.chan ch).srcDev then sourceBytes s (s.chan ch) (s.chan ch).len.toNat else slice [] 0 (s.chan ch).len.toNat) =
        s.devRead (s.chan ch).src.toNat (s.chan ch).len.toNat := by rw [if_pos hsdev, sourceBytes_eq hsrc]
    obtain ⟨t, hexec, ⟨h1, h2, h3, h4, h5⟩, hrest⟩ := dmaDone_to_device (data := []) hawake hst hsrc hdst hfree hwf hddev hb
      (devRead_length ..) (fun _ => hsrc ▸ hread) hmapped
    exact ⟨t, hexec, h1, h2, h3, h4, h5, hrest⟩
  · intro s ch d hawake hst hsrc hdst hfree hwf hsdev hddev hmapped
    have hb : (if (s.chan ch).srcDev then sourceBytes s (s.chan ch) (s.chan ch).len.toNat else slice d 0 (s.chan ch).len.toNat) =
        slice d 0 (s.chan ch).len.toNat := if_neg (by rw [hsdev]; decide)
    obtain ⟨t, hexec, ⟨h1, h2, h3, h4, h5⟩, hrest⟩ := dmaDone_to_device (data := d) hawake hst hsrc hdst hfree hwf hddev hb
      (slice_length ..) (fun h => absurd h (by rw [hsdev]; decide)) hmapped
    exact ⟨t, hexec, h1, h2, h3, h4, h5, hrest⟩
  · intro s ch hawake hst hsrc hdst hfree hsdev hddev hread
    have hb : (if (s.chan ch).srcDev then sourceBytes s (s.chan ch) (s.chan ch).len.toNat else slice [] 0 (s.chan ch).len.toNat) =
        sourceBytes s (s.chan ch) (s.chan ch).len.toNat := if_pos hsdev
    obtain ⟨h1, h2, h3, h4, h5⟩ := afterDone_completed hsrc hdst (sourceBytes_length s (s.chan ch) (s.chan ch).len.toNat)
    refine ⟨_, exec_dmaDone hawake hst hfree hb (fun _ => hsrc ▸ hread), h1, h2, h3, h4, h5, ?_, ?_⟩
    · exact (congrArg Memory.dev ((afterDone_touches s ch _).same .mem)).trans (dmaMove_host_dev hddev)
    · exact (((dmaMove_of_host hddev).mono (by decide)).trans ((afterDone_touches ..).mono (by decide)) :
        Touches [.dma, .mem, .intc, .out] s _).frame (by simp)
  · intro s ch d hawake hst hsrc hdst hfree hsdev hddev
    have hb : (if (s.chan ch).srcDev then sourceBytes s (s.chan ch) (s.chan ch).len.toNat else slice d 0 (s.chan ch).len.toNat) =
        slice d 0 (s.chan ch).len.toNat := if_neg (by rw [hsdev]; decide)
    obtain ⟨h1, h2, h3, h4, h5⟩ := afterDone_completed hsrc hdst (slice_length d 0 (s.chan ch).len.toNat)
    refine ⟨_, exec_dmaDone hawake hst hfree hb (fun h => absurd h (by rw [hsdev]; decide)), h1, h2, h3, h4, h5, ?_⟩
    exact (((dmaMove_host_host hsdev hddev).mono (by decide)).trans ((afterDone_touches ..).mono (by decide)) :
      Touches [.dma, .intc, .out] s _).frame (by simp)

end Sys2Proof.Proofs
end

section
/-! PROOFS. The buffer pool: next states of its commands (R424 to R429). -/

open Sys2Proof Sys2Proof.Machine

-- One proof at a time: a thread for each proof would pass the limit that the check sets to memory.
set_option Elab.async false

namespace Sys2Proof.Proofs

variable {s t : State} {m : Master}

/-! ### Shared operations -/

/-- Of the device registers an accepted command changes the armed masters alone. -/
theorem armed_only (h : t.dev = (s.disarm m).dev) : { s.dev with armed := t.dev.armed } = t.dev := by
  rw [h]
  rfl

/-- An allocation while a buffer is left: the chosen one, and the count of the table it joins. -/
theorem allocBuffer_of_room (h : s.bpm.owners.length < 262144) :
    s.allocBuffer m = (some (s.bpm.choose s.clk.free), (s.freed).watermark (s.bpm.counted (put s.bpm.owners (s.bpm.choose s.clk.free) m))) :=
  if_neg (Nat.not_le.2 h)

/-- The buffer chosen has no owner. -/
theorem choose_unowned {b : Bpm} (hwf : tabWf b.owners = true) (n : Nat) : look b.owners (b.choose n) = none := by
  unfold Bpm.choose
  split
  · exact look_nthFree hwf fun _ _ => Nat.zero_le _
  · exact look_lowestFree hwf fun _ _ => Nat.zero_le _

/-- An allocation that is not refused for its rate: the buffer taken, the answer, and what stays. -/
theorem allocated {u : State} (hroom : u.bpm.owners.length < 262144) :
    let t := (u.allocBuffer m).2.answer m (allocWord (u.allocBuffer m).1)
    t.bpm = u.bpm.counted (put u.bpm.owners (u.bpm.choose u.clk.free) m) ∧
    t.out.getLast? = some (.readData m (BitVec.ofNat 32 (0x80000000 + u.bpm.choose u.clk.free))) ∧
    Touches [.clk, .intc, .bpm, .mem, .out] u t := by
  refine ⟨?_, ?_, (Touches.refl u).allocBuffer.answer⟩
  · rw [allocBuffer_of_room hroom, State.answer_bpm, watermark_bpm]
  · rw [allocBuffer_of_room hroom]
    simp [State.answer, State.emit, allocWord]

theorem staleEntries_of_clean (s : State) (l : List (BitVec 18)) :
    (s.staleEntries l).bpm.owners = s.bpm.owners ∧ (s.staleEntries l).bpm.mode = s.bpm.mode ∧
    ((∃ x ∈ l, look s.bpm.owners x.toNat ≠ none) → (s.staleEntries l).bpm.err.getLsbD 2 = true) := by
  unfold State.staleEntries
  dsimp only
  split
  · next h =>
    refine ⟨rfl, rfl, ?_⟩
    rintro ⟨x, hx, hown⟩
    have hnone : l.filter (fun b => !(s.bpm.isFree b.toNat)) = [] := List.eq_nil_of_length_eq_zero h
    rw [List.filter_eq_nil_iff] at hnone
    have := hnone x hx
    simp [Bpm.isFree] at this
    exact absurd this hown
  · refine ⟨rfl, rfl, fun _ => ?_⟩
    simp

/-- The pool after a word of the cache or the free ring that cannot be corrected (R428). -/
def afterBadWord (s : State) : State :=
  ({ s with
    bpm := { s.bpm with mode := if Config.freeBit s.clk.free then 1 else 2, err := s.bpm.err ||| (if Config.freeBit s.clk.free then 1 else 2) } }.freed).contained
      0x01 .read mBpm (bar0Addr 0x80014)

/-- The state once a read of `BPM_ALLOC` has read its word, before it allocates. -/
def wordRead (s : State) (e : Ecc) (l : List (BitVec 18)) : State :=
  if s.bpm.mode = 0 then
    match e with
    | .clean => s.staleEntries l
    | .corrected => s.corrected.staleEntries l
    | .uncorrectable => afterBadWord s
  else s

/-- A read of `BPM_ALLOC` that is not refused for its rate allocates from the state that the word read leaves. -/
theorem readAlloc_of_rate {u : State} {e : Ecc} {l : List (BitVec 18)} (hu : wordRead s e l = u) (hrate : u.beyondRate = false) :
    s.readAlloc m e l = (u.rated.allocBuffer m).2.answer m (allocWord (u.rated.allocBuffer m).1) := by
  have hread : s.readAlloc m e l = if (wordRead s e l).beyondRate then (wordRead s e l).freed.answer m 0 else
      ((wordRead s e l).rated.allocBuffer m).2.answer m (allocWord ((wordRead s e l).rated.allocBuffer m).1) := by
    cases e <;> rfl
  rw [hread, hu, hrate]
  exact if_neg (by decide)

theorem beyondRate_of_ring (h : s.bpm.mode = 0) : s.beyondRate = false := by
  simp [State.beyondRate, h]

theorem rated_of_ring (h : s.bpm.mode = 0) : s.rated = s := if_pos h

/-- Two allocations of a nanosecond are always served (R428). -/
theorem beyondRate_of_few (h : s.bpm.rateN < 2) : s.beyondRate = false := by
  unfold State.beyondRate
  dsimp only
  split
  · simp [show ¬6 ≤ s.bpm.rateN by omega, show ¬2 ≤ s.bpm.rateN by omega]
  · simp

/-- Counting an allocation leaves the owners and the mode alone. -/
theorem rated_bpm (s : State) : s.rated.bpm.owners = s.bpm.owners ∧ s.rated.bpm.mode = s.bpm.mode := by
  unfold State.rated
  split <;> exact ⟨rfl, rfl⟩

/-! ### Allocations (R425, R428) -/

theorem bufferAllocate_clean (s : State) (m : Master) (l : List (BitVec 18)) (hawake : asleep s = false)
    (hroom : s.bpm.owners.length < 262144) (hwf : tabWf s.bpm.owners = true) (hring : s.bpm.mode = 0) (hm : masterOk m = true) :
    does (.bufferAllocate m .clean l) s fun t =>
      (∃ b, look s.bpm.owners b = none ∧ look t.bpm.owners b = some m ∧ (∀ c, c ≠ b → look t.bpm.owners c = look s.bpm.owners c) ∧
        t.out.getLast? = some (.readData m (BitVec.ofNat 32 (0x80000000 + b)))) ∧
      ((∃ x ∈ l, look s.bpm.owners x.toNat ≠ none) → t.bpm.err.getLsbD 2 = true) ∧
      t = { s with bpm := t.bpm, clk := t.clk, intc := t.intc, mem := t.mem, out := t.out } := by
  obtain ⟨howners, hmode, hbad⟩ := staleEntries_of_clean s l
  generalize hu : s.staleEntries l = u at howners hmode hbad
  have hring' : u.bpm.mode = 0 := hmode.trans hring
  have halloc := readAlloc_of_rate (m := m) (e := .clean) (l := l) ((if_pos hring).trans hu) (beyondRate_of_ring hring')
  rw [rated_of_ring hring'] at halloc
  obtain ⟨hbpm, hout, hframe⟩ := allocated (m := m) (u := u) (howners ▸ hroom)
  have hexec : exec (.bufferAllocate m .clean l) s = .next ((u.allocBuffer m).2.answer m (allocWord (u.allocBuffer m).1)) := by
    rw [← halloc]
    exact issuedBy_of hawake hm _
  have hall : Touches [.bpm, .clk, .intc, .mem, .out] s ((u.allocBuffer m).2.answer m (allocWord (u.allocBuffer m).1)) :=
    ((hu ▸ (Touches.refl s).staleEntries : Touches [.bpm, .clk, .intc, .mem, .out] s u)).trans (hframe.mono (by decide))
  refine ⟨_, hexec, ⟨u.bpm.choose u.clk.free, ?_, ?_, ?_, hout⟩, ?_, hall.frame (by simp)⟩
  · rw [← howners]
    exact choose_unowned (howners ▸ hwf) _
  · rw [hbpm]
    exact look_put_same ..
  · intro c hc
    rw [hbpm, ← howners]
    exact look_put_ne _ _ hc
  · intro hx
    rw [hbpm]
    exact hbad hx

theorem bufferAllocate_bitmap (s : State) (m : Master) (hawake : asleep s = false) (hempty : s.bpm.owners = []) (hmode : s.bpm.mode = 1)
    (hfew : s.bpm.rateN < 2) (hm : masterOk m = true) :
    does (.bufferAllocate m .clean []) s fun t =>
      look t.bpm.owners 0 = some m ∧ t.out.getLast? = some (.readData m 0x80000000) ∧
      t = { s with bpm := t.bpm, clk := t.clk, intc := t.intc, mem := t.mem, out := t.out } := by
  obtain ⟨howners, hmode'⟩ := rated_bpm s
  have hzero : s.rated.bpm.choose s.rated.clk.free = 0 := by
    rw [Bpm.choose, hmode', hmode, if_neg (by decide), howners, hempty]
    rfl
  have halloc := readAlloc_of_rate (m := m) (e := .clean) (l := []) (if_neg (by rw [hmode]; decide)) (beyondRate_of_few hfew)
  obtain ⟨hbpm, hout, hframe⟩ := allocated (m := m) (u := s.rated) (by rw [howners, hempty]; decide)
  rw [hzero] at hbpm hout
  have hexec : exec (.bufferAllocate m .clean []) s =
      .next ((s.rated.allocBuffer m).2.answer m (allocWord (s.rated.allocBuffer m).1)) := by
    rw [← halloc]
    exact issuedBy_of hawake hm _
  have hall : Touches [.bpm, .clk, .intc, .mem, .out] s ((s.rated.allocBuffer m).2.answer m (allocWord (s.rated.allocBuffer m).1)) :=
    (Touches.refl s).rated.trans (hframe.mono (by decide))
  refine ⟨_, hexec, ?_, hout, hall.frame (by simp)⟩
  rw [hbpm]
  exact look_put_same ..

theorem bufferAllocate_uncorrectable (s : State) (m : Master) (hawake : asleep s = false) (hroom : s.bpm.owners.length < 262144)
    (hwf : tabWf s.bpm.owners = true) (hring : s.bpm.mode = 0) (hfew : s.bpm.rateN < 2) (hm : masterOk m = true) :
    does (.bufferAllocate m .uncorrectable []) s fun t =>
      t.bpm.mode ≠ 0 ∧ t.bpm.owners.length = s.bpm.owners.length + 1 ∧ t.faults.valid = true ∧
      (s.faults.valid = false → t.faults.kind = 0x01 ∧ t.faults.master = mBpm) ∧ t.dict = s.dict := by
  have hbad : (afterBadWord s).bpm =
      { s.bpm with mode := if Config.freeBit s.clk.free then 1 else 2, err := s.bpm.err ||| (if Config.freeBit s.clk.free then 1 else 2) } := by
    rw [afterBadWord, State.contained_bpm, State.freed_bpm]
  have hmode : (afterBadWord s).bpm.mode ≠ 0 := by
    rw [hbad]
    dsimp only
    split <;> decide
  have hvalid : (afterBadWord s).faults.valid = true := contained_valid ..
  have hfirst : s.faults.valid = false → (afterBadWord s).faults.kind = 0x01 ∧ (afterBadWord s).faults.master = mBpm := by
    intro hfree
    obtain ⟨hkind, -, -, hmaster, -⟩ := contained_first ({ s with bpm := { s.bpm with
      mode := if Config.freeBit s.clk.free then 1 else 2, err := s.bpm.err ||| (if Config.freeBit s.clk.free then 1 else 2) } }.freed) 0x01 .read mBpm
      (bar0Addr 0x80014) hfree
    exact ⟨hkind, hmaster⟩
  have hdict : (afterBadWord s).dict = s.dict := by rw [afterBadWord, State.contained_dict, State.freed_dict]
  have halloc := readAlloc_of_rate (s := s) (m := m) (e := .uncorrectable) (l := []) (u := afterBadWord s) (if_pos hring)
    (beyondRate_of_few (by rw [hbad]; exact hfew))
  have howned : (afterBadWord s).bpm.owners = s.bpm.owners := by rw [hbad]
  generalize afterBadWord s = u at *
  obtain ⟨howners, hmode'⟩ := rated_bpm u
  obtain ⟨hbpm, -, hframe⟩ := allocated (m := m) (u := u.rated) (by rw [howners, howned]; exact hroom)
  have hexec : exec (.bufferAllocate m .uncorrectable []) s =
      .next ((u.rated.allocBuffer m).2.answer m (allocWord (u.rated.allocBuffer m).1)) := by
    rw [← halloc]
    exact issuedBy_of hawake hm _
  have hrated : Touches [.bpm] u u.rated := (Touches.refl u).rated
  have hfaults := (hframe.same .faults).trans (hrated.same .faults)
  refine ⟨_, hexec, ?_, ?_, ?_, ?_, ?_⟩
  · rw [hbpm]
    exact hmode'.symm ▸ hmode
  · have hnone : look s.bpm.owners (u.rated.bpm.choose u.rated.clk.free) = none := by
      rw [← howned, ← howners]
      exact choose_unowned (by rw [howners, howned]; exact hwf) _
    rw [hbpm, ← length_put_of_look_none m hnone, ← howned, ← howners]
    rfl
  · exact (congrArg Faults.valid hfaults).trans hvalid
  · intro hfree
    exact ⟨(congrArg Faults.kind hfaults).trans (hfirst hfree).1, (congrArg Faults.master hfaults).trans (hfirst hfree).2⟩
  · exact ((hframe.same .dict).trans (hrated.same .dict)).trans hdict

/-! ### Frees and gives (R426) -/

theorem bufferFree_own (s : State) (m : Master) (b : BitVec 18) (hawake : asleep s = false) (hown : look s.bpm.owners b.toNat = some m)
    (hwf : tabWf s.bpm.owners = true) (hm : masterOk m = true) :
    does (.bufferFree m b) s fun t =>
      look t.bpm.owners b.toNat = none ∧ (∀ c, c ≠ b.toNat → look t.bpm.owners c = look s.bpm.owners c) ∧ t.bpm.rejects = s.bpm.rejects ∧
      t = { s with bpm := t.bpm, dev := { s.dev with armed := t.dev.armed }, intc := t.intc, mem := t.mem, out := t.out } := by
  have hfree : (s.disarm m).freeBuffer m b.toNat = (s.disarm m).watermark (s.bpm.counted (del s.bpm.owners b.toNat)) := by
    unfold State.freeBuffer
    rw [State.disarm_bpm, hown]
    exact if_pos rfl
  have hexec : exec (.bufferFree m b) s = .next ((s.disarm m).watermark (s.bpm.counted (del s.bpm.owners b.toNat))) := by
    rw [← hfree]
    exact issuedBy_of hawake hm _
  have hmark : Touches [.intc, .bpm, .mem, .out] (s.disarm m) ((s.disarm m).watermark (s.bpm.counted (del s.bpm.owners b.toNat))) :=
    (Touches.refl _).watermark
  have hall : Touches [.bpm, .dev, .intc, .mem, .out] s ((s.disarm m).watermark (s.bpm.counted (del s.bpm.owners b.toNat))) :=
    (Touches.refl s).disarm.trans (hmark.mono (by decide))
  refine ⟨_, hexec, ?_, ?_, ?_, hall.frame (by simp [armed_only (hmark.same .dev)])⟩
  · rw [watermark_bpm]
    exact look_del_same _ _ hwf
  · intro c hc
    rw [watermark_bpm]
    exact look_del_ne _ hc
  · rw [watermark_bpm]
    rfl

/-- What a rejected free or give leaves (R426). -/
theorem rejectBuffer_effects (s : State) (m : Master) (b : BitVec 18) (r : Nat) :
    let t := s.rejectBuffer m b.toNat r
    t.bpm.owners = s.bpm.owners ∧ t.bpm.rejects = sat32 s.bpm.rejects ∧ t.bpm.lastMaster = m ∧ t.bpm.lastBuffer.toNat = b.toNat ∧
    t.bpm.lastReason = BitVec.ofNat 2 r ∧ t.faults.valid = true ∧
    (s.faults.valid = false → t.faults.kind = 0x06 ∧ t.faults.master = m) ∧ t.dict = s.dict := by
  unfold State.rejectBuffer
  refine ⟨?_, ?_, ?_, ?_, ?_, contained_valid .., ?_, ?_⟩
  iterate 5 simp
  · intro hfree
    obtain ⟨hkind, -, -, hmaster, -⟩ := contained_first (State.raise { s with bpm := { s.bpm with
      rejects := sat32 s.bpm.rejects, err := s.bpm.err ||| 8, lastReason := BitVec.ofNat 2 r, lastMaster := m,
      lastBuffer := BitVec.ofNat 18 b.toNat } } 0x012 m (le 4 b.toNat ++ le 2 m.toNat)) 0x06 .write m b.toNat (by rw [State.raise_faults]; exact hfree)
    exact ⟨hkind, hmaster⟩
  · simp

theorem bufferFree_foreign (s : State) (m : Master) (b : BitVec 18) (o : Master) (hawake : asleep s = false)
    (hown : look s.bpm.owners b.toNat = some o) (hne : o ≠ m) (hm : masterOk m = true) :
    does (.bufferFree m b) s fun t =>
      t.bpm.owners = s.bpm.owners ∧ t.bpm.rejects = sat32 s.bpm.rejects ∧ t.bpm.lastMaster = m ∧ t.bpm.lastBuffer.toNat = b.toNat ∧
      t.bpm.lastReason = 2 ∧ t.faults.valid = true ∧ (s.faults.valid = false → t.faults.kind = 0x06 ∧ t.faults.master = m) ∧
      t.dict = s.dict := by
  have hreject : (s.disarm m).freeBuffer m b.toNat = (s.disarm m).rejectBuffer m b.toNat 2 := by
    unfold State.freeBuffer
    rw [State.disarm_bpm, hown]
    exact if_neg hne
  refine ⟨_, issuedBy_of hawake hm _, ?_⟩
  rw [hreject]
  simpa using rejectBuffer_effects (s.disarm m) m b 2

theorem bufferFree_unowned (s : State) (m : Master) (b : BitVec 18) (hawake : asleep s = false)
    (hown : look s.bpm.owners b.toNat = none) (hm : masterOk m = true) :
    does (.bufferFree m b) s fun t =>
      t.bpm.owners = s.bpm.owners ∧ t.bpm.rejects = sat32 s.bpm.rejects ∧ t.bpm.lastMaster = m ∧ t.bpm.lastBuffer.toNat = b.toNat ∧
      t.bpm.lastReason = 1 ∧ t.faults.valid = true ∧ (s.faults.valid = false → t.faults.kind = 0x06 ∧ t.faults.master = m) ∧
      t.dict = s.dict := by
  have hreject : (s.disarm m).freeBuffer m b.toNat = (s.disarm m).rejectBuffer m b.toNat 1 := by
    unfold State.freeBuffer
    rw [State.disarm_bpm, hown]
  refine ⟨_, issuedBy_of hawake hm _, ?_⟩
  rw [hreject]
  simpa using rejectBuffer_effects (s.disarm m) m b 1

theorem bufferGive_own (s : State) (m : Master) (b : BitVec 18) (o : Master) (hawake : asleep s = false)
    (hown : look s.bpm.owners b.toNat = some m) (hm : masterOk m = true) :
    does (.bufferGive m b o) s fun t =>
      look t.bpm.owners b.toNat = some o ∧ (∀ c, c ≠ b.toNat → look t.bpm.owners c = look s.bpm.owners c) ∧
      t = { s with bpm := { s.bpm with owners := t.bpm.owners }, dev := { s.dev with armed := t.dev.armed } } := by
  have hgive : (s.disarm m).giveBuffer m b.toNat o =
      { s.disarm m with bpm := { s.bpm with owners := put s.bpm.owners b.toNat o } } := by
    unfold State.giveBuffer
    rw [State.disarm_bpm, hown]
    exact if_pos rfl
  refine ⟨_, issuedBy_of hawake hm _, ?_⟩
  rw [hgive]
  exact ⟨look_put_same .., fun c hc => look_put_ne _ _ hc, rfl⟩

/-- Settles O39: the chosen buffer has no owner, and each operation writes its own row of the owner table. -/
theorem buffersOfThePool : Obligations.BuffersOfThePool :=
  ⟨bufferAllocate_clean, bufferAllocate_bitmap, bufferAllocate_uncorrectable, bufferFree_own, bufferFree_foreign, bufferFree_unowned,
   bufferGive_own, fun _ _ _ hawake hm => ⟨_, issuedBy_of hawake hm _, rfl⟩, fun _ hawake => ⟨_, awake_of hawake _, rfl⟩⟩

end Sys2Proof.Proofs
end

section
/-! PROOFS. Interrupts: delivery leaves pending bits alone, and a moderated number that the command does not look at (R412 to R420). -/

open Sys2Proof Sys2Proof.Machine

-- One proof at a time: a thread for each proof would pass the limit that the check sets to memory.
set_option Elab.async false

namespace Sys2Proof.Proofs

/-- A device whose table of shared sources holds a pending one under the number 0x40, which is one of each core's own bank, sent to vector 0. -/
def privateNumberPending : State :=
  { State.reset with
    intc := { sources := [(0x40, { pending := true, unmasked := true, cfg := some { classA := false, toMsix := true, target := 0, prio := 1 } })] } }

/-- MODERATION_EXPIRY of number 0x40 looks at the cores' banks alone and finds nothing pending there. -/
theorem moderationExpiry_private : exec (.moderationExpiry 0x40) privateNumberPending = .next privateNumberPending := rfl

/-- Refutes O38: the clause of MODERATION_EXPIRY admits a source in the shared table under a number of the cores' own banks, which is eligible at its
vector, while the command takes the number as one of each core's bank and notifies nothing. -/
theorem not_interruptSources : ¬ Obligations.InterruptSources := by
  rintro ⟨-, -, -, -, -, -, -, -, -, -, -, -, hexpiry, -⟩
  obtain ⟨t, ht, hnotified, -⟩ := hexpiry privateNumberPending 0x40 0 (by decide) (by decide) (by decide) (by decide) (by decide) (by decide)
  rw [moderationExpiry_private] at ht
  obtain rfl : privateNumberPending = t := by injection ht
  exact absurd hnotified (by decide)

end Sys2Proof.Proofs
end

section
/-! PROOFS. Delivery of interrupts leaves the sources' own bits alone (R413, R417). -/

open Sys2Proof Sys2Proof.Machine

-- One proof at a time: a thread for each proof would pass the limit that the check sets to memory.
set_option Elab.async false

namespace Sys2Proof.Proofs

/-- A source but for the core it is assigned to. -/
def SameSource (x y : Source) : Prop := ∃ a, y = { x with assigned := a }

theorem SameSource.refl (x : Source) : SameSource x x := ⟨_, rfl⟩

theorem SameSource.trans {x y z : Source} (h : SameSource x y) (g : SameSource y z) : SameSource x z := by
  obtain ⟨_, rfl⟩ := h
  obtain ⟨_, rfl⟩ := g
  exact ⟨_, rfl⟩

/-- Two controllers whose sources differ in assignments alone. -/
def SameSources (i j : Intc) : Prop := ∀ k, SameSource (i.src k) (j.src k)

/-- A row-wise change of a table is one of each row found. -/
theorem look_map {α β : Type} (f : Nat → α → β) (l : Tab α) (k : Nat) :
    look (l.map fun p => (p.1, f p.1 p.2)) k = (look l k).map (f k) := by
  induction l with
  | nil => rfl
  | cons p r ih =>
    obtain ⟨j, v⟩ := p
    by_cases h : j = k
    · subst h
      simp [look]
    · simp [look, h, ih]

theorem withdraw_sources (s : State) : SameSources s.intc (withdraw s).intc := by
  intro k
  have hmap : (withdraw s).intc.sources = s.intc.sources.map fun p =>
      (p.1, if p.2.assigned.isSome && !(deliverable s p.1) then { p.2 with assigned := none } else p.2) := by
    unfold withdraw
    refine List.map_congr_left fun p _ => ?_
    split <;> rfl
  unfold Intc.src lookD
  rw [hmap, look_map (fun j (x : Source) => if x.assigned.isSome && !(deliverable s j) then { x with assigned := none } else x)]
  cases look s.intc.sources k with
  | none => exact .refl _
  | some x =>
    rw [Option.map_some, Option.getD_some, Option.getD_some]
    split
    · exact ⟨_, rfl⟩
    · exact .refl _

/-- Writing a source back with another assignment. -/
theorem assign_sources (i : Intc) (k : Nat) (a : Option Nat) : SameSources i (i.setSrc k { i.src k with assigned := a }) := by
  intro j
  by_cases h : j = k
  · subst h
    exact ⟨a, by rw [Intc.src, Intc.setSrc, lookD_put_same]⟩
  · unfold Intc.setSrc Intc.src
    rw [lookD_put_ne _ _ _ h]
    exact .refl _

theorem assignAll_sources (n : Nat) (s : State) (keys : List Nat) : SameSources s.intc (assignAll n s keys).intc := by
  induction n generalizing s keys with
  | zero => exact fun _ => .refl _
  | succ n ih =>
    unfold assignAll
    split
    · exact fun _ => .refl _
    · next key _ =>
      dsimp only
      split
      · exact fun k => (assign_sources s.intc key _ k).trans (ih _ _ k)
      · exact ih _ _

theorem notifyOut_sources (i : Intc) (g : IntTarget) : (notifyOut i g).1.sources = i.sources := by
  cases g with
  | core _ => rfl
  | vector _ =>
    rw [notifyOut, apply_ite Prod.fst, apply_ite Intc.sources]
    exact ite_self _

theorem notifyAll_sources (l : List IntTarget) (i : Intc) (o : List Output) : (notifyAll l i o).1.sources = i.sources := by
  induction l generalizing i o with
  | nil => rfl
  | cons g r ih =>
    unfold notifyAll
    split
    · exact ih _ _
    · exact (ih _ _).trans (notifyOut_sources i g)

theorem notifyAll_src (l : List IntTarget) (i : Intc) (o : List Output) (k : Nat) : (notifyAll l i o).1.src k = i.src k := by
  rw [Intc.src, notifyAll_sources, Intc.src]

theorem assigned_sources (s : State) : SameSources s.intc (assigned s).intc := by
  unfold assigned
  exact fun k => (withdraw_sources s k).trans (assignAll_sources _ _ _ k)

theorem settleInts_intc (s : State) : s.settleInts.intc = (notifyAll (wantedTargets (assigned s)) (assigned s).intc []).1 := by
  simp only [State.settleInts]

theorem settleInts_sources (s : State) : SameSources s.intc s.settleInts.intc := by
  intro k
  rw [settleInts_intc, notifyAll_src]
  exact assigned_sources s k

@[simp] theorem settleInts_pending (s : State) (k : Nat) : (s.settleInts.intc.src k).pending = (s.intc.src k).pending := by
  obtain ⟨_, h⟩ := settleInts_sources s k
  rw [h]

@[simp] theorem pend_pending (i : Intc) (k : Nat) : ((i.pend k).src k).pending = true := by
  rw [Intc.src, Intc.pend, Intc.setSrc, lookD_put_same]

/-- Making a source pending ends no other's pending. -/
theorem pend_pending_mono {i : Intc} {j : Nat} (k : Nat) (h : (i.src j).pending = true) : ((i.pend k).src j).pending = true := by
  by_cases hk : j = k
  · rw [hk, pend_pending]
  · unfold Intc.pend Intc.setSrc Intc.src
    rw [lookD_put_ne _ _ _ hk]
    exact h

theorem eventOut_pending_mono {s : State} {j : Nat} (n : Nat) (m : Master) (d : Bytes) (h : (s.intc.src j).pending = true) :
    ((s.eventOut n m d).intc.src j).pending = true := by
  unfold State.eventOut
  dsimp only
  split
  · exact h
  · exact pend_pending_mono _ h

/-- A raised source is pending (R413). -/
theorem raise_pending (s : State) (n : Nat) (m : Master) (d : Bytes) : ((s.raise n m d).intc.src n).pending = true := by
  rw [State.raise, settleInts_pending, State.raise0]
  split
  · exact eventOut_pending_mono _ _ _ (pend_pending _ _)
  · exact pend_pending _ _

/-- An event ends no other source's pending. -/
theorem raise_pending_mono {s : State} {j : Nat} (n : Nat) (m : Master) (d : Bytes) (h : (s.intc.src j).pending = true) :
    ((s.raise n m d).intc.src j).pending = true := by
  rw [State.raise, settleInts_pending, State.raise0]
  split
  · exact eventOut_pending_mono _ _ _ (pend_pending_mono _ h)
  · exact pend_pending_mono _ h

theorem containedAt_pending (s : State) (kind : Nat) (acc : Access) (m : Master) (addr : Nat) :
    ((s.containedAt kind acc m addr).intc.src 2).pending = true := by
  rw [State.containedAt, State.syncErr_intc, apply_ite State.intc, State.errPulse_intc, ite_self]
  exact raise_pending ..

/-- A contained fault raises source 0x002 (R458). -/
theorem contained_pending (s : State) (kind : Nat) (acc : Access) (m : Master) (addr : Nat) :
    ((s.contained kind acc m addr).intc.src 2).pending = true := containedAt_pending ..

end Sys2Proof.Proofs
end

section
/-! PROOFS. The fault unit's commands (R458 to R467). -/

open Sys2Proof Sys2Proof.Machine

-- One proof at a time: a thread for each proof would pass the limit that the check sets to memory.
set_option Elab.async false

namespace Sys2Proof.Proofs

variable {s t : State} {m : Master}

/-! ### The first-error record -/

/-- Where a record stands a contained fault only adds to the overflow (R462). -/
theorem contained_overflow (s : State) (kind : Nat) (acc : Access) (m : Master) (addr : Nat) (hvalid : s.faults.valid = true) :
    (s.contained kind acc m addr).faults.kind = s.faults.kind ∧ (s.contained kind acc m addr).faults.overflow = true ∧
    (s.contained kind acc m addr).faults.overflows = sat32 s.faults.overflows := by
  obtain ⟨_, _, _, _, _, h⟩ := contained_record s kind acc m addr
  rw [h]
  simp [Recorded, Faults.record, hvalid]

/-- Where none stands it adds no overflow. -/
theorem contained_no_overflow (s : State) (kind : Nat) (acc : Access) (m : Master) (addr : Nat) (hfree : s.faults.valid = false) :
    (s.contained kind acc m addr).faults.overflow = s.faults.overflow ∧
    (s.contained kind acc m addr).faults.overflows = s.faults.overflows := by
  obtain ⟨_, _, _, _, _, h⟩ := contained_record s kind acc m addr
  rw [h]
  simp [Recorded, Faults.record, hfree]

/-- The parts of the state that a fault may change. -/
abbrev faultParts : List Part := [.faults, .pins, .store, .paths, .clk, .intc, .mem, .out]

/-- What a fault leaves unchanged. -/
theorem fault_frame (h : Touches faultParts s t) :
    t = { s with
      faults := t.faults, pins := t.pins, store := t.store, paths := t.paths, clk := { s.clk with free := t.clk.free }, intc := t.intc
      mem := t.mem, out := t.out } :=
  h.frame (by simp [h.ticks.symm])

/-- The address that a fault records. -/
def faultAddr (acc : Access) (a : BitVec 48) : Nat := if acc = .none then 0 else a.toNat

theorem faultAddr_access {acc : Access} (a : BitVec 48) (h : acc ≠ .none) : BitVec.ofNat 48 (faultAddr acc a) = a := by
  simp [faultAddr, h]

/-- A fault of a unit of the chip is counted with it before it is reported. -/
def struckBy (s : State) (k : BitVec 8) (u : Option HwUnit) : State :=
  match u with
  | some u => if k.toNat < 0x80 ∧ k ≠ 0x12 then s.countBin (0x30000 + unitItem u) else s
  | none => s

theorem struckBy_touches (s : State) (k : BitVec 8) (u : Option HwUnit) : Touches [.faults] s (struckBy s k u) := by
  cases u with
  | none => exact .refl s
  | some u => exact .ite (Touches.refl s).countBin (.refl s)

/-- Counting a unit's fault changes the bins of the hour alone. -/
theorem struckBy_faults (s : State) (k : BitVec 8) (u : Option HwUnit) : ∃ b, (struckBy s k u).faults = { s.faults with bins := b } := by
  cases u with
  | none => exact ⟨_, rfl⟩
  | some u =>
    unfold struckBy
    dsimp only
    split <;> exact ⟨_, rfl⟩

theorem exec_faultReport {k : BitVec 8} {acc : Access} {a : BitVec 48} {u : Option HwUnit} (hawake : asleep s = false)
    (hm : masterOk m = true) (hkind : faultKind k.toNat = true) :
    exec (.faultReport k acc m a u) s = .next ((struckBy s k u).report k.toNat acc m (faultAddr acc a)) := by
  refine (issuedBy_of hawake hm _).trans ((if_pos hkind).trans ?_)
  cases u <;> rfl

theorem report_of_contained {k : Nat} (h : k < 0x80) (s : State) (acc : Access) (m : Master) (addr : Nat) :
    s.report k acc m addr = s.contained k acc m addr := if_neg (Nat.not_le.2 h)

theorem report_of_fatal {k : Nat} (h : 0x80 ≤ k) (s : State) (acc : Access) (m : Master) (addr : Nat) :
    s.report k acc m addr = s.fatal k acc m addr := if_pos h

theorem faultReport_contained (s : State) (k : BitVec 8) (acc : Access) (m : Master) (a : BitVec 48) (u : Option HwUnit)
    (hawake : asleep s = false) (hlow : 0x01 ≤ k) (hhigh : k ≤ 0x12) (hm : masterOk m = true) :
    does (.faultReport k acc m a u) s fun t =>
      t.faults.contained = sat32 s.faults.contained ∧ t.faults.valid = true ∧ (s.faults.valid = false → t.faults.kind = k ∧ t.faults.severity = 2 ∧ t.faults.master = m ∧ (acc ≠ .none → t.faults.addr = a) ∧ (acc = .none → t.faults.addr = 0) ∧ t.faults.overflow = s.faults.overflow) ∧ (s.faults.valid = true → t.faults.kind = s.faults.kind ∧ t.faults.overflow = true ∧ t.faults.overflows = sat32 s.faults.overflows) ∧ (t.intc.src 2).pending = true ∧ t = { s with faults := t.faults, pins := t.pins, store := t.store, paths := t.paths, clk := { s.clk with free := t.clk.free }, intc := t.intc, mem := t.mem, out := t.out } := by
  have hlow' : 1 ≤ k.toNat := hlow
  have hhigh' : k.toNat ≤ 0x12 := hhigh
  have hexec := exec_faultReport (acc := acc) (a := a) (u := u) hawake hm (k := k) (by simp [faultKind, hlow', hhigh'])
  rw [report_of_contained (by omega)] at hexec
  obtain ⟨b, hstruck⟩ := struckBy_faults s k u
  have htouch := struckBy_touches s k u
  generalize struckBy s k u = v at hexec hstruck htouch
  have hall : Touches faultParts s (v.contained k.toNat acc m (faultAddr acc a)) := (htouch.mono (by decide)).contained
  refine ⟨_, hexec, ?_, contained_valid .., ?_, ?_, contained_pending .., fault_frame hall⟩
  · rw [(contained_counted ..).1, hstruck]
  · intro hfree
    obtain ⟨hkind, hsev, -, hmaster, haddr⟩ := contained_first v k.toNat acc m (faultAddr acc a) (by rw [hstruck]; exact hfree)
    obtain ⟨hover, -⟩ := contained_no_overflow v k.toNat acc m (faultAddr acc a) (by rw [hstruck]; exact hfree)
    refine ⟨hkind.trans (by simp), hsev, hmaster, fun hacc => haddr.trans (faultAddr_access a hacc), ?_, ?_⟩
    · rintro rfl
      exact haddr
    · rw [hover, hstruck]
  · intro hvalid
    obtain ⟨hkind, hover, hcount⟩ := contained_overflow v k.toNat acc m (faultAddr acc a) (by rw [hstruck]; exact hvalid)
    exact ⟨by rw [hkind, hstruck], hover, by rw [hcount, hstruck]⟩

/-! ### Fatal faults (R465) -/

theorem syncErr_out_prefix (s : State) : s.out <+: s.syncErr.out := (Keeps.refl s).syncErr.out

/-- A whole-device reset leaves a fresh device (R37). -/
theorem freshAfter_wholeReset (s : State) (cause : Nat) (st : Straps) (keep : Bool) :
    freshAfter s (s.wholeReset cause st keep) (BitVec.ofNat 8 cause) st := by
  refine ⟨rfl, rfl, rfl, rfl, rfl, rfl, rfl, rfl, rfl, rfl, rfl, rfl, rfl, rfl, rfl, rfl, rfl, rfl, rfl, rfl, rfl, rfl, rfl, rfl, rfl,
    rfl, rfl, rfl, rfl, rfl, rfl, rfl, rfl, rfl, rfl, rfl⟩

/-- What 0x7011 holds of a fatal fault. -/
def fatalOf (s : State) (kind : Nat) (acc : Access) (m : Master) (addr : Nat) : LastFatal :=
  ⟨BitVec.ofNat 8 kind, m, BitVec.ofNat 8 (accCode acc), BitVec.ofNat 64 addr, BitVec.ofNat 64 (ptpSec s), BitVec.ofNat 32 (ptpNs s)⟩

theorem fatal_faults (s : State) (kind : Nat) (acc : Access) (m : Master) (addr : Nat) :
    (s.fatal kind acc m addr).faults =
      { s.faults.record kind 3 (accCode acc) m addr (ptpSec s) (ptpNs s) with
        lastFatal := if s.faults.escalating then s.faults.lastFatal else fatalOf s kind acc m addr
        escalating := true
        thermalHold := s.faults.thermalHold || kind == 0x82
        hold := true
        pulseEnd := some (s.clk.now + par s 0x7010 1 * 1000) } := by
  rw [State.fatal, State.syncErr_faults]
  rfl

theorem fatal_store (s : State) (kind : Nat) (acc : Access) (m : Master) (addr : Nat) :
    (s.fatal kind acc m addr).store =
      if (!s.faults.escalating && storeOpen s) = true then
        { s.store.logFault 0 m (ptpSec s) (ptpNs s) (faultDetail kind 3 (accCode acc) addr 1) with
          fatals := s.store.fatals + 1, committedFatal := fatalOf s kind acc m addr }
      else if storeShut s then s.store else { s.store with fatals := s.store.fatals + 1 } := by
  rw [State.fatal, State.syncErr_store]
  rfl

/-- A store that takes writes is not shut. -/
theorem storeShut_of_open (h : storeOpen s = true) : storeShut s = false := by
  simp only [storeOpen, Bool.and_eq_true, Bool.not_eq_true'] at h
  exact h.2

/-- `ERR_N` falls with a fatal fault unless it is low. -/
theorem fatal_errN (s : State) (kind : Nat) (acc : Access) (m : Master) (addr : Nat) (hhigh : s.faults.errLow = false) :
    Output.pin "ERR_N" false ∈ (s.fatal kind acc m addr).out := by
  have hlow : ∀ f, (s.faults.record kind 3 (accCode acc) m addr (ptpSec s) (ptpNs s)).errLow = f → f = s.faults.errLow := by
    rintro _ rfl
    unfold Faults.record Faults.errLow
    split <;> rfl
  have hpin : Output.pin "ERR_N" false ∈ (if (s.faults.record kind 3 (accCode acc) m addr (ptpSec s) (ptpNs s)).errLow then []
      else [Output.pin "ERR_N" false]) := by
    rw [hlow _ rfl, hhigh]
    exact List.mem_singleton_self _
  unfold State.fatal
  exact (syncErr_out_prefix _).subset (List.mem_append_right _ hpin)

theorem faultReport_fatal (s : State) (k : BitVec 8) (acc : Access) (m : Master) (a : BitVec 48) (u : Option HwUnit)
    (hawake : asleep s = false) (hlow : 0x80 ≤ k) (hhigh : k ≤ 0x83) (hm : masterOk m = true) :
    does (.faultReport k acc m a u) s fun t =>
      t.faults.valid = true ∧ t.faults.escalating = true ∧ t.faults.pulseEnd = some (s.clk.now + par s 0x7010 1 * 1000) ∧ (s.faults.errLow = false → Output.pin "ERR_N" false ∈ t.out) ∧ t.store.fatals = (if storeShut s then s.store.fatals else s.store.fatals + 1) ∧
      (s.faults.valid = false → t.faults.kind = k ∧ t.faults.severity = 3 ∧ t.faults.master = m) ∧ (s.faults.escalating = false → t.faults.lastFatal.kind = k ∧ t.faults.lastFatal.master = m) ∧
      (s.faults.escalating = false → storeOpen s = true → t.store.committedFatal = t.faults.lastFatal) ∧ (k = 0x82 → t.faults.thermalHold = true) ∧ t = { s with faults := t.faults, pins := t.pins, store := t.store, paths := t.paths, clk := { s.clk with free := t.clk.free }, intc := t.intc, mem := t.mem, out := t.out } := by
  have hlow' : 0x80 ≤ k.toNat := hlow
  have hhigh' : k.toNat ≤ 0x83 := hhigh
  have hexec := exec_faultReport (acc := acc) (a := a) (u := u) hawake hm (k := k) (by simp [faultKind, hlow', hhigh'])
  have hstruck : struckBy s k u = s := by
    cases u with
    | none => rfl
    | some u => exact if_neg (by omega)
  rw [hstruck, report_of_fatal hlow'] at hexec
  have hk : BitVec.ofNat 8 k.toNat = k := by simp
  refine ⟨_, hexec, ?_, ?_, ?_, fun h => fatal_errN _ _ _ _ _ h, ?_, ?_, ?_, ?_, ?_, fault_frame ((Touches.refl s).fatal)⟩
  · rw [fatal_faults]
    dsimp only [Faults.record]
    split
    · assumption
    · rfl
  · rw [fatal_faults]
  · rw [fatal_faults]
  · rw [fatal_store]
    split
    · next hcommit =>
      rw [storeShut_of_open (Bool.and_eq_true _ _ ▸ hcommit).2]
      rfl
    · split <;> rfl
  · intro hfree
    rw [fatal_faults]
    simp [Faults.record, hfree, hk]
  · intro hfirst
    rw [fatal_faults]
    simp [hfirst, fatalOf]
  · intro hfirst hopen
    rw [fatal_faults, fatal_store, if_pos (by rw [hfirst, hopen]; rfl)]
    simp [hfirst]
  · rintro rfl
    rw [fatal_faults]
    exact Bool.or_true _

/-! ### Reserved codes, and the record's release -/

theorem faultReport_reserved (s : State) (k : BitVec 8) (acc : Access) (m : Master) (a : BitVec 48) (u : Option HwUnit)
    (hawake : asleep s = false) (hreserved : k = 0 ∨ (0x12 < k ∧ k < 0x80) ∨ 0x83 < k) (hm : masterOk m = true) :
    exec (.faultReport k acc m a u) s = .next s := by
  have hkind : faultKind k.toNat = false := by
    have : k.toNat = 0 ∨ (0x12 < k.toNat ∧ k.toNat < 0x80) ∨ 0x83 < k.toNat :=
      hreserved.imp (fun h => by rw [h]; rfl) (fun h => h)
    simp only [faultKind, Bool.or_eq_false_iff, Bool.and_eq_false_iff, decide_eq_false_iff_not]
    omega
  exact (issuedBy_of hawake hm _).trans (if_neg (by rw [hkind]; decide))

theorem faultRecordRelease_alone (s : State) (m : Master) (v : Word) (hawake : asleep s = false) (hm : masterOk m = true) :
    does (.faultRecordRelease m v none) s fun t =>
      t.faults = { s.faults with valid := s.faults.valid && !(v.getLsbD 31), overflow := s.faults.overflow && !(v.getLsbD 30), diverged := s.faults.diverged && !(v.getLsbD 29) } ∧ t = { s with faults := t.faults, dev := { s.dev with armed := t.dev.armed }, paths := t.paths, clk := { s.clk with free := t.clk.free }, out := t.out } := by
  have hexec : exec (.faultRecordRelease m v none) s = .next ((s.disarm m).writeFltStatus v).syncErr :=
    (awake_of hawake _).trans (if_pos (by simpa [Instr.wellFormed, Instr.masters] using hm))
  let s1 := (s.disarm m).writeFltStatus v
  have hall : Touches [.paths, .clk, .out] s1 s1.syncErr := (Touches.refl s1).syncErr
  have hframe : s1.syncErr = { s1 with
      paths := s1.syncErr.paths, clk := { s1.clk with free := s1.syncErr.clk.free }, out := s1.syncErr.out } :=
    hall.frame (by simp [hall.ticks.symm])
  refine ⟨_, hexec, State.syncErr_faults s1, ?_⟩
  change s1.syncErr = _
  generalize s1.syncErr = t at hframe
  rw [hframe]
  rfl

theorem faultRecordRelease_newcomer (s : State) (m : Master) (v : Word) (k : BitVec 8) (who : Master) (a : BitVec 48) (acc : Access)
    (hawake : asleep s = false) (hrelease : v.getLsbD 31 = true) (hlow : 0x01 ≤ k) (hhigh : k ≤ 0x12) (hwho : masterOk who = true)
    (hm : masterOk m = true) :
    does (.faultRecordRelease m v (some (k, who, a, acc))) s fun t =>
      t.faults.valid = true ∧ t.faults.kind = k ∧ t.faults.master = who ∧ (acc ≠ .none → t.faults.addr = a) ∧ (v.getLsbD 30 = true → t.faults.overflow = false) ∧ t.faults.overflows = s.faults.overflows := by
  have hlow' : 1 ≤ k.toNat := hlow
  have hhigh' : k.toNat ≤ 0x12 := hhigh
  have hkind : faultKind k.toNat = true := by simp [faultKind, hlow', hhigh']
  have hfree : ((s.disarm m).writeFltStatus v).faults.valid = false := by
    simp [State.writeFltStatus, hrelease]
  have hexec : exec (.faultRecordRelease m v (some (k, who, a, acc))) s =
      .next (((s.disarm m).writeFltStatus v).contained k.toNat acc who (faultAddr acc a)) := by
    rw [← report_of_contained (by omega)]
    exact (awake_of hawake _).trans ((if_pos (by simp [Instr.wellFormed, Instr.masters, hm, hwho])).trans (if_pos hkind))
  obtain ⟨hk, -, -, hmaster, haddr⟩ := contained_first _ k.toNat acc who (faultAddr acc a) hfree
  obtain ⟨hover, hcount⟩ := contained_no_overflow _ k.toNat acc who (faultAddr acc a) hfree
  refine ⟨_, hexec, contained_valid .., hk.trans (by simp), hmaster, fun hacc => haddr.trans (faultAddr_access a hacc), ?_, hcount⟩
  intro h30
  rw [hover]
  simp [State.writeFltStatus, h30]

/-! ### The pulse of `ERR_N` (R464) and the log's seconds (R466) -/

theorem errPulseEnd_resets (s : State) (st : Straps) (d : Nat) (hawake : asleep s = false) (hpulse : s.faults.pulseEnd = some d)
    (hdue : d ≤ s.clk.now) (hfatal : s.faults.escalating = true) :
    does (.errPulseEnd st) s fun t =>
      freshAfter s t 6 st ∧ t.boot.held = s.faults.thermalHold ∧ t.faults.lastFatal = s.faults.lastFatal := by
  have hexec : exec (.errPulseEnd st) s = .next (s.wholeReset 6 st false) :=
    (awake_of hawake _).trans (by simp [hpulse, hdue, hfatal])
  refine ⟨_, hexec, freshAfter_wholeReset .., ?_, rfl⟩
  have hheld : s.boot.held = false := (Bool.or_eq_false_iff.1 hawake).2
  show (s.faults.thermalHold || s.boot.held) = _
  rw [hheld, Bool.or_false]

theorem errPulseEnd_rises (s : State) (st : Straps) (d : Nat) (hawake : asleep s = false) (hpulse : s.faults.pulseEnd = some d)
    (hdue : d ≤ s.clk.now) (hfatal : s.faults.escalating = false) (hhold : s.faults.hold = false) :
    does (.errPulseEnd st) s fun t =>
      t.faults = { s.faults with pulseEnd := none } ∧ t.pins.gpioOut = BitVec.ofNat 8 (par s 0x7060 2) ∧ t = { s with faults := t.faults, pins := { s.pins with gpioOut := t.pins.gpioOut }, out := s.out ++ [.pin "ERR_N" true] } := by
  have hlow : (Faults.errLow { s.faults with pulseEnd := none }) = false := hhold
  have hexec : exec (.errPulseEnd st) s =
      .next (State.emit (State.syncGpio { s with faults := { s.faults with pulseEnd := none } }) (.pin "ERR_N" true)) := by
    refine (awake_of hawake _).trans ?_
    rw [hpulse]
    exact (if_neg (Nat.not_lt.2 hdue)).trans ((if_neg (by rw [hfatal]; decide)).trans
      (congrArg Host.Outcome.next (if_neg (by rw [hlow]; decide))))
  refine ⟨_, hexec, rfl, ?_, rfl⟩
  show gpioLevels _ = _
  rw [gpioLevels, hlow]
  exact BitVec.or_zero

theorem errPulseEnd_early (s : State) (st : Straps) (d : Nat) (hawake : asleep s = false) (hpulse : s.faults.pulseEnd = some d)
    (hearly : s.clk.now < d) : exec (.errPulseEnd st) s = .next s :=
  (awake_of hawake _).trans (by simp [hpulse, hearly])

/-- An entry of the fault log changes log and number alone. -/
theorem logFault_frame (st : Store) (source : Nat) (m : Master) (sec ns : Nat) (d : Bytes) :
    st.logFault source m sec ns d = { st with
      faultLog := (st.logFault source m sec ns d).faultLog, faultSeq := (st.logFault source m sec ns d).faultSeq } := by
  unfold Store.logFault
  dsimp only

theorem faultLogSummary_logs (s : State) (hawake : asleep s = false) (hsec : logSecond s ≠ s.faults.logSec) (hexcess : s.faults.excess ≠ 0)
    (hopen : storeOpen s = true) (hlen : s.store.faultLog.length ≤ 8192) :
    does (.faultLogSummary) s fun t =>
      t.faults = { s.faults with logged := 0, excess := 0, logSec := logSecond s } ∧ t.store.faultSeq = s.store.faultSeq + 1 ∧ t.store.faultLog.length ≤ 8192 ∧ (t.store.faultLog.getLast?.map LogEntry.seq) = some s.store.faultSeq ∧ t = { s with faults := t.faults, store := { s.store with faultLog := t.store.faultLog, faultSeq := t.store.faultSeq } } := by
  have hsum : s.faultSummary = { s with
      store := s.store.logFault 2 mFault (if s.boot.timeUp then s.faults.logSec + 1 else 0) 0 (faultDetail 0 2 6 0 s.faults.excess)
      faults := { s.faults with logged := 0, excess := 0, logSec := logSecond s } } := by
    rw [State.faultSummary, if_neg hexcess, if_pos hopen]
  refine ⟨_, (awake_of hawake _).trans (if_neg hsec), ?_⟩
  rw [hsum]
  refine ⟨rfl, rfl, Keeps.logFault_length hlen, ?_, ?_⟩
  · unfold Store.logFault
    rw [List.getLast?_drop, if_neg (by simp)]
    simp
  · exact congrArg (fun st => { s with
      store := st, faults := { s.faults with logged := 0, excess := 0, logSec := logSecond s } }) (logFault_frame ..)

/-- Settles O41: the record's fields come from `Faults.record`, the escalation's from `State.fatal`, and the pulse's end is a reset
or the rise of `ERR_N`. -/
theorem faultsReachTheFaultUnit : Obligations.FaultsReachTheFaultUnit :=
  ⟨faultReport_contained, faultReport_fatal, faultReport_reserved, faultRecordRelease_alone, faultRecordRelease_newcomer,
   errPulseEnd_resets, errPulseEnd_rises, errPulseEnd_early, faultLogSummary_logs⟩

end Sys2Proof.Proofs
end

section
/-! PROOFS. Temperature and cabinet inputs (R476, R477). -/

open Sys2Proof Sys2Proof.Machine

-- One proof at a time: a thread for each proof would pass the limit that the check sets to memory.
set_option Elab.async false

namespace Sys2Proof.Proofs

variable {s t : State}

/-! ### Temperature -/

/-- A contained fault without an access. -/
theorem reportNone_of_contained {k : Nat} (h : k < 0x80) (s : State) (m : Master) : s.reportNone k m = s.contained k .none m 0 :=
  report_of_contained h ..

theorem reportNone_of_fatal {k : Nat} (h : 0x80 ≤ k) (s : State) (m : Master) : s.reportNone k m = s.fatal k .none m 0 :=
  report_of_fatal h ..

/-- A contained fault leaves the temperatures alone. -/
theorem contained_temperature (s : State) (kind : Nat) (acc : Access) (m : Master) (addr : Nat) :
    (s.contained kind acc m addr).faults.hot = s.faults.hot ∧ (s.contained kind acc m addr).faults.tj = s.faults.tj ∧
    (s.contained kind acc m addr).faults.tjMax = s.faults.tjMax := by
  obtain ⟨_, _, _, _, _, h⟩ := contained_record s kind acc m addr
  rw [h]
  unfold Recorded Faults.record
  dsimp only
  split <;> exact ⟨rfl, rfl, rfl⟩

/-- The state in which the device has become hot. -/
def heated (s : State) (tj : Int) : State := { s with faults := { (s.setTj tj).faults with hot := true } }

theorem temperatureLimit_hot (s : State) (tj : Int) (hawake : asleep s = false) (habove : gradeLimit < tj) (hcool : s.faults.hot = false) :
    does (.temperatureLimit tj) s fun t =>
      t.faults.hot = true ∧ t.faults.tj = tj ∧ t.faults.tjMax = max s.faults.tjMax tj ∧ t.faults.contained = sat32 s.faults.contained ∧ t.faults.valid = true ∧ (s.faults.valid = false → t.faults.kind = 0x11) ∧ t = { s with faults := t.faults, pins := t.pins, store := t.store, paths := t.paths, clk := { s.clk with free := t.clk.free }, intc := t.intc, mem := t.mem, out := t.out } := by
  have hexec : exec (.temperatureLimit tj) s = .next ((heated s tj).contained 0x11 .none mFault 0) := by
    rw [← reportNone_of_contained (by decide)]
    exact (awake_of hawake _).trans (if_pos ⟨habove, hcool⟩)
  have hall : Touches faultParts s ((heated s tj).contained 0x11 .none mFault 0) :=
    ((Touches.refl s).setFaults).contained
  obtain ⟨hhot, htj, hmax⟩ := contained_temperature (heated s tj) 0x11 .none mFault 0
  obtain ⟨hcount, -⟩ := contained_counted (heated s tj) 0x11 .none mFault 0
  refine ⟨_, hexec, hhot, htj, hmax, hcount, contained_valid .., ?_, fault_frame hall⟩
  intro hfree
  obtain ⟨hkind, -⟩ := contained_first (heated s tj) 0x11 .none mFault 0 hfree
  exact hkind

theorem temperatureLimit_still_hot (s : State) (tj : Int) (hawake : asleep s = false) (hhot : s.faults.hot = true) :
    does (.temperatureLimit tj) s fun t =>
      t = { s with faults := { s.faults with tj := tj, tjMax := max s.faults.tjMax tj } } :=
  ⟨_, (awake_of hawake _).trans (if_neg (by simp [hhot])), rfl⟩

theorem temperatureLimitCleared_cools (s : State) (tj : Int) (hawake : asleep s = false) (hbelow : tj ≤ gradeLimit - 3) :
    does (.temperatureLimitCleared tj) s fun t =>
      t.faults = { s.faults with hot := false, tj := tj, tjMax := max s.faults.tjMax tj } ∧ t = { s with faults := t.faults, paths := t.paths, clk := { s.clk with free := t.clk.free }, out := t.out } := by
  have hexec : exec (.temperatureLimitCleared tj) s =
      .next (State.syncErr { s with faults := { (s.setTj tj).faults with hot := false } }) :=
    (awake_of hawake _).trans (if_pos hbelow)
  have hall : Touches [.faults, .paths, .clk, .out] s (State.syncErr { s with faults := { (s.setTj tj).faults with hot := false } }) :=
    ((Touches.refl s).setFaults).syncErr
  exact ⟨_, hexec, State.syncErr_faults _, hall.frame (by simp [hall.ticks.symm])⟩

theorem thermalTrip_escalates (s : State) (tj : Int) (n : Nat) (hawake : asleep s = false) (habove : gradeLimit + 10 ≤ tj)
    (hlong : 1000000 ≤ n) :
    does (.thermalTrip tj n) s fun t =>
      t.faults.escalating = true ∧ t.faults.thermalHold = true ∧ t.faults.pulseEnd = some (s.clk.now + par s 0x7010 1 * 1000) ∧ t.faults.valid = true ∧ (s.faults.valid = false → t.faults.kind = 0x82 ∧ t.faults.severity = 3) ∧ t = { s with faults := t.faults, pins := t.pins, store := t.store, paths := t.paths, clk := { s.clk with free := t.clk.free }, intc := t.intc, mem := t.mem, out := t.out } := by
  have hexec : exec (.thermalTrip tj n) s = .next ((s.setTj tj).fatal 0x82 .none mFault 0) := by
    rw [← reportNone_of_fatal (by decide)]
    exact (awake_of hawake _).trans (if_pos ⟨habove, hlong⟩)
  have hall : Touches faultParts s ((s.setTj tj).fatal 0x82 .none mFault 0) := ((Touches.refl s).setFaults).fatal
  refine ⟨_, hexec, ?_, ?_, ?_, ?_, ?_, fault_frame hall⟩
  · rw [fatal_faults]
  · rw [fatal_faults]
    exact Bool.or_true _
  · rw [fatal_faults]
    rfl
  · rw [fatal_faults]
    dsimp only [Faults.record]
    split
    · assumption
    · rfl
  · intro hfree
    have hfree' : (s.setTj tj).faults.valid = false := hfree
    rw [fatal_faults]
    simp [Faults.record, hfree']

theorem thermalTrip_short (s : State) (tj : Int) (n : Nat) (hawake : asleep s = false) (hshort : n < 1000000) :
    does (.thermalTrip tj n) s fun t => t = { s with faults := { s.faults with tj := tj, tjMax := max s.faults.tjMax tj } } :=
  ⟨_, (awake_of hawake _).trans (if_neg fun h => absurd h.2 (Nat.not_le.2 hshort)), rfl⟩

theorem thermalResetRelease_awakes (s : State) (tj : Int) (st : Straps) (hscan : s.clk.scan = false) (hheld : s.boot.held = true)
    (hcool : tj ≤ gradeLimit - 10) :
    does (.thermalResetRelease tj st) s fun t =>
      asleep t = false ∧ t.boot = { s.boot with held := false, resetAt := s.clk.now, bootMode := st.bootMode, pairId := st.pairId, bootState := if st.bootMode = 1 then 0 else 4 } ∧ t.pins = { s.pins with straps := st } ∧ t.store = s.store ∧ t.dict = s.dict ∧ t.clk = s.clk := by
  refine ⟨_, if_pos ⟨hscan, hheld, hcool⟩, ?_, rfl, rfl, rfl, rfl, rfl⟩
  exact Bool.or_eq_false_iff.2 ⟨hscan, rfl⟩

/-! ### Cabinet inputs -/

/-- The bit of an input. -/
def gpioBit (n : Fin 16) : BitVec 16 := (1 : BitVec 16) <<< n.val

theorem gpioBit_getLsbD (n : Fin 16) (k : Nat) : (gpioBit n).getLsbD k = (decide (k = n.val)) := by
  have hn := n.isLt
  simp only [gpioBit, BitVec.getLsbD_shiftLeft, BitVec.ofNat_eq_ofNat, BitVec.getLsbD_one]
  grind

/-- Setting an input's bit to a level. -/
def setInput (g : BitVec 16) (n : Fin 16) (v : Bool) : BitVec 16 := if v then g ||| gpioBit n else g &&& ~~~gpioBit n

theorem setInput_same (g : BitVec 16) (n : Fin 16) (v : Bool) : (setInput g n v).getLsbD n = v := by
  have hn := n.isLt
  have hbit : (gpioBit n)[n.val] = true := by rw [← BitVec.getLsbD_eq_getElem, gpioBit_getLsbD, decide_eq_true rfl]
  cases v <;> simp [setInput, hbit]

theorem setInput_ne (g : BitVec 16) (n : Fin 16) (v : Bool) {k : Nat} (hk : k < 16) (hne : k ≠ n.val) :
    (setInput g n v).getLsbD k = g.getLsbD k := by
  have hbit : (gpioBit n)[k] = false := by rw [← BitVec.getLsbD_eq_getElem, gpioBit_getLsbD, decide_eq_false hne]
  cases v <;> simp [setInput, hk, hbit]

theorem gpioInputAccept_new (s : State) (n : Fin 16) (v : Bool) (us : Nat) (c : Word) (hawake : asleep s = false)
    (hnew : s.faults.gpio.getLsbD n ≠ v) (hlong : par s 0x7061 (n + 1) ≤ us) :
    does (.gpioInputAccept n v us c) s fun t =>
      t.faults.gpio.getLsbD n = v ∧ (∀ k, k < 16 → k ≠ n.val → t.faults.gpio.getLsbD k = s.faults.gpio.getLsbD k) ∧ look t.faults.gpioSince n = some s.clk.now ∧ lookD 0 t.faults.chatter n = lookD 0 s.faults.chatter n + c ∧ (t.intc.src 7).pending = true ∧ t = { s with faults := t.faults, intc := t.intc, mem := t.mem, out := t.out } := by
  have hexec := (awake_of hawake _ : exec (.gpioInputAccept n v us c) s = _).trans
    (if_neg (not_or.2 ⟨hnew, Nat.not_lt.2 hlong⟩))
  refine ⟨_, hexec, ?_, ?_, ?_, ?_, raise_pending .., ?_⟩
  · rw [State.raise_faults]
    exact setInput_same ..
  · intro k hk hne
    rw [State.raise_faults]
    exact setInput_ne _ _ _ hk hne
  · rw [State.raise_faults]
    exact look_put_same ..
  · rw [State.raise_faults]
    exact lookD_upd_same 0 s.faults.chatter n (· + c)
  · exact Touches.frame (l := [.faults, .intc, .mem, .out]) ((Touches.refl s).setFaults.setFaults.raise) (by simp)

theorem gpioInputAccept_old (s : State) (n : Fin 16) (v : Bool) (us : Nat) (c : Word) (hawake : asleep s = false)
    (hold : s.faults.gpio.getLsbD n = v ∨ us < par s 0x7061 (n + 1)) :
    does (.gpioInputAccept n v us c) s fun t =>
      lookD 0 t.faults.chatter n = lookD 0 s.faults.chatter n + c ∧ t = { s with faults := { s.faults with chatter := t.faults.chatter } } :=
  ⟨_, (awake_of hawake _).trans (if_pos hold), lookD_upd_same 0 s.faults.chatter n (· + c), rfl⟩

theorem gpioStuck_raises (s : State) (n : Fin 16) (hawake : asleep s = false)
    (hactive : gpioActive s n (s.faults.gpio.getLsbD n) = true) (hfresh : s.faults.stuck.getLsbD n = false)
    (hdue : lookD s.boot.resetAt s.faults.gpioSince n + par s 0x7060 4 * 1000000000 ≤ s.clk.now) :
    does (.gpioStuck n) s fun t =>
      t.faults = { s.faults with stuck := s.faults.stuck ||| (1 <<< n.val) } ∧ (t.intc.src 6).pending = true ∧ t = { s with faults := t.faults, intc := t.intc, mem := t.mem, out := t.out } := by
  have hexec := (awake_of hawake _ : exec (.gpioStuck n) s = _).trans (if_pos ⟨hactive, hfresh, hdue⟩)
  exact ⟨_, hexec, State.raise_faults .., raise_pending ..,
    Touches.frame (l := [.faults, .intc, .mem, .out]) ((Touches.refl s).setFaults.raise) (by simp)⟩

/-- Settles O43: each command is its branch, and the facts about faults and raised sources give the rest. -/
theorem temperatureAndCabinet : Obligations.TemperatureAndCabinet :=
  ⟨temperatureLimit_hot, temperatureLimit_still_hot, temperatureLimitCleared_cools, thermalTrip_escalates, thermalTrip_short,
   thermalResetRelease_awakes, gpioInputAccept_new, gpioInputAccept_old, gpioStuck_raises⟩

end Sys2Proof.Proofs
end

section
/-! PROOFS. Four statements that a concrete state refutes: the mixed states that their clauses forget (R242, R275, R446, R499). -/

open Sys2Proof Sys2Proof.Machine

-- One proof at a time: a thread for each proof would pass the limit that the check sets to memory.
set_option Elab.async false

namespace Sys2Proof.Proofs

/-! ### A moved block whose frame holds a word in the poison form -/

/-- A clean block in DDR5 frame 0, one of whose words stands in the poison form, and free frames in HBM. -/
def poisonedFrame : State :=
  { State.reset with
    boot := {}
    pool := { hbmFrames := 9, ddrFrames := 9, descs := [(0, { count := 1, mark := .shortTerm, ddr := true })] }
    mem := { poison := [frameAddr true 0 / 32] } }

/-- A move marks the block `POISONED` when its frame's first word stands in the poison form. -/
theorem moveBlock_poisoned {s : State} {b : Nat} {up bad : Bool} (hc : (s.pool.desc b).count ≠ 0) (hd : (s.pool.desc b).ddr ≠ up)
    (hf : freeFrames s.pool up ≠ 0) (hu : unreserved s.pool ≠ 0) (hp : (s.pool.desc b).addr / 32 ∈ s.mem.poison) :
    ((s.moveBlock b up bad).pool.desc b).poisoned = true := by
  have hword : (s.mem.poison.filter fun w => decide ((s.pool.desc b).addr / 32 ≤ w) && decide (w < (s.pool.desc b).addr / 32 + 256)) ≠ [] :=
    List.ne_nil_of_mem (List.mem_filter.mpr ⟨hp, by simp⟩)
  have hmoves : ¬ ((s.pool.desc b).count = 0 ∨ (s.pool.desc b).ddr = up ∨ freeFrames s.pool up = 0 ∨ unreserved s.pool = 0) := fun h => by
    obtain h | h | h | h := h <;> contradiction
  unfold State.moveBlock
  rw [if_neg hmoves]
  refine (congrArg Desc.poisoned (lookD_put_same _ s.pool.descs b _)).trans ?_
  cases bad <;> simp [hword]

/-- Refutes O22: BLOCK_MOVE of a block not marked `POISONED`, read clean, marks it when its frame holds a word in the poison form. -/
theorem not_poolEngines : ¬ Obligations.PoolEngines := by
  rintro ⟨-, -, -, -, -, hmove, -⟩
  obtain ⟨t, ht, hdesc, -⟩ := hmove poisonedFrame 0 false .clean (by decide) (by decide) (by decide) (by decide) (by decide) (by decide)
  obtain rfl : poisonedFrame.moveBlock 0 false false = t := by injection ht
  have hpoisoned : ((poisonedFrame.moveBlock 0 false false).pool.desc 0).poisoned = true :=
    moveBlock_poisoned (by decide) (by decide) (by decide) (by decide) (.head _)
  have hkept : ((poisonedFrame.moveBlock 0 false false).pool.desc 0).poisoned = false := congrArg Desc.poisoned hdesc
  exact absurd (hkept.symm.trans hpoisoned) (by decide)

/-! ### A surface written by a load and by a decode context -/

/-- A picture that waits for its instant, for surface 4. -/
def waitingPicture : Timed :=
  { due := 100, surf := 4, tile := 3,
    pic := { poc := 4, cvs := 0, isRef := false, longTerm := false, output := true, rtp := 3, blocks := [], marks := [], width := 0, height := 0, outW := 0, outH := 0, cropL := 0, cropT := 0, depth10 := false, arrived := 0 } }

/-- A SURFACE_LOAD of surface 4 has loaded its table and awaits the commit, while a context's picture waits for the same surface. -/
def loadBesideOutput : State :=
  { State.reset with
    decs := [(8, { live := true, toCommit := [waitingPicture] })]
    time := { ptp := 100 }
    rings := { jobs := [{ id := 0, sq := 0, tag := 0, opcode := 1, flags := 0, object := 4, addr := 0, len := 0, params := [], loaded := true }] } }

/-- The commit of the picture ends the load. -/
theorem timedOutputCommit_loadBesideOutput :
    ∃ t, exec (.timedOutputCommit 8) loadBesideOutput = .next t ∧ (t.rings.jobs.all fun j => j.ended.isSome) = true :=
  ⟨_, rfl, by decide⟩

/-- Refutes O24: TIMED_OUTPUT_COMMIT to a surface whose SURFACE_LOAD has loaded its table ends that load's job, which the clause's list of
changed blocks leaves out. -/
theorem not_decodeTilesAndOutput : ¬ Obligations.DecodeTilesAndOutput := by
  rintro ⟨-, -, -, -, -, houtput, -⟩
  obtain ⟨t, ht, -, -, -, -, -, hframe⟩ := houtput loadBesideOutput 8 waitingPicture (by decide) rfl (by decide) (by decide) (by decide) (by decide)
    rfl rfl rfl rfl rfl rfl
  obtain ⟨t', ht', hended⟩ := timedOutputCommit_loadBesideOutput
  obtain rfl : t = t' := by injection ht.symm.trans ht'
  have hrings : t.rings = loadBesideOutput.rings := by rw [hframe]
  exact absurd (hrings ▸ hended) (by decide)

/-! ### The scrub at address 0, below HBM3E -/

/-- The scrub stands at address 0, which no memory has, and its word is listed as poisoned. -/
def scrubBelowHbm : State :=
  { State.reset with boot := { hbm := true }, mem := { scrubAt := 0, poison := [0] } }

/-- An uncorrectable word below HBM3E is not counted as one of HBM3E. -/
theorem patrolScrub_scrubBelowHbm :
    ∃ t, exec (.patrolScrub 0 (.hbm {})) scrubBelowHbm = .next t ∧ lookD 0 t.mem.counters 7 = 0 :=
  ⟨_, rfl, by decide⟩

/-- Refutes O40: the clause of an uncorrectable word of HBM3E asks only for an address below the end of HBM3E, and below its start nothing
is counted. -/
theorem not_memoryScrubAndSpares : ¬ Obligations.MemoryScrubAndSpares := by
  rintro ⟨-, -, -, -, -, -, huncorrectable, -⟩
  obtain ⟨t, ht, hcounted, -⟩ := huncorrectable scrubBelowHbm 0 {} (by decide) (by decide) (by decide) (by decide) (.inr (by decide))
  obtain ⟨t', ht', hcounter⟩ := patrolScrub_scrubBelowHbm
  obtain rfl : t = t' := by injection ht.symm.trans ht'
  exact absurd (hcounted.symm.trans hcounter) (by decide)

/-! ### A resynchronisation under a power warning -/

/-- A Joining device in its start, under a power warning, with one mirrored parameter in its stored image. -/
def resyncUnderWarning : State :=
  { State.reset with
    boot := { warning := true }
    store := { image := [(0, 0, PVal.num 0)] }
    pair := { role := .joining, partner := some { state := 0, epoch := 3, pairId := true, serial := 0, seq := 0, journal := 0, at_ := 0 } } }

/-- The store takes no write under the warning, so the image keeps the mirrored parameter. -/
theorem resyncFrame_underWarning :
    ∃ t, exec (.resyncFrame (.learned [])) resyncUnderWarning = .next t ∧ (t.store.image.all fun q => localKey q.1) = false :=
  ⟨_, rfl, by decide⟩

/-- Refutes O46: RESYNC_FRAME with the store closed by a power warning, not by the shutdown record, leaves the stored image as it is. -/
theorem not_pairRoles : ¬ Obligations.PairRoles := by
  rintro ⟨-, -, -, -, -, -, -, -, -, -, -, -, hresync, -⟩
  obtain ⟨t, ht, -, -, -, -, himage, -⟩ := hresync resyncUnderWarning _ (by decide) (by decide) (by decide) rfl (by decide)
  obtain ⟨t', ht', hkept⟩ := resyncFrame_underWarning
  obtain rfl : t = t' := by injection ht.symm.trans ht'
  exact absurd (himage.symm.trans hkept) (by decide)

end Sys2Proof.Proofs
end

section
/-! PROOFS. Five more statements that a concrete state refutes: what each clause leaves out is named at its counterexample. -/

open Sys2Proof Sys2Proof.Machine

-- One proof at a time: a thread for each proof would pass the limit that the check sets to memory.
set_option Elab.async false

namespace Sys2Proof.Proofs

/-! ### A rule's action in the cycle of a higher engine's (R139) -/

/-- The down event that the rule's region holds. -/
def downEvent : Touch := { endpoint := 9, kind := 1, contact := 2, x := 10, y := 20, seq := 5, at_ := 50 }

/-- The layout's only rule: a down event in its region sets variable 3 to 7. -/
def setSeven : Rule :=
  { trigger := 1, var := 3, op := 1, condVar := 0xFF, x := 0, y := 0, w := 100, h := 100, operand := 7, limit := 0, condValue := 0 }

/-- Engine 5 sees a down event, and engine 6 has set the same variable to 9 in this nanosecond. -/
def lowerEngineLast : State :=
  { State.reset with
    boot := { selvedge := true }
    dict := { params := [
      (pkey 0x4100 0 none, .bytes (List.replicate 9 0 ++ [1] ++ List.replicate 22 0 ++
        [1, 3, 1, 0xFF, 0, 0, 0, 0, 100, 0, 100, 0, 7, 0, 0, 0] ++ List.replicate 16 0)),
      (pkey 0x8005 1 (some 9), .num 1), (pkey 0x8005 2 (some 9), .num 5),
      (pkey 0x8005 3 (some 9), .bytes (List.replicate 15 0 ++ [8])), (pkey 0x8005 6 (some 9), .num 1)] }
    clk := { now := 60 }
    bobs := [(.touch 5, { items := [(touchItem downEvent, false)], wr := 1, resetAt := none })]
    batten := { tracks := [(9, {})], banks := [(3, 9)], cycles := [(3, ⟨60, 0, [⟨7, 1, 9, 0⟩]⟩)] } }

/-- The higher engine's action comes after: its value stays. -/
theorem touchEvent_lowerEngineLast :
    ∃ t, exec (.touchEvent 5 .clean) lowerEngineLast = .next t ∧ t.bankVar 0 3 = 9 :=
  ⟨_, rfl, by decide⟩

/-- Refutes O29: of two actions on one variable in one cycle the higher engine's comes last (R139), so a rule's value does not stay where
a higher engine has acted in the same nanosecond. -/
theorem not_touchEventsAndRules : ¬ Obligations.TouchEventsAndRules := by
  rintro ⟨-, -, hrule, -⟩
  obtain ⟨t, ht, -, hvalue, -⟩ := hrule lowerEngineLast 5 5 (touchItem downEvent) false [] downEvent {} setSeven (by decide) (by decide)
    (by decide) (by decide) (by decide) (by decide) (by decide) (by decide) (by decide) (by decide) (by decide) (by decide) (by decide)
  obtain ⟨t', ht', hkept⟩ := touchEvent_lowerEngineLast
  obtain rfl : t = t' := by injection ht.symm.trans ht'
  exact absurd (hvalue.symm.trans hkept) (by decide)

/-! ### A step backwards over a slot boundary (R249) -/

/-- A step back by 7 ns is due, and a stream has passed a boundary that the time unit's count does not show. -/
def stepsBackBelowSlot : State :=
  { State.reset with
    time := { ptp := 100, pendingStep := some (7, 90) }
    encs := [(0, { lastTick := 10, slotNext := 1, grid := (5, 0) })] }

/-- The boundary lies ahead again. -/
theorem timeStep_stepsBackBelowSlot :
    ∃ t, exec .timeStep stepsBackBelowSlot = .next t ∧ (t.encs.map fun q => q.2.slotNext) = [0] :=
  ⟨_, rfl, by decide⟩

/-- Refutes O31: a step backwards takes back the slot boundaries that lie ahead again (R249), where the clause keeps the streams. -/
theorem not_timeInputs : ¬ Obligations.TimeInputs := by
  rintro ⟨-, -, -, -, -, -, -, -, -, -, hstep, -⟩
  obtain ⟨t, ht, -, -, hback, -⟩ := hstep stepsBackBelowSlot 7 90 (by decide) rfl (by decide) (by decide)
  obtain ⟨t', ht', hslot⟩ := timeStep_stepsBackBelowSlot
  obtain rfl : t = t' := by injection ht.symm.trans ht'
  obtain ⟨hencs, -⟩ := hback (by decide)
  exact absurd (hencs ▸ hslot) (by decide)

/-! ### A host reset while a surface's table waits for its commit -/

/-- A SURFACE_LOAD of surface 4 has loaded its table and awaits the commit, on a ring of the host. -/
def loadOnHostRing : State :=
  { State.reset with
    pool := { surfaces := [(4, { state := .loading, waiting := some (8, 8, true, []) })] }
    rings := { sqs := [(0, { state := 1 })], jobs := [{ id := 0, sq := 0, tag := 0, opcode := 1, flags := 0, object := 4, addr := 0, len := 0, params := [], loaded := true }] } }

/-- The reset aborts the load: the table no longer waits. -/
theorem hostReset_loadOnHostRing :
    ∃ t, exec .hostReset loadOnHostRing = .next t ∧ (t.pool.surfaces.all fun q => q.2.waiting.isNone) = true :=
  ⟨_, rfl, by decide⟩

/-- Refutes O2: HOST_RESET aborts a SURFACE_LOAD whose table waits, and gives its blocks back to the pool. -/
theorem not_hostResetSparesTheDevice : ¬ Obligations.HostResetSparesTheDevice := by
  intro hreset
  obtain ⟨t, ht, -, -, -, -, -, -, -, -, -, -, hpool, -⟩ := hreset loadOnHostRing (by decide)
  obtain ⟨t', ht', haborted⟩ := hostReset_loadOnHostRing
  obtain rfl : t = t' := by injection ht.symm.trans ht'
  exact absurd (hpool ▸ haborted) (by decide)

/-! ### The Selvedge step of a stored primary under a power warning -/

/-- A device whose store names it primary comes to the Selvedge step under a power warning. -/
def primaryUnderWarning : State :=
  { State.reset with
    boot := { replayed := true, warning := true }
    store := { pair := { known := true, primary := true } } }

/-- The store takes no write, so the role stays owed. -/
theorem selvedgeEnable_primaryUnderWarning :
    ∃ t, exec .selvedgeEnable primaryUnderWarning = .next t ∧ t.boot.roleOwed = true :=
  ⟨_, rfl, by decide⟩

/-- Refutes O3: SELVEDGE_ENABLE of a stored primary under a power warning marks the role as owed besides the step's own flag. -/
theorem not_startStepsInOrder : ¬ Obligations.StartStepsInOrder := by
  rintro ⟨-, -, -, -, -, hselvedge, -⟩
  obtain ⟨t, ht, hboot, -⟩ := hselvedge primaryUnderWarning (by decide) (by decide) (by decide)
  obtain ⟨t', ht', howed⟩ := selvedgeEnable_primaryUnderWarning
  obtain rfl : t = t' := by injection ht.symm.trans ht'
  exact absurd (hboot ▸ howed) (by decide)

/-! ### A session whose stage holds one object twice -/

/-- A session that has staged the domain 0x4600:00 twice. -/
def stagedTwice : State :=
  { State.reset with
    boot := { selvedge := true }
    dict := { sess := [(.can 5, { stage := [(0x460000, []), (0x460000, [])] })] } }

/-- The last segment clears the first of the two. -/
theorem domainFinalWrite_stagedTwice :
    ∃ t, exec (.domainFinalWrite (.can 5) 0x4600 0 0 []) stagedTwice = .next t ∧ look (t.sess (.can 5)).stage 0x460000 = some [] :=
  ⟨_, rfl, by decide⟩

/-- Refutes O9: DOMAIN_FINAL_WRITE clears one staged content of its object; the statement asks nothing of the session's stage, so one
that holds the object twice still holds it. -/
theorem not_dictionaryWritesEnterTheJournal : ¬ Obligations.DictionaryWritesEnterTheJournal := by
  rintro ⟨-, -, -, -, hfinal⟩
  obtain ⟨t, ht, -, hcleared, -⟩ := hfinal stagedTwice (.can 5) 0x4600 0 0 [] ⟨0x4600, 0x47FF, 0, 0, .dom 512, .rwp, .bytes [], .any⟩ none []
    (.bytes []) (by decide) (by decide) (by decide) (by decide) (by decide) (by decide) (by decide) (by decide)
  obtain ⟨t', ht', hstaged⟩ := domainFinalWrite_stagedTwice
  obtain rfl : t = t' := by injection ht.symm.trans ht'
  exact absurd (hcleared.symm.trans hstaged) (by decide)

end Sys2Proof.Proofs
end

section
/-! PROOFS. The address tables: what a write to the MAC table changes of its searches, and the table commands (O28). -/

open Sys2Proof Sys2Proof.Machine

-- One proof at a time: a thread for each proof would pass the limit that the check sets to memory.
set_option Elab.async false

namespace Sys2Proof.Proofs

/-! ### The MAC table -/

/-- A row written into a table is the only one found, where no row was. -/
theorem find?_put_new {α : Type} (p : α → Bool) (t : Tab α) (k : Nat) (v : α) (hnone : (t.find? fun q => p q.2) = none) (hv : p v = true) :
    ((put t k v).find? fun q => p q.2) = some (k, v) := by
  induction t with
  | nil => simp [put, hv]
  | cons q r ih =>
    obtain ⟨hq, hr⟩ : p q.2 = false ∧ (r.find? fun q => p q.2) = none := by simpa [List.find?_eq_none] using hnone
    unfold put
    split <;> [skip; split]
    · simp [hv]
    · simp [hv]
    · simpa [List.find?_cons, hq] using ih hr

theorem macBucket_lt (vlan : BitVec 12) (mac : BitVec 48) : macBucket vlan mac < 65536 := Nat.mod_lt _ (by decide)

theorem lowestGap_lt {α : Type} {t : Tab α} {n i : Nat} (h : lowestGap t n = some i) : i < n :=
  List.mem_range.1 (List.mem_of_find?_eq_some h)

theorem macPut_bucket (v : Selvedge) (b i : Nat) (e : MacEntry) (hb : b < 65536) (hi : i < 4) :
    macPut v (4 * b + i) e = { v with buckets := put v.buckets b (put (bucketAt v b) i e) } := by
  have hdiv : (4 * b + i) / 4 = b := by omega
  have hmod : (4 * b + i) % 4 = i := by omega
  simp [macPut, hdiv, hmod, show 4 * b + i < 262144 by omega]

/-- What a search looks at is what the table shows. -/
theorem macFind_congr {v w : Selvedge} (hb : v.buckets = w.buckets) (ho : v.overflow = w.overflow) (vlan : BitVec 12) (mac : BitVec 48) :
    macFind v vlan mac = macFind w vlan mac := by
  simp [macFind, bucketAt, hb, ho]

/-- An entry placed in its bucket is found there, where its key was absent. -/
theorem macFind_macPut_new {v : Selvedge} {e : MacEntry} {i : Nat} (hnone : macFind v e.vlan e.mac = none) (hi : i < 4) :
    macFind (macPut v (4 * macBucket e.vlan e.mac + i) e) e.vlan e.mac = some (4 * macBucket e.vlan e.mac + i, e) := by
  have hbucket : ((bucketAt v (macBucket e.vlan e.mac)).find? fun q => q.2.mac == e.mac && q.2.vlan == e.vlan) = none := by
    cases hfind : (bucketAt v (macBucket e.vlan e.mac)).find? fun q => q.2.mac == e.mac && q.2.vlan == e.vlan with
    | none => rfl
    | some q => simp [macFind, hfind] at hnone
  have hfound := find?_put_new (fun x : MacEntry => x.mac == e.mac && x.vlan == e.vlan) _ i e hbucket (by simp)
  rw [macPut_bucket _ _ _ _ (macBucket_lt ..) hi]
  unfold macFind
  simp only [bucketAt, lookD_put_same] at hfound ⊢
  rw [hfound]

/-- An entry of an absent key goes to the lowest free slot of its bucket, counted and logged. -/
theorem macInsert_free {s : State} {e : MacEntry} {i : Nat} (hgap : lowestGap (bucketAt s.selv (macBucket e.vlan e.mac)) 4 = some i) :
    s.macInsert e =
      (true, (({ s with selv := macPut s.selv (4 * macBucket e.vlan e.mac + i) e }).selvCount 0x0B).logLearn e.delta) := by
  simp [State.macInsert, hgap]

theorem macFind_macInsert {s : State} {e : MacEntry} {i : Nat} (hnone : macFind s.selv e.vlan e.mac = none)
    (hgap : lowestGap (bucketAt s.selv (macBucket e.vlan e.mac)) 4 = some i) :
    macFind (s.macInsert e).2.selv e.vlan e.mac = some (4 * macBucket e.vlan e.mac + i, e) := by
  rw [macInsert_free hgap, ← macFind_macPut_new hnone (lowestGap_lt hgap)]
  exact macFind_congr rfl rfl _ _

theorem logLearn_cmds (s : State) (d : LearnDelta) : (s.logLearn d).selv.cmds = s.selv.cmds := rfl

theorem macPut_cmds (v : Selvedge) (p : Nat) (e : MacEntry) : (macPut v p e).cmds = v.cmds := by
  unfold macPut; split <;> rfl

/-- A search of a table with one entry, in the overflow store. -/
theorem macFind_sole {v : Selvedge} {i : Nat} {e : MacEntry} {vlan : BitVec 12} {mac : BitVec 48} (hb : v.buckets = [])
    (ho : v.overflow = [(i, e)]) (hmac : e.mac = mac) (hvlan : e.vlan = vlan) : macFind v vlan mac = some (262144 + i, e) := by
  simp [macFind, bucketAt, hb, ho, lookD, hmac, hvlan]

/-- The removal of the only entry, in the overflow store. -/
theorem macRemove_sole {s : State} {i : Nat} {e : MacEntry} (ho : s.selv.overflow = [(i, e)]) :
    s.macRemove (262144 + i) = ({ s with selv := { s.selv with overflow := [] } } : State).logLearn (.macDel e.vlan e.mac) := by
  simp [State.macRemove, macAt, macDel, ho, look, del]

theorem macPositions_sole {v : Selvedge} {i : Nat} {e : MacEntry} (hb : v.buckets = []) (ho : v.overflow = [(i, e)]) :
    macPositions v = [262144 + i] := by
  simp [macPositions, hb, ho]

theorem macPositions_empty {v : Selvedge} (hb : v.buckets = []) (ho : v.overflow = []) : macPositions v = [] := by
  simp [macPositions, hb, ho]

/-! ### The session's results -/

theorem sess_setSess (s : State) (se : Session) (v : SessState) : (s.setSess se v).sess se = v := by
  simp [State.sess, State.setSess]

/-- With no request waiting nothing is answered. -/
theorem settleDict_idle {s : State} (h : s.dict.reqs = []) : s.settleDict = s := by
  simp [State.settleDict, State.answerReads, State.finishAll, h]

theorem macResult_idle {s : State} {c : MacCmd} (f : MacArgs → MacArgs) (hreqs : s.dict.reqs = []) (hkept : c.drop = false) :
    s.macResult c f = s.setSess c.se { s.sess c.se with mac := f (s.sess c.se).mac } := by
  rw [State.macResult, hkept]
  exact settleDict_idle (s := s.setSess _ _) hreqs

theorem lpmResult_idle {s : State} {c : LpmCmd} (f : LpmArgs → LpmArgs) (hreqs : s.dict.reqs = []) (hkept : c.drop = false) :
    s.lpmResult c f = s.setSess c.se { s.sess c.se with lpm := f (s.sess c.se).lpm } := by
  rw [State.lpmResult, hkept]
  exact settleDict_idle (s := s.setSess _ _) hreqs

end Sys2Proof.Proofs
end

section
/-! PROOFS. The commands of the MAC table and of the longest-match table (O28): each takes the oldest waiting command and places its results in that command's session. -/

open Sys2Proof Sys2Proof.Machine

-- One proof at a time: a thread for each proof would pass the limit that the check sets to memory.
set_option Elab.async false

namespace Sys2Proof.Proofs

/-! ### The MAC table's commands -/

/-- The state without the command that the arbiter takes. -/
def withoutCmd (s : State) (r : List MacCmd) : State := { s with selv := { s.selv with cmds := r, cmdTurn := false } }

theorem takeCmd_front {s : State} {c : MacCmd} {r : List MacCmd} {op : MacOp} (hcmds : s.selv.cmds = c :: r) (hop : c.op = op)
    (hturn : s.selv.learns = [] ∨ s.selv.cmdTurn = true) : takeCmd s op = some (c, withoutCmd s r) := by
  simp only [takeCmd, hcmds, if_pos (And.intro hop hturn)]
  rfl

theorem macBad_clean (s : State) (m : Master) (vlan : BitVec 12) (mac : BitVec 48) : s.macBad m vlan mac false = s := rfl

theorem macSearch_found (s : State) (c : MacCmd) (r : List MacCmd) (pos : Nat) (e : MacEntry) (hawake : asleep s = false)
    (hcmds : s.selv.cmds = c :: r) (hkept : c.drop = false) (hop : c.op = .search) (hturn : s.selv.learns = [] ∨ s.selv.cmdTurn = true)
    (hreqs : s.dict.reqs = []) (hfound : macFind s.selv (BitVec.ofNat 12 c.args.vlan.toNat) c.args.mac = some (pos, e)) :
    does (.macSearch false) s fun t =>
      ((t.sess c.se).mac.outcome, (t.sess c.se).mac.fMac, (t.sess c.se).mac.fVlan.toNat) = (0, e.mac, e.vlan.toNat) ∧ t = { s with selv := { s.selv with cmds := r, cmdTurn := false }, dict := { s.dict with sess := t.dict.sess } } := by
  have hexec : exec (.macSearch false) s = .next ((withoutCmd s r).macResult c (·.found 0 e)) := by
    refine (awake_of hawake _).trans ?_
    simp only [takeCmd_front hcmds hop hturn, macBad_clean]
    rw [show macFind (withoutCmd s r).selv (argVlan c.args) c.args.mac = some (pos, e) from hfound]
  rw [macResult_idle _ (by exact hreqs) hkept] at hexec
  refine ⟨_, hexec, ?_, rfl⟩
  rw [sess_setSess]
  simpa [MacArgs.found] using e.vlan.isLt.trans (by decide)

theorem macSearch_absent (s : State) (c : MacCmd) (r : List MacCmd) (hawake : asleep s = false) (hcmds : s.selv.cmds = c :: r)
    (hkept : c.drop = false) (hop : c.op = .search) (hturn : s.selv.learns = [] ∨ s.selv.cmdTurn = true) (hreqs : s.dict.reqs = [])
    (habsent : macFind s.selv (BitVec.ofNat 12 c.args.vlan.toNat) c.args.mac = none) :
    does (.macSearch false) s fun t =>
      (t.sess c.se).mac.outcome = 1 ∧ (t.sess c.se).mac.fMac = 0 ∧ t = { s with selv := { s.selv with cmds := r, cmdTurn := false }, dict := { s.dict with sess := t.dict.sess } } := by
  have hexec : exec (.macSearch false) s = .next ((withoutCmd s r).macResult c (·.none_ 1)) := by
    refine (awake_of hawake _).trans ?_
    simp only [takeCmd_front hcmds hop hturn, macBad_clean]
    rw [show macFind (withoutCmd s r).selv (argVlan c.args) c.args.mac = none from habsent]
  rw [macResult_idle _ (by exact hreqs) hkept] at hexec
  refine ⟨_, hexec, ?_, ?_, rfl⟩ <;> rw [sess_setSess] <;> rfl

theorem macNext_first (s : State) (c : MacCmd) (r : List MacCmd) (i : Nat) (e : MacEntry) (hawake : asleep s = false)
    (hcmds : s.selv.cmds = c :: r) (hkept : c.drop = false) (hop : c.op = .next) (hturn : s.selv.learns = [] ∨ s.selv.cmdTurn = true)
    (hreqs : s.dict.reqs = []) (hpos : (s.sess c.se).mac.pos = 0xFFFFFFFF) (hbuckets : s.selv.buckets = [])
    (hover : s.selv.overflow = [(i, e)]) (hi : i < 4096) :
    does (.macNext) s fun t =>
      ((t.sess c.se).mac.outcome, (t.sess c.se).mac.fMac, (t.sess c.se).mac.pos.toNat) = (0, e.mac, 262144 + i) ∧ t = { s with selv := { s.selv with cmds := r, cmdTurn := false }, dict := { s.dict with sess := t.dict.sess } } := by
  have hat : macAt s.selv (262144 + i) = some e := by simp [macAt, hover, look]
  have hexec : exec .macNext s =
      .next ((withoutCmd s r).macResult c fun a => { (a.found 0 e) with pos := BitVec.ofNat 32 (262144 + i) }) := by
    refine (awake_of hawake _).trans ?_
    simp only [takeCmd_front hcmds hop hturn]
    rw [show ((withoutCmd s r).sess c.se).mac.pos = 0xFFFFFFFF from hpos,
      show macPositions (withoutCmd s r).selv = [262144 + i] from macPositions_sole hbuckets hover]
    simp only [if_true, List.find?_cons, Nat.zero_le, decide_true]
    rw [show macAt (withoutCmd s r).selv (262144 + i) = some e from hat]
  rw [macResult_idle _ (by exact hreqs) hkept] at hexec
  refine ⟨_, hexec, ?_, rfl⟩
  rw [sess_setSess]
  simp only [MacArgs.found, BitVec.toNat_ofNat, Prod.mk.injEq, true_and]
  omega

theorem macNext_empty (s : State) (c : MacCmd) (r : List MacCmd) (hawake : asleep s = false) (hcmds : s.selv.cmds = c :: r)
    (hkept : c.drop = false) (hop : c.op = .next) (hturn : s.selv.learns = [] ∨ s.selv.cmdTurn = true) (hreqs : s.dict.reqs = [])
    (hbuckets : s.selv.buckets = []) (hover : s.selv.overflow = []) :
    does (.macNext) s fun t =>
      (t.sess c.se).mac.outcome = 2 ∧ t = { s with selv := { s.selv with cmds := r, cmdTurn := false }, dict := { s.dict with sess := t.dict.sess } } := by
  have hexec : exec .macNext s = .next ((withoutCmd s r).macResult c (·.none_ 2)) := by
    refine (awake_of hawake _).trans ?_
    simp only [takeCmd_front hcmds hop hturn]
    rw [show macPositions (withoutCmd s r).selv = [] from macPositions_empty hbuckets hover]
    rfl
  rw [macResult_idle _ (by exact hreqs) hkept] at hexec
  refine ⟨_, hexec, ?_, rfl⟩
  rw [sess_setSess]
  rfl

/-- The entry that a MAC_INSERT enters. -/
def argEntry (a : MacArgs) : MacEntry := { mac := a.mac, vlan := argVlan a, static := a.static, dest := BitVec.ofNat 20 a.dest.toNat }

/-- An entry that goes to a free slot changes the table, its counts and the learn log with what mirrors it. -/
theorem macInsert_frame {s : State} {e : MacEntry} {i : Nat} (hgap : lowestGap (bucketAt s.selv (macBucket e.vlan e.mac)) 4 = some i) :
    (s.macInsert e).2.selv.cmds = s.selv.cmds ∧
      (s.macInsert e).2 = { s with selv := (s.macInsert e).2.selv, pair := (s.macInsert e).2.pair, out := (s.macInsert e).2.out } := by
  rw [macInsert_free hgap]
  exact ⟨macPut_cmds s.selv _ e, rfl⟩

theorem macInsert_enters (s : State) (c : MacCmd) (r : List MacCmd) (i : Nat) (hawake : asleep s = false) (hcmds : s.selv.cmds = c :: r)
    (hkept : c.drop = false) (hop : c.op = .insert) (hturn : s.selv.learns = [] ∨ s.selv.cmdTurn = true) (hreqs : s.dict.reqs = [])
    (habsent : macFind s.selv (BitVec.ofNat 12 c.args.vlan.toNat) c.args.mac = none)
    (hgap : lowestGap (bucketAt s.selv (macBucket (BitVec.ofNat 12 c.args.vlan.toNat) c.args.mac)) 4 = some i) :
    does (.macInsert false) s fun t =>
      ((macFind t.selv (BitVec.ofNat 12 c.args.vlan.toNat) c.args.mac).map fun q => (q.2.mac, q.2.static, q.2.dest)) = some (c.args.mac, c.args.static, BitVec.ofNat 20 c.args.dest.toNat) ∧ (t.sess c.se).mac.outcome = 0 ∧ t.selv.cmds = r ∧ t = { s with selv := t.selv, dict := { s.dict with sess := t.dict.sess }, pair := t.pair, out := t.out } := by
  have hgap' : lowestGap (bucketAt (withoutCmd s r).selv (macBucket (argEntry c.args).vlan (argEntry c.args).mac)) 4 = some i := hgap
  have hnone : macFind (withoutCmd s r).selv (argEntry c.args).vlan (argEntry c.args).mac = none := habsent
  have hexec : exec (.macInsert false) s = .next (((withoutCmd s r).macInsert (argEntry c.args)).2.macResult c (·.none_ 0)) := by
    refine (awake_of hawake _).trans ?_
    simp only [takeCmd_front hcmds hop hturn, macBad_clean]
    rw [show macFind (withoutCmd s r).selv (argVlan c.args) c.args.mac = none from habsent]
    change done (((withoutCmd s r).macInsert (argEntry c.args)).2.macResult c
      (·.none_ (if ((withoutCmd s r).macInsert (argEntry c.args)).1 then 0 else 3))) = _
    rw [macInsert_free hgap']
    rfl
  have hfound := macFind_macInsert hnone hgap'
  obtain ⟨hcmds', hframe⟩ := macInsert_frame hgap'
  rw [macResult_idle _ (by rw [hframe]; exact hreqs) hkept] at hexec
  refine ⟨_, hexec, ?_, ?_, hcmds', ?_⟩
  · exact congrArg (Option.map fun q : Nat × MacEntry => (q.2.mac, q.2.static, q.2.dest)) hfound
  · rw [sess_setSess]
    rfl
  · generalize ((withoutCmd s r).macInsert (argEntry c.args)).2 = u at hframe
    rw [hframe]
    rfl

theorem macDelete_removes (s : State) (c : MacCmd) (r : List MacCmd) (i : Nat) (e : MacEntry) (hawake : asleep s = false)
    (hcmds : s.selv.cmds = c :: r) (hkept : c.drop = false) (hop : c.op = .delete) (hturn : s.selv.learns = [] ∨ s.selv.cmdTurn = true)
    (hreqs : s.dict.reqs = []) (hbuckets : s.selv.buckets = []) (hover : s.selv.overflow = [(i, e)]) (hmac : e.mac = c.args.mac)
    (hvlan : e.vlan = BitVec.ofNat 12 c.args.vlan.toNat) :
    does (.macDelete false) s fun t =>
      t.selv.overflow = [] ∧ (t.sess c.se).mac.outcome = 0 ∧ t.selv.cmds = r ∧ t = { s with selv := t.selv, dict := { s.dict with sess := t.dict.sess }, pair := t.pair, out := t.out } := by
  have hexec : exec (.macDelete false) s = .next (((withoutCmd s r).macRemove (262144 + i)).macResult c (·.found 0 e)) := by
    refine (awake_of hawake _).trans ?_
    simp only [takeCmd_front hcmds hop hturn, macBad_clean]
    rw [show macFind (withoutCmd s r).selv (argVlan c.args) c.args.mac = some (262144 + i, e) from macFind_sole hbuckets hover hmac hvlan]
  rw [macRemove_sole (by exact hover), macResult_idle _ (by exact hreqs) hkept] at hexec
  refine ⟨_, hexec, rfl, ?_, rfl, rfl⟩
  rw [sess_setSess]
  rfl

/-! ### Flushes -/

/-- The steps of a flush with no learn event waiting. -/
theorem flushSteps_quiet {s : State} {c : MacCmd} {r : List MacCmd} {op : MacOp} {k hi : Nat} {port : Option Nat} (hcmds : s.selv.cmds = c :: r)
    (hop : c.op = op) (hquiet : s.selv.learns = []) (hk : k ≠ 0) (hhi : min 65537 (c.next_ + k) = hi)
    (hport : (if op = .flushPort then some c.args.dest.toNat else none) = port) :
    s.flushSteps op k =
      let f := s.flushMacs port c.args.vlan.toNat c.next_ hi
      let n := c.removed + f.1
      let s1 : State := { f.2 with selv := { f.2.selv with
        cmds := if hi = 65537 then r else { c with next_ := hi, removed := n } :: r, cmdTurn := false } }
      if hi = 65537 then s1.macResult c fun a => { (a.none_ 0) with removed := BitVec.ofNat 32 n } else s1 := by
  subst hhi hport
  simp only [State.flushSteps, hcmds]
  rw [if_pos ⟨hop, .inl hquiet, hk⟩]
  simp only [hquiet, List.isEmpty_nil, if_true]

/-- A flush over every bucket removes the only entry, where it is a dynamic unicast one that the flush names. -/
theorem flushMacs_sole {s : State} {i : Nat} {e : MacEntry} {port : Option Nat} {vlan : Nat} (hbuckets : s.selv.buckets = [])
    (hover : s.selv.overflow = [(i, e)]) (hdyn : e.static = false) (huni : e.group = false) (hvlan : vlan = 0 ∨ e.vlan.toNat = vlan)
    (hport : ∀ p, port = some p → e.dest.toNat = p) :
    s.flushMacs port vlan 0 65537 =
      (1, ({ s with selv := { s.selv with overflow := [] } } : State).logLearn (.macDel e.vlan e.mac)) := by
  have hat : macAt s.selv (262144 + i) = some e := by simp [macAt, hover, look]
  cases port with
  | none => simp [State.flushMacs, macPositions_sole hbuckets hover, hat, hdyn, huni, hvlan, bucketOf, macRemove_sole hover]
  | some p => simp [State.flushMacs, macPositions_sole hbuckets hover, hat, hdyn, huni, hvlan, hport p rfl, bucketOf, macRemove_sole hover]

theorem flushMacs_empty {s : State} (port : Option Nat) (vlan lo hi : Nat) (hbuckets : s.selv.buckets = []) (hover : s.selv.overflow = []) :
    s.flushMacs port vlan lo hi = (0, s) := by
  simp [State.flushMacs, macPositions_empty hbuckets hover]

/-- A flush with all of its steps, of a table whose only entry it names. -/
theorem flushSteps_all {s : State} {c : MacCmd} {r : List MacCmd} {op : MacOp} {i k : Nat} {e : MacEntry} (hcmds : s.selv.cmds = c :: r)
    (hkept : c.drop = false) (hop : c.op = op) (hreqs : s.dict.reqs = []) (hquiet : s.selv.learns = []) (hnext : c.next_ = 0)
    (hremoved : c.removed = 0) (hk : 65537 ≤ k) (hbuckets : s.selv.buckets = []) (hover : s.selv.overflow = [(i, e)]) (hdyn : e.static = false)
    (huni : e.group = false) (hvlan : c.args.vlan = 0 ∨ e.vlan.toNat = c.args.vlan.toNat) (hport : op = .flushPort → e.dest.toNat = c.args.dest.toNat) :
    (s.flushSteps op k).selv.overflow = [] ∧ ((s.flushSteps op k).sess c.se).mac.outcome = 0 ∧ ((s.flushSteps op k).sess c.se).mac.removed = 1 ∧
      (s.flushSteps op k).selv.cmds = r ∧
      s.flushSteps op k = { s with
        selv := (s.flushSteps op k).selv, dict := { s.dict with sess := (s.flushSteps op k).dict.sess }
        pair := (s.flushSteps op k).pair, out := (s.flushSteps op k).out } := by
  have hvlan' : c.args.vlan.toNat = 0 ∨ e.vlan.toNat = c.args.vlan.toNat := hvlan.imp (fun h => by rw [h]; rfl) id
  have hflush := flushMacs_sole (port := if op = .flushPort then some c.args.dest.toNat else none) hbuckets hover hdyn huni hvlan'
    (by intro p hp; split at hp <;> simp_all)
  rw [flushSteps_quiet (hi := 65537) hcmds hop hquiet (by omega) (by omega) rfl, hnext, hremoved, hflush]
  simp only [if_true]
  rw [macResult_idle _ (by exact hreqs) hkept]
  refine ⟨rfl, ?_, ?_, rfl, rfl⟩ <;> rw [sess_setSess] <;> rfl

/-- A flush of an empty table with fewer steps advances by them. -/
theorem flushSteps_some {s : State} {c : MacCmd} {r : List MacCmd} {op : MacOp} {k : Nat} (hcmds : s.selv.cmds = c :: r) (hop : c.op = op)
    (hquiet : s.selv.learns = []) (hbuckets : s.selv.buckets = []) (hover : s.selv.overflow = []) (hk : k ≠ 0) (hfew : c.next_ + k < 65537) :
    s.flushSteps op k = { s with selv := { s.selv with cmds := { c with next_ := c.next_ + k } :: r, cmdTurn := false } } := by
  rw [flushSteps_quiet (hi := c.next_ + k) hcmds hop hquiet hk (by omega) rfl, flushMacs_empty _ _ _ _ hbuckets hover]
  simp only [if_neg (Nat.ne_of_lt hfew)]
  rfl

theorem macFlushByPort_all (s : State) (c : MacCmd) (r : List MacCmd) (i : Nat) (e : MacEntry) (k : Nat) (hawake : asleep s = false)
    (hcmds : s.selv.cmds = c :: r) (hkept : c.drop = false) (hop : c.op = .flushPort) (_hturn : s.selv.learns = [] ∨ s.selv.cmdTurn = true)
    (hreqs : s.dict.reqs = []) (hquiet : s.selv.learns = []) (hnext : c.next_ = 0) (hremoved : c.removed = 0) (hk : 65537 ≤ k)
    (hbuckets : s.selv.buckets = []) (hover : s.selv.overflow = [(i, e)]) (hdyn : e.static = false) (huni : e.group = false)
    (hvlan : c.args.vlan = 0 ∨ e.vlan.toNat = c.args.vlan.toNat) (hport : e.dest.toNat = c.args.dest.toNat) :
    does (.macFlushByPort k) s fun t =>
      t.selv.overflow = [] ∧ (t.sess c.se).mac.outcome = 0 ∧ (t.sess c.se).mac.removed = 1 ∧ t.selv.cmds = r ∧ t = { s with selv := t.selv, dict := { s.dict with sess := t.dict.sess }, pair := t.pair, out := t.out } :=
  ⟨_, awake_of hawake _, flushSteps_all hcmds hkept hop hreqs hquiet hnext hremoved hk hbuckets hover hdyn huni hvlan fun _ => hport⟩

theorem macFlushByPort_some (s : State) (c : MacCmd) (r : List MacCmd) (k : Nat) (hawake : asleep s = false) (hcmds : s.selv.cmds = c :: r)
    (_hkept : c.drop = false) (hop : c.op = .flushPort) (_hturn : s.selv.learns = [] ∨ s.selv.cmdTurn = true) (_hreqs : s.dict.reqs = [])
    (hquiet : s.selv.learns = []) (hbuckets : s.selv.buckets = []) (hover : s.selv.overflow = []) (hk : k ≠ 0)
    (hfew : c.next_ + k < 65537) :
    does (.macFlushByPort k) s fun t =>
      t = { s with selv := { s.selv with cmds := { c with next_ := c.next_ + k } :: r, cmdTurn := false } } :=
  ⟨_, awake_of hawake _, flushSteps_some hcmds hop hquiet hbuckets hover hk hfew⟩

theorem macFlushAll_all (s : State) (c : MacCmd) (r : List MacCmd) (i : Nat) (e : MacEntry) (k : Nat) (hawake : asleep s = false)
    (hcmds : s.selv.cmds = c :: r) (hkept : c.drop = false) (hop : c.op = .flushAll) (_hturn : s.selv.learns = [] ∨ s.selv.cmdTurn = true)
    (hreqs : s.dict.reqs = []) (hquiet : s.selv.learns = []) (hnext : c.next_ = 0) (hremoved : c.removed = 0) (hk : 65537 ≤ k)
    (hbuckets : s.selv.buckets = []) (hover : s.selv.overflow = [(i, e)]) (hdyn : e.static = false) (huni : e.group = false)
    (hvlan : c.args.vlan = 0 ∨ e.vlan.toNat = c.args.vlan.toNat) :
    does (.macFlushAll k) s fun t =>
      t.selv.overflow = [] ∧ (t.sess c.se).mac.outcome = 0 ∧ (t.sess c.se).mac.removed = 1 ∧ t.selv.cmds = r ∧ t = { s with selv := t.selv, dict := { s.dict with sess := t.dict.sess }, pair := t.pair, out := t.out } :=
  ⟨_, awake_of hawake _, flushSteps_all hcmds hkept hop hreqs hquiet hnext hremoved hk hbuckets hover hdyn huni hvlan nofun⟩

theorem macFlushAll_some (s : State) (c : MacCmd) (r : List MacCmd) (k : Nat) (hawake : asleep s = false) (hcmds : s.selv.cmds = c :: r)
    (_hkept : c.drop = false) (hop : c.op = .flushAll) (_hturn : s.selv.learns = [] ∨ s.selv.cmdTurn = true) (_hreqs : s.dict.reqs = [])
    (hquiet : s.selv.learns = []) (hbuckets : s.selv.buckets = []) (hover : s.selv.overflow = []) (hk : k ≠ 0)
    (hfew : c.next_ + k < 65537) :
    does (.macFlushAll k) s fun t =>
      t = { s with selv := { s.selv with cmds := { c with next_ := c.next_ + k } :: r, cmdTurn := false } } :=
  ⟨_, awake_of hawake _, flushSteps_some hcmds hop hquiet hbuckets hover hk hfew⟩

/-! ### The longest-match table -/

/-- The state without the longest-match command that is taken. -/
def withoutLpm (s : State) (r : List LpmCmd) : State := { s with selv := { s.selv with lpmCmds := r } }

theorem takeLpm_front {s : State} {c : LpmCmd} {r : List LpmCmd} {op : LpmOp} (hcmds : s.selv.lpmCmds = c :: r) (hop : c.op = op) :
    takeLpm s op = some (c, withoutLpm s r) := by
  simp [takeLpm, hcmds, takeFirst, hop, withoutLpm]

theorem insLpm_length (e : Lpm) (l : List Lpm) : (insLpm e l).length = l.length + 1 := by
  induction l with
  | nil => rfl
  | cons x r ih => unfold insLpm; split <;> simp [ih]

theorem mem_insLpm (e : Lpm) (l : List Lpm) : e ∈ insLpm e l := by
  induction l with
  | nil => simp [insLpm]
  | cons x r ih => unfold insLpm; split <;> simp [ih]

/-- Every address agrees with itself in its first bits. -/
theorem samePrefix_self (n : Nat) (a : BitVec 128) : samePrefix n a a = true := by
  simp [samePrefix]

theorem prefixInsert_enters (s : State) (c : LpmCmd) (r : List LpmCmd) (hawake : asleep s = false) (hcmds : s.selv.lpmCmds = c :: r)
    (hkept : c.drop = false) (hop : c.op = .insert) (hreqs : s.dict.reqs = []) (habsent : (s.selv.lpm.any fun e => lpmKey e c.args) = false)
    (hroom : s.selv.lpm.length < 16384) :
    does (.prefixInsert) s fun t =>
      t.selv.lpm.length = s.selv.lpm.length + 1 ∧ (t.selv.lpm.any fun e => lpmKey e c.args && e.hop == c.args.hop) = true ∧ (t.sess c.se).lpm.outcome = 0 ∧ t = { s with selv := { s.selv with lpmCmds := r, lpm := t.selv.lpm }, dict := { s.dict with sess := t.dict.sess } } := by
  have hexec : exec .prefixInsert s = .next (({ s with selv := { s.selv with
      lpmCmds := r, lpm := insLpm ⟨c.args.pre, c.args.len.toNat, c.args.hop, c.args.vlan, c.args.action⟩ s.selv.lpm } } : State).lpmResult c
        ({ · with outcome := 0 })) := by
    refine (awake_of hawake _).trans ?_
    simp only [takeLpm_front hcmds hop]
    rw [show ((withoutLpm s r).selv.lpm.any fun e => lpmKey e c.args) = false from habsent]
    exact if_neg (Nat.not_le.2 hroom)
  rw [lpmResult_idle _ (by exact hreqs) hkept] at hexec
  refine ⟨_, hexec, insLpm_length .., ?_, ?_, rfl⟩
  · refine List.any_eq_true.2 ⟨_, mem_insLpm .., ?_⟩
    simp [lpmKey, samePrefix_self]
  · rw [sess_setSess]

theorem prefixInsert_present (s : State) (c : LpmCmd) (r : List LpmCmd) (hawake : asleep s = false) (hcmds : s.selv.lpmCmds = c :: r)
    (hkept : c.drop = false) (hop : c.op = .insert) (hreqs : s.dict.reqs = [])
    (hpresent : (s.selv.lpm.any fun e => lpmKey e c.args) = true) :
    does (.prefixInsert) s fun t =>
      t.selv.lpm = s.selv.lpm ∧ (t.sess c.se).lpm.outcome = 4 ∧ t = { s with selv := { s.selv with lpmCmds := r, lpm := t.selv.lpm }, dict := { s.dict with sess := t.dict.sess } } := by
  have hexec : exec .prefixInsert s = .next ((withoutLpm s r).lpmResult c ({ · with outcome := 4 })) := by
    refine (awake_of hawake _).trans ?_
    simp only [takeLpm_front hcmds hop]
    exact if_pos hpresent
  rw [lpmResult_idle _ (by exact hreqs) hkept] at hexec
  refine ⟨_, hexec, rfl, ?_, rfl⟩
  rw [sess_setSess]

theorem prefixDelete_removes (s : State) (c : LpmCmd) (r : List LpmCmd) (e : Lpm) (l : List Lpm) (hawake : asleep s = false)
    (hcmds : s.selv.lpmCmds = c :: r) (hkept : c.drop = false) (hop : c.op = .delete) (hreqs : s.dict.reqs = [])
    (htaken : takeFirst (fun e => lpmKey e c.args) s.selv.lpm = some (e, l)) :
    does (.prefixDelete) s fun t =>
      t.selv.lpm = l ∧ (t.sess c.se).lpm.outcome = 0 ∧ t = { s with selv := { s.selv with lpmCmds := r, lpm := t.selv.lpm }, dict := { s.dict with sess := t.dict.sess } } := by
  have hexec : exec .prefixDelete s =
      .next (({ s with selv := { s.selv with lpmCmds := r, lpm := l } } : State).lpmResult c ({ · with outcome := 0 })) := by
    refine (awake_of hawake _).trans ?_
    simp only [takeLpm_front hcmds hop]
    rw [show takeFirst (fun e => lpmKey e c.args) (withoutLpm s r).selv.lpm = some (e, l) from htaken]
    rfl
  rw [lpmResult_idle _ (by exact hreqs) hkept] at hexec
  refine ⟨_, hexec, rfl, ?_, rfl⟩
  rw [sess_setSess]

theorem prefixExactSearch_finds (s : State) (c : LpmCmd) (r : List LpmCmd) (e : Lpm) (hawake : asleep s = false)
    (hcmds : s.selv.lpmCmds = c :: r) (hkept : c.drop = false) (hop : c.op = .search) (hreqs : s.dict.reqs = [])
    (hfound : s.selv.lpm.find? (fun e => lpmKey e c.args) = some e) :
    does (.prefixExactSearch) s fun t =>
      t.selv.lpm = s.selv.lpm ∧ ((t.sess c.se).lpm.outcome, (t.sess c.se).lpm.hop) = (0, e.hop) ∧ t = { s with selv := { s.selv with lpmCmds := r, lpm := t.selv.lpm }, dict := { s.dict with sess := t.dict.sess } } := by
  have hexec : exec .prefixExactSearch s = .next ((withoutLpm s r).lpmResult c (·.found e)) := by
    refine (awake_of hawake _).trans ?_
    simp only [takeLpm_front hcmds hop]
    rw [show ((withoutLpm s r).selv.lpm.find? fun e => lpmKey e c.args) = some e from hfound]
  rw [lpmResult_idle _ (by exact hreqs) hkept] at hexec
  refine ⟨_, hexec, rfl, ?_, rfl⟩
  rw [sess_setSess]
  rfl

theorem prefixLongestMatch_finds (s : State) (c : LpmCmd) (r : List LpmCmd) (e : Lpm) (hawake : asleep s = false)
    (hcmds : s.selv.lpmCmds = c :: r) (hkept : c.drop = false) (hop : c.op = .lookup) (hreqs : s.dict.reqs = [])
    (hfound : s.selv.lpm.find? (fun e => samePrefix e.len e.pre c.args.pre) = some e) :
    does (.prefixLongestMatch none) s fun t =>
      t.selv.lpm = s.selv.lpm ∧ ((t.sess c.se).lpm.outcome, (t.sess c.se).lpm.len.toNat, (t.sess c.se).lpm.hop) = (0, e.len % 256, e.hop) ∧ t = { s with selv := { s.selv with lpmCmds := r, lpm := t.selv.lpm }, dict := { s.dict with sess := t.dict.sess } } := by
  have hexec : exec (.prefixLongestMatch none) s = .next ((withoutLpm s r).lpmResult c (·.found e)) := by
    refine (awake_of hawake _).trans ?_
    simp only [takeLpm_front hcmds hop]
    rw [show ((withoutLpm s r).selv.lpm.find? fun e => samePrefix e.len e.pre c.args.pre) = some e from hfound]
  rw [lpmResult_idle _ (by exact hreqs) hkept] at hexec
  refine ⟨_, hexec, rfl, ?_, rfl⟩
  rw [sess_setSess]
  rfl

theorem prefixLongestMatch_empty (s : State) (c : LpmCmd) (r : List LpmCmd) (hawake : asleep s = false) (hcmds : s.selv.lpmCmds = c :: r)
    (hkept : c.drop = false) (hop : c.op = .lookup) (hreqs : s.dict.reqs = []) (hempty : s.selv.lpm = []) :
    does (.prefixLongestMatch none) s fun t =>
      (t.sess c.se).lpm.outcome = 1 ∧ t = { s with selv := { s.selv with lpmCmds := r, lpm := t.selv.lpm }, dict := { s.dict with sess := t.dict.sess } } := by
  have hexec : exec (.prefixLongestMatch none) s = .next ((withoutLpm s r).lpmResult c ({ · with outcome := 1 })) := by
    refine (awake_of hawake _).trans ?_
    simp only [takeLpm_front hcmds hop]
    rw [show (withoutLpm s r).selv.lpm = [] from hempty]
    rfl
  rw [lpmResult_idle _ (by exact hreqs) hkept] at hexec
  refine ⟨_, hexec, ?_, rfl⟩
  rw [sess_setSess]

theorem prefixNext_first (s : State) (c : LpmCmd) (r : List LpmCmd) (e : Lpm) (l : List Lpm) (hawake : asleep s = false)
    (hcmds : s.selv.lpmCmds = c :: r) (hkept : c.drop = false) (hop : c.op = .next) (hreqs : s.dict.reqs = [])
    (hpos : (s.sess c.se).lpm.pos = 0xFFFFFFFF) (htable : s.selv.lpm = e :: l) :
    does (.prefixNext) s fun t =>
      ((t.sess c.se).lpm.outcome, (t.sess c.se).lpm.pos, (t.sess c.se).lpm.hop) = (0, 0, e.hop) ∧ t.selv.lpm = s.selv.lpm ∧ t = { s with selv := { s.selv with lpmCmds := r, lpm := t.selv.lpm }, dict := { s.dict with sess := t.dict.sess } } := by
  have hexec : exec .prefixNext s = .next ((withoutLpm s r).lpmResult c fun a => { (a.found e) with pos := BitVec.ofNat 32 0 }) := by
    refine (awake_of hawake _).trans ?_
    simp only [takeLpm_front hcmds hop]
    rw [show ((withoutLpm s r).sess c.se).lpm.pos = 0xFFFFFFFF from hpos, show (withoutLpm s r).selv.lpm = e :: l from htable]
    rfl
  rw [lpmResult_idle _ (by exact hreqs) hkept] at hexec
  refine ⟨_, hexec, ?_, rfl, rfl⟩
  rw [sess_setSess]
  rfl

/-- Settles O28: each command takes the front of its queue, and its results go into that command's session. -/
theorem addressTableCommands : Obligations.AddressTableCommands :=
  ⟨macSearch_found, macSearch_absent, macNext_first, macNext_empty, macInsert_enters, macDelete_removes, macFlushByPort_all, macFlushByPort_some,
   macFlushAll_all, macFlushAll_some, prefixInsert_enters, prefixInsert_present, prefixDelete_removes, prefixExactSearch_finds,
   prefixLongestMatch_finds, prefixLongestMatch_empty, prefixNext_first⟩

end Sys2Proof.Proofs
end

section
/-! PROOFS. Learning, aging, rule-set activation, snooping and the links (O27). -/

open Sys2Proof Sys2Proof.Machine

-- One proof at a time: a thread for each proof would pass the limit that the check sets to memory.
set_option Elab.async false

namespace Sys2Proof.Proofs

/-! ### What the MAC table's operations leave of Selvedge -/

/-- Of Selvedge only the MAC table, its counts and the learn log may differ. -/
def TableAlone (v w : Selvedge) : Prop :=
  w = { v with buckets := w.buckets, overflow := w.overflow, counters := w.counters, learnLog := w.learnLog }

theorem TableAlone.refl (v : Selvedge) : TableAlone v v := rfl

theorem TableAlone.trans {u v w : Selvedge} (h : TableAlone u v) (g : TableAlone v w) : TableAlone u w := by
  unfold TableAlone at *
  rw [g, h]

theorem TableAlone.members {v w : Selvedge} (h : TableAlone v w) : w.members = v.members := by rw [h]

theorem TableAlone.routers {v w : Selvedge} (h : TableAlone v w) : w.routers = v.routers := by rw [h]

theorem macPut_tableAlone (v : Selvedge) (pos : Nat) (e : MacEntry) : TableAlone v (macPut v pos e) := by
  unfold macPut; split <;> rfl

theorem macPut_counters (v : Selvedge) (pos : Nat) (e : MacEntry) : (macPut v pos e).counters = v.counters := (macPut_selv v pos e).2

theorem macPut_learns (v : Selvedge) (pos : Nat) (e : MacEntry) : (macPut v pos e).learns = v.learns := by
  unfold macPut; split <;> rfl

theorem macPut_learnLog (v : Selvedge) (pos : Nat) (e : MacEntry) : (macPut v pos e).learnLog = v.learnLog := by
  unfold macPut; split <;> rfl

theorem macDel_tableAlone (v : Selvedge) (pos : Nat) : TableAlone v (macDel v pos) := by
  unfold macDel; split <;> rfl

theorem logLearn_tableAlone (s : State) (d : LearnDelta) : TableAlone s.selv (s.logLearn d).selv := rfl

theorem selvCount_tableAlone (s : State) (k : Nat) : TableAlone s.selv (s.selvCount k).selv := rfl

/-- An entry written and logged. -/
theorem putLogged_tableAlone (s : State) (pos : Nat) (e : MacEntry) (d : LearnDelta) :
    TableAlone s.selv (({ s with selv := macPut s.selv pos e } : State).logLearn d).selv :=
  (macPut_tableAlone s.selv pos e).trans (logLearn_tableAlone { s with selv := macPut s.selv pos e } d)

/-- An entry written, counted and logged. -/
theorem putCounted_tableAlone (s : State) (pos k : Nat) (e : MacEntry) (d : LearnDelta) :
    TableAlone s.selv ((({ s with selv := macPut s.selv pos e } : State).selvCount k).logLearn d).selv :=
  (macPut_tableAlone s.selv pos e).trans ((selvCount_tableAlone { s with selv := macPut s.selv pos e } k).trans (logLearn_tableAlone _ d))

theorem macRemove_tableAlone (s : State) (pos : Nat) : TableAlone s.selv (s.macRemove pos).selv := by
  unfold State.macRemove
  split
  · exact (macDel_tableAlone s.selv pos).trans (logLearn_tableAlone { s with selv := macDel s.selv pos } _)
  · exact .refl _

/-- What an eviction logs before the new entry takes the slot. -/
theorem evicted_tableAlone (s : State) (o : Option MacEntry) :
    TableAlone s.selv ((match o with | some x => s.logLearn (.macDel x.vlan x.mac) | none => s).freed.selvCount 0x0E).selv := by
  cases o with
  | none => exact selvCount_tableAlone s.freed 0x0E
  | some x => exact (logLearn_tableAlone s _).trans (selvCount_tableAlone (s.logLearn _).freed 0x0E)

theorem macInsert_tableAlone (s : State) (e : MacEntry) : TableAlone s.selv (s.macInsert e).2.selv := by
  simp only [State.macInsert]
  split
  · exact putCounted_tableAlone ..
  · split
    · exact putCounted_tableAlone ..
    · split
      · exact selvCount_tableAlone ..
      next i _ => exact (evicted_tableAlone s (macAt s.selv (4 * macBucket e.vlan e.mac + i))).trans (putCounted_tableAlone ..)

theorem syncGroup_tableAlone (s : State) (vlan : BitVec 12) (mac : BitVec 48) : TableAlone s.selv (s.syncGroup vlan mac).selv := by
  simp only [State.syncGroup]
  split
  · split
    · exact macRemove_tableAlone ..
    · split
      · exact .refl _
      · exact putLogged_tableAlone ..
  · split
    · exact .refl _
    · exact macInsert_tableAlone ..

/-! ### Learning and aging -/

theorem arbiter_learns {s : State} (hturn : s.selv.cmds = [] ∨ s.selv.cmdTurn = false) :
    ¬ (!s.selv.cmds.isEmpty && s.selv.cmdTurn) = true := by
  rcases hturn with h | h <;> simp [h]

/-- The state without the learn event that the arbiter applies. -/
def withoutLearn (s : State) (r : List Learn) : State := { s with selv := { s.selv with learns := r, cmdTurn := true } }

/-- The entry of a learned address. -/
def learnedEntry (ev : Learn) : MacEntry := { mac := ev.mac, vlan := ev.vlan, dest := BitVec.ofNat 20 ev.port }

theorem learnEvent_enters (s : State) (ev : Learn) (r : List Learn) (i : Nat) (hawake : asleep s = false)
    (hlearns : s.selv.learns = ev :: r) (hturn : s.selv.cmds = [] ∨ s.selv.cmdTurn = false) (habsent : macFind s.selv ev.vlan ev.mac = none)
    (hgap : lowestGap (bucketAt s.selv (macBucket ev.vlan ev.mac)) 4 = some i) :
    does (.learnEvent false) s fun t =>
      t.selv.learns = r ∧ macFind t.selv ev.vlan ev.mac = some (4 * macBucket ev.vlan ev.mac + i, { mac := ev.mac, vlan := ev.vlan, dest := BitVec.ofNat 20 ev.port }) ∧ lookD 0 t.selv.counters 0x0B = lookD 0 s.selv.counters 0x0B + 1 ∧ t.selv.learnLog = s.selv.learnLog ++ [.macSet ev.vlan ev.mac false false false (BitVec.ofNat 20 ev.port)] ∧ t = { s with selv := t.selv, pair := t.pair, out := t.out } := by
  have hexec : exec (.learnEvent false) s = .next ((withoutLearn s r).macInsert (learnedEntry ev)).2 := by
    refine (awake_of hawake _).trans ?_
    simp only [hlearns, if_neg (arbiter_learns hturn), macBad_clean]
    rw [show macFind { s.selv with learns := r, cmdTurn := true } ev.vlan ev.mac = none from habsent]
    rfl
  have hfound := macFind_macInsert (s := withoutLearn s r) (e := learnedEntry ev) habsent hgap
  rw [macInsert_free (s := withoutLearn s r) (e := learnedEntry ev) hgap] at hexec hfound
  refine ⟨_, hexec, macPut_learns .., hfound, ?_, ?_, rfl⟩
  · refine (lookD_upd_same ..).trans ?_
    rw [macPut_counters]
    rfl
  · exact congrArg (· ++ _) (macPut_learnLog ..)

/-- A dynamic entry that has moved to another port, below its limit of moves. -/
def movedEntry (e : MacEntry) (port : Nat) : MacEntry :=
  { e with dest := BitVec.ofNat 20 port, moves := e.moves + 1, hit := true, suspended := false }

theorem learnEvent_moves (s : State) (ev : Learn) (r : List Learn) (pos : Nat) (e : MacEntry) (hawake : asleep s = false)
    (hlearns : s.selv.learns = ev :: r) (hturn : s.selv.cmds = [] ∨ s.selv.cmdTurn = false)
    (hfound : macFind s.selv ev.vlan ev.mac = some (pos, e)) (hport : e.dest.toNat ≠ ev.port) (hdyn : e.static = false)
    (hfree : e.suspended = false) (hlimit : e.moves.toNat + 1 ≤ par s 0x3010 2) (hmoves : e.moves.toNat < 15) :
    does (.learnEvent false) s fun t =>
      t.selv.learns = r ∧ lookD 0 t.selv.counters 0x0C = lookD 0 s.selv.counters 0x0C + 1 ∧ t.selv.learnLog = s.selv.learnLog ++ [.macSet e.vlan e.mac e.group false false (BitVec.ofNat 20 ev.port)] ∧ t = { s with selv := t.selv, pair := t.pair, out := t.out } := by
  have hbelow : e.moves ≠ 15 := fun h => absurd hmoves (by rw [h]; decide)
  have hcount : (e.moves + 1).toNat = e.moves.toNat + 1 := by
    rw [BitVec.toNat_add]
    exact Nat.mod_eq_of_lt (by simpa using Nat.succ_lt_succ hmoves)
  have hstays : decide (par s 0x3010 2 < (e.moves + 1).toNat) = false := decide_eq_false (by omega)
  have hexec : exec (.learnEvent false) s = .next (((({ withoutLearn s r with
      selv := macPut (withoutLearn s r).selv pos (movedEntry e ev.port) } : State).selvCount 0x0C).logLearn (movedEntry e ev.port).delta)) := by
    refine (awake_of hawake _).trans ?_
    simp only [hlearns, if_neg (arbiter_learns hturn), macBad_clean]
    rw [show macFind { s.selv with learns := r, cmdTurn := true } ev.vlan ev.mac = some (pos, e) from hfound]
    simp only [if_neg hport, hdyn, hfree, if_neg hbelow, Bool.false_eq_true, if_false]
    simp only [hstays, movedEntry, Bool.false_eq_true, if_false, hdyn]
    rfl
  refine ⟨_, hexec, macPut_learns .., ?_, ?_, rfl⟩
  · refine (lookD_upd_same ..).trans ?_
    rw [macPut_counters]
    rfl
  · refine (congrArg (· ++ _) (macPut_learnLog ..)).trans ?_
    simp only [MacEntry.delta, movedEntry, hdyn]
    rfl

theorem agingScan_keeps (s : State) (i : Nat) (e : MacEntry) (e1 : MacEntry) (hawake : asleep s = false) (hserves : serves s = true)
    (hdue : s.selv.lastScan + 1000000000 ≤ s.clk.now) (hbuckets : s.selv.buckets = []) (hover : s.selv.overflow = [(i, e)])
    (haged : aged (par s 0x3010 1) e = some e1) :
    does (.agingScan) s fun t =>
      t.selv.overflow = [(i, e1)] ∧ t.selv.lastScan = s.clk.now ∧ t.selv.counters = s.selv.counters ∧ t.dict = s.dict := by
  have hscan : ¬ (serves s = false ∨ s.clk.now < s.selv.lastScan + 1000000000) := by simp [hserves, hdue]
  have hat : macAt ({ s.selv with lastScan := s.clk.now }) (262144 + i) = some e := by simp [macAt, hover, look]
  let s1 : State := { s with selv := macPut { s.selv with lastScan := s.clk.now } (262144 + i) e1 }
  have hexec : exec .agingScan s = .next (if e.suspended && !e1.suspended then s1.logLearn e1.delta else s1) := by
    refine (awake_of hawake _).trans ((if_neg hscan).trans ?_)
    simp only [macPositions_sole hbuckets hover, List.foldl_cons, List.foldl_nil, hat]
    rw [show aged (par { s with selv := { s.selv with lastScan := s.clk.now } } 0x3010 1) e = some e1 from haged]
  have hput : macPut { s.selv with lastScan := s.clk.now } (262144 + i) e1 =
      { s.selv with lastScan := s.clk.now, overflow := [(i, e1)] } := by
    simp [macPut, hover, put]
  refine ⟨_, hexec, ?_⟩
  split <;> simp [s1, hput, State.logLearn]

theorem agingScan_removes (s : State) (i : Nat) (e : MacEntry) (hawake : asleep s = false) (hserves : serves s = true)
    (hdue : s.selv.lastScan + 1000000000 ≤ s.clk.now) (hbuckets : s.selv.buckets = []) (hover : s.selv.overflow = [(i, e)])
    (hdyn : e.static = false) (huni : e.group = false) (hquiet : e.hit = false) (hlimit : par s 0x3010 1 ≤ e.age.toNat + 1)
    (hage : e.age.toNat < 1048575) :
    does (.agingScan) s fun t =>
      t.selv.overflow = [] ∧ lookD 0 t.selv.counters 0x10 = lookD 0 s.selv.counters 0x10 + 1 ∧ t.selv.learnLog = s.selv.learnLog ++ [.macDel e.vlan e.mac] ∧ t.dict = s.dict := by
  have hscan : ¬ (serves s = false ∨ s.clk.now < s.selv.lastScan + 1000000000) := by simp [hserves, hdue]
  have hat : macAt ({ s.selv with lastScan := s.clk.now }) (262144 + i) = some e := by simp [macAt, hover, look]
  have hbelow : e.age ≠ 1048575 := fun h => absurd hage (by rw [h]; decide)
  have hcount : (e.age + 1).toNat = e.age.toNat + 1 := by
    rw [BitVec.toNat_add]
    exact Nat.mod_eq_of_lt (by simpa using Nat.succ_lt_succ hage)
  have haged : aged (par s 0x3010 1) e = none := by
    simp only [aged, hdyn, huni, hquiet, if_neg hbelow, hcount, if_pos hlimit, Bool.false_eq_true, or_self, if_false]
  have hexec : exec .agingScan s = .next
      ((({ s with selv := { s.selv with lastScan := s.clk.now } } : State).macRemove (262144 + i)).selvCount 0x10) := by
    refine (awake_of hawake _).trans ((if_neg hscan).trans ?_)
    simp only [macPositions_sole hbuckets hover, List.foldl_cons, List.foldl_nil, hat]
    rw [show aged (par { s with selv := { s.selv with lastScan := s.clk.now } } 0x3010 1) e = none from haged]
  rw [macRemove_sole (by exact hover)] at hexec
  exact ⟨_, hexec, rfl, lookD_upd_same .., rfl, rfl⟩

/-! ### Rule-set activation -/

/-- The state after a rule set's activation, before it is stored. -/
def activated (s : State) (r : List Act) (g : RuleGen) : State :=
  { s with
    dict := { s.dict with acts := r }
    selv := { s.selv with
      active := { g with num := s.selv.active.num + 1, held := 0 }, standby := none
      oldGens := if s.selv.active.held = 0 then s.selv.oldGens else s.selv.oldGens ++ [s.selv.active] } }

theorem rulesetActivate_next {s : State} {x : Act} {r : List Act} {g : RuleGen} (hawake : asleep s = false)
    (hact : takeFirst (fun a : Act => a.idx.toNat == 0x3031 && a.sub.toNat == 1) s.dict.acts = some (x, r))
    (hstandby : s.selv.standby = some g) : exec .rulesetActivate s = .next (activated s r g).storeRules := by
  refine (awake_of hawake _).trans ?_
  simp only [State.takeAct, hact, Option.map_some, hstandby]
  rfl

theorem rulesetActivate_stores (s : State) (x : Act) (r : List Act) (g : RuleGen) (hawake : asleep s = false)
    (hact : takeFirst (fun a : Act => a.idx.toNat == 0x3031 && a.sub.toNat == 1) s.dict.acts = some (x, r))
    (hstandby : s.selv.standby = some g) (hopen : storeOpen s = true) (hreplayed : s.boot.replayed = true) :
    does (.rulesetActivate) s fun t =>
      t.selv.active = { g with num := s.selv.active.num + 1, held := 0 } ∧ t.selv.standby = none ∧ t.store = { s.store with ruleset := g.image, rulesLater := false } ∧ t = { s with dict := { s.dict with acts := r }, selv := t.selv, store := t.store } := by
  have hstored : (activated s r g).storeRules = { activated s r g with store := { s.store with ruleset := g.image, rulesLater := false } } := by
    have hbarred : ¬ (!(storeOpen (activated s r g)) || !(activated s r g).boot.replayed) = true := by
      change ¬ (!(storeOpen s) || !s.boot.replayed) = true
      simp [hopen, hreplayed]
    exact if_neg hbarred
  refine ⟨_, rulesetActivate_next hawake hact hstandby, ?_⟩
  rw [hstored]
  exact ⟨rfl, rfl, rfl, rfl⟩

theorem rulesetActivate_barred (s : State) (x : Act) (r : List Act) (g : RuleGen) (hawake : asleep s = false)
    (hact : takeFirst (fun a : Act => a.idx.toNat == 0x3031 && a.sub.toNat == 1) s.dict.acts = some (x, r))
    (hstandby : s.selv.standby = some g) (hbarred : storeOpen s = false ∨ s.boot.replayed = false) :
    does (.rulesetActivate) s fun t =>
      t.selv.active = { g with num := s.selv.active.num + 1, held := 0 } ∧ t.selv.standby = none ∧ t = { s with dict := { s.dict with acts := r }, selv := t.selv } := by
  have hkept : (activated s r g).storeRules = activated s r g := by
    refine if_pos ?_
    change (!(storeOpen s) || !s.boot.replayed) = true
    rcases hbarred with h | h <;> simp [h]
  refine ⟨_, rulesetActivate_next hawake hact hstandby, ?_⟩
  rw [hkept]
  exact ⟨rfl, rfl, rfl⟩

/-! ### Snooping -/

theorem setMember_members (s : State) (v : BitVec 12) (mac : BitVec 48) (port u : Nat) :
    (s.setMember v mac port u).selv.members = aput s.selv.members (v, mac, port) u :=
  (syncGroup_tableAlone _ v mac).members

theorem setMember_routers (s : State) (v : BitVec 12) (mac : BitVec 48) (port u : Nat) :
    (s.setMember v mac port u).selv.routers = s.selv.routers :=
  (syncGroup_tableAlone _ v mac).routers

theorem setMember_touches (s : State) (v : BitVec 12) (mac : BitVec 48) (port u : Nat) :
    Touches [.clk, .selv, .pair, .out] s (s.setMember v mac port u) :=
  (Touches.refl s).setSelv.syncGroup

theorem dropMember_sole {s : State} {v : BitVec 12} {mac : BitVec 48} {port u : Nat} (hsole : s.selv.members = [((v, mac, port), u)]) :
    (s.dropMember v mac port).selv.members = [] :=
  (syncGroup_tableAlone _ v mac).members.trans (by simp [hsole, adel])

theorem dropMember_routers (s : State) (v : BitVec 12) (mac : BitVec 48) (port : Nat) :
    (s.dropMember v mac port).selv.routers = s.selv.routers :=
  (syncGroup_tableAlone _ v mac).routers

theorem dropMember_touches (s : State) (v : BitVec 12) (mac : BitVec 48) (port : Nat) :
    Touches [.clk, .selv, .pair, .out] s (s.dropMember v mac port) :=
  (Touches.refl s).setSelv.syncGroup

theorem snoopReport_sets (s : State) (port : Fin 16) (v : BitVec 12) (mac : BitVec 48) (hawake : asleep s = false)
    (hsnoop : parB s 0x3060 1 = true) :
    does (.snoopReport port v mac) s fun t =>
      alook t.selv.members (v, mac, port.val) = some (s.clk.now + par s 0x3060 2 * 1000000000) ∧ t.selv.routers = s.selv.routers ∧ t.dict = s.dict ∧ t.trans = s.trans := by
  have hall := setMember_touches s v mac port (s.clk.now + par s 0x3060 2 * 1000000000)
  exact ⟨_, (awake_of hawake _).trans (if_pos hsnoop), (congrArg (alook · _) (setMember_members ..)).trans (alook_aput_same ..),
    setMember_routers .., hall.same .dict, hall.same .trans⟩

theorem snoopLeave_cuts (s : State) (port : Fin 16) (v : BitVec 12) (mac : BitVec 48) (u : Nat) (hawake : asleep s = false)
    (hsnoop : parB s 0x3060 1 = true) (hslow : parB s 0x3060 3 = false) (hmember : alook s.selv.members (v, mac, port.val) = some u) :
    does (.snoopLeave port v mac) s fun t =>
      alook t.selv.members (v, mac, port.val) = some (min u (s.clk.now + 2000000000)) ∧ t.selv.routers = s.selv.routers ∧ t.dict = s.dict ∧ t.trans = s.trans := by
  have hexec : exec (.snoopLeave port v mac) s = .next (s.setMember v mac port (min u (s.clk.now + 2000000000))) := by
    refine (awake_of hawake _).trans ?_
    simp only [hsnoop, hslow, hmember]
    rfl
  have hall := setMember_touches s v mac port (min u (s.clk.now + 2000000000))
  exact ⟨_, hexec, (congrArg (alook · _) (setMember_members ..)).trans (alook_aput_same ..), setMember_routers .., hall.same .dict, hall.same .trans⟩

theorem snoopLeave_ends (s : State) (port : Fin 16) (v : BitVec 12) (mac : BitVec 48) (u : Nat) (hawake : asleep s = false)
    (hsnoop : parB s 0x3060 1 = true) (hfast : parB s 0x3060 3 = true) (hsole : s.selv.members = [((v, mac, port.val), u)]) :
    does (.snoopLeave port v mac) s fun t =>
      t.selv.members = [] ∧ t.selv.routers = s.selv.routers ∧ t.dict = s.dict ∧ t.trans = s.trans := by
  have hexec : exec (.snoopLeave port v mac) s = .next (s.dropMember v mac port) := by
    refine (awake_of hawake _).trans ?_
    simp only [hsnoop, hfast]
    rfl
  have hall := dropMember_touches s v mac port
  exact ⟨_, hexec, dropMember_sole hsole, dropMember_routers .., hall.same .dict, hall.same .trans⟩

theorem snoopQueryReceived_notes (s : State) (port : Fin 16) (v : BitVec 12) (q : Bool) (ip : BitVec 128) (hawake : asleep s = false)
    (hsnoop : parB s 0x3060 1 = true) :
    does (.snoopQueryReceived port v q ip) s fun t =>
      alook t.selv.routers (v, port.val) = some (s.clk.now + par s 0x3060 2 * 1000000000) ∧ t.selv.queriers = (if q = true ∧ ip.toNat < querierIp s (decide (ip.toNat / 2 ^ 32 = 0xFFFF)) then aput s.selv.queriers (v, (decide (ip.toNat / 2 ^ 32 = 0xFFFF))) (s.clk.now + 255000000000) else s.selv.queriers) ∧ t = { s with selv := t.selv } := by
  refine ⟨_, (awake_of hawake _).trans (if_neg (by simp [hsnoop])), alook_aput_same .., ?_, rfl⟩
  simp only [Bool.and_eq_true, decide_eq_true_eq]

theorem membershipExpiry_ends (s : State) (port : Fin 16) (v : BitVec 12) (mac : BitVec 48) (u : Nat) (hawake : asleep s = false)
    (hserves : serves s = true) (hsole : s.selv.members = [((v, mac, port.val), u)]) (hpast : u ≤ s.clk.now) :
    does (.membershipExpiry port v (some mac)) s fun t =>
      t.selv.members = [] ∧ t.dict = s.dict ∧ t.trans = s.trans := by
  have hexec : exec (.membershipExpiry port v (some mac)) s = .next (s.dropMember v mac port) := by
    refine (awake_of hawake _).trans ?_
    simp only [hserves, hsole, alook, if_true, if_pos hpast]
    rfl
  have hall := dropMember_touches s v mac port
  exact ⟨_, hexec, dropMember_sole hsole, hall.same .dict, hall.same .trans⟩

theorem membershipExpiry_router (s : State) (port : Fin 16) (v : BitVec 12) (u : Nat) (hawake : asleep s = false)
    (hserves : serves s = true) (hsole : s.selv.routers = [((v, port.val), u)]) (hpast : u ≤ s.clk.now) :
    does (.membershipExpiry port v none) s fun t =>
      t = { s with selv := { s.selv with routers := [] } } := by
  refine ⟨_, ?_, rfl⟩
  refine (awake_of hawake _).trans ?_
  simp only [hserves, hsole, alook, if_true, if_pos hpast, adel]
  simp

/-- A general query that is due notes its time, and of Selvedge nothing else. -/
theorem generalQuery_selv {s : State} {v : BitVec 12} {v4 : Bool} (hnever : look s.selv.lastQuery (2 * v.toNat + b2n v4) = none)
    (halone : otherQuerier s v v4 = false) :
    (s.generalQuery v v4).selv = { s.selv with lastQuery := put s.selv.lastQuery (2 * v.toNat + b2n v4) s.clk.now } := by
  simp only [State.generalQuery, hnever, halone, Bool.not_true, Bool.or_false, Bool.false_eq_true, if_false]
  let s0 : State := { (s.freed) with selv := { s.selv with lastQuery := put s.selv.lastQuery (2 * v.toNat + b2n v4) s.clk.now } }
  exact (Touches.foldl (l := [.clk, .trans, .intc, .bpm, .mem, .out]) (Touches.refl s0) fun _ _ hu => hu.enqueueCopy).same .selv

theorem generalQuerySend_notes (s : State) (v : BitVec 12) (hawake : asleep s = false) (hserves : serves s = true)
    (hquerier : parB s 0x3060 4 = true) (hsnoop : parB s 0x3060 1 = true)
    (hnever : look s.selv.lastQuery (2 * v.toNat) = none ∧ look s.selv.lastQuery (2 * v.toNat + 1) = none)
    (halone : otherQuerier s v true = false ∧ otherQuerier s v false = false) (hmembers : vlanEntry s v.toNat % 65536 ≠ 0) :
    does (.generalQuerySend v) s fun t =>
      look t.selv.lastQuery (2 * v.toNat) = some s.clk.now ∧ look t.selv.lastQuery (2 * v.toNat + 1) = some s.clk.now ∧ t.dict = s.dict ∧ t.encs = s.encs ∧ t.boot = s.boot := by
  obtain ⟨hnever6, hnever4⟩ := hnever
  obtain ⟨halone4, halone6⟩ := halone
  have hsends : ¬ (!(serves s) || !(parB s 0x3060 4) || !(parB s 0x3060 1) || vlanEntry s v.toNat % 65536 == 0) = true := by
    simp [hserves, hquerier, hsnoop, hmembers]
  have hfirst : Touches [.clk, .selv, .trans, .intc, .bpm, .mem, .out] s (s.generalQuery v true) := (Touches.refl s).generalQuery
  have hselv := generalQuery_selv (v4 := true) hnever4 halone4
  have hnow : (s.generalQuery v true).clk.now = s.clk.now := by rw [hfirst.ticks]
  have hnext : look (s.generalQuery v true).selv.lastQuery (2 * v.toNat + b2n false) = none := by
    rw [hselv]
    exact (look_put_ne _ _ (by simp [b2n])).trans hnever6
  have hstill : otherQuerier (s.generalQuery v true) v false = false := by
    refine Eq.trans ?_ halone6
    simp only [otherQuerier, hselv, hnow]
  have hselv' := generalQuery_selv (v4 := false) hnext hstill
  have hall := hfirst.generalQuery (vlan := v) (v4 := false)
  refine ⟨_, (awake_of hawake _).trans (if_neg hsends), ?_, ?_, hall.same .dict, hall.same .encs, hall.same .boot⟩
  · rw [hselv', hnow]
    exact look_put_same ..
  · rw [hselv']
    refine (look_put_ne _ _ (by simp [b2n])).trans ?_
    rw [hselv]
    exact look_put_same ..

/-! ### Links -/

theorem downFlush_links (s : State) (port : Nat) : (s.downFlush port).selv.links = s.selv.links := by
  unfold State.downFlush; split <;> rfl

theorem linkDown_links {s : State} {port : Nat} (hup : linkUp s port = true) :
    (s.linkDown port).selv.links = s.selv.links &&& ~~~((1 : BitVec 16) <<< port) := by
  simp only [State.linkDown, hup, Bool.not_true, Bool.false_eq_true, if_false]
  have hkept (r : List Nat) (u : State) : (r.foldl (fun s q => s.discardQueue q) u).selv = u.selv :=
    (Touches.foldl (l := [.clk, .pins, .store, .paths, .trans, .intc, .bpm, .mem, .faults, .out]) (Touches.refl u)
      fun _ _ hu => hu.discardQueue).same .selv
  split
  · rw [downFlush_links, hkept]
  · rw [hkept]

/-- The bit of a port among the links. -/
theorem portBit_getLsbD (port : Fin 16) (k : Nat) : ((1 : BitVec 16) <<< port.val).getLsbD k = decide (k = port.val) :=
  gpioBit_getLsbD port k

theorem linkDown_clears (s : State) (port : Fin 16) (hawake : asleep s = false) (hup : linkUp s port = true) :
    does (.linkDown port) s fun t =>
      linkUp t port = false ∧ (∀ p, p < 16 → p ≠ port.val → linkUp t p = linkUp s p) ∧ t.dict = s.dict ∧ t.encs = s.encs ∧ t.boot = s.boot := by
  have hall : Touches [.clk, .pins, .store, .paths, .selv, .trans, .intc, .bpm, .mem, .faults, .out] s (s.linkDown port) :=
    (Touches.refl s).linkDown
  refine ⟨_, awake_of hawake _, ?_, fun p hp hne => ?_, hall.same .dict, hall.same .encs, hall.same .boot⟩
  · rw [linkUp, linkDown_links hup, BitVec.getLsbD_and, BitVec.getLsbD_not, portBit_getLsbD]
    simp
  · rw [linkUp, linkUp, linkDown_links hup, BitVec.getLsbD_and, BitVec.getLsbD_not, portBit_getLsbD]
    simp [hp, hne]

theorem linkUp_sets (s : State) (port : Fin 16) (hawake : asleep s = false) (hselvedge : s.boot.selvedge = true)
    (hactive : portActive s port = true) :
    does (.linkUp port) s fun t =>
      linkUp t port = true ∧ (∀ p, p < 16 → p ≠ port.val → linkUp t p = linkUp s p) ∧ t = { s with selv := { s.selv with links := t.selv.links } } := by
  refine ⟨_, (awake_of hawake _).trans (if_pos (by simp [hselvedge, hactive])), ?_, fun p hp hne => ?_, rfl⟩
  · simp only [linkUp, BitVec.getLsbD_or, portBit_getLsbD]
    simp
  · simp only [linkUp, BitVec.getLsbD_or, portBit_getLsbD]
    simp [hne]

/-- Settles O27: each command's branch is stated with what the MAC table's operations leave of Selvedge. -/
theorem learningAndTheLinks : Obligations.LearningAndTheLinks :=
  ⟨learnEvent_enters, learnEvent_moves, agingScan_keeps, agingScan_removes, rulesetActivate_stores, rulesetActivate_barred, snoopReport_sets,
   snoopLeave_cuts, snoopLeave_ends, snoopQueryReceived_notes, membershipExpiry_ends, membershipExpiry_router, generalQuerySend_notes,
   linkDown_clears, linkUp_sets⟩

end Sys2Proof.Proofs
end

section
/-! PROOFS. Receiver reports, presence and returned seals (O30). -/

open Sys2Proof Sys2Proof.Machine

-- One proof at a time: a thread for each proof would pass the limit that the check sets to memory.
set_option Elab.async false

namespace Sys2Proof.Proofs

/-! ### Presence -/

theorem ep_of_trans {s t : State} (h : t.trans = s.trans) (e : Nat) : t.ep e = s.ep e := by rw [State.ep, State.ep, h]

theorem ep_transCount (s : State) (k e : Nat) : (s.transCount k).ep e = s.ep e := rfl

theorem seals_transCount (s : State) (k : Nat) : (s.transCount k).trans.seals = s.trans.seals := rfl

theorem lastScan_transCount (s : State) (k : Nat) : (s.transCount k).trans.lastScan = s.trans.lastScan := rfl

theorem counters_transCount (s : State) (k : Nat) : lookD 0 (s.transCount k).trans.counters k = lookD 0 s.trans.counters k + 1 :=
  lookD_upd_same ..

/-- A change of presence shows in the transport as the endpoint's flag alone. -/
theorem presence_trans (s : State) (e : Nat) (on : Bool) : (s.presence e on).trans = (s.setEp e { s.ep e with present := on }).trans :=
  State.raise_trans ..

theorem presenceScan_absent (s : State) (e : Nat) (v : Endpoint) (hawake : asleep s = false) (hserves : serves s = true)
    (hdue : s.trans.lastScan + 250000000 ≤ s.clk.now) (hsole : s.trans.endpoints = [(e, v)]) (hvalid : epValid s e = true)
    (hpresent : v.present = true) (hlate : v.lastReport + par s 0x3080 1 * 1000000000 ≤ s.clk.now) :
    does (.presenceScan) s fun t =>
      t.ep e = { v with present := false } ∧ t.trans.lastScan = s.clk.now ∧ lookD 0 t.trans.counters 9 = lookD 0 s.trans.counters 9 + 1 ∧ t.encs = s.encs ∧ t.dict = s.dict := by
  have hscan : ¬ (serves s = false ∨ s.clk.now < s.trans.lastScan + 250000000) := by simp [hserves, hdue]
  let s1 : State := { s with trans := { s.trans with lastScan := s.clk.now } }
  have hexec : exec .presenceScan s = .next ((s1.presence e false).transCount 9) := by
    have hgone : (s.trans.endpoints.filterMap fun q =>
        if epValid s q.1 = true ∧ q.2.present = true ∧ q.2.lastReport + par s 0x3080 1 * 1000000000 ≤ s.clk.now then some q.1 else none) = [e] := by
      simp [hsole, hvalid, hpresent, hlate]
    refine (awake_of hawake _).trans ((if_neg hscan).trans ?_)
    simp only [hgone, List.foldl_cons, List.foldl_nil]
    rfl
  have hep : s1.ep e = v := by simp [s1, State.ep, hsole, lookD, look]
  have htrans := presence_trans s1 e false
  have hall : Touches [.selv, .trans, .intc, .mem, .pair, .out] s (s1.presence e false) := (Touches.refl s).setTrans.presence
  have hall' := hall.setTrans (x := { (s1.presence e false).trans with counters := bump (s1.presence e false).trans.counters 9 })
  refine ⟨_, hexec, ?_, ?_, ?_, hall'.same .encs, hall'.same .dict⟩
  · rw [ep_transCount, ep_of_trans htrans, State.ep_setEp, hep]
  · rw [lastScan_transCount, htrans]
    rfl
  · rw [counters_transCount, htrans]
    rfl

theorem presenceScan_quiet (s : State) (hawake : asleep s = false) (hserves : serves s = true)
    (hdue : s.trans.lastScan + 250000000 ≤ s.clk.now)
    (hheard : s.trans.endpoints.all (fun q => decide (s.clk.now < q.2.lastReport + par s 0x3080 1 * 1000000000)) = true) :
    does (.presenceScan) s fun t =>
      t = { s with trans := { s.trans with lastScan := s.clk.now } } := by
  have hscan : ¬ (serves s = false ∨ s.clk.now < s.trans.lastScan + 250000000) := by simp [hserves, hdue]
  have hnone : (s.trans.endpoints.filterMap fun q =>
      if epValid s q.1 = true ∧ q.2.present = true ∧ q.2.lastReport + par s 0x3080 1 * 1000000000 ≤ s.clk.now then some q.1 else none) = [] := by
    refine List.filterMap_eq_nil_iff.2 fun q hq => if_neg fun h => ?_
    exact absurd (of_decide_eq_true (List.all_eq_true.1 hheard q hq)) (Nat.not_lt.2 h.2.2)
  refine ⟨_, (awake_of hawake _).trans ((if_neg hscan).trans ?_), rfl⟩
  rw [hnone]
  rfl

/-! ### Receiver reports -/

/-- The endpoint's row after a report: when it came, and what its block for the stream says. -/
def heardFrom (s : State) (e : Nat) (rr : Bytes) : State :=
  let s1 := s.setEp e { s.ep e with lastReport := s.clk.now }
  match reportBlock rr (streamSsrc s (fld s 0x8005 e 2)) with
  | some (l, j) => s1.setEp e { s1.ep e with loss := BitVec.ofNat 8 l, jitter := BitVec.ofNat 32 j }
  | none => s1

theorem heardFrom_lastReport (s : State) (e : Nat) (rr : Bytes) : ((heardFrom s e rr).ep e).lastReport = s.clk.now := by
  unfold heardFrom
  split <;> simp

theorem heardFrom_seals (s : State) (e : Nat) (rr : Bytes) : (heardFrom s e rr).trans.seals = s.trans.seals := by
  unfold heardFrom
  dsimp only
  split <;> rfl

theorem heardFrom_touches (s : State) (e : Nat) (rr : Bytes) : Touches [.trans] s (heardFrom s e rr) := by
  unfold heardFrom
  dsimp only
  split
  · exact (Touches.refl s).setEp.setEp
  · exact (Touches.refl s).setEp

/-- The endpoint is present from its report on. -/
def markPresent (s : State) (e : Nat) : State := if (s.ep e).present then s else (s.presence e true).transCount 0xA

theorem markPresent_ep (s : State) (e : Nat) : (markPresent s e).ep e = { s.ep e with present := true } := by
  unfold markPresent
  split
  next hpresent => rw [← hpresent]
  next =>
    rw [ep_transCount, ep_of_trans (presence_trans s e true), State.ep_setEp]

theorem markPresent_seals (s : State) (e : Nat) : (markPresent s e).trans.seals = s.trans.seals := by
  unfold markPresent
  split
  · rfl
  · rw [seals_transCount, presence_trans]
    rfl

theorem markPresent_touches (s : State) (e : Nat) : Touches [.selv, .trans, .intc, .mem, .pair, .out] s (markPresent s e) := by
  unfold markPresent
  split
  · exact Touches.refl s
  · exact (Touches.refl s).presence.setTrans

/-- The report goes on to firmware where it asks for it. -/
def tellReport (s : State) (asked : Bool) (b : Bytes) : State := if asked then s.tell 0x356 b else s

theorem tellReport_touches (s : State) (asked : Bool) (b : Bytes) : Touches [.out] s (tellReport s asked b) := by
  unfold tellReport
  split
  · exact (Touches.refl s).tell
  · exact Touches.refl s

theorem rtcpReceive_present (s : State) (ip : BitVec 128) (port : BitVec 16) (b : Bytes) (rr : Bytes) (rest : List Bytes) (app : Bytes) (e : Nat)
    (hawake : asleep s = false) (hlength : b.length ≤ 65507) (hparts : rtcpParts b.length b = some (rr :: rest))
    (happ : (rr :: rest).filter isSealApp = [app]) (hendpoint : be32 app 0x0C = e) (hreport : u8 rr 1 = 201) (hrange : e < 2 ^ 20)
    (hvalid : epValid s e = true) (hfrom : beNat (fldBytes s 0x8005 e 3) = ip.toNat)
    (hport : fld s 0x8001 (fld s 0x8005 e 2) 0x23 = port.toNat) (hstream : encValid s (fld s 0x8005 e 2) = true)
    (hseal : be32 app 0x10 ≠ 0xFFFFFFFF) (hchecked : fldB s 0x8005 e 0x22 = true) (hroom : s.trans.seals.length < 4096) :
    does (.rtcpReceive ip port b) s fun t =>
      (t.ep e).present = true ∧ (t.ep e).lastReport = s.clk.now ∧ t.trans.seals = s.trans.seals ++ [⟨e, BitVec.ofNat 32 (be32 app 0x10), BitVec.ofNat 8 (u8 app 0 % 32), BitVec.ofNat 64 (beNat (slice app 0x14 8)), s.clk.now⟩] ∧ t.encs = s.encs ∧ t.dict = s.dict := by
  subst hendpoint
  let s4 := tellReport (markPresent (heardFrom s (be32 app 0x0C) rr) (be32 app 0x0C)) (parB s 0x3080 2) b
  have htold := tellReport_touches (markPresent (heardFrom s (be32 app 0x0C) rr) (be32 app 0x0C)) (parB s 0x3080 2) b
  have htrans : s4.trans = (markPresent (heardFrom s (be32 app 0x0C) rr) (be32 app 0x0C)).trans := htold.same .trans
  have hseals : s4.trans.seals = s.trans.seals := by rw [htrans, markPresent_seals, heardFrom_seals]
  have hep : s4.ep (be32 app 0x0C) = { (heardFrom s (be32 app 0x0C) rr).ep (be32 app 0x0C) with present := true } := by
    rw [← markPresent_ep]
    exact ep_of_trans htrans _
  have hall : Touches [.selv, .trans, .intc, .mem, .pair, .out] s s4 :=
    ((heardFrom_touches ..).mono (by decide)).trans ((markPresent_touches ..).trans (htold.mono (by decide)))
  have hexec : exec (.rtcpReceive ip port b) s = .next { s4 with trans := { s4.trans with seals := s4.trans.seals ++
      [⟨be32 app 0x0C, BitVec.ofNat 32 (be32 app 0x10), BitVec.ofNat 8 (u8 app 0 % 32), BitVec.ofNat 64 (beNat (slice app 0x14 8)), s.clk.now⟩] } } := by
    refine (awake_of hawake _).trans ((if_pos (by simpa [Instr.wellFormed, Instr.masters] using hlength)).trans ?_)
    have hgood : ¬ (u8 rr 1 ≠ 201 ∨ 2 ^ 20 ≤ be32 app 0x0C ∨ epValid s (be32 app 0x0C) = false ∨
        beNat (fldBytes s 0x8005 (be32 app 0x0C) 3) ≠ ip.toNat ∨ fld s 0x8001 (fld s 0x8005 (be32 app 0x0C) 2) 0x23 ≠ port.toNat ∨
        encValid s (fld s 0x8005 (be32 app 0x0C) 2) = false) := by
      simpa [hreport, hvalid, hfrom, hport, hstream] using hrange
    have hcheck : ¬ (be32 app 0x10 = 0xFFFFFFFF ∨ fldB s 0x8005 (be32 app 0x0C) 0x22 = false) := by simp [hseal, hchecked]
    simp only [hparts, happ]
    refine (if_neg hgood).trans ((if_neg hcheck).trans ?_)
    exact if_neg (Nat.not_le.2 (hseals ▸ hroom))
  refine ⟨_, hexec, ?_, ?_, congrArg (· ++ _) hseals, hall.same .encs, hall.same .dict⟩
  · exact congrArg Endpoint.present hep
  · exact (congrArg Endpoint.lastReport hep).trans (heardFrom_lastReport ..)

theorem rtcpReceive_malformed (s : State) (ip : BitVec 128) (port : BitVec 16) (b : Bytes) (hawake : asleep s = false)
    (hlength : b.length ≤ 65507) (hparts : rtcpParts b.length b = none) :
    does (.rtcpReceive ip port b) s fun t =>
      t = { s with trans := { s.trans with counters := bump s.trans.counters 2 } } := by
  refine ⟨_, (awake_of hawake _).trans ((if_pos (by simpa [Instr.wellFormed, Instr.masters] using hlength)).trans ?_), rfl⟩
  rw [hparts]
  rfl

/-! ### Returned seals -/

/-- The state without the returned seal that is checked. -/
def withoutSeal (s : State) (l : List SealIn) : State := { s with trans := { s.trans with seals := l } }

/-- The endpoint's own seal of a record's picture. -/
def wantedSeal (s : State) (q : SealIn) (r : SealRec) : Nat :=
  endpointSeal r.sealMode.toNat q.endpoint (encN s (fld s 0x8005 q.endpoint 2)) r.recon.toNat

theorem sealCheck_matches (s : State) (q : SealIn) (l : List SealIn) (r : SealRec) (hawake : asleep s = false)
    (htaken : takeFirst (fun q => !(sealWaits s q)) s.trans.seals = some (q, l)) (hrecord : sealRecord s q = some r)
    (hframe : r.frame = q.frame) (hvalid : r.sealValid = true) (hmode : r.sealMode = q.sealMode)
    (hequal : endpointSeal r.sealMode.toNat q.endpoint (encN s (fld s 0x8005 q.endpoint 2)) r.recon.toNat = q.value.toNat) :
    does (.sealCheck) s fun t =>
      t.ep q.endpoint = { s.ep q.endpoint with matched := (s.ep q.endpoint).matched + 1, lastSeal := q.frame } ∧ t.trans.seals = l ∧ lookD 0 t.trans.counters 3 = lookD 0 s.trans.counters 3 + 1 ∧ t = { s with trans := t.trans } := by
  have hexec : exec .sealCheck s = .next (((withoutSeal s l).setEp q.endpoint { s.ep q.endpoint with
      matched := (s.ep q.endpoint).matched + 1, lastSeal := q.frame }).transCount 3) := by
    have hchecked : ¬ (q.frame.toNat < r.frame.toNat ∨ r.sealValid = false ∨ r.sealMode ≠ q.sealMode) := by simp [hframe, hvalid, hmode]
    refine (awake_of hawake _).trans ?_
    simp only [htaken, hrecord, if_neg hchecked, if_pos hequal]
    rfl
  exact ⟨_, hexec, State.ep_setEp .., rfl, lookD_upd_same .., rfl⟩

theorem sealCheck_differs (s : State) (q : SealIn) (l : List SealIn) (r : SealRec) (hawake : asleep s = false)
    (htaken : takeFirst (fun q => !(sealWaits s q)) s.trans.seals = some (q, l)) (hrecord : sealRecord s q = some r)
    (hframe : r.frame = q.frame) (hvalid : r.sealValid = true) (hmode : r.sealMode = q.sealMode)
    (hdiffers : endpointSeal r.sealMode.toNat q.endpoint (encN s (fld s 0x8005 q.endpoint 2)) r.recon.toNat ≠ q.value.toNat) :
    does (.sealCheck) s fun t =>
      (t.ep q.endpoint).mismatched = (s.ep q.endpoint).mismatched + 1 ∧ (t.ep q.endpoint).matched = (s.ep q.endpoint).matched ∧ t.trans.seals = l ∧ lookD 0 t.trans.counters 4 = lookD 0 s.trans.counters 4 + 1 ∧ t.encs = s.encs ∧ t.dict = s.dict := by
  let v := s.ep q.endpoint
  let again := match v.mismatchAt with | some t => decide (s.clk.now < t + 1000000000) | none => false
  let s2 := ((withoutSeal s l).setEp q.endpoint { v with
    mismatched := v.mismatched + 1, mismatchAt := if again then v.mismatchAt else some s.clk.now }).transCount 4
  let t := if again then s2 else
    s2.raise 0x00B mReplicate (le 4 q.endpoint ++ le 4 q.frame.toNat ++ le 8 q.value.toNat ++ le 8 (wantedSeal s q r))
  have hexec : exec .sealCheck s = .next t := by
    have hchecked : ¬ (q.frame.toNat < r.frame.toNat ∨ r.sealValid = false ∨ r.sealMode ≠ q.sealMode) := by simp [hframe, hvalid, hmode]
    refine (awake_of hawake _).trans ?_
    simp only [htaken, hrecord, if_neg hchecked, if_neg hdiffers]
    rfl
  have hall : Touches [.intc, .mem, .out] s2 t := .ite (.refl s2) (Touches.refl s2).raise
  have htrans : t.trans = s2.trans := hall.same .trans
  have hep : t.ep q.endpoint = { v with mismatched := v.mismatched + 1, mismatchAt := if again then v.mismatchAt else some s.clk.now } :=
    (ep_of_trans htrans _).trans (State.ep_setEp ..)
  refine ⟨t, hexec, ?_, ?_, ?_, ?_, hall.same .encs, hall.same .dict⟩
  · rw [hep]
  · rw [hep]
  · rw [htrans]
    rfl
  · rw [htrans]
    exact lookD_upd_same ..

theorem sealRecordWaitTimeout_counts (s : State) (q : SealIn) (l : List SealIn) (hawake : asleep s = false)
    (htaken : takeFirst (fun q => sealWaits s q && decide (q.since + 1000000 ≤ s.clk.now)) s.trans.seals = some (q, l)) :
    does (.sealRecordWaitTimeout) s fun t =>
      (t.ep q.endpoint).unchecked = (s.ep q.endpoint).unchecked + 1 ∧ t.trans.seals = l ∧ lookD 0 t.trans.counters 5 = lookD 0 s.trans.counters 5 + 1 ∧ t = { s with trans := t.trans } := by
  have hexec : exec .sealRecordWaitTimeout s = .next ((withoutSeal s l).unchecked q.endpoint) := by
    refine (awake_of hawake _).trans ?_
    simp only [htaken]
    rfl
  exact ⟨_, hexec, congrArg Endpoint.unchecked (State.ep_setEp ..), rfl, lookD_upd_same .., rfl⟩

/-- Settles O30: a report sets the endpoint's row and queues its seal; a seal is compared with the record's. -/
theorem presenceAndReturnedSeals : Obligations.PresenceAndReturnedSeals :=
  ⟨rtcpReceive_present, rtcpReceive_malformed, presenceScan_absent, presenceScan_quiet, sealCheck_matches, sealCheck_differs,
   sealRecordWaitTimeout_counts⟩

end Sys2Proof.Proofs
end

section
/-! PROOFS. The messages and the outputs of the time unit (O32). -/

open Sys2Proof Sys2Proof.Machine

-- One proof at a time: a thread for each proof would pass the limit that the check sets to memory.
set_option Elab.async false

namespace Sys2Proof.Proofs

/-! ### An open and empty Bobbin -/

/-- A Bobbin is open and holds nothing, and its source holds nothing before it. -/
structure Rests (v : Bobbin) : Prop where
  open_ : v.resetAt = none
  items : v.items = []
  held : v.held = []

theorem Rests.srcLook {v : Bobbin} (h : Rests v) (b : BobbinId) (now free : Nat) : Rests (v.srcLook b now free) := by
  obtain ⟨hopen, hitems, hheld⟩ := h
  have hacked : v.acked now free = v := by simp only [Bobbin.acked, hopen]
  simp only [Bobbin.srcLook, hacked]
  exact ⟨hopen, hitems, hheld⟩

theorem Rests.dstLook {v : Bobbin} (h : Rests v) (b : BobbinId) (now free : Nat) : Rests (v.dstLook b now free) := by
  obtain ⟨hopen, hitems, hheld⟩ := h
  have hacked : v.acked now free = v := by simp only [Bobbin.acked, hopen]
  simp only [Bobbin.dstLook, hacked]
  exact ⟨hopen, hitems, hheld⟩

theorem Rests.refill {v : Bobbin} (h : Rests v) (b : BobbinId) (now : Nat) : Rests (v.refill b now) := by
  obtain ⟨hopen, hitems, hheld⟩ := h
  simp only [Bobbin.refill, Bobbin.put, hheld, List.take_nil, List.isEmpty_nil, if_true, List.drop_nil]
  exact ⟨hopen, hitems, rfl⟩

theorem bobDst_rests {s : State} {b : BobbinId} (h : Rests (s.bob b)) : Rests ((s.bobDst b).bob b) := by
  have hsrc : Rests ((s.bobSrc b).bob b) := by
    change Rests ((s.setBob b _).bob b)
    rw [State.bob_setBob]
    exact (h.srcLook ..).refill ..
  change Rests (((s.bobSrc b).setBob b _).bob b)
  rw [State.bob_setBob]
  exact hsrc.dstLook ..

theorem bobClear_rests {s : State} {b : BobbinId} (h : Rests (s.bob b)) : Rests ((s.bobClear b).bob b) := by
  obtain ⟨hopen, hitems, hheld⟩ := bobDst_rests h
  have hstill : s.bobClear b = (s.bobDst b).setBob b ((s.bobDst b).bob b) := by
    simp [State.bobClear, State.bobDrop, Bobbin.take, hitems]
  rw [hstill, State.bob_setBob]
  exact ⟨hopen, hitems, hheld⟩

theorem bobOpen_of_rests {s : State} {b : BobbinId} (h : Rests (s.bob b)) : s.bobOpen b = true := by
  simp [State.bobOpen, h.open_, h.items, h.held]

/-! ### What a message leaves -/

/-- Of the time unit only the sequence numbers, the timestamps and the counts of messages may differ. -/
def SameTime (t u : TimeUnit) : Prop :=
  u = { t with seqs := u.seqs, caps := u.caps, arrived := u.arrived, asked := u.asked, counters := u.counters, answered := u.answered
               answerSec := u.answerSec, foreign := u.foreign }

theorem SameTime.refl (t : TimeUnit) : SameTime t t := rfl

theorem SameTime.trans {t u v : TimeUnit} (h : SameTime t u) (g : SameTime u v) : SameTime t v := by
  unfold SameTime at *
  rw [g, h]

theorem SameTime.ptp {t u : TimeUnit} (h : SameTime t u) : u.ptp = t.ptp := by rw [h]

theorem SameTime.mode {t u : TimeUnit} (h : SameTime t u) : u.mode = t.mode := by rw [h]

/-- What a message's sending, or its receipt, leaves as it was: all but the timestamp Bobbin, the time unit's records of messages, and what an error
or a queued frame may change. -/
structure Sends (s t : State) : Prop where
  touches : Touches [.clk, .pins, .store, .paths, .bobs, .trans, .time, .intc, .bpm, .mem, .faults, .out] s t
  time : SameTime s.time t.time

theorem Sends.refl (s : State) : Sends s s := ⟨.refl s, .refl _⟩

theorem Sends.trans {s t u : State} (h : Sends s t) (g : Sends t u) : Sends s u := ⟨h.touches.trans g.touches, h.time.trans g.time⟩

theorem Sends.freed (s : State) : Sends s s.freed := ⟨(Touches.refl s).freed, rfl⟩

theorem Sends.nextSeqOf (s : State) (kind p : Nat) : Sends s (s.nextSeqOf kind p).2 := ⟨(Touches.refl s).nextSeqOf, rfl⟩

theorem sendPtp_touches (s : State) (p : Nat) (event : Bool) (to_ : Option (BitVec 48 × BitVec 128)) (msg : Bytes) :
    Touches [.clk, .trans, .intc, .bpm, .mem, .out] s (s.sendPtp p event to_ msg) := (Touches.refl s).sendPtp

theorem sendPtp_time (s : State) (p : Nat) (event : Bool) (to_ : Option (BitVec 48 × BitVec 128)) (msg : Bytes) :
    (s.sendPtp p event to_ msg).time = s.time := (sendPtp_touches s p event to_ msg).same .time

theorem Sends.sendPtp (s : State) (p : Nat) (event : Bool) (to_ : Option (BitVec 48 × BitVec 128)) (msg : Bytes) :
    Sends s (s.sendPtp p event to_ msg) :=
  ⟨(sendPtp_touches ..).mono (by decide), by rw [sendPtp_time]; exact .refl _⟩

/-- The record of messages sent holds one of a type on a port. -/
def Sent (t : State) (p type : Nat) : Prop := (t.out.any fun o => match o with | .ptp q k _ => q == p && k == type | _ => false) = true

theorem sent_of_mem {t : State} {p type : Nat} {msg : Bytes} (h : Output.ptp p type msg ∈ t.out) : Sent t p type :=
  List.any_eq_true.2 ⟨_, h, by simp⟩

/-- A message that is sent stands in the output record under its type. -/
theorem sendPtp_sent (s u : State) (p type seq flags control : Nat) (event : Bool) (to_ : Option (BitVec 48 × BitVec 128)) (interval : Int)
    (body : Bytes) (htype : type < 16) : Sent (s.sendPtp p event to_ (ptpMessage u type p seq flags control interval body)) p type := by
  refine sent_of_mem (msg := ptpMessage u type p seq flags control interval body) (List.mem_append_right _ (List.mem_singleton.2 ?_))
  have hfirst : u8 (ptpMessage u type p seq flags control interval body) 0 % 16 = type := by
    have : u8 (ptpMessage u type p seq flags control interval body) 0 = type % 256 := by simp [ptpMessage, u8]
    omega
  rw [hfirst]

/-- What is sent later takes nothing back. -/
theorem sendPtp_keeps_sent {s : State} {p type : Nat} (h : Sent s p type) (q : Nat) (event : Bool) (to_ : Option (BitVec 48 × BitVec 128)) (msg : Bytes) :
    Sent (s.sendPtp q event to_ msg) p type := by
  obtain ⟨o, hmem, hmatch⟩ := List.any_eq_true.1 h
  have hprefix : s.out <+: (s.sendPtp q event to_ msg).out := (Keeps.refl s).sendPtp.out
  exact List.any_eq_true.2 ⟨o, hprefix.subset hmem, hmatch⟩

theorem nextSeqOf_seqs (s : State) (kind p : Nat) :
    lookD 0 (s.nextSeqOf kind p).2.time.seqs (16 * kind + p) = (lookD 0 s.time.seqs (16 * kind + p) + 1) % 65536 :=
  lookD_upd_same 0 s.time.seqs (16 * kind + p) fun n => (n + 1) % 65536

theorem announceSend_sends (s : State) (port : Fin 16) (hawake : asleep s = false) (hmaster : masterPort s port = true) :
    does (.announceSend port) s fun t =>
      (t.out.any fun o => match o with | .ptp p k _ => p == port.val && k == 11 | _ => false) = true ∧ lookD 0 t.time.seqs port = (lookD 0 s.time.seqs port + 1) % 65536 ∧ t.time.ptp = s.time.ptp ∧ t.time.mode = s.time.mode ∧ t.dict = s.dict ∧ t.encs = s.encs ∧ t.pool = s.pool := by
  have hkept : Sends s (s.freed.nextSeqOf 0 port).2 := (Sends.freed s).trans (.nextSeqOf _ _ _)
  have hall := hkept.trans (.sendPtp (s.freed.nextSeqOf 0 port).2 port false none (ptpMessage s 0xB port (s.freed.nextSeqOf 0 port).1 (announceFlags s) 5
    (logAnnounce s) (slice (Config.freeBytes s.clk.free) 0 10 ++ announceBody s)))
  refine ⟨_, (awake_of hawake _).trans (if_pos hmaster), sendPtp_sent _ _ _ _ _ _ _ _ _ _ _ (by decide), ?_, hall.time.ptp, hall.time.mode,
    hall.touches.same .dict, hall.touches.same .encs, hall.touches.same .pool⟩
  rw [sendPtp_time]
  simpa using nextSeqOf_seqs s.freed 0 port

/-! ### The timestamp's crossing -/

/-- A timestamp taken, of an arrival or of a departure, leaves the time, the sequence numbers and the counts. -/
theorem stampTaken_time (s : State) (p : Nat) (received : Bool) :
    SameTime s.time (if received then s.takeArrival p else s.capture p).time ∧
      (if received then s.takeArrival p else s.capture p).time.seqs = s.time.seqs ∧
      (if received then s.takeArrival p else s.capture p).time.counters = s.time.counters := by
  cases received with
  | false => exact ⟨rfl, rfl, rfl⟩
  | true =>
    simp only [State.takeArrival, if_true]
    split <;> exact ⟨rfl, rfl, rfl⟩

/-- Through an open and empty timestamp Bobbin the timestamp crosses, and the time unit keeps its time. -/
theorem crossStamp_clean {s : State} (h : Rests (s.bob .timestamp)) (p : Nat) (received : Bool) :
    ∃ u stamp, s.crossStamp p received .clean = some (u, stamp) ∧ Sends s u ∧ u.time.seqs = s.time.seqs ∧ u.time.counters = s.time.counters := by
  let s1 := s.bobClear .timestamp
  let u := (if received then s1.takeArrival p else s1.capture p).bobPass .timestamp 1
  have hcross : s.crossStamp p received .clean = some (u, portStamp u p) := if_pos (bobOpen_of_rests (bobClear_rests h))
  have hclear : s1.time = s.time := (Touches.refl s).bobClear (hl := List.Subset.refl _) |>.same .time
  have hpass : u.time = (if received then s1.takeArrival p else s1.capture p).time :=
    (Touches.refl _).bobPass (hl := List.Subset.refl _) |>.same .time
  have htaken := stampTaken_time s1 p received
  rw [hclear, ← hpass] at htaken
  obtain ⟨htime, hseqs, hcounters⟩ := htaken
  exact ⟨u, _, hcross, ⟨(Touches.refl s).crossStamp hcross, htime⟩, hseqs, hcounters⟩

theorem freed_rests {s : State} {b : BobbinId} (h : Rests (s.bob b)) : Rests (s.freed.bob b) := h

theorem syncSend_oneStep (s : State) (port : Fin 16) (hawake : asleep s = false) (hmaster : masterPort s port = true)
    (hopen : (s.bob .timestamp).resetAt = none) (hitems : (s.bob .timestamp).items = []) (hheld : (s.bob .timestamp).held = [])
    (hstep : parB s 0x6020 4 = true) :
    does (.syncSend port .clean) s fun t =>
      (t.out.any fun o => match o with | .ptp p k _ => p == port.val && k == 0 | _ => false) = true ∧ lookD 0 t.time.seqs (16 + port) = (lookD 0 s.time.seqs (16 + port) + 1) % 65536 ∧ t.time.ptp = s.time.ptp ∧ t.time.mode = s.time.mode ∧ t.dict = s.dict ∧ t.encs = s.encs ∧ t.pool = s.pool := by
  obtain ⟨u, stamp, hcross, hkept, hseqs, -⟩ := crossStamp_clean (freed_rests ⟨hopen, hitems, hheld⟩) port false
  have hexec : exec (.syncSend port .clean) s = .next ((u.nextSeqOf 1 port).2.sendPtp port true none
      (ptpMessage s 0 port (u.nextSeqOf 1 port).1 0 0 (logSync s) stamp)) := by
    refine (awake_of hawake _).trans ((if_pos hmaster).trans ?_)
    simp only [hcross, hstep]
    rfl
  have hall := (((Sends.freed s).trans hkept).trans (.nextSeqOf u 1 port)).trans
    (.sendPtp _ port true none (ptpMessage s 0 port (u.nextSeqOf 1 port).1 0 0 (logSync s) stamp))
  refine ⟨_, hexec, sendPtp_sent _ _ _ _ _ _ _ _ _ _ _ (by decide), ?_, hall.time.ptp, hall.time.mode, hall.touches.same .dict,
    hall.touches.same .encs, hall.touches.same .pool⟩
  rw [sendPtp_time]
  simpa [hseqs] using nextSeqOf_seqs u 1 port

theorem syncSend_twoStep (s : State) (port : Fin 16) (hawake : asleep s = false) (hmaster : masterPort s port = true)
    (hopen : (s.bob .timestamp).resetAt = none) (hitems : (s.bob .timestamp).items = []) (hheld : (s.bob .timestamp).held = [])
    (hstep : parB s 0x6020 4 = false) :
    does (.syncSend port .clean) s fun t =>
      (t.out.any fun o => match o with | .ptp p k _ => p == port.val && k == 0 | _ => false) = true ∧ (t.out.any fun o => match o with | .ptp p k _ => p == port.val && k == 8 | _ => false) = true ∧ t.time.ptp = s.time.ptp ∧ t.time.mode = s.time.mode ∧ t.dict = s.dict ∧ t.encs = s.encs ∧ t.pool = s.pool := by
  obtain ⟨u, stamp, hcross, hkept, -⟩ := crossStamp_clean (freed_rests ⟨hopen, hitems, hheld⟩) port false
  let q := u.nextSeqOf 1 port
  let s1 := q.2.sendPtp port true none (ptpMessage s 0 port q.1 0x200 0 (logSync s) (slice (Config.freeBytes s.clk.free) 0 10))
  have hexec : exec (.syncSend port .clean) s = .next (s1.sendPtp port false none (ptpMessage s 8 port q.1 0 2 (logSync s) stamp)) := by
    refine (awake_of hawake _).trans ((if_pos hmaster).trans ?_)
    simp only [hcross, hstep]
    rfl
  have hall := ((((Sends.freed s).trans hkept).trans (.nextSeqOf u 1 port)).trans (.sendPtp q.2 port true none _)).trans
    (.sendPtp s1 port false none (ptpMessage s 8 port q.1 0 2 (logSync s) stamp))
  exact ⟨_, hexec, sendPtp_keeps_sent (sendPtp_sent _ _ _ _ _ _ _ _ _ _ _ (by decide)) .., sendPtp_sent _ _ _ _ _ _ _ _ _ _ _ (by decide),
    hall.time.ptp, hall.time.mode, hall.touches.same .dict, hall.touches.same .encs, hall.touches.same .pool⟩

theorem delayReq_answers (s : State) (port : Fin 16) (u : Option (BitVec 48 × BitVec 128)) (src : BitVec 80) (q : BitVec 16)
    (hawake : asleep s = false) (hmaster : masterPort s port = true) (hopen : (s.bob .timestamp).resetAt = none)
    (hitems : (s.bob .timestamp).items = []) (hheld : (s.bob .timestamp).held = [])
    (hbelow : s.time.answerSec ≠ s.clk.now / 1000000000 ∨ s.time.answered < 16000000) :
    does (.delayReq port .clean u src q) s fun t =>
      (t.out.any fun o => match o with | .ptp p k _ => p == port.val && k == 9 | _ => false) = true ∧ lookD 0 t.time.counters 6 = lookD 0 s.time.counters 6 + 1 ∧ t.time.ptp = s.time.ptp ∧ t.time.mode = s.time.mode ∧ t.dict = s.dict ∧ t.encs = s.encs ∧ t.pool = s.pool := by
  obtain ⟨v, stamp, hcross, hkept, -, hcounters⟩ := crossStamp_clean (s := s) ⟨hopen, hitems, hheld⟩ port true
  let n := if s.time.answerSec = s.clk.now / 1000000000 then s.time.answered else 0
  have hfew : ¬ 16000000 ≤ n := by
    simp only [n]
    split
    next hsame => exact Nat.not_le.2 (hbelow.resolve_left fun h => h hsame)
    next => decide
  let s1 := ({ v with time := { v.time with answered := n + 1, answerSec := s.clk.now / 1000000000 } } : State).timeCount 6
  let msg := ptpMessage s 9 port q.toNat (if u.isSome then 0x400 else 0) 3 (if u.isSome then 0x7F else logSync s) (stamp ++ be 10 src.toNat)
  have hexec : exec (.delayReq port .clean u src q) s = .next (s1.sendPtp port false u msg) := by
    refine (awake_of hawake _).trans ((if_pos hmaster).trans ((if_neg hfew).trans ?_))
    simp only [hcross]
    rfl
  have hcounted : Sends v s1 := ⟨(Touches.refl v).setTime, rfl⟩
  have hall := (hkept.trans hcounted).trans (.sendPtp s1 port false u msg)
  refine ⟨_, hexec, sendPtp_sent _ _ _ _ _ _ _ _ _ _ _ (by decide), ?_, hall.time.ptp, hall.time.mode, hall.touches.same .dict,
    hall.touches.same .encs, hall.touches.same .pool⟩
  rw [sendPtp_time, ← hcounters]
  exact lookD_upd_same ..

theorem syncMetadataSend_sends (s : State) (port : Fin 16) (hawake : asleep s = false) (hmaster : masterPort s port = true)
    (hprofile : par s 0x6020 1 = 0) :
    does (.syncMetadataSend port) s fun t =>
      (t.out.any fun o => match o with | .ptp p k _ => p == port.val && k == 13 | _ => false) = true ∧ t.time.ptp = s.time.ptp ∧ t.time.mode = s.time.mode ∧ t.dict = s.dict ∧ t.encs = s.encs ∧ t.pool = s.pool := by
  let q := s.freed.nextSeqOf 2 port
  have hkept : Sends s q.2 := (Sends.freed s).trans (.nextSeqOf _ _ _)
  refine ⟨_, (awake_of hawake _).trans (if_pos (by simp [hmaster, hprofile])), sendPtp_sent _ _ _ _ _ _ _ _ _ _ _ (by decide), ?_⟩
  have hall (msg : Bytes) := hkept.trans (.sendPtp q.2 port false none msg)
  exact ⟨(hall _).time.ptp, (hall _).time.mode, (hall _).touches.same .dict, (hall _).touches.same .encs, (hall _).touches.same .pool⟩

/-! ### Masters and slaves -/

/-- Another clock's Announce, counted and remembered. -/
def announced (s : State) (port : Fin 16) (a : Announce) : State :=
  { s.timeCount 8 with time := { (s.timeCount 8).time with
      foreign := (s.time.foreign.filter fun f => !(f.ann.clockId == a.clockId && f.port == port.val)) ++ [⟨port, a, s.clk.now⟩] } }

theorem foreignAnnounce_counts (s : State) (port : Fin 16) (a : Announce) (hawake : asleep s = false) (hport : ptpPort s port = true)
    (hmasterOnly : par s 0x6020 3 = 0) (hmode : s.time.mode ≠ TimeMode.slave) :
    does (.foreignAnnounce port a) s fun t =>
      lookD 0 t.time.counters 8 = lookD 0 s.time.counters 8 + 1 ∧ (⟨port, a, s.clk.now⟩ : Foreign) ∈ t.time.foreign ∧ t.time.ptp = s.time.ptp ∧ t.time.mode = s.time.mode ∧ t.dict = s.dict ∧ t.encs = s.encs ∧ t.pool = s.pool := by
  let u := if s.time.foreign.any fun f => f.ann.clockId == a.clockId then announced s port a
    else (announced s port a).raise 0x00F mTime (le 8 a.clockId.toNat)
  have htouches : Touches [.intc, .mem, .out] (announced s port a) u := .ite (.refl _) (Touches.refl _).raise
  have htime : u.time = (announced s port a).time := htouches.same .time
  have hreview : u.reviewSlave = u := by
    unfold State.reviewSlave
    split
    next hslave _ => exact absurd ((congrArg TimeUnit.mode htime).symm.trans hslave) hmode
    next => rfl
  have hexec : exec (.foreignAnnounce port a) s = .next u.reviewSlave :=
    (awake_of hawake _).trans ((if_neg (by simp [hport])).trans (if_pos hmasterOnly))
  rw [hreview] at hexec
  have hall : Touches [.time, .intc, .mem, .out] s u := (Touches.refl s).setTime.trans (htouches.mono (by decide))
  refine ⟨u, hexec, ?_, ?_, ?_, ?_, hall.same .dict, hall.same .encs, hall.same .pool⟩
  · rw [htime]
    exact lookD_upd_same ..
  · rw [htime]
    exact List.mem_append_right _ (List.mem_singleton.2 rfl)
  · rw [htime]
    rfl
  · rw [htime]
    rfl

/-- Into another mode: the mode, the slave port with it, and an event. -/
theorem timeMode_time {s : State} {m : TimeMode} (hnew : s.time.mode ≠ m) :
    (s.timeMode m).time = { s.time with mode := m, slavePort := if m = .slave then s.time.slavePort else 0x1F } := by
  rw [State.timeMode, if_neg hnew]
  exact State.raise_time ..

theorem foreignAnnounce_follows (s : State) (port : Fin 16) (a : Announce) (hawake : asleep s = false) (hport : ptpPort s port = true)
    (hbmca : par s 0x6020 3 ≠ 0) (hother : a.gmId.toNat ≠ clockIdentity)
    (hprior : (s.time.foreign.find? fun f => f.ann.clockId == a.clockId && f.port == port.val) = some ⟨port, a, s.clk.now⟩)
    (hmode : s.time.mode = .freeRun) (hbetter : lexLt (annKey a) (ownKey s) = true) :
    does (.foreignAnnounce port a) s fun t =>
      t.time.mode = TimeMode.slave ∧ t.time.slavePort = BitVec.ofNat 5 port ∧ t.time.parent = some a ∧ t.time.clockClass = a.clockClass ∧ t.time.ptp = s.time.ptp ∧ t.dict = s.dict := by
  have hexec : exec (.foreignAnnounce port a) s = .next ((announced s port a).follow port a) := by
    have hheard : ¬ (a.gmId.toNat = clockIdentity ∨ decide (s.clk.now ≤ s.clk.now + 4 * announceNs s) = false) := by simp [hother]
    refine (awake_of hawake _).trans ((if_neg (by simp [hport])).trans ((if_neg hbmca).trans ?_))
    simp only [hprior, hmode]
    refine (if_neg hheard).trans ?_
    exact if_pos hbetter
  have hmode' : (announced s port a).time.mode ≠ .slave := by
    change s.time.mode ≠ .slave
    rw [hmode]
    decide
  have htime : ((announced s port a).follow port a).time = _ := timeMode_time hmode'
  have hall : Touches [.time, .intc, .mem, .out] s ((announced s port a).follow port a) := (Touches.refl s).setTime.follow
  refine ⟨_, hexec, ?_, (congrArg TimeUnit.slavePort htime).trans rfl, ?_, ?_, (congrArg TimeUnit.ptp htime).trans rfl, hall.same .dict⟩ <;> rw [htime]

theorem announceReceiptTimeout_frees (s : State) (hawake : asleep s = false) (hslave : s.time.mode = TimeMode.slave)
    (hdue : s.time.parentAt + 3 * announceNs s ≤ s.clk.now) (hgnss : s.time.gnss = false) :
    does (.announceReceiptTimeout) s fun t =>
      t.time.mode = .freeRun ∧ t.time.parent = none ∧ t.time.clockClass = 248 ∧ t.time.slavePort = 0x1F ∧ t.time.ptp = s.time.ptp ∧ t.dict = s.dict := by
  let s1 : State := { s with time := { s.time with parent := none, clockClass := 248, accuracy := 0xFE, source := 0xA0 } }
  have hleave : s.leaveSlave = s1.timeMode .freeRun := if_neg (by simp [hgnss])
  have htime : (s1.timeMode .freeRun).time = _ := timeMode_time (s := s1) (by simp [s1, hslave])
  have hexec : exec .announceReceiptTimeout s = .next (s1.timeMode .freeRun) := by
    rw [← hleave]
    exact (awake_of hawake _).trans (if_pos ⟨hslave, hdue⟩)
  have hall : Touches [.time, .intc, .mem, .out] s (s1.timeMode .freeRun) := (Touches.refl s).setTime.timeMode
  refine ⟨_, hexec, ?_, ?_, ?_, (congrArg TimeUnit.slavePort htime).trans rfl, ?_, hall.same .dict⟩ <;> rw [htime]

/-! ### The slave port -/

/-- The state in which the slave port's Sync has set the offset and the servo. -/
def synced (s : State) (port : Fin 16) (o : Int) : State :=
  ({ s.takeArrival port with time := { (s.takeArrival port).time with slaveOffset := o - sext 32 (par s 0x6022 (port + 1)) } } : State).steer

theorem syncReceive_next {s : State} {port : Fin 16} (o : Int) (hawake : asleep s = false) (hslave : s.time.mode = TimeMode.slave)
    (hport : s.time.slavePort.toNat = port.val) : exec (.syncReceive port o) s = .next ((synced s port o).askDelay port) :=
  (awake_of hawake _).trans (if_pos ⟨hslave, hport⟩)

theorem askDelay_time (s : State) (p : Nat) : SameTime s.time (s.askDelay p).time := by
  unfold State.askDelay
  dsimp only
  split
  · split
    · exact .refl _
    · rw [sendPtp_time]
      rfl
  · rw [if_neg Bool.false_ne_true, sendPtp_time]
    rfl

theorem synced_time (s : State) (port : Fin 16) (o : Int) :
    (synced s port o).time.slaveOffset = o - sext 32 (par s 0x6022 (port + 1)) ∧ -25600000 ≤ (synced s port o).time.freq ∧
      (synced s port o).time.freq ≤ 25600000 ∧ (synced s port o).time.ptp = s.time.ptp ∧ (synced s port o).time.mode = s.time.mode ∧
      (synced s port o).time.asked = s.time.asked := by
  have htaken : (s.takeArrival port).time.ptp = s.time.ptp ∧ (s.takeArrival port).time.mode = s.time.mode ∧
      (s.takeArrival port).time.asked = s.time.asked := by
    unfold State.takeArrival
    split <;> exact ⟨rfl, rfl, rfl⟩
  obtain ⟨hptp, hmode, hasked⟩ := htaken
  exact ⟨rfl, Int.le_max_left .., Int.max_le.2 ⟨by decide, Int.min_le_left ..⟩, hptp, hmode, hasked⟩

theorem syncReceive_steers (s : State) (port : Fin 16) (o : Int) (hawake : asleep s = false) (hslave : s.time.mode = TimeMode.slave)
    (hport : s.time.slavePort.toNat = port.val) :
    does (.syncReceive port o) s fun t =>
      t.time.slaveOffset = o - sext 32 (par s 0x6022 (port + 1)) ∧ -25600000 ≤ t.time.freq ∧ t.time.freq ≤ 25600000 ∧ t.time.ptp = s.time.ptp ∧ t.time.mode = s.time.mode ∧ t.dict = s.dict ∧ t.encs = s.encs ∧ t.pool = s.pool := by
  obtain ⟨hoffset, hlow, hhigh, hptp, hmode, -⟩ := synced_time s port o
  have hask := askDelay_time (synced s port o) port
  have hall : Touches [.clk, .trans, .time, .intc, .bpm, .mem, .out] s ((synced s port o).askDelay port) :=
    (Touches.refl s).takeArrival.setTime.steer.askDelay
  refine ⟨_, syncReceive_next o hawake hslave hport, ?_, ?_, ?_, hask.ptp.trans hptp, hask.mode.trans hmode, hall.same .dict, hall.same .encs,
    hall.same .pool⟩ <;> rw [hask]
  · exact hoffset
  · exact hlow
  · exact hhigh

theorem syncReceive_asks (s : State) (port : Fin 16) (o : Int) (hawake : asleep s = false) (hslave : s.time.mode = TimeMode.slave)
    (hport : s.time.slavePort.toNat = port.val) (hnever : look s.time.asked port = none) :
    does (.syncReceive port o) s fun t =>
      (t.out.any fun o => match o with | .ptp p k _ => p == port.val && k == 1 | _ => false) = true ∧ look t.time.asked port = some s.clk.now := by
  obtain ⟨-, -, -, -, -, hasked⟩ := synced_time s port o
  have hnever' : look (synced s port o).time.asked port = none := by rw [hasked, hnever]
  let q := ((synced s port o).freed.capture port).nextSeqOf 3 port
  let s1 : State := { q.2 with time := { q.2.time with asked := put q.2.time.asked port (synced s port o).clk.now } }
  have hask : (synced s port o).askDelay port = s1.sendPtp port true none
      (ptpMessage (synced s port o) 1 port q.1 0 1 0x7F (slice (Config.freeBytes (synced s port o).clk.free) 0 10)) := by
    simp only [State.askDelay, hnever']
    rfl
  have hnow : (synced s port o).clk.now = s.clk.now := by
    have hall : Touches [.clk, .time] s (synced s port o) := (Touches.refl s).takeArrival.setTime.steer
    rw [hall.ticks]
  refine ⟨_, syncReceive_next o hawake hslave hport, ?_, ?_⟩
  · rw [hask]
    exact sendPtp_sent _ _ _ _ _ _ _ _ _ _ _ (by decide)
  · rw [hask, sendPtp_time, ← hnow]
    exact look_put_same ..

/-! ### Outputs, and the pair's time -/

theorem ppsOutEdge_rises (s : State) (hawake : asleep s = false) (hup : s.boot.timeUp = true) (hunsquelched : squelched s = false) :
    does (.ppsOutEdge) s fun t =>
      t.out = s.out ++ [.pin "TEN_MHZ_OUT" true, .pin "PPS_OUT" true] ∧ t.pins.ppsOut = true ∧ t.pins.tenMhz = true ∧ t.time.edgeAt = some s.time.ptp ∧ t = { s with time := t.time, pins := t.pins, out := t.out } := by
  refine ⟨_, (awake_of hawake _).trans (if_neg (by simp [hup])), ?_⟩
  simp [hunsquelched, State.emit]

theorem ppsOutEdge_squelched (s : State) (hawake : asleep s = false) (hup : s.boot.timeUp = true) (hsquelched : squelched s = true) :
    does (.ppsOutEdge) s fun t =>
      t.out = s.out ∧ t.pins.ppsOut = false ∧ t.pins.tenMhz = false ∧ t.time.edgeAt = some s.time.ptp ∧ t = { s with time := t.time, pins := t.pins } := by
  refine ⟨_, (awake_of hawake _).trans (if_neg (by simp [hup])), ?_⟩
  simp [hsquelched]

theorem todLine_sends (s : State) (e : Nat) (hawake : asleep s = false) (hedge : s.time.edgeAt = some e) :
    does (.todLine) s fun t =>
      t = { s with time := { s.time with edgeAt := none }, out := s.out ++ [.serial (todText s)] } := by
  refine ⟨_, ?_, rfl⟩
  refine (awake_of hawake _).trans ?_
  simp only [hedge]
  rfl

/-- The mode after a change is the mode asked for, and the count of time stays. -/
theorem timeMode_kept (s : State) (m : TimeMode) :
    (s.timeMode m).time.mode = m ∧ (s.timeMode m).time.ptp = s.time.ptp ∧ (s.timeMode m).time.todValid = s.time.todValid := by
  by_cases hsame : s.time.mode = m
  · rw [State.timeMode, if_pos hsame]
    exact ⟨hsame, rfl, rfl⟩
  · rw [timeMode_time hsame]
    exact ⟨rfl, rfl, rfl⟩

/-- The primary's time as it is taken over, before the mode. -/
def mirrored (s : State) (m : MirrorTime) : State :=
  (({ s with time := { s.time with
    ptp := m.seconds.toNat * 1000000000 + m.nanos.toNat + Config.freeNat s.clk.free % 21 - 10, todValid := m.todValid, primClass := m.clockClass
    mirror := some m, pendingStep := none, held := [] } } : State).setFreq (sext 32 m.freq.toNat)).freed

theorem gavonTime_follows (s : State) (m : MirrorTime) (hawake : asleep s = false) (hup : s.boot.timeUp = true)
    (hrole : s.pair.role = .secondary) (hhealthy : healthy s = true) :
    does (.gavonTime m) s fun t =>
      t.time.mode = TimeMode.passive ∧ t.time.clockClass = 0 ∧ t.time.ptp ≤ m.seconds.toNat * 1000000000 + m.nanos.toNat + 10 ∧ m.seconds.toNat * 1000000000 + m.nanos.toNat ≤ t.time.ptp + 10 ∧ t.time.todValid = m.todValid ∧ t.dict = s.dict := by
  obtain ⟨hmode, hptp, htod⟩ := timeMode_kept (mirrored s m) .passive
  have hexec : exec (.gavonTime m) s = .next { (mirrored s m).timeMode .passive with
      time := { ((mirrored s m).timeMode .passive).time with clockClass := 0 } } :=
    (awake_of hawake _).trans (if_pos ⟨hup, hrole, hhealthy⟩)
  have hnear : (mirrored s m).time.ptp = m.seconds.toNat * 1000000000 + m.nanos.toNat + Config.freeNat s.clk.free % 21 - 10 := rfl
  have hall : Touches [.clk, .time, .intc, .mem, .out] s ((mirrored s m).timeMode .passive) :=
    (Touches.refl s).setTime.setFreq.freed.timeMode
  refine ⟨_, hexec, hmode, rfl, ?_, ?_, htod, hall.setTime.same .dict⟩
  · change ((mirrored s m).timeMode .passive).time.ptp ≤ _
    omega
  · change _ ≤ ((mirrored s m).timeMode .passive).time.ptp + 10
    omega

/-- Settles O32: a message is its record in the output, and of the time unit it changes its own records alone. -/
theorem timeMessagesAndOutputs : Obligations.TimeMessagesAndOutputs :=
  ⟨announceSend_sends, syncSend_oneStep, syncSend_twoStep, delayReq_answers, foreignAnnounce_counts, foreignAnnounce_follows,
   announceReceiptTimeout_frees, syncReceive_steers, syncReceive_asks, syncMetadataSend_sends, ppsOutEdge_rises, ppsOutEdge_squelched,
   todLine_sends, gavonTime_follows⟩

end Sys2Proof.Proofs
end

section
/-! PROOFS. The control of the host's rings: doorbells, enabling, disabling and reset (O33). -/

open Sys2Proof Sys2Proof.Machine

-- One proof at a time: a thread for each proof would pass the limit that the check sets to memory.
set_option Elab.async false

namespace Sys2Proof.Proofs

/-! ### Submission doorbells -/

theorem sqDoorbell_advances (s : State) (p : Fin 4096) (v : Word) (hawake : asleep s = false) (hruns : (s.sq p).state = 1)
    (hrange : v.toNat % 65536 < 2 ^ ((s.sq p).size.toNat + 1))
    (hroom : ringDist (s.sq p).size.toNat (s.sq p).head.toNat (v.toNat % 65536) ≤ 2 ^ (s.sq p).size.toNat)
    (hforward : ringDist (s.sq p).size.toNat (s.sq p).tail.toNat (v.toNat % 65536) ≤ ringDist (s.sq p).size.toNat (s.sq p).head.toNat (v.toNat % 65536)) :
    does (.sqDoorbell p v) s fun t =>
      t.sq p = { s.sq p with tail := BitVec.ofNat 16 (v.toNat % 65536) } ∧ t.rings.rejected = s.rings.rejected ∧ t = { s with rings := t.rings, dev := { s.dev with armed := t.dev.armed } } := by
  have hdoor : (s.disarm mHost).sqDoor p v = (s.disarm mHost).setSq p { s.sq p with tail := BitVec.ofNat 16 (v.toNat % 65536) } :=
    (if_neg (not_not.2 hruns)).trans (if_pos ⟨hrange, hroom, hforward⟩)
  refine ⟨_, (awake_of hawake _).trans (congrArg _ hdoor), State.sq_setSq .., rfl, rfl⟩

theorem sqDoorbell_outside (s : State) (p : Fin 4096) (v : Word) (hawake : asleep s = false) (hruns : (s.sq p).state = 1)
    (houtside : 2 ^ ((s.sq p).size.toNat + 1) ≤ v.toNat % 65536) :
    does (.sqDoorbell p v) s fun t =>
      t.sq p = { s.sq p with state := 2, errCode := 1 } ∧ t.rings.rejected = s.rings.rejected + 1 ∧ t = { s with rings := t.rings, dev := { s.dev with armed := t.dev.armed } } := by
  have hdoor : (s.disarm mHost).sqDoor p v = ((s.disarm mHost).setSq p { s.sq p with state := 2, errCode := 1 }).rejectDoorbell :=
    (if_neg (not_not.2 hruns)).trans (if_neg fun h => absurd h.1 (Nat.not_lt.2 houtside))
  exact ⟨_, (awake_of hawake _).trans (congrArg _ hdoor), State.sq_setSq (s.disarm mHost) .., rfl, rfl⟩

theorem sqDoorbell_idle (s : State) (p : Fin 4096) (v : Word) (hawake : asleep s = false) (hidle : (s.sq p).state ≠ 1) :
    does (.sqDoorbell p v) s fun t =>
      t.sq p = s.sq p ∧ t.rings.rejected = s.rings.rejected + 1 ∧ t = { s with rings := t.rings, dev := { s.dev with armed := t.dev.armed } } := by
  have hdoor : (s.disarm mHost).sqDoor p v = (s.disarm mHost).rejectDoorbell := if_pos hidle
  exact ⟨_, (awake_of hawake _).trans (congrArg _ hdoor), rfl, rfl, rfl⟩

/-! ### Completion doorbells -/

/-- Delivery of interrupts leaves the rings. -/
theorem settleInts_cq (s : State) (c : Nat) : s.settleInts.cq c = s.cq c := by rw [State.cq, State.cq, State.settleInts_rings]

/-- With nothing staged and no ring aborting, a returned head is all that changes. -/
theorem drainBound_quiet {s : State} (c : Nat) (hquiet : (s.rings.sqs.all fun q => q.2.aborts.isEmpty) = true) : s.drainBound c = s := by
  have hnone : (s.rings.sqs.filter fun q => q.2.ringCq == c && !q.2.aborts.isEmpty) = [] := by
    refine List.filter_eq_nil_iff.2 fun q hq => ?_
    simp [List.all_eq_true.1 hquiet q hq]
  rw [State.drainBound, hnone]
  rfl

theorem unstage_empty {s : State} {c : Nat} (h : (s.cq c).staged = []) : unstage 64 s c = s := by
  rw [unstage]
  simp only [h]

theorem cqDoorbell_returns (s : State) (c : Fin 1024) (v : Word) (hawake : asleep s = false)
    (hrange : v.toNat % 65536 < 2 ^ ((s.cq c).size.toNat + 1))
    (hforward : ringDist (s.cq c).size.toNat (s.cq c).head.toNat (v.toNat % 65536) ≤ ringDist (s.cq c).size.toNat (s.cq c).head.toNat (s.cq c).tail.toNat)
    (hstaged : (s.cq c).staged = []) (hquiet : (s.rings.sqs.all fun q => q.2.aborts.isEmpty) = true) :
    does (.cqDoorbell c v) s fun t =>
      t.cq c = { s.cq c with head := BitVec.ofNat 16 (v.toNat % 65536) } ∧ t = { s with rings := t.rings, dev := { s.dev with armed := t.dev.armed }, intc := t.intc, out := t.out } := by
  let s1 := (s.disarm mHost).setCq c { s.cq c with head := BitVec.ofNat 16 (v.toNat % 65536) }
  have hcq : s1.cq c = { s.cq c with head := BitVec.ofNat 16 (v.toNat % 65536) } := State.cq_setCq ..
  have hdoor : (s.disarm mHost).cqDoor c v = s1.settleInts := by
    refine (if_pos ⟨hrange, hforward⟩).trans ?_
    change ((unstage 64 s1 c).drainBound c).settleInts = _
    rw [unstage_empty (s := s1) (by rw [hcq]; exact hstaged), drainBound_quiet (s := s1) _ hquiet]
  have hdev : s1.dev = (s.disarm mHost).dev := rfl
  have hall : Touches [.rings, .dev, .intc, .out] s s1.settleInts := (Touches.refl s).disarm.setRings.settleInts
  refine ⟨_, (awake_of hawake _).trans (congrArg _ hdoor), ?_, hall.frame (by simp [armed_only hdev])⟩
  rw [settleInts_cq, hcq]

theorem cqDoorbell_outside (s : State) (c : Fin 1024) (v : Word) (hawake : asleep s = false)
    (houtside : 2 ^ ((s.cq c).size.toNat + 1) ≤ v.toNat % 65536) :
    does (.cqDoorbell c v) s fun t =>
      t.cq c = { s.cq c with dbErr := true } ∧ t = { s with rings := t.rings, dev := { s.dev with armed := t.dev.armed } } := by
  have hdoor : (s.disarm mHost).cqDoor c v = (s.disarm mHost).setCq c { s.cq c with dbErr := true } :=
    if_neg fun h => absurd h.1 (Nat.not_lt.2 houtside)
  exact ⟨_, (awake_of hawake _).trans (congrArg _ hdoor), State.cq_setCq .., rfl⟩

/-! ### Enabling -/

/-- A write with `ENABLE` 1 carries the value's other fields. -/
theorem config_enabled (q : Sq) (v : Word) : q.config (v ||| 0x80000000) = q.config v := by
  have hlocal : (v ||| 0x80000000).getLsbD 30 = v.getLsbD 30 := by simp
  simp only [Sq.config, hlocal, BitVec.extractLsb'_or, show (0x80000000 : Word).extractLsb' 28 2 = 0 by decide,
    show (0x80000000 : Word).extractLsb' 16 10 = 0 by decide, show (0x80000000 : Word).extractLsb' 0 4 = 0 by decide]
  simp

theorem enable_bit (v : Word) : (v ||| 0x80000000).getLsbD 31 = true := by simp

theorem disable_bit (v : Word) : ¬ (v &&& 0x7FFFFFFF).getLsbD 31 = true := by simp

/-- A write of `SQ_CFG` with `ENABLE` 1 to an idle ring of a size. -/
theorem writeSqCfg_enable {s : State} {p : Nat} {v : Word} (hidle : (s.sq p).state = 0) (hsize : v.extractLsb' 0 4 ≠ 0) :
    s.writeSqCfg p (v ||| 0x80000000) =
      if (s.cq (v.extractLsb' 16 10).toNat).enable = false then s.setSq p { (s.sq p).config v with errCode := 3 }
      else s.setSq p { (s.sq p).config v with enable := true, state := 1 } := by
  refine (if_pos (enable_bit v)).trans ((if_neg (not_not.2 hidle)).trans ?_)
  rw [config_enabled]
  exact if_neg hsize

theorem sqEnable_runs (s : State) (m : Master) (p : Fin 4096) (v : Word) (hawake : asleep s = false) (hidle : (s.sq p).state = 0)
    (hsize : v.extractLsb' 0 4 ≠ 0) (hbound : (s.cq (v.extractLsb' 16 10).toNat).enable = true) (hm : masterOk m = true) :
    does (.sqEnable m p v) s fun t =>
      t.sq p = { s.sq p with loc := v.getLsbD 30, prio := v.extractLsb' 28 2, cq := v.extractLsb' 16 10, size := v.extractLsb' 0 4, enable := true, state := 1 } ∧ t = { s with rings := t.rings, dev := { s.dev with armed := t.dev.armed } } := by
  have hwrite : (s.disarm m).writeSqCfg p (v ||| 0x80000000) = (s.disarm m).setSq p { (s.sq p).config v with enable := true, state := 1 } :=
    (writeSqCfg_enable (s := s.disarm m) hidle hsize).trans (if_neg fun h => absurd (hbound.symm.trans h) (by decide))
  exact ⟨_, (issuedBy_of hawake hm _).trans (congrArg _ hwrite), State.sq_setSq .., rfl⟩

theorem sqEnable_unbound (s : State) (m : Master) (p : Fin 4096) (v : Word) (hawake : asleep s = false) (hidle : (s.sq p).state = 0)
    (hsize : v.extractLsb' 0 4 ≠ 0) (hunbound : (s.cq (v.extractLsb' 16 10).toNat).enable = false) (hm : masterOk m = true) :
    does (.sqEnable m p v) s fun t =>
      (t.sq p).state = 0 ∧ (t.sq p).errCode = 3 ∧ (t.sq p).enable = (s.sq p).enable ∧ t = { s with rings := t.rings, dev := { s.dev with armed := t.dev.armed } } := by
  have hwrite : (s.disarm m).writeSqCfg p (v ||| 0x80000000) = (s.disarm m).setSq p { (s.sq p).config v with errCode := 3 } :=
    (writeSqCfg_enable (s := s.disarm m) hidle hsize).trans (if_pos hunbound)
  refine ⟨_, (issuedBy_of hawake hm _).trans (congrArg _ hwrite), ?_, ?_, ?_, rfl⟩ <;> rw [State.sq_setSq]
  · exact hidle
  · rfl

/-! ### Shutting down -/

/-- A ring with nothing fetched, nothing outstanding and its indices equal comes to rest at once. -/
theorem shutSq_rests {s : State} {p : Nat} {reset : Bool} (hfetched : (s.sq p).fetched = []) (haborts : (s.sq p).aborts = [])
    (hindices : (s.sq p).head = (s.sq p).tail) (hjobs : (s.rings.jobs.all fun j => j.sq != p) = true) :
    (s.shutSq p reset).sq p = { s.sq p with
        enable := false, state := 0, reset := false
        head := if (s.sq p).reset || reset then 0 else (s.sq p).head, tail := if (s.sq p).reset || reset then 0 else (s.sq p).tail
        errCode := if (s.sq p).reset || reset then 0 else (s.sq p).errCode } ∧
      (s.shutSq p reset).rings.cqs = s.rings.cqs ∧ s.shutSq p reset = { s with rings := (s.shutSq p reset).rings } := by
  have hnone : (s.rings.jobs.filter fun j => j.sq == p && j.ended.isNone) = [] := by
    refine List.filter_eq_nil_iff.2 fun j hj => ?_
    have hne : j.sq ≠ p := by simpa using List.all_eq_true.1 hjobs j hj
    simp [hne]
  have habort : s.abortJobs p = s := by
    rw [State.abortJobs, hnone]
    rfl
  let q1 : Sq := { s.sq p with enable := false, state := 3, reset := (s.sq p).reset || reset, fetched := [], aborts := [] }
  let s1 := s.setSq p q1
  have hq1 : s1.sq p = q1 := State.sq_setSq ..
  have hshut : s.shutSq p reset = s1.restSq p := by
    simp only [State.shutSq, habort, hfetched, haborts, List.map_nil, List.append_nil, State.drain]
    rw [show (s.setSq p q1).sq p = q1 from hq1]
    rfl
  have hrest : q1.state = 3 ∧ q1.aborts = [] ∧ q1.head = q1.tail ∧ (!(s1.rings.jobs.any fun j => j.sq == p)) = true := by
    refine ⟨rfl, rfl, hindices, ?_⟩
    simpa [s1, State.setSq] using hjobs
  rw [hshut]
  unfold State.restSq
  simp only [hq1]
  rw [if_pos hrest]
  refine ⟨?_, rfl, rfl⟩
  rw [State.sq_setSq]
  simp only [q1, hfetched, haborts]

theorem sqDisable_rests (s : State) (m : Master) (p : Fin 4096) (v : Word) (hawake : asleep s = false)
    (hused : (s.sq p).state = 1 ∨ (s.sq p).state = 2) (hfetched : (s.sq p).fetched = []) (haborts : (s.sq p).aborts = [])
    (hindices : (s.sq p).head = (s.sq p).tail) (hjobs : (s.rings.jobs.all fun j => j.sq != p.val) = true) (hm : masterOk m = true) :
    does (.sqDisable m p v) s fun t =>
      (t.sq p).state = 0 ∧ (t.sq p).enable = false ∧ (t.sq p).size = (s.sq p).size ∧ t.rings.cqs = s.rings.cqs ∧ t = { s with rings := t.rings, dev := { s.dev with armed := t.dev.armed } } := by
  have hwrite : (s.disarm m).writeSqCfg p (v &&& 0x7FFFFFFF) = (s.disarm m).shutSq p false := by
    have hidle : ¬ (s.sq p).state = 0 := by rcases hused with h | h <;> simp [h]
    have hshuts : ¬ (s.sq p).state = 3 := by rcases hused with h | h <;> simp [h]
    exact (if_neg (disable_bit v)).trans ((if_neg hidle).trans (if_neg hshuts))
  obtain ⟨hsq, hcqs, hframe⟩ := shutSq_rests (s := s.disarm m) (reset := false) hfetched haborts hindices hjobs
  refine ⟨_, (issuedBy_of hawake hm _).trans (congrArg _ hwrite), ?_, ?_, ?_, hcqs, ?_⟩
  · rw [hsq]
  · rw [hsq]
  · rw [hsq]
    rfl
  · generalize (s.disarm m).shutSq p false = u at hframe
    rw [hframe]
    rfl

theorem sqReset_zeroes (s : State) (m : Master) (p : Fin 4096) (hawake : asleep s = false) (hfetched : (s.sq p).fetched = [])
    (haborts : (s.sq p).aborts = []) (hindices : (s.sq p).head = (s.sq p).tail) (hjobs : (s.rings.jobs.all fun j => j.sq != p.val) = true)
    (hm : masterOk m = true) :
    does (.sqReset m p) s fun t =>
      (t.sq p).state = 0 ∧ (t.sq p).enable = false ∧ (t.sq p).head = 0 ∧ (t.sq p).tail = 0 ∧ (t.sq p).errCode = 0 ∧ t.rings.cqs = s.rings.cqs ∧ t = { s with rings := t.rings, dev := { s.dev with armed := t.dev.armed } } := by
  obtain ⟨hsq, hcqs, hframe⟩ := shutSq_rests (s := s.disarm m) (reset := true) hfetched haborts hindices hjobs
  refine ⟨_, issuedBy_of hawake hm _, ?_, ?_, ?_, ?_, ?_, hcqs, ?_⟩
  · rw [hsq]
  · rw [hsq]
  · rw [hsq]
    exact if_pos (by simp)
  · rw [hsq]
    exact if_pos (by simp)
  · rw [hsq]
    exact if_pos (by simp)
  · generalize (s.disarm m).shutSq p true = u at hframe
    rw [hframe]
    rfl

/-! ### Completion rings -/

theorem cqConfig_enabled (q : Cq) (v : Word) : q.config (v ||| 0x80000000) = q.config v := by
  have hlocal : (v ||| 0x80000000).getLsbD 30 = v.getLsbD 30 := by simp
  simp only [Cq.config, hlocal, BitVec.extractLsb'_or, show (0x80000000 : Word).extractLsb' 0 4 = 0 by decide]
  simp

theorem cqConfig_disabled (v : Word) : (v &&& 0x7FFFFFFF).extractLsb' 0 4 = v.extractLsb' 0 4 := by
  simp only [BitVec.extractLsb'_and, show (0x7FFFFFFF : Word).extractLsb' 0 4 = BitVec.allOnes 4 by decide, BitVec.and_allOnes]

theorem cqEnable_takes (s : State) (m : Master) (c : Fin 1024) (v : Word) (hawake : asleep s = false) (hm : masterOk m = true) :
    does (.cqEnable m c v) s fun t =>
      t.cq c = { s.cq c with loc := v.getLsbD 30, size := v.extractLsb' 0 4, enable := v.extractLsb' 0 4 != 0 } ∧ t = { s with rings := t.rings, dev := { s.dev with armed := t.dev.armed } } := by
  have hwrite : (s.disarm m).writeCqCfg c (v ||| 0x80000000) =
      (s.disarm m).setCq c { (s.cq c).config v with enable := ((s.cq c).config v).size != 0 } := by
    refine (if_pos (enable_bit v)).trans ?_
    rw [cqConfig_enabled]
    rfl
  exact ⟨_, (issuedBy_of hawake hm _).trans (congrArg _ hwrite), State.cq_setCq .., rfl⟩

/-- A completion ring that no ring in use names is shut down without them. -/
theorem shutCq_unused {s : State} {c : Nat} (hunused : (s.rings.sqs.all fun q => q.2.cq.toNat != c || q.2.state == 0) = true) :
    s.shutCq c = (s.setCq c { s.cq c with
      enable := false, staged := [], reserved := 0
      discarded := (s.cq c).discarded + BitVec.ofNat 32 (s.cq c).staged.length }).settleInts := by
  have hnone : (s.rings.sqs.filterMap fun q => if q.2.ringCq = c ∧ q.2.state ≠ 0 then some q.1 else none) = [] := by
    refine List.filterMap_eq_nil_iff.2 fun q hq => if_neg fun h => ?_
    obtain ⟨hnames, hused⟩ := h
    have hidle : q.2.state = 0 := by simpa [show q.2.cq.toNat = c from hnames] using List.all_eq_true.1 hunused q hq
    exact hused hidle
  simp only [State.shutCq, hnone, List.foldl_nil]

theorem cqDisable_drops (s : State) (m : Master) (c : Fin 1024) (v : Word) (hawake : asleep s = false) (henabled : (s.cq c).enable = true)
    (hunused : (s.rings.sqs.all fun q => q.2.cq.toNat != c.val || q.2.state == 0) = true) (hm : masterOk m = true) :
    does (.cqDisable m c v) s fun t =>
      (t.cq c).enable = false ∧ (t.cq c).staged = [] ∧ (t.cq c).discarded = (s.cq c).discarded + BitVec.ofNat 32 (s.cq c).staged.length ∧ (t.cq c).size = v.extractLsb' 0 4 ∧ t = { s with rings := t.rings, dev := { s.dev with armed := t.dev.armed }, intc := t.intc, out := t.out } := by
  let s1 := (s.disarm m).shutCq c
  have hshut : s1 = _ := shutCq_unused (s := s.disarm m) hunused
  have hcq : s1.cq c = { s.cq c with
      enable := false, staged := [], reserved := 0, discarded := (s.cq c).discarded + BitVec.ofNat 32 (s.cq c).staged.length } := by
    rw [hshut, settleInts_cq, State.cq_setCq]
    rfl
  have hwrite : (s.disarm m).writeCqCfg c (v &&& 0x7FFFFFFF) = s1.setCq c ((s1.cq c).config (v &&& 0x7FFFFFFF)) := by
    have henabled' : ((s.disarm m).cq c).enable = true := henabled
    refine (if_neg (disable_bit v)).trans ?_
    simp only [henabled', if_true]
    rfl
  have hall : Touches [.rings, .dev, .intc, .out] s (s1.setCq c ((s1.cq c).config (v &&& 0x7FFFFFFF))) := by
    rw [hshut]
    exact (Touches.refl s).disarm.setRings.settleInts.setRings
  refine ⟨_, (issuedBy_of hawake hm _).trans (congrArg _ hwrite), ?_, ?_, ?_, ?_, hall.frame ?_⟩
  · rw [State.cq_setCq, hcq]
    rfl
  · rw [State.cq_setCq, hcq]
    rfl
  · rw [State.cq_setCq, hcq]
    rfl
  · rw [State.cq_setCq]
    exact cqConfig_disabled v
  · have hdev : s1.dev = (s.disarm m).dev := by
      rw [hshut, State.settleInts_dev]
      rfl
    simp [armed_only hdev]

theorem cqReset_zeroes (s : State) (m : Master) (c : Fin 1024) (hawake : asleep s = false)
    (hunused : (s.rings.sqs.all fun q => q.2.cq.toNat != c.val || q.2.state == 0) = true) (hm : masterOk m = true) :
    does (.cqReset m c) s fun t =>
      (t.cq c).enable = false ∧ (t.cq c).head = 0 ∧ (t.cq c).tail = 0 ∧ (t.cq c).staged = [] ∧ t = { s with rings := t.rings, dev := { s.dev with armed := t.dev.armed }, intc := t.intc, out := t.out } := by
  let s1 := (s.disarm m).shutCq c
  have hshut : s1 = _ := shutCq_unused (s := s.disarm m) hunused
  have hcq : s1.cq c = { s.cq c with
      enable := false, staged := [], reserved := 0, discarded := (s.cq c).discarded + BitVec.ofNat 32 (s.cq c).staged.length } := by
    rw [hshut, settleInts_cq, State.cq_setCq]
    rfl
  let t := (s1.setCq c { s1.cq c with head := 0, tail := 0 }).settleInts
  have htcq : t.cq c = { s1.cq c with head := 0, tail := 0 } := by rw [settleInts_cq, State.cq_setCq]
  have hall : Touches [.rings, .dev, .intc, .out] s t := by
    simp only [t, hshut]
    exact (Touches.refl s).disarm.setRings.settleInts.setRings.settleInts
  have hdev : t.dev = (s.disarm m).dev := by
    simp only [t, State.settleInts_dev, State.setCq, hshut]
  refine ⟨t, issuedBy_of hawake hm _, ?_, ?_, ?_, ?_, hall.frame (by simp [armed_only hdev])⟩
  · rw [htcq, hcq]
  · rw [htcq]
  · rw [htcq]
  · rw [htcq, hcq]

/-- Settles O33: each write of a ring's register is its branch; what shuts down with nothing outstanding comes to rest at once. -/
theorem ringControl : Obligations.RingControl :=
  ⟨sqDoorbell_advances, sqDoorbell_outside, sqDoorbell_idle, cqDoorbell_returns, cqDoorbell_outside, sqEnable_runs, sqEnable_unbound,
   sqDisable_rests, sqReset_zeroes, cqEnable_takes, cqDisable_drops, cqReset_zeroes⟩

end Sys2Proof.Proofs
end

section
/-! PROOFS. Blocks are handed out, named and released (O21). -/

open Sys2Proof Sys2Proof.Machine

-- One proof at a time: a thread for each proof would pass the limit that the check sets to memory.
set_option Elab.async false

namespace Sys2Proof.Proofs

/-! ### A free number -/

theorem mem_insNat {x y : Nat} {l : List Nat} : y ∈ insNat x l ↔ y = x ∨ y ∈ l := by
  induction l with
  | nil => simp [insNat]
  | cons z r ih =>
    unfold insNat
    split
    · simp
    · simp only [List.mem_cons, ih]
      tauto

theorem insNat_rising {x : Nat} {l : List Nat} (h : l.Pairwise (· ≤ ·)) : (insNat x l).Pairwise (· ≤ ·) := by
  induction l with
  | nil => simp [insNat]
  | cons z r ih =>
    obtain ⟨hz, hr⟩ := List.pairwise_cons.1 h
    unfold insNat
    split
    next hle => exact List.pairwise_cons.2 ⟨fun y hy => (List.mem_cons.1 hy).elim (fun e => e ▸ hle) fun hy => hle.trans (hz y hy), h⟩
    next hgt =>
      exact List.pairwise_cons.2 ⟨fun y hy => (mem_insNat.1 hy).elim (fun e => e ▸ (Nat.lt_of_not_le hgt).le) (hz y), ih hr⟩

/-- Sorting by insertion keeps the members and lists them in rising order. -/
theorem foldl_insNat (l acc : List Nat) (hacc : acc.Pairwise (· ≤ ·)) :
    (l.foldl (fun acc x => insNat x acc) acc).Pairwise (· ≤ ·) ∧ ∀ y, y ∈ l.foldl (fun acc x => insNat x acc) acc ↔ y ∈ l ∨ y ∈ acc := by
  induction l generalizing acc with
  | nil => exact ⟨hacc, fun y => by simp⟩
  | cons x r ih =>
    obtain ⟨hrising, hmem⟩ := ih (insNat x acc) (insNat_rising hacc)
    refine ⟨hrising, fun y => (hmem y).trans ?_⟩
    rw [mem_insNat, List.mem_cons]
    tauto

theorem sortNat_rising (l : List Nat) : (sortNat l).Pairwise (· ≤ ·) := (foldl_insNat l [] .nil).1

theorem mem_sortNat {l : List Nat} {y : Nat} : y ∈ sortNat l ↔ y ∈ l := by
  simpa [sortNat] using (foldl_insNat l [] .nil).2 y

theorem not_mem_cons {y x : Nat} {l : List Nat} (h : y ≠ x ∧ y ∉ l) : y ∉ x :: l := by simpa using h

/-- A gap of a rising list lies at or above the start and outside the list. -/
theorem nthGap_gap {l : List Nat} (h : l.Pairwise (· ≤ ·)) (k i : Nat) : k ≤ nthGap l k i ∧ nthGap l k i ∉ l := by
  induction l generalizing k i with
  | nil => simp [nthGap]
  | cons j r ih =>
    obtain ⟨hj, hr⟩ := List.pairwise_cons.1 h
    unfold nthGap
    split
    next hbelow =>
      obtain ⟨hle, hout⟩ := ih hr k i
      exact ⟨hle, not_mem_cons ⟨by omega, hout⟩⟩
    next =>
      split
      next hgap => exact ⟨Nat.le_add_right .., not_mem_cons ⟨by omega, fun hmem => absurd (hj _ hmem) (by omega)⟩⟩
      next =>
        obtain ⟨hle, hout⟩ := ih hr (j + 1) (i - (j - k))
        exact ⟨by omega, not_mem_cons ⟨by omega, hout⟩⟩

theorem pickFree_not_mem (used : List Nat) (bound free : Nat) : pickFree used bound free ∉ used :=
  fun h => (nthGap_gap (sortNat_rising used) 0 _).2 (mem_sortNat.2 h)

/-! ### Allocation -/

theorem blockAllocate_hands (s : State) (m : Master) (h : Holder) (l : Bool) (hawake : asleep s = false)
    (hunreserved : unreserved s.pool ≠ 0) (hframe : freeFrames s.pool (freeFrames s.pool false == 0) ≠ 0) (hm : masterOk m = true) :
    does (.blockAllocate m h l) s fun t =>
      ∃ b, b ∉ usedBlocks s.pool ∧ t.out = s.out ++ [.block m (some (b, nextGen (s.pool.desc b).gen))] ∧ (t.pool.desc b).gen = nextGen (s.pool.desc b).gen ∧ (t.pool.desc b).count = 1 ∧ (t.pool.desc b).owner = h ∧ (t.pool.desc b).mark = markFor h l ∧ (t.pool.desc b).ddr = (freeFrames s.pool false == 0) ∧ (∀ c, c ≠ b → t.pool.desc c = s.pool.desc c) ∧ t = { s with pool := t.pool, clk := t.clk, out := t.out } := by
  let b := pickFree (usedBlocks s.pool) (s.pool.hbmFrames + s.pool.ddrFrames) (s.clk.free + 1)
  let f := pickFree (usedFrames s.pool (freeFrames s.pool false == 0)) (s.pool.frames (freeFrames s.pool false == 0)) (s.clk.free + 1 + 1)
  let d : Desc := ⟨f, freeFrames s.pool false == 0, markFor h l, nextGen (s.pool.desc b).gen, false, false, 1, h, freeBlock true s.clk.free⟩
  have halloc : s.freed.allocBlock h (markFor h l) (freeBlock true s.clk.free) = (some (b, nextGen (s.pool.desc b).gen), { s.freed with
      pool := { s.pool with
        descs := put s.pool.descs b d
        counters := if freeFrames s.pool false == 0 then bump s.pool.counters 5 else s.pool.counters }
      clk := { s.freed.clk with free := s.freed.clk.free + 2 } }) := if_neg hframe
  have hexec : exec (.blockAllocate m h l) s = .next ((s.freed.allocBlock h (markFor h l) (freeBlock true s.clk.free)).2.emit
      (.block m (s.freed.allocBlock h (markFor h l) (freeBlock true s.clk.free)).1)) :=
    (issuedBy_of hawake hm _).trans (if_neg hunreserved)
  rw [halloc] at hexec
  have hdesc : lookD ({} : Desc) (put s.pool.descs b d) b = d := lookD_put_same ..
  refine ⟨_, hexec, b, pickFree_not_mem (usedBlocks s.pool) _ _, rfl, ?_, ?_, ?_, ?_, ?_, fun c hc => lookD_put_ne _ _ _ hc, rfl⟩
  · exact congrArg Desc.gen hdesc
  · exact congrArg Desc.count hdesc
  · exact congrArg Desc.owner hdesc
  · exact congrArg Desc.mark hdesc
  · exact congrArg Desc.ddr hdesc

theorem blockAllocate_none (s : State) (m : Master) (h : Holder) (l : Bool) (hawake : asleep s = false) (hnone : unreserved s.pool = 0)
    (hm : masterOk m = true) :
    does (.blockAllocate m h l) s fun t =>
      t = { s with out := s.out ++ [.block m none] } :=
  ⟨_, (issuedBy_of hawake hm _).trans (if_pos hnone), rfl⟩

/-! ### Naming and release -/

theorem blockName_names (s : State) (m : Master) (b : BitVec 29) (g : BitVec 16) (h : Holder) (hawake : asleep s = false)
    (hgen : (s.pool.desc b.toNat).gen = g) (hm : masterOk m = true) :
    does (.blockName m b g h) s fun t =>
      t.pool.desc b.toNat = { s.pool.desc b.toNat with count := (s.pool.desc b.toNat).count + 1, mark := if (s.pool.desc b.toNat).owner = h then (s.pool.desc b.toNat).mark else .shared } ∧ t = { s with pool := { s.pool with descs := t.pool.descs } } := by
  have hname : s.nameBlock m b.toNat g h = s.setDesc b.toNat { s.pool.desc b.toNat with
      count := (s.pool.desc b.toNat).count + 1, mark := if (s.pool.desc b.toNat).owner = h then (s.pool.desc b.toNat).mark else .shared } :=
    if_neg (not_not.2 hgen)
  exact ⟨_, (issuedBy_of hawake hm _).trans (congrArg _ hname), lookD_put_same .., rfl⟩

/-- A refused operation on a descriptor is counted and recorded, the descriptors as before. -/
theorem refuseDesc_facts (s : State) (m : Master) (b : Nat) :
    (s.refuseDesc m b).pool.descs = s.pool.descs ∧ lookD 0 (s.refuseDesc m b).pool.counters 0x0E = lookD 0 s.pool.counters 0x0E + 1 ∧
      (s.refuseDesc m b).faults.valid = true ∧
      (s.faults.valid = false → (s.refuseDesc m b).faults.kind = 0x05 ∧ (s.refuseDesc m b).faults.master = m ∧
        (s.refuseDesc m b).faults.addr = BitVec.ofNat 48 b) ∧
      (s.refuseDesc m b).dict = s.dict ∧ (s.refuseDesc m b).encs = s.encs ∧ (s.refuseDesc m b).boot = s.boot := by
  have hall : Touches [.clk, .pins, .store, .paths, .intc, .mem, .faults, .out] (s.poolCount 0x0E) (s.refuseDesc m b) :=
    (Touches.refl _).contained
  have hpool : (s.refuseDesc m b).pool = (s.poolCount 0x0E).pool := hall.same .pool
  refine ⟨by rw [hpool]; rfl, ?_, contained_valid .., fun hfree => ?_, hall.same .dict, hall.same .encs, hall.same .boot⟩
  · rw [hpool]
    exact lookD_upd_same ..
  · obtain ⟨hkind, -, -, hmaster, haddr⟩ := contained_first (s.poolCount 0x0E) 0x05 .descriptor m b hfree
    exact ⟨hkind, hmaster, haddr⟩

theorem blockName_refused (s : State) (m : Master) (b : BitVec 29) (g : BitVec 16) (h : Holder) (hawake : asleep s = false)
    (hgen : (s.pool.desc b.toNat).gen ≠ g) (hm : masterOk m = true) :
    does (.blockName m b g h) s fun t =>
      t.pool.descs = s.pool.descs ∧ lookD 0 t.pool.counters 0x0E = lookD 0 s.pool.counters 0x0E + 1 ∧ t.faults.valid = true ∧ (s.faults.valid = false → t.faults.kind = 0x05 ∧ t.faults.master = m ∧ t.faults.addr = BitVec.ofNat 48 b.toNat) ∧ t.dict = s.dict ∧ t.encs = s.encs ∧ t.boot = s.boot := by
  have hname : s.nameBlock m b.toNat g h = s.refuseDesc m b.toNat := if_pos hgen
  exact ⟨_, (issuedBy_of hawake hm _).trans (congrArg _ hname), refuseDesc_facts s m b.toNat⟩

theorem blockRelease_last (s : State) (m : Master) (b : BitVec 29) (g : BitVec 16) (hawake : asleep s = false)
    (hgen : (s.pool.desc b.toNat).gen = g) (hcount : (s.pool.desc b.toNat).count = 1) (hgrey : 2 ≤ b.toNat) (hm : masterOk m = true) :
    does (.blockRelease m b g) s fun t =>
      (t.pool.desc b.toNat).count = 0 ∧ (t.pool.desc b.toNat).mark = .unused ∧ (t.pool.desc b.toNat).gen = g ∧ t = { s with pool := { s.pool with descs := t.pool.descs } } := by
  have hrelease : s.releaseBlock m b.toNat g = s.setDesc b.toNat { s.pool.desc b.toNat with
      count := 0, mark := .unused, poisoned := false, data := [] } := by
    refine (if_neg ?_).trans (congrArg _ (if_pos hcount))
    rintro (hne | hzero | ⟨hlow, -⟩)
    · exact hne hgen
    · exact absurd (hcount.symm.trans hzero) (by decide)
    · omega
  have hdesc : lookD ({} : Desc) (s.setDesc b.toNat { s.pool.desc b.toNat with
      count := 0, mark := .unused, poisoned := false, data := [] }).pool.descs b.toNat = _ := lookD_put_same ..
  refine ⟨_, (issuedBy_of hawake hm _).trans (congrArg _ hrelease), ?_, ?_, ?_, rfl⟩
  · exact congrArg Desc.count hdesc
  · exact congrArg Desc.mark hdesc
  · exact (congrArg Desc.gen hdesc).trans hgen

theorem blockRelease_lowers (s : State) (m : Master) (b : BitVec 29) (g : BitVec 16) (hawake : asleep s = false)
    (hgen : (s.pool.desc b.toNat).gen = g) (hcount : 1 < (s.pool.desc b.toNat).count) (hm : masterOk m = true) :
    does (.blockRelease m b g) s fun t =>
      t.pool.desc b.toNat = { s.pool.desc b.toNat with count := (s.pool.desc b.toNat).count - 1 } ∧ t = { s with pool := { s.pool with descs := t.pool.descs } } := by
  have hrelease : s.releaseBlock m b.toNat g = s.setDesc b.toNat { s.pool.desc b.toNat with count := (s.pool.desc b.toNat).count - 1 } := by
    have hone : (s.pool.desc b.toNat).count ≠ 1 := fun h => absurd hcount (by rw [h]; decide)
    refine (if_neg ?_).trans (congrArg _ (if_neg hone))
    rintro (hne | hzero | ⟨-, hlast⟩)
    · exact hne hgen
    · exact absurd hcount (by rw [hzero]; decide)
    · exact hone hlast
  exact ⟨_, (issuedBy_of hawake hm _).trans (congrArg _ hrelease), lookD_put_same .., rfl⟩

theorem blockRelease_refused (s : State) (m : Master) (b : BitVec 29) (g : BitVec 16) (hawake : asleep s = false)
    (hrefused : (s.pool.desc b.toNat).gen ≠ g ∨ (s.pool.desc b.toNat).count = 0 ∨ (b.toNat < 2 ∧ (s.pool.desc b.toNat).count = 1))
    (hm : masterOk m = true) :
    does (.blockRelease m b g) s fun t =>
      t.pool.descs = s.pool.descs ∧ lookD 0 t.pool.counters 0x0E = lookD 0 s.pool.counters 0x0E + 1 ∧ t.faults.valid = true ∧ (s.faults.valid = false → t.faults.kind = 0x05 ∧ t.faults.master = m ∧ t.faults.addr = BitVec.ofNat 48 b.toNat) ∧ t.dict = s.dict ∧ t.encs = s.encs ∧ t.boot = s.boot := by
  have hrelease : s.releaseBlock m b.toNat g = s.refuseDesc m b.toNat := if_pos hrefused
  exact ⟨_, (issuedBy_of hawake hm _).trans (congrArg _ hrelease), refuseDesc_facts s m b.toNat⟩

/-- Settles O21: a gap of the sorted list of used numbers is no used number; the other clauses are the branches of one descriptor's row. -/
theorem blocksAreHanded : Obligations.BlocksAreHanded :=
  ⟨blockAllocate_hands, blockAllocate_none, blockName_names, blockName_refused, blockRelease_last, blockRelease_lowers, blockRelease_refused⟩

end Sys2Proof.Proofs
end

section
/-! PROOFS. Entries are fetched and dispatched, and jobs complete (O34). -/

open Sys2Proof Sys2Proof.Machine

-- One proof at a time: a thread for each proof would pass the limit that the check sets to memory.
set_option Elab.async false

namespace Sys2Proof.Proofs

/-! ### A standing first-error record -/

section
variable {f g : Faults}

theorem Stands.valid (h : Stands f g) (hvalid : f.valid = true) : g.valid = true := (congrArg Prod.fst (h hvalid)).trans hvalid

theorem Stands.kind (h : Stands f g) (hvalid : f.valid = true) : g.kind = f.kind := congrArg (fun x => x.2.1) (h hvalid)

theorem Stands.master (h : Stands f g) (hvalid : f.valid = true) : g.master = f.master := congrArg (fun x => x.2.2.2.2.1) (h hvalid)

theorem Stands.addr (h : Stands f g) (hvalid : f.valid = true) : g.addr = f.addr := congrArg (fun x => x.2.2.2.2.2) (h hvalid)

end

/-! ### Fetching -/

theorem entryFetch_appends (s : State) (p : Fin 4096) (l : List Bytes) (hawake : asleep s = false) (hruns : (s.sq p).state = 1)
    (hhost : (s.sq p).loc = false) (hsome : l ≠ []) (hfew : l.length ≤ 8)
    (hwait : l.length ≤ ringDist (s.sq p).size.toNat (s.sq p).head.toNat (s.sq p).tail.toNat) :
    does (.entryFetch p (some l)) s fun t =>
      t.sq p = { s.sq p with head := BitVec.ofNat 16 (((s.sq p).head.toNat + l.length) % 2 ^ ((s.sq p).size.toNat + 1)), fetched := (s.sq p).fetched ++ l.map fun b => slice b 0 64 } ∧ t = { s with rings := t.rings } := by
  have hk : ¬ (min 8 (ringDist (s.sq p).size.toNat (s.sq p).head.toNat (s.sq p).tail.toNat) = 0 ∨ ((s.sq p).state ≠ 1 ∧ (s.sq p).state ≠ 3)) := by
    have hpos := List.length_pos_iff.2 hsome
    simp only [hruns, ne_eq, not_true_eq_false, false_and, or_false]
    omega
  have htake : l.take (min 8 (ringDist (s.sq p).size.toNat (s.sq p).head.toNat (s.sq p).tail.toNat)) = l := List.take_of_length_le (by omega)
  have hrunning : ¬ (s.sq p).state = 3 := by rw [hruns]; decide
  have hexec : exec (.entryFetch p (some l)) s = .next (s.setSq p { s.sq p with
      head := BitVec.ofNat 16 (((s.sq p).head.toNat + l.length) % 2 ^ ((s.sq p).size.toNat + 1))
      fetched := (s.sq p).fetched ++ l.map fun b => slice b 0 64 }) := by
    refine (awake_of hawake _).trans ((if_neg hk).trans ?_)
    refine (if_neg (by simp [hhost])).trans ?_
    simp only [htake]
    refine (if_neg (by simpa using hsome)).trans ?_
    simp only [State.takeEntries, if_neg hrunning, List.length_map]
  exact ⟨_, hexec, State.sq_setSq .., rfl⟩

/-- A ring that has failed, as its aborted entries complete. -/
structure Failed (p : Nat) (fetched : List Bytes) (s : State) : Prop where
  state : (s.sq p).state = 2
  code : (s.sq p).errCode = 2
  fetched : (s.sq p).fetched = fetched

theorem Failed.of_sqs {p : Nat} {l : List Bytes} {s t : State} (h : Failed p l s) (hsq : t.sq p = s.sq p) : Failed p l t := by
  obtain ⟨hstate, hcode, hfetched⟩ := h
  rw [← hsq] at hstate hcode hfetched
  exact ⟨hstate, hcode, hfetched⟩

/-- The write of a completion leaves the submission rings. -/
theorem writeCqe_sqs (s : State) (c : Nat) (e : Cqe) : (s.writeCqe c e).rings.sqs = s.rings.sqs := by
  have hwrite (t : State) (a : Nat) (b : Bytes) : (t.devWrite mHost .descriptor a b).rings = t.rings :=
    (Touches.refl t).devWrite (hl := List.Subset.refl _) |>.same .rings
  unfold State.writeCqe
  dsimp only
  have hput (q1 : Cq) (b : Bytes) (a : Nat) : (if (s.cq c).loc then (s.setCq c q1).devWrite mHost .descriptor a b
      else (s.setCq c q1).emit (.hostWrite (BitVec.ofNat 64 a) b)).rings.sqs = s.rings.sqs := by
    split
    · rw [hwrite]
      rfl
    · rfl
  split
  · rw [State.raise_rings, hput]
  · rw [State.settleInts_rings, hput]

theorem complete_failed {p c : Nat} {l : List Bytes} {s : State} {e : Cqe} (h : Failed p l s) (he : e.sq = p) : Failed p l (s.complete c e) := by
  subst he
  obtain ⟨hstate, hcode, hfetched⟩ := h
  have hdone : Failed e.sq l (s.setSq e.sq { s.sq e.sq with done := (s.sq e.sq).done + 1 }) := by
    constructor <;> rw [State.sq_setSq] <;> assumption
  unfold State.complete
  dsimp only
  split
  · exact hdone.of_sqs rfl
  · split
    · exact hdone.of_sqs rfl
    · exact hdone.of_sqs (congrArg (lookD _ · e.sq) (writeCqe_sqs ..))

theorem restSq_failed {p : Nat} {l : List Bytes} {s : State} (h : Failed p l s) : Failed p l (s.restSq p) := by
  have hfailed : ¬ ((s.sq p).state = 3 ∧ (s.sq p).aborts = [] ∧ (s.sq p).head = (s.sq p).tail ∧
      (!(s.rings.jobs.any fun j => j.sq == p)) = true) := by
    rw [h.state]
    exact fun hshuts => absurd hshuts.1 (by decide)
  rw [State.restSq, if_neg hfailed]
  exact h

theorem drainAborts_failed {p : Nat} {l : List Bytes} (n : Nat) {s : State} (h : Failed p l s) : Failed p l (drainAborts n s p) := by
  induction n generalizing s with
  | zero => exact restSq_failed h
  | succ n ih =>
    unfold drainAborts
    dsimp only
    split
    · exact restSq_failed h
    · split
      · exact h
      · refine ih (complete_failed ?_ rfl)
        obtain ⟨hstate, hcode, hfetched⟩ := h
        constructor <;> rw [State.sq_setSq] <;> assumption

theorem entryFetch_fails (s : State) (p : Fin 4096) (hawake : asleep s = false) (hruns : (s.sq p).state = 1) (hhost : (s.sq p).loc = false)
    (hwait : ringDist (s.sq p).size.toNat (s.sq p).head.toNat (s.sq p).tail.toNat ≠ 0) :
    does (.entryFetch p none) s fun t =>
      (t.sq p).state = 2 ∧ (t.sq p).errCode = 2 ∧ (t.sq p).fetched = (s.sq p).fetched ∧ t.faults.valid = true ∧ (s.faults.valid = false → t.faults.kind = 0x09 ∧ t.faults.master = mHost) ∧ t.dict = s.dict := by
  let a := (s.sq p).base.toNat + 64 * (((s.sq p).head.toNat + 0) % 2 ^ (s.sq p).size.toNat)
  let k := min 8 (ringDist (s.sq p).size.toNat (s.sq p).head.toNat (s.sq p).tail.toNat)
  let s1 := s.contained 0x09 .descriptor mHost a
  have hk : ¬ (k = 0 ∨ ((s.sq p).state ≠ 1 ∧ (s.sq p).state ≠ 3)) := by
    simp only [hruns, ne_eq, not_true_eq_false, false_and, or_false]
    omega
  have hexec : exec (.entryFetch p none) s = .next (s1.takeEntries p k none) := by
    refine (awake_of hawake _).trans ((if_neg hk).trans ?_)
    simp only [hhost, Bool.false_eq_true, if_false]
    rfl
  have hrings : s1.rings = s.rings := (Touches.refl s).contained (hl := List.Subset.refl _) |>.same .rings
  have hsq : s1.sq p = s.sq p := by rw [State.sq, State.sq, hrings]
  have hrunning : ¬ (s1.sq p).state = 3 := by rw [hsq, hruns]; decide
  have hfailed : Failed p (s.sq p).fetched (s1.takeEntries p k none) := by
    simp only [State.takeEntries, if_neg hrunning]
    refine drainAborts_failed _ ?_
    constructor <;> rw [State.sq_setSq]
    rw [hsq]
  have hall : Touches [.clk, .pins, .store, .paths, .pool, .rings, .intc, .mem, .faults, .out] s1 (s1.takeEntries p k none) :=
    (Touches.refl s1).takeEntries
  have hdict : s1.dict = s.dict := (Touches.refl s).contained (hl := List.Subset.refl _) |>.same .dict
  have hvalid : s1.faults.valid = true := contained_valid ..
  refine ⟨_, hexec, hfailed.state, hfailed.code, hfailed.fetched, hall.stands.valid hvalid, fun hfree => ?_, (hall.same .dict).trans hdict⟩
  obtain ⟨hkind, -, -, hmaster, -⟩ := contained_first s 0x09 .descriptor mHost a hfree
  exact ⟨(hall.stands.kind hvalid).trans hkind, (hall.stands.master hvalid).trans hmaster⟩

/-! ### Dispatch -/

theorem dispatch_takes (s : State) (p : Nat) (w : Sq) (b : Bytes) (r : List Bytes) (hawake : asleep s = false)
    (hsole : s.rings.sqs = [(p, w)]) (hmay : mayDispatch s p w = true) (hfetched : w.fetched = b :: r) :
    does (.dispatch) s fun t =>
      ((t.rings.jobs.getLast?).map fun j => (j.id, j.sq, j.tag.toNat, j.opcode.toNat, j.addr.toNat, j.ended.isSome)) = some (s.rings.nextJob, p, le32 b 4 % 2 ^ 32, u8 b 0, le64 b 0x10 % 2 ^ 64, badEntry b) ∧ t.rings.jobs.length = s.rings.jobs.length + 1 ∧ (t.sq p).fetched = r ∧ (t.cq w.cq.toNat).reserved = (s.cq w.cq.toNat).reserved + 1 ∧ t.rings.nextJob = s.rings.nextJob + 1 ∧ t = { s with rings := t.rings } := by
  let j : HostJob :=
    { id := s.rings.nextJob, sq := p, tag := BitVec.ofNat 32 (le32 b 4), opcode := BitVec.ofNat 8 (u8 b 0)
      flags := BitVec.ofNat 8 (u8 b 1), object := BitVec.ofNat 32 (le32 b 8), addr := BitVec.ofNat 64 (le64 b 0x10)
      len := BitVec.ofNat 32 (le32 b 0x18), params := b.drop 0x20
      ended := if badEntry b then some (2, 0, 0) else none }
  let s1 := (s.setSq p { w with fetched := r }).setCq w.ringCq { s.cq w.ringCq with reserved := (s.cq w.ringCq).reserved + 1 }
  have hexec : exec .dispatch s = .next { s1 with rings := { s1.rings with
      jobs := s1.rings.jobs ++ [j], nextJob := s1.rings.nextJob + 1, turn := put s1.rings.turn w.prio.toNat p } } := by
    refine (awake_of hawake _).trans ?_
    simp only [hsole, List.filter_cons, hmay, if_true, List.filter_nil, minBy, hfetched]
    rfl
  have hbyte : u8 b 0 % 256 = u8 b 0 := by
    have := (b.getD 0 0).isLt
    simp only [u8]
    omega
  have hcq : s1.cq w.ringCq = { s.cq w.ringCq with reserved := (s.cq w.ringCq).reserved + 1 } := State.cq_setCq ..
  refine ⟨_, hexec, ?_, ?_, ?_, congrArg Cq.reserved hcq, rfl, rfl⟩
  · simp only [List.getLast?_append, List.getLast?_singleton]
    by_cases hbad : badEntry b <;> simp [j, hbad, hbyte]
  · simp [s1, State.setCq, State.setSq]
  · change (lookD ({} : Sq) (put s.rings.sqs p { w with fetched := r }) p).fetched = r
    rw [lookD_put_same]

/-! ### Completion -/

/-- A source that writes no event changes the controller and the outputs. -/
theorem raise_eventless (s : State) {n : Nat} (m : Master) (d : Bytes) (hn : 0x17 < n) : Touches [.intc, .out] s (s.raise n m d) := by
  have hraise : s.raise n m d = ({ s with intc := s.intc.pend n } : State).settleInts := by
    rw [State.raise, State.raise0, if_neg fun h => absurd h.2.1 (Nat.not_le.2 hn)]
  rw [hraise]
  exact (Touches.refl s).setIntc.settleInts

/-- A completion written into a ring of the host: the place at its tail, and the tail past it. -/
theorem writeCqe_host {s : State} {c : Nat} (e : Cqe) (hhost : (s.cq c).loc = false) :
    (s.writeCqe c e).rings = (s.setCq c { s.cq c with tail := BitVec.ofNat 16 (ringNext (s.cq c).size.toNat (s.cq c).tail.toNat) }).rings ∧
      Output.hostWrite (BitVec.ofNat 64 ((s.cq c).base.toNat + 16 * ((s.cq c).tail.toNat % 2 ^ (s.cq c).size.toNat)))
        (cqeBytes (s.cq c).size.toNat (s.cq c).tail.toNat e) ∈ (s.writeCqe c e).out ∧
      Touches [.rings, .intc, .out] s (s.writeCqe c e) := by
  let q1 : Cq := { s.cq c with tail := BitVec.ofNat 16 (ringNext (s.cq c).size.toNat (s.cq c).tail.toNat) }
  let o := Output.hostWrite (BitVec.ofNat 64 ((s.cq c).base.toNat + 16 * ((s.cq c).tail.toNat % 2 ^ (s.cq c).size.toNat)))
    (cqeBytes (s.cq c).size.toNat (s.cq c).tail.toNat e)
  let s1 := (s.setCq c q1).emit o
  have hwrite : s.writeCqe c e = if q1.full then s1.raise (0x500 + c) mHost (le 4 c) else s1.settleInts := by
    unfold State.writeCqe
    simp only [hhost, Bool.false_eq_true, if_false]
    simp only [s1, q1, o, hhost]
  have hall : Touches [.intc, .out] s1 (s.writeCqe c e) := by
    rw [hwrite]
    exact .ite (raise_eventless _ _ _ (by omega)) (Touches.refl _).settleInts
  have hprefix : s1.out <+: (s.writeCqe c e).out := by
    rw [hwrite]
    split
    · exact (Keeps.refl s1).raise.out
    · exact (Keeps.refl s1).settleInts.out
  refine ⟨hall.same .rings, hprefix.subset (List.mem_append_right _ (List.mem_singleton.2 rfl)), ?_⟩
  exact ((Touches.refl s).setRings.emit).trans (hall.mono (by decide))

/-- With every ring's aborted entries gone, a row looked up has none. -/
theorem sq_aborts {s : State} (p : Nat) (hquiet : (s.rings.sqs.all fun q => q.2.aborts.isEmpty) = true) : (s.sq p).aborts = [] := by
  unfold State.sq lookD
  cases hlook : look s.rings.sqs p with
  | none => rfl
  | some q => simpa using List.all_eq_true.1 hquiet (p, q) (mem_of_look hlook)

/-- A row without aborted entries may be written into rings without any. -/
theorem put_quiet {t : Tab Sq} (p : Nat) {q : Sq} (hquiet : (t.all fun q => q.2.aborts.isEmpty) = true) (hq : q.aborts = []) :
    ((put t p q).all fun q => q.2.aborts.isEmpty) = true := by
  induction t with
  | nil => simp [put, hq]
  | cons x r ih =>
    obtain ⟨hx, hr⟩ := Bool.and_eq_true_iff.1 hquiet
    unfold put
    split <;> [skip; split]
    · simpa [hq] using And.intro hx hr
    · simpa [hq] using hr
    · exact Bool.and_eq_true_iff.2 ⟨hx, ih hr⟩

/-- A ring that does not shut down has no rest to come to. -/
theorem restSq_running {s : State} {p : Nat} (h : (s.sq p).state ≠ 3) : s.restSq p = s := if_neg fun hshuts => h hshuts.1

theorem jobComplete_writes (s : State) (n : Nat) (j : HostJob) (st : BitVec 8) (res : Word) (inf : Word) (hawake : asleep s = false)
    (hjob : s.rings.jobs.find? (fun x => x.id == n) = some j) (hended : j.ended = some (st, res, inf))
    (henabled : (s.cq (s.sq j.sq).cq.toNat).enable = true) (hroom : (s.cq (s.sq j.sq).cq.toNat).full = false)
    (hstaged : (s.cq (s.sq j.sq).cq.toNat).staged = []) (hhost : (s.cq (s.sq j.sq).cq.toNat).loc = false)
    (hquiet : (s.rings.sqs.all fun q => q.2.aborts.isEmpty) = true) (hdrains : (s.sq j.sq).state ≠ 3) :
    does (.jobComplete n) s fun t =>
      t.rings.jobs = s.rings.jobs.filter (fun x => x.id != n) ∧ (t.sq j.sq).done = (s.sq j.sq).done + 1 ∧ (t.cq (s.sq j.sq).cq.toNat).reserved = (s.cq (s.sq j.sq).cq.toNat).reserved - 1 ∧ Output.hostWrite (BitVec.ofNat 64 ((s.cq (s.sq j.sq).cq.toNat).base.toNat + 16 * ((s.cq (s.sq j.sq).cq.toNat).tail.toNat % 2 ^ (s.cq (s.sq j.sq).cq.toNat).size.toNat))) (cqeBytes (s.cq (s.sq j.sq).cq.toNat).size.toNat (s.cq (s.sq j.sq).cq.toNat).tail.toNat ⟨j.tag, st, j.sq, res, inf⟩) ∈ t.out ∧ t = { s with rings := t.rings, intc := t.intc, out := t.out } := by
  let c := (s.sq j.sq).ringCq
  let q1 : Cq := { s.cq c with reserved := (s.cq c).reserved - 1 }
  let e : Cqe := ⟨j.tag, st, j.sq, res, inf⟩
  let s2 := ({ s with rings := { s.rings with jobs := s.rings.jobs.filter fun x => x.id != n } } : State).setCq c q1
  let s3 := s2.setSq j.sq { s.sq j.sq with done := (s.sq j.sq).done + 1 }
  have hcq2 : s2.cq c = q1 := State.cq_setCq ..
  have hcq3 : s3.cq c = q1 := hcq2
  have hsq3 : s3.sq j.sq = { s.sq j.sq with done := (s.sq j.sq).done + 1 } := State.sq_setSq ..
  have hcomplete : s2.complete c e = s3.writeCqe c e := by
    have henabled' : ¬ (!(s2.cq c).enable) = true := by
      rw [hcq2, show q1.enable = true from henabled]
      decide
    have hroom' : ¬ ((s2.cq c).full || !(s2.cq c).staged.isEmpty) = true := by
      rw [hcq2, show q1.full = false from hroom, show q1.staged = [] from hstaged]
      decide
    exact (if_neg henabled').trans (if_neg hroom')
  obtain ⟨hrings, hout, hall⟩ := writeCqe_host (s := s3) (c := c) e (by rw [hcq3]; exact hhost)
  have hquiet' : ((s3.writeCqe c e).rings.sqs.all fun q => q.2.aborts.isEmpty) = true := by
    rw [hrings]
    exact put_quiet (t := s.rings.sqs) _ hquiet (sq_aborts _ hquiet)
  have hsq : (s3.writeCqe c e).sq j.sq = { s.sq j.sq with done := (s.sq j.sq).done + 1 } := by
    rw [← hsq3, State.sq, hrings]
    rfl
  have hrest : ((s2.complete c e).drainBound c).restSq j.sq = s3.writeCqe c e := by
    rw [hcomplete, drainBound_quiet c hquiet', restSq_running (by rw [hsq]; exact hdrains)]
  have hexec : exec (.jobComplete n) s = .next (s3.writeCqe c e) := by
    rw [← hrest]
    refine (awake_of hawake _).trans ?_
    simp only [hjob, hended]
    rfl
  have hwhole : Touches [.rings, .intc, .out] s (s3.writeCqe c e) := ((Touches.refl s).setRings.setRings.setRings).trans hall
  refine ⟨_, hexec, ?_, ?_, ?_, ?_, hwhole.frame (by simp)⟩
  · rw [hrings]
    rfl
  · rw [hsq]
  · rw [State.cq, hrings, hcq3]
    exact congrArg Cq.reserved (lookD_put_same ..)
  · rw [hcq3] at hout
    exact hout

/-- Settles O34: a failed ring's rows keep its failure while its entries complete, and a completion is the place at the tail. -/
theorem entriesAndCompletions : Obligations.EntriesAndCompletions :=
  ⟨entryFetch_appends, entryFetch_fails, dispatch_takes, jobComplete_writes⟩

end Sys2Proof.Proofs
end

section
/-! PROOFS. Whole-device resets, the service button, the power warning, the rails (O1, O5, O6, O7). -/

open Sys2Proof Sys2Proof.Machine

-- One proof at a time: a thread for each proof would pass the limit that the check sets to memory.
set_option Elab.async false

namespace Sys2Proof.Proofs

/-! ### Each raised source takes an event number -/

theorem notifyAll_evSeq (l : List IntTarget) (i : Intc) (o : List Output) : (notifyAll l i o).1.evSeq = i.evSeq := by
  induction l generalizing i o with
  | nil => rfl
  | cons g r ih =>
    unfold notifyAll
    split
    · exact ih _ _
    · refine (ih _ _).trans ?_
      cases g with
      | core _ => rfl
      | vector _ =>
        rw [notifyOut, apply_ite Prod.fst, apply_ite Intc.evSeq]
        exact ite_self _

theorem assignAll_evSeq (n : Nat) (s : State) (keys : List Nat) : (assignAll n s keys).intc.evSeq = s.intc.evSeq := by
  induction n generalizing s keys with
  | zero => rfl
  | succ n ih =>
    unfold assignAll
    split
    · rfl
    · dsimp only
      split
      · exact ih _ _
      · exact ih _ _

theorem settleInts_evSeq (s : State) : s.settleInts.intc.evSeq = s.intc.evSeq := by
  rw [settleInts_intc, notifyAll_evSeq, assigned]
  exact assignAll_evSeq _ _ _

/-- An event takes the next number, whether the ring has room for it or not (R422). -/
theorem raise_evSeq (s : State) {n : Nat} (m : Master) (d : Bytes) (hn : 2 ≤ n ∧ n ≤ 0x17 ∧ n ≠ 0x16) :
    (s.raise n m d).intc.evSeq = s.intc.evSeq + 1 := by
  rw [State.raise, settleInts_evSeq, State.raise0]
  simp only [if_pos hn]
  unfold State.eventOut
  dsimp only
  split <;> rfl

/-! ### O1: whole-device resets -/

theorem exists_takeAct {s : State} {i j : Nat} (h : (s.takeAct i j).isSome = true) :
    ∃ a acts, s.takeAct i j = some (a, { s with dict := { s.dict with acts := acts } }) := by
  unfold State.takeAct at h ⊢
  cases hfirst : takeFirst (fun a : Act => a.idx.toNat == i && a.sub.toNat == j) s.dict.acts with
  | none => rw [hfirst] at h; cases h
  | some p => exact ⟨p.1, p.2, rfl⟩

theorem powerOnReset_fresh (s : State) (st : Straps) :
    does (.powerOnReset st) s fun t =>
      freshAfter s t 2 st ∧ t.faults.lastFatal = s.store.committedFatal :=
  ⟨_, rfl, freshAfter_wholeReset _ 2 st false, rfl⟩

theorem pinReset_fresh (s : State) (st : Straps) (ns : Nat) (hlong : 100 ≤ ns) :
    does (.pinReset ns st) s fun t =>
      freshAfter s t 3 st := by
  have hexec : exec (.pinReset ns st) s = .next { (State.wholeReset { s with out := s.out ++ rstLowPins } 3 st false) with
      out := (State.wholeReset { s with out := s.out ++ rstLowPins } 3 st false).out ++ rstHighPins } := if_neg (by omega)
  exact ⟨_, hexec, freshAfter_wholeReset { s with out := s.out ++ rstLowPins } 3 st false⟩

theorem railMonitorTrip_fresh (s : State) (st : Straps) (r : Fin 13) (ns : Nat) (hlong : 200 ≤ ns) :
    does (.railMonitorTrip r ns st) s fun t =>
      freshAfter s t 2 st := by
  have hexec : exec (.railMonitorTrip r ns st) s = .next (s.powerOn st) := if_neg (by omega)
  exact ⟨_, hexec, freshAfter_wholeReset _ 2 st false⟩

theorem restartRequest_fresh (s : State) (st : Straps) (hawake : asleep s = false) (hact : (s.takeAct 0x2001 0).isSome = true) :
    does (.restartRequest st) s fun t =>
      freshAfter s t 4 st := by
  obtain ⟨a, acts, htake⟩ := exists_takeAct hact
  have hexec : exec (.restartRequest st) s = .next (State.wholeReset { s with dict := { s.dict with acts := acts } } 4 st false) := by
    refine (awake_of hawake _).trans ?_
    rw [htake]
  exact ⟨_, hexec, freshAfter_wholeReset { s with dict := { s.dict with acts := acts } } 4 st false⟩

theorem bootWatchdogExpiry_fresh (s : State) (st : Straps) (d : Nat) (hawake : asleep s = false) (hdog : s.boot.watchdog = some d)
    (hdue : d ≤ s.clk.now) :
    does (.bootWatchdogExpiry st) s fun t =>
      freshAfter s t 5 st := by
  have hexec : exec (.bootWatchdogExpiry st) s = .next (s.wholeReset 5 st false) := by
    refine (awake_of hawake _).trans ?_
    rw [hdog]
    exact if_neg (by omega)
  exact ⟨_, hexec, freshAfter_wholeReset s 5 st false⟩

theorem recoveryWatchdogExpiry_fresh (s : State) (st : Straps) (d : Nat) (hawake : asleep s = false) (hdog : s.boot.recovery = some d)
    (hdue : d + 30000000000 ≤ s.clk.now) :
    does (.recoveryWatchdogExpiry st) s fun t =>
      freshAfter s t 5 st ∧ t.boot.newt = true ∧ t.svc = s.svc := by
  have hexec : exec (.recoveryWatchdogExpiry st) s = .next ((s.wholeReset 5 st true).intoNewt s.boot.outcome) := by
    refine (awake_of hawake _).trans ?_
    rw [hdog]
    exact if_neg (by omega)
  exact ⟨_, hexec, freshAfter_wholeReset s 5 st true, rfl, rfl⟩

theorem leaveNewt_fresh (s : State) (st : Straps) (hawake : asleep s = false) (hact : (s.takeAct 0x2013 0).isSome = true) :
    does (.leaveNewt st) s fun t =>
      freshAfter s t 9 st ∧ (storeShut s = false → t.store.newtLatch = false ∧ t.store.failed = 0) ∧ t.svc = s.svc := by
  obtain ⟨a, acts, htake⟩ := exists_takeAct hact
  have hexec : exec (.leaveNewt st) s = .next (State.wholeReset { s with
      dict := { s.dict with acts := acts }
      store := if storeShut s then s.store else { s.store with newtLatch := false, failed := 0 } } 9 st true) := by
    refine (awake_of hawake _).trans ?_
    rw [htake]
    rfl
  refine ⟨_, hexec, ?_, fun hopen => ?_, rfl⟩
  · cases hshut : storeShut s <;> exact freshAfter_wholeReset _ 9 st true
  · rw [hopen]
    exact ⟨rfl, rfl⟩

/-- Settles O1: each reset is `wholeReset` of a state whose store it has at most cleared of latch and count. -/
theorem wholeDeviceResets : Obligations.WholeDeviceResets := by
  unfold Obligations.WholeDeviceResets
  exact ⟨powerOnReset_fresh, pinReset_fresh, fun s st ns hshort => if_pos hshort, railMonitorTrip_fresh, fun s st r ns hshort => if_pos hshort,
    restartRequest_fresh, bootWatchdogExpiry_fresh, recoveryWatchdogExpiry_fresh, leaveNewt_fresh⟩

/-! ### O5: the service button -/

theorem heldFor_of {s : State} {p ns : Nat} (hpressed : s.svc.pressedAt = some p) : heldFor s ns = decide (p + ns ≤ s.clk.now) := by
  rw [heldFor, hpressed]

theorem servicePress_times (s : State) (hawake : asleep s = false) (hhigh : s.pins.serviceN = true) (hseen : s.svc.seenHigh = true) :
    does (.servicePress) s fun t =>
      t = { s with pins := { s.pins with serviceN := false }, svc := { seenHigh := true, pressedAt := some s.clk.now } } := by
  have hexec : exec .servicePress s = .next { s with
      pins := { s.pins with serviceN := false }
      svc := { seenHigh := s.svc.seenHigh, pressedAt := if s.svc.seenHigh then some s.clk.now else none } } := by
    refine (if_neg (by rw [hhigh]; decide)).trans ?_
    exact if_neg (by rw [hawake]; decide)
  refine ⟨_, hexec, ?_⟩
  rw [if_pos hseen, hseen]

theorem serviceRelease_counts (s : State) (p : Nat) (hawake : asleep s = false) (hlow : s.pins.serviceN = false)
    (hpressed : s.svc.pressedAt = some p) (hshort : s.clk.now < p + 5000000000) :
    does (.serviceRelease) s fun t =>
      t.pins = { s.pins with serviceN := true } ∧ t.svc = { seenHigh := true } ∧ t.boot = { s.boot with presses := s.boot.presses + 1 } ∧ t.store = s.store ∧ t.dict = s.dict := by
  have hexec : exec .serviceRelease s = .next (State.raise { s with
      pins := { s.pins with serviceN := true }
      svc := { seenHigh := true }
      boot := { s.boot with presses := s.boot.presses + 1 } } 0x005 mFault []) := by
    refine (if_neg (by rw [hlow]; decide)).trans ((if_neg ?_).trans (if_pos ?_))
    · rw [show asleep _ = false from hawake]
      decide
    · rw [hpressed, heldFor_of hpressed, decide_eq_false (by omega)]
      rfl
  exact ⟨_, hexec, State.raise_pins .., State.raise_svc .., State.raise_boot .., State.raise_store .., State.raise_dict ..⟩

theorem serviceHold5s_newt (s : State) (st : Straps) (p : Nat) (hawake : asleep s = false) (hpressed : s.svc.pressedAt = some p)
    (hdue : p + 5000000000 ≤ s.clk.now) (hfirst : s.svc.did5 = false) (hnewt : s.boot.newt = false) :
    does (.serviceHold5s st) s fun t =>
      freshAfter s t 7 st ∧ t.boot.newt = true ∧ t.boot.outcome = 0x11 ∧ (storeShut s = false → t.store.newtLatch = true) ∧ t.svc = { s.svc with did5 := true } := by
  have hexec : exec (.serviceHold5s st) s = .next ((State.wholeReset { s with
      svc := { s.svc with did5 := true }
      store := if storeShut s then s.store else { s.store with newtLatch := true, latchBy := 0x11 } } 7 st true).intoNewt 0x11) := by
    refine (awake_of hawake _).trans ((if_neg ?_).trans (if_neg (by rw [hnewt]; decide)))
    rw [heldFor_of hpressed, decide_eq_true hdue, hfirst]
    decide
  refine ⟨_, hexec, ?_, rfl, rfl, fun hopen => ?_, rfl⟩
  · cases hshut : storeShut s <;> exact freshAfter_wholeReset _ 7 st true
  · show Store.newtLatch (if storeShut s then _ else _) = true
    rw [if_neg (by rw [hopen]; decide)]

theorem serviceHold15s_restores (s : State) (st : Straps) (p : Nat) (hawake : asleep s = false) (hpressed : s.svc.pressedAt = some p)
    (hdue : p + 15000000000 ≤ s.clk.now) (hfirst : s.svc.did15 = false) (hwarning : s.boot.warning = false) (hopen : storeOpen s = true) :
    does (.serviceHold15s st true) s fun t =>
      t.boot.cause = 8 ∧ t.boot.bootMode = st.bootMode ∧ t.boot.mounted = false ∧ t.store.image = [] ∧ t.store.journal = [restoreRecord s.store] ∧ t.store.learnLog = [] ∧ t.store.newtLatch = false ∧ t.store.pair = {} ∧ t.store.faultLog = s.store.faultLog ∧ t.store.flash = s.store.flash ∧ t.svc = { s.svc with did15 := true } := by
  have hexec : exec (.serviceHold15s st true) s = .next (State.wholeReset { s with
      svc := { s.svc with did15 := true }
      dict := { s.dict with waiting := [] }
      store := s.store.restored } 8 st true) := by
    refine (awake_of hawake _).trans ((if_neg ?_).trans ?_)
    · rw [heldFor_of hpressed, decide_eq_true hdue, hfirst]
      decide
    · simp only [hwarning, hopen, Bool.not_false, Bool.and_self, if_true]
  exact ⟨_, hexec, rfl, rfl, rfl, rfl, rfl, rfl, rfl, rfl, rfl, rfl, rfl⟩

theorem serviceStuck_once (s : State) (p : Nat) (hawake : asleep s = false) (hpressed : s.svc.pressedAt = some p)
    (hdue : p + 60000000000 ≤ s.clk.now) (hfirst : s.svc.didStuck = false) :
    does (.serviceStuck) s fun t =>
      t.svc = { s.svc with didStuck := true } ∧ t.store = s.store ∧ t.boot = s.boot ∧ t.pins = s.pins ∧ t.intc.evSeq = s.intc.evSeq + 1 := by
  have hexec : exec .serviceStuck s = .next (State.raise { s with svc := { s.svc with didStuck := true } } 0x006 mFault [0x10]) := by
    refine (awake_of hawake _).trans (if_neg ?_)
    rw [heldFor_of hpressed, decide_eq_true hdue, hfirst]
    decide
  exact ⟨_, hexec, State.raise_svc .., State.raise_store .., State.raise_boot .., State.raise_pins .., raise_evSeq _ _ _ (by decide)⟩

/-- Settles O5, by the time the button has been held for. -/
theorem serviceButton : Obligations.ServiceButton := by
  unfold Obligations.ServiceButton
  exact ⟨servicePress_times, serviceRelease_counts, serviceHold5s_newt, serviceHold15s_restores, serviceStuck_once⟩

/-! ### O6: the power warning, segments and snapshots -/

theorem closeRecord_openRec (s : State) : s.closeRecord.dict.openRec = none := by
  unfold State.closeRecord
  split
  · assumption
  · rfl

theorem closeRecord_eq (s : State) : s.closeRecord = { s with dict := s.closeRecord.dict } := by
  unfold State.closeRecord
  split <;> rfl

theorem pwrfailWarning_warns (s : State) (hawake : asleep s = false) (hhigh : s.pins.pwrfailN = true) (hmounted : s.boot.mounted = true) :
    does (.pwrfailWarning) s fun t =>
      t.boot.warning = true ∧ t.boot.snapWrite = none ∧ t.pins.pwrfailN = false ∧ t.pins.pwrfailAt = s.clk.now ∧ t.pins.aliveOut = false ∧ t.dict.openRec = none ∧ t.store = s.store ∧ t.intc.evSeq = s.intc.evSeq + 1 := by
  let s0 : State := if s.boot.selvedge then s.croak 5 else s
  obtain ⟨hboot, hstore, hintc⟩ : s0.boot = s.boot ∧ s0.store = s.store ∧ s0.intc = s.intc := by
    dsimp only [s0]
    cases s.boot.selvedge <;> exact ⟨rfl, rfl, rfl⟩
  let s1 : State := State.aliveLow { s0 with pins := { s0.pins with pwrfailN := false, pwrfailAt := s.clk.now } }
  let s2 : State := State.closeRecord { s1 with boot := { s1.boot with warning := true, snapWrite := none } }
  have hs2 : s2 = { s1 with boot := { s1.boot with warning := true, snapWrite := none }, dict := s2.dict } := closeRecord_eq _
  have hexec : exec .pwrfailWarning s = .next (s2.raise 0x004 mFault []) := by
    refine (if_neg (by rw [hhigh]; decide)).trans ((if_neg (by rw [hawake]; decide)).trans ?_)
    exact congrArg (fun x : State => Host.Outcome.next (x.raise 0x004 mFault [])) (if_pos hmounted)
  refine ⟨_, hexec, ?_⟩
  beta_reduce
  rw [State.raise_boot, State.raise_pins, State.raise_dict, State.raise_store, raise_evSeq _ _ _ (by decide)]
  have hclosed : s2.dict.openRec = none := closeRecord_openRec _
  rw [hs2]
  exact ⟨rfl, rfl, rfl, rfl, rfl, hclosed, hstore, congrArg (fun i : Intc => i.evSeq + 1) hintc⟩

theorem shutdownRecord_protects (s : State) (hawake : asleep s = false) (hwarning : s.boot.warning = true) (hshut : s.boot.shutdown = false)
    (hwaiting : s.dict.waiting = []) (hopen : s.dict.openRec = none) (hseg : s.boot.segWrite = none) :
    does (.shutdownRecord) s fun t =>
      t = { s with boot := { s.boot with shutdown := true }, store := { s.store with shutdownRec := some (if s.boot.watchdog.isSome then s.store.failed - 1 else s.store.failed) } } :=
  ⟨_, (awake_of hawake _).trans (if_neg (by simp [hwarning, hshut, hwaiting, hopen, hseg])), rfl⟩

/-- The end of a power warning, before what the protected store could not take is written (R66). -/
def unwarned (s : State) : State :=
  { s with
    pins := { s.pins with pwrfailN := true }
    boot := { s.boot with warning := false, shutdown := false, roleOwed := false }
    store := { s.store with brownouts := s.store.brownouts + 1, shutdownRec := none } }

/-- Only the sparing map, the role and the rules of the store are owed. -/
structure Catches (s t : State) : Prop where
  pins : t.pins = s.pins
  boot : t.boot = s.boot
  brownouts : t.store.brownouts = s.store.brownouts
  shutdownRec : t.store.shutdownRec = s.store.shutdownRec
  journal : t.store.journal = s.store.journal

theorem Catches.refl (s : State) : Catches s s := ⟨rfl, rfl, rfl, rfl, rfl⟩

theorem Catches.trans {s t u : State} (h : Catches s t) (g : Catches t u) : Catches s u :=
  ⟨g.pins.trans h.pins, g.boot.trans h.boot, g.brownouts.trans h.brownouts, g.shutdownRec.trans h.shutdownRec, g.journal.trans h.journal⟩

theorem setSparing_catches (s : State) (p : Sparing) : Catches s (s.setSparing p) := by
  unfold State.setSparing
  split <;> exact ⟨rfl, rfl, rfl, rfl, rfl⟩

theorem storeRole_catches (s : State) (h : storeShut s = false) : Catches s s.storeRole := by
  rw [State.storeRole, h]
  exact ⟨rfl, rfl, rfl, rfl, rfl⟩

theorem storeRules_catches (s : State) : Catches s s.storeRules := by
  unfold State.storeRules
  split <;> exact ⟨rfl, rfl, rfl, rfl, rfl⟩

theorem storeRules_stored (s : State) (hrules : s.store.ruleset = s.selv.active.image) (hlater : s.store.rulesLater = s.selv.standby.isSome) :
    s.storeRules = s := by
  rw [State.storeRules, ← hrules, ← hlater]
  exact ite_self _

theorem unwarned_open (s : State) : storeShut (unwarned s) = false := by
  simp [storeShut, unwarned]

theorem brownout_reopens (s : State) (hawake : asleep s = false) (hlow : s.pins.pwrfailN = false)
    (hdue : s.pins.pwrfailAt + 10000000 ≤ s.clk.now) (hwarning : s.boot.warning = true) :
    does (.brownout) s fun t =>
      t.pins = { s.pins with pwrfailN := true } ∧ t.boot = { s.boot with warning := false, shutdown := false, roleOwed := false } ∧ t.store.brownouts = s.store.brownouts + 1 ∧ t.store.shutdownRec = none ∧ t.store.journal = s.store.journal ∧ (s.boot.roleOwed = false → s.faults.liveMap = none → s.store.ruleset = s.selv.active.image → s.store.rulesLater = s.selv.standby.isSome → t = { s with pins := t.pins, boot := t.boot, store := { s.store with brownouts := s.store.brownouts + 1, shutdownRec := none } }) := by
  let s3 : State := match s.faults.liveMap with
    | some m => (unwarned s).setSparing m
    | none => unwarned s
  have hs3 : Catches (unwarned s) s3 := by
    show Catches (unwarned s) (match s.faults.liveMap with | some m => _ | none => _)
    cases s.faults.liveMap with
    | none => exact .refl _
    | some m => exact setSparing_catches _ m
  have hopen : storeShut s3 = false := by
    have hshut : storeShut s3 = storeShut (unwarned s) := by simp only [storeShut, hs3.boot, hs3.pins]
    exact hshut.trans (unwarned_open s)
  have hexec : exec .brownout s = .next ((if s.boot.roleOwed then s3.storeRole else s3).storeRules) := by
    refine (if_neg ?_).trans (if_pos (by rw [hwarning, hawake]; rfl))
    rw [hlow, decide_eq_false (by omega)]
    decide
  have hall : Catches (unwarned s) ((if s.boot.roleOwed then s3.storeRole else s3).storeRules) := by
    refine (hs3.trans ?_).trans (storeRules_catches _)
    split
    · exact storeRole_catches _ hopen
    · exact .refl _
  refine ⟨_, hexec, hall.pins, hall.boot, hall.brownouts, hall.shutdownRec, hall.journal, fun hrole hmap hrules hlater => ?_⟩
  have hsame : s3 = unwarned s := by
    show (match s.faults.liveMap with | some m => _ | none => _) = _
    rw [hmap]
  rw [if_neg (by rw [hrole]; decide), hsame, storeRules_stored (unwarned s) hrules hlater]
  rfl

theorem learnLogCapture_starts (s : State) (hawake : asleep s = false) (hselv : s.boot.selvedge = true) (hdue : captureDue s = true)
    (hwarning : s.boot.warning = false) (hwrite : s.store.readOnly = false) (hseg : s.boot.segWrite = none)
    (hroom : s.store.learnLog.length < 32) :
    does (.learnLogCapture) s fun t =>
      t.boot.lastCapture = s.clk.now ∧ t.boot.segWrite = some { seq := s.store.learnSeq + 1, ptp := BitVec.ofNat 64 s.time.ptp, deltas := s.selv.learnLog, whole := false } ∧ t.selv.learnLog = [] ∧ t.store = { s.store with learnSeq := s.store.learnSeq + 1 } ∧ t = { s with boot := t.boot, store := t.store, selv := t.selv } :=
  ⟨_, (awake_of hawake _).trans (if_neg (by simp [hselv, hdue, hwarning, hwrite, hseg, hroom])), rfl, rfl, rfl, rfl, rfl⟩

theorem learnLogSegmentDone_stores (s : State) (g : Learned) (hawake : asleep s = false) (hseg : s.boot.segWrite = some g)
    (hwaiting : s.dict.waiting = []) :
    does (.learnLogSegmentDone) s fun t =>
      t = { s with boot := { s.boot with segWrite := none }, store := { s.store with learnLog := s.store.learnLog ++ [g] } } := by
  refine ⟨_, (awake_of hawake _).trans ?_, rfl⟩
  rw [hseg, hwaiting]

theorem snapshotWrite_starts (s : State) (hawake : asleep s = false) (hslots : 24 ≤ s.store.learnLog.length)
    (hwarning : s.boot.warning = false) (hwrite : s.store.readOnly = false) (hsnap : s.boot.snapWrite = none) :
    does (.snapshotWrite) s fun t =>
      t.boot.snapWrite = some { seq := s.store.learnSeq, ptp := BitVec.ofNat 64 s.time.ptp, deltas := wholeTables s, whole := true } ∧ t = { s with boot := t.boot } :=
  ⟨_, (awake_of hawake _).trans (if_neg (by simp [hwarning, hwrite, hsnap]; omega)), rfl, rfl⟩

theorem snapshot_kept (st : Store) (g : Learned) :
    (st.snapshot g).learnLog = st.learnLog ∧ ((st.snapshot g).snapA = some g ∨ (st.snapshot g).snapB = some g) := by
  unfold Store.snapshot
  split
  · split
    · exact ⟨rfl, .inr rfl⟩
    · exact ⟨rfl, .inl rfl⟩
  · exact ⟨rfl, .inr rfl⟩
  · exact ⟨rfl, .inl rfl⟩

theorem snapshotVerified_frees (s : State) (g : Learned) (hawake : asleep s = false) (hsnap : s.boot.snapWrite = some g)
    (hwaiting : s.dict.waiting = []) :
    does (.snapshotVerified) s fun t =>
      t.boot = { s.boot with snapWrite := none } ∧ t.store.learnLog = s.store.learnLog.filter (fun x => decide (g.seq < x.seq)) ∧ (t.store.snapA = some g ∨ t.store.snapB = some g) ∧ t = { s with boot := t.boot, store := t.store } := by
  obtain ⟨hlog, hplace⟩ := snapshot_kept s.store g
  have hexec : exec .snapshotVerified s = .next { s with
      boot := { s.boot with snapWrite := none }
      store := { s.store.snapshot g with learnLog := (s.store.snapshot g).learnLog.filter fun x => decide (g.seq < x.seq) } } := by
    refine (awake_of hawake _).trans ?_
    rw [hsnap, hwaiting]
  refine ⟨_, hexec, rfl, ?_, hplace, rfl⟩
  rw [hlog]

/-- Settles O6, by the edge of `PWRFAIL_N`, the end of the warning and the learn log's place in the store. -/
theorem powerWarningAndLearnLog : Obligations.PowerWarningAndLearnLog := by
  unfold Obligations.PowerWarningAndLearnLog
  exact ⟨pwrfailWarning_warns, shutdownRecord_protects, brownout_reopens, learnLogCapture_starts, learnLogSegmentDone_stores, snapshotWrite_starts,
    snapshotVerified_frees⟩

/-! ### O7: rails, CAN and boundary scan -/

theorem look_foldl_put {α : Type} (f : Nat → α) (l : List Nat) (t : Tab α) (r : Nat) (h : r ∈ l) :
    look (l.foldl (fun t r => put t (r + 1) (f r)) t) (r + 1) = some (f r) := by
  induction l using List.reverseRecOn with
  | nil => cases h
  | append_singleton l x ih =>
    rw [List.foldl_append]
    by_cases hx : r = x
    · subst hx
      exact look_put_same ..
    · refine (look_put_ne _ _ (by omega)).trans (ih ?_)
      simpa [hx] using h

theorem regulatorPoll_reads (s : State) (a : List (Option (BitVec 16 × BitVec 16))) (r : Nat) (hawake : asleep s = false)
    (hanswers : a.length ≤ 13) (hr : r < 13) :
    does (.regulatorPoll a) s fun t =>
      look t.mem.regs2061 (r + 1) = some (railWord s a r) ∧ t.mem.dev = s.mem.dev ∧ t = { s with mem := t.mem } := by
  have hexec : exec (.regulatorPoll a) s = .next { s with mem := { s.mem with
      regs2061 := (List.range 13).foldl (fun t r => put t (r + 1) (railWord s a r)) s.mem.regs2061 } } :=
    (awake_of hawake _).trans (if_pos (by simpa [Instr.wellFormed, Instr.masters] using hanswers))
  refine ⟨_, hexec, ?_, rfl, rfl⟩
  have hread := look_foldl_put (railWord s a) (List.range 13) s.mem.regs2061 r (List.mem_range.2 hr)
  generalize (List.range 13).foldl (fun t r => put t (r + 1) (railWord s a r)) s.mem.regs2061 = words at hread ⊢
  exact hread

theorem errRegister_getLsbD_4 (s : State) : (errRegister s).getLsbD 4 = (s.faults.gavonDown || s.paths.busOff) := by
  unfold errRegister
  generalize (s.faults.valid && s.faults.severity == 2) = d
  generalize (s.faults.gavonDown || s.paths.busOff) = c
  generalize s.faults.valid = a
  generalize s.faults.hot = b
  revert a b c d
  decide

/-- The error register 0x1001:00 stands as its conditions say, after each change (R467). -/
theorem syncErr_errReg (s : State) : s.syncErr.paths = { s.paths with errReg := errRegister s } := by
  unfold State.syncErr
  dsimp only
  split
  · next h => rw [h]
  · rfl

theorem syncErr_eq (s : State) : s.syncErr = { s with paths := s.syncErr.paths, clk := s.syncErr.clk, out := s.syncErr.out } := by
  unfold State.syncErr
  dsimp only
  split <;> rfl

theorem canBusOff_sets (s : State) (on : Bool) (hawake : asleep s = false) :
    does (.canBusOff on) s fun t =>
      t.paths.busOff = on ∧ t.paths.errReg.getLsbD 4 = (s.faults.gavonDown || on) ∧ t = { s with paths := t.paths, clk := t.clk, out := t.out } := by
  refine ⟨_, awake_of hawake _, ?_, ?_, syncErr_eq _⟩
  · rw [syncErr_errReg]
  · rw [syncErr_errReg]
    exact errRegister_getLsbD_4 _

/-- Settles O7, by the fold over the 13 rails and the bits of the error register. -/
theorem cabinetAndPinsOfTheBoard : Obligations.CabinetAndPinsOfTheBoard := by
  unfold Obligations.CabinetAndPinsOfTheBoard
  exact ⟨regulatorPoll_reads, canBusOff_sets, fun s => ⟨_, rfl, rfl⟩, fun s se i j h => asleep_of h _⟩

end Sys2Proof.Proofs
end

section
/-! PROOFS. The partner's signals (O44). -/

open Sys2Proof Sys2Proof.Machine

-- One proof at a time: a thread for each proof would pass the limit that the check sets to memory.
set_option Elab.async false

namespace Sys2Proof.Proofs

/-! ### What a stream's release leaves of a tile -/

/-- Each encode tile keeps its frame and its Treadle. -/
def SameWork (s t : State) : Prop := ∀ q, (t.tile q).frame = (s.tile q).frame ∧ (t.tile q).treadle = (s.tile q).treadle

theorem SameWork.of_tiles {s t : State} (h : t.tiles = s.tiles) : SameWork s t := fun q => by
  rw [State.tile, State.tile, h]
  exact ⟨rfl, rfl⟩

theorem SameWork.refl (s : State) : SameWork s s := .of_tiles rfl

theorem SameWork.trans {s t u : State} (h : SameWork s t) (g : SameWork t u) : SameWork s u := fun q =>
  ⟨(g q).1.trans (h q).1, (g q).2.trans (h q).2⟩

theorem Touches.sameWork {l : List Part} {s t : State} (h : Touches l s t) (hl : .tiles ∉ l := by decide) : SameWork s t :=
  .of_tiles (h.same .tiles hl)

theorem foldl_sameWork {α : Type} {f : State → α → State} (hf : ∀ s a, SameWork s (f s a)) (l : List α) (s : State) : SameWork s (l.foldl f s) := by
  induction l generalizing s with
  | nil => exact .refl s
  | cons a r ih => exact (hf s a).trans (ih _)

theorem mapTiles_sameWork {s t : State} (f : Tile → Tile) (hf : ∀ x, (f x).frame = x.frame ∧ (f x).treadle = x.treadle)
    (h : t.tiles = s.tiles.map fun q => (q.1, f q.2)) : SameWork s t := fun q => by
  rw [State.tile, State.tile, lookD, lookD, h, look_map fun _ => f]
  cases look s.tiles q with
  | none => exact ⟨rfl, rfl⟩
  | some x => exact hf x

/-- The packets of a released stream are its last (R247). -/
def markTail (n : Nat) (t : Tile) : Tile :=
  { t with out := { t.out with
      nals := t.out.nals.map fun x => if x.stream = n then { x with tail := true } else x
      collected := t.out.collected.map fun x => if x.stream = n then { x with tail := true } else x } }

theorem keepTail_sameWork (s : State) (n : Nat) : SameWork s (s.keepTail n) := by
  unfold State.keepTail
  dsimp only
  split
  · exact mapTiles_sameWork (markTail n) (fun _ => ⟨rfl, rfl⟩) rfl
  · exact .refl s

/-- A stream's release marks packets on their way; frames in coding stay (R247). -/
theorem releaseStream_sameWork (s : State) (n : Nat) : SameWork s (s.releaseStream n) := by
  refine (keepTail_sameWork s n).trans ?_
  have h : Touches [.clk, .pins, .store, .paths, .encs, .batten, .pool, .intc, .mem, .faults, .out] (s.keepTail n) (s.releaseStream n) := by
    unfold State.releaseStream
    dsimp only
    exact .ite (Touches.releaseSlots (.foldl (Touches.refl _).orphanJobs fun _ _ hu => hu.releaseBlock)).setEncs.setEnc
      (Touches.releaseSlots (.foldl (Touches.refl _).orphanJobs fun _ _ hu => hu.releaseBlock)).setEncs
  exact h.sameWork

theorem idleStream_sameWork (s : State) (keep : Bool) (n : Nat) : SameWork s (s.idleStream keep n) := by
  refine (releaseStream_sameWork s n).trans ?_
  have h : Touches [.clk, .pins, .store, .paths, .encs, .pool, .intc, .mem, .faults, .out] (s.releaseStream n) (s.idleStream keep n) := by
    unfold State.idleStream
    dsimp only
    exact .ite (Touches.refl _).allocFrames.setEnc (.refl _)
  exact h.sameWork

/-! ### A device that stops serving has no frame in coding -/

/-- Halting a tile takes its frame and no other's. -/
theorem haltTile_frame (s : State) (p q : Nat) : ((s.haltTile p).tile q).frame = if q = p then none else (s.tile q).frame := by
  have hset : ∀ (u v : State) (t : Tile), u.tiles = s.tiles → t.frame = none → SameWork (u.setTile p t) v →
      (v.tile q).frame = if q = p then none else (s.tile q).frame := by
    intro u v t hu ht hv
    rw [(hv q).1]
    split
    · next h => rw [h, State.tile_setTile, ht]
    · next h => rw [State.tile_setTile_ne _ _ h, State.tile, hu, State.tile]
  unfold State.haltTile
  dsimp only
  split
  · next hnone => exact hset s _ { s.tile p with out := {} } rfl hnone ((Touches.refl _).bobFlush (l := [.bobs])).sameWork
  · next f _ =>
    have hcut : Touches [.clk, .pins, .store, .paths, .pool, .encs, .intc, .mem, .faults, .out] s
        (f.written.foldl (fun s b => s.releaseBlock (mEnc p) b (s.pool.desc b).gen) s) := .foldl (.refl _) fun _ _ hu => hu.releaseBlock
    refine hset _ _ _ ?_ ?_
      (Touches.sameWork (l := [.clk, .bobs]) (Touches.foldl (.refl _) fun _ _ hu => hu.bobFlush).bobSrc.bobPush)
    · exact Touches.same hcut.setPool.setEnc .tiles
    · rfl

theorem haltTiles_frame (l : List Nat) (s : State) (q : Nat) (h : q ∈ l ∨ (s.tile q).frame = none) : ((l.foldl State.haltTile s).tile q).frame = none := by
  induction l generalizing s with
  | nil => exact h.resolve_left (List.not_mem_nil)
  | cons p r ih =>
    refine ih (s.haltTile p) ?_
    rw [haltTile_frame]
    split
    · exact .inr rfl
    · next hne => exact h.imp_left fun hmem => (List.mem_cons.1 hmem).resolve_left hne

theorem tile_unlisted {s : State} {q : Nat} (h : q ∉ s.tiles.map (·.1)) : s.tile q = {} := by
  rw [State.tile, lookD]
  have hnone : look s.tiles q = none := by
    generalize s.tiles = l at h
    induction l with
    | nil => rfl
    | cons p r ih =>
      simp only [List.map_cons, List.mem_cons, not_or] at h
      simp [look, Ne.symm h.1, ih h.2]
  rw [hnone]
  rfl

theorem stopServing_frame (s : State) (r : Role) (q : Nat) : ((s.stopServing r).tile q).frame = none := by
  let s0 : State := { s with pair := { s.pair with role := r, mirrorOk := false } }
  let s1 := (s0.tiles.map (·.1)).foldl State.haltTile s0
  let s2 := (s1.encs.map (·.1)).foldl (fun s n => s.idleStream (decide (r = .secondary)) n) s1
  have hhalted : (s1.tile q).frame = none := by
    refine haltTiles_frame _ _ _ ?_
    by_cases hq : q ∈ s0.tiles.map (·.1)
    · exact .inl hq
    · rw [tile_unlisted hq]
      exact .inr rfl
  have hidle : SameWork s1 s2 := foldl_sameWork (fun s n => idleStream_sameWork s _ n) _ s1
  have hrest : SameWork s2 (s.stopServing r) := by
    refine Touches.sameWork (l := [.boot, .clk, .pins, .store, .paths, .totals, .pool, .dtiles, .decs, .trans, .intc, .bpm, .mem, .faults, .out]) ?_
    exact (Touches.foldl (.refl _) fun _ _ hu => hu.idleContext).storeRole
  rw [((hidle.trans hrest) q).1, hhalted]

theorem stopServing_pair (s : State) (r : Role) : (s.stopServing r).pair = { s.pair with role := r, mirrorOk := false } := by
  have h : Touches [.clk, .pins, .boot, .store, .paths, .bobs, .tiles, .encs, .batten, .totals, .pool, .dtiles, .decs, .trans, .intc, .bpm, .mem, .faults, .out]
      { s with pair := { s.pair with role := r, mirrorOk := false } } (s.stopServing r) := by
    unfold State.stopServing
    dsimp only
    exact Touches.storeRole (.foldl (.foldl (.foldl (.refl _) fun _ _ hu => hu.haltTile) fun _ _ hu => hu.idleStream) fun _ _ hu => hu.idleContext)
  exact h.same .pair

/-! ### The pair event -/

theorem pairEvent_pending (s : State) : (s.pairEvent.intc.src 0x15).pending = true := raise_pending ..

theorem pairChanged_pending {s old : State} (h : ¬ (s.pair.role = old.pair.role ∧ healthy s = healthy old ∧ pairLinks s = pairLinks old)) :
    ((s.pairChanged old).intc.src 0x15).pending = true := by
  rw [State.pairChanged, if_neg h]
  exact pairEvent_pending s

/-- A half that comes up or goes down, a silence that begins or ends, raise source 0x015 (R501). -/
theorem pairChanged_links {s old : State} (h : pairLinks s ≠ pairLinks old) : ((s.pairChanged old).intc.src 0x15).pending = true :=
  pairChanged_pending fun ⟨_, _, hlinks⟩ => h hlinks

theorem pairLinks_silent {s t : State} (ha : t.pair.halfA = s.pair.halfA) (hb : t.pair.halfB = s.pair.halfB) (h : t.pair.silent ≠ s.pair.silent) :
    pairLinks t ≠ pairLinks s := by
  rw [pairLinks, pairLinks, ha, hb]
  revert h
  generalize t.pair.silent = x
  generalize s.pair.silent = y
  cases x <;> cases y <;> simp [b2n]

theorem bump_same (t : Tab Nat) (k n : Nat) : lookD 0 (bump t k n) k = lookD 0 t k + n := by
  rw [bump, lookD_upd_same]

/-! ### The alive signal -/

theorem pairAliveToggle_toggles (s : State) (hawake : asleep s = false) (hselv : s.boot.selvedge = true) (hnewt : s.boot.newt = false)
    (hesc : s.faults.escalating = false) (hhigh : s.pins.pwrfailN = true) (hdue : s.pair.aliveOutAt + 50000 ≤ s.clk.now) :
    does (.pairAliveToggle) s fun t =>
      t = { s with pins := { s.pins with aliveOut := !s.pins.aliveOut }, pair := { s.pair with aliveOutAt := s.clk.now }, out := s.out ++ [.pin "PAIR_ALIVE_OUT" (!s.pins.aliveOut)] } :=
  ⟨_, (awake_of hawake _).trans (if_neg (by simp [hselv, hnewt, hesc, hhigh, hdue])), rfl⟩

theorem pairAliveToggle_waits (s : State) (hawake : asleep s = false)
    (hwait : s.boot.newt = true ∨ s.faults.escalating = true ∨ s.pins.pwrfailN = false ∨ s.boot.selvedge = false ∨ s.clk.now < s.pair.aliveOutAt + 50000) :
    exec .pairAliveToggle s = .next s := by
  refine (awake_of hawake _).trans (if_pos ?_)
  obtain h | h | h | h | h := hwait <;> simp [h]

theorem pairAliveLost_clears (s : State) (hawake : asleep s = false) :
    does (.pairAliveLost) s fun t =>
      t = { s with pair := { s.pair with aliveIn := false } } :=
  ⟨_, awake_of hawake _, rfl⟩

theorem pairAliveRestored_sets (s : State) (hawake : asleep s = false)
    (hknown : s.pair.silent = false ∨ s.pair.partner = none ∨ s.pair.episode = true) :
    does (.pairAliveRestored) s fun t =>
      t = { s with pair := { s.pair with aliveIn := true } } := by
  refine ⟨_, awake_of hawake _, ?_⟩
  split
  · next hpartner =>
    refine if_neg ?_
    obtain h | h | h := hknown
    · simp [h]
    · rw [h] at hpartner
      cases hpartner
    · simp [h]
  · rfl

/-- A silent partner that shows alive is reported: the counts and the fault (R496). -/
structure Reports (s t : State) : Prop where
  pair : t.pair = { s.pair with episode := true, counters := bump s.pair.counters 3 }
  gavonDown : t.faults.gavonDown = true
  valid : t.faults.valid = true
  kind : s.faults.valid = false → t.faults.kind = 0x0E
  dict : t.dict = s.dict

theorem contained_gavonDown (s : State) (kind : Nat) (acc : Access) (m : Master) (addr : Nat) :
    (s.contained kind acc m addr).faults.gavonDown = s.faults.gavonDown := by
  obtain ⟨_, _, _, _, _, h⟩ := contained_record s kind acc m addr
  rw [h]
  unfold Recorded Faults.record
  dsimp only
  split <;> rfl

theorem silentAlive_reports {s : State} (hsilent : s.pair.silent = true) (halive : s.pair.aliveIn = true) (hepisode : s.pair.episode = false) :
    Reports s s.silentAlive := by
  let s1 : State := State.pairCount { s with pair := { s.pair with episode := true }, faults := { s.faults with gavonDown := true } } 3
  have hs : s.silentAlive = s1.contained 0x0E .none mFault 0 := by
    rw [State.silentAlive]
    refine (if_pos (by rw [hsilent, halive, hepisode]; rfl)).trans ?_
    exact reportNone_of_contained (by decide) s1 mFault
  have hall : Touches faultParts s1 (s1.contained 0x0E .none mFault 0) := (Touches.refl _).contained
  rw [hs]
  exact ⟨hall.same .pair, contained_gavonDown .., contained_valid .., fun hfree => (contained_first s1 0x0E .none mFault 0 hfree).1, hall.same .dict⟩

theorem pairAliveRestored_reports (s : State) (c : Croak) (hawake : asleep s = false) (hsilent : s.pair.silent = true)
    (hpartner : s.pair.partner = some c) (hepisode : s.pair.episode = false) :
    does (.pairAliveRestored) s fun t =>
      t.pair.aliveIn = true ∧ t.pair.episode = true ∧ t.pair.role = s.pair.role ∧ lookD 0 t.pair.counters 3 = lookD 0 s.pair.counters 3 + 1 ∧ t.faults.gavonDown = true ∧ t.faults.valid = true ∧ (s.faults.valid = false → t.faults.kind = 0x0E) ∧ t.dict = s.dict := by
  have hexec : exec .pairAliveRestored s = .next (State.silentAlive { s with pair := { s.pair with aliveIn := true } }) := by
    refine (awake_of hawake _).trans (congrArg Host.Outcome.next ?_)
    exact if_pos (by rw [hpartner]; rfl)
  have h := silentAlive_reports (s := { s with pair := { s.pair with aliveIn := true } }) hsilent rfl hepisode
  refine ⟨_, hexec, ?_⟩
  beta_reduce
  rw [h.pair]
  exact ⟨rfl, rfl, rfl, bump_same ..,  h.gavonDown, h.valid, h.kind, h.dict⟩

/-! ### Croaks -/

theorem croak_halves {s : State} {n : Nat} (state : Nat) (h : halvesUp s = n) :
    s.croak state = { s with
      pair := { s.pair with croaks := s.pair.croaks + 1 }, out := s.out ++ List.replicate n (.gavon 1 (croakBytes s state)) } := by
  rw [State.croak, h]

theorem croakSend_secondary (s : State) (hawake : asleep s = false) (ha : s.pair.halfA = true) (hb : s.pair.halfB = true)
    (hrole : s.pair.role ≠ .primary) :
    does (.croakSend) s fun t =>
      t = { s with pair := { s.pair with croaks := s.pair.croaks + 1 }, out := s.out ++ [.gavon 1 (croakBytes s (croakState s)), .gavon 1 (croakBytes s (croakState s))] } := by
  have hhalves : halvesUp s = 2 := by rw [halvesUp, ha, hb]; rfl
  refine ⟨_, (awake_of hawake _).trans ((if_neg (by rw [hhalves]; decide)).trans (congrArg Host.Outcome.next (if_neg fun h => hrole h.1))), ?_⟩
  exact croak_halves _ hhalves

/-- The time as the primary mirrors it (R490). -/
def mirrorTime (s : State) : MirrorTime :=
  { seconds := BitVec.ofNat 48 (s.time.ptp / 1000000000), nanos := BitVec.ofNat 30 (s.time.ptp % 1000000000), todValid := s.time.todValid
    clockClass := clockClassNow s, freq := BitVec.ofInt 32 s.time.freq, utcOffset := BitVec.ofNat 16 (utcField s 1)
    leap := BitVec.ofNat 8 (utcField s 2), leapAt := BitVec.ofNat 64 (utcField s 3) }

theorem croakSend_primary (s : State) (hawake : asleep s = false) (ha : s.pair.halfA = true) (hb : s.pair.halfB = false)
    (hrole : s.pair.role = .primary) (htime : s.boot.timeUp = true) :
    does (.croakSend) s fun t =>
      (∃ m : MirrorTime, m.seconds = BitVec.ofNat 48 (s.time.ptp / 1000000000) ∧ m.nanos = BitVec.ofNat 30 (s.time.ptp % 1000000000) ∧ t.out = s.out ++ [.gavon 1 (croakBytes s (croakState s)), .gavonTime m]) ∧ t = { s with pair := { s.pair with croaks := s.pair.croaks + 1 }, out := t.out } := by
  have hhalves : halvesUp s = 1 := by rw [halvesUp, ha, hb]; rfl
  have hexec : exec .croakSend s = .next ((s.croak (croakState s)).emit (.gavonTime (mirrorTime s))) :=
    (awake_of hawake _).trans ((if_neg (by rw [hhalves]; decide)).trans (congrArg Host.Outcome.next (if_pos ⟨hrole, htime⟩)))
  rw [croak_halves _ hhalves] at hexec
  exact ⟨_, hexec, ⟨mirrorTime s, rfl, rfl, List.append_assoc ..⟩, rfl⟩

/-- A croak of 32 octets is well formed. -/
theorem croakReceive_exec {s : State} {p : Bytes} {c : Croak} (hawake : asleep s = false) (hparse : croakParse p s.clk.now = some c) :
    exec (.croakReceive p) s = .next ((s.takeCroak c).pairChanged s) := by
  have hlen : p.length = 32 := by
    by_contra hne
    rw [croakParse, if_pos (.inl hne)] at hparse
    cases hparse
  refine (awake_of hawake _).trans ((if_pos (by simp [Instr.wellFormed, Instr.masters, hlen])).trans ?_)
  rw [hparse]

/-- What the partner's croak leaves before the question who serves. -/
structure Heard (c : Croak) (s t : State) : Prop where
  partner : t.pair.partner = some c
  silent : t.pair.silent = false
  episode : t.pair.episode = false
  role : t.pair.role = s.pair.role
  epoch : t.pair.epoch = s.pair.epoch
  halfA : t.pair.halfA = s.pair.halfA
  halfB : t.pair.halfB = s.pair.halfB
  counters : t.pair.counters = s.pair.counters
  gavonDown : t.faults.gavonDown = false
  boot : t.boot = s.boot
  dict : t.dict = s.dict
  store : t.store = s.store

theorem Heard.touches {c : Croak} {s t u : State} (h : Heard c s t) (g : Touches [.clk, .paths, .out] t u) : Heard c s u := by
  obtain ⟨hpartner, hsilent, hepisode, hrole, hepoch, ha, hb, hcounters, hdown, hboot, hdict, hstore⟩ := h
  rw [← g.same .pair] at hpartner hsilent hepisode hrole hepoch ha hb hcounters
  rw [← g.same .faults] at hdown
  rw [← g.same .boot] at hboot
  rw [← g.same .dict] at hdict
  rw [← g.same .store] at hstore
  exact ⟨hpartner, hsilent, hepisode, hrole, hepoch, ha, hb, hcounters, hdown, hboot, hdict, hstore⟩

/-- A state that took a croak, before and without a loss of service. -/
theorem takeCroak_heard {s : State} {c : Croak} (hrole : s.pair.role ≠ .secondary ∨ (c.state ≠ 5 ∧ c.state ≠ 6)) :
    ∃ u, Heard c s u ∧ s.takeCroak c = if givesWay u c then (u.stopServing .joining).pairCount 5 else u := by
  let s1 : State := { s with
    pair := { s.pair with
      partner := some c, silent := false, episode := false
      mirrorOk := if s.pair.role = .primary then (if c.state = 2 then true else if c.state = 3 then false else s.pair.mirrorOk) else s.pair.mirrorOk }
    faults := { s.faults with gavonDown := false } }
  let joins := decide (s.pair.role = .primary) && c.state == 3 && ((s.pair.partner.map fun o => o.state != 3).getD true)
  have hnot : ¬ (s.pair.role = .secondary ∧ (c.state = 5 ∨ c.state = 6)) := by
    rintro ⟨hsec, hleave⟩
    obtain h | ⟨h5, h6⟩ := hrole
    · exact h hsec
    · exact hleave.elim h5 h6
  refine ⟨(if joins then s1.sendResync else s1).syncErr, ?_, if_neg hnot⟩
  have htaken : Heard c s (if joins then s1.sendResync else s1) := by
    cases joins <;> exact ⟨rfl, rfl, rfl, rfl, rfl, rfl, rfl, rfl, rfl, rfl, rfl, rfl⟩
  exact htaken.touches (Touches.refl _).syncErr

theorem givesWay_of_state {t : State} {c : Croak} (h : c.state ≠ 1) : givesWay t c = false := by
  rw [givesWay, beq_eq_false_iff_ne.2 h, Bool.and_false, Bool.false_and]

theorem croakReceive_heard (s : State) (p : Bytes) (c : Croak) (hawake : asleep s = false) (hparse : croakParse p s.clk.now = some c)
    (hrole : s.pair.role ≠ .secondary ∨ (c.state ≠ 5 ∧ c.state ≠ 6)) (hserves : c.state ≠ 1) :
    does (.croakReceive p) s fun t =>
      t.pair.partner = some c ∧ t.pair.silent = false ∧ t.pair.episode = false ∧ t.pair.role = s.pair.role ∧ t.pair.epoch = s.pair.epoch ∧ t.faults.gavonDown = false ∧ (s.pair.silent = true → (t.intc.src 0x15).pending = true) ∧ t.dict = s.dict ∧ t.store = s.store := by
  obtain ⟨u, hu, htake⟩ := takeCroak_heard hrole
  rw [if_neg (by simp [givesWay_of_state hserves])] at htake
  have hall : Touches [.intc, .mem, .out] u (u.pairChanged s) := (Touches.refl u).pairChanged
  refine ⟨_, (croakReceive_exec hawake hparse).trans (by rw [htake]), ?_⟩
  beta_reduce
  rw [hall.same .pair, hall.same .faults, hall.same .dict, hall.same .store]
  exact ⟨hu.partner, hu.silent, hu.episode, hu.role, hu.epoch, hu.gavonDown,
    fun hsilent => pairChanged_links (pairLinks_silent hu.halfA hu.halfB (by rw [hu.silent, hsilent]; decide)), hu.dict, hu.store⟩

theorem croakReceive_givesWay (s : State) (p : Bytes) (c : Croak) (hawake : asleep s = false) (hparse : croakParse p s.clk.now = some c)
    (hserves : serves s = true) (hstate : c.state = 1)
    (hhigher : s.pair.epoch < c.epoch ∨ (s.pair.epoch = c.epoch ∧ s.boot.pairId = true ∧ c.pairId = false)) :
    does (.croakReceive p) s fun t =>
      t.pair.role = .joining ∧ t.pair.partner = some c ∧ lookD 0 t.pair.counters 5 = lookD 0 s.pair.counters 5 + 1 ∧ (t.intc.src 0x15).pending = true ∧ (∀ p : Fin 72, (t.tile p).frame = none) := by
  have hstates : s.pair.role ≠ .secondary ∨ (c.state ≠ 5 ∧ c.state ≠ 6) := .inr (by rw [hstate]; decide)
  obtain ⟨u, hu, htake⟩ := takeCroak_heard hstates
  have hway : givesWay u c = true := by
    have hu_serves : serves u = true := by rw [serves, hu.role]; exact hserves
    rw [givesWay, hu_serves, hstate, hu.epoch, hu.boot]
    obtain h | ⟨he, hmine, htheirs⟩ := hhigher
    · simp [h]
    · simp [he, hmine, htheirs]
  rw [if_pos hway] at htake
  let t := (u.stopServing .joining).pairCount 5
  have hpair : t.pair = { u.pair with role := .joining, mirrorOk := false, counters := bump u.pair.counters 5 } := by
    show ({ (u.stopServing .joining).pair with counters := bump (u.stopServing .joining).pair.counters 5 } : Pair) = _
    rw [stopServing_pair]
  have hall : Touches [.intc, .mem, .out] t (t.pairChanged s) := (Touches.refl t).pairChanged
  have hrole : t.pair.role ≠ s.pair.role := by
    rw [hpair]
    intro h
    rw [serves, ← h] at hserves
    cases hserves
  refine ⟨_, (croakReceive_exec hawake hparse).trans (by rw [htake]), ?_⟩
  beta_reduce
  rw [show ((u.stopServing .joining).pairCount 5).pairChanged s = t.pairChanged s from rfl, hall.same .pair, hpair]
  refine ⟨rfl, hu.partner, ?_, pairChanged_pending fun h => hrole h.1, fun p => ?_⟩
  · rw [← hu.counters]
    exact bump_same ..
  · have hwork := Touches.sameWork hall
    rw [(hwork p).1]
    exact stopServing_frame u .joining p

theorem croakReceive_leaving (s : State) (p : Bytes) (c : Croak) (hawake : asleep s = false) (hparse : croakParse p s.clk.now = some c)
    (hrole : s.pair.role = .secondary) (hstate : c.state = 5 ∨ c.state = 6) :
    does (.croakReceive p) s fun t =>
      t.pair.role = .secondary ∧ t.pair.silent = s.pair.silent ∧ (t.pair.partner.map Croak.state) = some c.state ∧ lookD 0 t.pair.counters 4 = lookD 0 s.pair.counters 4 + 1 := by
  have htake : s.takeCroak c = State.pairCount { s with pair := { s.pair with
      partner := some { c with at_ := (s.pair.partner.map (·.at_)).getD 0 } } } 4 := if_pos ⟨hrole, hstate⟩
  have hall : Touches [.intc, .mem, .out] (s.takeCroak c) ((s.takeCroak c).pairChanged s) := (Touches.refl _).pairChanged
  refine ⟨_, croakReceive_exec hawake hparse, ?_⟩
  beta_reduce
  rw [hall.same .pair, htake]
  exact ⟨hrole, rfl, rfl, bump_same ..⟩

theorem croakReceive_unparsed (s : State) (p : Bytes) (hawake : asleep s = false) (hlen : p.length ≤ 65507)
    (hparse : croakParse p s.clk.now = none) : exec (.croakReceive p) s = .next s := by
  refine (awake_of hawake _).trans ((if_pos (by simp [Instr.wellFormed, Instr.masters, hlen])).trans ?_)
  rw [hparse]

/-! ### Silence -/

/-- The partner has just gone silent, three croaks missed (R485). -/
def gone (s : State) : State :=
  State.pairCount { s with pair := { s.pair with silent := true, resync := s.pair.resync && decide (s.pair.role ≠ .joining) } } 4 3

theorem partnerSilent_dead (s : State) (c : Croak) (hawake : asleep s = false) (hpartner : s.pair.partner = some c)
    (hsilent : s.pair.silent = false) (hdue : c.at_ + 300000 ≤ s.clk.now) (halive : s.pair.aliveIn = false) :
    does (.partnerSilent) s fun t =>
      t.pair = { s.pair with silent := true, resync := s.pair.resync && decide (s.pair.role ≠ .joining), counters := t.pair.counters } ∧ lookD 0 t.pair.counters 4 = lookD 0 s.pair.counters 4 + 3 ∧ (t.intc.src 0x15).pending = true ∧ t = { s with pair := t.pair, intc := t.intc, mem := t.mem, out := t.out } := by
  have hexec : exec .partnerSilent s = .next ((gone s).pairChanged s) := by
    refine (awake_of hawake _).trans ((if_neg ?_).trans ?_)
    · simp only [hpartner, hsilent, Option.isSome_some, if_true, Bool.false_or, decide_eq_true_eq]
      omega
    · refine congrArg (fun x : State => Host.Outcome.next (x.pairChanged s)) (if_neg ?_)
      simp [State.pairCount, halive]
  have hall : Touches [.intc, .mem, .out] (gone s) ((gone s).pairChanged s) := (Touches.refl _).pairChanged
  have hlinks : pairLinks (gone s) ≠ pairLinks s := pairLinks_silent rfl rfl (by rw [hsilent]; exact Bool.noConfusion)
  refine ⟨_, hexec, ?_⟩
  beta_reduce
  rw [hall.same .pair]
  refine ⟨rfl, bump_same .., pairChanged_links hlinks, ?_⟩
  exact hall.frame (by simp [gone])

/-- The partner goes silent and shows alive. -/
theorem gone_reports {s t : State} (halive : s.pair.aliveIn = true) (hepisode : s.pair.episode = false) (ht : t = (gone s).silentAlive.pairChanged s) :
    t.pair.silent = true ∧ lookD 0 t.pair.counters 4 = lookD 0 s.pair.counters 4 + 3 ∧ t.pair.aliveIn = true ∧ t.pair.episode = true ∧
      t.pair.role = s.pair.role ∧ lookD 0 t.pair.counters 3 = lookD 0 s.pair.counters 3 + 1 ∧ t.faults.gavonDown = true ∧
      t.faults.valid = true ∧ (s.faults.valid = false → t.faults.kind = 0x0E) ∧ t.dict = s.dict := by
  have h := silentAlive_reports (s := gone s) rfl halive hepisode
  have hall : Touches [.intc, .mem, .out] (gone s).silentAlive ((gone s).silentAlive.pairChanged s) := (Touches.refl _).pairChanged
  rw [ht, hall.same .pair, hall.same .faults, hall.same .dict, h.pair]
  refine ⟨rfl, ?_, halive, rfl, rfl, ?_, h.gavonDown, h.valid, h.kind, h.dict⟩
  · refine (lookD_put_ne 0 _ _ (by decide)).trans ?_
    exact bump_same s.pair.counters 4 3
  · refine (bump_same _ 3 1).trans ?_
    exact congrArg (· + 1) (lookD_put_ne 0 _ _ (by decide))

theorem partnerSilent_alive (s : State) (c : Croak) (hawake : asleep s = false) (hpartner : s.pair.partner = some c)
    (hsilent : s.pair.silent = false) (hdue : c.at_ + 300000 ≤ s.clk.now) (halive : s.pair.aliveIn = true)
    (hepisode : s.pair.episode = false) :
    does (.partnerSilent) s fun t =>
      t.pair.silent = true ∧ lookD 0 t.pair.counters 4 = lookD 0 s.pair.counters 4 + 3 ∧ t.pair.aliveIn = true ∧ t.pair.episode = true ∧ t.pair.role = s.pair.role ∧ lookD 0 t.pair.counters 3 = lookD 0 s.pair.counters 3 + 1 ∧ t.faults.gavonDown = true ∧ t.faults.valid = true ∧ (s.faults.valid = false → t.faults.kind = 0x0E) ∧ t.dict = s.dict := by
  have hexec : exec .partnerSilent s = .next ((gone s).silentAlive.pairChanged s) := by
    refine (awake_of hawake _).trans (if_neg ?_)
    simp only [hpartner, hsilent, Option.isSome_some, if_true, Bool.false_or, decide_eq_true_eq]
    omega
  exact ⟨_, hexec, gone_reports halive hepisode rfl⟩

theorem partnerSilent_never (s : State) (hawake : asleep s = false) (hpartner : s.pair.partner = none) (hselv : s.boot.selvedge = true)
    (hdue : s.boot.resetAt + 300000 ≤ s.clk.now) (halive : s.pair.aliveIn = true) (hepisode : s.pair.episode = false) :
    does (.partnerSilent) s fun t =>
      t.pair.silent = true ∧ lookD 0 t.pair.counters 4 = lookD 0 s.pair.counters 4 + 3 ∧ t.pair.aliveIn = true ∧ t.pair.episode = true ∧ t.pair.role = s.pair.role ∧ lookD 0 t.pair.counters 3 = lookD 0 s.pair.counters 3 + 1 ∧ t.faults.gavonDown = true ∧ t.faults.valid = true ∧ (s.faults.valid = false → t.faults.kind = 0x0E) ∧ t.dict = s.dict := by
  have hexec : exec .partnerSilent s = .next ((gone s).silentAlive.pairChanged s) := by
    refine (awake_of hawake _).trans (if_neg ?_)
    simp only [hpartner, hepisode, halive, hselv, Option.isSome_none, Bool.false_eq_true, if_false, Bool.not_true, Bool.or_false, Bool.false_or, decide_eq_true_eq]
    omega
  exact ⟨_, hexec, gone_reports halive hepisode rfl⟩

/-! ### The link -/

/-- A half of the link changes. -/
theorem links_change {s t : State} (h : pairLinks t ≠ pairLinks s) (hkept : Touches [.pair, .out] s t) :
    (t.pairChanged s).pair = t.pair ∧ ((t.pairChanged s).intc.src 0x15).pending = true ∧
      t.pairChanged s = { s with pair := (t.pairChanged s).pair, intc := (t.pairChanged s).intc, mem := (t.pairChanged s).mem, out := (t.pairChanged s).out } := by
  have hall : Touches [.intc, .mem, .out] t (t.pairChanged s) := (Touches.refl _).pairChanged
  refine ⟨hall.same .pair, pairChanged_links h, ?_⟩
  exact ((hkept.mono (by decide) : Touches [.pair, .intc, .mem, .out] s t).pairChanged).frame (by simp)

/-- Each of the link's halves has a bit of its own in 0x7071:04. -/
theorem pairLinks_halves {s t : State} (hs : t.pair.silent = s.pair.silent) (h : t.pair.halfA ≠ s.pair.halfA ∨ t.pair.halfB ≠ s.pair.halfB) :
    pairLinks t ≠ pairLinks s := by
  rw [pairLinks, pairLinks, hs]
  revert h
  generalize t.pair.halfA = x
  generalize t.pair.halfB = y
  generalize s.pair.halfA = u
  generalize s.pair.halfB = v
  cases x <;> cases y <;> cases u <;> cases v <;> simp [b2n]

theorem gavonLinkUp_second (s : State) (hawake : asleep s = false) (ha : s.pair.halfA = true) (hb : s.pair.halfB = false) :
    does (.gavonLinkUp true) s fun t =>
      t.pair = { s.pair with halfB := true } ∧ (t.intc.src 0x15).pending = true ∧ t = { s with pair := t.pair, intc := t.intc, mem := t.mem, out := t.out } := by
  let t : State := { s with pair := { s.pair with halfB := true } }
  have hexec : exec (.gavonLinkUp true) s = .next (t.pairChanged s) := by
    refine (awake_of hawake _).trans (congrArg (fun x : State => Host.Outcome.next (x.pairChanged s)) (if_pos ?_))
    rw [halvesUp, ha, hb]
    rfl
  have hlinks : pairLinks t ≠ pairLinks s := pairLinks_halves rfl (.inr (by rw [hb]; exact Bool.noConfusion))
  exact ⟨_, hexec, links_change hlinks ((Touches.refl s).setPair)⟩

theorem gavonLinkUp_resends (s : State) (hawake : asleep s = false) (ha : s.pair.halfA = false) (hb : s.pair.halfB = false)
    (hrole : s.pair.role = .primary) :
    does (.gavonLinkUp false) s fun t =>
      t.pair = { s.pair with halfA := true } ∧ (∀ r, r ∈ s.store.journal → mirrorOf r.entries ≠ [] → s.pair.confirmed.toNat < (newestPair r.entries 0).toNat → Output.gavonRecord (newestPair r.entries 0) (mirrorOf r.entries) ∈ t.out) ∧ (t.intc.src 0x15).pending = true ∧ t = { s with pair := t.pair, intc := t.intc, mem := t.mem, out := t.out } := by
  let t : State := State.resend { s with pair := { s.pair with halfA := true } }
  have hexec : exec (.gavonLinkUp false) s = .next (t.pairChanged s) := by
    refine (awake_of hawake _).trans (congrArg (fun x : State => Host.Outcome.next (x.pairChanged s)) ((if_neg ?_).trans (if_pos hrole)))
    rw [halvesUp, ha, hb]
    decide
  have hlinks : pairLinks t ≠ pairLinks s := pairLinks_halves rfl (.inl (by rw [ha]; exact Bool.noConfusion))
  obtain ⟨hpair, hpending, hframe⟩ := links_change hlinks ((Touches.refl s).write [.pair, .out] fun p hp => by cases p <;> simp at hp <;> rfl)
  refine ⟨_, hexec, hpair, fun r hr hmirror hnew => ?_, hpending, hframe⟩
  obtain ⟨l, hl⟩ := (Keeps.refl t).pairChanged (old := s) |>.out
  rw [← hl]
  refine List.mem_append_left _ (List.mem_append_right _ (List.mem_filterMap.2 ⟨r, hr, if_neg ?_⟩))
  rw [Bool.or_eq_true, List.isEmpty_iff, decide_eq_true_eq]
  exact not_or.2 ⟨hmirror, Nat.not_le.2 hnew⟩

theorem gavonLinkDown_half (s : State) (hawake : asleep s = false) (ha : s.pair.halfA = true) :
    does (.gavonLinkDown false) s fun t =>
      t.pair = { s.pair with halfA := false } ∧ (t.intc.src 0x15).pending = true ∧ t = { s with pair := t.pair, intc := t.intc, mem := t.mem, out := t.out } := by
  let t : State := { s with pair := { s.pair with halfA := false } }
  have hlinks : pairLinks t ≠ pairLinks s := pairLinks_halves rfl (.inl (by rw [ha]; exact Bool.noConfusion))
  exact ⟨_, awake_of hawake _, links_change hlinks ((Touches.refl s).setPair)⟩

/-- Settles O44, by what the partner's silence, its croaks and the link change in the pair's record. -/
theorem pairSignals : Obligations.PairSignals := by
  unfold Obligations.PairSignals
  exact ⟨pairAliveToggle_toggles, pairAliveToggle_waits, pairAliveLost_clears, pairAliveRestored_sets, pairAliveRestored_reports, croakSend_secondary,
    croakSend_primary, croakReceive_heard, croakReceive_givesWay, croakReceive_leaving, croakReceive_unparsed, partnerSilent_dead, partnerSilent_alive,
    partnerSilent_never, gavonLinkUp_second, gavonLinkUp_resends, gavonLinkDown_half⟩

end Sys2Proof.Proofs
end

section
/-! PROOFS. Treadle's commands (O25). -/

open Sys2Proof Sys2Proof.Machine

-- One proof at a time: a thread for each proof would pass the limit that the check sets to memory.
set_option Elab.async false

namespace Sys2Proof.Proofs

/-! ### A fault of Treadle -/

/-- Treadle as its fault leaves it (R302, R310). -/
def faultedTreadle (s : State) (p code : Nat) : Treadle :=
  let r := (s.tile p).treadle
  let recent := (r.faultedAt ++ [s.clk.now]).filter fun a => decide (s.clk.now < a + 10000000000)
  let out := decide (4 ≤ recent.length) && r.live
  { r with
    stopped := true, waiting := false, fault := true, overflow := r.overflow || r.fault
    code := if r.fault then r.code else BitVec.ofNat 3 code
    faultAddr := if r.fault then r.faultAddr else r.upc
    faults := r.faults + 1, faultedAt := recent
    patch := if out then 2 else r.patch, match_ := if out then [] else r.match_, live := r.live && !out
    owed := r.owed || (out && r.patch == 3) }

/-- What a fault of Treadle leaves of its tile and in the fault unit. -/
structure TreadleFaulted (p code : Nat) (s t : State) : Prop where
  stopped : (t.tile p).treadle.stopped = true
  fault : (t.tile p).treadle.fault = true
  counted : (t.tile p).treadle.faults = (s.tile p).treadle.faults + 1
  first : (s.tile p).treadle.fault = false →
    (t.tile p).treadle.code = BitVec.ofNat 3 code ∧ (t.tile p).treadle.faultAddr = (s.tile p).treadle.upc
  encs : (s.tile p).frame = none → t.encs = s.encs
  ended : ∀ f ∈ (s.tile p).frame, f.drained = true → (t.tile p).frame = none
  valid : t.faults.valid = true
  record : s.faults.valid = false → t.faults.kind = 0x08 ∧ t.faults.addr = BitVec.ofNat 48 (s.tile p).treadle.upc.toNat

/-- The frame that an abandonment ends, and Treadle's own fields, stay so while the stream is released. -/
theorem abandon_tile (s : State) (q p : Nat) (f : Frame) :
    ((s.abandon q p f).tile p).frame = none ∧ ((s.abandon q p f).tile p).treadle =
      { (s.tile p).treadle with estimates := [], cutReport := none, laneReq := [], abandon := !(s.tile p).treadle.stopped } := by
  have hafter : ∀ (u : State) (n : Nat), SameWork u (u.afterPicture n) := fun u n => by
    unfold State.afterPicture
    split
    · exact releaseStream_sameWork u n
    · exact .refl u
  let e := s.enc f.stream
  let t := s.tile p
  let s1 := f.written.foldl (fun s b => s.releaseBlock (mEnc p) b (s.pool.desc b).gen) s
  let s2 : State := { s1 with pool := { s1.pool with reserved := s1.pool.reserved - f.reserved } }
  let s3 := s2.setEnc f.stream { e with
    coding := none, poc := e.poc + 1, auSent := 0, rate := { e.rate with fullness := e.rate.fullness + 8 * e.auSent } }
  let t1 : Tile := { t with
    frame := none, frames := t.frames + 1
    out := { t.out with flush := t.out.flush ++ [(f.stream, f.slot)] }
    treadle := { t.treadle with estimates := [], cutReport := none, laneReq := [], abandon := !t.treadle.stopped } }
  have hwork : SameWork (s3.setTile p t1) (s.abandon q p f) :=
    .trans (Touches.sameWork (l := faultParts ++ [.bobs, .totals, .batten])
      (Touches.refl _).bobSrc.bobFlush.bobFlush.bobFlush.bobFlush.bobPush.count.compCount.streamLog.contained) (hafter _ f.stream)
  obtain ⟨hf, ht⟩ := hwork p
  rw [State.tile_setTile] at hf ht
  exact ⟨hf, ht⟩

/-- A state in which a fault of Treadle is recorded, before the end of a drained frame. -/
theorem treadleFault_recorded (s : State) (p code : Nat) :
    ∃ u, Touches (faultParts ++ [.totals]) (s.setTile p { s.tile p with treadle := faultedTreadle s p code }) u ∧ u.faults.valid = true ∧
      (s.faults.valid = false → u.faults.kind = 0x08 ∧ u.faults.addr = BitVec.ofNat 48 (s.tile p).treadle.upc.toNat) ∧
      s.treadleFault p code = match (s.tile p).frame with
        | some f => (u.setTile p { u.tile p with frame := some { f with draining := true } }).abandonDrained (logicalOf s p) p
        | none => u := by
  let s0 := s.setTile p { s.tile p with treadle := faultedTreadle s p code }
  let out := decide (4 ≤ (faultedTreadle s p code).faultedAt.length) && (s.tile p).treadle.live
  let s1 := (s0.count 0x5F01 5).count 0x5F01 4 (b2n out)
  let s2 := if out then s1.raise 0x00D (mEnc p) (le 1 p) else s1
  let s3 := if code = 6 then s2.countBin (0x30000 + p) else s2
  have hs2 : Touches [.totals, .intc, .mem, .out] s0 s2 := .ite (Touches.refl _).count.count.raise (Touches.refl _).count.count
  have hs3 : Touches (faultParts ++ [.totals]) s0 s3 :=
    .ite (hs2.mono (by decide) : Touches (faultParts ++ [.totals]) s0 s2).countBin (hs2.mono (by decide))
  have hvalid : s3.faults.valid = s.faults.valid := by
    have h2 : s2.faults.valid = s.faults.valid := congrArg Faults.valid (hs2.same .faults)
    dsimp only [s3]
    split <;> exact h2
  exact ⟨s3.contained 0x08 .fetch (mEnc p) (s.tile p).treadle.upc.toNat, hs3.contained, contained_valid .., fun hfree =>
    let h := contained_first s3 0x08 .fetch (mEnc p) (s.tile p).treadle.upc.toNat (hvalid.trans hfree)
    ⟨h.1, h.2.2.2.2⟩, rfl⟩

theorem treadleFault_faulted (s : State) (p code : Nat) : TreadleFaulted p code s (s.treadleFault p code) := by
  obtain ⟨u, hu, hvalid, hrecord, hfault⟩ := treadleFault_recorded s p code
  have htile : u.tile p = { s.tile p with treadle := faultedTreadle s p code } := by
    rw [State.tile, hu.same .tiles]
    exact State.tile_setTile ..
  have hfirst : (s.tile p).treadle.fault = false →
      (faultedTreadle s p code).code = BitVec.ofNat 3 code ∧ (faultedTreadle s p code).faultAddr = (s.tile p).treadle.upc := fun hfree =>
    ⟨if_neg (by rw [hfree]; decide), if_neg (by rw [hfree]; decide)⟩
  rw [hfault]
  cases hframe : (s.tile p).frame with
  | none =>
    dsimp only
    refine ⟨?_, ?_, ?_, ?_, fun _ => hu.same .encs, fun f hf => ?_, hvalid, hrecord⟩
    · rw [htile]; rfl
    · rw [htile]; rfl
    · rw [htile]; rfl
    · rw [htile]; exact hfirst
    · rw [hframe] at hf
      cases hf
  | some f =>
    dsimp only
    let v := u.setTile p { u.tile p with frame := some { f with draining := true } }
    have hvt : v.tile p = { s.tile p with treadle := faultedTreadle s p code, frame := some { f with draining := true } } := by
      rw [State.tile_setTile, htile]
    have hrest : Touches [.clk, .pins, .store, .paths, .bobs, .tiles, .encs, .batten, .totals, .pool, .trans, .intc, .mem, .faults, .out] u
        (v.abandonDrained (logicalOf s p) p) := (Touches.refl u).setTile.abandonDrained
    have hwork : ∃ e c l a, ((v.abandonDrained (logicalOf s p) p).tile p).treadle =
        { faultedTreadle s p code with estimates := e, cutReport := c, laneReq := l, abandon := a } := by
      unfold State.abandonDrained
      rw [hvt]
      dsimp only
      split
      · exact ⟨_, _, _, _, ((abandon_tile v _ p _).2.trans (by rw [hvt]))⟩
      · exact ⟨_, _, _, _, by rw [hvt]⟩
    obtain ⟨e, c, l, a, hr⟩ := hwork
    refine ⟨?_, ?_, ?_, ?_, fun h => ?_, fun g hg hdrained => ?_, ?_, fun hfree => ?_⟩
    · rw [hr]; rfl
    · rw [hr]; rfl
    · rw [hr]; rfl
    · rw [hr]; exact hfirst
    · rw [hframe] at h
      cases h
    · rw [hframe] at hg
      cases hg
      unfold State.abandonDrained
      rw [hvt]
      dsimp only
      rw [if_pos (by rw [Bool.true_and]; exact hdrained)]
      exact (abandon_tile v _ p _).1
    · exact hrest.stands.valid hvalid
    · obtain ⟨hkind, haddr⟩ := hrecord hfree
      exact ⟨(hrest.stands.kind hvalid).trans hkind, (hrest.stands.addr hvalid).trans haddr⟩

theorem treadleFault_stops (s : State) (tile : Fin 72) (c : BitVec 3) (hawake : asleep s = false) (hcode : c ≠ 0)
    (hruns : (s.tile tile).treadle.stopped = false) :
    does (.treadleFault tile c) s fun t =>
      (t.tile tile).treadle.stopped = true ∧ (t.tile tile).treadle.fault = true ∧ (t.tile tile).treadle.faults = (s.tile tile).treadle.faults + 1 ∧ ((s.tile tile).treadle.fault = false → (t.tile tile).treadle.code = c) ∧ ((s.tile tile).frame = none → t.encs = s.encs) ∧ (∀ f ∈ (s.tile tile).frame, f.drained = true → (t.tile tile).frame = none) ∧ t.faults.valid = true ∧ (s.faults.valid = false → t.faults.kind = 0x08 ∧ t.faults.addr = BitVec.ofNat 48 (s.tile tile).treadle.upc.toNat) := by
  have hexec : exec (.treadleFault tile c) s = .next (s.treadleFault tile c.toNat) :=
    (awake_of hawake _).trans (if_neg (by rw [hruns]; simpa using hcode))
  obtain ⟨hstopped, hfault, hcounted, hfirst, hencs, hended, hvalid, hrecord⟩ := treadleFault_faulted s tile c.toNat
  exact ⟨_, hexec, hstopped, hfault, hcounted, fun hfree => (hfirst hfree).1.trans (by rw [BitVec.ofNat_toNat, BitVec.setWidth_eq]), hencs, hended, hvalid, hrecord⟩

theorem safePointTimeout_stops (s : State) (tile : Fin 72) (hawake : asleep s = false) (htimer : 4096 ≤ (s.tile tile).treadle.safeTimer)
    (hruns : (s.tile tile).treadle.stopped = false) :
    does (.safePointTimeout tile) s fun t =>
      (t.tile tile).treadle.stopped = true ∧ (t.tile tile).treadle.fault = true ∧ (t.tile tile).treadle.faults = (s.tile tile).treadle.faults + 1 ∧ ((s.tile tile).treadle.fault = false → (t.tile tile).treadle.code = 5) ∧ ((s.tile tile).frame = none → t.encs = s.encs) ∧ (∀ f ∈ (s.tile tile).frame, f.drained = true → (t.tile tile).frame = none) ∧ t.faults.valid = true ∧ (s.faults.valid = false → t.faults.kind = 0x08 ∧ t.faults.addr = BitVec.ofNat 48 (s.tile tile).treadle.upc.toNat) := by
  have hexec : exec (.safePointTimeout tile) s = .next (s.treadleFault tile 5) := (awake_of hawake _).trans (if_pos ⟨htimer, hruns⟩)
  obtain ⟨hstopped, hfault, hcounted, hfirst, hencs, hended, hvalid, hrecord⟩ := treadleFault_faulted s tile 5
  exact ⟨_, hexec, hstopped, hfault, hcounted, fun hfree => (hfirst hfree).1, hencs, hended, hvalid, hrecord⟩

/-! ### One microword -/

theorem atRom_of_patch {r : Treadle} (h : 0x4000 ≤ r.upc.toNat) : r.atRom = false := by
  have hentry : romEntries.contains r.upc.toNat = false := by
    rw [← Bool.not_eq_true, List.contains_iff_mem]
    intro hmem
    have hall : ∀ a ∈ romEntries, a < 0x4000 := by decide
    exact absurd (hall _ hmem) (by omega)
  rw [Treadle.atRom, hentry, Bool.and_false, Bool.false_and]

theorem fetch_of_patch {r : Treadle} {a : Nat} (h : r.upc.toNat = 0x4000 + a) (ha : a < 1024) : r.fetch r.upc.toNat = some (lookD 0 r.patchRam a) := by
  rw [Treadle.fetch, if_neg (by omega), if_pos (by omega), h, Nat.add_sub_cancel_left]

/-- Treadle after the operations of a microword that only continues: the timer of the safe point has counted. -/
def continued (r : Treadle) (v : Word) : Treadle :=
  { r with w := put r.w 0 v, waiting := false, atSafe := false, safeTimer := r.safeTimer + 1 }

/-- The state between the operations of such a microword and its sequencing. -/
def beforeNext (s : State) (p : Nat) (v : Word) : State :=
  s.freed.setTile p { s.tile p with treadle := continued (s.tile p).treadle v }

/-- Treadle goes on to the next address. -/
def Treadle.next (r : Treadle) : Treadle := { r with upc := r.upc + 1 }

/-- A microword that only continues: no operation, memory access, port or condition (R293 to R297). -/
theorem runWord_continue (s : State) (p : Nat) : ∃ v, runWord s p 0xF0000000 0 =
    (beforeNext s p v).setTile p { (beforeNext s p v).tile p with treadle := Treadle.next ((beforeNext s p v).tile p).treadle } := by
  exact ⟨_, rfl⟩

theorem microwordExecute_continues (s : State) (tile : Fin 72) (a : Nat) (hawake : asleep s = false)
    (hruns : (s.tile tile).treadle.stopped = false) (hsafe : (s.tile tile).treadle.safeTimer < 4096)
    (hupc : (s.tile tile).treadle.upc.toNat = 0x4000 + a) (ha : a < 1023) (hword : lookD 0 (s.tile tile).treadle.patchRam a = 0xF0000000)
    (hnano : lookD 0 (s.tile tile).treadle.nanoPatch 0 = 0) :
    does (.microwordExecute tile) s fun t =>
      (t.tile tile).treadle.upc = (s.tile tile).treadle.upc + 1 ∧ (t.tile tile).frame = (s.tile tile).frame ∧ t = { s with tiles := t.tiles, clk := t.clk } := by
  obtain ⟨v, hv⟩ := runWord_continue s tile
  have hexec : exec (.microwordExecute tile) s = .next (runWord s tile 0xF0000000 0) := by
    refine (awake_of hawake _).trans ((if_neg (by rw [hruns]; decide)).trans ((if_neg (by omega)).trans ((if_neg ?_).trans ?_)))
    · rw [atRom_of_patch (by omega)]
      decide
    · rw [fetch_of_patch hupc (by omega), hword]
      have hn : ((s.tile tile).treadle.nano (bits (0xF0000000 : Word).toNat 31 21)).toNat = 0 := congrArg BitVec.toNat hnano
      dsimp only
      rw [hn]
      rfl
  rw [hv] at hexec
  refine ⟨_, hexec, ?_⟩
  beta_reduce
  rw [State.tile_setTile, beforeNext, State.tile_setTile]
  exact ⟨rfl, rfl, rfl⟩

theorem microwordExecute_waits (s : State) (tile : Fin 72) (a : Nat) (hawake : asleep s = false)
    (hruns : (s.tile tile).treadle.stopped = false) (hsafe : (s.tile tile).treadle.safeTimer < 4096)
    (hupc : (s.tile tile).treadle.upc.toNat = 0x4000 + a) (ha : a < 1024) (hword : lookD 0 (s.tile tile).treadle.patchRam a = 0xF0038000)
    (hnano : lookD 0 (s.tile tile).treadle.nanoPatch 0 = 0x2000000000) (hevents : (s.tile tile).treadle.events = []) :
    does (.microwordExecute tile) s fun t =>
      (t.tile tile).treadle = { (s.tile tile).treadle with waiting := true, atSafe := true, safeTimer := 0 } ∧ t = { s with tiles := t.tiles } := by
  have hexec : exec (.microwordExecute tile) s =
      .next (s.setTile tile { s.tile tile with treadle := { (s.tile tile).treadle with waiting := true, atSafe := true, safeTimer := 0 } }) := by
    refine (awake_of hawake _).trans ((if_neg (by rw [hruns]; decide)).trans ((if_neg (by omega)).trans ((if_neg ?_).trans ?_)))
    · rw [atRom_of_patch (by omega)]
      decide
    · rw [fetch_of_patch hupc ha, hword]
      have hn : ((s.tile tile).treadle.nano (bits (0xF0038000 : Word).toNat 31 21)).toNat = 0x2000000000 := congrArg BitVec.toNat hnano
      have hcond : cond s (s.tile tile) (bits (0xF0038000 : Word).toNat 18 15) = false := by
        show (!(s.tile tile).treadle.events.isEmpty) = false
        rw [hevents]
        rfl
      dsimp only
      rw [hn, hcond]
      rfl
  exact ⟨_, hexec, congrArg Tile.treadle (State.tile_setTile s tile _), rfl⟩

theorem microwordExecute_idles (s : State) (tile : Fin 72) (hawake : asleep s = false) (hrom : (s.tile tile).treadle.atRom = true)
    (hsafe : (s.tile tile).treadle.safeTimer < 4096) (hupc : (s.tile tile).treadle.upc = 0x40)
    (hevents : (s.tile tile).treadle.events = []) :
    does (.microwordExecute tile) s fun t =>
      (t.tile tile).treadle = { (s.tile tile).treadle with waiting := true, atSafe := true, safeTimer := 0 } ∧ t = { s with tiles := t.tiles } := by
  have hruns : (s.tile tile).treadle.stopped = false := by
    rw [Treadle.atRom, Bool.and_assoc] at hrom
    simpa using (Bool.and_eq_true_iff.1 hrom).1
  have hidle : s.romStep tile = s.setTreadle tile { (s.tile tile).treadle with waiting := true, atSafe := true, safeTimer := 0 } := by
    have ha : (s.tile tile).treadle.upc.toNat = 0x40 := congrArg BitVec.toNat hupc
    unfold State.romStep
    refine (if_neg (by rw [ha]; decide)).trans ((if_pos ha).trans ?_)
    unfold State.romIdle
    simp only [hevents]
  have hexec : exec (.microwordExecute tile) s = .next (s.romStep tile) :=
    (awake_of hawake _).trans ((if_neg (by rw [hruns]; decide)).trans ((if_neg (by omega)).trans (if_pos hrom)))
  rw [hidle] at hexec
  exact ⟨_, hexec, congrArg Tile.treadle (State.tile_setTile s tile _), rfl⟩

theorem microwordExecute_faults (s : State) (tile : Fin 72) (hawake : asleep s = false) (hruns : (s.tile tile).treadle.stopped = false)
    (hsafe : (s.tile tile).treadle.safeTimer < 4096) (hupc : 0x4400 ≤ (s.tile tile).treadle.upc.toNat) (_ : (s.tile tile).frame = none) :
    does (.microwordExecute tile) s fun t =>
      (t.tile tile).treadle.stopped = true ∧ (t.tile tile).treadle.fault = true ∧ ((s.tile tile).treadle.fault = false → (t.tile tile).treadle.code = 1 ∧ (t.tile tile).treadle.faultAddr = (s.tile tile).treadle.upc) ∧ t.faults.valid = true := by
  have hexec : exec (.microwordExecute tile) s = .next (s.treadleFault tile 1) := by
    refine (awake_of hawake _).trans ((if_neg (by rw [hruns]; decide)).trans ((if_neg (by omega)).trans ((if_neg ?_).trans ?_)))
    · rw [atRom_of_patch (by omega)]
      decide
    · rw [Treadle.fetch, if_pos hupc]
  obtain ⟨hstopped, hfault, _, hfirst, _, _, hvalid, _⟩ := treadleFault_faulted s tile 1
  exact ⟨_, hexec, hstopped, hfault, hfirst, hvalid⟩

/-! ### Interrupts, events, restart and patches -/

theorem treadleInterrupt_taken (s : State) (tile : Fin 72) (hawake : asleep s = false) (hruns : (s.tile tile).treadle.stopped = false)
    (hmask : (s.tile tile).treadle.masked = false) (hsafe : (s.tile tile).treadle.atSafe = true)
    (hpending : (s.tile tile).treadle.cutReport.isSome = true ∨ (s.tile tile).treadle.abandon = true ∨ (s.tile tile).treadle.laneReq ≠ [])
    (hroom : (s.tile tile).treadle.stack.length ≠ 8) :
    does (.treadleInterrupt tile) s fun t =>
      (t.tile tile).treadle = { (s.tile tile).treadle with stack := (s.tile tile).treadle.upc :: (s.tile tile).treadle.stack, upc := 0x10, masked := true, waiting := false, atSafe := false } ∧ t = { s with tiles := t.tiles } := by
  have hsource : (s.tile tile).treadle.pending = true := by
    rw [Treadle.pending]
    obtain h | h | h := hpending
    · rw [h, Bool.true_or, Bool.true_or]
    · rw [h, Bool.or_true, Bool.true_or]
    · rw [List.isEmpty_eq_false_iff.2 h]
      exact Bool.or_true _
  refine ⟨_, (awake_of hawake _).trans ((if_neg ?_).trans (if_neg hroom)), congrArg Tile.treadle (State.tile_setTile s tile _), rfl⟩
  rw [hruns, hmask, hsafe, hsource]
  decide

theorem treadleEvent_queued (s : State) (tile : Fin 72) (ev : Word) (hawake : asleep s = false)
    (hroom : (s.tile tile).treadle.events.length < 64) (hstalled : (s.tile tile).treadle.stalled = []) :
    does (.treadleEvent tile ev) s fun t =>
      (t.tile tile).treadle = { (s.tile tile).treadle with events := (s.tile tile).treadle.events ++ [ev] } ∧ t = { s with tiles := t.tiles } := by
  refine ⟨_, awake_of hawake _, (congrArg Tile.treadle (State.tile_setTile s tile _)).trans ?_, rfl⟩
  exact if_pos ⟨hroom, hstalled⟩

theorem treadleEvent_stalls (s : State) (tile : Fin 72) (ev : Word) (hawake : asleep s = false)
    (hfull : 64 ≤ (s.tile tile).treadle.events.length) :
    does (.treadleEvent tile ev) s fun t =>
      (t.tile tile).treadle = { (s.tile tile).treadle with stalled := (s.tile tile).treadle.stalled ++ [ev] } ∧ t = { s with tiles := t.tiles } := by
  refine ⟨_, awake_of hawake _, (congrArg Tile.treadle (State.tile_setTile s tile _)).trans ?_, rfl⟩
  exact if_neg fun h => absurd h.1 (Nat.not_lt.2 hfull)

theorem treadleRestart_restarts (s : State) (tile : Fin 72) (hawake : asleep s = false) (hstopped : (s.tile tile).treadle.stopped = true) :
    does (.treadleRestart tile) s fun t =>
      (t.tile tile).treadle = { (s.tile tile).treadle with stopped := false, upc := 0, stack := [], w := [], masked := false, waiting := false, safeTimer := 0, atSafe := false } ∧ t = { s with tiles := t.tiles } :=
  ⟨_, (awake_of hawake _).trans (if_pos hstopped), congrArg Tile.treadle (State.tile_setTile s tile _), rfl⟩

theorem patchApply_exec {s : State} {tile : Fin 72} (hawake : asleep s = false) (hpatch : (s.tile tile).treadle.patch = 3)
    (hframe : (s.tile tile).frame = none) (hnewt : s.boot.newt = false) :
    exec (.patchApply tile) s =
      .next (s.setTile tile { s.tile tile with treadle := (s.tile tile).treadle.applyPatch (parBytes s 0x5F00 0) }) :=
  (awake_of hawake _).trans (if_pos ⟨.inl hpatch, hframe, hnewt⟩)

theorem patchApply_removes (s : State) (tile : Fin 72) (hawake : asleep s = false) (hpatch : (s.tile tile).treadle.patch = 3)
    (hframe : (s.tile tile).frame = none) (hnewt : s.boot.newt = false) (hnone : parBytes s 0x5F00 0 = []) :
    does (.patchApply tile) s fun t =>
      (t.tile tile).treadle = { (s.tile tile).treadle with match_ := [], patchRam := [], nanoPatch := [], level := 0, patch := 0, live := false, owed := false } ∧ t = { s with tiles := t.tiles } := by
  refine ⟨_, patchApply_exec hawake hpatch hframe hnewt, (congrArg Tile.treadle (State.tile_setTile s tile _)).trans ?_, rfl⟩
  exact if_pos (by rw [hnone]; rfl)

theorem patchApply_applies (s : State) (tile : Fin 72) (hawake : asleep s = false) (hpatch : (s.tile tile).treadle.patch = 3)
    (hframe : (s.tile tile).frame = none) (hnewt : s.boot.newt = false) (himage : parBytes s 0x5F00 0 ≠ []) :
    does (.patchApply tile) s fun t =>
      (t.tile tile).treadle.patch = 1 ∧ (t.tile tile).treadle.level.toNat = u8 (parBytes s 0x5F00 0) 0xE ∧ (t.tile tile).treadle.match_.length = u8 (parBytes s 0x5F00 0) 0xF ∧ t = { s with tiles := t.tiles } := by
  have hnew : (parBytes s 0x5F00 0).isEmpty = false := List.isEmpty_eq_false_iff.2 himage
  refine ⟨_, patchApply_exec hawake hpatch hframe hnewt, ?_⟩
  beta_reduce
  rw [State.tile_setTile, Treadle.applyPatch]
  dsimp only
  rw [if_neg (by rw [hnew]; decide)]
  refine ⟨rfl, ?_, ?_, rfl⟩
  · exact Nat.mod_eq_of_lt (BitVec.isLt _)
  · rw [List.length_map, List.length_range]

/-- Settles O25: a fault keeps what Treadle records of it while its frame ends; the other commands write one tile. -/
theorem treadleRuns : Obligations.TreadleRuns := by
  unfold Obligations.TreadleRuns
  exact ⟨microwordExecute_continues, microwordExecute_waits, microwordExecute_idles, microwordExecute_faults, treadleInterrupt_taken,
    treadleEvent_queued, treadleEvent_stalls, treadleFault_stops, safePointTimeout_stops, treadleRestart_restarts, patchApply_removes,
    patchApply_applies⟩

end Sys2Proof.Proofs
end

section
/-! PROOFS. Packets through Selvedge (O26). -/

open Sys2Proof Sys2Proof.Machine

-- One proof at a time: a thread for each proof would pass the limit that the check sets to memory.
set_option Elab.async false

namespace Sys2Proof.Proofs

/-! ### A packet enters an engine -/

/-- A packet but for the engine that it is in and the rule set that it took there. -/
def packetCore (k : Pkt) : Pkt := { k with engine := none, gen := 0 }

theorem map_updFirst {α β : Type} (g : α → β) (q : α → Bool) (f : α → α) (h : ∀ x, g (f x) = g x) (l : List α) : (updFirst q f l).map g = l.map g := by
  induction l with
  | nil => rfl
  | cons x r ih =>
    unfold updFirst
    split
    · rw [List.map_cons, List.map_cons, h]
    · rw [List.map_cons, List.map_cons, ih]

/-- Selvedge with rule sets, rotation and pipeline of its own. -/
def Selvedge.turned (v : Selvedge) (a : RuleGen) (o : List RuleGen) (n : Nat) (p : List Pkt) : Selvedge :=
  { v with active := a, oldGens := o, engineNext := n, pipeline := p }

/-- A packet that enters an engine stays the packet that it was, and no other changes (R319). -/
theorem dispatch_core (v : Selvedge) : ∃ a o n p, v.dispatch = Selvedge.turned v a o n p ∧ p.map packetCore = v.pipeline.map packetCore := by
  unfold Selvedge.dispatch
  split
  · next k e _ _ =>
    dsimp only
    cases k.pass2.isSome <;>
      exact ⟨_, _, _, _, rfl, map_updFirst packetCore _ (fun x => { x with engine := some e, gen := _ }) (fun _ => rfl) v.pipeline⟩
  · exact ⟨v.active, v.oldGens, v.engineNext, v.pipeline, rfl, rfl⟩

theorem getLast?_core {α : Type} {p l : List Pkt} (h : p.map packetCore = l.map packetCore) (f : Pkt → α) (hf : ∀ k, f (packetCore k) = f k) :
    p.getLast?.map f = l.getLast?.map f := by
  have hmap : ∀ m : List Pkt, m.getLast?.map f = (m.map packetCore).getLast?.map f := fun m => by
    rw [List.getLast?_map, Option.map_map]
    exact congrArg (fun g => Option.map g m.getLast?) (funext fun k => (hf k).symm)
  rw [hmap p, hmap l, h]

theorem find?_core {α : Type} {p l : List Pkt} (h : p.map packetCore = l.map packetCore) (q : Pkt → Bool) (f : Pkt → α) (hq : ∀ k, q (packetCore k) = q k)
    (hf : ∀ k, f (packetCore k) = f k) : (p.find? q).map f = (l.find? q).map f := by
  have hmap : ∀ m : List Pkt, (m.find? q).map f = ((m.map packetCore).find? q).map f := fun m => by
    rw [List.find?_map, Option.map_map, show q ∘ packetCore = q from funext hq]
    exact congrArg (fun g => Option.map g (m.find? q)) (funext fun k => (hf k).symm)
  rw [hmap p, hmap l, h]

theorem map_core {α : Type} {p l : List Pkt} (h : p.map packetCore = l.map packetCore) (f : Pkt → α) (hf : ∀ k, f (packetCore k) = f k) : p.map f = l.map f := by
  have hmap : ∀ m : List Pkt, m.map f = (m.map packetCore).map f := fun m => by
    rw [List.map_map]
    exact List.map_congr_left fun k _ => (hf k).symm
  rw [hmap p, hmap l, h]

/-! ### PACKET_RECEIVE -/

/-- A frame as it arrives at a port. -/
def arrival (port : Fin 16) (data : Bytes) : Pkt := { id := 0, port := port, seq := 0, data := data, parsed := parseFrame data, gen := 0 }

theorem packetReceive_exec {s : State} {port : Fin 16} {data : Bytes} (hawake : asleep s = false) (hlen : data.length ≤ 16384)
    (hselv : s.boot.selvedge = true) (hlink : linkUp s port = true) (hport : portActive s port = true) (hserves : frontServes s = true) :
    exec (.packetReceive port data) s = .next { s.captureArrival (arrival port data) with
      selv := { (s.captureArrival (arrival port data)).selv with
        arrivals := (s.captureArrival (arrival port data)).selv.arrivals ++ [(arrival port data, parseWords data)] } } := by
  refine (awake_of hawake _).trans ((if_pos (by simp [Instr.wellFormed, Instr.masters, hlen])).trans (if_neg ?_))
  rw [hselv, hlink, hport, hserves]
  decide

theorem packetReceive_waits (s : State) (port : Fin 16) (data : Bytes) (hawake : asleep s = false) (hlen : data.length ≤ 16384)
    (hselv : s.boot.selvedge = true) (hlink : linkUp s port = true) (hport : portActive s port = true) (hserves : frontServes s = true)
    (hplain : s.boot.timeUp = false ∨ isEventMessage { id := 0, port := port.val, seq := 0, data := data, parsed := parseFrame data, gen := 0 } = false) :
    does (.packetReceive port data) s fun t =>
      t = { s with selv := { s.selv with arrivals := s.selv.arrivals ++ [({ id := 0, port := port.val, seq := 0, data := data, parsed := parseFrame data, gen := 0 }, parseWords data)] } } := by
  have hnone : s.captureArrival (arrival port data) = s := by
    refine if_neg ?_
    rw [Bool.and_eq_true]
    rintro ⟨hup, hevent⟩
    obtain h | h := hplain
    · rw [h] at hup
      cases hup
    · exact Bool.noConfusion (hevent.symm.trans h)
  have hexec := packetReceive_exec hawake hlen hselv hlink hport hserves
  rw [hnone] at hexec
  exact ⟨_, hexec, rfl⟩

theorem packetReceive_captures (s : State) (port : Fin 16) (data : Bytes) (hawake : asleep s = false) (hlen : data.length ≤ 16384)
    (hselv : s.boot.selvedge = true) (hlink : linkUp s port = true) (hport : portActive s port = true) (hserves : frontServes s = true)
    (hup : s.boot.timeUp = true)
    (hevent : isEventMessage { id := 0, port := port.val, seq := 0, data := data, parsed := parseFrame data, gen := 0 } = true) :
    does (.packetReceive port data) s fun t =>
      t.selv = { s.selv with arrivals := s.selv.arrivals ++ [({ id := 0, port := port.val, seq := 0, data := data, parsed := parseFrame data, gen := 0 }, parseWords data)] } ∧ t.time.arrived = s.time.arrived ++ [(port.val, lookD 0 t.time.caps port.val)] ∧ t = { s with selv := t.selv, time := t.time, clk := t.clk } := by
  have hcapture : s.captureArrival (arrival port data) = { s.capture port with
      time := { (s.capture port).time with arrived := (s.capture port).time.arrived ++ [(port.val, lookD 0 (s.capture port).time.caps port.val)] } } :=
    if_pos (by rw [hup, Bool.true_and]; exact hevent)
  have hexec := packetReceive_exec hawake hlen hselv hlink hport hserves
  rw [hcapture] at hexec
  exact ⟨_, hexec, rfl, rfl, rfl⟩

/-! ### A frame's last word is taken -/

theorem serveWord_sole {s : State} {k : Pkt} (harrivals : s.selv.arrivals = [(k, 1)]) (hroom : s.selv.buffered (k.port / 4) < 128) :
    ∃ pointers, s.serveWord (k.port / 4) = State.parsed { s with selv := { s.selv with arrivals := [], pointers := pointers } } k := by
  let ready (r : Nat) : Option (Pkt × Nat) := s.selv.arrivals.find? fun q => q.1.port / 4 == k.port / 4 && q.1.requester == r
  have hready : ∀ r, (ready r).isSome = true ↔ k.requester = r := by
    intro r
    simp [ready, harrivals, List.find?_cons]
    split <;> simp_all
  have hrange : k.requester < 5 := by
    unfold Pkt.requester
    split <;> omega
  let l := (List.range 5).map fun i => (lookD 0 s.selv.pointers (k.port / 4) + i) % 5
  have hmem : k.requester ∈ l := by
    refine List.mem_map.2 ⟨(k.requester + 5 - lookD 0 s.selv.pointers (k.port / 4) % 5) % 5, List.mem_range.2 (by omega), by omega⟩
  have hfind : l.find? (fun r => (ready r).isSome) = some k.requester := by
    cases h : l.find? fun r => (ready r).isSome with
    | none => exact absurd ((hready _).2 rfl) (List.find?_eq_none.1 h _ hmem)
    | some r => rw [(hready r).1 (List.find?_some (p := fun r => (ready r).isSome) h)]
  have htaken : takeFirst (fun q : Pkt × Nat => q.1.port / 4 == k.port / 4 && q.1.requester == k.requester) s.selv.arrivals = some ((k, 1), []) := by
    simp [harrivals, takeFirst]
  refine ⟨put s.selv.pointers (k.port / 4) ((k.requester + 1) % 5), (if_neg (by omega)).trans ?_⟩
  rw [hfind]
  dsimp only
  rw [htaken]
  rfl

/-- The packet that a parsed frame becomes, with its number and its sequence number. -/
def numbered (s : State) (k : Pkt) : Pkt :=
  { k with
    id := s.selv.nextId, seq := lookD 0 s.selv.nextSeq k.port, parsed := parseFrame k.data, badEnd := decide (k.data.length < (parseFrame k.data).ipEnd)
    gen := if k.pass2.isSome then k.gen else s.selv.active.num }

/-- Selvedge with a parsed frame last in its pipeline. -/
def entered (s : State) (k : Pkt) : Selvedge :=
  { s.selv with
    nextId := s.selv.nextId + 1, counters := bump s.selv.counters 1
    pipeline := s.selv.pipeline ++ [numbered s k], nextSeq := put s.selv.nextSeq k.port (lookD 0 s.selv.nextSeq k.port + 1)
    ending := if (numbered s k).badEnd && k.pass2.isNone then s.selv.ending ++ [numbered s k] else s.selv.ending }

theorem parsed_whole (s : State) (k : Pkt) (h : (parseFrame k.data).problem = 0) : s.parsed k = { s with selv := (entered s k).dispatch } := by
  unfold State.parsed
  dsimp only
  rw [h]
  rfl

theorem serveWord_whole (s : State) (k : Pkt) (harrivals : s.selv.arrivals = [(k, 1)]) (hroom : s.selv.buffered (k.port / 4) < 128)
    (hwhole : (parseFrame k.data).problem = 0) :
    ∃ pointers, s.serveWord (k.port / 4) =
      { s with selv := (entered { s with selv := { s.selv with arrivals := [], pointers := pointers } } k).dispatch } := by
  obtain ⟨pointers, h⟩ := serveWord_sole harrivals hroom
  exact ⟨pointers, h.trans (parsed_whole _ k hwhole)⟩

theorem serveWord_enters (s : State) (k : Pkt) (harrivals : s.selv.arrivals = [(k, 1)]) (hroom : s.selv.buffered (k.port / 4) < 128)
    (_ : k.port < 16) (hwhole : (parseFrame k.data).problem = 0) :
    (((s.serveWord (k.port / 4)).selv.pipeline.getLast?).map fun x => (x.id, x.port, x.seq, x.data, x.parsed)) =
        some (s.selv.nextId, k.port, lookD 0 s.selv.nextSeq k.port, k.data, parseFrame k.data) ∧
      (s.serveWord (k.port / 4)).selv.arrivals = [] ∧ (s.serveWord (k.port / 4)).selv.pipeline.length = s.selv.pipeline.length + 1 ∧
      lookD 0 (s.serveWord (k.port / 4)).selv.nextSeq k.port = lookD 0 s.selv.nextSeq k.port + 1 ∧
      lookD 0 (s.serveWord (k.port / 4)).selv.counters 1 = lookD 0 s.selv.counters 1 + 1 ∧
      (s.serveWord (k.port / 4)) = { s with selv := (s.serveWord (k.port / 4)).selv } := by
  obtain ⟨pointers, h⟩ := serveWord_whole s k harrivals hroom hwhole
  obtain ⟨a, o, n, p, hturned, hcore⟩ := dispatch_core (entered { s with selv := { s.selv with arrivals := [], pointers := pointers } } k)
  rw [hturned] at h
  rw [h]
  refine ⟨?_, rfl, ?_, lookD_put_same .., bump_same .., rfl⟩
  · refine (getLast?_core hcore _ fun _ => rfl).trans ?_
    exact congrArg (Option.map _) List.getLast?_concat
  · have hlen := congrArg List.length hcore
    rw [List.length_map, List.length_map] at hlen
    exact hlen.trans (List.length_append ..)

theorem updFirst_last {α : Type} {q : α → Bool} {f : α → α} {l : List α} {x : α} (hl : ∀ y ∈ l, q y = false) (hx : q x = true) :
    updFirst q f (l ++ [x]) = l ++ [f x] := by
  induction l with
  | nil => exact if_pos hx
  | cons y r ih =>
    have hy : ¬ q y = true := by
      rw [hl y List.mem_cons_self]
      exact Bool.noConfusion
    exact (if_neg hy).trans (congrArg (y :: ·) (ih fun z hz => hl z (List.mem_cons_of_mem _ hz)))

theorem serveWord_engine (s : State) (k : Pkt) (harrivals : s.selv.arrivals = [(k, 1)]) (hroom : s.selv.buffered (k.port / 4) < 128)
    (_ : k.port < 16) (hwhole : (parseFrame k.data).problem = 0) (hfirst : k.pass2 = none)
    (hothers : (s.selv.pipeline.all fun x => (x.verdict.isSome || x.engine.isSome) && x.id != s.selv.nextId) = true)
    (hslot : s.selv.engineFor.isSome = true) (hverdict : k.verdict = none) (hengine : k.engine = none) :
    (((s.serveWord (k.port / 4)).selv.pipeline.getLast?).map fun x => (x.id, x.engine, x.gen)) =
        some (s.selv.nextId, s.selv.engineFor, s.selv.active.num) ∧
      (s.serveWord (k.port / 4)).selv.active.held = s.selv.active.held + 1 := by
  obtain ⟨pointers, h⟩ := serveWord_whole s k harrivals hroom hwhole
  let s0 : State := { s with selv := { s.selv with arrivals := [], pointers := pointers } }
  obtain ⟨e, he⟩ := Option.isSome_iff_exists.1 hslot
  have hothers' : ∀ x ∈ s.selv.pipeline, (x.verdict.isSome || x.engine.isSome) = true ∧ x.id ≠ s.selv.nextId := fun x hx => by
    simpa using List.all_eq_true.1 hothers x hx
  have hfor : (entered s0 k).engineFor = some e := by
    rw [← he]
    refine congrArg (fun f => List.find? f _) (funext fun e => ?_)
    refine congrArg (fun n => decide (n < 8)) ?_
    show (List.filter _ (s.selv.pipeline ++ [numbered s0 k])).length = _
    rw [List.filter_append]
    simp [numbered, hengine]
  have hoverall : (entered s0 k).pipeline.find? (fun k => k.verdict.isNone && k.engine.isNone) = some (numbered s0 k) := by
    show (s.selv.pipeline ++ [numbered s0 k]).find? _ = _
    rw [List.find?_append, List.find?_eq_none.2 fun x hx => ?_]
    · simp [numbered, hverdict, hengine]
    · have := (hothers' x hx).1
      cases hv : x.verdict <;> cases hx : x.engine <;> simp_all
  have hdispatch : (entered s0 k).dispatch = { ((entered s0 k).hold s.selv.active.num 1) with
      engineNext := (e + 1) % 32
      pipeline := s.selv.pipeline ++ [{ numbered s0 k with engine := some e, gen := s.selv.active.num }] } := by
    unfold Selvedge.dispatch
    rw [hoverall, hfor]
    have hpass : (numbered s0 k).pass2.isSome = false := by
      show k.pass2.isSome = false
      rw [hfirst]
      rfl
    have hlast : updFirst (fun x => x.id == (numbered s0 k).id) (fun x => { x with engine := some e, gen := s.selv.active.num })
        (s.selv.pipeline ++ [numbered s0 k]) = s.selv.pipeline ++ [{ numbered s0 k with engine := some e, gen := s.selv.active.num }] :=
      updFirst_last (fun y hy => beq_eq_false_iff_ne.2 (hothers' y hy).2) (beq_self_eq_true _)
    dsimp only
    rw [hpass]
    exact congrArg (fun p => ({ ((entered s0 k).hold s.selv.active.num 1) with engineNext := (e + 1) % 32, pipeline := p } : Selvedge)) hlast
  rw [hdispatch] at h
  rw [h, he]
  refine ⟨congrArg (Option.map _) List.getLast?_concat, ?_⟩
  show RuleGen.held (if s.selv.active.num = s.selv.active.num then _ else _) = _
  rw [if_pos rfl]
  show ((s.selv.active.held : Int) + 1).toNat = _
  omega

theorem serveWord_drops (s : State) (k : Pkt) (harrivals : s.selv.arrivals = [(k, 1)]) (hroom : s.selv.buffered (k.port / 4) < 128)
    (_ : k.port < 16) (hproblem : (parseFrame k.data).problem = 3 ∨ (parseFrame k.data).problem = 4) (hquiet : parB s 0x3010 6 = false) :
    (s.serveWord (k.port / 4)).selv.pipeline = s.selv.pipeline ∧
      lookD 0 (s.serveWord (k.port / 4)).selv.counters (if (parseFrame k.data).problem = 4 then 6 else 4) =
        lookD 0 s.selv.counters (if (parseFrame k.data).problem = 4 then 6 else 4) + 1 ∧
      (s.serveWord (k.port / 4)) = { s with selv := (s.serveWord (k.port / 4)).selv } := by
  obtain ⟨pointers, h⟩ := serveWord_sole harrivals hroom
  let s1 : State := State.selvCount { s with selv := { s.selv with arrivals := [], pointers := pointers, nextId := s.selv.nextId + 1 } } 1
  let c := if (parseFrame k.data).problem = 4 then 6 else 4
  have hparsed : s.serveWord (k.port / 4) = s1.selvCount c := by
    refine h.trans ?_
    unfold State.parsed
    dsimp only [c]
    obtain h3 | h4 := hproblem
    · rw [h3]
      exact if_neg (Bool.eq_false_iff.1 hquiet)
    · rw [h4]
      exact if_neg (Bool.eq_false_iff.1 hquiet)
  have hc : c ≠ 1 := by
    dsimp only [c]
    split <;> decide
  rw [hparsed]
  refine ⟨rfl, ?_, rfl⟩
  exact (bump_same s1.selv.counters c 1).trans (congrArg (· + 1) (lookD_put_ne 0 _ _ hc))

/-! ### CLASSIFY -/

/-- What replaces the first element that passes a test, and passes it too, is the one that is found. -/
theorem find?_updFirst {α : Type} {p : α → Bool} {y : α} {l : List α} (hy : p y = true) (h : ∃ x ∈ l, p x = true) :
    (updFirst p (fun _ => y) l).find? p = some y := by
  induction l with
  | nil => obtain ⟨_, hx, _⟩ := h; cases hx
  | cons x r ih =>
    unfold updFirst
    split
    · exact List.find?_cons_of_pos hy
    · next hne =>
      rw [List.find?_cons_of_neg hne]
      refine ih ?_
      obtain ⟨z, hz, hpz⟩ := h
      obtain rfl | hz := List.mem_cons.1 hz
      · exact absurd hpz hne
      · exact ⟨z, hz, hpz⟩

/-- Lookups of intact entries change the MAC table's hit flags alone (R320). -/
theorem lookups_clean (s : State) (k : Pkt) : ∃ b o d src, s.lookups k false false =
    ({ k with dst := d, src := src }, { s with selv := { s.selv with buckets := b, overflow := o } }) := by
  have hput : ∀ pos e, ∃ b o, macPut s.selv pos e = { s.selv with buckets := b, overflow := o } := fun pos e => by
    unfold macPut
    split
    · exact ⟨_, s.selv.overflow, rfl⟩
    · exact ⟨s.selv.buckets, _, rfl⟩
  have hhit : (s.lookups k false false).2 = match macFind s.selv (BitVec.ofNat 12 (k.vid s)) k.parsed.srcMac with
      | some (pos, e) => if countsForLearning s k && e.dest.toNat == k.port then { s with selv := macPut s.selv pos { e with hit := true } } else s
      | none => s := rfl
  have hsecond : ∃ b o, (s.lookups k false false).2 = { s with selv := { s.selv with buckets := b, overflow := o } } := by
    rw [hhit]
    split
    · next pos e _ =>
      obtain ⟨b, o, hbo⟩ := hput pos { e with hit := true }
      split
      · exact ⟨b, o, by rw [hbo]⟩
      · exact ⟨s.selv.buckets, s.selv.overflow, rfl⟩
    · exact ⟨s.selv.buckets, s.selv.overflow, rfl⟩
  obtain ⟨b, o, h⟩ := hsecond
  exact ⟨b, o, _, _, Prod.ext rfl h⟩

/-- A packet that leaves its engine with a verdict, no rule having matched. -/
def classified (s : State) (k : Pkt) (v : Verdict) : State :=
  let l := s.lookups { k with verdict := some v, rule := none, copyToException := false } false false
  let w := l.2.selv
  let recirc := match v with | .recirculate _ _ => true | _ => false
  let s1 : State := { l.2 with selv := Selvedge.dispatch { (w.hold k.gen (if recirc then 0 else -1)) with
    pipeline := updFirst (fun x => x.id == k.id) (fun _ => l.1) w.pipeline } }
  if recirc then s1.selvCount 9 else s1

theorem classified_facts (s : State) (k : Pkt) (v : Verdict) (h : k ∈ s.selv.pipeline) :
    (((classified s k v).selv.pipeline.find? fun x => x.id == k.id).map fun x => (x.verdict, x.rule, x.data)) = some (some v, none, k.data) ∧
      classified s k v = { s with selv := (classified s k v).selv } := by
  obtain ⟨b, o, d, src, hlook⟩ := lookups_clean s { k with verdict := some v, rule := none, copyToException := false }
  unfold classified
  rw [hlook]
  dsimp only
  generalize (match v with | .recirculate _ _ => true | _ => false) = recirc
  generalize hw : ({ (Selvedge.hold { s.selv with buckets := b, overflow := o } k.gen (if recirc then 0 else -1)) with
    pipeline := updFirst (fun x => x.id == k.id) (fun _ => { k with verdict := some v, rule := none, copyToException := false, dst := d, src := src })
      s.selv.pipeline } : Selvedge) = w
  obtain ⟨a, og, n, p, hturned, hcore⟩ := dispatch_core w
  rw [hturned]
  have hp : w.pipeline = updFirst (fun x => x.id == k.id)
      (fun _ => { k with verdict := some v, rule := none, copyToException := false, dst := d, src := src }) s.selv.pipeline := by rw [← hw]
  have hfind : (p.find? fun x => x.id == k.id).map (fun x => (x.verdict, x.rule, x.data)) = some (some v, none, k.data) := by
    rw [find?_core hcore _ _ (fun _ => rfl) fun _ => rfl, hp]
    exact congrArg (Option.map _) (find?_updFirst (p := fun x : Pkt => x.id == k.id)
      (y := { k with verdict := some v, rule := none, copyToException := false, dst := d, src := src })
      (beq_self_eq_true k.id) ⟨k, h, beq_self_eq_true k.id⟩)
  cases recirc <;> exact ⟨hfind, rfl⟩

theorem found_packet {s : State} {n : Nat} {k : Pkt} (h : s.selv.pipeline.find? (fun x => x.id == n && x.verdict.isNone && x.engine.isSome) = some k) :
    k ∈ s.selv.pipeline ∧ k.id = n := by
  refine ⟨List.mem_of_find?_eq_some h, ?_⟩
  have hk := List.find?_some h
  simp only [Bool.and_eq_true, beq_iff_eq] at hk
  exact hk.1.1

theorem classify_fixed (s : State) (n : Nat) (k : Pkt) (hawake : asleep s = false)
    (hfind : s.selv.pipeline.find? (fun x => x.id == n && x.verdict.isNone && x.engine.isSome) = some k)
    (hrule : matchRule s (s.selv.genOf k.gen) k = none) :
    does (.classify n .clean false false false) s fun t =>
      ((t.selv.pipeline.find? fun x => x.id == n).map fun x => (x.verdict, x.rule, x.data)) = some (some (classifyFixed s k false), none, k.data) ∧ t = { s with selv := t.selv } := by
  obtain ⟨hmem, rfl⟩ := found_packet hfind
  have hexec : exec (.classify k.id .clean false false false) s = .next (classified s k (classifyFixed s k false)) := by
    refine (awake_of hawake _).trans ?_
    rw [hfind]
    dsimp only
    rw [if_neg (by decide), hrule]
    generalize classifyFixed s k false = v
    cases v <;> rfl
  exact ⟨_, hexec, classified_facts s k _ hmem⟩

theorem classify_uncorrectable (s : State) (n : Nat) (k : Pkt) (hawake : asleep s = false)
    (hfind : s.selv.pipeline.find? (fun x => x.id == n && x.verdict.isNone && x.engine.isSome) = some k) :
    does (.classify n .uncorrectable false false false) s fun t =>
      ((t.selv.pipeline.find? fun x => x.id == n).map fun x => (x.verdict, x.rule, x.data)) = some (some (.exception 7), none, k.data) ∧ t.faults.valid = true ∧ (s.faults.valid = false → t.faults.kind = 0x01 ∧ t.faults.master = mIngress k.port) ∧ t.dict.params = s.dict.params := by
  obtain ⟨hmem, rfl⟩ := found_packet hfind
  let s4 := classified s k (.exception 7)
  have hexec : exec (.classify k.id .uncorrectable false false false) s = .next ((s4.contained 0x01 .read (mIngress k.port) 0).selvCount 0x12) := by
    refine (awake_of hawake _).trans ?_
    rw [hfind]
    rfl
  obtain ⟨hpacket, hframe⟩ := classified_facts s k (.exception 7) hmem
  have hall : Touches faultParts s4 (s4.contained 0x01 .read (mIngress k.port) 0) := (Touches.refl _).contained
  refine ⟨_, hexec, ?_, contained_valid .., fun hfree => ?_, ?_⟩
  · show (List.find? _ (State.selv (s4.contained 0x01 .read (mIngress k.port) 0)).pipeline).map _ = _
    rw [hall.same .selv]
    exact hpacket
  · have hfirst := contained_first s4 0x01 .read (mIngress k.port) 0 ((congrArg (fun t : State => t.faults.valid) hframe).trans hfree)
    exact ⟨hfirst.1, hfirst.2.2.2.1⟩
  · show (State.dict (s4.contained 0x01 .read (mIngress k.port) 0)).params = _
    rw [hall.same .dict, show s4 = _ from hframe]

/-! ### REORDER_RELEASE and LENGTH_STOMP -/

/-- A packet has left the reorder buffer. -/
def withoutPacket (s : State) (k : Pkt) : State :=
  { s with selv := { s.selv with pipeline := s.selv.pipeline.filter fun x => x.id ≠ k.id } }

theorem reorderRelease_drops (s : State) (port : Fin 16) (k : Pkt) (hawake : asleep s = false)
    (hfind : s.selv.pipeline.find? (fun x => x.port == port.val) = some k) (hverdict : k.verdict = some (.drop true))
    (hcopy : k.copyToException = false) :
    does (.reorderRelease port) s fun t =>
      t.selv.pipeline = s.selv.pipeline.filter (fun x => x.id ≠ k.id) ∧ t.selv.learns = s.selv.learns ∧ t.trans = s.trans ∧ t = { s with selv := t.selv } := by
  have hlearn : (withoutPacket s k).learnFrom k = withoutPacket s k := by
    refine if_pos ?_
    simp [countsForLearning, hverdict]
  have hexec : exec (.reorderRelease port) s = .next (withoutPacket s k) := by
    refine (awake_of hawake _).trans ?_
    rw [hfind]
    dsimp only
    rw [hverdict]
    refine congrArg Host.Outcome.next ((if_neg (by rw [hcopy]; decide)).trans hlearn)
  exact ⟨_, hexec, rfl, rfl, rfl, rfl⟩

/-- A learn event, where a packet causes one, changes Selvedge alone, and no packet, router port or link in it. -/
theorem learnFrom_eq (s : State) (k : Pkt) : ∃ l c, s.learnFrom k = { s with selv := { s.selv with learns := l, counters := c } } := by
  unfold State.learnFrom
  dsimp only
  split
  · exact ⟨s.selv.learns, s.selv.counters, rfl⟩
  · have hev : ∃ l c, (if 512 ≤ s.selv.learns.length then s.selvCount 0x0A
        else { s with selv := { s.selv with learns := s.selv.learns ++ [⟨BitVec.ofNat 12 (k.vid s), k.parsed.srcMac, k.port⟩] } }) =
        { s with selv := { s.selv with learns := l, counters := c } } := by
      split
      · exact ⟨s.selv.learns, _, rfl⟩
      · exact ⟨_, s.selv.counters, rfl⟩
    split
    · exact hev
    · split
      · exact ⟨s.selv.learns, s.selv.counters, rfl⟩
      · split
        · exact ⟨s.selv.learns, _, rfl⟩
        · split
          · exact ⟨s.selv.learns, s.selv.counters, rfl⟩
          · exact hev

/-- Admission reads the scheduler's tables, its queues, the cells in use and the links. -/
theorem admission_congr {s t : State} (hfld : ∀ i r j, fld t i r j = fld s i r j) (htrans : t.trans = s.trans) (hbpm : t.bpm = s.bpm)
    (hlinks : t.selv.links = s.selv.links) (q n : Nat) : admission t q n = admission s q n := by
  have hport : queuePort t q = queuePort s q := by
    simp only [queuePort, subOf, svcOf, portOf, fldB, hfld]
    rfl
  simp only [admission, hport, hfld, State.queue, htrans, hbpm, linkUp, hlinks]
  rfl

/-- A copy that a queue admits is its last (R347). -/
theorem enqueueCopy_last {s : State} {q : Nat} {m : Master} {c : Copy} (h : admission s q (cellsOf c.data.length) = 0) :
    ∃ bufs, ((s.enqueueCopy q m c).2.queue q).copies = (s.queue q).copies ++ [{ c with bufs := bufs }] := by
  let r := s.takeCells m (cellsOf c.data.length)
  let s1 := (r.2.giveCells r.1).fillCells r.1 c.data
  have hs1 : Touches [.clk, .intc, .bpm, .mem, .out] s s1 := ((Touches.refl s).takeCells).giveCells.fillCells
  have henqueue : s.enqueueCopy q m c = (true, s1.setQueue q { s1.queue q with copies := (s1.queue q).copies ++ [{ c with bufs := r.1 }] }) := by
    refine (if_neg ?_).trans (if_neg ?_)
    · rw [h]
      decide
    · rw [h]
      decide
  refine ⟨r.1, ?_⟩
  rw [henqueue]
  dsimp only
  rw [State.queue_setQueue, State.queue, hs1.same .trans, State.queue]

theorem reorderRelease_bridges (s : State) (port : Fin 16) (k : Pkt) (p : Nat) (hawake : asleep s = false)
    (hfind : s.selv.pipeline.find? (fun x => x.port == port.val) = some k) (hverdict : k.verdict = some .bridge) (hfirst : k.pass2 = none)
    (hcopy : k.copyToException = false) (hvid : vidOf s port k.parsed ≠ 4095) (hmember : vlanMember s (vidOf s port k.parsed) k.port = true)
    (hports : bridgePorts s k (vidOf s port k.parsed) = [p]) (hp : p < 16) (hown : p ≠ k.port)
    (hpmember : vlanMember s (vidOf s port k.parsed) p = true)
    (hroom : (s.queue (bridgeQueue p (pcpOf k.parsed))).depth < fld s 0x8007 (bridgeQueue p (pcpOf k.parsed)) 9)
    (hcells : s.bpm.owners.length + cellsOf (egressFrame s k (vidOf s port k.parsed) p).length ≤ 262144)
    (hqueue : queuePort s (bridgeQueue p (pcpOf k.parsed)) = p) (hlink : linkUp s p = true) :
    does (.reorderRelease port) s fun t =>
      (((t.queue (bridgeQueue p (pcpOf k.parsed))).copies.getLast?).map fun c => (c.data, c.ingress, c.stomped)) = some (egressFrame s k (vidOf s port k.parsed) p, k.port, k.badEnd) ∧ (t.queue (bridgeQueue p (pcpOf k.parsed))).copies.length = (s.queue (bridgeQueue p (pcpOf k.parsed))).copies.length + 1 ∧ t.selv.pipeline = s.selv.pipeline.filter (fun x => x.id ≠ k.id) ∧ t.dict = s.dict ∧ t.encs = s.encs := by
  have hport : k.port = port := by simpa using List.find?_some hfind
  have hkvid : k.vid s = vidOf s port k.parsed := by rw [Pkt.vid, hfirst, hport]
  obtain ⟨l, c, hlearn⟩ := learnFrom_eq (withoutPacket s k) k
  let s2 : State := { withoutPacket s k with selv := { (withoutPacket s k).selv with learns := l, counters := c } }
  let copy : Copy := { data := egressFrame s k (vidOf s port k.parsed) p, ingress := k.port, stomped := k.badEnd }
  let q := bridgeQueue p (pcpOf k.parsed)
  have hnode : s2.bridge k (vidOf s port k.parsed) = (s2.enqueueCopy q (mIngress k.port) copy).2 := by
    have hfilter : [p].filter (fun p => p != k.port && (decide (16 ≤ p) || vlanMember s (vidOf s port k.parsed) p)) = [p] := by
      rw [List.filter_eq_self]
      intro x hx
      rw [List.mem_singleton.1 hx, hpmember, Bool.or_true, Bool.and_true]
      exact bne_iff_ne.2 hown
    refine (if_neg ?_).trans ((if_neg hvid).trans ?_)
    · rw [show vlanMember s2 _ _ = true from hmember]
      decide
    · rw [show bridgePorts s2 k (vidOf s port k.parsed) = [p] from hports]
      refine (congrArg (List.foldl _ s2) hfilter).trans ?_
      exact if_pos hp
  have hexec : exec (.reorderRelease port) s = .next (s2.enqueueCopy q (mIngress k.port) copy).2 := by
    refine (awake_of hawake _).trans ?_
    rw [hfind]
    dsimp only
    rw [hverdict]
    refine (congrArg (fun t : State => Host.Outcome.next (t.bridge k (k.vid s))) ((if_neg (by rw [hcopy]; decide)).trans hlearn)).trans ?_
    rw [hkvid]
    exact congrArg Host.Outcome.next hnode
  have hadmit : admission s2 q (cellsOf copy.data.length) = 0 := by
    have hfld : ∀ i r j, fld s2 i r j = fld s i r j := fun i r j => rfl
    refine (admission_congr (s := s) (t := s2) hfld rfl rfl rfl q (cellsOf copy.data.length)).trans ?_
    have hup : linkUp s (queuePort s q) = true := by rw [hqueue]; exact hlink
    exact (if_neg (Nat.not_le.2 hroom)).trans ((if_neg (Nat.not_lt.2 hcells)).trans (if_neg fun h => Bool.eq_false_iff.1 h.2 hup))
  obtain ⟨bufs, hlast⟩ := enqueueCopy_last (m := mIngress k.port) hadmit
  have hall : Touches [.clk, .trans, .intc, .bpm, .mem, .out] s2 (s2.enqueueCopy q (mIngress k.port) copy).2 := (Touches.refl s2).enqueueCopy
  refine ⟨_, hexec, ?_, ?_, ?_, hall.same .dict, hall.same .encs⟩
  · rw [hlast, List.getLast?_concat]
    rfl
  · rw [hlast, List.length_append]
    rfl
  · rw [hall.same .selv]
    rfl

theorem lengthStomp_removes (s : State) (port : Fin 16) (k : Pkt) (l : List Pkt) (x : Pkt) (r : List Pkt) (hawake : asleep s = false)
    (hending : takeFirst (fun k : Pkt => k.port == port.val) s.selv.ending = some (k, l))
    (hcopies : (s.trans.queues.all fun q => q.2.copies.all fun c => !(c.cutBy port)) = true)
    (hpipe : takeFirst (fun x : Pkt => x.port == port.val && x.badEnd && !(match x.verdict with | some (.exception _) => true | _ => false)) s.selv.pipeline = some (x, r))
    (hquiet : parB s 0x3010 6 = false) :
    does (.lengthStomp port) s fun t =>
      t.selv.pipeline.map (·.id) = r.map (·.id) ∧ t.selv.ending = l ∧ lookD 0 t.selv.counters 4 = lookD 0 s.selv.counters 4 + 1 ∧ t = { s with selv := t.selv } := by
  have hheld : s.trans.queues.filter (fun q => q.2.copies.any fun c => c.cutBy port) = [] := by
    rw [List.filter_eq_nil_iff]
    intro q hq hany
    obtain ⟨c, hc, hcut⟩ := List.any_eq_true.1 hany
    have := List.all_eq_true.1 (List.all_eq_true.1 hcopies q hq) c hc
    rw [hcut] at this
    cases this
  let v : Selvedge := if x.verdict.isNone && (x.engine.isSome || x.pass2.isSome) then Selvedge.hold { s.selv with ending := l } x.gen (-1)
    else { s.selv with ending := l }
  have hexec : exec (.lengthStomp port) s = .next (State.selvCount { s with selv := Selvedge.dispatch { v with pipeline := r } } 4) := by
    refine (awake_of hawake _).trans ?_
    rw [hending]
    dsimp only
    rw [hheld]
    refine congrArg (fun t : State => Host.Outcome.next (t.selvCount 4)) ((if_neg (Bool.eq_false_iff.1 hquiet)).trans ?_)
    dsimp only [List.foldl_nil]
    split
    · next y m hfound =>
      obtain ⟨rfl, rfl⟩ := Prod.mk.inj (Option.some.inj (hfound.symm.trans hpipe))
      rfl
    · next hnone => cases hnone.symm.trans hpipe
  have hv : v.ending = l ∧ v.counters = s.selv.counters := by
    dsimp only [v]
    split <;> exact ⟨rfl, rfl⟩
  obtain ⟨a, o, n, p, hturned, hcore⟩ := dispatch_core { v with pipeline := r }
  rw [hturned] at hexec
  refine ⟨_, hexec, map_core hcore _ fun _ => rfl, hv.1, ?_, rfl⟩
  exact (bump_same v.counters 4 1).trans (by rw [hv.2])

/-- Settles O26, by what a packet's way through Selvedge leaves of the others. -/
theorem packetsThroughSelvedge : Obligations.PacketsThroughSelvedge := by
  unfold Obligations.PacketsThroughSelvedge
  exact ⟨packetReceive_waits, packetReceive_captures, serveWord_enters, serveWord_engine, serveWord_drops, classify_fixed, classify_uncorrectable,
    reorderRelease_drops, reorderRelease_bridges, lengthStomp_removes⟩

end Sys2Proof.Proofs
end

section
/-! PROOFS. Units regrow (O42). -/

open Sys2Proof Sys2Proof.Machine

-- One proof at a time: a thread for each proof would pass the limit that the check sets to memory.
set_option Elab.async false

namespace Sys2Proof.Proofs

/-! ### What a contained fault leaves of the sparing map -/

/-- Two stores that differ in the fault log alone. -/
def SameButLog (a b : Store) : Prop := ∃ l n, b = { a with faultLog := l, faultSeq := n }

theorem SameButLog.refl (a : Store) : SameButLog a a := ⟨_, _, rfl⟩

theorem SameButLog.trans {a b c : Store} (h : SameButLog a b) (g : SameButLog b c) : SameButLog a c := by
  obtain ⟨_, _, rfl⟩ := h
  obtain ⟨_, _, rfl⟩ := g
  exact ⟨_, _, rfl⟩

theorem logFault_sameButLog (a : Store) (n : Nat) (m : Master) (sec ns : Nat) (d : Bytes) : SameButLog a (a.logFault n m sec ns d) :=
  ⟨_, _, logFault_frame a n m sec ns d⟩

theorem faultSummary_store (s : State) : SameButLog s.store s.faultSummary.store := by
  unfold State.faultSummary
  generalize faultDetail 0 2 6 0 s.faults.excess = d
  split
  · exact .refl _
  · show SameButLog s.store (if storeOpen s then _ else s.store)
    split
    · exact logFault_sameButLog ..
    · exact .refl _

theorem logContained_store (s : State) (m : Master) (d : Bytes) : SameButLog s.store (s.logContained m d).store := by
  have hsum : SameButLog s.store (if logSecond s = s.faults.logSec then s else s.faultSummary).store := by
    split
    · exact .refl _
    · exact faultSummary_store s
  unfold State.logContained
  generalize (if logSecond s = s.faults.logSec then s else s.faultSummary) = v at hsum ⊢
  refine hsum.trans ?_
  dsimp only
  split
  · dsimp only
    split
    · exact logFault_sameButLog ..
    · exact .refl _
  · exact .refl _

theorem contained_store (s : State) (kind : Nat) (acc : Access) (m : Master) (addr : Nat) :
    SameButLog s.store (s.contained kind acc m addr).store := by
  have hat : ∀ s : State, SameButLog s.store (s.containedAt kind acc m addr).store := fun s => by
    let d := faultDetail kind 2 (accCode acc) addr 1
    let v := State.logContained { s with faults := Recorded s.faults kind (accCode acc) m addr (ptpSec s) (ptpNs s) } m d
    have hlog : SameButLog s.store v.store := logContained_store _ m d
    have hrest : Touches [.clk, .pins, .paths, .faults, .intc, .mem, .out] v (s.containedAt kind acc m addr) :=
      (Touches.ite ((Touches.refl v).raise).errPulse ((Touches.refl v).raise)).syncErr
    rw [hrest.same .store]
    exact hlog
  unfold State.contained
  split
  · have h := hat (s.badWord addr)
    rwa [State.badWord_store] at h
  · exact hat s

theorem contained_units (s : State) (kind : Nat) (acc : Access) (m : Master) (addr : Nat) :
    (s.contained kind acc m addr).faults.regrows = s.faults.regrows ∧ (s.contained kind acc m addr).faults.selfTestFails = s.faults.selfTestFails ∧
      (s.contained kind acc m addr).sparing = s.sparing := by
  obtain ⟨_, _, _, _, _, hrec⟩ := contained_record s kind acc m addr
  obtain ⟨_, _, hstore⟩ := contained_store s kind acc m addr
  have hunits : ∀ f : Faults, ∀ a sec ns, (Recorded f kind a m addr sec ns).regrows = f.regrows ∧
      (Recorded f kind a m addr sec ns).selfTestFails = f.selfTestFails ∧ (Recorded f kind a m addr sec ns).liveMap = f.liveMap := fun f a sec ns => by
    unfold Recorded Faults.record
    dsimp only
    split <;> exact ⟨rfl, rfl, rfl⟩
  obtain ⟨hregrows, hfails, hmap⟩ := hunits s.faults (accCode acc) (ptpSec s) (ptpNs s)
  rw [State.sparing, hstore, hrec]
  exact ⟨hregrows, hfails, congrArg (fun x : Option Sparing => x.getD s.store.sparing) hmap⟩

theorem setSparing_sparing (s : State) (p : Sparing) : (s.setSparing p).sparing = p := by
  unfold State.setSparing
  split <;> rfl

theorem setSparing_faults (s : State) (p : Sparing) : (s.setSparing p).faults = { s.faults with liveMap := (s.setSparing p).faults.liveMap } := by
  unfold State.setSparing
  split <;> rfl

/-! ### REGROW_TRIGGER -/

/-- A trigger that is due, of a unit in service that is not regrowing. -/
theorem regrowTrigger_due {s : State} {u : HwUnit} {k : TriggerKind} (hawake : asleep s = false) (hunit : (unitLogical s u).isSome = true)
    (hidle : regrowing s u = false) (hdue : (match k with
      | .margin => match alook s.faults.margins u with
        | some g => decide (g ≠ 0xFF) && decide (g.toNat < par s 0x7030 1)
        | none => false
      | .corrected => decide (unitKind u = 5) || decide (par s 0x7030 2 ≤ hourCount s (unitItem u))
      | .contained => decide (par s 0x7030 3 ≤ hourCount s (0x30000 + unitItem u))
      | .unanswered => true) = true) :
    exec (.regrowTrigger u k) s =
      if parB s 0x7030 5 then .next ((if k = .corrected then s.raise 0x003 (mUnit u) [] else s).callRegrow u (decide (k = .contained) || decide (k = .unanswered)))
      else .next (if k = .corrected then s.raise 0x003 (mUnit u) [] else s) := by
  refine (awake_of hawake _).trans (if_neg ?_)
  rw [Bool.or_eq_true, Bool.or_eq_true]
  rintro ((h | h) | h)
  · rw [Option.isNone_iff_eq_none.1 h] at hunit
    cases hunit
  · exact Bool.eq_false_iff.1 hidle h
  · rw [Bool.not_eq_true'] at h
    exact Bool.eq_false_iff.1 h hdue

/-- A regrow begins with a spare. -/
theorem callRegrow_spare {s : State} {u v : HwUnit} (failure : Bool) (h : spareFor s u = some v) :
    s.callRegrow u failure = { s with faults := { s.faults with
      regrows := s.faults.regrows ++ [{ unit := u, failure := failure, spare := some (unitNum v), since := s.clk.now }] } } := by
  rw [State.callRegrow, h]

theorem callRegrow_none {s : State} {u : HwUnit} (failure : Bool) (h : spareFor s u = none) : s.callRegrow u failure = s.noSpare u failure := by
  rw [State.callRegrow, h]

theorem regrowTrigger_contained (s : State) (u : HwUnit) (v : HwUnit) (hawake : asleep s = false) (hunit : (unitLogical s u).isSome = true)
    (hidle : regrowing s u = false) (hon : parB s 0x7030 5 = true) (hdue : par s 0x7030 3 ≤ hourCount s (0x30000 + unitItem u))
    (hspare : spareFor s u = some v) :
    does (.regrowTrigger u .contained) s fun t =>
      t.faults.regrows = s.faults.regrows ++ [{ unit := u, failure := true, spare := some (unitNum v), since := s.clk.now }] ∧ t = { s with faults := { s.faults with regrows := t.faults.regrows } } := by
  have hexec := regrowTrigger_due (k := .contained) hawake hunit hidle (decide_eq_true hdue)
  rw [if_pos hon, callRegrow_spare _ (show spareFor (if TriggerKind.contained = .corrected then _ else s) u = some v from hspare)] at hexec
  exact ⟨_, hexec, rfl, rfl⟩

/-- A raised source is pending, and only the controller, the event ring's memory and the outputs change. -/
theorem raise_frame (s : State) (n : Nat) (m : Master) (d : Bytes) : ((s.raise n m d).intc.src n).pending = true ∧
    s.raise n m d = { s with intc := (s.raise n m d).intc, mem := (s.raise n m d).mem, out := (s.raise n m d).out } :=
  ⟨raise_pending .., ((Touches.refl s).raise (l := [.intc, .mem, .out])).frame (by simp)⟩

/-- The spare of a unit is read from the sparing map and the regrows. -/
theorem spareFor_raise (s : State) (n : Nat) (m : Master) (d : Bytes) (u : HwUnit) : spareFor (s.raise n m d) u = spareFor s u := by
  obtain ⟨-, hframe⟩ := raise_frame s n m d
  generalize s.raise n m d = w at hframe ⊢
  rw [hframe]
  rfl

theorem regrowTrigger_corrected (s : State) (u : HwUnit) (v : HwUnit) (hawake : asleep s = false) (hunit : (unitLogical s u).isSome = true)
    (hidle : regrowing s u = false) (hon : parB s 0x7030 5 = true) (hdue : unitKind u = 5 ∨ par s 0x7030 2 ≤ hourCount s (unitItem u))
    (hspare : spareFor s u = some v) :
    does (.regrowTrigger u .corrected) s fun t =>
      (t.intc.src 3).pending = true ∧ t.faults.regrows = s.faults.regrows ++ [{ unit := u, failure := false, spare := some (unitNum v), since := s.clk.now }] ∧ t = { s with faults := { s.faults with regrows := t.faults.regrows }, intc := t.intc, mem := t.mem, out := t.out } := by
  have hexec := regrowTrigger_due (k := .corrected) hawake hunit hidle (by simpa using hdue)
  rw [if_pos hon, if_pos rfl, callRegrow_spare _ ((spareFor_raise ..).trans hspare)] at hexec
  obtain ⟨hpending, hframe⟩ := raise_frame s 3 (mUnit u) []
  generalize s.raise 0x003 (mUnit u) [] = w at hexec hpending hframe
  refine ⟨_, hexec, hpending, ?_, ?_⟩
  · rw [hframe]
    rfl
  · rw [hframe]

theorem regrowTrigger_off (s : State) (u : HwUnit) (hawake : asleep s = false) (hunit : (unitLogical s u).isSome = true)
    (hidle : regrowing s u = false) (hoff : parB s 0x7030 5 = false) (hdue : unitKind u = 5 ∨ par s 0x7030 2 ≤ hourCount s (unitItem u)) :
    does (.regrowTrigger u .corrected) s fun t =>
      (t.intc.src 3).pending = true ∧ t = { s with intc := t.intc, mem := t.mem, out := t.out } := by
  have hexec := regrowTrigger_due (k := .corrected) hawake hunit hidle (by simpa using hdue)
  rw [if_neg (Bool.eq_false_iff.1 hoff), if_pos rfl] at hexec
  exact ⟨_, hexec, raise_frame ..⟩

/-- A threshold trigger that finds no spare is logged, and the unit stays (R470). -/
theorem noSpare_threshold (s : State) (u : HwUnit) : s.noSpare u false = s.contained 0x0F .none mFault 0 :=
  reportNone_of_contained (by decide) s mFault

theorem regrowTrigger_margin (s : State) (u : HwUnit) (g : BitVec 8) (hawake : asleep s = false) (hunit : (unitLogical s u).isSome = true)
    (hidle : regrowing s u = false) (hon : parB s 0x7030 5 = true) (hspare : spareFor s u = none)
    (hmargin : alook s.faults.margins u = some g) (hmeasured : g ≠ 0xFF) (hlow : g.toNat < par s 0x7030 1) :
    does (.regrowTrigger u .margin) s fun t =>
      t.faults.regrows = s.faults.regrows ∧ t.sparing = s.sparing ∧ t.faults.valid = true ∧ (s.faults.valid = false → t.faults.kind = 0x0F) := by
  have hexec := regrowTrigger_due (k := .margin) hawake hunit hidle (by
    dsimp only
    rw [hmargin]
    show (decide (g ≠ 0xFF) && decide (g.toNat < par s 0x7030 1)) = true
    rw [decide_eq_true hmeasured, decide_eq_true hlow]
    rfl)
  rw [if_pos hon, callRegrow_none _ (show spareFor (if TriggerKind.margin = .corrected then _ else s) u = none from hspare)] at hexec
  have hno : (if TriggerKind.margin = .corrected then s.raise 0x003 (mUnit u) [] else s).noSpare u
      (decide (TriggerKind.margin = .contained) || decide (TriggerKind.margin = .unanswered)) = s.contained 0x0F .none mFault 0 := noSpare_threshold s u
  rw [hno] at hexec
  obtain ⟨hregrows, -, hsparing⟩ := contained_units s 0x0F .none mFault 0
  exact ⟨_, hexec, hregrows, hsparing, contained_valid .., fun hfree => (contained_first s 0x0F .none mFault 0 hfree).1⟩

theorem regrowTrigger_unanswered (s : State) (k : Fin 18) (l : Nat) (hawake : asleep s = false) (hcore : coreLogical s k = some l)
    (hidle : regrowing s (.core k) = false) (hon : parB s 0x7030 5 = true) (hspare : spareFor s (.core k) = none) :
    does (.regrowTrigger (.core k) .unanswered) s fun t =>
      corePhys t l = 0xFF ∧ .core k ∈ t.sparing.retired ∧ t.faults.valid = true ∧ (s.faults.valid = false → t.faults.kind = 0x0F) ∧ t.faults.regrows = s.faults.regrows := by
  have hexec := regrowTrigger_due (k := .unanswered) hawake (u := .core k) (show (coreLogical s k).isSome = true by rw [hcore]; rfl) hidle rfl
  rw [if_pos hon, callRegrow_none _ (show spareFor (if TriggerKind.unanswered = .corrected then _ else s) (.core k) = none from hspare)] at hexec
  let s1 := (s.contained 0x0F .none mFault 0).contained 0x10 .none mFault 0
  let p : Sparing := { s1.sparing.move (.core k) l 0xFF with retired := .core k :: s1.sparing.retired }
  have hno : s.noSpare (.core k) true = (s1.setSparing p).settleInts := by
    have hunit : unitLogical s (.core k) = some l := hcore
    unfold State.noSpare
    rw [hunit]
    dsimp only
    rw [reportNone_of_contained (by decide), reportNone_of_contained (by decide)]
    rfl
  have hexec' : exec (.regrowTrigger (.core k) .unanswered) s = .next (s1.setSparing p).settleInts := hexec.trans (congrArg Host.Outcome.next hno)
  have hmap : State.sparing (s1.setSparing p).settleInts = p := by
    rw [State.sparing, State.settleInts_faults, State.settleInts_store]
    exact setSparing_sparing s1 p
  have hvalid : (s.contained 0x0F .none mFault 0).faults.valid = true := contained_valid ..
  have hsecond : Touches faultParts (s.contained 0x0F .none mFault 0) s1 := (Touches.refl _).contained
  refine ⟨_, hexec', ?_, ?_, ?_, fun hfree => ?_, ?_⟩
  · rw [corePhys, hmap]
    exact lookD_put_same ..
  · rw [hmap]
    exact List.mem_cons_self
  · rw [State.settleInts_faults, setSparing_faults]
    exact contained_valid ..
  · rw [State.settleInts_faults, setSparing_faults]
    exact (hsecond.stands.kind hvalid).trans (contained_first s 0x0F .none mFault 0 hfree).1
  · rw [State.settleInts_faults, setSparing_faults]
    exact (contained_units _ 0x10 .none mFault 0).1.trans (contained_units s 0x0F .none mFault 0).1

/-- A trigger that is not due changes nothing. -/
theorem regrowTrigger_early {s : State} {u : HwUnit} {k : TriggerKind} (hawake : asleep s = false) (hdue : (match k with
      | .margin => match alook s.faults.margins u with
        | some g => decide (g ≠ 0xFF) && decide (g.toNat < par s 0x7030 1)
        | none => false
      | .corrected => decide (unitKind u = 5) || decide (par s 0x7030 2 ≤ hourCount s (unitItem u))
      | .contained => decide (par s 0x7030 3 ≤ hourCount s (0x30000 + unitItem u))
      | .unanswered => true) = false) :
    exec (.regrowTrigger u k) s = .next s := by
  refine (awake_of hawake _).trans (if_pos ?_)
  rw [Bool.or_eq_true, Bool.not_eq_true']
  exact .inr hdue

theorem regrowTrigger_margin_early (s : State) (u : HwUnit) (hawake : asleep s = false)
    (hhigh : (match alook s.faults.margins u with | some g => decide (g ≠ 0xFF) && decide (g.toNat < par s 0x7030 1) | none => false) = false) :
    exec (.regrowTrigger u .margin) s = .next s := regrowTrigger_early hawake hhigh

theorem regrowTrigger_corrected_early (s : State) (u : HwUnit) (hawake : asleep s = false) (hkind : unitKind u ≠ 5)
    (hlow : hourCount s (unitItem u) < par s 0x7030 2) : exec (.regrowTrigger u .corrected) s = .next s :=
  regrowTrigger_early hawake (by simpa using ⟨hkind, hlow⟩)

theorem regrowTrigger_contained_early (s : State) (u : HwUnit) (hawake : asleep s = false)
    (hlow : hourCount s (0x30000 + unitItem u) < par s 0x7030 3) : exec (.regrowTrigger u .contained) s = .next s :=
  regrowTrigger_early hawake (by simpa using hlow)

/-! ### REGROW_REQUEST and SPARE_SELF_TEST_DONE -/

theorem regrowRequest_starts (s : State) (a : Act) (r : List Act) (u : HwUnit) (v : HwUnit) (hawake : asleep s = false)
    (hact : takeFirst (fun x : Act => x.idx == 0x7031 && x.sub == 1) s.dict.acts = some (a, r)) (hunit : codeUnit s a.val.nat = some u)
    (hidle : regrowing s u = false) (hspare : spareFor s u = some v) :
    does (.regrowRequest) s fun t =>
      t.faults.regrows = s.faults.regrows ++ [{ unit := u, failure := false, spare := some (unitNum v), since := s.clk.now }] ∧ t = { s with dict := { s.dict with acts := r }, faults := { s.faults with regrows := t.faults.regrows } } := by
  let s1 : State := { s with dict := { s.dict with acts := r } }
  have hexec : exec .regrowRequest s = .next (s1.callRegrow u false) := by
    refine (awake_of hawake _).trans ?_
    rw [hact]
    dsimp only
    rw [show codeUnit s1 a.val.nat = some u from hunit]
    exact if_neg (Bool.eq_false_iff.1 hidle)
  rw [callRegrow_spare false (show spareFor s1 u = some v from hspare)] at hexec
  exact ⟨_, hexec, rfl, rfl⟩

theorem find?_untested {s : State} {r : Regrow} (hsole : s.faults.regrows = [r]) (htested : r.tested = false) :
    s.faults.regrows.find? (fun r => !r.tested) = some r := by
  rw [hsole]
  exact List.find?_cons_of_pos (by rw [htested]; rfl)

theorem spareSelfTestDone_passed (s : State) (r : Regrow) (hawake : asleep s = false) (hsole : s.faults.regrows = [r])
    (htested : r.tested = false) :
    does (.spareSelfTestDone true) s fun t =>
      t.faults.regrows = [{ r with tested := true }] ∧ t = { s with faults := { s.faults with regrows := t.faults.regrows } } := by
  have hexec : exec (.spareSelfTestDone true) s = .next { s with faults := { s.faults with
      regrows := updFirst (fun x : Regrow => decide (x = r)) (fun x => { x with tested := true }) s.faults.regrows } } := by
    refine (awake_of hawake _).trans ?_
    rw [find?_untested hsole htested]
    rfl
  refine ⟨_, hexec, ?_, rfl⟩
  show updFirst _ _ s.faults.regrows = _
  rw [hsole]
  exact if_pos (decide_eq_true rfl)

theorem takeFirst_sole (r : Regrow) : takeFirst (fun x : Regrow => decide (x = r)) [r] = some (r, []) := if_pos (decide_eq_true rfl)

theorem spareSelfTestDone_failed (s : State) (r : Regrow) (n : Nat) (hawake : asleep s = false) (hsole : s.faults.regrows = [r])
    (htested : r.tested = false) (hspare : r.spare = some n) (hthreshold : r.failure = false) :
    does (.spareSelfTestDone false) s fun t =>
      t.faults.regrows = [] ∧ t.faults.selfTestFails = s.faults.selfTestFails + 1 ∧ unitLike r.unit n ∈ t.sparing.retired ∧ t.faults.valid = true ∧ (s.faults.valid = false → t.faults.kind = 0x0F) := by
  let s0 : State := { s with faults := { s.faults with regrows := [], selfTestFails := s.faults.selfTestFails + 1 } }
  let p : Sparing := { s.sparing with retired := [unitLike r.unit n] ++ s.sparing.retired }
  have hexec : exec (.spareSelfTestDone false) s = .next ((s0.setSparing p).contained 0x0F .none mFault 0) := by
    refine (awake_of hawake _).trans ?_
    rw [find?_untested hsole htested]
    dsimp only
    rw [hspare, hthreshold, noSpare_threshold, hsole, takeFirst_sole]
    rfl
  obtain ⟨hregrows, hfails, hsparing⟩ := contained_units (s0.setSparing p) 0x0F .none mFault 0
  have hfaults := setSparing_faults s0 p
  refine ⟨_, hexec, ?_, ?_, ?_, contained_valid .., fun hfree => ?_⟩
  · rw [hregrows, hfaults]
  · rw [hfails, hfaults]
  · rw [hsparing, setSparing_sparing]
    exact List.mem_cons_self
  · exact (contained_first _ 0x0F .none mFault 0 (by rw [hfaults]; exact hfree)).1

/-! ### UNIT_SWAP -/

theorem unitSwap_exec {s : State} {r : Regrow} {n l : Nat} (hawake : asleep s = false) (hsole : s.faults.regrows = [r]) (htested : r.tested = true)
    (hboundary : atBoundary s r = true) (hspare : r.spare = some n) (hunit : unitLogical s r.unit = some l) :
    let s0 : State := { s with faults := { s.faults with regrows := [] } }
    let s1 := (((s0.handOver r.unit n).drainUnit r.unit n).resetUnitBobs r.unit l).laneHalfDown r.unit
    exec .unitSwap s = .next (((s1.setSparing { s1.sparing.move r.unit l n with retired := r.unit :: s1.sparing.retired }).powerDown r.unit).regrown
      (mUnit (unitLike r.unit n)) l n) := by
  have hfind : s.faults.regrows.find? (fun r => r.tested && atBoundary s r) = some r := by
    rw [hsole]
    exact List.find?_cons_of_pos (by rw [htested, hboundary]; rfl)
  intro s0 s1
  refine (awake_of hawake _).trans ?_
  rw [hfind]
  dsimp only
  rw [hspare, hunit, hsole, takeFirst_sole]

theorem unitSwap_core (s : State) (r : Regrow) (k : Fin 18) (n : Nat) (l : Nat) (hawake : asleep s = false) (hsole : s.faults.regrows = [r])
    (htested : r.tested = true) (hcore : r.unit = .core k) (hspare : r.spare = some n) (hlogical : coreLogical s k = some l) :
    does (.unitSwap) s fun t =>
      corePhys t l = n ∧ .core k ∈ t.sparing.retired ∧ t.faults.regrows = [] ∧ (t.intc.src 0x14).pending = true ∧ t.dict = s.dict ∧ t.tiles = s.tiles ∧ t = { s with faults := t.faults, store := t.store, bpm := t.bpm, intc := t.intc, mem := t.mem, out := t.out } := by
  have hunit : unitLogical s r.unit = some l := by
    rw [hcore]
    exact hlogical
  have hboundary : atBoundary s r = true := by
    unfold atBoundary
    rw [hcore]
  have hexec := unitSwap_exec hawake hsole htested hboundary hspare hunit
  rw [hcore] at hexec
  let s1 : State := { s with
    faults := { s.faults with regrows := [] }, bpm := { s.bpm with owners := s.bpm.owners.map fun q => if q.2 = mCore k then (q.1, mCore n) else q } }
  let p : Sparing := { s1.sparing.move (.core k) l n with retired := .core k :: s1.sparing.retired }
  have hexec' : exec .unitSwap s = .next ((s1.setSparing p).regrown (mUnit (unitLike (.core k) n)) l n) := hexec
  have hset : Touches [.store, .faults] s1 (s1.setSparing p) := (Touches.refl s1).setSparing
  have hall : Touches [.intc, .mem, .out] (s1.setSparing p) ((s1.setSparing p).regrown (mUnit (unitLike (.core k) n)) l n) := (Touches.refl _).regrown
  have hmap : ((s1.setSparing p).regrown (mUnit (unitLike (.core k) n)) l n).sparing = p := by
    rw [State.sparing, hall.same .faults, hall.same .store]
    exact setSparing_sparing s1 p
  refine ⟨_, hexec', ?_, ?_, ?_, raise_pending .., ?_, ?_, ?_⟩
  · rw [corePhys, hmap]
    exact lookD_put_same ..
  · rw [hmap]
    exact List.mem_cons_self
  · rw [hall.same .faults, setSparing_faults]
  · exact (hall.same .dict).trans (hset.same .dict)
  · exact (hall.same .tiles).trans (hset.same .tiles)
  · have hs1 : Touches [.faults, .store, .bpm, .intc, .mem, .out] s s1 :=
      (Touches.refl s).write [.faults, .bpm] fun p hp => by cases p <;> simp at hp <;> rfl
    have hboth : Touches [.faults, .store, .bpm, .intc, .mem, .out] s ((s1.setSparing p).regrown (mUnit (unitLike (.core k) n)) l n) :=
      hs1.setSparing.regrown
    exact hboth.frame (by simp)

/-- The spare tile takes over the egress of the outgoing one (R129). -/
theorem handOver_out {s : State} {k : Fin 72} {n : Nat} (hne : n ≠ k.val) : ((s.handOver (.encTile k) n).tile n).out = (s.tile k).out := by
  unfold State.handOver
  dsimp only
  rw [State.tile_setTile_ne _ _ hne, State.tile_setTile]

theorem unitSwap_encTile (s : State) (r : Regrow) (k : Fin 72) (n : Nat) (l : Nat) (hawake : asleep s = false)
    (hsole : s.faults.regrows = [r]) (htested : r.tested = true) (htile : r.unit = .encTile k) (hspare : r.spare = some n) (hne : n ≠ k.val)
    (hframe : (s.tile k).frame = none) (hlogical : encLogical s k = some l) :
    does (.unitSwap) s fun t =>
      encPhys t l = n ∧ .encTile k ∈ t.sparing.retired ∧ t.faults.regrows = [] ∧ (t.tile k).powered = false ∧ (t.tile n).out = (s.tile k).out ∧ (t.intc.src 0x14).pending = true ∧ t.dict = s.dict := by
  have hunit : unitLogical s r.unit = some l := by
    rw [htile]
    exact hlogical
  have hboundary : atBoundary s r = true := by
    unfold atBoundary
    rw [htile]
    exact Option.isNone_iff_eq_none.2 hframe
  have hexec := unitSwap_exec hawake hsole htested hboundary hspare hunit
  rw [htile] at hexec
  let s2 := State.handOver { s with faults := { s.faults with regrows := [] } } (.encTile k) n
  let s1 := (s2.drainUnit (.encTile k) n).resetUnitBobs (.encTile k) l
  let p : Sparing := { s1.sparing.move (.encTile k) l n with retired := .encTile k :: s1.sparing.retired }
  let w := (s1.setSparing p).setTile k { (s1.setSparing p).tile k with powered := false }
  have hexec' : exec .unitSwap s = .next (w.regrown (mUnit (unitLike (.encTile k) n)) l n) := hexec
  have hs2 : Touches [.tiles, .batten, .dtiles, .bpm] { s with faults := { s.faults with regrows := [] } } s2 := (Touches.refl _).handOver
  have hs1 : Touches [.bobs, .batten] s2 s1 := (Touches.refl s2).drainUnit.resetUnitBobs
  have hset : Touches [.store, .faults] s1 (s1.setSparing p) := (Touches.refl s1).setSparing
  have hall : Touches [.intc, .mem, .out] w (w.regrown (mUnit (unitLike (.encTile k) n)) l n) := (Touches.refl w).regrown
  have hmap : (w.regrown (mUnit (unitLike (.encTile k) n)) l n).sparing = p := by
    rw [State.sparing, hall.same .faults, hall.same .store]
    exact setSparing_sparing s1 p
  have htiles : ∀ j, (w.regrown (mUnit (unitLike (.encTile k) n)) l n).tile j = w.tile j := fun j => by
    rw [State.tile, hall.same .tiles, State.tile]
  refine ⟨_, hexec', ?_, ?_, ?_, ?_, ?_, raise_pending .., ?_⟩
  · rw [encPhys, hmap]
    exact lookD_put_same ..
  · rw [hmap]
    exact List.mem_cons_self
  · rw [hall.same .faults]
    show (s1.setSparing p).faults.regrows = []
    rw [setSparing_faults]
    exact congrArg Faults.regrows ((hs1.same .faults).trans (hs2.same .faults))
  · rw [htiles, State.tile_setTile]
  · rw [htiles, State.tile_setTile_ne _ _ hne, State.tile, hset.same .tiles, hs1.same .tiles]
    exact handOver_out hne
  · exact (hall.same .dict).trans ((hset.same .dict).trans ((hs1.same .dict).trans (hs2.same .dict)))

theorem unitSwap_waits (s : State) (r : Regrow) (hawake : asleep s = false) (hsole : s.faults.regrows = [r])
    (hwait : (r.tested && atBoundary s r) = false) : exec .unitSwap s = .next s := by
  refine (awake_of hawake _).trans ?_
  have hnone : s.faults.regrows.find? (fun r => r.tested && atBoundary s r) = none := by
    rw [hsole]
    exact List.find?_cons_of_neg (Bool.eq_false_iff.1 hwait)
  rw [hnone]

/-! ### AGEING_SAMPLE and CORE_WATCHDOG_EXPIRY -/

theorem ageingSample_one (s : State) (u : HwUnit) (m : BitVec 8) (hawake : asleep s = false) (hunit : (unitLogical s u).isSome = true) :
    does (.ageingSample [(u, m)]) s fun t =>
      alook t.faults.margins u = some m ∧ (∀ w, w ≠ u → alook t.faults.margins w = alook s.faults.margins w) ∧ t = { s with faults := { s.faults with margins := t.faults.margins } } := by
  have hpowered : ([(u, m)].filter fun q : HwUnit × BitVec 8 => (unitLogical s q.1).isSome ||
      s.faults.regrows.any fun r => r.spare == some (unitNum q.1) && unitKind r.unit == unitKind q.1) = [(u, m)] :=
    List.filter_eq_self.2 fun q hq => by
      rw [List.mem_singleton.1 hq, hunit]
      rfl
  have hexec : exec (.ageingSample [(u, m)]) s = .next { s with faults := { s.faults with margins := aput s.faults.margins u m } } := by
    refine (awake_of hawake _).trans ?_
    dsimp only
    rw [hpowered]
    rfl
  exact ⟨_, hexec, alook_aput_same .., fun w hw => alook_aput_ne _ _ hw, rfl⟩

theorem coreWatchdogExpiry_contained (s : State) (k : Fin 16) (hawake : asleep s = false) (hserves : corePhys s k ≠ 0xFF) :
    does (.coreWatchdogExpiry k) s fun t =>
      t.faults.contained = sat32 s.faults.contained ∧ t.faults.valid = true ∧ (s.faults.valid = false → t.faults.kind = 0x12 ∧ t.faults.master = mCore (corePhys s k) ∧ t.faults.addr = 0) ∧ (t.intc.src 2).pending = true ∧ t = { s with faults := t.faults, pins := t.pins, store := t.store, paths := t.paths, clk := { s.clk with free := t.clk.free }, intc := t.intc, mem := t.mem, out := t.out } := by
  have hexec : exec (.coreWatchdogExpiry k) s = .next (s.contained 0x12 .none (mCore (corePhys s k)) 0) := by
    refine (awake_of hawake _).trans ((if_neg hserves).trans ?_)
    rw [reportNone_of_contained (by decide)]
  have hall : Touches faultParts s (s.contained 0x12 .none (mCore (corePhys s k)) 0) := (Touches.refl s).contained
  refine ⟨_, hexec, (contained_counted ..).1, contained_valid .., fun hfree => ?_, contained_pending .., fault_frame hall⟩
  have hfirst := contained_first s 0x12 .none (mCore (corePhys s k)) 0 hfree
  exact ⟨hfirst.1, hfirst.2.2.2.1, hfirst.2.2.2.2⟩

/-- Settles O42, by the regrow's place in the fault unit, the sparing map and what the spare takes over. -/
theorem unitsRegrow : Obligations.UnitsRegrow := by
  unfold Obligations.UnitsRegrow
  exact ⟨regrowTrigger_contained, regrowTrigger_corrected, regrowTrigger_off, regrowTrigger_margin, regrowTrigger_unanswered,
    regrowTrigger_margin_early, regrowTrigger_corrected_early, regrowTrigger_contained_early, regrowRequest_starts, spareSelfTestDone_passed,
    spareSelfTestDone_failed, unitSwap_core, unitSwap_encTile, unitSwap_waits, ageingSample_one, coreWatchdogExpiry_contained⟩

end Sys2Proof.Proofs
end

section
/-! PROOFS. The jobs of the host rings (O35). -/

open Sys2Proof Sys2Proof.Machine

-- One proof at a time: a thread for each proof would pass the limit that the check sets to memory.
set_option Elab.async false

namespace Sys2Proof.Proofs

/-! ### A job in progress -/

theorem jobOf_found {s : State} {n op : Nat} {j : HostJob} (h : jobOf s n op = some j) :
    j ∈ s.rings.jobs ∧ j.id = n ∧ j.opcode.toNat = op ∧ j.ended = none := by
  have hj := List.find?_some h
  simp only [Bool.and_eq_true, beq_iff_eq, Option.isNone_iff_eq_none] at hj
  exact ⟨List.mem_of_find?_eq_some h, hj.1.1, hj.1.2, hj.2⟩

/-- A job that is written back is the one found under its number. -/
theorem find?_setJob {s t : State} {n op : Nat} {j y : HostJob} (hjob : jobOf s n op = some j) (hjobs : t.rings.jobs = s.rings.jobs)
    (hy : y.id = j.id) : (t.setJob y).rings.jobs.find? (fun x => x.id == n) = some y := by
  obtain ⟨hmem, hid, -, -⟩ := jobOf_found hjob
  have hyn : y.id = n := hy.trans hid
  have hset : (t.setJob y).rings.jobs = updFirst (fun x => x.id == n) (fun _ => y) s.rings.jobs := by
    rw [← hjobs, ← hyn]
    rfl
  rw [hset]
  exact find?_updFirst (p := fun x : HostJob => x.id == n) (beq_iff_eq.2 hyn) ⟨j, hmem, beq_iff_eq.2 hid⟩

/-- A job that is closed is found ended, with the status and results given. -/
theorem closeJob_ended {s t : State} {n op : Nat} {j : HostJob} (hjob : jobOf s n op = some j) (hjobs : t.rings.jobs = s.rings.jobs)
    (status result : Nat) : (((t.closeJob j status result).rings.jobs.find? fun x => x.id == n).bind fun x => x.ended) =
      some (BitVec.ofNat 8 status, BitVec.ofNat 32 result, 0) := by
  have hfound := find?_setJob (y := { j with ended := some (BitVec.ofNat 8 status, BitVec.ofNat 32 result, 0) }) hjob hjobs rfl
  exact congrArg (fun o => o.bind fun x : HostJob => x.ended) hfound

/-- Data without a fragment table is one stretch (R394). -/
theorem jobFrags_plain {s : State} {j : HostJob} (h : bitOf j.flags.toNat 0 = false) (table : Option Bytes) :
    jobFrags s j table = (.ok [(j.addr.toNat, j.len.toNat)], s) :=
  if_pos (by rw [h]; rfl)

theorem fragLen_single (a n : Nat) : fragLen [(a, n)] = n := by
  simp [fragLen, sumNat]

/-- Data of one stretch in host memory is what the host returns, to its length. -/
theorem jobData_host {s : State} {j : HostJob} (h : jobLocal s j = false) (a n : Nat) (d : Bytes) :
    jobData s j [(a, n)] (some d) = (.ok (slice d 0 n), s)   := by
  refine (if_neg (Bool.eq_false_iff.1 h)).trans ?_
  rw [fragLen_single]

/-! ### NOP -/

theorem nop_ends (s : State) (n : Nat) (j : HostJob) (hawake : asleep s = false) (hjob : jobOf s n 0 = some j) (hobject : j.object = 0) :
    does (.nop n) s fun t =>
      ((t.rings.jobs.find? fun x => x.id == n).bind fun x => x.ended) = some (0, 0, 0) ∧ t = { s with rings := t.rings } := by
  have hexec : exec (.nop n) s = .next (s.closeJob j (if j.object = 0 then 0 else 3) 0) := by
    refine (awake_of hawake _).trans ?_
    rw [hjob]
  rw [if_pos hobject] at hexec
  exact ⟨_, hexec, closeJob_ended hjob rfl 0 0, rfl⟩

theorem nop_named (s : State) (n : Nat) (j : HostJob) (hawake : asleep s = false) (hjob : jobOf s n 0 = some j) (hobject : j.object ≠ 0) :
    does (.nop n) s fun t =>
      ((t.rings.jobs.find? fun x => x.id == n).bind fun x => x.ended) = some (3, 0, 0) ∧ t = { s with rings := t.rings } := by
  have hexec : exec (.nop n) s = .next (s.closeJob j (if j.object = 0 then 0 else 3) 0) := by
    refine (awake_of hawake _).trans ?_
    rw [hjob]
  rw [if_neg hobject] at hexec
  exact ⟨_, hexec, closeJob_ended hjob rfl 3 0, rfl⟩

/-! ### SURFACE_LOAD -/

theorem chunks_length (k n : Nat) (b : Bytes) (hk : 0 < k) (h : b.length = k * n) : (chunks k n b).length = n := by
  induction n generalizing b with
  | zero => rfl
  | succ n ih =>
    cases b with
    | nil => rw [List.length_nil, Nat.mul_succ] at h; omega
    | cons x r =>
      refine congrArg (· + 1) (ih _ ?_)
      rw [List.length_drop, h, Nat.mul_succ, Nat.add_sub_cancel]

/-- A row that is written adds at most what it is itself to what a table's rows give. -/
theorem filterMap_put_length {α β : Type} (f : Nat × α → Option β) (t : Tab α) (k : Nat) (d : α) :
    ((put t k d).filterMap f).length ≤ (t.filterMap f).length + (if (f (k, d)).isSome then 1 else 0) := by
  have hone : ∀ l : Tab α, (((k, d) :: l).filterMap f).length = (l.filterMap f).length + (if (f (k, d)).isSome then 1 else 0) := fun l => by
    rw [List.filterMap_cons]
    cases f (k, d) <;> rfl
  have hrest : ∀ (x : Nat × α) (l : Tab α), ((x :: l).filterMap f).length = (l.filterMap f).length + (if (f x).isSome then 1 else 0) := fun x l => by
    rw [List.filterMap_cons]
    cases f x <;> rfl
  induction t with
  | nil => exact (hone []).le
  | cons x r ih =>
    obtain ⟨i, w⟩ := x
    unfold put
    split
    · exact (hone _).le
    · split
      · rw [hone, hrest]
        omega
      · rw [hrest, hrest (i, w)]
        omega

/-- Free frames of both tiers. -/
def freeBoth (p : Pool) : Nat := freeFrames p false + freeFrames p true

/-- An allocation finds a block while a frame is free, and takes one frame. -/
theorem allocBlock_takes (s : State) (h : Holder) (mark : Mark) (d : Block) (hfree : freeBoth s.pool ≠ 0) :
    (s.allocBlock h mark d).1.isSome = true ∧ freeBoth s.pool ≤ freeBoth (s.allocBlock h mark d).2.pool + 1 := by
  have hframe : freeFrames s.pool (freeFrames s.pool false == 0) ≠ 0 := by
    unfold freeBoth at hfree
    by_cases hnone : freeFrames s.pool false = 0
    · rw [hnone]
      show freeFrames s.pool true ≠ 0
      omega
    · rw [beq_eq_false_iff_ne.2 hnone]
      exact hnone
  unfold State.allocBlock
  dsimp only
  rw [if_neg hframe]
  refine ⟨rfl, ?_⟩
  generalize pickFree (usedBlocks s.pool) _ _ = b
  generalize hx : (freeFrames s.pool false == 0) = ddr
  generalize hy : pickFree (usedFrames s.pool ddr) _ _ = f
  have htier : ∀ e : Bool, ((put s.pool.descs b ⟨f, ddr, mark, nextGen (s.pool.desc b).gen, false, false, 1, h, d⟩).filterMap
        fun q => if q.2.count ≠ 0 ∧ q.2.ddr = e then some q.2.frame else none).length ≤
      (s.pool.descs.filterMap fun q => if q.2.count ≠ 0 ∧ q.2.ddr = e then some q.2.frame else none).length + (if ddr = e then 1 else 0) :=
    fun e => by
      refine (filterMap_put_length ..).trans (Nat.add_le_add_left ?_ _)
      cases ddr <;> cases e <;> simp
  have h0 := htier false
  have h1 := htier true
  simp only [freeBoth, freeFrames, usedFrames, Pool.frames, List.length_append]
  cases ddr
  · simp only [if_true, reduceCtorEq, if_false] at h0 h1 ⊢
    omega
  · simp only [if_true, reduceCtorEq, if_false] at h0 h1 ⊢
    omega

/-- With a free frame for each, every block of a table is allocated. -/
theorem loadBlocks_length (h : Holder) (l : List Bytes) (s : State) (hfree : l.length ≤ freeBoth s.pool) : (s.loadBlocks h l).1.length = l.length := by
  induction l generalizing s with
  | nil => rfl
  | cons b r ih =>
    rw [List.length_cons] at hfree
    obtain ⟨hsome, hleft⟩ := allocBlock_takes s h .longTerm (blockOfBytes b) (by omega)
    obtain ⟨x, hx⟩ := Option.isSome_iff_exists.1 hsome
    unfold State.loadBlocks
    dsimp only
    rw [hx]
    exact congrArg (· + 1) (ih _ (by omega))

/-- An allocation leaves the surfaces alone, and all but pool and free values. -/
theorem allocBlock_frame (s : State) (h : Holder) (mark : Mark) (d : Block) :
    (s.allocBlock h mark d).2.pool.surfaces = s.pool.surfaces ∧
      (s.allocBlock h mark d).2 = { s with pool := (s.allocBlock h mark d).2.pool, clk := (s.allocBlock h mark d).2.clk } := by
  unfold State.allocBlock
  dsimp only
  split <;> exact ⟨rfl, rfl⟩

theorem loadBlocks_frame (h : Holder) (l : List Bytes) (s : State) :
    (s.loadBlocks h l).2.pool.surfaces = s.pool.surfaces ∧
      (s.loadBlocks h l).2 = { s with pool := (s.loadBlocks h l).2.pool, clk := (s.loadBlocks h l).2.clk } := by
  induction l generalizing s with
  | nil => exact ⟨rfl, rfl⟩
  | cons b r ih =>
    obtain ⟨hs, hframe⟩ := allocBlock_frame s h .longTerm (blockOfBytes b)
    unfold State.loadBlocks
    dsimp only
    generalize s.allocBlock h .longTerm (blockOfBytes b) = a at hs hframe
    obtain ⟨hs2, hframe2⟩ := ih a.2
    have hall : ∀ u : State, (u.pool.surfaces = a.2.pool.surfaces ∧ u = { a.2 with pool := u.pool, clk := u.clk }) →
        u.pool.surfaces = s.pool.surfaces ∧ u = { s with pool := u.pool, clk := u.clk } := fun u hu => by
      refine ⟨hu.1.trans hs, hu.2.trans ?_⟩
      rw [hframe]
    split
    · exact hall _ ⟨hs2, hframe2⟩
    · exact hall _ ⟨hs2, hframe2⟩

/-- A waiting table is committed at once where the surface has none (R237). -/
theorem commitSurface_empty {s : State} {m : Master} {h w ht : Nat} {d10 : Bool} {sl : List Slot}
    (hwaiting : (s.surface h).waiting = some (w, ht, d10, sl)) (hprev : (s.surface h).prev = none) (htable : (s.surface h).table = []) :
    ∃ v : Surface, (v.table = sl ∧ v.state = .ready ∧ v.width = w ∧ v.gen = (s.surface h).gen + 1) ∧
      s.commitSurface m h = (s.freed.setSurface h v).endLoad h sl.length := by
  refine ⟨{ s.surface h with
      width := w, height := ht, depth10 := d10, state := .ready, table := sl, gen := (s.surface h).gen + 1, waiting := none
      tableAt := arenaPlace s (8 * sl.length), prev := none, prevAt := (s.surface h).tableAt
      prevPins := (s.surface h).pins, pins := 0 }, ⟨rfl, rfl, rfl, rfl⟩, ?_⟩
  unfold State.commitSurface
  dsimp only
  rw [hwaiting, hprev, htable]
  dsimp only [List.isEmpty_nil, if_true]
  unfold State.dropPrev
  dsimp only
  rw [show ∀ (t : State) (v : Surface), ((t.setSurface h v).endLoad h sl.length).surface h = v from fun _ _ => lookD_put_same ..]
  rfl

/-- A loaded SURFACE_LOAD ends when its table commits. -/
theorem endLoad_ended {s : State} {h n k : Nat} {y : HostJob} (hfound : s.rings.jobs.find? (fun x => x.id == n) = some y)
    (hmine : (y.opcode == 1 && y.loaded && y.ended.isNone && y.object.toNat == h) = true) :
    (((s.endLoad h k).rings.jobs.find? fun x => x.id == n).bind fun x => x.ended) = some (0, BitVec.ofNat 32 (8192 * k), 0) := by
  let f (j : HostJob) : HostJob := if (j.opcode == 1 && j.loaded && j.ended.isNone && j.object.toNat == h) = true then
    { j with ended := some (0, BitVec.ofNat 32 (8192 * k), 0) } else j
  have hid : (fun x : HostJob => x.id == n) ∘ f = fun x => x.id == n := funext fun x => by
    show ((f x).id == n) = (x.id == n)
    unfold f
    split <;> rfl
  have hmap : (s.endLoad h k).rings.jobs = s.rings.jobs.map f := rfl
  rw [hmap, List.find?_map, hid, hfound]
  show (f y).ended = _
  unfold f
  rw [if_pos hmine]

theorem surfaceLoad_commits (s : State) (n : Nat) (j : HostJob) (d : Bytes) (hawake : asleep s = false) (hjob : jobOf s n 1 = some j)
    (hloaded : j.loaded = false) (hturn : jobTurn s j = true) (hhandle : j.object.toNat < s.pool.handles)
    (howner : ownedByContext (s.surface j.object.toNat) = false) (hwidth : le16 j.params 0 ≠ 0) (hheight : le16 j.params 2 ≠ 0)
    (hdepth : u8 j.params 4 = 8 ∨ u8 j.params 4 = 10) (hplain : bitOf j.flags.toNat 0 = false) (hlocal : jobLocal s j = false)
    (hlen : j.len.toNat = 8192 * (ctuCols (le16 j.params 0) * ctuCols (le16 j.params 2)))
    (hfree : (ctuCols (le16 j.params 0) * ctuCols (le16 j.params 2)) ≤ unreserved s.pool) (hprev : (s.surface j.object.toNat).prev = none)
    (htable : (s.surface j.object.toNat).table = []) :
    does (.surfaceLoad n { data := some d }) s fun t =>
      (t.surface j.object.toNat).table.length = (ctuCols (le16 j.params 0) * ctuCols (le16 j.params 2)) ∧ (t.surface j.object.toNat).state = .ready ∧ (t.surface j.object.toNat).width = le16 j.params 0 ∧ (t.surface j.object.toNat).gen = (s.surface j.object.toNat).gen + 1 ∧ ((t.rings.jobs.find? fun x => x.id == n).bind fun x => x.ended) = some (0, BitVec.ofNat 32 (8192 * (ctuCols (le16 j.params 0) * ctuCols (le16 j.params 2))), 0) ∧ t = { s with rings := t.rings, pool := t.pool, clk := t.clk } := by
  obtain ⟨-, -, hopcode, hended⟩ := jobOf_found hjob
  let n' := ctuCols (le16 j.params 0) * ctuCols (le16 j.params 2)
  let a := s.loadBlocks (.surface (BitVec.ofNat 24 j.object.toNat)) (chunks 8192 n' (slice d 0 j.len.toNat))
  let v : Surface := { a.2.surface j.object.toNat with
    waiting := some (le16 j.params 0, le16 j.params 2, u8 j.params 4 == 10, a.1)
    state := if (a.2.surface j.object.toNat).state = .free then .loading else (a.2.surface j.object.toNat).state }
  let u := (a.2.setSurface j.object.toNat v).setJob { j with loaded := true }
  have hexec : exec (.surfaceLoad n { data := some d }) s = .next (u.commitSurface mHost j.object.toNat) := by
    refine (awake_of hawake _).trans ?_
    rw [hjob]
    dsimp only
    rw [if_neg (by rw [hloaded, hturn]; decide), show jobSurface s j = some j.object.toNat from if_pos hhandle]
    refine (if_neg (Bool.eq_false_iff.1 howner)).trans ((if_neg (by tauto)).trans ?_)
    rw [jobFrags_plain hplain]
    refine (if_neg (by rw [fragLen_single]; exact not_not.2 hlen)).trans ((if_neg (Nat.not_lt.2 hfree)).trans ?_)
    rw [jobData_host hlocal]
  have hlength : a.1.length = n' := by
    have hchunks : (chunks 8192 n' (slice d 0 j.len.toNat)).length = n' :=
      chunks_length _ _ _ (by decide) ((slice_length ..).trans hlen)
    refine (loadBlocks_length _ _ s ?_).trans hchunks
    rw [hchunks]
    exact hfree.trans (Nat.sub_le ..)
  obtain ⟨hsurfaces, hframe⟩ : a.2.pool.surfaces = s.pool.surfaces ∧ a.2 = { s with pool := a.2.pool, clk := a.2.clk } :=
    loadBlocks_frame _ _ s
  have hsurface : a.2.surface j.object.toNat = s.surface j.object.toNat := by
    rw [State.surface, hsurfaces, State.surface]
  have hu : u.surface j.object.toNat = v := lookD_put_same ..
  obtain ⟨v', ⟨htab, hstate, hw, hgen⟩, hcommit⟩ := commitSurface_empty (s := u) (m := mHost) (h := j.object.toNat)
    (congrArg Surface.waiting hu) ((congrArg Surface.prev hu).trans ((congrArg Surface.prev hsurface).trans hprev))
    ((congrArg Surface.table hu).trans ((congrArg Surface.table hsurface).trans htable))
  rw [hcommit] at hexec
  have hset : ((u.freed.setSurface j.object.toNat v').endLoad j.object.toNat a.1.length).surface j.object.toNat = v' := lookD_put_same ..
  have hjobs : a.2.rings.jobs = s.rings.jobs := by rw [hframe]
  have hfound : u.rings.jobs.find? (fun x => x.id == n) = some { j with loaded := true } := find?_setJob hjob hjobs rfl
  refine ⟨_, hexec, ?_, ?_, ?_, ?_, ?_, ?_⟩
  · rw [hset, htab, hlength]
  · rw [hset, hstate]
  · rw [hset, hw]
  · rw [hset, hgen, hu]
    show (a.2.surface j.object.toNat).gen + 1 = _
    rw [hsurface]
  · refine (endLoad_ended (s := u.freed.setSurface j.object.toNat v') hfound ?_).trans ?_
    · rw [show j.opcode = 1 from BitVec.eq_of_toNat_eq hopcode, hended]
      simp
    · rw [hlength]
  · have hall : ∀ w : State, w = { s with pool := w.pool, clk := w.clk } →
        ((((w.setSurface j.object.toNat v).setJob { j with loaded := true }).freed.setSurface j.object.toNat v').endLoad j.object.toNat a.1.length) =
          { s with
            rings := ((((w.setSurface j.object.toNat v).setJob { j with loaded := true }).freed.setSurface j.object.toNat v').endLoad
              j.object.toNat a.1.length).rings
            pool := ((((w.setSurface j.object.toNat v).setJob { j with loaded := true }).freed.setSurface j.object.toNat v').endLoad
              j.object.toNat a.1.length).pool
            clk := ((((w.setSurface j.object.toNat v).setJob { j with loaded := true }).freed.setSurface j.object.toNat v').endLoad
              j.object.toNat a.1.length).clk } := fun w hw => by
      rw [hw]
      rfl
    exact hall a.2 hframe

/-! ### SURFACE_FREE and SURFACE_READ -/

theorem surfaceFree_pinned (s : State) (n : Nat) (j : HostJob) (hawake : asleep s = false) (hjob : jobOf s n 2 = some j)
    (hturn : jobTurn s j = true) (hhandle : j.object.toNat < s.pool.handles) (howner : ownedByContext (s.surface j.object.toNat) = false)
    (hpins : (s.surface j.object.toNat).pins + (s.surface j.object.toNat).prevPins ≠ 0) :
    does (.surfaceFree n) s fun t =>
      ((t.rings.jobs.find? fun x => x.id == n).bind fun x => x.ended) = some (0, 0, 0) ∧ (t.surface j.object.toNat).state = .free ∧ (t.surface j.object.toNat).table = [] ∧ t.pool.descs = s.pool.descs ∧ t = { s with rings := t.rings, pool := t.pool } := by
  let v := s.surface j.object.toNat
  let w : Surface := { v with
    state := .free, table := [], owner := .device, pins := 0, prevPins := v.prevPins + v.pins, concealed := []
    prevAt := if v.prev.isSome then v.prevAt else v.tableAt
    prev := if ((v.prev.getD []) ++ v.table).isEmpty then none else some ((v.prev.getD []) ++ v.table) }
  have hexec : exec (.surfaceFree n) s = .next ((s.freeSurface mHost j.object.toNat).closeJob j 0 0) := by
    refine (awake_of hawake _).trans ?_
    rw [hjob]
    dsimp only
    rw [if_neg (by rw [hturn]; decide), show jobSurface s j = some j.object.toNat from if_pos hhandle]
    exact if_neg (Bool.eq_false_iff.1 howner)
  have hfreed : s.freeSurface mHost j.object.toNat = s.setSurface j.object.toNat w := by
    have hw : (s.setSurface j.object.toNat w).surface j.object.toNat = w := lookD_put_same ..
    have hkept : w.prevPins ≠ 0 := by
      show v.prevPins + v.pins ≠ 0
      rw [Nat.add_comm]
      exact hpins
    show (s.setSurface j.object.toNat w).dropPrev mHost j.object.toNat = _
    unfold State.dropPrev
    dsimp only
    rw [hw]
    split
    · exact if_neg hkept
    · rfl
  rw [hfreed] at hexec
  have hsurface : ((s.setSurface j.object.toNat w).closeJob j 0 0).surface j.object.toNat = w := lookD_put_same ..
  exact ⟨_, hexec, closeJob_ended hjob rfl 0 0, congrArg Surface.state hsurface, congrArg Surface.table hsurface, rfl, rfl⟩

theorem surfaceRead_writes (s : State) (n : Nat) (j : HostJob) (hawake : asleep s = false) (hjob : jobOf s n 3 = some j)
    (hturn : jobTurn s j = true) (hhandle : j.object.toNat < s.pool.handles) (howner : ownedByContext (s.surface j.object.toNat) = false)
    (hready : (s.surface j.object.toNat).state = .ready) (hplain : bitOf j.flags.toNat 0 = false) (hlocal : jobLocal s j = false)
    (hlen : j.len.toNat = 8192 * (s.surface j.object.toNat).table.length) (hnonzero : j.len ≠ 0)
    (hclean : ((s.surface j.object.toNat).table.any fun x => (s.pool.desc x.block).poisoned) = false)
    (hdata : ((s.surface j.object.toNat).table.flatMap fun x => blockBytes (s.pool.desc x.block).data) ≠ []) :
    does (.surfaceRead n none false) s fun t =>
      Output.hostWrite (BitVec.ofNat 64 j.addr.toNat) (((s.surface j.object.toNat).table.flatMap fun x => blockBytes (s.pool.desc x.block).data).take j.len.toNat) ∈ t.out ∧ ((t.rings.jobs.find? fun x => x.id == n).bind fun x => x.ended) = some (0, BitVec.ofNat 32 ((s.surface j.object.toNat).table.flatMap fun x => blockBytes (s.pool.desc x.block).data).length, 0) ∧ t.pool = s.pool ∧ t = { s with rings := t.rings, out := t.out } := by
  let b := (s.surface j.object.toNat).table.flatMap fun x => blockBytes (s.pool.desc x.block).data
  have hnone : (s.surface j.object.toNat).table.find? (fun x => (s.pool.desc x.block).poisoned) = none :=
    List.find?_eq_none.2 fun x hx hp => List.any_eq_false.1 hclean x hx hp
  have hpart : (b.take j.len.toNat).isEmpty = false := by
    rw [List.isEmpty_eq_false_iff, ne_eq, List.take_eq_nil_iff, not_or]
    exact ⟨fun h => hnonzero (BitVec.eq_of_toNat_eq h), hdata⟩
  have hwrite : s.jobWrite false [(j.addr.toNat, j.len.toNat)] b = s.emit (.hostWrite (BitVec.ofNat 64 j.addr.toNat) (b.take j.len.toNat)) := by
    simp only [State.jobWrite, hpart]
    rfl
  have hexec : exec (.surfaceRead n none false) s = .next ((s.jobWrite false [(j.addr.toNat, j.len.toNat)] b).closeJob j 0 b.length) := by
    refine (awake_of hawake _).trans ?_
    rw [hjob]
    dsimp only
    rw [if_neg (by rw [hturn]; decide), show jobSurface s j = some j.object.toNat from if_pos hhandle]
    refine (if_neg (Bool.eq_false_iff.1 howner)).trans ((if_neg (not_not.2 hready)).trans ?_)
    rw [jobFrags_plain hplain]
    refine (if_neg (by rw [fragLen_single]; exact not_not.2 hlen)).trans ?_
    rw [hnone, hlocal]
    rfl
  rw [hwrite] at hexec
  exact ⟨_, hexec, List.mem_append_right _ (List.mem_singleton_self _), closeJob_ended hjob rfl 0 _, rfl, rfl⟩

/-! ### BITSTREAM, PACKET_SEND and RECEIVE_POST -/

theorem sumNat_cons (n : Nat) (l : List Nat) : sumNat (n :: l) = n + sumNat l := by
  rw [sumNat, ← List.sum_eq_foldl, sumNat, ← List.sum_eq_foldl, List.sum_cons]

theorem ringWrite_dec (s : State) (c : Nat) (b : Bytes) : (s.ringWrite c b).dec c = { s.dec c with ringIn := (s.dec c).ringIn + b.length } := by
  unfold State.ringWrite
  exact State.dec_setDec ..

/-- NAL units that enter a ring advance its write place by their bytes. -/
theorem ringWrites_dec (c : Nat) (l : List Bytes) (s : State) :
    (l.foldl (fun s x => s.ringWrite c x) s).dec c = { s.dec c with ringIn := (s.dec c).ringIn + sumNat (l.map List.length) } := by
  induction l generalizing s with
  | nil => rfl
  | cons b r ih => rw [List.foldl_cons, ih, ringWrite_dec, List.map_cons, sumNat_cons, Nat.add_assoc]

theorem bitstream_enters (s : State) (n : Nat) (j : HostJob) (d : Bytes) (hawake : asleep s = false) (hjob : jobOf s n 4 = some j)
    (hturn : jobTurn s j = true) (hcontext : j.object.toNat < 4096) (hvalid : decValid s j.object.toNat = true)
    (hmode : fld s 0x8003 j.object.toNat 2 = 4) (hqueue : (s.dec j.object.toNat).queue.length < par s 0x5040 1)
    (hroom : ringHeld (s.dec j.object.toNat) + sumNat ((splitNals (slice d 0 j.len.toNat) []).map List.length) ≤ (s.dec j.object.toNat).ringSize)
    (hplain : bitOf j.flags.toNat 0 = false) (hlocal : jobLocal s j = false) :
    does (.bitstream n { data := some d }) s fun t =>
      (t.dec j.object.toNat).queue = (s.dec j.object.toNat).queue ++ [{ nals := splitNals (slice d 0 j.len.toNat) [], rtp := BitVec.ofNat 32 (le32 j.params 4), completeAt := s.clk.now, arrived := s.time.ptp, codec := u8 j.params 0 }] ∧ ((t.rings.jobs.find? fun x => x.id == n).bind fun x => x.ended) = some (0, BitVec.ofNat 32 (slice d 0 j.len.toNat).length, 0) ∧ (t.dec j.object.toNat).ringIn = (s.dec j.object.toNat).ringIn + sumNat ((splitNals (slice d 0 j.len.toNat) []).map List.length) ∧ t = { s with rings := t.rings, decs := t.decs, mem := t.mem } := by
  let b := slice d 0 j.len.toNat
  let e := s.dec j.object.toNat
  let au : AccessUnit :=
    { nals := splitNals b [], rtp := BitVec.ofNat 32 (le32 j.params 4), completeAt := s.clk.now, arrived := s.time.ptp, codec := u8 j.params 0 }
  let s1 := (splitNals b []).foldl (fun s x => s.ringWrite j.object.toNat x) s
  let u := s1.setDec j.object.toNat { s1.dec j.object.toNat with queue := e.queue ++ [au] }
  have hexec : exec (.bitstream n { data := some d }) s = .next (u.closeJob j 0 b.length) := by
    refine (awake_of hawake _).trans ?_
    rw [hjob]
    dsimp only
    rw [if_neg (by rw [hturn]; decide)]
    refine (if_neg ?_).trans ((if_neg (Nat.not_le.2 hqueue)).trans ?_)
    · rw [hvalid, hmode]
      simp only [reduceCtorEq, ne_eq, not_true_eq_false, or_false, Nat.not_le]
      exact hcontext
    · rw [jobFrags_plain hplain]
      dsimp only
      rw [jobData_host hlocal]
      exact if_neg (Nat.not_lt.2 hroom)
  have hdec : s1.dec j.object.toNat = { e with ringIn := e.ringIn + sumNat ((splitNals b []).map List.length) } := ringWrites_dec ..
  have hkept : Touches [.decs, .mem] s s1 := Touches.foldl (Touches.refl s) fun _ _ hu => hu.ringWrite
  have hall : Touches [.rings, .decs, .mem] s s1 := Touches.foldl (Touches.refl s) fun _ _ hu => hu.ringWrite
  have hu : (u.closeJob j 0 b.length).dec j.object.toNat = { s1.dec j.object.toNat with queue := e.queue ++ [au] } := State.dec_setDec ..
  have hjobs : u.rings.jobs = s.rings.jobs := congrArg Rings.jobs (hkept.same .rings)
  have hu' : Touches [.rings, .decs, .mem] s (u.closeJob j 0 b.length) := hall.setDec.closeJob
  exact ⟨_, hexec, congrArg Dec.queue hu, closeJob_ended hjob hjobs 0 _, (congrArg Dec.ringIn hu).trans (congrArg Dec.ringIn hdec), hu'.frame (by simp)⟩

theorem packetSend_enqueues (s : State) (n : Nat) (j : HostJob) (d : Bytes) (hawake : asleep s = false) (hjob : jobOf s n 5 = some j)
    (hbound : j.object.toNat < 65536) (hbridge : j.object.toNat < 65400 ∨ 65407 < j.object.toNat)
    (hrow : fldB s 0x8007 j.object.toNat 1 = true) (hplain : bitOf j.flags.toNat 0 = false) (hlocal : jobLocal s j = false)
    (hmin : 60 ≤ j.len.toNat) (hmax : j.len.toNat ≤ 9216) (hroom : (s.queue j.object.toNat).depth < fld s 0x8007 j.object.toNat 9)
    (hcells : s.bpm.owners.length + cellsOf (slice d 0 j.len.toNat).length ≤ 262144)
    (hlink : 16 ≤ queuePort s j.object.toNat ∨ linkUp s (queuePort s j.object.toNat) = true) :
    does (.packetSend n { data := some d }) s fun t =>
      (((t.queue j.object.toNat).copies.getLast?).map fun c => c.data) = some (slice d 0 j.len.toNat) ∧ (t.queue j.object.toNat).copies.length = (s.queue j.object.toNat).copies.length + 1 ∧ ((t.rings.jobs.find? fun x => x.id == n).bind fun x => x.ended) = some (0, BitVec.ofNat 32 (slice d 0 j.len.toNat).length, 0) ∧ t.dict = s.dict ∧ t.encs = s.encs := by
  let b := slice d 0 j.len.toNat
  let r := s.enqueueCopy j.object.toNat mHost { data := b }
  have hadmit : admission s j.object.toNat (cellsOf b.length) = 0 := by
    refine (if_neg (Nat.not_le.2 hroom)).trans ((if_neg (Nat.not_lt.2 hcells)).trans (if_neg ?_))
    rintro ⟨hport, hdown⟩
    obtain hhigh | hup := hlink
    · omega
    · exact absurd (hup.symm.trans hdown) (by decide)
  have htaken : r.1 = true := congrArg Prod.fst ((if_neg (by rw [hadmit]; decide)).trans (if_neg (by rw [hadmit]; decide)) :
    r = (true, _))
  have hexec : exec (.packetSend n { data := some d }) s = .next (r.2.closeJob j 0 b.length) := by
    refine (awake_of hawake _).trans ?_
    rw [hjob]
    dsimp only
    refine (if_neg ?_).trans ?_
    · rw [hrow]
      simp only [Bool.true_eq_false, or_false]
      omega
    · rw [jobFrags_plain hplain]
      refine (if_neg ?_).trans ?_
      · rw [fragLen_single]
        omega
      · rw [jobData_host hlocal]
        dsimp only
        rw [show (s.enqueueCopy j.object.toNat mHost { data := b }).1 = true from htaken]
        rfl
  have hall : Touches [.clk, .intc, .bpm, .mem, .trans, .out] s r.2 := (Touches.refl s).enqueueCopy
  obtain ⟨bufs, hcopies⟩ := enqueueCopy_last (s := s) (q := j.object.toNat) (m := mHost) (c := { data := b }) hadmit
  have hcopies' : ((r.2.closeJob j 0 b.length).queue j.object.toNat).copies = (s.queue j.object.toNat).copies ++ [{ data := b, bufs := bufs }] := hcopies
  refine ⟨_, hexec, ?_, ?_, closeJob_ended hjob (congrArg Rings.jobs (hall.same .rings)) 0 _, hall.same .dict, hall.same .encs⟩
  · rw [hcopies', List.getLast?_concat]
    rfl
  · rw [hcopies', List.length_append]
    rfl

theorem receivePost_joins (s : State) (n : Nat) (j : HostJob) (hawake : asleep s = false) (hjob : jobOf s n 6 = some j)
    (hnew : s.rings.posted.contains j.id = false)
    (holdest : (s.rings.jobs.any fun x => decide (x.id < j.id) && x.opcode == 6 && x.ended.isNone && !(s.rings.posted.contains x.id)) = false)
    (hobject : j.object = 0) (hplain : bitOf j.flags.toNat 0 = false) :
    does (.receivePost n none) s fun t =>
      t.rings.posted = s.rings.posted ++ [j.id] ∧ ((t.rings.jobs.find? fun x => x.id == n).map fun x => x.frags) = some [(j.addr.toNat, j.len.toNat)] ∧ t = { s with rings := t.rings } := by
  have hexec : exec (.receivePost n none) s = .next { s.setJob { j with frags := [(j.addr.toNat, j.len.toNat)] } with
      rings := { (s.setJob { j with frags := [(j.addr.toNat, j.len.toNat)] }).rings with posted := s.rings.posted ++ [j.id] } } := by
    refine (awake_of hawake _).trans ?_
    rw [hjob]
    refine (if_neg (Bool.eq_false_iff.1 hnew)).trans ((if_neg (Bool.eq_false_iff.1 holdest)).trans ((if_neg (not_not.2 hobject)).trans ?_))
    rw [jobFrags_plain hplain]
    rfl
  have hfound : (s.setJob { j with frags := [(j.addr.toNat, j.len.toNat)] }).rings.jobs.find? (fun x => x.id == n) =
      some { j with frags := [(j.addr.toNat, j.len.toNat)] } := find?_setJob hjob rfl rfl
  exact ⟨_, hexec, rfl, congrArg (Option.map fun x : HostJob => x.frags) hfound, rfl⟩

/-- Settles O35: each job's command evaluated on the job it finds, with the blocks, ring bytes and copies it leaves. -/
theorem hostJobs : Obligations.HostJobs :=
  ⟨nop_ends, nop_named, surfaceLoad_commits, surfaceFree_pinned, surfaceRead_writes, bitstream_enters, packetSend_enqueues, receivePost_joins⟩

end Sys2Proof.Proofs
end

section
/-! PROOFS. Statements about reads of the dictionary that a state bank refutes (O8, O11, O12). -/

open Sys2Proof Sys2Proof.Machine

-- One proof at a time: a thread for each proof would pass the limit that the check sets to memory.
set_option Elab.async false

namespace Sys2Proof.Proofs

/-! ### A state bank whose live value is not the stored one (R83, R139) -/

/-- Variable 1 of bank 0 (0x4800:01) holds 5; the parameter is at its default 0. -/
def bankLive : State :=
  { State.reset with
    boot := { selvedge := true }
    batten := { banks := [(0, 5)] } }

/-- The read answers the live value, and nothing else. -/
theorem dictRead_bankLive :
    ∃ t, exec (.dictRead (.can 5) 0x4800 1) bankLive = .next t ∧ t.out = [.answer (.can 5) 0 stOk [5, 0, 0, 0]] :=
  ⟨_, rfl, by decide⟩

/-- Refutes O8: a state bank is a journaled scalar without a row, and its read answers the live value (R83), not the stored one. -/
theorem not_dictionaryReadsAndCursors : ¬ Obligations.DictionaryReadsAndCursors := by
  rintro ⟨-, hread, -⟩
  obtain ⟨t, ht, hstored⟩ := hread bankLive (.can 5) 0x4800 1 ⟨0x4800, 0x4BFF, 1, 0x40, .u32, .rwp, .num 0, .any⟩ (by decide) (by decide)
    (by decide) (by decide) (by decide) (by decide)
  obtain ⟨t', ht', hlive⟩ := dictRead_bankLive
  obtain rfl : t = t' := by injection ht.symm.trans ht'
  rw [hlive] at hstored
  exact absurd hstored (by decide)

theorem usdoRequest_bankLive :
    ∃ t, exec (.usdoRequest 7 (.read 0x4800 1)) bankLive = .next t ∧
      t.out = [.can (BitVec.ofNat 11 (0x580 + par bankLive 0x1FD0 1)) [7, 0, 0, 0, 0, 5, 0, 0, 0]] :=
  ⟨_, rfl, by decide⟩

/-- Refutes O11: a USDO read of a state bank answers the live value (R83), not the stored one. -/
theorem not_canopenAndDatagramPaths : ¬ Obligations.CanopenAndDatagramPaths := by
  rintro ⟨hread, -⟩
  obtain ⟨t, ht, hstored, -⟩ := hread bankLive 7 0x4800 1 ⟨0x4800, 0x4BFF, 1, 0x40, .u32, .rwp, .num 0, .any⟩ (by decide) (by decide)
    (by decide) (by decide) (by decide) (by decide) (by decide)
  obtain ⟨t', ht', hlive⟩ := usdoRequest_bankLive
  obtain rfl : t = t' := by injection ht.symm.trans ht'
  rw [hlive] at hstored
  exact absurd hstored (by decide)

/-- The BAR2 window selects that variable. -/
def bankSelected : State := { bankLive with bar2 := { index := 0x4800, sub := 1 } }

theorem dwRead_bankSelected :
    ∃ t, exec (.dwRead mHost 0) bankSelected = .next t ∧ bytesAt t.bar2.data 0 4 = [5, 0, 0, 0] :=
  ⟨_, rfl, by decide⟩

/-- Refutes O12: DW_READ of a state bank puts the live value into the data window (R83), not the stored one. -/
theorem not_bar2Window : ¬ Obligations.Bar2Window := by
  rintro ⟨hread, -⟩
  obtain ⟨t, ht, -, -, -, -, hstored, -⟩ := hread bankSelected mHost 0 ⟨0x4800, 0x4BFF, 1, 0x40, .u32, .rwp, .num 0, .any⟩ (by decide)
    (by decide) (by decide) (by decide) (by decide) (by decide) (by decide) (by decide) (by decide) (by decide)
  obtain ⟨t', ht', hlive⟩ := dwRead_bankSelected
  obtain rfl : t = t' := by injection ht.symm.trans ht'
  rw [hstored] at hlive
  exact absurd hlive (by decide)

end Sys2Proof.Proofs
end

section
/-! PROOFS. What the dictionary server leaves alone while it takes and answers requests: the parameters, the request numbers, and on a
primary the pair. -/

open Sys2Proof Sys2Proof.Machine

-- One proof at a time: a thread for each proof would pass the limit that the check sets to memory.
set_option Elab.async false

namespace Sys2Proof.Proofs

/-- Parameters and request numbers stay, and on a primary the pair. -/
structure Served (s t : State) : Prop where
  params : t.dict.params = s.dict.params
  nextReq : t.dict.nextReq = s.dict.nextReq
  pair : s.pair.role = .primary → t.pair = s.pair

namespace Served

variable {s t : State}

theorem refl (s : State) : Served s s := ⟨rfl, rfl, fun _ => rfl⟩

theorem trans {u : State} (h : Served s t) (g : Served t u) : Served s u where
  params := g.params.trans h.params
  nextReq := g.nextReq.trans h.nextReq
  pair hrole := (g.pair ((congrArg Pair.role (h.pair hrole)).trans hrole)).trans (h.pair hrole)

/-- What leaves the dictionary and the pair alone. -/
theorem of_touches {u : State} {l : List Part} (h : Served s t) (g : Touches l t u) (hd : Part.dict ∉ l := by decide) (hp : Part.pair ∉ l := by decide) :
    Served s u := by
  have hdict : u.dict = t.dict := g.same .dict hd
  exact h.trans ⟨by rw [hdict], by rw [hdict], fun _ => g.same .pair hp⟩

theorem foldl {α : Type} {f : State → α → State} {r : List α} (h : Served s t) (hf : ∀ u a, Served u (f u a)) : Served s (r.foldl f t) := by
  induction r generalizing t with
  | nil => exact h
  | cons a r ih => exact ih (h.trans (hf t a))

theorem ite {c : Prop} [Decidable c] {a b : State} (ha : Served s a) (hb : Served s b) : Served s (if c then a else b) := by
  split
  · exact ha
  · exact hb

/-! ### Answers -/

theorem setReq (h : Served s t) (id : Nat) (f : Req → Req) : Served s (t.setReq id f) := ⟨h.params, h.nextReq, h.pair⟩

theorem setSess (h : Served s t) (se : Session) (v : SessState) : Served s (t.setSess se v) := ⟨h.params, h.nextReq, h.pair⟩

theorem endOp (h : Served s t) (id k : Nat) (st : Status) (value : Bytes) : Served s (t.endOp id k st value) := by
  unfold State.endOp
  split
  · exact h
  · split
    · exact h
    · dsimp only
      split
      · exact ⟨h.params, h.nextReq, h.pair⟩
      · exact h.setReq _ _

theorem reply (h : Served s t) (r : Req) (keep : Bool) : Served s (t.reply r keep) :=
  h.of_touches (l := [.paths, .bar2, .intc, .out]) (Touches.refl t).reply

theorem finish (h : Served s t) (id : Nat) : Served s (t.finish id) := by
  unfold State.finish
  split
  · exact h
  · split
    · dsimp only
      refine reply ?_ _ _
      exact ⟨h.params, h.nextReq, h.pair⟩
    · exact h

theorem answerRead (h : Served s t) (r : Req) (k : Nat) (o : ReqOp) : Served s (t.answerRead r k o) := by
  have hfreed : Served s (if o.idx.toNat = 0x2051 then t.freed else t) := by
    split
    · exact ⟨h.params, h.nextReq, h.pair⟩
    · exact h
  unfold State.answerRead
  dsimp only
  generalize (if o.idx.toNat = 0x2051 then t.freed else t) = u at hfreed
  split
  · split <;> exact h.endOp ..
  · split
    · exact h.endOp ..
    · split
      · split <;> exact hfreed.endOp ..
      · split <;> exact hfreed.endOp ..

theorem answerReads (h : Served s t) : Served s t.answerReads := by
  unfold State.answerReads
  refine h.foldl fun u p => ?_
  split
  · exact .refl u
  · split
    · exact .refl u
    · split
      · exact (Served.refl u).answerRead ..
      · exact .refl u

theorem settleDict (h : Served s t) : Served s t.settleDict := h.answerReads.foldl fun u id => (Served.refl u).finish id

/-! ### Requests -/

theorem markRow (h : Served s t) (id k : Nat) (row : Option Nat) : Served s (t.markRow id k row) := h.setReq _ _

theorem cursorOp (h : Served s t) (r : Req) (k : Nat) (d : DOp) (rows : Nat) : Served s (t.cursorOp r k d rows) := by
  unfold State.cursorOp
  split
  · exact h.endOp ..
  · split
    · exact h.endOp ..
    · split
      · exact h.setReq ..
      · refine .ite (h.endOp ..) (.ite (h.endOp ..) (.ite (h.endOp ..) (.ite (h.endOp ..) ?_)))
        dsimp only
        exact .ite (h.endOp ..) ((h.setSess ..).endOp ..)

theorem setArg (h : Served s t) (se : Session) (idx sub : Nat) (v : PVal) : Served s (t.setArg se idx sub v) := by
  unfold State.setArg
  dsimp only
  split <;> exact h.setSess ..

theorem closeRecord (h : Served s t) : Served s t.closeRecord := by
  unfold State.closeRecord
  split
  · exact h
  · exact ⟨h.params, h.nextReq, h.pair⟩

theorem enter (h : Served s t) (es : List JEntry) : Served s (t.enter es) := by
  have hopened : ∀ (b : Bool) (r : JRecord), Served s { (if b then t else t.closeRecord) with
      dict := { (if b then t else t.closeRecord).dict with openRec := some r } } := fun b r => by
    cases b
    · exact ⟨h.closeRecord.params, h.closeRecord.nextReq, h.closeRecord.pair⟩
    · exact ⟨h.params, h.nextReq, h.pair⟩
  unfold State.enter
  exact .ite (hopened _ _).closeRecord (hopened _ _)

theorem accept (h : Served s t) (r : Req) (k : Nat) (d : DOp) (row : Option Nat) (v : PVal) : Served s (t.accept r k d row v) := by
  unfold State.accept
  dsimp only
  split
  · exact h.endOp ..
  · split
    · have hentered := h.enter [entryOf t r k d row v]
      split
      · exact ⟨hentered.params, hentered.nextReq, hentered.pair⟩
      · exact ⟨hentered.params, hentered.nextReq, hentered.pair⟩
    · exact h.enter _

/-- A primary relays nothing (R493). -/
theorem relayAll (h : Served s t) {idx sub : Nat} (hrelays : relays t idx sub = true) (r : Req) (ws : List (Nat × DOp × Option Nat)) :
    Served s (t.relayAll r ws) :=
  h.trans ⟨rfl, rfl, fun hrole => absurd hrelays (by simp [relays, hrole])⟩

theorem writeOp (h : Served s t) (r : Req) (k : Nat) (d : DOp) (o : Obj) (row : Option Nat) : Served s (t.writeOp r k d o row) := by
  unfold State.writeOp
  split
  · exact h.endOp ..
  · split
    · split
      · exact h.endOp ..
      · split
        · exact (h.setArg ..).endOp ..
        · exact h.endOp ..
    · split
      · split
        · exact h.endOp ..
        · split
          · exact h.endOp ..
          · dsimp only
            split
            · exact (h.setSess ..).endOp ..
            · split
              next hrelays =>
                split
                · exact relayAll (idx := d.idx) (sub := d.sub) (h.setSess ..) hrelays ..
                · exact (h.setSess ..).endOp ..
              · exact .ite ((h.setSess ..).endOp ..) ((h.setSess ..).accept ..)
      · split
        · exact h.endOp ..
        · split
          next hrelays =>
            split
            · exact h.relayAll hrelays ..
            · exact h.endOp ..
          · exact .ite (h.endOp ..) (h.accept ..)

theorem issue (h : Served s t) (id k : Nat) (d : DOp) : Served s (t.issue id k d) := by
  unfold State.issue
  split
  · exact h
  · split
    · exact h.cursorOp ..
    · split
      · exact h.endOp ..
      · dsimp only
        split
        · exact h.markRow ..
        · exact (h.markRow ..).writeOp ..

theorem issueAll (h : Served s t) (id k : Nat) (l : List DOp) : Served s (Machine.issueAll id k t l) := by
  induction l generalizing t k with
  | nil => exact h
  | cons d l ih => exact ih (h.issue id k d) (k + 1)

theorem groupSplit (h : Served s t) (id k : Nat) (l : List DOp) : Served s (Machine.groupSplit id k t l).1 := by
  induction l generalizing t k with
  | nil => exact h
  | cons d l ih =>
    unfold Machine.groupSplit
    split
    · exact h
    · split
      · exact ih (h.cursorOp ..) _
      · exact ih (h.markRow ..) _

theorem group (h : Served s t) (id : Nat) (ops : List DOp) : Served s (t.group id ops) := by
  have hsplit : Served s (Machine.groupSplit id 0 t ops).1 := h.groupSplit id 0 ops
  unfold State.group
  dsimp only
  generalize (Machine.groupSplit id 0 t ops).1 = u at hsplit ⊢
  generalize (Machine.groupSplit id 0 t ops).2 = gs
  have hrefuse : ∀ f : GWrite → Status, Served s (gs.foldl (fun s g => s.endOp id g.k (f g)) u) := fun f =>
    hsplit.foldl fun v _ => (Served.refl v).endOp ..
  split
  · exact hsplit
  · split
    · exact hrefuse _
    · split
      · exact hrefuse _
      · split
        · exact hrefuse _
        · split
          next hany =>
            obtain ⟨g, -, hrelays⟩ := List.any_eq_true.1 hany
            exact hsplit.relayAll hrelays ..
          · split
            · exact hsplit
            · split
              · exact hsplit.enter _
              · exact hrefuse _

end Served

/-- A request that arrives takes the next number, and leaves the parameters and on a primary the pair alone. -/
theorem arrive_served (s : State) (se : Session) (tag : BitVec 8) (r : Reply) (g : Bool) (ops : List DOp) (hselv : s.boot.selvedge = true) :
    Served { s with dict := { s.dict with nextReq := s.dict.nextReq + 1 } } (s.arrive se tag r g ops) := by
  unfold State.arrive
  rw [if_neg (by rw [hselv]; decide)]
  dsimp only
  split
  · refine Served.reply ?_ _ _
    exact ⟨rfl, rfl, fun _ => rfl⟩
  · have htaken : Served { s with dict := { s.dict with nextReq := s.dict.nextReq + 1 } } { s with dict := { s.dict with
        nextReq := s.dict.nextReq + 1, reqs := s.dict.reqs ++ [⟨s.dict.nextReq, se, tag, r, ops.map (·.slot none)⟩] } } :=
      ⟨rfl, rfl, fun _ => rfl⟩
    split
    · exact (htaken.group _ _).settleDict
    · exact (htaken.issueAll _ _ _).settleDict

end Sys2Proof.Proofs
end

section
/-! PROOFS. The pair's mirrored records, learn deltas, stream records and relayed requests (O45). -/

open Sys2Proof Sys2Proof.Machine

-- One proof at a time: a thread for each proof would pass the limit that the check sets to memory.
set_option Elab.async false

namespace Sys2Proof.Proofs

/-! ### GAVON_JOURNAL_RECORD -/

/-- A record that does not wait yet and finds none missing is compared with the journal (R490). -/
theorem gavonJournalRecord_exec {s : State} {q : BitVec 64} {l : List MirrorEntry} (hawake : asleep s = false)
    (hrole : s.pair.role = .joining ∨ (s.pair.role = .secondary ∧ mirrorGap s q l.length = false))
    (hnew : (s.dict.waiting.any fun r => r.confirm == some q) = false) :
    exec (.gavonJournalRecord q l) s =
      if s.store.pairSeq.toNat < q.toNat then .next (s.takeMirrored (mirrorEntries s q l) q)
      else if ((heldEntries s q l.length).isEmpty || decide ((heldEntries s q l.length).map (fun e => (e.idx, e.sub, e.row, e.val)) =
        (mirrorEntries s q l).map (fun e => (e.idx, e.sub, e.row, e.val)))) = true then .next (s.emit (.gavonConfirm q))
      else if healthy s = true then .next (s.takeMirrored (mirrorEntries s q l) q)
      else .next ((State.reportNone { s with faults := { s.faults with diverged := true } } 0x0D).emit (.gavonConfirm q)) := by
  refine (awake_of hawake _).trans ((if_neg ?_).trans ((if_neg (Bool.eq_false_iff.1 hnew)).trans (if_neg ?_)))
  · rintro ⟨hsecond, hjoining⟩
    exact hrole.elim hjoining fun h => hsecond h.1
  · rintro ⟨hsecond, hgap⟩
    obtain hjoining | ⟨-, hno⟩ := hrole
    · exact absurd (hjoining.symm.trans hsecond) (by decide)
    · exact absurd (hgap.symm.trans hno) (by decide)

theorem gavonJournalRecord_takes (s : State) (q : BitVec 64) (l : List MirrorEntry) (hawake : asleep s = false)
    (hrole : s.pair.role = .joining ∨ (s.pair.role = .secondary ∧ mirrorGap s q l.length = false))
    (hnew : (s.dict.waiting.any fun r => r.confirm == some q) = false) (hopen : storeOpen s = true) (hrec : s.dict.openRec = none)
    (hbeyond : s.store.pairSeq.toNat < q.toNat ∨ (healthy s = true ∧ heldEntries s q l.length ≠ [] ∧ (heldEntries s q l.length).length ≠ (mirrorEntries s q l).length)) :
    does (.gavonJournalRecord q l) s fun t =>
      t = { s with dict := { s.dict with waiting := s.dict.waiting ++ [{ openedAt := s.clk.now, entries := mirrorEntries s q l, confirm := some q }], nextReq := s.dict.nextReq + 1 } } := by
  have hclosed : s.closeRecord = s := by
    unfold State.closeRecord
    rw [hrec]
  have htake : s.takeMirrored (mirrorEntries s q l) q = { s with dict := { s.dict with
      waiting := s.dict.waiting ++ [{ openedAt := s.clk.now, entries := mirrorEntries s q l, confirm := some q }]
      nextReq := s.dict.nextReq + 1 } } := by
    refine (if_pos hopen).trans ?_
    rw [hclosed]
  have hexec : exec (.gavonJournalRecord q l) s = .next (s.takeMirrored (mirrorEntries s q l) q) := by
    refine (gavonJournalRecord_exec hawake hrole hnew).trans ?_
    by_cases hnewer : s.store.pairSeq.toNat < q.toNat
    · exact if_pos hnewer
    · obtain hlt | ⟨hhealthy, hheld, hother⟩ := hbeyond
      · exact absurd hlt hnewer
      · refine (if_neg hnewer).trans ((if_neg ?_).trans (if_pos hhealthy))
        rw [Bool.or_eq_true, List.isEmpty_iff, decide_eq_true_eq]
        rintro (hnone | hsame)
        · exact hheld hnone
        · exact hother (by simpa using congrArg List.length hsame)
  exact ⟨_, hexec, htake⟩

theorem gavonJournalRecord_waiting (s : State) (q : BitVec 64) (l : List MirrorEntry) (hawake : asleep s = false)
    (hwaits : (s.dict.waiting.any fun r => r.confirm == some q) = true) : exec (.gavonJournalRecord q l) s = .next s := by
  refine (awake_of hawake _).trans ?_
  by_cases hother : s.pair.role ≠ .secondary ∧ s.pair.role ≠ .joining
  · exact if_pos hother
  · exact (if_neg hother).trans (if_pos hwaits)

theorem gavonJournalRecord_gap (s : State) (q : BitVec 64) (l : List MirrorEntry) (hawake : asleep s = false)
    (hnew : (s.dict.waiting.any fun r => r.confirm == some q) = false) (hrole : s.pair.role = .secondary)
    (hgap : mirrorGap s q l.length = true) :
    does (.gavonJournalRecord q l) s fun t =>
      t.pair.role = .joining ∧ t.pair.mirrorOk = false ∧ (t.intc.src 0x15).pending = true ∧ t.dict = s.dict ∧ t.store.journal = s.store.journal := by
  have hexec : exec (.gavonJournalRecord q l) s = .next (s.fallBehind.pairChanged s) :=
    (awake_of hawake _).trans ((if_neg fun h => h.1 hrole).trans ((if_neg (Bool.eq_false_iff.1 hnew)).trans (if_pos ⟨hrole, hgap⟩)))
  let s1 : State := { s with pair := { s.pair with role := .joining, mirrorOk := false, resync := false } }
  have hstore : Touches [.boot, .store] s1 s.fallBehind := (Touches.refl s1).storeRole
  have hchanged : Touches [.intc, .mem, .out] s.fallBehind (s.fallBehind.pairChanged s) := (Touches.refl _).pairChanged
  have hpair : (s.fallBehind.pairChanged s).pair = s1.pair := (hchanged.same .pair).trans (hstore.same .pair)
  have hjoining : s.fallBehind.pair.role ≠ s.pair.role := by
    rw [hstore.same .pair, hrole]
    show Role.joining ≠ .secondary
    decide
  have hjournal : s.fallBehind.store.journal = s.store.journal := by
    show s1.storeRole.store.journal = _
    unfold State.storeRole
    split <;> rfl
  refine ⟨_, hexec, by rw [hpair], by rw [hpair], pairChanged_pending fun h => hjoining h.1, ?_, ?_⟩
  · exact (hchanged.same .dict).trans (hstore.same .dict)
  · rw [hchanged.same .store, hjournal]

theorem gavonJournalRecord_reclaimed (s : State) (q : BitVec 64) (l : List MirrorEntry) (hawake : asleep s = false)
    (hrole : s.pair.role = .joining ∨ (s.pair.role = .secondary ∧ mirrorGap s q l.length = false))
    (hnew : (s.dict.waiting.any fun r => r.confirm == some q) = false) (hold : q.toNat ≤ s.store.pairSeq.toNat)
    (hnone : heldEntries s q l.length = []) :
    does (.gavonJournalRecord q l) s fun t =>
      t = { s with out := s.out ++ [.gavonConfirm q] } := by
  refine ⟨_, (gavonJournalRecord_exec hawake hrole hnew).trans ((if_neg (Nat.not_lt.2 hold)).trans (if_pos ?_)), rfl⟩
  rw [hnone]
  rfl

theorem gavonJournalRecord_held (s : State) (q : BitVec 64) (l : List MirrorEntry) (hawake : asleep s = false)
    (hrole : s.pair.role = .joining ∨ (s.pair.role = .secondary ∧ mirrorGap s q l.length = false))
    (hnew : (s.dict.waiting.any fun r => r.confirm == some q) = false) (hold : q.toNat ≤ s.store.pairSeq.toNat)
    (hsame : (heldEntries s q l.length).map (fun e => (e.idx, e.sub, e.row, e.val)) = (mirrorEntries s q l).map (fun e => (e.idx, e.sub, e.row, e.val))) :
    does (.gavonJournalRecord q l) s fun t =>
      t = { s with out := s.out ++ [.gavonConfirm q] } := by
  refine ⟨_, (gavonJournalRecord_exec hawake hrole hnew).trans ((if_neg (Nat.not_lt.2 hold)).trans (if_pos ?_)), rfl⟩
  rw [decide_eq_true hsame, Bool.or_true]

theorem gavonJournalRecord_diverges (s : State) (q : BitVec 64) (l : List MirrorEntry) (hawake : asleep s = false)
    (hrole : s.pair.role = .joining ∨ (s.pair.role = .secondary ∧ mirrorGap s q l.length = false))
    (hnew : (s.dict.waiting.any fun r => r.confirm == some q) = false) (hapart : healthy s = false) (hold : q.toNat ≤ s.store.pairSeq.toNat)
    (hheld : heldEntries s q l.length ≠ []) (hother : (heldEntries s q l.length).length ≠ (mirrorEntries s q l).length) :
    does (.gavonJournalRecord q l) s fun t =>
      t.faults.diverged = true ∧ t.faults.valid = true ∧ (s.faults.valid = false → t.faults.kind = 0x0D) ∧ t.out.getLast? = some (.gavonConfirm q) ∧ t.store.journal = s.store.journal ∧ t.dict = s.dict := by
  let s1 : State := { s with faults := { s.faults with diverged := true } }
  have hreport : State.reportNone s1 0x0D = s1.contained 0x0D .none mFault 0 := reportNone_of_contained (by decide) s1 mFault
  have hexec : exec (.gavonJournalRecord q l) s = .next ((s1.contained 0x0D .none mFault 0).emit (.gavonConfirm q)) := by
    refine (gavonJournalRecord_exec hawake hrole hnew).trans ((if_neg (Nat.not_lt.2 hold)).trans ((if_neg ?_).trans
      ((if_neg (Bool.eq_false_iff.1 hapart)).trans (congrArg (fun t : State => Host.Outcome.next (t.emit (.gavonConfirm q))) hreport))))
    rw [Bool.or_eq_true, List.isEmpty_iff, decide_eq_true_eq]
    rintro (hnone | hsame)
    · exact hheld hnone
    · exact hother (by simpa using congrArg List.length hsame)
  obtain ⟨_, _, hstore⟩ := contained_store s1 0x0D .none mFault 0
  have hall : Touches faultParts s1 (s1.contained 0x0D .none mFault 0) := (Touches.refl s1).contained
  refine ⟨_, hexec, ?_, contained_valid .., fun hfree => (contained_first s1 0x0D .none mFault 0 hfree).1, List.getLast?_concat .., ?_, hall.same .dict⟩
  · obtain ⟨_, _, _, _, _, hrec⟩ := contained_record s1 0x0D .none mFault 0
    show (s1.contained 0x0D .none mFault 0).faults.diverged = true
    rw [hrec]
    unfold Recorded Faults.record
    dsimp only
    split <;> rfl
  · show (s1.contained 0x0D .none mFault 0).store.journal = s.store.journal
    rw [hstore]

/-! ### GAVON_LEARN_DELTA and GAVON_STREAM_RECORD -/

/-- On a device that is no primary a learn delta goes into the log alone. -/
theorem logLearn_secondary {s : State} (d : LearnDelta) (h : s.pair.role ≠ .primary) :
    s.logLearn d = { s with selv := { s.selv with learnLog := s.selv.learnLog ++ [d] } } := by
  unfold State.logLearn
  rw [decide_eq_false h, if_neg fun hp => h hp.1]
  simp

theorem not_primary {s : State} (h : s.pair.role = .secondary ∨ s.pair.role = .joining) : s.pair.role ≠ .primary := by
  obtain h | h := h <;> rw [h] <;> decide

theorem gavonLearnDelta_exec {s : State} {d : LearnDelta} (hawake : asleep s = false) (hrole : s.pair.role = .secondary ∨ s.pair.role = .joining) :
    exec (.gavonLearnDelta d) s = .next ((s.applyDelta d).logLearn d) :=
  (awake_of hawake _).trans (if_pos hrole)

theorem gavonLearnDelta_present (s : State) (e : BitVec 20) (on : Bool) (hawake : asleep s = false)
    (hrole : s.pair.role = .secondary ∨ s.pair.role = .joining) :
    does (.gavonLearnDelta (.present e on)) s fun t =>
      (t.ep e.toNat).present = on ∧ t.selv.learnLog = s.selv.learnLog ++ [.present e on] ∧ (∀ k, k ≠ e.toNat → t.ep k = s.ep k) ∧ t = { s with trans := { s.trans with endpoints := t.trans.endpoints }, selv := { s.selv with learnLog := t.selv.learnLog } } := by
  have hexec := gavonLearnDelta_exec (d := .present e on) hawake hrole
  rw [logLearn_secondary _ (not_primary (s := s.applyDelta (.present e on)) hrole)] at hexec
  exact ⟨_, hexec, congrArg Endpoint.present (State.ep_setEp ..), rfl, fun k hk => State.ep_setEp_ne _ _ hk, rfl⟩

theorem gavonLearnDelta_resolved (s : State) (e : BitVec 20) (m : BitVec 48) (hawake : asleep s = false)
    (hrole : s.pair.role = .secondary ∨ s.pair.role = .joining) :
    does (.gavonLearnDelta (.resolved e m)) s fun t =>
      (t.ep e.toNat).resolved = m ∧ t.selv.learnLog = s.selv.learnLog ++ [.resolved e m] ∧ t = { s with trans := { s.trans with endpoints := t.trans.endpoints }, selv := { s.selv with learnLog := t.selv.learnLog } } := by
  have hexec := gavonLearnDelta_exec (d := .resolved e m) hawake hrole
  rw [logLearn_secondary _ (not_primary (s := s.applyDelta (.resolved e m)) hrole)] at hexec
  exact ⟨_, hexec, congrArg Endpoint.resolved (State.ep_setEp ..), rfl, rfl⟩

theorem gavonStreamRecord_exec {s : State} {n : BitVec 16} {b : Bytes} (hawake : asleep s = false)
    (hrole : s.pair.role = .secondary ∨ s.pair.role = .joining) : exec (.gavonStreamRecord n b) s = .next (s.streamArrives n.toNat b) :=
  (awake_of hawake _).trans (if_pos hrole)

theorem gavonStreamRecord_stores (s : State) (n : BitVec 16) (b : Bytes) (e : Enc) (hawake : asleep s = false)
    (hrole : s.pair.role = .secondary ∨ s.pair.role = .joining) (hheld : look s.encs n.toNat = some e) (hclear : mirrorWaits s = false) :
    does (.gavonStreamRecord n b) s fun t =>
      (t.enc n.toNat).slotNext = BitVec.ofNat 32 (le32 (slice b 0 0x1C0) 4) ∧ (t.enc n.toNat).poc = BitVec.ofNat 32 (le32 (slice b 0 0x1C0) 0xC) ∧ (t.enc n.toNat).frames = e.frames ∧ (t.enc n.toNat).lastTick = ptpTicks s ∧ (∀ k, k ≠ n.toNat → t.enc k = s.enc k) ∧ t = { s with encs := t.encs } := by
  have harrives : s.streamArrives n.toNat b = s.mirrorStream n.toNat b := if_neg (Bool.eq_false_iff.1 hclear)
  have hexec := gavonStreamRecord_exec (n := n) (b := b) hawake hrole
  unfold State.mirrorStream at harrives
  rw [hheld] at harrives
  rw [harrives] at hexec
  have hstored := State.enc_setEnc s n.toNat { e.fromHead (slice b 0 0x1C0) with
    lastTick := ptpTicks s, grid := (fld s 0x8001 n.toNat 5, fld s 0x8001 n.toNat 6) }
  exact ⟨_, hexec, (congrArg Enc.slotNext hstored :), (congrArg Enc.poc hstored :), (congrArg Enc.frames hstored :), (congrArg Enc.lastTick hstored :),
    fun k hk => State.enc_setEnc_ne _ _ hk, rfl⟩

theorem gavonStreamRecord_keeps (s : State) (n : BitVec 16) (b : Bytes) (hawake : asleep s = false)
    (hrole : s.pair.role = .secondary ∨ s.pair.role = .joining) (hwaits : mirrorWaits s = true) :
    does (.gavonStreamRecord n b) s fun t =>
      t = { s with pair := { s.pair with heads := s.pair.heads ++ [(n.toNat, b)] } } := by
  have harrives : s.streamArrives n.toNat b = { s with pair := { s.pair with heads := s.pair.heads ++ [(n.toNat, b)] } } := if_pos hwaits
  exact ⟨_, gavonStreamRecord_exec hawake hrole, harrives⟩

/-! ### RELAYED_REQUEST and MIRROR_CONFIRM -/

theorem relayedRequest_arrives (s : State) (se : Session) (l : List RelayWrite) (hawake : asleep s = false) (hrole : s.pair.role = .primary)
    (hselv : s.boot.selvedge = true) :
    does (.relayedRequest se l) s fun t =>
      lookD 0 t.pair.counters 8 = lookD 0 s.pair.counters 8 + 1 ∧ t.dict.nextReq = s.dict.nextReq + 1 ∧ t.dict.params = s.dict.params ∧ t.pair.role = .primary := by
  have hexec : exec (.relayedRequest se l) s = .next ((s.pairCount 8).arrive se (pathTag se) .relay (decide (1 < l.length)) (l.map relayOp)) :=
    (awake_of hawake _).trans (if_pos hrole)
  have hserved := arrive_served (s.pairCount 8) se (pathTag se) .relay (decide (1 < l.length)) (l.map relayOp) hselv
  have hpair := hserved.pair hrole
  refine ⟨_, hexec, ?_, hserved.nextReq, hserved.params, ?_⟩
  · rw [hpair]
    exact bump_same ..
  · rw [hpair]
    exact hrole

theorem takeFirst_length {α : Type} {p : α → Bool} {l rest : List α} {x : α} (h : takeFirst p l = some (x, rest)) : rest.length ≤ l.length := by
  induction l generalizing x rest with
  | nil => cases h
  | cons a r ih =>
    unfold takeFirst at h
    split at h
    · cases h
      exact Nat.le_succ _
    · obtain ⟨⟨y, q⟩, hq, he⟩ := Option.map_eq_some_iff.1 h
      cases he
      exact Nat.succ_le_succ (ih hq)

/-- What the primary's answers leave: all of the pair but the operations relayed, which become no more, the parameters and the store. -/
structure Answered (s t : State) : Prop where
  pair : t.pair = { s.pair with relayed := t.pair.relayed }
  fewer : t.pair.relayed.length ≤ s.pair.relayed.length
  params : t.dict.params = s.dict.params
  store : t.store = s.store

theorem Answered.refl (s : State) : Answered s s := ⟨rfl, le_rfl, rfl, rfl⟩

theorem Answered.trans {s t u : State} (h : Answered s t) (g : Answered t u) : Answered s u where
  pair := g.pair.trans (by rw [h.pair])
  fewer := g.fewer.trans h.fewer
  params := g.params.trans h.params
  store := g.store.trans h.store

theorem relayAnswer_answered (s : State) (w : RelayWrite) : Answered s (s.relayAnswer w) := by
  unfold State.relayAnswer
  split
  next r rest hfirst =>
    split
    · exact .refl s
    · let s1 : State := { s with pair := { s.pair with relayed := rest } }
      have hend : Touches [.dict] s1 (s1.endOp r.req r.op w.status) := (Touches.refl s1).endOp
      have hpair : (s1.endOp r.req r.op w.status).pair = s1.pair := hend.same .pair
      refine ⟨?_, ?_, ((Served.refl s1).endOp ..).params, hend.same .store⟩
      · rw [hpair]
      · rw [hpair]
        exact takeFirst_length hfirst
  · exact .refl s

theorem settleDict_answered (s : State) : Answered s s.settleDict := by
  have hall : Touches [.clk, .dict, .paths, .bar2, .intc, .out] s s.settleDict := (Touches.refl s).settleDict
  have hpair : s.settleDict.pair = s.pair := hall.same .pair
  refine ⟨?_, ?_, (Served.refl s).settleDict.params, hall.same .store⟩
  · rw [hpair]
  · rw [hpair]

theorem relayedRequest_answers {s : State} {se : Session} {l : List RelayWrite} (hawake : asleep s = false) (hrole : s.pair.role = .secondary) :
    exec (.relayedRequest se l) s = .next ((l.foldl State.relayAnswer s).settleDict) :=
  (awake_of hawake _).trans (if_neg (by rw [hrole]; decide))

theorem relayedRequest_refused (s : State) (se : Session) (w : RelayWrite) (x : Relayed) (rest : List Relayed) (hawake : asleep s = false)
    (hrole : s.pair.role = .secondary) (hstatus : w.status ≠ stOk)
    (hfirst : takeFirst (fun r2 : Relayed => decide (r2.idx = w.idx) && decide (r2.sub = w.sub) && decide (r2.row = w.row)) s.pair.relayed = some (x, rest)) :
    does (.relayedRequest se [w]) s fun t =>
      t.pair = { s.pair with relayed := rest } ∧ t.dict.params = s.dict.params ∧ t.store = s.store := by
  let s1 : State := { s with pair := { s.pair with relayed := rest } }
  have hone : s.relayAnswer w = s1.endOp x.req x.op w.status := by
    unfold State.relayAnswer
    rw [hfirst]
    exact if_neg hstatus
  have hexec := relayedRequest_answers (se := se) (l := [w]) hawake hrole
  rw [List.foldl_cons, List.foldl_nil, hone] at hexec
  have hall : Touches [.clk, .dict, .paths, .bar2, .intc, .out] s1 (s1.endOp x.req x.op w.status).settleDict := (Touches.refl s1).endOp.settleDict
  exact ⟨_, hexec, hall.same .pair, ((Served.refl s1).endOp ..).settleDict.params, hall.same .store⟩

theorem relayedRequest_leaves (s : State) (se : Session) (l : List RelayWrite) (hawake : asleep s = false)
    (hrole : s.pair.role = .secondary) :
    does (.relayedRequest se l) s fun t =>
      t.pair = { s.pair with relayed := t.pair.relayed } ∧ t.pair.relayed.length ≤ s.pair.relayed.length ∧ t.dict.params = s.dict.params ∧ t.store = s.store := by
  have hfold : ∀ (l : List RelayWrite) (s : State), Answered s (l.foldl State.relayAnswer s) := fun l => by
    induction l with
    | nil => exact .refl
    | cons w l ih => exact fun s => (relayAnswer_answered s w).trans (ih _)
  obtain ⟨hpair, hfewer, hparams, hstore⟩ := (hfold l s).trans (settleDict_answered _)
  exact ⟨_, relayedRequest_answers hawake hrole, hpair, hfewer, hparams, hstore⟩

theorem mirrorConfirm_releases (s : State) (q : BitVec 64) (hawake : asleep s = false) (hrole : s.pair.role = .primary)
    (hnewer : s.pair.confirmed.toNat < q.toNat) :
    does (.mirrorConfirm q) s fun t =>
      t.pair = { s.pair with confirmed := q, unconfirmed := s.pair.unconfirmed.filter fun x => decide (q.toNat < x.1.toNat) } ∧ t = { s with pair := t.pair } := by
  have hexec : exec (.mirrorConfirm q) s = .next { s with pair := { s.pair with
      unconfirmed := s.pair.unconfirmed.filter fun x => decide (q.toNat < x.1.toNat)
      confirmed := if s.pair.confirmed.toNat < q.toNat then q else s.pair.confirmed } } :=
    (awake_of hawake _).trans (if_neg (not_not.2 hrole))
  rw [if_pos hnewer] at hexec
  exact ⟨_, hexec, rfl, rfl⟩

/-- Settles O45: each mirroring command evaluated; a primary's request through the server by what the server leaves alone. -/
theorem pairMirrors : Obligations.PairMirrors :=
  ⟨gavonJournalRecord_takes, gavonJournalRecord_waiting, gavonJournalRecord_gap, gavonJournalRecord_reclaimed, gavonJournalRecord_held,
    gavonJournalRecord_diverges, gavonLearnDelta_present, gavonLearnDelta_resolved, gavonStreamRecord_stores, gavonStreamRecord_keeps,
    relayedRequest_arrives, relayedRequest_refused, relayedRequest_leaves, mirrorConfirm_releases⟩

end Sys2Proof.Proofs
end

section
/-! PROOFS. Packets of a decode context: taken, discarded, waited for, and the context's source given up (O23). -/

open Sys2Proof Sys2Proof.Machine

-- One proof at a time: a thread for each proof would pass the limit that the check sets to memory.
set_option Elab.async false

namespace Sys2Proof.Proofs

/-! ### What handing a packet on leaves alone -/

/-- A context's next position, the packets beyond it and its held pictures. -/
def decOrder (e : Dec) : Option Nat × List HeldPkt × List DecPic := (e.seqNext, e.beyond, e.dpb)

/-- The context keeps its next position, the packets beyond it and its pictures. -/
def SameOrder (c : Nat) (s t : State) : Prop := decOrder (t.dec c) = decOrder (s.dec c)

namespace SameOrder

variable {c : Nat} {s t : State}

theorem refl (s : State) : SameOrder c s s := rfl

theorem setDec (h : SameOrder c s t) {e : Dec} (he : decOrder e = decOrder (t.dec c)) : SameOrder c s (t.setDec c e) := by
  unfold SameOrder
  rw [State.dec_setDec, he]
  exact h

theorem ite {p : Prop} [Decidable p] {a b : State} (ha : SameOrder c s a) (hb : SameOrder c s b) : SameOrder c s (if p then a else b) := by
  split
  · exact ha
  · exact hb

theorem decCount (h : SameOrder c s t) (k n : Nat) : SameOrder c s (t.decCount c k n) := h.setDec rfl

theorem losePicture (h : SameOrder c s t) : SameOrder c s (t.losePicture c) := by
  have hcount : SameOrder c s ((t.decCount c 0x3C).count 0x5041 5) := h.decCount ..
  exact hcount.setDec rfl

theorem ringWrite (h : SameOrder c s t) (b : Bytes) : SameOrder c s (t.ringWrite c b) := by
  have hstore : ∀ a b, SameOrder c s (t.devStore a b) := fun _ _ => h
  have htwice : ∀ a b d f, SameOrder c s ((t.devStore a b).devStore d f) := fun _ _ _ _ => h
  exact (htwice _ _ _ _).setDec rfl

theorem enterNal (h : SameOrder c s t) (b : Bytes) : SameOrder c s (t.enterNal c b) := by
  unfold State.enterNal
  exact .ite (h.decCount ..) ((h.ringWrite b).setDec rfl)

theorem enterNals (h : SameOrder c s t) (donl : Bool) (l : List (Bytes × BitVec 16)) : SameOrder c s (t.enterNals c donl l) := by
  induction l generalizing t with
  | nil => exact h
  | cons x r ih =>
    refine ih (.ite (h.decCount ..) (enterNal ?_ _))
    exact h.setDec rfl

theorem cutFrag (h : SameOrder c s t) : SameOrder c s (t.cutFrag c) := by
  have hcount : SameOrder c s (if (t.dec c).frag.isSome then t.decCount c 0x3F else t) := .ite (h.decCount ..) h
  exact hcount.setDec rfl

theorem takePayload (h : SameOrder c s t) (kind : Nat) (donl : Bool) (b : Bytes) : SameOrder c s (t.takePayload c kind donl b) := by
  unfold State.takePayload
  split
  · exact h.decCount ..
  · exact h.cutFrag.enterNals ..
  · dsimp only
    split
    · exact .ite ((h.cutFrag.decCount ..).setDec rfl) (h.cutFrag.setDec rfl)
    · split
      · refine .ite (enterNal ?_ _) ?_ <;> exact h.setDec rfl
      · have hcount : SameOrder c s (if (t.dec c).fragLost then t else t.decCount c 0x3F) := .ite h (h.decCount ..)
        exact hcount.setDec rfl

theorem completeAu (h : SameOrder c s t) : SameOrder c s (t.completeAu c) := by
  have hfresh : SameOrder c s (t.setDec c { t.dec c with auNals := [], auSegs := [], auRtp := none, auDrop := false }) := h.setDec rfl
  exact .ite hfresh.losePicture (.ite hfresh (hfresh.setDec rfl))

theorem handOn (h : SameOrder c s t) (k : HeldPkt) : SameOrder c s (t.handOn c k) := by
  have h1 : ∀ o, SameOrder c s (match (o : Option (BitVec 32)) with
      | some x => if rtpLater x k.rtp then t.completeAu c else t
      | none => t) := fun o => by
    split
    · exact .ite h.completeAu h
    · exact h
  have h2 : ∀ u, SameOrder c s u → SameOrder c s (if (u.dec c).auRtp.isSome then u else u.setDec c { u.dec c with
      auRtp := some k.rtp, auArrived := t.time.ptp, auDrop := decide (par t 0x5040 1 ≤ (u.dec c).queue.length), rx := rxRow t c }) :=
    fun u hu => .ite hu (hu.setDec rfl)
  have h3 : ∀ v kind, SameOrder c s v → SameOrder c s (if (v.dec c).auDrop then (v.setDec c { v.dec c with frag := none, fragLost := false }).decCount c 0x39
      else if kind = 3 then v.setDec c { v.dec c with auSegs := (v.dec c).auSegs ++ stSegments (k.payload.drop 2) }
      else v.takePayload c kind ((v.dec c).rx.donl && kind != 2) k.payload) := fun v kind hv => by
    refine .ite (SameOrder.decCount ?_ ..) (.ite ?_ (hv.takePayload ..)) <;> exact hv.setDec rfl
  exact .ite (h3 _ _ (h2 _ (h1 _))).completeAu (h3 _ _ (h2 _ (h1 _)))

end SameOrder

/-! ### DECODE_PACKET -/

/-- A NAL unit for which the ring has room enters it and the access unit. -/
theorem enterNal_dec {s : State} {c : Nat} {b : Bytes} (hroom : ringHeld (s.dec c) + b.length ≤ (s.dec c).ringSize) :
    (s.enterNal c b).dec c = { s.dec c with auNals := (s.dec c).auNals ++ [b], ringIn := (s.dec c).ringIn + b.length } := by
  have henter : s.enterNal c b = (s.ringWrite c b).setDec c { (s.ringWrite c b).dec c with auNals := (s.dec c).auNals ++ [b] } :=
    if_neg (Nat.not_lt.2 hroom)
  rw [henter, State.dec_setDec, ringWrite_dec]

/-- An AVC payload of a single NAL unit (R268). -/
theorem unpack_single {b : Bytes} (hlen : 2 ≤ b.length) (hlow : 1 ≤ u8 b 0 % 32) (hhigh : u8 b 0 % 32 ≤ 23) : unpack 2 false b = .nals [b] :=
  (if_neg (Nat.not_lt.2 hlen)).trans (if_pos ⟨hlow, hhigh⟩)

/-- With no fragment open, a payload of one NAL unit goes into the ring and the access unit. -/
theorem takePayload_single {s : State} {c : Nat} {b : Bytes} (hunpack : unpack 2 false b = .nals [b]) (hfrag : (s.dec c).frag = none)
    (hroom : ringHeld (s.dec c) + b.length ≤ (s.dec c).ringSize) :
    (s.takePayload c 2 false b).dec c =
      { s.dec c with fragLost := false, auNals := (s.dec c).auNals ++ [b], ringIn := (s.dec c).ringIn + b.length } := by
  let s1 := s.setDec c { s.dec c with frag := none, fragLost := false }
  let s2 := s1.setDec c { s1.dec c with lastDon := (s1.dec c).lastDon }
  have hcut : s.cutFrag c = s1 := by
    unfold State.cutFrag
    rw [hfrag]
    rfl
  have htake : s.takePayload c 2 false b = s2.enterNal c b := by
    unfold State.takePayload
    rw [hunpack, hcut]
    rfl
  have h1 : s1.dec c = { s.dec c with frag := none, fragLost := false } := State.dec_setDec ..
  have h2 : s2.dec c = { s.dec c with frag := none, fragLost := false } := (State.dec_setDec ..).trans h1
  rw [htake, enterNal_dec]
  · rw [h2, ← hfrag]
  · rw [h2]
    exact hroom

/-- A packet without marker of the open access unit, which is not dropped, is depacketized into it (R269). -/
theorem handOn_open {s : State} {c : Nat} {k : HeldPkt} (hkind : fld s 0x8003 c 2 = 2) (hrtp : (s.dec c).auRtp = some k.rtp)
    (hdrop : (s.dec c).auDrop = false) (hmarker : k.marker = false) : s.handOn c k = s.takePayload c 2 false k.payload := by
  have hsame : rtpLater k.rtp k.rtp = false := by simp [rtpLater]
  unfold State.handOn
  rw [hrtp]
  dsimp only
  rw [hsame, hmarker, hkind, if_neg Bool.false_ne_true, if_neg Bool.false_ne_true, hrtp, if_pos (show (some k.rtp).isSome = true from rfl), hdrop,
    if_neg Bool.false_ne_true, if_neg (by decide), show ((s.dec c).rx.donl && 2 != 2) = false from Bool.and_false _]

theorem bumpW_same (t : Tab Word) (k n : Nat) : lookD 0 (bumpW t k n) k = lookD 0 t k + BitVec.ofNat 32 n := by
  rw [bumpW, lookD_upd_same]

theorem put_put {α : Type} (t : Tab α) (k : Nat) (v w : α) : put (put t k v) k w = put t k w := by
  induction t with
  | nil => simp [put]
  | cons x r ih =>
    obtain ⟨j, u⟩ := x
    by_cases hlt : k < j
    · simp [put, hlt]
    · by_cases heq : k = j
      · simp [put, heq]
      · simp [put, hlt, heq, ih]

theorem setDec_setDec (s : State) (c : Nat) (e f : Dec) : (s.setDec c e).setDec c f = s.setDec c f :=
  congrArg (fun l => { s with decs := l }) (put_put s.decs c e f)

/-- An accepted packet of the locked source at the next position is counted and handed on (R266, R267). -/
theorem decodePacket_next {s : State} {c q : Nat} {payload body : Bytes} (hserves : serves s = true) (hvalid : decValid s c = true)
    (hlive : (s.dec c).live = true) (hkind : fld s 0x8003 c 2 = 2) (hany : fld s 0x8003 c 7 = 0) (hbody : rtpPayload payload = some body)
    (hversion : u8 payload 0 / 64 = 2) (hpt : (rxFor s c (BitVec.ofNat 32 (be32 payload 4))).pt = 0xFF)
    (hmarker : u8 payload 1 / 128 = 0) (hssrc : (s.dec c).ssrc = some (BitVec.ofNat 32 (be32 payload 8)))
    (hnext : (s.dec c).seqNext = some q) (hseq : q % 65536 = be16 payload 2) (hbeyond : (s.dec c).beyond = []) :
    s.decodePacket c payload false = (s.setDec c { s.dec c with
        lastPkt := s.clk.now, seqNext := some (q + 1), counters := bumpW (s.dec c).counters 0x38 }).handOn c
      { seq := q, at_ := s.clk.now, marker := false, rtp := BitVec.ofNat 32 (be32 payload 4), payload := body } := by
  have hnot : ¬ (serves s = false ∨ decValid s c = false ∨ (s.dec c).live = false ∨ 3 < fld s 0x8003 c 2) := by
    simp [hserves, hvalid, hlive, hkind]
  rw [State.decodePacket]
  extract_lets rx want ssrc locked silent relock s1 e1 s2 e2 long n
  rw [if_neg hnot]
  have hlocked : locked = some ssrc := (if_neg (not_not.2 hany)).trans hssrc
  have hrelock : relock = false := by simp [relock, hlocked]
  have hs1 : s1 = s := if_neg (by rw [hrelock]; simp)
  have he2 : e2 = { s.dec c with lastPkt := s.clk.now, counters := bumpW (s.dec c).counters 0x38 } := by
    unfold e2 s2 e1
    rw [hs1, State.decCount, State.dec_setDec, State.dec_setDec, ← hssrc]
  have hlong : long = false := by simp [long, hkind]
  split
  next hnone => exact absurd (hnone.symm.trans hbody) (by simp)
  next body' hbody' =>
    obtain rfl : body' = body := Option.some.inj (hbody'.symm.trans hbody)
    extract_lets bad seq q' at_ k
    have hbad : bad = false := by simp [bad, rx, hversion, hpt, hlocked, hkind]
    have hq' : q' = q := by unfold q'; rw [he2]; exact congrArg (Option.getD · seq) hnext
    have hseq' : seq = be16 payload 2 := if_neg (by rw [hlong]; decide)
    have hn : n = 16 := if_neg (by rw [hlong]; decide)
    have hat : at_ = q := by
      unfold at_
      rw [hn, hq', hseq', ← hseq]
      simp [sext]
    have hk : k = { seq := q, at_ := s.clk.now, marker := false, rtp := BitVec.ofNat 32 (be32 payload 4), payload := body' } := by
      unfold k
      rw [hat, show bitOf (u8 payload 1) 7 = false by rw [bitOf, Nat.testBit_eq_decide_div_mod_eq, show (2:Nat) ^ 7 = 128 from rfl, hmarker]; rfl]
      rfl
    have hnone : e2.beyond = [] := by rw [he2]; exact hbeyond
    have hset : s2.setDec c { e2 with seqNext := some (q' + 1) } = s.setDec c { s.dec c with
        lastPkt := s.clk.now, seqNext := some (q + 1), counters := bumpW (s.dec c).counters 0x38 } := by
      rw [he2, hq']
      unfold s2
      rw [hs1, State.decCount, setDec_setDec, setDec_setDec]
    rw [if_neg (by rw [hbad]; decide), if_neg (by rw [hat, hq', hnone]; simp), if_pos (by rw [hk, hq']), hset, hk, hnone]
    rfl

theorem decodePacket_enters (s : State) (ctx : BitVec 12) (payload : Bytes) (l : List Bytes) (body : Bytes) (q : Nat)
    (hawake : asleep s = false) (hinbox : (s.dec ctx.toNat).inbox = payload :: l) (hlive : (s.dec ctx.toNat).live = true)
    (hserves : serves s = true) (hvalid : decValid s ctx.toNat = true) (hkind : fld s 0x8003 ctx.toNat 2 = 2)
    (hany : fld s 0x8003 ctx.toNat 7 = 0) (hbody : rtpPayload payload = some body) (hversion : u8 payload 0 / 64 = 2)
    (hpt : (rxFor s ctx.toNat (BitVec.ofNat 32 (be32 payload 4))).pt = 0xFF) (hmarker : u8 payload 1 / 128 = 0)
    (hssrc : (s.dec ctx.toNat).ssrc = some (BitVec.ofNat 32 (be32 payload 8))) (hnext : (s.dec ctx.toNat).seqNext = some q)
    (hseq : q % 65536 = be16 payload 2) (hbeyond : (s.dec ctx.toNat).beyond = [])
    (hrtp : (s.dec ctx.toNat).auRtp = some (BitVec.ofNat 32 (be32 payload 4))) (hdrop : (s.dec ctx.toNat).auDrop = false)
    (hfrag : (s.dec ctx.toNat).frag = none) (hlen : 2 ≤ body.length) (hlow : 1 ≤ u8 body 0 % 32) (hhigh : u8 body 0 % 32 ≤ 23)
    (hroom : ringHeld (s.dec ctx.toNat) + body.length ≤ (s.dec ctx.toNat).ringSize) :
    does (.decodePacket ctx false) s fun t =>
      t.dec ctx.toNat = { s.dec ctx.toNat with inbox := l, auNals := (s.dec ctx.toNat).auNals ++ [body], seqNext := some (q + 1), lastPkt := s.clk.now, fragLost := false, ringIn := (s.dec ctx.toNat).ringIn + body.length, counters := (t.dec ctx.toNat).counters } ∧ lookD 0 (t.dec ctx.toNat).counters 0x38 = lookD 0 (s.dec ctx.toNat).counters 0x38 + 1 ∧ t = { s with decs := t.decs, mem := t.mem } := by
  let c := ctx.toNat
  let s0 := s.setDec c { s.dec c with inbox := l }
  have hdec : s0.dec c = { s.dec c with inbox := l } := State.dec_setDec ..
  let k : HeldPkt := { seq := q, at_ := s.clk.now, marker := false, rtp := BitVec.ofNat 32 (be32 payload 4), payload := body }
  let u := s0.setDec c { s0.dec c with lastPkt := s.clk.now, seqNext := some (q + 1), counters := bumpW (s0.dec c).counters 0x38 }
  have hu : u.dec c = { s.dec c with inbox := l, lastPkt := s.clk.now, seqNext := some (q + 1), counters := bumpW (s.dec c).counters 0x38 } := by
    refine (State.dec_setDec ..).trans ?_
    rw [hdec]
  have hexec : exec (.decodePacket ctx false) s = .next (u.handOn c k) := by
    refine (awake_of hawake _).trans ?_
    rw [hinbox]
    have hpt0 : (rxFor s0 c (BitVec.ofNat 32 (be32 payload 4))).pt = 0xFF := by
      unfold rxFor at hpt ⊢
      rw [hdec]
      exact hpt
    exact congrArg Host.Outcome.next (decodePacket_next (s := s0) hserves hvalid (by rw [hdec]; exact hlive) hkind hany hbody hversion hpt0 hmarker
      (by rw [hdec]; exact hssrc) (by rw [hdec]; exact hnext) hseq (by rw [hdec]; exact hbeyond))
  have hhand : u.handOn c k = u.takePayload c 2 false body :=
    handOn_open (k := k) hkind ((congrArg Dec.auRtp hu).trans hrtp) ((congrArg Dec.auDrop hu).trans hdrop) rfl
  have hsingle := takePayload_single (s := u) (c := c) (unpack_single hlen hlow hhigh) ((congrArg Dec.frag hu).trans hfrag) (by rw [hu]; exact hroom)
  rw [hu] at hsingle
  rw [hhand] at hexec
  have hall : Touches [.decs, .mem] s (u.takePayload c 2 false body) := Touches.takePayload (Touches.setDec (Touches.setDec (Touches.refl s)))
  refine ⟨_, hexec, ?_, ?_, ?_⟩
  · rw [hsingle]
  · rw [hsingle]
    exact bumpW_same ..
  · exact hall.frame (by simp)

theorem decodePacket_tagged (s : State) (ctx : BitVec 12) (payload : Bytes) (l : List Bytes) (hawake : asleep s = false)
    (hinbox : (s.dec ctx.toNat).inbox = payload :: l) (hlive : (s.dec ctx.toNat).live = true) (hserves : serves s = true)
    (hvalid : decValid s ctx.toNat = true) (hkind : fld s 0x8003 ctx.toNat 2 = 2) (hpayload : (rtpPayload payload).isSome = true) :
    does (.decodePacket ctx true) s fun t =>
      t.dec ctx.toNat = { s.dec ctx.toNat with inbox := l, counters := bumpW (s.dec ctx.toNat).counters 0x39 } ∧ t = { s with decs := t.decs } := by
  let s0 := s.setDec ctx.toNat { s.dec ctx.toNat with inbox := l }
  obtain ⟨body, hbody⟩ := Option.isSome_iff_exists.1 hpayload
  have hexec : exec (.decodePacket ctx true) s = .next (s0.decodePacket ctx.toNat payload true) := by
    refine (awake_of hawake _).trans ?_
    rw [hinbox]
  have hdec : s0.dec ctx.toNat = { s.dec ctx.toNat with inbox := l } := State.dec_setDec ..
  have hdiscard : s0.decodePacket ctx.toNat payload true = s0.decCount ctx.toNat 0x39 := by
    refine (if_neg ?_).trans ?_
    · rw [hdec, show serves s0 = true from hserves, show decValid s0 ctx.toNat = true from hvalid,
        show fld s0 0x8003 ctx.toNat 2 = 2 from hkind, show (s.dec ctx.toNat).live = true from hlive]
      decide
    · rw [hbody]
      rfl
  rw [hdiscard] at hexec
  refine ⟨_, hexec, (State.dec_setDec ..).trans ?_, rfl⟩
  rw [hdec]

/-! ### REORDER_TIMEOUT and SSRC_RELOCK -/

/-- The one packet held at the next position is handed on, and the position moves past it. -/
theorem drainHeld_one {s : State} {c : Nat} {k : HeldPkt} {d : List DecPic} (h : decOrder (s.dec c) = (some k.seq, [k], d)) :
    decOrder ((drainHeld 1 s c).dec c) = (some (k.seq + 1), [], d) := by
  obtain ⟨hnext, hrest⟩ := Prod.mk.inj h
  obtain ⟨hbeyond, hdpb⟩ := Prod.mk.inj hrest
  have hdrain : drainHeld 1 s c = (s.setDec c { s.dec c with beyond := [], seqNext := some (k.seq + 1) }).handOn c k := by
    unfold drainHeld
    dsimp only
    rw [hbeyond, hnext]
    exact if_pos rfl
  have hkept := (SameOrder.refl (c := c) (s.setDec c { s.dec c with beyond := [], seqNext := some (k.seq + 1) })).handOn k
  rw [hdrain]
  refine hkept.trans ?_
  rw [State.dec_setDec, ← hdpb]
  rfl

theorem reorderTimeout_movesOn (s : State) (ctx : BitVec 12) (k : HeldPkt) (hawake : asleep s = false)
    (hheld : (s.dec ctx.toNat).beyond = [k]) (hnext : (s.dec ctx.toNat).seqNext.isSome = true)
    (hdue : k.at_ + 1000 * (if (s.dec ctx.toNat).auRtp.isSome then (s.dec ctx.toNat).rx else rxRow s ctx.toNat).reorder ≤ s.clk.now) :
    does (.reorderTimeout ctx) s fun t =>
      (t.dec ctx.toNat).seqNext = some (k.seq + 1) ∧ (t.dec ctx.toNat).beyond = [] ∧ (t.dec ctx.toNat).dpb = (s.dec ctx.toNat).dpb ∧ t.pool = s.pool ∧ t.dict = s.dict ∧ t.boot = s.boot := by
  obtain ⟨q, hq⟩ := Option.isSome_iff_exists.1 hnext
  have hexec : exec (.reorderTimeout ctx) s = .next (s.loseGap ctx.toNat) := by
    refine (awake_of hawake _).trans ?_
    rw [hheld]
    simp only [List.map_cons, List.map_nil, List.foldl_cons, List.foldl_nil, Option.getD_none, min_self]
    exact if_pos hdue
  let e := s.dec ctx.toNat
  let s1 := ((s.setDec ctx.toNat { e with seqNext := some k.seq, frag := none, fragLost := e.fragLost || e.frag.isSome }).decCount
    ctx.toNat 0x3A (k.seq - q)).count 0x5041 4 (k.seq - q)
  let s2 := if e.frag.isSome then s1.decCount ctx.toNat 0x3F else s1
  have hlose : s.loseGap ctx.toNat = drainHeld 1 s2 ctx.toNat := by
    have hlen : (s.dec ctx.toNat).beyond.length = 1 := by rw [hheld]; rfl
    unfold State.loseGap
    dsimp only
    split
    next k' r q' hk hq' =>
      obtain rfl : k' = k := (List.cons.inj (hk.symm.trans hheld)).1
      obtain rfl : q' = q := Option.some.inj (hq'.symm.trans hq)
      exact congrArg (drainHeld · s2 ctx.toNat) hlen
    next hno => exact (hno k [] q hheld hq).elim
  have h1 : decOrder (s1.dec ctx.toNat) = (some k.seq, [k], e.dpb) := by
    have hset : SameOrder ctx.toNat (s.setDec ctx.toNat { e with seqNext := some k.seq, frag := none, fragLost := e.fragLost || e.frag.isSome }) s1 :=
      (SameOrder.refl (c := ctx.toNat) _).decCount 0x3A (k.seq - q)
    refine hset.trans ?_
    rw [State.dec_setDec, ← hheld]
    rfl
  have h2 : decOrder (s2.dec ctx.toNat) = (some k.seq, [k], e.dpb) :=
    (SameOrder.ite ((SameOrder.refl (c := ctx.toNat) s1).decCount ..) (SameOrder.refl s1) : SameOrder ctx.toNat s1 s2).trans h1
  have hdone := drainHeld_one h2
  rw [← hlose] at hdone
  obtain ⟨hpast, hrest⟩ := Prod.mk.inj hdone
  obtain ⟨hnone, hdpb⟩ := Prod.mk.inj hrest
  have hall : Touches [.totals, .decs, .mem] s (s.loseGap ctx.toNat) := (Touches.refl s).loseGap
  exact ⟨_, hexec, hpast, hnone, hdpb, hall.same .pool, hall.same .dict, hall.same .boot⟩

theorem ssrcRelock_givesUp (s : State) (ctx : BitVec 12) (hawake : asleep s = false) (hvalid : decValid s ctx.toNat = true)
    (hlive : (s.dec ctx.toNat).live = true) (hfree : fld s 0x8003 ctx.toNat 7 = 0) (hlocked : (s.dec ctx.toNat).ssrc.isSome = true)
    (hsilent : (s.dec ctx.toNat).lastPkt + 1000000000 ≤ s.clk.now) :
    does (.ssrcRelock ctx) s fun t =>
      (t.dec ctx.toNat).ssrc = none ∧ (t.dec ctx.toNat).state = .unsync ∧ (t.dec ctx.toNat).seqNext = none ∧ (t.dec ctx.toNat).auNals = [] ∧ (t.dec ctx.toNat).queue = (s.dec ctx.toNat).queue ∧ t.pool = s.pool ∧ t.dict = s.dict := by
  have hexec : exec (.ssrcRelock ctx) s = .next ((s.setDec ctx.toNat { s.dec ctx.toNat with ssrc := none }).unsync ctx.toNat) :=
    (awake_of hawake _).trans (if_pos (by simp [hvalid, hlive, hfree, hlocked, hsilent]))
  let s1 := s.setDec ctx.toNat { s.dec ctx.toNat with ssrc := none }
  let e : Dec := { s1.dec ctx.toNat with
    seqNext := none, beyond := [], auNals := [], auSegs := [], frag := none, fragLost := false, auRtp := none, auDrop := false
    lastDon := none, recs := [], marking := false, stPrev := none }
  let s2 := s1.setDec ctx.toNat e
  have hunsync : s1.unsync ctx.toNat = s2.decState (decMaster s2 ctx.toNat) ctx.toNat .unsync := rfl
  have hdec : (s1.unsync ctx.toNat).dec ctx.toNat = { e with state := .unsync } := by
    have he : s2.dec ctx.toNat = e := State.dec_setDec ..
    rw [hunsync]
    unfold State.decState
    dsimp only
    rw [he]
    have hset : (s2.setDec ctx.toNat { e with state := .unsync }).dec ctx.toNat = { e with state := .unsync } := State.dec_setDec ..
    split
    · exact hset
    · rw [State.dec, State.raise_decs]
      exact hset
  have h1 : s1.dec ctx.toNat = { s.dec ctx.toNat with ssrc := none } := State.dec_setDec ..
  have hall : Touches [.decs, .intc, .mem, .out] s (s1.unsync ctx.toNat) := (Touches.refl s).setDec.unsync
  refine ⟨_, hexec, ?_, ?_, ?_, ?_, ?_, hall.same .pool, hall.same .dict⟩
  · exact (congrArg Dec.ssrc hdec).trans (congrArg Dec.ssrc h1 :)
  · exact congrArg Dec.state hdec
  · exact congrArg Dec.seqNext hdec
  · exact congrArg Dec.auNals hdec
  · exact (congrArg Dec.queue hdec).trans (congrArg Dec.queue h1 :)

/-- Settles O23: a packet in order is traced through to the ring; what handing a packet on leaves alone gives the rest. -/
theorem decodePacketsEnterInOrder : Obligations.DecodePacketsEnterInOrder :=
  ⟨decodePacket_enters, decodePacket_tagged, reorderTimeout_movesOn, ssrcRelock_givesUp⟩

end Sys2Proof.Proofs
end

section
/-! PROOFS. Journal records close, commit and leave the ring (O10). -/

open Sys2Proof Sys2Proof.Machine

-- One proof at a time: a thread for each proof would pass the limit that the check sets to memory.
set_option Elab.async false

namespace Sys2Proof.Proofs

/-! ### What applying an entry leaves alone -/

/-- The journal, the image and the records that wait stay. -/
structure SameRing (s t : State) : Prop where
  journal : t.store.journal = s.store.journal
  image : t.store.image = s.store.image
  waiting : t.dict.waiting = s.dict.waiting

namespace SameRing

variable {s t : State}

theorem refl (s : State) : SameRing s s := ⟨rfl, rfl, rfl⟩

theorem trans {u : State} (h : SameRing s t) (g : SameRing t u) : SameRing s u :=
  ⟨g.journal.trans h.journal, g.image.trans h.image, g.waiting.trans h.waiting⟩

theorem of_touches {u : State} {l : List Part} (h : SameRing s t) (g : Touches l t u) (hs : Part.store ∉ l := by decide)
    (hd : Part.dict ∉ l := by decide) : SameRing s u := by
  have hstore : u.store = t.store := g.same .store hs
  have hdict : u.dict = t.dict := g.same .dict hd
  exact h.trans ⟨by rw [hstore], by rw [hstore], by rw [hdict]⟩

theorem ite {c : Prop} [Decidable c] {a b : State} (ha : SameRing s a) (hb : SameRing s b) : SameRing s (if c then a else b) := by
  split
  · exact ha
  · exact hb

theorem foldl {α : Type} {f : State → α → State} {r : List α} (h : SameRing s t) (hf : ∀ u a, SameRing u (f u a)) : SameRing s (r.foldl f t) := by
  induction r generalizing t with
  | nil => exact h
  | cons a r ih => exact ih (h.trans (hf t a))

theorem contained (h : SameRing s t) (kind : Nat) (acc : Access) (m : Master) (addr : Nat) : SameRing s (t.contained kind acc m addr) := by
  obtain ⟨_, _, hstore⟩ := contained_store t kind acc m addr
  have hall : Touches faultParts t (t.contained kind acc m addr) := (Touches.refl t).contained
  exact h.trans ⟨by rw [hstore], by rw [hstore], by rw [hall.same .dict]⟩

/-! ### Blocks, streams and contexts that are released -/

theorem releaseBlock (h : SameRing s t) (m : Master) (b : Nat) (g : BitVec 16) : SameRing s (t.releaseBlock m b g) := by
  have hcount : SameRing s (t.poolCount 0x0E) := ⟨h.journal, h.image, h.waiting⟩
  have hset : ∀ d, SameRing s (t.setDesc b d) := fun _ => ⟨h.journal, h.image, h.waiting⟩
  exact .ite (hcount.contained ..) (hset _)

theorem releaseSlots (h : SameRing s t) (m : Master) (l : List Slot) : SameRing s (t.releaseSlots m l) :=
  h.foldl fun u _ => (refl u).releaseBlock ..

theorem setEnc (h : SameRing s t) (n : Nat) (e : Enc) : SameRing s (t.setEnc n e) := ⟨h.journal, h.image, h.waiting⟩

theorem setDec (h : SameRing s t) (c : Nat) (e : Dec) : SameRing s (t.setDec c e) := ⟨h.journal, h.image, h.waiting⟩

theorem releaseStream (h : SameRing s t) (n : Nat) : SameRing s (t.releaseStream n) := by
  have hloose : SameRing s ((t.keepTail n).orphanJobs n) := h.of_touches (l := [.tiles, .trans, .batten]) (Touches.refl t).keepTail.orphanJobs
  have hreleased : ∀ (l : List Slot) (k : List Slot), SameRing s ((l.foldl (fun s x => s.releaseBlock mStore x.block x.gen)
      ((t.keepTail n).orphanJobs n)).releaseSlots mStore k) := fun l k =>
    (hloose.foldl fun u _ => (refl u).releaseBlock ..).releaseSlots mStore k
  have hgone : ∀ u, SameRing s u → SameRing s { u with encs := del u.encs n } := fun u hu => ⟨hu.journal, hu.image, hu.waiting⟩
  exact .ite ((hgone _ (hreleased _ _)).setEnc ..) (hgone _ (hreleased _ _))

theorem stopStream (h : SameRing s t) (n : Nat) (restart : Bool) : SameRing s (t.stopStream n restart) := by
  unfold State.stopStream
  split
  · exact h
  · exact .ite (h.setEnc ..) ((h.setEnc ..).releaseStream n)

theorem releaseDec (h : SameRing s t) (m : Master) (c : Nat) : SameRing s (t.releaseDec m c) := by
  have hforget : ∀ u p, SameRing u (u.forgetPic m p) := fun u _ => ((refl u).releaseSlots ..).releaseSlots ..
  have hpic : ∀ u p, SameRing u (u.releasePic m p) := fun u _ => (refl u).releaseSlots ..
  unfold State.releaseDec
  dsimp only
  refine setDec (of_touches (l := [.pool, .decs, .intc, .mem, .out]) (releaseSlots ?_ _ _) (Touches.refl _).ownSurface.decState) _ _
  refine foldl ?_ fun u q => hpic u q.pic
  split
  · exact (h.foldl hforget).trans (hpic _ _)
  · exact h.foldl hforget

theorem decBegin (h : SameRing s t) (c : Nat) : SameRing s (t.decBegin c) :=
  h.of_touches (l := [.clk, .pool, .decs, .trans, .intc, .bpm, .mem, .out]) (Touches.refl t).decBegin

theorem reportRow (h : SameRing s t) (c : Nat) (join : Bool) : SameRing s (t.reportRow c join) :=
  h.of_touches (l := [.clk, .trans, .intc, .bpm, .mem, .out]) (Touches.refl t).reportRow

theorem decEnd (h : SameRing s t) (c : Nat) : SameRing s (t.decEnd c) := by
  have hclose : ∀ u m, SameRing s u → SameRing s (u.closeDec m c) := fun u m hu =>
    .ite hu (.ite (((hu.releaseDec m c).setDec ..).decBegin c) (hu.releaseDec m c))
  exact hclose _ _ ((h.setDec ..).reportRow ..)

/-! ### Cells and queues that are given back -/

theorem freeBuffer (h : SameRing s t) (m : Master) (b : Nat) : SameRing s (t.freeBuffer m b) := by
  have hreject : ∀ k, SameRing s (t.rejectBuffer m b k) := fun k => by
    unfold State.rejectBuffer
    dsimp only
    exact contained (h.of_touches (l := [.clk, .bpm, .intc, .mem, .out]) (Touches.setBpm (Touches.refl t)).raise) ..
  have hwater : ∀ v, SameRing s (t.watermark v) := fun v =>
    h.of_touches (l := [.bpm, .intc, .mem, .out]) (Touches.refl t).watermark
  unfold State.freeBuffer
  split
  · exact hreject 1
  · exact .ite (hwater _) (hreject 2)

theorem setQueue (h : SameRing s t) (q : Nat) (v : Queue) : SameRing s (t.setQueue q v) := ⟨h.journal, h.image, h.waiting⟩

theorem discardQueue (h : SameRing s t) (q : Nat) : SameRing s (t.discardQueue q) :=
  (h.foldl fun u _ => (refl u).foldl fun w _ => (refl w).freeBuffer ..).setQueue ..

theorem linkDown (h : SameRing s t) (port : Nat) : SameRing s (t.linkDown port) := by
  have hqueues : ∀ (l : List Nat) (v : Selvedge) (w : Transport), SameRing s (l.foldl (fun s q => s.discardQueue q) { t with selv := v, trans := w }) :=
    fun l v w => foldl (t := { t with selv := v, trans := w }) ⟨h.journal, h.image, h.waiting⟩ fun u q => (refl u).discardQueue q
  have hflush : ∀ u, SameRing s u → SameRing s (u.downFlush port) := fun u hu => hu.of_touches (l := [.selv]) (Touches.refl u).downFlush
  exact .ite h (.ite (hflush _ (hqueues _ _ _)) (hqueues _ _ _))

/-! ### An applied entry -/

theorem encWritten (h : SameRing s t) (old : State) (n sub : Nat) : SameRing s (t.encWritten old n sub) := by
  have halloc : ∀ o k e, SameRing s ((t.allocFrames o k).2.setEnc n e) := fun o k e =>
    h.of_touches (l := [.clk, .pool, .encs]) (Touches.refl t).allocFrames.setEnc
  have hfetch : ∀ e k, SameRing s (t.fetchRecord e k) := fun e k => h.of_touches (l := [.clk, .pool, .mem]) (Touches.refl t).fetchRecord
  unfold State.encWritten
  dsimp only
  split
  · exact .ite (.ite h (h.stopStream ..)) (.ite (.ite h (halloc ..)) (h.releaseStream n))
  · split
    · exact h
    · exact .ite h (.ite (h.stopStream ..) (.ite (h.setEnc ..) (.ite (h.setEnc ..) (.ite (hfetch ..) h))))

theorem decWritten (h : SameRing s t) {old : State} (hold : SameRing s old) (c sub : Nat) : SameRing s (t.decWritten old c sub) := by
  have hgroup : ∀ (p : Prop) [Decidable p], SameRing s (if p then { (old.reportRow c false) with dict := t.dict } else t) := fun p _ =>
    .ite ⟨(hold.reportRow c false).journal, (hold.reportRow c false).image, h.waiting⟩ h
  have hunsync : ∀ (p : Prop) [Decidable p] (e : Dec),
      SameRing s (((if p then { (old.reportRow c false) with dict := t.dict } else t).setDec c e).unsync c) := fun p _ e =>
    ((hgroup p).setDec c e).of_touches (l := [.decs, .intc, .mem, .out]) (Touches.refl _).unsync
  exact .ite (h.setDec ..) (.ite h (.ite (.ite (h.decBegin c) (h.decEnd c)) (.ite (.ite ((hunsync _ _).reportRow ..) (hunsync _ _)) h)))

theorem schedWritten (h : SameRing s t) (old : State) (idx n sub : Nat) : SameRing s (t.schedWritten old idx n sub) := by
  have hset : ∀ v : Transport, SameRing s { t with trans := v } := fun _ => ⟨h.journal, h.image, h.waiting⟩
  exact .ite h (.ite (.ite (h.setQueue ..) (h.discardQueue n)) (.ite (hset _) (.ite (hset _) h)))

/-- An applied write that is no write of a row leaves the dictionary alone, and of the store journal and image. -/
theorem writtenPlain (h : SameRing s t) (old : State) (idx sub : Nat) (v : PVal) : SameRing s (t.written old idx sub none v) := by
  have hbatten : ∀ b : Batten, SameRing s { t with batten := b } := fun _ => ⟨h.journal, h.image, h.waiting⟩
  have hvar : ∀ b k u, SameRing s (t.updateVar b k u) := fun _ _ _ => h.of_touches (l := [.batten]) (Touches.refl t).updateVar
  have hrules : ∀ (a : Selvedge) (b : Bool), SameRing s { t with selv := a, store := { t.store with rulesLater := b } } := fun _ _ =>
    ⟨h.journal, h.image, h.waiting⟩
  exact .ite (.ite h (h.foldl fun u p => (refl u).linkDown p)) (.ite (hrules _ _) (.ite (hbatten _) (.ite (hbatten _) (.ite (hvar ..)
    (.ite (h.of_touches (l := [.tiles]) (Touches.refl t).patchWritten) (.ite (h.of_touches (l := [.pins]) (Touches.refl t).syncGpio)
      (.ite (h.of_touches (l := [.faults]) (Touches.refl t).polarityWritten) h)))))))

theorem written (h : SameRing s t) {old : State} (hold : SameRing s old) (idx sub : Nat) (row : Option Nat) (v : PVal) :
    SameRing s (t.written old idx sub row v) := by
  cases row with
  | none => exact h.writtenPlain ..
  | some r =>
    have hep : SameRing s (t.epWritten old r sub) := h.of_touches (l := [.selv, .trans, .pair, .out]) (Touches.refl t).epWritten
    exact .ite (h.encWritten ..) (.ite (h.decWritten hold ..) (.ite hep (h.schedWritten ..)))

theorem apply (s : State) (e : JEntry) : SameRing s (s.apply e) := by
  have hlast : ∀ a b c, SameRing s { s with dict := { s.dict with lastSeq := a, lastTag := b, lastObj := c } } := fun _ _ _ => ⟨rfl, rfl, rfl⟩
  have hput : ∀ (u : State) idx sub row v, SameRing s u → SameRing s (u.putParam idx sub row v) := fun _ _ _ _ _ hu => ⟨hu.journal, hu.image, hu.waiting⟩
  have hact : ∀ u : State, SameRing s u → SameRing s (u.pushAct e) := fun u hu => by
    unfold State.pushAct
    split
    · exact hu
    · split
      · split
        · exact .ite (.ite hu ⟨hu.journal, hu.image, hu.waiting⟩) ⟨hu.journal, hu.image, hu.waiting⟩
        · exact hu
      · split
        · split
          · exact ⟨hu.journal, hu.image, hu.waiting⟩
          · exact hu
        · exact ⟨hu.journal, hu.image, hu.waiting⟩
  have hview : ∀ (p : Prop) [Decidable p] a b c, SameRing s (if p then
      State.clockView { s with dict := { s.dict with lastSeq := a, lastTag := b, lastObj := c } }
      else { s with dict := { s.dict with lastSeq := a, lastTag := b, lastObj := c } }) := fun p _ a b c =>
    .ite ((hlast a b c).of_touches (l := [.time]) (Touches.refl _).clockView) (hlast a b c)
  unfold State.apply
  dsimp only
  split
  · exact hlast _ _ _
  · exact .ite (hact _ (hlast _ _ _)) (.ite (hput _ _ _ _ _ (hview _ _ _ _)) ((hput _ _ _ _ _ (hview _ _ _ _)).written (hlast _ _ _) ..))

end SameRing

/-! ### Answers leave the records that wait -/

/-- Answers leave the records of the journal that wait, the open one, the newest entry's tag, and the parameters. -/
structure Answering (s t : State) : Prop where
  waiting : t.dict.waiting = s.dict.waiting
  openRec : t.dict.openRec = s.dict.openRec
  lastTag : t.dict.lastTag = s.dict.lastTag
  params : t.dict.params = s.dict.params

namespace Answering

variable {s t : State}

theorem refl (s : State) : Answering s s := ⟨rfl, rfl, rfl, rfl⟩

theorem trans {u : State} (h : Answering s t) (g : Answering t u) : Answering s u :=
  ⟨g.waiting.trans h.waiting, g.openRec.trans h.openRec, g.lastTag.trans h.lastTag, g.params.trans h.params⟩

theorem of_touches {u : State} {l : List Part} (h : Answering s t) (g : Touches l t u) (hd : Part.dict ∉ l := by decide) : Answering s u := by
  have hdict : u.dict = t.dict := g.same .dict hd
  exact h.trans ⟨by rw [hdict], by rw [hdict], by rw [hdict], by rw [hdict]⟩

theorem ite {c : Prop} [Decidable c] {a b : State} (ha : Answering s a) (hb : Answering s b) : Answering s (if c then a else b) := by
  split
  · exact ha
  · exact hb

theorem foldl {α : Type} {f : State → α → State} {r : List α} (h : Answering s t) (hf : ∀ u a, Answering u (f u a)) : Answering s (r.foldl f t) := by
  induction r generalizing t with
  | nil => exact h
  | cons a r ih => exact ih (h.trans (hf t a))

theorem endOp (h : Answering s t) (id k : Nat) (st : Status) (value : Bytes) : Answering s (t.endOp id k st value) := by
  unfold State.endOp
  split
  · exact h
  · exact .ite h (.ite ⟨h.waiting, h.openRec, h.lastTag, h.params⟩ ⟨h.waiting, h.openRec, h.lastTag, h.params⟩)

theorem finish (h : Answering s t) (id : Nat) : Answering s (t.finish id) := by
  unfold State.finish
  split
  · exact h
  · split
    · dsimp only
      refine of_touches (l := [.paths, .bar2, .intc, .out]) ?_ (Touches.refl _).reply
      exact ⟨h.waiting, h.openRec, h.lastTag, h.params⟩
    · exact h

theorem answerRead (h : Answering s t) (r : Req) (k : Nat) (o : ReqOp) : Answering s (t.answerRead r k o) := by
  have hfreed : ∀ (p : Prop) [Decidable p], Answering s (if p then t.freed else t) := fun p _ => .ite ⟨h.waiting, h.openRec, h.lastTag, h.params⟩ h
  unfold State.answerRead
  dsimp only
  split
  · exact .ite (h.endOp ..) (h.endOp ..)
  · split
    · exact h.endOp ..
    · exact .ite (.ite ((hfreed _).endOp ..) ((hfreed _).endOp ..)) (.ite ((hfreed _).endOp ..) ((hfreed _).endOp ..))

theorem settleDict (h : Answering s t) : Answering s t.settleDict := by
  have hreads : Answering s t.answerReads := by
    unfold State.answerReads
    refine h.foldl fun u p => ?_
    split
    · exact .refl u
    · split
      · exact .refl u
      · exact .ite ((refl u).answerRead ..) (.refl u)
  exact hreads.foldl fun u id => (refl u).finish id

end Answering

/-! ### JOURNAL_RECORD_CLOSE -/

theorem journalRecordClose_closes (s : State) (r : JRecord) (hawake : asleep s = false) (hwaiting : s.dict.waiting = [])
    (hopen : s.dict.openRec = some r) :
    does (.journalRecordClose) s fun t =>
      t = { s with dict := { s.dict with waiting := [r], openRec := none } } := by
  have hexec : exec .journalRecordClose s = .next s.closeRecord := by
    refine (awake_of hawake _).trans ?_
    rw [hwaiting]
  refine ⟨_, hexec, ?_⟩
  unfold State.closeRecord
  rw [hopen, hwaiting]
  rfl

/-! ### JOURNAL_COMMIT -/

/-- A write of a block changes where it lies, and the wear. -/
theorem blockWrite_frame (st : Store) (l : Nat) : ∃ m w n, st.blockWrite l = { st with blockMap := m, wear := w, sinceLevel := n } := by
  unfold Store.blockWrite
  split
  · exact ⟨st.blockMap, _, _, rfl⟩
  · exact ⟨_, _, _, rfl⟩

theorem blockWrite_journal (st : Store) (l : Nat) : (st.blockWrite l).journal = st.journal := by
  obtain ⟨_, _, _, h⟩ := blockWrite_frame st l
  rw [h]

theorem blockWrite_image (st : Store) (l : Nat) : (st.blockWrite l).image = st.image := by
  obtain ⟨_, _, _, h⟩ := blockWrite_frame st l
  rw [h]

/-- What an entry writes, without its number and where it came from. -/
def entryContent (e : JEntry) : BitVec 16 × BitVec 8 × Option Word × PVal := (e.idx, e.sub, e.row, e.val)

/-- Numbering keeps what the entries write, and their tags. -/
theorem number_kept (ep : BitVec 16) (p k : Nat) (l : List JEntry) :
    ((number ep p k l).2.2.map fun e => (e.tag, entryContent e)) = l.map fun e => (e.tag, entryContent e) := by
  induction l generalizing p k with
  | nil => rfl
  | cons e r ih =>
    rw [number]
    split
    · rw [List.map_cons, List.map_cons, ih]
    · split
      · rw [List.map_cons, List.map_cons, ih]
        simp only [entryContent]
      · rw [List.map_cons, List.map_cons, ih]
        simp only [entryContent]

/-- Numbering one entry gives it a number. -/
theorem number_single (ep : BitVec 16) (p k : Nat) (e : JEntry) : ∃ q, (number ep p k [e]).2.2 = [{ e with seq := q }] := by
  rw [number]
  split
  · exact ⟨e.seq, rfl⟩
  · split
    · exact ⟨_, rfl⟩
    · exact ⟨_, rfl⟩

/-- The entries of a record as they are numbered at its commit. -/
def numberedEntries (s : State) (r : JRecord) : List JEntry := (number s.pair.epoch s.store.nextSeq s.store.nextLocal r.entries).2.2

/-- A record stands in the journal, and nothing of it is applied yet. -/
def recorded (s : State) (r : JRecord) : State :=
  let pos := s.store.nextSeq + s.store.nextLocal
  let q := number s.pair.epoch s.store.nextSeq s.store.nextLocal r.entries
  let st := ((s.store.blockWrite (journalBlock pos 0)).blockWrite (journalBlock pos 1)).blockWrite (journalBlock pos 2)
  { s with store := { st with
    journal := st.journal ++ [{ r with entries := q.2.2, time := BitVec.ofNat 64 (ptpSec s) }]
    nextSeq := q.1, nextLocal := q.2.1, pairSeq := newestPair q.2.2 st.pairSeq } }

theorem recorded_store (s : State) (r : JRecord) :
    (recorded s r).store.journal = s.store.journal ++ [{ r with entries := numberedEntries s r, time := BitVec.ofNat 64 (ptpSec s) }] ∧
      (recorded s r).store.image = s.store.image := by
  unfold recorded
  dsimp only
  simp only [blockWrite_journal, blockWrite_image]
  exact ⟨rfl, trivial⟩

/-- The entries of a record are applied; what follows are answers, and what is sent to the partner. -/
theorem commit_answers (s : State) (r : JRecord) :
    Answering ((numberedEntries s r).foldl State.apply (recorded s r)) (s.commit r) ∧
      Touches [.dict, .pair, .out] ((numberedEntries s r).foldl State.apply (recorded s r)) (s.commit r) := by
  let s2 := (numberedEntries s r).foldl State.apply (recorded s r)
  let n := if healthy s2 then 0 else if serves s2 then s2.pair.discarded + (mirrorOf (numberedEntries s r)).length else s2.pair.discarded
  let s3 : State := { s2 with pair := { s2.pair with discarded := n } }
  let s4 := ((s3.acknowledge (numberedEntries s r)).relayedDone ((numberedEntries s r).filter fun e => e.tag == 6)).mirror (numberedEntries s r)
  have hcommit : s.commit r = match r.confirm with
      | some n => s4.emit (.gavonConfirm n)
      | none => s4 := rfl
  have hack : Answering s2 (s3.acknowledge (numberedEntries s r)) :=
    Answering.foldl (t := s3) ⟨rfl, rfl, rfl, rfl⟩ fun u e => .ite (.refl u) ((Answering.refl u).endOp ..)
  have hdone : Answering s2 ((s3.acknowledge (numberedEntries s r)).relayedDone ((numberedEntries s r).filter fun e => e.tag == 6)) := by
    refine hack.foldl fun u e => ?_
    split
    · next x rest _ =>
      refine Answering.endOp ?_ ..
      exact ⟨rfl, rfl, rfl, rfl⟩
    · exact .refl u
  have h4 : Answering s2 s4 := hdone.of_touches (l := [.pair, .out]) (Touches.refl _).mirror
  have ht3 : Touches [.dict, .pair, .out] s2 s3 := (Touches.refl s2).setPair
  have ht4 : Touches [.dict, .pair, .out] s2 s4 := ht3.acknowledge.relayedDone.mirror
  rw [hcommit]
  split
  · exact ⟨h4.of_touches (l := [.out]) (Touches.refl _).emit, ht4.emit⟩
  · exact ⟨h4, ht4⟩

/-- An idle open record closes behind those that wait. -/
theorem closeDue_waiting (s : State) : s.closeDue.dict.waiting.take s.dict.waiting.length = s.dict.waiting := by
  unfold State.closeDue
  split
  next hnone hopen =>
    rw [hnone]
    rfl
  next => rw [List.take_length]

theorem journalCommit_commits (s : State) (r : JRecord) (rest : List JRecord) (hawake : asleep s = false)
    (hwaiting : s.dict.waiting = r :: rest) (hwritable : s.store.readOnly = false) :
    does (.journalCommit 3) s fun t =>
      t.store.journal.length = s.store.journal.length + 1 ∧ t.store.journal.take s.store.journal.length = s.store.journal ∧ (t.store.journal.getLast?.map fun q => q.entries.map fun e => (e.idx, e.sub, e.row, e.val)) = some (r.entries.map fun e => (e.idx, e.sub, e.row, e.val)) ∧ t.store.image = s.store.image ∧ t.dict.waiting.take rest.length = rest := by
  let s0 : State := { s with dict := { s.dict with waiting := rest } }
  have hexec : exec (.journalCommit 3) s = .next ((s0.commit r).settleDict.closeDue.takeHeads) := by
    refine (awake_of hawake _).trans ?_
    rw [hwaiting]
    exact congrArg (fun u : State => Host.Outcome.next u.settleDict.closeDue.takeHeads) (if_neg (Bool.eq_false_iff.1 hwritable))
  obtain ⟨hanswers, hkept⟩ := commit_answers s0 r
  have happlied : SameRing (recorded s0 r) ((numberedEntries s0 r).foldl State.apply (recorded s0 r)) := (SameRing.refl _).foldl SameRing.apply
  obtain ⟨hjournal, himage⟩ := recorded_store s0 r
  have hrest : Touches [.clk, .dict, .paths, .bar2, .intc, .out, .encs, .pair] (s0.commit r) ((s0.commit r).settleDict.closeDue.takeHeads) :=
    (Touches.refl _).settleDict.closeDue.takeHeads
  have hstore : ((s0.commit r).settleDict.closeDue.takeHeads).store = ((numberedEntries s0 r).foldl State.apply (recorded s0 r)).store :=
    (hrest.same .store).trans (hkept.same .store)
  have hring : ((s0.commit r).settleDict.closeDue.takeHeads).store.journal =
      s.store.journal ++ [{ r with entries := numberedEntries s0 r, time := BitVec.ofNat 64 (ptpSec s0) }] := by
    rw [hstore, happlied.journal, hjournal]
  refine ⟨_, hexec, ?_, ?_, ?_, ?_, ?_⟩
  · rw [hring, List.length_append]
    rfl
  · rw [hring, List.take_left]
  · have hcontent := congrArg (List.map Prod.snd) (number_kept s0.pair.epoch s0.store.nextSeq s0.store.nextLocal r.entries)
    rw [List.map_map, List.map_map] at hcontent
    rw [hring, List.getLast?_concat]
    exact congrArg some hcontent
  · rw [hstore, happlied.image, himage]
  · have hheads : Touches [.encs, .pair] (s0.commit r).settleDict.closeDue ((s0.commit r).settleDict.closeDue.takeHeads) := (Touches.refl _).takeHeads
    have hwait : (s0.commit r).settleDict.dict.waiting = rest :=
      (hanswers.settleDict.waiting).trans happlied.waiting
    rw [hheads.same .dict]
    have hclose := closeDue_waiting (s0.commit r).settleDict
    rwa [hwait] at hclose

/-! ### One entry of a journaled parameter -/

/-- An applied write that is no write of a row leaves the dictionary and the boot state alone. -/
theorem writtenPlain_dict (s old : State) (idx sub : Nat) (v : PVal) : (s.written old idx sub none v).dict = s.dict := by
  have r : Touches [.clk, .pins, .store, .paths, .tiles, .batten, .selv, .trans, .intc, .bpm, .mem, .faults, .out] s s := .refl s
  have hrules : ∀ (a : Selvedge) (b : Bool), Touches [.clk, .pins, .store, .paths, .tiles, .batten, .selv, .trans, .intc, .bpm, .mem, .faults, .out] s
      { s with selv := a, store := { s.store with rulesLater := b } } := fun _ _ => r.write [.store, .selv] fun p hp => by cases p <;> simp at hp <;> rfl
  have hall : Touches [.clk, .pins, .store, .paths, .tiles, .batten, .selv, .trans, .intc, .bpm, .mem, .faults, .out] s (s.written old idx sub none v) :=
    .ite (.ite r (.foldl r fun _ _ hu => hu.linkDown)) (.ite (hrules _ _) (.ite r.setBatten (.ite r.setBatten (.ite r.updateVar
      (.ite r.patchWritten (.ite r.syncGpio (.ite r.polarityWritten r)))))))
  exact hall.same .dict

/-- The parameters after a value has been put: a default takes no place. -/
def putValue (s : State) (idx sub : Nat) (v : PVal) : Tab PVal :=
  if v = dfltV s idx sub then del s.dict.params (pkey idx sub none) else put s.dict.params (pkey idx sub none) v

/-- An applied entry of a journaled parameter without a row: its tag is the newest, and its value stands in the parameters. -/
theorem apply_plain (s : State) (e : JEntry) (o : Obj) (hfind : findObj e.idx.toNat e.sub.toNat = some o) (hclass : o.cls = .rwp)
    (hrow : e.row = none) :
    (s.apply e).dict.lastTag = e.tag ∧ (s.apply e).dict.openRec = s.dict.openRec ∧
      (s.apply e).dict.params = putValue s e.idx.toNat e.sub.toNat e.val := by
  let s0 : State := { s with dict := { s.dict with lastSeq := e.seq, lastTag := e.tag, lastObj := BitVec.ofNat 32 (e.idx.toNat * 256 + e.sub.toNat) } }
  let s1 : State := (if e.idx.toNat = 0x6012 then s0.clockView else s0).putParam e.idx.toNat e.sub.toNat none e.val
  have hview : Touches [.time] s0 (if e.idx.toNat = 0x6012 then s0.clockView else s0) := .ite (Touches.refl s0).clockView (.refl s0)
  have happly : (s.apply e).dict = s1.dict := by
    unfold State.apply
    dsimp only
    rw [hfind, hrow]
    dsimp only
    rw [if_neg (by rw [hclass]; decide)]
    split
    · rfl
    · exact writtenPlain_dict s1 s0 ..
  have hdict : (if e.idx.toNat = 0x6012 then s0.clockView else s0).dict = s0.dict := hview.same .dict
  have hboot : (if e.idx.toNat = 0x6012 then s0.clockView else s0).boot = s0.boot := hview.same .boot
  have hdefault : dfltV (if e.idx.toNat = 0x6012 then s0.clockView else s0) e.idx.toNat e.sub.toNat = dfltV s e.idx.toNat e.sub.toNat := by
    unfold dfltV
    rw [hboot]
  have hs1 : s1.dict = { s0.dict with params := putValue s e.idx.toNat e.sub.toNat e.val } := by
    show ({ (if e.idx.toNat = 0x6012 then s0.clockView else s0).dict with params := if e.val = dfltV _ _ _ then _ else _ } : Dict) = _
    rw [hdefault, hdict]
    rfl
  rw [happly, hs1]
  exact ⟨rfl, rfl, rfl⟩

/-- What is put is what the dictionary then holds. -/
theorem storedV_of_put (s t : State) (idx sub : Nat) (v : PVal) (hwf : tabWf s.dict.params = true) (hboot : t.boot = s.boot)
    (hparams : t.dict.params = putValue s idx sub v) : storedV t idx sub = v := by
  have hdefault : dfltV t idx sub = dfltV s idx sub := by
    unfold dfltV
    rw [hboot]
  unfold storedV
  rw [hparams, hdefault]
  unfold putValue
  split
  next hv => rw [look_del_same _ _ hwf, hv, Option.getD_none]
  next => rw [look_put_same, Option.getD_some]

/-- With no record open none closes. -/
theorem closeDue_none (s : State) (h : s.dict.openRec = none) : s.closeDue = s := by
  unfold State.closeDue
  rw [h]
  split
  next hsome => exact nomatch hsome
  next => rfl

/-- A commit with three copies runs the record's entries. -/
theorem journalCommit_runs {s : State} {r : JRecord} {rest : List JRecord} (hawake : asleep s = false) (hwaiting : s.dict.waiting = r :: rest)
    (hwritable : s.store.readOnly = false) :
    exec (.journalCommit 3) s = .next ((State.commit { s with dict := { s.dict with waiting := rest } } r).settleDict.closeDue.takeHeads) := by
  refine (awake_of hawake _).trans ?_
  rw [hwaiting]
  exact congrArg (fun u : State => Host.Outcome.next u.settleDict.closeDue.takeHeads) (if_neg (Bool.eq_false_iff.1 hwritable))

theorem journalCommit_stores (s : State) (r : JRecord) (e : JEntry) (o : Obj) (hawake : asleep s = false) (hwaiting : s.dict.waiting = [r])
    (hopen : s.dict.openRec = none) (hwritable : s.store.readOnly = false) (hentry : r.entries = [e]) (hwf : tabWf s.dict.params = true)
    (hfind : findObj e.idx.toNat e.sub.toNat = some o) (hclass : o.cls = .rwp) (hrow : e.row = none) :
    does (.journalCommit 3) s fun t =>
      storedV t e.idx.toNat e.sub.toNat = e.val ∧ t.dict.lastTag = e.tag ∧ t.dict.waiting = [] := by
  let s0 : State := { s with dict := { s.dict with waiting := [] } }
  obtain ⟨q, hnumber⟩ := number_single s0.pair.epoch s0.store.nextSeq s0.store.nextLocal e
  have hentries : numberedEntries s0 r = [{ e with seq := q }] := by
    unfold numberedEntries
    rw [hentry]
    exact hnumber
  obtain ⟨hanswers, hkept⟩ := commit_answers s0 r
  rw [hentries] at hanswers hkept
  obtain ⟨htag, hnone, hparams⟩ := apply_plain (recorded s0 r) { e with seq := q } o hfind hclass hrow
  have hring := SameRing.apply (recorded s0 r) { e with seq := q }
  have hsettled : Answering ((recorded s0 r).apply { e with seq := q }) (s0.commit r).settleDict := hanswers.settleDict
  have hheads : Touches [.encs, .pair] (s0.commit r).settleDict ((s0.commit r).settleDict.closeDue.takeHeads) := by
    rw [closeDue_none _ ((hsettled.openRec.trans hnone).trans hopen)]
    exact (Touches.refl _).takeHeads
  have hdict : ((s0.commit r).settleDict.closeDue.takeHeads).dict = (s0.commit r).settleDict.dict := hheads.same .dict
  have happlied : Touches [.clk, .pins, .store, .dict, .paths, .tiles, .encs, .batten, .pool, .decs, .selv, .trans, .time, .intc, .bpm, .mem, .faults, .pair, .out]
      (recorded s0 r) ((recorded s0 r).apply { e with seq := q }) := (Touches.refl _).apply
  have hsettle : Touches [.clk, .dict, .paths, .bar2, .intc, .out] (s0.commit r) (s0.commit r).settleDict := (Touches.refl _).settleDict
  have hboot : ((s0.commit r).settleDict.closeDue.takeHeads).boot = (recorded s0 r).boot :=
    (((hheads.same .boot).trans (hsettle.same .boot)).trans (hkept.same .boot)).trans (happlied.same .boot)
  refine ⟨_, journalCommit_runs hawake hwaiting hwritable, ?_, ?_, ?_⟩
  · exact storedV_of_put (recorded s0 r) _ _ _ _ hwf hboot ((congrArg Dict.params hdict).trans (hsettled.params.trans hparams))
  · exact (congrArg Dict.lastTag hdict).trans (hsettled.lastTag.trans htag)
  · exact (congrArg Dict.waiting hdict).trans (hsettled.waiting.trans hring.waiting)

/-! ### A commit that fails -/

/-- The store turns read-only when the last spare is gone, and nothing else of it but the path's counters changes. -/
theorem retireBlock_noSpare (s : State) (l : Nat) (hspares : s.store.spares = 0) (hwritable : s.store.readOnly = false) :
    (s.retireBlock l).store.readOnly = true ∧ (s.retireBlock l).store.journal = s.store.journal ∧ (s.retireBlock l).store.image = s.store.image := by
  have hretire : s.retireBlock l = State.contained { s with store := { s.store with readOnly := true } } 0x0C .write mStore 0 := by
    unfold State.retireBlock
    dsimp only
    rw [hspares, hwritable]
    rfl
  obtain ⟨_, _, hstore⟩ := contained_store { s with store := { s.store with readOnly := true } } 0x0C .write mStore 0
  rw [hretire, hstore]
  exact ⟨rfl, rfl, rfl⟩

/-- A failed commit ends its operations, and of the store changes the flash slots alone. -/
theorem commitFails_store (s : State) (r : JRecord) :
    (s.commitFails r).store.readOnly = s.store.readOnly ∧ (s.commitFails r).store.journal = s.store.journal ∧ (s.commitFails r).store.image = s.store.image := by
  have hends : ∀ u : State, (r.entries.foldl (fun s e => s.endOp e.req e.op stStoreFault) u).store = u.store := fun u =>
    (Touches.foldl (l := [.dict]) (.refl u) fun _ _ hu => hu.endOp).same .store
  unfold State.commitFails
  dsimp only
  rw [hends]
  split
  · split
    · exact ⟨rfl, rfl, rfl⟩
    · exact ⟨rfl, rfl, rfl⟩
  · exact ⟨rfl, rfl, rfl⟩

theorem journalCommit_fails (s : State) (r : JRecord) (rest : List JRecord) (c : Fin 4) (hawake : asleep s = false)
    (hwaiting : s.dict.waiting = r :: rest) (hcopies : c.val < 3) (hspares : s.store.spares = 0) (hwritable : s.store.readOnly = false) :
    does (.journalCommit c) s fun t =>
      t.store.readOnly = true ∧ t.store.journal = s.store.journal ∧ t.store.image = s.store.image := by
  let s0 : State := { s with dict := { s.dict with waiting := rest } }
  let s1 := s0.retireBlock (journalBlock (s.store.nextSeq + s.store.nextLocal) c.val)
  obtain ⟨hreadOnly, hjournal, himage⟩ := retireBlock_noSpare s0 (journalBlock (s.store.nextSeq + s.store.nextLocal) c.val) hspares hwritable
  obtain ⟨hreadOnly', hjournal', himage'⟩ := commitFails_store s1 r
  have hexec : exec (.journalCommit c) s = .next ((s1.commitFails r).settleDict.closeDue.takeHeads) := by
    refine (awake_of hawake _).trans ?_
    rw [hwaiting]
    dsimp only
    rw [if_pos hcopies, if_pos hreadOnly]
  have hrest : Touches [.clk, .dict, .paths, .bar2, .intc, .out, .encs, .pair] (s1.commitFails r) ((s1.commitFails r).settleDict.closeDue.takeHeads) :=
    (Touches.refl _).settleDict.closeDue.takeHeads
  have hstore : ((s1.commitFails r).settleDict.closeDue.takeHeads).store = (s1.commitFails r).store := hrest.same .store
  refine ⟨_, hexec, ?_, ?_, ?_⟩
  · exact (congrArg Store.readOnly hstore).trans (hreadOnly'.trans hreadOnly)
  · exact (congrArg Store.journal hstore).trans (hjournal'.trans hjournal)
  · exact (congrArg Store.image hstore).trans (himage'.trans himage)

/-! ### PARAMETER_IMAGE_WRITE and WEAR_LEVELLER_COPY -/

theorem blockWrite_spares (st : Store) (l : Nat) : (st.blockWrite l).spares = st.spares := by
  obtain ⟨_, _, _, h⟩ := blockWrite_frame st l
  rw [h]

theorem blockWrite_readOnly (st : Store) (l : Nat) : (st.blockWrite l).readOnly = st.readOnly := by
  obtain ⟨_, _, _, h⟩ := blockWrite_frame st l
  rw [h]

/-- Retired blocks change the store alone, and take as many spares, while there are enough. -/
theorem retireBlocks_spared (s : State) (bad : List Nat) (h : bad.length ≤ s.store.spares) :
    ∃ st : Store, bad.foldl (fun s l => s.retireBlock (905 + l % 3191)) s = { s with store := st } ∧ st.journal = s.store.journal ∧
      st.image = s.store.image ∧ st.spares = s.store.spares - bad.length ∧ st.readOnly = s.store.readOnly := by
  induction bad generalizing s with
  | nil => exact ⟨s.store, rfl, rfl, rfl, rfl, rfl⟩
  | cons l r ih =>
    rw [List.length_cons] at h
    have hspare : 0 < s.store.spares := by omega
    let st1 : Store := Store.blockWrite { s.store with
      spares := s.store.spares - 1, blocksRetired := s.store.blocksRetired + 1, dead := physBlock s.store (905 + l % 3191) :: s.store.dead } (905 + l % 3191)
    have hretire : s.retireBlock (905 + l % 3191) = { s with store := st1 } := if_pos hspare
    have hspares : st1.spares = s.store.spares - 1 := blockWrite_spares ..
    have hrest : r.length ≤ st1.spares := by omega
    obtain ⟨st, hfold, hjournal, himage, hleft, hreadOnly⟩ := ih { s with store := st1 } hrest
    refine ⟨st, ?_, ?_, ?_, ?_, ?_⟩
    · rw [List.foldl_cons, hretire, hfold]
    · exact hjournal.trans (blockWrite_journal ..)
    · exact himage.trans (blockWrite_image ..)
    · rw [hleft, List.length_cons]
      show st1.spares - r.length = _
      omega
    · exact hreadOnly.trans (blockWrite_readOnly ..)

/-- The blocks of the image are written. -/
def imageBlocks (st : Store) (l : List JEntry) : Store := l.foldl (fun st e => st.blockWrite (905 + entryKey e % 3191)) st

theorem imageBlocks_kept (st : Store) (l : List JEntry) : (imageBlocks st l).image = st.image ∧ (imageBlocks st l).spares = st.spares := by
  unfold imageBlocks
  induction l generalizing st with
  | nil => exact ⟨rfl, rfl⟩
  | cons e r ih =>
    obtain ⟨himage, hspares⟩ := ih (st.blockWrite (905 + entryKey e % 3191))
    exact ⟨himage.trans (blockWrite_image ..), hspares.trans (blockWrite_spares ..)⟩

theorem readOnly_of_open {s : State} (h : storeOpen s = true) : s.store.readOnly = false := by
  rw [storeOpen, Bool.and_eq_true, Bool.not_eq_true'] at h
  exact h.1

theorem parameterImageWrite_moves (s : State) (r : JRecord) (rest : List JRecord) (bad : List Nat) (hawake : asleep s = false)
    (hjournal : s.store.journal = r :: rest) (hopen : storeOpen s = true) (hmay : mayReclaim s r = true)
    (hbad : bad.length ≤ s.store.spares) :
    does (.parameterImageWrite bad) s fun t =>
      t.store.journal = rest ∧ t.store.image = imageOf s.store.image r.entries ∧ t.store.spares = s.store.spares - bad.length ∧ t = { s with store := t.store } := by
  obtain ⟨st, hretired, _, himage, hspares, hreadOnly⟩ := retireBlocks_spared s bad hbad
  let st2 : Store := { imageBlocks st r.entries with image := imageOf (imageBlocks st r.entries).image r.entries, journal := rest }
  have hexec : exec (.parameterImageWrite bad) s = .next { s with store := st2 } := by
    refine (awake_of hawake _).trans ?_
    rw [hjournal]
    dsimp only
    rw [if_neg (by rw [hopen, hmay]; decide), hretired, if_neg (Bool.eq_false_iff.1 (hreadOnly.trans (readOnly_of_open hopen)))]
    rfl
  obtain ⟨hkeptImage, hkeptSpares⟩ := imageBlocks_kept st r.entries
  refine ⟨_, hexec, rfl, ?_, ?_, rfl⟩
  · show imageOf (imageBlocks st r.entries).image r.entries = _
    rw [hkeptImage, himage]
  · exact hkeptSpares.trans hspares

theorem wearLevellerCopy_levels (s : State) (hawake : asleep s = false) (hdue : 65536 ≤ s.store.sinceLevel) (hopen : storeOpen s = true) :
    does (.wearLevellerCopy) s fun t =>
      t.store.sinceLevel = 0 ∧ t.store.journal = s.store.journal ∧ t.store.image = s.store.image ∧ t.store.spares = s.store.spares ∧ t = { s with store := t.store } := by
  have hgo : ¬ (s.store.sinceLevel < 65536 ∨ storeOpen s = false) := by
    rintro (hearly | hshut)
    · exact absurd hearly (Nat.not_lt.2 hdue)
    · exact absurd (hopen.symm.trans hshut) (by decide)
  unfold does
  rw [show exec .wearLevellerCopy s = _ from (awake_of hawake _).trans (if_neg hgo)]
  dsimp only
  split
  · exact ⟨_, rfl, rfl, rfl, rfl, rfl, rfl⟩
  · exact ⟨_, rfl, rfl, rfl, rfl, rfl, rfl⟩

/-- Settles O10: a commit puts the record behind the journal and applies its entries, which leaves journal, image and waiting records alone
(`SameRing`); what follows are answers. -/
theorem journalCommitAndImage : Obligations.JournalCommitAndImage :=
  ⟨journalRecordClose_closes, journalCommit_commits, journalCommit_stores, journalCommit_fails, parameterImageWrite_moves, wearLevellerCopy_levels⟩

end Sys2Proof.Proofs
end

section
/-! PROOFS. Booting from the host and programming a firmware slot (O4). -/

open Sys2Proof Sys2Proof.Machine

-- One proof at a time: a thread for each proof would pass the limit that the check sets to memory.
set_option Elab.async false

namespace Sys2Proof.Proofs

/-! ### The boot window -/

theorem bootGo_remembered (s : State) (m : Master) (hawake : asleep s = false) (hstate : s.boot.bootState = 0 ∨ s.boot.bootState = 3)
    (hundecided : s.boot.decided = false) (hm : masterOk m = true) :
    does (.bootGo m) s fun t =>
      t = { s with boot := { s.boot with go := true }, dev := { s.dev with armed := s.dev.armed.filter (· ≠ m) } } := by
  have hopen : ¬ (s.boot.bootState ≠ 0 ∧ s.boot.bootState ≠ 3) := fun h => hstate.elim h.1 h.2
  exact ⟨_, (issuedBy_of hawake hm _).trans (congrArg Host.Outcome.next ((if_neg hopen).trans (if_neg (Bool.eq_false_iff.1 hundecided)))), rfl⟩

/-- A window whose header fails ends the check with state 3. -/
theorem checkWindow_badHeader (s : State) (h : headerOk (bytesAt s.boot.window 0 64) = false) :
    s.checkWindow = { s with boot := { s.boot with go := false, bootState := 3, imageBad := true } } := by
  have hinvalid : imageValid (bytesAt s.boot.window 0 64) = false := by
    rw [imageValid, h]
    rfl
  unfold State.checkWindow
  dsimp only
  rw [if_neg (Bool.eq_false_iff.1 h), if_neg (Bool.eq_false_iff.1 hinvalid)]

theorem bootGo_badHeader (s : State) (m : Master) (hawake : asleep s = false) (hstate : s.boot.bootState = 0 ∨ s.boot.bootState = 3)
    (hdecided : s.boot.decided = true) (hheader : headerOk (bytesAt s.boot.window 0 64) = false) (hm : masterOk m = true) :
    does (.bootGo m) s fun t =>
      t.boot.bootState = 3 ∧ t.boot.imageBad = true ∧ t.boot.running = s.boot.running := by
  have hopen : ¬ (s.boot.bootState ≠ 0 ∧ s.boot.bootState ≠ 3) := fun h => hstate.elim h.1 h.2
  have hgo : (s.disarm m).bootGo = (s.disarm m).checkWindow := (if_neg hopen).trans (if_pos hdecided)
  refine ⟨_, (issuedBy_of hawake hm _).trans (congrArg Host.Outcome.next (hgo.trans (checkWindow_badHeader (s.disarm m) hheader))), rfl, rfl, rfl⟩

theorem bootWindowWrite_stores (s : State) (m : Master) (off : BitVec 21) (data : Bytes) (hawake : asleep s = false)
    (hstate : s.boot.bootState = 0 ∨ s.boot.bootState = 3) (hfits : off.toNat + data.length ≤ 2097152) (hm : masterOk m = true) :
    does (.bootWindowWrite m off data) s fun t =>
      t = { s with boot := { s.boot with window := setBytes s.boot.window off.toNat data } } := by
  refine ⟨_, (awake_of hawake _).trans ((if_pos ?_).trans (congrArg Host.Outcome.next (if_pos hstate))), rfl⟩
  simp [Instr.wellFormed, Instr.masters, hm, hfits]

theorem bootWindowWrite_shut (s : State) (m : Master) (off : BitVec 21) (data : Bytes) (hawake : asleep s = false)
    (hnot0 : s.boot.bootState ≠ 0) (hnot3 : s.boot.bootState ≠ 3) (hfits : off.toNat + data.length ≤ 2097152) (hm : masterOk m = true) :
    does (.bootWindowWrite m off data) s fun t =>
      t.boot.window = s.boot.window ∧ t.dev.lockViol = sat32 s.dev.lockViol ∧ t.faults.valid = true := by
  have hshut : ¬ (s.boot.bootState = 0 ∨ s.boot.bootState = 3) := fun h => h.elim hnot0 hnot3
  let s0 : State := { s with dev := { s.dev with lockViol := sat32 s.dev.lockViol } }
  have hwrite : s.windowWrite m off.toNat data = s0.contained 0x03 .write m (bar0Addr (0x200000 + off.toNat)) := if_neg hshut
  have hkept : Touches faultParts s0 (s0.contained 0x03 .write m (bar0Addr (0x200000 + off.toNat))) := (Touches.refl s0).contained
  refine ⟨_, (awake_of hawake _).trans ((if_pos ?_).trans (congrArg Host.Outcome.next hwrite)), ?_, ?_, contained_valid ..⟩
  · simp [Instr.wellFormed, Instr.masters, hm, hfits]
  · exact congrArg Boot.window (hkept.same .boot)
  · exact congrArg DevRegs.lockViol (hkept.same .dev)

/-! ### BOOT_COMPLETE -/

theorem bootComplete_stops (s : State) (d : Nat) (hawake : asleep s = false) (hact : (s.takeAct 0x2011 0).isSome = true)
    (hwatch : s.boot.watchdog = some d) :
    does (.bootComplete) s fun t =>
      t.boot = { s.boot with watchdog := none } ∧ t.store = (if storeShut s then s.store else { s.store with failed := 0 }) ∧ t = { s with boot := t.boot, store := t.store, dict := t.dict } := by
  obtain ⟨a, acts, htake⟩ := exists_takeAct hact
  have hexec : exec .bootComplete s = .next { s with
      dict := { s.dict with acts := acts }
      boot := { s.boot with watchdog := none }
      store := if storeShut s then s.store else { s.store with failed := 0 } } := by
    refine (awake_of hawake _).trans ?_
    rw [htake]
    exact if_pos (by rw [hwatch]; rfl)
  exact ⟨_, hexec, rfl, rfl, rfl⟩

/-! ### An image that is written to a slot -/

/-- The object of the firmware slots. -/
def slotObj : Obj := ⟨0x2020, 0x2020, 1, 2, .dom 2097152, .act, .bytes [], .any⟩

/-- The final write of a slot's image. -/
def slotWrite (b : Bool) (data : Bytes) : DOp := { code := 3, idx := 0x2020, sub := if b then 2 else 1, data := data }

theorem findObj_slot (b : Bool) : findObj 0x2020 (if b then 2 else 1) = some slotObj := by
  cases b
  · decide
  · decide

/-- The final write of a slot names its object, which has no row. -/
theorem locate_slotWrite (s : State) (se : Session) (b : Bool) (data : Bytes) : locate s se (slotWrite b data) = .ok (slotObj, none) := by
  have hindex : hasIndex 0x2020 = true := by decide
  have hrow : rowAt s se (slotWrite b data) = .ok none := by
    unfold rowAt
    rw [show rowsOf (slotWrite b data).idx = none from (by decide : rowsOf 0x2020 = none)]
  have hnewt : (s.boot.newt && notInNewt 0x2020 && ((slotWrite b data).code == 1 || slotObj.cls != .rwp)) = false := by
    rw [show notInNewt 0x2020 = false by decide, Bool.and_false, Bool.false_and]
  unfold locate
  rw [hrow, show (slotWrite b data).idx = 0x2020 from rfl, show findObj 0x2020 (slotWrite b data).sub = some slotObj from findObj_slot b, hindex]
  dsimp only
  rw [hnewt]
  rfl

/-- A request that only a write keeps waiting is not answered. -/
theorem settleDict_waits (s : State) (r : Req) (o : ReqOp) (hreqs : s.dict.reqs = [r]) (hops : r.ops = [o]) (hwrite : o.code ≠ 1)
    (hwaits : o.status = none) : s.settleDict = s := by
  have hfound : s.req r.id = some r := by
    unfold State.req
    rw [hreqs]
    simp
  have hreads : s.answerReads = s := by
    unfold State.answerReads
    rw [hreqs]
    dsimp only
    rw [List.flatMap_singleton, hops]
    show (match s.req r.id with | none => s | some r => _) = s
    rw [hfound]
    dsimp only
    rw [hops]
    exact if_neg (by rw [beq_eq_false_iff_ne.2 hwrite, Bool.false_and, Bool.false_and]; decide)
  unfold State.settleDict State.finishAll
  rw [hreads, hreqs]
  show s.finish r.id = s
  unfold State.finish
  rw [hfound]
  dsimp only
  rw [hops]
  exact if_neg (by simp [hwaits])

/-- An entry of a slot's image is short: it holds the image's length and its CRC. -/
theorem recordSize_slot (e : JEntry) (hidx : e.idx = 0x2020) (hsub : e.sub = 1 ∨ e.sub = 2) : recordSize [e] = 60 := by
  have hfind : findObj e.idx.toNat e.sub.toNat = some slotObj := by
    rw [hidx]
    obtain h | h := hsub
    · rw [h]
      exact findObj_slot false
    · rw [h]
      exact findObj_slot true
  have hvalue : (entryValue e).length = 8 := by
    unfold entryValue
    rw [hfind]
    simp [slotObj, Ty.isDom]
  simp [recordSize, journalEntry, hvalue, padTo, sumNat, zeros]

/-- An entry that finds no record open opens one. -/
theorem enter_opens (s : State) (e : JEntry) (hopen : s.dict.openRec = none) (hsize : recordSize [e] < 4096) :
    s.enter [e] = { s with dict := { s.dict with openRec := some { openedAt := s.clk.now, entries := [e] } } } := by
  unfold State.enter
  rw [hopen]
  dsimp only
  rw [if_pos rfl, hopen]
  exact if_neg (Nat.not_le.2 hsize)

/-- On an idle server the image's entry opens a record, and its programming is queued. -/
theorem accept_slotWrite (s : State) (r : Req) (b : Bool) (data : Bytes) (v : PVal) (hjournal : s.store.journal = []) (hwaiting : s.dict.waiting = [])
    (hopen : s.dict.openRec = none) :
    ∃ st : Store, s.accept r 0 (slotWrite b data) none v = { s with
      store := st
      dict := { s.dict with openRec := some { openedAt := s.clk.now, entries := [entryOf s r 0 (slotWrite b data) none v] } }
      boot := { s.boot with slots := s.boot.slots ++ [⟨r.id, 0, b, slotOffset s b, v.raw⟩] } } := by
  let e := entryOf s r 0 (slotWrite b data) none v
  have hsub : e.sub = 1 ∨ e.sub = 2 := by
    cases b
    · exact .inl rfl
    · exact .inr rfl
  have hsize : recordSize [e] = 60 := recordSize_slot e rfl hsub
  have henter := enter_opens s e hopen (by rw [hsize]; decide)
  have hroom : ringRoom s [e] = true := by
    unfold ringRoom ringUsed
    rw [henter, decide_eq_true_iff]
    dsimp only
    rw [hjournal, hwaiting]
    simp only [List.append_nil, List.nil_append, Option.toList_some, List.map_cons, List.map_nil, hsize]
    decide
  have hslot : ((slotWrite b data).sub == 2) = b := by
    cases b
    · rfl
    · rfl
  unfold State.accept
  dsimp only
  rw [if_neg (by rw [hroom]; decide), if_pos (show (slotWrite b data).idx = 0x2020 from rfl), henter, hslot]
  split
  · exact ⟨_, rfl⟩
  · exact ⟨_, rfl⟩

/-- A whole valid image that fits its slot is accepted. -/
theorem writeOp_slotWrite (s : State) (r : Req) (b : Bool) (data : Bytes) (hwarning : s.boot.warning = false) (hrole : s.pair.role = .standalone)
    (hwritable : s.store.readOnly = false) (hvalid : firmwareOk data = true) (hfits : data.length ≤ slotSpace s b) :
    s.writeOp r 0 (slotWrite b data) slotObj none =
      (s.setSess r.se { s.sess r.se with stage := del (s.sess r.se).stage (stageKey (slotWrite b data)) }).accept r 0 (slotWrite b data) none (.bytes data) := by
  let s1 := s.setSess r.se { s.sess r.se with stage := del (s.sess r.se).stage (stageKey (slotWrite b data)) }
  have hlength : data.length ≤ 2097152 := by
    simp only [firmwareOk, imageValid, headerOk, Bool.and_eq_true, decide_eq_true_eq] at hvalid
    omega
  have hdecode : decodeVal slotObj data = .ok (.bytes data) := if_pos hlength
  have hrelays : relays s 0x2020 (slotWrite b data).sub = false := by
    unfold relays
    rw [hrole]
    rfl
  have hslot : ((slotWrite b data).sub == 2) = b := by
    cases b
    · rfl
    · rfl
  have hcheck : domainCheck s1 0x2020 (slotWrite b data).sub data = stOk := by
    show (if !(firmwareOk data) then stDomainInvalid else if slotSpace s ((slotWrite b data).sub == 2) < data.length then stLength else stOk) = stOk
    rw [hvalid, hslot]
    exact if_neg (Nat.not_lt.2 hfits)
  have hjudge : judgeWrite s1 (ahead s1) slotObj 0x2020 (slotWrite b data).sub none (.bytes data) = stOk := by
    show (if domainCheck s1 0x2020 (slotWrite b data).sub data ≠ stOk then domainCheck s1 0x2020 (slotWrite b data).sub data
      else if s.store.readOnly then stStoreFault else if _ then stStoreFault else stOk) = stOk
    rw [hcheck, hwritable]
    rfl
  unfold State.writeOp
  rw [if_neg (Bool.eq_false_iff.1 hwarning), if_neg (by decide), if_pos (by decide)]
  rw [show staged s r.se (slotWrite b data) = .ok data from rfl]
  dsimp only
  rw [hdecode]
  dsimp only
  rw [if_neg (show ¬ (slotWrite b data).code = 2 from (by decide : ¬ 3 = 2)), if_neg (by rw [show (slotWrite b data).idx = 0x2020 from rfl, hrelays]; decide)]
  exact if_neg (not_not.2 hjudge)

/-- Using a session changes the paths, and of the dictionary the sessions. -/
theorem useSession_frame (s : State) (se : Session) : ∃ p l, s.useSession se = { s with paths := p, dict := { s.dict with sess := l } } := by
  have hevict : ∃ p l, s.evict = { s with paths := p, dict := { s.dict with sess := l } } := by
    unfold State.evict
    split
    · exact ⟨s.paths, s.dict.sess, rfl⟩
    · split
      · exact ⟨s.paths, s.dict.sess, rfl⟩
      · exact ⟨_, _, rfl⟩
  unfold State.useSession
  split
  · split
    · exact ⟨_, s.dict.sess, rfl⟩
    · obtain ⟨p, l, h⟩ := hevict
      rw [h]
      exact ⟨_, l, rfl⟩
  · exact ⟨s.paths, s.dict.sess, rfl⟩

/-- A slot's image that arrives at an idle server. -/
theorem arrive_slotWrite (s : State) (se : Session) (tag : BitVec 8) (b : Bool) (data : Bytes) (hselv : s.boot.selvedge = true) (hwarning : s.boot.warning = false)
    (hrole : s.pair.role = .standalone) (hreqs : s.dict.reqs = []) (hopen : s.dict.openRec = none) (hwaiting : s.dict.waiting = [])
    (hjournal : s.store.journal = []) (hwritable : s.store.readOnly = false) (hvalid : firmwareOk data = true) (hfits : data.length ≤ slotSpace s b) :
    (s.arrive se tag .none false [slotWrite b data]).boot.slots = s.boot.slots ++ [⟨s.dict.nextReq, 0, b, slotOffset s b, data⟩] ∧
      ((s.arrive se tag .none false [slotWrite b data]).dict.openRec.map fun r => r.entries.map fun e => (e.idx, e.sub, e.val)) =
        some [(0x2020, if b then 2 else 1, .bytes data)] ∧ (s.arrive se tag .none false [slotWrite b data]).out = s.out := by
  let r : Req := ⟨s.dict.nextReq, se, tag, .none, [(slotWrite b data).slot none]⟩
  let s1 : State := { s with dict := { s.dict with nextReq := s.dict.nextReq + 1, reqs := [r] } }
  let s2 := s1.markRow s.dict.nextReq 0 none
  have hfound : s1.req s.dict.nextReq = some r := by
    show [r].find? (fun q => q.id == s.dict.nextReq) = some r
    simp [r]
  have hmarked : s2.dict.reqs = [{ r with ops := [{ (slotWrite b data).slot none with row := none }] }] := by
    show [r].map _ = _
    simp [r]
  let s3 := s2.setSess se { s2.sess se with stage := del (s2.sess se).stage (stageKey (slotWrite b data)) }
  obtain ⟨st, haccept⟩ := accept_slotWrite s3 r b data (.bytes data) hjournal hwaiting hopen
  have hissue : s1.issue s.dict.nextReq 0 (slotWrite b data) = s3.accept r 0 (slotWrite b data) none (.bytes data) := by
    unfold State.issue
    rw [hfound]
    dsimp only
    rw [show cursorRows (slotWrite b data).idx = none from (by decide : cursorRows 0x2020 = none)]
    dsimp only
    rw [locate_slotWrite]
    exact (if_neg (show ¬ (3 = 1) by decide)).trans (writeOp_slotWrite s2 r b data hwarning hrole hwritable hvalid hfits)
  have harrive : s.arrive se tag .none false [slotWrite b data] = s3.accept r 0 (slotWrite b data) none (.bytes data) := by
    unfold State.arrive
    dsimp only
    rw [if_neg (by rw [hselv]; decide), if_neg (by rw [hreqs]; decide)]
    rw [hreqs]
    show (s1.issue s.dict.nextReq 0 (slotWrite b data)).settleDict = _
    rw [hissue, haccept]
    exact settleDict_waits _ _ _ hmarked rfl (show (3 : BitVec 8) ≠ 1 by decide) rfl
  rw [harrive, haccept]
  refine ⟨rfl, ?_, rfl⟩
  cases b
  · rfl
  · rfl

theorem firmwareSlotWrite_queues (s : State) (se : Session) (b : Bool) (data : Bytes) (hidle : dictIdle s) (hjournal : s.store.journal = [])
    (hwritable : s.store.readOnly = false) :
    does (.firmwareSlotWrite se b 0 data) s fun t =>
      firmwareOk data = true → data.length ≤ slotSpace s b → t.boot.slots = s.boot.slots ++ [⟨s.dict.nextReq, 0, b, slotOffset s b, data⟩] ∧ (t.dict.openRec.map fun r => r.entries.map fun e => (e.idx, e.sub, e.val)) = some [(0x2020, if b then 2 else 1, .bytes data)] ∧ t.out = s.out := by
  obtain ⟨hawake, hselv, _, hwarning, hrole, hreqs, hopen, hwaiting, _, _, _⟩ := hidle
  obtain ⟨p, l, huse⟩ := useSession_frame s se
  refine ⟨_, (awake_of hawake _).trans (congrArg Host.Outcome.next (if_pos hselv)), fun hvalid hfits => ?_⟩
  rw [huse]
  exact arrive_slotWrite { s with paths := p, dict := { s.dict with sess := l } } se _ b data hselv hwarning hrole hreqs hopen hwaiting hjournal hwritable
    hvalid hfits

/-! ### The end of a programming -/

theorem firmwareSlotVerified_programs (s : State) (p : SlotProgram) (hawake : asleep s = false) (hslots : s.boot.slots = [p])
    (hcommitted : (pendingEntries s).any (fun e => e.req == p.req && e.op == p.op) = false) :
    does (.firmwareSlotVerified true) s fun t =>
      t.boot.slots = [] ∧ t.store = (s.store.program p.off p.image).setEntry p.slotB p.off := by
  let s1 : State := { s with boot := { s.boot with slots := [] }, store := (s.store.program p.off p.image).setEntry p.slotB p.off }
  have hexec : exec (.firmwareSlotVerified true) s = .next ((s1.endOp p.req p.op stOk).settleDict) := by
    refine (awake_of hawake _).trans ?_
    rw [hslots]
    exact if_neg (Bool.eq_false_iff.1 hcommitted)
  have hkept : Touches [.clk, .dict, .paths, .bar2, .intc, .out] s1 ((s1.endOp p.req p.op stOk).settleDict) := (Touches.refl s1).endOp.settleDict
  exact ⟨_, hexec, congrArg Boot.slots (hkept.same .boot), hkept.same .store⟩

theorem firmwareSlotVerified_fails (s : State) (p : SlotProgram) (hawake : asleep s = false) (hslots : s.boot.slots = [p])
    (hcommitted : (pendingEntries s).any (fun e => e.req == p.req && e.op == p.op) = false) :
    does (.firmwareSlotVerified false) s fun t =>
      t.boot.slots = [] ∧ t.store = s.store := by
  let s1 : State := { s with boot := { s.boot with slots := [] } }
  have hexec : exec (.firmwareSlotVerified false) s = .next ((s1.endOp p.req p.op stStoreFault).settleDict) := by
    refine (awake_of hawake _).trans ?_
    rw [hslots]
    exact if_neg (Bool.eq_false_iff.1 hcommitted)
  have hkept : Touches [.clk, .dict, .paths, .bar2, .intc, .out] s1 ((s1.endOp p.req p.op stStoreFault).settleDict) := (Touches.refl s1).endOp.settleDict
  exact ⟨_, hexec, congrArg Boot.slots (hkept.same .boot), hkept.same .store⟩

/-- Settles O4: a slot's image passes the checks of an idle server and opens a record; the boot window's commands are their own branches. -/
theorem bootFromHostAndFlash : Obligations.BootFromHostAndFlash :=
  ⟨bootGo_remembered, bootGo_badHeader, bootWindowWrite_stores, bootWindowWrite_shut, bootComplete_stops, firmwareSlotWrite_queues,
    firmwareSlotVerified_programs, firmwareSlotVerified_fails⟩

end Sys2Proof.Proofs
end

section
/-! PROOFS. Registers: writes and reads of any, and the 64-bit pairs (O13, O14). -/

open Sys2Proof Sys2Proof.Machine

-- One proof at a time: a thread for each proof would pass the limit that the check sets to memory.
set_option Elab.async false

namespace Sys2Proof.Proofs

/-! ### Writes and reads of any register -/

theorem registerWrite_scratch (s : State) (m : Master) (v : Word) (hawake : asleep s = false) (hm : masterOk m = true) :
    does (.registerWrite m .bar0 4 0xF v {}) s fun t =>
      t = { s with dev := { s.dev with scratch := v, armed := s.dev.armed.filter (· ≠ m) } } := by
  have hwrite : s.regWrite m .bar0 4 0xF v {} = { s with dev := { s.dev with scratch := v, armed := s.dev.armed.filter (· ≠ m) } } := by
    unfold State.regWrite
    rw [if_neg (by decide), if_neg (by decide)]
    rfl
  exact ⟨_, (issuedBy_of hawake hm _).trans (congrArg Host.Outcome.next hwrite), rfl⟩

theorem registerWrite_partial (s : State) (m : Master) (v : Word) (be : BitVec 4) (hawake : asleep s = false) (hpartial : be ≠ 0xF)
    (hm : masterOk m = true) :
    does (.registerWrite m .bar0 4 be v {}) s fun t =>
      t.dev = { s.dev with armed := s.dev.armed.filter (· ≠ m) } ∧ t.faults.contained = sat32 s.faults.contained ∧ t.faults.valid = true ∧ (s.faults.valid = false → t.faults.kind = 0x04 ∧ t.faults.master = m ∧ t.faults.addr = 0x40000004) ∧ t.boot = s.boot ∧ t.dict = s.dict ∧ t.rings = s.rings := by
  let t := (s.disarm m).contained 0x04 .write m 0x40000004
  have hwrite : s.regWrite m .bar0 4 be v {} = t := by
    unfold State.regWrite
    rw [if_neg (by decide), if_pos hpartial]
    exact if_pos rfl
  have hkept : Touches faultParts (s.disarm m) t := (Touches.refl _).contained
  refine ⟨_, (issuedBy_of hawake hm _).trans (congrArg Host.Outcome.next hwrite), ?_, ?_, contained_valid .., ?_, ?_, ?_, ?_⟩
  · exact hkept.same .dev
  · exact (contained_counted ..).1
  · intro hfree
    obtain ⟨hkind, _, _, hmaster, haddr⟩ := contained_first (s.disarm m) 0x04 .write m 0x40000004 hfree
    exact ⟨hkind, hmaster, haddr⟩
  · exact hkept.same .boot
  · exact hkept.same .dict
  · exact hkept.same .rings

theorem registerWrite_bootByte (s : State) (m : Master) (v : Word) (hawake : asleep s = false)
    (hstate : s.boot.bootState = 0 ∨ s.boot.bootState = 3) (hm : masterOk m = true) :
    does (.registerWrite m .bar0 0x200010 0b0010 v {}) s fun t =>
      t = { s with boot := { s.boot with window := setByte s.boot.window 0x11 (v.extractLsb' 8 8) } } := by
  have hwrite : s.regWrite m .bar0 0x200010 0b0010 v {} =
      { s with boot := { s.boot with window := setByte s.boot.window 0x11 (v.extractLsb' 8 8) } } := by
    unfold State.regWrite
    rw [if_pos (by decide)]
    exact if_pos hstate
  exact ⟨_, (issuedBy_of hawake hm _).trans (congrArg Host.Outcome.next hwrite), rfl⟩

theorem registerWrite_select (s : State) (m : Master) (v : Word) (hawake : asleep s = false) (hselv : s.boot.selvedge = true)
    (hidle : s.bar2.busy = false) (hm : masterOk m = true) :
    does (.registerWrite m .bar2 0 0xF v {}) s fun t =>
      t.bar2 = { s.bar2 with index := v.extractLsb' 8 16, sub := v.extractLsb' 0 8 } ∧ t = { s with bar2 := t.bar2, dev := { s.dev with armed := s.dev.armed.filter (· ≠ m) } } := by
  have hwrite : s.regWrite m .bar2 0 0xF v {} =
      { s with bar2 := { s.bar2 with index := v.extractLsb' 8 16, sub := v.extractLsb' 0 8 }, dev := { s.dev with armed := s.dev.armed.filter (· ≠ m) } } := by
    unfold State.regWrite
    rw [if_neg (by decide), if_neg (by decide)]
    exact (if_pos hselv).trans (if_neg (Bool.eq_false_iff.1 hidle))
  exact ⟨_, (issuedBy_of hawake hm _).trans (congrArg Host.Outcome.next hwrite), rfl, rfl⟩

/-- No increment leaves a counter. -/
theorem satAdd_zero (v : Word) : satAdd v 0 = v := by
  unfold satAdd
  split
  next hmax =>
    have hlt := v.isLt
    apply BitVec.eq_of_toNat_eq
    simp at hmax ⊢
    omega
  next => exact BitVec.add_zero v

/-- Hardware's increments of the lock-violation count follow the access. -/
theorem regHw_lockViol (s : State) (hw : SameCycle) :
    s.regHw .bar0 0x14 hw = { s with dev := { s.dev with lockViol := satAdd s.dev.lockViol hw.inc } } := by
  unfold State.regHw
  split
  next h =>
    rw [h]
    exact congrArg (fun v : Word => { s with dev := { s.dev with lockViol := v } }) (satAdd_zero s.dev.lockViol).symm
  next => rfl

theorem registerWrite_lockViol (s : State) (m : Master) (v : Word) (hw : SameCycle) (hawake : asleep s = false) (hm : masterOk m = true) :
    does (.registerWrite m .bar0 0x14 0xF v hw) s fun t =>
      t.dev.lockViol = satAdd v hw.inc ∧ t = { s with dev := t.dev } := by
  have hwrite : s.regWrite m .bar0 0x14 0xF v hw = State.regHw { s with dev := { s.dev with lockViol := v, armed := s.dev.armed.filter (· ≠ m) } } .bar0 0x14 hw := by
    unfold State.regWrite
    rw [if_neg (by decide), if_neg (by decide)]
    rfl
  exact ⟨_, (issuedBy_of hawake hm _).trans (congrArg Host.Outcome.next (hwrite.trans (regHw_lockViol ..))), rfl, rfl⟩

theorem rcRead_lockViol (s : State) (m : Master) (hw : SameCycle) (hawake : asleep s = false) (hm : masterOk m = true) :
    does (.rcRead m .bar0 0x14 hw) s fun t =>
      t.out = s.out ++ [.readData m s.dev.lockViol] ∧ t.dev.lockViol = satAdd s.dev.lockViol hw.inc ∧ t = { s with dev := t.dev, out := t.out } := by
  have hread : (s.regRead m .bar0 0x14).regHw .bar0 0x14 hw = State.regHw (s.answer m s.dev.lockViol) .bar0 0x14 hw := rfl
  exact ⟨_, (issuedBy_of hawake hm _).trans (congrArg Host.Outcome.next (hread.trans (regHw_lockViol ..))), rfl, rfl, rfl⟩

/-- A submission doorbell reads as the tail of its ring. -/
theorem bar4Val_submission (s : State) (p : Fin 4096) : bar4Val s (p.val * 4096) = (s.sq p.val).tail.setWidth 32 := by
  have hp := p.isLt
  have hplace : ¬ (p.val * 4096 % 0x1000 ≠ 0 ∨ 0x1400000 ≤ p.val * 4096) := by omega
  have hsubmission : p.val * 4096 < 0x1000000 := by omega
  have hring : p.val * 4096 / 0x1000 = p.val := by omega
  unfold bar4Val
  rw [if_neg hplace, if_pos hsubmission, hring]
  simp [pack]

theorem rcRead_doorbell (s : State) (m : Master) (p : Fin 4096) (hawake : asleep s = false) (hm : masterOk m = true) :
    does (.rcRead m .bar4 (BitVec.ofNat 25 (p.val * 4096)) {}) s fun t =>
      t = { s with out := s.out ++ [.readData m ((s.sq p.val).tail.setWidth 32)] } := by
  have hp := p.isLt
  have hoff : regOff (BitVec.ofNat 25 (p.val * 4096)) = p.val * 4096 := by
    unfold regOff
    rw [BitVec.toNat_ofNat]
    omega
  have hread : (s.regRead m .bar4 (regOff (BitVec.ofNat 25 (p.val * 4096)))).regHw .bar4 (regOff (BitVec.ofNat 25 (p.val * 4096))) {} =
      s.answer m ((s.sq p.val).tail.setWidth 32) := by
    rw [hoff, ← bar4Val_submission]
    exact if_pos rfl
  exact ⟨_, (issuedBy_of hawake hm _).trans (congrArg Host.Outcome.next hread), rfl⟩

/-- Settles O13: each register is its branch of the maps; hardware's update of the same cycle follows (`regHw_lockViol`). -/
theorem registerAccesses : Obligations.RegisterAccesses :=
  ⟨registerWrite_scratch, registerWrite_partial, registerWrite_bootByte, registerWrite_select, registerWrite_lockViol, rcRead_lockViol, rcRead_doorbell⟩

/-! ### The 64-bit pairs -/

/-- The low word of a pair stands at the pair's own offset, above the device block. -/
theorem wideLo_place {a n : Nat} (h : wideLo a = some n) : n = a / 8 * 8 ∧ 0x10000 ≤ n := by
  unfold wideLo at h
  dsimp only at h
  split at h
  next hpair =>
    have hn : a / 8 * 8 = n := Option.some.inj h
    omega
  next => exact nomatch h

/-- Both words of a pair lie in it. -/
theorem wideLo_high {a n : Nat} (h : wideLo (a / 8 * 8) = some n) : n = a / 8 * 8 ∧ wideLo (a / 8 * 8 + 4) = some n ∧ 0x10000 ≤ n := by
  have hplace := wideLo_place h
  have hsame : (a / 8 * 8 + 4) / 8 * 8 = a / 8 * 8 / 8 * 8 := by omega
  refine ⟨by omega, ?_, hplace.2⟩
  unfold wideLo at h ⊢
  rw [hsame]
  exact h

/-- No window's data register lies above the device block. -/
theorem indirectReg_above {a : Nat} (h : 0x10000 ≤ a) : indirectReg a = none := if_neg (by omega)

theorem bar0Read_low {s : State} {m : Master} {n : Nat} (hpair : wideLo n = some n) (habove : 0x10000 ≤ n) : s.bar0Read m n = s.readLo m n := by
  unfold State.bar0Read
  rw [indirectReg_above habove, hpair]
  exact if_pos rfl

theorem bar0Read_high {s : State} {m : Master} {n : Nat} (hpair : wideLo (n + 4) = some n) (habove : 0x10000 ≤ n) :
    s.bar0Read m (n + 4) = s.readHi m n := by
  unfold State.bar0Read
  rw [indirectReg_above (by omega), hpair]
  exact if_neg (by omega)

theorem bar0Write_low {s : State} {m : Master} {n : Nat} {v : Word} (hpair : wideLo n = some n) (habove : 0x10000 ≤ n) :
    s.bar0Write m n v = (s.disarm m).writeLo m n v := by
  unfold State.bar0Write State.bar0Put
  rw [indirectReg_above habove, hpair]
  dsimp only
  rw [if_neg (by omega), if_neg (by omega), if_pos rfl]

theorem bar0Write_high {s : State} {m : Master} {n : Nat} {v : Word} (hpair : wideLo (n + 4) = some n) (habove : 0x10000 ≤ n) :
    s.bar0Write m (n + 4) v = (s.disarm m).writeHi m n v := by
  unfold State.bar0Write State.bar0Put
  rw [indirectReg_above (by omega), hpair]
  dsimp only
  rw [if_neg (by omega), if_neg (by omega), if_neg (by omega)]

theorem wideLoRead_fills (s : State) (m : Master) (off : BitVec 24) (n : Nat) (hawake : asleep s = false)
    (hpair : wideLo (off.toNat / 8 * 8) = some n) (hlog : ¬ (0x45000 ≤ n ∧ n < 0x45040)) (hm : masterOk m = true) :
    does (.wideLoRead m off) s fun t =>
      t.out = s.out ++ [.readData m ((wideVal s n).extractLsb' 0 32)] ∧ look t.dev.rdShadow (shadowKey m n) = some ((wideVal s n).extractLsb' 32 32) ∧ t = { s with dev := t.dev, out := t.out } := by
  obtain ⟨hn, _, habove⟩ := wideLo_high hpair
  rw [← hn] at hpair
  have hread : s.bar0Read m (off.toNat / 8 * 8) =
      State.answer { s with dev := { s.dev with rdShadow := put s.dev.rdShadow (shadowKey m n) (hi32 (wideVal s n)) } } m (lo32 (wideVal s n)) := by
    rw [← hn, bar0Read_low hpair habove]
    exact if_neg hlog
  exact ⟨_, (issuedBy_of hawake hm _).trans (congrArg Host.Outcome.next hread), rfl, look_put_same .., rfl⟩

theorem wideHiRead_empties (s : State) (m : Master) (off : BitVec 24) (n : Nat) (v : Word) (hawake : asleep s = false)
    (hpair : wideLo (off.toNat / 8 * 8) = some n) (hwf : tabWf s.dev.rdShadow = true)
    (hfilled : look s.dev.rdShadow (shadowKey m n) = some v) (hm : masterOk m = true) :
    does (.wideHiRead m off) s fun t =>
      t.out = s.out ++ [.readData m v] ∧ look t.dev.rdShadow (shadowKey m n) = none ∧ t = { s with dev := t.dev, out := t.out } := by
  obtain ⟨hn, hhigh, habove⟩ := wideLo_high hpair
  rw [← hn] at hhigh
  have hread : s.bar0Read m (off.toNat / 8 * 8 + 4) =
      State.answer { s with dev := { s.dev with rdShadow := del s.dev.rdShadow (shadowKey m n) } } m v := by
    rw [← hn, bar0Read_high hhigh habove]
    unfold State.readHi
    rw [hfilled]
  exact ⟨_, (issuedBy_of hawake hm _).trans (congrArg Host.Outcome.next hread), rfl, look_del_same _ _ hwf, rfl⟩

theorem wideLoWrite_holds (s : State) (m : Master) (off : BitVec 24) (n : Nat) (v : Word) (hawake : asleep s = false)
    (hpair : wideLo (off.toNat / 8 * 8) = some n) (hm : masterOk m = true) :
    does (.wideLoWrite m off v) s fun t =>
      look t.dev.wrShadow (shadowKey m n) = some v ∧ wideVal t n = wideVal s n ∧ t = { s with dev := t.dev } := by
  obtain ⟨hn, _, habove⟩ := wideLo_high hpair
  rw [← hn] at hpair
  have hwrite : s.bar0Write m (off.toNat / 8 * 8) v = (s.disarm m).writeLo m n v := by
    rw [← hn, bar0Write_low hpair habove]
  exact ⟨_, (issuedBy_of hawake hm _).trans (congrArg Host.Outcome.next hwrite), look_put_same .., rfl, rfl⟩

/-- A write of the high word with a filled write shadow commits both words. -/
theorem writeHi_filled {s : State} {m : Master} {n : Nat} {lo v : Word} (h : look s.dev.wrShadow (shadowKey m n) = some lo) :
    (s.disarm m).writeHi m n v =
      State.wideStore { s with dev := { s.dev with armed := s.dev.armed.filter (· ≠ m), wrShadow := del s.dev.wrShadow (shadowKey m n) } } n (v ++ lo) := by
  unfold State.writeHi
  rw [show look (s.disarm m).dev.wrShadow (shadowKey m n) = some lo from h]
  rfl

theorem wideHiWrite_evBase (s : State) (m : Master) (lo : Word) (v : Word) (hawake : asleep s = false)
    (hheld : look s.dev.wrShadow (shadowKey m 0x45100) = some lo) (hm : masterOk m = true) :
    does (.wideHiWrite m 0x45104 v) s fun t =>
      t.intc.evBase = (v ++ lo) &&& 0xFFFFFFFFFFFFFFC0 ∧ t = { s with dev := t.dev, intc := t.intc } := by
  have hwrite : s.bar0Write m 0x45104 v = _ := (bar0Write_high (n := 0x45100) (by decide) (by decide)).trans (writeHi_filled hheld)
  exact ⟨_, (issuedBy_of hawake hm _).trans (congrArg Host.Outcome.next hwrite), rfl, rfl⟩

theorem wideHiWrite_source (s : State) (m : Master) (ch : Fin 32) (lo : Word) (v : Word) (hawake : asleep s = false)
    (hheld : look s.dev.wrShadow (shadowKey m (0x10000 + 0x100 * ch.val)) = some lo) (hnotRunning : (s.chan ch.val).state ≠ 1)
    (hnotPaused : (s.chan ch.val).state ≠ 2) (hm : masterOk m = true) :
    does (.wideHiWrite m (BitVec.ofNat 24 (0x10004 + 0x100 * ch.val)) v) s fun t =>
      (t.chan ch.val).src = v ++ lo ∧ t = { s with dev := t.dev, dma := t.dma } := by
  have hch := ch.isLt
  let n := 0x10000 + 0x100 * ch.val
  have hoff : (BitVec.ofNat 24 (0x10004 + 0x100 * ch.val)).toNat / 8 * 8 + 4 = n + 4 := by
    rw [BitVec.toNat_ofNat]
    omega
  have hpair : wideLo (n + 4) = some n := by
    have hn : (n + 4) / 8 * 8 = n := by omega
    unfold wideLo
    dsimp only
    rw [hn]
    exact if_pos (.inl (by omega))
  let s0 : State := { s with dev := { s.dev with armed := s.dev.armed.filter (· ≠ m), wrShadow := del s.dev.wrShadow (shadowKey m n) } }
  have hchannel : (n - 0x10000) / 0x100 = ch.val := by omega
  have hstore : s0.wideStore n (v ++ lo) = s0.setChan ch.val { s.chan ch.val with src := v ++ lo } := by
    unfold State.wideStore
    dsimp only
    rw [if_pos (by omega), hchannel, if_neg (fun h => h.elim hnotRunning hnotPaused), if_pos (by omega)]
    rfl
  have hwrite : s.bar0Write m ((BitVec.ofNat 24 (0x10004 + 0x100 * ch.val)).toNat / 8 * 8 + 4) v = s0.setChan ch.val { s.chan ch.val with src := v ++ lo } := by
    rw [hoff, bar0Write_high hpair (by omega), writeHi_filled hheld, hstore]
  refine ⟨_, (issuedBy_of hawake hm _).trans (congrArg Host.Outcome.next hwrite), ?_, rfl⟩
  exact congrArg Dma.src (State.chan_setChan s0 ch.val _)

/-- Settles O14: a pair's words pass through the shadows of the master that accesses it. -/
theorem wideRegisterPairs : Obligations.WideRegisterPairs :=
  ⟨wideLoRead_fills, wideHiRead_empties, wideLoWrite_holds, wideHiWrite_evBase, wideHiWrite_source⟩

end Sys2Proof.Proofs
end

section
/-! PROOFS. The unlock, error injection, and the indirect windows (O15). -/

open Sys2Proof Sys2Proof.Machine

-- One proof at a time: a thread for each proof would pass the limit that the check sets to memory.
set_option Elab.async false

namespace Sys2Proof.Proofs

/-! ### The unlock and error injection -/

/-- A disarmed master holds no unlock. -/
theorem disarm_unarmed (s : State) (m : Master) : (s.disarm m).dev.armed.contains m = false := by
  simp [State.disarm]

theorem unlockKey_arms (s : State) (m : Master) (hawake : asleep s = false) (hm : masterOk m = true) :
    does (.unlockKey m 0x57454654) s fun t =>
      t.dev.armed.contains m = true ∧ t.dev.lockViol = s.dev.lockViol ∧ t = { s with dev := t.dev } := by
  have hwrite : s.writeKey m 0x57454654 = { s.disarm m with dev := { (s.disarm m).dev with armed := (s.disarm m).dev.armed ++ [m] } } := by
    unfold State.writeKey
    dsimp only
    rw [if_pos rfl]
  refine ⟨_, (issuedBy_of hawake hm _).trans (congrArg Host.Outcome.next hwrite), ?_, rfl, rfl⟩
  simp

theorem unlockKey_wrong (s : State) (m : Master) (v : Word) (hawake : asleep s = false) (hwrong : v ≠ 0x57454654) (hm : masterOk m = true) :
    does (.unlockKey m v) s fun t =>
      t.dev.armed.contains m = false ∧ t.dev.lockViol = sat32 s.dev.lockViol ∧ t.faults.valid = true ∧ (s.faults.valid = false → t.faults.kind = 0x03) := by
  let s0 : State := { s.disarm m with dev := { (s.disarm m).dev with lockViol := sat32 s.dev.lockViol } }
  have hkept : Touches faultParts s0 (s0.contained 0x03 .write m (bar0Addr 0x10)) := (Touches.refl _).contained
  have hdev : (s0.contained 0x03 .write m (bar0Addr 0x10)).dev = s0.dev := hkept.same .dev
  have hwrite : s.writeKey m v = s0.contained 0x03 .write m (bar0Addr 0x10) := if_neg hwrong
  refine ⟨_, (issuedBy_of hawake hm _).trans (congrArg Host.Outcome.next hwrite), ?_, ?_, contained_valid .., ?_⟩
  · rw [hdev]
    exact disarm_unarmed s m
  · rw [hdev]
  · intro hfree
    obtain ⟨hkind, _⟩ := contained_first s0 0x03 .write m (bar0Addr 0x10) hfree
    exact hkind

/-- Bits 2 and 1 of a word stay when bit 0 is set. -/
theorem kind_of_go (v : Word) : (v ||| 1).extractLsb' 1 2 = v.extractLsb' 1 2 := by
  ext i hi
  have h : i = 0 ∨ i = 1 := by omega
  obtain rfl | rfl := h
  · simp
  · simp

theorem errInjectGo_sets (s : State) (m : Master) (v : Word) (hawake : asleep s = false) (harmed : s.dev.armed.contains m = true)
    (hkind : v.extractLsb' 1 2 = 1 ∨ v.extractLsb' 1 2 = 2) (hm : masterOk m = true) :
    does (.errInjectGo m v) s fun t =>
      t.dev.injGo = true ∧ t.dev.injKind = v.extractLsb' 1 2 ∧ t.dev.armed.contains m = false ∧ t = { s with dev := t.dev } := by
  have hdefined : ¬ (v.extractLsb' 1 2 = 0 ∨ v.extractLsb' 1 2 = 3) := by
    obtain h | h := hkind
    · rw [h]
      decide
    · rw [h]
      decide
  have hwrite : s.writeInject m (v ||| 1) = { s.disarm m with dev := { (s.disarm m).dev with injKind := v.extractLsb' 1 2, injGo := true } } := by
    unfold State.writeInject
    dsimp only
    rw [kind_of_go, harmed, if_neg (by decide), if_neg hdefined]
    simp
  exact ⟨_, (issuedBy_of hawake hm _).trans (congrArg Host.Outcome.next hwrite), rfl, rfl, disarm_unarmed s m, rfl⟩

theorem scratchRead_corrected (s : State) (m : Master) (hawake : asleep s = false) (hgo : s.dev.injGo = true) (hkind : s.dev.injKind = 1)
    (hm : masterOk m = true) :
    does (.scratchInjectedRead m) s fun t =>
      t.out = s.out ++ [.readData m s.dev.scratch] ∧ t.dev = { s.dev with injGo := false } ∧ t.faults.corrected = sat32 s.faults.corrected ∧ t = { s with dev := t.dev, out := t.out, faults := t.faults } := by
  have hread : s.readScratch m = State.answer (State.corrected { s with dev := { s.dev with injGo := false } }) m s.dev.scratch :=
    (if_pos hgo).trans (if_neg (by rw [hkind]; decide))
  exact ⟨_, (issuedBy_of hawake hm _).trans (congrArg Host.Outcome.next hread), rfl, rfl, rfl, rfl⟩

theorem scratchRead_uncorrectable (s : State) (m : Master) (hawake : asleep s = false) (hgo : s.dev.injGo = true)
    (hkind : s.dev.injKind = 2) (hm : masterOk m = true) :
    does (.scratchInjectedRead m) s fun t =>
      Output.readData m 0xFFFFFFFF ∈ t.out ∧ t.dev = { s.dev with injGo := false } ∧ t.faults.valid = true ∧ (s.faults.valid = false → t.faults.kind = 0x01 ∧ t.faults.master = m) := by
  let s0 : State := { s with dev := { s.dev with injGo := false } }
  have hread : s.readScratch m = (s0.contained 0x01 .read m (bar0Addr 4)).answer m 0xFFFFFFFF := (if_pos hgo).trans (if_pos hkind)
  have hkept : Touches faultParts s0 (s0.contained 0x01 .read m (bar0Addr 4)) := (Touches.refl _).contained
  refine ⟨_, (issuedBy_of hawake hm _).trans (congrArg Host.Outcome.next hread), ?_, hkept.same .dev, contained_valid s0 .., ?_⟩
  · exact List.mem_append_right _ (List.mem_singleton_self _)
  · intro hfree
    obtain ⟨hrecord, _, _, hmaster, _⟩ := contained_first s0 0x01 .read m (bar0Addr 4) hfree
    exact ⟨hrecord, hmaster⟩

/-! ### Accesses through the windows -/

/-- A command that enters its Bobbin changes the Bobbins and the free counter. -/
theorem issueCommand_frame (s : State) (w : Nat) (x : IAccess) :
    ∃ b f, s.issueCommand w x = { s with bobs := b, clk := { s.clk with free := f } } := by
  unfold State.issueCommand
  split
  · exact ⟨s.bobs, s.clk.free, rfl⟩
  · dsimp only
    split
    · exact ⟨s.bobs, s.clk.free, rfl⟩
    · exact ⟨_, _, rfl⟩

/-- A window's state after it has issued an access. -/
def issued (s : State) (m : Master) (w : Nat) (write : Option Word) : Window :=
  { s.window w with
    flight := (s.window w).flight ++ [{ m := m, target := (s.window w).target, offset := (s.window w).offset, write := write, issued := s.clk.now }]
    offset := if (s.window w).autoInc then (s.window w).offset + 1 else (s.window w).offset }

/-- Issuing an access changes its window, and what its command changes. -/
theorem issueIndirect_frame {s : State} {m : Master} {w : Nat} {write : Option Word} (h : w < 21) :
    ∃ b f, s.issueIndirect m w write =
      { (if write.isSome then s.disarm m else s).setWindow w (issued s m w write) with bobs := b, clk := { s.clk with free := f } } := by
  have hclk : (if write.isSome then s.disarm m else s).clk = s.clk := by
    split
    · rfl
    · rfl
  unfold State.issueIndirect
  dsimp only
  rw [if_neg (Nat.not_le.2 h)]
  split
  · obtain ⟨b, f, hcommand⟩ := issueCommand_frame ((if write.isSome then s.disarm m else s).setWindow w (issued s m w write)) w
      { m := m, target := (s.window w).target, offset := (s.window w).offset, write := write, issued := s.clk.now }
    refine ⟨b, f, hcommand.trans ?_⟩
    rw [State.setWindow_clk, hclk]
  · refine ⟨s.bobs, s.clk.free, ?_⟩
    cases write
    · rfl
    · rfl

theorem indirectDataRead_issues (s : State) (m : Master) (w : Fin 24) (hawake : asleep s = false) (hw : w.val < 21)
    (hm : masterOk m = true) :
    does (.indirectDataRead m w) s fun t =>
      (t.window w).flight = (s.window w).flight ++ [{ m := m, target := (s.window w).target, offset := (s.window w).offset, write := none, issued := s.clk.now }] ∧ (t.window w).offset = (if (s.window w).autoInc then (s.window w).offset + 1 else (s.window w).offset) ∧ t.dev.armed = s.dev.armed ∧ t = { s with dev := t.dev, bobs := t.bobs, clk := { s.clk with free := t.clk.free } } := by
  obtain ⟨b, f, hissue⟩ := issueIndirect_frame (s := s) (m := m) (write := none) hw
  have hwindow : (s.setWindow w.val (issued s m w.val none)).window w.val = issued s m w.val none := State.window_setWindow ..
  refine ⟨_, (issuedBy_of hawake hm _).trans (congrArg Host.Outcome.next hissue), ?_, ?_, rfl, rfl⟩
  · exact congrArg Window.flight hwindow
  · exact congrArg Window.offset hwindow

theorem indirectDataWrite_issues (s : State) (m : Master) (w : Fin 24) (v : Word) (hawake : asleep s = false) (hw : w.val < 21)
    (hm : masterOk m = true) :
    does (.indirectDataWrite m w v) s fun t =>
      (t.window w).flight = (s.window w).flight ++ [{ m := m, target := (s.window w).target, offset := (s.window w).offset, write := some v, issued := s.clk.now }] ∧ t.dev.armed.contains m = false ∧ t = { s with dev := t.dev, bobs := t.bobs, clk := { s.clk with free := t.clk.free } } := by
  obtain ⟨b, f, hissue⟩ := issueIndirect_frame (s := s) (m := m) (write := some v) hw
  have hwindow : ((s.disarm m).setWindow w.val (issued s m w.val (some v))).window w.val = issued s m w.val (some v) := State.window_setWindow ..
  refine ⟨_, (issuedBy_of hawake hm _).trans (congrArg Host.Outcome.next hissue), ?_, ?_, rfl⟩
  · exact congrArg Window.flight hwindow
  · exact disarm_unarmed s m

/-! ### The end of an access -/

/-- A window after its only access has ended with an error code. -/
def ended (q : Window) (e : BitVec 4) : Window := { q with flight := [], err := q.err || e != 0, errCode := if e = 0 then q.errCode else e }

/-- The end of a window's only access that no host reset has left. -/
theorem endAccess_only {s : State} {w : Nat} {x : IAccess} {v : Word} {e : BitVec 4} (hflight : (s.window w).flight = [x]) (hlive : x.gone = false) :
    s.endAccess w x v e = (if x.write.isSome then s.setWindow w (ended (s.window w) e) else (s.setWindow w (ended (s.window w) e)).answer x.m v) := by
  have hend : ({ s.window w with flight := (s.window w).flight.erase x, err := (s.window w).err || e != 0, errCode := if e = 0 then (s.window w).errCode else e } :
      Window) = ended (s.window w) e := by
    rw [hflight, List.erase_cons_head]
    rfl
  have hnone : ((if x.write.isSome then s.setWindow w (ended (s.window w) e)
      else (s.setWindow w (ended (s.window w) e)).answer x.m v).window w).flight = [] := by
    split
    · rw [State.window_setWindow]
      rfl
    · show ((s.setWindow w (ended (s.window w) e)).window w).flight = []
      rw [State.window_setWindow]
      rfl
  unfold State.endAccess
  dsimp only
  rw [if_neg (Bool.eq_false_iff.1 hlive), hend]
  split
  next hnext =>
    rw [hnone] at hnext
    exact nomatch hnext
  next => rfl

/-- A window reads the device registers alone. -/
theorem window_of_dev {s t : State} (h : t.dev = s.dev) (w : Nat) : t.window w = s.window w := by
  unfold State.window
  rw [h]

/-- What a window shows after the end of its only access. -/
theorem endAccess_window {s : State} {w : Nat} {x : IAccess} {v : Word} {e : BitVec 4} (hflight : (s.window w).flight = [x]) (hlive : x.gone = false) :
    (s.endAccess w x v e).window w = ended (s.window w) e := by
  rw [endAccess_only hflight hlive]
  split
  · exact State.window_setWindow ..
  · exact State.window_setWindow ..

/-- A read's end answers it. -/
theorem endAccess_read {s : State} {w : Nat} {x : IAccess} {v : Word} {e : BitVec 4} (hflight : (s.window w).flight = [x]) (hlive : x.gone = false)
    (hread : x.write = none) : s.endAccess w x v e = (s.setWindow w (ended (s.window w) e)).answer x.m v := by
  rw [endAccess_only hflight hlive, hread]
  rfl

theorem ended_error {q : Window} {e : BitVec 4} (h : e ≠ 0) : (ended q e).err = true ∧ (ended q e).errCode = e := by
  refine ⟨?_, if_neg h⟩
  show (q.err || e != 0) = true
  rw [bne_iff_ne.2 h, Bool.or_true]

/-- Serving an access leaves the device registers and the outputs. -/
theorem serve_frame (s : State) (x : IAccess) (tagged : Bool) : Touches [.clk, .tiles, .dtiles] s (s.serve x tagged).1 := by
  unfold State.serve
  split
  · exact .refl s
  · split
    · exact .refl s
    · split
      · exact (Touches.refl s).freed
      · exact (Touches.refl s).iWrite

/-- A target without a Bobbin serves a window's oldest access at once. -/
theorem indirectComplete_serves {s : State} {w : Fin 24} {x : IAccess} {e : Ecc} (hawake : asleep s = false) (hflight : (s.window w).flight = [x])
    (htimely : overdue s x = false) (hready : iWaits s x.target.toNat = false) (hbob : controlBob s x.target.toNat = none) :
    exec (.indirectComplete w e) s = .next ((s.serve x (decide (e = .uncorrectable))).1.endAccess w x (s.serve x (decide (e = .uncorrectable))).2.1
      (s.serve x (decide (e = .uncorrectable))).2.2) := by
  refine (awake_of hawake _).trans ?_
  rw [hflight]
  dsimp only
  rw [if_neg (Bool.eq_false_iff.1 htimely), if_neg (Bool.eq_false_iff.1 hready), hbob]

theorem indirectComplete_ends (s : State) (w : Fin 24) (x : IAccess) (e : Ecc) (hawake : asleep s = false)
    (hflight : (s.window w).flight = [x]) (hlive : x.gone = false) (htimely : overdue s x = false)
    (hready : iWaits s x.target.toNat = false) (hbob : controlBob s x.target.toNat = none) :
    does (.indirectComplete w e) s fun t =>
      (t.window w).flight = [] ∧ (x.write = none → t.out = s.out ++ [.readData x.m (s.serve x (decide (e = .uncorrectable))).2.1]) ∧ ((s.serve x (decide (e = .uncorrectable))).2.2 ≠ 0 → (t.window w).err = true ∧ (t.window w).errCode = (s.serve x (decide (e = .uncorrectable))).2.2) := by
  have hserved := serve_frame s x (decide (e = .uncorrectable))
  have hdev : (s.serve x (decide (e = .uncorrectable))).1.dev = s.dev := hserved.same .dev
  have hout : (s.serve x (decide (e = .uncorrectable))).1.out = s.out := hserved.same .out
  have hflight' : ((s.serve x (decide (e = .uncorrectable))).1.window w).flight = [x] := by
    rw [window_of_dev hdev]
    exact hflight
  have hwindow := endAccess_window (v := (s.serve x (decide (e = .uncorrectable))).2.1) (e := (s.serve x (decide (e = .uncorrectable))).2.2) hflight' hlive
  refine ⟨_, indirectComplete_serves hawake hflight htimely hready hbob, ?_, ?_, ?_⟩
  · rw [hwindow]
    rfl
  · intro hread
    rw [endAccess_read hflight' hlive hread]
    exact congrArg (· ++ _) hout
  · intro herror
    rw [hwindow]
    exact ended_error herror

theorem indirectComplete_reserved (s : State) (w : Fin 24) (x : IAccess) (hawake : asleep s = false) (hflight : (s.window w).flight = [x])
    (hlive : x.gone = false) (htimely : overdue s x = false) (hready : iWaits s x.target.toNat = false) (hread : x.write = none)
    (hreserved : 0x4C9 ≤ x.target.toNat) :
    does (.indirectComplete w .clean) s fun t =>
      t.out = s.out ++ [.readData x.m 0xFFFFFFFF] ∧ (t.window w).flight = [] ∧ (t.window w).err = true ∧ (t.window w).errCode = 1 ∧ t = { s with dev := t.dev, out := t.out } := by
  have htarget : iTarget s x.target.toNat = .error 1 := by
    unfold iTarget
    dsimp only
    iterate 10 rw [if_neg (by omega)]
  have hbob : controlBob s x.target.toNat = none := by
    unfold controlBob
    rw [htarget]
  have hserve : s.serve x (decide (Ecc.clean = .uncorrectable)) = (s, 0xFFFFFFFF, 1) := by
    unfold State.serve
    rw [if_neg (fun h => by simp at h), htarget]
  have hexec := indirectComplete_serves (e := .clean) hawake hflight htimely hready hbob
  rw [hserve] at hexec
  refine ⟨_, hexec.trans (congrArg Host.Outcome.next (endAccess_read hflight hlive hread)), rfl, ?_, ?_, ?_, rfl⟩
  · exact congrArg Window.flight (State.window_setWindow s w.val (ended (s.window w) 1))
  · exact (congrArg Window.err (State.window_setWindow s w.val (ended (s.window w) 1))).trans (ended_error (by decide)).1
  · exact (congrArg Window.errCode (State.window_setWindow s w.val (ended (s.window w) 1))).trans (ended_error (by decide)).2

theorem indirectTimeout_ends (s : State) (w : Fin 24) (x : IAccess) (hawake : asleep s = false) (hflight : (s.window w).flight = [x])
    (hlive : x.gone = false) (hread : x.write = none) (hlate : x.issued + 20000 ≤ s.clk.now) :
    does (.indirectTimeout w) s fun t =>
      (t.window w).flight = [] ∧ t.out = s.out ++ [.readData x.m 0xFFFFFFFF] ∧ (t.window w).err = true ∧ (t.window w).errCode = 2 ∧ t = { s with dev := t.dev, out := t.out } := by
  have hoverdue : overdue s x = true := by
    simp [overdue, hread, hlate]
  have hexec : exec (.indirectTimeout w) s = .next (s.endAccess w x 0xFFFFFFFF 2) := by
    refine (awake_of hawake _).trans ?_
    rw [hflight, List.find?_cons_of_pos hoverdue]
  refine ⟨_, hexec.trans (congrArg Host.Outcome.next (endAccess_read hflight hlive hread)), ?_, rfl, ?_, ?_, rfl⟩
  · exact congrArg Window.flight (State.window_setWindow s w.val (ended (s.window w) 2))
  · exact (congrArg Window.err (State.window_setWindow s w.val (ended (s.window w) 2))).trans (ended_error (by decide)).1
  · exact (congrArg Window.errCode (State.window_setWindow s w.val (ended (s.window w) 2))).trans (ended_error (by decide)).2

/-! ### An access whose command waits in a Bobbin -/

/-- The source has nothing to enter into an open Bobbin. -/
theorem bobSrc_open {s : State} {b : BobbinId} (hopen : (s.bob b).resetAt = none) (hheld : (s.bob b).held = []) :
    ∃ seen log, (s.bobSrc b).bob b = { s.bob b with rdSeen := seen, rdLog := log } := by
  have hlook : ∃ seen log, (s.bob b).srcLook b s.clk.now s.clk.free = { s.bob b with rdSeen := seen, rdLog := log } := by
    unfold Bobbin.srcLook Bobbin.acked
    rw [hopen]
    exact ⟨_, _, rfl⟩
  obtain ⟨seen, log, hlook⟩ := hlook
  refine ⟨seen, log, ?_⟩
  show ((s.setBob b _).bob b) = _
  rw [State.bob_setBob, hlook]
  simp only [Bobbin.refill, Bobbin.put, hheld, List.take_nil, List.isEmpty_nil, if_true, List.drop_nil]

/-- The destination sees every item of an open Bobbin whose write pointer has crossed. -/
theorem bobDst_open {s : State} {b : BobbinId} (hopen : (s.bob b).resetAt = none) (hheld : (s.bob b).held = [])
    (hcrossed : crossing s.clk.now (s.bob b).wrLog = []) :
    ((s.bobDst b).bob b).items = (s.bob b).items ∧ (s.bobDst b).bobAvail b = (s.bob b).wr - (s.bob b).rd := by
  obtain ⟨seen, log, hsrc⟩ := bobSrc_open hopen hheld
  have hdst : ((s.bobDst b).bob b) = ((s.bobSrc b).bob b).dstLook b (s.bobSrc b).clk.now (s.bobSrc b).clk.free := State.bob_setBob ..
  have hnow : (s.bobSrc b).clk.now = s.clk.now := rfl
  unfold State.bobAvail
  rw [hdst, hsrc, hnow]
  simp [Bobbin.dstLook, Bobbin.acked, Bobbin.avail, hopen, crossed, hcrossed]

theorem indirectComplete_command (s : State) (w : Fin 24) (x : IAccess) (b : BobbinId) (hawake : asleep s = false)
    (hflight : (s.window w).flight = [x]) (hlive : x.gone = false) (hread : x.write = none) (htimely : overdue s x = false)
    (hready : iWaits s x.target.toNat = false) (hbob : controlBob s x.target.toNat = some b) (hopen : (s.bob b).resetAt = none)
    (hheld : (s.bob b).held = []) (hitems : (s.bob b).items = [(accessItem w x, false)]) (_ : crossing s.clk.now (s.bob b).rdLog = [])
    (hwr : crossing s.clk.now (s.bob b).wrLog = []) (hone : (s.bob b).wr = (s.bob b).rd + 1) :
    does (.indirectComplete w .clean) s fun t =>
      ∃ v, (t.window w).flight = [] ∧ (t.bob b).items = [] ∧ t.out = s.out ++ [.readData x.m v] ∧ (t.window w).err = (s.window w).err := by
  have hkept : Touches [.clk, .bobs] s (s.bobDst b) := (Touches.refl s).bobDst
  obtain ⟨hitems', havail⟩ := bobDst_open hopen hheld hwr
  rw [hitems] at hitems'
  have havail' : (s.bobDst b).bobAvail b ≠ 0 := by omega
  have hlive' : (s.bobDst b).accessLive (accessItem w x) = true := by
    unfold State.accessLive
    rw [List.any_eq_true]
    refine ⟨w.val, List.mem_range.2 w.isLt, ?_⟩
    have hwindow : (s.bobDst b).window w = s.window w := window_of_dev (hkept.same .dev) w
    rw [hwindow, hflight]
    simp
  have hskip : (s.bobDst b).skipEnded 1 b = s.bobDst b := by
    unfold State.skipEnded
    rw [hitems']
    exact if_pos (.inr hlive')
  let s2 := (s.bobDst b).bobDrop b 1
  have hdropped : (s2.bob b).items = [] := by
    show (((s.bobDst b).setBob b _).bob b).items = []
    rw [State.bob_setBob]
    simp [Bobbin.take, Bobbin.rdTo, hitems']
  have hkept2 : Touches [.clk, .bobs] s s2 := hkept.bobDrop
  have hwindow2 : s2.window w = s.window w := window_of_dev (hkept2.same .dev) w
  have htarget : ∃ t, iTarget s x.target.toNat = .ok t := by
    unfold controlBob at hbob
    split at hbob
    · exact ⟨_, ‹_›⟩
    · exact ⟨_, ‹_›⟩
    · exact ⟨_, ‹_›⟩
    · exact nomatch hbob
  obtain ⟨t, htarget⟩ := htarget
  have htarget2 : iTarget s2 x.target.toNat = .ok t := by
    have hframe : s2 = { s with clk := s2.clk, bobs := s2.bobs } := hkept2.frame (by simp)
    rw [hframe]
    exact htarget
  have hserve : s2.serve x false = (s2.freed, iRead s2 t (4 * x.offset.toNat), 0) := by
    unfold State.serve
    rw [if_neg (fun h => by simp at h), htarget2, hread]
  have hexec : exec (.indirectComplete w .clean) s = .next (s2.freed.endAccess w x (iRead s2 t (4 * x.offset.toNat)) 0) := by
    refine (awake_of hawake _).trans ?_
    rw [hflight]
    dsimp only
    rw [if_neg (Bool.eq_false_iff.1 htimely), if_neg (Bool.eq_false_iff.1 hready), hbob]
    dsimp only
    rw [hitems', List.length_singleton, hskip, hitems']
    dsimp only
    rw [if_neg (fun h => h.elim havail' (fun hother => hother rfl))]
    exact congrArg (fun r : State × Word × BitVec 4 => Host.Outcome.next (r.1.endAccess w x r.2.1 r.2.2)) hserve
  have hflight2 : (s2.freed.window w).flight = [x] := (congrArg Window.flight hwindow2).trans hflight
  refine ⟨_, hexec.trans (congrArg Host.Outcome.next (endAccess_read hflight2 hlive hread)), iRead s2 t (4 * x.offset.toNat), ?_, hdropped, ?_, ?_⟩
  · exact congrArg Window.flight (State.window_setWindow ..)
  · exact congrArg (· ++ _) (hkept2.same .out)
  · refine (congrArg Window.err (State.window_setWindow ..)).trans ?_
    show ((s2.window w).err || false) = _
    rw [Bool.or_false, hwindow2]

/-- Settles O15: locks and injection are their own branches; an access of a window ends as its target serves it (`endAccess_only`). -/
theorem locksAndInjection : Obligations.LocksAndInjection :=
  ⟨unlockKey_arms, unlockKey_wrong, errInjectGo_sets, scratchRead_corrected, scratchRead_uncorrectable, indirectDataRead_issues, indirectDataWrite_issues,
    indirectComplete_ends, indirectComplete_command, indirectComplete_reserved, indirectTimeout_ends⟩

end Sys2Proof.Proofs
end

section
/-! PROOFS. A statement about frame jobs that two jobs of one tile refute (O18). -/

open Sys2Proof Sys2Proof.Machine

-- One proof at a time: a thread for each proof would pass the limit that the check sets to memory.
set_option Elab.async false

namespace Sys2Proof.Proofs

/-! ### Two engines that hold a job of one tile -/

/-- A job of stream 5 for a picture of one CTU, which nothing has damaged. -/
def lastCtuJob : Job := { stream := 5, slot := 3, refCol := 0, refCount := 0, full := false, snap := { w := 64, h := 64 }, damage := [] }

/-- Engines 0 and 1 both hold it for tile 0, and the Bobbins between them are open and empty. -/
def twoJobs : State :=
  { batten := { engines := [(0, { jobs := [(0, lastCtuJob)] }), (1, { jobs := [(0, lastCtuJob)] })] }
    bobs := [(.hint 0, { resetAt := none }), (.frameDown 0, { resetAt := none })] }

/-- Engine 0 ends its job; engine 1 still holds one. -/
theorem ctuCompose_twoJobs : ∃ t, exec (.ctuCompose 0 []) twoJobs = .next t ∧ jobEngine t 0 = some (1, lastCtuJob) :=
  ⟨_, rfl, by decide⟩

/-- Refutes O18: it asks of every state that the end of a tile's job leaves the tile none; where two engines hold a job of the tile, which the
statement does not exclude, the other one stays. -/
theorem not_frameJobsOfTheEngines : ¬ Obligations.FrameJobsOfTheEngines := by
  rintro ⟨-, -, hlast, -⟩
  obtain ⟨t, ht, -, hnone, -⟩ := hlast twoJobs 0 [] 0 lastCtuJob (by decide) (by decide) (by decide) (by decide) (by decide)
  obtain ⟨t', ht', hsecond⟩ := ctuCompose_twoJobs
  obtain rfl : t = t' := by injection ht.symm.trans ht'
  exact nomatch (hnone.symm.trans hsecond : (none : Option (Nat × Job)) = some (1, lastCtuJob))

end Sys2Proof.Proofs
end

section
/-! PROOFS. What a tile's coder and its Treadle at rest leave (R166, R174 to R179, R300 to R305). -/

open Sys2Proof Sys2Proof.Machine

-- One proof at a time: a thread for each proof would pass the limit that the check sets to memory.
set_option Elab.async false

namespace Sys2Proof.Proofs

/-! ### The frame and the tile as the coder leaves them -/

/-- The coder has gone on: lanes, cut and the open row stay, and so does each CTU, coded or not yet. -/
structure CodedOn (f g : Frame) : Prop where
  lane0 : g.lane0 = f.lane0
  lane1 : g.lane1 = f.lane1
  cut : g.cut = f.cut
  rowsDone : g.rowsDone = f.rowsDone
  height : g.height = f.height
  draining : g.draining = f.draining
  ctus : ∀ i c, look f.ctus i = some c → ∃ d, look g.ctus i = some d ∧ d.settled = c.settled ∧ (c.coded = true → d.coded = true)

namespace CodedOn

variable {f g : Frame}

/-- Frames that differ in none of what the relation speaks of. -/
theorem of_ctus (h0 : g.lane0 = f.lane0 := by rfl) (h1 : g.lane1 = f.lane1 := by rfl) (hcut : g.cut = f.cut := by rfl)
    (hrows : g.rowsDone = f.rowsDone := by rfl) (hheight : g.height = f.height := by rfl) (hdrain : g.draining = f.draining := by rfl)
    (hctus : g.ctus = f.ctus := by rfl) : CodedOn f g :=
  ⟨h0, h1, hcut, hrows, hheight, hdrain, fun _ c h => ⟨c, by rw [hctus, h], rfl, id⟩⟩

theorem refl (f : Frame) : CodedOn f f := of_ctus

theorem trans {k : Frame} (h : CodedOn f g) (h' : CodedOn g k) : CodedOn f k where
  lane0 := h'.lane0.trans h.lane0
  lane1 := h'.lane1.trans h.lane1
  cut := h'.cut.trans h.cut
  rowsDone := h'.rowsDone.trans h.rowsDone
  height := h'.height.trans h.height
  draining := h'.draining.trans h.draining
  ctus := fun i c hc => by
    obtain ⟨d, hd, hsettled, hcoded⟩ := h.ctus i c hc
    obtain ⟨e, he, hsettled', hcoded'⟩ := h'.ctus i d hd
    exact ⟨e, he, hsettled'.trans hsettled, fun hx => hcoded' (hcoded hx)⟩

theorem lane (h : CodedOn f g) (l : Nat) : g.lane l = f.lane l := by
  unfold Frame.lane
  rw [h.lane0, h.lane1]

theorem rows (h : CodedOn f g) : g.rows = f.rows := congrArg ctuCols h.height

end CodedOn

/-- Events of coded CTUs may have entered the queue, and estimates may be gone. -/
def Raised (r q : Treadle) : Prop :=
  ∃ ev st est, q = { r with events := ev, stalled := st, estimates := est } ∧ ∀ x ∈ ev ++ st, x ∈ r.events ++ r.stalled ∨ x.toNat / 2 ^ 28 = 4

namespace Raised

variable {r q : Treadle}

theorem refl (r : Treadle) : Raised r r := ⟨r.events, r.stalled, r.estimates, rfl, fun _ => .inl⟩

theorem trans {k : Treadle} (h : Raised r q) (h' : Raised q k) : Raised r k := by
  obtain ⟨ev, st, est, rfl, hall⟩ := h
  obtain ⟨ev', st', est', rfl, hall'⟩ := h'
  exact ⟨ev', st', est', rfl, fun x hx => (hall' x hx).elim (hall x) .inr⟩

theorem estimates (r : Treadle) (est : List (Nat × Nat)) : Raised r { r with estimates := est } :=
  ⟨r.events, r.stalled, est, rfl, fun _ => .inl⟩

end Raised

/-- An event raised is in the queue or behind it, and nothing else has come. -/
theorem mem_raise {r : Treadle} {x y : Word} (h : y ∈ (r.raise x).events ++ (r.raise x).stalled) : y ∈ r.events ++ r.stalled ∨ y = x := by
  unfold Treadle.raise at h
  split at h
  · simp only [List.mem_append, List.mem_singleton] at h ⊢
    tauto
  · simp only [List.mem_append, List.mem_singleton] at h ⊢
    tauto

/-- An event changes the queue alone. -/
theorem treadleRaise_frame (r : Treadle) (x : Word) : ∃ ev st, r.raise x = { r with events := ev, stalled := st } := by
  unfold Treadle.raise
  split
  · exact ⟨_, _, rfl⟩
  · exact ⟨_, _, rfl⟩

/-- The kind of an event. -/
theorem eventWord_kind (k n : Nat) (h : k < 16) : (eventWord k n).toNat / 2 ^ 28 = k := by
  unfold eventWord
  rw [BitVec.toNat_ofNat]
  omega

theorem Raised.event {r : Treadle} {x : Word} (h : x.toNat / 2 ^ 28 = 4) : Raised r (r.raise x) := by
  obtain ⟨ev, st, hr⟩ := treadleRaise_frame r x
  refine ⟨ev, st, r.estimates, hr, fun y hy => ?_⟩
  have hmem : y ∈ (r.raise x).events ++ (r.raise x).stalled := by rwa [hr]
  exact (mem_raise hmem).imp_right fun heq => by rw [heq, h]

/-- The closed marks of the NAL units on their way. -/
def closedMarks (t : Tile) : List Bool := t.out.nals.map NalOut.closed

/-- A tile and a frame in it, as the coder leaves them. -/
structure Coded (t u : Tile) (f g : Frame) : Prop where
  frame : CodedOn f g
  err : u.err = t.err
  laneCtus : u.laneCtus = t.laneCtus
  skipCtus : u.skipCtus = t.skipCtus
  treadle : Raised t.treadle u.treadle
  marks : f.rows ≤ f.rowsDone → closedMarks u = closedMarks t

namespace Coded

theorem refl (t : Tile) (f : Frame) : Coded t t f f := ⟨.refl f, rfl, rfl, rfl, .refl _, fun _ => rfl⟩

theorem trans {t u v : Tile} {f g k : Frame} (h : Coded t u f g) (h' : Coded u v g k) : Coded t v f k where
  frame := h.frame.trans h'.frame
  err := h'.err.trans h.err
  laneCtus := h'.laneCtus.trans h.laneCtus
  skipCtus := h'.skipCtus.trans h.skipCtus
  treadle := h.treadle.trans h'.treadle
  marks := fun hdone => (h'.marks (by rw [h.frame.rows, h.frame.rowsDone]; exact hdone)).trans (h.marks hdone)

end Coded

/-! ### Coding a CTU -/

/-- What coding a CTU changes. -/
theorem codeOne_shape (t : Tile) (f : Frame) (y i : Nat) (c : FrameCtu) (k : Nat) :
    ∃ o tr early held n cus ec bits sb sk by_, codeOne t f y i c k =
      ({ t with out := o, treadle := tr, skipCtus := if c.path = some .skip then t.skipCtus + 1 else t.skipCtus },
       { f with
         early := early, held := held, ctus := put f.ctus i { c with coded := true, bits := n, cus := cus }, ecNext := ec, bits := bits
         skipBits := sb, skips := sk, bytes := by_ }) ∧ Raised t.treadle tr := by
  have hnals : ∀ l, ∃ o early, setSliceNals t f l = ({ t with out := o }, { f with early := early }) := fun l => by
    unfold setSliceNals
    split
    · exact ⟨_, f.early, rfl⟩
    · exact ⟨t.out, _, rfl⟩
  have hwritten : ∀ b, ∃ o early held, (if y = f.rowsDone then setSliceNals t f (appendOpen (sliceNals t f) b) else (t, { f with held := f.held ++ b })) =
      ({ t with out := o }, { f with early := early, held := held }) := fun b => by
    split
    · obtain ⟨o, early, h⟩ := hnals (appendOpen (sliceNals t f) b)
      exact ⟨o, early, f.held, h⟩
    · exact ⟨t.out, f.early, _, rfl⟩
  obtain ⟨o, early, held, hw⟩ := hwritten (slice (Config.nalBytes k) 0 ((f.rowBits y + Config.ctuBits k) / 8 - f.rowBits y / 8))
  unfold codeOne
  simp only [decide_eq_true_eq]
  rw [hw]
  cases hpath : c.path with
  | none => exact ⟨_, _, _, _, _, _, _, _, _, _, _, rfl, Raised.estimates ..⟩
  | some q =>
    cases q with
    | lane cls qp b =>
      refine ⟨_, _, _, _, _, _, _, _, _, _, _, rfl, ?_⟩
      exact (Raised.estimates ..).trans (Raised.event (eventWord_kind 4 _ (by decide)))
    | skip => exact ⟨_, _, _, _, _, _, _, _, _, _, _, rfl, Raised.estimates ..⟩
    | grey => exact ⟨_, _, _, _, _, _, _, _, _, _, _, rfl, Raised.estimates ..⟩

/-- The frame after a CTU of it has been coded. -/
theorem codeOne_frame {t : Tile} {f : Frame} {y i : Nat} {c : FrameCtu} {k : Nat} (h : look f.ctus i = some c) :
    CodedOn f (codeOne t f y i c k).2 ∧ ∃ d, look (codeOne t f y i c k).2.ctus i = some d ∧ d.coded = true := by
  obtain ⟨o, tr, early, held, n, cus, ec, bits, sb, sk, by_, hcode, _⟩ := codeOne_shape t f y i c k
  rw [hcode]
  refine ⟨⟨rfl, rfl, rfl, rfl, rfl, rfl, fun j d hd => ?_⟩, ⟨_, look_put_same .., rfl⟩⟩
  by_cases hj : j = i
  · subst hj
    obtain rfl : c = d := Option.some.inj (h.symm.trans hd)
    exact ⟨_, look_put_same .., rfl, fun _ => rfl⟩
  · exact ⟨d, (look_put_ne _ _ hj).trans hd, rfl, id⟩

/-- A CTU that the coder may take is one of the frame's, in an open row. -/
theorem nextCtu_some {f : Frame} {t : Tile} {o : Outlet} {y i : Nat} {c : FrameCtu} (h : f.nextCtu t o y = some (i, c)) :
    look f.ctus i = some c ∧ y < f.rows := by
  unfold Frame.nextCtu at h
  split at h
  next hopen =>
    obtain ⟨d, hd, heq⟩ := Option.map_eq_some_iff.1 h
    obtain ⟨rfl, rfl⟩ := Prod.mk.inj heq
    refine ⟨hd, ?_⟩
    simp only [Frame.rowOpen, Bool.and_eq_true, decide_eq_true_eq] at hopen
    exact hopen.1.1.1
  next => exact nomatch h

/-- Coding a CTU that is no skip-run one, of a row that is not closed. -/
theorem codeOne_coded {t : Tile} {f : Frame} {y i : Nat} {c : FrameCtu} {k : Nat} (h : look f.ctus i = some c) (hpath : c.path ≠ some .skip)
    (hrow : f.rowsDone < f.rows) : Coded t (codeOne t f y i c k).1 f (codeOne t f y i c k).2 := by
  obtain ⟨hframe, _⟩ := codeOne_frame (t := t) (y := y) (k := k) h
  obtain ⟨o, tr, early, held, n, cus, ec, bits, sb, sk, by_, hcode, hraised⟩ := codeOne_shape t f y i c k
  rw [hcode] at hframe ⊢
  exact ⟨hframe, rfl, rfl, if_neg hpath, hraised, fun hdone => absurd hdone (Nat.not_le.2 hrow)⟩

/-- The coder goes on as far as it can. -/
theorem drain_coded (n : Nat) (t : Tile) (f : Frame) (o : Outlet) (k : Nat) : Coded t (drain n t f o k).1 f (drain n t f o k).2.1 := by
  induction n generalizing t f k with
  | zero => exact .refl t f
  | succ n ih =>
    have hstep : ∀ y c, f.rowsDone ≤ y → ((f.nextCtu t o y).filter fun c => c.2.settled && decide (c.2.path ≠ some .skip)) = some c →
        Coded t (codeOne t f y c.1 c.2 k).1 f (codeOne t f y c.1 c.2 k).2 := fun y c hy hready => by
      obtain ⟨hnext, hkind⟩ := Option.filter_eq_some_iff.1 hready
      obtain ⟨hlook, hrow⟩ := nextCtu_some hnext
      rw [Bool.and_eq_true, decide_eq_true_iff] at hkind
      exact codeOne_coded hlook hkind.2 (Nat.lt_of_le_of_lt hy hrow)
    unfold drain
    dsimp only
    split
    next c hready => exact (hstep _ c (Nat.le_refl _) hready).trans (ih ..)
    next c _ hready => exact (hstep _ c (Nat.le_succ _) hready).trans (ih ..)
    next => exact .refl t f

/-- A tile whose frame is written back. -/
theorem putFrame_coded (s : State) (p : Nat) (t : Tile) (f : Frame) :
    ∃ g, ((s.putFrame p t f).tile p).frame = some g ∧ Coded t ((s.putFrame p t f).tile p) f g := by
  let s1 := s.bobSrc (.slice (ftile p))
  let r := drain f.size t f (outletOf s1 p) s1.clk.free
  have hcoded : Coded t r.1 f r.2.1 := drain_coded ..
  let u : Tile := { r.1 with frame := some r.2.1 }
  have htile : (s.putFrame p t f).tile p = { u with out := u.out.enter } := by
    have hput : (s1.setTile p u).tile p = u := State.tile_setTile ..
    show ((s1.setTile p u).setTile p { (s1.setTile p u).tile p with out := ((s1.setTile p u).tile p).out.enter }).tile p = _
    rw [State.tile_setTile, hput]
  have hmarks : closedMarks { u with out := u.out.enter } = closedMarks r.1 := by
    simp [closedMarks, SliceOut.enter, u, Function.comp_def]
  rw [htile]
  exact ⟨r.2.1, rfl, hcoded.frame, hcoded.err, hcoded.laneCtus, hcoded.skipCtus, hcoded.treadle, fun hdone => hmarks.trans (hcoded.marks hdone)⟩

/-! ### A tile that goes on with its frame -/

/-- A tile's frame, if it has one, has been coded on; its error bits and counts of CTUs stay. -/
structure TileOn (t u : Tile) : Prop where
  frame : ∀ f, t.frame = some f → ∃ g, u.frame = some g ∧ CodedOn f g ∧ (f.rows ≤ f.rowsDone → closedMarks u = closedMarks t)
  err : u.err = t.err
  laneCtus : u.laneCtus = t.laneCtus
  skipCtus : u.skipCtus = t.skipCtus

namespace TileOn

theorem refl (t : Tile) : TileOn t t := ⟨fun f h => ⟨f, h, .refl f, fun _ => rfl⟩, rfl, rfl, rfl⟩

theorem trans {t u v : Tile} (h : TileOn t u) (h' : TileOn u v) : TileOn t v where
  frame := fun f hf => by
    obtain ⟨g, hg, hon, hmarks⟩ := h.frame f hf
    obtain ⟨k, hk, hon', hmarks'⟩ := h'.frame g hg
    exact ⟨k, hk, hon.trans hon', fun hdone => (hmarks' (by rw [hon.rows, hon.rowsDone]; exact hdone)).trans (hmarks hdone)⟩
  err := h'.err.trans h.err
  laneCtus := h'.laneCtus.trans h.laneCtus
  skipCtus := h'.skipCtus.trans h.skipCtus

theorem of_treadle (t : Tile) (r : Treadle) : TileOn t { t with treadle := r } := ⟨fun f h => ⟨f, h, .refl f, fun _ => rfl⟩, rfl, rfl, rfl⟩

end TileOn

theorem tile_setTreadle (s : State) (p : Nat) (r : Treadle) : (s.setTreadle p r).tile p = { s.tile p with treadle := r } := State.tile_setTile ..

/-- The coder of a tile resumes. -/
theorem resumeCoder_on (s : State) (p : Nat) :
    TileOn (s.tile p) ((s.resumeCoder p).tile p) ∧ Raised (s.tile p).treadle ((s.resumeCoder p).tile p).treadle := by
  unfold State.resumeCoder
  split
  next f hf =>
    obtain ⟨g, hg, hcoded⟩ := putFrame_coded s p (s.tile p) f
    refine ⟨⟨fun f' hf' => ?_, hcoded.err, hcoded.laneCtus, hcoded.skipCtus⟩, hcoded.treadle⟩
    obtain rfl : f = f' := Option.some.inj (hf.symm.trans hf')
    exact ⟨g, hg, hcoded.frame, hcoded.marks⟩
  next hnone =>
    have htile : ((s.bobSrc (.slice (ftile p))).feedSlice p).tile p = { s.tile p with out := (s.tile p).out.enter } := State.tile_setTile ..
    rw [htile]
    exact ⟨⟨fun f hf => absurd (hnone.symm.trans hf) nofun, rfl, rfl, rfl⟩, .refl _⟩

/-! ### Treadle at rest: no request of a lane, and of the events only some kinds -/

/-- The kinds of events that the ROM takes without a word of its own: coded CTUs, closed rows, skip-run bits and CTUs. -/
def quietKinds : List Nat := [4, 5, 8, 9]

/-- Treadle is in its idle loop, in the interrupt handler, or accounts a coded CTU, with no request that asks for more. -/
structure AtRest (kinds : List Nat) (r : Treadle) : Prop where
  laneReq : r.laneReq = []
  abandon : r.abandon = false
  events : ∀ x ∈ r.events ++ r.stalled, x.toNat / 2 ^ 28 ∈ kinds
  place : (r.upc = 0x40 ∧ r.stack = []) ∨ (r.upc = 0x10 ∧ r.stack = [0x40]) ∨ (r.upc = 0xB00 ∧ r.stack = [0x40])

theorem AtRest.raised {kinds : List Nat} {r q : Treadle} (h : AtRest kinds r) (hr : Raised r q) (hk : 4 ∈ kinds) : AtRest kinds q := by
  obtain ⟨ev, st, est, rfl, hall⟩ := hr
  exact ⟨h.laneReq, h.abandon, fun x hx => (hall x hx).elim (h.events x) fun h4 => h4.symm ▸ hk, h.place⟩

/-- What Treadle at rest changes: its tile, the coder's Bobbin, and of the encode streams what a closed row asks for. -/
structure Goes (kinds : List Nat) (p : Nat) (s u : State) : Prop where
  on : TileOn (s.tile p) (u.tile p)
  keeps : Touches [.clk, .bobs, .tiles, .encs] s u
  encs : 5 ∉ kinds → u.encs = s.encs

namespace Goes

variable {kinds : List Nat} {p : Nat} {s t u : State}

theorem refl (s : State) : Goes kinds p s s := ⟨.refl _, .refl s, fun _ => rfl⟩

theorem trans (h : Goes kinds p s t) (h' : Goes kinds p t u) : Goes kinds p s u :=
  ⟨h.on.trans h'.on, h.keeps.trans h'.keeps, fun hk => (h'.encs hk).trans (h.encs hk)⟩

theorem treadle (s : State) (r : Treadle) : Goes kinds p s (s.setTreadle p r) := by
  refine ⟨?_, (Touches.refl s).setTreadle, fun _ => rfl⟩
  rw [tile_setTreadle]
  exact .of_treadle ..

theorem resume (h : Goes kinds p s t) : Goes kinds p s (t.resumeCoder p) :=
  h.trans ⟨(resumeCoder_on t p).1, (Touches.refl t).resumeCoder, fun _ => (Touches.refl t : Touches [.clk, .bobs, .tiles] t t).resumeCoder.same .encs⟩

end Goes

end Sys2Proof.Proofs
end

section
/-! PROOFS. Treadle at rest runs its ROM to the idle loop: what it changes meanwhile (R300 to R305). -/

open Sys2Proof Sys2Proof.Machine

-- One proof at a time: a thread for each proof would pass the limit that the check sets to memory.
set_option Elab.async false

namespace Sys2Proof.Proofs

/-- A tile whose frame has gone on. -/
theorem TileOn.of_frame {t : Tile} {f g : Frame} (r : Treadle) (hf : t.frame = some f) (h : CodedOn f g) :
    TileOn t { t with treadle := r, frame := some g } where
  frame := fun f' hf' => by
    obtain rfl : f = f' := Option.some.inj (hf.symm.trans hf')
    exact ⟨g, rfl, h, fun _ => rfl⟩
  err := rfl
  laneCtus := rfl
  skipCtus := rfl

/-- A tile written back that has gone on. -/
theorem Goes.setTile {kinds : List Nat} {p : Nat} {s : State} {u : Tile} (h : TileOn (s.tile p) u) : Goes kinds p s (s.setTile p u) := by
  refine ⟨?_, (Touches.refl s).setTile, fun _ => rfl⟩
  rwa [State.tile_setTile]

/-! ### Steps of the ROM -/

/-- What is left in the queue, or behind it, after an event has been taken, was there. -/
theorem mem_popEvent {r : Treadle} {x : Word} (h : x ∈ r.popEvent.events ++ r.popEvent.stalled) : x ∈ r.events ++ r.stalled := by
  unfold Treadle.popEvent at h
  split at h
  next => exact h
  next y l hev =>
    split at h
    next hst =>
      rw [hev]
      simp only [List.mem_append, List.mem_cons] at h ⊢
      tauto
    next z q hst =>
      rw [hev, hst]
      simp only [List.mem_append, List.mem_cons] at h ⊢
      tauto

/-- Taking an event changes the queue alone. -/
theorem popEvent_frame (r : Treadle) : ∃ ev st, r.popEvent = { r with events := ev, stalled := st } := by
  unfold Treadle.popEvent
  split
  next => exact ⟨_, _, rfl⟩
  next =>
    split
    · exact ⟨_, r.stalled, rfl⟩
    · exact ⟨_, _, rfl⟩

/-- A step of the ROM at rest: it goes on, and Treadle is at rest again. -/
structure RestStep (kinds : List Nat) (p : Nat) (s u : State) : Prop where
  goes : Goes kinds p s u
  rest : AtRest kinds (u.tile p).treadle

section
variable {kinds : List Nat} {p : Nat} {s : State}

theorem RestStep.trans {t u : State} (h : RestStep kinds p s t) (h' : RestStep kinds p t u) : RestStep kinds p s u := ⟨h.goes.trans h'.goes, h'.rest⟩

theorem RestStep.treadle {r : Treadle} (h : AtRest kinds r) : RestStep kinds p s (s.setTreadle p r) := by
  refine ⟨.treadle s r, ?_⟩
  rwa [tile_setTreadle]

/-- The coder resumes beside Treadle at rest. -/
theorem RestStep.resume {t : State} (h4 : 4 ∈ kinds) (h : RestStep kinds p s t) : RestStep kinds p s (t.resumeCoder p) :=
  ⟨h.goes.resume, h.rest.raised (resumeCoder_on t p).2 h4⟩

/-- The interrupt handler at rest: the report of a cut is read, or the handler returns to the idle loop. -/
theorem romVector_rest (h : AtRest kinds (s.tile p).treadle) (hupc : (s.tile p).treadle.upc = 0x10) : RestStep kinds p s (s.romVector p) := by
  have hplace : (s.tile p).treadle.stack = [0x40] := by
    obtain ⟨hu, _⟩ | ⟨_, hst⟩ | ⟨hu, _⟩ := h.place
    · exact absurd (hu.symm.trans hupc) (by decide)
    · exact hst
    · exact absurd (hu.symm.trans hupc) (by decide)
  unfold State.romVector
  dsimp only
  split
  next => exact .treadle ⟨h.laneReq, h.abandon, h.events, h.place⟩
  next =>
    rw [if_neg (by rw [h.abandon]; decide)]
    rw [h.laneReq]
    refine .treadle ?_
    rw [Treadle.ret, hplace]
    exact ⟨rfl, h.abandon, h.events, .inl ⟨rfl, rfl⟩⟩

/-- The idle loop at rest: it waits, or takes an event. -/
theorem romIdle_rest (h : AtRest kinds (s.tile p).treadle) (hkinds : kinds ⊆ quietKinds) (h4 : 4 ∈ kinds)
    (hupc : (s.tile p).treadle.upc = 0x40) : RestStep kinds p s (s.romIdle p) := by
  have hstack : (s.tile p).treadle.stack = [] := by
    obtain ⟨_, hst⟩ | ⟨hu, _⟩ | ⟨hu, _⟩ := h.place
    · exact hst
    · exact absurd (hu.symm.trans hupc) (by decide)
    · exact absurd (hu.symm.trans hupc) (by decide)
  obtain ⟨evs, st, hpop⟩ := popEvent_frame (s.tile p).treadle
  have hleft : ∀ x ∈ evs ++ st, x.toNat / 2 ^ 28 ∈ kinds := fun x hx => h.events x (mem_popEvent (by rwa [hpop]))
  unfold State.romIdle
  dsimp only
  split
  next hev => exact .treadle ⟨h.laneReq, h.abandon, h.events, h.place⟩
  next ev l hev =>
    have hkind : ev.toNat / 2 ^ 28 ∈ kinds := h.events ev (by rw [hev]; exact List.mem_append_left _ (List.mem_cons_self ..))
    have hquiet : ev.toNat / 2 ^ 28 = 4 ∨ ev.toNat / 2 ^ 28 = 5 ∨ ev.toNat / 2 ^ 28 = 8 ∨ ev.toNat / 2 ^ 28 = 9 := by
      simpa [quietKinds] using hkinds hkind
    have hresume : ∀ s1, RestStep kinds p s s1 → RestStep kinds p s (if (s.tile p).treadle.stalled.isEmpty then s1 else s1.resumeCoder p) :=
      fun s1 h1 => by
        split
        · exact h1
        · exact h1.resume h4
    have hr1 : AtRest kinds { (s.tile p).treadle.popEvent with w := put (s.tile p).treadle.w 0 ev, waiting := false } := by
      rw [hpop]
      exact ⟨h.laneReq, h.abandon, hleft, h.place⟩
    refine hresume _ ?_
    split
    next h1 => omega
    next =>
      refine .treadle ⟨hr1.laneReq, hr1.abandon, hr1.events, .inr (.inr ⟨rfl, ?_⟩)⟩
      rw [Treadle.goes, hpop, hstack]
      rfl
    next f h5 hf =>
      have h1 := RestStep.treadle (p := p) (s := s) hr1
      refine ⟨⟨h1.goes.on, h1.goes.keeps.setEnc, fun hno => absurd (h5 ▸ hkind) hno⟩, h1.rest⟩
    next h7 => omega
    next f _ hf =>
      refine ⟨.setTile (.of_frame _ hf .of_ctus), ?_⟩
      rw [State.tile_setTile]
      exact hr1
    next f _ hf =>
      refine ⟨.setTile (.of_frame _ hf .of_ctus), ?_⟩
      rw [State.tile_setTile]
      exact hr1
    next => exact .treadle hr1

/-- The account of a coded CTU. -/
theorem romAccount_rest (h : AtRest kinds (s.tile p).treadle) (hupc : (s.tile p).treadle.upc = 0xB00) : RestStep kinds p s (s.romStep p) := by
  have hstack : (s.tile p).treadle.stack = [0x40] := by
    obtain ⟨hu, _⟩ | ⟨hu, _⟩ | ⟨_, hst⟩ := h.place
    · exact absurd (hu.symm.trans hupc) (by decide)
    · exact absurd (hu.symm.trans hupc) (by decide)
    · exact hst
  have hret : RestStep kinds p s (s.romRet p) := by
    refine .treadle ?_
    rw [Treadle.ret, hstack]
    exact ⟨h.laneReq, h.abandon, h.events, .inl ⟨rfl, rfl⟩⟩
  have hframe : ((s.romRet p).tile p).frame = (s.tile p).frame := by
    rw [State.romRet, tile_setTreadle]
  unfold State.romStep
  simp only [hupc]
  show RestStep kinds p s (match (s.tile p).frame with | none => s.romRet p | some f => (s.romRet p).romAccount p f)
  split
  next => exact hret
  next f hf =>
    refine hret.trans ⟨.setTile (.of_frame _ (hframe.trans hf) .of_ctus), ?_⟩
    show AtRest kinds ((((s.romRet p).setTile p _).tile p).treadle)
    rw [State.tile_setTile]
    exact hret.rest

/-- A step of the ROM at rest. -/
theorem romStep_rest (h : AtRest kinds (s.tile p).treadle) (hkinds : kinds ⊆ quietKinds) (h4 : 4 ∈ kinds) : RestStep kinds p s (s.romStep p) := by
  obtain ⟨hupc, _⟩ | ⟨hupc, _⟩ | ⟨hupc, _⟩ := h.place
  · have hstep : s.romStep p = s.romIdle p := by
      unfold State.romStep
      simp only [hupc]
      rfl
    exact hstep ▸ romIdle_rest h hkinds h4 hupc
  · have hstep : s.romStep p = s.romVector p := by
      unfold State.romStep
      simp only [hupc]
      rfl
    exact hstep ▸ romVector_rest h hupc
  · exact romAccount_rest h hupc

/-- The ROM at rest, for as long as it runs. -/
theorem romRun_rest (k : Nat) (h : AtRest kinds (s.tile p).treadle) (hkinds : kinds ⊆ quietKinds) (h4 : 4 ∈ kinds) :
    RestStep kinds p s (State.romRun k s p) := by
  induction k generalizing s with
  | zero => exact ⟨.refl s, h⟩
  | succ k ih =>
    have hstep := romStep_rest h hkinds h4
    unfold State.romRun
    dsimp only
    split
    next => exact ⟨.refl s, h⟩
    next =>
      split
      next hupc =>
        split
        next =>
          have hstack : (s.tile p).treadle.stack = [] := by
            obtain ⟨_, hst⟩ | ⟨hu, _⟩ | ⟨hu, _⟩ := h.place
            · exact hst
            · exact absurd (hu.symm.trans hupc) (by decide)
            · exact absurd (hu.symm.trans hupc) (by decide)
          rw [if_neg (by rw [hstack]; decide)]
          have hint : AtRest kinds (s.tile p).treadle.interrupt :=
            ⟨h.laneReq, h.abandon, h.events, .inr (.inl ⟨rfl, by rw [Treadle.interrupt, hupc, hstack]⟩)⟩
          have h1 : RestStep kinds p s (s.setTreadle p (s.tile p).treadle.interrupt) := .treadle hint
          exact h1.trans (ih h1.rest)
        next =>
          split
          next =>
            split
            · exact ⟨.refl s, h⟩
            · exact hstep
          next => exact hstep.trans (ih hstep.rest)
      next => exact hstep.trans (ih hstep.rest)

end

/-! ### Treadle that stands at no entry of the ROM, or is at rest -/

/-- Treadle stands at no entry of the ROM, or is at rest. -/
def Calm (kinds : List Nat) (r : Treadle) : Prop := r.atRom = false ∨ AtRest kinds r

namespace Calm

variable {kinds : List Nat} {r q : Treadle}

theorem of_treadleCalm (h : treadleCalm r) : Calm kinds r := by
  refine h.imp_right fun ⟨_, hupc, _, _, hstack, hev, hst, hreq, _, hab, _⟩ => ⟨hreq, hab, ?_, .inl ⟨hupc, hstack⟩⟩
  rw [hev, hst]
  exact fun x hx => nomatch hx

theorem raised (h : Calm kinds r) (hr : Raised r q) (h4 : 4 ∈ kinds) : Calm kinds q := by
  obtain hrom | hrest := h
  · obtain ⟨ev, st, est, rfl, _⟩ := hr
    exact .inl hrom
  · exact .inr (hrest.raised hr h4)

/-- An event of a kind that the ROM takes without a word. -/
theorem event (h : Calm kinds r) {x : Word} (hk : x.toNat / 2 ^ 28 ∈ kinds) : Calm kinds (r.raise x) := by
  obtain ⟨ev, st, hr⟩ := treadleRaise_frame r x
  obtain hrom | hrest := h
  · rw [hr]
    exact .inl hrom
  · have hall : ∀ y ∈ ev ++ st, y.toNat / 2 ^ 28 ∈ kinds := fun y hy => by
      have hmem : y ∈ (r.raise x).events ++ (r.raise x).stalled := by rwa [hr]
      exact (mem_raise hmem).elim (hrest.events y) fun heq => heq ▸ hk
    rw [hr]
    exact .inr ⟨hrest.laneReq, hrest.abandon, hall, hrest.place⟩

/-- A report of a cut. -/
theorem cutReport (h : Calm kinds r) (c : Option Nat) : Calm kinds { r with cutReport := c } :=
  h.imp_right fun hrest => ⟨hrest.laneReq, hrest.abandon, hrest.events, hrest.place⟩

end Calm

/-- Treadle that stands at no entry of the ROM does nothing. -/
theorem runTreadle_of_atRom {s : State} {p : Nat} (h : (s.tile p).treadle.atRom = false) : s.runTreadle p = s := by
  show State.romRun (1023 + 1) s p = s
  rw [State.romRun, h]
  rfl

/-- A calm Treadle goes on without a word of its own. -/
theorem runTreadle_goes {kinds : List Nat} {s : State} {p : Nat} (h : Calm kinds (s.tile p).treadle) (hkinds : kinds ⊆ quietKinds) (h4 : 4 ∈ kinds) :
    Goes kinds p s (s.runTreadle p) := by
  obtain hrom | hrest := h
  · rw [runTreadle_of_atRom hrom]
    exact .refl s
  · exact (romRun_rest 1024 hrest hkinds h4).goes

/-- Treadle that waits in its idle loop with nothing to do, or stands at no entry of the ROM, does nothing. -/
theorem runTreadle_calm {s : State} {p : Nat} (h : treadleCalm (s.tile p).treadle) : s.runTreadle p = s := by
  obtain hrom | ⟨_, hupc, hwait, _, _, hev, _, hreq, hcut, hab, _⟩ := h
  · exact runTreadle_of_atRom hrom
  · show State.romRun (1023 + 1) s p = s
    rw [State.romRun]
    simp [hupc, hwait, hev, hreq, hcut, hab, Treadle.pending]

end Sys2Proof.Proofs
end

section
/-! PROOFS. The lanes' commands beside a calm Treadle (O19). -/

open Sys2Proof Sys2Proof.Machine

-- One proof at a time: a thread for each proof would pass the limit that the check sets to memory.
set_option Elab.async false

namespace Sys2Proof.Proofs

/-! ### The frame of a tile that serves -/

/-- A tile that serves and has a frame. -/
theorem frameOf_some {s : State} {tile p : Nat} {t : Tile} {f : Frame} (h : frameOf s tile = some (p, t, f)) :
    encPhys s tile = p ∧ p ≠ 0xFF ∧ s.tile p = t ∧ t.frame = some f := by
  unfold frameOf at h
  dsimp only at h
  split at h
  next => exact nomatch h
  next hserves =>
    obtain ⟨g, hg, heq⟩ := Option.map_eq_some_iff.1 h
    obtain ⟨rfl, htile, rfl⟩ := Prod.mk.inj heq |>.imp id Prod.mk.inj
    exact ⟨rfl, hserves, htile, htile ▸ hg⟩

@[simp] theorem Frame.lane_setLane (f : Frame) (l : Nat) (v : Lane) : (f.setLane l v).lane l = v := by
  unfold Frame.lane Frame.setLane
  split <;> rfl

/-- Looking at a Bobbin from its destination leaves the tiles. -/
theorem tile_bobDst (s : State) (b : BobbinId) (p : Nat) : (s.bobDst b).tile p = s.tile p := rfl

/-- What reading a tile's Bobbins may change. -/
abbrev pollParts : List Part := [.clk, .pins, .store, .paths, .bobs, .tiles, .encs, .totals, .pool, .intc, .mem, .faults, .out]

/-- A tile's Bobbins are read in no time. -/
theorem pollTile_now (s : State) (tile : Nat) (e x : Ecc) : (s.pollTile tile e x).clk.now = s.clk.now := by
  rw [((Touches.refl s).pollTile : Touches pollParts s (s.pollTile tile e x)).ticks]

/-! ### A lane's request -/

section
variable {s : State} {tile : Fin 64} {lane : Fin 2} {p : Nat} {t0 : Tile} {f : Frame} {i : Nat} {l : List Nat}

/-- The request that a lane makes for a CTU (R303). -/
def requestFor (f : Frame) (lane : Fin 2) (i now : Nat) : LaneReq :=
  { lane := lane, idx := i, cls := classOf (lookD { hint := ⟨0, false, false, false, 0, 0, 0, 0, 0⟩ } f.ctus i).hint, first := f.firstOfRow i, since := now }

/-- The requests of the lanes, one's own among them. -/
def withRequest (reqs : List LaneReq) (lane : Fin 2) (q : LaneReq) : List LaneReq :=
  if reqs.any (fun x => x.lane == lane) then reqs else reqs ++ [q]

theorem withRequest_any (reqs : List LaneReq) (f : Frame) (lane : Fin 2) (i now : Nat) :
    (withRequest reqs lane (requestFor f lane i now)).any (fun q => q.lane == lane) = true := by
  unfold withRequest
  split
  next hany => exact hany
  next => simp [requestFor]

/-- A request that comes: a lane without a CTU, whose next CTU the wavefront allows and whose items are there. -/
theorem laneRequest_exec (hawake : asleep s = false) (hframe : frameOf (s.pollTile tile) tile = some (p, t0, f))
    (hwaiting : f.waiting lane.val = i :: l) (hfree : (f.lane lane.val).ctu = none) (hwave : f.waveOk i = true)
    (havail : 256 ≤ ((s.pollTile tile).bobDst (.ctu (ftile p) lane)).bobAvail (.ctu (ftile p) lane)) :
    exec (.laneRequest tile lane) s = .next (if (match f.cut.rate with | some c => decide (c ≤ i) | none => false) then
        (((s.pollTile tile).bobDst (.ctu (ftile p) lane)).setTile p { t0 with frame := some (f.setLane lane { f.lane lane with ctu := some i, cleared := true, items := [] }) }).runTreadle p
      else (((s.pollTile tile).bobDst (.ctu (ftile p) lane)).setTile p { t0 with treadle := { t0.treadle with
        laneReq := withRequest t0.treadle.laneReq lane (requestFor f lane i (s.pollTile tile).clk.now) } }).runTreadle p) := by
  refine (awake_of hawake _).trans ?_
  dsimp only
  rw [hframe]
  dsimp only
  rw [hwaiting]
  dsimp only
  rw [if_neg (by simp [hfree, hwave, Nat.not_lt.2 havail])]
  exact (apply_ite Host.Outcome.next _ _ _).symm

theorem laneRequest_cut (s : State) (tile : Fin 64) (lane : Fin 2) (p : Nat) (t0 : Tile) (f : Frame) (i : Nat) (l : List Nat) (c : Nat)
    (hawake : asleep s = false) (hframe : frameOf (s.pollTile tile) tile = some (p, t0, f)) (hwaiting : f.waiting lane.val = i :: l)
    (hfree : (f.lane lane.val).ctu = none) (hwave : f.waveOk i = true)
    (havail : 256 ≤ ((s.pollTile tile).bobDst (.ctu (ftile p) lane)).bobAvail (.ctu (ftile p) lane)) (hcalm : treadleCalm t0.treadle)
    (hcut : f.cut.rate = some c) (hle : c ≤ i) :
    does (.laneRequest tile lane) s fun t =>
      ((t.tile p).frame.map fun f1 => ((f1.lane lane.val).ctu, (f1.lane lane.val).cleared)) = some (some i, true) ∧ t = { (s.pollTile tile) with tiles := t.tiles, bobs := t.bobs, clk := t.clk } := by
  have hexec := laneRequest_exec hawake hframe hwaiting hfree hwave havail
  rw [hcut, if_pos (decide_eq_true hle), runTreadle_calm (by rw [State.tile_setTile]; exact hcalm)] at hexec
  refine ⟨_, hexec, ?_, ((Touches.refl _).bobDst.setTile : Touches [.clk, .bobs, .tiles] (s.pollTile tile) _).frame (by simp)⟩
  rw [State.tile_setTile]
  simp

theorem laneRequest_waits (s : State) (tile : Fin 64) (lane : Fin 2) (p : Nat) (t0 : Tile) (f : Frame) (i : Nat) (l : List Nat)
    (hawake : asleep s = false) (hframe : frameOf (s.pollTile tile) tile = some (p, t0, f)) (hwaiting : f.waiting lane.val = i :: l)
    (hfree : (f.lane lane.val).ctu = none) (hwave : f.waveOk i = true)
    (havail : 256 ≤ ((s.pollTile tile).bobDst (.ctu (ftile p) lane)).bobAvail (.ctu (ftile p) lane)) (hstopped : t0.treadle.stopped = true)
    (hcut : f.cut.rate = none) :
    does (.laneRequest tile lane) s fun t =>
      ((t.tile p).treadle.laneReq.any fun q => q.lane == lane) = true ∧ (t.tile p).frame = t0.frame ∧ t = { (s.pollTile tile) with tiles := t.tiles, bobs := t.bobs, clk := t.clk } := by
  have hexec := laneRequest_exec hawake hframe hwaiting hfree hwave havail
  rw [hcut, if_neg Bool.false_ne_true, runTreadle_of_atRom (by rw [State.tile_setTile]; simp [Treadle.atRom, hstopped])] at hexec
  refine ⟨_, hexec, ?_, ?_, ((Touches.refl _).bobDst.setTile : Touches [.clk, .bobs, .tiles] (s.pollTile tile) _).frame (by simp)⟩
  · rw [State.tile_setTile]
    exact withRequest_any ..
  · rw [State.tile_setTile]

end

/-! ### The start of a lane's CTU -/

section
variable (v : State) (p : Nat) (t : Tile) (f : Frame) (lane : Fin 2) (i : Nat) (c : FrameCtu)

/-- The items that a lane's next CTU takes. -/
def laneItems : List (BitVec 256 × Bool) := (v.bob (.ctu (ftile p) lane)).items.take 256

/-- The lane codes the CTU intra: a refresh CTU, or one that the stream's table forces. -/
def startsIntra : Bool := c.hint.refresh || (match look (v.enc f.stream).table i with | some x => x.forceIntra | none => false)

/-- The lane's path of a CTU that starts. -/
def startPath : CtuPath :=
  let qp := if (match f.cut.rate with | some k => decide (k ≤ i) | none => false) then codecQp f.codec else lookD f.plan.qpf f.rowQp (i / f.cols)
  .lane (classOf c.hint) qp (qp == codecQp f.codec)

/-- The frame when a lane's CTU has started. -/
def startedFrame : Frame :=
  { (f.setLane lane { f.lane lane with ctu := some i, started := v.clk.now, items := (laneItems v p lane).map (·.1), intra := startsIntra v f i c, gate := 0 }) with
    ctus := put f.ctus i { c with path := some (startPath f i c) } }

/-- The device when a lane's CTU has started, before its references are fetched. -/
def laneStarted (item : Ecc) : State :=
  let s1 := (v.bobDrop (.ctu (ftile p) lane) 256).readItem (.ctu (ftile p) lane) item
  s1.setTile p { s1.tile p with
    waitWave := t.waitWave + BitVec.ofNat 32 (match (f.lane lane).freeAt with | some a => 2 * (v.clk.now - a) - (f.lane lane).gate | none => 0)
    frame := some (startedFrame v p f lane i c) }

/-- The frame when an uncorrectable item has taken a CTU out of a lane's hands. -/
def lostFrame : Frame :=
  { (f.setLane lane { f.lane lane with ctu := none, cleared := false }) with
    ctus := put f.ctus i (if c.hint.refresh then toGrey c else toSkip c), substituted := true }

/-- The tile then: the CTU's estimate is gone. -/
def lostTile : Tile := { t with treadle := { t.treadle with estimates := t.treadle.estimates.filter (·.1 ≠ i) } }

/-- The device then, before Treadle goes on. -/
def laneLost (item : Ecc) : State :=
  let s2 := (((v.bobDrop (.ctu (ftile p) lane) 256).readItem (.ctu (ftile p) lane) item).putFrame p (lostTile t i) (lostFrame f lane i c)).count 0x5011 7
  (if c.hint.refresh then s2.count 0x5011 0xA else s2).tileError p 0

end

section
variable {s : State} {tile : Fin 64} {lane : Fin 2} {p : Nat} {t0 : Tile} {f : Frame} {i : Nat} {c : FrameCtu}

/-- A cleared CTU whose items are there starts, or an uncorrectable item takes it out of the lane's hands. -/
theorem laneCtuStart_exec (item : Ecc) (hawake : asleep s = false) (hframe : frameOf (s.pollTile tile) tile = some (p, t0, f))
    (hctu : (f.lane lane.val).ctu = some i) (hlook : look f.ctus i = some c) (hcleared : (f.lane lane.val).cleared = true) (hpath : c.path = none)
    (havail : 256 ≤ ((s.pollTile tile).bobDst (.ctu (ftile p) lane)).bobAvail (.ctu (ftile p) lane)) (hwave : f.waveOk i = true)
    (hdrain : f.draining = false) {v : State} (hv : v = (s.pollTile tile).bobDst (.ctu (ftile p) lane)) :
    exec (.laneCtuStart tile lane .clean item) s = if decide (item = .uncorrectable) || (laneItems v p lane).any (·.2) then
        .next ((laneLost v p t0 f lane i c item).runTreadle p)
      else .next ((if startsIntra v f i c then laneStarted v p t0 f lane i c item else
        (laneStarted v p t0 f lane i c item).fetchRefs p f i c.hint).runTreadle p) := by
  obtain ⟨rfl, _, rfl, hf⟩ := frameOf_some hframe
  subst hv
  refine (awake_of hawake _).trans ?_
  dsimp only
  rw [hframe]
  dsimp only
  rw [hctu]
  dsimp only
  rw [hlook]
  dsimp only
  rw [if_neg (by simp [hcleared, hpath, hwave, hdrain, Nat.not_lt.2 havail])]
  rfl

/-- Fetching references changes a tile's cache alone. -/
theorem tile_fetchRefs (s : State) (p : Nat) (f : Frame) (i : Nat) (h : Hint) :
    ∃ k, (s.fetchRefs p f i h).tile p = { s.tile p with cache := k } := ⟨_, State.tile_setTile ..⟩

/-- A CTU that has started has its path. -/
theorem startedFrame_starts (v : State) (p : Nat) (f : Frame) (lane : Fin 2) (i : Nat) (c : FrameCtu) :
    ((startedFrame v p f lane i c).lane lane).started = v.clk.now ∧ ((startedFrame v p f lane i c).lane lane).items = (laneItems v p lane).map (·.1) ∧
      ((look (startedFrame v p f lane i c).ctus i).any fun q => q.path.isSome) = true := by
  have hlane : (startedFrame v p f lane i c).lane lane = (f.setLane lane { f.lane lane with
      ctu := some i, started := v.clk.now, items := (laneItems v p lane).map (·.1), intra := startsIntra v f i c, gate := 0 }).lane lane := rfl
  rw [hlane, Frame.lane_setLane]
  refine ⟨rfl, rfl, ?_⟩
  unfold startedFrame
  rw [look_put_same]
  rfl

theorem laneCtuStart_starts (s : State) (tile : Fin 64) (lane : Fin 2) (p : Nat) (t0 : Tile) (f : Frame) (i : Nat) (c : FrameCtu)
    (hawake : asleep s = false) (hframe : frameOf (s.pollTile tile) tile = some (p, t0, f)) (hctu : (f.lane lane.val).ctu = some i)
    (hlook : look f.ctus i = some c) (hcleared : (f.lane lane.val).cleared = true) (hpath : c.path = none)
    (havail : 256 ≤ ((s.pollTile tile).bobDst (.ctu (ftile p) lane)).bobAvail (.ctu (ftile p) lane)) (hwave : f.waveOk i = true)
    (hdrain : f.draining = false) (hcalm : treadleCalm t0.treadle)
    (hclean : ((((s.pollTile tile).bobDst (.ctu (ftile p) lane)).bob (.ctu (ftile p) lane)).items.take 256).all (fun q => !q.2) = true) :
    does (.laneCtuStart tile lane .clean .clean) s fun t =>
      ((t.tile p).frame.map fun f1 => ((f1.lane lane.val).started, (f1.lane lane.val).items, (look f1.ctus i).any fun q => q.path.isSome)) = some (s.clk.now, (((s.pollTile tile).bobDst (.ctu (ftile p) lane)).bob (.ctu (ftile p) lane)).items.take 256 |>.map (·.1), true) ∧ (t.bob (.ctu (ftile p) lane)).items = (((s.pollTile tile).bobDst (.ctu (ftile p) lane)).bob (.ctu (ftile p) lane)).items.drop 256 ∧ t = { (s.pollTile tile) with tiles := t.tiles, bobs := t.bobs, clk := t.clk, caches := t.caches } := by
  let v := (s.pollTile tile).bobDst (.ctu (ftile p) lane)
  let u := laneStarted v p t0 f lane i c .clean
  let w : State := if startsIntra v f i c then u else u.fetchRefs p f i c.hint
  have ht0 : v.tile p = t0 := (frameOf_some hframe).2.2.1
  have hu : (u.tile p).frame = some (startedFrame v p f lane i c) ∧ (u.tile p).treadle = t0.treadle := by
    have htile : u.tile p = _ := State.tile_setTile ..
    rw [htile]
    exact ⟨rfl, (congrArg Tile.treadle ht0 : (v.tile p).treadle = t0.treadle)⟩
  have hw : (w.tile p).frame = some (startedFrame v p f lane i c) ∧ (w.tile p).treadle = t0.treadle ∧ ∀ b, w.bob b = u.bob b := by
    by_cases hintra : startsIntra v f i c = true
    · rw [show w = u from if_pos hintra]
      exact ⟨hu.1, hu.2, fun _ => rfl⟩
    · obtain ⟨k, hk⟩ := tile_fetchRefs u p f i c.hint
      rw [show w = u.fetchRefs p f i c.hint from if_neg hintra, hk]
      exact ⟨hu.1, hu.2, fun _ => rfl⟩
  obtain ⟨hstarted, hitems, hpathed⟩ := startedFrame_starts v p f lane i c
  have hnone : ¬(decide (Ecc.clean = .uncorrectable) || (laneItems v p lane).any (·.2)) = true := by
    simpa [laneItems, v] using hclean
  have hexec := (laneCtuStart_exec .clean hawake hframe hctu hlook hcleared hpath havail hwave hdrain rfl).trans (if_neg hnone)
  rw [runTreadle_calm (hw.2.1 ▸ hcalm)] at hexec
  have htouch : Touches [.clk, .bobs, .tiles, .caches] (s.pollTile tile) w :=
    .ite (Touches.refl _).bobDst.bobDrop.setTile (Touches.refl _).bobDst.bobDrop.setTile.fetchRefs
  have hnow : v.clk.now = s.clk.now := pollTile_now ..
  refine ⟨w, hexec, ?_, ?_, htouch.frame (by simp)⟩
  · rw [hw.1, Option.map_some, hstarted, hitems, hpathed, hnow]
    rfl
  · rw [hw.2.2]
    show ((v.bobDrop (.ctu (ftile p) lane) 256).bob (.ctu (ftile p) lane)).items = _
    rw [State.bobDrop, State.bob_setBob]
    rfl

end

end Sys2Proof.Proofs
end

section
/-! PROOFS. The end of a lane's CTU, skip runs, row ends and final CTUs beside a calm Treadle (O19). -/

open Sys2Proof Sys2Proof.Machine

-- One proof at a time: a thread for each proof would pass the limit that the check sets to memory.
set_option Elab.async false

namespace Sys2Proof.Proofs

/-! ### A frame written back, and Treadle going on -/

/-- Without a closed row among the events that Treadle may take, the streams stay too. -/
theorem Goes.quiet {kinds : List Nat} {p : Nat} {s u : State} (h : Goes kinds p s u) (h5 : 5 ∉ kinds) : Touches [.clk, .bobs, .tiles] s u where
  keeps := fun q hq => by
    by_cases hencs : q = .encs
    · exact hencs ▸ h.encs h5
    · exact h.keeps.keeps q fun hmem => by
        simp only [List.mem_cons, List.not_mem_nil, or_false] at hmem hq
        tauto
  ticks := h.keeps.ticks
  stands := h.keeps.stands

/-- A tile's frame is written back and Treadle goes on: the frame goes on from the one written, and the tile keeps the counts and, once every row is
closed, the closed marks of the one written. -/
structure Resumed (t : Tile) (f : Frame) (u : Tile) : Prop where
  frame : ∃ g, u.frame = some g ∧ CodedOn f g
  err : u.err = t.err
  laneCtus : u.laneCtus = t.laneCtus
  skipCtus : u.skipCtus = t.skipCtus
  marks : f.rows ≤ f.rowsDone → closedMarks u = closedMarks t

section
variable {kinds : List Nat} {s u v : State} {p : Nat} {t : Tile} {f : Frame}

/-- A frame that has been written back stands as the coder leaves it. -/
theorem resumed_putFrame (s : State) (p : Nat) (t : Tile) (f : Frame) : Resumed t f ((s.putFrame p t f).tile p) := by
  obtain ⟨g, hg, hcoded⟩ := putFrame_coded s p t f
  exact ⟨⟨g, hg, hcoded.frame⟩, hcoded.err, hcoded.laneCtus, hcoded.skipCtus, hcoded.marks⟩

/-- Treadle goes on with it. -/
theorem Resumed.goes (h : Resumed t f (u.tile p)) (hgoes : Goes kinds p u v) : Resumed t f (v.tile p) := by
  obtain ⟨g, hg, hon⟩ := h.frame
  obtain ⟨k, hk, hon', hmarks⟩ := hgoes.on.frame g hg
  exact ⟨⟨k, hk, hon.trans hon'⟩, hgoes.on.err.trans h.err, hgoes.on.laneCtus.trans h.laneCtus, hgoes.on.skipCtus.trans h.skipCtus,
    fun hdone => (hmarks (by rw [hon.rows, hon.rowsDone]; exact hdone)).trans (h.marks hdone)⟩

/-- What Treadle is after a frame has been written back. -/
theorem calm_putFrame (h4 : 4 ∈ kinds) (h : Calm kinds t.treadle) : Calm kinds ((s.putFrame p t f).tile p).treadle := by
  obtain ⟨_, _, hcoded⟩ := putFrame_coded s p t f
  exact h.raised hcoded.treadle h4

end

/-! ### Coding a CTU of a skip run -/

/-- Coding a CTU raises the events of coded CTUs alone. -/
theorem codeOne_raised (t : Tile) (f : Frame) (y i : Nat) (c : FrameCtu) (k : Nat) : Raised t.treadle (codeOne t f y i c k).1.treadle := by
  obtain ⟨o, tr, early, held, n, cus, ec, bits, sb, sk, by_, hcode, hraised⟩ := codeOne_shape t f y i c k
  rwa [hcode]

/-- Coding a CTU of a skip run counts it. -/
theorem codeOne_skipCtus (t : Tile) (f : Frame) (y i : Nat) {c : FrameCtu} (k : Nat) (h : c.path = some .skip) :
    (codeOne t f y i c k).1.skipCtus = t.skipCtus + 1 := by
  obtain ⟨o, tr, early, held, n, cus, ec, bits, sb, sk, by_, hcode, _⟩ := codeOne_shape t f y i c k
  rw [hcode]
  exact if_pos h

section
variable {s : State} {tile : Fin 64} {p : Nat} {t0 : Tile} {f : Frame} {i : Nat} {c : FrameCtu}

/-- A CTU that a skip run's command codes. -/
theorem skipRunCtu_exec (hawake : asleep s = false) (hframe : frameOf (s.pollTile tile) tile = some (p, t0, f))
    (hnext : f.nextCtu t0 (outletOf (s.pollTile tile) p) f.rowsDone = some (i, c)) (hpath : c.path = some .skip) {u : State} (hu : u = s.pollTile tile) :
    exec (.skipRunCtu tile) s = .next ((((({ u with clk := { u.clk with free := u.clk.free + 65 } } : State).putFrame p
      (codeOne t0 f f.rowsDone i c u.clk.free).1 (codeOne t0 f f.rowsDone i c u.clk.free).2).count 0x5011 2).count 0x5011 9
        (amvpCount (skipCus f i (u.clk.free + 1)))).runTreadle p) := by
  subst hu
  have hskip : (f.nextCtu t0 (outletOf (s.pollTile tile) p) f.rowsDone).filter (fun c => decide (c.2.path = some .skip)) = some (i, c) := by
    rw [hnext, Option.filter_some, if_pos (decide_eq_true hpath)]
  refine (awake_of hawake _).trans ?_
  dsimp only
  rw [hframe]
  dsimp only
  rw [hskip]

theorem skipRunCtu_codes (s : State) (tile : Fin 64) (p : Nat) (t0 : Tile) (f : Frame) (i : Nat) (c : FrameCtu) (hawake : asleep s = false)
    (hframe : frameOf (s.pollTile tile) tile = some (p, t0, f))
    (hnext : f.nextCtu t0 (outletOf (s.pollTile tile) p) f.rowsDone = some (i, c)) (hpath : c.path = some .skip)
    (hcalm : treadleCalm t0.treadle) :
    does (.skipRunCtu tile) s fun t =>
      ((t.tile p).frame.map fun f1 => (look f1.ctus i).any fun q => q.coded) = some true ∧ (t.tile p).skipCtus = t0.skipCtus + 1 ∧ t = { (s.pollTile tile) with tiles := t.tiles, bobs := t.bobs, totals := t.totals, clk := t.clk } := by
  have hexec := skipRunCtu_exec hawake hframe hnext hpath rfl
  generalize hu : s.pollTile tile = u at *
  let r := codeOne t0 f f.rowsDone i c u.clk.free
  let w : State := { u with clk := { u.clk with free := u.clk.free + 65 } }
  let v := ((w.putFrame p r.1 r.2).count 0x5011 2).count 0x5011 9 (amvpCount (skipCus f i (u.clk.free + 1)))
  have hgoes : Goes [4] p v (v.runTreadle p) :=
    runTreadle_goes (calm_putFrame (by decide) ((Calm.of_treadleCalm hcalm).raised (codeOne_raised ..) (by decide))) (by decide) (by decide)
  have hresumed : Resumed r.1 r.2 ((v.runTreadle p).tile p) := Resumed.goes (u := v) (resumed_putFrame w p r.1 r.2) hgoes
  obtain ⟨_, d, hd, hcoded⟩ := codeOne_frame (t := t0) (y := f.rowsDone) (k := u.clk.free) (nextCtu_some hnext).1
  obtain ⟨g, hg, hon⟩ := hresumed.frame
  obtain ⟨e, he, _, hstill⟩ := hon.ctus i d hd
  have htouch : Touches [.clk, .bobs, .tiles, .totals] u (v.runTreadle p) :=
    ((Touches.refl u).setClk.putFrame.count.count).op (hgoes.quiet (by decide))
  refine ⟨v.runTreadle p, hexec, ?_, ?_, htouch.frame (by simp)⟩
  · rw [hg, Option.map_some, he]
    exact congrArg some (hstill hcoded)
  · rw [hresumed.skipCtus]
    exact codeOne_skipCtus t0 f _ _ _ hpath

end

/-! ### The end of a CTU row -/

/-- The last NAL unit is closed. -/
theorem closeOpen_getLast? (l : List NalOut) (last : Bool) : ((closeOpen l last).getLast?.all fun x => x.closed) = true := by
  induction l with
  | nil => rfl
  | cons x r ih =>
    cases r with
    | nil => rfl
    | cons y r =>
      have hne : closeOpen (y :: r) last ≠ [] := by
        cases r <;> simp [closeOpen]
      rw [closeOpen, List.getLast?_cons_of_ne_nil hne]
      · exact ih
      · exact nofun

/-- Bytes appended close no NAL unit and open none. -/
theorem appendOpen_closed (l : List NalOut) (b : Bytes) : (appendOpen l b).map NalOut.closed = l.map NalOut.closed := by
  induction l with
  | nil => rfl
  | cons x r ih =>
    cases r with
    | nil =>
      rw [appendOpen]
      split <;> rfl
    | cons y r =>
      rw [appendOpen, List.map_cons, ih]
      · rfl
      · exact nofun

/-- Whether the last NAL unit is closed is seen from the marks. -/
theorem getLast?_closed (l : List NalOut) : (l.getLast?.all fun x => x.closed) = ((l.map NalOut.closed).getLast?.all id) := by
  rw [List.getLast?_map, Option.all_map]
  rfl

/-- The header of the slice that the next row begins, where it begins one. -/
def rowHeader (f : Frame) (e : Enc) : Bytes := if decide (f.rowsDone + 1 = f.rows) || isVvc f.codec then [] else openSlice f e (f.rowsDone + 1)

/-- The NAL units when the open row ends, the row's last byte being `tail`. -/
def rowNals (f : Frame) (nals : List NalOut) (e : Enc) (tail : Bytes) : List NalOut :=
  let lastRow := decide (f.rowsDone + 1 = f.rows)
  let n1 := appendOpen nals tail
  let n2 := if lastRow || !(isVvc f.codec) then closeOpen n1 lastRow else n1
  let n3 := if lastRow || isVvc f.codec then n2
    else n2 ++ [{ stream := f.stream, slot := f.slot, boundary := f.boundary, vvc := false, fu := f.fu, data := rowHeader f e, closed := false
                  first := false, last := false, sent := 0 }]
  appendOpen n3 (if lastRow then [] else f.held)

/-- Behind the last row the last NAL unit is closed. -/
theorem rowNals_closed {f : Frame} (nals : List NalOut) (e : Enc) (tail : Bytes) (h : f.rowsDone + 1 = f.rows) :
    ((rowNals f nals e tail).getLast?.all fun x => x.closed) = true := by
  unfold rowNals
  rw [getLast?_closed, appendOpen_closed, ← getLast?_closed]
  simp only [decide_eq_true h, Bool.true_or, if_true]
  exact closeOpen_getLast? ..

/-- The tile when the open row ends: Treadle is told. -/
def rowTile (t : Tile) (f : Frame) (nals : List NalOut) : Tile :=
  let t1 := ({ t with out := { t.out with nals := nals } } : Tile).raise (eventWord 5 f.rowsDone)
  if decide (f.rowsDone + 1 = f.rows) then (t1.raise (eventWord 8 (f.skipBits % 2 ^ 24))).raise (eventWord 9 (f.skips % 2 ^ 14)) else t1

/-- The frame when the open row ends. -/
def rowFrame (f : Frame) (e : Enc) (tail : Bytes) : Frame :=
  { f with
    rowsDone := f.rowsDone + 1, held := []
    bits := f.bits + 8 * (tail.length + (rowHeader f e).length) - f.rowBits f.rowsDone % 8
    bytes := f.bytes + tail.length + (rowHeader f e).length + f.held.length }

theorem rowTile_calm {t : Tile} {f : Frame} {nals : List NalOut} (h : Calm quietKinds t.treadle) : Calm quietKinds (rowTile t f nals).treadle := by
  have h5 : Calm quietKinds (t.treadle.raise (eventWord 5 f.rowsDone)) := h.event (by rw [eventWord_kind _ _ (by decide)]; decide)
  unfold rowTile
  split
  · refine (h5.event ?_).event ?_
    · rw [eventWord_kind _ _ (by decide)]
      decide
    · rw [eventWord_kind _ _ (by decide)]
      decide
  · exact h5

theorem rowTile_marks (t : Tile) (f : Frame) (nals : List NalOut) : closedMarks (rowTile t f nals) = nals.map NalOut.closed := by
  unfold rowTile
  split <;> rfl

section
variable {s : State} {tile : Fin 64} {p : Nat} {t0 : Tile} {f : Frame}

/-- The open row of a committed picture ends. -/
theorem rowClose_exec (hawake : asleep s = false) (hframe : frameOf (s.pollTile tile) tile = some (p, t0, f)) (hopen : f.rowsDone < f.rows)
    (hcoded : f.next f.rowsDone = f.cols) (hstalled : t0.treadle.stalled = []) (hcommitted : f.committed = true)
    (hroom : t0.out.freshCount < (outletOf (s.pollTile tile) p).room) {u : State} (hu : u = s.pollTile tile) {tail : Bytes}
    (htail : tail = slice (Config.nalBytes u.clk.free) 0 1) :
    exec (.rowClose tile) s = .next ((({ u with clk := { u.clk with free := u.clk.free + 1 } } : State).putFrame p
      (rowTile t0 f (rowNals f t0.out.nals (u.enc f.stream) tail)) (rowFrame f (u.enc f.stream) tail)).runTreadle p) := by
  subst hu htail
  have hsets : ∀ l, setSliceNals t0 f l = ({ t0 with out := { t0.out with nals := l } }, f) := fun l => if_pos hcommitted
  have hnals : sliceNals t0 f = t0.out.nals := if_pos hcommitted
  refine (awake_of hawake _).trans ?_
  dsimp only
  rw [hframe]
  dsimp only
  rw [if_neg (by simp [hcoded, hstalled, Nat.not_le.2 hopen, Nat.not_le.2 hroom]), hnals, hsets]
  rfl

theorem rowClose_advances (s : State) (tile : Fin 64) (p : Nat) (t0 : Tile) (f : Frame) (hawake : asleep s = false)
    (hframe : frameOf (s.pollTile tile) tile = some (p, t0, f)) (hopen : f.rowsDone < f.rows) (hcoded : f.next f.rowsDone = f.cols)
    (hstalled : t0.treadle.stalled = []) (hcommitted : f.committed = true) (hroom : t0.out.freshCount < (outletOf (s.pollTile tile) p).room)
    (hcalm : treadleCalm t0.treadle) :
    does (.rowClose tile) s fun t =>
      ((t.tile p).frame.map fun f1 => f1.rowsDone) = some (f.rowsDone + 1) ∧ (f.rowsDone + 1 = f.rows → (t.tile p).out.nals.getLast?.all (fun x => x.closed) = true) ∧ t = { (s.pollTile tile) with tiles := t.tiles, encs := t.encs, bobs := t.bobs, clk := t.clk } := by
  have hexec := rowClose_exec hawake hframe hopen hcoded hstalled hcommitted hroom rfl rfl
  generalize hu : s.pollTile tile = u at *
  let tail := slice (Config.nalBytes u.clk.free) 0 1
  let nals := rowNals f t0.out.nals (u.enc f.stream) tail
  let g := rowFrame f (u.enc f.stream) tail
  let w : State := { u with clk := { u.clk with free := u.clk.free + 1 } }
  let v := w.putFrame p (rowTile t0 f nals) g
  have hgoes : Goes quietKinds p v (v.runTreadle p) :=
    runTreadle_goes (calm_putFrame (by decide) (rowTile_calm (.of_treadleCalm hcalm))) (List.Subset.refl _) (by decide)
  have hresumed : Resumed (rowTile t0 f nals) g ((v.runTreadle p).tile p) := (resumed_putFrame w p (rowTile t0 f nals) g).goes hgoes
  obtain ⟨k, hk, hon⟩ := hresumed.frame
  have htouch : Touches [.clk, .bobs, .tiles, .encs] u (v.runTreadle p) := (Touches.refl u).setClk.putFrame.op hgoes.keeps
  refine ⟨v.runTreadle p, hexec, ?_, fun hlast => ?_, htouch.frame (by simp)⟩
  · rw [hk, Option.map_some, hon.rowsDone]
    rfl
  · have hdone : g.rows ≤ g.rowsDone := Nat.le_of_eq hlast.symm
    rw [getLast?_closed]
    show ((closedMarks _).getLast?.all id) = true
    rw [hresumed.marks hdone, rowTile_marks, ← getLast?_closed]
    exact rowNals_closed _ _ _ hlast

end

/-! ### The end of a lane's CTU -/

/-- A frame that does not drain is not abandoned. -/
theorem abandonDrained_of_not_draining {s : State} {tile p : Nat} (h : ∀ f, (s.tile p).frame = some f → f.draining = false) :
    s.abandonDrained tile p = s := by
  unfold State.abandonDrained
  split
  next f hf => rw [h f hf]; rfl
  next => rfl

section
variable (u : State) (p : Nat) (t : Tile) (f : Frame) (lane : Fin 2) (i : Nat) (c : FrameCtu) (qp : Nat)

/-- Lane cycles for which a hand-off was held. -/
def heldCycles : Nat := match (f.lane lane).stallAt with | some a => 2 * (u.clk.now - a) | none => 0

/-- The lane's CTU has an exact hint. -/
def endsExact : Bool := decide (c.hint.kind = 2) && !(f.lane lane).intra

/-- The exact hint is accepted, no reference being lost. -/
def endsAccepted : Bool := endsExact f lane c && true && hintAccepted u f (u.enc f.stream) i c.hint qp (itemsBlock (f.lane lane).items)

/-- The tile when a lane's CTU ends, no reference being lost. -/
def endedTile : Tile :=
  { t with
    laneCtus := t.laneCtus + 1
    accepts := if endsAccepted u f lane i c qp then t.accepts + 1 else t.accepts
    demotes := if endsExact f lane c && !(endsAccepted u f lane i c qp) then t.demotes + 1 else t.demotes
    waitEnt := t.waitEnt + BitVec.ofNat 32 (heldCycles u f lane) }

/-- The frame then. -/
def endedFrame : Frame :=
  { (f.setLane lane { freeAt := some u.clk.now }) with
    ctus := put f.ctus i { c with
      settled := true
      cus := laneCus u f (u.enc f.stream) i c.hint qp (itemsBlock (f.lane lane).items) ((f.lane lane).intra || !true) (endsAccepted u f lane i c qp) u.clk.free
      sao := Config.freeNat (u.clk.free + 2110), alf := alfChoice f (u.clk.free + 2111) }
    substituted := f.substituted || !true }

/-- The device then, before Treadle goes on. -/
def laneEnded : State :=
  (((((({ u with clk := { u.clk with free := u.clk.free + 2112 } } : State).putFrame p (endedTile u t f lane i c qp) (endedFrame u f lane i c qp)).count 0x5011 1).count
    0x5011 4 (b2n (endsAccepted u f lane i c qp))).count 0x5011 5 (b2n (endsExact f lane c && !(endsAccepted u f lane i c qp)))).count
      0x5011 6 (heldCycles u f lane))

theorem endedFrame_lane : ((endedFrame u f lane i c qp).lane lane).ctu = none := by
  have hlane : (endedFrame u f lane i c qp).lane lane = (f.setLane lane { freeAt := some u.clk.now }).lane lane := rfl
  rw [hlane, Frame.lane_setLane]

theorem endedFrame_settled : ∃ d, look (endedFrame u f lane i c qp).ctus i = some d ∧ d.settled = true := ⟨_, look_put_same .., rfl⟩

@[simp] theorem Frame.setLane_draining (l : Nat) (x : Lane) : (f.setLane l x).draining = f.draining := by
  unfold Frame.setLane
  split <;> rfl

end

section
variable {s : State} {tile : Fin 64} {lane : Fin 2} {p : Nat} {t0 : Tile} {f : Frame} {i : Nat} {c : FrameCtu} {k : CtuClass} {qp : Nat} {b : Bool}

/-- The end of a lane's CTU whose references, where it has any, are usable. -/
theorem laneCtuEnd_exec (hawake : asleep s = false) (hframe : frameOf (s.pollTile tile) tile = some (p, t0, f))
    (hctu : (f.lane lane.val).ctu = some i) (hlook : look f.ctus i = some c) (hpath : c.path = some (.lane k qp b))
    (htime : (f.lane lane.val).started + ctuSlotNs ≤ s.clk.now) (hhand : f.handOffHeld (outletOf (s.pollTile tile) p) lane.val i = false)
    (husable : (f.lane lane.val).intra = true ∨ unusable (s.pollTile tile) f ((s.pollTile tile).enc f.stream) i c.hint = [])
    {u : State} (hu : u = s.pollTile tile) :
    exec (.laneCtuEnd tile lane none) s = .next (((laneEnded u p t0 f lane i c qp).abandonDrained tile p).runTreadle p) := by
  subst hu
  have hlost : (if (f.lane lane).intra then [] else
      (([] : List (Nat × Nat)) ++ unusable (s.pollTile tile) f ((s.pollTile tile).enc f.stream) i c.hint).eraseDups) = [] := by
    split
    next => rfl
    next hinter => rw [husable.resolve_left hinter]; rfl
  have hdue : ¬(s.pollTile tile).clk.now < (f.lane lane).started + ctuSlotNs := by
    rw [pollTile_now]
    exact Nat.not_lt.2 htime
  refine (awake_of hawake _).trans ?_
  dsimp only
  rw [hframe]
  dsimp only
  rw [hctu]
  dsimp only
  rw [hlook]
  dsimp only
  rw [hpath]
  dsimp only
  rw [if_neg hdue, if_neg (by rw [hhand]; decide), hlost, ← hpath]
  rfl

theorem laneCtuEnd_settles (s : State) (tile : Fin 64) (lane : Fin 2) (p : Nat) (t0 : Tile) (f : Frame) (i : Nat) (c : FrameCtu) (k : CtuClass) (qp : Nat) (b : Bool)
    (hawake : asleep s = false) (hframe : frameOf (s.pollTile tile) tile = some (p, t0, f)) (hctu : (f.lane lane.val).ctu = some i)
    (hlook : look f.ctus i = some c) (hpath : c.path = some (.lane k qp b)) (htime : (f.lane lane.val).started + ctuSlotNs ≤ s.clk.now)
    (hhand : f.handOffHeld (outletOf (s.pollTile tile) p) lane.val i = false) (hdrain : f.draining = false)
    (husable : (f.lane lane.val).intra = true ∨ unusable (s.pollTile tile) f ((s.pollTile tile).enc f.stream) i c.hint = [])
    (hcalm : treadleCalm t0.treadle) :
    does (.laneCtuEnd tile lane none) s fun t =>
      ((t.tile p).frame.map fun f1 => ((f1.lane lane.val).ctu, f1.settledAt i)) = some (none, true) ∧ (t.tile p).laneCtus = t0.laneCtus + 1 ∧ t = { (s.pollTile tile) with tiles := t.tiles, bobs := t.bobs, totals := t.totals, clk := t.clk } := by
  have hexec := laneCtuEnd_exec hawake hframe hctu hlook hpath htime hhand husable rfl
  generalize hu : s.pollTile tile = u at *
  let t1 := endedTile u t0 f lane i c qp
  let f1 := endedFrame u f lane i c qp
  let w : State := { u with clk := { u.clk with free := u.clk.free + 2112 } }
  let v := laneEnded u p t0 f lane i c qp
  have hput : Resumed t1 f1 (v.tile p) := resumed_putFrame w p t1 f1
  have hdrain1 : f1.draining = false := (Frame.setLane_draining ..).trans hdrain
  have hstays : v.abandonDrained tile p = v := abandonDrained_of_not_draining fun g hg => by
    obtain ⟨g', hg', hon⟩ := hput.frame
    obtain rfl : g' = g := Option.some.inj (hg'.symm.trans hg)
    exact hon.draining.trans hdrain1
  rw [show (laneEnded u p t0 f lane i c qp).abandonDrained tile p = v from hstays] at hexec
  have hgoes : Goes [4] p v (v.runTreadle p) :=
    runTreadle_goes (calm_putFrame (s := w) (by decide) (Calm.of_treadleCalm hcalm : Calm [4] t1.treadle)) (by decide) (by decide)
  have hresumed : Resumed t1 f1 ((v.runTreadle p).tile p) := hput.goes hgoes
  obtain ⟨g, hg, hon⟩ := hresumed.frame
  obtain ⟨d, hd, hsettled⟩ := endedFrame_settled u f lane i c qp
  obtain ⟨e, he, hsame, _⟩ := hon.ctus i d hd
  have htouch : Touches [.clk, .bobs, .tiles, .totals] u (v.runTreadle p) :=
    (Touches.refl u).setClk.putFrame.count.count.count.count.op (hgoes.quiet (by decide))
  refine ⟨v.runTreadle p, hexec, ?_, hresumed.laneCtus, htouch.frame (by simp)⟩
  rw [hg, Option.map_some, hon.lane, endedFrame_lane, Frame.settledAt, he]
  exact congrArg (fun x => some (none, x)) (hsame.trans hsettled)

end

/-! ### Final CTUs -/

section
variable (u : State) (t : Tile) (f : Frame) (i : Nat) (c : FrameCtu)

/-- The block that a final CTU takes, and the device that has given it. -/
def finalBlock : Option (Nat × BitVec 16) × State :=
  (u.freed).allocReserved (.stream (BitVec.ofNat 16 f.stream)) .shortTerm
    (if c.path = some .grey then greyRecon f i u.clk.free else freeBlock f.ten u.clk.free)

/-- The frame when a CTU is final and written. -/
def finalFrame : Frame :=
  { f with
    ctus := put f.ctus i { c with final := true, fringe := !(isLaneCoded c), block := (finalBlock u f i c).1.map (·.1) }
    reserved := f.reserved - 1
    written := f.written ++ (match (finalBlock u f i c).1 with | some b => [b.1] | none => []) }

end

section
variable {s : State} {tile : Fin 64} {p : Nat} {t0 : Tile} {f : Frame} {i : BitVec 16} {c : FrameCtu}

/-- A lane-coded CTU becomes final. -/
theorem ctuFinal_exec (hawake : asleep s = false) (hframe : frameOf (s.pollTile tile) tile = some (p, t0, f)) (hlook : look f.ctus i.toNat = some c)
    (hopen : c.final = false) (hstake : f.atStake i.toNat = true) (hsquare : (f.square i.toNat).all f.settledAt = true) (hlane : isLaneCoded c = true)
    {u : State} (hu : u = s.pollTile tile) :
    exec (.ctuFinal tile i true) s = .next (((finalBlock u f i.toNat c).2.setTile p { t0 with frame := some (finalFrame u f i.toNat c) }).runTreadle p) := by
  subst hu
  refine (awake_of hawake _).trans ?_
  dsimp only
  rw [hframe]
  dsimp only
  rw [hlook]
  dsimp only
  rw [if_neg (by simp [hopen, hstake, hsquare]), if_neg (by simp)]
  unfold finalFrame
  rw [hlane]
  rfl

theorem ctuFinal_final (s : State) (tile : Fin 64) (p : Nat) (t0 : Tile) (f : Frame) (i : BitVec 16) (c : FrameCtu)
    (hawake : asleep s = false) (hframe : frameOf (s.pollTile tile) tile = some (p, t0, f)) (hlook : look f.ctus i.toNat = some c)
    (hopen : c.final = false) (hstake : f.atStake i.toNat = true) (hsquare : (f.square i.toNat).all f.settledAt = true)
    (hlane : isLaneCoded c = true) (hcalm : treadleCalm t0.treadle) :
    does (.ctuFinal tile i true) s fun t =>
      ((t.tile p).frame.map fun f1 => ((look f1.ctus i.toNat).any fun q => q.final, f1.reserved)) = some (true, f.reserved - 1) ∧ t.dict = (s.pollTile tile).dict ∧ t.encs = (s.pollTile tile).encs ∧ t.bobs = (s.pollTile tile).bobs ∧ t.store = (s.pollTile tile).store := by
  have hexec := ctuFinal_exec hawake hframe hlook hopen hstake hsquare hlane rfl
  generalize hu : s.pollTile tile = u at *
  rw [runTreadle_calm (by rw [State.tile_setTile]; exact hcalm)] at hexec
  have htouch : Touches [.clk, .pool] u (finalBlock u f i.toNat c).2 := (Touches.refl u).freed.allocReserved
  refine ⟨_, hexec, ?_, htouch.same .dict, htouch.same .encs, htouch.same .bobs, htouch.same .store⟩
  rw [State.tile_setTile]
  unfold finalFrame
  rw [Option.map_some, look_put_same]
  rfl

end

end Sys2Proof.Proofs
end

section
/-! PROOFS. A lane's request, cleared by Treadle's ROM (R205, R206, R303; O19). -/

open Sys2Proof Sys2Proof.Machine

-- One proof at a time: a thread for each proof would pass the limit that the check sets to memory.
set_option Elab.async false

namespace Sys2Proof.Proofs

/-- Treadle has one lane's request and nothing else to do. -/
structure Asked (a : BitVec 15) (stack : List (BitVec 15)) (q : LaneReq) (r : Treadle) : Prop where
  runs : r.stopped = false
  unpatched : r.match_ = []
  upc : r.upc = a
  stack : r.stack = stack
  laneReq : r.laneReq = [q]
  cutReport : r.cutReport = none
  abandon : r.abandon = false
  events : r.events = []
  stalled : r.stalled = []

/-- What the ROM changes on its way to a lane's request: its own place, the row's QP, its scratch and the free values. -/
structure OnTheWay (p : Nat) (f : Frame) (s u : State) : Prop where
  keeps : Touches [.clk, .bobs, .tiles, .encs] s u
  frame : ∃ rq, (u.tile p).frame = some { f with rowQp := rq }
  below : cest (u.tile p) < scratchAt (u.enc f.stream) 0xF14

section
variable {a : BitVec 15} {stack : List (BitVec 15)} {q : LaneReq} {s u : State} {p : Nat} {f : Frame}

/-- Treadle stands at an entry of the ROM. -/
theorem Asked.atRom {r : Treadle} (h : Asked a stack q r) (ha : romEntries.contains a.toNat = true) : r.atRom = true := by
  unfold Treadle.atRom
  rw [h.runs, h.upc, ha, h.unpatched]
  rfl

/-- A routine of the ROM other than the idle loop runs. -/
theorem romRun_routine (k : Nat) (h : Asked a stack q (s.tile p).treadle) (ha : romEntries.contains a.toNat = true) (hloop : a ≠ 0x40) :
    State.romRun (k + 1) s p = State.romRun k (s.romStep p) p := by
  rw [State.romRun]
  rw [if_neg (by rw [h.atRom ha]; decide), if_neg (by rw [h.upc]; exact hloop)]

/-- The interrupt is taken in the idle loop. -/
theorem romRun_interrupt (k : Nat) (h : Asked 0x40 [] q (s.tile p).treadle) (hunmasked : (s.tile p).treadle.masked = false) :
    State.romRun (k + 1) s p = State.romRun k (s.setTreadle p (s.tile p).treadle.interrupt) p := by
  rw [State.romRun]
  rw [if_neg (by rw [h.atRom (by decide)]; decide), if_pos h.upc, if_pos (by rw [Treadle.pending, h.laneReq, hunmasked]; simp),
    if_neg (by rw [h.stack]; decide)]

theorem Asked.interrupt {r : Treadle} (h : Asked 0x40 [] q r) : Asked 0x10 [0x40] q r.interrupt where
  runs := h.runs
  unpatched := h.unpatched
  upc := rfl
  stack := by rw [Treadle.interrupt, h.upc, h.stack]
  laneReq := h.laneReq
  cutReport := h.cutReport
  abandon := h.abandon
  events := h.events
  stalled := h.stalled

/-- Treadle's own place and its lists of requests are not part of what a step on the way must keep. -/
theorem OnTheWay.treadle {r : Treadle} (h : OnTheWay p f s u) (hest : r.estimates = (u.tile p).treadle.estimates) : OnTheWay p f s (u.setTreadle p r) := by
  obtain ⟨rq, hrq⟩ := h.frame
  refine ⟨h.keeps.setTreadle, ⟨rq, ?_⟩, ?_⟩
  · rw [tile_setTreadle]
    exact hrq
  · rw [tile_setTreadle]
    have hcest : cest { u.tile p with treadle := r } = cest (u.tile p) := by
      unfold cest
      rw [hest]
    rw [hcest]
    exact h.below

/-- The interrupt handler calls the routine of a request: `ROW_QP` before the first CTU of a row, else `CTU_GATE`. -/
theorem romVector_asked (h : Asked 0x10 [0x40] q (s.tile p).treadle) (hgated : q.gated = false) :
    ∃ r q', s.romVector p = s.setTreadle p r ∧ r.estimates = (s.tile p).treadle.estimates ∧ r.served = some q' ∧ q'.lane = q.lane ∧ q'.idx = q.idx ∧
      ((q.qped = false ∧ Asked 0xA00 [0x10, 0x40] q' r ∧ q'.qped = true ∧ q'.gated = false) ∨ Asked 0xA80 [0x10, 0x40] q' r) := by
  have hfind : (((s.tile p).treadle.laneReq.find? fun x => x.lane == 0 && !x.gated).or ((s.tile p).treadle.laneReq.find? fun x => !x.gated)) = some q := by
    rw [h.laneReq]
    cases hl : q.lane == 0 <;> simp [hl, hgated]
  have hmark : ∀ q' : LaneReq, q'.lane = q.lane → ((s.tile p).treadle.laneReq.map fun x => if x.lane = q'.lane then q' else x) = [q'] := fun q' hl => by
    rw [h.laneReq, List.map_cons, if_pos hl.symm, List.map_nil]
  have hserved : ∀ (r : Treadle) (q' : LaneReq), q'.lane = q.lane → r.laneReq = [q'] → lookD 0 r.w 0 = BitVec.ofNat 32 q.lane → r.served = some q' := fun r q' hl hr hw => by
    unfold Treadle.served
    rw [hr, hw, List.find?_cons_of_pos]
    rw [hl]
    have := q.lane.isLt
    simp
    omega
  unfold State.romVector
  dsimp only
  rw [if_neg (by rw [h.cutReport]; decide), if_neg (by rw [h.abandon]; decide), hfind]
  dsimp only
  split
  next hfirst =>
    refine ⟨_, { q with qped := true }, rfl, rfl, hserved _ _ rfl (hmark { q with qped := true } rfl) (lookD_put_same ..), rfl, rfl, .inl ⟨?_, ?_, rfl, hgated⟩⟩
    · simpa using (Bool.and_eq_true_iff.1 hfirst).2
    · exact ⟨h.runs, h.unpatched, rfl, by rw [Treadle.goes, h.stack]; rfl, hmark { q with qped := true } rfl, h.cutReport, h.abandon, h.events, h.stalled⟩
  next =>
    refine ⟨_, { q with gated := true }, rfl, rfl, hserved _ _ rfl (hmark { q with gated := true } rfl) (lookD_put_same ..), rfl, rfl, .inr ?_⟩
    exact ⟨h.runs, h.unpatched, rfl, by rw [Treadle.goes, h.stack]; rfl, hmark { q with gated := true } rfl, h.cutReport, h.abandon, h.events, h.stalled⟩

/-- A store into the scratch leaves its other words. -/
theorem scratchAt_scratchPut (e : Enc) {off at_ : Nat} (v : Nat) (h : at_ + 4 ≤ off) (hbase : 0xE00 ≤ at_) :
    scratchAt (e.scratchPut off v) at_ = scratchAt e at_ := by
  unfold scratchAt Enc.scratchPut
  refine congrArg leNat (List.map_congr_left fun k hk => byteAt_setBytes_outside _ _ _ _ (.inl ?_))
  have := List.mem_range.1 hk
  omega

/-- A routine returns to the interrupt handler. -/
theorem Asked.ret {r : Treadle} (h : Asked a [0x10, 0x40] q r) : Asked 0x10 [0x40] q r.ret := by
  rw [Treadle.ret, h.stack]
  exact ⟨h.runs, h.unpatched, rfl, rfl, h.laneReq, h.cutReport, h.abandon, h.events, h.stalled⟩

/-- The port of a row's QP. -/
theorem port_rowQp {x : State} {b c : Word} (hf : (x.tile p).frame = some f) :
    x.port p 2 b c = x.setTile p { x.tile p with frame := some { f with rowQp := put f.rowQp (b.toNat % 128) (c.toNat % 64) } } := by
  unfold State.port
  dsimp only
  rw [hf]
  rfl

/-- `ROW_QP` before the first CTU of a row. -/
theorem romRowQp_asked (h : Asked 0xA00 [0x10, 0x40] q (u.tile p).treadle) (hserved : (u.tile p).treadle.served = some q) (hway : OnTheWay p f s u) :
    OnTheWay p f s (u.romStep p) ∧ ((u.romStep p).tile p).treadle = (u.tile p).treadle.ret := by
  obtain ⟨rq, hrq⟩ := hway.frame
  let g : Frame := { f with rowQp := rq }
  have hstep : u.romStep p = (u.romRet p).romRowQp p g q := by
    unfold State.romStep
    simp only [h.upc, hrq, hserved]
    rfl
  have hret : (u.romRet p).tile p = { u.tile p with treadle := (u.tile p).treadle.ret } := tile_setTreadle ..
  have hestimates : (u.tile p).treadle.ret.estimates = (u.tile p).treadle.estimates := by
    rw [Treadle.ret, h.stack]
  let x : State := ((u.romRet p).freed).setEnc f.stream (((u.romRet p).enc f.stream).scratchPut 0xF28 f.bits)
  have hx : x.tile p = { u.tile p with treadle := (u.tile p).treadle.ret } := hret
  obtain ⟨rows, hrow⟩ : ∃ rows, (u.romRet p).romRowQp p g q = x.setTile p { x.tile p with frame := some { g with rowQp := rows } } :=
    ⟨_, port_rowQp ((congrArg Tile.frame hx).trans hrq)⟩
  have htouch : Touches [.clk, .tiles, .encs] u x := (Touches.refl u).romRet.freed.setEnc
  have hlimit : scratchAt (x.enc f.stream) 0xF14 = scratchAt (u.enc f.stream) 0xF14 := by
    rw [show x.enc f.stream = (((u.romRet p).enc f.stream).scratchPut 0xF28 f.bits) from State.enc_setEnc .., scratchAt_scratchPut _ _ (by decide) (by decide)]
    rfl
  have hcest : cest { x.tile p with frame := some { g with rowQp := rows } } = cest (u.tile p) := by
    unfold cest
    rw [hx, hrq, ← hestimates]
  rw [hstep, hrow]
  refine ⟨⟨(hway.keeps.op htouch).setTile, ⟨rows, ?_⟩, ?_⟩, ?_⟩
  · rw [State.tile_setTile]
  · rw [State.tile_setTile, hcest]
    exact hlimit.symm ▸ hway.below
  · rw [State.tile_setTile]
    exact congrArg Tile.treadle hx

/-- A request has been cleared: its lane has the CTU, and Treadle is at rest. -/
structure Cleared (p : Nat) (lane : Fin 2) (i : Nat) (s u : State) : Prop where
  keeps : Touches [.clk, .bobs, .tiles, .encs] s u
  rest : AtRest [4] (u.tile p).treadle
  frame : ∃ g, (u.tile p).frame = some g ∧ (g.lane lane).ctu = some i ∧ (g.lane lane).cleared = true

/-- The request of a lane is cleared. -/
theorem clearLane_cleared {x : State} {est : Nat} (hkeeps : Touches [.clk, .bobs, .tiles, .encs] s x) (h : Asked 0x10 [0x40] q (x.tile p).treadle)
    (hf : (x.tile p).frame = some f) : Cleared p q.lane q.idx s (x.clearLane p q.lane est) := by
  have hfind : (x.tile p).treadle.laneReq.find? (fun y => y.lane == q.lane) = some q := by
    rw [h.laneReq, List.find?_cons_of_pos]
    exact beq_self_eq_true _
  have hleft : ((x.tile p).treadle.laneReq.filter fun y => y.lane != q.lane) = [] := by
    rw [h.laneReq]
    simp
  unfold State.clearLane
  dsimp only
  rw [hf, hfind]
  refine ⟨hkeeps.freed.setTile, ?_, ?_⟩
  · rw [State.tile_setTile]
    exact ⟨hleft, h.abandon, by dsimp only; rw [h.events, h.stalled]; exact fun y hy => (nomatch hy), .inr (.inl ⟨h.upc, h.stack⟩)⟩
  · rw [State.tile_setTile]
    refine ⟨_, rfl, ?_⟩
    rw [Frame.lane_setLane]
    exact ⟨rfl, rfl⟩

/-- `CTU_GATE` below the cap clears the CTU. -/
theorem romGate_cleared (h : Asked 0xA80 [0x10, 0x40] q (u.tile p).treadle) (hserved : (u.tile p).treadle.served = some q) (hway : OnTheWay p f s u) :
    Cleared p q.lane q.idx s (u.romStep p) := by
  obtain ⟨rq, hrq⟩ := hway.frame
  let g : Frame := { f with rowQp := rq }
  have hstep : u.romStep p = (u.romRet p).romGate p g q := by
    unfold State.romStep
    simp only [h.upc, hrq, hserved]
    rfl
  have hret : (u.romRet p).tile p = { u.tile p with treadle := (u.tile p).treadle.ret } := tile_setTreadle ..
  have hcest : cest ((u.romRet p).tile p) = cest (u.tile p) := by
    unfold cest
    rw [hret, Treadle.ret, h.stack]
  have hbelow : ¬(g.cut.rate = none ∧ scratchAt ((u.romRet p).enc g.stream) 0xF14 ≤ cest ((u.romRet p).tile p)) := by
    rw [hcest]
    exact fun hle => absurd hway.below (Nat.not_lt.2 hle.2)
  have hlane : flane ((BitVec.ofNat 32 q.lane).toNat % 2) = q.lane := by
    have hlt := q.lane.isLt
    ext
    simp [flane]
    omega
  rw [hstep, State.romGate, if_neg hbelow]
  show Cleared p q.lane q.idx s (((u.romRet p).freed).clearLane p (flane ((BitVec.ofNat 32 q.lane).toNat % 2)) _)
  rw [hlane]
  refine clearLane_cleared (f := g) hway.keeps.romRet.freed ?_ ?_
  · show Asked _ _ _ ((u.romRet p).tile p).treadle
    rw [hret]
    exact h.ret
  · show ((u.romRet p).tile p).frame = _
    rw [hret]
    exact hrq

/-- The ROM on the way to a request's gate, and through it. -/
theorem romRun_gate (k : Nat) (h : Asked 0xA80 [0x10, 0x40] q (u.tile p).treadle) (hserved : (u.tile p).treadle.served = some q) (hway : OnTheWay p f s u) :
    Cleared p q.lane q.idx s (State.romRun (k + 1) u p) := by
  have hcleared := romGate_cleared h hserved hway
  rw [romRun_routine k h (by decide) (by decide)]
  obtain ⟨g, hg, hctu, hclear⟩ := hcleared.frame
  have hrest := romRun_rest k hcleared.rest (by decide) (by decide)
  obtain ⟨g', hg', hon, _⟩ := hrest.goes.on.frame g hg
  exact ⟨hcleared.keeps.trans hrest.goes.keeps, hrest.rest, g', hg', by rw [hon.lane]; exact hctu, by rw [hon.lane]; exact hclear⟩

/-- The interrupt handler runs at its entry. -/
theorem romStep_of_handler (h : Asked 0x10 [0x40] q (u.tile p).treadle) : u.romStep p = u.romVector p := by
  unfold State.romStep
  simp only [h.upc]
  rfl

/-- The handler calls the gate of a request whose row's QP is known. -/
theorem romRun_gateHandler (k : Nat) (h : Asked 0x10 [0x40] q (u.tile p).treadle) (hgated : q.gated = false) (hqped : q.qped = true)
    (hway : OnTheWay p f s u) : Cleared p q.lane q.idx s (State.romRun (k + 2) u p) := by
  obtain ⟨r, q', hvec, hest, hserved, hl, hi, hcase⟩ := romVector_asked h hgated
  have hgate : Asked 0xA80 [0x10, 0x40] q' r := hcase.resolve_left fun hno => absurd (hno.1.symm.trans hqped) (by decide)
  have htile : ((u.setTreadle p r).tile p).treadle = r := by rw [tile_setTreadle]
  rw [romRun_routine (k + 1) h (by decide) (by decide), romStep_of_handler h, hvec, ← hl, ← hi]
  exact romRun_gate k (htile.symm ▸ hgate) (htile.symm ▸ hserved) (hway.treadle hest)

/-- The handler with a request that has come. -/
theorem romRun_handler (k : Nat) (h : Asked 0x10 [0x40] q (u.tile p).treadle) (hgated : q.gated = false) (hway : OnTheWay p f s u) :
    Cleared p q.lane q.idx s (State.romRun (k + 4) u p) := by
  obtain ⟨r, q', hvec, hest, hserved, hl, hi, ⟨_, hrow, hqped, hgated'⟩ | hgate⟩ := romVector_asked h hgated
  · have htile : ((u.setTreadle p r).tile p).treadle = r := by rw [tile_setTreadle]
    have hrow' : Asked 0xA00 [0x10, 0x40] q' ((u.setTreadle p r).tile p).treadle := htile.symm ▸ hrow
    obtain ⟨hway', htreadle⟩ := romRowQp_asked hrow' (htile.symm ▸ hserved) (hway.treadle hest)
    rw [romRun_routine (k + 3) h (by decide) (by decide), romStep_of_handler h, hvec, romRun_routine (k + 2) hrow' (by decide) (by decide), ← hl, ← hi]
    exact romRun_gateHandler k (htreadle.symm ▸ hrow'.ret) hgated' hqped hway'
  · have htile : ((u.setTreadle p r).tile p).treadle = r := by rw [tile_setTreadle]
    rw [romRun_routine (k + 3) h (by decide) (by decide), romStep_of_handler h, hvec, ← hl, ← hi]
    exact romRun_gate (k + 2) (htile.symm ▸ hgate) (htile.symm ▸ hserved) (hway.treadle hest)

end

section
variable {s : State} {tile : Fin 64} {lane : Fin 2} {p : Nat} {t0 : Tile} {f : Frame} {i : Nat} {l : List Nat}

theorem laneRequest_clears (s : State) (tile : Fin 64) (lane : Fin 2) (p : Nat) (t0 : Tile) (f : Frame) (i : Nat) (l : List Nat)
    (hawake : asleep s = false) (hframe : frameOf (s.pollTile tile) tile = some (p, t0, f)) (hwaiting : f.waiting lane.val = i :: l)
    (hfree : (f.lane lane.val).ctu = none) (hwave : f.waveOk i = true)
    (havail : 256 ≤ ((s.pollTile tile).bobDst (.ctu (ftile p) lane)).bobAvail (.ctu (ftile p) lane)) (hidle : treadleIdle t0.treadle)
    (hcut : f.cut.rate = none) (hbelow : cest t0 < scratchAt ((s.pollTile tile).enc f.stream) 0xF14) :
    does (.laneRequest tile lane) s fun t =>
      ((t.tile p).frame.map fun f1 => ((f1.lane lane.val).ctu, (f1.lane lane.val).cleared)) = some (some i, true) ∧ (t.tile p).treadle.laneReq = [] ∧ t = { (s.pollTile tile) with tiles := t.tiles, encs := t.encs, bobs := t.bobs, clk := t.clk } := by
  have hexec := laneRequest_exec hawake hframe hwaiting hfree hwave havail
  rw [hcut, if_neg Bool.false_ne_true] at hexec
  obtain ⟨_, _, _, hf⟩ := frameOf_some hframe
  generalize hu : s.pollTile tile = u at *
  obtain ⟨hruns, hupc, _, hmasked, hstack, hev, hst, hreq, hreport, hab, hmatch⟩ := hidle
  let q := requestFor f lane i u.clk.now
  let r : Treadle := { t0.treadle with laneReq := withRequest t0.treadle.laneReq lane q }
  let v : State := (u.bobDst (.ctu (ftile p) lane)).setTile p { t0 with treadle := r }
  have htile : v.tile p = { t0 with treadle := r } := State.tile_setTile ..
  have hasked : Asked 0x40 [] q (v.tile p).treadle := by
    rw [htile]
    exact ⟨hruns, hmatch, hupc, hstack, by dsimp only [r]; rw [hreq]; rfl, hreport, hab, hev, hst⟩
  have hway : OnTheWay p f u v := ⟨(Touches.refl u).bobDst.setTile, ⟨f.rowQp, by rw [htile]; exact hf⟩, by rw [htile]; exact hbelow⟩
  have hinterrupt : OnTheWay p f u (v.setTreadle p (v.tile p).treadle.interrupt) := hway.treadle rfl
  have hcleared : Cleared p lane i u (v.runTreadle p) := by
    show Cleared p q.lane q.idx u (State.romRun (1019 + 4 + 1) v p)
    rw [romRun_interrupt _ hasked (by rw [htile]; exact hmasked)]
    exact romRun_handler 1019 (by rw [tile_setTreadle]; exact hasked.interrupt) rfl hinterrupt
  obtain ⟨g, hg, hctu, hclear⟩ := hcleared.frame
  refine ⟨v.runTreadle p, hexec, ?_, hcleared.rest.laneReq, hcleared.keeps.frame (by simp)⟩
  rw [hg, Option.map_some, hctu, hclear]

end

end Sys2Proof.Proofs
end

section
/-! PROOFS. Reading a tile's Bobbins leaves the sparing map in force (R470; O19). -/

open Sys2Proof Sys2Proof.Machine

-- One proof at a time: a thread for each proof would pass the limit that the check sets to memory.
set_option Elab.async false

namespace Sys2Proof.Proofs

/-- The sparing map in force is the same. -/
def SameMap (s t : State) : Prop := t.sparing = s.sparing

/-- What leaves the fault unit and the store leaves the map. -/
theorem Touches.sameMap {l : List Part} {s t : State} (h : Touches l s t) (hfaults : .faults ∉ l := by decide) (hstore : .store ∉ l := by decide) :
    SameMap s t := by
  unfold SameMap State.sparing
  rw [h.same .faults hfaults, h.same .store hstore]

namespace SameMap

variable {s t u : State}

theorem refl (s : State) : SameMap s s := rfl

theorem trans (h : SameMap s t) (h' : SameMap t u) : SameMap s u := Eq.trans h' h

theorem contained (h : SameMap s t) {kind : Nat} {acc : Access} {m : Master} {addr : Nat} : SameMap s (t.contained kind acc m addr) :=
  h.trans (contained_units t kind acc m addr).2.2

theorem foldl {α : Type} {l : List α} {f : State → α → State} (h : SameMap s t) (hf : ∀ u a, SameMap u (f u a)) : SameMap s (l.foldl f t) := by
  induction l generalizing t with
  | nil => exact h
  | cons a l ih => exact ih (h.trans (hf t a))

theorem ite {c : Prop} [Decidable c] (h : SameMap s t) (h' : SameMap s u) : SameMap s (if c then t else u) := by
  split
  · exact h
  · exact h'

theorem setTile (h : SameMap s t) {p : Nat} {v : Tile} : SameMap s (t.setTile p v) := h.trans rfl

theorem readItem (h : SameMap s t) {b : BobbinId} {e : Ecc} : SameMap s (t.readItem b e) := by
  unfold State.readItem
  split
  · exact h
  · exact h.trans rfl
  · exact (h.trans rfl : SameMap s (t.countBin _)).contained

theorem refuseDesc (h : SameMap s t) {m : Master} {b : Nat} : SameMap s (t.refuseDesc m b) := (h.trans rfl : SameMap s (t.poolCount 0x0E)).contained

theorem releaseBlock (h : SameMap s t) {m : Master} {b : Nat} {g : BitVec 16} : SameMap s (t.releaseBlock m b g) := by
  unfold State.releaseBlock
  dsimp only
  split
  · exact h.refuseDesc
  · exact h.trans rfl

theorem nameBlock (h : SameMap s t) {m : Master} {b : Nat} {g : BitVec 16} {x : Holder} : SameMap s (t.nameBlock m b g x) := by
  unfold State.nameBlock
  dsimp only
  split
  · exact h.refuseDesc
  · exact h.trans rfl

theorem substSlot (h : SameMap s t) {m : Master} {n p : Nat} {lost : Bool} {from_ : BitVec 16} : SameMap s (t.substSlot m n p lost from_).2 := by
  unfold State.substSlot
  dsimp only
  refine nameBlock ?_
  split
  · exact h.trans rfl
  · exact h

theorem substTable (h : SameMap s t) {m : Master} {n : Nat} {lost : Bool} {k p : Nat} : SameMap s (t.substTable m n lost k p).2 := by
  induction k generalizing t p with
  | zero => exact h
  | succ k ih => exact ih h.substSlot

theorem loseRefs (h : SameMap s t) {m : Master} {n : Nat} : SameMap s (t.loseRefs m n) :=
  (h.substTable.foldl fun u _ => SameMap.foldl (.refl u) fun _ _ => releaseBlock (.refl _)).trans rfl

theorem checkLost (h : SameMap s t) {m : Master} {n : Nat} : SameMap s (t.checkLost m n) := by
  unfold State.checkLost
  dsimp only
  split
  · exact h.loseRefs
  · exact h

theorem chargeTo (h : SameMap s t) {x : Holder} : SameMap s (t.chargeTo x) := h.trans rfl

theorem loseEntry (h : SameMap s t) {m : Master} {n i : Nat} : SameMap s (t.loseEntry m n i) := by
  unfold State.loseEntry
  dsimp only
  refine checkLost (contained (chargeTo ?_))
  exact h.substSlot.trans ((Touches.refl _).setEnc.poolCount : Touches [.encs, .pool] _ _).sameMap

theorem rowEntries (h : SameMap s t) {p : Nat} {f : Frame} {y : Nat} : SameMap s (t.rowEntries p f y) := by
  have hlose : SameMap s ((f.badRows.filter fun i => i / f.cols == y + 2).foldl (fun s i => s.loseEntry (mEnc p) f.stream i) t) :=
    h.foldl fun u _ => loseEntry (.refl u)
  unfold State.rowEntries
  dsimp only
  split
  · exact hlose.trans rfl
  · exact hlose

theorem tileError (h : SameMap s t) {p bit : Nat} : SameMap s (t.tileError p bit) := (h.trans rfl : SameMap s (t.setTile p _)).contained

theorem cutHint (h : SameMap s t) {p : Nat} {v : Tile} {f : Frame} {c : Nat} : SameMap s (t.cutHint p v f c) := by
  unfold State.cutHint
  dsimp only
  exact (h.trans ((Touches.refl t).dropItems.putFrame.count.count : Touches [.clk, .bobs, .tiles, .totals] t _).sameMap).tileError

theorem takeHint (h : SameMap s t) {p : Nat} {x : BitVec 256} {tagged : Bool} : SameMap s (t.takeHint p x tagged) := by
  have hrow : ∀ f, SameMap s (if f.hints % f.cols = 0 then t.rowEntries p f (f.hints / f.cols) else t) := fun f => ite h.rowEntries h
  unfold State.takeHint
  split
  next => exact h
  next f _ =>
    dsimp only
    refine ite (hrow f) (ite ?_ (ite (hrow f).setTile.cutHint (ite ?_ (hrow f).setTile)))
    · exact (hrow f).setTile.trans ((Touches.refl _).trimItems : Touches [.bobs] _ _).sameMap
    · exact (hrow f).setTile.trans ((Touches.refl _).discardNext : Touches [.bobs] _ _).sameMap

theorem takeSeal (h : SameMap s t) {p : Nat} {e : Ecc} : SameMap s (t.takeSeal p e) := by
  unfold State.takeSeal
  dsimp only
  split
  · exact h
  · exact ite h (readItem (h.setTile.trans ((Touches.refl _).bobDrop : Touches [.bobs] _ _).sameMap))

theorem bobDst (h : SameMap s t) {b : BobbinId} : SameMap s (t.bobDst b) := h.trans rfl

theorem bobDrop (h : SameMap s t) {b : BobbinId} {n : Nat} : SameMap s (t.bobDrop b n) := h.trans rfl

theorem pollTile (h : SameMap s t) {tile : Nat} {e sealItem : Ecc} : SameMap s (t.pollTile tile e sealItem) := by
  unfold State.pollTile
  dsimp only
  split
  · exact h
  · refine takeSeal (bobDst ?_)
    split
    · exact h.bobDst.bobDrop
    · exact h.bobDst.bobDrop.readItem.takeHint.foldl fun u _ => takeHint (.refl u)

end SameMap

/-- The same map serves every logical tile and cluster alike. -/
theorem SameMap.encPhys {s t : State} (h : SameMap s t) (tile : Nat) : encPhys t tile = encPhys s tile := by
  unfold Machine.encPhys
  rw [h]

theorem SameMap.bobSource_ctu {s t : State} (h : SameMap s t) (k : Fin 72) (lane : Fin 2) : bobSource t (.ctu k lane) = bobSource s (.ctu k lane) := by
  unfold bobSource enginePhys
  rw [h]

end Sys2Proof.Proofs
end

section
/-! PROOFS. A lane's CTU whose items cannot be corrected (R184; O19). -/

open Sys2Proof Sys2Proof.Machine

-- One proof at a time: a thread for each proof would pass the limit that the check sets to memory.
set_option Elab.async false

namespace Sys2Proof.Proofs

/-- Records that tell the same are the same field by field. -/
theorem told_fields {f g : Faults} (h : Faults.told g = Faults.told f) :
    g.valid = f.valid ∧ g.kind = f.kind ∧ g.severity = f.severity ∧ g.access = f.access ∧ g.master = f.master ∧ g.addr = f.addr := by
  simpa only [Faults.told, Prod.mk.injEq] using h

/-- An error of a tile sets its bit. -/
theorem tile_tileError (s : State) (p bit : Nat) : (s.tileError p bit).tile p = { s.tile p with err := (s.tile p).err ||| BitVec.ofNat 4 (2 ^ bit) } := by
  unfold State.tileError
  rw [State.tile, State.contained_tiles]
  exact State.tile_setTile ..

section
variable (w : State) (p : Nat) (t : Tile) (f : Frame) (lane : Fin 2) (i : Nat) (c : FrameCtu)

/-- The device when the CTU has been taken from its lane, before the error of the tile. -/
def laneTaken : State :=
  let s2 := (w.putFrame p (lostTile t i) (lostFrame f lane i c)).count 0x5011 7
  if c.hint.refresh then s2.count 0x5011 0xA else s2

theorem tile_laneTaken : (laneTaken w p t f lane i c).tile p = (w.putFrame p (lostTile t i) (lostFrame f lane i c)).tile p := by
  unfold laneTaken
  dsimp only
  split <;> rfl

theorem laneTaken_touches : Touches [.clk, .bobs, .tiles, .totals] w (laneTaken w p t f lane i c) :=
  .ite (Touches.refl w).putFrame.count.count (Touches.refl w).putFrame.count

theorem lostFrame_lane : ((lostFrame f lane i c).lane lane).ctu = none := by
  have hlane : (lostFrame f lane i c).lane lane = (f.setLane lane { f.lane lane with ctu := none, cleared := false }).lane lane := rfl
  rw [hlane, Frame.lane_setLane]

end

section
variable {s : State} {tile : Fin 64} {lane : Fin 2} {p : Nat} {t0 : Tile} {f : Frame} {i : Nat} {c : FrameCtu}

theorem laneCtuStart_loses (s : State) (tile : Fin 64) (lane : Fin 2) (p : Nat) (t0 : Tile) (f : Frame) (i : Nat) (c : FrameCtu)
    (hawake : asleep s = false) (hframe : frameOf (s.pollTile tile) tile = some (p, t0, f)) (hctu : (f.lane lane.val).ctu = some i)
    (hlook : look f.ctus i = some c) (hcleared : (f.lane lane.val).cleared = true) (hpath : c.path = none)
    (havail : 256 ≤ ((s.pollTile tile).bobDst (.ctu (ftile p) lane)).bobAvail (.ctu (ftile p) lane)) (hwave : f.waveOk i = true)
    (hdrain : f.draining = false) (hcalm : treadleCalm t0.treadle) :
    does (.laneCtuStart tile lane .clean .uncorrectable) s fun t =>
      ((t.tile p).frame.map fun f1 => (f1.lane lane.val).ctu) = some none ∧ (t.tile p).err.getLsbD 0 = true ∧ t.faults.valid = true ∧ ((s.pollTile tile).faults.valid = false → t.faults.kind = 0x01 ∧ t.faults.master = bobSource s (.ctu (ftile p) lane)) := by
  have hexec := (laneCtuStart_exec .uncorrectable hawake hframe hctu hlook hcleared hpath havail hwave hdrain rfl).trans (if_pos rfl)
  have hsource : bobSource ((s.pollTile tile).bobDst (.ctu (ftile p) lane)) (.ctu (ftile p) lane) = bobSource s (.ctu (ftile p) lane) :=
    (SameMap.refl s).pollTile.bobDst.bobSource_ctu ..
  generalize hu : s.pollTile tile = u at *
  let b : BobbinId := .ctu (ftile p) lane
  let v : State := (u.bobDst b).bobDrop b 256
  let v1 : State := v.countBin (0x30000 + (bobSource v b).toNat)
  let w : State := v.readItem b .uncorrectable
  have hw : w = v1.contained 0x01 .none (bobSource v b) 0 := rfl
  have hvalid : w.faults.valid = true := hw ▸ contained_valid ..
  let x : State := (laneTaken w p t0 f lane i c).tileError p 0
  have hgoes : Goes [4] p x (x.runTreadle p) := runTreadle_goes (by
    show Calm [4] (x.tile p).treadle
    rw [tile_tileError, tile_laneTaken]
    exact calm_putFrame (by decide) ((Calm.of_treadleCalm hcalm).raised (Raised.estimates ..) (by decide))) (by decide) (by decide)
  have htouch : Touches [.clk, .pins, .store, .paths, .bobs, .tiles, .encs, .totals, .intc, .mem, .faults, .out] w (x.runTreadle p) :=
    (((Touches.refl w).op (laneTaken_touches ..)).tileError).op hgoes.keeps
  obtain ⟨hstill, hkind, _, _, hmaster, _⟩ := told_fields (htouch.stands hvalid)
  have hresumed := (resumed_putFrame w p (lostTile t0 i) (lostFrame f lane i c))
  obtain ⟨g, hg, hon⟩ := hresumed.frame
  have hg' : (x.tile p).frame = some g := by
    rw [tile_tileError, tile_laneTaken]
    exact hg
  obtain ⟨k, hk, hon', _⟩ := hgoes.on.frame g hg'
  refine ⟨x.runTreadle p, hexec, ?_, ?_, hstill.trans hvalid, fun hfree => ?_⟩
  · rw [hk, Option.map_some, hon'.lane, hon.lane, lostFrame_lane]
  · rw [hgoes.on.err, tile_tileError]
    simp
  · obtain ⟨hfirst, _, _, hnamed, _⟩ := contained_first v1 0x01 .none (bobSource v b) 0 hfree
    exact ⟨hkind.trans hfirst, (hmaster.trans hnamed).trans hsource⟩

end

/-! ### A frame cut at a hint record -/

/-- Parts that a lane's command may change beside the tiles and their caches. -/
abbrev untiled : List Part := [.clk, .pins, .store, .paths, .bobs, .encs, .totals, .pool, .intc, .mem, .faults, .out]

/-- A tile's frame is cut at a hint record, and the error is known. -/
structure HintCut (p c : Nat) (s : State) : Prop where
  frame : ∃ f, (s.tile p).frame = some f ∧ f.cut.hint = some c
  err : (s.tile p).err.getLsbD 1 = true
  calm : Calm [4] (s.tile p).treadle
  valid : s.faults.valid = true

namespace HintCut

variable {p c : Nat} {s t : State}

/-- What leaves the tiles leaves the cut. -/
theorem beside (h : HintCut p c s) (ht : Touches untiled s t) : HintCut p c t := by
  have hsame : t.tile p = s.tile p := by
    unfold State.tile
    rw [ht.same .tiles]
  exact ⟨hsame ▸ h.frame, hsame ▸ h.err, hsame ▸ h.calm, (told_fields (ht.stands h.valid)).1.trans h.valid⟩

/-- A tile whose frame is written with the same cut. -/
theorem setTile (h : HintCut p c s) {u : Tile} {f : Frame} (hf : u.frame = some f) (hcut : f.cut.hint = some c) (herr : u.err = (s.tile p).err)
    (htreadle : u.treadle = (s.tile p).treadle) : HintCut p c (s.setTile p u) := by
  refine ⟨?_, ?_, ?_, h.valid⟩
  · rw [State.tile_setTile]
    exact ⟨f, hf, hcut⟩
  · rw [State.tile_setTile, herr]
    exact h.err
  · rw [State.tile_setTile, htreadle]
    exact h.calm

theorem putFrame {u : Tile} {f : Frame} (hvalid : s.faults.valid = true) (hcut : f.cut.hint = some c) (herr : u.err.getLsbD 1 = true)
    (hcalm : Calm [4] u.treadle) : HintCut p c (s.putFrame p u f) := by
  obtain ⟨g, hg, hcoded⟩ := putFrame_coded s p u f
  refine ⟨⟨g, hg, hcoded.frame.cut.symm ▸ hcut⟩, hcoded.err.symm ▸ herr, calm_putFrame (by decide) hcalm, ?_⟩
  have htouch : Touches [.clk, .bobs, .tiles] s (s.putFrame p u f) := (Touches.refl s).putFrame
  exact (told_fields (htouch.stands hvalid)).1.trans hvalid

theorem tileError (h : HintCut p c s) (bit : Nat) : HintCut p c (s.tileError p bit) := by
  refine ⟨?_, ?_, ?_, contained_valid ..⟩
  · rw [tile_tileError]
    exact h.frame
  · rw [tile_tileError]
    simp [h.err]
  · rw [tile_tileError]
    exact h.calm

/-- A CTU row begins. -/
theorem rowEntries (h : HintCut p c s) (f : Frame) (y : Nat) : HintCut p c (s.rowEntries p f y) := by
  have hlose : HintCut p c ((f.badRows.filter fun i => i / f.cols == y + 2).foldl (fun s i => s.loseEntry (mEnc p) f.stream i) s) :=
    h.beside (.foldl (.refl s) fun _ _ hu => hu.loseEntry)
  obtain ⟨g, hg, hcut⟩ := hlose.frame
  unfold State.rowEntries
  dsimp only
  rw [hg]
  exact hlose.setTile rfl hcut rfl rfl

/-- Hint records that follow leave the cut. -/
theorem takeHint (h : HintCut p c s) (x : BitVec 256) (tagged : Bool) : HintCut p c (s.takeHint p x tagged) := by
  obtain ⟨f0, hf0, _⟩ := h.frame
  have hrow : HintCut p c (if f0.hints % f0.cols = 0 then s.rowEntries p f0 (f0.hints / f0.cols) else s) := by
    split
    · exact h.rowEntries ..
    · exact h
  unfold State.takeHint
  rw [hf0]
  dsimp only
  generalize (if f0.hints % f0.cols = 0 then s.rowEntries p f0 (f0.hints / f0.cols) else s) = v at hrow ⊢
  obtain ⟨f, hf, hcut⟩ := hrow.frame
  rw [hf, Option.getD_some]
  split
  · exact hrow
  · rw [if_pos (by rw [hcut]; rfl)]
    refine beside (s := v.setTile p _) ?_ (Touches.trimItems (l := untiled) (.refl _))
    exact hrow.setTile rfl hcut rfl rfl

/-- The composed-seal items leave the cut. -/
theorem takeSeal (h : HintCut p c s) (e : Ecc) : HintCut p c (s.takeSeal p e) := by
  obtain ⟨f, hf, hcut⟩ := h.frame
  unfold State.takeSeal
  rw [hf]
  dsimp only
  generalize (if f.sealMode = 2 then 2 else 1) = k
  split
  · exact h
  · refine beside (s := s.setTile p _) ?_ (Touches.readItem (l := untiled) (Touches.bobDrop (.refl _)))
    exact h.setTile rfl hcut rfl rfl

end HintCut

/-- A device whose tile's frame is cut at a hint record. -/
def ShowsCut (p c : Nat) (t : State) : Prop :=
  ((t.tile p).frame.map fun f => f.cut.hint) = some (some c) ∧ (t.tile p).err.getLsbD 1 = true ∧ t.faults.valid = true

theorem HintCut.shows {p c : Nat} {s : State} (h : HintCut p c s) : ShowsCut p c s := by
  obtain ⟨f, hf, hcut⟩ := h.frame
  exact ⟨by rw [hf, Option.map_some, hcut], h.err, h.valid⟩

theorem HintCut.runs {p c : Nat} {s : State} (h : HintCut p c s) : ShowsCut p c (s.runTreadle p) := by
  obtain ⟨f, hf, hcut⟩ := h.frame
  have hgoes := runTreadle_goes h.calm (by decide) (by decide)
  obtain ⟨g, hg, hon, _⟩ := hgoes.on.frame f hf
  exact ⟨by rw [hg, Option.map_some, hon.cut, hcut], hgoes.on.err.symm ▸ h.err, (told_fields (hgoes.keeps.stands h.valid)).1.trans h.valid⟩

/-! ### The hint record that cuts -/

section
variable {s : State} {p : Nat} {t : Tile} {f : Frame}

/-- The entries of a row that could not be read change of the tile what the frame knows of them. -/
theorem tile_rowEntries {g : Frame} (y : Nat) (hg : (s.tile p).frame = some g) :
    ∃ bad, (s.rowEntries p f y).tile p = { s.tile p with frame := some { g with badRows := bad } } := by
  have hlose : (((f.badRows.filter fun i => i / f.cols == y + 2).foldl (fun s i => s.loseEntry (mEnc p) f.stream i) s).tile p) = s.tile p := by
    have htouch : Touches [.clk, .pins, .store, .paths, .encs, .pool, .intc, .mem, .faults, .out] s
        ((f.badRows.filter fun i => i / f.cols == y + 2).foldl (fun s i => s.loseEntry (mEnc p) f.stream i) s) := .foldl (.refl s) fun _ _ hu => hu.loseEntry
    unfold State.tile
    rw [htouch.same .tiles]
  unfold State.rowEntries
  dsimp only
  rw [hlose, hg]
  exact ⟨_, State.tile_setTile ..⟩

/-- A frame written back with its cut, and the error of the tile. -/
theorem tileError_cuts {x : State} {g : Frame} {c n : Nat} (hcut : g.cut.hint = some c) (hcalm : Calm [4] t.treadle) :
    HintCut p c ((((x.putFrame p t g).count 0x5011 8).count 0x5011 0xA n).tileError p 1) := by
  obtain ⟨k, hk, hcoded⟩ := putFrame_coded x p t g
  refine ⟨?_, ?_, ?_, contained_valid ..⟩
  · rw [tile_tileError]
    exact ⟨k, hk, hcoded.frame.cut.symm ▸ hcut⟩
  · rw [tile_tileError]
    simp
  · rw [tile_tileError]
    exact calm_putFrame (s := x) (f := g) (by decide) hcalm

/-- A cut at a hint record is made. -/
theorem cutHint_cuts (c : Nat) (hcalm : Calm [4] t.treadle) : HintCut p c (s.cutHint p t f c) := by
  unfold State.cutHint
  dsimp only
  exact tileError_cuts rfl (hcalm.cutReport (some c))

/-- A hint record with an error tag cuts the frame. -/
theorem takeHint_cuts (x : BitVec 256) (hf : (s.tile p).frame = some f) (hcut : f.cut.hint = none) (hleft : f.hints < f.size)
    (hcalm : Calm [4] (s.tile p).treadle) : HintCut p f.hints (s.takeHint p x true) := by
  obtain ⟨g, hrow, hgcut, hgsize⟩ : ∃ g, (if f.hints % f.cols = 0 then s.rowEntries p f (f.hints / f.cols) else s).tile p =
      { s.tile p with frame := some g } ∧ g.cut.hint = none ∧ g.size = f.size := by
    split
    · obtain ⟨bad, hbad⟩ := tile_rowEntries (f := f) (f.hints / f.cols) hf
      exact ⟨_, hbad, hcut, rfl⟩
    · exact ⟨f, by rw [← hf], hcut, rfl⟩
  unfold State.takeHint
  rw [hf]
  dsimp only
  generalize (if f.hints % f.cols = 0 then s.rowEntries p f (f.hints / f.cols) else s) = v at hrow ⊢
  rw [hrow]
  dsimp only [Option.getD_some]
  rw [if_neg (by rw [hgsize]; exact Nat.not_le.2 hleft), if_neg (by rw [hgcut]; decide), if_pos (by rfl)]
  exact cutHint_cuts _ hcalm

end

/-! ### An item that has crossed is seen -/

/-- A Bobbin that is open, whose source holds nothing and whose updates have crossed, shows its destination all of its items. -/
theorem bobDst_crossed {s : State} {b : BobbinId} (hopen : (s.bob b).resetAt = none) (hheld : (s.bob b).held = [])
    (hcross : crossing s.clk.now (s.bob b).wrLog = []) :
    ((s.bobDst b).bob b).items = (s.bob b).items ∧ ((s.bobDst b).bob b).avail = (s.bob b).wr - (s.bob b).rd := by
  let v := s.bob b
  have hacked : ∀ (x : Bobbin) now free, x.resetAt = none → x.acked now free = x := fun x now free hx => by
    simp only [Bobbin.acked, hx]
  let a : Bobbin := { v with
    rdSeen := crossed (srcFlops b) s.clk.now (Config.freeNat s.clk.free) v.rdSeen v.rd v.rdLog, rdLog := crossing s.clk.now v.rdLog }
  have hsrc : (s.bobSrc b).bob b = a := by
    show (s.setBob b _).bob b = a
    rw [State.bob_setBob]
    simp only [Bobbin.srcLook, hacked _ _ _ hopen, Bobbin.refill, Bobbin.put, hheld, List.take_nil, List.isEmpty_nil, if_true, List.drop_nil]
    simp only [a, v, hheld]
  have hseen : ∀ flops free, crossed flops s.clk.now free a.wrSeen a.wr a.wrLog = a.wr := fun flops free =>
    if_pos (by rw [show crossing s.clk.now a.wrLog = [] from hcross]; rfl)
  have hdst : (s.bobDst b).bob b = { a with wrSeen := a.wr, wrLog := crossing s.clk.now a.wrLog } := by
    show ((s.bobSrc b).setBob b (((s.bobSrc b).bob b).dstLook b s.clk.now (s.bobSrc b).clk.free)).bob b = _
    rw [State.bob_setBob, hsrc]
    unfold Bobbin.dstLook
    rw [hacked a _ _ hopen]
    dsimp only
    rw [hseen]
  rw [hdst]
  refine ⟨rfl, ?_⟩
  unfold Bobbin.avail
  rw [if_neg (by rw [show a.resetAt = none from hopen]; decide)]

section
variable {s : State} {tile p c : Nat} {f : Frame}

/-- Hint records in a row leave the cut. -/
theorem HintCut.takeHints (h : HintCut p c s) (l : List (BitVec 256 × Bool)) : HintCut p c (l.foldl (fun s y => s.takeHint p y.1 y.2) s) := by
  induction l generalizing s with
  | nil => exact h
  | cons y l ih => exact ih (h.takeHint ..)

/-- A first hint record that cannot be corrected cuts the frame as the tile reads its Bobbins. -/
theorem pollTile_cuts {x : BitVec 256} {g : Bool} {r : List (BitVec 256 × Bool)} (y : Ecc) (hp : encPhys s tile = p) (hserves : p ≠ 0xFF)
    (hf : (s.tile p).frame = some f) (hcut : f.cut.hint = none) (hleft : f.hints < f.size) (hcalm : Calm [4] (s.tile p).treadle)
    (hopen : (s.bob (.hint (ftile p))).resetAt = none) (hheld : (s.bob (.hint (ftile p))).held = [])
    (hcross : crossing s.clk.now (s.bob (.hint (ftile p))).wrLog = []) (hlt : (s.bob (.hint (ftile p))).rd < (s.bob (.hint (ftile p))).wr)
    (hitems : (s.bob (.hint (ftile p))).items = (x, g) :: r) : HintCut p f.hints (s.pollTile tile .uncorrectable y) := by
  obtain ⟨hsame, havail⟩ := bobDst_crossed hopen hheld hcross
  obtain ⟨n, hn⟩ : ∃ n, (s.bobDst (.hint (ftile p))).bobAvail (.hint (ftile p)) = n + 1 := ⟨_, havail.trans (Nat.succ_pred_eq_of_pos (Nat.sub_pos_of_lt hlt)).symm⟩
  have hxs : ((s.bobDst (.hint (ftile p))).bob (.hint (ftile p))).items.take ((s.bobDst (.hint (ftile p))).bobAvail (.hint (ftile p))) = (x, g) :: r.take n := by
    rw [hsame, hitems, hn, List.take_succ_cons]
  unfold State.pollTile
  dsimp only
  rw [hp, if_neg (by rw [hf]; simp [hserves]), hxs]
  dsimp only
  rw [decide_eq_true rfl, Bool.or_true]
  generalize hu : ((s.bobDst (.hint (ftile p))).bobDrop (.hint (ftile p)) ((x, g) :: r.take n).length).readItem (.hint (ftile p)) .uncorrectable = u
  have htile : u.tile p = s.tile p := by
    have htouch : Touches untiled s u := hu ▸ (Touches.refl s).bobDst.bobDrop.readItem
    unfold State.tile
    rw [htouch.same .tiles]
  have hfirst : HintCut p f.hints (u.takeHint p x true) := takeHint_cuts x (by rw [htile]; exact hf) hcut hleft (by rw [htile]; exact hcalm)
  exact ((hfirst.takeHints _).beside (.bobDst (.refl _))).takeSeal y

@[simp] theorem Frame.setLane_cut (f : Frame) (l : Nat) (v : Lane) : (f.setLane l v).cut = f.cut := by
  unfold Frame.setLane
  split <;> rfl

theorem HintCut.ite {b : Prop} [Decidable b] {t : State} (h : HintCut p c s) (h' : HintCut p c t) : HintCut p c (if b then s else t) := by
  split
  · exact h
  · exact h'

/-- An item that cannot be corrected takes a CTU from a lane of a frame that is cut already. -/
theorem HintCut.laneTaken {u : State} (h : HintCut p c s) (hu : HintCut p c u) (hcut : f.cut.hint = some c) (lane : Fin 2) (i : Nat) (x : FrameCtu) :
    HintCut p c (laneTaken s p (u.tile p) f lane i x) := by
  have hput : HintCut p c (s.putFrame p (lostTile (u.tile p) i) (lostFrame f lane i x)) :=
    HintCut.putFrame h.valid ((congrArg Cut.hint (Frame.setLane_cut ..)).trans hcut) hu.err (hu.calm.raised (Raised.estimates ..) (by decide))
  unfold Proofs.laneTaken
  dsimp only
  split
  · exact hput.beside (Touches.count (Touches.count (.refl _)))
  · exact hput.beside (Touches.count (.refl _))

/-- References fetched leave the cut. -/
theorem HintCut.fetchRefs (h : HintCut p c s) (f : Frame) (i : Nat) (x : Hint) : HintCut p c (s.fetchRefs p f i x) := by
  obtain ⟨k, hk⟩ := tile_fetchRefs s p f i x
  exact ⟨hk ▸ h.frame, hk ▸ h.err, hk ▸ h.calm, h.valid⟩

end

section
variable {s : State} {tile : Fin 64} {lane : Fin 2} {p : Nat} {t0 : Tile} {f : Frame}

/-- LANE_CTU_START leaves a cut that its reading of the hint Bobbin has made, whatever becomes of the lane's own CTU. -/
theorem laneCtuStart_keepsCut (e b : Ecc) {c : Nat} (hawake : asleep s = false) (hp : encPhys (s.pollTile tile e) tile = p) (hserves : p ≠ 0xFF)
    (hcut : HintCut p c (s.pollTile tile e)) : ∃ t, exec (.laneCtuStart tile lane e b) s = .next t ∧ ShowsCut p c t := by
  obtain ⟨f, hf, hfcut⟩ := hcut.frame
  have hframe : frameOf (s.pollTile tile e) tile = some (p, (s.pollTile tile e).tile p, f) := by
    unfold frameOf
    dsimp only
    rw [hp, if_neg hserves, hf]
    rfl
  rw [show exec (.laneCtuStart tile lane e b) s = _ from awake_of hawake _]
  dsimp only
  generalize s.pollTile tile e = u at *
  rw [hframe]
  dsimp only
  rw [hp]
  have hseen : HintCut p c (u.bobDst (.ctu (ftile p) lane)) := hcut.beside (.bobDst (.refl _))
  split
  next => exact ⟨_, rfl, hcut.runs⟩
  next i hi =>
    split
    next => exact ⟨_, rfl, hseen.shows⟩
    next x hx =>
      split
      next => exact ⟨_, rfl, hseen.runs⟩
      next =>
        let r : State := ((u.bobDst (.ctu (ftile p) lane)).bobDrop (.ctu (ftile p) lane) 256).readItem (.ctu (ftile p) lane) b
        have hread : HintCut p c r := hseen.beside (Touches.readItem (Touches.bobDrop (.refl _)))
        split
        next =>
          have htaken : HintCut p c (laneTaken _ p ((u.bobDst (.ctu (ftile p) lane)).tile p) f lane i x) := hread.laneTaken hseen hfcut lane i x
          exact ⟨_, rfl, (htaken.tileError 0).runs⟩
        next =>
          refine ⟨_, rfl, HintCut.runs ?_⟩
          have hstarted : ∀ (w : Word) (l : Lane) (k : Tab FrameCtu),
              HintCut p c (r.setTile p { r.tile p with waitWave := w, frame := some { f.setLane lane l with ctus := k } }) := fun w l k =>
            hread.setTile rfl ((congrArg Cut.hint (Frame.setLane_cut ..)).trans hfcut) rfl rfl
          exact .ite (hstarted ..) ((hstarted ..).fetchRefs ..)

theorem laneCtuStart_cuts (s : State) (tile : Fin 64) (lane : Fin 2) (p : Nat) (t0 : Tile) (f : Frame) (b : Ecc) (x : BitVec 256) (g : Bool) (r : List (BitVec 256 × Bool))
    (hawake : asleep s = false) (hframe : frameOf s tile = some (p, t0, f)) (hcut : f.cut.hint = none) (hleft : f.hints < f.size)
    (hidle : treadleIdle t0.treadle) (hopen : (s.bob (.hint (ftile p))).resetAt = none) (hheld : (s.bob (.hint (ftile p))).held = [])
    (hcross : crossing s.clk.now (s.bob (.hint (ftile p))).wrLog = []) (hlt : (s.bob (.hint (ftile p))).rd < (s.bob (.hint (ftile p))).wr)
    (hitems : (s.bob (.hint (ftile p))).items = (x, g) :: r) :
    does (.laneCtuStart tile lane .uncorrectable b) s fun t =>
      ((t.tile p).frame.map fun f1 => f1.cut.hint) = some (some f.hints) ∧ (t.tile p).err.getLsbD 1 = true ∧ t.faults.valid = true := by
  obtain ⟨hp, hserves, htile, hf⟩ := frameOf_some hframe
  have hcalm : Calm [4] (s.tile p).treadle := htile ▸ Calm.of_treadleCalm (.inr hidle)
  have hmade : HintCut p f.hints (s.pollTile tile .uncorrectable) :=
    pollTile_cuts .clean hp hserves (htile ▸ hf) hcut hleft hcalm hopen hheld hcross hlt hitems
  exact laneCtuStart_keepsCut .uncorrectable b hawake (((SameMap.refl s).pollTile.encPhys tile).trans hp) hserves hmade

end

/-- Settles O19: a calm Treadle does nothing of its own beside a lane's command, one at rest only takes the events that the coder raises, and one that
waits idle clears a request by way of its interrupt handler and the gate. -/
theorem lanesCodeTheirCtus : Obligations.LanesCodeTheirCtus :=
  ⟨laneRequest_clears, laneRequest_cut, laneRequest_waits, laneCtuStart_starts, laneCtuStart_loses, laneCtuStart_cuts, laneCtuEnd_settles,
    skipRunCtu_codes, rowClose_advances, ctuFinal_final⟩

end Sys2Proof.Proofs
end
